-- ==== Sys2Proof/Word.lean ====
section
/-! DEFINITION. The words of the machine: bytes and 32-bit register words (R5), and the widths of the
spec's integers. -/

namespace Sys2Proof

/-- A byte of memory or of a wire format. -/
abbrev Byte := BitVec 8

/-- A W0 register is 32 bits wide (R5). -/
abbrev Word := BitVec 32

/-- A sparse map in canonical form: keys rising, no entry equal to what an unlisted key reads as. -/
abbrev Sparse (α : Type) := List (Nat × α)

/-- The sensor ports P0 to P15. -/
abbrev PortNo := Fin 16

/-- The two Span ports: 0 is E, 1 is W. -/
abbrev SpanNo := Fin 2

/-- The two-wire blocks TW0 to TW5. -/
abbrev TwNo := Fin 6

/-- The valve buses V0 to V3. -/
abbrev BusNo := Fin 4

/-- The time bases TB0 to TB3. -/
abbrev BaseNo := Fin 4

/-- The mailbox channels MB0 to MB3. -/
abbrev ChanNo := Fin 4

end Sys2Proof
end

