-- ==== Sys2Proof/Syntax.lean ====
section
/-! DEFINITION. The commands of spec/opcode_table.json. -/

namespace Sys2Proof

/-- Who writes a W0 register: Dennil, or host software through BAR0 (R268). -/
inductive Agent where
  | dennil
  | host
  deriving DecidableEq, Repr

/-- A mailbox command as Dennil takes it from the ring of a channel (R270): the header fields, the payload bytes
(inline or fetched), the pier that forwarded it (none for a command of this unit's own channels, R277), the data found at the
host addresses that the payload names, values that only the outside world knows (measurements, verified signatures), the host
address of an INDIRECT payload, and how often the sending channel had been opened (R277). -/
structure CmdCall where
  origin : Option Nat
  chan : Fin 4
  hiv : Nat
  flags : Nat
  tag : Nat
  target : Nat
  reserved : Nat
  payload : List Byte
  data : List Byte
  nums : List Int
  addr : Nat
  sess : Nat
  deriving DecidableEq, Repr

/-- A calibration entry (R340): its key, generation and payload, and whether it reads intact (R341). -/
structure CalEntry where
  type : Nat
  fmt : Nat
  head : Nat
  phase : Nat
  gen : Nat
  payload : List Byte
  intact : Bool
  deriving DecidableEq, Repr

/-- A profile of the configuration store (R335): the function and number it is loaded by, the register writes it
makes, the bytes of a sensor's start-up sequence, one list per two-wire write (log 21), and for a sensor profile its active
pixel rate in pixels per second (R24). -/
structure Profile where
  func : Nat
  idx : Nat
  writes : List (Nat × Nat)
  script : List (List Byte)
  rate : Nat
  deriving DecidableEq, Repr

/-- One of the copies of the configuration store or of the medium header (R333 to R338): generation, intact, and a number
that is equal for identical contents. -/
structure ConfCopy where
  gen : Nat
  intact : Bool
  content : Nat
  deriving DecidableEq, Repr

/-- A firmware slot (R285): its STATE code (R286) and the image that it holds, header, body and signature (R284). -/
structure FwSlot where
  st : Nat
  img : List Byte
  deriving DecidableEq, Repr

/-- What a medium holds that the unit has not written itself: firmware slots, calibration entries, and of the configuration
store (R335) the profiles, the bad-block table and the digest of the expert token. -/
structure MediumData where
  slots : List FwSlot
  conf : List Profile
  cal : List CalEntry
  bad : List Nat
  token : List Byte
  deriving DecidableEq, Repr

/-- The parameter page of a target, as far as R328 and R332 to R334 use it: manufacturer and model, main and spare bytes of a
page, bytes of a native block, blocks of the target, rated cycles, and whether block 0 is guaranteed valid. -/
structure ParamPage where
  maker : Nat
  model : Nat
  main : Nat
  spare : Nat
  block : Nat
  blocks : Nat
  cycles : Nat
  zeroOk : Bool
  deriving DecidableEq, Repr

/-- An entry of Dennil's table of medium profiles (R332): manufacturer and model, SLC_CMD, and the rated cycles in SLC mode. -/
structure MediumProfile where
  maker : Nat
  model : Nat
  slcCmd : Nat
  peSlc : Nat
  deriving DecidableEq, Repr

/-- The NAND medium as the boot ROM finds it: the parameter page of every populated target of each of the four channels (R327,
R328), the blocks that carry the factory bad-block marker (R331), the copies of its header, each the channel and the codeword
as read, empty where it is uncorrectable (R333; no copy at all: unformatted), the copies of the configuration store, and
contents that come with it, if it is not the medium of before. A block is numbered superblock × targets + target. -/
structure Medium where
  channels : List (List ParamPage)
  marked : List Nat
  headers : List (Nat × List Byte)
  copies : List ConfCopy
  contents : Option MediumData
  deriving DecidableEq, Repr

/-- What the boot ROM finds outside the state at PORST_N release (R420 to R422): the straps, whether trim and fuses resolve
(R339), the fused values, the ports whose receivers fail their self-check (R17), the LP5X capacity in GiB (0 when training
fails), the medium, whether its descriptor image is sound (R252), the slots whose signatures verify (R284), the signing keys
whose fused hash is unrevoked and matches the boot ROM's key (R284), the device key (R333), and Dennil's table of medium
profiles (R332). -/
structure BootFound where
  keystoneN : Bool
  bootSrc : Fin 4
  spanPinv : Bool
  trimOk : Bool
  rev : BitVec 8
  subsystem : BitVec 16
  serial : BitVec 64
  svnMin : BitVec 16
  phyDead : BitVec 16
  lp5xGiB : Nat
  medium : Medium
  imageOk : Bool
  signed : BitVec 3
  keys : BitVec 4
  deviceKey : BitVec 384
  profiles : List MediumProfile
  deriving DecidableEq, Repr

/-- Where a memory request goes: a window of the host (R250), the expansion ROM, or elsewhere (I/O space, a locked read); `dennil`
is an access of Dennil to W2, which takes the same path on the local bus (R314). -/
inductive HostWindow where
  | w0
  | w1
  | w2
  | rom
  | other
  | dennil
  deriving DecidableEq, Repr

/-- How the error check of a read ends (R357): good, corrected, or failed. -/
inductive ReadCheck where
  | good
  | corrected
  | failed
  deriving DecidableEq, Repr

/-- A read of LP5X: how its check ends, and at which address (R357). -/
structure Lp5Read where
  check : ReadCheck
  addr : Nat
  deriving DecidableEq, Repr

/-- Where Toll's budget runs out within a tile (R149): after how many bytes of TILE_ENG's, and whether within TILE_DMA's. -/
structure TileCut where
  eng : Option Nat
  dma : Bool
  deriving DecidableEq, Repr

/-- What a host memory request does (R250). -/
inductive MemOp where
  | read
  | write
  | fetchAdd
  | swap
  | cas
  deriving DecidableEq, Repr

/-- A DENNIL message (R242) with its contents read: the topics that the chapters name. A command of another pier and what
answers it (R277), AC_NBR and AC_XMDL updates (R159), and the host link of a pier (R241). -/
inductive DennilMsg where
  | command (opcode : BitVec 16) (call : CmdCall)
  | taken (tag : Word)
  | completion (opcode : BitVec 16) (status chan : Byte) (tag detail : Word) (result : List Byte)
  | event (kind chan : Byte) (tag : Word) (result : List Byte) (sess : Word)
  | valves (count : BitVec 16)
  | model (group : Fin 8) (view : Fin 4) (en : Bool) (a b : Word) (delays : List Word)
  | modelRequest
  | hostLink (up : Bool)
  deriving DecidableEq, Repr
/-- The commands of the block, one constructor per row of the opcode table, in its order. `ag` says whether the host or Dennil
writes; `c` is a mailbox command (R270). The other operands are what the command carries, and what the spec leaves to the
world outside (a level, a measurement, the data of a transfer). -/
inductive Instr where
  | registerWrite (ag : Agent) (addr : BitVec 24) (value : Word) (be : BitVec 4)
  | powerOnReset
  | powerOnResetRelease (found : BootFound)
  | firmwareStartTimeout (signed : BitVec 3)
  | dennilRunning
  | fullServiceEntry (buses : BitVec 4)
  | aonBrownout
  | unitReset (c : CmdCall)
  | stewardRestart (c : CmdCall)
  | sleep (c : CmdCall)
  | wake
  | bootInfo (c : CmdCall)
  | portEnable (ag : Agent) (port : PortNo) (value : BitVec 32)
  | portDisable (ag : Agent) (port : PortNo)
  | csi2PacketReceive (port : PortNo) (stamp : BitVec 32) (ecc : Fin 3) (dt : BitVec 6) (vc : BitVec 4)
      (field : BitVec 16) (payload : List Byte) (crcErr : Bool)
  | pipelineOutputPlace (port : PortNo)
  | frameStart (port : PortNo) (stamp : BitVec 32) (fn : BitVec 16) (desc0 desc1 : List Byte)
  | frameEnd (port : PortNo)
  | frameTimeout (port : PortNo)
  | presenceAssert (port : PortNo)
  | presenceLost (port : PortNo)
  | powerFault (port : PortNo) (asserted : Bool)
  | slotPowerWrite (ag : Agent) (port : PortNo) (on : Bool)
  | powerSettle (port : PortNo)
  | slotCapCommit (ag : Agent) (port : PortNo) (caps : BitVec 5)
  | attentionButton (port : PortNo)
  | orderlyStop (port : PortNo)
  | hotInsertProfileLoad (port : PortNo) (profile : Fin 64) (headId : BitVec 64)
  | linkTimeout (port : PortNo)
  | sclkDivisorWrite (ag : Agent) (k : Fin 8) (value : BitVec 32)
  | slotArm (ag : Agent) (port : PortNo) (slot : Fin 8)
  | slotCancel (ag : Agent) (port : PortNo) (slot : Fin 8)
  | slotSendStart (bus : Fin 4)
  | settingWriteDone (port : PortNo) (slot : Fin 8)
  | settingWriteFail (port : PortNo) (slot : Fin 8)
  | embeddedDataCheck (port : PortNo) (data : List Byte) (written : BitVec 16)
  | settingForFrame (c : CmdCall)
  | settingCancel (c : CmdCall)
  | settingRawForFrame (c : CmdCall)
  | latencyProfileSet (c : CmdCall)
  | cxBankSwapRequest (ag : Agent) (port : PortNo) (v : Word)
  | cxBankCancel (ag : Agent) (port : PortNo) (v : Word)
  | tableWindowWrite (ag : Agent) (wide : Bool) (index : Fin 5242880) (v : Word)
  | corrLoadCal (c : CmdCall)
  | corrSetMode (c : CmdCall)
  | corrTableLoad (c : CmdCall)
  | corrBankSwap (c : CmdCall)
  | corrParams (c : CmdCall)
  | dmCommit (ag : Agent) (port : PortNo) (v : Word)
  | tapEnable (ag : Agent) (port : PortNo) (engine : Fin 2) (v : Word)
  | tapFrameComplete (port : PortNo) (engine : Fin 2)
  | tapStart (c : CmdCall)
  | tapStop (c : CmdCall)
  | colourLoadCal (c : CmdCall)
  | colourParams (c : CmdCall)
  | statRingWrite (port : PortNo) (poison : List Nat)
  | statCommit (ag : Agent) (port : PortNo) (v : Word)
  | statStart (c : CmdCall)
  | statStop (c : CmdCall)
  | statParams (c : CmdCall)
  | objectSeen (id : Nat)
  | sgCommit (ag : Agent) (port : PortNo) (v : Word)
  | sgBankSwapRequest (ag : Agent) (port : PortNo) (v : Word)
  | sgBankCancel (ag : Agent) (port : PortNo) (v : Word)
  | segLearnBg (c : CmdCall)
  | segLoadProfile (c : CmdCall)
  | segParams (c : CmdCall)
  | segTableLoad (c : CmdCall)
  | orphanTimeout (id : Nat)
  | verdictDeadline (owner : Nat)
  | entryRetire (owner : Nat)
  | setCloseTime (low : Nat)
  | groupDisable (ag : Agent) (g : Fin 8)
  | mateCandReceive (src : Nat) (payload : List Byte)
  | mateSetReceive (src : Nat) (payload : List Byte)
  | mateOutcomeReceive (_src : Nat) (payload : List Byte)
  | mateVerdictReceive (_src : Nat) (payload : List Byte)
  | mateWithdrawReceive (_src : Nat) (payload : List Byte)
  | remoteWaitExpiry (id : Nat)
  | viewLoadCal (c : CmdCall)
  | viewCalRun (c : CmdCall)
  | viewCalRunEnd
  | viewParams (c : CmdCall)
  | viewTableLoad (c : CmdCall)
  | tileCropStart (id : Nat) (cut : TileCut) (read : Lp5Read)
  | tilePacketReceive (src msg seg : Nat) (payload : List Byte) (dmaCut : Bool)
  | tileDescriptorWrite (ring : Fin 64) (seq : Nat)
  | tileDoneReceive (src : Nat) (payload : List Byte)
  | tileAckTimeout (id : Nat)
  | tileIncompleteTimeout (ring : Fin 64) (seq : Nat)
  | tileRingConsWrite (ring : Fin 64) (value : Word)
  | verdictDoorbell (ring : Fin 16) (tail : BitVec 12)
  | verdictFetch
  | verdictFetchComplete (ring : Fin 16) (data : List Byte)
  | actVerdictReceive (_src : Nat) (payload : List Byte)
  | actOrderReceive (src : Nat) (payload : List Byte)
  | actResultReceive (src : Nat) (payload : List Byte)
  | actCancelReceive (src : Nat) (payload : List Byte)
  | remoteLaunch (owner : Nat)
  | frameAssemble (b : BusNo)
  | valveFrameStart (b : BusNo)
  | valveFrameEnd (b : BusNo)
  | safeFrameRepeat
  | idleSafeFrame (b : BusNo)
  | busEnableWrite (ag : Agent) (b : BusNo) (en : Bool)
  | boardPoll (b : BusNo) (addr : Fin 32)
  | statusFrameReceive (b : BusNo) (frame : List Byte)
  | pollNoAnswer (b : BusNo)
  | ejectLoadCal (c : CmdCall)
  | ejectCalRun (c : CmdCall)
  | ejectCalRunEnd
  | ejectTest (c : CmdCall)
  | tbNsRead (ag : Agent) (base : BaseNo)
  | tbSnap
  | tbSourceWrite (ag : Agent) (base : BaseNo) (src : Fin 8)
  | tb1Measure
  | tbHoldoverEntry (base : BaseNo)
  | tbStep (ag : Agent) (base : BaseNo)
  | tbAlign (ag : Agent)
  | tbClearIntegrator (ag : Agent) (base : BaseNo)
  | syncSend (phase : Fin 32)
  | syncReceive (port : SpanNo) (payload : List Byte) (phase : Fin 32) (gap : Nat)
  | dreqReceive (port : SpanNo) (payload : List Byte) (phase : Fin 32)
  | drespReceive (port : SpanNo) (payload : List Byte)
  | drespMiss
  | ptmDialogue
  | ptmResponse (root : BitVec 64)
  | ppsEdge (rising : Bool)
  | ppsMiss
  | alarmFire (alarm : Fin 8)
  | timeLoadProfile (c : CmdCall)
  | timeAlign (c : CmdCall)
  | timeStep (c : CmdCall)
  | spanPortEnable (ag : Agent) (port : SpanNo) (en : Bool) (cut : Fin 3)
  | spanDetect (port : SpanNo) (term : BitVec 4)
  | spanBitLock (port : SpanNo) (locked inv : BitVec 4)
  | spanLockDone (port : SpanNo) (ok : BitVec 4) (plane : List (Fin 4))
  | spanExchangeDone (port : SpanNo) (exch : List Byte) (offered : Fin 5)
  | spanStateTimeout (port : SpanNo) (locked : BitVec 4)
  | spanLaneFail (port : SpanNo) (lane : Fin 4) (cv disp : Nat) (comMiss : Bool) (cut : Fin 3)
  | spanLinkDown (port : SpanNo) (cut : Fin 3)
  | spanTsReceived (port : SpanNo) (cut : Fin 3)
  | spanRetrain (ag : Agent) (port : SpanNo) (full : Bool) (cut : Fin 3)
  | skipSend (port : SpanNo)
  | skipReceive (port : SpanNo) (adj : Bool) (cv disp : List Nat) (osErr : Nat)
  | creditAuditSend (port : SpanNo)
  | creditAuditReceive (port : SpanNo) (data : List Byte)
  | eyeScanStart (ag : Agent) (port : SpanNo) (value : Word)
  | eyeScanDone (port : SpanNo) (errs : Nat)
  | spanLinkRetrain (c : CmdCall)
  | spanEyeScan (c : CmdCall)
  | spanLaneParams (c : CmdCall)
  | spanPacketForward (port : SpanNo) (raw : List Byte) (bad poison : Bool) (phase : Fin 32) (gap : Nat) (dmaCut : Bool)
  | spanPacketSend (port : SpanNo)
  | helloReceive (port : SpanNo) (payload : List Byte)
  | creditReceive (port : SpanNo) (payload : List Byte)
  | creditReturn (port : SpanNo)
  | enumReceive (port : SpanNo) (payload : List Byte)
  | enumEndReceive (payload : List Byte)
  | enumTimeout
  | reportReceive (port : SpanNo) (hops : Nat) (payload : List Byte)
  | chainReceive (payload : List Byte)
  | pierReqReceive (port : SpanNo) (payload : List Byte)
  | assignReceive (payload : List Byte)
  | renumReceive (payload : List Byte)
  | dennilMessageReceive (src : BitVec 10) (msg : DennilMsg)
  | bulkPacketReceive (port : SpanNo) (payload : List Byte)
  | spanChainRead (c : CmdCall)
  | spanReenumerate (c : CmdCall)
  | spanSetHost (c : CmdCall)
  | spanCreditParams (c : CmdCall)
  | hostLinkUp (speed : BitVec 3) (width : BitVec 5)
  | configRequest (type1 write : Bool) (dw : BitVec 10) (be : BitVec 4) (data : Word) (tag : BitVec 10)
  | memoryRequest (win : HostWindow) (op : MemOp) (dw : BitVec 34) (count : BitVec 10) (first last : BitVec 4)
      (data : List Byte) (tag : BitVec 10) (poisoned : Bool) (check : ReadCheck)
  | busMasterEnableClear
  | busMasterEnableSet
  | d3hotEntry
  | functionLevelReset
  | flrDmaSilence
  | flrComplete
  | linkReset (perst : Bool)
  | completionTimeout (tag : BitVec 10)
  | completionReceive (tag : BitVec 10) (status : Fin 3) (data : List Byte)
  | tagQuarantineEnd (tag : BitVec 10)
  | tagPoolSwitch
  | vectorEoi (vector : BitVec 11)
  | laneMarginCommand (lane : Fin 16) (control : BitVec 16) (errors : BitVec 6)
  | descriptorImageRefresh
  | channelOpenRequest (ch : ChanNo)
  | channelOpen (ch : ChanNo)
  | mbClose (ch : ChanNo)
  | commandDoorbell (ch : ChanNo) (tail : BitVec 12)
  | commandTake (entry indirect data : List Byte) (nums : List Int)
  | completionWrite (ch : ChanNo)
  | eventDeliver (ch : ChanNo)
  | deferredComplete (ch : Fin 5) (tag : Word) (ok : Bool) (back : Option (Nat × Byte))
  | leaseExpiry (lease : Fin 32)
  | sensorProfileLoad (c : CmdCall)
  | portStop (c : CmdCall)
  | portPower (c : CmdCall)
  | info (c : CmdCall)
  | channelClose (c : CmdCall)
  | expertTokenSet (c : CmdCall)
  | fwWrite (c : CmdCall)
  | fwActivate (c : CmdCall)
  | cmdAbort (c : CmdCall)
  | eventMask (c : CmdCall)
  | leaseOpen (c : CmdCall)
  | leaseClose (c : CmdCall)
  | leaseRenew (c : CmdCall)
  | cwVersion
  | cwStatus
  | fwLoad (sigOk : Bool) (check : ReadCheck) (addr : Nat)
  | capture
  | twCommandGo (ag : Agent) (block : TwNo) (value : BitVec 32)
  | twTransactionStart (block : TwNo)
  | twTransactionEnd (block : TwNo) (acked : Nat) (data : List Byte) (pecByte : Option (BitVec 8)) (status : Fin 5)
      (byte : BitVec 8) (bitNo : Fin 8)
  | twTargetCommit (block : TwNo) (addr : BitVec 7) (bytes : List Byte) (close : Fin 5) (lost : Option (Fin 8))
  | twTargetRead (block : TwNo) (addr : BitVec 7) (clocked : Nat) (win : Bool) (lost : Option (Fin 8))
  | twSclTimeout (block : TwNo) (tgt : Bool)
  | twSdaTimeout (block : TwNo) (high : Bool)
  | twAlertRequest (ag : Agent) (block : TwNo) (req : Bool)
  | twAlertInEdge (block : TwNo) (low : Bool)
  | twWakeMatch (block : TwNo) (a1 : Bool)
  | twLoadProfile (c : CmdCall)
  | twTgtResp (c : CmdCall)
  | twXfer (c : CmdCall)
  | lbGrant (req0 req1 : Bool)
  | lbOutboundBeat
  | lbTransactionEnd (resp : Fin 3) (data : Word)
  | lbNorespTimeout
  | lockedSequence (resp : List (Nat × Nat))
  | lbInboundWrite (master : Fin 2) (addr : Word) (be : BitVec 4) (data : Word)
  | lbInboundRead (master : Fin 2) (addr : Word) (be : BitVec 4)
  | delayedReadComplete (entry : Fin 8) (status : Fin 3) (data : Word)
  | delayedReadDiscard (entry : Fin 8)
  | abLogInfoRead (ag : Agent) (slot : Fin 8)
  | sidebandSample (lines : BitVec 16)
  | abLoadProfile (c : CmdCall)
  | abParams (c : CmdCall)
  | codewordRead (part : Fin 5) (idx cw block : Nat) (step : Fin 9) (fixed : Nat) (uncorr : Bool)
  | nandProgramDone (part : Fin 5) (block : Nat) (ok last : Bool)
  | nandEraseDone (part : Fin 5) (block : Nat) (ok : Bool)
  | patrolPass (done : Bool)
  | blockRefresh (part : Fin 5) (block : Nat) (uncorr : Bool)
  | calCompaction
  | eraseCreditAccrue
  | evidenceWrite (good erases : Nat) (cut : Bool) (read : Lp5Read)
  | logPeriodic
  | faultRecord
  | evidRead (c : CmdCall)
  | logRead (c : CmdCall)
  | evInfo (c : CmdCall)
  | evidClear (c : CmdCall)
  | tollPeriodStart
  | tollCommit (ag : Agent)
  | tollRescale (resource : Fin 4)
  | lp5xChannelLost (channel : Fin 8) (retrain : Bool) (free other : List Nat) (copies : List (Nat × Nat))
      (tiles : List (Nat × Nat × Nat))
  | scrubPass (ces ues : List Nat)
  | tollLoadProfile (c : CmdCall)
  | memInfo (c : CmdCall)
  | tollSet (c : CmdCall)
  | poolSet (c : CmdCall)
  | emInputEdge (inp : Fin 16) (ball : Bool)
  | emOutPulseEnd (out : Fin 16)
  | emFireWrite (ag : Agent) (producer : Fin 256)
  | stormTrip (producer : Fin 256)
  | emTripClear (ag : Agent) (word : Fin 8) (mask : Word)
  | cellClear (ag : Agent) (cell : Fin 32)
  | emLoadProfile (c : CmdCall)
  | emFire (c : CmdCall)
  | emRouteLoad (c : CmdCall)
  | queueRtagRead (ag : Agent) (q : Fin 66) (poison : Bool)
  | queueStale (q : Fin 66)
  | queueHwRead (q : Fin 66)
  | faultDetect (src : Fin 512) (holds : Bool)
  | parapetNoticeReceive (payload : List Byte)
  | supplyExcursion (rail : Fin 8)
  | tjWarn (tj : BitVec 16)
  | tjCritical (tj : BitVec 16)
  | clockLoss (clock : Fin 3)
  | watchdogExpiry
  | watchdogKick (ag : Agent)
  | watchdogEnable (ag : Agent)
  | aliveToggle
  | safeForce (ag : Agent)
  | safeRelease (ag : Agent) (ended : List Nat)
  | stickyClear (ag : Agent) (word : Fin 16) (mask : Word) (ended : List Nat)
  | divertHoldWrite (ag : Agent) (hold : Bool)
  | paClear (c : CmdCall)
  | paRelease (c : CmdCall)
  | paForceSafe (c : CmdCall)
  | paConfig (c : CmdCall)
  | auditPass
  | writeWindowClose (port : PortNo)
  | ulpsEntryExit (port : PortNo) (lane : Fin 5) (mode : Fin 3)
  | perstNRelease
  | startStopCondition (block : TwNo) (start : Bool)
  | cellFire (cell : Fin 32)
  | tjSample (tj : BitVec 16)
  deriving DecidableEq, Repr

end Sys2Proof
end

