-- ==== Sys2Proof/Decode.lean ====
section
/-! DEFINITION. The opcode table gives its rows no bits: the block takes commands, and no word spells one. -/

namespace Sys2Proof

/-- The command that a word spells by the bits of the opcode table: none, for every row has an empty list of fields. -/
def decodeTableWord (_nbits _w : Nat) : Option Instr := none

end Sys2Proof
end

