-- ==== Sys2Proof/Config.lean ====
section
/-! DEFINITION. What one implementation fixes and the spec leaves open: the free values. Nothing in Lean can
evaluate a free value or prove a value of it, so whatever is proved holds for every value. -/

namespace Sys2Proof

/-- The n-th free value: a value that the spec leaves open although the step that uses it goes on. A step
takes the value numbered by State.freeCtr and advances the counter (log 1). -/
opaque Config.free (n : Nat) : BitVec 64

end Sys2Proof
end

