-- ==== Sys2Proof/Machine/State.lean ====
section
/-! DEFINITION. The state of the ZT1664 as plain data. Every W0 register lives in `State.regs`, one sparse map in
canonical form keyed by W0 byte offset, which lists only values other than the reset value (Machine/Regs.lean);
everything else the spec gives the unit stands in the structures below. -/

namespace Sys2Proof.Machine

/-- No command of the table stops the machine with a fault: the hardware reports its faults in State. The one
constructor is never raised. -/
inductive Fault where
  /-- Raised by no meaning; safe. -/
  | none
  deriving DecidableEq, Repr

/-- Why a command has no meaning here. -/
inductive Refusal where
  /-- The command is not modelled yet; safe (the machine stops). -/
  | notModelled (mnemonic : String)
  deriving DecidableEq, Repr

/-! ## Span (chapters 12 and 13) -/

/-- A Span packet (R229) with its CRC left to the link: header fields and payload. -/
structure SpanPkt where
  cls : Nat
  flags : Nat
  dst : Nat
  src : Nat
  msg : Nat
  seg : Nat
  ttl : Nat
  payload : List Byte
  deriving DecidableEq, Repr

/-- A packet waiting in a port's transmit queue: its packet; for a forwarded one, the port it came in on, whose credits are
freed when its last symbol has left (R236); whether it is cut through and ends with EAB (R233); and whether a time marker goes
before it, at whose departure it is stamped (R208). -/
structure TxItem where
  pkt : SpanPkt
  ingress : Option (Fin 2)
  eab : Bool
  timed : Bool
  deriving DecidableEq, Repr

/-- The partner's last HELLO (R242). -/
structure Hello where
  flags : Nat
  pier : Nat
  hops : Nat
  otherPier : Nat
  floor : Nat
  serial : Nat
  deriving DecidableEq, Repr

/-- The network layer of one Span port: credit counts per class (R235, R236) in CLASS order, the transmit queues, locally made
and forwarded, per class (R234), the partner, the markers sent (R208), the BULK packets that wait in the receive buffer
(R360), and whether a number has been asked or given for the partner (R225). -/
structure NetPort where
  active : Bool
  helloRx : Bool
  grant : List Nat
  sent : List Nat
  freed : List Nat
  offered : List Nat
  rcvd : List Nat
  ownFreed : List Nat
  reported : List Nat
  txLocal : List (List TxItem)
  txFwd : List (List TxItem)
  fwdLast : List Bool
  bulkLast : Bool
  partner : Option Hello
  tmkSeq : Nat
  bulkWait : List (List Byte)
  asked : Bool
  deriving DecidableEq, Repr

/-- One unit of the chain map (R222): pier, TRANSPARENT, HOST_LINK, KEYSTONE. -/
structure ChainUnit where
  pier : Nat
  transparent : Bool
  hostLink : Bool
  keystone : Bool
  deriving DecidableEq, Repr

/-- What the Keystone holds of one unit, nearest first on each side: its pier and SERIAL (R225), whether it has reported
since, its side, its host link, its last REPORT (R242), and whether it is transparent and so has no pier (R227). -/
structure PierHold where
  pier : Nat
  serial : Nat
  present : Bool
  east : Bool
  hostLink : Bool
  eastVer : Nat
  westVer : Nat
  idle : Nat
  transparent : Bool
  deriving DecidableEq, Repr

/-- The stage of an enumeration on the Keystone (R224). -/
inductive EnumStage where
  | idle
  | east
  | west
  deriving DecidableEq, Repr

/-- The network layer of the unit: the last chain map received (R222), message numbers per class (R229), the
Keystone's books (R224 to R226), a CHAIN message that is still arriving, the last CHAIN payload (R243), the PIER_REQs that
wait for an enumeration to end (requester, SERIAL, side), and the IDLE byte last reported (R228). -/
structure NetSt where
  ports : Vector NetPort 2
  chain : List ChainUnit
  msgNo : List Nat
  holds : List PierHold
  stage : EnumStage
  lastEast : Nat
  lastWest : Nat
  serial : Nat
  chainRx : List Byte
  lastChain : List Byte
  pierReqs : List (Nat × Nat × Bool)
  idleSent : Nat
  deriving DecidableEq, Repr

/-- Errors of a lane within the error window (R214): the tick at which they were counted, the lane, how many. -/
structure LaneErr where
  at_ : Nat
  lane : Nat
  count : Nat
  deriving DecidableEq, Repr

/-- The points (H, V) of a SPAN_EYE_SCAN that are still to be scanned, the first of them running, and the counts of those done,
last first (R220). -/
structure EyeGrid where
  todo : List (Nat × Nat)
  done : List Nat
  deriving DecidableEq, Repr

/-- The lanes of one Span port that are no register: the lanes with a termination and those of the attempt (R211),
whether the attempt is a quick retrain, the rates that have failed since DETECT (R212), LANE_EN, RATE_EN and the error
threshold as they stood at the last entry to DETECT or TRAIN, the errors of the last 1 ms (R214), and the grid of a
SPAN_EYE_SCAN (R220). -/
structure LanePort where
  detected : Nat
  attempt : Nat
  quick : Bool
  failedRates : List Nat
  laneEn : Nat
  rateEn : Nat
  thr : Nat
  errs : List LaneErr
  grid : Option EyeGrid
  deriving DecidableEq, Repr

/-! ## Queues, Toll and memory (chapters 19 and 21) -/

/-- A stored read word of a queue instance and its tag (R386, R388). -/
structure QWord where
  bytes : List Byte
  tag : Nat
  deriving DecidableEq, Repr

/-- One queue instance: its held words, oldest first, the reader latch, and a hardware reader that is draining
after the stale timer (R392, R393). -/
structure Queue where
  words : List QWord
  latch : List Byte
  drain : Bool
  deriving DecidableEq, Repr

/-- Toll beside its registers: the budgets in force (R370) and the sums of R366, all by 4 × client + resource, whether an overspent
period was already counted for a client (R367), the capacities before the
last change of each (R370), and the units of transfers in progress that streaming clients still have to issue (log 23). -/
structure TollSt where
  budget : Sparse Nat
  granted : Sparse Nat
  spent : Sparse Nat
  forfeit : Sparse Nat
  short : List Nat
  prevCap : List Nat
  owed : Sparse Nat
  deriving DecidableEq, Repr

/-- The memory attachment beside its registers: blocks held per pool (R360), uncorrectable errors per channel in the present
second and which second that is (R359), the bytes of LP5X (R355), and the pools whose low-water mark a read has cleared
(log 82). -/
structure MemSt where
  held : List Nat
  ueNow : List Nat
  ueSecond : Nat
  lp5 : Sparse Byte
  lowClear : List Nat
  deriving DecidableEq, Repr

/-! ## Event matrix and Parapet (chapters 20 and 22) -/

/-- The event matrix beside its registers: event inputs waiting at each cell (four bits per cell, R381), and the storm guard's
window and the firings in it (R383). -/
structure EmSt where
  cellEv : Sparse Nat
  window : Nat
  fired : Sparse Nat
  deriving DecidableEq, Repr

/-- Parapet beside its registers: sources that assert now (R397), logged detections so far (R404), the level of
ALIVE (R401), when the watchdog was last kicked (R402), whether the steward is held halted (R406), whether this safe state's
notice has been sent (R403), and the detections that wait for their FAULT record (R404). -/
structure PaSt where
  asserting : List Nat
  logged : Nat
  alive : Bool
  kickAt : Nat
  halted : Bool
  safeSent : Bool
  faultRecs : List Nat
  deriving DecidableEq, Repr

/-! ## Pixels (chapters 2 and 4 to 7) -/

/-- A T3 pixel: channels R, G, B, N. -/
structure Px where
  r : Nat
  g : Nat
  b : Nat
  n : Nat
  deriving DecidableEq, Repr

/-- A line of T3 in an image of its port (R62): the image's number and the line's index in it, the frame and line index
within it, its TB1 stamp (R28) and setting generation (R51), its pixels, and its mask once morphology has produced it
(R107). -/
structure T3Line where
  img : Nat
  y : Nat
  frame : Nat
  idx : Nat
  stamp : Nat
  gen : Nat
  px : List Px
  mask : Option (List Bool)
  deriving DecidableEq, Repr

/-- A setting slot beside its registers (R46, R50): its place in arming order, the command that armed it as its applied
record is addressed (none when its report channel has closed), the frame recorded as unsure, and the FS of the write frame
in which its transfer started. -/
structure SetSlot where
  order : Nat
  rep : Option CmdCall
  unsure : Nat
  fs : Nat
  deriving DecidableEq, Repr

/-- An applied record that waits for embedded data or the frame's close (R50): generation, bytes, addressee. -/
structure HeldRec where
  gen : Nat
  bytes : List Byte
  rep : Option CmdCall
  deriving DecidableEq, Repr

/-- A line in a pipeline: its image and index in it, the record of its frame, frame and line index, stamp, generation, the
first padded column (R29), and the values of each stage once it has run: samples (R20), p1, the static-listed columns, p4
(R55), T2 and T3 (R79, R80), the raw mask and the mask (R105, R107). -/
structure PLine where
  img : Nat
  y : Nat
  key : Nat
  frame : Nat
  idx : Nat
  stamp : Nat
  gen : Nat
  pad : Nat
  raw : List Nat
  p1 : List Nat
  listed : List Bool
  p4 : List Nat
  t2 : List Px
  t3 : List Px
  m0 : List Bool
  mask : List Bool
  deriving DecidableEq, Repr

/-- What waits before a pipeline: a line in the receive buffer (R24), or the end of an image with the flag that its open
objects close with (R111). -/
inductive RxItem where
  | line (l : PLine)
  | imgEnd (flag : Nat)
  deriving DecidableEq, Repr

/-- The accumulators of a statistics record (R96 to R98): per window, per T1 channel, the bins by 256 × channel + bin, and
the plate per T3 channel. -/
structure StAcc where
  ten : List Nat
  lap : List Nat
  cnt : List Nat
  hsum : List Nat
  hcnt : List Nat
  bins : Sparse Nat
  psum : List Nat
  pcnt : Nat
  deriving DecidableEq, Repr

/-- A frame whose lines are in the pipeline: the parameters in force from its line 0 (the CX words with the compensation
set, the active DM, SG and ST words, the reference bank; a second CX and DM set for the odd half of a ganged pair), whether
it is measured, its accumulators, the lines that have left the mask stage, and at its close its status word, delivered
lines and STRIP_ID. -/
structure FrameRec where
  key : Nat
  frame : Nat
  gen : Nat
  fs : Nat
  cx : List Nat
  cx2 : List Nat
  dm : List Nat
  dm2 : List Nat
  sg : List Nat
  sgBank : Nat
  st : List Nat
  meas : Bool
  acc : StAcc
  masked : Nat
  closed : Option (Nat × Nat × Nat)
  deriving DecidableEq, Repr

/-- The open frame: its record, lines arrived and delivered, status bits so far, first and last line stamps, whether the
overflow rule drops its lines. -/
structure CurFrame where
  key : Nat
  count : Nat
  delivered : Nat
  fstat : Nat
  first : Nat
  last : Nat
  trunc : Bool
  deriving DecidableEq, Repr

/-- A frame that a tap engine has taken: its record, descriptor index and contents, the engine's settings, the frame's
lines that have passed the tap point, ROI lines written, STATUS (0 while it runs well), and its frame's status word and
delivered lines at the close. -/
structure TapFrame where
  key : Nat
  frame : Nat
  gen : Nat
  idx : Nat
  addr : Nat
  len : Nat
  int : Bool
  point : Nat
  fmt : Nat
  stride : Nat
  x0 : Nat
  w : Nat
  y0 : Nat
  h : Nat
  seen : Nat
  lines : Nat
  status : Nat
  closed : Option (Nat × Nat)
  deriving DecidableEq, Repr

/-- A tap engine beside its registers: the first frame since it was enabled, EN to be cleared at the next FS (R92), the
frames taken, oldest first, and the next descriptor once it has been read (R89, R254). -/
structure TapSt where
  f0 : Option Nat
  stopNext : Bool
  frames : List TapFrame
  desc : List Byte
  deriving DecidableEq, Repr

/-- An open object (R108 to R113): its entry, where and when it began, its last line, its runs there, the accumulated
features, and the limits of its first line's frame (R112). -/
structure OpenObj where
  id : Nat
  img : Nat
  y0 : Nat
  yLast : Nat
  frame : Nat
  idx : Nat
  first : Nat
  last : Nat
  gen : Nat
  genMix : Bool
  edge : Bool
  merged : Bool
  runs : List (Nat × Nat)
  area : Nat
  sx : Nat
  sumY : Nat
  cracks : Nat
  sum : List Nat
  sq : List Nat
  hist : Sparse Nat
  alarm : List Nat
  ssum : Nat
  sn : Nat
  x0 : Nat
  x1 : Nat
  areaMin : Nat
  areaMax : Nat
  speckPass : Bool
  deriving DecidableEq, Repr

/-- A background learn in progress (R123): FLAGS, COUNT, lines still to take, whether it waits for line 0 of a frame, and
the sums by 4 × column + channel (by channel in area mode). -/
structure Learn where
  flags : Nat
  count : Nat
  left : Nat
  waits : Bool
  sums : Sparse Nat
  pixels : Nat
  deriving DecidableEq, Repr

/-- One sensor port beside its registers: its setting slots and held records; the TB1 timestamp of the last FS and whether
one has come since the port was enabled; the staging ring (R142) and its blocks; then the front end (the open frame, the
image and line it delivers next, the registers latched at the frame start (R39), the last non-zero frame number, the start
of the last line delivered, whether a strip break was counted since the last line arrived, whether the strip holds a line,
whether a burst was seen since R35 began to count, whether an orderly stop is due, the commands that wait for it); then
the pipeline (the receive buffer, the lines in the stages, the frames, the image's end with its flag, how many lines of the
image each stage has done, the bytes of the next T3 line still to place per half, whether segmentation was enabled for the last
labelled line, the open objects, a background learn); and the bank swaps requested with their tables and frame (R69), the active shadow values, the statistics sequence, the taps and the
head's identity (R71); the frame timeout latched at the frame start (R39), the level of HP_PWRFLT_N (R36), the indicator as
driven (R34) and, in ports 0 to 7, what SCLK_OUT carries (R38); and the bytes of the oldest statistics record already in
the host ring (R100). -/
structure PortSt where
  slots : List SetSlot
  held : List HeldRec
  fsStamp : Nat
  anyFs : Bool
  stage : List T3Line
  img : Nat
  imgOpen : Bool
  stageBlocks : Nat
  cur : Option CurFrame
  nextKey : Nat
  nextImg : Nat
  nextY : Nat
  tsAdj : Nat
  gap : Nat
  prevFn : Nat
  lastLine : Option Nat
  brkHere : Bool
  stripOpen : Bool
  burst : Bool
  stopDue : Bool
  rx : List RxItem
  lines : List PLine
  frames : List FrameRec
  ended : Option Nat
  nIn : Nat
  nCor : Nat
  nRec : Nat
  nPlc : Nat
  nMsk : Nat
  nLab : Nat
  owed : Option (Nat × Nat)
  segWas : Bool
  objs : List OpenObj
  learn : Option Learn
  cxReq : Option (Nat × Option Nat)
  sgReq : Option (Nat × Option Nat)
  dmAct : List Nat
  sgAct : List Nat
  stAct : List Nat
  stF0 : Option Nat
  stSeq : Nat
  stLost : Nat
  taps : List TapSt
  headId : Nat
  frmTmo : Nat
  fltPin : Bool
  ind : Nat
  sclk : Option (Nat × Nat)
  stPos : Nat
  deriving DecidableEq, Repr

/-! ## The ledger and the object path (chapters 7 to 10) -/

/-- The states of a ledger entry (R117). -/
inductive EState where
  | free | opened | seen | mated | tiled | judged | scheduled | fired | passed | defaulted | dropped | retired
  deriving DecidableEq, Repr

/-- A ledger entry (R117); its bytes appear in the W0 mirror (R122). `range` is the port range that
assigned it (R126); `img`, `y0`, `y1` place its lines in an image of its port (R62), `gen` is the setting generation of
its first line's frame (R51), and `lastExt` is LAST_STAMP extended to the full width of TB1 (R185), for times that lie more
than 2 s from it. -/
structure Entry where
  id : Nat
  st : EState
  port : Nat
  group : Nat
  view : Nat
  outcome : Nat
  flags : Nat
  mateNext : Nat
  frame : Nat
  firstStamp : Nat
  lastStamp : Nat
  featPtr : Nat
  area : Nat
  action : Nat
  change : Nat
  range : Option Nat
  img : Nat
  y0 : Nat
  y1 : Nat
  gen : Nat
  lastExt : Nat
  deriving DecidableEq, Repr

/-- A mate set with a member on this pier (R118, R132, R135): its member IDs rising, those of them that
follow it on this pier, its owner, the latest
LAST_STAMP of its members (R12) and its planned launch (R163), both extended to the full width of TB1 (R185), the home pier
that formed it, and the group deadline in µs and default action as they stood when it closed (R140, R155). -/
structure SetRec where
  members : List Nat
  locals : List Nat
  owner : Nat
  lastMax : Nat
  home : Nat
  planned : Option Nat
  deadline : Nat
  dflt : Nat
  deriving DecidableEq, Repr

/-- When a set's entries retire: the set's owner and launch + duration (R119, R137). -/
structure RetireAt where
  owner : Nat
  time : Nat
  deriving DecidableEq, Repr

/-- An object that has closed and whose feature record is on its way to LP5X (R111, R115): its ID, its record, and
whether it passes as a speck (R112, R119). -/
structure ClosedObj where
  id : Nat
  record : List Byte
  speckPass : Bool
  deriving DecidableEq, Repr

/-- A mate set whose entries have retired: its members, owner and deadline, and whether this unit owned it, by which a verdict that
comes later is sorted (R120, R137, R154). -/
structure EndedSet where
  members : List Nat
  owner : Nat
  deadline : Nat
  owned : Bool
  deriving DecidableEq, Repr

/-- The ledger: entries by index, unlisted ones FREE; the free list as the never-used indices from `fresh` up,
then the retired ones, oldest first (R116); the mate sets; the retirements due (R119, R137); the objects closed whose record
is on its way (R115); the sets that have ended (R120). -/
structure LedgerSt where
  entries : Sparse Entry
  fresh : Nat
  retired : List Nat
  sets : List SetRec
  retireAt : List RetireAt
  closed : List ClosedObj
  ended : List EndedSet
  deriving DecidableEq, Repr

/-- A member of a provisional set (R129, R130): the fields of its CAND or of its own record. -/
structure Member where
  id : Nat
  view : Nat
  first : Nat
  last : Nat
  cx : Nat
  area : Nat
  partialView : Bool
  width : Nat
  deriving DecidableEq, Repr

/-- A provisional set of a group (R130). -/
structure ProvSet where
  group : Nat
  members : List Member
  deriving DecidableEq, Repr

/-- The home pier's record of a set that it closed with members on a neighbour (R136). -/
structure HomeRec where
  members : List Member
  owner : Nat
  lastMax : Nat
  decided : Bool
  deriving DecidableEq, Repr

/-- A local object whose group has a neighbouring home and that waits for its SET (R134, R136); no home where there is no
neighbour on that side. -/
structure RemoteWait where
  id : Nat
  home : Option Nat
  expiry : Nat
  deriving DecidableEq, Repr

/-- An object seen during a calibration run: view, FIRST_STAMP, CX and the width of its port. -/
structure CalObj where
  view : Nat
  first : Nat
  cx : Nat
  width : Nat
  deriving DecidableEq, Repr

/-- A calibration run in progress (R138, R181): its group, views, FLAGS and COUNT, the group's enable to restore, and
the gate captures. -/
structure CalRun where
  group : Nat
  src : Nat
  dst : Nat
  flags : Nat
  count : Nat
  sep : Nat
  lo : Int
  hi : Int
  wasEn : Bool
  gate : List Nat
  objs : List CalObj
  deriving DecidableEq, Repr

/-- The matcher (chapter 8). -/
structure ViewSt where
  prov : List ProvSet
  recs : List HomeRec
  waits : List RemoteWait
  calRun : Option CalRun
  ejectRun : Option CalRun
  deriving DecidableEq, Repr

/-- A tile produced and not yet delivered or dropped on the making pier (R141, R149): its entry, its ring and
route word when it was produced, whether its header has gone to another unit and when. -/
structure TileMade where
  id : Nat
  route : Nat
  ring : Nat
  sentTo : Option Nat
  sentAt : Nat
  deriving DecidableEq, Repr

/-- A tile allocated in one of this unit's rings and not yet described (R147, R148): ring, SEQ, arena offset and
end, length, entry, the maker's pier (none for this unit's own), its MSG, the bytes placed so far and the next SEG, the
TB1 time of its header, the REASON that will end it, whether Bus Master Enable stopped it (R156), and its pool blocks. -/
structure TileAlloc where
  ring : Nat
  seq : Nat
  off : Nat
  arenaEnd : Nat
  len : Nat
  id : Nat
  maker : Option Nat
  msg : Nat
  got : Nat
  nextSeg : Nat
  headerAt : Nat
  drop : Option Nat
  paused : Bool
  blocks : Nat
  poison : Bool
  deriving DecidableEq, Repr

/-- A verdict fetch outstanding (R152): ring, first index, entries, tag. -/
structure VerdictFetch where
  ring : Nat
  index : Nat
  count : Nat
  tag : Nat
  deriving DecidableEq, Repr

/-- Tiles and verdicts beside their registers (chapter 9); `lastRing` is the verdict ring served last,
`arenaCons` holds ARENA_CONS as it stood at the last accepted write of each ring's CONS (R151), and `hwb` the verdict rings
and HEADs still to be written back (R152). -/
structure TileSt where
  made : List TileMade
  allocs : List TileAlloc
  fetches : List VerdictFetch
  lastRing : Nat
  arenaCons : Sparse Nat
  hwb : List (Nat × Nat)
  deriving DecidableEq, Repr

/-- Where a queued part came from: an order of this pier's set, an ORDER of another pier with its TAG, or an
EJECT_TEST (R165, R170, R182). -/
inductive PartSrc where
  | own (owner : Nat)
  | act (pier tag owner : Nat)
  | test
  deriving DecidableEq, Repr

/-- A part in a launch queue (R165, R166). -/
structure Part where
  pid : Nat
  src : PartSrc
  board : Nat
  bitmap : Nat
  launch : Nat
  dur : Nat
  prio : Nat
  deriving DecidableEq, Repr

/-- An assembled frame (R171): the board and the parts it carries; its launch, bitmap, duration and priority are
those of the parts. -/
structure Frame where
  board : Nat
  pids : List Nat
  deriving DecidableEq, Repr

/-- What stands on a bus's wire. -/
inductive Wire where
  | idle
  | fire (pids : List Nat)
  | safe
  | poll (addr : Nat)
  deriving DecidableEq, Repr

/-- The state of a remote part of an order (R168). -/
inductive RemoteStatus where
  | waiting | queued | refused
  deriving DecidableEq, Repr

/-- A remote part of an order: the pier, TAG and status. -/
structure RemotePart where
  pier : Nat
  tag : Nat
  status : RemoteStatus
  deriving DecidableEq, Repr

/-- An order of this owner pier that is admitted or waits for a RESULT (R168). -/
structure Order where
  owner : Nat
  launch : Nat
  dur : Nat
  prio : Nat
  hasLocal : Bool
  fired : Bool
  remotes : List RemotePart
  deriving DecidableEq, Repr

/-- One valve bus beside its registers: its launch queue, the frames assembled, the wire. -/
structure BusSt where
  queue : List Part
  frames : List Frame
  wire : Wire
  deriving DecidableEq, Repr

/-- Actuation beside its registers (chapter 10). -/
structure ActSt where
  buses : Vector BusSt 4
  orders : List Order
  nextPid : Nat
  nextTag : Nat
  seen : List Nat
  deriving DecidableEq, Repr

/-- The running balance counters of the ledger identities (R412), 32-bit wrapping counts kept as naturals; the
auditor copies them into the LI registers (R415). -/
structure Acct where
  lgOpened : Nat
  lgRetired : Nat
  tmProduced : Nat
  tmDelivered : Nat
  tmDropped : Nat
  trAlloc : Nat
  trDone : Nat
  trDrop : Nat
  decReceived : Nat
  decFired : Nat
  decPassed : Nat
  decDefaulted : Nat
  decCancelled : Nat
  partAdmit : List Nat
  partFired : List Nat
  partCancelled : List Nat
  vrArrived : Nat
  vrTaken : Nat
  deriving DecidableEq, Repr

/-! ## Time bases (chapter 11) -/

/-- One time base: its counter WRAP:NS.FRAC (R183), the carries out of WRAP (R349), i_acc (R188), the run of
measurements within LOCK_THR (R189), and whether a step voids the present interval's measurement (R188). -/
structure TimeBase where
  wrap : Nat
  ns : Nat
  frac : Nat
  carries : Nat
  integ : Int
  goodRun : Nat
  stepped : Bool
  deriving DecidableEq, Repr

/-- A SYNC exchange that waits for its DRESP (R192, R193): SEQ, T1, T2 and T3 in units of 2^-16 ns, SYNCED. -/
structure Exchange where
  seq : Nat
  t1 : Nat
  t2 : Nat
  t3 : Nat
  synced : Bool
  deriving DecidableEq, Repr

/-- Time beside the bases' counters and the TB registers: Dennil's latches of WRAP and FRAC per base (R184), the exchanges in
progress, oldest first, the last delays measured, newest first (R193), whether an edge of PPS_IN has been seen, the alarms
whose target was passed when they were enabled or stepped over, the one-shot alarms that have fired (R197), TB2 at the request
of the PTM dialogue in progress (R194), and the Span and PTM periods in force in ms (R200). -/
structure TimeSt where
  hiLatch : List Nat
  fracLatch : List Nat
  exch : List Exchange
  delays : List Int
  ppsSeen : Bool
  almPassed : List Bool
  almDone : List Bool
  ptm : Option Nat
  spanPeriod : Nat
  ptmPeriod : Nat
  deriving DecidableEq, Repr

/-! ## The host endpoint (chapter 14) -/

/-- Who waits for an outstanding read (R254, R256): a verdict ring's fetch, an inbound delayed read of the local bus
(R322), the command ring of a mailbox channel (R272), a tap engine's descriptor (R89), or nobody any more. -/
inductive ReqOwner where
  | verdict
  | delayed (entry : Nat)
  | mailbox (chan : Nat)
  | tap (port engine : Nat)
  | nobody
  deriving DecidableEq, Repr

/-- An outstanding non-posted request: its tag, its owner, the completion timeout that applies to it in µs (R255), and
whether its data will be discarded (R261, R262). -/
structure NpReq where
  tag : Nat
  owner : ReqOwner
  tmoUs : Nat
  void : Bool
  deriving DecidableEq, Repr

/-- A quarantined tag, whether its pool has been replaced meanwhile (R254, R256), and whether a function reset abandoned its
request, whose completion is then discarded without a report (R262). -/
structure QuarTag where
  tag : Nat
  old : Bool
  silent : Bool
  deriving DecidableEq, Repr

/-- A host access to LP5X through W1 (R251): whether it writes, the completion's tag, its address and length, the enabled bytes
of a write with their addresses, whether inline ECC fails on a read, and the bytes that Toll has been charged for. -/
structure W1Acc where
  write : Bool
  tag : Nat
  addr : Nat
  len : Nat
  bytes : List (Nat × Byte)
  check : ReadCheck
  paid : Nat
  deriving DecidableEq, Repr

/-- The PCI Express configuration space and the read tags beside the HE registers: the non-posted requests outstanding, the
tags in quarantine, INTx as last sent, whether the function reset in progress has silenced all DMA (R262), whether PERST_N is
released (R419), the descriptor image (R252), the W1 accesses that wait for Toll (R251, R367), and the error count limits of
margined lanes (R266). -/
structure HeSt where
  cfg : Sparse Word
  intx : Bool
  reqs : List NpReq
  quar : List QuarTag
  silenced : Bool
  perst : Bool
  rom : List Byte
  w1 : List W1Acc
  margin : Sparse Nat
  deriving DecidableEq, Repr

/-! ## The local bus (chapter 17) -/

/-- A beat toward the local bus (R315): the dword's W2 offset, byte enables, data. -/
structure AbBeat where
  off : Nat
  be : Nat
  data : Nat
  deriving DecidableEq, Repr

/-- An outbound access that waits for its beats (R316 to R318): who asked, the completion's tag, offset and length, the beats
to go, the data got so far (none for a failed beat), the code of the first failure, the posted beats that go first, whether
it writes, the operation and operands of an AtomicOp, and whether the host has abandoned it. -/
structure AbReq where
  ag : Agent
  tag : Nat
  off : Nat
  len : Nat
  beats : List AbBeat
  got : List (Option Nat)
  fail : Option Nat
  after : Nat
  write : Bool
  atomic : Option (Nat × List Nat)
  void : Bool
  deriving DecidableEq, Repr

/-- What the local bus carries: nothing, the oldest posted beat, the next beat of the first waiting access, or a transaction of
an external master. -/
inductive AbBus where
  | idle
  | posted
  | req
  | ext (m : Nat)
  deriving DecidableEq, Repr

/-- A delayed-read entry (R322): address, byte enables, master, window, the posted beats that must complete before delivery,
the tag once the host read is issued, and its result: none while it waits, else the data or none for an error. -/
structure AbRead where
  addr : Nat
  be : Nat
  master : Nat
  window : Nat
  after : Nat
  tag : Option Nat
  result : Option (Option Nat)
  deriving DecidableEq, Repr

/-- The Abutment beside its registers: the posted-write buffer, the accesses that wait, the bus, consecutive external
transactions, the external master granted last (R313), the delayed-read entries, the last side-band sample, and the inbound
write buffer, its beats under their host addresses (R321). -/
structure AbSt where
  posted : List AbBeat
  reqs : List AbReq
  bus : AbBus
  extRun : Nat
  lastExt : Nat
  dr : List (Option AbRead)
  sbLast : Nat
  inbuf : List AbBeat
  deriving DecidableEq, Repr

/-! ## The evidence store (chapter 18) -/

/-- The copy of a tile in the evidence staging pool (R346): its entry, the blocks held, and its bytes; none when the
pool was full at the crop. -/
structure EvCopy where
  id : Nat
  blocks : Nat
  data : Option (List Byte)
  deriving DecidableEq, Repr

/-- An evidence record that is due (R346): its header fields (R349) and the tile. -/
structure EvDue where
  id : Nat
  owner : Nat
  outcome : Nat
  action : Nat
  flags : Nat
  stamp : Nat
  tb2 : Nat
  tb2State : Nat
  launch : Nat
  dur : Nat
  tile : List Byte
  deriving DecidableEq, Repr

/-- A record on the medium (R349): its ID, stamp and boot count, its first 64-byte slot, its bytes, and whether it can
no longer be read intact. -/
structure EvRec where
  id : Nat
  stamp : Nat
  bootSeq : Nat
  slot : Nat
  bytes : List Byte
  bad : Bool
  deriving DecidableEq, Repr

/-- An EVID superblock in use (R347, R348): its header fields, the good blocks it was opened with, the bytes used and
its records, oldest first. -/
structure EvSb where
  seq : Nat
  bootSeq : Nat
  stamp : Nat
  eraseCnt : Nat
  good : Nat
  used : Nat
  recs : List EvRec
  deriving DecidableEq, Repr

/-- A lifetime log record (R351). -/
structure LogRec where
  kind : Nat
  bootSeq : Nat
  stamp : Nat
  data : List Byte
  deriving DecidableEq, Repr

/-- A partition entry of the medium header (R334): TYPE, MODE (0 native, 1 SLC), FIRST, COUNT and SPARE superblocks. -/
structure Partition where
  type : Nat
  mode : Nat
  first : Nat
  count : Nat
  spare : Nat
  deriving DecidableEq, Repr

/-- The fields of the medium header (R333). -/
structure MediumHdr where
  gen : Nat
  chMask : Nat
  targets : Nat
  slcCmd : Nat
  blockCw : Nat
  blocks : Nat
  peNative : Nat
  peSlc : Nat
  lifeH : Nat
  parts : List Partition
  deriving DecidableEq, Repr

/-- The evidence store beside its registers: the copies staged, the records due, PASSED sets since the last one kept,
whether an EVID superblock is open, the blocks that a read has found weak (R343); what the boot ROM has found of the medium:
the parameter page of its targets and the blocks with the factory marker (R328, R331), the header copies by channel (R338), the
device key (R333) and Dennil's table of medium profiles (R332). Fields from `hdr` on stand on the medium and outlive every
reset: the header in use, the EVID superblocks, erases and good blocks, the spares left per SLC partition, the log, the
calibration entries, the configuration store, and the firmware slots. -/
structure EvSt where
  copies : List EvCopy
  due : List EvDue
  passSince : Nat
  isOpen : Bool
  refreshDue : List Nat
  page : ParamPage
  marked : List Nat
  hdrCopies : List (Nat × ConfCopy)
  deviceKey : BitVec 384
  profiles : List MediumProfile
  hdr : MediumHdr
  sbs : List EvSb
  nextSeq : Nat
  good : Nat
  eraseSum : Nat
  spares : List Nat
  log : List LogRec
  bootSeq : Nat
  powerMin : Nat
  bandMin : List Nat
  cal : List CalEntry
  calGen : Nat
  conf : List Profile
  confCopies : List ConfCopy
  badBlocks : List Nat
  slots : List FwSlot
  nextSlot : Nat
  token : List Byte
  deriving DecidableEq, Repr

/-! ## The mailbox (chapter 15) -/

/-- Data that a command still has to write to host memory, with the RESULT of its completion (R282). -/
structure HostOut where
  addr : Nat
  data : List Byte
  result : List Byte
  deriving DecidableEq, Repr

/-- A deferred command (R278): the command, its opcode and scope, whether it can still be stopped (R279), whether it waits for
Bus Master Enable (R282), and what it has to write then. -/
structure Deferred where
  call : CmdCall
  opcode : Nat
  func : Nat
  port : Option Nat
  canStop : Bool
  waitsBme : Bool
  out : Option HostOut
  deriving DecidableEq, Repr

/-- A command forwarded to another pier whose completion has not come back (R277), and the host address to which the data go
that come back for it over the BULK class. -/
structure RemoteCmd where
  pier : Nat
  tag : Nat
  opcode : Nat
  taken : Bool
  host : Option Nat
  deriving DecidableEq, Repr

/-- One mailbox channel beside its registers: the phase of the next entry (R271), LOST, the completions and events
that wait, the deferred commands, the forwarded ones, REPLACE masked (R288), and the bytes read so far of the next
command, its entry and then an indirect payload (R270, R272). -/
structure MbChan where
  phase : Bool
  lost : Bool
  cpls : List (List Byte)
  events : List (List Byte)
  deferred : List Deferred
  remote : List RemoteCmd
  masked : Bool
  fetched : List Byte
  deriving DecidableEq, Repr

/-- A lease held (R280): its number and the TB3 time at which it ends. -/
structure LeaseEnd where
  id : Nat
  atNs : Nat
  deriving DecidableEq, Repr

/-- A Causeway capture in progress (R425): port, width, height, LP5X address, bytes of a slot, slots. -/
structure Capture where
  port : Nat
  width : Nat
  height : Nat
  off : Nat
  size : Nat
  slots : Nat
  deriving DecidableEq, Repr

/-- The mailbox beside its registers: the channels, the lease ends, the mismatched tokens since PORST_N release and
the tick at which matching resumes (R274), the fused minimum SVN, the channel to serve next (R278), the deferred commands that
other piers forwarded (R277), the captures of the boot ROM, how often each channel has been opened and the piers that have
forwarded commands (R277), the signing keys that are valid, a bit each (R284), and the slot that FW_LOAD programs (R285, R287). -/
structure MbSt where
  chans : Vector MbChan 4
  leases : List LeaseEnd
  tokenBad : Nat
  tokenUntil : Nat
  svnMin : Nat
  nextChan : Nat
  remoteDef : List Deferred
  caps : List Capture
  opens : List Nat
  senders : List Nat
  keys : Nat
  cwProg : Option Nat
  deriving DecidableEq, Repr

/-! ## Two-wire blocks (chapter 16) -/

/-- What a controller runs: nothing, the TW_CMD transaction, a transfer of a setting slot (R293), or the transfer of a
slot that has been cancelled, which stops after the current byte (R46). -/
inductive TwRun where
  | none
  | cmd
  | slot (port idx : Nat)
  | stopping
  deriving DecidableEq, Repr

/-- A two-wire block beside its registers: the transaction on the bus, the one that lost arbitration and starts again, the
retries used by the TW_CMD transaction and by the slot's (R294), the slot that is SENDING with its transactions still to go
(R42), whether the bus has been seen free of transfers, the tick of the last stop, from which tBUF counts (R291), and the
command code and table entry sampled for the read that follows (R301). -/
structure TwSt where
  run : TwRun
  again : TwRun
  retries : Nat
  slotRetries : Nat
  slot : Option (Nat × Nat)
  left : Nat
  free : Bool
  stopAt : Option Nat
  sampled : Option (Nat × Nat)
  deriving DecidableEq, Repr

/-! ## Reset and boot (chapter 24) -/

/-- Reset and boot beside the RS registers: whether PORST_N or the internal reset is held (R418), whether the medium and
Causeway service are up (R421, R424), the firmware slots still to try (R422), the step of R426 reached, and the sleep with
PA_DIVERT.HOLD as it stood before it and the ports and buses to enable again (R429), a wake-up requested (R308, R429), and the
RELEASE and HIV range of the image that was started last (R284). -/
structure RsSt where
  held : Bool
  mediumOk : Bool
  causewayUp : Bool
  toTry : List Nat
  step : Nat
  asleep : Bool
  wakeReq : Bool
  holdBefore : Bool
  slept : List Nat
  release : Nat
  hivMin : Nat
  hivMax : Nat
  deriving DecidableEq, Repr

/-! ## What leaves the block -/

/-- What the unit sends outside; the model's own record of it (log 4). -/
inductive Out where
  /-- A DMA write to host memory, with the poisoned and the Relaxed Ordering attribute. -/
  | dmaWrite (addr : Nat) (data : List Byte) (poisoned relaxed : Bool)
  /-- A DMA read request to host memory: address, length, tag. -/
  | dmaRead (addr len tag : Nat)
  /-- An MSI-X message of a vector: address and data from its table entry. -/
  | msix (vector addr data : Nat)
  /-- Assert_INTA or Deassert_INTA. -/
  | intx (assert : Bool)
  /-- An error message: ERR_COR (0), ERR_NONFATAL (1), ERR_FATAL (2) (R265). -/
  | errMsg (kind : Nat)
  /-- Bytes written to the NAND medium: the partition's TYPE (0 for the medium header), the channel, copy, generation or SEQ that
  they belong to, and the bytes (R333 to R335, R340, R348). -/
  | nand (part idx : Nat) (data : List Byte)
  /-- A Span packet that left a port: the bytes between SOP and EOP (R229, R230); `aborted` says that EAB ended it (R206). -/
  | spanPkt (port : Nat) (bytes : List Byte) (aborted : Bool)
  /-- A valve-bus frame that starts: bus, the sixteen symbols' data bytes 1 to 14. -/
  | valveFrame (bus : Nat) (bytes : List Byte)
  /-- A valve-bus frame aborted with K30.7. -/
  | valveAbort (bus : Nat)
  /-- A SKIP ordered set (R207). -/
  | spanSkip (port : Nat)
  /-- An AUD ordered set with its 24 data bytes (R237). -/
  | spanAud (port : Nat) (data : List Byte)
  /-- A time-marker ordered set that leaves a Span port, with its SEQ (R205, R208). -/
  | spanMarker (port seq : Nat)
  /-- The data bytes of the TS that a lane sends from now on (R209, R211). -/
  | spanTs (port lane : Nat) (data : List Byte)
  /-- The data bytes of the EXCH that a port sends from now on (R210, R211). -/
  | spanExch (port : Nat) (data : List Byte)
  /-- A PTM request (R194). -/
  | ptmRequest
  /-- The data of a register read by Dennil or the host. -/
  | readData (ag : Agent) (value : Nat)
  /-- Bytes that a two-wire block sends as target (R301). -/
  | twSend (block : Nat) (data : List Byte)
  /-- A transaction that a two-wire block starts as controller (R292): the bytes that it writes, address byte first, and for
  a read the read address byte and the most bytes to be read. -/
  | twCtrl (block : Nat) (sent : List Byte) (read : Option (Byte × Nat))
  /-- A completion of a request to a window: whose, its tag, status (0 SC, 1 UR, 2 CRS, 4 CA), data, poisoned. -/
  | completion (ag : Agent) (tag status : Nat) (data : List Byte) (poisoned : Bool)
  /-- The address phase of a local-bus transaction of the device: write, address, byte enables, data. -/
  | localBus (write : Bool) (addr be data : Nat)
  /-- HP_ATTNIND of a port: 0 off, 1 on, 2 blinking at 1 Hz, 3 at 4 Hz (R34). -/
  | attnInd (port mode : Nat)
  /-- SCLK_OUT[k]: held low, or toggling with a divisor in units of 2^-16 and the correction that TRACK applies (R38). -/
  | sclk (k : Nat) (run : Option (Nat × Nat))
  /-- A ball or line that changed level: its name, its index, its level. -/
  | pin (name : String) (idx : Nat) (level : Bool)
  deriving DecidableEq, Repr

/-! ## The unit -/

/-- The state of one ZT1664: the queue of commands that wait, the registers and memories, each block's state beside
its registers, and the model's own outbox and free-value counter. -/
structure State where
  pending : List Instr
  regs : Sparse Word
  tables : Sparse Byte
  mem : MemSt
  bases : Vector TimeBase 4
  tick : Nat
  time : TimeSt
  ledger : LedgerSt
  views : ViewSt
  tiles : TileSt
  ports : Vector PortSt 16
  armCtr : Nat
  tw : Vector TwSt 6
  act : ActSt
  acct : Acct
  net : NetSt
  lanes : Vector LanePort 2
  queues : Sparse Queue
  toll : TollSt
  em : EmSt
  pa : PaSt
  he : HeSt
  ab : AbSt
  ev : EvSt
  mb : MbSt
  rs : RsSt
  outbox : List Out
  freeCtr : Nat
  deriving DecidableEq, Repr

/-! ## Reset (R418) -/

/-- A Span port's network layer at reset: no credit, empty queues. -/
def NetPort.reset : NetPort :=
  let z := List.replicate 6 0
  ⟨false, false, z, z, z, z, z, z, z, List.replicate 6 [], List.replicate 6 [], List.replicate 6 false, false, none, 0, [], false⟩

/-- A sensor port at reset; the active colour, segmentation and statistics settings are the reset values of their
registers. -/
def PortSt.reset : PortSt :=
  { slots := List.replicate 8 ⟨0, none, 0, 0⟩, held := [], fsStamp := 0, anyFs := false, stage := [], img := 0,
    imgOpen := false, stageBlocks := 0, cur := none, nextKey := 0, nextImg := 0, nextY := 0, tsAdj := 0, gap := 0,
    prevFn := 0, lastLine := none, brkHere := false, stripOpen := false, burst := false, stopDue := false, rx := [],
    lines := [], frames := [], ended := none, nIn := 0, nCor := 0, nRec := 0, nPlc := 0, nMsk := 0, nLab := 0,
    owed := none, segWas := false, objs := [], learn := none, cxReq := none, sgReq := none,
    dmAct := [0x400, 0, 0, 0x1000, 0, 0x10000000, 0, 0, 0x1000, 0, 0x10000000],
    sgAct := [0x1CF10000, 0x40000000] ++ List.replicate 12 0 ++ [0xFFFFFFFF] ++ List.replicate 33 0,
    stAct := [0x04000000, 0, 0, 0, 0, 0xE6] ++ List.replicate 42 0,
    stF0 := none, stSeq := 0, stLost := 0, taps := [⟨none, false, [], []⟩, ⟨none, false, [], []⟩], headId := 0,
    frmTmo := 0, fltPin := false, ind := 0, sclk := none, stPos := 0 }

/-- The balance counters at reset. -/
def Acct.reset : Acct :=
  let z := List.replicate 4 0
  ⟨0, 0, 0, 0, 0, 0, 0, 0, 0, 0, 0, 0, 0, z, z, z, 0, 0⟩

/-- The evidence store at reset. What stands on the medium before the unit has seen one is an empty medium (log 2); the
boot ROM learns what it holds (R421). -/
def EvSt.reset : EvSt :=
  { copies := [], due := [], passSince := 0, isOpen := false, refreshDue := [], page := ⟨0, 0, 0, 0, 0, 0, 0, false⟩,
    marked := [], hdrCopies := [], deviceKey := 0, profiles := [], hdr := ⟨0, 0, 0, 0, 0, 0, 0, 0, 0, []⟩, sbs := [], nextSeq := 0,
    good := 0, eraseSum := 0, spares := [], log := [], bootSeq := 0,
    powerMin := 0, bandMin := List.replicate 6 0, cal := [], calGen := 0, conf := [], confCopies := [], badBlocks := [],
    slots := List.replicate 3 ⟨0, []⟩, nextSlot := 0, token := [] }

/-- The machine right after reset: PORST_N has been asserted and is still held (R418). Every register reads its reset
value; fields taken from a strap or a fuse read 0 until they are sampled (log 3). -/
def State.reset : State :=
  { pending := [], regs := [], tables := [], mem := ⟨List.replicate 5 0, List.replicate 8 0, 0, [], []⟩,
    bases := Vector.replicate 4 ⟨0, 0, 0, 0, 0, 0, false⟩, tick := 0,
    time := ⟨List.replicate 4 0, List.replicate 4 0, [], [], false, List.replicate 8 false, List.replicate 8 false, none, 125, 10⟩,
    ledger := ⟨[], 0, [], [], [], [], []⟩, views := ⟨[], [], [], none, none⟩, tiles := ⟨[], [], [], 0, [], []⟩,
    ports := Vector.replicate 16 PortSt.reset, armCtr := 0,
    tw := Vector.replicate 6 ⟨.none, .none, 0, 0, none, 0, true, none, none⟩,
    act := ⟨Vector.replicate 4 ⟨[], [], .idle⟩, [], 0, 0, []⟩, acct := Acct.reset,
    net := ⟨Vector.replicate 2 NetPort.reset, [], List.replicate 6 0, [], .idle, 0, 0, 0, [], [], [], 0⟩,
    lanes := Vector.replicate 2 ⟨0, 0, false, [], 0, 0, 1, [], none⟩, queues := [],
    toll := ⟨[], [], [], [], [], List.replicate 4 0, []⟩, em := ⟨[], 0, []⟩,
    pa := ⟨[], 0, false, 0, false, false, []⟩, he := ⟨[], false, [], [], false, false, [], [], []⟩,
    ab := ⟨[], [], .idle, 0, 1, List.replicate 8 none, 0, []⟩, ev := EvSt.reset,
    mb := ⟨Vector.replicate 4 ⟨true, false, [], [], [], [], false, []⟩, [], 0, 0, 0, 0, [], [], List.replicate 4 0, [], 0, none⟩,
    rs := ⟨true, false, false, [], 0, false, false, false, [], 0, 0, 0⟩, outbox := [], freeCtr := 0 }

end Sys2Proof.Machine
end

