-- ==== Sys2Proof/Machine/Regs.lean ====
section
/-! DEFINITION. The W0 register table of the ZT1664, transcribed from the register tables of
spec/02 to spec/24: for every register its address, its instances, its reset domain (R9), whether it is
lease-writable, its reset value and its access masks (R8); and a name for every register and field.
Names of fields end in the field's name; a register without sub-fields has the field V. -/

namespace Sys2Proof.Machine

/-- A register field: the W0 offset of the register's instance 0 and the bit range, R4 of the notation. -/
structure Fld where
  reg : Nat
  hi : Nat
  lo : Nat
  deriving DecidableEq, Repr

/-- Reset domains, R9. -/
inductive Dom where
  | por
  | link
  | func
  deriving DecidableEq, Repr

/-- One row of the register table. Instance (i, j) of the row lies at `off + i * s1 + j * s2` within its block.
The masks give the bits of each access code of R8; bits in no mask are RO or reserved (R7). -/
structure RegRow where
  name : String
  off : Nat
  n1 : Nat
  s1 : Nat
  n2 : Nat
  s2 : Nat
  dom : Dom
  lease : Bool
  reset : Nat
  rw : Nat
  w1c : Nat
  w1s : Nat
  wo : Nat
  rc : Nat
  rwl : Nat
  srv : Nat
  deriving DecidableEq, Repr

/-- The register rows of block HE (spec chapter 14), offsets from the block base. -/
def rowsHE_0 : List RegRow :=
  [ ⟨"HE_ID", 0x0, 1, 0x4, 1, 0x4, .por, false, 0x16640000, 0, 0, 0, 0, 0, 0, 0⟩
  , ⟨"HE_STAT", 0x4, 1, 0x4, 1, 0x4, .link, false, 0x200000, 0, 0, 0, 0, 0, 0, 0⟩
  , ⟨"HE_CPL_TMO", 0x8, 1, 0x4, 1, 0x4, .por, false, 0x9C40, 0, 0, 0, 0, 0, 0, 0⟩
  , ⟨"HE_TAG_STAT", 0xC, 1, 0x4, 1, 0x4, .por, false, 0x20, 0, 0, 0, 0, 0, 0, 0⟩
  , ⟨"HE_VEC_EOI", 0x10, 1, 0x4, 1, 0x4, .func, false, 0x0, 0, 0, 0, 0x7FF, 0, 0, 0⟩
  , ⟨"HE_UNEXP_LAST", 0x14, 1, 0x4, 1, 0x4, .por, false, 0x0, 0, 0, 0, 0, 0, 0, 0⟩
  , ⟨"HE_CNT_CPL_TMO", 0x20, 1, 0x4, 1, 0x4, .por, false, 0x0, 0, 0, 0, 0, 0, 0, 0⟩
  , ⟨"HE_CNT_UNEXP", 0x24, 1, 0x4, 1, 0x4, .por, false, 0x0, 0, 0, 0, 0, 0, 0, 0⟩
  , ⟨"HE_CNT_CPL_ERR", 0x28, 1, 0x4, 1, 0x4, .por, false, 0x0, 0, 0, 0, 0, 0, 0, 0⟩
  , ⟨"HE_CNT_CPL_DISCARD", 0x2C, 1, 0x4, 1, 0x4, .por, false, 0x0, 0, 0, 0, 0, 0, 0, 0⟩
  , ⟨"HE_CNT_W1_HOLE", 0x30, 1, 0x4, 1, 0x4, .por, false, 0x0, 0, 0, 0, 0, 0, 0, 0⟩
  , ⟨"HE_CNT_W1_RO", 0x34, 1, 0x4, 1, 0x4, .por, false, 0x0, 0, 0, 0, 0, 0, 0, 0⟩
  , ⟨"HE_CNT_POISON_RX", 0x38, 1, 0x4, 1, 0x4, .por, false, 0x0, 0, 0, 0, 0, 0, 0, 0⟩
  , ⟨"HE_CNT_UR_SENT", 0x3C, 1, 0x4, 1, 0x4, .por, false, 0x0, 0, 0, 0, 0, 0, 0, 0⟩
  , ⟨"HE_CNT_FLR", 0x40, 1, 0x4, 1, 0x4, .por, false, 0x0, 0, 0, 0, 0, 0, 0, 0⟩
  , ⟨"HE_CNT_LINK_DOWN", 0x44, 1, 0x4, 1, 0x4, .por, false, 0x0, 0, 0, 0, 0, 0, 0, 0⟩
  , ⟨"HE_EVT", 0x60, 1, 0x4, 1, 0x4, .por, false, 0x0, 0, 0x1F, 0, 0, 0, 0, 0x1F⟩
  , ⟨"HE_EVT_EN", 0x64, 1, 0x4, 1, 0x4, .func, false, 0x0, 0x1F, 0, 0, 0, 0, 0, 0⟩
  , ⟨"HE_ISRC", 0x1000, 384, 0x4, 1, 0x4, .func, false, 0x0, 0x800007FF, 0, 0, 0, 0, 0, 0⟩
  , ⟨"HE_IPEND", 0x1800, 12, 0x4, 1, 0x4, .func, false, 0x0, 0, 0, 0, 0, 0, 0, 0⟩
  , ⟨"HE_VEC_ARM", 0x1C00, 64, 0x4, 1, 0x4, .func, false, 0xFFFFFFFF, 0, 0, 0, 0, 0, 0, 0⟩
  , ⟨"HE_PBA", 0x7000, 64, 0x4, 1, 0x4, .func, false, 0x0, 0, 0, 0, 0, 0, 0, 0⟩
  , ⟨"MSIX_ADDR_LO", 0x8000, 2048, 0x10, 1, 0x4, .func, false, 0x0, 0xFFFFFFFC, 0, 0, 0, 0, 0, 0⟩
  , ⟨"MSIX_ADDR_HI", 0x8004, 2048, 0x10, 1, 0x4, .func, false, 0x0, 0xFFFFFFFF, 0, 0, 0, 0, 0, 0⟩ ]

def rowsHE_1 : List RegRow :=
  [ ⟨"MSIX_DATA", 0x8008, 2048, 0x10, 1, 0x4, .func, false, 0x0, 0xFFFFFFFF, 0, 0, 0, 0, 0, 0⟩
  , ⟨"MSIX_CTRL", 0x800C, 2048, 0x10, 1, 0x4, .func, false, 0x1, 0x1, 0, 0, 0, 0, 0, 0⟩ ]

/-- All rows of block HE. -/
def rowsHE : List RegRow := rowsHE_0 ++ rowsHE_1

/-- The register rows of block MB (spec chapter 15), offsets from the block base. -/
def rowsMB_0 : List RegRow :=
  [ ⟨"MB_CTL", 0x0, 4, 0x100, 1, 0x4, .func, false, 0x101, 0x20000F0F, 0, 0xC0000000, 0, 0, 0, 0⟩
  , ⟨"MB_HIV_OFFER", 0x4, 4, 0x100, 1, 0x4, .func, false, 0x0, 0xFFFF, 0, 0, 0, 0, 0, 0⟩
  , ⟨"MB_TOKEN", 0x8, 4, 0x100, 4, 0x4, .func, false, 0x0, 0, 0, 0, 0xFFFFFFFF, 0, 0, 0⟩
  , ⟨"MB_CMD_LO", 0x18, 4, 0x100, 1, 0x4, .func, false, 0x0, 0xFFFFFFC0, 0, 0, 0, 0, 0, 0⟩
  , ⟨"MB_CMD_HI", 0x1C, 4, 0x100, 1, 0x4, .func, false, 0x0, 0xFFFFFFFF, 0, 0, 0, 0, 0, 0⟩
  , ⟨"MB_CPL_LO", 0x20, 4, 0x100, 1, 0x4, .func, false, 0x0, 0xFFFFFFC0, 0, 0, 0, 0, 0, 0⟩
  , ⟨"MB_CPL_HI", 0x24, 4, 0x100, 1, 0x4, .func, false, 0x0, 0xFFFFFFFF, 0, 0, 0, 0, 0, 0⟩
  , ⟨"MB_CMD_TAIL", 0x28, 4, 0x100, 1, 0x4, .func, false, 0x0, 0xFFF, 0, 0, 0, 0, 0, 0⟩
  , ⟨"MB_CMD_HEAD", 0x2C, 4, 0x100, 1, 0x4, .func, false, 0x0, 0, 0, 0, 0, 0, 0, 0⟩
  , ⟨"MB_CPL_PROD", 0x30, 4, 0x100, 1, 0x4, .func, false, 0x0, 0, 0, 0, 0, 0, 0, 0⟩
  , ⟨"MB_CPL_CONS", 0x34, 4, 0x100, 1, 0x4, .func, false, 0x0, 0xFFF, 0, 0, 0, 0, 0, 0⟩
  , ⟨"MB_STAT", 0x38, 4, 0x100, 1, 0x4, .func, false, 0x0, 0, 0, 0, 0, 0, 0, 0⟩
  , ⟨"MB_EVT", 0x3C, 4, 0x100, 1, 0x4, .func, false, 0x0, 0, 0x3F, 0, 0, 0, 0, 0⟩
  , ⟨"MB_EVT_EN", 0x40, 4, 0x100, 1, 0x4, .func, false, 0x0, 0x3F, 0, 0, 0, 0, 0, 0⟩
  , ⟨"MB_CNT_CMD", 0x50, 4, 0x100, 1, 0x4, .func, false, 0x0, 0, 0, 0, 0, 0, 0, 0⟩
  , ⟨"MB_CNT_REFUSED", 0x54, 4, 0x100, 1, 0x4, .func, false, 0x0, 0, 0, 0, 0, 0, 0, 0⟩
  , ⟨"MB_DENNIL_STAT", 0x800, 1, 0x4, 1, 0x4, .por, false, 0x0, 0, 0, 0, 0, 0, 0, 0⟩
  , ⟨"MB_FW_SLOT", 0x804, 1, 0x4, 1, 0x4, .por, false, 0x0, 0, 0, 0, 0, 0, 0, 0⟩
  , ⟨"MB_CNT_NOLEASE", 0x808, 1, 0x4, 1, 0x4, .por, false, 0x0, 0, 0, 0, 0, 0, 0, 0⟩
  , ⟨"MB_CNT_TOKEN_BAD", 0x80C, 1, 0x4, 1, 0x4, .por, false, 0x0, 0, 0, 0, 0, 0, 0, 0⟩
  , ⟨"MB_CNT_EVT_LOST", 0x810, 1, 0x4, 1, 0x4, .por, false, 0x0, 0, 0, 0, 0, 0, 0, 0⟩
  , ⟨"MB_LEASE", 0x900, 32, 0x4, 1, 0x4, .func, false, 0x0, 0, 0, 0, 0, 0, 0, 0⟩
  , ⟨"MB_LEASE_LEFT", 0x980, 32, 0x4, 1, 0x4, .func, false, 0x0, 0, 0, 0, 0, 0, 0, 0⟩
  , ⟨"MB_CW_CMD", 0xC00, 1, 0x4, 1, 0x4, .por, false, 0x0, 0xFFFF, 0, 0x80000000, 0, 0, 0, 0⟩ ]

def rowsMB_1 : List RegRow :=
  [ ⟨"MB_CW_ARG", 0xC04, 4, 0x4, 1, 0x4, .por, false, 0x0, 0xFFFFFFFF, 0, 0, 0, 0, 0, 0⟩
  , ⟨"MB_CW_RESP", 0xC14, 1, 0x4, 1, 0x4, .por, false, 0x0, 0, 0, 0, 0, 0, 0, 0⟩
  , ⟨"MB_CW_DATA", 0xC18, 4, 0x4, 1, 0x4, .por, false, 0x0, 0, 0, 0, 0, 0, 0, 0⟩
  , ⟨"MB_CW_EVT", 0xC28, 1, 0x4, 1, 0x4, .por, false, 0x0, 0, 0x1, 0, 0, 0, 0, 0⟩
  , ⟨"MB_CW_EVT_EN", 0xC2C, 1, 0x4, 1, 0x4, .por, false, 0x0, 0x1, 0, 0, 0, 0, 0, 0⟩ ]

/-- All rows of block MB. -/
def rowsMB : List RegRow := rowsMB_0 ++ rowsMB_1

/-- The register rows of block PA (spec chapter 22), offsets from the block base. -/
def rowsPA : List RegRow :=
  [ ⟨"PA_CTL", 0x0, 1, 0x4, 1, 0x4, .por, false, 0x50000000, 0xF0000000, 0, 0xC000000, 0, 0, 0, 0⟩
  , ⟨"PA_STAT", 0x4, 1, 0x4, 1, 0x4, .por, false, 0x10000000, 0, 0, 0, 0, 0, 0, 0⟩
  , ⟨"PA_DIVERT", 0x8, 1, 0x4, 1, 0x4, .por, false, 0x80000000, 0x80000000, 0, 0, 0, 0, 0, 0⟩
  , ⟨"PA_WDOG", 0xC, 1, 0x4, 1, 0x4, .por, false, 0x64, 0xFFFF, 0, 0xC0000000, 0, 0, 0, 0⟩
  , ⟨"PA_FIRST_SRC", 0x10, 1, 0x4, 1, 0x4, .por, false, 0x0, 0, 0, 0, 0, 0, 0, 0⟩
  , ⟨"PA_FIRST_STAMP", 0x14, 1, 0x4, 1, 0x4, .por, false, 0x0, 0, 0, 0, 0, 0, 0, 0⟩
  , ⟨"PA_THERM", 0x18, 1, 0x4, 1, 0x4, .por, false, 0x91, 0xFF, 0, 0, 0, 0, 0, 0⟩
  , ⟨"PA_EXT_CFG", 0x1C, 1, 0x4, 1, 0x4, .por, false, 0x55, 0xFF, 0, 0, 0, 0, 0, 0⟩
  , ⟨"PA_EVT", 0x20, 1, 0x4, 1, 0x4, .por, false, 0x0, 0, 0xFF, 0, 0, 0, 0, 0⟩
  , ⟨"PA_EVT_EN", 0x24, 1, 0x4, 1, 0x4, .por, false, 0x0, 0xFF, 0, 0, 0, 0, 0, 0⟩
  , ⟨"PA_REPLACE", 0x30, 1, 0x4, 1, 0x4, .por, false, 0x0, 0, 0, 0, 0, 0, 0, 0⟩
  , ⟨"PA_REPLACE_INFO", 0x34, 1, 0x4, 1, 0x4, .por, false, 0x0, 0, 0, 0, 0, 0, 0, 0⟩
  , ⟨"PA_CNT", 0x40, 4, 0x4, 1, 0x4, .por, false, 0x0, 0, 0, 0, 0, 0, 0, 0⟩
  , ⟨"PA_NBR", 0x50, 1, 0x4, 1, 0x4, .por, false, 0x0, 0, 0, 0, 0, 0, 0, 0⟩
  , ⟨"PA_NBR_STAMP", 0x54, 1, 0x4, 1, 0x4, .por, false, 0x0, 0, 0, 0, 0, 0, 0, 0⟩
  , ⟨"PA_STICKY", 0x100, 16, 0x4, 1, 0x4, .por, false, 0x0, 0, 0xFFFFFFFF, 0, 0, 0, 0, 0⟩
  , ⟨"PA_MASK", 0x140, 16, 0x4, 1, 0x4, .por, false, 0x0, 0xFFFFFFFF, 0, 0, 0, 0, 0, 0⟩
  , ⟨"PA_CLASS", 0x200, 32, 0x4, 1, 0x4, .por, false, 0x0, 0, 0, 0, 0, 0, 0, 0⟩
  , ⟨"PA_LOG_INFO", 0x300, 16, 0x10, 1, 0x4, .por, false, 0x0, 0, 0, 0, 0, 0, 0, 0⟩
  , ⟨"PA_LOG_STAMP", 0x304, 16, 0x10, 1, 0x4, .por, false, 0x0, 0, 0, 0, 0, 0, 0, 0⟩
  , ⟨"PA_LOG_SEQ", 0x308, 16, 0x10, 1, 0x4, .por, false, 0x0, 0, 0, 0, 0, 0, 0, 0⟩
  , ⟨"PA_LOG_OVF", 0x400, 1, 0x4, 1, 0x4, .por, false, 0x0, 0, 0, 0, 0, 0, 0, 0⟩ ]

/-- The register rows of block RS (spec chapter 24), offsets from the block base. -/
def rowsRS : List RegRow :=
  [ ⟨"RS_STRAP", 0x0, 1, 0x4, 1, 0x4, .por, false, 0x0, 0, 0, 0, 0, 0, 0, 0⟩
  , ⟨"RS_BOOT", 0x4, 1, 0x4, 1, 0x4, .por, false, 0x300, 0, 0, 0, 0, 0, 0, 0⟩
  , ⟨"RS_CAUSE", 0x8, 1, 0x4, 1, 0x4, .por, false, 0x1, 0, 0, 0, 0, 0, 0, 0⟩
  , ⟨"RS_CNT_RESTART", 0x10, 1, 0x4, 1, 0x4, .por, false, 0x0, 0, 0, 0, 0, 0, 0, 0⟩
  , ⟨"RS_CNT_SLEEP", 0x14, 1, 0x4, 1, 0x4, .por, false, 0x0, 0, 0, 0, 0, 0, 0, 0⟩ ]

/-- The register rows of block LI (spec chapter 23), offsets from the block base. -/
def rowsLI_0 : List RegRow :=
  [ ⟨"LI_PASS", 0x0, 1, 0x4, 1, 0x4, .por, false, 0x0, 0, 0, 0, 0, 0, 0, 0⟩
  , ⟨"LI_STAT", 0x4, 1, 0x4, 1, 0x4, .por, false, 0x0, 0, 0, 0, 0, 0, 0, 0⟩
  , ⟨"LI_WHERE", 0x8, 1, 0x4, 1, 0x4, .por, false, 0x0, 0, 0, 0, 0, 0, 0, 0⟩
  , ⟨"LI_DIFF", 0xC, 1, 0x4, 1, 0x4, .por, false, 0x0, 0, 0, 0, 0, 0, 0, 0⟩
  , ⟨"LI_EVT", 0x10, 1, 0x4, 1, 0x4, .por, false, 0x0, 0, 0x7FF, 0, 0, 0, 0, 0⟩
  , ⟨"LI_EVT_EN", 0x14, 1, 0x4, 1, 0x4, .por, false, 0x0, 0x7FF, 0, 0, 0, 0, 0, 0⟩
  , ⟨"LI_CNT_FAIL", 0x40, 11, 0x4, 1, 0x4, .por, false, 0x0, 0, 0, 0, 0, 0, 0, 0⟩
  , ⟨"LI_LG_OPENED", 0x100, 1, 0x4, 1, 0x4, .por, false, 0x0, 0, 0, 0, 0, 0, 0, 0⟩
  , ⟨"LI_LG_RETIRED", 0x104, 1, 0x4, 1, 0x4, .por, false, 0x0, 0, 0, 0, 0, 0, 0, 0⟩
  , ⟨"LI_LG_LIVE", 0x108, 1, 0x4, 1, 0x4, .por, false, 0x0, 0, 0, 0, 0, 0, 0, 0⟩
  , ⟨"LI_TM_PRODUCED", 0x110, 1, 0x4, 1, 0x4, .por, false, 0x0, 0, 0, 0, 0, 0, 0, 0⟩
  , ⟨"LI_TM_DELIVERED", 0x114, 1, 0x4, 1, 0x4, .por, false, 0x0, 0, 0, 0, 0, 0, 0, 0⟩
  , ⟨"LI_TM_DROPPED", 0x118, 1, 0x4, 1, 0x4, .por, false, 0x0, 0, 0, 0, 0, 0, 0, 0⟩
  , ⟨"LI_TM_PENDING", 0x11C, 1, 0x4, 1, 0x4, .por, false, 0x0, 0, 0, 0, 0, 0, 0, 0⟩
  , ⟨"LI_DEC_RECEIVED", 0x120, 1, 0x4, 1, 0x4, .por, false, 0x0, 0, 0, 0, 0, 0, 0, 0⟩
  , ⟨"LI_DEC_FIRED", 0x124, 1, 0x4, 1, 0x4, .por, false, 0x0, 0, 0, 0, 0, 0, 0, 0⟩
  , ⟨"LI_DEC_PASSED", 0x128, 1, 0x4, 1, 0x4, .por, false, 0x0, 0, 0, 0, 0, 0, 0, 0⟩
  , ⟨"LI_DEC_DEFAULTED", 0x12C, 1, 0x4, 1, 0x4, .por, false, 0x0, 0, 0, 0, 0, 0, 0, 0⟩
  , ⟨"LI_DEC_CANCELLED", 0x130, 1, 0x4, 1, 0x4, .por, false, 0x0, 0, 0, 0, 0, 0, 0, 0⟩
  , ⟨"LI_DEC_PENDING", 0x134, 1, 0x4, 1, 0x4, .por, false, 0x0, 0, 0, 0, 0, 0, 0, 0⟩
  , ⟨"LI_PART_ADMIT", 0x140, 4, 0x10, 1, 0x4, .por, false, 0x0, 0, 0, 0, 0, 0, 0, 0⟩
  , ⟨"LI_PART_FIRED", 0x144, 4, 0x10, 1, 0x4, .por, false, 0x0, 0, 0, 0, 0, 0, 0, 0⟩
  , ⟨"LI_PART_CANCELLED", 0x148, 4, 0x10, 1, 0x4, .por, false, 0x0, 0, 0, 0, 0, 0, 0, 0⟩
  , ⟨"LI_PART_QUEUED", 0x14C, 4, 0x10, 1, 0x4, .por, false, 0x0, 0, 0, 0, 0, 0, 0, 0⟩ ]

def rowsLI_1 : List RegRow :=
  [ ⟨"LI_TAG_POOL", 0x180, 1, 0x4, 1, 0x4, .por, false, 0x0, 0, 0, 0, 0, 0, 0, 0⟩
  , ⟨"LI_TAG_FREE", 0x184, 1, 0x4, 1, 0x4, .por, false, 0x0, 0, 0, 0, 0, 0, 0, 0⟩
  , ⟨"LI_TAG_OUT", 0x188, 1, 0x4, 1, 0x4, .por, false, 0x0, 0, 0, 0, 0, 0, 0, 0⟩
  , ⟨"LI_TAG_QUAR", 0x18C, 1, 0x4, 1, 0x4, .por, false, 0x0, 0, 0, 0, 0, 0, 0, 0⟩
  , ⟨"LI_POOL_HELD", 0x190, 5, 0x4, 1, 0x4, .por, false, 0x0, 0, 0, 0, 0, 0, 0, 0⟩
  , ⟨"LI_TO_GRANTED_LO", 0x200, 4, 0x20, 1, 0x4, .por, false, 0x0, 0, 0, 0, 0, 0, 0, 0⟩
  , ⟨"LI_TO_GRANTED_HI", 0x204, 4, 0x20, 1, 0x4, .por, false, 0x0, 0, 0, 0, 0, 0, 0, 0⟩
  , ⟨"LI_TO_SPENT_LO", 0x208, 4, 0x20, 1, 0x4, .por, false, 0x0, 0, 0, 0, 0, 0, 0, 0⟩
  , ⟨"LI_TO_SPENT_HI", 0x20C, 4, 0x20, 1, 0x4, .por, false, 0x0, 0, 0, 0, 0, 0, 0, 0⟩
  , ⟨"LI_TO_BANKED_LO", 0x210, 4, 0x20, 1, 0x4, .por, false, 0x0, 0, 0, 0, 0, 0, 0, 0⟩
  , ⟨"LI_TO_BANKED_HI", 0x214, 4, 0x20, 1, 0x4, .por, false, 0x0, 0, 0, 0, 0, 0, 0, 0⟩
  , ⟨"LI_TO_FORFEIT_LO", 0x218, 4, 0x20, 1, 0x4, .por, false, 0x0, 0, 0, 0, 0, 0, 0, 0⟩
  , ⟨"LI_TO_FORFEIT_HI", 0x21C, 4, 0x20, 1, 0x4, .por, false, 0x0, 0, 0, 0, 0, 0, 0, 0⟩
  , ⟨"LI_TR_ALLOC", 0x300, 1, 0x4, 1, 0x4, .func, false, 0x0, 0, 0, 0, 0, 0, 0, 0⟩
  , ⟨"LI_TR_DONE", 0x304, 1, 0x4, 1, 0x4, .func, false, 0x0, 0, 0, 0, 0, 0, 0, 0⟩
  , ⟨"LI_TR_DROP", 0x308, 1, 0x4, 1, 0x4, .func, false, 0x0, 0, 0, 0, 0, 0, 0, 0⟩
  , ⟨"LI_TR_INPROG", 0x30C, 1, 0x4, 1, 0x4, .func, false, 0x0, 0, 0, 0, 0, 0, 0, 0⟩
  , ⟨"LI_VR_ARRIVED", 0x310, 1, 0x4, 1, 0x4, .func, false, 0x0, 0, 0, 0, 0, 0, 0, 0⟩
  , ⟨"LI_VR_TAKEN", 0x314, 1, 0x4, 1, 0x4, .func, false, 0x0, 0, 0, 0, 0, 0, 0, 0⟩
  , ⟨"LI_VR_HELD", 0x318, 1, 0x4, 1, 0x4, .func, false, 0x0, 0, 0, 0, 0, 0, 0, 0⟩
  , ⟨"LI_WOFF_TILE", 0x380, 1, 0x4, 1, 0x4, .por, false, 0x0, 0, 0, 0, 0, 0, 0, 0⟩
  , ⟨"LI_WOFF_VERDICT", 0x384, 1, 0x4, 1, 0x4, .por, false, 0x0, 0, 0, 0, 0, 0, 0, 0⟩
  , ⟨"LI_FLR_PASS", 0x38C, 1, 0x4, 1, 0x4, .por, false, 0x0, 0, 0, 0, 0, 0, 0, 0⟩ ]

/-- All rows of block LI. -/
def rowsLI : List RegRow := rowsLI_0 ++ rowsLI_1

/-- The register rows of block TB (spec chapter 11), offsets from the block base. -/
def rowsTB_0 : List RegRow :=
  [ ⟨"TB_NS", 0x0, 4, 0x40, 1, 0x4, .por, false, 0x0, 0, 0, 0, 0, 0, 0, 0⟩
  , ⟨"TB_HI", 0x4, 4, 0x40, 1, 0x4, .por, false, 0x0, 0, 0, 0, 0, 0, 0, 0⟩
  , ⟨"TB_FRAC", 0x8, 4, 0x40, 1, 0x4, .por, false, 0x0, 0, 0, 0, 0, 0, 0, 0⟩
  , ⟨"TB_FREQ", 0xC, 4, 0x40, 1, 0x4, .por, false, 0x0, 0xFFFFFFFF, 0, 0, 0, 0, 0, 0⟩
  , ⟨"TB_SRV_CTL", 0x10, 4, 0x40, 1, 0x4, .por, true, 0x2540064, 0xFFFFFFFF, 0, 0, 0, 0, 0, 0⟩
  , ⟨"TB_SRV_LIM", 0x14, 4, 0x40, 1, 0x4, .por, true, 0x2710, 0xFFFF, 0, 0, 0, 0, 0, 0⟩
  , ⟨"TB_OFS_LAST", 0x18, 4, 0x40, 1, 0x4, .por, false, 0x0, 0, 0, 0, 0, 0, 0, 0⟩
  , ⟨"TB_STAT", 0x1C, 4, 0x40, 1, 0x4, .por, false, 0x0, 0, 0, 0, 0, 0, 0, 0⟩
  , ⟨"TB_STEP_LO", 0x20, 4, 0x40, 1, 0x4, .por, true, 0x0, 0xFFFFFFFF, 0, 0, 0, 0, 0, 0⟩
  , ⟨"TB_STEP_HI", 0x24, 4, 0x40, 1, 0x4, .por, true, 0x0, 0xFFFF, 0, 0, 0, 0, 0, 0⟩
  , ⟨"TB_CMD", 0x28, 4, 0x40, 1, 0x4, .por, true, 0x0, 0, 0, 0x7, 0, 0, 0, 0⟩
  , ⟨"TB_T1_OFS", 0x70, 1, 0x4, 1, 0x4, .por, true, 0x0, 0xFFFFFFFF, 0, 0, 0, 0, 0, 0⟩
  , ⟨"TB_SNAP", 0x100, 1, 0x4, 1, 0x4, .por, false, 0x0, 0, 0, 0x1, 0, 0, 0, 0⟩
  , ⟨"TB_SNAP_NS", 0x104, 4, 0x8, 1, 0x4, .por, false, 0x0, 0, 0, 0, 0, 0, 0, 0⟩
  , ⟨"TB_SNAP_HI", 0x108, 4, 0x8, 1, 0x4, .por, false, 0x0, 0, 0, 0, 0, 0, 0, 0⟩
  , ⟨"TB_SPAN_CTL", 0x140, 1, 0x4, 1, 0x4, .por, true, 0x8000007D, 0x8000FFFF, 0, 0, 0, 0, 0, 0⟩
  , ⟨"TB_SPAN_DELAY", 0x144, 1, 0x4, 1, 0x4, .por, false, 0x0, 0, 0, 0, 0, 0, 0, 0⟩
  , ⟨"TB_SPAN_ASYM_E", 0x148, 1, 0x4, 1, 0x4, .por, true, 0x0, 0xFFFFFFFF, 0, 0, 0, 0, 0, 0⟩
  , ⟨"TB_SPAN_ASYM_W", 0x14C, 1, 0x4, 1, 0x4, .por, true, 0x0, 0xFFFFFFFF, 0, 0, 0, 0, 0, 0⟩
  , ⟨"TB_PTM_CTL", 0x150, 1, 0x4, 1, 0x4, .por, true, 0xA, 0x8000FFFF, 0, 0, 0, 0, 0, 0⟩
  , ⟨"TB_PPS_CTL", 0x154, 1, 0x4, 1, 0x4, .por, true, 0x0, 0xC0000000, 0, 0, 0, 0, 0, 0⟩
  , ⟨"TB_PPS_ADJ", 0x158, 1, 0x4, 1, 0x4, .por, true, 0x0, 0xFFFFFFFF, 0, 0, 0, 0, 0, 0⟩
  , ⟨"TB_EVT", 0x160, 1, 0x4, 1, 0x4, .por, false, 0x0, 0, 0x1FF, 0, 0, 0, 0, 0⟩
  , ⟨"TB_EVT_EN", 0x164, 1, 0x4, 1, 0x4, .por, false, 0x0, 0x1FF, 0, 0, 0, 0, 0, 0⟩ ]

def rowsTB_1 : List RegRow :=
  [ ⟨"TB_CAP_CTL", 0x200, 8, 0x20, 1, 0x4, .por, true, 0x0, 0xC0000000, 0x1, 0, 0, 0, 0, 0⟩
  , ⟨"TB_CAP_NS", 0x204, 8, 0x20, 4, 0x4, .por, false, 0x0, 0, 0, 0, 0, 0, 0, 0⟩
  , ⟨"TB_CAP_HI01", 0x214, 8, 0x20, 1, 0x4, .por, false, 0x0, 0, 0, 0, 0, 0, 0, 0⟩
  , ⟨"TB_CAP_HI23", 0x218, 8, 0x20, 1, 0x4, .por, false, 0x0, 0, 0, 0, 0, 0, 0, 0⟩
  , ⟨"TB_CAP_CNT_OVR", 0x21C, 8, 0x20, 1, 0x4, .por, false, 0x0, 0, 0, 0, 0, 0, 0, 0⟩
  , ⟨"TB_ALM_CTL", 0x300, 8, 0x20, 1, 0x4, .por, true, 0x0, 0xE0000000, 0, 0, 0, 0, 0, 0⟩
  , ⟨"TB_ALM_TGT_NS", 0x304, 8, 0x20, 1, 0x4, .por, true, 0x0, 0xFFFFFFFF, 0, 0, 0, 0, 0, 0⟩
  , ⟨"TB_ALM_TGT_HI", 0x308, 8, 0x20, 1, 0x4, .por, true, 0x0, 0xFFFF, 0, 0, 0, 0, 0, 0⟩
  , ⟨"TB_ALM_PERIOD", 0x30C, 8, 0x20, 1, 0x4, .por, true, 0x0, 0xFFFFFFFF, 0, 0, 0, 0, 0, 0⟩
  , ⟨"TB_ALM_STAT", 0x310, 8, 0x20, 1, 0x4, .por, false, 0x0, 0, 0x3, 0, 0, 0, 0, 0⟩
  , ⟨"TB_ALM_CNT_MISSED", 0x314, 8, 0x20, 1, 0x4, .por, false, 0x0, 0, 0, 0, 0, 0, 0, 0⟩ ]

/-- All rows of block TB. -/
def rowsTB : List RegRow := rowsTB_0 ++ rowsTB_1

/-- The register rows of block EM (spec chapter 20), offsets from the block base. -/
def rowsEM : List RegRow :=
  [ ⟨"EM_CTL", 0x0, 1, 0x4, 1, 0x4, .por, true, 0x0, 0x80000000, 0, 0, 0, 0, 0, 0⟩
  , ⟨"EM_FIRE", 0x4, 1, 0x4, 1, 0x4, .por, true, 0x0, 0, 0, 0, 0x800000FF, 0, 0, 0⟩
  , ⟨"EM_GUARD", 0x8, 1, 0x4, 1, 0x4, .por, true, 0x80000040, 0x800000FF, 0, 0, 0, 0, 0, 0⟩
  , ⟨"EM_EVT", 0x20, 1, 0x4, 1, 0x4, .por, false, 0x0, 0, 0xFF03, 0, 0, 0, 0, 0⟩
  , ⟨"EM_EVT_EN", 0x24, 1, 0x4, 1, 0x4, .por, false, 0x0, 0xFF03, 0, 0, 0, 0, 0, 0⟩
  , ⟨"EM_COINC", 0x200, 6, 0x4, 1, 0x4, .por, false, 0x0, 0, 0xFFFFFFFF, 0, 0, 0, 0, 0⟩
  , ⟨"EM_OVR", 0x220, 6, 0x4, 1, 0x4, .por, false, 0x0, 0, 0xFFFFFFFF, 0, 0, 0, 0, 0⟩
  , ⟨"EM_TRIP", 0x240, 8, 0x4, 1, 0x4, .por, true, 0x0, 0, 0xFFFFFFFF, 0, 0, 0, 0, 0⟩
  , ⟨"EM_CNT_OVR", 0x280, 1, 0x4, 1, 0x4, .por, false, 0x0, 0, 0, 0, 0, 0, 0, 0⟩
  , ⟨"EM_CNT_TRIP", 0x284, 1, 0x4, 1, 0x4, .por, false, 0x0, 0, 0, 0, 0, 0, 0, 0⟩
  , ⟨"EM_IN_CFG", 0x300, 16, 0x4, 1, 0x4, .por, true, 0x0, 0xF00000FF, 0, 0, 0, 0, 0, 0⟩
  , ⟨"EM_IN_LEVEL", 0x340, 1, 0x4, 1, 0x4, .por, false, 0x0, 0, 0, 0, 0, 0, 0, 0⟩
  , ⟨"EM_CELL_IN", 0x400, 32, 0x10, 1, 0x4, .por, true, 0x0, 0xFFFFFFFF, 0, 0, 0, 0, 0, 0⟩
  , ⟨"EM_CELL_CTL", 0x404, 32, 0x10, 1, 0x4, .por, true, 0x0, 0xF8FFFFFF, 0, 0x4000000, 0, 0, 0, 0⟩
  , ⟨"EM_CELL_STAT", 0x408, 32, 0x10, 1, 0x4, .por, false, 0x0, 0, 0, 0, 0, 0, 0, 0⟩
  , ⟨"EM_OUT_CFG", 0x600, 16, 0x8, 1, 0x4, .por, true, 0x0, 0xF1FFFFFF, 0, 0, 0, 0, 0, 0⟩
  , ⟨"EM_OUT_STAT", 0x604, 16, 0x8, 1, 0x4, .por, false, 0x0, 0, 0, 0, 0, 0, 0, 0⟩
  , ⟨"EM_ROUTE", 0x1000, 256, 0x20, 6, 0x4, .por, true, 0x0, 0xFFFFFFFF, 0, 0, 0, 0, 0, 0⟩ ]

/-- The register rows of block TO (spec chapter 19), offsets from the block base. -/
def rowsTO : List RegRow :=
  [ ⟨"TO_CTL", 0x0, 1, 0x4, 1, 0x4, .por, false, 0x0, 0x80000000, 0, 0x40000000, 0, 0, 0, 0⟩
  , ⟨"TO_STAT", 0x4, 1, 0x4, 1, 0x4, .por, false, 0x0, 0, 0, 0, 0, 0, 0, 0⟩
  , ⟨"TO_PERIOD", 0x8, 1, 0x4, 1, 0x4, .por, false, 0x0, 0, 0, 0, 0, 0, 0, 0⟩
  , ⟨"TO_CAP0", 0x10, 1, 0x4, 1, 0x4, .por, false, 0x4E18, 0xFFFFFFFF, 0, 0, 0, 0, 0, 0⟩
  , ⟨"TO_CAP1", 0x14, 1, 0x4, 1, 0x4, .por, false, 0x2670, 0xFFFFFFFF, 0, 0, 0, 0, 0, 0⟩
  , ⟨"TO_CAP2", 0x18, 1, 0x4, 1, 0x4, .por, false, 0x9C40, 0, 0, 0, 0, 0, 0, 0⟩
  , ⟨"TO_CAP3", 0x1C, 1, 0x4, 1, 0x4, .por, false, 0x14, 0xFFFFFFFF, 0, 0, 0, 0, 0, 0⟩
  , ⟨"TO_EVT", 0x20, 1, 0x4, 1, 0x4, .por, false, 0x0, 0, 0x7, 0, 0, 0, 0, 0⟩
  , ⟨"TO_EVT_EN", 0x24, 1, 0x4, 1, 0x4, .por, false, 0x0, 0x7, 0, 0, 0, 0, 0, 0⟩
  , ⟨"TO_BUD", 0x100, 180, 0x4, 1, 0x4, .por, false, 0x0, 0xFFFFFF, 0, 0, 0, 0, 0, 0⟩
  , ⟨"TO_AVAIL", 0x400, 180, 0x4, 1, 0x4, .por, false, 0x0, 0, 0, 0, 0, 0, 0, 0⟩
  , ⟨"TO_CNT_EXH", 0x800, 45, 0x4, 1, 0x4, .por, false, 0x0, 0, 0, 0, 0, 0, 0, 0⟩ ]

/-- The register rows of block MM (spec chapter 19), offsets from the block base. -/
def rowsMM : List RegRow :=
  [ ⟨"MM_CTL", 0x0, 1, 0x4, 1, 0x4, .por, false, 0x0, 0x80000000, 0, 0, 0, 0, 0, 0⟩
  , ⟨"MM_STAT", 0x4, 1, 0x4, 1, 0x4, .por, false, 0x0, 0, 0, 0, 0, 0, 0, 0⟩
  , ⟨"MM_CAP", 0x8, 1, 0x4, 1, 0x4, .por, false, 0x0, 0, 0, 0, 0, 0, 0, 0⟩
  , ⟨"MM_RSV_BASE", 0xC, 1, 0x4, 1, 0x4, .por, false, 0x0, 0, 0, 0, 0, 0, 0xFFF, 0⟩
  , ⟨"MM_SCRUB", 0x10, 1, 0x4, 1, 0x4, .por, false, 0x80000018, 0x8000FFFF, 0, 0, 0, 0, 0, 0⟩
  , ⟨"MM_UE_THR", 0x14, 1, 0x4, 1, 0x4, .por, false, 0x8, 0xFF, 0, 0, 0, 0, 0, 0⟩
  , ⟨"MM_POOL_TOTAL", 0x100, 5, 0x10, 1, 0x4, .por, false, 0x0, 0, 0, 0, 0, 0, 0, 0⟩
  , ⟨"MM_POOL_FREE", 0x104, 5, 0x10, 1, 0x4, .por, false, 0x0, 0, 0, 0, 0, 0, 0, 0⟩
  , ⟨"MM_POOL_LOW", 0x108, 5, 0x10, 1, 0x4, .por, false, 0x0, 0, 0, 0, 0, 0x7FFFFF, 0, 0⟩
  , ⟨"MM_POOL_CNT_EMPTY", 0x10C, 5, 0x10, 1, 0x4, .por, false, 0x0, 0, 0, 0, 0, 0, 0, 0⟩
  , ⟨"MM_CNT_CE", 0x200, 8, 0x4, 1, 0x4, .por, false, 0x0, 0, 0, 0, 0, 0, 0, 0⟩
  , ⟨"MM_CNT_UE", 0x220, 8, 0x4, 1, 0x4, .por, false, 0x0, 0, 0, 0, 0, 0, 0, 0⟩
  , ⟨"MM_UE_ADDR_LO", 0x240, 1, 0x4, 1, 0x4, .por, false, 0x0, 0, 0, 0, 0, 0, 0, 0⟩
  , ⟨"MM_UE_ADDR_HI", 0x244, 1, 0x4, 1, 0x4, .por, false, 0x0, 0, 0, 0, 0, 0, 0, 0⟩
  , ⟨"MM_CNT_LOST_BLK", 0x248, 1, 0x4, 1, 0x4, .por, false, 0x0, 0, 0, 0, 0, 0, 0, 0⟩
  , ⟨"MM_EVT", 0x260, 1, 0x4, 1, 0x4, .por, false, 0x0, 0, 0x1F, 0, 0, 0, 0, 0⟩
  , ⟨"MM_EVT_EN", 0x264, 1, 0x4, 1, 0x4, .por, false, 0x0, 0x1F, 0, 0, 0, 0, 0, 0⟩ ]

/-- The register rows of block TW (spec chapter 16), offsets from the block base. -/
def rowsTW : List RegRow :=
  [ ⟨"TW_CFG", 0x0, 1, 0x4, 1, 0x4, .por, true, 0x2600000, 0xFFE00000, 0, 0, 0, 0, 0, 0⟩
  , ⟨"TW_ADDR", 0x4, 1, 0x4, 1, 0x4, .por, true, 0x0, 0xC07FC07F, 0, 0, 0, 0, 0, 0⟩
  , ⟨"TW_TMO", 0x8, 1, 0x4, 1, 0x4, .por, true, 0x32, 0xFF00FFFF, 0, 0, 0, 0, 0, 0⟩
  , ⟨"TW_CMD", 0xC, 1, 0x4, 1, 0x4, .por, true, 0x0, 0x307FFFFF, 0, 0x80000000, 0, 0, 0, 0⟩
  , ⟨"TW_CRES", 0x10, 1, 0x4, 1, 0x4, .por, false, 0x0, 0, 0, 0, 0, 0, 0, 0⟩
  , ⟨"TW_ARB", 0x14, 1, 0x4, 1, 0x4, .por, false, 0x0, 0, 0, 0, 0, 0, 0, 0⟩
  , ⟨"TW_STAT", 0x18, 1, 0x4, 1, 0x4, .por, false, 0x0, 0, 0x1, 0, 0, 0, 0, 0⟩
  , ⟨"TW_ALERT", 0x1C, 1, 0x4, 1, 0x4, .por, true, 0x0, 0x80000000, 0, 0, 0, 0, 0, 0⟩
  , ⟨"TW_EVT", 0x20, 1, 0x4, 1, 0x4, .por, false, 0x0, 0, 0x7FFF, 0, 0, 0, 0, 0⟩
  , ⟨"TW_EVT_EN", 0x24, 1, 0x4, 1, 0x4, .por, false, 0x0, 0x7FFF, 0, 0, 0, 0, 0, 0⟩
  , ⟨"TW_TGT_RECV", 0x30, 1, 0x4, 1, 0x4, .por, true, 0x0, 0xFF, 0, 0, 0, 0, 0, 0⟩
  , ⟨"TW_CNT_ARB", 0x40, 1, 0x4, 1, 0x4, .por, false, 0x0, 0, 0, 0, 0, 0, 0, 0⟩
  , ⟨"TW_CNT_ARB_SR", 0x44, 1, 0x4, 1, 0x4, .por, false, 0x0, 0, 0, 0, 0, 0, 0, 0⟩
  , ⟨"TW_CNT_NAK", 0x48, 1, 0x4, 1, 0x4, .por, false, 0x0, 0, 0, 0, 0, 0, 0, 0⟩
  , ⟨"TW_CNT_TMO", 0x4C, 1, 0x4, 1, 0x4, .por, false, 0x0, 0, 0, 0, 0, 0, 0, 0⟩
  , ⟨"TW_CNT_TGT_BUSY", 0x50, 1, 0x4, 1, 0x4, .por, false, 0x0, 0, 0, 0, 0, 0, 0, 0⟩
  , ⟨"TW_CNT_TGT_DISCARD", 0x54, 1, 0x4, 1, 0x4, .por, false, 0x0, 0, 0, 0, 0, 0, 0, 0⟩
  , ⟨"TW_CNT_PEC_ERR", 0x58, 1, 0x4, 1, 0x4, .por, false, 0x0, 0, 0, 0, 0, 0, 0, 0⟩
  , ⟨"TW_TXBUF", 0x100, 16, 0x4, 1, 0x4, .por, true, 0x0, 0xFFFFFFFF, 0, 0, 0, 0, 0, 0⟩
  , ⟨"TW_RXBUF", 0x200, 64, 0x4, 1, 0x4, .por, false, 0x0, 0, 0, 0, 0, 0, 0, 0⟩
  , ⟨"TW_TGT_CMD", 0x400, 256, 0x4, 1, 0x4, .por, true, 0x0, 0xF8FF07FF, 0, 0, 0, 0, 0, 0⟩
  , ⟨"TW_TGT_RAM", 0x800, 512, 0x4, 1, 0x4, .por, true, 0x0, 0xFFFFFFFF, 0, 0, 0, 0, 0, 0⟩ ]

/-- The register rows of block AB (spec chapter 17), offsets from the block base. -/
def rowsAB_0 : List RegRow :=
  [ ⟨"AB_CTL", 0x0, 1, 0x4, 1, 0x4, .por, true, 0x8001000, 0x8F00FF03, 0, 0, 0, 0, 0, 0⟩
  , ⟨"AB_STAT", 0x4, 1, 0x4, 1, 0x4, .por, false, 0x0, 0, 0, 0, 0, 0, 0, 0⟩
  , ⟨"AB_DR_TMO", 0x8, 1, 0x4, 1, 0x4, .por, true, 0x10, 0x7F, 0, 0, 0, 0, 0, 0⟩
  , ⟨"AB_CNT_OUT_WR", 0x40, 1, 0x4, 1, 0x4, .por, false, 0x0, 0, 0, 0, 0, 0, 0, 0⟩
  , ⟨"AB_CNT_OUT_RD", 0x44, 1, 0x4, 1, 0x4, .por, false, 0x0, 0, 0, 0, 0, 0, 0, 0⟩
  , ⟨"AB_CNT_ATOMIC", 0x48, 1, 0x4, 1, 0x4, .por, false, 0x0, 0, 0, 0, 0, 0, 0, 0⟩
  , ⟨"AB_CNT_ERR", 0x4C, 1, 0x4, 1, 0x4, .por, false, 0x0, 0, 0, 0, 0, 0, 0, 0⟩
  , ⟨"AB_CNT_RETRY", 0x50, 1, 0x4, 1, 0x4, .por, false, 0x0, 0, 0, 0, 0, 0, 0, 0⟩
  , ⟨"AB_CNT_DR_FULL", 0x54, 1, 0x4, 1, 0x4, .por, false, 0x0, 0, 0, 0, 0, 0, 0, 0⟩
  , ⟨"AB_CNT_DR_DISCARD", 0x58, 1, 0x4, 1, 0x4, .por, false, 0x0, 0, 0, 0, 0, 0, 0, 0⟩
  , ⟨"AB_CNT_IN_DROP", 0x5C, 1, 0x4, 1, 0x4, .por, false, 0x0, 0, 0, 0, 0, 0, 0, 0⟩
  , ⟨"AB_EVT", 0x60, 1, 0x4, 1, 0x4, .por, false, 0x0, 0, 0x1F, 0, 0, 0, 0, 0⟩
  , ⟨"AB_EVT_EN", 0x64, 1, 0x4, 1, 0x4, .por, false, 0x0, 0x1F, 0, 0, 0, 0, 0, 0⟩
  , ⟨"AB_REG_CTL", 0x100, 8, 0x20, 1, 0x4, .por, true, 0x400000, 0xC0FF0000, 0, 0, 0, 0, 0, 0⟩
  , ⟨"AB_REG_BASE", 0x104, 8, 0x20, 1, 0x4, .por, true, 0x0, 0xFFF000, 0, 0, 0, 0, 0, 0⟩
  , ⟨"AB_REG_SIZE", 0x108, 8, 0x20, 1, 0x4, .por, true, 0x0, 0x1FFF000, 0, 0, 0, 0, 0, 0⟩
  , ⟨"AB_REG_LB", 0x10C, 8, 0x20, 1, 0x4, .por, true, 0x0, 0xFFFFF000, 0, 0, 0, 0, 0, 0⟩
  , ⟨"AB_IN_CTL", 0x200, 4, 0x20, 1, 0x4, .por, true, 0x0, 0x80000000, 0, 0, 0, 0, 0, 0⟩
  , ⟨"AB_IN_LB", 0x204, 4, 0x20, 1, 0x4, .por, true, 0x0, 0xFFFFF000, 0, 0, 0, 0, 0, 0⟩
  , ⟨"AB_IN_SIZE", 0x208, 4, 0x20, 1, 0x4, .por, true, 0x0, 0xFFFFF000, 0, 0, 0, 0, 0, 0⟩
  , ⟨"AB_IN_HOST_LO", 0x20C, 4, 0x20, 1, 0x4, .por, true, 0x0, 0xFFFFF000, 0, 0, 0, 0, 0, 0⟩
  , ⟨"AB_IN_HOST_HI", 0x210, 4, 0x20, 1, 0x4, .por, true, 0x0, 0xFFFFFFFF, 0, 0, 0, 0, 0, 0⟩
  , ⟨"AB_SB_CTL", 0x300, 1, 0x4, 1, 0x4, .por, true, 0x1, 0xC00003FF, 0, 0, 0, 0, 0, 0⟩
  , ⟨"AB_SB_EDGE", 0x304, 1, 0x4, 1, 0x4, .por, true, 0x0, 0xFFFFFFFF, 0, 0, 0, 0, 0, 0⟩ ]

def rowsAB_1 : List RegRow :=
  [ ⟨"AB_SB_LEVEL", 0x308, 1, 0x4, 1, 0x4, .por, false, 0x0, 0, 0, 0, 0, 0, 0, 0⟩
  , ⟨"AB_SB_EVT", 0x30C, 1, 0x4, 1, 0x4, .por, false, 0x0, 0, 0xFFFF, 0, 0, 0, 0, 0⟩
  , ⟨"AB_SB_EVT_EN", 0x310, 1, 0x4, 1, 0x4, .por, false, 0x0, 0xFFFF, 0, 0, 0, 0, 0, 0⟩
  , ⟨"AB_LOG_ADDR", 0x400, 8, 0x10, 1, 0x4, .por, false, 0x0, 0, 0, 0, 0, 0, 0, 0⟩
  , ⟨"AB_LOG_STAMP", 0x404, 8, 0x10, 1, 0x4, .por, false, 0x0, 0, 0, 0, 0, 0, 0, 0⟩
  , ⟨"AB_LOG_INFO", 0x408, 8, 0x10, 1, 0x4, .por, false, 0x0, 0, 0, 0, 0, 0x80000000, 0, 0⟩
  , ⟨"AB_LOG_OVF", 0x480, 1, 0x4, 1, 0x4, .por, false, 0x0, 0, 0, 0, 0, 0, 0, 0⟩ ]

/-- All rows of block AB. -/
def rowsAB : List RegRow := rowsAB_0 ++ rowsAB_1

/-- The register rows of block EV (spec chapter 18), offsets from the block base. -/
def rowsEV_0 : List RegRow :=
  [ ⟨"EV_CTL", 0x0, 1, 0x4, 1, 0x4, .por, false, 0x0, 0xE000000F, 0, 0, 0, 0, 0, 0⟩
  , ⟨"EV_MEDIUM", 0x4, 1, 0x4, 1, 0x4, .por, false, 0x0, 0, 0, 0, 0, 0, 0, 0⟩
  , ⟨"EV_STAT", 0x8, 1, 0x4, 1, 0x4, .por, false, 0x0, 0, 0, 0, 0, 0, 0, 0⟩
  , ⟨"EV_SEL", 0x10, 1, 0x4, 1, 0x4, .por, true, 0x80000000, 0xF0FF0000, 0, 0, 0, 0, 0, 0⟩
  , ⟨"EV_PATROL", 0x14, 1, 0x4, 1, 0x4, .por, true, 0x1E3C3000, 0xFFFFF000, 0, 0, 0, 0, 0, 0⟩
  , ⟨"EV_CRED_CAP", 0x18, 1, 0x4, 1, 0x4, .por, true, 0x18, 0xFFFF, 0, 0, 0, 0, 0, 0⟩
  , ⟨"EV_CRED_RATE", 0x1C, 1, 0x4, 1, 0x4, .por, false, 0x0, 0, 0, 0, 0, 0, 0, 0⟩
  , ⟨"EV_CRED_BAL_LO", 0x20, 1, 0x4, 1, 0x4, .por, false, 0x0, 0, 0, 0, 0, 0, 0, 0⟩
  , ⟨"EV_CRED_BAL_HI", 0x24, 1, 0x4, 1, 0x4, .por, false, 0x0, 0, 0, 0, 0, 0, 0, 0⟩
  , ⟨"EV_CRED_GRANTED_LO", 0x28, 1, 0x4, 1, 0x4, .por, false, 0x0, 0, 0, 0, 0, 0, 0, 0⟩
  , ⟨"EV_CRED_GRANTED_HI", 0x2C, 1, 0x4, 1, 0x4, .por, false, 0x0, 0, 0, 0, 0, 0, 0, 0⟩
  , ⟨"EV_CRED_SPENT_LO", 0x30, 1, 0x4, 1, 0x4, .por, false, 0x0, 0, 0, 0, 0, 0, 0, 0⟩
  , ⟨"EV_CRED_SPENT_HI", 0x34, 1, 0x4, 1, 0x4, .por, false, 0x0, 0, 0, 0, 0, 0, 0, 0⟩
  , ⟨"EV_CRED_FORFEIT_LO", 0x38, 1, 0x4, 1, 0x4, .por, false, 0x0, 0, 0, 0, 0, 0, 0, 0⟩
  , ⟨"EV_CRED_FORFEIT_HI", 0x3C, 1, 0x4, 1, 0x4, .por, false, 0x0, 0, 0, 0, 0, 0, 0, 0⟩
  , ⟨"EV_RING_OLDEST", 0x40, 1, 0x4, 1, 0x4, .por, false, 0x0, 0, 0, 0, 0, 0, 0, 0⟩
  , ⟨"EV_RING_NEWEST", 0x44, 1, 0x4, 1, 0x4, .por, false, 0x0, 0, 0, 0, 0, 0, 0, 0⟩
  , ⟨"EV_CNT_REC", 0x60, 1, 0x4, 1, 0x4, .por, false, 0x0, 0, 0, 0, 0, 0, 0, 0⟩
  , ⟨"EV_CNT_DROP_CRED", 0x64, 1, 0x4, 1, 0x4, .por, false, 0x0, 0, 0, 0, 0, 0, 0, 0⟩
  , ⟨"EV_CNT_DROP_STAGE", 0x68, 1, 0x4, 1, 0x4, .por, false, 0x0, 0, 0, 0, 0, 0, 0, 0⟩
  , ⟨"EV_CNT_DROP_TOLL", 0x6C, 1, 0x4, 1, 0x4, .por, false, 0x0, 0, 0, 0, 0, 0, 0, 0⟩
  , ⟨"EV_CNT_LADDER", 0x70, 1, 0x4, 1, 0x4, .por, false, 0x0, 0, 0, 0, 0, 0, 0, 0⟩
  , ⟨"EV_CNT_UNCORR", 0x74, 1, 0x4, 1, 0x4, .por, false, 0x0, 0, 0, 0, 0, 0, 0, 0⟩
  , ⟨"EV_CNT_REFRESH", 0x78, 1, 0x4, 1, 0x4, .por, false, 0x0, 0, 0, 0, 0, 0, 0, 0⟩ ]

def rowsEV_1 : List RegRow :=
  [ ⟨"EV_CNT_GROWN_BAD", 0x7C, 1, 0x4, 1, 0x4, .por, false, 0x0, 0, 0, 0, 0, 0, 0, 0⟩
  , ⟨"EV_EVT", 0x90, 1, 0x4, 1, 0x4, .por, false, 0x0, 0, 0x7F, 0, 0, 0, 0, 0⟩
  , ⟨"EV_EVT_EN", 0x94, 1, 0x4, 1, 0x4, .por, false, 0x0, 0x7F, 0, 0, 0, 0, 0, 0⟩ ]

/-- All rows of block EV. -/
def rowsEV : List RegRow := rowsEV_0 ++ rowsEV_1

/-- The register rows of block SL (spec chapter 12), offsets from the block base. -/
def rowsSL : List RegRow :=
  [ ⟨"SL_CTL", 0x0, 1, 0x4, 1, 0x4, .por, false, 0x81010000, 0xAF0F0000, 0, 0x40000000, 0, 0, 0, 0⟩
  , ⟨"SL_TMO", 0x4, 1, 0x4, 1, 0x4, .por, false, 0x1081414, 0xFFFFFFFF, 0, 0, 0, 0, 0, 0⟩
  , ⟨"SL_ERR_THR", 0x8, 1, 0x4, 1, 0x4, .por, false, 0x40, 0xFFFF, 0, 0, 0, 0, 0, 0⟩
  , ⟨"SL_PHY_CTL", 0xC, 1, 0x4, 1, 0x4, .por, false, 0x0, 0xF, 0, 0, 0, 0, 0, 0⟩
  , ⟨"SL_STAT", 0x10, 1, 0x4, 1, 0x4, .por, false, 0x0, 0, 0, 0, 0, 0, 0, 0⟩
  , ⟨"SL_PARTNER0", 0x14, 1, 0x4, 1, 0x4, .por, false, 0x0, 0, 0, 0, 0, 0, 0, 0⟩
  , ⟨"SL_PARTNER1", 0x18, 1, 0x4, 1, 0x4, .por, false, 0x0, 0, 0, 0, 0, 0, 0, 0⟩
  , ⟨"SL_PARTNER_SN", 0x1C, 1, 0x4, 1, 0x4, .por, false, 0x0, 0, 0, 0, 0, 0, 0, 0⟩
  , ⟨"SL_LANE_STAT", 0x20, 4, 0x4, 1, 0x4, .por, false, 0x0, 0, 0, 0, 0, 0, 0, 0⟩
  , ⟨"SL_CNT_CV", 0x40, 4, 0x4, 1, 0x4, .por, false, 0x0, 0, 0, 0, 0, 0, 0, 0⟩
  , ⟨"SL_CNT_DISP", 0x50, 4, 0x4, 1, 0x4, .por, false, 0x0, 0, 0, 0, 0, 0, 0, 0⟩
  , ⟨"SL_CNT_RETRAIN", 0x60, 1, 0x4, 1, 0x4, .por, false, 0x0, 0, 0, 0, 0, 0, 0, 0⟩
  , ⟨"SL_CNT_DOWN", 0x64, 1, 0x4, 1, 0x4, .por, false, 0x0, 0, 0, 0, 0, 0, 0, 0⟩
  , ⟨"SL_CNT_OS_ERR", 0x68, 1, 0x4, 1, 0x4, .por, false, 0x0, 0, 0, 0, 0, 0, 0, 0⟩
  , ⟨"SL_CNT_ABORT", 0x6C, 1, 0x4, 1, 0x4, .por, false, 0x0, 0, 0, 0, 0, 0, 0, 0⟩
  , ⟨"SL_CNT_SKIP_ADJ", 0x70, 1, 0x4, 1, 0x4, .por, false, 0x0, 0, 0, 0, 0, 0, 0, 0⟩
  , ⟨"SL_CNT_TMO", 0x74, 1, 0x4, 1, 0x4, .por, false, 0x0, 0, 0, 0, 0, 0, 0, 0⟩
  , ⟨"SL_EVT", 0x80, 1, 0x4, 1, 0x4, .por, false, 0x0, 0, 0x3F, 0, 0, 0, 0, 0⟩
  , ⟨"SL_EVT_EN", 0x84, 1, 0x4, 1, 0x4, .por, false, 0x0, 0x3F, 0, 0, 0, 0, 0, 0⟩
  , ⟨"SL_EYE_CTL", 0x100, 1, 0x4, 1, 0x4, .por, true, 0x14, 0xFFFE03F, 0, 0x80000000, 0, 0, 0, 0⟩
  , ⟨"SL_EYE_BITS_LO", 0x104, 1, 0x4, 1, 0x4, .por, false, 0x0, 0, 0, 0, 0, 0, 0, 0⟩
  , ⟨"SL_EYE_BITS_HI", 0x108, 1, 0x4, 1, 0x4, .por, false, 0x0, 0, 0, 0, 0, 0, 0, 0⟩
  , ⟨"SL_EYE_ERR_LO", 0x10C, 1, 0x4, 1, 0x4, .por, false, 0x0, 0, 0, 0, 0, 0, 0, 0⟩
  , ⟨"SL_EYE_ERR_HI", 0x110, 1, 0x4, 1, 0x4, .por, false, 0x0, 0, 0, 0, 0, 0, 0, 0⟩ ]

/-- The register rows of block SN (spec chapter 13), offsets from the block base. -/
def rowsSN_0 : List RegRow :=
  [ ⟨"SN_CTL", 0x0, 1, 0x4, 1, 0x4, .por, false, 0xC3FF0A00, 0xC3FFFF00, 0, 0, 0, 0, 0, 0⟩
  , ⟨"SN_PIER", 0x4, 1, 0x4, 1, 0x4, .por, false, 0x0, 0, 0, 0, 0, 0, 0, 0⟩
  , ⟨"SN_CHAIN", 0x8, 1, 0x4, 1, 0x4, .por, false, 0x0, 0, 0, 0, 0, 0, 0, 0⟩
  , ⟨"SN_NEXT", 0xC, 1, 0x4, 1, 0x4, .por, false, 0x1, 0, 0, 0, 0, 0, 0, 0⟩
  , ⟨"SN_HOST", 0x10, 1, 0x4, 1, 0x4, .por, false, 0x80000000, 0x800003FF, 0, 0, 0, 0, 0, 0⟩
  , ⟨"SN_EVT", 0x40, 1, 0x4, 1, 0x4, .por, false, 0x0, 0, 0xFF, 0, 0, 0, 0, 0⟩
  , ⟨"SN_EVT_EN", 0x44, 1, 0x4, 1, 0x4, .por, false, 0x0, 0xFF, 0, 0, 0, 0, 0, 0⟩
  , ⟨"SN_GRANT01", 0x100, 2, 0x80, 1, 0x4, .por, false, 0x80040, 0xFFFFFFFF, 0, 0, 0, 0, 0, 0⟩
  , ⟨"SN_GRANT23", 0x104, 2, 0x80, 1, 0x4, .por, false, 0x600200, 0xFFFFFFFF, 0, 0, 0, 0, 0, 0⟩
  , ⟨"SN_GRANT45", 0x108, 2, 0x80, 1, 0x4, .por, false, 0xF80060, 0xFFFFFFFF, 0, 0, 0, 0, 0, 0⟩
  , ⟨"SN_AVAIL01", 0x10C, 2, 0x80, 1, 0x4, .por, false, 0x0, 0, 0, 0, 0, 0, 0, 0⟩
  , ⟨"SN_AVAIL23", 0x110, 2, 0x80, 1, 0x4, .por, false, 0x0, 0, 0, 0, 0, 0, 0, 0⟩
  , ⟨"SN_AVAIL45", 0x114, 2, 0x80, 1, 0x4, .por, false, 0x0, 0, 0, 0, 0, 0, 0, 0⟩
  , ⟨"SN_PARTNER", 0x118, 2, 0x80, 1, 0x4, .por, false, 0x0, 0, 0, 0, 0, 0, 0, 0⟩
  , ⟨"SN_CNT_TX", 0x120, 2, 0x80, 1, 0x4, .por, false, 0x0, 0, 0, 0, 0, 0, 0, 0⟩
  , ⟨"SN_CNT_RX", 0x124, 2, 0x80, 1, 0x4, .por, false, 0x0, 0, 0, 0, 0, 0, 0, 0⟩
  , ⟨"SN_CNT_FWD", 0x128, 2, 0x80, 1, 0x4, .por, false, 0x0, 0, 0, 0, 0, 0, 0, 0⟩
  , ⟨"SN_CNT_HCRC", 0x12C, 2, 0x80, 1, 0x4, .por, false, 0x0, 0, 0, 0, 0, 0, 0, 0⟩
  , ⟨"SN_CNT_LEN", 0x130, 2, 0x80, 1, 0x4, .por, false, 0x0, 0, 0, 0, 0, 0, 0, 0⟩
  , ⟨"SN_CNT_CRC", 0x134, 2, 0x80, 1, 0x4, .por, false, 0x0, 0, 0, 0, 0, 0, 0, 0⟩
  , ⟨"SN_CNT_NOROUTE", 0x138, 2, 0x80, 1, 0x4, .por, false, 0x0, 0, 0, 0, 0, 0, 0, 0⟩
  , ⟨"SN_CNT_CRED_ERR", 0x13C, 2, 0x80, 1, 0x4, .por, false, 0x0, 0, 0, 0, 0, 0, 0, 0⟩
  , ⟨"SN_CNT_AUDIT", 0x140, 2, 0x80, 1, 0x4, .por, false, 0x0, 0, 0, 0, 0, 0, 0, 0⟩
  , ⟨"SN_CNT_DROP_DOWN", 0x144, 2, 0x80, 1, 0x4, .por, false, 0x0, 0, 0, 0, 0, 0, 0, 0⟩ ]

def rowsSN_1 : List RegRow :=
  [ ⟨"SN_CNT_EPOCH", 0x148, 2, 0x80, 1, 0x4, .por, false, 0x0, 0, 0, 0, 0, 0, 0, 0⟩
  , ⟨"SN_ROUTE", 0x400, 64, 0x4, 1, 0x4, .por, false, 0x0, 0, 0, 0, 0, 0, 0, 0⟩ ]

/-- All rows of block SN. -/
def rowsSN : List RegRow := rowsSN_0 ++ rowsSN_1

/-- The register rows of block AC (spec chapter 10), offsets from the block base. -/
def rowsAC_0 : List RegRow :=
  [ ⟨"AC_CTL", 0x0, 1, 0x4, 1, 0x4, .por, true, 0x0, 0xE0003FFF, 0, 0, 0, 0, 0, 0⟩
  , ⟨"AC_TIMING", 0x4, 1, 0x4, 1, 0x4, .por, true, 0x0, 0xFFFF0000, 0, 0, 0, 0, 0, 0⟩
  , ⟨"AC_MARGIN", 0x8, 1, 0x4, 1, 0x4, .por, true, 0x0, 0xFFFFFFFF, 0, 0, 0, 0, 0, 0⟩
  , ⟨"AC_VMARGIN", 0xC, 1, 0x4, 1, 0x4, .por, true, 0x0, 0xFF, 0, 0, 0, 0, 0, 0⟩
  , ⟨"AC_DUR", 0x10, 1, 0x4, 1, 0x4, .por, true, 0xFFFF0001, 0xFFFFFFFF, 0, 0, 0, 0, 0, 0⟩
  , ⟨"AC_NBR", 0x14, 1, 0x4, 1, 0x4, .por, false, 0x0, 0, 0, 0, 0, 0, 0, 0⟩
  , ⟨"AC_STAT", 0x18, 1, 0x4, 1, 0x4, .por, false, 0x0, 0, 0, 0, 0, 0, 0, 0⟩
  , ⟨"AC_CNT_ORDER", 0x20, 1, 0x4, 1, 0x4, .por, false, 0x0, 0, 0, 0, 0, 0, 0, 0⟩
  , ⟨"AC_CNT_FIRED", 0x24, 1, 0x4, 1, 0x4, .por, false, 0x0, 0, 0, 0, 0, 0, 0, 0⟩
  , ⟨"AC_CNT_LATE", 0x28, 1, 0x4, 1, 0x4, .por, false, 0x0, 0, 0, 0, 0, 0, 0, 0⟩
  , ⟨"AC_CNT_FULL", 0x2C, 1, 0x4, 1, 0x4, .por, false, 0x0, 0, 0, 0, 0, 0, 0, 0⟩
  , ⟨"AC_CNT_EVICT", 0x30, 1, 0x4, 1, 0x4, .por, false, 0x0, 0, 0, 0, 0, 0, 0, 0⟩
  , ⟨"AC_CNT_NOMODEL", 0x34, 1, 0x4, 1, 0x4, .por, false, 0x0, 0, 0, 0, 0, 0, 0, 0⟩
  , ⟨"AC_CNT_NOVALVE", 0x38, 1, 0x4, 1, 0x4, .por, false, 0x0, 0, 0, 0, 0, 0, 0, 0⟩
  , ⟨"AC_CNT_CANCEL", 0x3C, 1, 0x4, 1, 0x4, .por, false, 0x0, 0, 0, 0, 0, 0, 0, 0⟩
  , ⟨"AC_CNT_ACT_TX", 0x40, 1, 0x4, 1, 0x4, .por, false, 0x0, 0, 0, 0, 0, 0, 0, 0⟩
  , ⟨"AC_CNT_ACT_RX", 0x44, 1, 0x4, 1, 0x4, .por, false, 0x0, 0, 0, 0, 0, 0, 0, 0⟩
  , ⟨"AC_CNT_ACT_REFUSED", 0x48, 1, 0x4, 1, 0x4, .por, false, 0x0, 0, 0, 0, 0, 0, 0, 0⟩
  , ⟨"AC_CNT_ACT_TMO", 0x4C, 1, 0x4, 1, 0x4, .por, false, 0x0, 0, 0, 0, 0, 0, 0, 0⟩
  , ⟨"AC_CNT_CLIP", 0x50, 1, 0x4, 1, 0x4, .por, false, 0x0, 0, 0, 0, 0, 0, 0, 0⟩
  , ⟨"AC_CNT_TEST", 0x54, 1, 0x4, 1, 0x4, .por, false, 0x0, 0, 0, 0, 0, 0, 0, 0⟩
  , ⟨"AC_EVT", 0x60, 1, 0x4, 1, 0x4, .por, false, 0x0, 0, 0x3F, 0, 0, 0, 0, 0⟩
  , ⟨"AC_EVT_EN", 0x64, 1, 0x4, 1, 0x4, .por, false, 0x0, 0x3F, 0, 0, 0, 0, 0, 0⟩
  , ⟨"AC_BOARD", 0x100, 128, 0x4, 1, 0x4, .por, true, 0x400000, 0xFFFF1FFF, 0, 0, 0, 0, 0, 0⟩ ]

def rowsAC_1 : List RegRow :=
  [ ⟨"AC_BUS_CTL", 0x400, 4, 0x40, 1, 0x4, .por, true, 0x10640000, 0xB8FF0FFF, 0, 0, 0, 0, 0, 0⟩
  , ⟨"AC_QSTAT", 0x404, 4, 0x40, 1, 0x4, .por, false, 0x0, 0, 0, 0, 0, 0, 0, 0⟩
  , ⟨"AC_QNEXT", 0x408, 4, 0x40, 1, 0x4, .por, false, 0x0, 0, 0, 0, 0, 0, 0, 0⟩
  , ⟨"AC_SLIP_MAX", 0x40C, 4, 0x40, 1, 0x4, .por, false, 0x0, 0, 0, 0, 0, 0xFFFFFFFF, 0, 0⟩
  , ⟨"AC_BUS_CNT_FRAMES", 0x410, 4, 0x40, 1, 0x4, .por, false, 0x0, 0, 0, 0, 0, 0, 0, 0⟩
  , ⟨"AC_BUS_CNT_SLIP", 0x414, 4, 0x40, 1, 0x4, .por, false, 0x0, 0, 0, 0, 0, 0, 0, 0⟩
  , ⟨"AC_BUS_CNT_COAL", 0x418, 4, 0x40, 1, 0x4, .por, false, 0x0, 0, 0, 0, 0, 0, 0, 0⟩
  , ⟨"AC_BUS_CNT_POLL_MISS", 0x41C, 4, 0x40, 1, 0x4, .por, false, 0x0, 0, 0, 0, 0, 0, 0, 0⟩
  , ⟨"AC_BUS_CNT_STATUS_ERR", 0x420, 4, 0x40, 1, 0x4, .por, false, 0x0, 0, 0, 0, 0, 0, 0, 0⟩
  , ⟨"AC_BSTAT", 0x800, 128, 0x4, 1, 0x4, .por, false, 0x0, 0, 0, 0, 0, 0, 0, 0⟩
  , ⟨"AC_BFAULT_LO", 0xC00, 128, 0x8, 1, 0x4, .por, false, 0x0, 0, 0, 0, 0, 0, 0, 0⟩
  , ⟨"AC_BFAULT_HI", 0xC04, 128, 0x8, 1, 0x4, .por, false, 0x0, 0, 0, 0, 0, 0, 0, 0⟩
  , ⟨"AC_XMDL_CTL", 0x1000, 64, 0x10, 1, 0x4, .por, false, 0x0, 0x80000000, 0, 0, 0, 0, 0, 0⟩
  , ⟨"AC_XMDL_A", 0x1004, 64, 0x10, 1, 0x4, .por, false, 0x100000, 0xFFFFFFFF, 0, 0, 0, 0, 0, 0⟩
  , ⟨"AC_XMDL_B", 0x1008, 64, 0x10, 1, 0x4, .por, false, 0x0, 0xFFFFFFFF, 0, 0, 0, 0, 0, 0⟩ ]

/-- All rows of block AC. -/
def rowsAC : List RegRow := rowsAC_0 ++ rowsAC_1

/-- The register rows of block TL (spec chapter 09), offsets from the block base. -/
def rowsTL_0 : List RegRow :=
  [ ⟨"TL_CTL", 0x0, 1, 0x4, 1, 0x4, .por, true, 0x3E8, 0xC000FFFF, 0, 0, 0, 0, 0, 0⟩
  , ⟨"TL_STAT", 0x4, 1, 0x4, 1, 0x4, .por, false, 0x0, 0, 0, 0, 0, 0, 0, 0⟩
  , ⟨"TL_ROUTE", 0x10, 16, 0x4, 1, 0x4, .por, true, 0x20200000, 0xFFFFFF9F, 0, 0, 0, 0, 0, 0⟩
  , ⟨"TL_STAGE", 0x50, 16, 0x4, 1, 0x4, .por, false, 0x100, 0x1FFF, 0, 0, 0, 0, 0, 0⟩
  , ⟨"TL_CNT_PRODUCED", 0xA0, 1, 0x4, 1, 0x4, .por, false, 0x0, 0, 0, 0, 0, 0, 0, 0⟩
  , ⟨"TL_CNT_DELIVERED", 0xA4, 1, 0x4, 1, 0x4, .por, false, 0x0, 0, 0, 0, 0, 0, 0, 0⟩
  , ⟨"TL_CNT_DROP_STAGE", 0xA8, 1, 0x4, 1, 0x4, .por, false, 0x0, 0, 0, 0, 0, 0, 0, 0⟩
  , ⟨"TL_CNT_DROP_TOLL", 0xAC, 1, 0x4, 1, 0x4, .por, false, 0x0, 0, 0, 0, 0, 0, 0, 0⟩
  , ⟨"TL_CNT_DROP_OVERSIZE", 0xB0, 1, 0x4, 1, 0x4, .por, false, 0x0, 0, 0, 0, 0, 0, 0, 0⟩
  , ⟨"TL_CNT_DROP_RING", 0xB4, 1, 0x4, 1, 0x4, .por, false, 0x0, 0, 0, 0, 0, 0, 0, 0⟩
  , ⟨"TL_CNT_DROP_PAUSE", 0xB8, 1, 0x4, 1, 0x4, .por, false, 0x0, 0, 0, 0, 0, 0, 0, 0⟩
  , ⟨"TL_CNT_DROP_SPAN", 0xBC, 1, 0x4, 1, 0x4, .por, false, 0x0, 0, 0, 0, 0, 0, 0, 0⟩
  , ⟨"TL_CNT_VERDICT", 0xC0, 1, 0x4, 1, 0x4, .por, false, 0x0, 0, 0, 0, 0, 0, 0, 0⟩
  , ⟨"TL_CNT_LATE", 0xC4, 1, 0x4, 1, 0x4, .por, false, 0x0, 0, 0, 0, 0, 0, 0, 0⟩
  , ⟨"TL_CNT_DUP", 0xC8, 1, 0x4, 1, 0x4, .por, false, 0x0, 0, 0, 0, 0, 0, 0, 0⟩
  , ⟨"TL_CNT_BAD", 0xCC, 1, 0x4, 1, 0x4, .por, false, 0x0, 0, 0, 0, 0, 0, 0, 0⟩
  , ⟨"TL_CNT_DEFAULT", 0xD0, 1, 0x4, 1, 0x4, .por, false, 0x0, 0, 0, 0, 0, 0, 0, 0⟩
  , ⟨"TL_EVT", 0xE0, 1, 0x4, 1, 0x4, .por, false, 0x0, 0, 0x1F, 0, 0, 0, 0, 0⟩
  , ⟨"TL_EVT_EN", 0xE4, 1, 0x4, 1, 0x4, .por, false, 0x0, 0x1F, 0, 0, 0, 0, 0, 0⟩
  , ⟨"TL_TR_CTL", 0x1000, 64, 0x40, 1, 0x4, .func, false, 0x1001, 0xC0001F0F, 0, 0, 0, 0, 0, 0⟩
  , ⟨"TL_TR_DESC_LO", 0x1004, 64, 0x40, 1, 0x4, .func, false, 0x0, 0xFFFFFFC0, 0, 0, 0, 0, 0, 0⟩
  , ⟨"TL_TR_DESC_HI", 0x1008, 64, 0x40, 1, 0x4, .func, false, 0x0, 0xFFFFFFFF, 0, 0, 0, 0, 0, 0⟩
  , ⟨"TL_TR_ARENA_LO", 0x100C, 64, 0x40, 1, 0x4, .func, false, 0x0, 0xFFFFF000, 0, 0, 0, 0, 0, 0⟩
  , ⟨"TL_TR_ARENA_HI", 0x1010, 64, 0x40, 1, 0x4, .func, false, 0x0, 0xFFFFFFFF, 0, 0, 0, 0, 0, 0⟩ ]

def rowsTL_1 : List RegRow :=
  [ ⟨"TL_TR_SEQ", 0x1014, 64, 0x40, 1, 0x4, .func, false, 0x0, 0, 0, 0, 0, 0, 0, 0⟩
  , ⟨"TL_TR_CONS", 0x1018, 64, 0x40, 1, 0x4, .func, false, 0x0, 0xFFFFFFFF, 0, 0, 0, 0, 0, 0⟩
  , ⟨"TL_TR_ARENA_PROD", 0x101C, 64, 0x40, 1, 0x4, .func, false, 0x0, 0, 0, 0, 0, 0, 0, 0⟩
  , ⟨"TL_TR_ARENA_CONS", 0x1020, 64, 0x40, 1, 0x4, .func, false, 0x0, 0xFFFFFFFF, 0, 0, 0, 0, 0, 0⟩
  , ⟨"TL_TR_CNT_DONE", 0x1024, 64, 0x40, 1, 0x4, .func, false, 0x0, 0, 0, 0, 0, 0, 0, 0⟩
  , ⟨"TL_TR_CNT_DROP", 0x1028, 64, 0x40, 1, 0x4, .func, false, 0x0, 0, 0, 0, 0, 0, 0, 0⟩
  , ⟨"TL_TR_CNT_NOSPACE", 0x102C, 64, 0x40, 1, 0x4, .func, false, 0x0, 0, 0, 0, 0, 0, 0, 0⟩
  , ⟨"TL_TR_EVT", 0x1030, 64, 0x40, 1, 0x4, .func, false, 0x0, 0, 0xF, 0, 0, 0, 0, 0⟩
  , ⟨"TL_TR_EVT_EN", 0x1034, 64, 0x40, 1, 0x4, .func, false, 0x0, 0xF, 0, 0, 0, 0, 0, 0⟩
  , ⟨"TL_VR_CTL", 0x2000, 16, 0x20, 1, 0x4, .func, false, 0x1, 0x8000000F, 0, 0, 0, 0, 0, 0⟩
  , ⟨"TL_VR_BASE_LO", 0x2004, 16, 0x20, 1, 0x4, .func, false, 0x0, 0xFFFFFFC0, 0, 0, 0, 0, 0, 0⟩
  , ⟨"TL_VR_BASE_HI", 0x2008, 16, 0x20, 1, 0x4, .func, false, 0x0, 0xFFFFFFFF, 0, 0, 0, 0, 0, 0⟩
  , ⟨"TL_VR_TAIL", 0x200C, 16, 0x20, 1, 0x4, .func, false, 0x0, 0xFFF, 0, 0, 0, 0, 0, 0⟩
  , ⟨"TL_VR_HEAD", 0x2010, 16, 0x20, 1, 0x4, .func, false, 0x0, 0, 0, 0, 0, 0, 0, 0⟩
  , ⟨"TL_VR_HWB_LO", 0x2014, 16, 0x20, 1, 0x4, .func, false, 0x0, 0xFFFFFFC1, 0, 0, 0, 0, 0, 0⟩
  , ⟨"TL_VR_HWB_HI", 0x2018, 16, 0x20, 1, 0x4, .func, false, 0x0, 0xFFFFFFFF, 0, 0, 0, 0, 0, 0⟩
  , ⟨"TL_VR_CNT_TAKEN", 0x201C, 16, 0x20, 1, 0x4, .func, false, 0x0, 0, 0, 0, 0, 0, 0, 0⟩ ]

/-- All rows of block TL. -/
def rowsTL : List RegRow := rowsTL_0 ++ rowsTL_1

/-- The register rows of block VW (spec chapter 08), offsets from the block base. -/
def rowsVW : List RegRow :=
  [ ⟨"VW_CTL", 0x0, 1, 0x4, 1, 0x4, .por, true, 0x3E8, 0xC000FFFF, 0, 0, 0, 0, 0, 0⟩
  , ⟨"VW_STAT", 0x4, 1, 0x4, 1, 0x4, .por, false, 0x0, 0, 0, 0, 0, 0, 0, 0⟩
  , ⟨"VW_CNT_SET", 0x10, 1, 0x4, 1, 0x4, .por, false, 0x0, 0, 0, 0, 0, 0, 0, 0⟩
  , ⟨"VW_CNT_SINGLE", 0x14, 1, 0x4, 1, 0x4, .por, false, 0x0, 0, 0, 0, 0, 0, 0, 0⟩
  , ⟨"VW_CNT_FULL", 0x18, 1, 0x4, 1, 0x4, .por, false, 0x0, 0, 0, 0, 0, 0, 0, 0⟩
  , ⟨"VW_CNT_UNMAPPED", 0x1C, 1, 0x4, 1, 0x4, .por, false, 0x0, 0, 0, 0, 0, 0, 0, 0⟩
  , ⟨"VW_CNT_UNSYNC", 0x20, 1, 0x4, 1, 0x4, .por, false, 0x0, 0, 0, 0, 0, 0, 0, 0⟩
  , ⟨"VW_CNT_WITHDRAW", 0x24, 1, 0x4, 1, 0x4, .por, false, 0x0, 0, 0, 0, 0, 0, 0, 0⟩
  , ⟨"VW_CNT_WITHDRAW_LATE", 0x28, 1, 0x4, 1, 0x4, .por, false, 0x0, 0, 0, 0, 0, 0, 0, 0⟩
  , ⟨"VW_EVT", 0x40, 1, 0x4, 1, 0x4, .por, false, 0x0, 0, 0xF, 0, 0, 0, 0, 0⟩
  , ⟨"VW_EVT_EN", 0x44, 1, 0x4, 1, 0x4, .por, false, 0x0, 0xF, 0, 0, 0, 0, 0, 0⟩
  , ⟨"VW_GRP_CTL", 0x100, 8, 0x20, 1, 0x4, .por, true, 0x80104, 0xC0FFFFFF, 0, 0, 0, 0, 0, 0⟩
  , ⟨"VW_GRP_HOLD", 0x104, 8, 0x20, 1, 0x4, .por, true, 0x0, 0xFFFF, 0, 0, 0, 0, 0, 0⟩
  , ⟨"VW_GRP_DEADLINE", 0x108, 8, 0x20, 1, 0x4, .por, true, 0x3A98, 0xFFFFFF, 0, 0, 0, 0, 0, 0⟩
  , ⟨"VW_GRP_STAT", 0x10C, 8, 0x20, 1, 0x4, .por, false, 0x0, 0, 0, 0, 0, 0, 0, 0⟩
  , ⟨"VW_VIEW", 0x200, 8, 0x20, 4, 0x8, .por, true, 0x0, 0xE00F3FFF, 0, 0, 0, 0, 0, 0⟩
  , ⟨"VW_VIEW_X1", 0x204, 8, 0x20, 4, 0x8, .por, true, 0x0, 0x3FFF, 0, 0, 0, 0, 0, 0⟩
  , ⟨"VW_PMAP", 0x400, 16, 0x20, 4, 0x8, .por, true, 0x0, 0xE7C03FFF, 0, 0, 0, 0, 0, 0⟩
  , ⟨"VW_PMAP_X1", 0x404, 16, 0x20, 4, 0x8, .por, true, 0x0, 0x3FFF, 0, 0, 0, 0, 0, 0⟩
  , ⟨"VW_MDL_CTL", 0x1000, 128, 0x20, 1, 0x4, .por, true, 0x0, 0x8000FFFF, 0, 0, 0, 0, 0, 0⟩
  , ⟨"VW_MDL_A", 0x1004, 128, 0x20, 1, 0x4, .por, true, 0x100000, 0xFFFFFFFF, 0, 0, 0, 0, 0, 0⟩
  , ⟨"VW_MDL_B", 0x1008, 128, 0x20, 1, 0x4, .por, true, 0x0, 0xFFFFFFFF, 0, 0, 0, 0, 0, 0⟩
  , ⟨"VW_MDL_TOLT", 0x100C, 128, 0x20, 1, 0x4, .por, true, 0x0, 0xFFFFFFFF, 0, 0, 0, 0, 0, 0⟩
  , ⟨"VW_MDL_AREA", 0x1010, 128, 0x20, 1, 0x4, .por, true, 0x0, 0xFFFF, 0, 0, 0, 0, 0, 0⟩ ]

/-- The register rows of block LG (spec chapter 07), offsets from the block base. -/
def rowsLG : List RegRow :=
  [ ⟨"LG_CTL", 0x0, 1, 0x4, 1, 0x4, .por, false, 0x64, 0x8000FFFF, 0, 0, 0, 0, 0, 0⟩
  , ⟨"LG_FEAT_BASE_LO", 0x4, 1, 0x4, 1, 0x4, .por, false, 0x0, 0, 0, 0, 0, 0, 0xFF000000, 0⟩
  , ⟨"LG_FEAT_BASE_HI", 0x8, 1, 0x4, 1, 0x4, .por, false, 0x0, 0, 0, 0, 0, 0, 0x7, 0⟩
  , ⟨"LG_STAT", 0xC, 1, 0x4, 1, 0x4, .por, false, 0x0, 0, 0, 0, 0, 0, 0, 0⟩
  , ⟨"LG_CNT_FULL", 0x10, 1, 0x4, 1, 0x4, .por, false, 0x0, 0, 0, 0, 0, 0, 0, 0⟩
  , ⟨"LG_CNT_MERGE", 0x14, 1, 0x4, 1, 0x4, .por, false, 0x0, 0, 0, 0, 0, 0, 0, 0⟩
  , ⟨"LG_CNT_ORPHAN", 0x18, 1, 0x4, 1, 0x4, .por, false, 0x0, 0, 0, 0, 0, 0, 0, 0⟩
  , ⟨"LG_CNT_STALE", 0x1C, 1, 0x4, 1, 0x4, .por, false, 0x0, 0, 0, 0, 0, 0, 0, 0⟩
  , ⟨"LG_CNT_SPECK_PASS", 0x20, 1, 0x4, 1, 0x4, .por, false, 0x0, 0, 0, 0, 0, 0, 0, 0⟩
  , ⟨"LG_EVT", 0x30, 1, 0x4, 1, 0x4, .por, false, 0x0, 0, 0x7, 0, 0, 0, 0, 0⟩
  , ⟨"LG_EVT_EN", 0x34, 1, 0x4, 1, 0x4, .por, false, 0x0, 0x7, 0, 0, 0, 0, 0, 0⟩ ]

/-- The register rows of block QU (spec chapter 21), offsets from the block base. -/
def rowsQU : List RegRow :=
  [ ⟨"QU_EVT_SUM", 0x0, 3, 0x4, 1, 0x4, .por, false, 0x0, 0, 0, 0, 0, 0, 0, 0⟩
  , ⟨"QU_CFG", 0x100, 66, 0x80, 1, 0x4, .por, true, 0x0, 0x4000000, 0, 0, 0, 0, 0, 0⟩
  , ⟨"QU_STALE", 0x104, 66, 0x80, 1, 0x4, .por, true, 0x80000064, 0x800FFFFF, 0, 0, 0, 0, 0, 0⟩
  , ⟨"QU_THR", 0x108, 66, 0x80, 1, 0x4, .por, true, 0x10000, 0xFFFFFFFF, 0, 0, 0, 0, 0, 0⟩
  , ⟨"QU_LEVEL", 0x10C, 66, 0x80, 1, 0x4, .por, false, 0x0, 0, 0, 0, 0, 0, 0, 0⟩
  , ⟨"QU_PEAK", 0x110, 66, 0x80, 1, 0x4, .por, false, 0x0, 0, 0, 0, 0, 0xFFFF, 0, 0⟩
  , ⟨"QU_RTAG", 0x114, 66, 0x80, 1, 0x4, .por, false, 0x0, 0, 0, 0, 0, 0xFF, 0, 0⟩
  , ⟨"QU_RDATA", 0x118, 66, 0x80, 4, 0x4, .por, false, 0x0, 0, 0, 0, 0, 0, 0, 0⟩
  , ⟨"QU_CNT_WR", 0x128, 66, 0x80, 1, 0x4, .por, false, 0x0, 0, 0, 0, 0, 0, 0, 0⟩
  , ⟨"QU_CNT_RD", 0x12C, 66, 0x80, 1, 0x4, .por, false, 0x0, 0, 0, 0, 0, 0, 0, 0⟩
  , ⟨"QU_CNT_DROP", 0x130, 66, 0x80, 1, 0x4, .por, false, 0x0, 0, 0, 0, 0, 0, 0, 0⟩
  , ⟨"QU_CNT_WOFF", 0x134, 66, 0x80, 1, 0x4, .por, false, 0x0, 0, 0, 0, 0, 0, 0, 0⟩
  , ⟨"QU_CNT_POISON", 0x138, 66, 0x80, 1, 0x4, .por, false, 0x0, 0, 0, 0, 0, 0, 0, 0⟩
  , ⟨"QU_EVT", 0x140, 66, 0x80, 1, 0x4, .por, false, 0x0, 0, 0xF, 0, 0, 0, 0, 0⟩
  , ⟨"QU_EVT_EN", 0x144, 66, 0x80, 1, 0x4, .por, false, 0x0, 0xF, 0, 0, 0, 0, 0, 0⟩ ]

/-- The register rows of block PP (spec chapter 02), offsets from the block base. -/
def rowsPP_0 : List RegRow :=
  [ ⟨"PP_CTL", 0x0, 1, 0x4, 1, 0x4, .por, true, 0x9002C00, 0xFFF83F0F, 0, 0, 0, 0, 0, 0⟩
  , ⟨"PP_GEOM", 0x4, 1, 0x4, 1, 0x4, .por, true, 0x8000040, 0x7FFFFFFF, 0, 0, 0, 0, 0, 0⟩
  , ⟨"PP_PHY_CTL", 0x8, 1, 0x4, 1, 0x4, .por, true, 0x64E400, 0xFFFF5F, 0, 0, 0, 0, 0, 0⟩
  , ⟨"PP_TS_ADJ", 0xC, 1, 0x4, 1, 0x4, .por, true, 0x0, 0xFFFFFFFF, 0, 0, 0, 0, 0, 0⟩
  , ⟨"PP_FRM_TMO", 0x10, 1, 0x4, 1, 0x4, .por, true, 0x0, 0xFFFFFF, 0, 0, 0, 0, 0, 0⟩
  , ⟨"PP_STRIP_GAP", 0x14, 1, 0x4, 1, 0x4, .por, true, 0x0, 0xFFFFFF, 0, 0, 0, 0, 0, 0⟩
  , ⟨"PP_STAT", 0x18, 1, 0x4, 1, 0x4, .por, false, 0x0, 0, 0, 0, 0, 0, 0, 0⟩
  , ⟨"PP_FRAME_CNT", 0x1C, 1, 0x4, 1, 0x4, .por, false, 0xFFFFFFFF, 0, 0, 0, 0, 0, 0, 0⟩
  , ⟨"PP_FSTAT", 0x20, 1, 0x4, 1, 0x4, .por, false, 0x0, 0, 0, 0, 0, 0, 0, 0⟩
  , ⟨"PP_FSTAT_NUM", 0x24, 1, 0x4, 1, 0x4, .por, false, 0x0, 0, 0, 0, 0, 0, 0, 0⟩
  , ⟨"PP_EVT", 0x28, 1, 0x4, 1, 0x4, .por, false, 0x0, 0, 0x7FFF, 0, 0, 0, 0, 0⟩
  , ⟨"PP_EVT_EN", 0x2C, 1, 0x4, 1, 0x4, .por, false, 0x0, 0x7FFF, 0, 0, 0, 0, 0, 0⟩
  , ⟨"PP_SLOT_CAP", 0x50, 1, 0x4, 1, 0x4, .por, false, 0x0, 0x80000000, 0, 0, 0, 0, 0x1F, 0⟩
  , ⟨"PP_SLOT_CTL", 0x54, 1, 0x4, 1, 0x4, .por, true, 0x0, 0x3CF, 0, 0, 0, 0, 0, 0⟩
  , ⟨"PP_SLOT_STAT", 0x58, 1, 0x4, 1, 0x4, .por, false, 0x0, 0, 0xF, 0, 0, 0, 0, 0⟩
  , ⟨"PP_HP_TIMING", 0x5C, 1, 0x4, 1, 0x4, .por, true, 0x32321414, 0xFFFFFFFF, 0, 0, 0, 0, 0, 0⟩
  , ⟨"PP_SCLK", 0x60, 1, 0x4, 1, 0x4, .por, true, 0x480000, 0xE1FFFFFF, 0, 0, 0, 0, 0, 0⟩
  , ⟨"PP_LINE_PERIOD", 0x64, 1, 0x4, 1, 0x4, .por, false, 0x0, 0, 0, 0, 0, 0, 0, 0⟩
  , ⟨"PP_SENSOR_FN", 0x68, 1, 0x4, 1, 0x4, .por, false, 0x0, 0, 0, 0, 0, 0, 0, 0⟩
  , ⟨"PP_FN_MAX", 0x6C, 1, 0x4, 1, 0x4, .por, true, 0x0, 0xFFFF, 0, 0, 0, 0, 0, 0⟩
  , ⟨"PP_CNT_ECC_CORR", 0x70, 1, 0x4, 1, 0x4, .por, false, 0x0, 0, 0, 0, 0, 0, 0, 0⟩
  , ⟨"PP_CNT_HDR_ERR", 0x74, 1, 0x4, 1, 0x4, .por, false, 0x0, 0, 0, 0, 0, 0, 0, 0⟩
  , ⟨"PP_CNT_CRC", 0x78, 1, 0x4, 1, 0x4, .por, false, 0x0, 0, 0, 0, 0, 0, 0, 0⟩
  , ⟨"PP_CNT_UNSUP", 0x7C, 1, 0x4, 1, 0x4, .por, false, 0x0, 0, 0, 0, 0, 0, 0, 0⟩ ]

def rowsPP_1 : List RegRow :=
  [ ⟨"PP_CNT_ORPHAN", 0x80, 1, 0x4, 1, 0x4, .por, false, 0x0, 0, 0, 0, 0, 0, 0, 0⟩
  , ⟨"PP_CNT_LINE_ERR", 0x84, 1, 0x4, 1, 0x4, .por, false, 0x0, 0, 0, 0, 0, 0, 0, 0⟩
  , ⟨"PP_CNT_FRAME_ERR", 0x88, 1, 0x4, 1, 0x4, .por, false, 0x0, 0, 0, 0, 0, 0, 0, 0⟩
  , ⟨"PP_CNT_BREAK", 0x8C, 1, 0x4, 1, 0x4, .por, false, 0x0, 0, 0, 0, 0, 0, 0, 0⟩ ]

/-- All rows of block PP. -/
def rowsPP : List RegRow := rowsPP_0 ++ rowsPP_1

/-- The register rows of block SC (spec chapter 03), offsets from the block base. -/
def rowsSC : List RegRow :=
  [ ⟨"SC_CTL", 0x0, 1, 0x4, 1, 0x4, .por, true, 0x10000000, 0xF8000000, 0, 0, 0, 0, 0, 0⟩
  , ⟨"SC_PROFILE", 0x4, 1, 0x4, 1, 0x4, .por, true, 0x80000000, 0xF7F0FFFF, 0, 0, 0, 0, 0, 0⟩
  , ⟨"SC_WINDOW", 0x8, 1, 0x4, 1, 0x4, .por, true, 0x5780064, 0xFFFFFFFF, 0, 0, 0, 0, 0, 0⟩
  , ⟨"SC_GEN", 0xC, 1, 0x4, 1, 0x4, .por, false, 0x10000, 0xFFFFFFFF, 0, 0, 0, 0, 0, 0⟩
  , ⟨"SC_CMP_BLK01", 0x10, 1, 0x4, 1, 0x4, .por, false, 0x0, 0, 0, 0, 0, 0, 0, 0⟩
  , ⟨"SC_CMP_BLK23", 0x14, 1, 0x4, 1, 0x4, .por, false, 0x0, 0, 0, 0, 0, 0, 0, 0⟩
  , ⟨"SC_CMP_SCALE", 0x18, 1, 0x4, 1, 0x4, .por, false, 0x10001000, 0, 0, 0, 0, 0, 0, 0⟩
  , ⟨"SC_STAT", 0x1C, 1, 0x4, 1, 0x4, .por, false, 0x0, 0, 0, 0, 0, 0, 0, 0⟩
  , ⟨"SC_CNT_LATE", 0x20, 1, 0x4, 1, 0x4, .por, false, 0x0, 0, 0, 0, 0, 0, 0, 0⟩
  , ⟨"SC_CNT_FAIL", 0x24, 1, 0x4, 1, 0x4, .por, false, 0x0, 0, 0, 0, 0, 0, 0, 0⟩
  , ⟨"SC_CNT_SUPER", 0x28, 1, 0x4, 1, 0x4, .por, false, 0x0, 0, 0, 0, 0, 0, 0, 0⟩
  , ⟨"SC_CNT_CANCEL", 0x2C, 1, 0x4, 1, 0x4, .por, false, 0x0, 0, 0, 0, 0, 0, 0, 0⟩
  , ⟨"SC_CNT_UNSURE", 0x30, 1, 0x4, 1, 0x4, .por, false, 0x0, 0, 0, 0, 0, 0, 0, 0⟩
  , ⟨"SC_CNT_MISMATCH", 0x34, 1, 0x4, 1, 0x4, .por, false, 0x0, 0, 0, 0, 0, 0, 0, 0⟩
  , ⟨"SC_EVT", 0x38, 1, 0x4, 1, 0x4, .por, false, 0x0, 0, 0x3F, 0, 0, 0, 0, 0⟩
  , ⟨"SC_EVT_EN", 0x3C, 1, 0x4, 1, 0x4, .por, false, 0x0, 0x3F, 0, 0, 0, 0, 0, 0⟩
  , ⟨"SC_SLOT_TGT", 0x100, 8, 0x20, 1, 0x4, .por, true, 0x0, 0xFFFFFFFF, 0, 0, 0, 0, 0, 0⟩
  , ⟨"SC_SLOT_CTL", 0x104, 8, 0x20, 1, 0x4, .por, true, 0x0, 0xE07F0000, 0, 0, 0, 0, 0, 0⟩
  , ⟨"SC_SLOT_BLK01", 0x108, 8, 0x20, 1, 0x4, .por, true, 0x0, 0xFFFFFFFF, 0, 0, 0, 0, 0, 0⟩
  , ⟨"SC_SLOT_BLK23", 0x10C, 8, 0x20, 1, 0x4, .por, true, 0x0, 0xFFFFFFFF, 0, 0, 0, 0, 0, 0⟩
  , ⟨"SC_SLOT_SCALE", 0x110, 8, 0x20, 1, 0x4, .por, true, 0x10001000, 0xFFFFFFFF, 0, 0, 0, 0, 0, 0⟩
  , ⟨"SC_SLOT_REQ", 0x114, 8, 0x20, 1, 0x4, .por, true, 0x0, 0xFFFFFFFF, 0, 0, 0, 0, 0, 0⟩
  , ⟨"SC_SLOT_DONE", 0x118, 8, 0x20, 1, 0x4, .por, false, 0x0, 0, 0, 0, 0, 0, 0, 0⟩
  , ⟨"SC_WBUF", 0x800, 8, 0x40, 16, 0x4, .por, true, 0x0, 0xFFFFFFFF, 0, 0, 0, 0, 0, 0⟩ ]

/-- The register rows of block CX (spec chapter 04), offsets from the block base. -/
def rowsCX : List RegRow :=
  [ ⟨"CX_CTL", 0x0, 1, 0x4, 1, 0x4, .por, true, 0x0, 0xF0000000, 0, 0, 0, 0, 0, 0⟩
  , ⟨"CX_CFA", 0x4, 1, 0x4, 1, 0x4, .por, true, 0x0, 0x3F, 0, 0, 0, 0, 0, 0⟩
  , ⟨"CX_FF_MODE", 0x8, 1, 0x4, 1, 0x4, .por, true, 0x0, 0x80000000, 0, 0, 0, 0, 0, 0⟩
  , ⟨"CX_DPC_THR", 0xC, 1, 0x4, 1, 0x4, .por, true, 0x8002000, 0xFFFFFF00, 0, 0, 0, 0, 0, 0⟩
  , ⟨"CX_DPC_CNT", 0x10, 1, 0x4, 1, 0x4, .por, true, 0x0, 0xFFFFFFFF, 0, 0, 0, 0, 0, 0⟩
  , ⟨"CX_BANK", 0x14, 1, 0x4, 1, 0x4, .por, true, 0x0, 0x200F000F, 0, 0xC0000000, 0, 0, 0, 0⟩
  , ⟨"CX_SWAP_AT", 0x18, 1, 0x4, 1, 0x4, .por, false, 0x0, 0xFFFFFFFF, 0, 0, 0, 0, 0, 0⟩
  , ⟨"CX_SWAP_DONE", 0x1C, 1, 0x4, 1, 0x4, .por, false, 0xFFFFFFFF, 0, 0, 0, 0, 0, 0, 0⟩
  , ⟨"CX_EVT", 0x20, 1, 0x4, 1, 0x4, .por, false, 0x0, 0, 0xF, 0, 0, 0, 0, 0⟩
  , ⟨"CX_EVT_EN", 0x24, 1, 0x4, 1, 0x4, .por, false, 0x0, 0xF, 0, 0, 0, 0, 0, 0⟩
  , ⟨"CX_CNT_STATIC", 0x30, 1, 0x4, 1, 0x4, .por, false, 0x0, 0, 0, 0, 0, 0, 0, 0⟩
  , ⟨"CX_CNT_HOT", 0x34, 1, 0x4, 1, 0x4, .por, false, 0x0, 0, 0, 0, 0, 0, 0, 0⟩
  , ⟨"CX_CNT_COLD", 0x38, 1, 0x4, 1, 0x4, .por, false, 0x0, 0, 0, 0, 0, 0, 0, 0⟩
  , ⟨"CX_CNT_NOREP", 0x3C, 1, 0x4, 1, 0x4, .por, false, 0x0, 0, 0, 0, 0, 0, 0, 0⟩
  , ⟨"CX_CNT_SAT", 0x40, 1, 0x4, 1, 0x4, .por, false, 0x0, 0, 0, 0, 0, 0, 0, 0⟩
  , ⟨"CX_CNT_DPC_OVF", 0x44, 1, 0x4, 1, 0x4, .por, false, 0x0, 0, 0, 0, 0, 0, 0, 0⟩ ]

/-- The register rows of block DM (spec chapter 05), offsets from the block base. -/
def rowsDM_0 : List RegRow :=
  [ ⟨"DM_CTL", 0x0, 1, 0x4, 1, 0x4, .por, true, 0x400, 0xC000FFFF, 0, 0x20000000, 0, 0, 0, 0⟩
  , ⟨"DM_NIR_K01", 0x4, 1, 0x4, 1, 0x4, .por, true, 0x0, 0xFFFFFFFF, 0, 0, 0, 0, 0, 0⟩
  , ⟨"DM_NIR_K2", 0x8, 1, 0x4, 1, 0x4, .por, true, 0x0, 0xFFFF, 0, 0, 0, 0, 0, 0⟩
  , ⟨"DM_CM", 0x10, 8, 0x4, 1, 0x4, .por, true, 0x0, 0xFFFFFFFF, 0, 0, 0, 0, 0, 0⟩
  , ⟨"DM_CNT_SAT", 0x40, 1, 0x4, 1, 0x4, .por, false, 0x0, 0, 0, 0, 0, 0, 0, 0⟩
  , ⟨"DM_CNT_EDGE", 0x44, 1, 0x4, 1, 0x4, .por, false, 0x0, 0, 0, 0, 0, 0, 0, 0⟩
  , ⟨"DM_CNT_TRUNC", 0x48, 1, 0x4, 1, 0x4, .por, false, 0x0, 0, 0, 0, 0, 0, 0, 0⟩
  , ⟨"DM_CNT_DIR_H", 0x4C, 1, 0x4, 1, 0x4, .por, false, 0x0, 0, 0, 0, 0, 0, 0, 0⟩
  , ⟨"DM_CNT_DIR_V", 0x50, 1, 0x4, 1, 0x4, .por, false, 0x0, 0, 0, 0, 0, 0, 0, 0⟩
  , ⟨"DM_CNT_DIR_B", 0x54, 1, 0x4, 1, 0x4, .por, false, 0x0, 0, 0, 0, 0, 0, 0, 0⟩
  , ⟨"DM_EVT", 0x60, 1, 0x4, 1, 0x4, .por, false, 0x0, 0, 0x3, 0, 0, 0, 0, 0⟩
  , ⟨"DM_EVT_EN", 0x64, 1, 0x4, 1, 0x4, .por, false, 0x0, 0x3, 0, 0, 0, 0, 0, 0⟩
  , ⟨"DM_TAP_CTL", 0x100, 2, 0x40, 1, 0x4, .func, true, 0x0, 0xFFFF0000, 0, 0, 0, 0, 0, 0⟩
  , ⟨"DM_TAP_ROI_X", 0x104, 2, 0x40, 1, 0x4, .func, true, 0x0, 0xFFFFFFFF, 0, 0, 0, 0, 0, 0⟩
  , ⟨"DM_TAP_ROI_Y", 0x108, 2, 0x40, 1, 0x4, .func, true, 0x0, 0xFFFFFFFF, 0, 0, 0, 0, 0, 0⟩
  , ⟨"DM_TAP_STRIDE", 0x10C, 2, 0x40, 1, 0x4, .func, true, 0x0, 0xFFFFFF, 0, 0, 0, 0, 0, 0⟩
  , ⟨"DM_TAP_RING_LO", 0x110, 2, 0x40, 1, 0x4, .func, false, 0x0, 0xFFFFFFC0, 0, 0, 0, 0, 0, 0⟩
  , ⟨"DM_TAP_RING_HI", 0x114, 2, 0x40, 1, 0x4, .func, false, 0x0, 0xFFFFFFFF, 0, 0, 0, 0, 0, 0⟩
  , ⟨"DM_TAP_RING_SIZE", 0x118, 2, 0x40, 1, 0x4, .func, false, 0x1, 0xF, 0, 0, 0, 0, 0, 0⟩
  , ⟨"DM_TAP_TAIL", 0x11C, 2, 0x40, 1, 0x4, .func, false, 0x0, 0xFFF, 0, 0, 0, 0, 0, 0⟩
  , ⟨"DM_TAP_HEAD", 0x120, 2, 0x40, 1, 0x4, .func, false, 0x0, 0, 0, 0, 0, 0, 0, 0⟩
  , ⟨"DM_TAP_STAT", 0x124, 2, 0x40, 1, 0x4, .func, false, 0x0, 0, 0, 0, 0, 0, 0, 0⟩
  , ⟨"DM_TAP_CNT_DONE", 0x128, 2, 0x40, 1, 0x4, .func, false, 0x0, 0, 0, 0, 0, 0, 0, 0⟩
  , ⟨"DM_TAP_CNT_NOBUF", 0x12C, 2, 0x40, 1, 0x4, .func, false, 0x0, 0, 0, 0, 0, 0, 0, 0⟩ ]

def rowsDM_1 : List RegRow :=
  [ ⟨"DM_TAP_CNT_DROP", 0x130, 2, 0x40, 1, 0x4, .func, false, 0x0, 0, 0, 0, 0, 0, 0, 0⟩
  , ⟨"DM_TAP_EVT", 0x134, 2, 0x40, 1, 0x4, .func, false, 0x0, 0, 0xF, 0, 0, 0, 0, 0⟩
  , ⟨"DM_TAP_EVT_EN", 0x138, 2, 0x40, 1, 0x4, .func, false, 0x0, 0xF, 0, 0, 0, 0, 0, 0⟩ ]

/-- All rows of block DM. -/
def rowsDM : List RegRow := rowsDM_0 ++ rowsDM_1

/-- The register rows of block ST (spec chapter 06), offsets from the block base. -/
def rowsST : List RegRow :=
  [ ⟨"ST_CTL", 0x0, 1, 0x4, 1, 0x4, .por, true, 0x4000000, 0x9CFFFFFF, 0, 0x40000000, 0, 0, 0, 0⟩
  , ⟨"ST_FOC_FLOOR", 0x4, 1, 0x4, 1, 0x4, .por, true, 0x0, 0xFFFFFFFF, 0, 0, 0, 0, 0, 0⟩
  , ⟨"ST_HIST_X", 0x8, 1, 0x4, 1, 0x4, .por, true, 0x0, 0xFFFFFFFF, 0, 0, 0, 0, 0, 0⟩
  , ⟨"ST_HIST_Y", 0xC, 1, 0x4, 1, 0x4, .por, true, 0x0, 0xFFFFFFFF, 0, 0, 0, 0, 0, 0⟩
  , ⟨"ST_PLATE_X", 0x10, 1, 0x4, 1, 0x4, .por, true, 0x0, 0xFFFFFFFF, 0, 0, 0, 0, 0, 0⟩
  , ⟨"ST_PLATE_CTL", 0x14, 1, 0x4, 1, 0x4, .por, true, 0xE6, 0xFF, 0, 0, 0, 0, 0, 0⟩
  , ⟨"ST_PLATE_REF01", 0x18, 1, 0x4, 1, 0x4, .por, true, 0x0, 0xFFFFFFFF, 0, 0, 0, 0, 0, 0⟩
  , ⟨"ST_PLATE_REF23", 0x1C, 1, 0x4, 1, 0x4, .por, true, 0x0, 0xFFFFFFFF, 0, 0, 0, 0, 0, 0⟩
  , ⟨"ST_STAT", 0x20, 1, 0x4, 1, 0x4, .por, false, 0x0, 0, 0, 0, 0, 0, 0, 0⟩
  , ⟨"ST_EVT", 0x24, 1, 0x4, 1, 0x4, .por, false, 0x0, 0, 0xF, 0, 0, 0, 0, 0⟩
  , ⟨"ST_EVT_EN", 0x28, 1, 0x4, 1, 0x4, .por, false, 0x0, 0xF, 0, 0, 0, 0, 0, 0⟩
  , ⟨"ST_CNT_REC", 0x30, 1, 0x4, 1, 0x4, .por, false, 0x0, 0, 0, 0, 0, 0, 0, 0⟩
  , ⟨"ST_CNT_LOST", 0x34, 1, 0x4, 1, 0x4, .por, false, 0x0, 0, 0, 0, 0, 0, 0, 0⟩
  , ⟨"ST_WIN_X", 0x40, 16, 0x8, 1, 0x4, .por, true, 0x0, 0xFFFFFFFF, 0, 0, 0, 0, 0, 0⟩
  , ⟨"ST_WIN_Y", 0x44, 16, 0x8, 1, 0x4, .por, true, 0x0, 0xFFFFFFFF, 0, 0, 0, 0, 0, 0⟩
  , ⟨"ST_RING_LO", 0x100, 1, 0x4, 1, 0x4, .func, false, 0x0, 0xFFFFF000, 0, 0, 0, 0, 0, 0⟩
  , ⟨"ST_RING_HI", 0x104, 1, 0x4, 1, 0x4, .func, false, 0x0, 0xFFFFFFFF, 0, 0, 0, 0, 0, 0⟩
  , ⟨"ST_RING_SIZE", 0x108, 1, 0x4, 1, 0x4, .func, false, 0x1, 0xF, 0, 0, 0, 0, 0, 0⟩
  , ⟨"ST_RING_PROD", 0x10C, 1, 0x4, 1, 0x4, .func, false, 0x0, 0, 0, 0, 0, 0, 0, 0⟩
  , ⟨"ST_RING_CONS", 0x110, 1, 0x4, 1, 0x4, .func, false, 0x0, 0xFFFF, 0, 0, 0, 0, 0, 0⟩
  , ⟨"ST_RING_CTL", 0x114, 1, 0x4, 1, 0x4, .func, false, 0x0, 0x80000001, 0, 0, 0, 0, 0, 0⟩
  , ⟨"ST_LAST", 0x200, 144, 0x4, 1, 0x4, .por, false, 0x0, 0, 0, 0, 0, 0, 0, 0⟩ ]

/-- The register rows of block SG (spec chapter 07), offsets from the block base. -/
def rowsSG_0 : List RegRow :=
  [ ⟨"SG_CTL", 0x0, 1, 0x4, 1, 0x4, .por, true, 0x1CF10000, 0x9EF30000, 0, 0x40000000, 0, 0, 0, 0⟩
  , ⟨"SG_ROI_X", 0x4, 1, 0x4, 1, 0x4, .por, true, 0x40000000, 0xFFFFFFFF, 0, 0, 0, 0, 0, 0⟩
  , ⟨"SG_BAND_LO01", 0x8, 1, 0x4, 1, 0x4, .por, true, 0x0, 0xFFFFFFFF, 0, 0, 0, 0, 0, 0⟩
  , ⟨"SG_BAND_LO23", 0xC, 1, 0x4, 1, 0x4, .por, true, 0x0, 0xFFFFFFFF, 0, 0, 0, 0, 0, 0⟩
  , ⟨"SG_BAND_HI01", 0x10, 1, 0x4, 1, 0x4, .por, true, 0x0, 0xFFFFFFFF, 0, 0, 0, 0, 0, 0⟩
  , ⟨"SG_BAND_HI23", 0x14, 1, 0x4, 1, 0x4, .por, true, 0x0, 0xFFFFFFFF, 0, 0, 0, 0, 0, 0⟩
  , ⟨"SG_DIST", 0x18, 1, 0x4, 1, 0x4, .por, true, 0x0, 0x3FFFF, 0, 0, 0, 0, 0, 0⟩
  , ⟨"SG_AREA_MIN", 0x1C, 1, 0x4, 1, 0x4, .por, true, 0x0, 0xFFFFFFFF, 0, 0, 0, 0, 0, 0⟩
  , ⟨"SG_AREA_MAX", 0x20, 1, 0x4, 1, 0x4, .por, true, 0x0, 0xFFFFFFFF, 0, 0, 0, 0, 0, 0⟩
  , ⟨"SG_MAX_LINES", 0x24, 1, 0x4, 1, 0x4, .por, true, 0x0, 0xFFFF, 0, 0, 0, 0, 0, 0⟩
  , ⟨"SG_BG_CONST01", 0x28, 1, 0x4, 1, 0x4, .por, true, 0x0, 0xFFFFFFFF, 0, 0, 0, 0, 0, 0⟩
  , ⟨"SG_BG_CONST23", 0x2C, 1, 0x4, 1, 0x4, .por, true, 0x0, 0xFFFFFFFF, 0, 0, 0, 0, 0, 0⟩
  , ⟨"SG_BANK", 0x30, 1, 0x4, 1, 0x4, .por, true, 0x0, 0x20010001, 0, 0xC0000000, 0, 0, 0, 0⟩
  , ⟨"SG_SWAP_AT", 0x34, 1, 0x4, 1, 0x4, .por, false, 0x0, 0xFFFFFFFF, 0, 0, 0, 0, 0, 0⟩
  , ⟨"SG_SWAP_DONE", 0x38, 1, 0x4, 1, 0x4, .por, false, 0xFFFFFFFF, 0, 0, 0, 0, 0, 0, 0⟩
  , ⟨"SG_ALARM_LO", 0x60, 8, 0xC, 1, 0x4, .por, true, 0x0, 0xFFFFFFFF, 0, 0, 0, 0, 0, 0⟩
  , ⟨"SG_ALARM_HI", 0x64, 8, 0xC, 1, 0x4, .por, true, 0x0, 0xFFFFFFFF, 0, 0, 0, 0, 0, 0⟩
  , ⟨"SG_ALARM_MASK", 0x68, 8, 0xC, 1, 0x4, .por, true, 0x0, 0x8000000F, 0, 0, 0, 0, 0, 0⟩
  , ⟨"SG_STAT", 0xC0, 1, 0x4, 1, 0x4, .por, false, 0x0, 0, 0, 0, 0, 0, 0, 0⟩
  , ⟨"SG_CNT_OBJ", 0xD0, 1, 0x4, 1, 0x4, .por, false, 0x0, 0, 0, 0, 0, 0, 0, 0⟩
  , ⟨"SG_CNT_OPEN_OVF", 0xD4, 1, 0x4, 1, 0x4, .por, false, 0x0, 0, 0, 0, 0, 0, 0, 0⟩
  , ⟨"SG_CNT_INCOMPLETE", 0xD8, 1, 0x4, 1, 0x4, .por, false, 0x0, 0, 0, 0, 0, 0, 0, 0⟩
  , ⟨"SG_CNT_SPECK", 0xDC, 1, 0x4, 1, 0x4, .por, false, 0x0, 0, 0, 0, 0, 0, 0, 0⟩
  , ⟨"SG_CNT_CLUMP", 0xE0, 1, 0x4, 1, 0x4, .por, false, 0x0, 0, 0, 0, 0, 0, 0, 0⟩ ]

def rowsSG_1 : List RegRow :=
  [ ⟨"SG_CNT_CUT", 0xE4, 1, 0x4, 1, 0x4, .por, false, 0x0, 0, 0, 0, 0, 0, 0, 0⟩
  , ⟨"SG_EVT", 0xF0, 1, 0x4, 1, 0x4, .por, false, 0x0, 0, 0x1F, 0, 0, 0, 0, 0⟩
  , ⟨"SG_EVT_EN", 0xF4, 1, 0x4, 1, 0x4, .por, false, 0x0, 0x1F, 0, 0, 0, 0, 0, 0⟩ ]

/-- All rows of block SG. -/
def rowsSG : List RegRow := rowsSG_0 ++ rowsSG_1

/-- The blocks of the W0 map (R10); a per-port or repeated block carries its instance number. -/
inductive Blk where
  | HE | MB | PA | RS | LI | TB | EM | TO | MM | TW | AB | EV | SL | SN | AC | TL | VW | LG | QU
  | PP | SC | CX | DM | ST | SG
  deriving DecidableEq, Repr

/-- The rows of a block. -/
def blkRows : Blk → List RegRow
  | .HE => rowsHE
  | .MB => rowsMB
  | .PA => rowsPA
  | .RS => rowsRS
  | .LI => rowsLI
  | .TB => rowsTB
  | .EM => rowsEM
  | .TO => rowsTO
  | .MM => rowsMM
  | .TW => rowsTW
  | .AB => rowsAB
  | .EV => rowsEV
  | .SL => rowsSL
  | .SN => rowsSN
  | .AC => rowsAC
  | .TL => rowsTL
  | .VW => rowsVW
  | .LG => rowsLG
  | .QU => rowsQU
  | .PP => rowsPP
  | .SC => rowsSC
  | .CX => rowsCX
  | .DM => rowsDM
  | .ST => rowsST
  | .SG => rowsSG

/-- The block, its instance and the offset within it of a W0 register address (R10); none for reserved
space, the ledger mirror and the table windows. -/
def locate (a : Nat) : Option (Blk × Nat × Nat) :=
  if a < 0x10000 then some (.HE, 0, a)
  else if a < 0x20000 then some (.MB, 0, a - 0x10000)
  else if a < 0x28000 then some (.PA, 0, a - 0x20000)
  else if a < 0x30000 then some (.RS, 0, a - 0x28000)
  else if a < 0x40000 then some (.LI, 0, a - 0x30000)
  else if a < 0x50000 then some (.TB, 0, a - 0x40000)
  else if a < 0x60000 then some (.EM, 0, a - 0x50000)
  else if a < 0x68000 then some (.TO, 0, a - 0x60000)
  else if a < 0x70000 then some (.MM, 0, a - 0x68000)
  else if a < 0x76000 then some (.TW, (a - 0x70000) / 0x1000, (a - 0x70000) % 0x1000)
  else if a < 0x80000 then none
  else if a < 0x90000 then some (.AB, 0, a - 0x80000)
  else if a < 0xA0000 then some (.EV, 0, a - 0x90000)
  else if a < 0xA2000 then some (.SL, (a - 0xA0000) / 0x1000, (a - 0xA0000) % 0x1000)
  else if a < 0xB0000 then none
  else if a < 0xC0000 then some (.SN, 0, a - 0xB0000)
  else if a < 0xD0000 then some (.AC, 0, a - 0xC0000)
  else if a < 0xE0000 then some (.TL, 0, a - 0xD0000)
  else if a < 0xE8000 then some (.VW, 0, a - 0xE0000)
  else if a < 0xF0000 then some (.LG, 0, a - 0xE8000)
  else if a < 0x100000 then some (.QU, 0, a - 0xF0000)
  else if a < 0x200000 then
    let n := (a - 0x100000) / 0x10000
    let o := (a - 0x100000) % 0x10000
    if o < 0x1000 then some (.PP, n, o)
    else if o < 0x2000 then some (.SC, n, o - 0x1000)
    else if o < 0x4000 then some (.CX, n, o - 0x2000)
    else if o < 0x6000 then some (.DM, n, o - 0x4000)
    else if o < 0x8000 then some (.ST, n, o - 0x6000)
    else if o < 0xA000 then some (.SG, n, o - 0x8000)
    else none
  else none

/-- Does row `r` describe the register at offset `o` of its block? -/
def RegRow.holds (r : RegRow) (o : Nat) : Bool :=
  decide (r.off ≤ o) &&
  (let d := o - r.off
   decide (d / r.s1 < r.n1) && decide (d % r.s1 / r.s2 < r.n2) && decide (d % r.s1 % r.s2 = 0))

/-- The row of the register at W0 address `a`, or none where R7 makes it reserved. PP_SCLK exists in
ports 0 to 7 only. -/
def findRow (a : Nat) : Option RegRow :=
  match locate a with
  | none => none
  | some (b, n, o) =>
    if b = .PP ∧ o = 0x60 ∧ 8 ≤ n then none
    else (blkRows b).find? (fun r => r.holds o)

/-! Names of block HE. -/
abbrev HE_ID : Nat := 0x0
abbrev fHE_ID_DEVICE : Fld := ⟨0x0, 31, 16⟩
abbrev fHE_ID_REV : Fld := ⟨0x0, 15, 8⟩
abbrev HE_STAT : Nat := 0x4
abbrev fHE_STAT_LINK_UP : Fld := ⟨0x4, 31, 31⟩
abbrev fHE_STAT_SPEED : Fld := ⟨0x4, 30, 28⟩
abbrev fHE_STAT_WIDTH : Fld := ⟨0x4, 27, 23⟩
abbrev fHE_STAT_BME : Fld := ⟨0x4, 22, 22⟩
abbrev fHE_STAT_QUIET : Fld := ⟨0x4, 21, 21⟩
abbrev fHE_STAT_FLR_BUSY : Fld := ⟨0x4, 20, 20⟩
abbrev fHE_STAT_ROM_READY : Fld := ⟨0x4, 19, 19⟩
abbrev fHE_STAT_D3 : Fld := ⟨0x4, 18, 18⟩
abbrev fHE_STAT_NP_OUT : Fld := ⟨0x4, 9, 0⟩
abbrev HE_CPL_TMO : Nat := 0x8
abbrev fHE_CPL_TMO_US : Fld := ⟨0x8, 31, 0⟩
abbrev HE_TAG_STAT : Nat := 0xC
abbrev fHE_TAG_STAT_QUAR : Fld := ⟨0xC, 25, 16⟩
abbrev fHE_TAG_STAT_POOL : Fld := ⟨0xC, 9, 0⟩
abbrev HE_VEC_EOI : Nat := 0x10
abbrev fHE_VEC_EOI_VECTOR : Fld := ⟨0x10, 10, 0⟩
abbrev HE_UNEXP_LAST : Nat := 0x14
abbrev fHE_UNEXP_LAST_VALID : Fld := ⟨0x14, 31, 31⟩
abbrev fHE_UNEXP_LAST_TAG : Fld := ⟨0x14, 9, 0⟩
abbrev HE_CNT_CPL_TMO : Nat := 0x20
abbrev fHE_CNT_CPL_TMO_V : Fld := ⟨0x20, 31, 0⟩
abbrev HE_CNT_UNEXP : Nat := 0x24
abbrev fHE_CNT_UNEXP_V : Fld := ⟨0x24, 31, 0⟩
abbrev HE_CNT_CPL_ERR : Nat := 0x28
abbrev fHE_CNT_CPL_ERR_V : Fld := ⟨0x28, 31, 0⟩
abbrev HE_CNT_CPL_DISCARD : Nat := 0x2C
abbrev fHE_CNT_CPL_DISCARD_V : Fld := ⟨0x2C, 31, 0⟩
abbrev HE_CNT_W1_HOLE : Nat := 0x30
abbrev fHE_CNT_W1_HOLE_V : Fld := ⟨0x30, 31, 0⟩
abbrev HE_CNT_W1_RO : Nat := 0x34
abbrev fHE_CNT_W1_RO_V : Fld := ⟨0x34, 31, 0⟩
abbrev HE_CNT_POISON_RX : Nat := 0x38
abbrev fHE_CNT_POISON_RX_V : Fld := ⟨0x38, 31, 0⟩
abbrev HE_CNT_UR_SENT : Nat := 0x3C
abbrev fHE_CNT_UR_SENT_V : Fld := ⟨0x3C, 31, 0⟩
abbrev HE_CNT_FLR : Nat := 0x40
abbrev fHE_CNT_FLR_V : Fld := ⟨0x40, 31, 0⟩
abbrev HE_CNT_LINK_DOWN : Nat := 0x44
abbrev fHE_CNT_LINK_DOWN_V : Fld := ⟨0x44, 31, 0⟩
abbrev HE_EVT : Nat := 0x60
abbrev fHE_EVT_FLR_DONE : Fld := ⟨0x60, 4, 4⟩
abbrev fHE_EVT_W1_HOLE : Fld := ⟨0x60, 3, 3⟩
abbrev fHE_EVT_UNEXP_CPL : Fld := ⟨0x60, 2, 2⟩
abbrev fHE_EVT_CPL_TMO : Fld := ⟨0x60, 1, 1⟩
abbrev fHE_EVT_CPL_ERR : Fld := ⟨0x60, 0, 0⟩
abbrev HE_EVT_EN : Nat := 0x64
abbrev fHE_EVT_EN_ALL : Fld := ⟨0x64, 4, 0⟩
abbrev HE_ISRC : Nat := 0x1000
abbrev fHE_ISRC_EN : Fld := ⟨0x1000, 31, 31⟩
abbrev fHE_ISRC_VECTOR : Fld := ⟨0x1000, 10, 0⟩
abbrev HE_IPEND : Nat := 0x1800
abbrev fHE_IPEND_V : Fld := ⟨0x1800, 31, 0⟩
abbrev HE_VEC_ARM : Nat := 0x1C00
abbrev fHE_VEC_ARM_V : Fld := ⟨0x1C00, 31, 0⟩
abbrev HE_PBA : Nat := 0x7000
abbrev fHE_PBA_V : Fld := ⟨0x7000, 31, 0⟩
abbrev MSIX_ADDR_LO : Nat := 0x8000
abbrev fMSIX_ADDR_LO_V : Fld := ⟨0x8000, 31, 2⟩
abbrev MSIX_ADDR_HI : Nat := 0x8004
abbrev fMSIX_ADDR_HI_V : Fld := ⟨0x8004, 31, 0⟩
abbrev MSIX_DATA : Nat := 0x8008
abbrev fMSIX_DATA_V : Fld := ⟨0x8008, 31, 0⟩
abbrev MSIX_CTRL : Nat := 0x800C
abbrev fMSIX_CTRL_MASK : Fld := ⟨0x800C, 0, 0⟩
/-! Names of block MB. -/
abbrev MB_CTL : Nat := 0x10000
abbrev fMB_CTL_OPEN : Fld := ⟨0x10000, 31, 31⟩
abbrev fMB_CTL_CLOSE : Fld := ⟨0x10000, 30, 30⟩
abbrev fMB_CTL_INT : Fld := ⟨0x10000, 29, 29⟩
abbrev fMB_CTL_CPL_SIZE : Fld := ⟨0x10000, 11, 8⟩
abbrev fMB_CTL_CMD_SIZE : Fld := ⟨0x10000, 3, 0⟩
abbrev MB_HIV_OFFER : Nat := 0x10004
abbrev fMB_HIV_OFFER_MAX : Fld := ⟨0x10004, 15, 8⟩
abbrev fMB_HIV_OFFER_MIN : Fld := ⟨0x10004, 7, 0⟩
abbrev MB_TOKEN : Nat := 0x10008
abbrev fMB_TOKEN_V : Fld := ⟨0x10008, 31, 0⟩
abbrev MB_CMD_LO : Nat := 0x10018
abbrev fMB_CMD_LO_BASE : Fld := ⟨0x10018, 31, 6⟩
abbrev MB_CMD_HI : Nat := 0x1001C
abbrev fMB_CMD_HI_V : Fld := ⟨0x1001C, 31, 0⟩
abbrev MB_CPL_LO : Nat := 0x10020
abbrev fMB_CPL_LO_BASE : Fld := ⟨0x10020, 31, 6⟩
abbrev MB_CPL_HI : Nat := 0x10024
abbrev fMB_CPL_HI_V : Fld := ⟨0x10024, 31, 0⟩
abbrev MB_CMD_TAIL : Nat := 0x10028
abbrev fMB_CMD_TAIL_V : Fld := ⟨0x10028, 11, 0⟩
abbrev MB_CMD_HEAD : Nat := 0x1002C
abbrev fMB_CMD_HEAD_V : Fld := ⟨0x1002C, 11, 0⟩
abbrev MB_CPL_PROD : Nat := 0x10030
abbrev fMB_CPL_PROD_V : Fld := ⟨0x10030, 11, 0⟩
abbrev MB_CPL_CONS : Nat := 0x10034
abbrev fMB_CPL_CONS_V : Fld := ⟨0x10034, 11, 0⟩
abbrev MB_STAT : Nat := 0x10038
abbrev fMB_STAT_STATE : Fld := ⟨0x10038, 31, 29⟩
abbrev fMB_STAT_EXPERT : Fld := ⟨0x10038, 28, 28⟩
abbrev fMB_STAT_REASON : Fld := ⟨0x10038, 27, 24⟩
abbrev fMB_STAT_HIV : Fld := ⟨0x10038, 15, 8⟩
abbrev fMB_STAT_DEFER : Fld := ⟨0x10038, 4, 0⟩
abbrev MB_EVT : Nat := 0x1003C
abbrev fMB_EVT_DB_ERR : Fld := ⟨0x1003C, 5, 5⟩
abbrev fMB_EVT_NOLEASE : Fld := ⟨0x1003C, 4, 4⟩
abbrev fMB_EVT_CLOSED : Fld := ⟨0x1003C, 3, 3⟩
abbrev fMB_EVT_REFUSED : Fld := ⟨0x1003C, 2, 2⟩
abbrev fMB_EVT_OPENED : Fld := ⟨0x1003C, 1, 1⟩
abbrev fMB_EVT_CPL : Fld := ⟨0x1003C, 0, 0⟩
abbrev MB_EVT_EN : Nat := 0x10040
abbrev fMB_EVT_EN_ALL : Fld := ⟨0x10040, 5, 0⟩
abbrev MB_CNT_CMD : Nat := 0x10050
abbrev fMB_CNT_CMD_V : Fld := ⟨0x10050, 31, 0⟩
abbrev MB_CNT_REFUSED : Nat := 0x10054
abbrev fMB_CNT_REFUSED_V : Fld := ⟨0x10054, 31, 0⟩
abbrev MB_DENNIL_STAT : Nat := 0x10800
abbrev fMB_DENNIL_STAT_STATE : Fld := ⟨0x10800, 31, 30⟩
abbrev fMB_DENNIL_STAT_RELEASE : Fld := ⟨0x10800, 23, 0⟩
abbrev MB_FW_SLOT : Nat := 0x10804
abbrev fMB_FW_SLOT_NEXT : Fld := ⟨0x10804, 9, 8⟩
abbrev fMB_FW_SLOT_RUN : Fld := ⟨0x10804, 1, 0⟩
abbrev MB_CNT_NOLEASE : Nat := 0x10808
abbrev fMB_CNT_NOLEASE_V : Fld := ⟨0x10808, 31, 0⟩
abbrev MB_CNT_TOKEN_BAD : Nat := 0x1080C
abbrev fMB_CNT_TOKEN_BAD_V : Fld := ⟨0x1080C, 31, 0⟩
abbrev MB_CNT_EVT_LOST : Nat := 0x10810
abbrev fMB_CNT_EVT_LOST_V : Fld := ⟨0x10810, 31, 0⟩
abbrev MB_LEASE : Nat := 0x10900
abbrev fMB_LEASE_HELD : Fld := ⟨0x10900, 31, 31⟩
abbrev fMB_LEASE_CHANNEL : Fld := ⟨0x10900, 30, 29⟩
abbrev fMB_LEASE_FUNCTION : Fld := ⟨0x10900, 23, 16⟩
abbrev fMB_LEASE_PORTS : Fld := ⟨0x10900, 15, 0⟩
abbrev MB_LEASE_LEFT : Nat := 0x10980
abbrev fMB_LEASE_LEFT_MS : Fld := ⟨0x10980, 31, 0⟩
abbrev MB_CW_CMD : Nat := 0x10C00
abbrev fMB_CW_CMD_GO : Fld := ⟨0x10C00, 31, 31⟩
abbrev fMB_CW_CMD_BUSY : Fld := ⟨0x10C00, 30, 30⟩
abbrev fMB_CW_CMD_OPCODE : Fld := ⟨0x10C00, 15, 0⟩
abbrev MB_CW_ARG : Nat := 0x10C04
abbrev fMB_CW_ARG_V : Fld := ⟨0x10C04, 31, 0⟩
abbrev MB_CW_RESP : Nat := 0x10C14
abbrev fMB_CW_RESP_STATUS : Fld := ⟨0x10C14, 31, 24⟩
abbrev MB_CW_DATA : Nat := 0x10C18
abbrev fMB_CW_DATA_V : Fld := ⟨0x10C18, 31, 0⟩
abbrev MB_CW_EVT : Nat := 0x10C28
abbrev fMB_CW_EVT_DONE : Fld := ⟨0x10C28, 0, 0⟩
abbrev MB_CW_EVT_EN : Nat := 0x10C2C
abbrev fMB_CW_EVT_EN_DONE : Fld := ⟨0x10C2C, 0, 0⟩
/-! Names of block PA. -/
abbrev PA_CTL : Nat := 0x20000
abbrev fPA_CTL_NBR_SAFE : Fld := ⟨0x20000, 31, 31⟩
abbrev fPA_CTL_NOTIFY : Fld := ⟨0x20000, 30, 30⟩
abbrev fPA_CTL_NOTIFY_MIN : Fld := ⟨0x20000, 29, 28⟩
abbrev fPA_CTL_FORCE : Fld := ⟨0x20000, 27, 27⟩
abbrev fPA_CTL_RELEASE : Fld := ⟨0x20000, 26, 26⟩
abbrev PA_STAT : Nat := 0x20004
abbrev fPA_STAT_SAFE : Fld := ⟨0x20004, 31, 31⟩
abbrev fPA_STAT_FATAL_SEEN : Fld := ⟨0x20004, 30, 30⟩
abbrev fPA_STAT_REPLACE : Fld := ⟨0x20004, 29, 29⟩
abbrev fPA_STAT_DIVERT : Fld := ⟨0x20004, 28, 28⟩
abbrev fPA_STAT_ALIVE_RUN : Fld := ⟨0x20004, 27, 27⟩
abbrev fPA_STAT_STICKY_CNT : Fld := ⟨0x20004, 9, 0⟩
abbrev PA_DIVERT : Nat := 0x20008
abbrev fPA_DIVERT_HOLD : Fld := ⟨0x20008, 31, 31⟩
abbrev PA_WDOG : Nat := 0x2000C
abbrev fPA_WDOG_EN : Fld := ⟨0x2000C, 31, 31⟩
abbrev fPA_WDOG_KICK : Fld := ⟨0x2000C, 30, 30⟩
abbrev fPA_WDOG_TMO : Fld := ⟨0x2000C, 15, 0⟩
abbrev PA_FIRST_SRC : Nat := 0x20010
abbrev fPA_FIRST_SRC_VALID : Fld := ⟨0x20010, 31, 31⟩
abbrev fPA_FIRST_SRC_CLASS : Fld := ⟨0x20010, 25, 24⟩
abbrev fPA_FIRST_SRC_SOURCE : Fld := ⟨0x20010, 8, 0⟩
abbrev PA_FIRST_STAMP : Nat := 0x20014
abbrev fPA_FIRST_STAMP_V : Fld := ⟨0x20014, 31, 0⟩
abbrev PA_THERM : Nat := 0x20018
abbrev fPA_THERM_TJ : Fld := ⟨0x20018, 31, 16⟩
abbrev fPA_THERM_WARN : Fld := ⟨0x20018, 7, 0⟩
abbrev PA_EXT_CFG : Nat := 0x2001C
abbrev fPA_EXT_CFG_CLS : Fld := ⟨0x2001C, 7, 0⟩
abbrev PA_EVT : Nat := 0x20020
abbrev fPA_EVT_NBR : Fld := ⟨0x20020, 7, 7⟩
abbrev fPA_EVT_LOG_OVF : Fld := ⟨0x20020, 6, 6⟩
abbrev fPA_EVT_REPLACE : Fld := ⟨0x20020, 5, 5⟩
abbrev fPA_EVT_SAFE : Fld := ⟨0x20020, 4, 4⟩
abbrev fPA_EVT_FATAL : Fld := ⟨0x20020, 3, 3⟩
abbrev fPA_EVT_SEVERE : Fld := ⟨0x20020, 2, 2⟩
abbrev fPA_EVT_DEGRADED : Fld := ⟨0x20020, 1, 1⟩
abbrev fPA_EVT_CORRECTABLE : Fld := ⟨0x20020, 0, 0⟩
abbrev PA_EVT_EN : Nat := 0x20024
abbrev fPA_EVT_EN_ALL : Fld := ⟨0x20024, 7, 0⟩
abbrev PA_REPLACE : Nat := 0x20030
abbrev fPA_REPLACE_SENSOR_PHY : Fld := ⟨0x20030, 4, 4⟩
abbrev fPA_REPLACE_NAND_WEAR : Fld := ⟨0x20030, 3, 3⟩
abbrev fPA_REPLACE_SRAM_REPAIR : Fld := ⟨0x20030, 2, 2⟩
abbrev fPA_REPLACE_LP5X_CH : Fld := ⟨0x20030, 1, 1⟩
abbrev fPA_REPLACE_SPAN_LANE : Fld := ⟨0x20030, 0, 0⟩
abbrev PA_REPLACE_INFO : Nat := 0x20034
abbrev fPA_REPLACE_INFO_PORTS : Fld := ⟨0x20034, 31, 16⟩
abbrev fPA_REPLACE_INFO_CHANNELS : Fld := ⟨0x20034, 15, 8⟩
abbrev fPA_REPLACE_INFO_SPAN : Fld := ⟨0x20034, 7, 6⟩
abbrev PA_CNT : Nat := 0x20040
abbrev fPA_CNT_V : Fld := ⟨0x20040, 31, 0⟩
abbrev PA_NBR : Nat := 0x20050
abbrev fPA_NBR_PIER : Fld := ⟨0x20050, 31, 22⟩
abbrev fPA_NBR_SAFE : Fld := ⟨0x20050, 21, 21⟩
abbrev fPA_NBR_REPLACE : Fld := ⟨0x20050, 20, 20⟩
abbrev fPA_NBR_CLASS : Fld := ⟨0x20050, 19, 18⟩
abbrev fPA_NBR_SOURCE : Fld := ⟨0x20050, 8, 0⟩
abbrev PA_NBR_STAMP : Nat := 0x20054
abbrev fPA_NBR_STAMP_V : Fld := ⟨0x20054, 31, 0⟩
abbrev PA_STICKY : Nat := 0x20100
abbrev fPA_STICKY_V : Fld := ⟨0x20100, 31, 0⟩
abbrev PA_MASK : Nat := 0x20140
abbrev fPA_MASK_V : Fld := ⟨0x20140, 31, 0⟩
abbrev PA_CLASS : Nat := 0x20200
abbrev fPA_CLASS_V : Fld := ⟨0x20200, 31, 0⟩
abbrev PA_LOG_INFO : Nat := 0x20300
abbrev fPA_LOG_INFO_VALID : Fld := ⟨0x20300, 31, 31⟩
abbrev fPA_LOG_INFO_CLASS : Fld := ⟨0x20300, 25, 24⟩
abbrev fPA_LOG_INFO_SOURCE : Fld := ⟨0x20300, 8, 0⟩
abbrev PA_LOG_STAMP : Nat := 0x20304
abbrev fPA_LOG_STAMP_V : Fld := ⟨0x20304, 31, 0⟩
abbrev PA_LOG_SEQ : Nat := 0x20308
abbrev fPA_LOG_SEQ_V : Fld := ⟨0x20308, 31, 0⟩
abbrev PA_LOG_OVF : Nat := 0x20400
abbrev fPA_LOG_OVF_V : Fld := ⟨0x20400, 31, 0⟩
/-! Names of block RS. -/
abbrev RS_STRAP : Nat := 0x28000
abbrev fRS_STRAP_KEYSTONE_N : Fld := ⟨0x28000, 31, 31⟩
abbrev fRS_STRAP_BOOT_SRC : Fld := ⟨0x28000, 30, 29⟩
abbrev fRS_STRAP_SPAN_PINV : Fld := ⟨0x28000, 28, 28⟩
abbrev RS_BOOT : Nat := 0x28004
abbrev fRS_BOOT_ERROR : Fld := ⟨0x28004, 31, 24⟩
abbrev fRS_BOOT_TRIED : Fld := ⟨0x28004, 18, 16⟩
abbrev fRS_BOOT_BOOTED : Fld := ⟨0x28004, 9, 8⟩
abbrev RS_CAUSE : Nat := 0x28008
abbrev fRS_CAUSE_WAKE : Fld := ⟨0x28008, 2, 2⟩
abbrev fRS_CAUSE_UNIT : Fld := ⟨0x28008, 1, 1⟩
abbrev fRS_CAUSE_PORST : Fld := ⟨0x28008, 0, 0⟩
abbrev RS_CNT_RESTART : Nat := 0x28010
abbrev fRS_CNT_RESTART_V : Fld := ⟨0x28010, 31, 0⟩
abbrev RS_CNT_SLEEP : Nat := 0x28014
abbrev fRS_CNT_SLEEP_V : Fld := ⟨0x28014, 31, 0⟩
/-! Names of block LI. -/
abbrev LI_PASS : Nat := 0x30000
abbrev fLI_PASS_V : Fld := ⟨0x30000, 31, 0⟩
abbrev LI_STAT : Nat := 0x30004
abbrev fLI_STAT_BAD : Fld := ⟨0x30004, 10, 0⟩
abbrev LI_WHERE : Nat := 0x30008
abbrev fLI_WHERE_VALID : Fld := ⟨0x30008, 31, 31⟩
abbrev fLI_WHERE_IDENT : Fld := ⟨0x30008, 27, 24⟩
abbrev fLI_WHERE_INST : Fld := ⟨0x30008, 15, 0⟩
abbrev LI_DIFF : Nat := 0x3000C
abbrev fLI_DIFF_V : Fld := ⟨0x3000C, 31, 0⟩
abbrev LI_EVT : Nat := 0x30010
abbrev fLI_EVT_IMBAL : Fld := ⟨0x30010, 10, 0⟩
abbrev LI_EVT_EN : Nat := 0x30014
abbrev fLI_EVT_EN_IMBAL : Fld := ⟨0x30014, 10, 0⟩
abbrev LI_CNT_FAIL : Nat := 0x30040
abbrev fLI_CNT_FAIL_V : Fld := ⟨0x30040, 31, 0⟩
abbrev LI_LG_OPENED : Nat := 0x30100
abbrev fLI_LG_OPENED_V : Fld := ⟨0x30100, 31, 0⟩
abbrev LI_LG_RETIRED : Nat := 0x30104
abbrev fLI_LG_RETIRED_V : Fld := ⟨0x30104, 31, 0⟩
abbrev LI_LG_LIVE : Nat := 0x30108
abbrev fLI_LG_LIVE_V : Fld := ⟨0x30108, 31, 0⟩
abbrev LI_TM_PRODUCED : Nat := 0x30110
abbrev fLI_TM_PRODUCED_V : Fld := ⟨0x30110, 31, 0⟩
abbrev LI_TM_DELIVERED : Nat := 0x30114
abbrev fLI_TM_DELIVERED_V : Fld := ⟨0x30114, 31, 0⟩
abbrev LI_TM_DROPPED : Nat := 0x30118
abbrev fLI_TM_DROPPED_V : Fld := ⟨0x30118, 31, 0⟩
abbrev LI_TM_PENDING : Nat := 0x3011C
abbrev fLI_TM_PENDING_V : Fld := ⟨0x3011C, 31, 0⟩
abbrev LI_DEC_RECEIVED : Nat := 0x30120
abbrev fLI_DEC_RECEIVED_V : Fld := ⟨0x30120, 31, 0⟩
abbrev LI_DEC_FIRED : Nat := 0x30124
abbrev fLI_DEC_FIRED_V : Fld := ⟨0x30124, 31, 0⟩
abbrev LI_DEC_PASSED : Nat := 0x30128
abbrev fLI_DEC_PASSED_V : Fld := ⟨0x30128, 31, 0⟩
abbrev LI_DEC_DEFAULTED : Nat := 0x3012C
abbrev fLI_DEC_DEFAULTED_V : Fld := ⟨0x3012C, 31, 0⟩
abbrev LI_DEC_CANCELLED : Nat := 0x30130
abbrev fLI_DEC_CANCELLED_V : Fld := ⟨0x30130, 31, 0⟩
abbrev LI_DEC_PENDING : Nat := 0x30134
abbrev fLI_DEC_PENDING_V : Fld := ⟨0x30134, 31, 0⟩
abbrev LI_PART_ADMIT : Nat := 0x30140
abbrev fLI_PART_ADMIT_V : Fld := ⟨0x30140, 31, 0⟩
abbrev LI_PART_FIRED : Nat := 0x30144
abbrev fLI_PART_FIRED_V : Fld := ⟨0x30144, 31, 0⟩
abbrev LI_PART_CANCELLED : Nat := 0x30148
abbrev fLI_PART_CANCELLED_V : Fld := ⟨0x30148, 31, 0⟩
abbrev LI_PART_QUEUED : Nat := 0x3014C
abbrev fLI_PART_QUEUED_V : Fld := ⟨0x3014C, 31, 0⟩
abbrev LI_TAG_POOL : Nat := 0x30180
abbrev fLI_TAG_POOL_V : Fld := ⟨0x30180, 10, 0⟩
abbrev LI_TAG_FREE : Nat := 0x30184
abbrev fLI_TAG_FREE_V : Fld := ⟨0x30184, 10, 0⟩
abbrev LI_TAG_OUT : Nat := 0x30188
abbrev fLI_TAG_OUT_V : Fld := ⟨0x30188, 10, 0⟩
abbrev LI_TAG_QUAR : Nat := 0x3018C
abbrev fLI_TAG_QUAR_V : Fld := ⟨0x3018C, 10, 0⟩
abbrev LI_POOL_HELD : Nat := 0x30190
abbrev fLI_POOL_HELD_V : Fld := ⟨0x30190, 22, 0⟩
abbrev LI_TO_GRANTED_LO : Nat := 0x30200
abbrev fLI_TO_GRANTED_LO_V : Fld := ⟨0x30200, 31, 0⟩
abbrev LI_TO_GRANTED_HI : Nat := 0x30204
abbrev fLI_TO_GRANTED_HI_V : Fld := ⟨0x30204, 31, 0⟩
abbrev LI_TO_SPENT_LO : Nat := 0x30208
abbrev fLI_TO_SPENT_LO_V : Fld := ⟨0x30208, 31, 0⟩
abbrev LI_TO_SPENT_HI : Nat := 0x3020C
abbrev fLI_TO_SPENT_HI_V : Fld := ⟨0x3020C, 31, 0⟩
abbrev LI_TO_BANKED_LO : Nat := 0x30210
abbrev fLI_TO_BANKED_LO_V : Fld := ⟨0x30210, 31, 0⟩
abbrev LI_TO_BANKED_HI : Nat := 0x30214
abbrev fLI_TO_BANKED_HI_V : Fld := ⟨0x30214, 31, 0⟩
abbrev LI_TO_FORFEIT_LO : Nat := 0x30218
abbrev fLI_TO_FORFEIT_LO_V : Fld := ⟨0x30218, 31, 0⟩
abbrev LI_TO_FORFEIT_HI : Nat := 0x3021C
abbrev fLI_TO_FORFEIT_HI_V : Fld := ⟨0x3021C, 31, 0⟩
abbrev LI_TR_ALLOC : Nat := 0x30300
abbrev fLI_TR_ALLOC_V : Fld := ⟨0x30300, 31, 0⟩
abbrev LI_TR_DONE : Nat := 0x30304
abbrev fLI_TR_DONE_V : Fld := ⟨0x30304, 31, 0⟩
abbrev LI_TR_DROP : Nat := 0x30308
abbrev fLI_TR_DROP_V : Fld := ⟨0x30308, 31, 0⟩
abbrev LI_TR_INPROG : Nat := 0x3030C
abbrev fLI_TR_INPROG_V : Fld := ⟨0x3030C, 31, 0⟩
abbrev LI_VR_ARRIVED : Nat := 0x30310
abbrev fLI_VR_ARRIVED_V : Fld := ⟨0x30310, 31, 0⟩
abbrev LI_VR_TAKEN : Nat := 0x30314
abbrev fLI_VR_TAKEN_V : Fld := ⟨0x30314, 31, 0⟩
abbrev LI_VR_HELD : Nat := 0x30318
abbrev fLI_VR_HELD_V : Fld := ⟨0x30318, 31, 0⟩
abbrev LI_WOFF_TILE : Nat := 0x30380
abbrev fLI_WOFF_TILE_V : Fld := ⟨0x30380, 31, 0⟩
abbrev LI_WOFF_VERDICT : Nat := 0x30384
abbrev fLI_WOFF_VERDICT_V : Fld := ⟨0x30384, 31, 0⟩
abbrev LI_FLR_PASS : Nat := 0x3038C
abbrev fLI_FLR_PASS_V : Fld := ⟨0x3038C, 31, 0⟩
/-! Names of block TB. -/
abbrev TB_NS : Nat := 0x40000
abbrev fTB_NS_V : Fld := ⟨0x40000, 31, 0⟩
abbrev TB_HI : Nat := 0x40004
abbrev fTB_HI_WRAP : Fld := ⟨0x40004, 15, 0⟩
abbrev TB_FRAC : Nat := 0x40008
abbrev fTB_FRAC_V : Fld := ⟨0x40008, 31, 0⟩
abbrev TB_FREQ : Nat := 0x4000C
abbrev fTB_FREQ_V : Fld := ⟨0x4000C, 31, 0⟩
abbrev TB_SRV_CTL : Nat := 0x40010
abbrev fTB_SRV_CTL_SRC : Fld := ⟨0x40010, 31, 29⟩
abbrev fTB_SRV_CTL_STEP_FIRST : Fld := ⟨0x40010, 28, 28⟩
abbrev fTB_SRV_CTL_KP_SH : Fld := ⟨0x40010, 27, 24⟩
abbrev fTB_SRV_CTL_KI_SH : Fld := ⟨0x40010, 23, 20⟩
abbrev fTB_SRV_CTL_LOCK_CNT : Fld := ⟨0x40010, 19, 16⟩
abbrev fTB_SRV_CTL_LOCK_THR : Fld := ⟨0x40010, 15, 0⟩
abbrev TB_SRV_LIM : Nat := 0x40014
abbrev fTB_SRV_LIM_LIM : Fld := ⟨0x40014, 15, 0⟩
abbrev TB_OFS_LAST : Nat := 0x40018
abbrev fTB_OFS_LAST_V : Fld := ⟨0x40018, 31, 0⟩
abbrev TB_STAT : Nat := 0x4001C
abbrev fTB_STAT_STATE : Fld := ⟨0x4001C, 31, 30⟩
abbrev fTB_STAT_ROOTED : Fld := ⟨0x4001C, 29, 29⟩
abbrev fTB_STAT_ROOT : Fld := ⟨0x4001C, 28, 28⟩
abbrev fTB_STAT_LIM_HIT : Fld := ⟨0x4001C, 27, 27⟩
abbrev fTB_STAT_T1_LOCKED : Fld := ⟨0x4001C, 26, 26⟩
abbrev fTB_STAT_MEAS_CNT : Fld := ⟨0x4001C, 15, 0⟩
abbrev TB_STEP_LO : Nat := 0x40020
abbrev fTB_STEP_LO_V : Fld := ⟨0x40020, 31, 0⟩
abbrev TB_STEP_HI : Nat := 0x40024
abbrev fTB_STEP_HI_V : Fld := ⟨0x40024, 15, 0⟩
abbrev TB_CMD : Nat := 0x40028
abbrev fTB_CMD_CLR_I : Fld := ⟨0x40028, 2, 2⟩
abbrev fTB_CMD_ALIGN : Fld := ⟨0x40028, 1, 1⟩
abbrev fTB_CMD_STEP : Fld := ⟨0x40028, 0, 0⟩
abbrev TB_T1_OFS : Nat := 0x40070
abbrev fTB_T1_OFS_V : Fld := ⟨0x40070, 31, 0⟩
abbrev TB_SNAP : Nat := 0x40100
abbrev fTB_SNAP_SNAP : Fld := ⟨0x40100, 0, 0⟩
abbrev TB_SNAP_NS : Nat := 0x40104
abbrev fTB_SNAP_NS_V : Fld := ⟨0x40104, 31, 0⟩
abbrev TB_SNAP_HI : Nat := 0x40108
abbrev fTB_SNAP_HI_WRAP : Fld := ⟨0x40108, 15, 0⟩
abbrev TB_SPAN_CTL : Nat := 0x40140
abbrev fTB_SPAN_CTL_EN : Fld := ⟨0x40140, 31, 31⟩
abbrev fTB_SPAN_CTL_PERIOD : Fld := ⟨0x40140, 15, 0⟩
abbrev TB_SPAN_DELAY : Nat := 0x40144
abbrev fTB_SPAN_DELAY_V : Fld := ⟨0x40144, 31, 0⟩
abbrev TB_SPAN_ASYM_E : Nat := 0x40148
abbrev fTB_SPAN_ASYM_E_V : Fld := ⟨0x40148, 31, 0⟩
abbrev TB_SPAN_ASYM_W : Nat := 0x4014C
abbrev fTB_SPAN_ASYM_W_V : Fld := ⟨0x4014C, 31, 0⟩
abbrev TB_PTM_CTL : Nat := 0x40150
abbrev fTB_PTM_CTL_EN : Fld := ⟨0x40150, 31, 31⟩
abbrev fTB_PTM_CTL_PERIOD : Fld := ⟨0x40150, 15, 0⟩
abbrev TB_PPS_CTL : Nat := 0x40154
abbrev fTB_PPS_CTL_EN : Fld := ⟨0x40154, 31, 31⟩
abbrev fTB_PPS_CTL_POL : Fld := ⟨0x40154, 30, 30⟩
abbrev TB_PPS_ADJ : Nat := 0x40158
abbrev fTB_PPS_ADJ_V : Fld := ⟨0x40158, 31, 0⟩
abbrev TB_EVT : Nat := 0x40160
abbrev fTB_EVT_ALM_LATE : Fld := ⟨0x40160, 8, 8⟩
abbrev fTB_EVT_CAP_OVR : Fld := ⟨0x40160, 7, 7⟩
abbrev fTB_EVT_DRESP_MISS : Fld := ⟨0x40160, 6, 6⟩
abbrev fTB_EVT_PPS_MISS : Fld := ⟨0x40160, 5, 5⟩
abbrev fTB_EVT_REFUSED : Fld := ⟨0x40160, 4, 4⟩
abbrev fTB_EVT_STATE_CHG : Fld := ⟨0x40160, 3, 0⟩
abbrev TB_EVT_EN : Nat := 0x40164
abbrev fTB_EVT_EN_ALL : Fld := ⟨0x40164, 8, 0⟩
abbrev TB_CAP_CTL : Nat := 0x40200
abbrev fTB_CAP_CTL_EN : Fld := ⟨0x40200, 31, 31⟩
abbrev fTB_CAP_CTL_OVWR : Fld := ⟨0x40200, 30, 30⟩
abbrev fTB_CAP_CTL_VALID : Fld := ⟨0x40200, 0, 0⟩
abbrev TB_CAP_NS : Nat := 0x40204
abbrev fTB_CAP_NS_V : Fld := ⟨0x40204, 31, 0⟩
abbrev TB_CAP_HI01 : Nat := 0x40214
abbrev fTB_CAP_HI01_W1 : Fld := ⟨0x40214, 31, 16⟩
abbrev fTB_CAP_HI01_W0 : Fld := ⟨0x40214, 15, 0⟩
abbrev TB_CAP_HI23 : Nat := 0x40218
abbrev fTB_CAP_HI23_W3 : Fld := ⟨0x40218, 31, 16⟩
abbrev fTB_CAP_HI23_W2 : Fld := ⟨0x40218, 15, 0⟩
abbrev TB_CAP_CNT_OVR : Nat := 0x4021C
abbrev fTB_CAP_CNT_OVR_V : Fld := ⟨0x4021C, 31, 0⟩
abbrev TB_ALM_CTL : Nat := 0x40300
abbrev fTB_ALM_CTL_EN : Fld := ⟨0x40300, 31, 31⟩
abbrev fTB_ALM_CTL_BASE : Fld := ⟨0x40300, 30, 29⟩
abbrev TB_ALM_TGT_NS : Nat := 0x40304
abbrev fTB_ALM_TGT_NS_V : Fld := ⟨0x40304, 31, 0⟩
abbrev TB_ALM_TGT_HI : Nat := 0x40308
abbrev fTB_ALM_TGT_HI_V : Fld := ⟨0x40308, 15, 0⟩
abbrev TB_ALM_PERIOD : Nat := 0x4030C
abbrev fTB_ALM_PERIOD_V : Fld := ⟨0x4030C, 31, 0⟩
abbrev TB_ALM_STAT : Nat := 0x40310
abbrev fTB_ALM_STAT_LATE : Fld := ⟨0x40310, 1, 1⟩
abbrev fTB_ALM_STAT_FIRED : Fld := ⟨0x40310, 0, 0⟩
abbrev TB_ALM_CNT_MISSED : Nat := 0x40314
abbrev fTB_ALM_CNT_MISSED_V : Fld := ⟨0x40314, 31, 0⟩
/-! Names of block EM. -/
abbrev EM_CTL : Nat := 0x50000
abbrev fEM_CTL_EN : Fld := ⟨0x50000, 31, 31⟩
abbrev EM_FIRE : Nat := 0x50004
abbrev fEM_FIRE_GO : Fld := ⟨0x50004, 31, 31⟩
abbrev fEM_FIRE_PRODUCER : Fld := ⟨0x50004, 7, 0⟩
abbrev EM_GUARD : Nat := 0x50008
abbrev fEM_GUARD_EN : Fld := ⟨0x50008, 31, 31⟩
abbrev fEM_GUARD_COUNT : Fld := ⟨0x50008, 7, 0⟩
abbrev EM_EVT : Nat := 0x50020
abbrev fEM_EVT_IRQ : Fld := ⟨0x50020, 15, 8⟩
abbrev fEM_EVT_STORM : Fld := ⟨0x50020, 1, 1⟩
abbrev fEM_EVT_OVR : Fld := ⟨0x50020, 0, 0⟩
abbrev EM_EVT_EN : Nat := 0x50024
abbrev fEM_EVT_EN_IRQ : Fld := ⟨0x50024, 15, 8⟩
abbrev fEM_EVT_EN_STORM : Fld := ⟨0x50024, 1, 1⟩
abbrev fEM_EVT_EN_OVR : Fld := ⟨0x50024, 0, 0⟩
abbrev EM_COINC : Nat := 0x50200
abbrev fEM_COINC_V : Fld := ⟨0x50200, 31, 0⟩
abbrev EM_OVR : Nat := 0x50220
abbrev fEM_OVR_V : Fld := ⟨0x50220, 31, 0⟩
abbrev EM_TRIP : Nat := 0x50240
abbrev fEM_TRIP_V : Fld := ⟨0x50240, 31, 0⟩
abbrev EM_CNT_OVR : Nat := 0x50280
abbrev fEM_CNT_OVR_V : Fld := ⟨0x50280, 31, 0⟩
abbrev EM_CNT_TRIP : Nat := 0x50284
abbrev fEM_CNT_TRIP_V : Fld := ⟨0x50284, 31, 0⟩
abbrev EM_IN_CFG : Nat := 0x50300
abbrev fEM_IN_CFG_EN : Fld := ⟨0x50300, 31, 31⟩
abbrev fEM_IN_CFG_EDGE : Fld := ⟨0x50300, 30, 29⟩
abbrev fEM_IN_CFG_POL : Fld := ⟨0x50300, 28, 28⟩
abbrev fEM_IN_CFG_FILT : Fld := ⟨0x50300, 7, 0⟩
abbrev EM_IN_LEVEL : Nat := 0x50340
abbrev fEM_IN_LEVEL_V : Fld := ⟨0x50340, 15, 0⟩
abbrev EM_CELL_IN : Nat := 0x50400
abbrev fEM_CELL_IN_V : Fld := ⟨0x50400, 31, 0⟩
abbrev EM_CELL_CTL : Nat := 0x50404
abbrev fEM_CELL_CTL_EN : Fld := ⟨0x50404, 31, 31⟩
abbrev fEM_CELL_CTL_FF : Fld := ⟨0x50404, 30, 29⟩
abbrev fEM_CELL_CTL_EDGE : Fld := ⟨0x50404, 28, 27⟩
abbrev fEM_CELL_CTL_CLR : Fld := ⟨0x50404, 26, 26⟩
abbrev fEM_CELL_CTL_FILT : Fld := ⟨0x50404, 23, 16⟩
abbrev fEM_CELL_CTL_LUT : Fld := ⟨0x50404, 15, 0⟩
abbrev EM_CELL_STAT : Nat := 0x50408
abbrev fEM_CELL_STAT_F : Fld := ⟨0x50408, 1, 1⟩
abbrev fEM_CELL_STAT_V : Fld := ⟨0x50408, 0, 0⟩
abbrev EM_OUT_CFG : Nat := 0x50600
abbrev fEM_OUT_CFG_EN : Fld := ⟨0x50600, 31, 31⟩
abbrev fEM_OUT_CFG_MODE : Fld := ⟨0x50600, 30, 29⟩
abbrev fEM_OUT_CFG_POL : Fld := ⟨0x50600, 28, 28⟩
abbrev fEM_OUT_CFG_CELL : Fld := ⟨0x50600, 24, 20⟩
abbrev fEM_OUT_CFG_WIDTH : Fld := ⟨0x50600, 19, 0⟩
abbrev EM_OUT_STAT : Nat := 0x50604
abbrev fEM_OUT_STAT_BUSY : Fld := ⟨0x50604, 1, 1⟩
abbrev fEM_OUT_STAT_ACTIVE : Fld := ⟨0x50604, 0, 0⟩
abbrev EM_ROUTE : Nat := 0x51000
abbrev fEM_ROUTE_V : Fld := ⟨0x51000, 31, 0⟩
/-! Names of block TO. -/
abbrev TO_CTL : Nat := 0x60000
abbrev fTO_CTL_EN : Fld := ⟨0x60000, 31, 31⟩
abbrev fTO_CTL_COMMIT : Fld := ⟨0x60000, 30, 30⟩
abbrev fTO_CTL_PEND : Fld := ⟨0x60000, 29, 29⟩
abbrev TO_STAT : Nat := 0x60004
abbrev fTO_STAT_OVER : Fld := ⟨0x60004, 3, 0⟩
abbrev TO_PERIOD : Nat := 0x60008
abbrev fTO_PERIOD_V : Fld := ⟨0x60008, 31, 0⟩
abbrev TO_CAP0 : Nat := 0x60010
abbrev fTO_CAP0_V : Fld := ⟨0x60010, 31, 0⟩
abbrev TO_CAP1 : Nat := 0x60014
abbrev fTO_CAP1_V : Fld := ⟨0x60014, 31, 0⟩
abbrev TO_CAP2 : Nat := 0x60018
abbrev fTO_CAP2_V : Fld := ⟨0x60018, 31, 0⟩
abbrev TO_CAP3 : Nat := 0x6001C
abbrev fTO_CAP3_V : Fld := ⟨0x6001C, 31, 0⟩
abbrev TO_EVT : Nat := 0x60020
abbrev fTO_EVT_OVER : Fld := ⟨0x60020, 2, 2⟩
abbrev fTO_EVT_EXHAUST : Fld := ⟨0x60020, 1, 1⟩
abbrev fTO_EVT_COMMITTED : Fld := ⟨0x60020, 0, 0⟩
abbrev TO_EVT_EN : Nat := 0x60024
abbrev fTO_EVT_EN_ALL : Fld := ⟨0x60024, 2, 0⟩
abbrev TO_BUD : Nat := 0x60100
abbrev fTO_BUD_V : Fld := ⟨0x60100, 23, 0⟩
abbrev TO_AVAIL : Nat := 0x60400
abbrev fTO_AVAIL_V : Fld := ⟨0x60400, 24, 0⟩
abbrev TO_CNT_EXH : Nat := 0x60800
abbrev fTO_CNT_EXH_V : Fld := ⟨0x60800, 31, 0⟩
/-! Names of block MM. -/
abbrev MM_CTL : Nat := 0x68000
abbrev fMM_CTL_COMMIT : Fld := ⟨0x68000, 31, 31⟩
abbrev MM_STAT : Nat := 0x68004
abbrev fMM_STAT_USE : Fld := ⟨0x68004, 31, 24⟩
abbrev fMM_STAT_LOST : Fld := ⟨0x68004, 23, 16⟩
abbrev MM_CAP : Nat := 0x68008
abbrev fMM_CAP_USABLE : Fld := ⟨0x68008, 31, 16⟩
abbrev fMM_CAP_C : Fld := ⟨0x68008, 15, 0⟩
abbrev MM_RSV_BASE : Nat := 0x6800C
abbrev fMM_RSV_BASE_V : Fld := ⟨0x6800C, 11, 0⟩
abbrev MM_SCRUB : Nat := 0x68010
abbrev fMM_SCRUB_EN : Fld := ⟨0x68010, 31, 31⟩
abbrev fMM_SCRUB_HOURS : Fld := ⟨0x68010, 15, 0⟩
abbrev MM_UE_THR : Nat := 0x68014
abbrev fMM_UE_THR_V : Fld := ⟨0x68014, 7, 0⟩
abbrev MM_POOL_TOTAL : Nat := 0x68100
abbrev fMM_POOL_TOTAL_V : Fld := ⟨0x68100, 22, 0⟩
abbrev MM_POOL_FREE : Nat := 0x68104
abbrev fMM_POOL_FREE_V : Fld := ⟨0x68104, 22, 0⟩
abbrev MM_POOL_LOW : Nat := 0x68108
abbrev fMM_POOL_LOW_V : Fld := ⟨0x68108, 22, 0⟩
abbrev MM_POOL_CNT_EMPTY : Nat := 0x6810C
abbrev fMM_POOL_CNT_EMPTY_V : Fld := ⟨0x6810C, 31, 0⟩
abbrev MM_CNT_CE : Nat := 0x68200
abbrev fMM_CNT_CE_V : Fld := ⟨0x68200, 31, 0⟩
abbrev MM_CNT_UE : Nat := 0x68220
abbrev fMM_CNT_UE_V : Fld := ⟨0x68220, 31, 0⟩
abbrev MM_UE_ADDR_LO : Nat := 0x68240
abbrev fMM_UE_ADDR_LO_V : Fld := ⟨0x68240, 31, 0⟩
abbrev MM_UE_ADDR_HI : Nat := 0x68244
abbrev fMM_UE_ADDR_HI_V : Fld := ⟨0x68244, 3, 0⟩
abbrev MM_CNT_LOST_BLK : Nat := 0x68248
abbrev fMM_CNT_LOST_BLK_V : Fld := ⟨0x68248, 31, 0⟩
abbrev MM_EVT : Nat := 0x68260
abbrev fMM_EVT_POOL_EMPTY : Fld := ⟨0x68260, 4, 4⟩
abbrev fMM_EVT_CH_LOST : Fld := ⟨0x68260, 3, 3⟩
abbrev fMM_EVT_UE : Fld := ⟨0x68260, 2, 2⟩
abbrev fMM_EVT_CE : Fld := ⟨0x68260, 1, 1⟩
abbrev fMM_EVT_SCRUB_DONE : Fld := ⟨0x68260, 0, 0⟩
abbrev MM_EVT_EN : Nat := 0x68264
abbrev fMM_EVT_EN_ALL : Fld := ⟨0x68264, 4, 0⟩
/-! Names of block TW. -/
abbrev TW_CFG : Nat := 0x70000
abbrev fTW_CFG_EN : Fld := ⟨0x70000, 31, 31⟩
abbrev fTW_CFG_CTRL_EN : Fld := ⟨0x70000, 30, 30⟩
abbrev fTW_CFG_TGT_EN : Fld := ⟨0x70000, 29, 29⟩
abbrev fTW_CFG_SPEED : Fld := ⟨0x70000, 28, 27⟩
abbrev fTW_CFG_RETRY : Fld := ⟨0x70000, 26, 24⟩
abbrev fTW_CFG_ARA_EN : Fld := ⟨0x70000, 23, 23⟩
abbrev fTW_CFG_SMB_TMO : Fld := ⟨0x70000, 22, 22⟩
abbrev fTW_CFG_RECOVER_EN : Fld := ⟨0x70000, 21, 21⟩
abbrev TW_ADDR : Nat := 0x70004
abbrev fTW_ADDR_A1_EN : Fld := ⟨0x70004, 31, 31⟩
abbrev fTW_ADDR_A1_WAKE : Fld := ⟨0x70004, 30, 30⟩
abbrev fTW_ADDR_A1 : Fld := ⟨0x70004, 22, 16⟩
abbrev fTW_ADDR_A0_EN : Fld := ⟨0x70004, 15, 15⟩
abbrev fTW_ADDR_A0_WAKE : Fld := ⟨0x70004, 14, 14⟩
abbrev fTW_ADDR_A0 : Fld := ⟨0x70004, 6, 0⟩
abbrev TW_TMO : Nat := 0x70008
abbrev fTW_TMO_SDA_MS : Fld := ⟨0x70008, 31, 24⟩
abbrev fTW_TMO_IDLE : Fld := ⟨0x70008, 15, 0⟩
abbrev TW_CMD : Nat := 0x7000C
abbrev fTW_CMD_GO : Fld := ⟨0x7000C, 31, 31⟩
abbrev fTW_CMD_BUSY : Fld := ⟨0x7000C, 30, 30⟩
abbrev fTW_CMD_PEC : Fld := ⟨0x7000C, 29, 29⟩
abbrev fTW_CMD_COUNTED : Fld := ⟨0x7000C, 28, 28⟩
abbrev fTW_CMD_ADDR : Fld := ⟨0x7000C, 22, 16⟩
abbrev fTW_CMD_RLEN : Fld := ⟨0x7000C, 15, 8⟩
abbrev fTW_CMD_WLEN : Fld := ⟨0x7000C, 7, 0⟩
abbrev TW_CRES : Nat := 0x70010
abbrev fTW_CRES_STATUS : Fld := ⟨0x70010, 31, 28⟩
abbrev fTW_CRES_WDONE : Fld := ⟨0x70010, 23, 16⟩
abbrev fTW_CRES_RDONE : Fld := ⟨0x70010, 15, 8⟩
abbrev fTW_CRES_RETRIES : Fld := ⟨0x70010, 2, 0⟩
abbrev TW_ARB : Nat := 0x70014
abbrev fTW_ARB_VALID : Fld := ⟨0x70014, 31, 31⟩
abbrev fTW_ARB_BYTE : Fld := ⟨0x70014, 15, 8⟩
abbrev fTW_ARB_BIT : Fld := ⟨0x70014, 2, 0⟩
abbrev TW_STAT : Nat := 0x70018
abbrev fTW_STAT_BUS_BUSY : Fld := ⟨0x70018, 31, 31⟩
abbrev fTW_STAT_CTRL_ACTIVE : Fld := ⟨0x70018, 30, 30⟩
abbrev fTW_STAT_TGT_ACTIVE : Fld := ⟨0x70018, 29, 29⟩
abbrev fTW_STAT_ALERT_IN : Fld := ⟨0x70018, 28, 28⟩
abbrev fTW_STAT_RS_IN_ACK : Fld := ⟨0x70018, 0, 0⟩
abbrev TW_ALERT : Nat := 0x7001C
abbrev fTW_ALERT_REQ : Fld := ⟨0x7001C, 31, 31⟩
abbrev TW_EVT : Nat := 0x70020
abbrev fTW_EVT_WAKE : Fld := ⟨0x70020, 14, 14⟩
abbrev fTW_EVT_ROLE_SW : Fld := ⟨0x70020, 13, 13⟩
abbrev fTW_EVT_ALERT_WON : Fld := ⟨0x70020, 12, 12⟩
abbrev fTW_EVT_ALERT_IN : Fld := ⟨0x70020, 11, 11⟩
abbrev fTW_EVT_TX_UNDER : Fld := ⟨0x70020, 10, 10⟩
abbrev fTW_EVT_PEC_ERR : Fld := ⟨0x70020, 9, 9⟩
abbrev fTW_EVT_TGT_DISCARD : Fld := ⟨0x70020, 8, 8⟩
abbrev fTW_EVT_TGT_BUSY : Fld := ⟨0x70020, 7, 7⟩
abbrev fTW_EVT_TGT_RX : Fld := ⟨0x70020, 6, 6⟩
abbrev fTW_EVT_RECOVERED : Fld := ⟨0x70020, 5, 5⟩
abbrev fTW_EVT_SDA_TMO : Fld := ⟨0x70020, 4, 4⟩
abbrev fTW_EVT_SCL_TMO : Fld := ⟨0x70020, 3, 3⟩
abbrev fTW_EVT_ARB_SR : Fld := ⟨0x70020, 2, 2⟩
abbrev fTW_EVT_ARB_LOST : Fld := ⟨0x70020, 1, 1⟩
abbrev fTW_EVT_DONE : Fld := ⟨0x70020, 0, 0⟩
abbrev TW_EVT_EN : Nat := 0x70024
abbrev fTW_EVT_EN_ALL : Fld := ⟨0x70024, 14, 0⟩
abbrev TW_TGT_RECV : Nat := 0x70030
abbrev fTW_TGT_RECV_V : Fld := ⟨0x70030, 7, 0⟩
abbrev TW_CNT_ARB : Nat := 0x70040
abbrev fTW_CNT_ARB_V : Fld := ⟨0x70040, 31, 0⟩
abbrev TW_CNT_ARB_SR : Nat := 0x70044
abbrev fTW_CNT_ARB_SR_V : Fld := ⟨0x70044, 31, 0⟩
abbrev TW_CNT_NAK : Nat := 0x70048
abbrev fTW_CNT_NAK_V : Fld := ⟨0x70048, 31, 0⟩
abbrev TW_CNT_TMO : Nat := 0x7004C
abbrev fTW_CNT_TMO_V : Fld := ⟨0x7004C, 31, 0⟩
abbrev TW_CNT_TGT_BUSY : Nat := 0x70050
abbrev fTW_CNT_TGT_BUSY_V : Fld := ⟨0x70050, 31, 0⟩
abbrev TW_CNT_TGT_DISCARD : Nat := 0x70054
abbrev fTW_CNT_TGT_DISCARD_V : Fld := ⟨0x70054, 31, 0⟩
abbrev TW_CNT_PEC_ERR : Nat := 0x70058
abbrev fTW_CNT_PEC_ERR_V : Fld := ⟨0x70058, 31, 0⟩
abbrev TW_TXBUF : Nat := 0x70100
abbrev fTW_TXBUF_V : Fld := ⟨0x70100, 31, 0⟩
abbrev TW_RXBUF : Nat := 0x70200
abbrev fTW_RXBUF_V : Fld := ⟨0x70200, 31, 0⟩
abbrev TW_TGT_CMD : Nat := 0x70400
abbrev fTW_TGT_CMD_TYPE : Fld := ⟨0x70400, 31, 28⟩
abbrev fTW_TGT_CMD_PEC : Fld := ⟨0x70400, 27, 27⟩
abbrev fTW_TGT_CMD_LEN : Fld := ⟨0x70400, 23, 16⟩
abbrev fTW_TGT_CMD_OFS : Fld := ⟨0x70400, 10, 0⟩
abbrev TW_TGT_RAM : Nat := 0x70800
abbrev fTW_TGT_RAM_V : Fld := ⟨0x70800, 31, 0⟩
/-! Names of block AB. -/
abbrev AB_CTL : Nat := 0x80000
abbrev fAB_CTL_EN : Fld := ⟨0x80000, 31, 31⟩
abbrev fAB_CTL_DIV : Fld := ⟨0x80000, 27, 24⟩
abbrev fAB_CTL_FAIR : Fld := ⟨0x80000, 15, 8⟩
abbrev fAB_CTL_M_EN : Fld := ⟨0x80000, 1, 0⟩
abbrev AB_STAT : Nat := 0x80004
abbrev fAB_STAT_LOCKED : Fld := ⟨0x80004, 31, 31⟩
abbrev fAB_STAT_OWNER : Fld := ⟨0x80004, 29, 28⟩
abbrev fAB_STAT_DR : Fld := ⟨0x80004, 23, 16⟩
abbrev fAB_STAT_PWB : Fld := ⟨0x80004, 6, 0⟩
abbrev AB_DR_TMO : Nat := 0x80008
abbrev fAB_DR_TMO_MS : Fld := ⟨0x80008, 6, 0⟩
abbrev AB_CNT_OUT_WR : Nat := 0x80040
abbrev fAB_CNT_OUT_WR_V : Fld := ⟨0x80040, 31, 0⟩
abbrev AB_CNT_OUT_RD : Nat := 0x80044
abbrev fAB_CNT_OUT_RD_V : Fld := ⟨0x80044, 31, 0⟩
abbrev AB_CNT_ATOMIC : Nat := 0x80048
abbrev fAB_CNT_ATOMIC_V : Fld := ⟨0x80048, 31, 0⟩
abbrev AB_CNT_ERR : Nat := 0x8004C
abbrev fAB_CNT_ERR_V : Fld := ⟨0x8004C, 31, 0⟩
abbrev AB_CNT_RETRY : Nat := 0x80050
abbrev fAB_CNT_RETRY_V : Fld := ⟨0x80050, 31, 0⟩
abbrev AB_CNT_DR_FULL : Nat := 0x80054
abbrev fAB_CNT_DR_FULL_V : Fld := ⟨0x80054, 31, 0⟩
abbrev AB_CNT_DR_DISCARD : Nat := 0x80058
abbrev fAB_CNT_DR_DISCARD_V : Fld := ⟨0x80058, 31, 0⟩
abbrev AB_CNT_IN_DROP : Nat := 0x8005C
abbrev fAB_CNT_IN_DROP_V : Fld := ⟨0x8005C, 31, 0⟩
abbrev AB_EVT : Nat := 0x80060
abbrev fAB_EVT_IN_DROP : Fld := ⟨0x80060, 4, 4⟩
abbrev fAB_EVT_LOG_FULL : Fld := ⟨0x80060, 3, 3⟩
abbrev fAB_EVT_SB : Fld := ⟨0x80060, 2, 2⟩
abbrev fAB_EVT_DR_DISCARD : Fld := ⟨0x80060, 1, 1⟩
abbrev fAB_EVT_ERR : Fld := ⟨0x80060, 0, 0⟩
abbrev AB_EVT_EN : Nat := 0x80064
abbrev fAB_EVT_EN_ALL : Fld := ⟨0x80064, 4, 0⟩
abbrev AB_REG_CTL : Nat := 0x80100
abbrev fAB_REG_CTL_EN : Fld := ⟨0x80100, 31, 31⟩
abbrev fAB_REG_CTL_RESPOND : Fld := ⟨0x80100, 30, 30⟩
abbrev fAB_REG_CTL_WAIT : Fld := ⟨0x80100, 23, 16⟩
abbrev AB_REG_BASE : Nat := 0x80104
abbrev fAB_REG_BASE_V : Fld := ⟨0x80104, 23, 12⟩
abbrev AB_REG_SIZE : Nat := 0x80108
abbrev fAB_REG_SIZE_V : Fld := ⟨0x80108, 24, 12⟩
abbrev AB_REG_LB : Nat := 0x8010C
abbrev fAB_REG_LB_V : Fld := ⟨0x8010C, 31, 12⟩
abbrev AB_IN_CTL : Nat := 0x80200
abbrev fAB_IN_CTL_EN : Fld := ⟨0x80200, 31, 31⟩
abbrev AB_IN_LB : Nat := 0x80204
abbrev fAB_IN_LB_V : Fld := ⟨0x80204, 31, 12⟩
abbrev AB_IN_SIZE : Nat := 0x80208
abbrev fAB_IN_SIZE_V : Fld := ⟨0x80208, 31, 12⟩
abbrev AB_IN_HOST_LO : Nat := 0x8020C
abbrev fAB_IN_HOST_LO_V : Fld := ⟨0x8020C, 31, 12⟩
abbrev AB_IN_HOST_HI : Nat := 0x80210
abbrev fAB_IN_HOST_HI_V : Fld := ⟨0x80210, 31, 0⟩
abbrev AB_SB_CTL : Nat := 0x80300
abbrev fAB_SB_CTL_EN : Fld := ⟨0x80300, 31, 31⟩
abbrev fAB_SB_CTL_FILT : Fld := ⟨0x80300, 30, 30⟩
abbrev fAB_SB_CTL_PERIOD : Fld := ⟨0x80300, 9, 0⟩
abbrev AB_SB_EDGE : Nat := 0x80304
abbrev fAB_SB_EDGE_V : Fld := ⟨0x80304, 31, 0⟩
abbrev AB_SB_LEVEL : Nat := 0x80308
abbrev fAB_SB_LEVEL_V : Fld := ⟨0x80308, 15, 0⟩
abbrev AB_SB_EVT : Nat := 0x8030C
abbrev fAB_SB_EVT_V : Fld := ⟨0x8030C, 15, 0⟩
abbrev AB_SB_EVT_EN : Nat := 0x80310
abbrev fAB_SB_EVT_EN_V : Fld := ⟨0x80310, 15, 0⟩
abbrev AB_LOG_ADDR : Nat := 0x80400
abbrev fAB_LOG_ADDR_V : Fld := ⟨0x80400, 31, 0⟩
abbrev AB_LOG_STAMP : Nat := 0x80404
abbrev fAB_LOG_STAMP_V : Fld := ⟨0x80404, 31, 0⟩
abbrev AB_LOG_INFO : Nat := 0x80408
abbrev fAB_LOG_INFO_VALID : Fld := ⟨0x80408, 31, 31⟩
abbrev fAB_LOG_INFO_WRITE : Fld := ⟨0x80408, 30, 30⟩
abbrev fAB_LOG_INFO_MASTER : Fld := ⟨0x80408, 29, 28⟩
abbrev fAB_LOG_INFO_REGION : Fld := ⟨0x80408, 26, 24⟩
abbrev fAB_LOG_INFO_CODE : Fld := ⟨0x80408, 7, 0⟩
abbrev AB_LOG_OVF : Nat := 0x80480
abbrev fAB_LOG_OVF_V : Fld := ⟨0x80480, 31, 0⟩
/-! Names of block EV. -/
abbrev EV_CTL : Nat := 0x90000
abbrev fEV_CTL_EN : Fld := ⟨0x90000, 31, 31⟩
abbrev fEV_CTL_EVID_EN : Fld := ⟨0x90000, 30, 30⟩
abbrev fEV_CTL_PATROL_EN : Fld := ⟨0x90000, 29, 29⟩
abbrev fEV_CTL_RATE : Fld := ⟨0x90000, 3, 0⟩
abbrev EV_MEDIUM : Nat := 0x90004
abbrev fEV_MEDIUM_CH_MASK : Fld := ⟨0x90004, 31, 28⟩
abbrev fEV_MEDIUM_TGT_M1 : Fld := ⟨0x90004, 27, 26⟩
abbrev fEV_MEDIUM_BLOCK_LOG2 : Fld := ⟨0x90004, 23, 20⟩
abbrev fEV_MEDIUM_BLOCKS : Fld := ⟨0x90004, 19, 0⟩
abbrev EV_STAT : Nat := 0x90008
abbrev fEV_STAT_STATE : Fld := ⟨0x90008, 31, 29⟩
abbrev fEV_STAT_WRITING : Fld := ⟨0x90008, 28, 28⟩
abbrev fEV_STAT_PATROL : Fld := ⟨0x90008, 27, 27⟩
abbrev fEV_STAT_WEAR : Fld := ⟨0x90008, 9, 0⟩
abbrev EV_SEL : Nat := 0x90010
abbrev fEV_SEL_FIRED : Fld := ⟨0x90010, 31, 31⟩
abbrev fEV_SEL_PASSED : Fld := ⟨0x90010, 30, 30⟩
abbrev fEV_SEL_DEFAULTED : Fld := ⟨0x90010, 29, 29⟩
abbrev fEV_SEL_DROPPED : Fld := ⟨0x90010, 28, 28⟩
abbrev fEV_SEL_PASS_SAMPLE : Fld := ⟨0x90010, 23, 16⟩
abbrev EV_PATROL : Nat := 0x90014
abbrev fEV_PATROL_DAYS : Fld := ⟨0x90014, 31, 24⟩
abbrev fEV_PATROL_REFRESH_THR : Fld := ⟨0x90014, 23, 16⟩
abbrev fEV_PATROL_REFRESH_STEP : Fld := ⟨0x90014, 15, 12⟩
abbrev EV_CRED_CAP : Nat := 0x90018
abbrev fEV_CRED_CAP_HOURS : Fld := ⟨0x90018, 15, 0⟩
abbrev EV_CRED_RATE : Nat := 0x9001C
abbrev fEV_CRED_RATE_V : Fld := ⟨0x9001C, 31, 0⟩
abbrev EV_CRED_BAL_LO : Nat := 0x90020
abbrev fEV_CRED_BAL_LO_V : Fld := ⟨0x90020, 31, 0⟩
abbrev EV_CRED_BAL_HI : Nat := 0x90024
abbrev fEV_CRED_BAL_HI_V : Fld := ⟨0x90024, 31, 0⟩
abbrev EV_CRED_GRANTED_LO : Nat := 0x90028
abbrev fEV_CRED_GRANTED_LO_V : Fld := ⟨0x90028, 31, 0⟩
abbrev EV_CRED_GRANTED_HI : Nat := 0x9002C
abbrev fEV_CRED_GRANTED_HI_V : Fld := ⟨0x9002C, 31, 0⟩
abbrev EV_CRED_SPENT_LO : Nat := 0x90030
abbrev fEV_CRED_SPENT_LO_V : Fld := ⟨0x90030, 31, 0⟩
abbrev EV_CRED_SPENT_HI : Nat := 0x90034
abbrev fEV_CRED_SPENT_HI_V : Fld := ⟨0x90034, 31, 0⟩
abbrev EV_CRED_FORFEIT_LO : Nat := 0x90038
abbrev fEV_CRED_FORFEIT_LO_V : Fld := ⟨0x90038, 31, 0⟩
abbrev EV_CRED_FORFEIT_HI : Nat := 0x9003C
abbrev fEV_CRED_FORFEIT_HI_V : Fld := ⟨0x9003C, 31, 0⟩
abbrev EV_RING_OLDEST : Nat := 0x90040
abbrev fEV_RING_OLDEST_V : Fld := ⟨0x90040, 31, 0⟩
abbrev EV_RING_NEWEST : Nat := 0x90044
abbrev fEV_RING_NEWEST_V : Fld := ⟨0x90044, 31, 0⟩
abbrev EV_CNT_REC : Nat := 0x90060
abbrev fEV_CNT_REC_V : Fld := ⟨0x90060, 31, 0⟩
abbrev EV_CNT_DROP_CRED : Nat := 0x90064
abbrev fEV_CNT_DROP_CRED_V : Fld := ⟨0x90064, 31, 0⟩
abbrev EV_CNT_DROP_STAGE : Nat := 0x90068
abbrev fEV_CNT_DROP_STAGE_V : Fld := ⟨0x90068, 31, 0⟩
abbrev EV_CNT_DROP_TOLL : Nat := 0x9006C
abbrev fEV_CNT_DROP_TOLL_V : Fld := ⟨0x9006C, 31, 0⟩
abbrev EV_CNT_LADDER : Nat := 0x90070
abbrev fEV_CNT_LADDER_V : Fld := ⟨0x90070, 31, 0⟩
abbrev EV_CNT_UNCORR : Nat := 0x90074
abbrev fEV_CNT_UNCORR_V : Fld := ⟨0x90074, 31, 0⟩
abbrev EV_CNT_REFRESH : Nat := 0x90078
abbrev fEV_CNT_REFRESH_V : Fld := ⟨0x90078, 31, 0⟩
abbrev EV_CNT_GROWN_BAD : Nat := 0x9007C
abbrev fEV_CNT_GROWN_BAD_V : Fld := ⟨0x9007C, 31, 0⟩
abbrev EV_EVT : Nat := 0x90090
abbrev fEV_EVT_REPLACE : Fld := ⟨0x90090, 6, 6⟩
abbrev fEV_EVT_REFUSED : Fld := ⟨0x90090, 5, 5⟩
abbrev fEV_EVT_GROWN_BAD : Fld := ⟨0x90090, 4, 4⟩
abbrev fEV_EVT_UNCORR : Fld := ⟨0x90090, 3, 3⟩
abbrev fEV_EVT_DROP : Fld := ⟨0x90090, 2, 2⟩
abbrev fEV_EVT_REFRESH : Fld := ⟨0x90090, 1, 1⟩
abbrev fEV_EVT_PATROL_DONE : Fld := ⟨0x90090, 0, 0⟩
abbrev EV_EVT_EN : Nat := 0x90094
abbrev fEV_EVT_EN_ALL : Fld := ⟨0x90094, 6, 0⟩
/-! Names of block SL. -/
abbrev SL_CTL : Nat := 0xA0000
abbrev fSL_CTL_EN : Fld := ⟨0xA0000, 31, 31⟩
abbrev fSL_CTL_RETRAIN : Fld := ⟨0xA0000, 30, 30⟩
abbrev fSL_CTL_FULL : Fld := ⟨0xA0000, 29, 29⟩
abbrev fSL_CTL_RATE_EN : Fld := ⟨0xA0000, 27, 24⟩
abbrev fSL_CTL_LANE_EN : Fld := ⟨0xA0000, 19, 16⟩
abbrev SL_TMO : Nat := 0xA0004
abbrev fSL_TMO_DETECT_PER : Fld := ⟨0xA0004, 31, 24⟩
abbrev fSL_TMO_TRAIN : Fld := ⟨0xA0004, 23, 16⟩
abbrev fSL_TMO_LOCK : Fld := ⟨0xA0004, 15, 8⟩
abbrev fSL_TMO_EXCH : Fld := ⟨0xA0004, 7, 0⟩
abbrev SL_ERR_THR : Nat := 0xA0008
abbrev fSL_ERR_THR_THR : Fld := ⟨0xA0008, 15, 0⟩
abbrev SL_PHY_CTL : Nat := 0xA000C
abbrev fSL_PHY_CTL_TX_INV : Fld := ⟨0xA000C, 3, 0⟩
abbrev SL_STAT : Nat := 0xA0010
abbrev fSL_STAT_STATE : Fld := ⟨0xA0010, 31, 28⟩
abbrev fSL_STAT_RATE : Fld := ⟨0xA0010, 27, 26⟩
abbrev fSL_STAT_COUNT : Fld := ⟨0xA0010, 25, 24⟩
abbrev fSL_STAT_LANE_MAP : Fld := ⟨0xA0010, 23, 16⟩
abbrev fSL_STAT_VER : Fld := ⟨0xA0010, 7, 0⟩
abbrev SL_PARTNER0 : Nat := 0xA0014
abbrev fSL_PARTNER0_V : Fld := ⟨0xA0014, 31, 0⟩
abbrev SL_PARTNER1 : Nat := 0xA0018
abbrev fSL_PARTNER1_V : Fld := ⟨0xA0018, 31, 0⟩
abbrev SL_PARTNER_SN : Nat := 0xA001C
abbrev fSL_PARTNER_SN_V : Fld := ⟨0xA001C, 31, 0⟩
abbrev SL_LANE_STAT : Nat := 0xA0020
abbrev fSL_LANE_STAT_BIT_LOCK : Fld := ⟨0xA0020, 31, 31⟩
abbrev fSL_LANE_STAT_SYM_LOCK : Fld := ⟨0xA0020, 30, 30⟩
abbrev fSL_LANE_STAT_RX_INV : Fld := ⟨0xA0020, 29, 29⟩
abbrev fSL_LANE_STAT_FAILED : Fld := ⟨0xA0020, 28, 28⟩
abbrev fSL_LANE_STAT_USED : Fld := ⟨0xA0020, 27, 27⟩
abbrev fSL_LANE_STAT_PLANE : Fld := ⟨0xA0020, 25, 24⟩
abbrev SL_CNT_CV : Nat := 0xA0040
abbrev fSL_CNT_CV_V : Fld := ⟨0xA0040, 31, 0⟩
abbrev SL_CNT_DISP : Nat := 0xA0050
abbrev fSL_CNT_DISP_V : Fld := ⟨0xA0050, 31, 0⟩
abbrev SL_CNT_RETRAIN : Nat := 0xA0060
abbrev fSL_CNT_RETRAIN_V : Fld := ⟨0xA0060, 31, 0⟩
abbrev SL_CNT_DOWN : Nat := 0xA0064
abbrev fSL_CNT_DOWN_V : Fld := ⟨0xA0064, 31, 0⟩
abbrev SL_CNT_OS_ERR : Nat := 0xA0068
abbrev fSL_CNT_OS_ERR_V : Fld := ⟨0xA0068, 31, 0⟩
abbrev SL_CNT_ABORT : Nat := 0xA006C
abbrev fSL_CNT_ABORT_V : Fld := ⟨0xA006C, 31, 0⟩
abbrev SL_CNT_SKIP_ADJ : Nat := 0xA0070
abbrev fSL_CNT_SKIP_ADJ_V : Fld := ⟨0xA0070, 31, 0⟩
abbrev SL_CNT_TMO : Nat := 0xA0074
abbrev fSL_CNT_TMO_V : Fld := ⟨0xA0074, 31, 0⟩
abbrev SL_EVT : Nat := 0xA0080
abbrev fSL_EVT_EYE_DONE : Fld := ⟨0xA0080, 5, 5⟩
abbrev fSL_EVT_VER_MISMATCH : Fld := ⟨0xA0080, 4, 4⟩
abbrev fSL_EVT_TMO : Fld := ⟨0xA0080, 3, 3⟩
abbrev fSL_EVT_LANE_FAIL : Fld := ⟨0xA0080, 2, 2⟩
abbrev fSL_EVT_DOWN : Fld := ⟨0xA0080, 1, 1⟩
abbrev fSL_EVT_UP : Fld := ⟨0xA0080, 0, 0⟩
abbrev SL_EVT_EN : Nat := 0xA0084
abbrev fSL_EVT_EN_ALL : Fld := ⟨0xA0084, 5, 0⟩
abbrev SL_EYE_CTL : Nat := 0xA0100
abbrev fSL_EYE_CTL_START : Fld := ⟨0xA0100, 31, 31⟩
abbrev fSL_EYE_CTL_BUSY : Fld := ⟨0xA0100, 30, 30⟩
abbrev fSL_EYE_CTL_ABORT : Fld := ⟨0xA0100, 29, 29⟩
abbrev fSL_EYE_CTL_LANE : Fld := ⟨0xA0100, 27, 26⟩
abbrev fSL_EYE_CTL_H : Fld := ⟨0xA0100, 25, 20⟩
abbrev fSL_EYE_CTL_V : Fld := ⟨0xA0100, 19, 13⟩
abbrev fSL_EYE_CTL_DWELL : Fld := ⟨0xA0100, 5, 0⟩
abbrev SL_EYE_BITS_LO : Nat := 0xA0104
abbrev fSL_EYE_BITS_LO_V : Fld := ⟨0xA0104, 31, 0⟩
abbrev SL_EYE_BITS_HI : Nat := 0xA0108
abbrev fSL_EYE_BITS_HI_V : Fld := ⟨0xA0108, 15, 0⟩
abbrev SL_EYE_ERR_LO : Nat := 0xA010C
abbrev fSL_EYE_ERR_LO_V : Fld := ⟨0xA010C, 31, 0⟩
abbrev SL_EYE_ERR_HI : Nat := 0xA0110
abbrev fSL_EYE_ERR_HI_V : Fld := ⟨0xA0110, 15, 0⟩
/-! Names of block SN. -/
abbrev SN_CTL : Nat := 0xB0000
abbrev fSN_CTL_EN : Fld := ⟨0xB0000, 31, 31⟩
abbrev fSN_CTL_AUTO_NUM : Fld := ⟨0xB0000, 30, 30⟩
abbrev fSN_CTL_TTL : Fld := ⟨0xB0000, 25, 16⟩
abbrev fSN_CTL_ENUM_TMO : Fld := ⟨0xB0000, 15, 8⟩
abbrev SN_PIER : Nat := 0xB0004
abbrev fSN_PIER_VALID : Fld := ⟨0xB0004, 31, 31⟩
abbrev fSN_PIER_KEYSTONE : Fld := ⟨0xB0004, 30, 30⟩
abbrev fSN_PIER_TRANSPARENT : Fld := ⟨0xB0004, 29, 29⟩
abbrev fSN_PIER_FLIP : Fld := ⟨0xB0004, 28, 28⟩
abbrev fSN_PIER_UPSTREAM : Fld := ⟨0xB0004, 27, 26⟩
abbrev fSN_PIER_HOPS : Fld := ⟨0xB0004, 25, 16⟩
abbrev fSN_PIER_PIER_ID : Fld := ⟨0xB0004, 9, 0⟩
abbrev SN_CHAIN : Nat := 0xB0008
abbrev fSN_CHAIN_EPOCH : Fld := ⟨0xB0008, 31, 16⟩
abbrev fSN_CHAIN_FLOOR : Fld := ⟨0xB0008, 15, 8⟩
abbrev SN_NEXT : Nat := 0xB000C
abbrev fSN_NEXT_FREE : Fld := ⟨0xB000C, 10, 0⟩
abbrev SN_HOST : Nat := 0xB0010
abbrev fSN_HOST_AUTO : Fld := ⟨0xB0010, 31, 31⟩
abbrev fSN_HOST_VALID : Fld := ⟨0xB0010, 30, 30⟩
abbrev fSN_HOST_PIER : Fld := ⟨0xB0010, 9, 0⟩
abbrev SN_EVT : Nat := 0xB0040
abbrev fSN_EVT_NUM_EXHAUST : Fld := ⟨0xB0040, 7, 7⟩
abbrev fSN_EVT_DUAL_KEYSTONE : Fld := ⟨0xB0040, 6, 6⟩
abbrev fSN_EVT_CONFLICT : Fld := ⟨0xB0040, 5, 5⟩
abbrev fSN_EVT_CHAIN : Fld := ⟨0xB0040, 4, 4⟩
abbrev fSN_EVT_AUDIT : Fld := ⟨0xB0040, 3, 3⟩
abbrev fSN_EVT_CRED_ERR : Fld := ⟨0xB0040, 2, 2⟩
abbrev fSN_EVT_PIER : Fld := ⟨0xB0040, 1, 1⟩
abbrev fSN_EVT_DROP : Fld := ⟨0xB0040, 0, 0⟩
abbrev SN_EVT_EN : Nat := 0xB0044
abbrev fSN_EVT_EN_ALL : Fld := ⟨0xB0044, 7, 0⟩
abbrev SN_GRANT01 : Nat := 0xB0100
abbrev fSN_GRANT01_TIME : Fld := ⟨0xB0100, 31, 16⟩
abbrev fSN_GRANT01_MGMT : Fld := ⟨0xB0100, 15, 0⟩
abbrev SN_GRANT23 : Nat := 0xB0104
abbrev fSN_GRANT23_MATE : Fld := ⟨0xB0104, 31, 16⟩
abbrev fSN_GRANT23_TILE : Fld := ⟨0xB0104, 15, 0⟩
abbrev SN_GRANT45 : Nat := 0xB0108
abbrev fSN_GRANT45_BULK : Fld := ⟨0xB0108, 31, 16⟩
abbrev fSN_GRANT45_ACT : Fld := ⟨0xB0108, 15, 0⟩
abbrev SN_AVAIL01 : Nat := 0xB010C
abbrev fSN_AVAIL01_TIME : Fld := ⟨0xB010C, 31, 16⟩
abbrev fSN_AVAIL01_MGMT : Fld := ⟨0xB010C, 15, 0⟩
abbrev SN_AVAIL23 : Nat := 0xB0110
abbrev fSN_AVAIL23_MATE : Fld := ⟨0xB0110, 31, 16⟩
abbrev fSN_AVAIL23_TILE : Fld := ⟨0xB0110, 15, 0⟩
abbrev SN_AVAIL45 : Nat := 0xB0114
abbrev fSN_AVAIL45_BULK : Fld := ⟨0xB0114, 31, 16⟩
abbrev fSN_AVAIL45_ACT : Fld := ⟨0xB0114, 15, 0⟩
abbrev SN_PARTNER : Nat := 0xB0118
abbrev fSN_PARTNER_PIER_VALID : Fld := ⟨0xB0118, 31, 31⟩
abbrev fSN_PARTNER_PIER : Fld := ⟨0xB0118, 25, 16⟩
abbrev fSN_PARTNER_FLOOR : Fld := ⟨0xB0118, 7, 0⟩
abbrev SN_CNT_TX : Nat := 0xB0120
abbrev fSN_CNT_TX_V : Fld := ⟨0xB0120, 31, 0⟩
abbrev SN_CNT_RX : Nat := 0xB0124
abbrev fSN_CNT_RX_V : Fld := ⟨0xB0124, 31, 0⟩
abbrev SN_CNT_FWD : Nat := 0xB0128
abbrev fSN_CNT_FWD_V : Fld := ⟨0xB0128, 31, 0⟩
abbrev SN_CNT_HCRC : Nat := 0xB012C
abbrev fSN_CNT_HCRC_V : Fld := ⟨0xB012C, 31, 0⟩
abbrev SN_CNT_LEN : Nat := 0xB0130
abbrev fSN_CNT_LEN_V : Fld := ⟨0xB0130, 31, 0⟩
abbrev SN_CNT_CRC : Nat := 0xB0134
abbrev fSN_CNT_CRC_V : Fld := ⟨0xB0134, 31, 0⟩
abbrev SN_CNT_NOROUTE : Nat := 0xB0138
abbrev fSN_CNT_NOROUTE_V : Fld := ⟨0xB0138, 31, 0⟩
abbrev SN_CNT_CRED_ERR : Nat := 0xB013C
abbrev fSN_CNT_CRED_ERR_V : Fld := ⟨0xB013C, 31, 0⟩
abbrev SN_CNT_AUDIT : Nat := 0xB0140
abbrev fSN_CNT_AUDIT_V : Fld := ⟨0xB0140, 31, 0⟩
abbrev SN_CNT_DROP_DOWN : Nat := 0xB0144
abbrev fSN_CNT_DROP_DOWN_V : Fld := ⟨0xB0144, 31, 0⟩
abbrev SN_CNT_EPOCH : Nat := 0xB0148
abbrev fSN_CNT_EPOCH_V : Fld := ⟨0xB0148, 31, 0⟩
abbrev SN_ROUTE : Nat := 0xB0400
abbrev fSN_ROUTE_V : Fld := ⟨0xB0400, 31, 0⟩
/-! Names of block AC. -/
abbrev AC_CTL : Nat := 0xC0000
abbrev fAC_CTL_EN : Fld := ⟨0xC0000, 31, 31⟩
abbrev fAC_CTL_REMOTE_EN : Fld := ⟨0xC0000, 30, 30⟩
abbrev fAC_CTL_FIRE_ON : Fld := ⟨0xC0000, 29, 29⟩
abbrev fAC_CTL_VALVES : Fld := ⟨0xC0000, 13, 0⟩
abbrev AC_TIMING : Nat := 0xC0004
abbrev fAC_TIMING_LEAD : Fld := ⟨0xC0004, 31, 16⟩
abbrev AC_MARGIN : Nat := 0xC0008
abbrev fAC_MARGIN_M_TRAIL : Fld := ⟨0xC0008, 31, 16⟩
abbrev fAC_MARGIN_M_LEAD : Fld := ⟨0xC0008, 15, 0⟩
abbrev AC_VMARGIN : Nat := 0xC000C
abbrev fAC_VMARGIN_V : Fld := ⟨0xC000C, 7, 0⟩
abbrev AC_DUR : Nat := 0xC0010
abbrev fAC_DUR_MAX : Fld := ⟨0xC0010, 31, 16⟩
abbrev fAC_DUR_MIN : Fld := ⟨0xC0010, 15, 0⟩
abbrev AC_NBR : Nat := 0xC0014
abbrev fAC_NBR_E_VALID : Fld := ⟨0xC0014, 31, 31⟩
abbrev fAC_NBR_E_VALVES : Fld := ⟨0xC0014, 29, 16⟩
abbrev fAC_NBR_W_VALID : Fld := ⟨0xC0014, 15, 15⟩
abbrev fAC_NBR_W_VALVES : Fld := ⟨0xC0014, 13, 0⟩
abbrev AC_STAT : Nat := 0xC0018
abbrev fAC_STAT_SAFE : Fld := ⟨0xC0018, 31, 31⟩
abbrev fAC_STAT_PARTS : Fld := ⟨0xC0018, 14, 0⟩
abbrev AC_CNT_ORDER : Nat := 0xC0020
abbrev fAC_CNT_ORDER_V : Fld := ⟨0xC0020, 31, 0⟩
abbrev AC_CNT_FIRED : Nat := 0xC0024
abbrev fAC_CNT_FIRED_V : Fld := ⟨0xC0024, 31, 0⟩
abbrev AC_CNT_LATE : Nat := 0xC0028
abbrev fAC_CNT_LATE_V : Fld := ⟨0xC0028, 31, 0⟩
abbrev AC_CNT_FULL : Nat := 0xC002C
abbrev fAC_CNT_FULL_V : Fld := ⟨0xC002C, 31, 0⟩
abbrev AC_CNT_EVICT : Nat := 0xC0030
abbrev fAC_CNT_EVICT_V : Fld := ⟨0xC0030, 31, 0⟩
abbrev AC_CNT_NOMODEL : Nat := 0xC0034
abbrev fAC_CNT_NOMODEL_V : Fld := ⟨0xC0034, 31, 0⟩
abbrev AC_CNT_NOVALVE : Nat := 0xC0038
abbrev fAC_CNT_NOVALVE_V : Fld := ⟨0xC0038, 31, 0⟩
abbrev AC_CNT_CANCEL : Nat := 0xC003C
abbrev fAC_CNT_CANCEL_V : Fld := ⟨0xC003C, 31, 0⟩
abbrev AC_CNT_ACT_TX : Nat := 0xC0040
abbrev fAC_CNT_ACT_TX_V : Fld := ⟨0xC0040, 31, 0⟩
abbrev AC_CNT_ACT_RX : Nat := 0xC0044
abbrev fAC_CNT_ACT_RX_V : Fld := ⟨0xC0044, 31, 0⟩
abbrev AC_CNT_ACT_REFUSED : Nat := 0xC0048
abbrev fAC_CNT_ACT_REFUSED_V : Fld := ⟨0xC0048, 31, 0⟩
abbrev AC_CNT_ACT_TMO : Nat := 0xC004C
abbrev fAC_CNT_ACT_TMO_V : Fld := ⟨0xC004C, 31, 0⟩
abbrev AC_CNT_CLIP : Nat := 0xC0050
abbrev fAC_CNT_CLIP_V : Fld := ⟨0xC0050, 31, 0⟩
abbrev AC_CNT_TEST : Nat := 0xC0054
abbrev fAC_CNT_TEST_V : Fld := ⟨0xC0054, 31, 0⟩
abbrev AC_EVT : Nat := 0xC0060
abbrev fAC_EVT_SAFE : Fld := ⟨0xC0060, 5, 5⟩
abbrev fAC_EVT_BOARD : Fld := ⟨0xC0060, 4, 4⟩
abbrev fAC_EVT_ACT_REFUSED : Fld := ⟨0xC0060, 3, 3⟩
abbrev fAC_EVT_SLIP : Fld := ⟨0xC0060, 2, 2⟩
abbrev fAC_EVT_REFUSED : Fld := ⟨0xC0060, 1, 1⟩
abbrev fAC_EVT_CANCEL : Fld := ⟨0xC0060, 0, 0⟩
abbrev AC_EVT_EN : Nat := 0xC0064
abbrev fAC_EVT_EN_ALL : Fld := ⟨0xC0064, 5, 0⟩
abbrev AC_BOARD : Nat := 0xC0100
abbrev fAC_BOARD_EN : Fld := ⟨0xC0100, 31, 31⟩
abbrev fAC_BOARD_BUS : Fld := ⟨0xC0100, 30, 29⟩
abbrev fAC_BOARD_ADDR : Fld := ⟨0xC0100, 28, 24⟩
abbrev fAC_BOARD_REVERSE : Fld := ⟨0xC0100, 23, 23⟩
abbrev fAC_BOARD_COUNT : Fld := ⟨0xC0100, 22, 16⟩
abbrev fAC_BOARD_FIRST : Fld := ⟨0xC0100, 12, 0⟩
abbrev AC_BUS_CTL : Nat := 0xC0400
abbrev fAC_BUS_CTL_EN : Fld := ⟨0xC0400, 31, 31⟩
abbrev fAC_BUS_CTL_SAFE : Fld := ⟨0xC0400, 30, 30⟩
abbrev fAC_BUS_CTL_POLL_EN : Fld := ⟨0xC0400, 29, 29⟩
abbrev fAC_BUS_CTL_VMAX : Fld := ⟨0xC0400, 28, 27⟩
abbrev fAC_BUS_CTL_WAS_EN : Fld := ⟨0xC0400, 26, 26⟩
abbrev fAC_BUS_CTL_POLL_MS : Fld := ⟨0xC0400, 23, 16⟩
abbrev fAC_BUS_CTL_COAL : Fld := ⟨0xC0400, 11, 0⟩
abbrev AC_QSTAT : Nat := 0xC0404
abbrev fAC_QSTAT_FULL : Fld := ⟨0xC0404, 31, 31⟩
abbrev fAC_QSTAT_PARTS : Fld := ⟨0xC0404, 12, 0⟩
abbrev AC_QNEXT : Nat := 0xC0408
abbrev fAC_QNEXT_V : Fld := ⟨0xC0408, 31, 0⟩
abbrev AC_SLIP_MAX : Nat := 0xC040C
abbrev fAC_SLIP_MAX_V : Fld := ⟨0xC040C, 31, 0⟩
abbrev AC_BUS_CNT_FRAMES : Nat := 0xC0410
abbrev fAC_BUS_CNT_FRAMES_V : Fld := ⟨0xC0410, 31, 0⟩
abbrev AC_BUS_CNT_SLIP : Nat := 0xC0414
abbrev fAC_BUS_CNT_SLIP_V : Fld := ⟨0xC0414, 31, 0⟩
abbrev AC_BUS_CNT_COAL : Nat := 0xC0418
abbrev fAC_BUS_CNT_COAL_V : Fld := ⟨0xC0418, 31, 0⟩
abbrev AC_BUS_CNT_POLL_MISS : Nat := 0xC041C
abbrev fAC_BUS_CNT_POLL_MISS_V : Fld := ⟨0xC041C, 31, 0⟩
abbrev AC_BUS_CNT_STATUS_ERR : Nat := 0xC0420
abbrev fAC_BUS_CNT_STATUS_ERR_V : Fld := ⟨0xC0420, 31, 0⟩
abbrev AC_BSTAT : Nat := 0xC0800
abbrev fAC_BSTAT_SEEN : Fld := ⟨0xC0800, 31, 31⟩
abbrev fAC_BSTAT_VER : Fld := ⟨0xC0800, 27, 24⟩
abbrev fAC_BSTAT_FLAGS : Fld := ⟨0xC0800, 23, 16⟩
abbrev fAC_BSTAT_TEMP : Fld := ⟨0xC0800, 15, 8⟩
abbrev AC_BFAULT_LO : Nat := 0xC0C00
abbrev fAC_BFAULT_LO_V : Fld := ⟨0xC0C00, 31, 0⟩
abbrev AC_BFAULT_HI : Nat := 0xC0C04
abbrev fAC_BFAULT_HI_V : Fld := ⟨0xC0C04, 31, 0⟩
abbrev AC_XMDL_CTL : Nat := 0xC1000
abbrev fAC_XMDL_CTL_EN : Fld := ⟨0xC1000, 31, 31⟩
abbrev AC_XMDL_A : Nat := 0xC1004
abbrev fAC_XMDL_A_V : Fld := ⟨0xC1004, 31, 0⟩
abbrev AC_XMDL_B : Nat := 0xC1008
abbrev fAC_XMDL_B_V : Fld := ⟨0xC1008, 31, 0⟩
/-! Names of block TL. -/
abbrev TL_CTL : Nat := 0xD0000
abbrev fTL_CTL_EN : Fld := ⟨0xD0000, 31, 31⟩
abbrev fTL_CTL_DEST : Fld := ⟨0xD0000, 30, 30⟩
abbrev fTL_CTL_ACK_TMO : Fld := ⟨0xD0000, 15, 0⟩
abbrev TL_STAT : Nat := 0xD0004
abbrev fTL_STAT_PENDING : Fld := ⟨0xD0004, 17, 0⟩
abbrev TL_ROUTE : Nat := 0xD0010
abbrev fTL_ROUTE_EN : Fld := ⟨0xD0010, 31, 31⟩
abbrev fTL_ROUTE_FMT : Fld := ⟨0xD0010, 30, 29⟩
abbrev fTL_ROUTE_MASK : Fld := ⟨0xD0010, 28, 28⟩
abbrev fTL_ROUTE_FEAT : Fld := ⟨0xD0010, 27, 27⟩
abbrev fTL_ROUTE_OVERSIZE : Fld := ⟨0xD0010, 26, 25⟩
abbrev fTL_ROUTE_MARGIN : Fld := ⟨0xD0010, 24, 19⟩
abbrev fTL_ROUTE_RING_ALT : Fld := ⟨0xD0010, 18, 13⟩
abbrev fTL_ROUTE_RING : Fld := ⟨0xD0010, 12, 7⟩
abbrev fTL_ROUTE_ALT_MASK : Fld := ⟨0xD0010, 4, 0⟩
abbrev TL_STAGE : Nat := 0xD0050
abbrev fTL_STAGE_LINES : Fld := ⟨0xD0050, 12, 0⟩
abbrev TL_CNT_PRODUCED : Nat := 0xD00A0
abbrev fTL_CNT_PRODUCED_V : Fld := ⟨0xD00A0, 31, 0⟩
abbrev TL_CNT_DELIVERED : Nat := 0xD00A4
abbrev fTL_CNT_DELIVERED_V : Fld := ⟨0xD00A4, 31, 0⟩
abbrev TL_CNT_DROP_STAGE : Nat := 0xD00A8
abbrev fTL_CNT_DROP_STAGE_V : Fld := ⟨0xD00A8, 31, 0⟩
abbrev TL_CNT_DROP_TOLL : Nat := 0xD00AC
abbrev fTL_CNT_DROP_TOLL_V : Fld := ⟨0xD00AC, 31, 0⟩
abbrev TL_CNT_DROP_OVERSIZE : Nat := 0xD00B0
abbrev fTL_CNT_DROP_OVERSIZE_V : Fld := ⟨0xD00B0, 31, 0⟩
abbrev TL_CNT_DROP_RING : Nat := 0xD00B4
abbrev fTL_CNT_DROP_RING_V : Fld := ⟨0xD00B4, 31, 0⟩
abbrev TL_CNT_DROP_PAUSE : Nat := 0xD00B8
abbrev fTL_CNT_DROP_PAUSE_V : Fld := ⟨0xD00B8, 31, 0⟩
abbrev TL_CNT_DROP_SPAN : Nat := 0xD00BC
abbrev fTL_CNT_DROP_SPAN_V : Fld := ⟨0xD00BC, 31, 0⟩
abbrev TL_CNT_VERDICT : Nat := 0xD00C0
abbrev fTL_CNT_VERDICT_V : Fld := ⟨0xD00C0, 31, 0⟩
abbrev TL_CNT_LATE : Nat := 0xD00C4
abbrev fTL_CNT_LATE_V : Fld := ⟨0xD00C4, 31, 0⟩
abbrev TL_CNT_DUP : Nat := 0xD00C8
abbrev fTL_CNT_DUP_V : Fld := ⟨0xD00C8, 31, 0⟩
abbrev TL_CNT_BAD : Nat := 0xD00CC
abbrev fTL_CNT_BAD_V : Fld := ⟨0xD00CC, 31, 0⟩
abbrev TL_CNT_DEFAULT : Nat := 0xD00D0
abbrev fTL_CNT_DEFAULT_V : Fld := ⟨0xD00D0, 31, 0⟩
abbrev TL_EVT : Nat := 0xD00E0
abbrev fTL_EVT_DB_ERR : Fld := ⟨0xD00E0, 4, 4⟩
abbrev fTL_EVT_BAD : Fld := ⟨0xD00E0, 3, 3⟩
abbrev fTL_EVT_LATE : Fld := ⟨0xD00E0, 2, 2⟩
abbrev fTL_EVT_DEFAULT : Fld := ⟨0xD00E0, 1, 1⟩
abbrev fTL_EVT_TILE_DROP : Fld := ⟨0xD00E0, 0, 0⟩
abbrev TL_EVT_EN : Nat := 0xD00E4
abbrev fTL_EVT_EN_ALL : Fld := ⟨0xD00E4, 4, 0⟩
abbrev TL_TR_CTL : Nat := 0xD1000
abbrev fTL_TR_CTL_EN : Fld := ⟨0xD1000, 31, 31⟩
abbrev fTL_TR_CTL_INT : Fld := ⟨0xD1000, 30, 30⟩
abbrev fTL_TR_CTL_BUSY : Fld := ⟨0xD1000, 29, 29⟩
abbrev fTL_TR_CTL_ASIZE : Fld := ⟨0xD1000, 12, 8⟩
abbrev fTL_TR_CTL_SIZE : Fld := ⟨0xD1000, 3, 0⟩
abbrev TL_TR_DESC_LO : Nat := 0xD1004
abbrev fTL_TR_DESC_LO_BASE : Fld := ⟨0xD1004, 31, 6⟩
abbrev TL_TR_DESC_HI : Nat := 0xD1008
abbrev fTL_TR_DESC_HI_V : Fld := ⟨0xD1008, 31, 0⟩
abbrev TL_TR_ARENA_LO : Nat := 0xD100C
abbrev fTL_TR_ARENA_LO_BASE : Fld := ⟨0xD100C, 31, 12⟩
abbrev TL_TR_ARENA_HI : Nat := 0xD1010
abbrev fTL_TR_ARENA_HI_V : Fld := ⟨0xD1010, 31, 0⟩
abbrev TL_TR_SEQ : Nat := 0xD1014
abbrev fTL_TR_SEQ_V : Fld := ⟨0xD1014, 31, 0⟩
abbrev TL_TR_CONS : Nat := 0xD1018
abbrev fTL_TR_CONS_V : Fld := ⟨0xD1018, 31, 0⟩
abbrev TL_TR_ARENA_PROD : Nat := 0xD101C
abbrev fTL_TR_ARENA_PROD_V : Fld := ⟨0xD101C, 31, 0⟩
abbrev TL_TR_ARENA_CONS : Nat := 0xD1020
abbrev fTL_TR_ARENA_CONS_V : Fld := ⟨0xD1020, 31, 0⟩
abbrev TL_TR_CNT_DONE : Nat := 0xD1024
abbrev fTL_TR_CNT_DONE_V : Fld := ⟨0xD1024, 31, 0⟩
abbrev TL_TR_CNT_DROP : Nat := 0xD1028
abbrev fTL_TR_CNT_DROP_V : Fld := ⟨0xD1028, 31, 0⟩
abbrev TL_TR_CNT_NOSPACE : Nat := 0xD102C
abbrev fTL_TR_CNT_NOSPACE_V : Fld := ⟨0xD102C, 31, 0⟩
abbrev TL_TR_EVT : Nat := 0xD1030
abbrev fTL_TR_EVT_CONS_ERR : Fld := ⟨0xD1030, 3, 3⟩
abbrev fTL_TR_EVT_NOSPACE : Fld := ⟨0xD1030, 2, 2⟩
abbrev fTL_TR_EVT_DROPPED : Fld := ⟨0xD1030, 1, 1⟩
abbrev fTL_TR_EVT_DONE : Fld := ⟨0xD1030, 0, 0⟩
abbrev TL_TR_EVT_EN : Nat := 0xD1034
abbrev fTL_TR_EVT_EN_ALL : Fld := ⟨0xD1034, 3, 0⟩
abbrev TL_VR_CTL : Nat := 0xD2000
abbrev fTL_VR_CTL_EN : Fld := ⟨0xD2000, 31, 31⟩
abbrev fTL_VR_CTL_SIZE : Fld := ⟨0xD2000, 3, 0⟩
abbrev TL_VR_BASE_LO : Nat := 0xD2004
abbrev fTL_VR_BASE_LO_BASE : Fld := ⟨0xD2004, 31, 6⟩
abbrev TL_VR_BASE_HI : Nat := 0xD2008
abbrev fTL_VR_BASE_HI_V : Fld := ⟨0xD2008, 31, 0⟩
abbrev TL_VR_TAIL : Nat := 0xD200C
abbrev fTL_VR_TAIL_V : Fld := ⟨0xD200C, 11, 0⟩
abbrev TL_VR_HEAD : Nat := 0xD2010
abbrev fTL_VR_HEAD_V : Fld := ⟨0xD2010, 11, 0⟩
abbrev TL_VR_HWB_LO : Nat := 0xD2014
abbrev fTL_VR_HWB_LO_ADDR : Fld := ⟨0xD2014, 31, 6⟩
abbrev fTL_VR_HWB_LO_EN : Fld := ⟨0xD2014, 0, 0⟩
abbrev TL_VR_HWB_HI : Nat := 0xD2018
abbrev fTL_VR_HWB_HI_V : Fld := ⟨0xD2018, 31, 0⟩
abbrev TL_VR_CNT_TAKEN : Nat := 0xD201C
abbrev fTL_VR_CNT_TAKEN_V : Fld := ⟨0xD201C, 31, 0⟩
/-! Names of block VW. -/
abbrev VW_CTL : Nat := 0xE0000
abbrev fVW_CTL_EN : Fld := ⟨0xE0000, 31, 31⟩
abbrev fVW_CTL_REMOTE_EN : Fld := ⟨0xE0000, 30, 30⟩
abbrev fVW_CTL_REMOTE_WAIT : Fld := ⟨0xE0000, 15, 0⟩
abbrev VW_STAT : Nat := 0xE0004
abbrev fVW_STAT_TB_OK : Fld := ⟨0xE0004, 31, 31⟩
abbrev fVW_STAT_SETS : Fld := ⟨0xE0004, 11, 0⟩
abbrev VW_CNT_SET : Nat := 0xE0010
abbrev fVW_CNT_SET_V : Fld := ⟨0xE0010, 31, 0⟩
abbrev VW_CNT_SINGLE : Nat := 0xE0014
abbrev fVW_CNT_SINGLE_V : Fld := ⟨0xE0014, 31, 0⟩
abbrev VW_CNT_FULL : Nat := 0xE0018
abbrev fVW_CNT_FULL_V : Fld := ⟨0xE0018, 31, 0⟩
abbrev VW_CNT_UNMAPPED : Nat := 0xE001C
abbrev fVW_CNT_UNMAPPED_V : Fld := ⟨0xE001C, 31, 0⟩
abbrev VW_CNT_UNSYNC : Nat := 0xE0020
abbrev fVW_CNT_UNSYNC_V : Fld := ⟨0xE0020, 31, 0⟩
abbrev VW_CNT_WITHDRAW : Nat := 0xE0024
abbrev fVW_CNT_WITHDRAW_V : Fld := ⟨0xE0024, 31, 0⟩
abbrev VW_CNT_WITHDRAW_LATE : Nat := 0xE0028
abbrev fVW_CNT_WITHDRAW_LATE_V : Fld := ⟨0xE0028, 31, 0⟩
abbrev VW_EVT : Nat := 0xE0040
abbrev fVW_EVT_WITHDRAW_LATE : Fld := ⟨0xE0040, 3, 3⟩
abbrev fVW_EVT_UNSYNC : Fld := ⟨0xE0040, 2, 2⟩
abbrev fVW_EVT_FULL : Fld := ⟨0xE0040, 1, 1⟩
abbrev fVW_EVT_CFG_WR : Fld := ⟨0xE0040, 0, 0⟩
abbrev VW_EVT_EN : Nat := 0xE0044
abbrev fVW_EVT_EN_ALL : Fld := ⟨0xE0044, 3, 0⟩
abbrev VW_GRP_CTL : Nat := 0xE0100
abbrev fVW_GRP_CTL_EN : Fld := ⟨0xE0100, 31, 31⟩
abbrev fVW_GRP_CTL_DEFAULT : Fld := ⟨0xE0100, 30, 30⟩
abbrev fVW_GRP_CTL_W_A : Fld := ⟨0xE0100, 23, 16⟩
abbrev fVW_GRP_CTL_W_T : Fld := ⟨0xE0100, 15, 8⟩
abbrev fVW_GRP_CTL_W_X : Fld := ⟨0xE0100, 7, 0⟩
abbrev VW_GRP_HOLD : Nat := 0xE0104
abbrev fVW_GRP_HOLD_US : Fld := ⟨0xE0104, 15, 0⟩
abbrev VW_GRP_DEADLINE : Nat := 0xE0108
abbrev fVW_GRP_DEADLINE_US : Fld := ⟨0xE0108, 23, 0⟩
abbrev VW_GRP_STAT : Nat := 0xE010C
abbrev fVW_GRP_STAT_SETS : Fld := ⟨0xE010C, 11, 0⟩
abbrev VW_VIEW : Nat := 0xE0200
abbrev fVW_VIEW_EN : Fld := ⟨0xE0200, 31, 31⟩
abbrev fVW_VIEW_SIDE : Fld := ⟨0xE0200, 30, 29⟩
abbrev fVW_VIEW_PORT : Fld := ⟨0xE0200, 19, 16⟩
abbrev fVW_VIEW_X0 : Fld := ⟨0xE0200, 13, 0⟩
abbrev VW_VIEW_X1 : Nat := 0xE0204
abbrev fVW_VIEW_X1_X1 : Fld := ⟨0xE0204, 13, 0⟩
abbrev VW_PMAP : Nat := 0xE0400
abbrev fVW_PMAP_EN : Fld := ⟨0xE0400, 31, 31⟩
abbrev fVW_PMAP_HOME : Fld := ⟨0xE0400, 30, 29⟩
abbrev fVW_PMAP_GROUP : Fld := ⟨0xE0400, 26, 24⟩
abbrev fVW_PMAP_VIEW : Fld := ⟨0xE0400, 23, 22⟩
abbrev fVW_PMAP_X0 : Fld := ⟨0xE0400, 13, 0⟩
abbrev VW_PMAP_X1 : Nat := 0xE0404
abbrev fVW_PMAP_X1_X1 : Fld := ⟨0xE0404, 13, 0⟩
abbrev VW_MDL_CTL : Nat := 0xE1000
abbrev fVW_MDL_CTL_EN : Fld := ⟨0xE1000, 31, 31⟩
abbrev fVW_MDL_CTL_TOL_X : Fld := ⟨0xE1000, 15, 0⟩
abbrev VW_MDL_A : Nat := 0xE1004
abbrev fVW_MDL_A_V : Fld := ⟨0xE1004, 31, 0⟩
abbrev VW_MDL_B : Nat := 0xE1008
abbrev fVW_MDL_B_V : Fld := ⟨0xE1008, 31, 0⟩
abbrev VW_MDL_TOLT : Nat := 0xE100C
abbrev fVW_MDL_TOLT_V : Fld := ⟨0xE100C, 31, 0⟩
abbrev VW_MDL_AREA : Nat := 0xE1010
abbrev fVW_MDL_AREA_MAX : Fld := ⟨0xE1010, 15, 0⟩
/-! Names of block LG. -/
abbrev LG_CTL : Nat := 0xE8000
abbrev fLG_CTL_COMMIT : Fld := ⟨0xE8000, 31, 31⟩
abbrev fLG_CTL_GRACE : Fld := ⟨0xE8000, 15, 0⟩
abbrev LG_FEAT_BASE_LO : Nat := 0xE8004
abbrev fLG_FEAT_BASE_LO_V : Fld := ⟨0xE8004, 31, 24⟩
abbrev LG_FEAT_BASE_HI : Nat := 0xE8008
abbrev fLG_FEAT_BASE_HI_V : Fld := ⟨0xE8008, 2, 0⟩
abbrev LG_STAT : Nat := 0xE800C
abbrev fLG_STAT_LIVE : Fld := ⟨0xE800C, 17, 0⟩
abbrev LG_CNT_FULL : Nat := 0xE8010
abbrev fLG_CNT_FULL_V : Fld := ⟨0xE8010, 31, 0⟩
abbrev LG_CNT_MERGE : Nat := 0xE8014
abbrev fLG_CNT_MERGE_V : Fld := ⟨0xE8014, 31, 0⟩
abbrev LG_CNT_ORPHAN : Nat := 0xE8018
abbrev fLG_CNT_ORPHAN_V : Fld := ⟨0xE8018, 31, 0⟩
abbrev LG_CNT_STALE : Nat := 0xE801C
abbrev fLG_CNT_STALE_V : Fld := ⟨0xE801C, 31, 0⟩
abbrev LG_CNT_SPECK_PASS : Nat := 0xE8020
abbrev fLG_CNT_SPECK_PASS_V : Fld := ⟨0xE8020, 31, 0⟩
abbrev LG_EVT : Nat := 0xE8030
abbrev fLG_EVT_STALE : Fld := ⟨0xE8030, 2, 2⟩
abbrev fLG_EVT_ORPHAN : Fld := ⟨0xE8030, 1, 1⟩
abbrev fLG_EVT_FULL : Fld := ⟨0xE8030, 0, 0⟩
abbrev LG_EVT_EN : Nat := 0xE8034
abbrev fLG_EVT_EN_ALL : Fld := ⟨0xE8034, 2, 0⟩
/-! Names of block QU. -/
abbrev QU_EVT_SUM : Nat := 0xF0000
abbrev fQU_EVT_SUM_V : Fld := ⟨0xF0000, 31, 0⟩
abbrev QU_CFG : Nat := 0xF0100
abbrev fQU_CFG_WIN : Fld := ⟨0xF0100, 31, 30⟩
abbrev fQU_CFG_WOUT : Fld := ⟨0xF0100, 29, 29⟩
abbrev fQU_CFG_HWR : Fld := ⟨0xF0100, 28, 28⟩
abbrev fQU_CFG_FLR_FLUSH : Fld := ⟨0xF0100, 27, 27⟩
abbrev fQU_CFG_READER : Fld := ⟨0xF0100, 26, 26⟩
abbrev fQU_CFG_SIZE : Fld := ⟨0xF0100, 15, 0⟩
abbrev QU_STALE : Nat := 0xF0104
abbrev fQU_STALE_EN : Fld := ⟨0xF0104, 31, 31⟩
abbrev fQU_STALE_TIME : Fld := ⟨0xF0104, 19, 0⟩
abbrev QU_THR : Nat := 0xF0108
abbrev fQU_THR_BURST : Fld := ⟨0xF0108, 31, 16⟩
abbrev fQU_THR_HIGH : Fld := ⟨0xF0108, 15, 0⟩
abbrev QU_LEVEL : Nat := 0xF010C
abbrev fQU_LEVEL_RSV : Fld := ⟨0xF010C, 31, 16⟩
abbrev fQU_LEVEL_HELD : Fld := ⟨0xF010C, 15, 0⟩
abbrev QU_PEAK : Nat := 0xF0110
abbrev fQU_PEAK_V : Fld := ⟨0xF0110, 15, 0⟩
abbrev QU_RTAG : Nat := 0xF0114
abbrev fQU_RTAG_V : Fld := ⟨0xF0114, 7, 0⟩
abbrev QU_RDATA : Nat := 0xF0118
abbrev fQU_RDATA_V : Fld := ⟨0xF0118, 31, 0⟩
abbrev QU_CNT_WR : Nat := 0xF0128
abbrev fQU_CNT_WR_V : Fld := ⟨0xF0128, 31, 0⟩
abbrev QU_CNT_RD : Nat := 0xF012C
abbrev fQU_CNT_RD_V : Fld := ⟨0xF012C, 31, 0⟩
abbrev QU_CNT_DROP : Nat := 0xF0130
abbrev fQU_CNT_DROP_V : Fld := ⟨0xF0130, 31, 0⟩
abbrev QU_CNT_WOFF : Nat := 0xF0134
abbrev fQU_CNT_WOFF_V : Fld := ⟨0xF0134, 31, 0⟩
abbrev QU_CNT_POISON : Nat := 0xF0138
abbrev fQU_CNT_POISON_V : Fld := ⟨0xF0138, 31, 0⟩
abbrev QU_EVT : Nat := 0xF0140
abbrev fQU_EVT_POISON : Fld := ⟨0xF0140, 3, 3⟩
abbrev fQU_EVT_DROP : Fld := ⟨0xF0140, 2, 2⟩
abbrev fQU_EVT_HIGH : Fld := ⟨0xF0140, 1, 1⟩
abbrev fQU_EVT_STALE : Fld := ⟨0xF0140, 0, 0⟩
abbrev QU_EVT_EN : Nat := 0xF0144
abbrev fQU_EVT_EN_ALL : Fld := ⟨0xF0144, 3, 0⟩
/-! Names of block PP. -/
abbrev PP_CTL : Nat := 0x100000
abbrev fPP_CTL_EN : Fld := ⟨0x100000, 31, 31⟩
abbrev fPP_CTL_MODE : Fld := ⟨0x100000, 30, 30⟩
abbrev fPP_CTL_GANG : Fld := ⟨0x100000, 29, 29⟩
abbrev fPP_CTL_FN_CHK : Fld := ⟨0x100000, 28, 28⟩
abbrev fPP_CTL_LANES : Fld := ⟨0x100000, 27, 26⟩
abbrev fPP_CTL_UD_BITS : Fld := ⟨0x100000, 25, 23⟩
abbrev fPP_CTL_SCLK_USE : Fld := ⟨0x100000, 22, 22⟩
abbrev fPP_CTL_SCLK_SEL : Fld := ⟨0x100000, 21, 19⟩
abbrev fPP_CTL_DT_PIPE : Fld := ⟨0x100000, 13, 8⟩
abbrev fPP_CTL_VC_PIPE : Fld := ⟨0x100000, 3, 0⟩
abbrev PP_GEOM : Nat := 0x100004
abbrev fPP_GEOM_WIDTH : Fld := ⟨0x100004, 30, 16⟩
abbrev fPP_GEOM_HEIGHT : Fld := ⟨0x100004, 15, 0⟩
abbrev PP_PHY_CTL : Nat := 0x100008
abbrev fPP_PHY_CTL_HS_SETTLE : Fld := ⟨0x100008, 23, 16⟩
abbrev fPP_PHY_CTL_LANE_MAP : Fld := ⟨0x100008, 15, 8⟩
abbrev fPP_PHY_CTL_DESCR : Fld := ⟨0x100008, 6, 6⟩
abbrev fPP_PHY_CTL_CLK_POL : Fld := ⟨0x100008, 4, 4⟩
abbrev fPP_PHY_CTL_DATA_POL : Fld := ⟨0x100008, 3, 0⟩
abbrev PP_TS_ADJ : Nat := 0x10000C
abbrev fPP_TS_ADJ_V : Fld := ⟨0x10000C, 31, 0⟩
abbrev PP_FRM_TMO : Nat := 0x100010
abbrev fPP_FRM_TMO_TMO : Fld := ⟨0x100010, 23, 0⟩
abbrev PP_STRIP_GAP : Nat := 0x100014
abbrev fPP_STRIP_GAP_GAP : Fld := ⟨0x100014, 23, 0⟩
abbrev PP_STAT : Nat := 0x100018
abbrev fPP_STAT_STRIP_ID : Fld := ⟨0x100018, 31, 16⟩
abbrev fPP_STAT_CFG_ERR : Fld := ⟨0x100018, 15, 15⟩
abbrev fPP_STAT_FRAME_OPEN : Fld := ⟨0x100018, 14, 14⟩
abbrev fPP_STAT_PHY_DEAD : Fld := ⟨0x100018, 13, 13⟩
abbrev fPP_STAT_LANE_HS : Fld := ⟨0x100018, 11, 8⟩
abbrev fPP_STAT_LANE_ULPS : Fld := ⟨0x100018, 7, 4⟩
abbrev fPP_STAT_CLK_HS : Fld := ⟨0x100018, 3, 3⟩
abbrev PP_FRAME_CNT : Nat := 0x10001C
abbrev fPP_FRAME_CNT_V : Fld := ⟨0x10001C, 31, 0⟩
abbrev PP_FSTAT : Nat := 0x100020
abbrev fPP_FSTAT_LAST_LINE : Fld := ⟨0x100020, 31, 16⟩
abbrev fPP_FSTAT_BITS : Fld := ⟨0x100020, 11, 0⟩
abbrev PP_FSTAT_NUM : Nat := 0x100024
abbrev fPP_FSTAT_NUM_V : Fld := ⟨0x100024, 31, 0⟩
abbrev PP_EVT : Nat := 0x100028
abbrev fPP_EVT_LINK_TMO : Fld := ⟨0x100028, 14, 14⟩
abbrev fPP_EVT_QUEUE_DROP : Fld := ⟨0x100028, 13, 13⟩
abbrev fPP_EVT_FN_GAP : Fld := ⟨0x100028, 12, 12⟩
abbrev fPP_EVT_STRIP_BREAK : Fld := ⟨0x100028, 11, 11⟩
abbrev fPP_EVT_RX_OVR : Fld := ⟨0x100028, 10, 10⟩
abbrev fPP_EVT_TMO : Fld := ⟨0x100028, 9, 9⟩
abbrev fPP_EVT_NO_FE : Fld := ⟨0x100028, 8, 8⟩
abbrev fPP_EVT_LINE_LONG : Fld := ⟨0x100028, 7, 7⟩
abbrev fPP_EVT_LINE_SHORT : Fld := ⟨0x100028, 6, 6⟩
abbrev fPP_EVT_LONG : Fld := ⟨0x100028, 5, 5⟩
abbrev fPP_EVT_SHORT : Fld := ⟨0x100028, 4, 4⟩
abbrev fPP_EVT_ORPHAN : Fld := ⟨0x100028, 3, 3⟩
abbrev fPP_EVT_UNSUP : Fld := ⟨0x100028, 2, 2⟩
abbrev fPP_EVT_CRC : Fld := ⟨0x100028, 1, 1⟩
abbrev fPP_EVT_HDR_ERR : Fld := ⟨0x100028, 0, 0⟩
abbrev PP_EVT_EN : Nat := 0x10002C
abbrev fPP_EVT_EN_ALL : Fld := ⟨0x10002C, 14, 0⟩
abbrev PP_SLOT_CAP : Nat := 0x100050
abbrev fPP_SLOT_CAP_COMMIT : Fld := ⟨0x100050, 31, 31⟩
abbrev fPP_SLOT_CAP_IND : Fld := ⟨0x100050, 4, 4⟩
abbrev fPP_SLOT_CAP_BTN : Fld := ⟨0x100050, 3, 3⟩
abbrev fPP_SLOT_CAP_FLT : Fld := ⟨0x100050, 2, 2⟩
abbrev fPP_SLOT_CAP_PWR : Fld := ⟨0x100050, 1, 1⟩
abbrev fPP_SLOT_CAP_PRS : Fld := ⟨0x100050, 0, 0⟩
abbrev PP_SLOT_CTL : Nat := 0x100054
abbrev fPP_SLOT_CTL_AUTO_PWR : Fld := ⟨0x100054, 9, 9⟩
abbrev fPP_SLOT_CTL_PWR_CTL : Fld := ⟨0x100054, 8, 8⟩
abbrev fPP_SLOT_CTL_ATTN_IND : Fld := ⟨0x100054, 7, 6⟩
abbrev fPP_SLOT_CTL_PRSNT_IE : Fld := ⟨0x100054, 3, 3⟩
abbrev fPP_SLOT_CTL_BTN_IE : Fld := ⟨0x100054, 2, 2⟩
abbrev fPP_SLOT_CTL_FLT_IE : Fld := ⟨0x100054, 1, 1⟩
abbrev fPP_SLOT_CTL_STATE_IE : Fld := ⟨0x100054, 0, 0⟩
abbrev PP_SLOT_STAT : Nat := 0x100058
abbrev fPP_SLOT_STAT_STATE : Fld := ⟨0x100058, 26, 24⟩
abbrev fPP_SLOT_STAT_PRSNT : Fld := ⟨0x100058, 23, 23⟩
abbrev fPP_SLOT_STAT_PWR_ON : Fld := ⟨0x100058, 22, 22⟩
abbrev fPP_SLOT_STAT_FLT_IN : Fld := ⟨0x100058, 21, 21⟩
abbrev fPP_SLOT_STAT_IND_OVR : Fld := ⟨0x100058, 20, 20⟩
abbrev fPP_SLOT_STAT_PRSNT_CHG : Fld := ⟨0x100058, 3, 3⟩
abbrev fPP_SLOT_STAT_BTN : Fld := ⟨0x100058, 2, 2⟩
abbrev fPP_SLOT_STAT_FLT : Fld := ⟨0x100058, 1, 1⟩
abbrev fPP_SLOT_STAT_STATE_CHG : Fld := ⟨0x100058, 0, 0⟩
abbrev PP_HP_TIMING : Nat := 0x10005C
abbrev fPP_HP_TIMING_LINK_TMO : Fld := ⟨0x10005C, 31, 24⟩
abbrev fPP_HP_TIMING_PWR_SETTLE : Fld := ⟨0x10005C, 23, 16⟩
abbrev fPP_HP_TIMING_BTN_DEB : Fld := ⟨0x10005C, 15, 8⟩
abbrev fPP_HP_TIMING_PRS_DEB : Fld := ⟨0x10005C, 7, 0⟩
abbrev PP_SCLK : Nat := 0x100060
abbrev fPP_SCLK_EN : Fld := ⟨0x100060, 31, 31⟩
abbrev fPP_SCLK_FORCE : Fld := ⟨0x100060, 30, 30⟩
abbrev fPP_SCLK_TRACK : Fld := ⟨0x100060, 29, 29⟩
abbrev fPP_SCLK_DIV_INT : Fld := ⟨0x100060, 24, 16⟩
abbrev fPP_SCLK_DIV_FRAC : Fld := ⟨0x100060, 15, 0⟩
abbrev PP_LINE_PERIOD : Nat := 0x100064
abbrev fPP_LINE_PERIOD_V : Fld := ⟨0x100064, 31, 0⟩
abbrev PP_SENSOR_FN : Nat := 0x100068
abbrev fPP_SENSOR_FN_V : Fld := ⟨0x100068, 15, 0⟩
abbrev PP_FN_MAX : Nat := 0x10006C
abbrev fPP_FN_MAX_MAX : Fld := ⟨0x10006C, 15, 0⟩
abbrev PP_CNT_ECC_CORR : Nat := 0x100070
abbrev fPP_CNT_ECC_CORR_V : Fld := ⟨0x100070, 31, 0⟩
abbrev PP_CNT_HDR_ERR : Nat := 0x100074
abbrev fPP_CNT_HDR_ERR_V : Fld := ⟨0x100074, 31, 0⟩
abbrev PP_CNT_CRC : Nat := 0x100078
abbrev fPP_CNT_CRC_V : Fld := ⟨0x100078, 31, 0⟩
abbrev PP_CNT_UNSUP : Nat := 0x10007C
abbrev fPP_CNT_UNSUP_V : Fld := ⟨0x10007C, 31, 0⟩
abbrev PP_CNT_ORPHAN : Nat := 0x100080
abbrev fPP_CNT_ORPHAN_V : Fld := ⟨0x100080, 31, 0⟩
abbrev PP_CNT_LINE_ERR : Nat := 0x100084
abbrev fPP_CNT_LINE_ERR_V : Fld := ⟨0x100084, 31, 0⟩
abbrev PP_CNT_FRAME_ERR : Nat := 0x100088
abbrev fPP_CNT_FRAME_ERR_V : Fld := ⟨0x100088, 31, 0⟩
abbrev PP_CNT_BREAK : Nat := 0x10008C
abbrev fPP_CNT_BREAK_V : Fld := ⟨0x10008C, 31, 0⟩
/-! Names of block SC. -/
abbrev SC_CTL : Nat := 0x101000
abbrev fSC_CTL_EN : Fld := ⟨0x101000, 31, 31⟩
abbrev fSC_CTL_VERIFY : Fld := ⟨0x101000, 30, 30⟩
abbrev fSC_CTL_RETRY : Fld := ⟨0x101000, 29, 27⟩
abbrev SC_PROFILE : Nat := 0x101004
abbrev fSC_PROFILE_LAT : Fld := ⟨0x101004, 31, 30⟩
abbrev fSC_PROFILE_BUS : Fld := ⟨0x101004, 29, 28⟩
abbrev fSC_PROFILE_ADDR : Fld := ⟨0x101004, 26, 20⟩
abbrev fSC_PROFILE_VERIFY_OFS : Fld := ⟨0x101004, 15, 0⟩
abbrev SC_WINDOW : Nat := 0x101008
abbrev fSC_WINDOW_CLOSE : Fld := ⟨0x101008, 31, 16⟩
abbrev fSC_WINDOW_OPEN : Fld := ⟨0x101008, 15, 0⟩
abbrev SC_GEN : Nat := 0x10100C
abbrev fSC_GEN_NEXT : Fld := ⟨0x10100C, 31, 16⟩
abbrev fSC_GEN_CUR : Fld := ⟨0x10100C, 15, 0⟩
abbrev SC_CMP_BLK01 : Nat := 0x101010
abbrev fSC_CMP_BLK01_B1 : Fld := ⟨0x101010, 31, 16⟩
abbrev fSC_CMP_BLK01_B0 : Fld := ⟨0x101010, 15, 0⟩
abbrev SC_CMP_BLK23 : Nat := 0x101014
abbrev fSC_CMP_BLK23_B3 : Fld := ⟨0x101014, 31, 16⟩
abbrev fSC_CMP_BLK23_B2 : Fld := ⟨0x101014, 15, 0⟩
abbrev SC_CMP_SCALE : Nat := 0x101018
abbrev fSC_CMP_SCALE_THR : Fld := ⟨0x101018, 31, 16⟩
abbrev fSC_CMP_SCALE_NORM : Fld := ⟨0x101018, 15, 0⟩
abbrev SC_STAT : Nat := 0x10101C
abbrev fSC_STAT_WRITTEN : Fld := ⟨0x10101C, 23, 16⟩
abbrev fSC_STAT_SENDING : Fld := ⟨0x10101C, 15, 8⟩
abbrev fSC_STAT_ARMED : Fld := ⟨0x10101C, 7, 0⟩
abbrev SC_CNT_LATE : Nat := 0x101020
abbrev fSC_CNT_LATE_V : Fld := ⟨0x101020, 31, 0⟩
abbrev SC_CNT_FAIL : Nat := 0x101024
abbrev fSC_CNT_FAIL_V : Fld := ⟨0x101024, 31, 0⟩
abbrev SC_CNT_SUPER : Nat := 0x101028
abbrev fSC_CNT_SUPER_V : Fld := ⟨0x101028, 31, 0⟩
abbrev SC_CNT_CANCEL : Nat := 0x10102C
abbrev fSC_CNT_CANCEL_V : Fld := ⟨0x10102C, 31, 0⟩
abbrev SC_CNT_UNSURE : Nat := 0x101030
abbrev fSC_CNT_UNSURE_V : Fld := ⟨0x101030, 31, 0⟩
abbrev SC_CNT_MISMATCH : Nat := 0x101034
abbrev fSC_CNT_MISMATCH_V : Fld := ⟨0x101034, 31, 0⟩
abbrev SC_EVT : Nat := 0x101038
abbrev fSC_EVT_MISMATCH : Fld := ⟨0x101038, 5, 5⟩
abbrev fSC_EVT_CANCELLED : Fld := ⟨0x101038, 4, 4⟩
abbrev fSC_EVT_UNSURE : Fld := ⟨0x101038, 3, 3⟩
abbrev fSC_EVT_FAILED : Fld := ⟨0x101038, 2, 2⟩
abbrev fSC_EVT_LATE : Fld := ⟨0x101038, 1, 1⟩
abbrev fSC_EVT_APPLIED : Fld := ⟨0x101038, 0, 0⟩
abbrev SC_EVT_EN : Nat := 0x10103C
abbrev fSC_EVT_EN_ALL : Fld := ⟨0x10103C, 5, 0⟩
abbrev SC_SLOT_TGT : Nat := 0x101100
abbrev fSC_SLOT_TGT_V : Fld := ⟨0x101100, 31, 0⟩
abbrev SC_SLOT_CTL : Nat := 0x101104
abbrev fSC_SLOT_CTL_STATE : Fld := ⟨0x101104, 31, 29⟩
abbrev fSC_SLOT_CTL_RETRY_CNT : Fld := ⟨0x101104, 28, 26⟩
abbrev fSC_SLOT_CTL_LATE : Fld := ⟨0x101104, 25, 25⟩
abbrev fSC_SLOT_CTL_UNSURE : Fld := ⟨0x101104, 24, 24⟩
abbrev fSC_SLOT_CTL_WLEN : Fld := ⟨0x101104, 22, 16⟩
abbrev fSC_SLOT_CTL_GEN : Fld := ⟨0x101104, 15, 0⟩
abbrev SC_SLOT_BLK01 : Nat := 0x101108
abbrev fSC_SLOT_BLK01_B1 : Fld := ⟨0x101108, 31, 16⟩
abbrev fSC_SLOT_BLK01_B0 : Fld := ⟨0x101108, 15, 0⟩
abbrev SC_SLOT_BLK23 : Nat := 0x10110C
abbrev fSC_SLOT_BLK23_B3 : Fld := ⟨0x10110C, 31, 16⟩
abbrev fSC_SLOT_BLK23_B2 : Fld := ⟨0x10110C, 15, 0⟩
abbrev SC_SLOT_SCALE : Nat := 0x101110
abbrev fSC_SLOT_SCALE_THR : Fld := ⟨0x101110, 31, 16⟩
abbrev fSC_SLOT_SCALE_NORM : Fld := ⟨0x101110, 15, 0⟩
abbrev SC_SLOT_REQ : Nat := 0x101114
abbrev fSC_SLOT_REQ_V : Fld := ⟨0x101114, 31, 0⟩
abbrev SC_SLOT_DONE : Nat := 0x101118
abbrev fSC_SLOT_DONE_V : Fld := ⟨0x101118, 31, 0⟩
abbrev SC_WBUF : Nat := 0x101800
abbrev fSC_WBUF_V : Fld := ⟨0x101800, 31, 0⟩
/-! Names of block CX. -/
abbrev CX_CTL : Nat := 0x102000
abbrev fCX_CTL_OFS_EN : Fld := ⟨0x102000, 31, 31⟩
abbrev fCX_CTL_DPC_MODE : Fld := ⟨0x102000, 30, 29⟩
abbrev fCX_CTL_DPC_JOIN : Fld := ⟨0x102000, 28, 28⟩
abbrev CX_CFA : Nat := 0x102004
abbrev fCX_CFA_MOSAIC : Fld := ⟨0x102004, 5, 4⟩
abbrev fCX_CFA_PHASE_ROW : Fld := ⟨0x102004, 3, 2⟩
abbrev fCX_CFA_PHASE_COL : Fld := ⟨0x102004, 1, 0⟩
abbrev CX_FF_MODE : Nat := 0x102008
abbrev fCX_FF_MODE_EN : Fld := ⟨0x102008, 31, 31⟩
abbrev fCX_FF_MODE_SRC : Fld := ⟨0x102008, 30, 30⟩
abbrev CX_DPC_THR : Nat := 0x10200C
abbrev fCX_DPC_THR_DYN_ABS : Fld := ⟨0x10200C, 31, 16⟩
abbrev fCX_DPC_THR_DYN_REL : Fld := ⟨0x10200C, 15, 8⟩
abbrev CX_DPC_CNT : Nat := 0x102010
abbrev fCX_DPC_CNT_COUNT1 : Fld := ⟨0x102010, 31, 16⟩
abbrev fCX_DPC_CNT_COUNT0 : Fld := ⟨0x102010, 15, 0⟩
abbrev CX_BANK : Nat := 0x102014
abbrev fCX_BANK_SWAP : Fld := ⟨0x102014, 31, 31⟩
abbrev fCX_BANK_CANCEL : Fld := ⟨0x102014, 30, 30⟩
abbrev fCX_BANK_AT_EN : Fld := ⟨0x102014, 29, 29⟩
abbrev fCX_BANK_PEND : Fld := ⟨0x102014, 28, 28⟩
abbrev fCX_BANK_DUAL : Fld := ⟨0x102014, 27, 24⟩
abbrev fCX_BANK_SEL : Fld := ⟨0x102014, 19, 16⟩
abbrev fCX_BANK_ACT : Fld := ⟨0x102014, 3, 0⟩
abbrev CX_SWAP_AT : Nat := 0x102018
abbrev fCX_SWAP_AT_V : Fld := ⟨0x102018, 31, 0⟩
abbrev CX_SWAP_DONE : Nat := 0x10201C
abbrev fCX_SWAP_DONE_V : Fld := ⟨0x10201C, 31, 0⟩
abbrev CX_EVT : Nat := 0x102020
abbrev fCX_EVT_DPC_OVF : Fld := ⟨0x102020, 3, 3⟩
abbrev fCX_EVT_DPC_ORDER : Fld := ⟨0x102020, 2, 2⟩
abbrev fCX_EVT_ACT_WR : Fld := ⟨0x102020, 1, 1⟩
abbrev fCX_EVT_SWAPPED : Fld := ⟨0x102020, 0, 0⟩
abbrev CX_EVT_EN : Nat := 0x102024
abbrev fCX_EVT_EN_ALL : Fld := ⟨0x102024, 3, 0⟩
abbrev CX_CNT_STATIC : Nat := 0x102030
abbrev fCX_CNT_STATIC_V : Fld := ⟨0x102030, 31, 0⟩
abbrev CX_CNT_HOT : Nat := 0x102034
abbrev fCX_CNT_HOT_V : Fld := ⟨0x102034, 31, 0⟩
abbrev CX_CNT_COLD : Nat := 0x102038
abbrev fCX_CNT_COLD_V : Fld := ⟨0x102038, 31, 0⟩
abbrev CX_CNT_NOREP : Nat := 0x10203C
abbrev fCX_CNT_NOREP_V : Fld := ⟨0x10203C, 31, 0⟩
abbrev CX_CNT_SAT : Nat := 0x102040
abbrev fCX_CNT_SAT_V : Fld := ⟨0x102040, 31, 0⟩
abbrev CX_CNT_DPC_OVF : Nat := 0x102044
abbrev fCX_CNT_DPC_OVF_V : Fld := ⟨0x102044, 31, 0⟩
/-! Names of block DM. -/
abbrev DM_CTL : Nat := 0x104000
abbrev fDM_CTL_NIR_SUB : Fld := ⟨0x104000, 31, 31⟩
abbrev fDM_CTL_CM_EN : Fld := ⟨0x104000, 30, 30⟩
abbrev fDM_CTL_COMMIT : Fld := ⟨0x104000, 29, 29⟩
abbrev fDM_CTL_PEND : Fld := ⟨0x104000, 28, 28⟩
abbrev fDM_CTL_DIR_THR : Fld := ⟨0x104000, 15, 0⟩
abbrev DM_NIR_K01 : Nat := 0x104004
abbrev fDM_NIR_K01_K_G : Fld := ⟨0x104004, 31, 16⟩
abbrev fDM_NIR_K01_K_R : Fld := ⟨0x104004, 15, 0⟩
abbrev DM_NIR_K2 : Nat := 0x104008
abbrev fDM_NIR_K2_K_B : Fld := ⟨0x104008, 15, 0⟩
abbrev DM_CM : Nat := 0x104010
abbrev fDM_CM_M_HI : Fld := ⟨0x104010, 31, 16⟩
abbrev fDM_CM_M_LO : Fld := ⟨0x104010, 15, 0⟩
abbrev DM_CNT_SAT : Nat := 0x104040
abbrev fDM_CNT_SAT_V : Fld := ⟨0x104040, 31, 0⟩
abbrev DM_CNT_EDGE : Nat := 0x104044
abbrev fDM_CNT_EDGE_V : Fld := ⟨0x104044, 31, 0⟩
abbrev DM_CNT_TRUNC : Nat := 0x104048
abbrev fDM_CNT_TRUNC_V : Fld := ⟨0x104048, 31, 0⟩
abbrev DM_CNT_DIR_H : Nat := 0x10404C
abbrev fDM_CNT_DIR_H_V : Fld := ⟨0x10404C, 31, 0⟩
abbrev DM_CNT_DIR_V : Nat := 0x104050
abbrev fDM_CNT_DIR_V_V : Fld := ⟨0x104050, 31, 0⟩
abbrev DM_CNT_DIR_B : Nat := 0x104054
abbrev fDM_CNT_DIR_B_V : Fld := ⟨0x104054, 31, 0⟩
abbrev DM_EVT : Nat := 0x104060
abbrev fDM_EVT_TRUNC : Fld := ⟨0x104060, 1, 1⟩
abbrev fDM_EVT_COMMITTED : Fld := ⟨0x104060, 0, 0⟩
abbrev DM_EVT_EN : Nat := 0x104064
abbrev fDM_EVT_EN_ALL : Fld := ⟨0x104064, 1, 0⟩
abbrev DM_TAP_CTL : Nat := 0x104100
abbrev fDM_TAP_CTL_EN : Fld := ⟨0x104100, 31, 31⟩
abbrev fDM_TAP_CTL_POINT : Fld := ⟨0x104100, 30, 28⟩
abbrev fDM_TAP_CTL_FMT : Fld := ⟨0x104100, 27, 24⟩
abbrev fDM_TAP_CTL_DECIM : Fld := ⟨0x104100, 23, 16⟩
abbrev DM_TAP_ROI_X : Nat := 0x104104
abbrev fDM_TAP_ROI_X_W : Fld := ⟨0x104104, 31, 16⟩
abbrev fDM_TAP_ROI_X_X0 : Fld := ⟨0x104104, 15, 0⟩
abbrev DM_TAP_ROI_Y : Nat := 0x104108
abbrev fDM_TAP_ROI_Y_H : Fld := ⟨0x104108, 31, 16⟩
abbrev fDM_TAP_ROI_Y_Y0 : Fld := ⟨0x104108, 15, 0⟩
abbrev DM_TAP_STRIDE : Nat := 0x10410C
abbrev fDM_TAP_STRIDE_V : Fld := ⟨0x10410C, 23, 0⟩
abbrev DM_TAP_RING_LO : Nat := 0x104110
abbrev fDM_TAP_RING_LO_BASE : Fld := ⟨0x104110, 31, 6⟩
abbrev DM_TAP_RING_HI : Nat := 0x104114
abbrev fDM_TAP_RING_HI_V : Fld := ⟨0x104114, 31, 0⟩
abbrev DM_TAP_RING_SIZE : Nat := 0x104118
abbrev fDM_TAP_RING_SIZE_SIZE : Fld := ⟨0x104118, 3, 0⟩
abbrev DM_TAP_TAIL : Nat := 0x10411C
abbrev fDM_TAP_TAIL_V : Fld := ⟨0x10411C, 11, 0⟩
abbrev DM_TAP_HEAD : Nat := 0x104120
abbrev fDM_TAP_HEAD_V : Fld := ⟨0x104120, 11, 0⟩
abbrev DM_TAP_STAT : Nat := 0x104124
abbrev fDM_TAP_STAT_CFG_ERR : Fld := ⟨0x104124, 1, 1⟩
abbrev fDM_TAP_STAT_ACTIVE : Fld := ⟨0x104124, 0, 0⟩
abbrev DM_TAP_CNT_DONE : Nat := 0x104128
abbrev fDM_TAP_CNT_DONE_V : Fld := ⟨0x104128, 31, 0⟩
abbrev DM_TAP_CNT_NOBUF : Nat := 0x10412C
abbrev fDM_TAP_CNT_NOBUF_V : Fld := ⟨0x10412C, 31, 0⟩
abbrev DM_TAP_CNT_DROP : Nat := 0x104130
abbrev fDM_TAP_CNT_DROP_V : Fld := ⟨0x104130, 31, 0⟩
abbrev DM_TAP_EVT : Nat := 0x104134
abbrev fDM_TAP_EVT_ABORTED : Fld := ⟨0x104134, 3, 3⟩
abbrev fDM_TAP_EVT_DROP : Fld := ⟨0x104134, 2, 2⟩
abbrev fDM_TAP_EVT_BUF_SHORT : Fld := ⟨0x104134, 1, 1⟩
abbrev fDM_TAP_EVT_DONE : Fld := ⟨0x104134, 0, 0⟩
abbrev DM_TAP_EVT_EN : Nat := 0x104138
abbrev fDM_TAP_EVT_EN_ALL : Fld := ⟨0x104138, 3, 0⟩
/-! Names of block ST. -/
abbrev ST_CTL : Nat := 0x106000
abbrev fST_CTL_EN : Fld := ⟨0x106000, 31, 31⟩
abbrev fST_CTL_COMMIT : Fld := ⟨0x106000, 30, 30⟩
abbrev fST_CTL_PEND : Fld := ⟨0x106000, 29, 29⟩
abbrev fST_CTL_HIST_EN : Fld := ⟨0x106000, 28, 28⟩
abbrev fST_CTL_FOC_CH : Fld := ⟨0x106000, 27, 26⟩
abbrev fST_CTL_DECIM : Fld := ⟨0x106000, 23, 16⟩
abbrev fST_CTL_FOC_EN : Fld := ⟨0x106000, 15, 0⟩
abbrev ST_FOC_FLOOR : Nat := 0x106004
abbrev fST_FOC_FLOOR_V : Fld := ⟨0x106004, 31, 0⟩
abbrev ST_HIST_X : Nat := 0x106008
abbrev fST_HIST_X_W : Fld := ⟨0x106008, 31, 16⟩
abbrev fST_HIST_X_X0 : Fld := ⟨0x106008, 15, 0⟩
abbrev ST_HIST_Y : Nat := 0x10600C
abbrev fST_HIST_Y_H : Fld := ⟨0x10600C, 31, 16⟩
abbrev fST_HIST_Y_Y0 : Fld := ⟨0x10600C, 15, 0⟩
abbrev ST_PLATE_X : Nat := 0x106010
abbrev fST_PLATE_X_W : Fld := ⟨0x106010, 31, 16⟩
abbrev fST_PLATE_X_X0 : Fld := ⟨0x106010, 15, 0⟩
abbrev ST_PLATE_CTL : Nat := 0x106014
abbrev fST_PLATE_CTL_LOW_FRAC : Fld := ⟨0x106014, 7, 0⟩
abbrev ST_PLATE_REF01 : Nat := 0x106018
abbrev fST_PLATE_REF01_R1 : Fld := ⟨0x106018, 31, 16⟩
abbrev fST_PLATE_REF01_R0 : Fld := ⟨0x106018, 15, 0⟩
abbrev ST_PLATE_REF23 : Nat := 0x10601C
abbrev fST_PLATE_REF23_R3 : Fld := ⟨0x10601C, 31, 16⟩
abbrev fST_PLATE_REF23_R2 : Fld := ⟨0x10601C, 15, 0⟩
abbrev ST_STAT : Nat := 0x106020
abbrev fST_STAT_WIN_ERR : Fld := ⟨0x106020, 31, 16⟩
abbrev fST_STAT_PLATE_ERR : Fld := ⟨0x106020, 2, 2⟩
abbrev fST_STAT_HIST_ERR : Fld := ⟨0x106020, 1, 1⟩
abbrev fST_STAT_ACTIVE : Fld := ⟨0x106020, 0, 0⟩
abbrev ST_EVT : Nat := 0x106024
abbrev fST_EVT_PLATE_LOW : Fld := ⟨0x106024, 3, 3⟩
abbrev fST_EVT_LOST : Fld := ⟨0x106024, 2, 2⟩
abbrev fST_EVT_CFG_ERR : Fld := ⟨0x106024, 1, 1⟩
abbrev fST_EVT_REC : Fld := ⟨0x106024, 0, 0⟩
abbrev ST_EVT_EN : Nat := 0x106028
abbrev fST_EVT_EN_ALL : Fld := ⟨0x106028, 3, 0⟩
abbrev ST_CNT_REC : Nat := 0x106030
abbrev fST_CNT_REC_V : Fld := ⟨0x106030, 31, 0⟩
abbrev ST_CNT_LOST : Nat := 0x106034
abbrev fST_CNT_LOST_V : Fld := ⟨0x106034, 31, 0⟩
abbrev ST_WIN_X : Nat := 0x106040
abbrev fST_WIN_X_W : Fld := ⟨0x106040, 31, 16⟩
abbrev fST_WIN_X_X0 : Fld := ⟨0x106040, 15, 0⟩
abbrev ST_WIN_Y : Nat := 0x106044
abbrev fST_WIN_Y_H : Fld := ⟨0x106044, 31, 16⟩
abbrev fST_WIN_Y_Y0 : Fld := ⟨0x106044, 15, 0⟩
abbrev ST_RING_LO : Nat := 0x106100
abbrev fST_RING_LO_BASE : Fld := ⟨0x106100, 31, 12⟩
abbrev ST_RING_HI : Nat := 0x106104
abbrev fST_RING_HI_V : Fld := ⟨0x106104, 31, 0⟩
abbrev ST_RING_SIZE : Nat := 0x106108
abbrev fST_RING_SIZE_SIZE : Fld := ⟨0x106108, 3, 0⟩
abbrev ST_RING_PROD : Nat := 0x10610C
abbrev fST_RING_PROD_V : Fld := ⟨0x10610C, 15, 0⟩
abbrev ST_RING_CONS : Nat := 0x106110
abbrev fST_RING_CONS_V : Fld := ⟨0x106110, 15, 0⟩
abbrev ST_RING_CTL : Nat := 0x106114
abbrev fST_RING_CTL_EN : Fld := ⟨0x106114, 31, 31⟩
abbrev fST_RING_CTL_INT : Fld := ⟨0x106114, 0, 0⟩
abbrev ST_LAST : Nat := 0x106200
abbrev fST_LAST_V : Fld := ⟨0x106200, 31, 0⟩
/-! Names of block SG. -/
abbrev SG_CTL : Nat := 0x108000
abbrev fSG_CTL_EN : Fld := ⟨0x108000, 31, 31⟩
abbrev fSG_CTL_COMMIT : Fld := ⟨0x108000, 30, 30⟩
abbrev fSG_CTL_PEND : Fld := ⟨0x108000, 29, 29⟩
abbrev fSG_CTL_TEST : Fld := ⟨0x108000, 28, 27⟩
abbrev fSG_CTL_MORPH : Fld := ⟨0x108000, 26, 26⟩
abbrev fSG_CTL_SPECK_PASS : Fld := ⟨0x108000, 25, 25⟩
abbrev fSG_CTL_CH_EN : Fld := ⟨0x108000, 23, 20⟩
abbrev fSG_CTL_SHARP_CH : Fld := ⟨0x108000, 17, 16⟩
abbrev SG_ROI_X : Nat := 0x108004
abbrev fSG_ROI_X_W : Fld := ⟨0x108004, 31, 16⟩
abbrev fSG_ROI_X_X0 : Fld := ⟨0x108004, 15, 0⟩
abbrev SG_BAND_LO01 : Nat := 0x108008
abbrev fSG_BAND_LO01_C1 : Fld := ⟨0x108008, 31, 16⟩
abbrev fSG_BAND_LO01_C0 : Fld := ⟨0x108008, 15, 0⟩
abbrev SG_BAND_LO23 : Nat := 0x10800C
abbrev fSG_BAND_LO23_C3 : Fld := ⟨0x10800C, 31, 16⟩
abbrev fSG_BAND_LO23_C2 : Fld := ⟨0x10800C, 15, 0⟩
abbrev SG_BAND_HI01 : Nat := 0x108010
abbrev fSG_BAND_HI01_C1 : Fld := ⟨0x108010, 31, 16⟩
abbrev fSG_BAND_HI01_C0 : Fld := ⟨0x108010, 15, 0⟩
abbrev SG_BAND_HI23 : Nat := 0x108014
abbrev fSG_BAND_HI23_C3 : Fld := ⟨0x108014, 31, 16⟩
abbrev fSG_BAND_HI23_C2 : Fld := ⟨0x108014, 15, 0⟩
abbrev SG_DIST : Nat := 0x108018
abbrev fSG_DIST_V : Fld := ⟨0x108018, 17, 0⟩
abbrev SG_AREA_MIN : Nat := 0x10801C
abbrev fSG_AREA_MIN_V : Fld := ⟨0x10801C, 31, 0⟩
abbrev SG_AREA_MAX : Nat := 0x108020
abbrev fSG_AREA_MAX_V : Fld := ⟨0x108020, 31, 0⟩
abbrev SG_MAX_LINES : Nat := 0x108024
abbrev fSG_MAX_LINES_V : Fld := ⟨0x108024, 15, 0⟩
abbrev SG_BG_CONST01 : Nat := 0x108028
abbrev fSG_BG_CONST01_C1 : Fld := ⟨0x108028, 31, 16⟩
abbrev fSG_BG_CONST01_C0 : Fld := ⟨0x108028, 15, 0⟩
abbrev SG_BG_CONST23 : Nat := 0x10802C
abbrev fSG_BG_CONST23_C3 : Fld := ⟨0x10802C, 31, 16⟩
abbrev fSG_BG_CONST23_C2 : Fld := ⟨0x10802C, 15, 0⟩
abbrev SG_BANK : Nat := 0x108030
abbrev fSG_BANK_SWAP : Fld := ⟨0x108030, 31, 31⟩
abbrev fSG_BANK_CANCEL : Fld := ⟨0x108030, 30, 30⟩
abbrev fSG_BANK_AT_EN : Fld := ⟨0x108030, 29, 29⟩
abbrev fSG_BANK_PEND : Fld := ⟨0x108030, 28, 28⟩
abbrev fSG_BANK_DUAL : Fld := ⟨0x108030, 24, 24⟩
abbrev fSG_BANK_SEL : Fld := ⟨0x108030, 16, 16⟩
abbrev fSG_BANK_ACT : Fld := ⟨0x108030, 0, 0⟩
abbrev SG_SWAP_AT : Nat := 0x108034
abbrev fSG_SWAP_AT_V : Fld := ⟨0x108034, 31, 0⟩
abbrev SG_SWAP_DONE : Nat := 0x108038
abbrev fSG_SWAP_DONE_V : Fld := ⟨0x108038, 31, 0⟩
abbrev SG_ALARM_LO : Nat := 0x108060
abbrev fSG_ALARM_LO_V : Fld := ⟨0x108060, 31, 0⟩
abbrev SG_ALARM_HI : Nat := 0x108064
abbrev fSG_ALARM_HI_V : Fld := ⟨0x108064, 31, 0⟩
abbrev SG_ALARM_MASK : Nat := 0x108068
abbrev fSG_ALARM_MASK_EN : Fld := ⟨0x108068, 31, 31⟩
abbrev fSG_ALARM_MASK_CH : Fld := ⟨0x108068, 3, 0⟩
abbrev SG_STAT : Nat := 0x1080C0
abbrev fSG_STAT_ACTIVE : Fld := ⟨0x1080C0, 31, 31⟩
abbrev fSG_STAT_OPEN : Fld := ⟨0x1080C0, 12, 0⟩
abbrev SG_CNT_OBJ : Nat := 0x1080D0
abbrev fSG_CNT_OBJ_V : Fld := ⟨0x1080D0, 31, 0⟩
abbrev SG_CNT_OPEN_OVF : Nat := 0x1080D4
abbrev fSG_CNT_OPEN_OVF_V : Fld := ⟨0x1080D4, 31, 0⟩
abbrev SG_CNT_INCOMPLETE : Nat := 0x1080D8
abbrev fSG_CNT_INCOMPLETE_V : Fld := ⟨0x1080D8, 31, 0⟩
abbrev SG_CNT_SPECK : Nat := 0x1080DC
abbrev fSG_CNT_SPECK_V : Fld := ⟨0x1080DC, 31, 0⟩
abbrev SG_CNT_CLUMP : Nat := 0x1080E0
abbrev fSG_CNT_CLUMP_V : Fld := ⟨0x1080E0, 31, 0⟩
abbrev SG_CNT_CUT : Nat := 0x1080E4
abbrev fSG_CNT_CUT_V : Fld := ⟨0x1080E4, 31, 0⟩
abbrev SG_EVT : Nat := 0x1080F0
abbrev fSG_EVT_CUT : Fld := ⟨0x1080F0, 4, 4⟩
abbrev fSG_EVT_OPEN_OVF : Fld := ⟨0x1080F0, 3, 3⟩
abbrev fSG_EVT_ACT_WR : Fld := ⟨0x1080F0, 2, 2⟩
abbrev fSG_EVT_SWAPPED : Fld := ⟨0x1080F0, 1, 1⟩
abbrev fSG_EVT_COMMITTED : Fld := ⟨0x1080F0, 0, 0⟩
abbrev SG_EVT_EN : Nat := 0x1080F4
abbrev fSG_EVT_EN_ALL : Fld := ⟨0x1080F4, 4, 0⟩

end Sys2Proof.Machine
end

