-- ==== Sys2Proof/Machine/Ops.lean ====
section
/-! DEFINITION. The named operations over registers, memories, bytes, time and free values that every meaning is
built from. -/

namespace Sys2Proof.Machine

/-! ## Sparse maps in canonical form -/

/-- Read key `k`; an unlisted key reads `d`. -/
def smGet {α : Type} (m : Sparse α) (k : Nat) (d : α) : α :=
  match m with
  | [] => d
  | e :: t => if e.1 = k then e.2 else smGet t k d

/-- The map without key `k`. -/
def smErase {α : Type} (m : Sparse α) (k : Nat) : Sparse α :=
  m.filter (fun e => !decide (e.1 = k))

/-- Insert a key before the first larger one. -/
def smIns {α : Type} (m : Sparse α) (k : Nat) (v : α) : Sparse α :=
  match m with
  | [] => [(k, v)]
  | e :: t => if k < e.1 then (k, v) :: e :: t else e :: smIns t k v

/-- Write key `k`; a value equal to what the unlisted key reads (`d`) removes the entry. -/
def smPut {α : Type} [DecidableEq α] (m : Sparse α) (k : Nat) (d v : α) : Sparse α :=
  if v = d then smErase m k else smIns (smErase m k) k v

/-- The canonical form: keys strictly rising and no entry equal to what its key reads when unlisted. -/
def smWf {α : Type} [DecidableEq α] (d : Nat → α) (m : Sparse α) : Bool :=
  match m with
  | [] => true
  | [e] => !decide (e.2 = d e.1)
  | e :: f :: t => !decide (e.2 = d e.1) && decide (e.1 < f.1) && smWf d (f :: t)

/-! ## Lists with a default -/

/-- Element `i` of a list of numbers, 0 beyond its end. -/
def nth (l : List Nat) (i : Nat) : Nat := l.getD i 0

/-- The list with element `i` replaced. -/
def upd {α : Type} (l : List α) (i : Nat) (f : α → α) : List α :=
  match l, i with
  | [], _ => []
  | x :: t, 0 => f x :: t
  | x :: t, n + 1 => x :: upd t n f

/-! ## Registers -/

/-- The reset value of the QU_CFG register of instance `q` (R395): widths, hardware reader, flush, reader, size. -/
def quCfgReset (q : Nat) : Nat :=
  if q < 16 then 0x80000000 + 0x08000000 + 0x04000000 + 512
  else if q < 32 then 0x80000000 + 512
  else if q < 48 then 0x80000000 + 0x20000000 + 0x10000000 + 0x08000000 + 1024
  else if q < 54 then 256
  else 0x80000000 + 0x20000000 + 0x10000000 +
    4 * nth [0x40, 0x08, 0x200, 0x60, 0x60, 0xF8] ((q - 54) % 6)

/-- The fixed class of a Parapet source as PA_CLASS reports it at reset (R396, R411): 0 CORRECTABLE, 1 DEGRADED,
2 SEVERE, 3 FATAL. Unassigned sources read 0. -/
def paClassReset (src : Nat) : Nat :=
  if src = 0 ∨ src = 1 then 3
  else if src = 2 ∨ src = 4 then 2
  else if src = 3 then 1
  else if 8 ≤ src ∧ src ≤ 0xB then 1
  else if src = 0xC then 2
  else if 0x10 ≤ src ∧ src ≤ 0x17 then 2
  else if src = 0x18 then 1
  else if src = 0x19 ∨ src = 0x1A then 2
  else if src = 0x1B ∨ src = 0x1C then 1
  else if src = 0x20 then 2
  else if 0x21 ≤ src ∧ src ≤ 0x2F then 3
  else if src = 0x30 ∨ src = 0x34 ∨ src = 0x35 then 2
  else if 0x31 ≤ src ∧ src ≤ 0x3A then 1
  else if src = 0x41 ∨ src = 0x42 then 1
  else if 0x50 ≤ src ∧ src ≤ 0x52 then 1
  else if src = 0x60 ∨ src = 0x62 ∨ src = 0x71 then 1
  else if 0x78 ≤ src ∧ src ≤ 0x7F then 1
  else if 0x80 ≤ src ∧ src ≤ 0x83 then 1
  else if src = 0xA0 ∨ src = 0xA8 ∨ src = 0xB0 ∨ src = 0xB1 then 1
  else if 0x100 ≤ src ∧ src ≤ 0x1FF ∧ src % 16 ≤ 1 then 1
  else 0

/-- PA_CLASS[w] at reset: sixteen classes of two bits. -/
def paClassWord (w : Nat) : Nat :=
  (List.range 16).foldl (fun acc j => acc + paClassReset (16 * w + j) * 4 ^ j) 0

/-- The reset value of the register at W0 address `a`: its row's, but for the registers whose reset value depends
on the instance (DM_CM, TB_SRV_CTL, QU_CFG, PA_CLASS); reserved addresses read 0 (R7). -/
def regReset (a : Nat) : Word :=
  if 0x104010 ≤ a ∧ a < 0x200000 ∧ (a - 0x104010) % 0x10000 < 0x20 ∧ a % 4 = 0 then
    let i := (a - 0x104010) % 0x10000 / 4
    if i = 0 ∨ i = 5 then 0x1000#32 else if i = 2 ∨ i = 7 then 0x10000000#32 else 0#32
  else if a = TB_SRV_CTL + 0x40 then 0x82540064#32
  else if a = TB_SRV_CTL + 0xC0 then 0#32
  else if QU_CFG ≤ a ∧ a < QU_CFG + 66 * 0x80 ∧ (a - QU_CFG) % 0x80 = 0 then
    BitVec.ofNat 32 (quCfgReset ((a - QU_CFG) / 0x80))
  else if PA_CLASS ≤ a ∧ a < PA_CLASS + 128 ∧ a % 4 = 0 then BitVec.ofNat 32 (paClassWord ((a - PA_CLASS) / 4))
  else match findRow a with
    | some r => BitVec.ofNat 32 r.reset
    | none => 0#32

/-- The register at W0 address `a`. -/
def rd (s : State) (a : Nat) : Word := smGet s.regs a (regReset a)

/-- Set the register at W0 address `a`. -/
def wr (s : State) (a : Nat) (v : Word) : State :=
  { s with regs := smPut s.regs a (regReset a) v }

/-- The register as a number. -/
def rdn (s : State) (a : Nat) : Nat := (rd s a).toNat

/-- Set the register to a number modulo 2^32. -/
def wrn (s : State) (a v : Nat) : State := wr s a (BitVec.ofNat 32 v)

/-- A 64-bit register pair, low word first. -/
def reg64 (s : State) (lo : Nat) : Nat := rdn s lo + 4294967296 * rdn s (lo + 4)

/-- Set a 64-bit register pair. -/
def wr64 (s : State) (lo v : Nat) : State := wrn (wrn s lo v) (lo + 4) (v / 2 ^ 32)

/-- Bits [hi:lo] of a number. -/
def bits (v hi lo : Nat) : Nat := v / 2 ^ lo % 2 ^ (hi + 1 - lo)

/-- `v` with bits [hi:lo] replaced by `x`. -/
def setBits (v hi lo x : Nat) : Nat :=
  v - bits v hi lo * 2 ^ lo + x % 2 ^ (hi + 1 - lo) * 2 ^ lo

/-- Bit `i` of a number. -/
def bit (v i : Nat) : Bool := v.testBit i

/-- Field `f` of the instance at distance `o` from instance 0. -/
def fget (s : State) (f : Fld) (o : Nat := 0) : Nat := bits (rdn s (f.reg + o)) f.hi f.lo

/-- Set field `f`. -/
def fset (s : State) (f : Fld) (v : Nat) (o : Nat := 0) : State :=
  wrn s (f.reg + o) (setBits (rdn s (f.reg + o)) f.hi f.lo v)

/-- A one-bit field as a truth value. -/
def fbit (s : State) (f : Fld) (o : Nat := 0) : Bool := fget s f o = 1

/-- Set a one-bit field. -/
def fbset (s : State) (f : Fld) (b : Bool) (o : Nat := 0) : State := fset s f (if b then 1 else 0) o

/-- Add to a counter that saturates at FFFFFFFFh. -/
def cntAdd (s : State) (a n : Nat) : State := wrn s a (min 0xFFFFFFFF (rdn s a + n))

/-- Increment a saturating counter. -/
def cnt (s : State) (a : Nat) : State := cntAdd s a 1

/-- Increment a wrapping counter. -/
def cntWrap (s : State) (a : Nat) (n : Nat := 1) : State := wrn s a (rdn s a + n)

/-- Distance of port `p`'s registers from those of P0. -/
def po (p : PortNo) : Nat := p.val * 0x10000

/-! ## Time, free values and the outbox -/

/-- The low 32 bits of TB1 in ns, the stamp of R4. -/
def now (s : State) : Nat := s.bases[1].ns

/-- `a` less `b` as a signed 32-bit difference. -/
def sdiff (a b : Nat) : Int := (BitVec.ofNat 32 a - BitVec.ofNat 32 b).toInt

/-- TB1 has reached the 32-bit time `t` (signed difference). -/
def reached (s : State) (t : Nat) : Bool := decide (0 ≤ sdiff (now s) t)

/-- Addition modulo 2^32. -/
def add32 (a b : Nat) : Nat := (a + b) % 2 ^ 32

/-- Subtraction modulo 2^32. -/
def sub32 (a b : Nat) : Nat := (a + 2 ^ 32 - b % 2 ^ 32) % 2 ^ 32

/-- An integer modulo 2^32. -/
def int32u (i : Int) : Nat := (BitVec.ofInt 32 i).toNat

/-- A 32-bit number read as two's complement. -/
def s32 (n : Nat) : Int := (BitVec.ofNat 32 n).toInt

/-- A 16-bit number read as two's complement. -/
def s16 (n : Nat) : Int := (BitVec.ofNat 16 n).toInt

/-- Append to the outbox. -/
def emit (s : State) (o : Out) : State := { s with outbox := o :: s.outbox }

/-- The next free value (log 1). -/
def freeVal (s : State) : Nat := (Config.free s.freeCtr).toNat

/-- Advance past the free value used. -/
def useFree (s : State) : State := { s with freeCtr := s.freeCtr + 1 }

/-! ## Bytes, little-endian (R3) -/

/-- `n` bytes of a number, lowest first. -/
def leBytes (n v : Nat) : List Byte :=
  match n with
  | 0 => []
  | k + 1 => BitVec.ofNat 8 v :: leBytes k (v / 256)

/-- The number that a list of bytes spells, lowest first. -/
def leNat (l : List Byte) : Nat :=
  match l with
  | [] => 0
  | b :: t => b.toNat + 256 * leNat t

/-- Byte `i` of a list, 0 beyond its end. -/
def byteAt (l : List Byte) (i : Nat) : Nat := (l.getD i 0#8).toNat

/-- The u16 at byte `i`. -/
def u16At (l : List Byte) (i : Nat) : Nat := byteAt l i + 256 * byteAt l (i + 1)

/-- The u32 at byte `i`. -/
def u32At (l : List Byte) (i : Nat) : Nat := u16At l i + 65536 * u16At l (i + 2)

/-- The u64 at byte `i`. -/
def u64At (l : List Byte) (i : Nat) : Nat := u32At l i + 4294967296 * u32At l (i + 4)

/-- `n` zero bytes. -/
def zeros (n : Nat) : List Byte := List.replicate n 0#8

/-- The first `n` bytes, padded with zeros. -/
def fit (n : Nat) (l : List Byte) : List Byte := (l ++ zeros n).take n

/-! ## Memories -/

/-- A byte of a table window, address from W0 base; unlisted bytes read 0 (R453). -/
def tblGet (s : State) (a : Nat) : Byte := smGet s.tables a 0#8

/-- Write a byte of a table window. -/
def tblPut (s : State) (a : Nat) (b : Byte) : State := { s with tables := smPut s.tables a 0#8 b }

/-- The u16 at table address `a`. -/
def tbl16 (s : State) (a : Nat) : Nat := (tblGet s a).toNat + 256 * (tblGet s (a + 1)).toNat

/-- The u32 at table address `a`. -/
def tbl32 (s : State) (a : Nat) : Nat := tbl16 s a + 65536 * tbl16 s (a + 2)

/-- Write bytes to the table windows from address `a`. -/
def tblPuts (s : State) (a : Nat) (l : List Byte) : State :=
  match l with
  | [] => s
  | b :: t => tblPuts (tblPut s a b) (a + 1) t

/-- The LP5X channel of an address (R355). -/
def lp5Channel (a : Nat) : Nat := a / 4096 % 8

/-- The channel of address `a` is lost (R359). -/
def lp5Lost (s : State) (a : Nat) : Bool := bit (fget s fMM_STAT_LOST) (lp5Channel a)

/-- A byte of LP5X; an unlisted byte reads 0 (log 2). -/
def lp5Get (s : State) (a : Nat) : Byte := smGet s.mem.lp5 a 0#8

/-- Write a byte of LP5X; a write to a lost channel is discarded (R359). -/
def lp5Put (s : State) (a : Nat) (b : Byte) : State :=
  if lp5Lost s a then s else { s with mem := { s.mem with lp5 := smPut s.mem.lp5 a 0#8 b } }

/-- Write bytes to LP5X from address `a`. -/
def lp5Puts (s : State) (a : Nat) (l : List Byte) : State :=
  match l with
  | [] => s
  | b :: t => lp5Puts (lp5Put s a b) (a + 1) t

/-- `n` bytes of LP5X from address `a`. -/
def lp5Bytes (s : State) (a n : Nat) : List Byte :=
  match n with
  | 0 => []
  | k + 1 => lp5Get s a :: lp5Bytes s (a + 1) k

/-- Apply a state transformer for every element of a list, in order. -/
def forEach {α : Type} (l : List α) (f : α → State → State) (s : State) : State :=
  l.foldl (fun t x => f x t) s

end Sys2Proof.Machine
end

