-- ==== Sys2Proof/Machine/Crc.lean ====
section
/-! DEFINITION. The checks of the Span and of the valve bus: CRC-16 (R176) and CRC-32 (R230). -/

namespace Sys2Proof.Machine

/-- One bit of the CRC-16 of R176. -/
def crc16Bit (c : Nat) : Nat := if 0x8000 ≤ c then (c * 2 % 65536).xor 0x1021 else c * 2

/-- One byte of the CRC-16. -/
def crc16Byte (c : Nat) (b : Byte) : Nat :=
  (List.range 8).foldl (fun x _ => crc16Bit x) (c.xor (b.toNat * 256))

/-- The CRC-16 of R176: polynomial 1021h, initial value FFFFh. -/
def crc16 (l : List Byte) : Nat := l.foldl crc16Byte 0xFFFF

/-- One bit of the reflected CRC-32 of R230. -/
def crc32Bit (c : Nat) : Nat := if c % 2 = 1 then (c / 2).xor 0xEDB88320 else c / 2

/-- One byte of the CRC-32. -/
def crc32Byte (c : Nat) (b : Byte) : Nat :=
  (List.range 8).foldl (fun x _ => crc32Bit x) (c.xor b.toNat)

/-- The CRC-32 of R230. -/
def crc32 (l : List Byte) : Nat := (l.foldl crc32Byte 0xFFFFFFFF).xor 0xFFFFFFFF

end Sys2Proof.Machine
end

