-- ==== Sys2Proof/Machine/Flags.lean ====
section
/-! DEFINITION. Event bits and interrupts: every XX_EVT bit is set through `evt`, which re-evaluates the interrupt
source, the vectors and INTx (R258 to R260). -/

namespace Sys2Proof.Machine

/-! ## Configuration space as the interrupt logic reads it -/

/-- Reset value of the configuration dword at byte offset `o` (R246 to R248). Fields whose value the spec takes
from a fuse or leaves to PCI Express read as log 20 says. -/
def cfgReset (o : Nat) : Word :=
  if o = 0x00 then 0x16641EF7#32
  else if o = 0x04 then 0x00100000#32
  else if o = 0x08 then 0x11800000#32
  else if o = 0x14 then 0x0000000C#32
  else if o = 0x2C then 0x00001EF7#32
  else if o = 0x34 then 0x00000040#32
  else if o = 0x3C then 0x00000100#32
  else if o = 0x40 then 0x00035001#32
  else if o = 0x44 then 0x00000008#32
  else if o = 0x50 then 0x00029010#32
  else if o = 0x54 then 0x10008022#32
  else if o = 0x58 then 0x00002810#32
  else if o = 0x5C then 0x00420905#32
  else if o = 0x74 then 0x0003018F#32
  else if o = 0x7C then 0x0000003E#32
  else if o = 0x80 then 0x00000005#32
  else if o = 0x90 then 0x07FF0011#32
  else if o = 0x94 then 0x00008000#32
  else if o = 0x98 then 0x00007000#32
  else if o = 0x100 then 0x15020001#32
  else if o = 0x10C then 0x00462030#32
  else if o = 0x114 then 0x00002000#32
  else if o = 0x118 then 0x000000A0#32
  else if o = 0x150 then 0x16010003#32
  else if o = 0x160 then 0x19010019#32
  else if o = 0x190 then 0x1C010026#32
  else if o = 0x1C0 then 0x1F01002A#32
  else if o = 0x1F0 then 0x24010027#32
  else if 0x1F8 ≤ o ∧ o < 0x238 then 0x00009C38#32
  else if o = 0x240 then 0x2501001F#32
  else if o = 0x244 then 0x00000201#32
  else if o = 0x250 then 0x26010015#32
  else if o = 0x254 then 0x001FC000#32
  else if o = 0x258 then 0x00000A21#32
  else if o = 0x260 then 0x00010025#32
  else if o = 0x264 then 0x80000001#32
  else 0#32

/-- The configuration dword at offset `o`. -/
def cfgRd (s : State) (o : Nat) : Nat := (smGet s.he.cfg o (cfgReset o)).toNat

/-- Set the configuration dword at offset `o`. -/
def cfgWr (s : State) (o v : Nat) : State :=
  { s with he := { s.he with cfg := smPut s.he.cfg o (cfgReset o) (BitVec.ofNat 32 v) } }

/-- Bus Master Enable, Command bit 2. -/
def bme (s : State) : Bool := bit (cfgRd s 0x04) 2

/-- Interrupt Disable, Command bit 10. -/
def intDisable (s : State) : Bool := bit (cfgRd s 0x04) 10

/-- MSI-X Enable. -/
def msixEnable (s : State) : Bool := bit (cfgRd s 0x90) 31

/-- MSI-X Function Mask. -/
def msixMask (s : State) : Bool := bit (cfgRd s 0x90) 30

/-- The endpoint may issue requests: link up, Bus Master Enable set, no Function Level Reset in progress, not in
D3hot (R249, R261, R262). -/
def canDma (s : State) : Bool :=
  fbit s fHE_STAT_LINK_UP && bme s && !fbit s fHE_STAT_FLR_BUSY && !fbit s fHE_STAT_D3

/-! ## Sources -/

/-- The registers whose bits make source `n` pending (R258); each XX_EVT_EN lies 4 bytes above its XX_EVT. -/
def srcRegs (n : Nat) : List Nat :=
  if n < 4 then [MB_EVT + n * 0x100]
  else if n = 4 then [MB_CW_EVT]
  else if n = 5 then [PA_EVT]
  else if n = 6 then [LI_EVT]
  else if n = 7 then [TB_EVT]
  else if n = 8 then [EM_EVT]
  else if n = 9 then [TO_EVT, MM_EVT]
  else if n < 16 then [TW_EVT + (n - 10) * 0x1000]
  else if n = 16 then [AB_EVT]
  else if n = 17 then [EV_EVT]
  else if n < 20 then [SL_EVT + (n - 18) * 0x1000]
  else if n = 20 then [SN_EVT]
  else if n = 21 then [AC_EVT]
  else if n = 22 then [TL_EVT]
  else if n = 23 then [VW_EVT]
  else if n = 24 then [LG_EVT]
  else if n = 26 then [HE_EVT]
  else if 32 ≤ n ∧ n < 96 then [TL_TR_EVT + (n - 32) * 0x40]
  else if 128 ≤ n ∧ n < 384 then
    let q := (n - 128) / 16 * 0x10000
    match (n - 128) % 16 with
    | 0 => [PP_EVT + q]
    | 2 => [SC_EVT + q]
    | 3 => [CX_EVT + q]
    | 4 => [DM_EVT + q]
    | 5 => [DM_TAP_EVT + q]
    | 6 => [DM_TAP_EVT + q + 0x40]
    | 7 => [ST_EVT + q]
    | 8 => [SG_EVT + q]
    | _ => []
  else []

/-- The interrupt source of the event register at `a` (R258). -/
def evtSource (a : Nat) : Option Nat :=
  match locate a with
  | some (.MB, _, o) => if o < 0x400 then some (o / 0x100) else some 4
  | some (.PA, _, _) => some 5
  | some (.LI, _, _) => some 6
  | some (.TB, _, _) => some 7
  | some (.EM, _, _) => some 8
  | some (.TO, _, _) => some 9
  | some (.MM, _, _) => some 9
  | some (.TW, n, _) => some (10 + n)
  | some (.AB, _, _) => some 16
  | some (.EV, _, _) => some 17
  | some (.SL, n, _) => some (18 + n)
  | some (.SN, _, _) => some 20
  | some (.AC, _, _) => some 21
  | some (.TL, _, o) => if o < 0x1000 then some 22 else some (32 + (o - 0x1000) / 0x40 % 64)
  | some (.VW, _, _) => some 23
  | some (.LG, _, _) => some 24
  | some (.QU, _, _) => some 25
  | some (.HE, _, _) => some 26
  | some (.PP, n, o) => if o = 0x58 ∨ o = 0x54 then some (129 + 16 * n) else some (128 + 16 * n)
  | some (.SC, n, _) => some (130 + 16 * n)
  | some (.CX, n, _) => some (131 + 16 * n)
  | some (.DM, n, o) => if o < 0x100 then some (132 + 16 * n) else some (133 + 16 * n + (o - 0x100) / 0x40 % 2)
  | some (.ST, n, _) => some (135 + 16 * n)
  | some (.SG, n, _) => some (136 + 16 * n)
  | _ => none

/-- Source `n` is pending: a bit of it is both set and enabled (R258). The slot status uses its IE bits, and QU
its three summary words. -/
def srcPending (s : State) (n : Nat) : Bool :=
  if n = 25 then
    rdn s QU_EVT_SUM != 0 || rdn s (QU_EVT_SUM + 4) != 0 || rdn s (QU_EVT_SUM + 8) != 0
  else if 128 ≤ n ∧ n < 384 ∧ (n - 128) % 16 = 1 then
    let q := (n - 128) / 16 * 0x10000
    (rdn s (PP_SLOT_STAT + q)).land (rdn s (PP_SLOT_CTL + q)) % 16 != 0
  else (srcRegs n).any (fun a => (rdn s a).land (rdn s (a + 4)) != 0)

/-- The pending bit of source `n` as HE_IPEND holds it. -/
def ipend (s : State) (n : Nat) : Bool := bit (rdn s (HE_IPEND + n / 32 * 4)) (n % 32)

/-- The sources pending now. -/
def pendingSources (s : State) : List Nat :=
  (List.range 12).flatMap (fun w =>
    let v := rdn s (HE_IPEND + w * 4)
    if v = 0 then [] else (List.range 32).filterMap (fun j => if bit v j then some (w * 32 + j) else none))

/-- Vector `v` is asserted (R259). -/
def vecAsserted (s : State) (v : Nat) : Bool :=
  (pendingSources s).any (fun n =>
    fbit s fHE_ISRC_EN (n * 4) && fget s fHE_ISRC_VECTOR (n * 4) == v)

/-- Set or clear bit `i` of the word register at `a`. -/
def regBit (s : State) (a i : Nat) (b : Bool) : State := wrn s a (setBits (rdn s a) i i (if b then 1 else 0))

/-- Evaluate vector `v` (R259): an asserted, armed vector sends its message and disarms, or sets its PBA bit while
a mask or Bus Master Enable blocks it. -/
def vecEval (v : Nat) (s : State) : State :=
  let armed := bit (rdn s (HE_VEC_ARM + v / 32 * 4)) (v % 32)
  if vecAsserted s v && armed && msixEnable s then
    if canDma s && !msixMask s && !fbit s fMSIX_CTRL_MASK (v * 16) then
      let s1 := regBit (regBit s (HE_VEC_ARM + v / 32 * 4) (v % 32) false) (HE_PBA + v / 32 * 4) (v % 32) false
      emit s1 (.msix v (rdn s (MSIX_ADDR_LO + v * 16) + 4294967296 * rdn s (MSIX_ADDR_HI + v * 16))
        (rdn s (MSIX_DATA + v * 16)))
    else regBit s (HE_PBA + v / 32 * 4) (v % 32) true
  else if vecAsserted s v then s
  else regBit s (HE_PBA + v / 32 * 4) (v % 32) false

/-- The INTx condition (R260). -/
def intxCond (s : State) : Bool := (pendingSources s).any (fun n => fbit s fHE_ISRC_EN (n * 4))

/-- Messages leave the endpoint: the link is up, and the function is neither in a reset nor in D3hot (R249, R262, R264). -/
def msgOk (s : State) : Bool := fbit s fHE_STAT_LINK_UP && !fbit s fHE_STAT_FLR_BUSY && !fbit s fHE_STAT_D3

/-- Evaluate INTx (R260). -/
def intxEval (s : State) : State :=
  let want := intxCond s && !intDisable s && !msixEnable s
  if !msgOk s then s
  else if want && !s.he.intx then emit { s with he := { s.he with intx := true } } (.intx true)
  else if !want && s.he.intx then emit { s with he := { s.he with intx := false } } (.intx false)
  else s

/-- Re-evaluate source `n`: its pending bit, its vector and INTx. -/
def irqUpdate (n : Nat) (s : State) : State :=
  let p := srcPending s n
  if p = ipend s n then s
  else
    let s1 := regBit s (HE_IPEND + n / 32 * 4) (n % 32) p
    let s2 := if fbit s1 fHE_ISRC_EN (n * 4) then vecEval (fget s1 fHE_ISRC_VECTOR (n * 4)) s1 else s1
    intxEval s2

/-- Re-evaluate every vector that a pending source names, and INTx: after a mask, an enable or a map changed. -/
def irqAll (s : State) : State :=
  intxEval (forEach (((pendingSources s).map (fun n => fget s fHE_ISRC_VECTOR (n * 4))).dedup) vecEval s)

/-- Re-evaluate the interrupt source of the register at `a`. -/
def irqAt (a : Nat) (s : State) : State :=
  match evtSource a with
  | some n => irqUpdate n s
  | none => s

/-- Set an event bit (W1C in its XX_EVT register) and re-evaluate its interrupt source (R258). -/
def evt (s : State) (f : Fld) (o : Nat := 0) : State :=
  irqAt (f.reg + o) (fset s f 1 o)

/-- Set bit `i` of a multi-bit event field. -/
def evtBit (s : State) (a i : Nat) : State := irqAt a (regBit s a i true)

/-- Set an event bit and increment a saturating counter. -/
def evtCnt (s : State) (f : Fld) (c : Nat) (o : Nat := 0) : State := evt (cnt s (c + o)) f o

/-- Set a bit of QU_EVT[q] and keep the QU summary word (chapter 21). -/
def quSummary (q : Nat) (s : State) : State :=
  let on := (rdn s (QU_EVT + q * 0x80)).land (rdn s (QU_EVT_EN + q * 0x80)) != 0
  irqUpdate 25 (regBit s (QU_EVT_SUM + q / 32 * 4) (q % 32) on)

/-- Set an event bit of queue instance `q`. -/
def quEvt (s : State) (f : Fld) (q : Nat) : State := quSummary q (fset s f 1 (q * 0x80))

end Sys2Proof.Machine
end

