-- ==== Sys2Proof/Machine/Head.lean ====
section
/-! DEFINITION. The camera-head outputs that other blocks move (R34, R38): which port governs a port of a ganged pair, the
attention indicator, and the sensor reference clocks. -/

namespace Sys2Proof.Machine

/-- Distance of port `p`'s registers. -/
def pof (p : Nat) : Nat := p * 0x10000

/-- Port `p` beside its registers. -/
def portSt (s : State) (p : Nat) : PortSt := s.ports[(Fin.ofNat 16 p)]

/-- Change port `p`. -/
def updPort (s : State) (p : Nat) (f : PortSt → PortSt) : State :=
  { s with ports := s.ports.set (Fin.ofNat 16 p) (f (portSt s p)) }

/-- Port `p` is the odd half of a ganged pair (R22). -/
def gangedOdd (s : State) (p : Nat) : Bool := p % 2 == 1 && fbit s fPP_CTL_GANG (pof (p - 1))

/-- Port `p` is the even half of a ganged pair. -/
def gangedEven (s : State) (p : Nat) : Bool := p % 2 == 0 && fbit s fPP_CTL_GANG (pof p)

/-- The port whose PP registers govern port `p`. -/
def leadPort (s : State) (p : Nat) : Nat := if gangedOdd s p then p - 1 else p

/-- STATE of the slot: 0 EMPTY, 1 OFF, 2 POWERING, 3 ON, 4 FAULT. -/
def ppSlot (s : State) (p : Nat) : Nat := fget s fPP_SLOT_STAT_STATE (pof p)

/-- The port is named as a REPLACE cause. -/
def replaceNamed (s : State) (p : Nat) : Bool := bit (rdn s PA_REPLACE_INFO) (16 + p)

/-- The indicator (R34): 0 off, 1 on, 2 blinking at 1 Hz, 3 at 4 Hz. -/
def indicator (s : State) (p : Nat) : Nat :=
  if replaceNamed s p then 1
  else if ppSlot s p = 4 then 3
  else fget s fPP_SLOT_CTL_ATTN_IND (pof p)

/-- Keep IND_OVR, and drive HP_ATTNIND from the source that applies (R34). -/
def indUpdate (p : Nat) (s : State) : State :=
  let s1 := fbset s fPP_SLOT_STAT_IND_OVR (replaceNamed s p || ppSlot s p == 4) (pof p)
  let m := indicator s1 p
  if (portSt s1 p).ind = m then s1 else emit (updPort s1 p (fun x => { x with ind := m })) (.attnInd p m)

/-- Keep the indicators of every port. -/
def indAll (s : State) : State := forEach (List.range 16) indUpdate s

/-- SCLK_OUT[k] toggles (R38). The PP_CTL of a ganged odd port is ignored (R22). -/
def sclkRuns (s : State) (k : Nat) : Bool :=
  fbit s fPP_SCLK_EN (pof k) && (fbit s fPP_SCLK_FORCE (pof k) || (List.range 16).any (fun n =>
    !gangedOdd s n && fbit s fPP_CTL_SCLK_USE (pof n) && fget s fPP_CTL_SCLK_SEL (pof n) == k && ppSlot s n == 3))

/-- What SCLK_OUT[k] carries: nothing while it is held low, else its divisor in units of 2^-16 and the frequency correction
of TB1 that TRACK applies (R37, R38). -/
def sclkNow (s : State) (k : Nat) : Option (Nat × Nat) :=
  if sclkRuns s k then
    some (fget s ⟨PP_SCLK, 24, 0⟩ (pof k), if fbit s fPP_SCLK_TRACK (pof k) then rdn s (TB_FREQ + 0x40) else 0)
  else none

/-- SCLK_OUT[k] follows its registers, its ports' slots, and TB1's correction (R38). -/
def sclkUpdate (k : Nat) (s : State) : State :=
  let n := sclkNow s k
  if (portSt s k).sclk = n then s else emit (updPort s k (fun x => { x with sclk := n })) (.sclk k n)

/-- Every SCLK_OUT follows. -/
def sclkAll (s : State) : State := forEach (List.range 8) sclkUpdate s

end Sys2Proof.Machine
end

