-- ==== Sys2Proof/Machine/Net.lean ====
section
/-! DEFINITION. Sending over the Span (chapters 12 and 13): routes, packet construction, the transmit queues and the
HELLO that every change of its fields repeats. -/

namespace Sys2Proof.Machine

/-! ## Distances of a port's registers -/

/-- Distance of Span port `p`'s SL registers from port E's. -/
def slo (p : Nat) : Nat := p * 0x1000

/-- Distance of Span port `p`'s SN registers from port E's. -/
def sno (p : Nat) : Nat := p * 0x80

/-- Class numbers of R229. -/
abbrev clsMGMT : Nat := 0
abbrev clsTIME : Nat := 1
abbrev clsTILE : Nat := 2
abbrev clsMATE : Nat := 3
abbrev clsACT : Nat := 4
abbrev clsBULK : Nat := 5

/-- FLAGS bits of R229. -/
abbrev flBCAST : Nat := 1
abbrev flLOCAL : Nat := 2
abbrev flCTRL : Nat := 4
abbrev flLAST : Nat := 8
abbrev flNOSRC : Nat := 16

/-! ## The ports and the unit -/

/-- The network layer of port `p`; a port number beyond W reads as port W. -/
def netPort (s : State) (p : Nat) : NetPort := if p = 0 then s.net.ports[0] else s.net.ports[1]

/-- Change the network layer of port `p`. -/
def setNetPort (s : State) (p : Nat) (f : NetPort → NetPort) : State :=
  let v := s.net.ports
  { s with net := { s.net with ports := if p = 0 then v.set 0 (f v[0]) else v.set 1 (f v[1]) } }

/-- The state of Span port `p` (SL_STAT.STATE, R211). -/
def slState (s : State) (p : Nat) : Nat := fget s fSL_STAT_STATE (slo p)

/-- Port `p` carries packets: ACTIVE or DEGRADED. -/
def linkUp (s : State) (p : Nat) : Bool := slState s p == 5 || slState s p == 6

/-- Packets for port `p` wait in its queues: it is neither DISABLED nor in DETECT (R238). -/
def portLive (s : State) (p : Nat) : Bool := 2 ≤ slState s p

/-- This unit holds a pier. -/
def pierValid (s : State) : Bool := fbit s fSN_PIER_VALID

/-- This unit's pier, 0 while it has none. -/
def myPier (s : State) : Nat := if pierValid s then fget s fSN_PIER_PIER_ID else 0

/-- This unit is the Keystone. -/
def isKeystone (s : State) : Bool := fbit s fSN_PIER_KEYSTONE

/-- Causeway service is in force: Dennil is not running (R424). -/
def causeway (s : State) : Bool := fget s fMB_DENNIL_STAT_STATE != 2

/-- The port that faces east in chain directions (R221). -/
def eastPort (s : State) : Nat := if fbit s fSN_PIER_FLIP then 1 else 0

/-- The SN_ROUTE code of a pier: 0 unreachable, 1 port E, 2 port W, 3 this unit. -/
def routeCode (s : State) (pier : Nat) : Nat :=
  bits (rdn s (SN_ROUTE + pier / 16 * 4)) (2 * (pier % 16) + 1) (2 * (pier % 16))

/-- Set the route of a pier. -/
def setRoute (s : State) (pier code : Nat) : State :=
  let a := SN_ROUTE + pier / 16 * 4
  wrn s a (setBits (rdn s a) (2 * (pier % 16) + 1) (2 * (pier % 16)) code)

/-- The index of this unit in the map. -/
def myIndex (s : State) : Option Nat :=
  if pierValid s then s.net.chain.findIdx? (fun u => !u.transparent && u.pier == myPier s) else none

/-- The port that faces the Keystone as the map tells it (R221); none where no map names this unit. -/
def keystonePort (s : State) : Option Nat :=
  match myIndex s, s.net.chain.findIdx? (fun u => u.keystone) with
  | some i, some k => some (if i < k then eastPort s else 1 - eastPort s)
  | _, _ => none

/-- Where a packet for `pier` goes: 3 this unit, 1 or 2 a port, 0 nowhere. Pier 0 lies upstream even before a chain
map has arrived (R222), on the side of the Keystone that the map has told. -/
def routeTo (s : State) (pier : Nat) : Nat :=
  if pierValid s ∧ pier = myPier s then 3
  else
    let c := routeCode s pier
    let up := fget s fSN_PIER_UPSTREAM
    let side := match keystonePort s with | some p => up == p + 1 | none => true
    if c = 0 ∧ pier = 0 ∧ up ≠ 0 ∧ side = true ∧ portLive s (up - 1) then up else c

/-- The chain map holds `pier` as reachable, or it is this unit. -/
def hasRoute (s : State) (pier : Nat) : Bool := routeTo s pier != 0

/-- A packet for `pier` can be sent: its pier is reachable, and SN_CTL.EN lets it pass (R232). -/
def reachable (s : State) (pier : Nat) : Bool :=
  hasRoute s pier && (fbit s fSN_CTL_EN || routeTo s pier == 3)

/-- The link toward a pier runs below version 1.1, so Dennil acts as if REMOTE_EN were 0 toward it (R240). -/
def oldLink (s : State) (pier : Nat) : Bool :=
  let r := routeTo s pier
  (r == 1 || r == 2) && decide (fget s fSL_STAT_VER (slo (r - 1)) < 0x11)

/-! ## Sending -/

/-- HELLO and CREDIT, which take no credits (R235). -/
def creditExempt (k : SpanPkt) : Bool :=
  k.cls == clsMGMT && bit k.flags 2 && (byteAt k.payload 0 == 1 || byteAt k.payload 0 == 2)

/-- What passes while SN_CTL.EN = 0 (R232). -/
def alwaysCarried (k : SpanPkt) : Bool := creditExempt k || k.cls == clsTIME

/-- Both ends of port `p`'s link are Keystones (R226). -/
def dualKeystone (s : State) (p : Nat) : Bool :=
  isKeystone s && (match (netPort s p).partner with | some h => bit h.flags 1 | none => false)

/-- The bytes of a packet between SOP and EOP: its header with HCRC, its payload, and the CRC-32 (R229, R230). -/
def pktBytes (k : SpanPkt) : List Byte :=
  let h := leBytes 1 k.cls ++ leBytes 1 k.flags ++ leBytes 2 k.dst ++ leBytes 2 k.src ++ leBytes 2 k.payload.length ++
    leBytes 2 k.msg ++ leBytes 2 k.seg ++ leBytes 2 k.ttl
  let b := h ++ leBytes 2 (crc16 h) ++ k.payload
  b ++ leBytes 4 (crc32 b)

/-- A packet made here that waits. -/
def ownItem (k : SpanPkt) : TxItem := ⟨k, none, false, false⟩

/-- Append a packet to a transmit queue of port `p` (R234). -/
def enqueue (s : State) (p : Nat) (t : TxItem) : State :=
  setNetPort s p (fun n => match t.ingress with
    | none => { n with txLocal := upd n.txLocal t.pkt.cls (fun q => q ++ [t]) }
    | some _ => { n with txFwd := upd n.txFwd t.pkt.cls (fun q => q ++ [t]) })

/-- The packets of one message: the given payloads in SEG order, the last with LAST set (R229). -/
def mkMsg (s : State) (cls flags dst : Nat) (segs : List (List Byte)) : List SpanPkt :=
  let src := if pierValid s then 0 else flNOSRC
  segs.mapIdx (fun i pl =>
    { cls := cls, flags := flags + src + (if i + 1 = segs.length then flLAST else 0), dst := dst,
      src := myPier s, msg := nth s.net.msgNo cls, seg := i, ttl := fget s fSN_CTL_TTL, payload := pl })

/-- Count one message of a class. -/
def bumpMsg (s : State) (cls : Nat) : State :=
  { s with net := { s.net with msgNo := upd s.net.msgNo cls (fun n => (n + 1) % 65536) } }

/-- Drop packets for want of a route (R231, R232). -/
def dropNoRoute (s : State) (p n : Nat) : State :=
  evt (cntAdd s (SN_CNT_NOROUTE + sno p) n) fSN_EVT_DROP

/-- Send a message to a pier; `segs` are its packets' payloads. Without a route, or while SN_CTL.EN = 0, its packets
are dropped (R232). A message for this unit itself never leaves it. -/
def netSend (s : State) (cls flags dst : Nat) (segs : List (List Byte)) : State :=
  let s1 := bumpMsg s cls
  let pk := mkMsg s cls flags dst segs
  let r := routeTo s dst
  if r = 3 then s
  else if r = 0 then dropNoRoute s1 0 pk.length
  else if !fbit s fSN_CTL_EN then dropNoRoute s1 (r - 1) pk.length
  else pk.foldl (fun t k => enqueue t (r - 1) (ownItem k)) s1

/-- Send a message to the partner on port `p` (LOCAL, R229); while SN_CTL.EN = 0 only HELLO, CREDIT and TIME pass
(R232). -/
def netLocal (s : State) (p cls flags : Nat) (payload : List Byte) : State :=
  let s1 := bumpMsg s cls
  let pk := mkMsg s cls (flags + flLOCAL) 0 [payload]
  let kind := byteAt payload 0
  let exempt := cls = clsTIME ∨ (cls = clsMGMT ∧ flags = flCTRL ∧ (kind = 1 ∨ kind = 2))
  if ¬ fbit s fSN_CTL_EN ∧ ¬ exempt then dropNoRoute s1 p 1
  else if portLive s p then pk.foldl (fun t k => enqueue t p (ownItem k)) s1
  else s

/-- Send a message to every unit, out of both ports (R232). -/
def netBcast (s : State) (cls flags : Nat) (segs : List (List Byte)) : State :=
  let s1 := bumpMsg s cls
  let pk := mkMsg s cls (flags + flBCAST) 0 segs
  if !fbit s fSN_CTL_EN then dropNoRoute s1 0 pk.length
  else forEach [0, 1] (fun p t => if portLive s p then pk.foldl (fun u k => enqueue u p (ownItem k)) t else t) s1

/-! ## HELLO (R235, R242) -/

/-- The pier beyond port `p` as the partner's HELLO tells it: the partner's own, else the pier beyond it. -/
def pierBeyond (s : State) (p : Nat) : Nat :=
  if !linkUp s p then 0xFFFF
  else match (netPort s p).partner with
    | none => 0xFFFF
    | some h => if bit h.flags 0 then h.pier else h.otherPier

/-- The configured grant of class `c` on port `p`. -/
def grantCfg (s : State) (p c : Nat) : Nat :=
  let w := rdn s (SN_GRANT01 + sno p + c / 2 * 4)
  if c % 2 = 0 then w % 65536 else w / 65536

/-- The HELLO payload of port `p`. -/
def helloBytes (s : State) (p : Nat) : List Byte :=
  let b := fun (x : Bool) (w : Nat) => if x then w else 0
  let hops := fget s fSN_PIER_HOPS
  [1#8, BitVec.ofNat 8 (b (pierValid s) 1 + b (isKeystone s) 2 + b (fbit s fHE_STAT_LINK_UP) 4 +
      b (causeway s) 8 + b (fbit s fSN_PIER_TRANSPARENT) 16)] ++
    leBytes 2 (myPier s) ++ leBytes 2 (if hops = 0x3FF then 0xFFFF else hops) ++
    leBytes 2 (pierBeyond s (1 - p)) ++ [BitVec.ofNat 8 (fget s fSN_CHAIN_FLOOR)] ++ zeros 3 ++
    (netPort s p).offered.flatMap (leBytes 2) ++ leBytes 4 s.net.serial ++ zeros 4

/-- Send a HELLO on port `p`. -/
def sendHello (s : State) (p : Nat) : State :=
  if linkUp s p then netLocal s p clsMGMT flCTRL (helloBytes s p) else s

/-- Repeat the HELLO of every port whose fields changed since `old` (R242). -/
def helloOnChange (old s : State) : State :=
  forEach [0, 1] (fun p t =>
    if linkUp t p ∧ linkUp old p ∧ helloBytes t p ≠ helloBytes old p then sendHello t p else t) s

/-! ## Dennil messages (R242, R403) -/

/-- A 16-byte Dennil message of the given topic, broadcast to every unit. -/
def bcastDennil (s : State) (topic : Nat) (body : List Byte) : State :=
  netBcast s clsMGMT flCTRL [[0x10#8, BitVec.ofNat 8 topic] ++ body]

/-- A Dennil message to one pier. -/
def sendDennil (s : State) (pier topic : Nat) (body : List Byte) : State :=
  netSend s clsMGMT flCTRL pier [[0x10#8, BitVec.ofNat 8 topic] ++ body]

/-- The first unit of a list that is numbered and not transparent. -/
def firstNumbered (l : List ChainUnit) : Option Nat := (l.find? (fun u => !u.transparent)).map (·.pier)

/-- Cut a list of bytes into pieces of at most `n`. -/
def pieces (fuel n : Nat) (l : List Byte) : List (List Byte) :=
  match fuel with
  | 0 => []
  | k + 1 => if l.length ≤ n then [l] else l.take n :: pieces k n (l.drop n)

/-- The nearest numbered unit east or west of this one on the chain map (R221); an unnumbered unit is not on it. -/
def neighbour (s : State) (east : Bool) : Option Nat :=
  let l := if east then s.net.chain else s.net.chain.reverse
  if pierValid s then firstNumbered ((l.dropWhile (fun u => u.pier != myPier s || u.transparent)).drop 1) else none

/-- The credits that a packet of `len` payload bytes takes (R235). -/
def credits (len : Nat) : Nat := (20 + len + 63) / 64

/-- Credits available toward the partner for class `c` (R236). -/
def credAvail (n : NetPort) (c : Nat) : Nat :=
  (nth n.grant c + nth n.freed c + 65536 - nth n.sent c) % 65536

/-- Keep SN_AVAIL of port `p` at its credit counts. -/
def syncAvail (p : Nat) (s : State) : State :=
  let n := netPort s p
  forEach [0, 1, 2] (fun i t =>
    wrn t (SN_AVAIL01 + sno p + i * 4) (credAvail n (2 * i) + 65536 * credAvail n (2 * i + 1))) s

/-- Free `n` credits of class `c` on the port that a packet came in on (R236). -/
def freeCredits (p c n : Nat) (s : State) : State :=
  setNetPort s p (fun x => { x with ownFreed := upd x.ownFreed c (fun v => (v + n) % 65536) })

/-! ## Transmission (R234 to R236) -/

/-- A waiting packet can be begun: it is credit-exempt, or the partner's HELLO has come and credit covers it. A link
between two Keystones carries HELLO and CREDIT only (R226). -/
def canBegin (s : State) (p : Nat) (t : TxItem) : Bool :=
  let n := netPort s p
  creditExempt t.pkt || (!dualKeystone s p && n.helloRx && decide (credits t.pkt.payload.length ≤ credAvail n t.pkt.cls))

/-- The queue of class `c` to look at first: forwarded packets alternate with local ones. -/
def preferFwd (n : NetPort) (c : Nat) : Bool :=
  if (n.txFwd.getD c []).isEmpty then false
  else if (n.txLocal.getD c []).isEmpty then true
  else !n.fwdLast.getD c false

/-- The packet of class `c` that port `p` can begin, and whether it is a forwarded one. HELLO and CREDIT pass packets of
their class that wait for credit. -/
def nextOf (s : State) (p c : Nat) : Option (TxItem × Bool) :=
  let n := netPort s p
  let fwd := preferFwd n c
  let q := if fwd then n.txFwd.getD c [] else n.txLocal.getD c []
  match q with
  | [] => none
  | t :: _ =>
    if canBegin s p t then some (t, fwd)
    else ((n.txLocal.getD c []).find? (fun x => creditExempt x.pkt)).map (fun x => (x, false))

/-- The classes in the order in which port `p` looks at them now. -/
def classOrder (s : State) (p : Nat) : List Nat :=
  [clsTIME, clsACT, clsMATE, clsMGMT] ++ (if (netPort s p).bulkLast then [clsTILE, clsBULK] else [clsBULK, clsTILE])

/-- The packet that port `p` begins next, and whether it is a forwarded one. -/
def nextTx (s : State) (p : Nat) : Option (TxItem × Bool) :=
  if linkUp s p then (classOrder s p).findSome? (nextOf s p) else none

/-- A packet leaves a queue of port `p`: its credits are taken, the turns of R234 pass on, and a forwarded packet's credits are
freed. -/
def takeItem (p : Nat) (x : TxItem × Bool) (s : State) : State :=
  let t := x.1
  let fwd := x.2
  let c := t.pkt.cls
  let k := if creditExempt t.pkt then 0 else credits t.pkt.payload.length
  let s1 := setNetPort s p (fun n => { n with
    sent := upd n.sent c (fun v => (v + k) % 65536)
    txFwd := if fwd then upd n.txFwd c (fun q => q.erase t) else n.txFwd
    txLocal := if fwd then n.txLocal else upd n.txLocal c (fun q => q.erase t)
    fwdLast := upd n.fwdLast c (fun _ => fwd)
    bulkLast := if c = clsTILE then false else if c = clsBULK then true else n.bulkLast })
  let s2 := cnt (syncAvail p s1) (SN_CNT_TX + sno p)
  match t.ingress with
  | some q => freeCredits q.val c k s2
  | none => s2

/-! ## REPORT (R242) -/

/-- The version of port `p`'s link, 0 when it is down. -/
def linkVer (s : State) (p : Nat) : Nat := if linkUp s p then fget s fSL_STAT_VER (slo p) else 0

/-- Every PP_CTL.EN and AC_CTL.EN is 0. -/
def quietUnit (s : State) : Bool :=
  (List.range 16).all (fun n => !fbit s fPP_CTL_EN (n * 0x10000)) && !fbit s fAC_CTL_EN

/-- The IDLE byte of this unit's REPORT. -/
def idleByte (s : State) : Nat := (if quietUnit s then 1 else 0) + (if fget s fLG_STAT_LIVE = 0 then 2 else 0)

/-- A REPORT payload. -/
def reportBytes (s : State) : List Byte :=
  let e := eastPort s
  [5#8, 0#8] ++ leBytes 2 (myPier s) ++ leBytes 4 s.net.serial ++ leBytes 1 (linkVer s e) ++ leBytes 1 (linkVer s (1 - e)) ++
    leBytes 1 (idleByte s) ++ zeros 5

/-- Tell pier 0 of this unit's host link, which REPORT does not carry; the TOPIC is not stated and is free (log 65). -/
def sendHostLink (s : State) : State :=
  sendDennil (useFree s) 0 (freeVal s) (leBytes 1 (if fbit s fHE_STAT_LINK_UP then 1 else 0) ++ zeros 13)

/-- This unit has a place on the chain and a way to pier 0: it is numbered or transparent. -/
def reports (s : State) : Bool := (pierValid s || fbit s fSN_PIER_TRANSPARENT) && reachable s 0

/-- Send a REPORT to pier 0. -/
def reportSend (s : State) : State :=
  if reports s then
    let s1 := netSend s clsMGMT flCTRL 0 [reportBytes s]
    sendHostLink { s1 with net := { s1.net with idleSent := idleByte s } }
  else s

/-- A REPORT when the IDLE byte has changed, from which SPAN_REENUMERATE judges this unit (R228; DEDUCED, log 65). -/
def idleReport (s : State) : State := if !isKeystone s && idleByte s != s.net.idleSent then reportSend s else s

end Sys2Proof.Machine
end

