-- ==== Sys2Proof/Machine/Pa.lean ====
section
/-! DEFINITION. What Parapet does at every detection before the safe state (R397, R398, R403, R404, R406): the sticky
bit, the counts, the log, the notice. Machine/Safe.lean adds the safe state. -/

namespace Sys2Proof.Machine

/-- The class of a source, from PA_CLASS (R396). -/
def paClass (s : State) (src : Nat) : Nat :=
  bits (rdn s (PA_CLASS + src / 16 * 4)) (2 * (src % 16) + 1) (2 * (src % 16))

/-- The source numbers that R396 assigns. -/
def paAssigned (src : Nat) : Bool :=
  src ≤ 4 || (8 ≤ src && src ≤ 0xC) || (0x10 ≤ src && src ≤ 0x1C) || (0x20 ≤ src && src ≤ 0x3A) ||
    (0x40 ≤ src && src ≤ 0x42) || (0x50 ≤ src && src ≤ 0x52) || (0x60 ≤ src && src ≤ 0x62) ||
    src == 0x70 || src == 0x71 || (0x78 ≤ src && src ≤ 0x7F) || (0x80 ≤ src && src ≤ 0x85) || src == 0x90 ||
    (0xA0 ≤ src && src ≤ 0xA2) || (0xA8 ≤ src && src ≤ 0xAA) || src == 0xB0 || src == 0xB1 ||
    (0x100 ≤ src && src < 0x200 && src % 16 ≤ 1)

/-- The sticky bit of a source. -/
def paSticky (s : State) (src : Nat) : Bool := bit (rdn s (PA_STICKY + src / 32 * 4)) (src % 32)

/-- The mask bit of a source; bits of SEVERE and FATAL sources read 0 (R397). -/
def paMasked (s : State) (src : Nat) : Bool :=
  bit (rdn s (PA_MASK + src / 32 * 4)) (src % 32) && paClass s src < 2

/-- Set or clear a sticky bit and keep PA_STAT.STICKY_CNT. -/
def paSetSticky (s : State) (src : Nat) (b : Bool) : State :=
  let was := paSticky s src
  let n := fget s fPA_STAT_STICKY_CNT
  let s1 := regBit s (PA_STICKY + src / 32 * 4) (src % 32) b
  fset s1 fPA_STAT_STICKY_CNT (if b && !was then n + 1 else if was && !b then n - 1 else n)

/-- Write a PA log entry (R404). -/
def paLog (s : State) (src cls : Nat) : State :=
  let i := s.pa.logged % 16 * 16
  let s1 := if fbit s fPA_LOG_INFO_VALID i then evt (cntWrap s PA_LOG_OVF) fPA_EVT_LOG_OVF else s
  let s2 := { s1 with pa := { s1.pa with logged := s1.pa.logged + 1 } }
  let s3 := wrn s2 (PA_LOG_INFO + i) (2 ^ 31 + cls * 2 ^ 24 + src)
  wrn (wrn s3 (PA_LOG_STAMP + i) (now s)) (PA_LOG_SEQ + i) s2.pa.logged

/-- Send a Parapet notice (R403); its SAFE flag is set in the first notice after an entry to the safe state only,
so that a unit sends at most one SAFE notice per entry (log 30). -/
def paNotice (s : State) (src cls : Nat) : State :=
  if !fbit s fPA_CTL_NOTIFY then s
  else
    let safe := fbit s fPA_STAT_SAFE && !s.pa.safeSent
    let fl := (if safe then 1 else 0) + (if fbit s fPA_STAT_REPLACE then 2 else 0)
    let s1 := if safe then { s with pa := { s.pa with safeSent := true } } else s
    bcastDennil s1 0x50 (leBytes 2 src ++ leBytes 1 cls ++ leBytes 1 fl ++ leBytes 2 (myPier s) ++
      leBytes 4 (now s) ++ zeros 4)

/-- NOTIFY_MIN allows a notice of a class (R398; 00b acts as 01b). A FATAL detection always sends one. -/
def paNotifies (s : State) (cls : Nat) : Bool :=
  decide (max 1 (fget s fPA_CTL_NOTIFY_MIN) ≤ cls)

/-- The reactions of a class short of the safe state and the notice (R398, R404, R406). -/
def paReact (s : State) (src cls : Nat) : State :=
  let s1 := evtBit s PA_EVT cls
  let s2 := if 1 ≤ cls then paLog s1 src cls else s1
  let s3 := if cls = 3 then fbset s2 fPA_STAT_FATAL_SEEN true else s2
  let s4 := if src ≤ 1 ∧ cls = 3 then
      fset { s3 with pa := { s3.pa with halted := true } } fMB_DENNIL_STAT_STATE 3 else s3
  if 2 ≤ cls then
    let s5 := if fbit s4 fPA_FIRST_SRC_VALID then s4
      else wrn (wrn s4 PA_FIRST_SRC (2 ^ 31 + cls * 2 ^ 24 + src)) PA_FIRST_STAMP (now s)
    if src ≤ 1 then s5 else { s5 with pa := { s5.pa with faultRecs := s5.pa.faultRecs ++ [src] } }
  else s4

/-- Latch a source: sticky bit and count (R397). -/
def paCount (s : State) (src : Nat) : State :=
  cnt (paSetSticky s src true) (PA_CNT + paClass s src * 4)

/-- A detection reacts beyond its count: sticky bit clear before and not masked (R398). -/
def paReacts (s : State) (src : Nat) : Bool := !paSticky s src && !paMasked s src

/-- The detection of a CORRECTABLE or DEGRADED source (R397, R398, R403). -/
def paMinor (s : State) (src : Nat) : State :=
  let cls := paClass s src
  let s1 := paCount s src
  if paReacts s src then
    let s2 := paReact s1 src cls
    if paNotifies s cls then paNotice s2 src cls else s2
  else s1

end Sys2Proof.Machine
end

