-- ==== Sys2Proof/Machine/Aer.lean ====
section
/-! DEFINITION. Error reporting of the host endpoint (R246, R265): the Status register, Device Status, the Advanced Error
Reporting capability, error messages and the Parapet sources. PRESUMED: what PCI Express specifies of them (log 20). -/

namespace Sys2Proof.Machine

/-- Set bits of the configuration dword at `o`. -/
def cfgSet (o m : Nat) (s : State) : State := cfgWr s o ((cfgRd s o).lor m)


/-- Send an error message of a kind: 0 ERR_COR, 1 ERR_NONFATAL, 2 ERR_FATAL. Device Control enables each, and a report of an
Unsupported Request (`ur`) on its own; SERR# Enable enables the last two as well, and then Signaled System Error is set. -/
def errMessage (kind : Nat) (ur : Bool) (s : State) : State :=
  let serr := bit (cfgRd s 0x04) 8 && kind != 0
  let on := bit (cfgRd s 0x58) kind && (!ur || bit (cfgRd s 0x58) 3)
  if !(serr || on) || !msgOk s then s
  else emit (if serr then cfgSet 0x04 (2 ^ 30) s else s) (.errMsg kind)

/-- Log the first error: the pointer to its status bit and a header whose words the model does not know, unless an earlier one
is still logged. -/
def aerHeader (old bitNo : Nat) (s : State) : State :=
  if bit old (cfgRd s 0x118 % 32) then s
  else forEach [0, 1, 2, 3] (fun i t => useFree (cfgWr t (0x11C + 4 * i) (freeVal t)))
    (cfgWr s 0x118 (setBits (cfgRd s 0x118) 4 0 bitNo))

/-- An uncorrectable error: fatal or not as its severity bit says; masked, it is neither logged nor reported. Source 062h
follows whatever the host has set. -/
def aerUncorr (bitNo : Nat) (s : State) : State :=
  let fatal := bit (cfgRd s 0x10C) bitNo
  let ur := bitNo == 20
  let old := cfgRd s 0x104
  let s1 := cfgSet 0x58 ((if fatal then 2 ^ 18 else 2 ^ 17) + (if ur then 2 ^ 19 else 0)) s
  let s2 := cfgSet 0x104 (2 ^ bitNo) s1
  let s3 := if bit (cfgRd s 0x108) bitNo then s2
    else errMessage (if fatal then 2 else 1) ur (aerHeader old bitNo s2)
  paMinor s3 0x62

/-- An error handled as an Advisory Non-Fatal Error: reported as correctable, and unless that is masked logged under its own
status bit. Source 061h follows whatever the host has set. -/
def aerAdvisory (bitNo : Nat) (s : State) : State :=
  let ur := bitNo == 20
  let old := cfgRd s 0x104
  let s1 := cfgSet 0x110 (2 ^ 13) (cfgSet 0x58 (2 ^ 16 + (if ur then 2 ^ 19 else 0)) s)
  let s2 := if bit (cfgRd s 0x114) 13 then s1
    else
      let s3 := cfgSet 0x104 (2 ^ bitNo) s1
      errMessage 0 ur (if bit (cfgRd s 0x108) bitNo then s3 else aerHeader old bitNo s3)
  paMinor s2 0x61

/-- An error of a request that the endpoint completes: advisory while its severity is non-fatal. -/
def aerCompleter (bitNo : Nat) (s : State) : State :=
  if bit (cfgRd s 0x10C) bitNo then aerUncorr bitNo s else aerAdvisory bitNo s

/-- A request is completed as Unsupported Request (R250). -/
def sendUr (tag : Nat) (s : State) : State :=
  emit (aerCompleter 20 (cnt s HE_CNT_UR_SENT)) (.completion .host tag 1 [] false)

/-- A request is completed as Completer Abort (R318). -/
def sendCa (tag : Nat) (s : State) : State :=
  emit (aerCompleter 15 (cfgSet 0x04 (2 ^ 27) s)) (.completion .host tag 4 [] false)

end Sys2Proof.Machine
end

