-- ==== Sys2Proof/Machine/Mem.lean ====
section
/-! DEFINITION. What the blocks share: Toll budgets (R364 to R371), LP5X pools and errors (R357 to R361), the queue
blocks (chapter 21), and DMA to host memory. -/

namespace Sys2Proof.Machine

/-! ## Toll -/

/-- The instance distance of client `c` and resource `r` in TO_BUD and TO_AVAIL. -/
def tollOfs (c r : Nat) : Nat := (4 * c + r) * 4

/-- Client `c` covers `cost` units of resource `r` (R366). While TO_CTL.EN = 0 no client is limited (R370). -/
def tollCovers (s : State) (c r cost : Nat) : Bool :=
  !fbit s fTO_CTL_EN || decide (cost ≤ rdn s (TO_AVAIL + tollOfs c r))

/-- Add to element `r` of a list of sums. -/
def addAt (l : List Nat) (r n : Nat) : List Nat := upd l r (fun x => x + n)

/-- Add to a 64-bit sum of a sparse map. -/
def smAdd (m : Sparse Nat) (k n : Nat) : Sparse Nat := smPut m k 0 ((smGet m k 0 + n) % 2 ^ 64)

/-- Take the cost of an issued transaction from A (R366). -/
def tollTake (s : State) (c r cost : Nat) : State :=
  if !fbit s fTO_CTL_EN then s
  else
    let s1 := wrn s (TO_AVAIL + tollOfs c r) (rdn s (TO_AVAIL + tollOfs c r) - cost)
    { s1 with toll := { s1.toll with spent := smAdd s1.toll.spent (4 * c + r) cost } }

/-- All the costs of a transaction are covered. -/
def tollCan (s : State) (c : Nat) (costs : List (Nat × Nat)) : Bool :=
  costs.all (fun rc => tollCovers s c rc.1 rc.2)

/-- Issue a transaction. -/
def tollSpend (s : State) (c : Nat) (costs : List (Nat × Nat)) : State :=
  costs.foldl (fun t rc => tollTake t c rc.1 rc.2) s

/-- Units that client `c` still owes for a transfer in progress. -/
def tollOwed (s : State) (c r : Nat) : Nat := smGet s.toll.owed (4 * c + r) 0

/-- Take what A covers of the owed units of key 4 × client + resource. -/
def tollSettle (k : Nat) (s : State) : State :=
  let n := min (smGet s.toll.owed k 0) (rdn s (TO_AVAIL + 4 * k))
  if n = 0 then s
  else { tollTake s (k / 4) (k % 4) n with toll := { (tollTake s (k / 4) (k % 4) n).toll with
    owed := smPut s.toll.owed k 0 (smGet s.toll.owed k 0 - n) } }

/-- A streaming client begins a transfer that goes on over later periods (log 23): A covers its first transaction, what A
covers is taken, and the rest is owed. -/
def tollBegin (s : State) (c : Nat) (costs : List (Nat × Nat)) : State :=
  if !fbit s fTO_CTL_EN then s
  else costs.foldl (fun t rc => tollSettle (4 * c + rc.1) { t with toll := { t.toll with
    owed := smPut t.toll.owed (4 * c + rc.1) 0 (tollOwed t c rc.1 + rc.2) } }) s

/-- A period in which client `c` could not cover a transaction (R367): counted once, and EXHAUST for a streaming
client. -/
def tollShort (s : State) (c : Nat) (streaming : Bool) : State :=
  let s1 := if s.toll.short.contains c then s
    else cnt { s with toll := { s.toll with short := c :: s.toll.short } } (TO_CNT_EXH + c * 4)
  if streaming then evt s1 fTO_EVT_EXHAUST else s1

/-- LP5X units of `n` bytes (R364). -/
def lp5Units (n : Nat) : Nat := (n + 63) / 64

/-- Trestle transactions of `n` bytes: up to 256 bytes each (R362). -/
def trestleUnits (n : Nat) : Nat := (n + 255) / 256

/-! ## Pools (R360, R361) -/

/-- Blocks held in pool `p`. -/
def poolHeld (s : State) (p : Nat) : Nat := nth s.mem.held p

/-- A pool has `n` free blocks. -/
def poolCan (s : State) (p n : Nat) : Bool := decide (n ≤ rdn s (MM_POOL_FREE + p * 16))

/-- FREE of pool `p` becomes `f`, and LOW follows: the least since the last read, which a read has cleared until FREE changes
(log 82). -/
def poolFree (p f : Nat) (s : State) : State :=
  let was := rdn s (MM_POOL_FREE + p * 16)
  let low := if s.mem.lowClear.contains p then was else rdn s (MM_POOL_LOW + p * 16)
  let s1 := wrn (wrn s (MM_POOL_FREE + p * 16) f) (MM_POOL_LOW + p * 16) (min low f)
  { s1 with mem := { s1.mem with lowClear := s1.mem.lowClear.filter (fun x => x != p) } }

/-- Take `n` free blocks. -/
def poolTake (s : State) (p n : Nat) : State :=
  let s1 := poolFree p (rdn s (MM_POOL_FREE + p * 16) - n) s
  { s1 with mem := { s1.mem with held := addAt s1.mem.held p n } }

/-- A request that an empty pool refuses. -/
def poolRefuse (s : State) (p : Nat) : State :=
  evt (cnt s (MM_POOL_CNT_EMPTY + p * 16)) fMM_EVT_POOL_EMPTY

/-- Return `n` blocks, at most those held. -/
def poolGive (s : State) (p n : Nat) : State :=
  let k := min n (poolHeld s p)
  let s1 := poolFree p (rdn s (MM_POOL_FREE + p * 16) + k) s
  { s1 with mem := { s1.mem with held := upd s1.mem.held p (fun x => x - k) } }

/-- The 4 KiB blocks that hold `n` bytes. -/
def blocksOf (n : Nat) : Nat := (n + 4095) / 4096

/-! ## LP5X errors (R357, R359) -/

/-- A corrected LP5X error at an address. -/
def lp5Ce (s : State) (a : Nat) : State :=
  paMinor (evt (cnt s (MM_CNT_CE + lp5Channel a * 4)) fMM_EVT_CE) 0x70

/-- An uncorrectable LP5X error at an address; errors are counted per second for R359. -/
def lp5Ue (s : State) (a : Nat) : State :=
  let ch := lp5Channel a
  let sec := s.tick / 500000000
  let base := if sec = s.mem.ueSecond then s.mem.ueNow else List.replicate 8 0
  let s1 := { s with mem := { s.mem with ueNow := addAt base ch 1, ueSecond := sec } }
  let s2 := wrn (wrn (cnt s1 (MM_CNT_UE + ch * 4)) MM_UE_ADDR_LO a) MM_UE_ADDR_HI (a / 2 ^ 32)
  paMinor (evt s2 fMM_EVT_UE) 0x71

/-- A read at `a` whose check ends so. -/
def lp5Check (c : ReadCheck) (a : Nat) (s : State) : State :=
  match c with
  | .good => s
  | .corrected => lp5Ce s a
  | .failed => lp5Ue s a

/-- A read of `n` bytes at `a` meets a lost channel and returns poisoned data (R359). -/
def lp5Poison (s : State) (a n : Nat) : Bool :=
  (List.range (blocksOf (n + a % 4096))).any (fun k => lp5Lost s (a + k * 4096))

/-- The usable LP5X capacity U in bytes (R355). -/
def lp5Usable (s : State) : Nat := fget s fMM_CAP_USABLE * 1048576

/-- The base of the reserved region (R356). -/
def rsvBase (s : State) : Nat := fget s fMM_RSV_BASE_V * 16777216

/-! ## Host accesses through W1 (R251, R364, R367) -/

/-- Replace the waiting W1 accesses. -/
def setW1 (l : List W1Acc) (s : State) : State := { s with he := { s.he with w1 := l } }

/-- A W1 access that has been paid for takes effect. -/
def w1Do (x : W1Acc) (s : State) : State :=
  if x.write then forEach x.bytes (fun b t => lp5Put t b.1 b.2) s
  else
    let lost := lp5Poison s x.addr x.len
    let s1 := if lost then s else lp5Check x.check x.addr s
    emit s1 (.completion .host x.tag 0 (lp5Bytes s x.addr x.len) (lost || x.check == .failed))

/-- Client 37 issues the waiting accesses in order, in transactions of up to 256 bytes, as far as its units go. -/
def w1Run (fuel : Nat) (s : State) : State :=
  match fuel, s.he.w1 with
  | k + 1, x :: rest =>
    if x.len ≤ x.paid then w1Run k (w1Do x (setW1 rest s))
    else
      let m := min 256 (x.len - x.paid)
      let costs := [(0, lp5Units m), (2, 1)]
      if tollCan s 37 costs then w1Run k (setW1 ({ x with paid := x.paid + m } :: rest) (tollSpend s 37 costs))
      else tollShort s 37 false
  | _, _ => s

/-- Issue what can be issued. -/
def w1Drain (s : State) : State := w1Run ((s.he.w1.map (fun x => x.len / 256 + 2)).sum) s

/-! ## Queue blocks (chapter 21) -/

/-- An empty queue. -/
def emptyQueue : Queue := ⟨[], [], false⟩

/-- Queue instance `q`. -/
def quGet (s : State) (q : Nat) : Queue := smGet s.queues q emptyQueue

/-- Set queue instance `q`. -/
def quPut (s : State) (q : Nat) (v : Queue) : State := { s with queues := smPut s.queues q emptyQueue v }

/-- Distance of instance `q`'s registers. -/
def quo (q : Nat) : Nat := q * 0x80

/-- Bytes of a read word of instance `q` (R386). -/
def quWordBytes (s : State) (q : Nat) : Nat := if fbit s fQU_CFG_WOUT (quo q) then 16 else 8

/-- The tag of R388. -/
def quTag (poison part endw : Bool) (vbytes : Nat) : Nat :=
  (if poison then 128 else 0) + (if part then 64 else 0) + (if endw then 32 else 0) + vbytes

/-- Cut a record into read words (R387): full words, and a last word filled with 00h and tagged END, and PART when
it is not full. -/
def quPack (fuel w : Nat) (rec : List Byte) : List QWord :=
  match fuel with
  | 0 => []
  | k + 1 =>
    if rec.length ≤ w then [⟨fit w rec, quTag false (decide (rec.length < w)) true rec.length⟩]
    else ⟨rec.take w, quTag false false false w⟩ :: quPack k w (rec.drop w)

/-- The held count of instance `q` becomes that of `words`; PEAK and HIGH follow (R393). -/
def quSetWords (s : State) (q : Nat) (v : Queue) : State :=
  let was := fget s fQU_LEVEL_HELD (quo q)
  let n := v.words.length
  let s1 := fset (quPut s q v) fQU_LEVEL_HELD n (quo q)
  let s2 := wrn s1 (QU_PEAK + quo q) (max (rdn s1 (QU_PEAK + quo q)) n)
  let high := fget s2 fQU_THR_HIGH (quo q)
  if high ≠ 0 ∧ was < high ∧ high ≤ n then quEvt s2 fQU_EVT_HIGH q else s2

/-- A record of `n` bytes finds room in instance `q` (R389). -/
def quRoom (s : State) (q n : Nat) : Bool :=
  let w := quWordBytes s q
  decide ((n + w - 1) / w + fget s fQU_LEVEL_HELD (quo q) + fget s fQU_LEVEL_RSV (quo q) ≤
    fget s fQU_CFG_SIZE (quo q))

/-- Write a whole record; without room nothing of it is stored, and its words count as written and dropped (R389). -/
def quWrite (s : State) (q : Nat) (rec : List Byte) : State :=
  let w := quWordBytes s q
  let words := quPack (rec.length + 1) w rec
  let s1 := cntWrap s (QU_CNT_WR + quo q) words.length
  if quRoom s q rec.length then
    let v := quGet s q
    quSetWords s1 q { v with words := v.words ++ words }
  else quEvt (cntWrap s1 (QU_CNT_DROP + quo q) words.length) fQU_EVT_DROP q

/-- A word that leaves the store: counted in RD; a parity error counts, sets POISON and raises source 090h (R390). -/
def quLeave (s : State) (q : Nat) (poison : Bool) : State :=
  let v := quGet s q
  let s1 := cntWrap (quSetWords s q { v with words := v.words.drop 1 }) (QU_CNT_RD + quo q)
  if poison then paMinor (quEvt (cnt s1 (QU_CNT_POISON + quo q)) fQU_EVT_POISON q) 0x90 else s1

/-- The words of the oldest record that a queue holds whole: up to the first word tagged END. -/
def quRecord (ws : List QWord) : List QWord :=
  match ws with
  | [] => []
  | w :: t => if bit w.tag 5 then [w] else w :: quRecord t

/-- The bytes of a record's words. -/
def quBytes (ws : List QWord) : List Byte := ws.flatMap (fun w => w.bytes.take (w.tag % 32))

/-- Drop the held words of an instance at a Function Level Reset (R394). -/
def quFlush (q : Nat) (s : State) : State :=
  let v := quGet s q
  if fbit s fQU_CFG_FLR_FLUSH (quo q) then
    fset (quSetWords (cntWrap s (QU_CNT_WOFF + quo q) v.words.length) q emptyQueue) fQU_LEVEL_RSV 0 (quo q)
  else s

/-! ## DMA -/

/-- Max_Payload_Size in bytes (R254). -/
def maxPayload (s : State) : Nat := 128 * 2 ^ bits (cfgRd s 0x58) 7 5

/-- Memory write requests for `data` from host address `addr`, none above `mps` bytes or across a multiple of it (R254,
log 104). -/
def tlpWrites (fuel mps addr : Nat) (data : List Byte) (poisoned relaxed : Bool) (s : State) : State :=
  match fuel with
  | 0 => s
  | k + 1 =>
    let n := mps - addr % mps
    if data = [] then s
    else tlpWrites k mps (addr + n) (data.drop n) poisoned relaxed (emit s (.dmaWrite addr (data.take n) poisoned relaxed))

/-- A DMA write to host memory. `data_` marks the data writes of tiles, taps and statistics, which carry the Relaxed
Ordering attribute where Device Control enables it (R253). A poisoned one sets Master Data Parity Error under Parity Error
Response (R246). -/
def dmaWrite (s : State) (addr : Nat) (data : List Byte) (poisoned : Bool := false) (data_ : Bool := false) : State :=
  tlpWrites (data.length + 1) (maxPayload s) addr data poisoned (data_ && bit (cfgRd s 0x58) 4)
    (if poisoned && bit (cfgRd s 0x04) 6 then cfgSet 0x04 (2 ^ 24) s else s)

/-- A 64-bit address held in a LO and a HI register. -/
def addr64 (s : State) (lo hi : Nat) : Nat := rdn s lo + 4294967296 * rdn s hi

end Sys2Proof.Machine
end

