-- ==== Sys2Proof/Machine/Ledger.lean ====
section
/-! DEFINITION. The object ledger (R116 to R122): allocation, entry updates, mate sets and the transitions that a set
makes as a whole, with the OUTCOME messages that report them (R137). -/

namespace Sys2Proof.Machine

/-! ## Entries -/

/-- A FREE entry (R117). -/
def emptyEntry : Entry :=
  { id := 0, st := .free, port := 0, group := 0, view := 0, outcome := 0, flags := 0, mateNext := 0, frame := 0,
    firstStamp := 0, lastStamp := 0, featPtr := 0, area := 0, action := 0, change := 0, range := none,
    img := 0, y0 := 0, y1 := 0, gen := 0, lastExt := 0 }

/-- The extended TB1 of R349. -/
def extTb1 (s : State) : Nat := (s.bases[1].carries * 65536 + s.bases[1].wrap) * 2 ^ 32 + s.bases[1].ns

/-- A 32-bit TB1 stamp extended against the present time (R185). -/
def extStamp (s : State) (t : Nat) : Nat := ((extTb1 s : Int) + sdiff t (now s)).toNat

/-- STATE codes of R117. -/
def stCode (e : EState) : Nat :=
  match e with
  | .free => 0 | .opened => 1 | .seen => 2 | .mated => 3 | .tiled => 4 | .judged => 5 | .scheduled => 6
  | .fired => 7 | .passed => 8 | .defaulted => 9 | .dropped => 10 | .retired => 11

/-- FLAGS bits of R117. -/
abbrev lfSPECK : Nat := 0
abbrev lfCLUMP : Nat := 1
abbrev lfINCOMPLETE : Nat := 2
abbrev lfGENMIX : Nat := 3
abbrev lfEDGE : Nat := 4
abbrev lfCUT : Nat := 5
abbrev lfMERGED : Nat := 6
abbrev lfSINGLE : Nat := 7
abbrev lfREMOTE : Nat := 8
abbrev lfOWNER : Nat := 9
abbrev lfTILEDROP : Nat := 10
abbrev lfLATE : Nat := 11
abbrev lfFEATSAT : Nat := 12
abbrev lfORPHAN : Nat := 13

/-- Set or clear bit `i` of a number. -/
def withBit (v i : Nat) (b : Bool) : Nat := setBits v i i (if b then 1 else 0)

/-- The pier of an object ID (R116). -/
def idPier (id : Nat) : Nat := id / 2 ^ 22

/-- The ledger index of an object ID. -/
def idIndex (id : Nat) : Nat := id / 32 % 131072

/-- The object ID of a pier, an index and a generation. -/
def mkId (pier idx gen : Nat) : Nat := pier * 2 ^ 22 + idx * 32 + gen

/-- The entry at index `i`. -/
def entryAt (s : State) (i : Nat) : Entry := smGet s.ledger.entries i emptyEntry

/-- The entry of an ID's index. -/
def entryOf (s : State) (id : Nat) : Entry := entryAt s (idIndex id)

/-- The entry at the ID's index holds exactly this ID. -/
def holds (s : State) (id : Nat) : Bool := (entryOf s id).id = id && (entryOf s id).st != .free

/-- The entry holds the ID and is not RETIRED. -/
def live (s : State) (id : Nat) : Bool := holds s id && (entryOf s id).st != .retired

/-- Write an entry without counting an update. -/
def setEntry (s : State) (i : Nat) (e : Entry) : State :=
  { s with ledger := { s.ledger with entries := smPut s.ledger.entries i emptyEntry e } }

/-- One update of the entry of `id`; CHANGE increments (R117). -/
def updEntry (s : State) (id : Nat) (f : Entry → Entry) : State :=
  let e := entryOf s id
  setEntry s (idIndex id) { f e with change := (e.change + 1) % 256 }

/-- Set flag `i` of the entry of `id`. -/
def setFlag (s : State) (id i : Nat) (b : Bool) : State :=
  updEntry s id (fun e => { e with flags := withBit e.flags i b })

/-- A flag of an entry. -/
def hasFlag (e : Entry) (i : Nat) : Bool := bit e.flags i

/-- Change the balance counters of R412. -/
def acct (s : State) (f : Acct → Acct) : State := { s with acct := f s.acct }

/-- The record address of a ledger index (R115). -/
def featAddr (s : State) (i : Nat) : Nat :=
  fget s fLG_FEAT_BASE_LO_V * 2 ^ 24 + fget s fLG_FEAT_BASE_HI_V * 2 ^ 32 + i * 128

/-- The feature record of an entry. -/
def featRec (s : State) (id : Nat) : List Byte := lp5Bytes s (featAddr s (idIndex id)) 128

/-- Live entries. -/
def liveCount (s : State) : Nat := fget s fLG_STAT_LIVE

/-- LG_STAT.LIVE becomes `n`; a unit that comes to hold live entries, or none, reports it (R228). -/
def setLive (s : State) (n : Nat) : State := idleReport (fset s fLG_STAT_LIVE n)

/-- The ledger has an allocatable entry, and the unit a pier (R109, R223). -/
def canAlloc (s : State) : Bool :=
  pierValid s && (decide (s.ledger.fresh < 131072) || s.ledger.retired != [])

/-- The head of the free list: FREE indices in ascending order, then RETIRED ones, oldest first (R116). -/
def freeHead (s : State) : Nat :=
  if s.ledger.fresh < 131072 then s.ledger.fresh else s.ledger.retired.headD 0

/-- The ID that the next allocation gives. -/
def nextId (s : State) : Nat :=
  let i := freeHead s
  mkId (myPier s) i (if s.ledger.fresh < 131072 then 0 else ((entryAt s i).id % 32 + 1) % 32)

/-- Allocate the head of the free list as an OPEN entry (R116, R119). -/
def allocEntry (s : State) (port frame first area : Nat) : State :=
  let id := nextId s
  let i := freeHead s
  let l := s.ledger
  let l' := if l.fresh < 131072 then { l with fresh := l.fresh + 1 } else { l with retired := l.retired.drop 1 }
  let s1 := setEntry { s with ledger := l' } i
    { emptyEntry with
        id := id, st := .opened, port := port, mateNext := id, frame := frame, firstStamp := first,
        lastStamp := first, lastExt := extStamp s first, featPtr := featAddr s i / 128, area := min area 0xFFFF,
        change := ((entryAt s i).change + 1) % 256 }
  acct (setLive s1 (liveCount s + 1)) (fun a => { a with lgOpened := a.lgOpened + 1 })

/-- A refused allocation: LG_CNT_FULL, LG_EVT.FULL and Parapet source 051h (R109, R223). -/
def ledgerFull (s : State) : State := paMinor (evt (cnt s LG_CNT_FULL) fLG_EVT_FULL) 0x51

/-- Retire an entry: its contents stay, its index joins the tail of the free list (R116, R119). -/
def retireEntry (id : Nat) (s : State) : State :=
  if live s id then
    let s1 := updEntry s id (fun e => { e with st := .retired })
    let s2 := { s1 with ledger := { s1.ledger with retired := s1.ledger.retired ++ [idIndex id] } }
    acct (setLive s2 (liveCount s - 1)) (fun a => { a with lgRetired := a.lgRetired + 1 })
  else s

/-! ## Mate sets -/

/-- The set that `id` follows on this pier. -/
def setOf (s : State) (id : Nat) : Option SetRec := s.ledger.sets.find? (fun r => r.locals.contains id)

/-- The set of an owner: the one that the owner follows here, else one whose owner lies elsewhere or has withdrawn (R136). -/
def setOwned (s : State) (owner : Nat) : Option SetRec :=
  match s.ledger.sets.find? (fun r => r.owner = owner && r.locals.contains owner) with
  | some r => some r
  | none => s.ledger.sets.find? (fun r => r.owner = owner)

/-- The set's members that this pier holds and that are not RETIRED. -/
def localMembers (s : State) (r : SetRec) : List Nat := r.locals.filter (fun m => live s m)

/-- The owner of the set is held on this pier. -/
def ownsSet (_s : State) (r : SetRec) : Bool := r.locals.contains r.owner

/-- The state of a set on this pier: that of its first local member. -/
def setState (s : State) (r : SetRec) : EState :=
  match r.locals.find? (fun m => holds s m) with
  | some m => (entryOf s m).st
  | none => .retired

/-- Replace the record of a set, which its local members tell from every other. -/
def updSet (s : State) (r : SetRec) (f : SetRec → SetRec) : State :=
  { s with ledger := { s.ledger with sets := s.ledger.sets.map (fun x => if x.locals = r.locals then f x else x) } }

/-- The effective deadline of a set (R12), as extended TB1 time: a deadline can lie 16 s ahead, more than a 32-bit stamp
can tell. -/
def effDeadline (r : SetRec) : Nat :=
  let d := r.lastMax + r.deadline * 1000
  match r.planned with
  | none => d
  | some l => min d (l - 50000)

/-- The set that `id` followed on this pier before it ended. -/
def endedSet (s : State) (id : Nat) : Option EndedSet := s.ledger.ended.find? (fun x => x.members.contains id)

/-- The owner and the members of the set that `id` follows, or followed until it ended; an object of no set stands
alone. -/
def setIdent (s : State) (id : Nat) : Nat × List Nat :=
  match setOf s id with
  | some r => (r.owner, r.members)
  | none => match endedSet s id with
    | some x => (x.owner, x.members)
    | none => (id, [id])

/-- Forget a set; its members are kept to sort later verdicts by while an entry of it still holds its ID. -/
def dropSet (s : State) (r : SetRec) : State :=
  let left := s.ledger.sets.filter (fun x => x.locals != r.locals)
  { s with ledger := { s.ledger with
      sets := left,
      retireAt := s.ledger.retireAt.filter (fun x => x.owner != r.owner || left.any (fun y => y.owner == r.owner)),
      ended := (EndedSet.mk r.members r.owner (effDeadline r) (ownsSet s r) :: s.ledger.ended).filter
        (fun x => x.members.any (holds s)) } }

/-- MATE_NEXT of a member: the next member in ascending order, round to the first (R132). -/
def ringNext (members : List Nat) (id : Nat) : Nat :=
  match members.find? (fun m => id < m) with
  | some m => m
  | none => members.headD id

/-- The piers that an OUTCOME goes to: every other pier that holds a member, and the set's home pier when it holds
none (R137). -/
def outcomePiers (s : State) (r : SetRec) : List Nat :=
  ((r.members.map idPier ++ [r.home]).dedup).filter (fun p => p != myPier s)

/-- The home pier's record of a set of `owner` at an OUTCOME: decided, and forgotten at a terminal state (R136). -/
def noteOutcome (owner code : Nat) (s : State) : State :=
  let recs := if 7 ≤ code then s.views.recs.filter (fun h => h.owner != owner)
    else s.views.recs.map (fun h => if h.owner = owner then { h with decided := true } else h)
  { s with views := { s.views with recs := recs } }

/-- Send OUTCOME for a set (R135, R137). -/
def sendOutcome (s0 : State) (r : SetRec) (code action launch durNs : Nat) : State :=
  let s := noteOutcome r.owner code s0
  let pl := [3#8, BitVec.ofNat 8 code, BitVec.ofNat 8 action, 0#8] ++ leBytes 4 r.owner ++ leBytes 4 launch ++
    leBytes 4 durNs ++ zeros 8
  forEach (outcomePiers s r) (fun p t => netSend t clsMATE (flCTRL) p [pl]) s

/-- Put every local member of a set into a state, in one cycle (R118). -/
def moveSet (s : State) (r : SetRec) (st : EState) (f : Entry → Entry := id) : State :=
  forEach (localMembers s r) (fun m t => updEntry t m (fun e => f { e with st := st })) s

/-- Retire every local member of a set and forget it. -/
def finishSet (s : State) (r : SetRec) : State :=
  dropSet (forEach (localMembers s r) retireEntry s) r

/-! ## Evidence at the terminal state (R346) -/

/-- The EV_SEL bit that selects a terminal STATE code 7h to Ah. -/
def evSelected (s : State) (code : Nat) : Bool := bit (rdn s EV_SEL) (38 - code)

/-- A member's tile copy at the terminal state of its set: freed, and made a due record when the set is selected; a copy
that the full staging pool refused is counted (R346). -/
def evMember (keep : Bool) (code owner launch durUs : Nat) (m : Nat) (s : State) : State :=
  match s.ev.copies.find? (fun c => c.id = m) with
  | none => s
  | some c =>
    let s1 := poolGive { s with ev := { s.ev with copies := s.ev.copies.filter (fun x => x.id != m) } } 3 c.blocks
    if !keep then s1
    else match c.data with
      | none => evt (cnt s1 EV_CNT_DROP_STAGE) fEV_EVT_DROP
      | some d =>
        let e := entryOf s m
        { s1 with ev := { s1.ev with due := s1.ev.due ++ [{
            id := m, owner := owner, outcome := code, action := e.action, flags := e.flags, stamp := extTb1 s,
            tb2 := s.bases[2].wrap * 2 ^ 32 + s.bases[2].ns, tb2State := fget s fTB_STAT_STATE 0x80,
            launch := launch, dur := durUs, tile := d }] } }

/-- The evidence of a set that reaches its terminal state `code` (R346): PASSED sets are sampled. -/
def evTerminal (s : State) (r : SetRec) (code launch durUs : Nat) : State :=
  let on := fbit s fEV_CTL_EVID_EN && evSelected s code
  let hit := decide (fget s fEV_SEL_PASS_SAMPLE ≤ s.ev.passSince)
  let keep := on && (code != 8 || hit)
  let n := if keep then 0 else s.ev.passSince + 1
  let s1 := if fbit s fEV_CTL_EVID_EN ∧ code = 8 then { s with ev := { s.ev with passSince := n } } else s
  forEach (r.locals.filter (fun m => holds s m)) (evMember keep code r.owner launch durUs) s1

/-- OUTCOME codes of R117. -/
abbrev ocFIRED : Nat := 0
abbrev ocPASSED : Nat := 1
abbrev ocDEFAULTED : Nat := 2
abbrev ocDROPPED : Nat := 3

/-- The set of `owner` goes to PASSED or DROPPED: OUTCOME is sent and the entries retire at once (R119, R137). -/
def endSet (s : State) (owner : Nat) (passed : Bool) : State :=
  match setOwned s owner with
  | none => s
  | some r =>
    let act := (entryOf s owner).action
    let s1 := moveSet s r (if passed then .passed else .dropped)
      (fun e => { e with outcome := if passed then ocPASSED else ocDROPPED })
    let s1 := evTerminal s1 r (if passed then 8 else 10) 0 0
    let s2 := acct s1 (fun a => if passed then { a with decPassed := a.decPassed + 1 }
      else { a with decCancelled := a.decCancelled + 1 })
    finishSet (sendOutcome s2 r (if passed then 8 else 10) act 0 0) r

/-- When the entries of a set retire: launch + duration (R119). -/
def setRetire (s : State) (owner time : Nat) : State :=
  { s with ledger := { s.ledger with
      retireAt := s.ledger.retireAt.filter (fun x => x.owner != owner) ++ [⟨owner, time⟩] } }

/-! ## Deadlines (R12, R155) -/

/-- The later of two TB1 stamps (signed difference). -/
def laterStamp (a b : Nat) : Nat := if 0 ≤ sdiff a b then a else b

/-- The earlier of two TB1 stamps (signed difference). -/
def earlierStamp (a b : Nat) : Nat := if 0 ≤ sdiff a b then b else a

/-- TB1 has reached an extended time. -/
def reachedExt (s : State) (t : Nat) : Bool := decide (t ≤ extTb1 s)

/-- The instant at which a member without an outcome is an orphan (R118), as extended TB1 time: its LAST_STAMP, this pier's
deadline of the group in its entry, and GRACE. -/
def orphanTime (s : State) (id : Nat) : Nat :=
  let e := entryOf s id
  e.lastExt + fget s fVW_GRP_DEADLINE_US (e.group * 0x20) * 1000 + fget s fLG_CTL_GRACE * 1000000

/-! ## The W0 mirror (R122) -/

/-- The 32 bytes of an entry as the mirror shows them. -/
def entryBytes (e : Entry) : List Byte :=
  if e.st = .free then zeros 32
  else leBytes 4 e.id ++ leBytes 1 (stCode e.st + 16 * e.port) ++
    leBytes 1 (e.group + 8 * e.view + 64 * e.outcome) ++ leBytes 2 e.flags ++ leBytes 4 e.mateNext ++
    leBytes 4 e.frame ++ leBytes 4 e.firstStamp ++ leBytes 4 e.lastStamp ++ leBytes 4 e.featPtr ++
    leBytes 2 e.area ++ leBytes 1 e.action ++ leBytes 1 e.change

end Sys2Proof.Machine
end

