-- ==== Sys2Proof/Machine/Act.lean ====
section
/-! DEFINITION. Eject orders (chapter 10): the crossing model, the timing and valve range of an order, its parts, the
admission to the launch queues, cancellation, and what a set does when its order is queued, refused, fired or
cancelled (R158 to R173); and the judgement and default of a set (R119, R120, R155, R162). -/

namespace Sys2Proof.Machine

/-! ## Fall models (R127, R128, R158, R159) -/

/-- A model: enable, A in s11.20, B, and the W0 address of its delay table. -/
structure Mdl where
  en : Bool
  a : Int
  b : Int
  tbl : Nat
  deriving DecidableEq, Repr

/-- Model `m` of the views (R127). -/
def vwModel (s : State) (m : Nat) : Mdl :=
  ⟨fbit s fVW_MDL_CTL_EN (m * 0x20), s32 (rdn s (VW_MDL_A + m * 0x20)), s32 (rdn s (VW_MDL_B + m * 0x20)),
    0xE00000 + m * 0x100⟩

/-- The copy AC_XMDL[p][r] (R159). -/
def xModel (s : State) (p r : Nat) : Mdl :=
  let o := (p * 4 + r) * 0x10
  ⟨fbit s fAC_XMDL_CTL_EN o, s32 (rdn s (AC_XMDL_A + o)), s32 (rdn s (AC_XMDL_B + o)), 0xE10000 + (p * 4 + r) * 0x100⟩

/-- Entry `k` of a delay table. -/
def delayEntry (s : State) (tbl k : Nat) : Int := s32 (tbl32 s (tbl + k * 4))

/-- The interpolated delay of R127 in ns. -/
def mdlDelay (s : State) (md : Mdl) (cx width : Nat) : Int :=
  let u := if width = 0 then 63 * 65536 else min (cx * 63 * 65536 / (width * 16)) (63 * 65536)
  let k := u / 65536
  let f : Int := (u % 65536 : Nat)
  let t := delayEntry s md.tbl k
  if k < 63 then t + ((delayEntry s md.tbl (k + 1) - t) * f + 32768) / 65536 else t

/-- The position map of R127. -/
def mdlXpos (md : Mdl) (cx : Nat) : Int := (md.a * (cx : Int) + 524288) / 1048576 + md.b

/-- The crossing model of an entry (R158): the diagonal model of its group and view when its range is homed here,
else this pier's copy for its port and range; none when it is not enabled. -/
def crossModel (s : State) (e : Entry) : Option Mdl :=
  match e.range with
  | none => none
  | some r =>
    let md := if fget s fVW_PMAP_HOME (e.port * 0x20 + r * 8) = 0 then vwModel s (e.group * 16 + e.view * 5)
      else xModel s e.port r
    if md.en then some md else none

/-! ## Timing and valves (R160, R161) -/

/-- The columns of a port's image. -/
def portWidth (s : State) (p : Nat) : Nat := fget s fPP_GEOM_WIDTH (p * 0x10000)

/-- The instant at which the air goes on for an owner entry (R160). -/
def airOn (s : State) (e : Entry) (md : Mdl) : Nat :=
  let dt := mdlDelay s md (u32At (featRec s e.id) 36) (portWidth s e.port)
  int32u ((e.firstStamp : Int) + dt - (fget s fAC_MARGIN_M_LEAD : Int) * 1000)

/-- The launch of R160. -/
def launchOf (s : State) (e : Entry) (md : Mdl) : Nat := sub32 (airOn s e md) (fget s fAC_TIMING_LEAD * 1000)

/-- The unclamped duration in µs (R160). -/
def durOf (s : State) (e : Entry) (md : Mdl) : Nat :=
  let dt := mdlDelay s md (u32At (featRec s e.id) 36) (portWidth s e.port)
  let off := int32u ((e.lastStamp : Int) + dt + (rdn s (PP_LINE_PERIOD + e.port * 0x10000) : Int) +
    (fget s fAC_MARGIN_M_TRAIL : Int) * 1000)
  add32 (sub32 off (airOn s e md)) 999 / 1000

/-- A duration clamped to AC_DUR (R160); a MIN_DUR of 0 acts as 1. -/
def clampDur (s : State) (d : Nat) : Nat := min (max d (max 1 (fget s fAC_DUR_MIN))) (fget s fAC_DUR_MAX)

/-- The valve range of the bounding box (R161). -/
def valvesOf (s : State) (e : Entry) (md : Mdl) : Int × Int :=
  let vm : Int := (fget s fAC_VMARGIN_V : Nat)
  let fr := featRec s e.id
  ((mdlXpos md (u32At fr 28) - vm) / 16, (mdlXpos md (u32At fr 32) + vm) / 16)

/-- The valves of this pier, 0 to VALVES - 1. -/
def ownValves (s : State) : Int := (fget s fAC_CTL_VALVES : Nat)

/-- The valves of a neighbour that an order may name: none while REMOTE_EN = 0, its VALID bit is 0 or its link runs below
1.1 (R161, R240). -/
def nbrValves (s : State) (east : Bool) : Int :=
  let v := if east then fbit s fAC_NBR_E_VALID else fbit s fAC_NBR_W_VALID
  let n : Int := ((if east then fget s fAC_NBR_E_VALVES else fget s fAC_NBR_W_VALVES) : Nat)
  let old := match neighbour s east with | some p => oldLink s p | none => false
  if v && fbit s fAC_CTL_REMOTE_EN && !old then n else 0

/-- A range clamped to the valves that an order may name (R161). -/
def clampRange (s : State) (r : Int × Int) : Int × Int :=
  (max r.1 (-(nbrValves s false)), min r.2 (ownValves s + nbrValves s true - 1))

/-! ## The board map and parts (R164, R165) -/

/-- Entry `k` of the board map is enabled: EN and a COUNT of 1 to 64. -/
def boardOn (s : State) (k : Nat) : Bool :=
  let c := fget s fAC_BOARD_COUNT (k * 4)
  fbit s fAC_BOARD_EN (k * 4) && 1 ≤ c && c ≤ 64

/-- The lowest enabled entry that owns valve `v`. -/
def boardOf (s : State) (v : Nat) : Option Nat :=
  (List.range 128).find? (fun k => boardOn s k && fget s fAC_BOARD_FIRST (k * 4) ≤ v &&
    v < fget s fAC_BOARD_FIRST (k * 4) + fget s fAC_BOARD_COUNT (k * 4))

/-- The bitmap of entry `k` for the own valves `lo` to `hi`. -/
def boardBits (s : State) (k lo hi : Nat) : Nat :=
  let f := fget s fAC_BOARD_FIRST (k * 4)
  let c := fget s fAC_BOARD_COUNT (k * 4)
  (List.range c).foldl (fun acc j =>
    let v := f + j
    if lo ≤ v ∧ v ≤ hi ∧ boardOf s v = some k then
      acc + 2 ^ (if fbit s fAC_BOARD_REVERSE (k * 4) then c - 1 - j else j)
    else acc) 0

/-- A local part before admission: bus, board address, bitmap. -/
structure PartSpec where
  bus : Nat
  board : Nat
  bitmap : Nat
  deriving DecidableEq, Repr

/-- Add a part to a list that holds one part per board. -/
def addPart (l : List PartSpec) (p : PartSpec) : List PartSpec :=
  if l.any (fun q => q.bus = p.bus && q.board = p.board) then
    l.map (fun q => if q.bus = p.bus ∧ q.board = p.board then { q with bitmap := q.bitmap.lor p.bitmap } else q)
  else l ++ [p]

/-- The local parts for this pier's valves `r.1` to `r.2` (R165). -/
def localParts (s : State) (r : Int × Int) : List PartSpec :=
  if r.2 < 0 ∨ ownValves s ≤ r.1 ∨ r.2 < r.1 then []
  else
    let lo := r.1.toNat
    let hi := (min r.2 (ownValves s - 1)).toNat
    (List.range 128).foldl (fun l k =>
      if boardOn s k then
        let b := boardBits s k lo hi
        if b = 0 then l else addPart l ⟨fget s fAC_BOARD_BUS (k * 4), fget s fAC_BOARD_ADDR (k * 4), b⟩
      else l) []

/-- Some own valve of the range lies in no enabled entry (R164). -/
def missesBoard (s : State) (r : Int × Int) : Bool :=
  if r.2 < 0 ∨ ownValves s ≤ r.1 ∨ r.2 < r.1 then false
  else
    let lo := r.1.toNat
    let hi := (min r.2 (ownValves s - 1)).toNat
    (List.range (hi + 1 - lo)).any (fun j => (boardOf s (lo + j)).isNone)

/-- The remote part for a neighbour, in its own numbering (R165). -/
def remoteRange (s : State) (east : Bool) (r : Int × Int) : Option (Nat × Nat) :=
  if east then
    let lo := max r.1 (ownValves s)
    if lo ≤ r.2 then some ((lo - ownValves s).toNat, (r.2 - ownValves s).toNat) else none
  else
    let hi := min r.2 (-1)
    let w := nbrValves s false
    if r.1 ≤ hi then some ((w + r.1).toNat, (w + hi).toNat) else none

/-! ## Buses and queues -/

/-- Bus `b`; a number beyond V3 reads as V3. -/
def busAt (s : State) (b : Nat) : BusSt := s.act.buses[(Fin.ofNat 4 b)]

/-- Distance of bus `b`'s registers. -/
def buo (b : Nat) : Nat := b * 0x40

/-- Keep AC_QSTAT, AC_QNEXT and AC_STAT.PARTS at the queue of bus `b`. -/
def syncBus (b : Nat) (s : State) : State :=
  let q := (busAt s b).queue
  let n := q.length
  let s1 := wrn s (AC_QSTAT + buo b) (n % 8192 + if 4096 ≤ n then 2 ^ 31 else 0)
  let nxt := match q with
    | [] => 0
    | p :: t => t.foldl (fun acc x => earlierStamp x.launch acc) p.launch
  let s2 := wrn s1 (AC_QNEXT + buo b) nxt
  fset s2 fAC_STAT_PARTS ((List.range 4).foldl (fun acc i => acc + (busAt s2 i).queue.length) 0)

/-- Change bus `b` and keep its status registers. -/
def updBus (s : State) (b : Nat) (f : BusSt → BusSt) : State :=
  let v := s.act.buses.set (Fin.ofNat 4 b) (f (busAt s b))
  syncBus b { s with act := { s.act with buses := v } }

/-- A part belongs to the order of `owner` on this pier. -/
def ownPart (owner : Nat) (p : Part) : Bool := p.src == .own owner

/-- A part is an EJECT_TEST part, which enters no PARTS term (R412). -/
def testPart (p : Part) : Bool := p.src == .test

/-- Remove the queued parts of bus `b` that `sel` selects, counted as cancelled (R412). -/
def cancelParts (b : Nat) (sel : Part → Bool) (s : State) : State :=
  let gone := (busAt s b).queue.filter sel
  if gone = [] then s
  else
    let n := (gone.filter (fun p => !testPart p)).length
    let s1 := updBus s b (fun u => { u with
      queue := u.queue.filter (fun p => !sel p),
      frames := (u.frames.map (fun f => { f with pids := f.pids.filter (fun i =>
        !(gone.any (fun p => p.pid = i))) })).filter (fun f => f.pids != []) })
    acct s1 (fun a => { a with partCancelled := addAt a.partCancelled b n })

/-- Queue a part on a bus; only parts other than EJECT_TEST's count as admitted (R412). -/
def queuePart (src : PartSrc) (launch dur prio : Nat) (p : PartSpec) (s : State) : State :=
  let s1 := updBus s p.bus (fun u => { u with
    queue := u.queue ++ [⟨s.act.nextPid, src, p.board, p.bitmap, launch, dur, prio⟩] })
  let s2 := { s1 with act := { s1.act with nextPid := s1.act.nextPid + 1 } }
  if src = .test then s2
  else acct s2 (fun a => { a with partAdmit := addAt a.partAdmit p.bus 1 })

/-! ## Orders -/

/-- The order of a set's owner. -/
def orderOf (s : State) (owner : Nat) : Option Order := s.act.orders.find? (fun o => o.owner = owner)

/-- Replace the order of `owner`. -/
def updOrder (s : State) (owner : Nat) (f : Order → Order) : State :=
  { s with act := { s.act with orders := s.act.orders.map (fun o => if o.owner = owner then f o else o) } }

/-- Forget the order of `owner`. -/
def dropOrder (s : State) (owner : Nat) : State :=
  { s with act := { s.act with orders := s.act.orders.filter (fun o => o.owner != owner) } }

/-- An order ends without firing: a DEFAULTED set reports LAUNCH 0 and DURATION 0 and retires, a JUDGED or SCHEDULED
one goes to DROPPED (R119, R137). -/
def orderEnds (s : State) (owner : Nat) : State :=
  match setOwned s owner with
  | none => s
  | some r =>
    match setState s r with
    | .defaulted =>
      finishSet (sendOutcome (evTerminal s r 9 0 0) r 9 (entryOf s owner).action 0 0) r
    | .judged => endSet s owner false
    | .scheduled => endSet s owner false
    | _ => s

/-- A CANCEL payload (R169). -/
def cancelBytes (tag owner : Nat) : List Byte := [4#8, 0#8] ++ leBytes 2 tag ++ leBytes 4 owner ++ zeros 8

/-- Send CANCEL for every remote part whose launch has not passed (R170). -/
def cancelRemotes (s : State) (o : Order) : State :=
  forEach o.remotes (fun rp t =>
    if rp.status ≠ .refused ∧ 0 < sdiff o.launch (now t) then
      netSend t clsACT flCTRL rp.pier [cancelBytes rp.tag o.owner]
    else t) s

/-- Cancel the order of `owner`: its queued parts, its remote parts, and its set unless it has fired (R167, R170). The
counter tells an eviction from another cancellation. -/
def cancelOrder (s : State) (owner counter : Nat) : State :=
  match orderOf s owner with
  | none => s
  | some o =>
    let s1 := forEach (List.range 4) (fun b t => cancelParts b (ownPart owner) t) s
    let s2 := evt (cnt (cancelRemotes s1 o) counter) fAC_EVT_CANCEL
    let s3 := dropOrder s2 owner
    if o.fired then s3 else orderEnds s3 owner

/-- Why an order cannot be queued (R166). -/
inductive Cause where
  | late | cancel | novalve | full
  deriving DecidableEq, Repr

/-- The counter of a cause (R166). -/
def causeCnt (c : Cause) : Nat :=
  match c with
  | .late => AC_CNT_LATE | .cancel => AC_CNT_CANCEL | .novalve => AC_CNT_NOVALVE | .full => AC_CNT_FULL

/-- The unit is in the safe state. -/
def safeState (s : State) : Bool := fbit s fPA_STAT_SAFE

/-- The launch lies from 10 µs to 1 s ahead (R166). -/
def launchOk (s : State) (launch : Nat) : Bool :=
  let d := sdiff launch (now s)
  decide (10000 ≤ d) && decide (d ≤ 1000000000)

/-- Every bus that the parts need is enabled. -/
def busesOn (s : State) (ps : List PartSpec) : Bool := ps.all (fun p => fbit s fAC_BUS_CTL_EN (buo p.bus))

/-- Parts of `ps` on bus `b`. -/
def needOn (ps : List PartSpec) (b : Nat) : Nat := (ps.filter (fun p => p.bus = b)).length

/-- Room on bus `b` once the parts of the chosen orders are gone (R167). -/
def roomOn (s : State) (chosen : List Nat) (b : Nat) : Nat :=
  4096 - ((busAt s b).queue.filter (fun p => !(chosen.any (fun o => ownPart o p)))).length

/-- The better victim of two queued parts: lower priority, then later launch (R167). -/
def worse (a b : Part) : Part :=
  if b.prio < a.prio then b
  else if a.prio < b.prio then a
  else if 0 < sdiff b.launch a.launch then b else a

/-- The owner of an order's part. -/
def partOwner (p : Part) : Option Nat := match p.src with | .own o => some o | _ => none

/-- The next victim: among the queues that lack room, the queued local part with the lowest priority and latest
launch whose order is not chosen yet (R167). -/
def victim (s : State) (ps : List PartSpec) (chosen : List Nat) : Option Part :=
  let cands := (List.range 4).flatMap (fun b =>
    if roomOn s chosen b < needOn ps b then
      (busAt s b).queue.filter (fun p => match partOwner p with | some o => !chosen.contains o | none => false)
    else [])
  match cands with
  | [] => none
  | p :: t => some (t.foldl worse p)

/-- Choose victims until every needed queue has room; none when that cannot be done (R167). -/
def chooseVictims (fuel : Nat) (s : State) (ps : List PartSpec) (prio : Nat) (chosen : List Nat) :
    Option (List Nat) :=
  match fuel with
  | 0 => none
  | k + 1 =>
    if (List.range 4).all (fun b => needOn ps b ≤ roomOn s chosen b) then some chosen
    else match victim s ps chosen with
      | none => none
      | some p =>
        if p.prio < prio then
          match partOwner p with
          | some o => chooseVictims k s ps prio (o :: chosen)
          | none => none
        else none

/-- The cause that refuses an order with the given local parts, and the orders to evict (R166, R167). `any` says that
the order has a valve at all. -/
def admission (s : State) (launch prio : Nat) (ps : List PartSpec) (any : Bool) : Cause ⊕ List Nat :=
  if !launchOk s launch then .inl .late
  else if !fbit s fAC_CTL_EN || !busesOn s ps || safeState s then .inl .cancel
  else if !any then .inl .novalve
  else match chooseVictims 16385 s ps prio [] with
    | none => .inl .full
    | some c => .inr c

/-- TAGs of the outstanding remote parts. -/
def usedTags (s : State) : List Nat := s.act.orders.flatMap (fun o => o.remotes.map (·.tag))

/-- The TAG of the next remote part: the next number that no outstanding part holds (R169). -/
def freshTag (s : State) : Nat :=
  let used := usedTags s
  match ((List.range (used.length + 1)).map (fun k => (s.act.nextTag + k) % 65536)).find? (fun t => !used.contains t) with
  | some t => t
  | none => s.act.nextTag

/-- Send the remote part of an order to a neighbour (R165, R168, R169). -/
def sendOrder (owner launch dur prio : Nat) (east : Bool) (r : Nat × Nat) (s : State) : State :=
  let tag := freshTag s
  let s1 := { s with act := { s.act with nextTag := (tag + 1) % 65536 } }
  match neighbour s east with
  | none => updOrder s1 owner (fun o => { o with remotes := o.remotes ++ [⟨0xFFFF, tag, .waiting⟩] })
  | some pier =>
    let s2 := updOrder s1 owner (fun o => { o with remotes := o.remotes ++ [⟨pier, tag, .waiting⟩] })
    let s3 := if reachable s2 pier then cnt s2 AC_CNT_ACT_TX else s2
    netSend s3 clsACT flCTRL pier [[2#8, BitVec.ofNat 8 (prio % 4)] ++ leBytes 2 tag ++ leBytes 4 owner ++
      leBytes 4 launch ++ leBytes 2 dur ++ leBytes 2 r.1 ++ leBytes 2 r.2 ++ zeros 6]

/-- A verdict's valve override (R153). -/
structure Ovr where
  first : Int
  last : Int
  dur : Nat
  deriving DecidableEq, Repr

/-- The duration of an order before clamping: the override's when it gives one (R160). -/
def wantedDur (s : State) (e : Entry) (md : Mdl) (ovr : Option Ovr) : Nat :=
  match ovr with
  | some o => if o.dur ≠ 0 then o.dur else durOf s e md
  | none => durOf s e md

/-- The valve range of an order (R161). -/
def orderRange (s : State) (e : Entry) (md : Mdl) (ovr : Option Ovr) : Int × Int :=
  clampRange s (match ovr with | some o => (o.first, o.last) | none => valvesOf s e md)

/-- A set whose order is queued, by its local parts or by the first RESULT of QUEUED: JUDGED goes to SCHEDULED; DEFAULTED
reports the order and retires at launch + duration (R119, R137, R168). -/
def orderQueued (s : State) (r : SetRec) (launch dur : Nat) : State :=
  let act := (entryOf s r.owner).action
  match setState s r with
  | .defaulted =>
    setRetire (sendOutcome (evTerminal s r 9 launch dur) r 9 act launch (dur * 1000)) r.owner
      (add32 launch (dur * 1000))
  | .judged => sendOutcome (moveSet s r .scheduled) r 6 act launch (dur * 1000)
  | _ => s

/-- Build the order of a set, admit it, and move the set (R160 to R168). -/
def placeOrder (s : State) (r : SetRec) (e : Entry) (md : Mdl) (launch : Nat) (ovr : Option Ovr) (prio : Nat) : State :=
  let want := wantedDur s e md ovr
  let dur := clampDur s want
  let s1 := if dur ≠ want then cnt s AC_CNT_CLIP else s
  let rng := orderRange s e md ovr
  let ps := localParts s rng
  let we := remoteRange s false rng
  let ea := remoteRange s true rng
  let s2 := cnt s1 AC_CNT_ORDER
  let miss := missesBoard s rng
  let s3 := if miss then cnt s2 AC_CNT_NOVALVE else s2
  match admission s3 launch prio ps (ps != [] || we.isSome || ea.isSome) with
  | .inl c =>
    let s4 := if c = .novalve ∧ miss then s3 else cnt s3 (causeCnt c)
    orderEnds (evt s4 fAC_EVT_REFUSED) r.owner
  | .inr evict =>
    let s4 := forEach evict (fun o t => cancelOrder t o AC_CNT_EVICT) s3
    let s5 := { s4 with act := { s4.act with
      orders := s4.act.orders ++ [⟨r.owner, launch, dur, prio, ps != [], false, []⟩] } }
    let s6 := forEach ps (queuePart (.own r.owner) launch dur prio) s5
    let s7 := if ps = [] then s6 else orderQueued s6 r launch dur
    let s8 := match we with | some x => sendOrder r.owner launch dur prio false x s7 | none => s7
    match ea with | some x => sendOrder r.owner launch dur prio true x s8 | none => s8

/-- The firing action of this pier (R162). -/
def firingAction (s : State) : Nat := if fbit s fAC_CTL_FIRE_ON then 1 else 2

/-- The planned launch of a set whose owner is held here (R163), as extended TB1 time. -/
def plannedLaunch (s : State) (owner : Nat) : Option Nat :=
  (crossModel s (entryOf s owner)).map (fun md => extStamp s (launchOf s (entryOf s owner) md))

/-- An accepted verdict (R119, R120, R162, R163): JUDGED, then PASSED, DROPPED or an order. -/
def judgeSet (s : State) (r : SetRec) (action : Nat) (ovr : Option Ovr) (prio : Nat) : State :=
  let s1 := moveSet s r .judged (fun e => { e with action := action })
  let s2 := acct (cnt s1 TL_CNT_VERDICT) (fun a => { a with decReceived := a.decReceived + 1 })
  let s3 := sendOutcome s2 r 5 action 0 0
  if action ≠ firingAction s then endSet s3 r.owner true
  else match crossModel s3 (entryOf s3 r.owner), r.planned with
    | some md, some l => placeOrder s3 r (entryOf s3 r.owner) md (l % 2 ^ 32) ovr prio
    | _, _ => endSet (cnt s3 AC_CNT_NOMODEL) r.owner false

/-- A set reaches its effective deadline without a verdict (R119, R137, R155, R162). -/
def defaultSet (s : State) (r : SetRec) : State :=
  let s1 := moveSet s r .defaulted (fun e => { e with action := r.dflt, outcome := ocDEFAULTED })
  let s2 := evt (cnt s1 TL_CNT_DEFAULT) fTL_EVT_DEFAULT
  let s3 := acct s2 (fun a => { a with decReceived := a.decReceived + 1, decDefaulted := a.decDefaulted + 1 })
  if r.dflt ≠ firingAction s then finishSet (sendOutcome (evTerminal s3 r 9 0 0) r 9 r.dflt 0 0) r
  else match crossModel s3 (entryOf s3 r.owner), r.planned with
    | some md, some l => placeOrder s3 r (entryOf s3 r.owner) md (l % 2 ^ 32) none 0
    | _, _ => finishSet (sendOutcome (evTerminal s3 r 9 0 0) r 9 r.dflt 0 0) r

/-- The first frame of an order leaves, or a remote-only order reaches its launch: the set goes to FIRED (R168). -/
def fireOrder (s : State) (owner : Nat) : State :=
  match orderOf s owner with
  | none => s
  | some o =>
    if o.fired then s
    else
      let s1 := cnt (updOrder s owner (fun x => { x with fired := true })) AC_CNT_FIRED
      match setOwned s1 owner with
      | none => s1
      | some r =>
        if setState s1 r = .scheduled then
          let s2 := moveSet s1 r .fired (fun e => { e with outcome := ocFIRED })
          let s2 := evTerminal s2 r 7 o.launch o.dur
          let s3 := acct s2 (fun a => { a with decFired := a.decFired + 1 })
          setRetire (sendOutcome s3 r 7 (entryOf s owner).action o.launch (o.dur * 1000)) owner
            (add32 o.launch (o.dur * 1000))
        else s1

/-! ## Verdicts at the owner's pier (R12, R120, R153, R154) -/

/-- The fate of a verdict that reached the pier of the object it names (R120). -/
inductive Fate where
  | stale | dup | late | accept
  deriving DecidableEq, Repr

/-- Sort a verdict for `id` (R120). -/
def verdictFate (s : State) (id : Nat) : Fate :=
  let e := entryOf s id
  if !holds s id then .stale
  else match e.st with
    | .free => .stale
    | .opened => .stale
    | .seen => .stale
    | .retired => if hasFlag e lfMERGED then .stale else if e.outcome = ocDEFAULTED then .late else .dup
    | .defaulted => .late
    | .mated => match setOf s id with
      | some r => if reachedExt s (effDeadline r) then .late else .accept
      | none => .stale
    | .tiled => match setOf s id with
      | some r => if reachedExt s (effDeadline r) then .late else .accept
      | none => .stale
    | _ => .dup

/-- The override of a verdict entry. -/
def verdictOvr (v : List Byte) : Option Ovr :=
  if bit (byteAt v 5) 0 then some ⟨s16 (u16At v 8), s16 (u16At v 10), u16At v 12⟩ else none

/-- The member held here by which a verdict for `id` is sorted: `id` itself, or the owner of the set that a forwarded
verdict names by a member of another pier (R137). -/
def verdictKey (s : State) (id : Nat) : Nat :=
  if idPier id = myPier s then id
  else match s.ledger.sets.find? (fun r => ownsSet s r && r.members.contains id) with
    | some r => r.owner
    | none => match s.ledger.ended.find? (fun x => x.owned && x.members.contains id) with
      | some x => x.owner
      | none => id

/-- The local members of the set that `id` belongs or belonged to. -/
def localsOf (s : State) (id : Nat) : List Nat :=
  match setOf s id with
  | some r => r.locals
  | none => match endedSet s id with
    | some x => x.members
    | none => [id]

/-- Set LATE on every local member of the set that `id` belongs to (R120). -/
def markLate (s : State) (id : Nat) : State :=
  forEach ((localsOf s id).filter (fun m => holds s m)) (fun m t => setFlag t m lfLATE true) s

/-- Apply a verdict at the owner's pier (R120, R154 step 4). -/
def verdictHere (s : State) (v : List Byte) : State :=
  let id := verdictKey s (u32At v 0)
  match verdictFate s id with
  | .stale => evt (cnt s LG_CNT_STALE) fLG_EVT_STALE
  | .dup => cnt s TL_CNT_DUP
  | .late => evt (cnt (markLate s id) TL_CNT_LATE) fTL_EVT_LATE
  | .accept => match setOf s id with
    | some r => judgeSet s r (byteAt v 4) (verdictOvr v) (bits (byteAt v 5) 5 4)
    | none => s

/-- A verdict that no pier can take: discarded and counted (R154). -/
def verdictBad (s : State) : State := evt (cnt s TL_CNT_BAD) fTL_EVT_BAD

/-- A verdict that reached the pier of the object it names: forwarded as VERDICT when the owner of the object's set, a live
or an ended one, is on another pier, else applied (R137, R154 steps 3 and 4). -/
def verdictAtMember (s : State) (v : List Byte) : State :=
  let id := u32At v 0
  let p := idPier (setIdent s id).1
  if p = myPier s || !holds s id then verdictHere s v
  else if reachable s p then netSend s clsMATE flCTRL p [[4#8, 0#8, 0#8, 0#8] ++ fit 16 v]
  else verdictBad s

/-- The reserved fields and values that step 1 of R154 refuses. -/
def verdictMalformed (v : List Byte) : Bool :=
  let a := byteAt v 4
  let f := byteAt v 5
  !(a == 1 || a == 2) || bits f 3 1 != 0 || bits f 7 6 != 0 || u16At v 6 != 0 || u16At v 14 != 0 ||
    (bit f 0 && decide (s16 (u16At v 10) < s16 (u16At v 8)))

/-- A verdict taken from a ring (R13, R154). -/
def verdictTaken (s : State) (v : List Byte) : State :=
  if verdictMalformed v then verdictBad s
  else
    let p := idPier (u32At v 0)
    if p = myPier s then verdictAtMember s v
    else if reachable s p then netSend s clsACT flCTRL p [[1#8, 0#8, 0#8, 0#8] ++ fit 16 v]
    else verdictBad s

end Sys2Proof.Machine
end

