-- ==== Sys2Proof/Machine/Mbx.lean ====
section
/-! DEFINITION. The rings of the mailbox channels (R270 to R272): completion and event entries, the room in the
completion ring, and events sent to channels. -/

namespace Sys2Proof.Machine

/-- Distance of channel `c`'s registers. -/
def mbo (c : Nat) : Nat := c * 0x100

/-- Channel `c`; a number beyond MB3 reads as MB3. -/
def chan (s : State) (c : Nat) : MbChan := s.mb.chans[(Fin.ofNat 4 c)]

/-- Change channel `c`. -/
def updChan (s : State) (c : Nat) (f : MbChan → MbChan) : State :=
  let v := s.mb.chans.set (Fin.ofNat 4 c) (f (chan s c))
  { s with mb := { s.mb with chans := v } }

/-- STATE of channel `c`: 0 CLOSED, 1 OPENING, 2 OPEN, 3 REFUSED, 4 CLOSING. -/
def chState (s : State) (c : Nat) : Nat := fget s fMB_STAT_STATE (mbo c)

/-- Channel `c` is open. -/
def chOpen (s : State) (c : Nat) : Bool := chState s c == 2

/-- Entries of a ring whose size field holds `n`: 2^n for 1 to 12; other values act as 1. -/
def ringSize (n : Nat) : Nat := if 1 ≤ n ∧ n ≤ 12 then 2 ^ n else 2

/-- Entries of the completion ring. -/
def cplSize (s : State) (c : Nat) : Nat := ringSize (fget s fMB_CTL_CPL_SIZE (mbo c))

/-- Free slots of the completion ring; equal indices mean an empty ring, so one slot stays free (log 31). -/
def cplFree (s : State) (c : Nat) : Nat :=
  let n := cplSize s c
  n - 1 - (rdn s (MB_CPL_PROD + mbo c) + n - rdn s (MB_CPL_CONS + mbo c) % n) % n

/-- Free slots beyond those reserved for the commands taken and not yet complete (R272). -/
def cplRoom (s : State) (c : Nat) : Bool :=
  let ch := chan s c
  decide (ch.cpls.length + ch.deferred.length + ch.remote.length < cplFree s c)

/-- A ring entry (R271) with its PHASE and LOST bits still clear. -/
def cplEntry (opcode kind status tag detail : Nat) (result : List Byte) : List Byte :=
  leBytes 2 opcode ++ leBytes 1 kind ++ leBytes 1 status ++ leBytes 4 tag ++ zeros 4 ++ leBytes 4 detail ++
    fit 48 result

/-- Event kinds of R271. -/
abbrev evAPPLIED : Nat := 1
abbrev evLEASE_END : Nat := 2
abbrev evREPLACE : Nat := 3

/-- Queue an event for an open channel; one that finds 256 waiting is discarded (R272). -/
def mbEvent (c kind tag : Nat) (result : List Byte) (s : State) : State :=
  if !chOpen s c then s
  else if 256 ≤ (chan s c).events.length then cnt (updChan s c (fun h => { h with lost := true })) MB_CNT_EVT_LOST
  else updChan s c (fun h => { h with events := h.events ++ [cplEntry 0 kind 0 tag 0 result] })

/-- Write one entry into the completion ring and advance PROD (R271, R272). -/
def cplPut (c : Nat) (entry : List Byte) (lost : Bool) (s : State) : State :=
  let o := mbo c
  let i := rdn s (MB_CPL_PROD + o) % cplSize s c
  let ph := (chan s c).phase
  let e := entry.set 8 (BitVec.ofNat 8 ((if ph then 1 else 0) + (if lost then 2 else 0)))
  let s1 := dmaWrite s (addr64 s (MB_CPL_LO + o) (MB_CPL_HI + o) + i * 64) e
  let n := (i + 1) % cplSize s c
  let s2 := wrn s1 (MB_CPL_PROD + o) n
  let s3 := if n = 0 then updChan s2 c (fun h => { h with phase := !h.phase }) else s2
  if fbit s3 fMB_CTL_INT o then evt s3 fMB_EVT_CPL o else s3

/-- Append a completion: it waits to be written (R272). -/
def complete (c opcode status tag detail : Nat) (result : List Byte) (s : State) : State :=
  let s1 := updChan s c (fun h => { h with cpls := h.cpls ++ [cplEntry opcode 0 status tag detail result] })
  if status = 0 then s1 else cnt s1 (MB_CNT_REFUSED + mbo c)

/-- The targets of the medium. -/
def mediumTargets (h : MediumHdr) : Nat := ((List.range 4).filter (fun i => bit h.chMask i)).length * h.targets

/-- The bytes that the superblocks of a partition hold beside its spares: in SLC mode a third of the native capacity (R332).
None where the medium has no such partition. -/
def partRoom (h : MediumHdr) (type : Nat) : Option Nat :=
  (h.parts.find? (fun p => p.type == type)).map (fun p =>
    (p.count - p.spare) * mediumTargets h * h.blockCw * 4096 / (if p.mode = 1 then 3 else 1))

/-- Write a log record (R351); without a medium in use Dennil keeps no log (R328). The partition is a ring: the newest records
stay. -/
def logWrite (s : State) (kind : Nat) (data : List Byte) : State :=
  if fget s fEV_STAT_STATE ≠ 2 then s
  else
    let l := s.ev.log ++ [⟨kind, s.ev.bootSeq, extTb1 s, fit 44 data⟩]
    let past := match partRoom s.ev.hdr 4 with | some n => l.length - n / 64 | none => 0
    { s with ev := { s.ev with log := l.drop past } }

/-- The REPLACE event's RESULT (R408); the fewest spare SRAM rows is a number that only the SRAM knows, taken as a
free value. -/
def replaceResult (s : State) : List Byte :=
  let info := rdn s PA_REPLACE_INFO
  leBytes 4 (rdn s PA_REPLACE) ++ leBytes 2 (info / 65536) ++ leBytes 1 (bits info 7 6) ++
    leBytes 1 (bits info 15 8) ++ leBytes 2 (fget s fEV_STAT_WEAR) ++ leBytes 2 (freeVal s) ++ leBytes 4 (now s)

/-- The REPLACE causes that follow registers, in bit order (R407): SPAN_LANE, LP5X_CH, SRAM_REPAIR (kept), NAND_WEAR
(kept by the evidence store), SENSOR_PHY. -/
def replaceCauses (s : State) : Nat :=
  let lane := [0, 1].any (fun p => slState s p == 6 ||
    (List.range 4).any (fun k => fbit s fSL_LANE_STAT_FAILED (slo p + k * 4)))
  let lp := fget s fMM_STAT_LOST != 0
  let phy := (List.range 16).any (fun n => fbit s fPP_STAT_PHY_DEAD (n * 0x10000))
  let b := fun (x : Bool) (w : Nat) => if x then w else 0
  b lane 1 + b lp 2 + b (fbit s fPA_REPLACE_SRAM_REPAIR) 4 + b (fbit s fPA_REPLACE_NAND_WEAR) 8 + b phy 16

/-- PA_REPLACE_INFO as the registers stand. -/
def replaceInfo (s : State) : Nat :=
  let ports := (List.range 16).foldl (fun a n => a + if fbit s fPP_STAT_PHY_DEAD (n * 0x10000) then 2 ^ n else 0) 0
  ports * 65536 + fget s fMM_STAT_LOST * 256 + (if slState s 1 = 6 then 128 else 0) + (if slState s 0 = 6 then 64 else 0)

/-- An event for a channel of another pier, opened there for the `sess`-th time (R277); the TOPIC and layout of the message are
not stated and are free. -/
def sendEvent (pier kind chan tag sess : Nat) (result : List Byte) (s : State) : State :=
  sendDennil (useFree s) pier (freeVal s) (leBytes 1 kind ++ leBytes 1 chan ++ leBytes 4 tag ++ leBytes 4 sess ++ result)

/-- Distance of the registers of two-wire block `b`. -/
def two (b : Nat) : Nat := b * 0x1000

/-- The level of TW_ALERT_N changes (R307). -/
def twAlertIn (b : Nat) (low : Bool) (s : State) : State :=
  let o := two b
  let s1 := fbset s fTW_STAT_ALERT_IN low o
  if low && !fbit s fTW_STAT_ALERT_IN o then evt s1 fTW_EVT_ALERT_IN o else s1

/-- TW_ALERT.REQ takes a value; this block is one of those that pull TW_ALERT_N low, and once it lets go the pin's level is
the others' (R306, R307). -/
def twAlertReq (b : Nat) (req : Bool) (s : State) : State :=
  if fbit s fTW_ALERT_REQ (two b) = req then s
  else
    let s1 := emit (fbset s fTW_ALERT_REQ req (two b)) (.pin "TW_ALERT_N" b (!req))
    if req then twAlertIn b true s1 else s1

/-- One new REPLACE cause (R403, R408): PA_EVT.REPLACE, a notice, TW_ALERT.REQ of TW4, a LOG record, an event to
every open channel that has not masked it, and one to every pier that has sent commands (R277). The notice's SOURCE and CLASS
are not stated and are free values. -/
def replaceNew (bitNo : Nat) (s : State) : State :=
  let s1 := evt s fPA_EVT_REPLACE
  let v := freeVal s1
  let s2 := paNotice (useFree s1) (v % 512) (v / 512 % 4)
  let s3 := twAlertReq 4 true s2
  let s4 := logWrite s3 4 (leBytes 4 (2 ^ bitNo))
  let res := replaceResult s4
  let s5 := forEach (List.range 4) (fun c t => if (chan t c).masked then t else mbEvent c evREPLACE 0 res t) (useFree s4)
  forEach s5.mb.senders (fun p t => sendEvent p evREPLACE 0 0 0 res t) s5

/-- Let PA_REPLACE follow its conditions (R407, R408), with `nand` and `sram` the causes that no register shows. -/
def replaceTo (new : Nat) (s : State) : State :=
  let old := rdn s PA_REPLACE
  let s1 := indAll (wrn (wrn s PA_REPLACE new) PA_REPLACE_INFO (replaceInfo s))
  let s2 := fbset s1 fPA_STAT_REPLACE (new != 0)
  let s3 := if (old != 0) = (new != 0) then s2 else emit s2 (.pin "REPLACE_N" 0 (new == 0))
  forEach ((List.range 5).filter (fun i => bit new i && !bit old i)) replaceNew s3

/-- Re-evaluate the REPLACE state. -/
def replaceUpdate (s : State) : State := replaceTo (replaceCauses s) s

end Sys2Proof.Machine
end

