-- ==== Sys2Proof/Machine/Em.lean ====
section
/-! DEFINITION. Events through the event matrix (R373 to R383): routes, coincidences, overruns and what every task
input does with an event; and the captures of the time island (R196). -/

namespace Sys2Proof.Machine

/-- A 48-bit base value WRAP:NS. -/
def base48 (s : State) (b : Nat) : Nat :=
  let t := s.bases[(Fin.ofNat 4 b)]
  t.wrap * 2 ^ 32 + t.ns

/-- Latch all four bases into the capture registers of channel `c`, less `adj` ns (R195, R196). -/
def captureAll (s : State) (c : Nat) : State :=
  let o := c * 0x20
  let s1 := forEach (List.range 4) (fun n t => wrn t (TB_CAP_NS + o + n * 4) (base48 s n)) s
  let w := fun n => base48 s n / 2 ^ 32
  fbset (wrn (wrn s1 (TB_CAP_HI01 + o) (w 1 * 65536 + w 0)) (TB_CAP_HI23 + o) (w 3 * 65536 + w 2))
    fTB_CAP_CTL_VALID true o

/-- An event reached a busy consumer (R378). -/
def emOverrun (i : Nat) (s : State) : State :=
  evt (cnt (regBit s (EM_OVR + i / 32 * 4) (i % 32) true) EM_CNT_OVR) fEM_EVT_OVR

/-- Drive output `k` (R382): the level of the ball is inverted when POL = 1. -/
def emDrive (k : Nat) (active : Bool) (s : State) : State :=
  let s1 := fbset s fEM_OUT_STAT_ACTIVE active (k * 8)
  emit s1 (.pin "EM_OUT" k (active != fbit s fEM_OUT_CFG_POL (k * 8)))

/-- The task of EM_OUT[k] (R382). -/
def emOutTask (k : Nat) (s : State) : State :=
  let o := k * 8
  if !fbit s fEM_OUT_CFG_EN o then s
  else match fget s fEM_OUT_CFG_MODE o with
    | 1 => emDrive k (!fbit s fEM_OUT_STAT_ACTIVE o) s
    | 2 => s
    | _ => if fbit s fEM_OUT_STAT_BUSY o then emOverrun k s
      else emDrive k true (fbset s fEM_OUT_STAT_BUSY true o)

/-- The task of TB_CAP[c] (R196, R378). -/
def emCapTask (c : Nat) (s : State) : State :=
  let o := c * 0x20
  if !fbit s fTB_CAP_CTL_EN o then s
  else if fbit s fTB_CAP_CTL_VALID o then
    let s1 := evt (cnt (emOverrun (0x10 + c) s) (TB_CAP_CNT_OVR + o)) fTB_EVT_CAP_OVR
    if fbit s fTB_CAP_CTL_OVWR o then captureAll s1 c else s1
  else captureAll s c

/-- The task of AC_GATE: a stamp for the ejection calibration that runs (R181, R374). -/
def emGateTask (s : State) : State :=
  match s.views.ejectRun with
  | none => s
  | some r => { s with views := { s.views with ejectRun := some { r with gate := r.gate ++ [now s] } } }

/-- Pending event bits at a cell's inputs. -/
def cellEvents (s : State) (k : Nat) : Nat := smGet s.em.cellEv k 0

/-- One event at input `j` of cell `k`; a disabled cell takes none. -/
def emCellTask (k j : Nat) (s : State) : State :=
  if !fbit s fEM_CELL_CTL_EN (k * 0x10) then s
  else { s with em := { s.em with cellEv := smPut s.em.cellEv k 0 ((cellEvents s k).lor (2 ^ j)) } }

/-- What consumer `i` does with an event (R374); `det` detects a Parapet source. -/
def emTask (det : Nat → State → State) (i : Nat) (s : State) : State :=
  if i < 0x10 then emOutTask i s
  else if i < 0x18 then emCapTask (i - 0x10) s
  else if i < 0x1C then emGateTask s
  else if i < 0x20 then det (8 + (i - 0x1C)) s
  else if i < 0x28 then evtBit s EM_EVT (8 + (i - 0x20))
  else if i < 0x40 then s
  else emCellTask ((i - 0x40) / 4) ((i - 0x40) % 4) s

/-- The consumers that producer `p` is routed to (R375). -/
def emRoutes (s : State) (p : Nat) : List Nat :=
  (List.range 6).flatMap (fun w =>
    let v := rdn s (EM_ROUTE + p * 0x20 + w * 4)
    if v = 0 then [] else (List.range 32).filterMap (fun j => if bit v j then some (w * 32 + j) else none))

/-- The assigned producers (R373). -/
def emAssigned (p : Nat) : Bool := p < 0x4A || (0x50 ≤ p && p ≤ 0x98)

/-- Producer `p` is tripped. -/
def emTripped (s : State) (p : Nat) : Bool := bit (rdn s (EM_TRIP + p / 32 * 4)) (p % 32)

/-- The storm guard's window of 1,000 matrix cycles (R383): two cycles pass per tick of the time island. -/
def emWindow (s : State) : Nat := s.tick * 2 / 1000

/-- Firings of producer `p` counted in the present window. -/
def emFirings (s : State) (p : Nat) : Nat :=
  if s.em.window = emWindow s then smGet s.em.fired p 0 else 0

/-- Count a firing in the window. -/
def emCount (p : Nat) (s : State) : State :=
  let m := if s.em.window = emWindow s then s.em.fired else []
  { s with em := { s.em with window := emWindow s, fired := smPut m p 0 (emFirings s p + 1) } }

/-- Producers that fire in one matrix cycle: every routed consumer gets one event; a consumer that two producers
reach has its EM_COINC bit set (R375, R377). -/
def emFireWith (det : Nat → State → State) (ps : List Nat) (s : State) : State :=
  let on := ps.dedup.filter (fun p => emAssigned p && !emTripped s p)
  if !fbit s fEM_CTL_EN then s
  else
    let s1 := forEach on emCount s
    let cs := on.flatMap (emRoutes s)
    let s2 := forEach (cs.dedup.filter (fun c => decide (1 < cs.count c)))
      (fun c t => regBit t (EM_COINC + c / 32 * 4) (c % 32) true) s1
    forEach cs.dedup (emTask det) s2

end Sys2Proof.Machine
end

