-- ==== Sys2Proof/Machine/Safe.lean ====
section
/-! DEFINITION. The safe state (R179, R399 to R401), the detection of any Parapet source (R397, R398), and the firing of
event-matrix producers, which can detect an external source. -/

namespace Sys2Proof.Machine

/-! ## Frames of the valve bus (R175) -/

/-- Symbols 1 to 14 of a frame (R175). -/
def frameBytes (type addr bitmap dur ver : Nat) : List Byte :=
  let b := leBytes 1 (type * 32 + addr) ++ leBytes 8 bitmap ++ leBytes 2 dur ++ leBytes 1 ver
  b ++ leBytes 2 (crc16 b)

/-- A SAFE frame. -/
def safeFrame : List Byte := frameBytes 1 0 0 0 1

/-- Abort the frame on the wire of a bus with K30.7 (R176). -/
def abortWire (b : Nat) (s : State) : State :=
  match (busAt s b).wire with
  | .idle => s
  | _ => emit (updBus s b (fun u => { u with wire := .idle })) (.valveAbort b)

/-- A SAFE frame starts on bus `b`. -/
def sendSafe (b : Nat) (s : State) : State :=
  emit (updBus s b (fun u => { u with wire := .safe })) (.valveFrame b safeFrame)

/-! ## Entry to the safe state -/

/-- DIVERT_N and ALIVE follow the safe state, HOLD and WDOG.EN (R400, R401). -/
def paPins (s : State) : State :=
  let div := safeState s || fbit s fPA_DIVERT_HOLD
  let run := fbit s fPA_WDOG_EN && !safeState s
  let s1 := if div = fbit s fPA_STAT_DIVERT then s
    else emit (fbset s fPA_STAT_DIVERT div) (.pin "DIVERT_N" 0 (!div))
  let s2 := fbset s1 fPA_STAT_ALIVE_RUN run
  if !run ∧ s2.pa.alive then emit { s2 with pa := { s2.pa with alive := false } } (.pin "ALIVE" 0 false) else s2

/-- The buses at entry to the safe state (R179): EN is copied to WAS_EN and cleared, the wire is aborted, and the
first SAFE frame starts. -/
def busSafe (b : Nat) (s : State) : State :=
  let s1 := fbset s fAC_BUS_CTL_WAS_EN (fbit s fAC_BUS_CTL_EN (buo b)) (buo b)
  let s2 := fbset (fbset s1 fAC_BUS_CTL_EN false (buo b)) fAC_BUS_CTL_SAFE true (buo b)
  sendSafe b (abortWire b s2)

/-- Every order of this pier is cancelled, and every queued part; of an order that has fired all its local parts, the remote
parts before their launch (R170, R179, R121). -/
def cancelEverything (s : State) : State :=
  let s1 := forEach s.act.orders (fun o t =>
    if o.fired ∧ ¬ (List.range 4).any (fun b => (busAt t b).queue.any (ownPart o.owner)) then cancelRemotes t o
    else cancelOrder t o.owner AC_CNT_CANCEL) s
  forEach (List.range 4) (fun b t => cancelParts b (fun _ => true) t) s1

/-- The actuation block enters the safe state (R179). -/
def actSafe (s : State) : State :=
  let s1 := forEach (List.range 4) busSafe s
  let s2 := evt (fbset s1 fAC_STAT_SAFE true) fAC_EVT_SAFE
  cancelEverything s2

/-- Enter the safe state (R399); entering it again changes nothing. -/
def safeEnter (s : State) : State :=
  if safeState s then s
  else
    let s1 := evt (fbset s fPA_STAT_SAFE true) fPA_EVT_SAFE
    actSafe (paPins { s1 with pa := { s1.pa with safeSent := false } })

/-- The detection of a source (R397, R398), which wakes the unit when it is SEVERE or FATAL (R429), without the event-matrix producers of an entry to the safe state. -/
def paDetectCore (src : Nat) (s : State) : State :=
  let cls := paClass s src
  let s0 := paCount s src
  let s1 := if 2 ≤ cls ∧ s.rs.asleep then { s0 with rs := { s0.rs with wakeReq := true } } else s0
  if paReacts s src then
    let s2 := paReact s1 src cls
    let s3 := if 2 ≤ cls then safeEnter s2 else s2
    if paNotifies s cls || cls = 3 || (!safeState s && safeState s3) then paNotice s3 src cls else s3
  else s1

/-- The detection of a source. An entry to the safe state fires producer 98h, and the first SAFE frames producers 94h to
97h (R373, R399); an external source that one of these detects finds the safe state in force. -/
def paDetect (src : Nat) (s : State) : State :=
  let s1 := paDetectCore src s
  if !safeState s && safeState s1 then
    forEach [[0x98], [0x94], [0x95], [0x96], [0x97]] (emFireWith paDetectCore) s1
  else s1

/-- Fire the producers of one matrix cycle (R375). -/
def emFires (ps : List Nat) (s : State) : State := emFireWith paDetect ps s

/-- Fire one producer. -/
def emFire (p : Nat) (s : State) : State := emFires [p] s

end Sys2Proof.Machine
end

