-- ==== Sys2Proof/Machine/Tags.lean ====
section
/-! DEFINITION. The read tags of the host endpoint (R254 to R257): issue, release, quarantine, and the levels that HE_STAT
and HE_TAG_STAT show. -/

namespace Sys2Proof.Machine

/-- The tag values of a pool of the given size (R254). -/
def poolTags (size : Nat) : List Nat :=
  if size = 768 then (List.range 768).map (· + 0x100) else List.range size

/-- The pool that the enables of Device Control 2 and Device Control select (R254). -/
def wantedPool (s : State) : Nat :=
  if bit (cfgRd s 0x78) 12 then 768 else if bit (cfgRd s 0x58) 8 then 256 else 32

/-- The first free tag of the pool in force. -/
def freeTag (s : State) : Option Nat :=
  (poolTags (fget s fHE_TAG_STAT_POOL)).find? (fun t =>
    !(s.he.reqs.any (fun r => r.tag = t)) && !(s.he.quar.any (fun q => q.tag = t)))

/-- Keep NP_OUT, QUIET and QUAR at the requests outstanding and the tags in quarantine. -/
def syncTags (s : State) : State :=
  let n := s.he.reqs.length
  let s1 := fset s fHE_STAT_NP_OUT n
  let s2 := fbset s1 fHE_STAT_QUIET (n == 0 && !canDma s)
  fset s2 fHE_TAG_STAT_QUAR s.he.quar.length

/-- Max_Read_Request_Size in bytes (R254). -/
def maxRead (s : State) : Nat := 128 * 2 ^ bits (cfgRd s 0x58) 14 12

/-- The read requests for `len` bytes from host address `addr`, none above `m` bytes or across a multiple of it (R254, log 104),
each its address and length. -/
def readReqs (fuel m addr len : Nat) : List (Nat × Nat) :=
  match fuel with
  | 0 => []
  | k + 1 =>
    if len = 0 then []
    else (addr, min len (m - addr % m)) :: readReqs k m (addr + (m - addr % m)) (len - (m - addr % m))

/-- Read requests whose data this step has in hand: each takes a tag, which is free again before the next. -/
def readNow (addr len : Nat) (s : State) : State :=
  forEach (readReqs (len + 1) (maxRead s) addr len) (fun x t => emit t (.dmaRead x.1 x.2 ((freeTag t).getD 0))) s

/-- Issue a read with the given tag. -/
def npIssue (owner : ReqOwner) (tag addr len : Nat) (s : State) : State :=
  let r : NpReq := ⟨tag, owner, fget s fHE_CPL_TMO_US, false⟩
  emit (syncTags { s with he := { s.he with reqs := s.he.reqs ++ [r] } }) (.dmaRead addr len tag)

/-- The outstanding request of a tag. -/
def npOf (s : State) (tag : Nat) : Option NpReq := s.he.reqs.find? (fun r => r.tag = tag)

/-- A request has ended; its tag is free again. -/
def npEnd (tag : Nat) (s : State) : State :=
  syncTags { s with he := { s.he with reqs := s.he.reqs.filter (fun r => r.tag != tag) } }

/-- A request has ended and its tag enters quarantine (R256). -/
def npQuarantine (tag : Nat) (s : State) : State :=
  let s1 := { s with he := { s.he with quar := s.he.quar ++ [⟨tag, false, false⟩] } }
  npEnd tag s1

end Sys2Proof.Machine
end

