-- ==== Sys2Proof/Machine/Cmd.lean ====
section
/-! DEFINITION. How Dennil takes a mailbox command (R275 to R280, R282): the checks in their order, forwarding to another
pier, running to acceptance, deferring. Every command row runs through `mbRun`. -/

namespace Sys2Proof.Machine

/-- What a command's chapter fixes of it: opcode, the version that introduced it, Expert group, required and largest
payload, whether payload byte 0 is the port of its scope, whether it may be remote. -/
structure CmdSpec where
  opcode : Nat
  hiv : Nat
  expert : Bool
  need : Nat
  max : Nat
  perPort : Bool
  remoteOk : Bool
  deriving DecidableEq, Repr

/-- How a command's run ends: complete OK with a RESULT, a refusal with STATUS and DETAIL, deferred, where `canStop` says
that CMD_ABORT can still end it, waiting for an access to host memory that it has reached (R282), or with no completion left
to write. -/
inductive CmdRes where
  | silent
  | ok (result : List Byte)
  | refuse (status detail : Nat)
  | defer (canStop : Bool)
  | waits
  deriving DecidableEq, Repr

/-- Status codes of R276. -/
abbrev eVERSION : Nat := 1
abbrev eOPCODE : Nat := 2
abbrev eGROUP : Nat := 3
abbrev eLENGTH : Nat := 4
abbrev eRANGE : Nat := 5
abbrev eSTATE : Nat := 6
abbrev eBUSY : Nat := 7
abbrev eLEASE : Nat := 8
abbrev eAUTH : Nat := 9
abbrev eIO : Nat := 10
abbrev eUNREACH : Nat := 11
abbrev eABORTED : Nat := 12
abbrev eINTERNAL : Nat := 13

/-- Dennil is running, and the steward is neither halted (R406) nor asleep (R429). -/
def dennilUp (s : State) : Bool := fget s fMB_DENNIL_STAT_STATE == 2 && !s.pa.halted && !s.rs.asleep

/-- The function of an opcode (R269). -/
def cmdFunc (sp : CmdSpec) : Nat := sp.opcode / 256

/-- The port of a command's scope; one above 15 is no port of any scope. -/
def cmdPort (sp : CmdSpec) (c : CmdCall) : Option Nat :=
  if sp.perPort then some (byteAt c.payload 0) else none

/-- What is left of lease `i` in ns of TB3 (R280). -/
def leaseLeft (s : State) (i : Nat) : Int :=
  match s.mb.leases.find? (fun l => l.id = i) with
  | none => 0
  | some l => (BitVec.ofInt 48 ((l.atNs : Int) - base48 s 3)).toInt

/-- Lease `i` is held: granted, and its time has not ended, at whose tick the gate closes (R280, R281). -/
def leaseHeld (s : State) (i : Nat) : Bool := fbit s fMB_LEASE_HELD (i * 4) && decide (0 < leaseLeft s i)

/-- Lease `i` covers the scope of a function and, for a per-port one, a port. -/
def leaseCovers (s : State) (i func : Nat) (port : Option Nat) : Bool :=
  leaseHeld s i && fget s fMB_LEASE_FUNCTION (i * 4) == func &&
    (match port with | some p => bit (fget s fMB_LEASE_PORTS (i * 4)) p | none => true)

/-- A lease of another channel covers the scope. -/
def leasedElsewhere (s : State) (c func : Nat) (port : Option Nat) : Bool :=
  (List.range 32).any (fun i => leaseCovers s i func port && fget s fMB_LEASE_CHANNEL (i * 4) != c)

/-- Any lease covers the scope, so Dennil leaves it alone (R280). -/
def leased (s : State) (func : Nat) (port : Option Nat) : Bool :=
  (List.range 32).any (fun i => leaseCovers s i func port)

/-- The deferred commands of the channels, and those that other piers forwarded under number 4. -/
def deferredAll (s : State) : List (Nat × Deferred) :=
  (List.range 4).flatMap (fun c => (chan s c).deferred.map (fun d => (c, d))) ++ s.mb.remoteDef.map (fun d => (4, d))

/-- A deferred command holds the scope (R278). -/
def scopeBusy (s : State) (func : Nat) (port : Option Nat) : Bool :=
  (deferredAll s).any (fun x => x.2.func == func &&
    (match x.2.port, port with | some a, some b => a == b | _, _ => true))

/-- Step 1 of R275. -/
def checkForm (c : CmdCall) : Option Nat :=
  let n := c.payload.length
  if (48 < n ∧ ¬ bit c.flags 0) ∨ 4096 < n then some eLENGTH
  else if c.reserved ≠ 0 ∨ 2 ≤ c.flags ∨ bits c.target 14 10 ≠ 0 ∨ (bit c.flags 0 ∧ c.addr % 64 ≠ 0) then some eRANGE
  else none

/-- Steps 1, 3 and 4 of R275: the status of the first that fails. -/
def checkHeader (sp : CmdSpec) (c : CmdCall) (s : State) : Option Nat :=
  let o := mbo c.chan.val
  if (checkForm c).isSome then checkForm c
  else if fget s fMB_STAT_HIV o < c.hiv ∨ c.hiv < sp.hiv then some eVERSION
  else if sp.expert ∧ ¬ fbit s fMB_STAT_EXPERT o then some eGROUP
  else none

/-- The channel number of a command: 4 for one that another pier forwarded. -/
def cmdChan (c : CmdCall) : Nat := match c.origin with | none => c.chan.val | some _ => 4

/-- CMD_ABORT is never busy (R278). -/
abbrev opABORT : Nat := 0x0F15

/-- Steps 6 to 8 of R275. -/
def checkScope (sp : CmdSpec) (c : CmdCall) (s : State) : Option Nat :=
  let p := cmdPort sp c
  if leasedElsewhere s (cmdChan c) (cmdFunc sp) p then some eLEASE
  else if sp.opcode ≠ opABORT ∧ scopeBusy s (cmdFunc sp) p then some eBUSY
  else if sp.max < c.payload.length ∨ c.payload.length < sp.need then some eLENGTH
  else none

/-- REMOTE is set and names another pier. -/
def isRemote (c : CmdCall) (s : State) : Bool := bit c.target 15 && c.target % 1024 != myPier s

/-! ## Host memory (R254, R277, R282) -/

/-- The commands that read host memory for their work. -/
def cmdReads (opcode : Nat) : Bool :=
  opcode == 0x0490 || opcode == 0x0791 || opcode == 0x0891 || opcode == 0x0F13 || opcode == 0x1490

/-- The host address to which a command writes its data. -/
def cmdWrites (opcode : Nat) (payload : List Byte) : Option Nat :=
  match opcode with
  | 0x0C11 => some (u64At payload 8)
  | 0x0D10 => some (u64At payload 0)
  | 0x1210 => some (u64At payload 32)
  | 0x1211 => some (u64At payload 16)
  | _ => none

/-- What transfers of `n` bytes cost client 43 on the host link and the Trestle. -/
def hostCosts (s : State) (n : Nat) : List (Nat × Nat) := [(1, (n + 63) / 64), (2, (n + maxPayload s - 1) / maxPayload s)]

/-- A command can reach host memory now: requests may leave and client 43 covers one; for another pier's command the
sending unit does it. -/
def hostReady (c : CmdCall) (s : State) : Bool := c.origin.isSome || (canDma s && tollCan s 43 [(1, 1), (2, 1)])

/-- It can read it: a tag is free as well (R254). -/
def hostCanRead (c : CmdCall) (s : State) : Bool := c.origin.isSome || (hostReady c s && (freeTag s).isSome)

/-- Read `n` bytes of host memory for a command; the data are the command's `data`. -/
def hostRead (c : CmdCall) (addr n : Nat) (s : State) : State :=
  match c.origin with
  | none => readNow addr n (tollBegin s 43 (hostCosts s n))
  | some _ => s

/-- Data that a command writes to the host: by DMA here, or over the BULK class to the pier that forwarded it (R277). -/
def hostWrite (c : CmdCall) (addr : Nat) (data : List Byte) (s : State) : State :=
  match c.origin with
  | none => dmaWrite (tollBegin s 43 (hostCosts s data.length)) addr data
  | some p => netSend s clsBULK 0 p (pieces (data.length + 1) 2048 data)

/-- Forward a command to another pier, and over the BULK class the data that it reads from host memory (R277); the TOPIC and
layout of the message are not stated and are free. -/
def forwardCmd (opcode : Nat) (c : CmdCall) (s : State) : State :=
  let pier := c.target % 1024
  let sess := nth s.mb.opens c.chan.val
  let s0 := if cmdReads opcode then
      netSend (hostRead c (u64At c.payload 8) c.data.length s) clsBULK 0 pier (pieces (c.data.length + 1) 2048 c.data)
    else s
  let s1 := sendDennil (useFree s0) pier (freeVal s0) (leBytes 2 opcode ++ leBytes 1 c.hiv ++
    leBytes 1 c.flags ++ leBytes 4 c.tag ++ leBytes 1 c.chan.val ++ leBytes 4 sess ++ leBytes 2 c.payload.length ++ c.payload)
  let m := fun (h : MbChan) => if opcode = 0x0F16 then bit (byteAt c.payload 0) 0 else h.masked
  updChan s1 c.chan.val (fun h => { h with masked := m h, remote := h.remote ++ [⟨pier, c.tag, opcode, false, cmdWrites opcode c.payload⟩] })

/-- Hold a command as deferred (R278), keeping MB_STAT.DEFER. -/
def holdDeferred (sp : CmdSpec) (c : CmdCall) (canStop waits : Bool) (s : State) : State :=
  let ch := c.chan.val
  let d : Deferred := ⟨c, sp.opcode, cmdFunc sp, cmdPort sp c, canStop, waits, none⟩
  match c.origin with
  | some _ => { s with mb := { s.mb with remoteDef := s.mb.remoteDef ++ [d] } }
  | none =>
    let s1 := updChan s ch (fun h => { h with deferred := h.deferred ++ [d] })
    fset s1 fMB_STAT_DEFER (chan s1 ch).deferred.length (mbo ch)

/-- The origin of a command whose completion nobody takes any more: it outlived its channel at a Function Level Reset
(R283). No pier has this number. -/
abbrev noPier : Nat := 1024

/-- Complete a command: on its channel, or by a message to the pier that forwarded it (R277), whose TOPIC and layout are
not stated and are free. -/
def completeFor (opcode : Nat) (c : CmdCall) (status detail : Nat) (result : List Byte) (s : State) : State :=
  match c.origin with
  | none => complete c.chan.val opcode status c.tag detail result s
  | some p => if p = noPier then s else sendDennil (useFree s) p (freeVal s)
      (leBytes 2 opcode ++ leBytes 1 status ++ leBytes 1 c.chan.val ++ leBytes 4 c.tag ++ leBytes 4 detail ++ result)

/-- Complete a command of channel `c.chan`. -/
def completeCmd (sp : CmdSpec) (c : CmdCall) (status detail : Nat) (result : List Byte) (s : State) : State :=
  completeFor sp.opcode c status detail result s

/-- An event for the channel that sent a command, here or on the pier that forwarded it (R277). -/
def eventFor (c : CmdCall) (kind tag : Nat) (result : List Byte) (s : State) : State :=
  match c.origin with
  | none => mbEvent c.chan.val kind tag result s
  | some p => if p = noPier then s else sendEvent p kind c.chan.val tag c.sess result s

/-- Run a command's own rules to acceptance (step 9 of R275). A refused command has no effect; one that reaches an access to
host memory that cannot be made now is deferred until it can (R282). -/
def runOwn (sp : CmdSpec) (run : CmdCall → State → State × CmdRes) (c : CmdCall) (s : State) : State :=
  let full := c.origin == none && decide (16 ≤ (chan s c.chan.val).deferred.length)
  let r := run c s
  match r.2 with
  | .silent => r.1
  | .ok res => completeCmd sp c 0 0 res r.1
  | .refuse st d => completeCmd sp c st d [] s
  | .defer stop => if full then completeCmd sp c eBUSY 0 [] s else holdDeferred sp c stop false r.1
  | .waits => if full then completeCmd sp c eBUSY 0 [] s else holdDeferred sp c true true s

/-! ## The command rings (R270, R272) -/

/-- The host address of the entry at HEAD. -/
def mbEntryAddr (s : State) (c : Nat) : Nat :=
  addr64 s (MB_CMD_LO + mbo c) (MB_CMD_HI + mbo c) + 64 * rdn s (MB_CMD_HEAD + mbo c)

/-- The read of channel `c` that is outstanding. -/
def mbFlight (s : State) (c : Nat) : Option NpReq := s.he.reqs.find? (fun r => r.owner == .mailbox c)

/-- The next read of channel `c`, its address and length: the entry at HEAD, then its indirect payload; none once both are
here. -/
def mbNeed (s : State) (c : Nat) : Option (Nat × Nat) :=
  let f := (chan s c).fetched
  let len := u16At f 8
  if f.length < 64 then some (mbEntryAddr s c, 64)
  else if bit (byteAt f 3) 0 ∧ len ≤ 4096 ∧ u64At f 16 % 64 = 0 ∧ f.length < 64 + len then
    let a := u64At f 16 + (f.length - 64)
    some (a, min (64 + len - f.length) (maxRead s - a % maxRead s))
  else none

/-- Issue the next read of channel `c`, if a command waits, requests may leave, client 36 covers it and a tag is free. -/
def mbFetch (c : Nat) (s : State) : State :=
  let o := mbo c
  if !chOpen s c || !dennilUp s || !canDma s || rdn s (MB_CMD_HEAD + o) == rdn s (MB_CMD_TAIL + o) || (mbFlight s c).isSome then s
  else match mbNeed s c, freeTag s with
    | some (a, n), some t =>
      let cost := [(1, (n + 63) / 64), (2, 1)]
      if tollCan s 36 cost then npIssue (.mailbox c) t a n (tollSpend s 36 cost) else tollShort s 36 false
    | _, _ => s

/-- Data of the outstanding read of channel `c`. -/
def mbGot (c : Nat) (data : List Byte) (s : State) : State :=
  match mbNeed s c with
  | none => s
  | some (_, n) => mbFetch c (updChan s c (fun h => { h with fetched := h.fetched ++ fit n data }))

/-- What is still to be read of the next command of channel `c` can be read now. -/
def mbReadable (s : State) (c : Nat) : Bool :=
  (mbNeed s c).isNone || (canDma s && ((mbFlight s c).isSome || ((freeTag s).isSome && tollCan s 36 [(1, 1), (2, 1)])))

/-- A command can be taken: the channel is open, Dennil runs, a command is waiting and read or readable, and a completion slot
is free (R272). -/
def mbGate (c : CmdCall) (s : State) : Bool :=
  let o := mbo c.chan.val
  chOpen s c.chan.val && dennilUp s && rdn s (MB_CMD_HEAD + o) != rdn s (MB_CMD_TAIL + o) && cplRoom s c.chan.val &&
    mbReadable s c.chan.val

/-- The reads that a command being taken still needs, beside the one outstanding: its entry, then the rest of an indirect
payload. -/
def mbRest (c : CmdCall) (s : State) : List (Nat × Nat) :=
  let f := (chan s c.chan.val).fetched
  let flying := (mbFlight s c.chan.val).isSome
  let have_ := f.length + (if flying then (match mbNeed s c.chan.val with | some x => x.2 | none => 0) else 0)
  (if have_ < 64 then [(mbEntryAddr s c.chan.val, 64)] else []) ++
    (if bit c.flags 0 ∧ (checkForm c).isNone = true then [(c.addr + (have_ - 64), c.payload.length - (have_ - 64))] else [])

/-- Take a command: what is left of it to be read is read, HEAD advances, and it is counted; the next one's read is issued
(R272). -/
def mbTake (c : CmdCall) (s : State) : State :=
  let o := mbo c.chan.val
  let n := ringSize (fget s fMB_CTL_CMD_SIZE o)
  let rest := mbRest c s
  let s1 := match mbFlight s c.chan.val with | some r => npEnd r.tag s | none => s
  let s2 := forEach rest (fun x t => readNow x.1 x.2 (tollBegin t 36 [(1, (x.2 + 63) / 64), (2, 1)])) s1
  let s3 := updChan s2 c.chan.val (fun h => { h with fetched := [] })
  let s4 := cnt (wrn s3 (MB_CMD_HEAD + o) ((rdn s (MB_CMD_HEAD + o) + 1) % n)) (MB_CNT_CMD + o)
  mbFetch c.chan.val s4

/-- A command that another pier forwarded: steps 3 and 6 to 9 of R275 against this unit's own versions (R277). -/
def runForwarded (sp : CmdSpec) (run : CmdCall → State → State × CmdRes) (c : CmdCall) (s0 : State) : State :=
  if !dennilUp s0 then s0
  else
    let p := c.origin.getD noPier
    let s : State := { s0 with mb := { s0.mb with
      senders := if s0.mb.senders.contains p || p == noPier then s0.mb.senders else s0.mb.senders ++ [p] } }
    if c.hiv < sp.hiv ∨ 0x16 < c.hiv then completeCmd sp c eVERSION 0 [] s
    else match checkScope sp c s with
      | some st => completeCmd sp c st 0 [] s
      | none => runOwn sp run c s

/-- Take a command and run it to acceptance (R275, R277, R278). -/
def mbRun (sp : CmdSpec) (run : CmdCall → State → State × CmdRes) (c : CmdCall) (s0 : State) : State :=
  if c.origin ≠ none then runForwarded sp run c s0
  else if !mbGate c s0 then s0
  else
    let s := mbTake c s0
    match checkHeader sp c s with
    | some st => completeCmd sp c st 0 [] s
    | none =>
      if isRemote c s then
        if !reachable s (c.target % 1024) then completeCmd sp c eUNREACH 0 [] s
        else if !sp.remoteOk then completeCmd sp c eRANGE 10 [] s
        else if cmdReads sp.opcode ∧ ¬ hostCanRead c s then
          if 16 ≤ (chan s c.chan.val).deferred.length then completeCmd sp c eBUSY 0 [] s else holdDeferred sp c true true s
        else forwardCmd sp.opcode c s
      else match checkScope sp c s with
        | some st => completeCmd sp c st 0 [] s
        | none => runOwn sp run c s

/-- Take a deferred command off its list, keeping MB_STAT.DEFER. -/
def dropDeferred (ch : Nat) (d : Deferred) (s : State) : State :=
  if ch = 4 then { s with mb := { s.mb with remoteDef := s.mb.remoteDef.erase d } }
  else
    let s1 := updChan s ch (fun h => { h with deferred := h.deferred.erase d })
    fset s1 fMB_STAT_DEFER (chan s1 ch).deferred.length (mbo ch)

/-- Put another record of a deferred command in its place. -/
def putDeferred (x : Nat × Deferred) (new : Deferred) (s : State) : State :=
  let f := fun (l : List Deferred) => l.map (fun d => if d == x.2 then new else d)
  if x.1 = 4 then { s with mb := { s.mb with remoteDef := f s.mb.remoteDef } }
  else updChan s x.1 (fun h => { h with deferred := f h.deferred })

/-- Complete a deferred command of `deferredAll`. -/
def endD (x : Nat × Deferred) (status detail : Nat) (result : List Byte) (s : State) : State :=
  completeFor x.2.opcode x.2.call status detail result (dropDeferred x.1 x.2 s)

/-- A deferred command fails inside Dennil: E_INTERNAL and source 003h (R276, R396). -/
def endInternal (x : Nat × Deferred) (s : State) : State := paDetect 0x03 (endD x eINTERNAL 0 [] s)

/-- A deferred command ends with data for host memory; while it cannot be reached the command waits with them (R282). -/
def endHost (x : Nat × Deferred) (addr : Nat) (data result : List Byte) (s : State) : State :=
  if hostReady x.2.call s then endD x 0 0 result (hostWrite x.2.call addr data s)
  else putDeferred x { x.2 with waitsBme := true, canStop := true, out := some ⟨addr, data, result⟩ } s

/-- End the deferred command with the given tag on a channel (R278). -/
def endDeferred (ch tag status detail : Nat) (result : List Byte) (s : State) : State :=
  match (deferredAll s).find? (fun x => x.1 = ch && x.2.call.tag = tag) with
  | none => s
  | some x => endD x status detail result s

/-- The deferred commands of an opcode, with their channels. -/
def deferredOf (s : State) (opcode : Nat) : List (Nat × Deferred) :=
  (deferredAll s).filter (fun x => x.2.opcode = opcode && !x.2.waitsBme)

/-! ## The lease gate (R268, R280) -/

/-- A host write discarded for want of a lease (R268). -/
def noLease (s : State) : State :=
  forEach (List.range 4) (fun c t => if chOpen t c then evt t fMB_EVT_NOLEASE (mbo c) else t) (cnt s MB_CNT_NOLEASE)

/-- A write of Dennil-owned fields of function `func`: Dennil's always acts, the host's only under a covering lease;
one that is discarded counts when it would have changed a field (R268). -/
def gated (ag : Agent) (func : Nat) (port : Option Nat) (changes : Bool) (f : State → State) (s : State) : State :=
  if ag = .dennil ∨ leased s func port then f s
  else if changes then noLease s
  else s

/-- Payload byte of a command. -/
def pb (c : CmdCall) (i : Nat) : Nat := byteAt c.payload i

/-- The u16 at payload byte `i`. -/
def pw (c : CmdCall) (i : Nat) : Nat := u16At c.payload i

/-- The u32 at payload byte `i`. -/
def pd (c : CmdCall) (i : Nat) : Nat := u32At c.payload i

/-- The u64 at payload byte `i`. -/
def pq (c : CmdCall) (i : Nat) : Nat := u64At c.payload i

/-- The profile that a function loads under a number (R335). -/
def findProfile (s : State) (func idx : Nat) : Option Profile :=
  s.ev.conf.find? (fun p => p.func = func && p.idx = idx)

/-- The register writes that a byte image spells, eight bytes each: a W0 address and a value (log 21). -/
def pairsOf (fuel : Nat) (l : List Byte) : List (Nat × Nat) :=
  match fuel with
  | 0 => []
  | k + 1 => if l.length < 8 then [] else (u32At l 0, u32At l 4) :: pairsOf k (l.drop 8)

/-- Write the registers of a list, each pair a W0 address and a value. -/
def writeRegs (l : List (Nat × Nat)) (s : State) : State := forEach l (fun p t => wrn t p.1 p.2) s

/-- The CAL entry in use for a key: the intact one with the highest GEN (R341). -/
def calInUse (s : State) (type head phase : Nat) : Option CalEntry :=
  (s.ev.cal.filter (fun e => e.intact && e.type = type && e.head = head && e.phase = phase)).foldl
    (fun acc e => match acc with
      | none => some e
      | some a => if a.gen < e.gen then some e else some a) none

end Sys2Proof.Machine
end

