-- ==== Sys2Proof/Machine/Hash.lean ====
section
/-! DEFINITION. SHA-384 and HMAC-SHA-384, with which images, tokens and what stands on the medium are checked (R274, R284, R286,
R333, R335, R340). PRESUMED: the functions are those of FIPS 180-4 and FIPS 198-1 (log 109). -/

namespace Sys2Proof.Machine

/-- The eight working variables. -/
structure ShaSt where
  a : Nat
  b : Nat
  c : Nat
  d : Nat
  e : Nat
  f : Nat
  g : Nat
  h : Nat
  deriving DecidableEq, Repr

/-- Rotation of a 64-bit word to the right. -/
def rotr64 (n x : Nat) : Nat := (x / 2 ^ n).lor (x * 2 ^ (64 - n) % 2 ^ 64)

/-- The round constants. -/
def shaK : List Nat :=
  [0x428a2f98d728ae22, 0x7137449123ef65cd, 0xb5c0fbcfec4d3b2f, 0xe9b5dba58189dbbc, 0x3956c25bf348b538,
   0x59f111f1b605d019, 0x923f82a4af194f9b, 0xab1c5ed5da6d8118, 0xd807aa98a3030242, 0x12835b0145706fbe,
   0x243185be4ee4b28c, 0x550c7dc3d5ffb4e2, 0x72be5d74f27b896f, 0x80deb1fe3b1696b1, 0x9bdc06a725c71235,
   0xc19bf174cf692694, 0xe49b69c19ef14ad2, 0xefbe4786384f25e3, 0x0fc19dc68b8cd5b5, 0x240ca1cc77ac9c65] ++
  [0x2de92c6f592b0275, 0x4a7484aa6ea6e483, 0x5cb0a9dcbd41fbd4, 0x76f988da831153b5, 0x983e5152ee66dfab,
   0xa831c66d2db43210, 0xb00327c898fb213f, 0xbf597fc7beef0ee4, 0xc6e00bf33da88fc2, 0xd5a79147930aa725,
   0x06ca6351e003826f, 0x142929670a0e6e70, 0x27b70a8546d22ffc, 0x2e1b21385c26c926, 0x4d2c6dfc5ac42aed,
   0x53380d139d95b3df, 0x650a73548baf63de, 0x766a0abb3c77b2a8, 0x81c2c92e47edaee6, 0x92722c851482353b] ++
  [0xa2bfe8a14cf10364, 0xa81a664bbc423001, 0xc24b8b70d0f89791, 0xc76c51a30654be30, 0xd192e819d6ef5218,
   0xd69906245565a910, 0xf40e35855771202a, 0x106aa07032bbd1b8, 0x19a4c116b8d2d0c8, 0x1e376c085141ab53,
   0x2748774cdf8eeb99, 0x34b0bcb5e19b48a8, 0x391c0cb3c5c95a63, 0x4ed8aa4ae3418acb, 0x5b9cca4f7763e373,
   0x682e6ff3d6b2b8a3, 0x748f82ee5defb2fc, 0x78a5636f43172f60, 0x84c87814a1f0ab72, 0x8cc702081a6439ec] ++
  [0x90befffa23631e28, 0xa4506cebde82bde9, 0xbef9a3f7b2c67915, 0xc67178f2e372532b, 0xca273eceea26619c,
   0xd186b8c721c0c207, 0xeada7dd6cde0eb1e, 0xf57d4f7fee6ed178, 0x06f067aa72176fba, 0x0a637dc5a2c898a6,
   0x113f9804bef90dae, 0x1b710b35131c471b, 0x28db77f523047d84, 0x32caab7b40c72493, 0x3c9ebe0a15c9bebc,
   0x431d67c49c100d4c, 0x4cc5d4becb3e42b6, 0x597f299cfc657e2a, 0x5fcb6fab3ad6faec, 0x6c44198c4a475817]

/-- The next word of the message schedule, from the words before it, newest first. -/
def shaNextW (l : List Nat) : Nat :=
  let x := nth l 14
  let y := nth l 1
  let s0 := ((rotr64 1 x).xor (rotr64 8 x)).xor (x / 2 ^ 7)
  let s1 := ((rotr64 19 y).xor (rotr64 61 y)).xor (y / 2 ^ 6)
  (s1 + nth l 6 + s0 + nth l 15) % 2 ^ 64

/-- Extend a schedule, newest first, by `n` words. -/
def shaExtend (n : Nat) (l : List Nat) : List Nat :=
  match n with
  | 0 => l
  | k + 1 => shaExtend k (shaNextW l :: l)

/-- One round. -/
def shaRound (x : ShaSt) (kw : Nat × Nat) : ShaSt :=
  let s1 := ((rotr64 14 x.e).xor (rotr64 18 x.e)).xor (rotr64 41 x.e)
  let ch := (x.e.land x.f).xor ((2 ^ 64 - 1 - x.e).land x.g)
  let t1 := x.h + s1 + ch + kw.1 + kw.2
  let s0 := ((rotr64 28 x.a).xor (rotr64 34 x.a)).xor (rotr64 39 x.a)
  let maj := ((x.a.land x.b).xor (x.a.land x.c)).xor (x.b.land x.c)
  ⟨(t1 + s0 + maj) % 2 ^ 64, x.a, x.b, x.c, (x.d + t1) % 2 ^ 64, x.e, x.f, x.g⟩

/-- The number that a list of bytes spells, highest first. -/
def beNat (l : List Byte) : Nat := l.foldl (fun n b => 256 * n + b.toNat) 0

/-- `n` bytes of a number, highest first. -/
def beBytes (n v : Nat) : List Byte := (leBytes n v).reverse

/-- A block of 128 bytes goes into the chaining value. -/
def shaBlock (x : ShaSt) (blk : List Byte) : ShaSt :=
  let w0 := (List.range 16).map (fun i => beNat ((blk.drop (8 * i)).take 8))
  let y := (shaK.zip (shaExtend 64 w0.reverse).reverse).foldl shaRound x
  let add := fun (p q : Nat) => (p + q) % 2 ^ 64
  ⟨add x.a y.a, add x.b y.b, add x.c y.c, add x.d y.d, add x.e y.e, add x.f y.f, add x.g y.g, add x.h y.h⟩

/-- The blocks of a padded message in turn. -/
def shaBlocks (n : Nat) (x : ShaSt) (l : List Byte) : ShaSt :=
  match n with
  | 0 => x
  | k + 1 => shaBlocks k (shaBlock x (l.take 128)) (l.drop 128)

/-- The SHA-384 digest of a list of bytes, 48 bytes. -/
def sha384 (l : List Byte) : List Byte :=
  let n := l.length
  let z := (128 - (n + 17) % 128) % 128
  let x := shaBlocks ((n + 17 + z) / 128) ⟨0xcbbb9d5dc1059ed8, 0x629a292a367cd507, 0x9159015a3070dd17, 0x152fecd8f70e5939,
    0x67332667ffc00b31, 0x8eb44a8768581511, 0xdb0c2e0d64f98fa7, 0x47b5481dbefa4fa4⟩
    (l ++ [0x80#8] ++ zeros z ++ beBytes 16 (8 * n))
  [x.a, x.b, x.c, x.d, x.e, x.f].flatMap (beBytes 8)

/-- HMAC-SHA-384 under a key of 48 bytes. -/
def hmac384 (key : List Byte) (l : List Byte) : List Byte :=
  let k := fit 128 key
  sha384 (k.map (fun b => b ^^^ 0x5C#8) ++ sha384 (k.map (fun b => b ^^^ 0x36#8) ++ l))

end Sys2Proof.Machine
end

