-- ==== Sys2Proof/Machine/Nand.lean ====
section
/-! DEFINITION. What stands on the NAND medium, byte for byte (chapter 18): the medium header and its partitions (R333, R334), the
copies of the configuration store (R335), calibration entries (R340) and the header of an EVID superblock (R348); and which medium
is usable (R327, R328). -/

namespace Sys2Proof.Machine

/-- Pad with zeros to a multiple of 64 bytes. -/
def pad64 (l : List Byte) : List Byte := l ++ zeros ((64 - l.length % 64) % 64)

/-- The device key as bytes. -/
def keyBytes (s : State) : List Byte := beBytes 48 s.ev.deviceKey.toNat

/-! ## The medium (R327, R328) -/

/-- The populated channels. -/
def populated (m : Medium) : List Nat := (List.range 4).filter (fun i => m.channels.getD i [] != [])

/-- The parameter page that stands for the medium: that of its first target. -/
def mediumPage (m : Medium) : ParamPage := (m.channels.flatten).headD ⟨0, 0, 0, 0, 0, 0, 0, false⟩

/-- Targets per channel. -/
def mediumPerChannel (m : Medium) : Nat := ((m.channels.filter (fun c => c != [])).headD []).length

/-- The medium meets every condition of R328. -/
def mediumUsable (m : Medium) : Bool :=
  let p := mediumPage m
  let pop := m.channels.filter (fun c => c != [])
  pop != [] && decide (mediumPerChannel m ≤ 4) && pop.all (fun c => c.length == mediumPerChannel m) && pop.flatten.all (fun q => q == p) &&
    decide (0 < p.main) && p.main % 4096 == 0 && decide (p.main / 4096 * 512 ≤ p.spare) && decide (p.block ≤ 2 ^ 26) && p.zeroOk

/-- Blocks per target that are used: capacity beyond 16 TiB stays unused (R327). -/
def mediumBlocks (m : Medium) : Nat :=
  let n := (populated m).length * mediumPerChannel m * (mediumPage m).block
  if n = 0 then 0 else min (mediumPage m).blocks (2 ^ 44 / n)

/-- EV_MEDIUM of a medium. -/
def mediumWord (m : Medium) : Nat :=
  (populated m).foldl (fun a i => a + 2 ^ (28 + i)) 0 + (mediumPerChannel m - 1) % 4 * 2 ^ 26 +
    (Nat.log2 (mediumPage m).block - 20) % 16 * 2 ^ 20 + mediumBlocks m % 2 ^ 20

/-! ## The medium header (R333, R334) -/

/-- A partition entry. -/
def partBytes (p : Partition) : List Byte :=
  leBytes 1 p.type ++ leBytes 1 p.mode ++ zeros 2 ++ leBytes 4 p.first ++ leBytes 4 p.count ++ leBytes 4 p.spare ++ zeros 16

/-- The header codeword, signed with a device key. -/
def mediumHeader (key : List Byte) (h : MediumHdr) : List Byte :=
  let body := fit 4040 (leBytes 4 0x44454D5A ++ leBytes 2 0x0100 ++ leBytes 2 h.parts.length ++ leBytes 4 h.gen ++ leBytes 1 h.chMask ++
    leBytes 1 h.targets ++ leBytes 1 h.slcCmd ++ zeros 1 ++ leBytes 4 h.blockCw ++ leBytes 4 h.blocks ++ leBytes 4 h.peNative ++
    leBytes 4 h.peSlc ++ leBytes 4 h.lifeH ++ zeros 28 ++ h.parts.flatMap partBytes)
  let signed := body ++ hmac384 key body
  signed ++ leBytes 4 (crc32 signed) ++ zeros 4

/-- A partition entry read. -/
def partAt (l : List Byte) (i : Nat) : Partition :=
  let o := 64 + 32 * i
  ⟨byteAt l o, byteAt l (o + 1), u32At l (o + 4), u32At l (o + 8), u32At l (o + 12)⟩

/-- A header codeword read: none where it is not intact (R337). -/
def readHeader (key l : List Byte) : Option MediumHdr :=
  if l.length ≠ 4096 ∨ u32At l 0 ≠ 0x44454D5A ∨ u16At l 4 ≠ 0x0100 ∨ u32At l 4088 ≠ crc32 (l.take 4088) ∨
      hmac384 key (l.take 4040) ≠ (l.drop 4040).take 48 then none
  else some ⟨u32At l 8, byteAt l 12 % 16, byteAt l 13, byteAt l 14, u32At l 16, u32At l 20, u32At l 24, u32At l 28, u32At l 32,
    (List.range (min 5 (u16At l 6))).map (partAt l)⟩

/-- The layout with which an unformatted medium is formatted: from superblock 1 on, SLC but for EVID where a profile is known, all
native where none is (R332, R334). -/
def formatParts (slc : Bool) (blocks : Nat) : List Partition :=
  let m := if slc then 1 else 0
  [⟨1, m, 1, 30, 6⟩, ⟨2, m, 31, 8, 2⟩, ⟨3, m, 39, 16, 4⟩, ⟨4, m, 55, 32, 8⟩, ⟨5, 0, 87, blocks - 87, 0⟩]

/-- The header of a medium that is formatted now; `prof` is its medium profile. Without one PE_SLC is 0 (log 110). -/
def formatHeader (m : Nat) (page : ParamPage) (prof : Option MediumProfile) : MediumHdr :=
  let blocks := m % 2 ^ 20
  ⟨1, bits m 31 28, bits m 27 26 + 1, (prof.map (·.slcCmd)).getD 0, page.block / 4096, blocks, page.cycles,
    (prof.map (·.peSlc)).getD 0, 219150, formatParts prof.isSome blocks⟩

/-- Blocks of a list that lie in a partition. -/
def badIn (targets : Nat) (p : Partition) (l : List Nat) : Nat :=
  (l.filter (fun b => decide (p.first * targets ≤ b) && decide (b < (p.first + p.count) * targets))).length

/-! ## The configuration store (R335) -/

/-- The body of a copy: digest of the expert token, bad-block table, chain settings, profiles. Its layout is not stated (log
111). -/
def confBody (s : State) : List Byte :=
  fit 48 s.ev.token ++ leBytes 4 s.ev.badBlocks.length ++ s.ev.badBlocks.flatMap (leBytes 4) ++ leBytes 4 (rdn s SN_HOST) ++
    leBytes 4 s.ev.conf.length ++ s.ev.conf.flatMap (fun p => leBytes 1 p.func ++ leBytes 1 p.idx ++ leBytes 2 p.writes.length ++
      leBytes 4 p.rate ++ p.writes.flatMap (fun w => leBytes 4 w.1 ++ leBytes 4 w.2) ++ leBytes 2 p.script.length ++
      p.script.flatMap (fun b => leBytes 2 b.length ++ b))

/-- A copy of the configuration store: its header, then the body. -/
def confCopyBytes (key : List Byte) (copy gen : Nat) (body : List Byte) : List Byte :=
  let h := fit 64 (leBytes 4 0x464E435A ++ leBytes 2 0x0100 ++ leBytes 2 copy ++ leBytes 4 gen ++ leBytes 4 body.length ++
    leBytes 4 (crc32 body))
  h ++ hmac384 key (h ++ body) ++ zeros 16 ++ body

/-! ## Calibration entries (R340) -/

/-- An entry of the CAL log. -/
def calBytes (key : List Byte) (e : CalEntry) : List Byte :=
  let b := leBytes 2 e.type ++ leBytes 2 e.fmt ++ leBytes 8 e.head ++ leBytes 1 e.phase ++ zeros 3 ++ leBytes 4 e.gen ++
    leBytes 4 e.payload.length ++ leBytes 4 (crc32 e.payload) ++ zeros 4 ++ e.payload
  pad64 (b ++ hmac384 key b)

/-- The bytes that an entry takes. -/
def calSize (e : CalEntry) : Nat := (32 + e.payload.length + 48 + 63) / 64 * 64

/-! ## EVID superblocks (R348) -/

/-- The first codeword of an EVID superblock. -/
def sbHeader (b : EvSb) : List Byte :=
  let h := leBytes 4 0x4256455A ++ leBytes 8 b.seq ++ leBytes 4 b.bootSeq ++ leBytes 8 b.stamp ++ leBytes 4 b.eraseCnt
  fit 4096 (h ++ leBytes 4 (crc32 h))

end Sys2Proof.Machine
end

