-- ==== Sys2Proof/Machine/Load.lean ====
section
/-! DEFINITION. What the commands that load settings share: register images, calibration entries, and the R140 gate of
the view registers. -/

namespace Sys2Proof.Machine

/-- The table windows of W0 begin at 600000h (R10). -/
def isTable (a : Nat) : Bool := decide (0x600000 ≤ a)

/-- A write of one W0 word: the writable bits of a register take the value, its W1C bits are cleared where the value holds
1, and its interrupt source is evaluated again; or four bytes of a table. DESIGN CHOICE (log 99): a W1S command bit (COMMIT, OPEN,
CLOSE, GO, SWAP ...) acts through its own command and is stored only where its register's text has it read back; elsewhere it
reads 0 after it is written, as R8 does not say. -/
def putWord (a v : Nat) (s : State) : State :=
  if isTable a then tblPuts s a (leBytes 4 v)
  else match findRow a with
    | none => s
    | some r =>
      let m := r.rw.lor r.rwl
      let w := ((rdn s a).lor m) - m + v.land m
      let c := v.land r.w1c
      irqAt a (wrn s a (w.lor c - c))

/-- Write the words of a list, each pair a W0 address and a value. -/
def putWords (l : List (Nat × Nat)) (s : State) : State := forEach l (fun p t => putWord p.1 p.2 t) s

/-- The words of an image that starts at W0 address `a`. -/
def imageWords (a : Nat) (l : List Byte) : List (Nat × Nat) :=
  (List.range (l.length / 4)).map (fun i => (a + 4 * i, u32At l (4 * i)))

/-- The bytes of a list of words, each an address and a value (log 21). -/
def pairBytes (l : List (Nat × Nat)) : List Byte := l.flatMap (fun p => leBytes 4 p.1 ++ leBytes 4 p.2)

/-- The words that a calibration payload spells (log 21). -/
def calPairs (e : CalEntry) : List (Nat × Nat) := pairsOf e.payload.length e.payload

/-- The store runs, so the entries of the medium can be read and written (R333, R353). -/
def evRunning (s : State) : Bool := fget s fEV_STAT_STATE == 2

/-- Insert a calibration entry in ascending TYPE order. -/
def calInsert (e : CalEntry) (l : List CalEntry) : List CalEntry :=
  match l with
  | [] => [e]
  | x :: t => if e.type < x.type then e :: x :: t else x :: calInsert e t

/-- The entry in use of its key. -/
def calIsUsed (s : State) (e : CalEntry) : Bool := calInUse s e.type e.head e.phase == some e

/-- CAL_COMPACTION (R341). -/
def calCompact (s : State) : State :=
  if !evRunning s then s
  else { s with ev := { s.ev with cal := (s.ev.cal.filter (calIsUsed s)).foldl (fun l e => calInsert e l) [] } }

/-- The CAL partition holds one more entry of `n` bytes. -/
def calFits (s : State) (n : Nat) : Bool :=
  match partRoom s.ev.hdr 3 with
  | some room => decide ((s.ev.cal.map calSize).sum + n ≤ room)
  | none => true

/-- Append a calibration entry with the next generation (R340), after a compaction where the partition is full (R341). -/
def calStore (type head phase : Nat) (payload : List Byte) (s : State) : State :=
  let g := s.ev.calGen + 1
  let e : CalEntry := ⟨type, 0x0100, head, phase, g, payload, true⟩
  let s1 := if calFits s (calSize e) then s else calCompact s
  emit { s1 with ev := { s1.ev with calGen := g, cal := s1.ev.cal ++ [e] } } (.nand 3 g (calBytes (keyBytes s) e))

/-- A new generation of the configuration store, in turn into the copies that `bad` does not name (R335, R336, R351). -/
def confStore (bad : Nat) (s : State) : State :=
  let g := (s.ev.confCopies.map (·.gen)).foldl max 0 + 1
  let n := (s.ev.confCopies.map (·.content)).foldl max 0 + 1
  let new := s.ev.confCopies.zipIdx.map (fun x => if bit bad x.2 then x.1 else ⟨g, true, n⟩)
  let s1 := forEach ((List.range 3).filter (fun i => !bit bad i)) (fun i t =>
    emit t (.nand 2 i (confCopyBytes (keyBytes s) i g (confBody s)))) s
  logWrite { s1 with ev := { s1.ev with confCopies := new } } 5 (leBytes 4 g)

/-- A rounding that the spec leaves open: one of the two integers next to `num / den`, chosen by a free value (log 22). -/
def roundOpen (num : Int) (den : Nat) (s : State) : Int :=
  let q := num / (den : Int)
  if num % (den : Int) = 0 then q else q + (freeVal s % 2 : Nat)

/-- The integer square root, by bits. -/
def isqrtBits (k n acc : Nat) : Nat :=
  match k with
  | 0 => acc
  | j + 1 => isqrtBits j n (if (acc + 2 ^ j) * (acc + 2 ^ j) ≤ n then acc + 2 ^ j else acc)

/-- The integer square root of a number below 2^128. -/
def isqrt (n : Nat) : Nat := isqrtBits 64 n 0

/-- A square root of `num / den` in integers; one that is not exact is one of its two neighbours (log 22). -/
def rootOpen (num den : Nat) (s : State) : Nat :=
  let r := isqrt (num / den)
  if r * r * den = num then r else r + freeVal s % 2

/-! ## The gate of the view registers (R140) -/

/-- Port `p`'s enabled ranges leave a gap or overlap within 0 to WIDTH - 1 (R126). -/
def rangesBad (s : State) (p : Nat) : Bool :=
  fbit s fPP_CTL_EN (p * 0x10000) && (List.range (portWidth s p)).any (fun x =>
    ((List.range 4).filter (fun r =>
      let o := p * 0x20 + r * 8
      fbit s fVW_PMAP_EN o && fget s fVW_PMAP_HOME o != 3 && decide (fget s fVW_PMAP_X0 o ≤ x) &&
        decide (x ≤ fget s fVW_PMAP_X1_X1 o))).length != 1)

/-- The group of a view register, model or delay table. -/
def vwGroup (a : Nat) : Option Nat :=
  if 0xE0100 ≤ a ∧ a < 0xE0200 then some ((a - 0xE0100) / 0x20)
  else if 0xE0200 ≤ a ∧ a < 0xE0300 then some ((a - 0xE0200) / 0x20)
  else if 0xE1000 ≤ a ∧ a < 0xE2000 then some ((a - 0xE1000) / 0x200)
  else if 0xE00000 ≤ a ∧ a < 0xE08000 then some ((a - 0xE00000) / 0x1000)
  else none

/-- A write to this address is discarded under R140; DEADLINE always acts, and GRP_CTL is gated by field. -/
def vwLocked (s : State) (a : Nat) : Bool :=
  if 0xE0400 ≤ a ∧ a < 0xE0600 then fbit s fPP_CTL_EN ((a - 0xE0400) / 0x20 * 0x10000)
  else match vwGroup a with
    | none => false
    | some g => fbit s fVW_GRP_CTL_EN (g * 0x20) && !(decide (a < 0xE0200) && (a % 0x20 == 8 || a % 0x20 == 0))

/-- A write of one word of the view block under R140. While a group is enabled only DEFAULT of its GRP_CTL can
change; EN is the command GROUP_DISABLE's to clear. -/
def vwPut (a v : Nat) (s : State) : State :=
  if vwLocked s a then evt s fVW_EVT_CFG_WR
  else match vwGroup a with
    | some g =>
      if a < 0xE0200 ∧ a % 0x20 = 0 ∧ fbit s fVW_GRP_CTL_EN (g * 0x20) then
        let w := rdn s a
        let s1 := fset s fVW_GRP_CTL_DEFAULT (bits v 30 30) (g * 0x20)
        if setBits v 30 30 (bits w 30 30) % 2 ^ 24 ≠ w % 2 ^ 24 then evt s1 fVW_EVT_CFG_WR else s1
      else putWord a v s
    | none => putWord a v s

end Sys2Proof.Machine
end

