-- ==== Sys2Proof/Machine/Abut.lean ====
section
/-! DEFINITION. The Abutment (chapter 17): arbitration, outbound beats and their errors, locked sequences, inbound windows and
delayed reads, side-band lines, and its commands. -/

namespace Sys2Proof.Machine

/-! ## Log and status -/

/-- Distance of region `r`'s registers, and of window `w`'s. -/
def abo (r : Nat) : Nat := r * 0x20

/-- Change the Abutment's state and keep AB_STAT at it. -/
def updAb (f : AbSt → AbSt) (s : State) : State :=
  let a := f s.ab
  let own := match a.bus with | .ext m => 2 + m % 2 | _ => 0
  let use := a.dr.zipIdx.foldl (fun m x => if x.1.isSome then m + 2 ^ x.2 else m) 0
  let s1 := fset { s with ab := a } fAB_STAT_OWNER own
  fset (fset s1 fAB_STAT_DR use) fAB_STAT_PWB (min 64 a.posted.length)

/-- Response codes of R320. -/
abbrev lbTERR : Nat := 1
abbrev lbNORESP : Nat := 2
abbrev lbNOMAP : Nat := 3
abbrev lbHOST_ERR : Nat := 4
abbrev lbHOST_OFF : Nat := 5

/-- A failure (R319, R320): counted, into the lowest free slot of the log, AB_EVT, and producer AB_ERR. -/
def abFail (addr : Nat) (write : Bool) (master region code : Nat) (s : State) : State :=
  let s1 := cnt s AB_CNT_ERR
  let s2 := match (List.range 8).find? (fun i => !fbit s fAB_LOG_INFO_VALID (i * 0x10)) with
    | none => evt (cnt s1 AB_LOG_OVF) fAB_EVT_LOG_FULL
    | some i =>
      let o := i * 0x10
      let t := wrn (wrn s1 (AB_LOG_ADDR + o) addr) (AB_LOG_STAMP + o) (now s)
      evt (wrn t (AB_LOG_INFO + o)
        (2 ^ 31 + (if write then 2 ^ 30 else 0) + master * 2 ^ 28 + region * 2 ^ 24 + code)) fAB_EVT_ERR
  emFire 0x39 s2

/-! ## Outbound (R314 to R319) -/

/-- The enabled region that maps a W2 offset; none while the bridge is disabled. -/
def abRegion (s : State) (off : Nat) : Option Nat :=
  if !fbit s fAB_CTL_EN then none
  else (List.range 8).find? (fun r =>
    let b := rdn s (AB_REG_BASE + abo r)
    fbit s fAB_REG_CTL_EN (abo r) && decide (b ≤ off ∧ off < b + rdn s (AB_REG_SIZE + abo r)))

/-- The local address of a W2 offset in region `r`. -/
def abLocal (s : State) (r off : Nat) : Nat :=
  add32 (rdn s (AB_REG_LB + abo r)) (off - rdn s (AB_REG_BASE + abo r))

/-- Byte enables of dword `d` for an access of `len` bytes at `off`. -/
def dwordBe (off len d : Nat) : Nat :=
  (List.range 4).foldl (fun m i => if off ≤ 4 * d + i ∧ 4 * d + i < off + len then m + 2 ^ i else m) 0

/-- The aligned beats of an access (R315). -/
def beatsOf (off len : Nat) (data : List Byte) : List AbBeat :=
  (List.range ((off + len + 3) / 4 - off / 4)).map (fun i =>
    let d := off / 4 + i
    let at_ := fun (k : Nat) => if off ≤ 4 * d + k then byteAt data (4 * d + k - off) else 0
    ⟨4 * d, dwordBe off len d, at_ 0 + 256 * at_ 1 + 65536 * at_ 2 + 16777216 * at_ 3⟩)

/-- The master number of an agent in the log (R320). -/
def abMaster (ag : Agent) : Nat := match ag with | .host => 0 | .dennil => 1

/-- A posted beat has completed: what waited for it waits for one less. -/
def postedDone (s : State) : State :=
  updAb (fun a => { a with
    posted := a.posted.drop 1, reqs := a.reqs.map (fun r => { r with after := r.after - 1 }),
    dr := a.dr.map (fun o => o.map (fun d => { d with after := d.after - 1 })) }) s

/-- The bytes that a read returns: failed dwords, and those after the failed beat, read FFFFFFFFh. -/
def abBytes (r : AbReq) : List Byte :=
  let dw := (List.range ((r.off + r.len + 3) / 4 - r.off / 4)).flatMap (fun i =>
    leBytes 4 (match r.got.getD i none with | some v => v | none => 0xFFFFFFFF))
  (dw.drop (r.off % 4)).take r.len

/-- How an access that failed with `code` completes (R318). -/
def abStatus (s : State) (r : AbReq) (code : Nat) : Nat :=
  let at_ := r.off / 4 * 4 + 4 * (r.got.length - 1)
  if code = lbNOMAP then 1
  else if r.ag = .dennil then 4
  else match abRegion s at_ with
    | some k => if fbit s fAB_REG_CTL_RESPOND (abo k) then 4 else 0
    | none => 4

/-- The first waiting access completes and leaves. -/
def abComplete (r : AbReq) (s : State) : State :=
  let s1 := updAb (fun a => { a with reqs := a.reqs.drop 1 }) s
  if r.void then s1
  else match r.fail with
    | none => emit s1 (.completion r.ag r.tag 0 (if r.write then [] else abBytes r) false)
    | some code =>
      let st := abStatus s r code
      if r.ag = .host ∧ st = 1 then sendUr r.tag s1
      else if r.ag = .host ∧ st = 4 then sendCa r.tag s1
      else emit s1 (.completion r.ag r.tag st (if st = 0 ∧ ¬ r.write then abBytes r else []) false)

/-- A beat of the first waiting access has ended with data or a failure; a read ends at its first failed beat (R315). -/
def reqBeatDone (res : Option Nat) (code : Nat) (s : State) : State :=
  match s.ab.reqs with
  | [] => s
  | r :: rest =>
    let fail := if res.isNone ∧ r.fail.isNone then some code else r.fail
    let r1 := { r with beats := r.beats.drop 1, got := r.got ++ [res], fail := fail }
    let s1 := updAb (fun a => { a with reqs := r1 :: rest }) s
    if r1.beats = [] ∨ (res.isNone ∧ ¬ r1.write) then abComplete r1 s1 else s1

/-- The beat that the device would run next: of the first waiting access once the posted beats before it have completed, else
the oldest posted one. -/
def abNext (s : State) : Option (Bool × AbBeat) :=
  match s.ab.reqs with
  | r :: _ =>
    if r.after = 0 ∧ r.atomic.isNone then r.beats.head?.map (fun b => (false, b))
    else if r.after = 0 then none
    else s.ab.posted.head?.map (fun b => (true, b))
  | [] => s.ab.posted.head?.map (fun b => (true, b))

/-- The next beat fails without a bus cycle (R314). -/
def abNoMap (x : Bool × AbBeat) (s : State) : State :=
  if x.1 then postedDone (abFail x.2.off true 0 0 lbNOMAP s)
  else match s.ab.reqs with
    | r :: _ => reqBeatDone none lbNOMAP (abFail x.2.off r.write (abMaster r.ag) 0 lbNOMAP s)
    | [] => s

/-- Beats that lie in no region fail as soon as they are next. -/
def abSettle (fuel : Nat) (s : State) : State :=
  match fuel with
  | 0 => s
  | k + 1 =>
    match abNext s with
    | none => s
    | some x => if (abRegion s x.2.off).isNone then abSettle k (abNoMap x s) else s

/-- Settle as many beats as can be waiting. -/
def abRun (s : State) : State :=
  abSettle (s.ab.posted.length + (s.ab.reqs.map (fun r => r.beats.length)).sum + 1) s

/-- The device has a transaction waiting. -/
def abWaiting (s : State) : Bool := s.ab.posted != [] || s.ab.reqs != []

/-- A posted write of the host enters the buffer (R316). -/
def abPost (off : Nat) (data : List Byte) (s : State) : State :=
  abRun (updAb (fun a => { a with posted := a.posted ++ beatsOf off data.length data }) s)

/-- A read, an AtomicOp, or a write of Dennil waits for its turn. -/
def abAccess (ag : Agent) (tag off len : Nat) (data : List Byte) (write : Bool) (atomic : Option (Nat × List Nat))
    (s : State) : State :=
  let r : AbReq := ⟨ag, tag, off, len, beatsOf off len data, [], none, s.ab.posted.length, write, atomic, false⟩
  abRun (updAb (fun a => { a with reqs := a.reqs ++ [r] }) s)

/-- The device starts its next beat (R312). -/
def beatStart (s : State) : State :=
  if s.ab.bus ≠ .idle then s
  else match abNext s with
    | none => s
    | some (posted, b) => match abRegion s b.off with
      | none => s
      | some r =>
        let write := posted || (match s.ab.reqs with | q :: _ => q.write | [] => false)
        let s1 := cnt s (if write then AB_CNT_OUT_WR else AB_CNT_OUT_RD)
        let s2 := updAb (fun a => { a with bus := if posted then .posted else .req, extRun := 0 }) s1
        emit s2 (.localBus write (abLocal s r b.off) b.be b.data)

/-- The data phase of the device's beat ends: with data, or with a failure code. -/
def beatEnd (res : Option Nat) (code : Nat) (s : State) : State :=
  let s0 := updAb (fun a => { a with bus := .idle }) s
  match s.ab.bus, abNext s with
  | .posted, _ =>
    match s.ab.posted with
    | [] => s0
    | b :: _ =>
      let r := (abRegion s b.off).getD 0
      abRun (postedDone (if res.isNone then abFail (abLocal s r b.off) true 0 r code s0 else s0))
  | .req, some (_, b) =>
    match s.ab.reqs with
    | [] => s0
    | q :: _ =>
      let r := (abRegion s b.off).getD 0
      abRun (reqBeatDone res code (if res.isNone then abFail (abLocal s r b.off) q.write (abMaster q.ag) r code s0 else s0))
  | _, _ => s0

/-! ## Locked sequences (R317) -/

/-- One beat of a locked sequence: counted, driven, and logged when it fails. -/
def lockBeat (write : Bool) (b : AbBeat) (code : Nat) (s : State) : State :=
  match abRegion s b.off with
  | none => abFail b.off write 0 0 lbNOMAP s
  | some r =>
    let s1 := emit (cnt s (if write then AB_CNT_OUT_WR else AB_CNT_OUT_RD)) (.localBus write (abLocal s r b.off) b.be b.data)
    if code = 0 then s1 else abFail (abLocal s r b.off) write 0 r code s1

/-- The value that an AtomicOp writes: 0 FetchAdd, 1 Swap, 2 CAS with its comparand first; none when it writes nothing. -/
def atomicNew (op : Nat) (args : List Nat) (old size : Nat) : Option Nat :=
  match op with
  | 0 => some ((old + nth args 0) % 2 ^ (8 * size))
  | 1 => some (nth args 0)
  | _ => if old = nth args 0 then some (nth args 1) else none

/-- The response code of beat `i`: 0 for RDY_N, else as sampled; a beat without one gets no response. -/
def respCode (resp : List (Nat × Nat)) (i : Nat) : Nat := (resp.getD i (lbNORESP, 0)).1

/-- Drive LOCK_N for the sequence of an access whose first beat of `s` has a bus cycle. -/
def lockPin (r : AbReq) (level : Bool) (s t : State) : State :=
  if (r.beats.head?.bind (fun b => abRegion s b.off)).isSome then emit t (.pin "LOCK_N" 0 level) else t

/-- Run the AtomicOp that is first; `resp` holds code and data of each beat's response. -/
def lockedRun (resp : List (Nat × Nat)) (s : State) : State :=
  match s.ab.bus, s.ab.reqs with
  | .idle, r :: rest =>
    match r.atomic with
    | none => s
    | some (op, args) =>
      if r.after ≠ 0 then s
      else
        let n := r.beats.length
        let s1 := lockPin r false s (cnt s AB_CNT_ATOMIC)
        let codeOf := fun (b : AbBeat) (i : Nat) => if (abRegion s b.off).isNone then lbNOMAP else respCode resp i
        let codes := r.beats.mapIdx (fun i b => codeOf b i)
        let good := (codes.takeWhile (fun c => c == 0)).length
        let s2 := forEach (r.beats.zipIdx.take (good + 1)) (fun x t => lockBeat false x.1 (nth codes x.2) t) s1
        let got := (List.range n).map (fun i => if i < good then some (resp.getD i (0, 0)).2 else none)
        let old := (List.range n).foldl (fun v i => v + (resp.getD i (0, 0)).2 % 2 ^ 32 * 2 ^ (32 * i)) 0
        let new := if good < n then none else atomicNew op args old r.len
        let wcodes := match new with | none => [] | some _ => (List.range n).map (fun i => respCode resp (n + i))
        let s3 := match new with
          | none => s2
          | some v => forEach r.beats.zipIdx (fun x t =>
              lockBeat true { x.1 with data := v / 2 ^ (32 * x.2) % 2 ^ 32 } (nth wcodes x.2) t) s2
        let fail := if good < n then some (nth codes good) else wcodes.find? (fun c => c != 0)
        let r1 := { r with beats := [], got := if good < n then got.take (good + 1) else got, fail := fail }
        abRun (abComplete r1 (updAb (fun a => { a with reqs := r1 :: rest, extRun := 0 }) (lockPin r true s s3)))
  | _, _ => s

/-! ## The arbiter (R313) -/

/-- Grant the bus: `req` are the external masters that request. -/
def abGrant (req : List Nat) (s : State) : State :=
  let elig := req.filter (fun m => bit (fget s fAB_CTL_M_EN) m)
  let fair := fget s fAB_CTL_FAIR
  if !fbit s fAB_CTL_EN || s.ab.bus ≠ .idle || elig.isEmpty then s
  else if fair ≠ 0 ∧ fair ≤ s.ab.extRun ∧ abWaiting s then s
  else
    let m := match elig.find? (fun x => x != s.ab.lastExt) with | some x => x | none => elig.headD 0
    emit (updAb (fun a => { a with bus := .ext m, lastExt := m, extRun := if abWaiting s then a.extRun + 1 else 0 }) s)
      (.pin "LB_GNT_N" m false)

/-- The data phase of an external transaction has ended and its grant is withdrawn. -/
def extEnd (m : Nat) (s : State) : State :=
  emit (updAb (fun a => { a with bus := .idle }) s) (.pin "LB_GNT_N" m true)

/-! ## Inbound (R321, R322, R324) -/

/-- The inbound window of a local address. -/
def abWindow (s : State) (addr : Nat) : Option Nat :=
  (List.range 4).find? (fun w =>
    let b := rdn s (AB_IN_LB + abo w)
    fbit s fAB_IN_CTL_EN (abo w) && decide (b ≤ addr ∧ addr < b + rdn s (AB_IN_SIZE + abo w)))

/-- The host address of a local address in window `w`. -/
def abHost (s : State) (w addr : Nat) : Nat :=
  (addr64 s (AB_IN_HOST_LO + abo w) (AB_IN_HOST_HI + abo w) + (addr - rdn s (AB_IN_LB + abo w))) % 2 ^ 64

/-- What the device drives to end a data phase as target. -/
def lbAnswer (line : String) (s : State) : State := emit s (.pin line 0 false)

/-- A buffered beat goes to the host: a full dword at once, else byte by byte. -/
def inPost (b : AbBeat) (s : State) : State :=
  if b.be = 15 then dmaWrite s b.off (leBytes 4 b.data)
  else forEach ((List.range 4).filter (fun i => bit b.be i)) (fun i t =>
    dmaWrite t (b.off + i) [BitVec.ofNat 8 (b.data / 2 ^ (8 * i))]) s

/-- What a request of client 44 costs. -/
def inCost : List (Nat × Nat) := [(1, 1), (2, 1)]

/-- The inbound write buffer drains to the host link as far as requests may leave and client 44 covers them (R321, R367). -/
def inDrain (l : List AbBeat) (s : State) : State :=
  let rest := updAb (fun a => { a with inbuf := l }) s
  match l with
  | [] => rest
  | b :: t =>
    if !canDma s then rest
    else if !tollCan s 44 inCost then tollShort rest 44 false
    else inDrain t (inPost b (tollSpend s 44 inCost))

/-- An external master's write to an inbound window: accepted into the inbound write buffer of 32 beats; while that is full the
device inserts wait states (R321). -/
def inWrite (m addr be data : Nat) (s : State) : State :=
  match abWindow s addr with
  | none => s
  | some w =>
    if s.ab.bus ≠ .ext m then s
    else if !canDma s then
      lbAnswer "LB_RDY_N" (evt (abFail addr true (2 + m) w lbHOST_OFF (cnt s AB_CNT_IN_DROP)) fAB_EVT_IN_DROP)
    else if 32 ≤ s.ab.inbuf.length then s
    else lbAnswer "LB_RDY_N" (inDrain (s.ab.inbuf ++ [⟨abHost s w (addr / 4 * 4), be, data⟩]) s)

/-- RETRY_N, counted. -/
def lbRetry (s : State) : State := lbAnswer "RETRY_N" (cnt s AB_CNT_RETRY)

/-- Issue the host read of entry `i` once a tag is free and client 44 covers it (R254, R365). -/
def drIssue (i : Nat) (s : State) : State :=
  match s.ab.dr.getD i none with
  | none => s
  | some d => match freeTag s with
    | none => s
    | some t =>
      if d.tag.isSome ∨ d.result.isSome ∨ ¬ canDma s then s
      else if !tollCan s 44 inCost then tollShort s 44 false
      else npIssue (.delayed i) t (abHost s d.window (d.addr / 4 * 4)) 4
        (updAb (fun a => { a with dr := upd a.dr i (fun o => o.map (fun x => { x with tag := some t })) }) (tollSpend s 44 inCost))

/-- What client 44 still has to send goes out: buffered writes, then reads of delayed-read entries. -/
def inRetry (s : State) : State := forEach (List.range 8) drIssue (inDrain s.ab.inbuf s)

/-- Free a delayed-read entry. -/
def drFree (i : Nat) (s : State) : State := updAb (fun a => { a with dr := upd a.dr i (fun _ => none) }) s

/-- The entry that a read matches. -/
def drMatch (s : State) (m addr be : Nat) : Option Nat :=
  (List.range 8).find? (fun i => match s.ab.dr.getD i none with
    | some d => d.addr == addr && d.be == be && d.master == m
    | none => false)

/-- An external master's read of an inbound window (R322). -/
def inRead (m addr be : Nat) (s : State) : State :=
  match abWindow s addr with
  | none => s
  | some w =>
    if s.ab.bus ≠ .ext m then s
    else match drMatch s m addr be with
      | some i => match s.ab.dr.getD i none with
        | none => s
        | some d => match d.result with
          | none => lbRetry (drIssue i s)
          | some none => lbAnswer "LB_ERR_N" (abFail addr false (2 + m) d.window lbHOST_ERR (drFree i s))
          | some (some v) =>
            if d.after ≠ 0 then lbRetry s
            else lbAnswer "LB_RDY_N" (emit (drFree i s) (.localBus false addr be v))
      | none =>
        if !canDma s then
          lbAnswer "LB_ERR_N" (evt (abFail addr false (2 + m) w lbHOST_OFF s) fAB_EVT_IN_DROP)
        else match (List.range 8).find? (fun i => (s.ab.dr.getD i none).isNone) with
          | none => lbRetry (cnt s AB_CNT_DR_FULL)
          | some i =>
            let d : AbRead := ⟨addr, be, m, w, s.ab.posted.length, none, none⟩
            lbRetry (drIssue i (updAb (fun a => { a with dr := upd a.dr i (fun _ => some d) }) s))

/-- The host read of entry `i` has ended: with data, or with an error. -/
def drFill (i : Nat) (res : Option Nat) (s : State) : State :=
  updAb (fun a => { a with dr := upd a.dr i (fun o => o.map (fun d => { d with tag := none, result := some res })) }) s

/-- A completed entry that no repeat collects (R322). -/
def drDiscard (i : Nat) (s : State) : State :=
  match s.ab.dr.getD i none with
  | some d => if d.result.isSome then evt (cnt (drFree i s) AB_CNT_DR_DISCARD) fAB_EVT_DR_DISCARD else s
  | none => s

/-! ## Side-band lines (R325) -/

/-- The level of a line changed: a selected change sets its bit and fires its producer. -/
def sbChange (k : Nat) (lvl : Bool) (s : State) : State :=
  let s1 := regBit s AB_SB_LEVEL k lvl
  if bit (rdn s AB_SB_EDGE) (2 * k + if lvl then 0 else 1) then
    let s2 := regBit s1 AB_SB_EVT k true
    let s3 := if bit (rdn s AB_SB_EVT_EN) k then evt s2 fAB_EVT_SB else s2
    emFire (0x3A + k) s3
  else s1

/-- A sample of the side-band lines. -/
def sbSample (lines : Nat) (s : State) : State :=
  if !fbit s fAB_SB_CTL_EN then s
  else
    let last := s.ab.sbLast
    let s1 := updAb (fun a => { a with sbLast := lines }) s
    forEach (List.range 16) (fun k t =>
      let v := bit lines k
      if v = bit (rdn s AB_SB_LEVEL) k ∨ (fbit s fAB_SB_CTL_FILT ∧ bit last k ≠ v) then t else sbChange k v t) s1

/-! ## Registers and commands (R326) -/

/-- A write of an AB register: regions, windows, DIV and M_EN stay while the bridge is enabled. -/
def abPut (a v : Nat) (s : State) : State :=
  let o := a - 0x80000
  if !fbit s fAB_CTL_EN then putWord a v s
  else if o = 0 then
    let s1 := fset s fAB_CTL_FAIR (bits v 15 8)
    abRun (fbset s1 fAB_CTL_EN (bit v 31))
  else if 0x100 ≤ o ∧ o < 0x280 then s
  else putWord a v s

/-- Two ranges given by base and size overlap. -/
def overlap (x y : Nat × Nat) : Bool :=
  decide (0 < x.2) && decide (0 < y.2) && decide (x.1 < y.1 + y.2) && decide (y.1 < x.1 + x.2)

/-- No two ranges of a list overlap. -/
def disjoint : List (Nat × Nat) → Bool
  | [] => true
  | x :: t => t.all (fun y => !overlap x y) && disjoint t

/-- The configuration that stands in the registers is allowed: enabled regions and windows apart, regions inside W2, DIV 4 to
16. -/
def abValid (s : State) : Bool :=
  let regs := (List.range 8).filterMap (fun r =>
    if fbit s fAB_REG_CTL_EN (abo r) then some (rdn s (AB_REG_BASE + abo r), rdn s (AB_REG_SIZE + abo r)) else none)
  let wins := (List.range 4).filterMap (fun w =>
    if fbit s fAB_IN_CTL_EN (abo w) then some (rdn s (AB_IN_LB + abo w), rdn s (AB_IN_SIZE + abo w)) else none)
  let d := fget s fAB_CTL_DIV
  disjoint regs && disjoint wins && regs.all (fun r => decide (r.1 + r.2 ≤ 2 ^ 24)) && (d == 0 || decide (4 ≤ d))

/-- A delayed read is open, or a locked sequence waits. -/
def abOpen (s : State) : Bool := s.ab.dr.any (fun d => d.isSome) || s.ab.reqs.any (fun r => r.atomic.isSome)

/-- The writes of AB_PARAMS. -/
def abParamWrites (p : List Byte) : List (Nat × Nat) :=
  let w := fun (i : Nat) => u32At p (4 * i)
  [(AB_CTL, w 0), (AB_DR_TMO, w 1)] ++
    (List.range 8).flatMap (fun r => (List.range 4).map (fun k => (AB_REG_CTL + abo r + 4 * k, w (2 + 4 * r + k)))) ++
    (List.range 4).flatMap (fun x => (List.range 5).map (fun k => (AB_IN_CTL + abo x + 4 * k, w (34 + 5 * x + k))))

/-- Dennil writes a configuration, with the bridge disabled while it does. -/
def abConfigure (l : List (Nat × Nat)) (s : State) : State × CmdRes :=
  let s1 := putWords l s
  if abOpen s then (s, .refuse eSTATE 0)
  else if !abValid s1 then (s, .refuse eRANGE 0)
  else (abRun s1, .ok [])

/-- AB_PARAMS. -/
def abParams (c : CmdCall) (s : State) : State × CmdRes := abConfigure (abParamWrites c.payload) s

/-- A word of the AB block. -/
def inAb (w : Nat × Nat) : Bool := decide (0x80000 ≤ w.1 ∧ w.1 < 0x81000)

/-- AB_LOAD_PROFILE. -/
def abLoadProfile (_ : CmdCall) (s : State) : State × CmdRes :=
  match findProfile s 0x11 0 with
  | none => (s, .refuse eSTATE 0)
  | some p =>
    let r := abConfigure (p.writes.filter inAb) s
    match r.2 with
    | .ok res => (fbset r.1 fAB_CTL_EN true, .ok res)
    | e => (s, e)

/-! ## The rows -/

/-- LB_GRANT: which external masters assert their request. -/
def execLbGrant (req0 req1 : Bool) (s : State) : Host.Outcome State Fault Refusal :=
  .next (abGrant ((if req0 then [0] else []) ++ if req1 then [1] else []) s)

/-- LB_OUTBOUND_BEAT. -/
def execLbOutboundBeat (s : State) : Host.Outcome State Fault Refusal := .next (beatStart s)

/-- LB_TRANSACTION_END: RDY_N (0) with the data of a read, ERR_N (1), or RETRY_N (2), which only the device drives. -/
def execLbTransactionEnd (resp : Fin 3) (data : Word) (s : State) : Host.Outcome State Fault Refusal :=
  .next (match s.ab.bus with
    | .idle => s
    | .ext m => extEnd m s
    | _ => if resp.val = 2 then s else if resp.val = 1 then beatEnd none lbTERR s else beatEnd (some data.toNat) 0 s)

/-- LB_NORESP_TIMEOUT. -/
def execLbNorespTimeout (s : State) : Host.Outcome State Fault Refusal :=
  .next (match s.ab.bus with
    | .posted => beatEnd none lbNORESP s
    | .req => beatEnd none lbNORESP s
    | _ => s)

/-- LOCKED_SEQUENCE: the responses of its beats, code and data. -/
def execLockedSequence (resp : List (Nat × Nat)) (s : State) : Host.Outcome State Fault Refusal := .next (lockedRun resp s)

/-- LB_INBOUND_WRITE. -/
def execLbInboundWrite (master : Fin 2) (addr : Word) (be : BitVec 4) (data : Word) (s : State) :
    Host.Outcome State Fault Refusal :=
  .next (inWrite master.val addr.toNat be.toNat data.toNat s)

/-- LB_INBOUND_READ. -/
def execLbInboundRead (master : Fin 2) (addr : Word) (be : BitVec 4) (s : State) : Host.Outcome State Fault Refusal :=
  .next (inRead master.val addr.toNat be.toNat s)

/-- DELAYED_READ_DISCARD. -/
def execDelayedReadDiscard (entry : Fin 8) (s : State) : Host.Outcome State Fault Refusal := .next (drDiscard entry.val s)

/-- AB_LOG_INFO_READ: the read returns the slot and frees it. -/
def execAbLogInfoRead (ag : Agent) (slot : Fin 8) (s : State) : Host.Outcome State Fault Refusal :=
  let a := AB_LOG_INFO + slot.val * 0x10
  .next (fbset (emit s (.readData ag (rdn s a))) fAB_LOG_INFO_VALID false (slot.val * 0x10))

/-- SIDEBAND_SAMPLE. -/
def execSidebandSample (lines : BitVec 16) (s : State) : Host.Outcome State Fault Refusal := .next (sbSample lines.toNat s)

/-- AB_LOAD_PROFILE. -/
def execAbLoadProfile (c : CmdCall) (s : State) : Host.Outcome State Fault Refusal :=
  .next (mbRun ⟨0x1110, 0x10, false, 8, 8, false, true⟩ abLoadProfile c s)

/-- AB_PARAMS. -/
def execAbParams (c : CmdCall) (s : State) : Host.Outcome State Fault Refusal :=
  .next (mbRun ⟨0x1190, 0x10, true, 216, 216, false, true⟩ abParams c s)

end Sys2Proof.Machine
end

