-- ==== Sys2Proof/Machine/Toll.lean ====
section
/-! DEFINITION. Toll and the shared memory (chapter 19): periods, budget sets, capacity changes, lost LP5X channels,
scrubbing, pools, and the commands. -/

namespace Sys2Proof.Machine

/-- The clients of R365. -/
abbrev tollClients : Nat := 45

/-- Budget of client `c` for resource `r` in force. -/
def budget (s : State) (c r : Nat) : Nat := smGet s.toll.budget (4 * c + r) 0

/-- TO_CAP[r]. -/
def tollCap (s : State) (r : Nat) : Nat := rdn s (TO_CAP0 + 4 * r)

/-- The sum of the budgets in force for a resource. -/
def budgetSum (s : State) (r : Nat) : Nat := ((List.range tollClients).map (fun c => budget s c r)).sum

/-- Keep TO_STAT.OVER of resource `r`; a set that newly breaks R368 sets TO_EVT.OVER (R370). -/
def overUpdate (r : Nat) (s : State) : State :=
  let o := decide (9 * tollCap s r < 10 * budgetSum s r)
  let was := bit (fget s fTO_STAT_OVER) r
  let s1 := regBit s TO_STAT r o
  if o && !was then evt s1 fTO_EVT_OVER else s1

/-- A change of TO_CAP[r]. -/
def setCap (r v : Nat) (s : State) : State :=
  let old := tollCap s r
  let s1 := wrn s (TO_CAP0 + 4 * r) v
  overUpdate r { s1 with toll := { s1.toll with prevCap := upd s1.toll.prevCap r (fun _ => old) } }

/-! ## Periods (R366) -/

/-- The new A of one client and resource, and the sums granted and forfeited. -/
def grantOne (k : Nat) (s : State) : State :=
  let b := smGet s.toll.budget k 0
  let left := rdn s (TO_AVAIL + 4 * k)
  let keep := min left b
  let s1 := wrn s (TO_AVAIL + 4 * k) (b + keep)
  { s1 with toll := { s1.toll with
    forfeit := smAdd s1.toll.forfeit k (left - keep),
    granted := smAdd s1.toll.granted k b } }

/-- The budgets that the shadow registers hold. -/
def shadowBudgets (s : State) : Sparse Nat :=
  (List.range (4 * tollClients)).filterMap (fun k =>
    let v := rdn s (TO_BUD + 4 * k)
    if v = 0 then none else some (k, v))

/-- A pending commit takes effect (R370). -/
def applyBudgets (s : State) : State :=
  if !fbit s fTO_CTL_PEND then s
  else
    let s1 := fbset { s with toll := { s.toll with budget := shadowBudgets s } } fTO_CTL_PEND false
    evt (forEach (List.range 4) overUpdate s1) fTO_EVT_COMMITTED

/-- A Toll period starts. -/
def tollPeriod (s : State) : State :=
  let s1 := applyBudgets (cntWrap s TO_PERIOD)
  let s2 := { s1 with toll := { s1.toll with short := [] } }
  w1Drain (if fbit s2 fTO_CTL_EN then
      forEach (List.range (4 * tollClients)) (fun k t => tollSettle k (grantOne k t)) s2
    else s2)

/-! ## Admission (R368) -/

/-- The largest single cost of a client (R368): reads of host memory are made by clients 36, 43 and 44, and blocks are
erased by 34 and 39. -/
def maxCost (s : State) (c r : Nat) : Nat :=
  let dc := cfgRd s 0x58
  match r with
  | 0 => 4
  | 1 => if c = 36 ∨ c = 43 ∨ c = 44 then 2 ^ bits dc 14 12 * 2 else 2 ^ bits dc 7 5 * 2
  | 2 => 1
  | _ => if c = 34 ∨ c = 39 then 4 else 1

/-- The resources that R365 lists for a client. -/
def clientUses (c : Nat) : List Nat :=
  if c < 16 then [0, 2] else if c < 32 then [0, 1, 2]
  else match c with
    | 32 => [0, 2] | 33 => [0, 1, 2] | 34 => [0, 2, 3] | 35 => [1, 2] | 36 => [1, 2] | 37 => [0, 2] | 38 => [0, 2]
    | 39 => [0, 2, 3] | 40 => [0, 2] | 41 => [0, 2] | 42 => [0] | 43 => [0, 1, 2] | _ => [1, 2]

/-- A client's function is enabled; what has no enable counts as enabled. -/
def clientOn (s : State) (c : Nat) : Bool :=
  if c < 16 then fbit s fPP_CTL_EN (c * 0x10000)
  else if c < 32 then fbit s fDM_TAP_CTL_EN ((c - 16) * 0x10000) || fbit s fDM_TAP_CTL_EN ((c - 16) * 0x10000 + 0x40)
  else match c with
    | 32 => fbit s fTL_CTL_EN
    | 33 => fbit s fTL_CTL_EN
    | 34 => fbit s fEV_CTL_EVID_EN
    | 35 => (List.range 16).any (fun n => fbit s fST_RING_CTL_EN (n * 0x10000))
    | 38 => (List.range 16).any (fun n => fbit s fSG_CTL_EN (n * 0x10000))
    | 39 => fbit s fEV_CTL_EN
    | 40 => fbit s fSL_CTL_EN
    | 41 => fbit s fSL_CTL_EN 0x1000
    | 42 => fbit s fMM_SCRUB_EN
    | 44 => fbit s fAB_CTL_EN
    | _ => true

/-- A budget set, as a function of 4c + r, breaks R368 on resource `r`. -/
def setBreaks (s : State) (b : Nat → Nat) (r : Nat) : Bool :=
  decide (9 * tollCap s r < 10 * ((List.range tollClients).map (fun c => b (4 * c + r))).sum) ||
    (List.range tollClients).any (fun c =>
      let v := b (4 * c + r)
      (v != 0 && decide (v < maxCost s c r)) || (v == 0 && clientOn s c && (clientUses c).contains r))

/-- Write a set to the shadow registers and commit it. -/
def admitSet (b : Nat → Nat) (s : State) : State :=
  fbset (forEach (List.range (4 * tollClients)) (fun k t => wrn t (TO_BUD + 4 * k) (b k % 2 ^ 24)) s) fTO_CTL_PEND true

/-- Dennil admits a set with the streaming budgets of a resource scaled by the ratio of its capacities (R370). -/
def tollRescale (r : Nat) (s : State) : State :=
  let old := nth s.toll.prevCap r
  if !bit (fget s fTO_STAT_OVER) r || old == 0 then s
  else admitSet (fun k =>
    let v := smGet s.toll.budget k 0
    if k % 4 = r ∧ k / 4 < 35 then v * tollCap s r / old else v) s

/-! ## Lost channels (R359) -/

/-- Pool `p` loses blocks on a channel: `free` of its free ones, `held` of its held ones. A staging ring's lost block is
replaced from the free list. -/
def poolLose (p free held : Nat) (s : State) : State :=
  let f := min free (rdn s (MM_POOL_FREE + p * 16))
  let h := min held (poolHeld s p)
  let back := if p = 0 then min h (rdn s (MM_POOL_FREE + p * 16) - f) else 0
  let s1 := poolFree p (rdn s (MM_POOL_FREE + p * 16) - f - back) s
  let s2 := wrn s1 (MM_POOL_TOTAL + p * 16) (rdn s1 (MM_POOL_TOTAL + p * 16) - f - h)
  let s3 := { s2 with mem := { s2.mem with held := upd s2.mem.held p (fun x => x - h + back) } }
  cntWrap s3 MM_CNT_LOST_BLK (f + h)

/-- An evidence copy loses `n` blocks and with them its contents. -/
def copyLose (id n : Nat) (s : State) : State :=
  match s.ev.copies.find? (fun c => c.id = id) with
  | none => s
  | some c =>
    let k := min n c.blocks
    poolLose 3 0 k { s with ev := { s.ev with copies := s.ev.copies.map (fun x =>
      if x.id = id then { x with blocks := c.blocks - k, data := none } else x) } }

/-- A tile being assembled loses `n` blocks; what it still writes to the host is poisoned and its descriptor completes as
usual (R357). -/
def tileLose (ring seq n : Nat) (s : State) : State :=
  match s.tiles.allocs.find? (fun a => a.ring = ring && a.seq = seq) with
  | none => s
  | some a =>
    let k := min n a.blocks
    poolLose 2 0 k { s with tiles := { s.tiles with allocs := s.tiles.allocs.map (fun x =>
      if x.ring = ring ∧ x.seq = seq then { x with blocks := a.blocks - k, poison := true } else x) } }

/-- What lies on a lost channel, which only its addresses tell: per pool the free blocks and the blocks held by other
holders, and the copies and tiles with their blocks. -/
structure ChannelLoss where
  free : List Nat
  other : List Nat
  copies : List (Nat × Nat)
  tiles : List (Nat × Nat × Nat)
  deriving DecidableEq, Repr

/-- A channel is lost. -/
def channelLost (ch : Nat) (l : ChannelLoss) (s : State) : State :=
  let use := fget s fMM_STAT_USE
  let n := ((List.range 8).filter (bit use)).length
  let s1 := regBit (regBit s MM_STAT (16 + ch) true) MM_STAT (24 + ch) false
  let s2 := forEach (List.range 5) (fun p t => poolLose p (nth l.free p) (nth l.other p) t) s1
  let s3 := forEach l.tiles (fun x t => tileLose x.1 x.2.1 x.2.2 t) (forEach l.copies (fun x t => copyLose x.1 x.2 t) s2)
  let s4 := setCap 0 (tollCap s3 0 * (n - 1) / max 1 n) s3
  replaceUpdate (paDetect (0x78 + ch) (evt s4 fMM_EVT_CH_LOST))

/-- Enough uncorrectable errors on a channel in the present second. -/
def ueReached (s : State) (ch : Nat) : Bool :=
  s.mem.ueSecond == s.tick / 500000000 && decide (max 1 (fget s fMM_UE_THR_V) ≤ nth s.mem.ueNow ch)

/-! ## Writes by Dennil -/

/-- A write of one word of the TO or MM block. -/
def toPut (a v : Nat) (s : State) : State :=
  if a = TO_CTL then
    let s1 := fbset (if bit v 31 then s else { s with toll := { s.toll with owed := [] } }) fTO_CTL_EN (bit v 31)
    if bit v 30 then fbset s1 fTO_CTL_PEND true else s1
  else if TO_CAP0 ≤ a ∧ a < TO_CAP0 + 16 then (if a = TO_CAP0 + 8 then s else setCap ((a - TO_CAP0) / 4) v s)
  else if a = MM_CTL then (if bit v 31 then fbset s fMM_CTL_COMMIT true else s)
  else if a = MM_RSV_BASE then (if fbit s fMM_CTL_COMMIT then s else fset s fMM_RSV_BASE_V v)
  else putWord a v s

/-- The per-lane units of a host-link speed code (R364). -/
def laneUnits (speed : Nat) : Nat := [0, 39, 78, 153, 307, 615].getD speed 0

/-- Dennil writes the capacity of a host link that is up (R364). -/
def linkCap (s : State) : State :=
  if fbit s fHE_STAT_LINK_UP then setCap 1 (fget s fHE_STAT_WIDTH * laneUnits (fget s fHE_STAT_SPEED)) s else s

/-- The pools take their sizes; every block that is not held is free. -/
def setPools (size : Nat → Nat) (s : State) : State :=
  forEach (List.range 5) (fun p t =>
    let f := size p - poolHeld t p
    wrn (wrn (wrn t (MM_POOL_TOTAL + p * 16) (size p)) (MM_POOL_FREE + p * 16) f) (MM_POOL_LOW + p * 16) f)
    { s with mem := { s.mem with lowClear := [] } }

/-! ## Commands (R372) -/

/-- Check a set and, when `apply`, admit it. -/
def trySet (apply : Bool) (b : Nat → Nat) (s : State) : State × CmdRes :=
  match (List.range 4).find? (setBreaks s b) with
  | some r => (s, .refuse eRANGE r)
  | none => (if apply then admitSet b s else s, .ok [])

/-- TOLL_LOAD_PROFILE. -/
def runTollProfile (c : CmdCall) (s : State) : State × CmdRes :=
  match findProfile s 0x13 (pb c 0) with
  | none => (s, .refuse eRANGE 0)
  | some p => trySet true (fun k => ((p.writes.find? (fun w => w.1 = TO_BUD + 4 * k)).map (·.2)).getD 0) s

/-- MEM_INFO; the five pairs fill RESULT beyond its 48 bytes, and what does not fit is cut. -/
def runMemInfo (_ : CmdCall) (s : State) : State × CmdRes :=
  (s, .ok (leBytes 2 (fget s fMM_CAP_C) ++ leBytes 2 (fget s fMM_CAP_USABLE) ++ leBytes 4 (rdn s MM_RSV_BASE) ++
    leBytes 1 (fget s fMM_STAT_USE) ++ zeros 3 ++ (List.range 5).flatMap (fun p =>
      leBytes 4 (rdn s (MM_POOL_FREE + p * 16)) ++ leBytes 4 (rdn s (MM_POOL_TOTAL + p * 16)))))

/-- TOLL_SET. -/
def runTollSet (c : CmdCall) (s : State) : State × CmdRes :=
  trySet (bit (pb c 0) 0) (fun k => pd c (4 + 4 * k)) s

/-- The users of the pools are all disabled. -/
def poolsQuiet (s : State) : Bool :=
  (List.range 16).all (fun n => !fbit s fPP_CTL_EN (n * 0x10000) && !fbit s fDM_TAP_CTL_EN (n * 0x10000) &&
    !fbit s fDM_TAP_CTL_EN (n * 0x10000 + 0x40)) && !fbit s fTL_CTL_EN && !fbit s fEV_CTL_EVID_EN

/-- POOL_SET: the pools lie beside 80 MiB of the reserved region (R356) and keep the blocks that are held. -/
def runPoolSet (c : CmdCall) (s : State) : State × CmdRes :=
  let size := fun p => pd c (4 * p)
  let sum := ((List.range 5).map size).sum
  if !poolsQuiet s then (s, .refuse eSTATE 0)
  else if lp5Usable s < rsvBase s + 80 * 1048576 + sum * 4096 then (s, .refuse eRANGE 0)
  else match (List.range 5).find? (fun p => decide (size p < poolHeld s p ∨ 2 ^ 23 ≤ size p)) with
    | some p => (s, .refuse eRANGE (4 * p))
    | none => (setPools size s, .ok [])

/-! ## The bring-up (R356, R426) -/

/-- The words of the memory profile, profile 0 of function 13h. -/
def memWords (s : State) : List (Nat × Nat) := ((findProfile s 0x13 0).map (·.writes)).getD []

/-- The value that the memory profile gives the register at `a`; 0 where it names none. -/
def memWord (s : State) (a : Nat) : Nat := (((memWords s).find? (fun w => w.1 = a)).map (·.2)).getD 0

/-- A word of the profile that step 2 writes as it stands: of TO and MM, but no budget and no pool size. -/
def memPlain (a : Nat) : Bool :=
  (a / 0x8000 == 0xC || a / 0x8000 == 0xD) && !(decide (TO_BUD ≤ a) && decide (a < TO_BUD + 16 * tollClients)) &&
    !(decide (MM_POOL_TOTAL ≤ a) && decide (a < MM_POOL_TOTAL + 80))

/-- Step 2 of R426: Dennil sets up the pools and MM_RSV_BASE, 16 MiB aligned below them, 80 MiB and their sizes, commits it, writes
the capacities, and admits the budget set that the memory profile holds; none when the sizes do not fit or the set is refused. -/
def memSetup (s : State) : Option State :=
  if fbit s fMM_CTL_COMMIT then some s
  else
    let size := fun p => memWord s (MM_POOL_TOTAL + 16 * p)
    let need := 80 * 1048576 + ((List.range 5).map size).sum * 4096
    if lp5Usable s < need then none
    else
      let s1 := fbset (fset (setPools size s) fMM_RSV_BASE_V ((lp5Usable s - need) / 16777216)) fMM_CTL_COMMIT true
      let s2 := linkCap (forEach ((memWords s).filter (fun w => memPlain w.1)) (fun w t => toPut w.1 w.2 t) s1)
      let budgets := fun k => memWord s (TO_BUD + 4 * k)
      if (List.range (4 * tollClients)).all (fun k => budgets k == 0) then some s2
      else if (List.range 4).any (setBreaks s2 budgets) then none
      else some (admitSet budgets s2)

/-! ## The rows -/

/-- TOLL_COMMIT. -/
def execTollCommit (ag : Agent) (s : State) : Host.Outcome State Fault Refusal :=
  .next (gated ag 0x13 none true (fun t => fbset t fTO_CTL_PEND true) s)

/-- TOLL_RESCALE. -/
def execTollRescale (resource : Fin 4) (s : State) : Host.Outcome State Fault Refusal :=
  .next (tollRescale resource.val s)

/-- LP5X_CHANNEL_LOST: enough errors within a second, or a failed retraining. -/
def execLp5xChannelLost (channel : Fin 8) (retrain : Bool) (free other : List Nat) (copies : List (Nat × Nat))
    (tiles : List (Nat × Nat × Nat)) (s : State) : Host.Outcome State Fault Refusal :=
  .next (if bit (fget s fMM_STAT_USE) channel.val && (retrain || ueReached s channel.val) then
      channelLost channel.val ⟨free, other, copies, tiles⟩ s
    else s)

/-- SCRUB_PASS: the addresses of the lines corrected and of the lines that cannot be. -/
def execScrubPass (ces ues : List Nat) (s : State) : Host.Outcome State Fault Refusal :=
  .next (if fbit s fMM_SCRUB_EN then
      let s1 := tollBegin s 42 [(0, lp5Usable s / 64 + ces.length)]
      evt (forEach ues (fun a t => lp5Ue t a) (forEach ces (fun a t => lp5Ce t a) s1)) fMM_EVT_SCRUB_DONE
    else s)

/-- TOLL_LOAD_PROFILE. -/
def execTollLoadProfile (c : CmdCall) (s : State) : Host.Outcome State Fault Refusal :=
  .next (mbRun ⟨0x1310, 0x10, false, 8, 8, false, true⟩ runTollProfile c s)

/-- MEM_INFO. -/
def execMemInfo (c : CmdCall) (s : State) : Host.Outcome State Fault Refusal :=
  .next (mbRun ⟨0x1311, 0x10, false, 0, 0, false, true⟩ runMemInfo c s)

/-- TOLL_SET. -/
def execTollSet (c : CmdCall) (s : State) : Host.Outcome State Fault Refusal :=
  .next (mbRun ⟨0x1390, 0x10, true, 724, 724, false, true⟩ runTollSet c s)

/-- POOL_SET. -/
def execPoolSet (c : CmdCall) (s : State) : Host.Outcome State Fault Refusal :=
  .next (mbRun ⟨0x1391, 0x10, true, 20, 20, false, true⟩ runPoolSet c s)

end Sys2Proof.Machine
end

