-- ==== Sys2Proof/Machine/Audit.lean ====
section
/-! DEFINITION. The auditor of the ledger identities (chapter 23): the terms of every instance, their copy into the LI
registers, and what an imbalance does. -/

namespace Sys2Proof.Machine

/-- One instance of an identity as latched (R415): the identity, the instance, the first term less the sum of the others,
in integers, and whether it is compared modulo 2^32 (R413). -/
structure Instance where
  ident : Nat
  inst : Nat
  diff : Int
  wraps : Bool
  deriving DecidableEq, Repr

/-- The instance balances. -/
def Instance.ok (i : Instance) : Bool := if i.wraps then i.diff % 2 ^ 32 == 0 else i.diff == 0

/-- DECISION.PENDING: sets of this owner pier in JUDGED or SCHEDULED (R412). -/
def decPending (s : State) : Nat :=
  (s.ledger.sets.filter (fun r => ownsSet s r && (setState s r == .judged || setState s r == .scheduled))).length

/-- PARTS.QUEUED of bus `b`; EJECT_TEST parts enter no term. -/
def partsQueued (s : State) (b : Nat) : Nat := ((busAt s b).queue.filter (fun p => p.src != .test)).length

/-- Entries of the verdict rings accepted and not taken: entries are taken as their data arrives. -/
def verdictsHeld (s : State) : Nat := s.acct.vrArrived - s.acct.vrTaken

/-- Tags that stay quarantined from an earlier pool (R254). -/
def oldQuar (s : State) : Nat := (s.he.quar.filter (fun q => q.old)).length

/-- TAGS.FREE: tags of the pool in force that are neither outstanding nor quarantined. -/
def tagsFree (s : State) : Nat :=
  ((poolTags (fget s fHE_TAG_STAT_POOL)).filter (fun t =>
    !(s.he.reqs.any (fun r => r.tag = t)) && !(s.he.quar.any (fun q => q.tag = t)))).length

/-- TAGS.POOL. -/
def tagsPool (s : State) : Nat := fget s fHE_TAG_STAT_POOL + oldQuar s

/-- The instances of a Toll client and resource (R366). -/
def tollInstance (s : State) (k : Nat) : Instance :=
  let g : Nat := smGet s.toll.granted k 0
  let o : Nat := smGet s.toll.spent k 0 + rdn s (TO_AVAIL + 4 * k) + smGet s.toll.forfeit k 0
  ⟨8, k, (g : Int) - o, false⟩

/-- The instance of a queue (R391). -/
def queueInstance (s : State) (q : Nat) : Instance :=
  let o := quo q
  ⟨7, q, (rdn s (QU_CNT_WR + o) : Int) - (rdn s (QU_CNT_RD + o) + rdn s (QU_CNT_DROP + o) + fget s fQU_LEVEL_HELD o +
    rdn s (QU_CNT_WOFF + o) : Nat), true⟩

/-- Every instance in ascending order of identity and instance (R411). -/
def instances (s : State) : List Instance :=
  let a := s.acct
  let i := fun (n k x y : Nat) => Instance.mk n k ((x : Int) - y) true
  [i 0 0 a.lgOpened (a.lgRetired + fget s fLG_STAT_LIVE)] ++
  (List.range 5).map (fun p => i 1 p (rdn s (MM_POOL_TOTAL + p * 16)) (rdn s (MM_POOL_FREE + p * 16) + poolHeld s p)) ++
  [i 2 0 a.tmProduced (a.tmDelivered + a.tmDropped + s.tiles.made.length),
    i 3 0 a.trAlloc (a.trDone + a.trDrop + s.tiles.allocs.length),
    i 4 0 a.decReceived (a.decFired + a.decPassed + a.decDefaulted + a.decCancelled + decPending s)] ++
  (List.range 4).map (fun b => i 5 b (nth a.partAdmit b) (nth a.partFired b + nth a.partCancelled b + partsQueued s b)) ++
  [i 6 0 (tagsPool s) (tagsFree s + s.he.reqs.length + s.he.quar.length)] ++
  (List.range 66).map (queueInstance s) ++
  (List.range (4 * tollClients)).map (tollInstance s) ++
  [⟨9, 0, (reg64 s EV_CRED_GRANTED_LO : Int) - (reg64 s EV_CRED_SPENT_LO + reg64 s EV_CRED_BAL_LO +
      reg64 s EV_CRED_FORFEIT_LO : Nat), false⟩,
    i 10 0 a.vrArrived (a.vrTaken + verdictsHeld s)]

/-- The sum of a Toll term of resource `r` over the clients. -/
def tollSum (f : Nat → Nat) (r : Nat) : Nat := ((List.range tollClients).map (fun c => f (4 * c + r))).sum

/-- Write a list of words from an address upward. -/
def wrWords (a : Nat) (l : List Nat) (s : State) : State :=
  forEach (l.zipIdx) (fun x t => wrn t (a + 4 * x.2) x.1) s

/-- Copy the latched terms into the LI term registers. -/
def copyTerms (s : State) : State :=
  let a := s.acct
  let s1 := wrWords LI_LG_OPENED [a.lgOpened, a.lgRetired, fget s fLG_STAT_LIVE] s
  let s2 := wrWords LI_TM_PRODUCED [a.tmProduced, a.tmDelivered, a.tmDropped, s.tiles.made.length] s1
  let s3 := wrWords LI_DEC_RECEIVED
    [a.decReceived, a.decFired, a.decPassed, a.decDefaulted, a.decCancelled, decPending s] s2
  let s4 := forEach (List.range 4) (fun b t => wrWords (LI_PART_ADMIT + 16 * b)
    [nth a.partAdmit b, nth a.partFired b, nth a.partCancelled b, partsQueued s b] t) s3
  let s5 := wrWords LI_TAG_POOL [tagsPool s, tagsFree s, s.he.reqs.length, s.he.quar.length] s4
  let s6 := wrWords LI_POOL_HELD ((List.range 5).map (poolHeld s)) s5
  let s7 := forEach (List.range 4) (fun r t =>
    let ws := [tollSum (fun k => smGet s.toll.granted k 0) r, tollSum (fun k => smGet s.toll.spent k 0) r,
      tollSum (fun k => rdn s (TO_AVAIL + 4 * k)) r, tollSum (fun k => smGet s.toll.forfeit k 0) r]
    wrWords (LI_TO_GRANTED_LO + 0x20 * r) (ws.flatMap (fun v => [v, v / 2 ^ 32])) t) s6
  wrWords LI_VR_ARRIVED [a.vrArrived, a.vrTaken, verdictsHeld s]
    (wrWords LI_TR_ALLOC [a.trAlloc, a.trDone, a.trDrop, s.tiles.allocs.length] s7)

/-- An unbalanced identity. -/
def reportBad (i : Nat) (s : State) : State :=
  paDetect (0x30 + i) (evtBit (cnt s (LI_CNT_FAIL + 4 * i)) LI_EVT i)

/-- One pass of the auditor (R415); one that overlaps a Function Level Reset skips identities 3 and 10. -/
def auditPass (s : State) : State :=
  let skip := fbit s fHE_STAT_FLR_BUSY
  let bad := (instances s).filter (fun i => !i.ok && !(skip && (i.ident == 3 || i.ident == 10)))
  let ids := (bad.map (·.ident)).dedup
  let s1 := wrn (copyTerms (cntWrap s LI_PASS)) LI_STAT ((ids.map (2 ^ ·)).sum)
  let s2 := match bad with
    | [] => s1
    | b :: _ => wrn (wrn s1 LI_WHERE (2 ^ 31 + b.ident * 2 ^ 24 + b.inst)) LI_DIFF (int32u b.diff)
  forEach ids reportBad s2

/-- AUDIT_PASS. -/
def execAuditPass (s : State) : Host.Outcome State Fault Refusal := .next (auditPass s)

end Sys2Proof.Machine
end

