-- ==== Sys2Proof/Machine/Valves.lean ====
section
/-! DEFINITION. The actuation commands (chapter 10): orders, results and cancels over ACT, frame assembly and start, SAFE
frames, bus enables, board polls. -/

namespace Sys2Proof.Machine

/-! ## ACT receptions (R168 to R170) -/

/-- RESULT codes of R169. -/
def resultCode (c : Cause) : Nat :=
  match c with | .late => 1 | .full => 2 | .cancel => 5 | .novalve => 4

/-- Answer an ORDER (R169). -/
def sendResult (src code tag owner : Nat) (s : State) : State :=
  netSend s clsACT flCTRL src [[3#8, BitVec.ofNat 8 code] ++ leBytes 2 tag ++ leBytes 4 owner ++ zeros 8]

/-- The admission of an ORDER (R166, R170): the RESULT code, or the orders to evict. -/
def orderAdmission (s : State) (src launch prio : Nat) (ps : List PartSpec) : (Nat × Cause) ⊕ List Nat :=
  if safeState s then .inl (3, .cancel)
  else if !launchOk s launch then .inl (1, .late)
  else if !fbit s fAC_CTL_EN || !fbit s fAC_CTL_REMOTE_EN || oldLink s src || !busesOn s ps then .inl (5, .cancel)
  else match admission s launch prio ps (ps != []) with
    | .inl c => .inl (resultCode c, c)
    | .inr e => .inr e

/-- An ORDER arrives from pier `src` (R170). -/
def orderReceive (src : Nat) (p : List Byte) (s : State) : State :=
  if byteAt p 0 ≠ 2 ∨ p.length < 24 then s
  else
    let prio := byteAt p 1 % 4
    let tag := u16At p 2
    let owner := u32At p 4
    let launch := u32At p 8
    let rng : Int × Int := ((u16At p 14 : Nat), min (u16At p 16 : Int) (ownValves s - 1))
    let ps := localParts s rng
    let miss := missesBoard s rng
    let s1 := cnt s AC_CNT_ACT_RX
    let s2 := if miss then cnt s1 AC_CNT_NOVALVE else s1
    match orderAdmission s2 src launch prio ps with
    | .inl (code, c) =>
      let s3 := if c = .novalve ∧ miss then s2 else cnt s2 (causeCnt c)
      sendResult src code tag owner (evt s3 fAC_EVT_REFUSED)
    | .inr evict =>
      let s3 := forEach evict (fun o t => cancelOrder t o AC_CNT_EVICT) s2
      sendResult src 0 tag owner (forEach ps (queuePart (.act src tag owner) launch (u16At p 12) prio) s3)

/-- The remote parts of an order that the RESULT `tag` from pier `src` answers. -/
def answers (src tag : Nat) (r : RemotePart) : Bool := r.pier = src && r.tag = tag && r.status = .waiting

/-- A RESULT gives a waiting remote part of order `o` its status (R168): the first QUEUED queues an order with only remote
parts, and when every part has failed the order ends. -/
def resultApply (o : Order) (src tag : Nat) (ok : Bool) (s : State) : State :=
  let st : RemoteStatus := if ok then .queued else .refused
  let s1 := updOrder s o.owner (fun x => { x with
    remotes := x.remotes.map (fun r => if answers src tag r then { r with status := st } else r) })
  if ok then
    match setOwned s1 o.owner with
    | some r =>
      if o.hasLocal || o.remotes.any (fun x => x.status = .queued) then s1 else orderQueued s1 r o.launch o.dur
    | none => s1
  else if !o.hasLocal && o.remotes.all (fun r => answers src tag r || r.status == .refused) then
    orderEnds (dropOrder s1 o.owner) o.owner
  else s1

/-- A RESULT arrives; one at or after LAUNCH of its order is discarded, and another that is not QUEUED is counted, whether or
not its order still waits for it (R168, R170). -/
def resultReceive (src : Nat) (p : List Byte) (s : State) : State :=
  let tag := u16At p 2
  let owner := u32At p 4
  let ok := byteAt p 1 = 0
  let passed := match orderOf s owner with | some o => reached s o.launch | none => false
  if byteAt p 0 ≠ 3 ∨ p.length < 16 ∨ passed = true then s
  else
    let s1 := if ok then s else evt (cnt s AC_CNT_ACT_REFUSED) fAC_EVT_ACT_REFUSED
    match orderOf s owner with
    | some o => if o.remotes.any (answers src tag) then resultApply o src tag ok s1 else s1
    | none => s1

/-- A CANCEL removes a part whose frame has not started (R170). -/
def cancelReceive (src : Nat) (p : List Byte) (s : State) : State :=
  if byteAt p 0 ≠ 4 ∨ p.length < 16 then s
  else forEach (List.range 4) (cancelParts · (fun x => x.src == .act src (u16At p 2) (u32At p 4))) s

/-- TB1 reaches LAUNCH of an order with remote parts (R168): parts without a RESULT count as refused; an order with
only remote parts fires when one is QUEUED, else every part has failed. -/
def remoteLaunch (owner : Nat) (s : State) : State :=
  match orderOf s owner with
  | none => s
  | some o =>
    if !reached s o.launch || o.remotes == [] then s
    else
      let n := (o.remotes.filter (fun r => r.status = .waiting)).length
      let s1 := cntAdd (updOrder s owner (fun x => { x with
        remotes := x.remotes.map (fun r => if r.status = .waiting then { r with status := .refused } else r) }))
        AC_CNT_ACT_TMO n
      if o.hasLocal then s1
      else if o.remotes.any (fun r => r.status = .queued) then fireOrder s1 owner
      else if o.fired then s1
      else orderEnds (dropOrder s1 owner) owner

/-! ## Frames (R171 to R173) -/

/-- The queued part with a given number. -/
def partById (s : State) (b pid : Nat) : Option Part := (busAt s b).queue.find? (fun p => p.pid = pid)

/-- The parts of a frame. -/
def frameParts (s : State) (b : Nat) (f : Frame) : List Part := f.pids.filterMap (partById s b)

/-- The earliest launch of a list of parts. -/
def minLaunch (ps : List Part) : Nat :=
  match ps with
  | [] => 0
  | p :: t => t.foldl (fun a x => earlierStamp x.launch a) p.launch

/-- The duration of a coalesced frame in µs (R171). -/
def frameDur (s : State) (ps : List Part) : Nat :=
  let l := minLaunch ps
  let ns := ps.foldl (fun a p => max a (sdiff p.launch l + 1000 * (p.dur : Int))) 0
  min (((ns + 999) / 1000).toNat) (fget s fAC_DUR_MAX)

/-- The highest priority of a list of parts. -/
def maxPrio (ps : List Part) : Nat := ps.foldl (fun a p => max a p.prio) 0

/-- The OR of the parts' bitmaps. -/
def orBits (ps : List Part) : Nat := ps.foldl (fun a p => a.lor p.bitmap) 0

/-- Assemble the frame of the earliest part that no frame holds, 5 µs before its launch (R171). -/
def frameAssemble (b : Nat) (s : State) : State :=
  let u := busAt s b
  let free := u.queue.filter (fun p => !(u.frames.any (fun f => f.pids.contains p.pid)))
  match free with
  | [] => s
  | p0 :: t =>
    let p := t.foldl (fun a x => if sdiff x.launch a.launch < 0 then x else a) p0
    if sdiff p.launch (now s) > 5000 then s
    else
      let win : Int := (fget s fAC_BUS_CTL_COAL (buo b) : Nat)
      let ps := free.filter (fun x => x.board = p.board && decide (sdiff x.launch p.launch ≤ win))
      let s1 := updBus s b (fun w => { w with frames := w.frames ++ [⟨p.board, ps.map (·.pid)⟩] })
      cntAdd s1 (AC_BUS_CNT_COAL + buo b) (ps.length - 1)

/-- Frame `x` goes before frame `y` when both are due (R172). -/
def frameBefore (s : State) (b : Nat) (x y : Frame) : Bool :=
  let px := frameParts s b x
  let py := frameParts s b y
  if maxPrio px ≠ maxPrio py then decide (maxPrio py < maxPrio px)
  else
    let d := sdiff (minLaunch px) (minLaunch py)
    if d ≠ 0 then decide (d < 0) else decide (x.board < y.board)

/-- The due frame that goes next on a bus. -/
def nextFrame (s : State) (b : Nat) : Option Frame :=
  match (busAt s b).frames.filter (fun f => reached s (minLaunch (frameParts s b f))) with
  | [] => none
  | f :: t => some (t.foldl (fun a x => if frameBefore s b x a then x else a) f)

/-- The version that a FIRE frame to a board carries (R178). -/
def fireVer (s : State) (b board : Nat) : Nat :=
  let m := if fget s fAC_BUS_CTL_VMAX (buo b) = 1 then 1 else 2
  if s.act.seen.contains (b * 32 + board) then min (fget s fAC_BSTAT_VER ((b * 32 + board) * 4)) m else 1

/-- The first bit of a due frame leaves (R168, R172, R173): its parts leave the queue and their orders fire. -/
def valveStart (b : Nat) (s : State) : State :=
  if (busAt s b).wire ≠ .idle then s
  else match nextFrame s b with
    | none => s
    | some f =>
      let ps := frameParts s b f
      let l := minLaunch ps
      let late := (sdiff (now s) l).toNat
      let s1 := updBus s b (fun u => { u with
        queue := u.queue.filter (fun p => !(f.pids.contains p.pid)),
        frames := u.frames.erase f, wire := .fire f.pids })
      let s2 := acct s1 (fun a => { a with
        partFired := addAt a.partFired b (ps.filter (fun p => !testPart p)).length })
      let s3 := cnt s2 (AC_BUS_CNT_FRAMES + buo b)
      let s4 := if 20 < late then
          let m := wrn s3 (AC_SLIP_MAX + buo b) (max late (rdn s3 (AC_SLIP_MAX + buo b)))
          evt (cnt m (AC_BUS_CNT_SLIP + buo b)) fAC_EVT_SLIP
        else s3
      let s5 := emit s4 (.valveFrame b (frameBytes 0 f.board (orBits ps) (frameDur s ps) (fireVer s b f.board)))
      let s6 := forEach (ps.filterMap partOwner).dedup (fun o t => fireOrder t o) s5
      emFire (0x90 + b) s6

/-! ## SAFE frames and bus enables (R179, R180) -/

/-- A SAFE frame starts and fires its producer (R373). -/
def safeStart (b : Nat) (s : State) : State := emFire (0x94 + b) (sendSafe b s)

/-- A bus with EN = 0 outside the safe state sends a SAFE frame when its wire is free (R180). -/
def idleSafe (b : Nat) (s : State) : State :=
  if fbit s fAC_BUS_CTL_EN (buo b) || (busAt s b).wire != .idle then s else safeStart b s

/-- Every bus with EN = 0 begins to idle. -/
def idleBuses (s : State) : State := forEach (List.range 4) idleSafe s

/-- Cancel what is queued on one bus as R167 does for a victim (R180). -/
def cancelBus (b : Nat) (s : State) : State :=
  let s1 := forEach (((busAt s b).queue.filterMap partOwner).dedup)
    (fun o t => cancelOrder t o AC_CNT_CANCEL) s
  cancelParts b (fun _ => true) s1

/-- A write of AC_BUS_CTL.EN (R179, R180). -/
def busEnable (b : Nat) (en : Bool) (s : State) : State :=
  if en then
    if safeState s then s else fbset s fAC_BUS_CTL_EN true (buo b)
  else if fbit s fAC_BUS_CTL_EN (buo b) then
    idleSafe b (cancelBus b (fbset s fAC_BUS_CTL_EN false (buo b)))
  else s

/-! ## Board polls (R178) -/

/-- A queued part is due within 6 µs. -/
def dueSoon (s : State) (b : Nat) : Bool :=
  (busAt s b).queue.any (fun p => decide (sdiff p.launch (now s) ≤ 6000))

/-- The board is on the bus's map. -/
def onMap (s : State) (b addr : Nat) : Bool :=
  (List.range 128).any (fun k => boardOn s k && fget s fAC_BOARD_BUS (k * 4) = b &&
    fget s fAC_BOARD_ADDR (k * 4) = addr)

/-- Send a POLL. -/
def boardPoll (b addr : Nat) (s : State) : State :=
  if fbit s fAC_BUS_CTL_EN (buo b) && fbit s fAC_BUS_CTL_POLL_EN (buo b) && (busAt s b).wire == .idle &&
      onMap s b addr && !dueSoon s b then
    emit (updBus s b (fun u => { u with wire := .poll addr })) (.valveFrame b (frameBytes 2 addr 0 0 1))
  else s

/-- A STATUS frame (symbols 1 to 14) answers a poll, or is discarded for its CRC. -/
def statusReceive (b : Nat) (f : List Byte) (s : State) : State :=
  match (busAt s b).wire with
  | .poll addr =>
    let s1 := updBus s b (fun u => { u with wire := .idle })
    if f.length ≠ 14 ∨ crc16 (f.take 12) ≠ u16At f 12 ∨ byteAt f 0 ≠ 0x80 + addr then
      cnt s1 (AC_BUS_CNT_STATUS_ERR + buo b)
    else
      let o := (b * 32 + addr) * 4
      let ver := byteAt f 11 % 16
      let lo := if ver = 1 then 0 else u32At f 1
      let hi := if ver = 1 then 0 else u32At f 5
      let chg := !fbit s fAC_BSTAT_SEEN o || fget s fAC_BSTAT_FLAGS o != byteAt f 9 ||
        rdn s (AC_BFAULT_LO + 2 * o) != lo || rdn s (AC_BFAULT_HI + 2 * o) != hi
      let s2 := wrn { s1 with act := { s1.act with seen := (b * 32 + addr) :: s1.act.seen.filter (fun x => x != b * 32 + addr) } } (AC_BSTAT + o)
        (2 ^ 31 + ver * 2 ^ 24 + byteAt f 9 * 65536 + byteAt f 10 * 256)
      let s3 := wrn (wrn s2 (AC_BFAULT_LO + 2 * o) lo) (AC_BFAULT_HI + 2 * o) hi
      if chg then evt s3 fAC_EVT_BOARD else s3
  | _ => s

/-- A polled board does not answer. -/
def pollMiss (b : Nat) (s : State) : State :=
  match (busAt s b).wire with
  | .poll addr =>
    let o := (b * 32 + addr) * 4
    let s1 := cnt (updBus s b (fun u => { u with wire := .idle })) (AC_BUS_CNT_POLL_MISS + buo b)
    if fbit s fAC_BSTAT_SEEN o then evt (fbset s1 fAC_BSTAT_SEEN false o) fAC_EVT_BOARD else s1
  | _ => s

/-! ## The commands -/

/-- ACT_ORDER_RECEIVE (R170). -/
def execActOrderReceive (src : Nat) (payload : List Byte) (s : State) : Host.Outcome State Fault Refusal :=
  .next (orderReceive src payload s)

/-- ACT_RESULT_RECEIVE (R168). -/
def execActResultReceive (src : Nat) (payload : List Byte) (s : State) : Host.Outcome State Fault Refusal :=
  .next (resultReceive src payload s)

/-- ACT_CANCEL_RECEIVE (R170). -/
def execActCancelReceive (src : Nat) (payload : List Byte) (s : State) : Host.Outcome State Fault Refusal :=
  .next (cancelReceive src payload s)

/-- REMOTE_LAUNCH (R168). -/
def execRemoteLaunch (owner : Nat) (s : State) : Host.Outcome State Fault Refusal := .next (remoteLaunch owner s)

/-- FRAME_ASSEMBLE (R171). -/
def execFrameAssemble (b : BusNo) (s : State) : Host.Outcome State Fault Refusal := .next (frameAssemble b.val s)

/-- VALVE_FRAME_START (R172). -/
def execValveFrameStart (b : BusNo) (s : State) : Host.Outcome State Fault Refusal := .next (valveStart b.val s)

/-- VALVE_FRAME_END (R172): the frame has ended and, but for an aborted one, the gap has passed. A POLL ends with its
response window. -/
def execValveFrameEnd (b : BusNo) (s : State) : Host.Outcome State Fault Refusal :=
  .next (match (busAt s b.val).wire with
    | .poll _ => s
    | _ => updBus s b.val (fun u => { u with wire := .idle }))

/-- SAFE_FRAME_REPEAT (R179). -/
def execSafeFrameRepeat (s : State) : Host.Outcome State Fault Refusal :=
  .next (if safeState s then forEach (List.range 4) safeStart s else s)

/-- IDLE_SAFE_FRAME (R180). -/
def execIdleSafeFrame (b : BusNo) (s : State) : Host.Outcome State Fault Refusal :=
  .next (if s.rs.held || s.rs.asleep || safeState s then s else idleSafe b.val s)

/-- BUS_ENABLE_WRITE (R180). -/
def execBusEnableWrite (ag : Agent) (b : BusNo) (en : Bool) (s : State) : Host.Outcome State Fault Refusal :=
  .next (gated ag 0x0A none (fbit s fAC_BUS_CTL_EN (buo b.val) != en) (busEnable b.val en) s)

/-- BOARD_POLL (R178). -/
def execBoardPoll (b : BusNo) (addr : Fin 32) (s : State) : Host.Outcome State Fault Refusal :=
  .next (boardPoll b.val addr.val s)

/-- STATUS_FRAME_RECEIVE (R178). -/
def execStatusFrameReceive (b : BusNo) (frame : List Byte) (s : State) : Host.Outcome State Fault Refusal :=
  .next (statusReceive b.val frame s)

/-- POLL_NO_ANSWER (R178). -/
def execPollNoAnswer (b : BusNo) (s : State) : Host.Outcome State Fault Refusal := .next (pollMiss b.val s)

end Sys2Proof.Machine
end

