-- ==== Sys2Proof/Machine/Mates.lean ====
section
/-! DEFINITION. Views and mates (chapter 8): the assignment of an object to a view, the matcher, the closing of
provisional sets, the MATE messages, and the production of tiles at MATED (R141). -/

namespace Sys2Proof.Machine

/-! ## Tiles at MATED (R141, R149, R241) -/

/-- Keep TL_STAT.PENDING at the tiles produced and neither delivered nor dropped. -/
def tileStat (s : State) : State := fset s fTL_STAT_PENDING s.tiles.made.length

/-- Drop reasons of R149. -/
inductive Drop where
  | stage | oversize | toll | ring | pause | span
  deriving DecidableEq, Repr

/-- The counter of a drop reason. -/
def dropCnt (d : Drop) : Nat :=
  match d with
  | .stage => TL_CNT_DROP_STAGE | .oversize => TL_CNT_DROP_OVERSIZE | .toll => TL_CNT_DROP_TOLL
  | .ring => TL_CNT_DROP_RING | .pause => TL_CNT_DROP_PAUSE | .span => TL_CNT_DROP_SPAN

/-- The tile of `id` made here is dropped: TILE_DROP, the counters (R149). -/
def tileDrop (id : Nat) (d : Drop) (s : State) : State :=
  if !(s.tiles.made.any (fun m => m.id = id)) then s
  else
    let s1 := tileStat { s with tiles := { s.tiles with made := s.tiles.made.filter (fun m => m.id != id) } }
    let s2 := if live s id then setFlag s1 id lfTILEDROP true else s1
    acct (evt (cnt s2 (dropCnt d)) fTL_EVT_TILE_DROP) (fun a => { a with tmDropped := a.tmDropped + 1 })

/-- The tile of `id` made here is delivered: a MATED entry goes to TILED (R119, R149). -/
def tileDeliver (id : Nat) (s : State) : State :=
  if !(s.tiles.made.any (fun m => m.id = id)) then s
  else
    let s1 := tileStat { s with tiles := { s.tiles with made := s.tiles.made.filter (fun m => m.id != id) } }
    let s2 := if live s id ∧ (entryOf s id).st = .mated then updEntry s1 id (fun e => { e with st := .tiled }) else s1
    acct (cnt s2 TL_CNT_DELIVERED) (fun a => { a with tmDelivered := a.tmDelivered + 1 })

/-- The ring that a route gives an entry (R141). -/
def routeRing (w : Nat) (flags : Nat) : Nat :=
  let m := bits w 4 0
  let f := flags % 4 + bits flags 2 2 * 4 + bits flags 4 4 * 8 + bits flags 7 7 * 16
  if m.land f ≠ 0 then bits w 18 13 else bits w 12 7

/-- A tile is produced when an entry reaches MATED (R141); without a valid host-link pier a tile for another unit's
ring is dropped at once (R241). -/
def tileProduce (id : Nat) (s : State) : State :=
  let e := entryOf s id
  let w := rdn s (TL_ROUTE + e.port * 4)
  if !fbit s fTL_CTL_EN || !bit w 31 || bits w 30 29 == 3 then s
  else
    let s1 := { s with tiles := { s.tiles with made := s.tiles.made ++
      [⟨id, w, routeRing w e.flags, none, 0⟩] } }
    let s2 := acct (cnt (tileStat s1) TL_CNT_PRODUCED) (fun a => { a with tmProduced := a.tmProduced + 1 })
    if fbit s fTL_CTL_DEST && !fbit s fSN_HOST_VALID then tileDrop id .span s2 else s2

/-! ## MATED (R132, R135) -/

/-- The default action that a group gives: 01h ACCEPT or 02h REJECT (R155). -/
def groupDefault (s : State) (g : Nat) : Nat := if fbit s fVW_GRP_CTL_DEFAULT (g * 0x20) then 2 else 1

/-- Rewrite the ring and set flags of a member (R132). -/
def ringEntry (members : List Nat) (owner : Nat) (remote : Bool) (id : Nat) (e : Entry) : Entry :=
  let f1 := withBit e.flags lfSINGLE (members.length == 1)
  let f2 := withBit (withBit f1 lfOWNER (id == owner)) lfREMOTE remote
  { e with mateNext := ringNext members id, flags := f2 }

/-- The members of a set lie on more than one pier. -/
def spansPiers (members : List Nat) : Bool := 1 < ((members.map idPier).dedup).length

/-- The local objects `got` of a set go from SEEN to MATED in one cycle (R132, R135): ring, flags, the set's record with
the group's deadline and default as they stand, the planned launch, and their tiles. -/
def mateSet (members got : List Nat) (lastMax home : Nat) (s : State) : State :=
  match got with
  | [] => s
  | g0 :: _ =>
    let owner := members.headD g0
    let rem := spansPiers members
    let s1 := forEach got (fun m t => updEntry t m (fun e => { ringEntry members owner rem m e with st := .mated })) s
    let g := (entryOf s (if got.contains owner then owner else g0)).group
    let r : SetRec := { members := members, locals := got, owner := owner, lastMax := extStamp s lastMax, home := home,
                        planned := if got.contains owner then plannedLaunch s1 owner else none,
                        deadline := fget s fVW_GRP_DEADLINE_US (g * 0x20), dflt := groupDefault s g }
    forEach got tileProduce { s1 with ledger := { s1.ledger with sets := s1.ledger.sets ++ [r] } }

/-- An object goes to MATED as a one-member set formed here (R126, R133, R134, R136). -/
def mateSingle (id : Nat) (s : State) : State :=
  mateSet [id] [id] (entryOf s id).lastStamp (myPier s) (cnt s VW_CNT_SINGLE)

/-! ## Matching (R129 to R131) -/

/-- The windows of a model and a group's weights. -/
def mdlNo (g i j : Nat) : Nat := g * 16 + i * 4 + j

/-- View `j` of group `g` has columns: enabled, and not the reserved side (R125). -/
def viewOn (s : State) (g j : Nat) : Bool :=
  let o := g * 0x20 + j * 8
  fbit s fVW_VIEW_EN o && fget s fVW_VIEW_SIDE o != 3

/-- The cost of an object against a member, none outside the windows (R129). -/
def pairCost (s : State) (g : Nat) (m c : Member) : Option Nat :=
  let n := mdlNo g m.view c.view
  let md := vwModel s n
  let ex := ((c.cx : Int) - mdlXpos md m.cx).natAbs
  let dt := mdlDelay s md m.cx m.width
  let et := (sdiff (sub32 c.first m.first) (int32u dt)).natAbs
  let part := m.partialView || c.partialView
  let ar := (max m.area c.area) * 256 / max 1 (min m.area c.area) % 2 ^ 32
  let amax := fget s fVW_MDL_AREA_MAX (n * 0x20)
  if fget s fVW_MDL_CTL_TOL_X (n * 0x20) < ex ∨ rdn s (VW_MDL_TOLT + n * 0x20) < et ∨
      (part = false ∧ amax ≠ 0 ∧ amax < ar) then none
  else
    let w := g * 0x20
    some (fget s fVW_GRP_CTL_W_X w * ex + fget s fVW_GRP_CTL_W_T w * (et / 64) +
      if part then 0 else fget s fVW_GRP_CTL_W_A w * sub32 ar 256)

/-- The mean cost of an object against a provisional set, none when it is no candidate (R130). -/
def setCost (s : State) (p : ProvSet) (c : Member) : Option Nat :=
  if p.members.any (fun m => m.view = c.view) then none
  else
    let rel := p.members.filter (fun m => (vwModel s (mdlNo p.group m.view c.view)).en)
    let cs := rel.filterMap (fun m => pairCost s p.group m c)
    if rel = [] ∨ cs.length ≠ rel.length then none else some (cs.sum / cs.length)

/-- The lowest member ID of a provisional set. -/
def lowId (p : ProvSet) : Nat :=
  match p.members with
  | [] => 0
  | m :: t => t.foldl (fun a x => min a x.id) m.id

/-- The candidate of lowest cost, then lowest member ID (R130): its lowest ID. -/
def bestSet (s : State) (g : Nat) (c : Member) : Option Nat :=
  let cands := (s.views.prov.filter (fun p => p.group = g)).filterMap (fun p =>
    (setCost s p c).map (fun k => (k, lowId p)))
  match cands with
  | [] => none
  | x :: t => some ((t.foldl (fun a b => if b.1 < a.1 ∨ (b.1 = a.1 ∧ b.2 < a.2) then b else a) x).2)

/-- The views reachable from a member (R131). -/
def reachViews (s : State) (g : Nat) (m : Member) : List Nat :=
  (List.range 4).filter (fun j =>
    let n := mdlNo g m.view j
    let md := vwModel s n
    let o := g * 0x20 + j * 8
    let tol : Int := (fget s fVW_MDL_CTL_TOL_X (n * 0x20) : Nat)
    let xp := mdlXpos md m.cx
    j != m.view && md.en && viewOn s g j && decide (16 * (fget s fVW_VIEW_X0 o : Int) - tol ≤ xp) &&
      decide (xp ≤ 16 * ((fget s fVW_VIEW_X1_X1 o : Int) + 1) + tol))

/-- FIRST + delay + TOL_T of a member and a view (R131). -/
def reachTime (s : State) (g : Nat) (m : Member) (j : Nat) : Nat :=
  let n := mdlNo g m.view j
  int32u ((m.first : Int) + mdlDelay s (vwModel s n) m.cx m.width + (rdn s (VW_MDL_TOLT + n * 0x20) : Int))

/-- The close time of members, none when no view is reachable (R131). -/
def closeTime (s : State) (g : Nat) (ms : List Member) : Option Nat :=
  match ms.flatMap (fun m => (reachViews s g m).map (reachTime s g m)) with
  | [] => none
  | x :: t => some (add32 (t.foldl laterStamp x) (fget s fVW_GRP_HOLD_US (g * 0x20) * 1000))

/-- Every view reachable from a member has a member (R131). -/
def setComplete (s : State) (p : ProvSet) : Bool :=
  p.members.all (fun m => (reachViews s p.group m).all (fun j => p.members.any (fun x => x.view = j)))

/-- Keep VW_STAT.SETS and VW_GRP_STAT.SETS. -/
def provStat (s : State) : State :=
  let s1 := fset s fVW_STAT_SETS s.views.prov.length
  forEach (List.range 8) (fun g t =>
    fset t fVW_GRP_STAT_SETS (t.views.prov.filter (fun p => p.group = g)).length (g * 0x20)) s1

/-- Replace the provisional sets. -/
def setProv (s : State) (l : List ProvSet) : State := provStat { s with views := { s.views with prov := l } }

/-! ## Closing (R132, R135) -/

/-- Sort IDs in ascending order. -/
def sortIds (l : List Nat) : List Nat := l.mergeSort (fun a b => a ≤ b)

/-- Send SET for a set with the given members (R135). -/
def sendSet (members : List Nat) (lastMax pier : Nat) (s : State) : State :=
  netSend s clsMATE flCTRL pier [[2#8, BitVec.ofNat 8 members.length, 0#8, 0#8] ++ leBytes 4 (members.headD 0) ++
    fit 16 (members.flatMap (leBytes 4)) ++ leBytes 4 lastMax]

/-- The neighbours that hold a member. -/
def memberPiers (s : State) (members : List Nat) : List Nat :=
  ((members.map idPier).dedup).filter (fun p => p != myPier s)

/-- Close a set of members formed here: local ones go to MATED, SET goes to every neighbour that holds one, and a record
is kept of a set with remote members (R132, R135, R136). -/
def closeMembers (ms : List Member) (s : State) : State :=
  let ids := sortIds (ms.map (·.id))
  let last := match ms with | [] => 0 | m :: t => t.foldl (fun a x => laterStamp a x.last) m.last
  let s1 := cnt s (if 2 ≤ ids.length then VW_CNT_SET else VW_CNT_SINGLE)
  let got := ids.filter (fun i => idPier i = myPier s && live s i)
  let piers := memberPiers s ids
  let s2 := if piers = [] then s1 else { s1 with views := { s1.views with
    recs := s1.views.recs ++ [⟨ms, ids.headD 0, last, false⟩] } }
  forEach piers (sendSet ids last) (mateSet ids got last (myPier s) s2)

/-- Close a provisional set. -/
def closeProv (p : ProvSet) (s : State) : State :=
  closeMembers p.members (setProv s (s.views.prov.erase p))

/-- A provisional set that gained a member closes when it is complete (R132). -/
def provCheck (p : ProvSet) (s : State) : State := if setComplete s p then closeProv p s else s

/-- An object of view `c.view` arrives at the matcher of group `g` (R130, R132, R133). -/
def matchObject (g : Nat) (c : Member) (s : State) : State :=
  if !fbit s fVW_CTL_EN || !fbit s fVW_GRP_CTL_EN (g * 0x20) then closeMembers [c] s
  else if 2048 ≤ s.views.prov.length then closeMembers [c] (evtCnt s fVW_EVT_FULL VW_CNT_FULL)
  else match bestSet s g c with
    | some low =>
      let f := fun (p : ProvSet) => if p.group = g ∧ lowId p = low then { p with members := p.members ++ [c] } else p
      let s1 := setProv s (s.views.prov.map f)
      match s1.views.prov.find? (fun p => p.members.contains c) with
      | some p => provCheck p s1
      | none => s1
    | none =>
      let p : ProvSet := ⟨g, [c]⟩
      provCheck p (setProv s (s.views.prov ++ [p]))

/-! ## Objects that reach SEEN (R126, R134) -/

/-- The enabled range of a port that contains a column (R126). -/
def rangeOf (s : State) (port col : Nat) : Option Nat :=
  (List.range 4).find? (fun r =>
    let o := port * 0x20 + r * 8
    fbit s fVW_PMAP_EN o && fget s fVW_PMAP_HOME o != 3 && decide (fget s fVW_PMAP_X0 o ≤ col) &&
      decide (col ≤ fget s fVW_PMAP_X1_X1 o))

/-- An entry as the matcher sees it. -/
def memberOf (s : State) (id : Nat) : Member :=
  let e := entryOf s id
  let fr := featRec s id
  { id := id, view := e.view, first := e.firstStamp, last := e.lastStamp, cx := u32At fr 36, area := u32At fr 20,
    partialView := hasFlag e lfINCOMPLETE || hasFlag e lfCUT || hasFlag e lfEDGE, width := portWidth s e.port }

/-- Send CAND for a remotely assigned object and wait for its SET (R134 to R136). Without a neighbour on the home's side the
object waits alone. -/
def sendCand (id : Nat) (home : Option Nat) (s : State) : State :=
  let e := entryOf s id
  let m := memberOf s id
  let fl := (if fbit s fVW_STAT_TB_OK then 1 else 0) + (if hasFlag e lfINCOMPLETE then 2 else 0) +
    (if hasFlag e lfCUT then 4 else 0) + (if hasFlag e lfEDGE then 8 else 0)
  let t := match closeTime s e.group [m] with
    | some x => x
    | none => add32 e.firstStamp (fget s fVW_GRP_HOLD_US (e.group * 0x20) * 1000)
  let wait := max 100 (fget s fVW_CTL_REMOTE_WAIT) * 1000
  let s1 := { s with views := { s.views with waits := s.views.waits ++ [⟨id, home, add32 t wait⟩] } }
  match home with
  | none => s1
  | some h => netSend s1 clsMATE flCTRL h [[1#8] ++ leBytes 1 e.group ++ leBytes 1 e.view ++ leBytes 1 fl ++
      leBytes 4 id ++ leBytes 4 m.first ++ leBytes 4 m.last ++ leBytes 4 m.cx ++ leBytes 4 m.area ++
      leBytes 2 m.width ++ zeros 6]

/-- Note an object for the calibration runs of its group (R138, R181). -/
def calNote (g : Nat) (m : Member) (r : Option CalRun) : Option CalRun :=
  match r with
  | none => none
  | some x => if x.group = g then some { x with objs := x.objs ++ [⟨m.view, m.first, m.cx, m.width⟩] } else some x

/-- Note an arrival for both calibration runs. -/
def calNotes (g : Nat) (m : Member) (s : State) : State :=
  { s with views := { s.views with calRun := calNote g m s.views.calRun, ejectRun := calNote g m s.views.ejectRun } }

/-- An object that reached SEEN is assigned to a view and matched (R126, R130, R133, R134). -/
def assignObject (id : Nat) (s : State) : State :=
  let e := entryOf s id
  match rangeOf s e.port (u32At (featRec s id) 36 / 16) with
  | none => mateSingle id (cnt (updEntry s id (fun x => { x with group := 0, view := 0 })) VW_CNT_UNMAPPED)
  | some r =>
    let o := e.port * 0x20 + r * 8
    let g := fget s fVW_PMAP_GROUP o
    let s1 := updEntry s id (fun x => { x with group := g, view := fget s fVW_PMAP_VIEW o, range := some r })
    let side := fget s fVW_PMAP_HOME o
    if side = 0 then matchObject g (memberOf s1 id) (calNotes g (memberOf s1 id) s1)
    else if !fbit s fVW_CTL_EN || !fbit s fVW_CTL_REMOTE_EN then mateSingle id s1
    else match neighbour s (side == 1) with
      | none => sendCand id none s1
      | some home => if oldLink s home then mateSingle id s1 else sendCand id (some home) s1

/-! ## MATE messages (R134 to R137) -/

/-- A CAND arrives from pier `src` (R134). -/
def candReceive (src : Nat) (p : List Byte) (s : State) : State :=
  if byteAt p 0 ≠ 1 ∨ p.length < 32 then s
  else
    let fl := byteAt p 3
    let m : Member := { id := u32At p 4, view := byteAt p 2 % 4, first := u32At p 8, last := u32At p 12,
                        cx := u32At p 16, area := u32At p 20, partialView := bits fl 3 1 != 0, width := u16At p 24 }
    if !bit fl 0 || !fbit s fVW_STAT_TB_OK then closeMembers [m] (evtCnt s fVW_EVT_UNSYNC VW_CNT_UNSYNC)
    else if !fbit s fVW_CTL_REMOTE_EN || oldLink s src then closeMembers [m] s
    else matchObject (byteAt p 1 % 8) m (calNotes (byteAt p 1 % 8) m s)

/-- A revised SET for the set `r` (R135, R136): ring, OWNER, SINGLE, REMOTE and LAST_MAX are rewritten; the pier that
holds the owner of a set already decided ignores it. -/
def reviseSet (r : SetRec) (members : List Nat) (lastMax : Nat) (s : State) : State :=
  let decided := match setState s r with
    | .seen => false | .mated => false | .tiled => false | _ => true
  if ownsSet s r && decided then evtCnt s fVW_EVT_WITHDRAW_LATE VW_CNT_WITHDRAW_LATE
  else
    let owner := members.headD 0
    let rem := spansPiers members
    let keep := r.locals.filter (fun m => members.contains m)
    let s1 := forEach keep (fun m t => updEntry t m (ringEntry members owner rem m)) s
    let newOwner := keep.contains owner && r.owner != owner
    updSet s1 r (fun x => { x with
      members := members, locals := keep, owner := owner, lastMax := extStamp s lastMax,
      planned := if newOwner then plannedLaunch s1 owner else if keep.contains owner then x.planned else none })

/-- A SET arrives from pier `src` (R135, R136): the local objects that wait for it go to MATED; for a set already closed
it is a revised SET. -/
def setReceive (src : Nat) (p : List Byte) (s : State) : State :=
  if byteAt p 0 ≠ 2 ∨ p.length < 28 then s
  else
    let members := sortIds ((List.range (min 4 (byteAt p 1))).map (fun n => u32At p (8 + 4 * n)))
    let got := members.filter (fun m => s.views.waits.any (fun w => w.id = m))
    if got ≠ [] then
      mateSet members got (u32At p 24) src
        { s with views := { s.views with waits := s.views.waits.filter (fun w => !got.contains w.id) } }
    else
      match s.ledger.sets.find? (fun r => r.home = src && r.locals.any (fun m => members.contains m)) with
      | some r => reviseSet r members (u32At p 24) s
      | none => s

/-- A remote object has waited too long for its SET (R136). -/
def withdrawSend (id : Nat) (s : State) : State :=
  match s.views.waits.find? (fun w => w.id = id) with
  | none => s
  | some w =>
    if !reached s w.expiry then s
    else
      let s1 := { s with views := { s.views with waits := s.views.waits.filter (fun x => x.id != id) } }
      let s2 := mateSingle id (cnt s1 VW_CNT_WITHDRAW)
      match w.home with
      | none => s2
      | some h => netSend s2 clsMATE flCTRL h [[5#8, 0#8, 0#8, 0#8] ++ leBytes 4 id]

/-- A WITHDRAW reaches the home pier (R136). -/
def withdrawReceive (p : List Byte) (s : State) : State :=
  let id := u32At p 4
  if byteAt p 0 ≠ 5 ∨ p.length < 8 then s
  else match s.views.recs.find? (fun h => h.members.any (fun m => m.id = id)) with
    | none => s
    | some h =>
      if h.decided then evtCnt s fVW_EVT_WITHDRAW_LATE VW_CNT_WITHDRAW_LATE
      else
        let left := h.members.filter (fun m => m.id != id)
        let ids := sortIds (left.map (·.id))
        let last := match left with | [] => 0 | m :: t => t.foldl (fun a x => laterStamp a x.last) m.last
        let s1 := { s with views := { s.views with recs := s.views.recs.flatMap (fun x =>
          if x.owner != h.owner then [x]
          else if memberPiers s ids = [] then []
          else [⟨left, ids.headD 0, last, false⟩]) } }
        let s2 := match s.ledger.sets.find? (fun r => r.locals.any (fun m => ids.contains m) && r.owner == h.owner) with
          | some r => reviseSet r ids last s1
          | none => s1
        forEach (memberPiers s ids) (sendSet ids last) s2

/-- An OUTCOME arrives (R119, R136, R137): the home pier's record follows it, and so do the local members of a set whose
owner is elsewhere. -/
def outcomeReceive (p : List Byte) (s : State) : State :=
  if byteAt p 0 ≠ 3 ∨ p.length < 24 then s
  else
    let code := byteAt p 1
    let act := byteAt p 2
    let owner := u32At p 4
    let launch := u32At p 8
    let dur := u32At p 12
    let s1 := noteOutcome owner code s
    match setOwned s1 owner with
    | none => s1
    | some r =>
      if ownsSet s1 r then s1
      else
        let mv := fun (st : EState) (oc : Nat) (t : State) =>
          moveSet t r st (fun e => { e with action := act, outcome := oc })
        match code with
        | 5 => moveSet s1 r .judged (fun e => { e with action := act })
        | 6 => moveSet s1 r .scheduled (fun e => { e with action := act })
        | 7 => setRetire (evTerminal (mv .fired ocFIRED s1) r 7 launch ((dur + 999) / 1000)) owner (add32 launch dur)
        | 8 => finishSet (evTerminal (mv .passed ocPASSED s1) r 8 0 0) r
        | 9 =>
          let s2 := evTerminal (mv .defaulted ocDEFAULTED s1) r 9 launch ((dur + 999) / 1000)
          if dur = 0 then finishSet s2 r else setRetire s2 owner (add32 launch dur)
        | 10 => finishSet (evTerminal (mv .dropped ocDROPPED s1) r 10 0 0) r
        | _ => s1

/-! ## Group enables (R132, R140) -/

/-- A write of VW_GRP_CTL.EN; disabling a group closes its provisional sets at once. -/
def groupEnable (g : Nat) (en : Bool) (s : State) : State :=
  let was := fbit s fVW_GRP_CTL_EN (g * 0x20)
  let s1 := fbset s fVW_GRP_CTL_EN en (g * 0x20)
  if was && !en then forEach (s1.views.prov.filter (fun p => p.group = g)) closeProv s1 else s1

end Sys2Proof.Machine
end

