-- ==== Sys2Proof/Machine/Views.lean ====
section
/-! DEFINITION. The commands of views and mates (chapter 8) and of the ledger's own events (R115, R118, R119, R12), and
the calibration fit that views and ejection share (R138, R181). -/

namespace Sys2Proof.Machine

/-! ## The ledger's events -/

/-- The record of a closed object has reached LP5X: OPEN goes to SEEN, and then to PASSED and RETIRED for a speck that
passes, else to the matcher (R115, R119, R130). -/
def objectSeen (id : Nat) (s : State) : State :=
  match s.ledger.closed.find? (fun c => c.id = id) with
  | none => s
  | some c =>
    let s0 := { s with ledger := { s.ledger with closed := s.ledger.closed.erase c } }
    let s1 := lp5Puts s0 (featAddr s0 (idIndex id)) c.record
    let s2 := updEntry s1 id (fun e => { e with st := .seen })
    if c.speckPass then
      let s3 := updEntry (cnt s2 LG_CNT_SPECK_PASS) id (fun e => { e with st := .passed, outcome := ocPASSED })
      retireEntry id s3
    else assignObject id s2

/-- A member whose owner is elsewhere has had no outcome for too long (R118): DROPPED with ORPHAN, then RETIRED. -/
def orphan (id : Nat) (s : State) : State :=
  match setOf s id with
  | none => s
  | some r =>
    let st := (entryOf s id).st
    if ownsSet s r || !live s id || !(st == .mated || st == .tiled) || !reachedExt s (orphanTime s id) then s
    else
      let s1 := updEntry s id (fun e => { e with
        st := .dropped, outcome := ocDROPPED, flags := withBit e.flags lfORPHAN true })
      let s2 := evMember (fbit s fEV_CTL_EVID_EN && evSelected s 10) 10 r.owner 0 0 id s1
      let s3 := retireEntry id (evt (cnt s2 LG_CNT_ORPHAN) fLG_EVT_ORPHAN)
      if localMembers s3 r = [] then dropSet s3 r else s3

/-- A set in MATED or TILED, owned here, reaches its effective deadline (R12, R155). -/
def verdictDeadline (owner : Nat) (s : State) : State :=
  match setOwned s owner with
  | none => s
  | some r =>
    let st := setState s r
    if ownsSet s r && (st == .mated || st == .tiled) && reachedExt s (effDeadline r) then defaultSet s r else s

/-- Launch + duration of a FIRED or DEFAULTED set is reached (R119). -/
def entryRetire (owner : Nat) (s : State) : State :=
  match s.ledger.retireAt.find? (fun x => x.owner = owner), setOwned s owner with
  | some x, some r => if reached s x.time then dropOrder (finishSet s r) owner else s
  | _, _ => s

/-! ## Provisional sets -/

/-- The provisional set whose lowest member ID is `low`. -/
def provLow (s : State) (low : Nat) : Option ProvSet := s.views.prov.find? (fun p => lowId p = low)

/-- TB1 reaches the close time of a provisional set (R132). -/
def setClose (low : Nat) (s : State) : State :=
  match provLow s low with
  | none => s
  | some p => match closeTime s p.group p.members with
    | none => closeProv p s
    | some t => if reached s t then closeProv p s else s

/-! ## The fit of R138 -/

/-- A pair of a calibration run: source column, port width, time difference, destination column. -/
structure FitPair where
  cx : Nat
  width : Nat
  dt : Int
  dstCx : Nat
  deriving DecidableEq, Repr

/-- The bin that a source column rounds to (R127, R138). -/
def fitBin (cx width : Nat) : Nat :=
  (min (cx * 63 * 65536 / (max 1 width * 16)) (63 * 65536) + 32768) / 65536

/-- A source object with no other source object within SEP µs of it. -/
def isolated (l : List CalObj) (sep : Nat) (o : CalObj) : Bool :=
  decide ((l.filter (fun x => decide ((sdiff x.first o.first).natAbs ≤ sep * 1000))).length ≤ 1)

/-- The pairs of a view run (R138): at most COUNT of them. -/
def viewPairs (r : CalRun) : List FitPair :=
  let src := r.objs.filter (fun o => o.view = r.src)
  let dst := r.objs.filter (fun o => o.view = r.dst)
  (src.filterMap (fun o =>
    if isolated src r.sep o then
      match dst.filter (fun d => decide (((sdiff d.first o.first).natAbs : Int) ≤ r.hi)) with
      | [d] => some ⟨o.cx, o.width, sdiff d.first o.first, d.cx⟩
      | _ => none
    else none)).take r.count

/-- The pairs of an ejection run (R181): at most COUNT of them. -/
def gatePairs (r : CalRun) : List FitPair :=
  let src := r.objs.filter (fun o => o.view = r.src)
  (src.filterMap (fun o =>
    if isolated src r.sep o then
      match r.gate.filter (fun t => decide (r.lo ≤ sdiff t o.first) && decide (sdiff t o.first ≤ r.hi)) with
      | [t] => some ⟨o.cx, o.width, sdiff t o.first, 0⟩
      | _ => none
    else none)).take r.count

/-- The median of a list; the mean of the middle two of an even number, its rounding open (log 22). -/
def median (l : List Int) (s : State) : Int :=
  let t := l.mergeSort (fun a b => a ≤ b)
  let n := t.length
  if n % 2 = 1 then t.getD (n / 2) 0 else roundOpen (t.getD (n / 2 - 1) 0 + t.getD (n / 2) 0) 2 s

/-- The differences that fall into bin `k`. -/
def binOf (ps : List FitPair) (k : Nat) : List Int :=
  (ps.filter (fun p => fitBin p.cx p.width = k)).map (·.dt)

/-- Bin `k` is filled by measurement: 3 pairs or more. -/
def binFull (ps : List FitPair) (k : Nat) : Bool := decide (3 ≤ (binOf ps k).length)

/-- The filled bins. -/
def fullBins (ps : List FitPair) : List Nat := (List.range 64).filter (binFull ps)

/-- Entry `k` of the fitted table: its median, or what the nearest filled bins give (R138). -/
def fitEntry (ps : List FitPair) (s : State) (k : Nat) : Int :=
  let full := fullBins ps
  if binFull ps k then median (binOf ps k) s
  else match (full.filter (· < k)).getLast?, full.find? (fun j => k < j) with
    | some a, some b =>
      let ta := median (binOf ps a) s
      let tb := median (binOf ps b) s
      ta + roundOpen ((tb - ta) * ((k - a : Nat) : Int)) (b - a) s
    | some a, none => median (binOf ps a) s
    | none, some b => median (binOf ps b) s
    | none, none => 0

/-- The fitted delay table. -/
def fitTable (ps : List FitPair) (s : State) : List Int := (List.range 64).map (fitEntry ps s)

/-- The nearest integer to `num / den`. -/
def nearest (num den : Int) : Int := if den = 0 then 0 else (2 * num + den) / (2 * den)

/-- Sum over the pairs. -/
def sumBy (ps : List FitPair) (f : FitPair → Int) : Int := ps.foldl (fun a p => a + f p) 0

/-- The least-squares A (s11.20) and B (R138). -/
def fitAB (ps : List FitPair) : Int × Int :=
  let n : Int := (ps.length : Nat)
  let sx := sumBy ps (fun p => (p.cx : Int))
  let sy := sumBy ps (fun p => (p.dstCx : Int))
  let sxx := sumBy ps (fun p => (p.cx : Int) * (p.cx : Int))
  let sxy := sumBy ps (fun p => (p.cx : Int) * (p.dstCx : Int))
  let d := n * sxx - sx * sx
  (nearest ((n * sxy - sx * sy) * 1048576) d, nearest (sy * sxx - sx * sxy) d)

/-- The delay that a fitted table gives for a pair (R127). -/
def fitDelay (tbl : List Int) (p : FitPair) : Int :=
  let u := min (p.cx * 63 * 65536 / (max 1 p.width * 16)) (63 * 65536)
  let k := u / 65536
  let t := tbl.getD k 0
  if k < 63 then t + ((tbl.getD (k + 1) 0 - t) * ((u % 65536 : Nat) : Int) + 32768) / 65536 else t

/-- The sum of squared time residuals. -/
def timeRes (tbl : List Int) (ps : List FitPair) : Nat :=
  (sumBy ps (fun p => (p.dt - fitDelay tbl p) * (p.dt - fitDelay tbl p))).toNat

/-- The sum of squared position residuals. -/
def posRes (ab : Int × Int) (ps : List FitPair) : Nat :=
  (sumBy ps (fun p =>
    let e := (p.dstCx : Int) - ((ab.1 * (p.cx : Int) + 524288) / 1048576 + ab.2)
    e * e)).toNat

/-- The words that put a fitted table at W0 address `a`. -/
def tableWords (a : Nat) (tbl : List Int) : List (Nat × Nat) := tbl.mapIdx (fun i v => (a + 4 * i, int32u v))

/-- Disable a group for a calibration run (R138, R181). -/
def runGroupOff (g : Nat) (s : State) : State := groupEnable g false s

/-- Restore the group's enable at the end of a run. -/
def runGroupBack (r : CalRun) (s : State) : State := groupEnable r.group r.wasEn s

/-! ## Copies of the diagonal models (R159) -/

/-- Send the diagonal model of group `g`, view `v` to both neighbours, which hold copies of it; the TOPIC and layout of
the message are free (log 1). -/
def sendXmdl (g v : Nat) (s : State) : State :=
  let m := g * 16 + v * 5
  let body := leBytes 1 g ++ leBytes 1 v ++ leBytes 1 (fget s fVW_MDL_CTL_EN (m * 0x20)) ++
    leBytes 4 (rdn s (VW_MDL_A + m * 0x20)) ++ leBytes 4 (rdn s (VW_MDL_B + m * 0x20)) ++
    (List.range 256).map (fun i => tblGet s (0xE00000 + m * 0x100 + i))
  forEach [true, false] (fun e t => match neighbour t e with
    | some p => sendDennil (useFree t) p (freeVal t) body
    | none => t) s

/-- Send every diagonal model. -/
def sendXmdls (s : State) : State :=
  forEach (List.range 8) (fun g t => forEach (List.range 4) (fun v u => sendXmdl g v u) t) s

/-- Ask both neighbours for their diagonal models (R159). -/
def askXmdls (s : State) : State :=
  forEach [true, false] (fun e t => match neighbour t e with
    | some p => sendDennil (useFree t) p (freeVal t) []
    | none => t) s

/-! ## VIEW_LOAD_CAL, VIEW_PARAMS, VIEW_TABLE_LOAD (R139) -/

/-- The groups whose registers, views, models or tables a list of words writes. -/
def wordsGroups (l : List (Nat × Nat)) : List Nat := (l.filterMap (fun p => vwGroup p.1)).dedup

/-- VIEW_LOAD_CAL (R139, R126). -/
def viewLoadCal (_ : CmdCall) (s : State) : State × CmdRes :=
  match (if evRunning s then calInUse s 0x0801 0 0 else none) with
  | none => (s, .refuse eSTATE 0)
  | some e =>
    let ws := (calPairs e).map (fun p => if 0xE0100 ≤ p.1 ∧ p.1 < 0xE0200 ∧ p.1 % 0x20 = 0 then (p.1, p.2 % 2 ^ 31) else p)
    let gs := wordsGroups ws
    if gs.any (fun g => fbit s fVW_GRP_CTL_EN (g * 0x20)) then (s, .refuse eSTATE 0)
    else
      let s1 := forEach ws (fun p t => vwPut p.1 p.2 t) s
      if (List.range 16).any (rangesBad s1) then (s, .refuse eRANGE 0)
      else
        let s2 := forEach gs (fun g t => fbset t fVW_GRP_CTL_EN true (g * 0x20)) s1
        (askXmdls (sendXmdls s2), .ok [])

/-- VIEW_PARAMS (R139): the group's registers, views and models, its enable last. -/
def viewParams (c : CmdCall) (s : State) : State × CmdRes :=
  let g := pb c 0
  if 7 < g then (s, .refuse eRANGE 0)
  else if fbit s fVW_GRP_CTL_EN (g * 0x20) then (s, .refuse eSTATE 0)
  else
    let ws := imageWords (0xE0200 + g * 0x20) ((c.payload.drop 36).take 32) ++
      imageWords (0xE1000 + g * 0x200) ((c.payload.drop 68).take 512) ++
      imageWords (0xE0100 + g * 0x20) ((c.payload.drop 4).take 32)
    (putWords ws s, .ok [])

/-- VIEW_TABLE_LOAD (R139). -/
def viewTableLoad (c : CmdCall) (s : State) : State × CmdRes :=
  let m := pb c 0
  if 127 < m then (s, .refuse eRANGE 0)
  else if fbit s fVW_GRP_CTL_EN (m / 16 * 0x20) then (s, .refuse eSTATE 0)
  else if !hostCanRead c s then (s, .waits)
  else (tblPuts (hostRead c (pq c 8) 256 s) (0xE00000 + m * 0x100) (fit 256 c.data), .ok [])

/-! ## VIEW_CAL_RUN (R138) -/

/-- VIEW_CAL_RUN's acceptance. -/
def viewCalRun (c : CmdCall) (s : State) : State × CmdRes :=
  let g := pb c 0
  let n := pw c 4
  if 7 < g then (s, .refuse eRANGE 0)
  else if 3 < pb c 1 then (s, .refuse eRANGE 1)
  else if 3 < pb c 2 ∨ pb c 1 = pb c 2 then (s, .refuse eRANGE 2)
  else if n < 16 ∨ 4096 < n then (s, .refuse eRANGE 4)
  else if pw c 6 * 1000 < 2 * pd c 8 then (s, .refuse eRANGE 6)
  else
    let r : CalRun := { group := g, src := pb c 1, dst := pb c 2, flags := pb c 3, count := n, sep := pw c 6, lo := 0,
                        hi := (pd c 8 : Int), wasEn := fbit s fVW_GRP_CTL_EN (g * 0x20), gate := [], objs := [] }
    let s1 := runGroupOff g s
    ({ s1 with views := { s1.views with calRun := some r } }, .defer true)

/-- The line period of the port of a view; that of another unit's port is not known here and is free (R138). -/
def viewLinePeriod (s : State) (g v : Nat) : Nat :=
  let o := g * 0x20 + v * 8
  if fget s fVW_VIEW_SIDE o = 0 then rdn s (PP_LINE_PERIOD + fget s fVW_VIEW_PORT o * 0x10000)
  else freeVal s % 2 ^ 32

/-- The words of a fitted model `m` (R138). -/
def modelWords (m tolx tolt : Nat) (ab : Int × Int) (tbl : List Int) : List (Nat × Nat) :=
  let a := 0xE1000 + m * 0x20
  [(a, 2 ^ 31 + min tolx 65535), (a + 4, int32u ab.1), (a + 8, int32u ab.2), (a + 12, tolt % 2 ^ 32),
    (a + 16, 0x180)] ++ tableWords (0xE00000 + m * 0x100) tbl

/-- Store fitted words: the entry in use with these words after its own (log 21). -/
def calMerge (type : Nat) (ws : List (Nat × Nat)) (s : State) : State :=
  let old := match calInUse s type 0 0 with | some e => e.payload | none => []
  calStore type 0 0 (old ++ pairBytes ws) s

/-- Complete the run's deferred command. -/
def endRun (opcode status : Nat) (res : List Byte) (s : State) : State :=
  match deferredOf s opcode with
  | (ch, d) :: _ => endDeferred ch d.call.tag status 0 res s
  | [] => s

/-- A view calibration run ends (R138). -/
def viewCalEnd (s : State) : State :=
  match s.views.calRun with
  | none => s
  | some r =>
    let ps := viewPairs r
    let s1 := runGroupBack r { s with views := { s.views with calRun := none } }
    if (fullBins ps).length < 8 then endRun 0x0811 eRANGE [] s1
    else
      let tbl := fitTable ps s
      let ab := fitAB ps
      let n := ps.length
      let tolx := max 48 (rootOpen (16 * posRes ab ps) n s)
      let tolt := max (viewLinePeriod s r.group r.dst) (rootOpen (16 * timeRes tbl ps) n s)
      let ws := modelWords (mdlNo r.group r.src r.dst) tolx tolt ab tbl
      let s2 := useFree (if bit r.flags 0 then putWords ws s1 else s1)
      let res := leBytes 4 (int32u ab.1) ++ leBytes 4 (int32u ab.2) ++ leBytes 4 tolx ++ leBytes 4 tolt ++
        leBytes 4 n ++ leBytes 4 (fullBins ps).length ++ leBytes 4 (rootOpen (posRes ab ps) n s) ++
        leBytes 4 (rootOpen (timeRes tbl ps) n s)
      if bit r.flags 1 then
        if evRunning s then endRun 0x0811 0 res (calMerge 0x0801 ws s2) else endRun 0x0811 eIO res s2
      else endRun 0x0811 0 res s2

/-! ## The commands -/

/-- OBJECT_SEEN (R115). -/
def execObjectSeen (id : Nat) (s : State) : Host.Outcome State Fault Refusal := .next (objectSeen id s)

/-- ORPHAN_TIMEOUT (R118). -/
def execOrphanTimeout (id : Nat) (s : State) : Host.Outcome State Fault Refusal := .next (orphan id s)

/-- VERDICT_DEADLINE (R12). -/
def execVerdictDeadline (owner : Nat) (s : State) : Host.Outcome State Fault Refusal := .next (verdictDeadline owner s)

/-- ENTRY_RETIRE (R119). -/
def execEntryRetire (owner : Nat) (s : State) : Host.Outcome State Fault Refusal := .next (entryRetire owner s)

/-- SET_CLOSE_TIME (R132). -/
def execSetCloseTime (low : Nat) (s : State) : Host.Outcome State Fault Refusal := .next (setClose low s)

/-- GROUP_DISABLE (R140). -/
def execGroupDisable (ag : Agent) (g : Fin 8) (s : State) : Host.Outcome State Fault Refusal :=
  .next (gated ag 0x08 none (fbit s fVW_GRP_CTL_EN (g.val * 0x20)) (groupEnable g.val false) s)

/-- MATE_CAND_RECEIVE (R134). A home pier that does not match the CAND answers with a SET that names it alone. -/
def execMateCandReceive (src : Nat) (payload : List Byte) (s : State) : Host.Outcome State Fault Refusal :=
  .next (candReceive src payload s)

/-- MATE_SET_RECEIVE (R135). -/
def execMateSetReceive (src : Nat) (payload : List Byte) (s : State) : Host.Outcome State Fault Refusal :=
  .next (setReceive src payload s)

/-- MATE_OUTCOME_RECEIVE (R137). -/
def execMateOutcomeReceive (_src : Nat) (payload : List Byte) (s : State) : Host.Outcome State Fault Refusal :=
  .next (outcomeReceive payload s)

/-- A forwarded VERDICT (R137): judged by R12 and R120 at its arrival here. -/
def mateVerdict (p : List Byte) (s : State) : State :=
  if byteAt p 0 ≠ 4 ∨ p.length < 20 then s else verdictHere s ((p.drop 4).take 16)

/-- MATE_VERDICT_RECEIVE (R137). -/
def execMateVerdictReceive (_src : Nat) (payload : List Byte) (s : State) : Host.Outcome State Fault Refusal :=
  .next (mateVerdict payload s)

/-- MATE_WITHDRAW_RECEIVE (R136). -/
def execMateWithdrawReceive (_src : Nat) (payload : List Byte) (s : State) : Host.Outcome State Fault Refusal :=
  .next (withdrawReceive payload s)

/-- REMOTE_WAIT_EXPIRY (R136). -/
def execRemoteWaitExpiry (id : Nat) (s : State) : Host.Outcome State Fault Refusal := .next (withdrawSend id s)

/-- VIEW_LOAD_CAL (R139). -/
def execViewLoadCal (c : CmdCall) (s : State) : Host.Outcome State Fault Refusal :=
  .next (mbRun ⟨0x0810, 0x10, false, 0, 0, false, true⟩ viewLoadCal c s)

/-- VIEW_CAL_RUN (R138). -/
def execViewCalRun (c : CmdCall) (s : State) : Host.Outcome State Fault Refusal :=
  .next (mbRun ⟨0x0811, 0x11, false, 16, 16, false, true⟩ viewCalRun c s)

/-- VIEW_CAL_RUN_END (R138). -/
def execViewCalRunEnd (s : State) : Host.Outcome State Fault Refusal := .next (viewCalEnd s)

/-- VIEW_PARAMS (R139). -/
def execViewParams (c : CmdCall) (s : State) : Host.Outcome State Fault Refusal :=
  .next (mbRun ⟨0x0890, 0x10, true, 580, 580, false, true⟩ viewParams c s)

/-- VIEW_TABLE_LOAD (R139). -/
def execViewTableLoad (c : CmdCall) (s : State) : Host.Outcome State Fault Refusal :=
  .next (mbRun ⟨0x0891, 0x10, true, 16, 16, false, true⟩ viewTableLoad c s)

end Sys2Proof.Machine
end

