-- ==== Sys2Proof/Machine/Eject.lean ====
section
/-! DEFINITION. The actuation commands of the mailbox (R181, R182): loading the ejection calibration, the crossing-delay
run, and the ejection test. -/

namespace Sys2Proof.Machine

/-- A write of one word of the actuation block by Dennil or under a lease: a board-map entry is not written while the
bus that it names is enabled, and EN of a bus is the command BUS_ENABLE_WRITE's. -/
def acPut (a v : Nat) (s : State) : State :=
  if AC_BOARD ≤ a ∧ a < AC_BOARD + 0x200 then
    if fbit s fAC_BUS_CTL_EN (buo (fget s fAC_BOARD_BUS (a - AC_BOARD))) then s else putWord a v s
  else if AC_BUS_CTL ≤ a ∧ a < AC_BUS_CTL + 0x100 ∧ a % 0x40 = 0 then
    putWord a (setBits v 31 31 (bits (rdn s a) 31 31)) s
  else idleReport (putWord a v s)

/-- Two enabled board-map entries overlap, or name the same bus and address (R164). -/
def boardsBad (s : State) : Bool :=
  (List.range 128).any (fun k => boardOn s k && (List.range k).any (fun j => boardOn s j &&
    ((fget s fAC_BOARD_BUS (j * 4) == fget s fAC_BOARD_BUS (k * 4) &&
        fget s fAC_BOARD_ADDR (j * 4) == fget s fAC_BOARD_ADDR (k * 4)) ||
      (decide (fget s fAC_BOARD_FIRST (j * 4) < fget s fAC_BOARD_FIRST (k * 4) + fget s fAC_BOARD_COUNT (k * 4)) &&
        decide (fget s fAC_BOARD_FIRST (k * 4) < fget s fAC_BOARD_FIRST (j * 4) + fget s fAC_BOARD_COUNT (j * 4))))))

/-- EJECT_LOAD_CAL (R182, R164, R159). -/
def ejectLoadCal (_ : CmdCall) (s : State) : State × CmdRes :=
  match (if evRunning s then calInUse s 0x0A01 0 0 else none) with
  | none => (s, .refuse eSTATE 0)
  | some e =>
    let s1 := forEach (calPairs e) (fun p t => acPut p.1 p.2 t) s
    if boardsBad s1 then (s, .refuse eRANGE 0) else (askXmdls (sendXmdls s1), .ok [])

/-- EJECT_CAL_RUN's acceptance (R181). -/
def ejectCalRun (c : CmdCall) (s : State) : State × CmdRes :=
  let g := pb c 0
  let n := pw c 4
  if 7 < g then (s, .refuse eRANGE 0)
  else if 3 < pb c 1 then (s, .refuse eRANGE 1)
  else if n < 16 ∨ 4096 < n then (s, .refuse eRANGE 4)
  else if pd c 12 ≤ pd c 8 then (s, .refuse eRANGE 12)
  else
    let r : CalRun := { group := g, src := pb c 1, dst := pb c 1, flags := pb c 2, count := n, sep := pw c 6,
                        lo := (pd c 8 : Int), hi := (pd c 12 : Int), wasEn := fbit s fVW_GRP_CTL_EN (g * 0x20),
                        gate := [], objs := [] }
    let s1 := runGroupOff g s
    ({ s1 with views := { s1.views with ejectRun := some r } }, .defer true)

/-- An ejection calibration ends (R181): the table is fitted, and applied to the diagonal model. -/
def ejectCalEnd (s : State) : State :=
  match s.views.ejectRun with
  | none => s
  | some r =>
    let ps := gatePairs r
    let s1 := runGroupBack r { s with views := { s.views with ejectRun := none } }
    if (fullBins ps).length < 8 then endRun 0x0A11 eRANGE [] s1
    else
      let ws := tableWords (0xE00000 + (r.group * 16 + r.src * 5) * 0x100) (fitTable ps s)
      let s2 := useFree s1
      let s3 := if bit r.flags 0 then sendXmdl r.group r.src (putWords ws s2) else s2
      if bit r.flags 1 then
        if evRunning s then endRun 0x0A11 0 [] (calMerge 0x0801 ws s3) else endRun 0x0A11 eIO [] s3
      else endRun 0x0A11 0 [] s3

/-- EJECT_TEST (R182): local parts of priority 3 at OFS from now. -/
def ejectTest (c : CmdCall) (s : State) : State × CmdRes :=
  let rng : Int × Int := (max 0 (s16 (pw c 0)), min (s16 (pw c 2)) (ownValves s - 1))
  let ps := localParts s rng
  let launch := add32 (now s) (pd c 8)
  if fbit s fAC_CTL_EN || !busesOn s ps || safeState s then (s, .refuse eSTATE 0)
  else if pd c 8 < 10000 ∨ 1000000000 < pd c 8 then (s, .refuse eRANGE 8)
  else if ps = [] then (s, .refuse eRANGE 0)
  else match chooseVictims 16385 s ps 3 [] with
    | none => (s, .refuse eBUSY 0)
    | some evict =>
      let s1 := forEach evict (fun o t => cancelOrder t o AC_CNT_EVICT) s
      let s2 := forEach ps (queuePart .test launch (clampDur s (pw c 4)) 3) s1
      (cntAdd s2 AC_CNT_TEST ps.length, .ok [])

/-- EJECT_LOAD_CAL (R182). -/
def execEjectLoadCal (c : CmdCall) (s : State) : Host.Outcome State Fault Refusal :=
  .next (mbRun ⟨0x0A10, 0x10, false, 0, 0, false, true⟩ ejectLoadCal c s)

/-- EJECT_CAL_RUN (R181). -/
def execEjectCalRun (c : CmdCall) (s : State) : Host.Outcome State Fault Refusal :=
  .next (mbRun ⟨0x0A11, 0x11, false, 16, 16, false, true⟩ ejectCalRun c s)

/-- EJECT_CAL_RUN_END (R181). -/
def execEjectCalRunEnd (s : State) : Host.Outcome State Fault Refusal := .next (ejectCalEnd s)

/-- EJECT_TEST (R182). -/
def execEjectTest (c : CmdCall) (s : State) : Host.Outcome State Fault Refusal :=
  .next (mbRun ⟨0x0A90, 0x10, true, 16, 16, false, true⟩ ejectTest c s)

end Sys2Proof.Machine
end

