-- ==== Sys2Proof/Machine/Pixel.lean ====
section
/-! DEFINITION. The arithmetic of the pixel pipeline as functions of pixels: CSI-2 unpacking (R20), the mosaic (R56),
correction (R55 to R65), reconstruction and colour (R75 to R80), thresholding and morphology (R105, R107), and the focus
measures (R96). -/

namespace Sys2Proof.Machine

/-! ## Unpacking (R20, R29) -/

/-- Bits per sample of a packing code: 8, 10, 12, 14, 16. -/
def packBits (k : Nat) : Nat := 8 + 2 * min k 4

/-- Pixels and bytes of one packing group. -/
def packGroup (b : Nat) : Nat × Nat :=
  match b with
  | 10 => (4, 5) | 12 => (2, 3) | 14 => (4, 7) | 16 => (1, 2) | _ => (1, 1)

/-- The samples of one whole group, as CSI-2 packs them. -/
def packSamples (b : Nat) (g : List Nat) : List Nat :=
  let n := fun i => nth g i
  match b with
  | 10 => (List.range 4).map (fun i => n i * 4 + n 4 / 4 ^ i % 4)
  | 12 => [n 0 * 16 + n 2 % 16, n 1 * 16 + n 2 / 16]
  | 14 => [n 0 * 64 + n 4 % 64, n 1 * 64 + n 4 / 64 + n 5 % 16 * 4, n 2 * 64 + n 5 / 16 + n 6 % 4 * 16, n 3 * 64 + n 6 / 4]
  | 16 => [n 0 * 256 + n 1]
  | _ => [n 0]

/-- The MSB-aligned samples of the whole groups of a payload. -/
def unpack (fuel b : Nat) (l : List Nat) : List Nat :=
  match fuel with
  | 0 => []
  | k + 1 =>
    let g := (packGroup b).2
    if l.length < g then []
    else (packSamples b (l.take g)).map (fun v => v * 2 ^ (16 - b)) ++ unpack k b (l.drop g)

/-! ## The mosaic (R56) -/

/-- The base maps. -/
def mosaicMap (m : Nat) : List (List Nat) :=
  match m with
  | 0 => [[0, 0, 0, 0], [0, 0, 0, 0], [0, 0, 0, 0], [0, 0, 0, 0]]
  | 1 => [[0, 1, 0, 1], [3, 2, 3, 2], [0, 1, 0, 1], [3, 2, 3, 2]]
  | 2 => [[2, 1, 0, 1], [1, 3, 1, 3], [0, 1, 2, 1], [1, 3, 1, 3]]
  | _ => [[0, 1, 3, 1], [1, 2, 1, 3], [3, 1, 0, 1], [1, 3, 1, 2]]

/-- Mosaic and phases of a port: the CX_CFA word. -/
structure Cfa where
  mosaic : Nat
  row : Nat
  col : Nat
  deriving DecidableEq, Repr

/-- The fields of CX_CFA. -/
def cfaOf (w : Nat) : Cfa := ⟨bits w 5 4, bits w 3 2, bits w 1 0⟩

/-- The mosaic channel at line `y` and column `x`. -/
def mosaicCh (c : Cfa) (y x : Int) : Nat :=
  nth ((mosaicMap c.mosaic).getD ((y + c.row) % 4).toNat []) ((x + c.col) % 4).toNat

/-- The colour of a channel: the Bayer channel 3 is G. -/
def colourOf (mosaic ch : Nat) : Nat := if mosaic = 1 ∧ ch = 3 then 1 else ch

/-- The reach of a mosaic (R63). -/
def mosaicReach (m : Nat) : Nat := match m with | 0 => 1 | 1 => 2 | _ => 4

/-- The delay of reconstruction (R74). -/
def reconReach (m : Nat) : Nat := match m with | 0 => 0 | 1 => 2 | _ => 3

/-- The mosaic period of R78. -/
def mosaicPeriod (m : Nat) : Nat := match m with | 0 => 1 | 1 => 2 | _ => 4

/-- The eight same-colour neighbours as (line, column) offsets (R60). -/
def neighbours (m ch : Nat) : List (Int × Int) :=
  let cross := fun (a b : Int) => [(a, b), (a, -b), (-a, b), (-a, -b)]
  let axis := fun (a : Int) => [(a, 0), (-a, 0), (0, a), (0, -a)]
  if m = 0 then cross 1 1 ++ axis 1
  else if colourOf m ch = 1 then cross 1 1 ++ axis 2
  else if m = 1 ∨ (m = 2 ∧ ch = 3) then cross 2 2 ++ axis 2
  else if ch = 3 then [(1, 1), (-1, -1), (1, -3), (-1, 3), (0, 4), (0, -4), (2, -2), (-2, 2)]
  else cross 2 2 ++ axis 4

/-! ## Correction (R55 to R65) -/

/-- Clamp to u16. -/
def clamp16 (v : Int) : Nat := (max 0 (min v 65535)).toNat

/-- p1 of a sample. -/
def p1Of (raw black : Nat) (ofs : Int) : Nat := clamp16 ((raw : Int) - black - ofs)

/-- One gain step: the product rounded half up and its value saturated to u16, and whether it saturated. -/
def gainStep (v g : Nat) : Nat × Bool :=
  let x := (v * g + 2048) / 4096
  (min x 65535, decide (65535 < x))

/-- p4 of p2, and whether either step saturated. -/
def p4Of (p2 g norm : Nat) : Nat × Bool :=
  let a := gainStep p2 g
  let b := gainStep a.1 norm
  (b.1, a.2 || b.2)

/-- Insert into an ascending list. -/
def insertSorted (v : Nat) (l : List Nat) : List Nat :=
  match l with
  | [] => [v]
  | x :: t => if v ≤ x then v :: x :: t else x :: insertSorted v t

/-- The median of R61; 0 of no values. -/
def medianOf (l : List Nat) : Nat :=
  let s := l.foldl (fun a v => insertSorted v a) []
  let k := s.length
  if k = 0 then 0
  else if k % 2 = 1 then nth s ((k - 1) / 2)
  else (nth s (k / 2 - 1) + nth s (k / 2) + 1) / 2

/-- A line around the one in work, as the defect stage reads it: its p1 values and static-listed columns; none for a line
outside the image. -/
abbrev DefRow := Option (List Nat × List Bool)

/-- The row at line offset `dy` of rows that run from −`r` to `r`. -/
def rowAt {α : Type} (rows : List (Option α)) (r : Nat) (dy : Int) : Option α := rows.getD (dy + r).toNat none

/-- The p1 value of a position and whether it is listed; none outside the image. -/
def defAt (rows : List DefRow) (r w : Nat) (x dy dx : Int) : Option (Nat × Bool) :=
  match rowAt rows r dy with
  | none => none
  | some (v, l) =>
    let c := x + dx
    if c < 0 ∨ (w : Int) ≤ c then none else some (nth v c.toNat, l.getD c.toNat false)

/-- The value that a neighbour position gives: itself unless listed, the opposite position when it lies outside the image
(R62). DESIGN CHOICE (log 102): where the opposite position is listed, the position outside is omitted. -/
def neighbourVal (rows : List DefRow) (r w : Nat) (x dy dx : Int) : Option Nat :=
  match defAt rows r w x dy dx with
  | some (v, l) => if l then none else some v
  | none =>
    match defAt rows r w x (-dy) (-dx) with
    | some (v, l) => if l then none else some v
    | none => none

/-- What the defect stage did with a pixel. -/
inductive DefMark where
  | none | static | staticEmpty | hot | cold
  deriving DecidableEq, Repr

/-- p2 of the pixel at column `x` (R59, R61). `mode` is DPC_MODE, `abs` and `rel` the thresholds. -/
def defectPixel (rows : List DefRow) (m ch r w x mode abs rel v : Nat) (listed : Bool) : Nat × DefMark :=
  if !listed && mode / 2 = 0 then (v, .none)
  else
    let vals := (neighbours m ch).filterMap (fun o => neighbourVal rows r w x o.1 o.2)
    if listed then (medianOf vals, if vals = [] then .staticEmpty else .static)
    else if vals.length < 2 then (v, .none)
    else
      let hi := vals.foldl max 0
      let lo := vals.foldl min 65535
      if hi + abs + hi * rel / 256 < v then (medianOf vals, .hot)
      else if (v : Int) < (lo : Int) - abs - (lo * rel / 256 : Nat) then (medianOf vals, .cold)
      else (v, .none)

/-- The mesh gain of R65 for the pixel at (`x`, `y`); `node` reads node (i, j). -/
def meshGain (node : Nat → Nat → Nat) (x y width height : Nat) : Nat :=
  let u := (2 * x + 1) * 2 ^ 21 / max 1 width
  let v := (2 * y + 1) * 48 * 2 ^ 15 / max 1 height
  let i := u / 65536
  let fx := u % 65536
  let j := v / 65536
  let fy := v % 65536
  let top := node i j * (65536 - fx) + node (i + 1) j * fx
  let bot := node i (j + 1) * (65536 - fx) + node (i + 1) (j + 1) * fx
  (top * (65536 - fy) + bot * fy + 2 ^ 31) / 2 ^ 32

/-! ## Reconstruction (R75 to R78) -/

/-- The window of p4 rows from −3 to 3 around a line, none for a line outside the image. -/
abbrev P4Rows := List (Option (List Nat))

/-- A position moved one period toward the image where it lies outside (R78); none when it still does. -/
def movedPos (rows : P4Rows) (w per : Nat) (x dy dx : Int) : Option (Int × Int) :=
  let inRow := fun (d : Int) => (rowAt rows 3 d).isSome
  let d := if inRow dy then dy else if dy < 0 then dy + per else dy - per
  let c := x + dx
  let e := if 0 ≤ c ∧ c < w then c else if c < 0 then c + per else c - per
  if inRow d ∧ 0 ≤ e ∧ e < w then some (d, e) else none

/-- The p4 value at an offset, 0 outside. -/
def p4At (rows : P4Rows) (w per : Nat) (x dy dx : Int) : Nat :=
  match movedPos rows w per x dy dx with
  | none => 0
  | some (d, e) => match rowAt rows 3 d with | none => 0 | some l => nth l e.toNat

/-- |a − b|. -/
def absDiff (a b : Nat) : Nat := if a ≤ b then b - a else a - b

/-- The positions that R76 reads. -/
def dirReads : List (Int × Int) :=
  [(0, -1), (0, 1), (-1, 0), (1, 0), (-2, -1), (-2, 1), (2, -1), (2, 1), (-1, -2), (1, -2), (-1, 2), (1, 2)]

/-- The G estimate of R76 and the direction taken: 0 horizontal, 1 vertical, 2 both. -/
def gEstimate (s : Int → Int → Nat) (thr : Nat) : Nat × Nat :=
  let dh := 2 * absDiff (s 0 (-1)) (s 0 1) + absDiff (s (-2) (-1)) (s (-2) 1) + absDiff (s 2 (-1)) (s 2 1)
  let dv := 2 * absDiff (s (-1) 0) (s 1 0) + absDiff (s (-1) (-2)) (s 1 (-2)) + absDiff (s (-1) 2) (s 1 2)
  if dh + thr < dv then ((s 0 (-1) + s 0 1 + 1) / 2, 0)
  else if dv + thr < dh then ((s (-1) 0 + s 1 0 + 1) / 2, 1)
  else ((s 0 (-1) + s 0 1 + s (-1) 0 + s 1 0 + 2) / 4, 2)

/-- The offsets at Chebyshev distance `d`. -/
def ring (d : Nat) : List (Int × Int) :=
  let r := (List.range (2 * d + 1)).map (fun (i : Nat) => (i : Int) - d)
  (r.flatMap (fun a => r.map (fun b => (a, b)))).filter (fun o => max o.1.natAbs o.2.natAbs = d)

/-- The sample positions of colour `c` around line `y`, column `x`: those at the smallest distance (R77). -/
def samplesOf (cfa : Cfa) (y x : Int) (c : Nat) : List (Int × Int) :=
  let at_ := fun (d : Nat) => (ring d).filter (fun o => colourOf cfa.mosaic (mosaicCh cfa (y + o.1) (x + o.2)) = c)
  if at_ 1 ≠ [] then at_ 1 else at_ 2

/-- The positions that R77 reads for a list of samples. -/
def diffReads (l : List (Int × Int)) : List (Int × Int) :=
  l.flatMap (fun o => [(o.1, o.2), (o.1 - 1, o.2), (o.1 + 1, o.2), (o.1, o.2 - 1), (o.1, o.2 + 1)])

/-- The colour difference estimate of R77, and whether it was clamped. -/
def diffEstimate (s : Int → Int → Nat) (l : List (Int × Int)) (g : Nat) : Nat × Bool :=
  let term := fun (o : Int × Int) =>
    let gb := (s (o.1 - 1) o.2 + s (o.1 + 1) o.2 + s o.1 (o.2 - 1) + s o.1 (o.2 + 1) + 2) / 4
    (s o.1 o.2 : Int) - gb
  let sum := (l.map term).sum
  let k : Int := max 1 l.length
  let v := (g : Int) + (2 * sum + k) / (2 * k)
  (clamp16 v, decide (v < 0 ∨ 65535 < v))

/-- What reconstruction of a pixel gives: the pixel, the direction taken (3 for none), whether a value was clamped and
whether a zero position was read. -/
structure RecPx where
  px : Px
  dir : Nat
  sat : Bool
  edge : Bool
  deriving DecidableEq, Repr

/-- The T2 pixel before R79 at column `x` of the line with index `y`. -/
def reconPixel (cfa : Cfa) (rows : P4Rows) (w thr y x : Nat) : RecPx :=
  let per := mosaicPeriod cfa.mosaic
  let s := p4At rows w per x
  let own := s 0 0
  if cfa.mosaic = 0 then ⟨⟨own, own, own, 0⟩, 3, false, false⟩
  else
    let me := colourOf cfa.mosaic (mosaicCh cfa y x)
    let ge := gEstimate s thr
    let g := if me = 1 then own else ge.1
    let lacks := [0, 2, 3].filter (fun c => c != me && (c != 3 || cfa.mosaic != 1))
    let smp := fun c => samplesOf cfa y x c
    let est := fun c => if c = me then (own, false) else diffEstimate s (smp c) g
    let reads := (if me = 1 then [] else dirReads) ++ lacks.flatMap (fun c => diffReads (smp c))
    let n := if cfa.mosaic = 1 then (0, false) else est 3
    ⟨⟨(est 0).1, g, (est 2).1, n.1⟩, if me = 1 then 3 else ge.2, (est 0).2 || (est 2).2 || n.2,
      reads.any (fun o => (movedPos rows w per x o.1 o.2).isNone)⟩

/-- Near-infrared subtraction (R79), and whether it clamped. -/
def nirSub (p : Px) (kr kg kb : Nat) : Px × Bool :=
  let f := fun (v k : Nat) => (v : Int) - ((p.n * k + 2048) / 4096 : Nat)
  let r := f p.r kr
  let g := f p.g kg
  let b := f p.b kb
  (⟨clamp16 r, clamp16 g, clamp16 b, p.n⟩, decide (r < 0 ∨ g < 0 ∨ b < 0))

/-- Channel `c` of a pixel. -/
def Px.ch (p : Px) (c : Nat) : Nat := match c with | 0 => p.r | 1 => p.g | 2 => p.b | _ => p.n

/-- The colour matrix (R80) with rows `m`, and whether it clamped. -/
def colourMatrix (m : List Int) (p : Px) : Px × Bool :=
  let row := fun (i : Nat) =>
    (2048 + ((List.range 4).map (fun j => m.getD (4 * i + j) 0 * (p.ch j : Int))).sum) / 4096
  let c := fun i => clamp16 (row i)
  (⟨c 0, c 1, c 2, c 3⟩, (List.range 4).any (fun i => decide (row i < 0 ∨ 65535 < row i)))

/-! ## The mask (R105, R107) -/

/-- The raw mask bit: `v` against `bg` with limits `lo` and `hi` per channel and `dist`, scaled by `scale`. -/
def rawMask (chEn test scale dist : Nat) (lo hi bg v : List Nat) : Bool :=
  let chans := (List.range 4).filter (fun c => bit chEn c)
  let band := chans.any (fun c =>
    let lim := ((if nth v c < nth bg c then nth lo c else nth hi c) * scale + 2048) / 4096
    decide (lim < absDiff (nth v c) (nth bg c)))
  let l1 := (chans.map (fun c => absDiff (nth v c) (nth bg c))).sum
  (bit test 0 && band) || (bit test 1 && decide ((dist * scale + 2048) / 4096 < l1))

/-- One horizontal step of a minimum (`all`) or maximum over three columns; positions outside are left out. -/
def morphRow (erode : Bool) (l : List Bool) : List Bool :=
  let op := fun (a b : Bool) => if erode then a && b else a || b
  let left := erode :: l
  let right := l.drop 1 ++ [erode]
  ((l.zip left).zip right).map (fun x => op (op x.1.1 x.1.2) x.2)

/-- A minimum or maximum over the 3 × 3 neighbourhood, rows of none left out. -/
def morphStep (erode : Bool) (rows : List (Option (List Bool))) : List (Option (List Bool)) :=
  let op := fun (a b : Bool) => if erode then a && b else a || b
  let h := rows.map (fun r => r.map (morphRow erode))
  let both := fun (a b : Option (List Bool)) => match a, b with
    | some x, some y => some ((x.zip y).map (fun z => op z.1 z.2))
    | some x, none => some x
    | none, y => y
  let up : List (Option (List Bool)) := none :: h
  let down := h.drop 1 ++ [none]
  ((h.zip up).zip down).map (fun x => match x.1.1 with | none => none | some r => both (both (some r) x.1.2) x.2)

/-- The mask of the middle one of nine raw mask rows: an opening, then a closing (R107). -/
def morphMask (rows : List (Option (List Bool))) : List Bool :=
  match (morphStep true (morphStep false (morphStep false (morphStep true rows)))).getD 4 none with
  | some r => r
  | none => []

/-- The runs of a mask line: the maximal sequences of ones (R108). -/
def runsOf (l : List Bool) : List (Nat × Nat) :=
  (l.zipIdx.foldl (fun (acc : List (Nat × Nat)) (b : Bool × Nat) =>
    if !b.1 then acc
    else match acc with
      | (a, e) :: t => if e + 1 = b.2 then (a, b.2) :: t else (b.2, b.2) :: (a, e) :: t
      | [] => [(b.2, b.2)]) []).reverse

/-- Two runs on neighbouring lines connect (R108). -/
def runsTouch (x y : Nat × Nat) : Bool := decide (x.1 ≤ y.2 + 1) && decide (y.1 ≤ x.2 + 1)

/-! ## Focus (R96) -/

/-- m2 and lap² of the pixel in the middle of a 3 × 3 neighbourhood of u12 values. -/
def focusOf (q : Int → Int → Int) : Nat × Nat :=
  let gx := (q (-1) 1 + 2 * q 0 1 + q 1 1) - (q (-1) (-1) + 2 * q 0 (-1) + q 1 (-1))
  let gy := (q 1 (-1) + 2 * q 1 0 + q 1 1) - (q (-1) (-1) + 2 * q (-1) 0 + q (-1) 1)
  let lap := 4 * q 0 0 - q (-1) 0 - q 1 0 - q 0 (-1) - q 0 1
  ((gx * gx + gy * gy).toNat, (lap * lap).toNat)

end Sys2Proof.Machine
end

