-- ==== Sys2Proof/Machine/Mailbox.lean ====
section
/-! DEFINITION. The mailbox (chapter 15): opening a channel, doorbells, entries written, leases, the commands of function
0Fh, firmware images, and the Causeway mailbox. -/

namespace Sys2Proof.Machine

/-! ## Opening (R273, R274) -/

/-- A write of MB_CTL.OPEN; ignored unless the channel is CLOSED or REFUSED. -/
def openRequest (c : Nat) (s : State) : State :=
  if chState s c = 0 ∨ chState s c = 3 then fset s fMB_STAT_STATE 1 (mbo c) else s

/-- The token that host software wrote. -/
def tokenWritten (s : State) (c : Nat) : List Byte :=
  [0, 1, 2, 3].flatMap (fun i => leBytes 4 (rdn s (MB_TOKEN + mbo c + 4 * i)))

/-- Clear the copy of the token. -/
def clearToken (c : Nat) (s : State) : State :=
  forEach [0, 1, 2, 3] (fun i t => wrn t (MB_TOKEN + mbo c + 4 * i) 0) s

/-- The token opens the Expert group now: its digest is the one stored, and no lockout runs. -/
def tokenGood (s : State) (tok : List Byte) : Bool :=
  s.ev.token != [] && decide (s.mb.tokenUntil ≤ s.tick) && s.ev.token == sha384 tok

/-- A token that does not match is counted; from the ninth on it starts 60 s in which none matches. -/
def tokenBadCount (s : State) : State :=
  let n := s.mb.tokenBad + 1
  let s1 := cnt s MB_CNT_TOKEN_BAD
  let til := if 8 < n then s.tick + 30000000000 else s.mb.tokenUntil
  { s1 with mb := { s1.mb with tokenBad := n, tokenUntil := til } }

/-- A channel without anything waiting, in its first pass through the completion ring. -/
def freshChan : MbChan := ⟨true, false, [], [], [], [], false, []⟩

/-- What channel `c` has read ahead, or is reading, is of no more use. -/
def mbForget (c : Nat) (s : State) : State :=
  let s1 := updChan s c (fun h => { h with fetched := [] })
  { s1 with he := { s1.he with reqs := s1.he.reqs.map (fun r => if r.owner == .mailbox c then { r with owner := .nobody } else r) } }

/-- Refuse an open with a REASON. -/
def openRefused (c reason : Nat) (s : State) : State :=
  evt (fset (fset s fMB_STAT_STATE 3 (mbo c)) fMB_STAT_REASON reason (mbo c)) fMB_EVT_REFUSED (mbo c)

/-- Dennil, or the boot ROM while Dennil does not run, answers an open. -/
def channelOpen (c : Nat) (s0 : State) : State :=
  if chState s0 c ≠ 1 then s0
  else
    let o := mbo c
    let tok := tokenWritten s0 c
    let s := clearToken c s0
    let hi := min 0x16 (fget s fMB_HIV_OFFER_MAX o)
    let lo := max 0x10 (fget s fMB_HIV_OFFER_MIN o)
    let okSize := fun n => decide (1 ≤ n ∧ n ≤ 12)
    if !dennilUp s then openRefused c 3 s
    else if hi < lo then openRefused c 1 s
    else if !okSize (fget s fMB_CTL_CMD_SIZE o) || !okSize (fget s fMB_CTL_CPL_SIZE o) then openRefused c 2 s
    else
      let zero := tok == zeros 16
      let good := !zero && tokenGood s tok
      let s1 := if zero || good then s else tokenBadCount s
      let s2 := updChan { s1 with mb := { s1.mb with opens := upd s1.mb.opens c (· + 1) } } c (fun _ => freshChan)
      let s3 := forEach [MB_CMD_HEAD, MB_CMD_TAIL, MB_CPL_PROD, MB_CPL_CONS] (fun a t => wrn t (a + o) 0) s2
      evt (wrn s3 (MB_STAT + o) (2 * 2 ^ 29 + (if good then 2 ^ 28 else 0) + hi * 256)) fMB_EVT_OPENED o

/-! ## Rings (R272) -/

/-- A write of MB_CMD_TAIL: the commands up to it are read (R272); in sleep it asks to wake up (R429). -/
def doorbell (c tail : Nat) (s0 : State) : State :=
  let o := mbo c
  let s := if s0.rs.asleep then { s0 with rs := { s0.rs with wakeReq := true } } else s0
  if 2 ^ fget s fMB_CTL_CMD_SIZE o ≤ tail then evt s fMB_EVT_DB_ERR o else mbFetch c (wrn s (MB_CMD_TAIL + o) tail)

/-- A channel that is CLOSING and has nothing left to write or to end is CLOSED. -/
def closeDone (c : Nat) (s : State) : State :=
  let h := chan s c
  if chState s c = 4 ∧ h.cpls = [] ∧ h.events = [] ∧ h.deferred = [] ∧ h.remote = [] then
    evt (fset s fMB_STAT_STATE 0 (mbo c)) fMB_EVT_CLOSED (mbo c)
  else s

/-- The channel's completion ring is in use: OPEN or CLOSING, with requests allowed and Dennil running. -/
def ringLive (s : State) (c : Nat) : Bool := (chOpen s c || chState s c == 4) && canDma s && dennilUp s

/-- What writing an entry costs client 36. -/
def entryCost : List (Nat × Nat) := [(1, 1), (2, 1)]

/-- Write the oldest waiting completion. -/
def completionWrite (c : Nat) (s : State) : State :=
  match (chan s c).cpls with
  | [] => s
  | e :: t =>
    if !ringLive s c || cplFree s c == 0 then s
    else if !tollCan s 36 entryCost then tollShort s 36 false
    else closeDone c (cplPut c e false (updChan (tollSpend s 36 entryCost) c (fun h => { h with cpls := t })))

/-- Write the oldest waiting event into a slot that no command taken needs. -/
def eventDeliver (c : Nat) (s : State) : State :=
  match (chan s c).events with
  | [] => s
  | e :: t =>
    if !ringLive s c || !cplRoom s c then s
    else if !tollCan s 36 entryCost then tollShort s 36 false
    else
      let lost := (chan s c).lost
      closeDone c (cplPut c e lost (updChan (tollSpend s 36 entryCost) c (fun h => { h with events := t, lost := false })))

/-! ## Leases (R280, R281) -/

/-- Functions that a lease may cover (R269). -/
def leasable (func : Nat) : Bool :=
  (2 ≤ func && func ≤ 0xC) || func == 0x10 || func == 0x11 || func == 0x12 || func == 0x14 || func == 0x15

/-- Functions that are leased per port. -/
def leasePerPort (func : Nat) : Bool := 2 ≤ func && func ≤ 7

/-- REASON codes of LEASE_END. -/
abbrev lrEXPIRED : Nat := 0
abbrev lrCLOSED : Nat := 1
abbrev lrCHANNEL : Nat := 2
abbrev lrFLR : Nat := 3

/-- A lease ends: the gate closes and the channel hears of it. -/
def leaseEnd (reason i : Nat) (s : State) : State :=
  if !fbit s fMB_LEASE_HELD (i * 4) then s
  else
    let c := fget s fMB_LEASE_CHANNEL (i * 4)
    let res := leBytes 1 i ++ leBytes 1 (fget s fMB_LEASE_FUNCTION (i * 4)) ++
      leBytes 2 (fget s fMB_LEASE_PORTS (i * 4)) ++ leBytes 1 reason
    let s1 := wrn s (MB_LEASE + i * 4) 0
    let s2 := { s1 with mb := { s1.mb with leases := s1.mb.leases.filter (fun l => l.id != i) } }
    if reason = lrFLR then s2 else mbEvent c evLEASE_END 0 res s2

/-- The leases of a channel. -/
def leasesOf (s : State) (c : Nat) : List Nat :=
  (List.range 32).filter (fun i => fbit s fMB_LEASE_HELD (i * 4) && fget s fMB_LEASE_CHANNEL (i * 4) == c)

/-- Set when lease `i` ends, `ms` from now on TB3. -/
def leaseTime (i ms : Nat) (s : State) : State :=
  let e : LeaseEnd := ⟨i, (base48 s 3 + ms * 1000000) % 2 ^ 48⟩
  { s with mb := { s.mb with leases := s.mb.leases.filter (fun l => l.id != i) ++ [e] } }


/-- The scopes of a held lease and of a request overlap. -/
def leaseClash (s : State) (func ports i : Nat) : Bool :=
  leaseHeld s i && fget s fMB_LEASE_FUNCTION (i * 4) == func &&
    (!leasePerPort func || (fget s fMB_LEASE_PORTS (i * 4)).land ports != 0)

/-- A deferred command holds a part of the scope. -/
def leaseBusy (s : State) (func ports : Nat) : Bool :=
  (deferredAll s).any (fun x => x.2.func == func && (match x.2.port with | some p => bit ports p | none => true))

/-- LEASE_OPEN. -/
def runLeaseOpen (c : CmdCall) (s : State) : State × CmdRes :=
  let func := pb c 0
  let ports := if leasePerPort func then pw c 2 else 0
  let ms := pd c 4
  if !leasable func then (s, .refuse eRANGE 0)
  else if ms < 1 ∨ 60000 < ms then (s, .refuse eRANGE 4)
  else if (List.range 32).any (leaseClash s func ports) then (s, .refuse eLEASE 0)
  else if leaseBusy s func ports then (s, .refuse eBUSY 0)
  else if 8 ≤ ((leasesOf s c.chan.val).filter (leaseHeld s)).length then (s, .refuse eBUSY 0)
  else match (List.range 32).find? (fun i => !fbit s fMB_LEASE_HELD (i * 4)) with
    | none => (s, .refuse eBUSY 0)
    | some i =>
      let s1 := wrn s (MB_LEASE + i * 4) (2 ^ 31 + c.chan.val * 2 ^ 29 + func * 65536 + ports)
      (leaseTime i ms s1, .ok (leBytes 1 i))

/-- The channel of the command holds lease `i`. -/
def holdsLease (c : CmdCall) (i : Nat) (s : State) : Bool :=
  decide (i < 32) && leaseHeld s i && fget s fMB_LEASE_CHANNEL (i * 4) == c.chan.val

/-- LEASE_CLOSE. -/
def runLeaseClose (c : CmdCall) (s : State) : State × CmdRes :=
  if holdsLease c (pb c 0) s then (leaseEnd lrCLOSED (pb c 0) s, .ok []) else (s, .refuse eSTATE 0)

/-- LEASE_RENEW. -/
def runLeaseRenew (c : CmdCall) (s : State) : State × CmdRes :=
  if !holdsLease c (pb c 0) s then (s, .refuse eSTATE 0)
  else if pd c 4 < 1 ∨ 60000 < pd c 4 then (s, .refuse eRANGE 4)
  else (leaseTime (pb c 0) (pd c 4) s, .ok [])

/-! ## Firmware images (R284, R285) -/

/-- An image is valid (R284): its header and length, a key whose fused hash is unrevoked and matches, the minimum SVN, and the
verdict of the ROM routine on the signature under the public key that the boot ROM holds, which the spec does not give (log 75). -/
def imageValid (s : State) (img : List Byte) (sigOk : Bool) : Bool :=
  decide (352 ≤ img.length) && u32At img 0 == 0x4957465A && u16At img 4 == 0x0100 && decide (u16At img 6 ≤ 3) &&
    decide (u32At img 16 + 352 = img.length) && ((img.take 256).drop 20).all (fun b => b == 0#8) &&
    decide (s.mb.svnMin ≤ u16At img 14) && bit s.mb.keys (u16At img 6) && sigOk

/-- The digest over which an image is signed: that of its header and body (R284). -/
def imageDigest (img : List Byte) : List Byte := sha384 (img.take (img.length - 96))

/-- The entry of slot `i` in the firmware manifest (R286). An empty slot has no image, so its fields read 0. -/
def slotEntry (i : Nat) (f : FwSlot) : List Byte :=
  let w := f.img
  leBytes 1 i ++ leBytes 1 f.st ++ leBytes 1 (byteAt w 12) ++ leBytes 1 (byteAt w 13) ++ leBytes 4 (u32At w 8) ++
    leBytes 2 (u16At w 14) ++ leBytes 2 (u16At w 6) ++ leBytes 4 (u32At w 16) ++
    (if w = [] then zeros 16 else (imageDigest w).take 16)

/-- Slot `i` of BOOT. -/
def fwSlot (s : State) (i : Nat) : FwSlot := s.ev.slots.getD i ⟨0, []⟩

/-- Set slot `i`. -/
def setSlot (i : Nat) (f : FwSlot) (s : State) : State :=
  { s with ev := { s.ev with slots := upd s.ev.slots i (fun _ => f) } }

/-- A value of the outside world that a command carries. -/
def numAt (c : CmdCall) (i : Nat) : Int := c.nums.getD i 0

/-- FW_WRITE: `nums` holds whether the signature verifies; `data` is the image that the host's memory holds. -/
def runFwWrite (c : CmdCall) (s : State) : State × CmdRes :=
  let i := pb c 0
  if 2 < i then (s, .refuse eRANGE 0)
  else if i = 2 ∨ (fget s fRS_BOOT_BOOTED = i) then (s, .refuse eSTATE 0)
  else if !hostCanRead c s then (s, .waits)
  else if c.data.length ≠ pd c 16 ∨ !imageValid s c.data (numAt c 0 == 1) then (s, .refuse eAUTH 0)
  else (emit (setSlot i ⟨3, c.data⟩ (hostRead c (pq c 8) (pd c 16) s)) (.nand 1 i c.data), .defer false)

/-- The byte of slot `i` that is read back is the image's; nothing read back differs from it. -/
def readBack (s : State) (i : Nat) (back : Option (Nat × Byte)) : Bool :=
  match back with
  | none => true
  | some b => (fwSlot s i).img[b.1]? == some b.2

/-- The programming of a slot has ended: read back as written, or BAD with E_IO. -/
def fwWriteDone (ok : Bool) (x : Nat × Deferred) (s : State) : State :=
  let i := byteAt x.2.call.payload 0
  endD x (if ok then 0 else eIO) 0 [] (setSlot i { fwSlot s i with st := if ok then 1 else 2 } s)

/-- FW_ACTIVATE. -/
def runFwActivate (c : CmdCall) (s : State) : State × CmdRes :=
  let i := pb c 0
  if 2 < i then (s, .refuse eRANGE 0)
  else if (fwSlot s i).st ≠ 1 then (s, .refuse eSTATE 0)
  else (fset { s with ev := { s.ev with nextSlot := i } } fMB_FW_SLOT_NEXT i, .ok [])

/-! ## The other commands of function 0Fh -/

/-- INFO. A command of another pier has no channel here, so its HIV in use and EXPERT are free values (log 106). -/
def runInfo (c : CmdCall) (s : State) : State × CmdRes :=
  let o := mbo c.chan.val
  let own := c.origin.isNone
  let v := freeVal s
  (if own then s else useFree s, .ok (leBytes 4 s.rs.release ++ leBytes 1 (if own then fget s fMB_STAT_HIV o else v) ++
    leBytes 1 (if own then fget s fMB_STAT_EXPERT o else v / 256 % 2) ++
    leBytes 2 (myPier s) ++ leBytes 4 (cfgRd s 0x154) ++ leBytes 4 (cfgRd s 0x158) ++
    leBytes 1 (fget s fMB_DENNIL_STAT_STATE)))

/-- EXPERT_TOKEN_SET; `nums` names the copies that could not be written. -/
def runTokenSet (c : CmdCall) (s : State) : State × CmdRes :=
  let tok := c.payload.take 16
  if tok = zeros 16 then (s, .refuse eRANGE 0)
  else if s.ev.token ≠ [] ∧ ¬ fbit s fMB_STAT_EXPERT (mbo c.chan.val) then (s, .refuse eGROUP 0)
  else if !evRunning s ∨ (numAt c 0).toNat % 8 = 7 then (s, .refuse eIO 0)
  else (confStore (numAt c 0).toNat { s with ev := { s.ev with token := sha384 tok } }, .ok [])

/-- EVENT_MASK. For a forwarded one the sending unit has masked its channel (R277, log 106). -/
def runEventMask (c : CmdCall) (s : State) : State × CmdRes :=
  (if c.origin.isNone then updChan s c.chan.val (fun h => { h with masked := bit (pb c 0) 0 }) else s, .ok [])

/-! ## The Causeway mailbox (R287) -/

/-- The boot ROM serves the Causeway mailbox: Causeway service has come up, and the steward is neither halted (R406) nor
asleep (R429). -/
def cwUp (s : State) : Bool := s.rs.causewayUp && !s.pa.halted && !s.rs.asleep

/-- The Causeway mailbox takes a command: none of it is BUSY. -/
def cwServes (s : State) : Bool := cwUp s && !fbit s fMB_CW_CMD_BUSY

/-- Argument `i`. -/
def cwArg (s : State) (i : Nat) : Nat := rdn s (MB_CW_ARG + 4 * i)

/-- The opcode is written with GO, and the command ends with a status and results. -/
def cwDone (opcode status : Nat) (data : List Nat) (s : State) : State :=
  let s0 := if fbit s fMB_CW_CMD_BUSY then fbset s fMB_CW_CMD_BUSY false else wrn s MB_CW_CMD opcode
  let s1 := wrn s0 MB_CW_RESP (status * 2 ^ 24)
  evt (forEach (List.range 4) (fun i t => wrn t (MB_CW_DATA + 4 * i) (nth data i)) s1) fMB_CW_EVT_DONE

/-- VERSION: the boot ROM version is not stated, so it is a free value. -/
def cwVersion (s : State) : State :=
  if !cwServes s then s
  else
    let fw := if causeway s then 0 else s.rs.hivMax * 256 + s.rs.hivMin
    cwDone 1 0 [freeVal s, fw] (useFree s)

/-- STATUS. -/
def cwStatus (s : State) : State :=
  if cwServes s then cwDone 2 0 [rdn s MB_DENNIL_STAT, fget s fRS_BOOT_ERROR] s else s

/-- An image starts: MB_DENNIL_STAT reads starting with its RELEASE (R422). -/
def startImage (booted : Nat) (f : FwSlot) (s : State) : State :=
  let release := u32At f.img 8
  let s1 := wrn s MB_DENNIL_STAT (2 ^ 30 + release / 256)
  let s2 := fset s1 fRS_BOOT_BOOTED booted
  let s3 := if booted < 3 then fset s2 fMB_FW_SLOT_RUN booted else s2
  { s3 with rs := { s3.rs with release := release, hivMin := byteAt f.img 12, hivMax := byteAt f.img 13 } }

/-- The results of FW_LOAD. -/
def fwLoadRes (img : List Byte) : List Nat := [u32At img 8, u16At img 14]

/-- FW_LOAD of the image in LP5X; `sigOk` is what the ROM routine finds of its signature, `check` how its reads of the image end,
at LP5X address `at_` (R357): an image that does not read is not valid. ACTION 1 marks the slot WRITING and stays BUSY until
NAND_PROGRAM_DONE (R285); without a medium in use it fails with E_IO (log 73). -/
def fwLoad (sigOk : Bool) (check : ReadCheck) (at_ : Nat) (s0 : State) : State :=
  let s := lp5Check check at_ s0
  if !cwUp s0 || s0.mb.cwProg.isSome then s0
  else
    let img := lp5Bytes s (cwArg s 0 + 2 ^ 32 * cwArg s 1) (cwArg s 2)
    let act := bits (cwArg s 3) 1 0
    let i := bits (cwArg s 3) 9 8
    if !causeway s0 then cwDone 3 eSTATE [] s0
    else if act = 3 then cwDone 3 eRANGE [] s0
    else if act = 1 ∧ 1 < i then cwDone 3 eSTATE [] s0
    else if !imageValid s img (sigOk && check != .failed) then cwDone 3 eAUTH [] s
    else
      let res := fwLoadRes img
      if act = 1 then
        if !evRunning s then cwDone 3 eIO res s
        else
          let s1 := fbset (if fbit s fMB_CW_CMD_BUSY then s else wrn s MB_CW_CMD 3) fMB_CW_CMD_BUSY true
          emit (setSlot i ⟨3, img⟩ { s1 with mb := { s1.mb with cwProg := some i } }) (.nand 1 i img)
      else if act = 2 then cwDone 3 0 res (startImage 3 ⟨1, img⟩ s)
      else cwDone 3 0 res s

/-- The slot that FW_LOAD programs has been read back: as written, or BAD with E_IO (R285). -/
def fwLoadDone (ok : Bool) (s : State) : State :=
  match s.mb.cwProg with
  | none => s
  | some i =>
    let s1 := setSlot i { fwSlot s i with st := if ok then 1 else 2 } { s with mb := { s.mb with cwProg := none } }
    cwDone 3 (if ok then 0 else eIO) (fwLoadRes (fwSlot s i).img) s1

/-! ## The rows -/

/-- CHANNEL_OPEN_REQUEST. -/
def execChannelOpenRequest (ch : ChanNo) (s : State) : Host.Outcome State Fault Refusal := .next (openRequest ch.val s)

/-- CHANNEL_OPEN. -/
def execChannelOpen (ch : ChanNo) (s : State) : Host.Outcome State Fault Refusal := .next (channelOpen ch.val s)

/-- COMPLETION_WRITE. -/
def execCompletionWrite (ch : ChanNo) (s : State) : Host.Outcome State Fault Refusal := .next (completionWrite ch.val s)

/-- EVENT_DELIVER. -/
def execEventDeliver (ch : ChanNo) (s : State) : Host.Outcome State Fault Refusal := .next (eventDeliver ch.val s)

/-- LEASE_EXPIRY. -/
def execLeaseExpiry (lease : Fin 32) (s : State) : Host.Outcome State Fault Refusal :=
  .next (if leaseLeft s lease.val ≤ 0 then leaseEnd lrEXPIRED lease.val s else s)

/-- INFO. -/
def execInfo (c : CmdCall) (s : State) : Host.Outcome State Fault Refusal :=
  .next (mbRun ⟨0x0F10, 0x10, false, 0, 0, false, true⟩ runInfo c s)

/-- EXPERT_TOKEN_SET. -/
def execExpertTokenSet (c : CmdCall) (s : State) : Host.Outcome State Fault Refusal :=
  .next (mbRun ⟨0x0F12, 0x10, false, 16, 16, false, false⟩ runTokenSet c s)

/-- FW_WRITE. -/
def execFwWrite (c : CmdCall) (s : State) : Host.Outcome State Fault Refusal :=
  .next (mbRun ⟨0x0F13, 0x10, false, 20, 20, false, false⟩ runFwWrite c s)

/-- FW_ACTIVATE. -/
def execFwActivate (c : CmdCall) (s : State) : Host.Outcome State Fault Refusal :=
  .next (mbRun ⟨0x0F14, 0x10, false, 8, 8, false, false⟩ runFwActivate c s)

/-- EVENT_MASK. -/
def execEventMask (c : CmdCall) (s : State) : Host.Outcome State Fault Refusal :=
  .next (mbRun ⟨0x0F16, 0x16, false, 8, 8, false, true⟩ runEventMask c s)

/-- LEASE_OPEN. -/
def execLeaseOpen (c : CmdCall) (s : State) : Host.Outcome State Fault Refusal :=
  .next (mbRun ⟨0x0F90, 0x10, true, 8, 8, false, false⟩ runLeaseOpen c s)

/-- LEASE_CLOSE. -/
def execLeaseClose (c : CmdCall) (s : State) : Host.Outcome State Fault Refusal :=
  .next (mbRun ⟨0x0F91, 0x10, true, 8, 8, false, false⟩ runLeaseClose c s)

/-- LEASE_RENEW. -/
def execLeaseRenew (c : CmdCall) (s : State) : Host.Outcome State Fault Refusal :=
  .next (mbRun ⟨0x0F92, 0x14, true, 8, 8, false, false⟩ runLeaseRenew c s)

/-- CW_VERSION: GO with opcode 0001h. -/
def execCwVersion (s : State) : Host.Outcome State Fault Refusal := .next (cwVersion s)

/-- CW_STATUS: GO with opcode 0002h. -/
def execCwStatus (s : State) : Host.Outcome State Fault Refusal := .next (cwStatus s)

/-- FW_LOAD: GO with opcode 0003h. -/
def execFwLoad (sigOk : Bool) (check : ReadCheck) (addr : Nat) (s : State) : Host.Outcome State Fault Refusal :=
  .next (fwLoad sigOk check addr s)

end Sys2Proof.Machine
end

