-- ==== Sys2Proof/Machine/Settings.lean ====
section
/-! DEFINITION. Sensor settings (chapter 3): setting slots and their state machine, the service order on a two-wire block,
the compensation switch, applied records, and the setting commands. -/

namespace Sys2Proof.Machine

/-! ## Ports and slots -/


/-- Distance of slot `k`'s registers of port `p`. -/
def sso (p k : Nat) : Nat := pof p + k * 0x20

/-- STATE of a slot: 0 FREE, 1 ARMED, 2 SENDING, 3 WRITTEN. -/
def slotState (s : State) (p k : Nat) : Nat := fget s fSC_SLOT_CTL_STATE (sso p k)

/-- The slots of port `p` in a state. -/
def slotsIn (s : State) (p st : Nat) : List Nat := (List.range 8).filter (fun k => slotState s p k == st)

/-- The bits of a list of slots. -/
def slotMask (l : List Nat) : Nat := l.foldl (fun a k => a + 2 ^ k) 0

/-- Put a slot in a state, keeping SC_STAT. -/
def setSlotState (p k st : Nat) (s : State) : State :=
  let s1 := fset s fSC_SLOT_CTL_STATE st (sso p k)
  let f := fun (x : State) (fl : Fld) (n : Nat) => fset x fl (slotMask (slotsIn x p n)) (pof p)
  f (f (f s1 fSC_STAT_ARMED 1) fSC_STAT_SENDING 2) fSC_STAT_WRITTEN 3

/-- What a slot holds beside its registers. -/
def setSlotOf (s : State) (p k : Nat) : SetSlot := (portSt s p).slots.getD k ⟨0, none, 0, 0⟩

/-- Change what a slot holds beside its registers. -/
def updSlot (p k : Nat) (f : SetSlot → SetSlot) (s : State) : State :=
  updPort s p (fun x => { x with slots := upd x.slots k f })

/-- The frame most recently started. -/
def frameNow (s : State) (p : Nat) : Nat := rdn s (PP_FRAME_CNT + pof p)

/-- A frame of port `p` is open. -/
def frameOpen (s : State) (p : Nat) : Bool := fbit s fPP_STAT_FRAME_OPEN (pof p)


/-! ## Writes and estimates (R42) -/

/-- The bytes of a slot's write. -/
def slotWrite (s : State) (p k : Nat) : List Byte :=
  let n := min 64 (fget s fSC_SLOT_CTL_WLEN (sso p k))
  ((List.range 16).flatMap (fun w => leBytes 4 (rdn s (SC_WBUF + pof p + k * 0x40 + 4 * w)))).take n

/-- The transactions of a write, and whether it ends on a count byte above 63 or past its end. -/
def transactions (fuel : Nat) (l : List Byte) : List (List Byte) × Bool :=
  match fuel, l with
  | 0, _ => ([], false)
  | _, [] => ([], false)
  | k + 1, b :: t =>
    let n := b.toNat
    if n = 0 then ([], false)
    else if 63 < n ∨ t.length < n then ([], true)
    else
      let r := transactions k (t.drop n)
      (t.take n :: r.1, r.2)

/-- The transactions of slot `k`. -/
def slotTrans (s : State) (p k : Nat) : List (List Byte) := (transactions 64 (slotWrite s p k)).1

/-- The two-wire block of port `p`'s sensor. -/
def slotBus (s : State) (p : Nat) : Nat := fget s fSC_PROFILE_BUS (pof p)

/-- A bit period of two-wire block `b` in ns. -/
def bitPeriod (s : State) (b : Nat) : Nat :=
  match fget s fTW_CFG_SPEED (b * 0x1000) with
  | 1 => 2500
  | 2 => 1000
  | _ => 10000

/-- The estimated duration of a slot's transfer in ns. -/
def estimate (s : State) (p k : Nat) : Nat :=
  ((slotTrans s p k).map (fun t => 9 * (t.length + 1) + 2)).sum * bitPeriod s (slotBus s p) + 10000

/-- Two-wire block `b` is enabled as controller. -/
def twController (s : State) (b : Nat) : Bool := fbit s fTW_CFG_EN (b * 0x1000) && fbit s fTW_CFG_CTRL_EN (b * 0x1000)

/-- LAT of port `p`. -/
def slotLat (s : State) (p : Nat) : Nat := fget s fSC_PROFILE_LAT (pof p)

/-- The TB1 time at which the write window of the frame with the given FS closes. -/
def windowClose (s : State) (p fs : Nat) : Nat := add32 fs (fget s fSC_WINDOW_CLOSE (pof p) * 1000)

/-- A transfer of slot `k` that starts now fits the window of the frame now started. -/
def fitsNow (s : State) (p k : Nat) : Bool :=
  decide (0 ≤ sdiff (windowClose s p (portSt s p).fsStamp) (add32 (now s) (estimate s p k)))

/-- TARGET of slot `k`. -/
def slotTarget (s : State) (p k : Nat) : Nat := rdn s (SC_SLOT_TGT + sso p k)

/-! ## TARGET moves forward (R46) -/

/-- The third row of R46 for slot `k`. -/
def slotAdvance (p k : Nat) (s : State) : State :=
  let cur := frameNow s p
  let wf := sub32 (slotTarget s p k) (slotLat s p)
  let d := sdiff wf cur
  let live := (portSt s p).anyFs && fitsNow s p k
  if slotState s p k ≠ 1 ∨ slotLat s p = 0 ∨ 0 < d ∨ (d = 0 ∧ live) then s
  else
    let first := if live then cur else add32 cur 1
    let s1 := wrn s (SC_SLOT_TGT + sso p k) (add32 first (slotLat s p))
    let s2 := if fbit s fSC_SLOT_CTL_LATE (sso p k) then s1 else cnt s1 (SC_CNT_LATE + pof p)
    evt (fbset s2 fSC_SLOT_CTL_LATE true (sso p k)) fSC_EVT_LATE (pof p)

/-- The third row of R46 for every slot of a port. -/
def slotsAdvance (p : Nat) (s : State) : State := forEach (List.range 8) (slotAdvance p) s

/-! ## Applied records (R50) -/

/-- STATUS codes of applied records. -/
abbrev arAPPLIED : Nat := 0
abbrev arSUPERSEDED : Nat := 1
abbrev arFAILED : Nat := 2
abbrev arCANCELLED : Nat := 3

/-- The applied record of a slot. -/
def appliedBytes (s : State) (p k status frame fs : Nat) : List Byte :=
  let o := sso p k
  leBytes 2 (fget s fSC_SLOT_CTL_GEN o) ++ leBytes 1 p ++ leBytes 1 status ++
    leBytes 1 (fget s fSC_SLOT_CTL_LATE o + 2 * fget s fSC_SLOT_CTL_UNSURE o) ++
    leBytes 1 (fget s fSC_SLOT_CTL_RETRY_CNT o) ++ zeros 2 ++ leBytes 4 (rdn s (SC_SLOT_REQ + o)) ++ leBytes 4 frame ++
    leBytes 4 (setSlotOf s p k).unsure ++ leBytes 4 (rdn s (SC_SLOT_DONE + o)) ++ leBytes 4 fs ++ zeros 4

/-- Deliver an applied record to its addressee; without one it is lost. DESIGN CHOICE, log 101: the record of a slot that
Dennil arms itself, which has no report channel, is counted in MB_CNT_EVT_LOST too. -/
def sendApplied (rep : Option CmdCall) (bytes : List Byte) (s : State) : State :=
  match rep with
  | none => cnt s MB_CNT_EVT_LOST
  | some c => eventFor c evAPPLIED c.tag bytes s

/-- A slot returns to FREE with a record. DESIGN CHOICE, log 101: with VERIFY only APPLIED records wait for embedded data;
the others, to which no embedded data belongs, go out at once. -/
def slotEnd (p k status frame fs : Nat) (s : State) : State :=
  let b := appliedBytes s p k status frame fs
  let rep := (setSlotOf s p k).rep
  let s1 := setSlotState p k 0 s
  if status = arAPPLIED ∧ fbit s fSC_CTL_VERIFY (pof p) then
    updPort s1 p (fun x => { x with held := x.held ++ [⟨fget s fSC_SLOT_CTL_GEN (sso p k), b, rep⟩] })
  else sendApplied rep b s1

/-- Send the records that waited for embedded data. -/
def heldFlush (p : Nat) (s : State) : State :=
  forEach (portSt s p).held (fun h t => sendApplied h.rep h.bytes t) (updPort s p (fun x => { x with held := [] }))

/-- Two-wire block `b`. -/
def twSt (s : State) (b : Nat) : TwSt := s.tw[(Fin.ofNat 6 b)]

/-- Change two-wire block `b`. -/
def updTw (s : State) (b : Nat) (f : TwSt → TwSt) : State := { s with tw := s.tw.set (Fin.ofNat 6 b) (f (twSt s b)) }

/-- The two-wire block gives up the transfer of a slot that is cancelled: what stands on the bus stops after the current
byte (R46). -/
def twDrop (p k : Nat) (s : State) : State :=
  { s with tw := s.tw.map (fun t => if t.slot = some (p, k) then
      { t with
          slot := none, left := 0, slotRetries := 0, again := if t.again = .slot p k then .none else t.again,
          run := if t.run = .slot p k then .stopping else t.run } else t) }

/-- The bus after a stop of this block: not busy, and free once tBUF has passed (R291). -/
def twStop (b : Nat) (s : State) : State :=
  updTw (fbset s fTW_STAT_BUS_BUSY false (b * 0x1000)) b (fun x => { x with free := true, stopAt := some s.tick })

/-- The transfer of a slot has ended with its stop: the block is done with it. -/
def twRelease (p k : Nat) (s : State) : State :=
  forEach (List.range 6) (fun b t =>
    if (twSt t b).slot = some (p, k) then
      let on := (twSt t b).run == .slot p k
      let t1 := updTw t b (fun x => { x with
        slot := none, left := 0, slotRetries := 0, again := if x.again = .slot p k then .none else x.again,
        run := if on then .none else x.run })
      if on then twStop b (fbset t1 fTW_STAT_CTRL_ACTIVE false (b * 0x1000)) else t1
    else t) s

/-- CANCELLED. -/
def slotCancel (p k : Nat) (s : State) : State :=
  let s1 := evtCnt (twDrop p k s) fSC_EVT_CANCELLED SC_CNT_CANCEL (pof p)
  slotEnd p k arCANCELLED 0xFFFFFFFF 0 s1

/-- PP_CTL.EN is written 0 or the camera-head slot leaves ON. -/
def slotsCancel (p : Nat) (s : State) : State :=
  forEach (List.range 8) (fun k t => if slotState t p k = 0 then t else slotCancel p k t) s

/-- A channel closes: the records of its slots have no addressee from now on (R50). -/
def slotsOrphan (c : Nat) (s : State) : State :=
  let gone := fun (r : Option CmdCall) => match r with
    | some x => if x.origin = none ∧ x.chan.val = c then none else some x
    | none => none
  { s with ports := s.ports.map (fun x => { x with
      slots := x.slots.map (fun y => { y with rep := gone y.rep }), held := x.held.map (fun y => { y with rep := gone y.rep }) }) }

/-! ## Arming (R44, R54) -/

/-- Arm a FREE slot: generation, arming order, report channel. -/
def slotArm (p k : Nat) (rep : Option CmdCall) (s : State) : State :=
  if slotState s p k ≠ 0 then s
  else
    let o := sso p k
    let g := fget s fSC_GEN_NEXT (pof p)
    let s1 := fset s fSC_GEN_NEXT (if g = 0xFFFF then 1 else g + 1) (pof p)
    let s2 := fset (fset (fbset (fbset s1 fSC_SLOT_CTL_LATE false o) fSC_SLOT_CTL_UNSURE false o) fSC_SLOT_CTL_GEN g o)
      fSC_SLOT_CTL_RETRY_CNT 0 o
    let s3 := updSlot p k (fun _ => ⟨s.armCtr, rep, 0xFFFFFFFF, 0⟩) (wrn s2 (SC_SLOT_DONE + o) 0)
    slotsAdvance p (setSlotState p k 1 { s3 with armCtr := s.armCtr + 1 })

/-- The channel that holds the lease over function 03h of port `p`, as the addressee of records. -/
def leaseRep (s : State) (p : Nat) : Option CmdCall :=
  ((List.range 32).find? (fun i => leaseCovers s i 3 (some p))).map (fun i =>
    ⟨none, Fin.ofNat 4 (fget s fMB_LEASE_CHANNEL (i * 4)), 0, 0, 0, 0, 0, [], [], [], 0, 0⟩)

/-! ## Sending (R46, R47) -/

/-- Slot `k` of port `p` is ready. -/
def slotReady (s : State) (p k : Nat) : Bool :=
  let lat := slotLat s p
  slotState s p k == 1 && lat != 0 && fbit s fSC_CTL_EN (pof p) && !gangedOdd s p && frameOpen s p && (portSt s p).anyFs &&
    sub32 (slotTarget s p k) lat == frameNow s p &&
    reached s (add32 (portSt s p).fsStamp (fget s fSC_WINDOW_OPEN (pof p) * 1000)) && fitsNow s p k &&
    twController s (slotBus s p)

/-- A slot that is SENDING on block `b`. -/
def busSending (s : State) (b : Nat) : Bool :=
  (List.range 16).any (fun p => slotBus s p == b && slotsIn s p 2 != [])

/-- The ready slots of block `b` as (port, slot). -/
def readySlots (s : State) (b : Nat) : List (Nat × Nat) :=
  (List.range 16).flatMap (fun p => if slotBus s p = b then
    ((List.range 8).filter (slotReady s p)).map (fun k => (p, k)) else [])

/-- `x` goes before `y` in service order: the earlier window close, then the earlier arming. -/
def servedBefore (s : State) (x y : Nat × Nat) : Bool :=
  let d := sdiff (windowClose s x.1 (portSt s x.1).fsStamp) (windowClose s y.1 (portSt s y.1).fsStamp)
  decide (d < 0) || (d == 0 && decide ((setSlotOf s x.1 x.2).order < (setSlotOf s y.1 y.2).order))

/-- The first slot in service order. -/
def firstReady (s : State) (b : Nat) : Option (Nat × Nat) :=
  match readySlots s b with
  | [] => none
  | h :: t => some (t.foldl (fun a x => if servedBefore s x a then x else a) h)

/-- The first ready slot of block `b` starts its transfer; one without a transaction is WRITTEN at once. -/
def slotSend (b : Nat) (s : State) : State :=
  if busSending s b then s
  else match firstReady s b with
    | none => s
    | some (p, k) =>
      let n := (slotTrans s p k).length
      if n = 0 then setSlotState p k 3 s
      else
        let s1 := updSlot p k (fun x => { x with fs := (portSt s p).fsStamp }) s
        updTw (setSlotState p k 2 s1) b (fun t => { t with slot := some (p, k), left := n, slotRetries := 0 })

/-- Advance TARGET by one frame and arm the slot again. -/
def slotAgain (p k : Nat) (s : State) : State :=
  slotAdvance p k (setSlotState p k 1 (wrn s (SC_SLOT_TGT + sso p k) (slotTarget s p k + 1)))

/-- Every byte of a slot's write was acknowledged and its stop ends now. DESIGN CHOICE, log 101: a slot that becomes UNSURE
again counts again in SC_CNT_UNSURE, and its unsure frame is the latest one. -/
def settingDone (p k : Nat) (s : State) : State :=
  if slotState s p k ≠ 2 then s
  else
    let s1 := twRelease p k s
    if 0 ≤ sdiff (windowClose s p (setSlotOf s p k).fs) (now s) then
      setSlotState p k 3 (wrn s1 (SC_SLOT_DONE + sso p k) (now s))
    else
      let s2 := updSlot p k (fun x => { x with unsure := slotTarget s p k }) s1
      let s3 := evtCnt (fbset s2 fSC_SLOT_CTL_UNSURE true (sso p k)) fSC_EVT_UNSURE SC_CNT_UNSURE (pof p)
      slotAgain p k s3

/-- A slot's write ended by NAK, a timeout or lost arbitration. -/
def settingFail (p k : Nat) (s : State) : State :=
  if slotState s p k ≠ 2 then s
  else
    let s1 := twRelease p k s
    let n := fget s fSC_SLOT_CTL_RETRY_CNT (sso p k)
    if n < fget s fSC_CTL_RETRY (pof p) then slotAgain p k (fset s1 fSC_SLOT_CTL_RETRY_CNT (n + 1) (sso p k))
    else slotEnd p k arFAILED 0xFFFFFFFF 0 (evtCnt s1 fSC_EVT_FAILED SC_CNT_FAIL (pof p))

/-! ## The compensation switch (R48, R49) -/

/-- The slot of a list that was armed last. -/
def lastArmed (s : State) (p : Nat) (l : List Nat) : Option Nat :=
  match l with
  | [] => none
  | h :: t => some (t.foldl (fun a k => if (setSlotOf s p a).order < (setSlotOf s p k).order then k else a) h)

/-- At the FS of frame `f`: the slot armed last among those WRITTEN for `f` is switched in. -/
def compSwitch (p f fs : Nat) (s : State) : State :=
  let l := (slotsIn s p 3).filter (fun k => slotTarget s p k == f)
  match lastArmed s p l with
  | none => s
  | some w =>
    let o := sso p w
    let s1 := wrn (wrn (wrn s (SC_CMP_BLK01 + pof p) (rdn s (SC_SLOT_BLK01 + o))) (SC_CMP_BLK23 + pof p)
      (rdn s (SC_SLOT_BLK23 + o))) (SC_CMP_SCALE + pof p) (rdn s (SC_SLOT_SCALE + o))
    let s2 := fset s1 fSC_GEN_CUR (fget s fSC_SLOT_CTL_GEN o) (pof p)
    forEach l (fun k t =>
      if k = w then slotEnd p k arAPPLIED f fs (evt t fSC_EVT_APPLIED (pof p))
      else slotEnd p k arSUPERSEDED f fs (evtCnt t fSC_EVT_APPLIED SC_CNT_SUPER (pof p))) s2

/-- Dennil compares the exposure in the embedded data of the frame with the value written for the generation that the frame
carries. DESIGN CHOICE, log 101: bytes that embedded data shorter than VERIFY_OFS + 2 lack count as 0. -/
def embeddedCheck (p : Nat) (data : List Byte) (written : Nat) (s : State) : State :=
  if !fbit s fSC_CTL_VERIFY (pof p) || !dennilUp s then s
  else
    let g := fget s fSC_GEN_CUR (pof p)
    if u16At data (fget s fSC_PROFILE_VERIFY_OFS (pof p)) = written then heldFlush p s
    else
      let mark := fun (h : HeldRec) =>
        if h.gen = g then { h with bytes := h.bytes.set 4 (BitVec.ofNat 8 (byteAt h.bytes 4 % 4 + 4)) } else h
      let s1 := updPort s p (fun x => { x with held := x.held.map mark })
      heldFlush p (evtCnt s1 fSC_EVT_MISMATCH SC_CNT_MISMATCH (pof p))

/-! ## Writes of the SC block (R45, R54) -/

/-- A write of SC_SLOT_CTL: the fields of a FREE slot, then STATE. -/
def slotCtl (p k v : Nat) (rep : Option CmdCall) (s : State) : State :=
  let st := slotState s p k
  if st = 0 then
    let s1 := fset s fSC_SLOT_CTL_WLEN (bits v 22 16) (sso p k)
    if bits v 31 29 = 1 then slotArm p k rep s1 else s1
  else if st = 1 ∧ bits v 31 29 = 0 then slotCancel p k s
  else s

/-- A write of one word of the SC block; `rep` addresses the record of a slot that it arms. -/
def scPut (a v : Nat) (rep : Option CmdCall) (s : State) : State :=
  let p := (a - 0x100000) / 0x10000
  let o := a % 0x10000 - 0x1000
  if o = 0xC then
    let s1 := fset s fSC_GEN_NEXT (v / 65536) (pof p)
    if fbit s fPP_CTL_EN (pof (leadPort s p)) then s1 else fset s1 fSC_GEN_CUR v (pof p)
  else if 0x100 ≤ o ∧ o < 0x200 then
    let k := (o - 0x100) / 0x20
    if o % 0x20 = 4 then slotCtl p k v rep s
    else if slotState s p k = 0 then putWord a v s
    else s
  else if 0x800 ≤ o ∧ o < 0xA00 then (if slotState s p ((o - 0x800) / 0x40) = 0 then putWord a v s else s)
  else putWord a v s

/-! ## The rows -/

/-- SLOT_ARM: a write of STATE = 001b. -/
def execSlotArm (ag : Agent) (port : PortNo) (slot : Fin 8) (s : State) : Host.Outcome State Fault Refusal :=
  .next (gated ag 0x03 (some port.val) (slotState s port.val slot.val == 0)
    (slotArm port.val slot.val (if ag = .host then leaseRep s port.val else none)) s)

/-- SLOT_CANCEL: a write of STATE = FREE. -/
def execSlotCancel (ag : Agent) (port : PortNo) (slot : Fin 8) (s : State) : Host.Outcome State Fault Refusal :=
  .next (gated ag 0x03 (some port.val) (slotState s port.val slot.val == 1)
    (fun t => if slotState t port.val slot.val = 1 then slotCancel port.val slot.val t else t) s)

/-- SLOT_SEND_START on the two-wire block of a sensor bus. -/
def execSlotSendStart (bus : Fin 4) (s : State) : Host.Outcome State Fault Refusal := .next (slotSend bus.val s)

/-- SETTING_WRITE_DONE. -/
def execSettingWriteDone (port : PortNo) (slot : Fin 8) (s : State) : Host.Outcome State Fault Refusal :=
  .next (settingDone port.val slot.val s)

/-- SETTING_WRITE_FAIL. -/
def execSettingWriteFail (port : PortNo) (slot : Fin 8) (s : State) : Host.Outcome State Fault Refusal :=
  .next (settingFail port.val slot.val s)

/-- EMBEDDED_DATA_CHECK. -/
def execEmbeddedDataCheck (port : PortNo) (data : List Byte) (written : BitVec 16) (s : State) :
    Host.Outcome State Fault Refusal :=
  .next (embeddedCheck port.val data written.toNat s)

/-- WRITE_WINDOW_CLOSE. -/
def execWriteWindowClose (port : PortNo) (s : State) : Host.Outcome State Fault Refusal := .next (slotsAdvance port.val s)

/-! ## Commands (R52, R53) -/

/-- Port `p` is enabled and in ON. -/
def portRuns (s : State) (p : Nat) : Bool :=
  fbit s fPP_CTL_EN (pof p) && fget s fPP_SLOT_STAT_STATE (pof p) == 3 && !gangedOdd s p

/-- The requested frame: REL counts from the frame now open. -/
def requestFrame (c : CmdCall) (s : State) : Nat :=
  if bit (pb c 1) 0 then add32 (frameNow s (pb c 0)) (pd c 4) else pd c 4

/-- Arm the lowest FREE slot of a port with a write and a compensation set. -/
def armRequest (c : CmdCall) (write : List Byte) (blk01 blk23 scale : Nat) (s : State) : State × CmdRes :=
  let p := pb c 0
  if 16 ≤ p then (s, .refuse eRANGE 0)
  else if !portRuns s p then (s, .refuse eSTATE 0)
  else match slotsIn s p 0 with
    | [] => (s, .refuse eBUSY 0)
    | k :: _ =>
      let f := requestFrame c s
      if 2 ^ 20 < sdiff f (frameNow s p) then (s, .refuse eRANGE 4)
      else
        let o := sso p k
        let s1 := forEach (List.range 16) (fun w t =>
          wrn t (SC_WBUF + pof p + k * 0x40 + 4 * w) (u32At (fit 64 write) (4 * w))) s
        let s2 := wrn (wrn (wrn s1 (SC_SLOT_BLK01 + o) blk01) (SC_SLOT_BLK23 + o) blk23) (SC_SLOT_SCALE + o) scale
        let s3 := fset (wrn (wrn s2 (SC_SLOT_TGT + o) f) (SC_SLOT_REQ + o) f) fSC_SLOT_CTL_WLEN write.length o
        let s4 := slotArm p k (some { c with payload := [], data := [], nums := [] }) s3
        (s4, .ok (leBytes 2 (fget s4 fSC_SLOT_CTL_GEN o) ++ leBytes 1 (fget s4 fSC_SLOT_CTL_LATE o) ++ zeros 1 ++
          leBytes 4 (slotTarget s4 p k)))

/-- NORM for an exposure and gains against the reference exposure and gain of the profile (R52): u4.12, to nearest, held
between 0001h and FFFFh. `ref` is reference exposure × reference gain with 20 fraction bits. DESIGN CHOICE, log 101: a product
of 0 gives FFFFh. -/
def normFor (ref exp again dgain : Nat) : Nat :=
  let den := exp * again * dgain
  if den = 0 then 0xFFFF else max 1 (min 0xFFFF ((2 * ref * 4096 + den) / (2 * den)))

/-- SETTING_FOR_FRAME: `data` is the write that Dennil builds from the sensor profile; `nums` its reference exposure × gain
and the four black levels of its table. -/
def runSettingForFrame (c : CmdCall) (s : State) : State × CmdRes :=
  let n := fun i => (numAt c i).toNat
  let norm := normFor (n 0) (pd c 8) (pw c 12) (pw c 14)
  armRequest c (c.data.take 64) (n 1 % 65536 + n 2 * 65536) (n 3 % 65536 + n 4 * 65536) (norm + 0x1000 * 65536) s

/-- SETTING_FOR_FRAME. -/
def execSettingForFrame (c : CmdCall) (s : State) : Host.Outcome State Fault Refusal :=
  .next (mbRun ⟨0x0310, 0x10, false, 16, 16, true, true⟩ runSettingForFrame c s)

/-- SETTING_RAW_FOR_FRAME. DESIGN CHOICE, log 101: R53 orders its refusals in no way; the payload is checked before the
port and its slots. -/
def runSettingRawForFrame (c : CmdCall) (s : State) : State × CmdRes :=
  let n := pb c 20
  let w := (c.payload.drop 24).take n
  if 64 < n ∨ c.payload.length < 24 + n then (s, .refuse eLENGTH 0)
  else if (transactions 64 w).2 then (s, .refuse eRANGE 24)
  else armRequest c w (pd c 8) (pd c 12) (pd c 16) s

/-- SETTING_RAW_FOR_FRAME. -/
def execSettingRawForFrame (c : CmdCall) (s : State) : Host.Outcome State Fault Refusal :=
  .next (mbRun ⟨0x0390, 0x10, true, 24, 88, true, true⟩ runSettingRawForFrame c s)

/-- SETTING_CANCEL. -/
def runSettingCancel (c : CmdCall) (s : State) : State × CmdRes :=
  let p := pb c 0
  if 16 ≤ p then (s, .refuse eRANGE 0)
  else match (List.range 8).find? (fun k => slotState s p k != 0 && fget s fSC_SLOT_CTL_GEN (sso p k) == pw c 2) with
    | none => (s, .refuse eRANGE 2)
    | some k => if slotState s p k = 1 then (slotCancel p k s, .ok []) else (s, .refuse eSTATE 0)

/-- SETTING_CANCEL. -/
def execSettingCancel (c : CmdCall) (s : State) : Host.Outcome State Fault Refusal :=
  .next (mbRun ⟨0x0311, 0x10, false, 8, 8, true, true⟩ runSettingCancel c s)

/-- LATENCY_PROFILE_SET; VERIFY and VERIFY_OFS need HIV 1.3. -/
def runLatencyProfileSet (c : CmdCall) (s : State) : State × CmdRes :=
  let p := pb c 0
  if 16 ≤ p then (s, .refuse eRANGE 0)
  else if (slotsIn s p 0).length ≠ 8 then (s, .refuse eSTATE 0)
  else if bits (pd c 4) 31 30 = 0 ∨ pd c 8 / 65536 ≤ pd c 8 % 65536 ∨ 7 < pb c 12 then (s, .refuse eRANGE 0)
  else
    let s1 := putWord (SC_PROFILE + pof p) (pd c 4) s
    let s2 := if c.hiv < 0x13 then fset s1 fSC_PROFILE_VERIFY_OFS (fget s fSC_PROFILE_VERIFY_OFS (pof p)) (pof p)
      else fset s1 fSC_CTL_VERIFY (pb c 1 % 2) (pof p)
    (fset (wrn s2 (SC_WINDOW + pof p) (pd c 8)) fSC_CTL_RETRY (pb c 12) (pof p), .ok [])

/-- LATENCY_PROFILE_SET. -/
def execLatencyProfileSet (c : CmdCall) (s : State) : Host.Outcome State Fault Refusal :=
  .next (mbRun ⟨0x0391, 0x10, true, 16, 16, true, true⟩ runLatencyProfileSet c s)

end Sys2Proof.Machine
end

