-- ==== Sys2Proof/Machine/TwoWire.lean ====
section
/-! DEFINITION. The two-wire blocks (chapter 16): controller transactions, arbitration, the target with its command table and
RAM, PEC, timeouts, alerts, wake-up, and the two-wire commands. -/

namespace Sys2Proof.Machine

/-! ## Helpers -/


/-- STATUS codes of TW_CRES. -/
abbrev twOK : Nat := 0
abbrev twNAK_ADDR : Nat := 1
abbrev twNAK_DATA : Nat := 2
abbrev twARB_LOST : Nat := 3
abbrev twARB_SR : Nat := 4
abbrev twSCL_TMO : Nat := 5
abbrev twSDA_TMO : Nat := 6
abbrev twPEC_ERR : Nat := 7
abbrev twABORTED : Nat := 8

/-- One byte of the CRC-8 of SMBus: polynomial 07h, no reflection (R303). -/
def crc8Byte (crc b : Nat) : Nat :=
  (List.range 8).foldl (fun c _ => if 128 ≤ c then (c * 2 % 256).xor 7 else c * 2) (crc.xor b)

/-- The PEC over a transfer's bytes. -/
def pec (l : List Nat) : Nat := l.foldl crc8Byte 0

/-- Byte `i` of a block's target RAM, which wraps at 2 KiB. -/
def twRam (s : State) (b i : Nat) : Nat :=
  rdn s (TW_TGT_RAM + two b + i % 2048 / 4 * 4) / 256 ^ (i % 4) % 256

/-- Set byte `i` of a block's target RAM. -/
def twRamPut (b i v : Nat) (s : State) : State :=
  let a := TW_TGT_RAM + two b + i % 2048 / 4 * 4
  wrn s a (setBits (rdn s a) (i % 4 * 8 + 7) (i % 4 * 8) v)

/-- The table entry of a command code. -/
def twEntry (s : State) (b code : Nat) : Nat := rdn s (TW_TGT_CMD + two b + code * 4)

/-- TYPE, PEC, LEN and OFS of a table entry. -/
def enType (e : Nat) : Nat := bits e 31 28
def enPec (e : Nat) : Bool := bit e 27
def enLen (e : Nat) : Nat := bits e 23 16
def enOfs (e : Nat) : Nat := bits e 10 0

/-- Block `b` acts as target. -/
def twTarget (s : State) (b : Nat) : Bool := fbit s fTW_CFG_EN (two b) && fbit s fTW_CFG_TGT_EN (two b)

/-- General call and reserved addresses (R297). -/
def twReserved (a : Nat) : Bool := decide (a < 8 ∨ 0x78 ≤ a)

/-- An address that the block answers to, and whether it is A1. -/
def twOwn (s : State) (b a : Nat) : Option Bool :=
  if twReserved a then none
  else if fbit s fTW_ADDR_A0_EN (two b) ∧ fget s fTW_ADDR_A0 (two b) = a then some false
  else if fbit s fTW_ADDR_A1_EN (two b) ∧ fget s fTW_ADDR_A1 (two b) = a then some true
  else none

/-! ## Controller -/

/-- A TW_CMD transaction ends: TW_CRES, BUSY, DONE, and the TW_XFER that waits for it. -/
def twCmdEnd (b status wdone rdone : Nat) (data : List Byte) (s : State) : State :=
  let o := two b
  let t := twSt s b
  let s1 := fset (fset (fset (fset s fTW_CRES_STATUS status o) fTW_CRES_WDONE wdone o) fTW_CRES_RDONE rdone o)
    fTW_CRES_RETRIES t.retries o
  let s2 := evt (fbset s1 fTW_CMD_BUSY false o) fTW_EVT_DONE o
  let s3 := updTw s2 b (fun x => { x with retries := 0, again := if x.again = .cmd then .none else x.again })
  forEach ((deferredOf s3 0x1090).filter (fun x => pb x.2.call 0 == b)) (fun x u =>
    endD x 0 0 ([status, wdone, rdone, t.retries, fget u fTW_ARB_BYTE o, fget u fTW_ARB_BIT o, 0, 0].map (BitVec.ofNat 8) ++
      data.take 40) u) s3

/-- GO: a pending transaction, or at once ABORTED for a WLEN above 64 (R293). -/
def twGo (b : Nat) (s : State) : State :=
  if fbit s fTW_CMD_BUSY (two b) then s
  else
    let s1 := updTw s b (fun x => { x with retries := 0 })
    if 64 < fget s fTW_CMD_WLEN (two b) then twCmdEnd b twABORTED 0 0 [] s1
    else fbset s1 fTW_CMD_BUSY true (two b)

/-- A transaction that the block has ready: the one that lost arbitration starts again; else the setting scheduler's goes
before TW_CMD (R293, R294). -/
def twReady (s : State) (b : Nat) : TwRun :=
  if (twSt s b).again ≠ .none then (twSt s b).again
  else match (twSt s b).slot with
    | some (p, k) => .slot p k
    | none => if fbit s fTW_CMD_BUSY (two b) then .cmd else .none

/-- The shortest bus-free time tBUF of R309 in ticks of 2 ns. -/
def tbufTicks (s : State) (b : Nat) : Nat :=
  match fget s fTW_CFG_SPEED (two b) with
  | 1 => 650
  | 2 => 250
  | _ => 2350

/-- The bus is free (R291): no transfer on it, and tBUF has passed since the last stop. -/
def twFree (s : State) (b : Nat) : Bool :=
  (twSt s b).free && (match (twSt s b).stopAt with
    | some k => decide (tbufTicks s b ≤ s.tick - k)
    | none => true)

/-- The first `n` bytes of TW_TXBUF. -/
def twTx (s : State) (b n : Nat) : List Nat :=
  (List.range n).map (fun i => rdn s (TW_TXBUF + two b + i / 4 * 4) / 256 ^ (i % 4) % 256)

/-- What a transaction puts on the bus (R292): the bytes written from the address byte on, with the PEC byte of a write
without a read, and the read address with the most bytes that follow it; a counted read has its count byte first. -/
def twWire (s : State) (b : Nat) (r : TwRun) : List Nat × Option (Nat × Nat) :=
  let o := two b
  match r with
  | .slot p k =>
    let l := slotTrans s p k
    (2 * fget s fSC_PROFILE_ADDR (pof p) :: ((l.drop (l.length - (twSt s b).left)).headD []).map BitVec.toNat, none)
  | _ =>
    let a := fget s fTW_CMD_ADDR o
    let n := fget s fTW_CMD_WLEN o
    let m := fget s fTW_CMD_RLEN o
    let w := 2 * a :: twTx s b n
    let read := if m = 0 then none else some (2 * a + 1, if fbit s fTW_CMD_COUNTED o then m + 1 else m)
    if m = 0 then (if n ≠ 0 ∧ fbit s fTW_CMD_PEC o then w ++ [pec w] else w, none)
    else (if n = 0 then [] else w, read)

/-- A transaction starts on a free bus (R291, R292); at the boundary a slot that is ready begins its transfer before a
pending TW_CMD (R293). -/
def twStart (b : Nat) (s0 : State) : State :=
  if !twController s0 b || !twFree s0 b || (twSt s0 b).run != .none then s0
  else
    let s := if (twSt s0 b).again = .none ∧ b < 4 then slotSend b s0 else s0
    let r := twReady s b
    if r = .none then s
    else
      let wire := twWire s b r
      let s1 := updTw s b (fun x => { x with run := r, again := .none, free := false })
      emit (fbset (fbset s1 fTW_STAT_CTRL_ACTIVE true (two b)) fTW_STAT_BUS_BUSY true (two b))
        (.twCtrl b (wire.1.map (BitVec.ofNat 8)) (wire.2.map (fun x => (BitVec.ofNat 8 x.1, x.2))))

/-- The transaction on the bus ends; `status` is not a loss that is retried. -/
def twFinish (b status wdone rdone : Nat) (data : List Byte) (s : State) : State :=
  let t := twSt s b
  let s1 := updTw (fbset s fTW_STAT_CTRL_ACTIVE false (two b)) b (fun x => { x with run := .none })
  match t.run with
  | .none => s
  | .stopping => s1
  | .cmd => twCmdEnd b status wdone rdone data s1
  | .slot p k =>
    let s2 := updTw s1 b (fun x => { x with slotRetries := 0 })
    if status ≠ twOK then settingFail p k s2
    else if t.left ≤ 1 then settingDone p k s2
    else updTw s2 b (fun x => { x with left := t.left - 1 })

/-- The retries that the transaction on the bus has used. -/
def twRetries (t : TwSt) : Nat := match t.run with | .slot _ _ => t.slotRetries | _ => t.retries

/-- Arbitration lost at a bit (R294): recorded, and retried while RETRY allows; what was stopping has ended. The written bytes
before the one at which it was lost were acknowledged. -/
def twArbLoss (b byte bitNo : Nat) (s : State) : State :=
  let o := two b
  let t := twSt s b
  if t.run = .none then s
  else
    let s1 := fset (fset (fbset s fTW_ARB_VALID true o) fTW_ARB_BYTE byte o) fTW_ARB_BIT bitNo o
    let s2 := evtCnt s1 fTW_EVT_ARB_LOST TW_CNT_ARB o
    if t.run ≠ .stopping ∧ twRetries t < fget s fTW_CFG_RETRY o then
      updTw (fbset s2 fTW_STAT_CTRL_ACTIVE false o) b (fun x => { x with
        run := .none, again := x.run, retries := if x.run = .cmd then x.retries + 1 else x.retries,
        slotRetries := if x.run = .cmd then x.slotRetries else x.slotRetries + 1 })
    else twFinish b twARB_LOST (min (byte - 1) (fget s fTW_CMD_WLEN o)) 0 [] s2

/-- Store the bytes read, first byte lowest; bytes beyond them keep their value. -/
def twRx (b : Nat) (l : List Byte) (s : State) : State :=
  forEach ((l.take 256).zipIdx) (fun x t =>
    let a := TW_RXBUF + two b + x.2 / 4 * 4
    wrn t a (setBits (rdn t a) (x.2 % 4 * 8 + 7) (x.2 % 4 * 8) x.1.toNat)) s

/-- How a controller transaction ended on the wire: all acknowledged with the bytes read (the PEC byte last where one was
read) and whether the PEC matched, an address or data byte not acknowledged, arbitration lost at a byte and bit, or at a
stop or repeated start. -/
inductive TwWireEnd where
  | done (data : List Byte) (pecRead : Option Nat)
  | nakAddr
  | nakData
  | arbLost (byte bitNo : Nat)
  | arbSr
  deriving DecidableEq, Repr

/-- The bytes of the running transaction that a PEC covers before those read: the write part with its address byte, and the
read address. -/
def twPecHead (s : State) (b : Nat) : List Nat :=
  let a := fget s fTW_CMD_ADDR (two b)
  let n := fget s fTW_CMD_WLEN (two b)
  (if n = 0 then [] else 2 * a :: twTx s b n) ++ [2 * a + 1]

/-- The bytes that a read takes (R292): RLEN of them, or a count byte and as many as it says, RLEN capping them. -/
def twReadLen (s : State) (b : Nat) (data : List Byte) : Nat :=
  let m := fget s fTW_CMD_RLEN (two b)
  if m = 0 then 0 else if fbit s fTW_CMD_COUNTED (two b) then 1 + min (byteAt data 0) m else m

/-- The running transaction ends OK after `seen` was read, with the PEC byte that followed it where PEC is used; every
byte of the write was acknowledged. -/
def twDone (b : Nat) (seen : List Byte) (pecByte : Option Nat) (s : State) : State :=
  if (twSt s b).run ≠ .cmd then twFinish b twOK 0 0 [] s
  else
    let data := seen.take (twReadLen s b seen)
    let wdone := fget s fTW_CMD_WLEN (two b)
    let s1 := twRx b data s
    let full := decide (255 < data.length)
    let r := if full then freeVal s1 else data.length
    let s2 := if full then useFree s1 else s1
    let ok := match pecByte with
      | none => true
      | some x => !fbit s fTW_CMD_PEC (two b) || data == [] ||
          pec (twPecHead s b ++ data.map BitVec.toNat) == x % 256
    if ok then twFinish b twOK wdone r data s2
    else twFinish b twPEC_ERR wdone r data (evtCnt s2 fTW_EVT_PEC_ERR TW_CNT_PEC_ERR (two b))

/-- TW_TRANSACTION_END; a transaction without an acknowledge has at most its written bytes acknowledged. -/
def twEnd (b acked : Nat) (e : TwWireEnd) (s : State) : State :=
  let wdone := min acked (fget s fTW_CMD_WLEN (two b))
  if (twSt s b).run = .none then s
  else if (twSt s b).run = .stopping then twFinish b twOK 0 0 [] (twStop b s)
  else match e with
    | .done data p => twDone b data p (twStop b s)
    | .nakAddr => twFinish b twNAK_ADDR 0 0 [] (cnt (twStop b s) (TW_CNT_NAK + two b))
    | .nakData => twFinish b twNAK_DATA wdone 0 [] (cnt (twStop b s) (TW_CNT_NAK + two b))
    | .arbLost byte bitNo => twArbLoss b byte bitNo s
    | .arbSr => twFinish b twARB_SR wdone 0 [] (evtCnt s fTW_EVT_ARB_SR TW_CNT_ARB_SR (two b))

/-! ## Target -/

/-- How the write part of a target command ended: a stop, a repeated start toward a read or a write, a stop or start off a
byte boundary, or a repeated start where an acknowledge was due. -/
inductive TwClose where
  | stop | rsRead | rsWrite | misplaced | rsInAck
  deriving DecidableEq, Repr

/-- A discarded target command (R300). -/
def twDiscard (b : Nat) (s : State) : State := evtCnt s fTW_EVT_TGT_DISCARD TW_CNT_TGT_DISCARD (two b)

/-- A record of the receive queue (R300). -/
def twRecord (code : Nat) (data : List Byte) (pecOk quick a1 : Bool) : List Byte :=
  let b := fun (x : Bool) (w : Nat) => if x then w else 0
  leBytes 4 (code + data.length * 256 + b pecOk 65536 + b quick 131072 + b a1 262144) ++ data

/-- Commit a record (R300). -/
def twCommit (b : Nat) (rec : List Byte) (s : State) : State := evt (quWrite s (48 + b) rec) fTW_EVT_TGT_RX (two b)

/-- A table entry allows a read (R298). -/
def enReads (e : Nat) : Bool :=
  let ty := enType e
  ty == 3 || ty == 4 || ty == 6 || ty == 7

/-- The data that the table allows after the command code, and what follows them; none when a byte is not acknowledged or
the data are short (R298). -/
def twBody (e : Nat) (toRead : Bool) (l : List Byte) : Option (List Byte × List Byte) :=
  let ty := enType e
  let fixed := fun (n : Nat) => if l.length < n then none else some (l.take n, l.drop n)
  if toRead then (if enReads e ∧ l = [] then some ([], []) else none)
  else if ty = 1 ∨ ty = 3 ∨ ty = 6 then fixed 0
  else if ty = 2 ∨ ty = 4 then (if 1 ≤ enLen e ∧ enLen e ≤ 8 then fixed (enLen e) else none)
  else if ty = 5 ∨ ty = 7 then
    match l with
    | [] => none
    | n :: t => if n.toNat = 0 ∨ t.length < n.toNat then none else some (t.take n.toNat, t.drop n.toNat)
  else none

/-- A write to an own address whose address byte was acknowledged. -/
def twWrite (b a : Nat) (a1 : Bool) (l : List Byte) (cl : TwClose) (s : State) : State :=
  if cl = .rsInAck then twDiscard b (fbset s fTW_STAT_RS_IN_ACK true (two b))
  else if cl = .misplaced then twDiscard b s
  else match l with
    | [] => twCommit b (twRecord 0 [] false true a1) s
    | code :: rest =>
      let e := twEntry s b code.toNat
      match twBody e (cl == .rsRead) rest with
      | none =>
        let s1 := twDiscard b s
        if cl = .rsRead then updTw s1 b (fun x => { x with sampled := some (code.toNat, e) }) else s1
      | some (data, []) =>
        if enPec e ∧ cl ≠ .rsRead then twDiscard b s
        else
          let s1 := twCommit b (twRecord code.toNat data false false a1) s
          if cl = .rsRead then updTw s1 b (fun x => { x with sampled := some (code.toNat, e) }) else s1
      | some (data, [p]) =>
        if pec (2 * a :: l.dropLast.map BitVec.toNat) = p.toNat then
          twCommit b (twRecord code.toNat data true false a1) s
        else twDiscard b (evtCnt s fTW_EVT_PEC_ERR TW_CNT_PEC_ERR (two b))
      | some _ => twDiscard b s

/-- The transaction of this block lost arbitration in an address byte to its own address (R296). -/
def twRoleSwitch (b : Nat) (lost : Option (Fin 8)) (s : State) : State :=
  match lost with
  | none => s
  | some i => if (twSt s b).run = .none then s else twArbLoss b 0 i.val (evt s fTW_EVT_ROLE_SW (two b))

/-- TW_TARGET_COMMIT. -/
def twTargetWrite (b a : Nat) (l : List Byte) (cl : TwClose) (lost : Option (Fin 8)) (s : State) : State :=
  if !twTarget s b || s.rs.asleep then s
  else match twOwn s b a with
    | none => s
    | some a1 =>
      let s1 := updTw (twRoleSwitch b lost s) b (fun x => { x with sampled := none })
      if quRoom s1 (48 + b) 264 then twWrite b a a1 l cl s1
      else evtCnt s1 fTW_EVT_TGT_BUSY TW_CNT_TGT_BUSY (two b)

/-- The data of a read: Receive Byte, or the response of the sampled entry (R298, R301). -/
def twReadData (s : State) (b : Nat) : List Nat :=
  match (twSt s b).sampled with
  | none => [fget s fTW_TGT_RECV_V (two b)]
  | some (_, e) =>
    let n := if enType e = 6 ∨ enType e = 7 then 1 + twRam s b (enOfs e) else enLen e
    (List.range n).map (fun i => twRam s b (enOfs e + i))

/-- What the PEC of a read covers before the data. -/
def twReadHead (s : State) (b a : Nat) : List Nat :=
  match (twSt s b).sampled with
  | none => [2 * a + 1]
  | some (code, _) => [2 * a, code, 2 * a + 1]

/-- The target acknowledges its address with read: Receive Byte always, else where the entry sampled allows a read (R299). -/
def twReadAcked (s : State) (b : Nat) : Bool :=
  match (twSt s b).sampled with
  | none => true
  | some (_, e) => enReads e

/-- TW_TARGET_READ: a read of an own address, or of the Alert Response Address; `n` bytes are clocked; `win` says that this
block's bytes stood against the others that answered an alert. A read that is not acknowledged changes nothing more. -/
def twTargetRead (b a n : Nat) (win : Bool) (lost : Option (Fin 8)) (s : State) : State :=
  let o := two b
  if !twTarget s b || s.rs.asleep then s
  else if a = 0x0C then
    if fbit s fTW_ALERT_REQ o && fbit s fTW_CFG_ARA_EN o then
      let s1 := emit (twRoleSwitch b lost s) (.twSend b [BitVec.ofNat 8 (2 * fget s fTW_ADDR_A0 o)])
      if win then emit (evt (fbset s1 fTW_ALERT_REQ false o) fTW_EVT_ALERT_WON o) (.pin "TW_ALERT_N" b true) else s1
    else s
  else match twOwn s b a with
    | none => s
    | some _ =>
      if !twReadAcked s b then updTw s b (fun x => { x with sampled := none })
      else
      let s1 := twRoleSwitch b lost s
      let data := twReadData s b
      let all := data ++ [pec (twReadHead s b a ++ data)]
      let out := (all ++ List.replicate (n - all.length) 0xFF).take n
      let s2 := emit (updTw s1 b (fun x => { x with sampled := none })) (.twSend b (out.map (BitVec.ofNat 8)))
      if all.length < n then evt s2 fTW_EVT_TX_UNDER o else s2

/-! ## Timeouts, alerts, wake-up -/

/-- TW_SCL_TIMEOUT; `tgt` says that a target command was in progress. How many bytes of a controller transaction were
acknowledged or read before the clock stopped is the wire's: two free values within WLEN and RLEN (log 86). -/
def twSclTimeout (b : Nat) (tgt : Bool) (s : State) : State :=
  let o := two b
  if !fbit s fTW_CFG_EN o || !fbit s fTW_CFG_SMB_TMO o then s
  else
    let s1 := updTw (evtCnt s fTW_EVT_SCL_TMO TW_CNT_TMO o) b (fun x => { x with free := false, stopAt := none, sampled := none })
    let s2 := if tgt then twDiscard b s1 else s1
    if (twSt s b).run ≠ .cmd then twFinish b twSCL_TMO 0 0 [] s2
    else
      twFinish b twSCL_TMO (freeVal s2 % (fget s fTW_CMD_WLEN o + 1)) (freeVal (useFree s2) % (fget s fTW_CMD_RLEN o + 1)) []
        (useFree (useFree s2))

/-- End a transaction that waits for a free bus. -/
def twWaiting (b status : Nat) (s : State) : State :=
  match twReady s b with
  | .none => s
  | .cmd => twCmdEnd b status 0 0 [] s
  | .stopping => s
  | .slot p k => settingFail p k s

/-- TW_SDA_TIMEOUT; `high` says that SDA is high after the recovery pulses. -/
def twSdaTimeout (b : Nat) (high : Bool) (s : State) : State :=
  let o := two b
  if !fbit s fTW_CFG_EN o || fget s fTW_TMO_SDA_MS o = 0 || (twSt s b).run != .none then s
  else
    let s1 := updTw (evtCnt s fTW_EVT_SDA_TMO TW_CNT_TMO o) b (fun x => { x with free := false, stopAt := none })
    if fbit s fTW_CFG_RECOVER_EN o && fbit s fTW_CFG_CTRL_EN o then
      if high then twStop b (evt s1 fTW_EVT_RECOVERED o) else twWaiting b twSDA_TMO s1
    else s1


/-- An own address with WAKE set is seen in sleep. -/
def twWake (b : Nat) (a1 : Bool) (s : State) : State :=
  let o := two b
  let armed := if a1 then fbit s fTW_ADDR_A1_EN o && fbit s fTW_ADDR_A1_WAKE o
    else fbit s fTW_ADDR_A0_EN o && fbit s fTW_ADDR_A0_WAKE o
  if s.rs.asleep && armed then evt { s with rs := { s.rs with wakeReq := true } } fTW_EVT_WAKE o else s

/-- A start or stop condition of another device; on a bus that is not busy, both lines have been high for IDLE (R291). -/
def twCondition (b : Nat) (start : Bool) (s : State) : State :=
  if !fbit s fTW_CFG_EN (two b) || (twSt s b).run != .none then s
  else if start then updTw (fbset s fTW_STAT_BUS_BUSY true (two b)) b (fun x => { x with free := false })
  else if fbit s fTW_STAT_BUS_BUSY (two b) then twStop b s
  else updTw s b (fun x => { x with free := true })

/-! ## Register writes -/

/-- A write of one word of the TW block. -/
def twPut (a v : Nat) (s : State) : State :=
  let b := (a - 0x70000) / 0x1000
  let o := a % 0x1000
  if o = 0 then
    let en := fbit s fTW_CFG_EN (two b)
    let s1 := if en then s else putWord a v s
    let s2 := fbset s1 fTW_CFG_EN (bit v 31) (two b)
    if bit v 31 && !en then updTw s2 b (fun x => { x with free := false, stopAt := none }) else s2
  else if o = 0xC then
    let s1 := putWord a (v % 2 ^ 30) s
    if bit v 31 then twGo b s1 else s1
  else if o = 0x1C then twAlertReq b (bit v 31) s
  else putWord a v s

/-! ## The rows -/

/-- TW_COMMAND_GO: a write of TW_CMD with GO. -/
def execTwCommandGo (ag : Agent) (block : TwNo) (value : BitVec 32) (s : State) : Host.Outcome State Fault Refusal :=
  .next (gated ag 0x10 none true (twPut (TW_CMD + two block.val) (setBits value.toNat 31 31 1)) s)

/-- TW_TRANSACTION_START. -/
def execTwTransactionStart (block : TwNo) (s : State) : Host.Outcome State Fault Refusal := .next (twStart block.val s)

/-- TW_TRANSACTION_END; `acked` is the number of written bytes acknowledged. -/
def execTwTransactionEnd (block : TwNo) (acked : Nat) (data : List Byte) (pecByte : Option (BitVec 8)) (status : Fin 5)
    (byte : BitVec 8) (bitNo : Fin 8) (s : State) : Host.Outcome State Fault Refusal :=
  let e : TwWireEnd := match status.val with
    | 0 => .done data (pecByte.map BitVec.toNat)
    | 1 => .nakAddr
    | 2 => .nakData
    | 3 => .arbLost byte.toNat bitNo.val
    | _ => .arbSr
  .next (twEnd block.val acked e s)

/-- TW_TARGET_COMMIT: a write to a 7-bit address with the bytes after it, and how it closed: 0 stop, 1 repeated start
toward a read, 2 toward a write, 3 off a byte boundary, 4 where an acknowledge was due. -/
def execTwTargetCommit (block : TwNo) (addr : BitVec 7) (bytes : List Byte) (close : Fin 5) (lost : Option (Fin 8))
    (s : State) : Host.Outcome State Fault Refusal :=
  let cl : TwClose := match close.val with
    | 0 => .stop
    | 1 => .rsRead
    | 2 => .rsWrite
    | 3 => .misplaced
    | _ => .rsInAck
  .next (twTargetWrite block.val addr.toNat bytes cl lost s)

/-- TW_TARGET_READ. -/
def execTwTargetRead (block : TwNo) (addr : BitVec 7) (clocked : Nat) (win : Bool) (lost : Option (Fin 8)) (s : State) :
    Host.Outcome State Fault Refusal :=
  .next (twTargetRead block.val addr.toNat clocked win lost s)

/-- TW_SCL_TIMEOUT. -/
def execTwSclTimeout (block : TwNo) (tgt : Bool) (s : State) : Host.Outcome State Fault Refusal :=
  .next (twSclTimeout block.val tgt s)

/-- TW_SDA_TIMEOUT. -/
def execTwSdaTimeout (block : TwNo) (high : Bool) (s : State) : Host.Outcome State Fault Refusal :=
  .next (twSdaTimeout block.val high s)

/-- TW_ALERT_REQUEST: a write of TW_ALERT. -/
def execTwAlertRequest (ag : Agent) (block : TwNo) (req : Bool) (s : State) : Host.Outcome State Fault Refusal :=
  .next (gated ag 0x10 none (fbit s fTW_ALERT_REQ (two block.val) != req) (twAlertReq block.val req) s)

/-- TW_ALERT_IN_EDGE. -/
def execTwAlertInEdge (block : TwNo) (low : Bool) (s : State) : Host.Outcome State Fault Refusal :=
  .next (twAlertIn block.val low s)

/-- TW_WAKE_MATCH. -/
def execTwWakeMatch (block : TwNo) (a1 : Bool) (s : State) : Host.Outcome State Fault Refusal :=
  .next (twWake block.val a1 s)

/-- START_STOP_CONDITION: a start, or a stop, or on an idle bus the end of IDLE µs with both lines high. -/
def execStartStopCondition (block : TwNo) (start : Bool) (s : State) : Host.Outcome State Fault Refusal :=
  .next (twCondition block.val start s)

/-! ## Commands -/

/-- TW_LOAD_PROFILE loads profile BLOCK of CONF function 10h. -/
def runTwLoadProfile (c : CmdCall) (s : State) : State × CmdRes :=
  let b := pb c 0
  if 6 ≤ b then (s, .refuse eRANGE 0)
  else match findProfile s 0x10 b with
    | none => (s, .refuse eRANGE 0)
    | some p =>
      let own := fun (w : Nat × Nat) => w.1 = TW_ADDR + two b &&
        ((bit w.2 15 && twReserved (bits w.2 6 0)) || (bit w.2 31 && twReserved (bits w.2 22 16)))
      if p.writes.any own then (s, .refuse eRANGE 0)
      else
        let mine := p.writes.filter (fun w => w.1 / 0x1000 = 0x70 + b &&
          (w.1 % 0x1000 < 0xC || 0x400 ≤ w.1 % 0x1000))
        let s1 := if mine.any (fun w => w.1 = TW_CFG + two b) then fbset s fTW_CFG_EN false (two b) else s
        (forEach mine (fun w t => twPut w.1 w.2 t) s1, .ok [])

/-- TW_LOAD_PROFILE. -/
def execTwLoadProfile (c : CmdCall) (s : State) : Host.Outcome State Fault Refusal :=
  .next (mbRun ⟨0x1010, 0x10, false, 8, 8, false, true⟩ runTwLoadProfile c s)

/-- The RAM bytes that a table entry's response occupies. -/
def enSpan (s : State) (b e : Nat) : List Nat :=
  let ty := enType e
  let n := if ty = 3 ∨ ty = 4 then enLen e else if ty = 6 ∨ ty = 7 then 1 + twRam s b (enOfs e) else 0
  (List.range n).map (fun i => (enOfs e + i) % 2048)

/-- The places of a response of `n` bytes that no table entry uses. -/
def twRoom (s : State) (b n : Nat) : List Nat :=
  let used := (List.range 256).flatMap (fun c => enSpan s b (twEntry s b c))
  (List.range (2049 - n)).filter (fun o => (List.range n).all (fun i => !used.contains (o + i)))

/-- TW_TGT_RESP: the bytes go to unused RAM, then the entry's OFS (R301); which place is taken is not stated and is a free
choice among those with room. -/
def runTwTgtResp (c : CmdCall) (s : State) : State × CmdRes :=
  let b := pb c 0
  let m := pw c 2
  if 6 ≤ b then (s, .refuse eRANGE 0)
  else if !twTarget s b then (s, .refuse eSTATE 0)
  else if m = 0 ∨ 256 < m then (s, .refuse eRANGE 2)
  else if c.payload.length < 8 + m then (s, .refuse eLENGTH 0)
  else
    let e := twEntry s b (pb c 1)
    let room := twRoom s b m
    if ¬(enType e = 3 ∨ enType e = 4 ∨ enType e = 6 ∨ enType e = 7) ∨ room = [] then (s, .refuse eRANGE 1)
    else
      let ofs := nth room (freeVal s % room.length)
      let s1 := forEach (((c.payload.drop 8).take m).zipIdx) (fun x t => twRamPut b (ofs + x.2) x.1.toNat t) (useFree s)
      (wrn s1 (TW_TGT_CMD + two b + pb c 1 * 4) (setBits e 10 0 ofs), .ok [])

/-- TW_TGT_RESP. -/
def execTwTgtResp (c : CmdCall) (s : State) : Host.Outcome State Fault Refusal :=
  .next (mbRun ⟨0x1011, 0x10, false, 8, 264, false, true⟩ runTwTgtResp c s)

/-- TW_XFER: one transaction through TW_CMD. -/
def runTwXfer (c : CmdCall) (s : State) : State × CmdRes :=
  let b := pb c 0
  let w := pb c 3
  if 6 ≤ b then (s, .refuse eRANGE 0)
  else if !twController s b then (s, .refuse eSTATE 0)
  else if 127 < pb c 1 ∨ twReserved (pb c 1) then (s, .refuse eRANGE 1)
  else if 64 < w then (s, .refuse eRANGE 3)
  else if 40 < pb c 4 then (s, .refuse eRANGE 4)
  else if c.payload.length < 16 + w then (s, .refuse eLENGTH 0)
  else if fbit s fTW_CMD_BUSY (two b) then (s, .refuse eBUSY 0)
  else
    let tx := fit 64 ((c.payload.drop 16).take w)
    let s1 := forEach (List.range 16) (fun i t => wrn t (TW_TXBUF + two b + 4 * i) (u32At tx (4 * i))) s
    let v := pb c 2 % 4
    (twPut (TW_CMD + two b) (2 ^ 31 + v % 2 * 2 ^ 29 + v / 2 * 2 ^ 28 + pb c 1 * 65536 + pb c 4 * 256 + w) s1,
      .defer true)

/-- TW_XFER. -/
def execTwXfer (c : CmdCall) (s : State) : Host.Outcome State Fault Refusal :=
  .next (mbRun ⟨0x1090, 0x10, true, 16, 80, false, true⟩ runTwXfer c s)

end Sys2Proof.Machine
end

