-- ==== Sys2Proof/Machine/Pipe.lean ====
section
/-! DEFINITION. The pipeline of a port over State (chapters 4 to 7): the correction, reconstruction, placing, mask and
statistics stages with their delays (R63, R74, R104), the stall on a Toll budget (R82), taps (R85 to R91) and background
learning (R123). Labelling follows in Label.lean. -/

namespace Sys2Proof.Machine

/-! ## Frames and lines -/

/-- The record of a frame by key. -/
def frameRec (s : State) (p key : Nat) : Option FrameRec := (portSt s p).frames.find? (fun f => f.key = key)

/-- Change a frame's record. -/
def updFrame (p key : Nat) (f : FrameRec → FrameRec) (s : State) : State :=
  updPort s p (fun x => { x with frames := x.frames.map (fun r => if r.key = key then f r else r) })

/-- Line `y` of the image in the stages. -/
def lineAt (s : State) (p : Nat) (y : Int) : Option PLine := (portSt s p).lines.find? (fun l => (l.y : Int) = y)

/-- Change line `y`. -/
def updLine (p y : Nat) (f : PLine → PLine) (s : State) : State :=
  updPort s p (fun x => { x with lines := x.lines.map (fun l => if l.y = y then f l else l) })

/-- Word `i` of a list of register words. -/
abbrev wd (l : List Nat) (i : Nat) : Nat := nth l i

/-- Bits of word `i`. -/
def wb (l : List Nat) (i hi lo : Nat) : Nat := bits (nth l i) hi lo

/-- The CX words of port `q` for a frame, with the compensation set, geometry and mode of port `p` that governs it: CTL,
FF_MODE, DPC_THR, BANK, BLK01, BLK23, SCALE, GEOM, PP_CTL, CFA. -/
def cxWords (s : State) (p q : Nat) : List Nat :=
  [rdn s (CX_CTL + pof q), rdn s (CX_FF_MODE + pof q), rdn s (CX_DPC_THR + pof q), rdn s (CX_BANK + pof q),
    rdn s (SC_CMP_BLK01 + pof p), rdn s (SC_CMP_BLK23 + pof p), rdn s (SC_CMP_SCALE + pof p), rdn s (PP_GEOM + pof p),
    rdn s (PP_CTL + pof p), rdn s (CX_CFA + pof q)]

/-- The frame is of strip mode, and its pair is ganged. -/
def cxStrip (w : List Nat) : Bool := wb w 8 30 30 = 1
def cxGang (w : List Nat) : Bool := wb w 8 29 29 = 1
def cxWidth (w : List Nat) : Nat := wb w 7 30 16
def cxHeight (w : List Nat) : Nat := wb w 7 15 0

/-- The black level of a channel. -/
def cxBlack (w : List Nat) (ch : Nat) : Nat := bits (nth w (4 + ch / 2)) (ch % 2 * 16 + 15) (ch % 2 * 16)

/-- The half of a ganged pair that column `x` belongs to (R23). -/
def halfOf (w : List Nat) (x : Nat) : Nat := if cxGang w ∧ cxWidth w / 2 ≤ x then 1 else 0

/-- The CX words of the half that processes column `x`. -/
def cxFor (r : FrameRec) (x : Nat) : List Nat := if halfOf r.cx x = 0 then r.cx else r.cx2

/-- The active DM words of the half that processes column `x`. -/
def dmFor (r : FrameRec) (x : Nat) : List Nat := if halfOf r.cx x = 0 then r.dm else r.dm2

/-- The larger of what `f` gives for the mosaics of a frame's halves: how far a stage looks and delays the line (R63). -/
def frameReach (r : FrameRec) (f : Nat → Nat) : Nat :=
  let m := fun (c : List Nat) => f (cfaOf (nth c 9)).mosaic
  if cxGang r.cx then max (m r.cx) (m r.cx2) else m r.cx

/-- Add a count to a counter of each half of a frame's port. -/
def cntHalves (p reg : Nat) (halves : List Nat) (s : State) : State :=
  let n0 := (halves.filter (fun h => h = 0)).length
  let n1 := halves.length - n0
  let s1 := if n0 = 0 then s else cntAdd s (reg + pof p) n0
  if n1 = 0 then s1 else cntAdd s1 (reg + pof (p + 1)) n1

/-! ## Correction tables (R58, R67, R68) -/

/-- The base of the table window of port `q`. -/
def cxTbl (q : Nat) : Nat := 0x600000 + q * 0x40000

/-- Table `t` is dual-bank, and its active bank: 0 OFS, 1 GAIN, 2 defect list, 3 mesh. -/
def cxDual (w : List Nat) (t : Nat) : Bool := wb w 3 (24 + t) (24 + t) = 1
def cxAct (w : List Nat) (t : Nat) : Nat := wb w 3 t t

/-- The address of the OFS entry of a column. -/
def ofsAddr (w : List Nat) (q x : Nat) : Nat :=
  cxTbl q + 0x20000 + (if cxDual w 0 then cxAct w 0 * 0x4000 + x % 8192 * 2 else x * 2)

/-- The address of the GAIN entry of a column and channel. -/
def gainAddr (w : List Nat) (q x ch : Nat) : Nat :=
  cxTbl q + (if cxDual w 1 then cxAct w 1 * 0x10000 + (x % 8192 * 4 + ch) * 2 else (x * 4 + ch) * 2)

/-- The address of a mesh node. -/
def meshAddr (w : List Nat) (q i j ch : Nat) : Nat :=
  cxTbl q + 0x30000 + cxAct w 3 * 0x8000 + ((j * 65 + i) * 4 + ch) * 2

/-- The entries of the static defect list in force, as far as its count reaches. -/
def defectEntries (s : State) (w : List Nat) (q : Nat) : List Nat :=
  let cnt := rdn s (CX_DPC_CNT + pof q)
  let b := cxAct w 2
  let base := cxTbl q + 0x28000 + (if cxDual w 2 then b * 0x4000 else 0)
  let n := if cxDual w 2 then min 4096 (bits cnt (16 * b + 15) (16 * b)) else min 8192 (cnt % 65536)
  (List.range n).map (fun i => tbl32 s (base + 4 * i))

/-- The entries kept in ascending order, and whether any was skipped. -/
def keepAscending (l : List Nat) : List Nat × Bool :=
  let r := l.foldl (fun (a : List Nat × Option Nat × Bool) e =>
    if (match a.2.1 with | some v => decide (e ≤ v) | none => false) then (a.1, a.2.1, true)
    else (e :: a.1, some e, a.2.2)) ([], none, false)
  (r.1.reverse, r.2.2)

/-- The columns that a list names on a line, the entries over the limit of 64, and whether one was out of order (R58). -/
def staticColumns (entries : List Nat) (strip : Bool) (width idx : Nat) : List Nat × Nat × Bool :=
  let k := keepAscending entries
  let l := k.1.filter (fun e => decide (e % 16384 < width))
  let column := fun (e : Nat) => strip || e / 65536 == 0xFFFF
  let cols := (l.filter column).map (· % 16384)
  let line := ((l.filter (fun e => !column e && e / 65536 == idx)).map (· % 16384))
  (cols ++ line.take 64, line.length - 64, k.2)

/-- The static list of port `q` is in use (R59). -/
def staticUsed (w : List Nat) : Bool := wb w 0 29 29 = 1

/-! ## Taps (R85 to R91) -/

/-- Distance of tap engine `e` of port `p`. -/
def tpo (p e : Nat) : Nat := pof p + e * 0x40

/-- A tap engine that has taken nothing. -/
def freshTap : TapSt := ⟨none, false, [], []⟩

/-- Tap engine `e`. -/
def tapSt (s : State) (p e : Nat) : TapSt := (portSt s p).taps.getD e freshTap

/-- Change tap engine `e`, keeping ACTIVE. -/
def updTap (p e : Nat) (f : TapSt → TapSt) (s : State) : State :=
  let s1 := updPort s p (fun x => { x with taps := upd x.taps e f })
  fbset s1 fDM_TAP_STAT_ACTIVE ((tapSt s1 p e).frames != []) (tpo p e)

/-- The address of descriptor `i` of a ring. -/
def tapDescAddr (s : State) (p e i : Nat) : Nat :=
  addr64 s (DM_TAP_RING_LO + tpo p e) (DM_TAP_RING_HI + tpo p e) + 32 * i

/-- What reading or writing back a descriptor costs client 36. -/
def tapBackCost : List (Nat × Nat) := [(1, 1), (2, 1)]

/-- The read of a descriptor of engine `e` that is outstanding (R254). -/
def tapFlight (s : State) (p e : Nat) : Option NpReq := s.he.reqs.find? (fun r => r.owner == .tap p e)

/-- Read the descriptor at HEAD, if there is one, requests may leave, client 36 covers it and a tag is free. -/
def tapFetch (p e : Nat) (s : State) : State :=
  let o := tpo p e
  let head := fget s fDM_TAP_HEAD_V o
  if !fbit s fDM_TAP_CTL_EN o || !canDma s || head == fget s fDM_TAP_TAIL_V o || (tapSt s p e).desc != [] ||
      (tapFlight s p e).isSome then s
  else match freeTag s with
    | none => s
    | some t =>
      if tollCan s 36 tapBackCost then npIssue (.tap p e) t (tapDescAddr s p e head) 32 (tollSpend s 36 tapBackCost)
      else tollShort s 36 false

/-- A descriptor has been read. -/
def tapGot (p e : Nat) (data : List Byte) (s : State) : State := updTap p e (fun t => { t with desc := fit 32 data }) s

/-- The descriptor at HEAD has been read or can be read now. -/
def tapReadable (s : State) (p e : Nat) : Bool :=
  (tapSt s p e).desc != [] || (canDma s && ((tapFlight s p e).isSome || ((freeTag s).isSome && tollCan s 36 tapBackCost)))

/-- What engine `e` has read ahead, or is reading, is of no more use. -/
def tapForget (p e : Nat) (s : State) : State :=
  let s1 := updTap p e (fun t => { t with desc := [] }) s
  { s1 with he := { s1.he with reqs := s1.he.reqs.map (fun r => if r.owner == .tap p e then { r with owner := .nobody } else r) } }

/-- The descriptor at HEAD is used: its outstanding read has ended, or it is read at this step. -/
def tapUse (p e : Nat) (s : State) : State :=
  let s1 := match tapFlight s p e with
    | some r => npEnd r.tag s
    | none => if (tapSt s p e).desc != [] then s
      else readNow (tapDescAddr s p e (fget s fDM_TAP_HEAD_V (tpo p e))) 32 (tollSpend s 36 tapBackCost)
  updTap p e (fun t => { t with desc := [] }) s1

/-- The high byte of a value. -/
def hi8 (v : Nat) : Nat := v / 256 % 256

/-- A mosaic row in format 0h or 1h. -/
def mosaicBytes (fmt : Nat) (l : List Nat) : List (List Byte) :=
  [if fmt = 1 then l.map (fun v => BitVec.ofNat 8 (hi8 v)) else l.flatMap (leBytes 2)]

/-- An RGBN row in formats 2h to 5h; the planar one has a list per plane. -/
def pxBytes (fmt : Nat) (l : List Px) : List (List Byte) :=
  match fmt with
  | 2 => [l.flatMap (fun p => leBytes 2 p.r ++ leBytes 2 p.g ++ leBytes 2 p.b ++ leBytes 2 p.n)]
  | 3 => [l.flatMap (fun p => [p.r, p.g, p.b, p.n].map (fun v => BitVec.ofNat 8 (hi8 v)))]
  | 4 => [l.flatMap (fun p => [p.r, p.g, p.b].map (fun v => BitVec.ofNat 8 (hi8 v)))]
  | _ => [0, 1, 2, 3].map (fun c => l.flatMap (fun p => leBytes 2 (p.ch c)))

/-- Eight mask bits as a byte, leftmost lowest. -/
def maskByte (l : List Bool) : Byte :=
  BitVec.ofNat 8 (l.zipIdx.foldl (fun a x => a + if x.1 then 2 ^ x.2 else 0) 0)

/-- Bytes of a mask row packed eight to a byte. -/
def packMask (fuel : Nat) (l : List Bool) : List Byte :=
  match fuel with
  | 0 => []
  | k + 1 => if l = [] then [] else maskByte (l.take 8) :: packMask k (l.drop 8)

/-- A mask row in format 6h or 7h. -/
def maskBytes (fmt : Nat) (l : List Bool) : List (List Byte) :=
  [if fmt = 6 then packMask (l.length + 1) l else l.map (fun b => if b then 255#8 else 0#8)]

/-- The columns of a region of interest. -/
def roiCut {α : Type} (f : TapFrame) (l : List α) : List α := (l.drop f.x0).take f.w

/-- The rows that a tap frame takes of a line at its point. -/
def tapRows (f : TapFrame) (l : PLine) : List (List Byte) :=
  match f.point with
  | 0 => mosaicBytes f.fmt (roiCut f l.raw)
  | 1 => mosaicBytes f.fmt (roiCut f l.p4)
  | 2 => pxBytes f.fmt (roiCut f l.t2)
  | 3 => pxBytes f.fmt (roiCut f l.t3)
  | _ => maskBytes f.fmt (roiCut f l.mask)

/-- What writing `n` bytes of a tap costs: staged in LP5X and read back, then written to the host. -/
def tapCosts (n : Nat) : List (Nat × Nat) := [(0, 2 * lp5Units n), (1, (n + 63) / 64), (2, 2 * trestleUnits n)]

/-- A tap frame is cut: by Toll or an empty pool (R90). -/
def tapCut (p e : Nat) (s : State) : State :=
  evt (cnt s (DM_TAP_CNT_DROP + tpo p e)) fDM_TAP_EVT_DROP (tpo p e)

/-- Change the tap frame with descriptor index `i` of engine `e`. -/
def updTapFrame (p e i : Nat) (f : TapFrame → TapFrame) (s : State) : State :=
  updTap p e (fun t => { t with frames := t.frames.map (fun x => if x.idx = i then f x else x) }) s

/-- One line of one tap frame: written while the engine has budget and the pool blocks. -/
def tapWrite (p e : Nat) (f : TapFrame) (l : PLine) (s : State) : State :=
  let rows := tapRows f l
  let n := (rows.map List.length).sum
  let inRoi := decide (f.y0 ≤ l.idx) && decide (l.idx < f.y0 + f.h)
  let s0 := updTapFrame p e f.idx (fun x => { x with seen := x.seen + 1 }) s
  if !inRoi || f.status ≠ 0 then s0
  else if !canDma s then updTapFrame p e f.idx (fun x => { x with status := 4 }) (tapCut p e s0)
  else if !poolCan s 1 (blocksOf n) then
    updTapFrame p e f.idx (fun x => { x with status := 3 }) (tapCut p e (poolRefuse s0 1))
  else if !tollCan s (16 + p) (tapCosts n) then
    updTapFrame p e f.idx (fun x => { x with status := 3 }) (tapCut p e (tollShort s0 (16 + p) true))
  else
    let s1 := tollSpend (poolGive (poolTake s0 1 (blocksOf n)) 1 (blocksOf n)) (16 + p) (tapCosts n)
    let at_ := fun (k : Nat) => f.addr + (l.idx - f.y0) * f.stride + k * f.stride * f.h
    let s2 := forEach rows.zipIdx (fun x t => dmaWrite t (at_ x.2) x.1 false true) s1
    updTapFrame p e f.idx (fun x => { x with lines := x.lines + 1 }) s2

/-- A line has passed a tap point. -/
def tapLine (p point : Nat) (l : PLine) (s : State) : State :=
  forEach [0, 1] (fun e t =>
    forEach ((tapSt t p e).frames.filter (fun f => f.key = l.key && f.point = point)) (fun f u => tapWrite p e f l u) t) s

/-! ## Correction (R55 to R65) -/

/-- p1 and the static-listed columns of a line (R57, R58). DESIGN CHOICE (log 102): a padded pixel in a listed column counts
as listed, and so is excluded as a neighbour. -/
def enterLine (p : Nat) (l : PLine) (s : State) : State :=
  match frameRec s p l.key with
  | none => s
  | some r =>
    let w := l.raw.length
    let cols := fun (q : Nat) (c : List Nat) => if staticUsed c then
        staticColumns (defectEntries s c q) (cxStrip r.cx) w l.idx else ([], 0, false)
    let c0 := cols p r.cx
    let c1 := if cxGang r.cx then cols (p + 1) r.cx2 else ([], 0, false)
    let p1 := (List.range w).map (fun x =>
      let c := cxFor r x
      let q := p + halfOf r.cx x
      let ofs : Int := if wb c 0 31 31 = 1 then s16 (tbl16 s (ofsAddr c q x)) else 0
      if l.pad ≤ x then 0 else p1Of (nth l.raw x) (cxBlack c (mosaicCh (cfaOf (nth c 9)) l.idx x)) ofs)
    let listed := (List.range w).map (fun x => (if halfOf r.cx x = 0 then c0 else c1).1.contains x)
    let note := fun (q : Nat) (c : List Nat × Nat × Bool) (t : State) =>
      let t1 := if c.2.2 then evt t fCX_EVT_DPC_ORDER (pof q) else t
      if c.2.1 = 0 then t1 else evt (cntAdd t1 (CX_CNT_DPC_OVF + pof q) c.2.1) fCX_EVT_DPC_OVF (pof q)
    let s1 := note p c0 s
    let s2 := if cxGang r.cx then note (p + 1) c1 s1 else s1
    updPort s2 p (fun x => { x with
      lines := x.lines ++ [{ l with p1 := p1, listed := listed }], nIn := l.y + 1, img := l.img, imgOpen := true })

/-- The flat-field gain of a pixel (R64, R65). -/
def ffGain (s : State) (r : FrameRec) (p idx x ch w : Nat) : Nat :=
  let c := cxFor r x
  let q := p + halfOf r.cx x
  if wb c 1 31 31 = 0 then 0x1000
  else if cxStrip r.cx then tbl16 s (gainAddr c q x ch)
  else meshGain (fun i j => tbl16 s (meshAddr c q i j ch)) x idx w (cxHeight r.cx)

/-- p4 of line `y` (R55), counting replacements and saturations. -/
def correctLine (p y : Nat) (s : State) : State :=
  match lineAt s p y with
  | none => s
  | some l => match frameRec s p l.key with
    | none => s
    | some r =>
      let w := l.raw.length
      let reach := frameReach r mosaicReach
      let rows : List DefRow := (List.range (2 * reach + 1)).map (fun (i : Nat) =>
        (lineAt s p ((y : Int) + i - reach)).map (fun k => (k.p1, k.listed)))
      let out := (List.range w).map (fun x =>
        let c := cxFor r x
        let cfa := cfaOf (nth c 9)
        let ch := mosaicCh cfa l.idx x
        let v := nth l.p1 x
        let d := if l.pad ≤ x then (0, DefMark.none)
          else defectPixel rows cfa.mosaic ch reach w x (wb c 0 30 29) (wb c 2 31 16) (wb c 2 15 8) v (l.listed.getD x false)
        let g := p4Of d.1 (ffGain s r p l.idx x ch w) (wb c 6 15 0)
        (g.1, d.2, g.2, halfOf r.cx x))
      let halves := fun (f : Nat × DefMark × Bool × Nat → Bool) => (out.filter f).map (fun o => o.2.2.2)
      let s1 := cntHalves p CX_CNT_STATIC (halves (fun o => o.2.1 == .static || o.2.1 == .staticEmpty)) s
      let s2 := cntHalves p CX_CNT_NOREP (halves (fun o => o.2.1 == .staticEmpty)) s1
      let s3 := cntHalves p CX_CNT_HOT (halves (fun o => o.2.1 == .hot)) s2
      let s4 := cntHalves p CX_CNT_COLD (halves (fun o => o.2.1 == .cold)) s3
      let s5 := cntHalves p CX_CNT_SAT (halves (fun o => o.2.2.1)) s4
      let l1 := { l with p4 := out.map (fun o => o.1) }
      tapLine p 1 l1 (updLine p y (fun k => { k with p4 := l1.p4 }) s5)

/-! ## Reconstruction and colour (R74 to R80) -/

/-- Row `i` of the colour matrix as s4.12. -/
def cmCoeffs (d : List Nat) : List Int := (List.range 16).map (fun i => s16 (bits (nth d (3 + i / 2)) (i % 2 * 16 + 15) (i % 2 * 16)))

/-- T2 and T3 of line `y`. -/
def reconLine (p y : Nat) (s : State) : State :=
  match lineAt s p y with
  | none => s
  | some l => match frameRec s p l.key with
    | none => s
    | some r =>
      let w := l.raw.length
      let rows : P4Rows := (List.range 7).map (fun (i : Nat) => (lineAt s p ((y : Int) + i - 3)).map (fun k => k.p4))
      let out := (List.range w).map (fun x =>
        let d := dmFor r x
        let cfa := cfaOf (nth (cxFor r x) 9)
        let a := reconPixel cfa rows w (wb d 0 15 0) l.idx x
        let t2 := if wb d 0 31 31 = 1 ∧ 2 ≤ cfa.mosaic then nirSub a.px (wb d 1 15 0) (wb d 1 31 16) (wb d 2 15 0)
          else (a.px, false)
        let t3 := if wb d 0 30 30 = 1 then colourMatrix (cmCoeffs d) t2.1 else (t2.1, false)
        (t2.1, t3.1, { a with sat := a.sat || t2.2 || t3.2 }, halfOf r.cx x))
      let halves := fun (f : RecPx → Bool) => (out.filter (fun o => f o.2.2.1)).map (fun o => o.2.2.2)
      let s1 := cntHalves p DM_CNT_SAT (halves (fun a => a.sat)) s
      let s2 := cntHalves p DM_CNT_EDGE (halves (fun a => a.edge)) s1
      let s3 := cntHalves p DM_CNT_DIR_H (halves (fun a => a.dir == 0)) s2
      let s4 := cntHalves p DM_CNT_DIR_V (halves (fun a => a.dir == 1)) s3
      let s5 := cntHalves p DM_CNT_DIR_B (halves (fun a => a.dir == 2)) s4
      let l1 := { l with t2 := out.map (fun o => o.1), t3 := out.map (fun o => o.2.1) }
      tapLine p 3 l1 (tapLine p 2 l1 (updLine p y (fun k => { k with t2 := l1.t2, t3 := l1.t3 }) s5))

/-! ## Background (R106, R123) -/

/-- The base of the reference table of port `p`. -/
def sgTbl (p : Nat) : Nat := 0xA00000 + p * 0x40000

/-- The address of a reference entry: `dual` and the bank, column and channel. -/
def bgAddr (p x ch : Nat) (dual : Bool) (bank : Nat) : Nat :=
  sgTbl p + (if dual then bank * 0x10000 + (x % 8192 * 4 + ch) * 2 else (x * 4 + ch) * 2)

/-- The background reference of a column (R106): the bank word of the frame gives DUAL and ACT. -/
def bgOf (s : State) (r : FrameRec) (p x : Nat) : List Nat :=
  if cxStrip r.cx then (List.range 4).map (fun c => tbl16 s (bgAddr p x c (bit r.sgBank 24) (r.sgBank % 2)))
  else (List.range 4).map (fun c => bits (nth r.sg (10 + c / 2)) (c % 2 * 16 + 15) (c % 2 * 16))

/-- Four u16 of two words. -/
def four16 (l : List Nat) (i : Nat) : List Nat :=
  (List.range 4).map (fun c => bits (nth l (i + c / 2)) (c % 2 * 16 + 15) (c % 2 * 16))

/-- The raw mask of line `l` (R105). -/
def rawMaskLine (s : State) (p : Nat) (r : FrameRec) (l : PLine) : List Bool :=
  let g := r.sg
  let x0 := wb g 1 15 0
  let w := wb g 1 31 16
  l.t3.zipIdx.map (fun v =>
    let x := v.2
    if wb g 0 31 31 = 0 ∨ l.pad ≤ x ∨ x < x0 ∨ x0 + w ≤ x then false
    else rawMask (wb g 0 23 20) (wb g 0 28 27) (wb r.cx 6 31 16) (wb g 6 17 0) (four16 g 2) (four16 g 4)
      (bgOf s r p x) [v.1.r, v.1.g, v.1.b, v.1.n])

/-- A commit of shadow registers is requested; a write of COMMIT sets PEND (R81). -/
def shadowCommit (f : Fld) (p : Nat) (s : State) : State := fbset s f true (pof p)

/-- A bank swap is requested (R69): its tables and, when timed, its frame. -/
def swapRequest (bank at_ p : Nat) (cx : Bool) (s : State) : State :=
  let w := rdn s (bank + pof p)
  let req := (bits w 19 16, if bit w 29 then some (rdn s (at_ + pof p)) else none)
  let s1 := wrn s (bank + pof p) (setBits w 28 28 1)
  updPort s1 p (fun x => if cx then { x with cxReq := some req } else { x with sgReq := some req })

/-- The result of a background learn (R123). -/
def learnEnd (p : Nat) (l : Learn) (strip : Bool) (s : State) : State :=
  let den := if strip then l.count else l.pixels
  let mean := fun (k : Nat) => (smGet l.sums k 0 + den / 2) / max 1 den % 65536
  let s0 := updPort s p (fun x => { x with learn := none })
  let swap := !bit l.flags 0
  let bank := rdn s (SG_BANK + pof p)
  let s1 := if strip then
      let b := 1 - bank % 2
      let t1 := forEach (List.range (fget s fPP_GEOM_WIDTH (pof p) * 4)) (fun k t =>
        tblPuts t (bgAddr p (k / 4) (k % 4) true b) (leBytes 2 (mean k))) s0
      if swap then swapRequest SG_BANK SG_SWAP_AT p false (wrn t1 (SG_BANK + pof p) (setBits (setBits bank 16 16 1) 29 29 0))
      else t1
    else
      let t1 := wrn (wrn s0 (SG_BG_CONST01 + pof p) (mean 0 + mean 1 * 65536)) (SG_BG_CONST23 + pof p)
        (mean 2 + mean 3 * 65536)
      if swap then shadowCommit fSG_CTL_PEND p t1 else t1
  forEach ((deferredOf s1 0x0710).filter (fun x => x.2.port == some p)) (fun x t => endD x 0 0 [] t) s1

/-- A T3 line enters a background learn. -/
def learnLine (p : Nat) (r : FrameRec) (l : PLine) (s : State) : State :=
  match (portSt s p).learn with
  | none => s
  | some a =>
    if a.waits && l.idx ≠ 0 then s
    else
      let strip := cxStrip r.cx
      let sums : Sparse Nat := l.t3.zipIdx.foldl (fun m v =>
        (List.range 4).foldl (fun n c => smAdd n (if strip then 4 * v.2 + c else c) (v.1.ch c)) m) a.sums
      let a1 : Learn := { a with waits := false, sums := sums, left := a.left - 1, pixels := a.pixels + l.t3.length }
      if a1.left = 0 then learnEnd p a1 strip s else updPort s p (fun x => { x with learn := some a1 })

/-! ## Placing T3 lines (R82, R142) -/

/-- Pay for as many of `n` bytes as PIPE client `c` can cover, in transactions of up to 256 bytes; what remains. -/
def payPlace (fuel c n : Nat) (s : State) : State × Nat :=
  match fuel with
  | 0 => (s, n)
  | k + 1 =>
    let m := min n 256
    if n = 0 then (s, 0)
    else if tollCan s c [(0, lp5Units m), (2, 1)] then payPlace k c (n - m) (tollSpend s c [(0, lp5Units m), (2, 1)])
    else (s, n)

/-- What is left to pay of a line for client `c` when no client is limited: nothing. -/
def payHalf (c n : Nat) (s : State) : State × Nat := if fbit s fTO_CTL_EN then payPlace (n / 256 + 1) c n s else (s, 0)

/-- Place the T3 line after the last one placed; without budget the pipeline stalls. -/
def placeLine (p : Nat) (s : State) : State :=
  let x := portSt s p
  match lineAt s p x.nPlc with
  | none => s
  | some l => match frameRec s p l.key with
    | none => s
    | some r =>
      let all := 8 * l.t3.length
      let start := if cxGang r.cx then (all / 2, all / 2) else (all, 0)
      let due := match x.owed with | some d => d | none => start
      let a := payHalf p due.1 s
      let b := if due.2 = 0 then (a.1, 0) else payHalf (p + 1) due.2 a.1
      if a.2 ≠ 0 ∨ b.2 ≠ 0 then
        let t1 := if a.2 = 0 then b.1 else tollShort b.1 p true
        let t2 := if b.2 = 0 then t1 else tollShort t1 (p + 1) true
        updPort t2 p (fun y => { y with owed := some (a.2, b.2) })
      else
        let line : T3Line := ⟨l.img, l.y, l.frame, l.idx, l.stamp, l.gen, l.t3, none⟩
        let cap := max 64 (fget s fTL_STAGE_LINES (p * 4))
        let m0 := rawMaskLine b.1 p r l
        let keep := fun (st : List T3Line) => (st ++ [line]).drop (st.length + 1 - cap)
        let s1 := updPort b.1 p (fun y => { y with owed := none, stage := keep y.stage, nPlc := y.nPlc + 1 })
        learnLine p r l (updLine p l.y (fun k => { k with m0 := m0 }) s1)

/-! ## Statistics (R94 to R99) -/

/-- Region words: width in the high half, start in the low half. -/
def inSpan (word v : Nat) : Bool := decide (word % 65536 ≤ v) && decide (v < word % 65536 + word / 65536)

/-- A region of a frame of the given size is valid (R102). -/
def spanOk (word size : Nat) : Bool := decide (1 ≤ word / 65536) && decide (word % 65536 + word / 65536 ≤ size)

/-- Window `w` of the ST words is enabled and valid. -/
def winOn (st : List Nat) (width height w : Nat) : Bool :=
  bit (nth st 0) w && spanOk (nth st (16 + 2 * w)) width && spanOk (nth st (17 + 2 * w)) height

/-- The histogram region is valid. -/
def histOk (st : List Nat) (width height : Nat) : Bool := spanOk (nth st 2) width && spanOk (nth st 3) height

/-- An accumulator at the start of a frame. -/
def accZero : StAcc :=
  ⟨List.replicate 16 0, List.replicate 16 0, List.replicate 16 0, List.replicate 4 0, List.replicate 4 0, [],
    List.replicate 4 0, 0⟩

/-- The focus sums of one line of a window (R95, R96). -/
def focusLine (st : List Nat) (up l down : List Px) (w : Nat) (a : StAcc) : StAcc :=
  let ch := wb st 0 27 26
  let floor := nth st 1
  let rows := [up, l, down]
  let cols := (List.range l.length).filter (fun x => inSpan (nth st (16 + 2 * w)) x && decide (1 ≤ x) && decide (x + 1 < l.length))
  cols.foldl (fun a x =>
    let q := fun (dy dx : Int) =>
      ((((rows.getD (dy + 1).toNat []).getD ((x : Int) + dx).toNat ⟨0, 0, 0, 0⟩).ch ch / 16 : Nat) : Int)
    let f := focusOf q
    { a with
        ten := if floor < f.1 then addAt a.ten w f.1 else a.ten, lap := addAt a.lap w f.2, cnt := addAt a.cnt w 1 }) a

/-- The T1 sums and bins of a line (R97). -/
def histLine (st : List Nat) (cfa : Nat → Nat) (l : List Nat) (a : StAcc) : StAcc :=
  let on := bit (nth st 0) 28
  (l.zipIdx.filter (fun v => inSpan (nth st 2) v.2)).foldl (fun a v =>
    let c := cfa v.2
    { a with
        hsum := addAt a.hsum c v.1, hcnt := addAt a.hcnt c 1,
        bins := if on then smAdd a.bins (256 * c + v.1 / 256) 1 else a.bins }) a

/-- The plate sums of a line (R98). -/
def plateLine (st : List Nat) (l : List Px) (mask : List Bool) (a : StAcc) : StAcc :=
  ((l.zip mask).zipIdx.filter (fun v => inSpan (nth st 4) v.2 && !v.1.2)).foldl (fun a v =>
    { a with psum := (List.range 4).map (fun c => nth a.psum c + v.1.1.ch c), pcnt := a.pcnt + 1 }) a

/-- Measure a line that has its mask. -/
def measureLine (p : Nat) (r : FrameRec) (l : PLine) (s : State) : StAcc :=
  let w := l.t3.length
  let hgt := cxHeight r.cx
  let st := r.st
  let a := match lineAt s p ((l.y : Int) - 1), lineAt s p ((l.y : Int) + 1) with
    | some u, some d => ((List.range 16).filter (fun k => winOn st w hgt k && inSpan (nth st (17 + 2 * k)) l.idx)).foldl
        (fun a k => focusLine st u.t2 l.t2 d.t2 k a) r.acc
    | _, _ => r.acc
  let b := if histOk st w hgt ∧ inSpan (nth st 3) l.idx then
    histLine st (fun x => mosaicCh (cfaOf (nth (cxFor r x) 9)) l.idx x) l.p4 a else a
  if spanOk (nth st 4) w then plateLine st l.t3 l.mask b else b

/-- SUM, COUNT and MEAN of a record, with the padding of R99. -/
def meanBytes (sum n : Nat) : List Byte :=
  leBytes 8 sum ++ leBytes 4 n ++ leBytes 2 (if n = 0 then 0 else (sum + n / 2) / n) ++ zeros 2

/-- The plate is below its limit on a channel (R98). -/
def plateLow (st : List Nat) (a : StAcc) : Bool :=
  decide (a.pcnt ≠ 0) && (List.range 4).any (fun c =>
    let ref := nth (four16 st 6) c
    decide (ref ≠ 0) && decide ((nth a.psum c + a.pcnt / 2) / a.pcnt % 65536 < ref * wb st 5 7 0 / 256))

/-- The statistics record (R99). -/
def statRecord (s : State) (p : Nat) (r : FrameRec) (fstat lines strip : Nat) : List Byte :=
  let st := r.st
  let a := r.acc
  let hist := bit (nth st 0) 28
  let foc := (List.range 16).foldl (fun m w => m + if winOn st (cxWidth r.cx) (cxHeight r.cx) w then 2 ^ w else 0) 0
  let b := fun (x : Bool) (w : Nat) => if x then w else 0
  let part := bit fstat 0 || bit fstat 8 || bit fstat 10
  let head := leBytes 2 (if hist then 4672 else 576) ++ leBytes 1 p ++
    leBytes 1 (b hist 1 + b part 2 + b (a.pcnt == 0) 4 + b (plateLow st a) 8) ++ leBytes 4 r.frame ++ leBytes 2 r.gen ++
    leBytes 2 strip ++ leBytes 4 fstat ++ leBytes 4 r.fs ++ leBytes 4 (now s) ++ leBytes 2 lines ++ leBytes 2 foc ++
    leBytes 1 (wb st 0 27 26) ++ leBytes 1 (wb st 0 23 16) ++ zeros 2 ++ leBytes 4 (portSt s p).stSeq ++
    leBytes 4 (portSt s p).stLost ++ zeros 24
  let wins := (List.range 16).flatMap (fun w => leBytes 8 (nth a.ten w) ++ leBytes 8 (nth a.lap w) ++ leBytes 4 (nth a.cnt w) ++ zeros 4)
  let t1 := (List.range 4).flatMap (fun c => meanBytes (nth a.hsum c) (nth a.hcnt c))
  let plate := (List.range 4).flatMap (fun c => meanBytes (nth a.psum c) a.pcnt)
  let bins := if hist then (List.range 1024).flatMap (fun k => leBytes 4 (smGet a.bins k 0)) else []
  head ++ wins ++ t1 ++ plate ++ bins

/-- A record is complete (R94, R98, R100): ST_LAST, PLATE_LOW, and the queue, which can lack room. -/
def statDone (p : Nat) (r : FrameRec) (fstat lines strip : Nat) (s : State) : State :=
  let rec_ := statRecord s p r fstat lines strip
  let s1 := forEach (List.range 144) (fun i t => wrn t (ST_LAST + pof p + 4 * i) (u32At rec_ (4 * i))) s
  let s2 := if plateLow r.st r.acc then evt s1 fST_EVT_PLATE_LOW (pof p) else s1
  let room := quRoom s2 (32 + p) rec_.length
  let s3 := quWrite s2 (32 + p) rec_
  let s4 := if room then s3 else evtCnt s3 fST_EVT_LOST ST_CNT_LOST (pof p)
  updPort s4 p (fun x => { x with stSeq := (x.stSeq + 1) % 2 ^ 32, stLost := if room then 0 else x.stLost + 1 })

/-- A frame's record is due: it is measured, closed, and its last delivered line has left the mask stage. -/
def statReady (r : FrameRec) : Bool :=
  r.meas && (match r.closed with | some (_, n, _) => r.masked == n | none => false)

/-- Complete the records of a port that are due, in frame order. -/
def statFlush (p : Nat) (s : State) : State :=
  let l := ((portSt s p).frames.filter (fun r => r.meas)).takeWhile statReady
  let s1 := forEach l (fun r t => match r.closed with
    | some (f, n, strip) => updFrame p r.key (fun x => { x with meas := false }) (statDone p r f n strip t)
    | none => t) s
  fbset s1 fST_STAT_ACTIVE ((portSt s1 p).frames.any (fun r => r.meas)) (pof p)

/-! ## The mask stage -/

/-- The mask of line `y` (R107), into the staging ring too, and the statistics of the line. -/
def maskLine (p y : Nat) (s : State) : State :=
  match lineAt s p y with
  | none => s
  | some l => match frameRec s p l.key with
    | none => s
    | some r =>
      let rows := (List.range 9).map (fun (i : Nat) => (lineAt s p ((y : Int) + i - 4)).map (fun k => k.m0))
      let m := if wb r.sg 0 26 26 = 1 then morphMask rows else l.m0
      let l1 := { l with mask := m }
      let s1 := updPort s p (fun x => { x with
        lines := x.lines.map (fun k => if k.y = y then { k with mask := m } else k),
        stage := x.stage.map (fun k => if k.img = l.img ∧ k.y = y then { k with mask := some m } else k) })
      let acc := if r.meas then measureLine p r l1 s1 else r.acc
      let s2 := updFrame p r.key (fun x => { x with acc := acc, masked := x.masked + 1 }) s1
      statFlush p (tapLine p 4 l1 s2)

end Sys2Proof.Machine
end

