-- ==== Sys2Proof/Machine/Label.lean ====
section
/-! DEFINITION. Labelling (R108 to R113): runs join open objects, objects start, merge and close, and their features
accumulate; then the pump that moves lines from the receive buffer through every stage (R63, R82, R104). -/

namespace Sys2Proof.Machine

/-! ## Features (R113) -/

/-- Column `x` lies in one of the runs. -/
def inRuns (l : List (Nat × Nat)) (x : Nat) : Bool := l.any (fun r => decide (r.1 ≤ x) && decide (x ≤ r.2))

/-- The columns of a list of runs. -/
def runCols (l : List (Nat × Nat)) : List Nat := l.flatMap (fun r => (List.range (r.2 + 1 - r.1)).map (fun i => r.1 + i))

/-- A pixel of a line; black beyond it. -/
def pxAt (l : List Px) (x : Nat) : Px := l.getD x ⟨0, 0, 0, 0⟩

/-- One crack: counted, and a boundary step when the position `q` is inside the image. -/
def crack (s : Nat) (v : Px) (q : Option Px) (o : OpenObj) : OpenObj :=
  match q with
  | none => { o with cracks := o.cracks + 1 }
  | some u => { o with cracks := o.cracks + 1, ssum := o.ssum + absDiff (v.ch s) (u.ch s) / 16, sn := o.sn + 1 }

/-- The cracks between the runs on one line and those of the object on a neighbouring line, which is none outside the
image. -/
def crackRow (s : Nat) (line : List Px) (cols : List Nat) (other : List (Nat × Nat)) (next : Option (List Px)) (o : OpenObj) :
    OpenObj :=
  cols.foldl (fun a x => if inRuns other x then a else crack s (pxAt line x) (next.map (fun l => pxAt l x)) a) o

/-- The cracks at the ends of the runs of a line. -/
def crackSides (s : Nat) (line : List Px) (runs : List (Nat × Nat)) (o : OpenObj) : OpenObj :=
  runs.foldl (fun a r =>
    let l := if r.1 = 0 then none else some (pxAt line (r.1 - 1))
    let e := if line.length ≤ r.2 + 1 then none else some (pxAt line (r.2 + 1))
    crack s (pxAt line r.2) e (crack s (pxAt line r.1) l a)) o

/-- Alarm box `k` of the SG words holds a pixel. -/
def inBox (g : List Nat) (k : Nat) (p : Px) : Bool :=
  let m := nth g (26 + 3 * k)
  let b := fun (w c : Nat) => bits w (8 * c + 7) (8 * c)
  bit m 31 && (List.range 4).all (fun c => !bit m c ||
    (decide (b (nth g (24 + 3 * k)) c ≤ p.ch c / 256) && decide (p.ch c / 256 ≤ b (nth g (25 + 3 * k)) c)))

/-- One pixel of an object. -/
def addPixel (g : List Nat) (y x : Nat) (p : Px) (o : OpenObj) : OpenObj :=
  { o with
      area := o.area + 1, sx := o.sx + 2 * x + 1, sumY := o.sumY + y,
      sum := (List.range 4).map (fun c => nth o.sum c + p.ch c / 256),
      sq := (List.range 4).map (fun c => nth o.sq c + (p.ch c / 256) ^ 2),
      hist := (List.range 4).foldl (fun h c => smAdd h (16 * c + p.ch c / 4096) 1) o.hist,
      alarm := (List.range 8).map (fun k => nth o.alarm k + if inBox g k p then 1 else 0) }

/-- A value cut to a limit. -/
def satTo (m v : Nat) : Nat := min m v

/-- A uint32 of the pseudocode: it wraps (00_scope). -/
abbrev u32 (v : Nat) : Nat := v % 2 ^ 32

/-- AREA: a uint32. -/
def areaOf (o : OpenObj) : Nat := u32 o.area

/-- The feature record of a closed object (R113, R114). The object accumulates exactly; each value wraps at the width that
R113 gives it. DESIGN CHOICE (log 103): an AREA that has wrapped to 0 divides as 1. -/
def featureRecord (o : OpenObj) : List Byte :=
  let a := max 1 (areaOf o)
  let n := o.yLast + 1 - o.y0
  let sy := 2 * (o.sumY - o.y0 * o.area) + o.area
  let div := fun (v : Nat) => (v + a / 2) / a
  let m := 0xFFFFFFFF
  let hist := fun (k : Nat) => u32 (u32 (u32 (smGet o.hist k 0) * 15) + a / 2) / a
  let sn := u32 o.sn
  let sharp := if sn = 0 then 0 else min 65535 ((o.ssum + sn / 2) / sn)
  let b := fun (x : Bool) (w : Nat) => if x then w else 0
  let sat := b (o.sum.any (fun v => decide (m < v))) 1 + b (o.sq.any (fun v => decide (m < v / 16))) 2 +
    b (o.alarm.any (fun v => decide (0xFFFF < u32 v))) 4 + b (decide (0xFFFF < n)) 8
  leBytes 4 o.id ++ leBytes 4 o.frame ++ leBytes 2 o.idx ++ leBytes 2 (satTo 0xFFFF n) ++ leBytes 4 o.first ++
    leBytes 4 o.last ++ leBytes 4 (areaOf o) ++ leBytes 4 ((u32 o.cracks * 12868 + 512) / 1024) ++ leBytes 4 (o.x0 * 16) ++
    leBytes 4 ((o.x1 + 1) * 16) ++ leBytes 4 (div (o.sx * 8)) ++ leBytes 4 (div (sy * 8)) ++
    o.sum.flatMap (fun v => leBytes 4 (satTo m v)) ++ o.sq.flatMap (fun v => leBytes 4 (satTo m (v / 16))) ++
    (List.range 32).flatMap (fun i => leBytes 1 (hist (2 * i) + 16 * hist (2 * i + 1))) ++
    o.alarm.flatMap (fun v => leBytes 2 (satTo 0xFFFF (u32 v))) ++ leBytes 2 sharp ++ leBytes 1 sat ++ zeros 1

/-- A feature of the object saturated. -/
def featSat (o : OpenObj) : Bool := byteAt (featureRecord o) 126 != 0

/-! ## Close (R111, R112) -/

/-- Keep SG_STAT.OPEN. -/
def openCount (p : Nat) (s : State) : State := fset s fSG_STAT_OPEN (portSt s p).objs.length (pof p)

/-- An open object closes with the flags of the row of R111 that closed it. -/
def closeObj (p flags : Nat) (o : OpenObj) (s : State) : State :=
  let speck := decide (areaOf o < o.areaMin)
  let clump := decide (o.areaMax ≠ 0 ∧ o.areaMax < areaOf o)
  let f0 := fun (fl i : Nat) (b : Bool) => if b then withBit fl i true else fl
  let fl := f0 (f0 (f0 (f0 (f0 (f0 flags lfSPECK speck) lfCLUMP clump) lfEDGE o.edge) lfGENMIX o.genMix) lfFEATSAT (featSat o))
    lfMERGED o.merged
  let s1 := updPort s p (fun x => { x with objs := x.objs.filter (fun y => y.id != o.id) })
  let s2 := updEntry s1 o.id (fun e => { e with
    flags := fl, lastStamp := o.last, lastExt := extStamp s o.last, area := min o.area 0xFFFF, y1 := o.yLast })
  let c := fun (b : Bool) (r : Nat) (t : State) => if b then cnt t (r + pof p) else t
  let s3 := cnt s2 (SG_CNT_OBJ + pof p)
  let s4 := c (bit fl lfCUT) SG_CNT_CUT (c (bit fl lfCLUMP) SG_CNT_CLUMP (c (bit fl lfSPECK) SG_CNT_SPECK
    (c (bit fl lfINCOMPLETE) SG_CNT_INCOMPLETE s3)))
  let s5 := if bit fl lfCUT then evt s4 fSG_EVT_CUT (pof p) else s4
  openCount p { s5 with ledger := { s5.ledger with
    closed := s5.ledger.closed ++ [⟨o.id, featureRecord o, bit fl lfSPECK && o.speckPass⟩] } }

/-- The T3 pixels of line `y` of the image, none outside it. -/
def t3At (s : State) (p : Nat) (y : Int) : Option (List Px) := (lineAt s p y).map (fun l => l.t3)

/-- The channel of SHARP for line `y`. -/
def sharpCh (s : State) (p y : Nat) : Nat :=
  match lineAt s p y with
  | none => 1
  | some l => match frameRec s p l.key with | none => 1 | some r => wb r.sg 0 17 16

/-- The cracks below an object's last runs, where its runs on the next line are `new`. -/
def crackBelow (s : State) (p : Nat) (new : List (Nat × Nat)) (o : OpenObj) : OpenObj :=
  match t3At s p o.yLast with
  | none => o
  | some l => crackRow (sharpCh s p o.yLast) l (runCols o.runs) new (t3At s p ((o.yLast : Int) + 1)) o

/-- Close every open object of a port with the given flags. -/
def closeAll (p flags : Nat) (s : State) : State :=
  forEach (portSt s p).objs (fun o t => closeObj p flags (crackBelow t p [] o) t) s

/-! ## Labelling (R109, R110) -/

/-- An open object and its runs on the line being labelled. -/
abbrev Work := OpenObj × List (Nat × Nat)

/-- An absorbed entry retires as DROPPED with MERGED, naming the survivor. -/
def absorbEntry (survivor : Nat) (o : OpenObj) (s : State) : State :=
  let s1 := setEntry s (idIndex o.id) { entryOf s o.id with
    outcome := ocDROPPED, flags := withBit (entryOf s o.id).flags lfMERGED true, mateNext := survivor }
  retireEntry o.id (cnt s1 LG_CNT_MERGE)

/-- The union of two objects; the first survives. -/
def mergeObj (a b : OpenObj) : OpenObj :=
  { a with
      merged := true, genMix := a.genMix || b.genMix || a.gen != b.gen, edge := a.edge || b.edge, runs := a.runs ++ b.runs,
      area := a.area + b.area, sx := a.sx + b.sx, sumY := a.sumY + b.sumY, cracks := a.cracks + b.cracks,
      sum := (List.range 4).map (fun c => nth a.sum c + nth b.sum c),
      sq := (List.range 4).map (fun c => nth a.sq c + nth b.sq c),
      hist := b.hist.foldl (fun h e => smAdd h e.1 e.2) a.hist,
      alarm := (List.range 8).map (fun k => nth a.alarm k + nth b.alarm k), ssum := a.ssum + b.ssum, sn := a.sn + b.sn,
      x0 := min a.x0 b.x0, x1 := max a.x1 b.x1 }

/-- A new object from a run of line `l`. -/
def newObj (id : Nat) (r : FrameRec) (l : PLine) (run : Nat × Nat) : OpenObj :=
  { id := id, img := l.img, y0 := l.y, yLast := l.y, frame := l.frame, idx := l.idx, first := l.stamp, last := l.stamp,
    gen := l.gen, genMix := false, edge := false, merged := false, runs := [], area := 0, sx := 0, sumY := 0, cracks := 0,
    sum := [0, 0, 0, 0], sq := [0, 0, 0, 0], hist := [], alarm := List.replicate 8 0, ssum := 0, sn := 0, x0 := run.1,
    x1 := run.2, areaMin := nth r.sg 7, areaMax := nth r.sg 8, speckPass := wb r.sg 0 25 25 = 1 }

/-- A run that connects to no open object: a new one, unless the port or the ledger is full (R109). -/
def startObj (p : Nat) (r : FrameRec) (l : PLine) (run : Nat × Nat) (works : List Work) (s : State) : List Work × State :=
  if 4096 ≤ works.length then (works, evtCnt s fSG_EVT_OPEN_OVF SG_CNT_OPEN_OVF (pof p))
  else if !canAlloc s then (works, ledgerFull s)
  else
    let id := nextId s
    let s1 := allocEntry s p l.frame l.stamp 0
    let s2 := setEntry s1 (idIndex id) { entryOf s1 id with img := l.img, y0 := l.y, y1 := l.y, gen := l.gen }
    (works ++ [(newObj id r l run, [run])], s2)

/-- Label one run. -/
def labelRun (p : Nat) (r : FrameRec) (l : PLine) (run : Nat × Nat) (works : List Work) (s : State) : List Work × State :=
  let hit := fun (w : Work) => w.1.runs.any (runsTouch run)
  match works.filter hit with
  | [] => startObj p r l run works s
  | h :: t =>
    let u : Work := t.foldl (fun a b => (mergeObj a.1 b.1, a.2 ++ b.2)) h
    let gone := t.map (fun w => w.1.id)
    ((works.filter (fun w => !gone.contains w.1.id)).map (fun w => if w.1.id = h.1.id then (u.1, u.2 ++ [run]) else w),
      if t = [] then s else setFlag (forEach t (fun w a => absorbEntry h.1.id w.1 a) s) h.1.id lfMERGED true)

/-- The edge columns of R112 for a line. -/
def atEdge (r : FrameRec) (l : PLine) (run : Nat × Nat) : Bool :=
  let n := l.t3.length
  let x0 := wb r.sg 1 15 0
  let x1 := x0 + wb r.sg 1 31 16 - 1
  run.1 == 0 || decide (n ≤ run.2 + 1) || (decide (run.1 ≤ x0) && decide (x0 ≤ run.2)) ||
    (decide (run.1 ≤ x1) && decide (x1 ≤ run.2)) || (!cxStrip r.cx && l.idx == 0)

/-- An object takes its runs of line `l`. -/
def takeRuns (s : State) (p : Nat) (r : FrameRec) (l : PLine) (o : OpenObj) (new : List (Nat × Nat)) : OpenObj :=
  let ch := wb r.sg 0 17 16
  let o1 := if o.runs = [] then o else crackBelow s p new o
  let o2 := (runCols new).foldl (fun a x => addPixel r.sg l.y x (pxAt l.t3 x) a) o1
  let o3 := crackSides ch l.t3 new (crackRow ch l.t3 (runCols new) o.runs (t3At s p ((l.y : Int) - 1)) o2)
  { o3 with
      yLast := l.y, last := l.stamp, runs := new, genMix := o3.genMix || o3.gen != l.gen,
      edge := o3.edge || new.any (atEdge r l), x0 := new.foldl (fun m x => min m x.1) o3.x0,
      x1 := new.foldl (fun m x => max m x.2) o3.x1 }

/-- An object after a line: closed when it has no run there, cut when it has reached SG_MAX_LINES, else updated. -/
def finishWork (p : Nat) (r : FrameRec) (l : PLine) (w : Work) (s : State) : State :=
  if w.2 = [] then closeObj p 0 (crackBelow s p [] w.1) s
  else
    let o := takeRuns s p r l w.1 w.2
    let maxL := wb r.sg 9 15 0
    if maxL ≠ 0 ∧ maxL ≤ o.yLast + 1 - o.y0 then
      closeObj p (2 ^ lfCUT + 2 ^ lfCLUMP) (crackBelow s p [] o) s
    else
      let s1 := updEntry s o.id (fun e => { e with lastStamp := o.last, lastExt := extStamp s o.last, area := min o.area 0xFFFF, y1 := o.yLast })
      updPort s1 p (fun x => { x with objs := x.objs.map (fun y => if y.id = o.id then o else y) })

/-- Label line `y` (R109 to R111). -/
def labelLine (p y : Nat) (s : State) : State :=
  match lineAt s p y with
  | none => s
  | some l => match frameRec s p l.key with
    | none => s
    | some r =>
      let on := wb r.sg 0 31 31 = 1
      let s0 := if (portSt s p).segWas ∧ ¬ on then closeAll p (2 ^ lfINCOMPLETE) s else s
      let start : List Work := (portSt s0 p).objs.map (fun o => (o, []))
      let res := (runsOf l.mask).foldl (fun (a : List Work × State) run => labelRun p r l run a.1 a.2) (start, s0)
      let s1 := updPort res.2 p (fun x => { x with objs := res.1.map (fun w => w.1), segWas := on })
      openCount p (forEach res.1 (fun w t => finishWork p r l w t) s1)

/-! ## The pump -/

/-- Run a stage on the next lines while they lie below `limit`. -/
def stage (get : PortSt → Nat) (limit : Nat) (p : Nat) (f : Nat → State → State) (s : State) : State :=
  let n := get (portSt s p)
  forEach (List.range (limit - n)) (fun i t => f (n + i) t) s

/-- A delay that the mosaic of the image in the stages gives (R63, R74). -/
def pipeReach (s : State) (p : Nat) (f : Nat → Nat) : Nat :=
  match (portSt s p).lines with
  | [] => f 0
  | l :: _ => match frameRec s p l.key with | none => f 0 | some r => frameReach r f

/-- How far a stage may go: to the image's end, or `delay` lines behind the stage before it. -/
def upTo (s : State) (p before delay : Nat) : Nat :=
  match (portSt s p).ended with
  | some _ => before
  | none => before - delay

/-- Correction, reconstruction and placing as far as the lines and the budget allow. -/
def runFront (p : Nat) (s : State) : State :=
  let s1 := stage PortSt.nCor (upTo s p (portSt s p).nIn (pipeReach s p mosaicReach)) p (fun y t =>
    updPort (correctLine p y t) p (fun x => { x with nCor := y + 1 })) s
  let s2 := stage PortSt.nRec (upTo s1 p (portSt s1 p).nCor (pipeReach s p reconReach)) p (fun y t =>
    updPort (reconLine p y t) p (fun x => { x with nRec := y + 1 })) s1
  stage PortSt.nPlc (portSt s2 p).nRec p (fun y t => if (portSt t p).nPlc = y then placeLine p t else t) s2

/-- Masks and labels. -/
def runBack (p : Nat) (s : State) : State :=
  let flush := (portSt s p).ended.isSome && (portSt s p).nPlc == (portSt s p).nIn
  let lim := fun (before delay : Nat) => if flush then before else before - delay
  let s1 := stage PortSt.nMsk (lim (portSt s p).nPlc 4) p (fun y t =>
    updPort (maskLine p y t) p (fun x => { x with nMsk := y + 1 })) s
  stage PortSt.nLab (lim (portSt s1 p).nMsk 1) p (fun y t =>
    updPort (labelLine p y t) p (fun x => { x with nLab := y + 1 })) s1

/-- Drop lines that no stage reads any more and frames that have no line left. -/
def pruneLines (p : Nat) (s : State) : State :=
  updPort s p (fun x =>
    let lines := x.lines.filter (fun l => decide (x.nLab < l.y + 10))
    let used := fun (k : Nat) => lines.any (fun l => l.key = k) ||
      x.rx.any (fun i => match i with | .line l => l.key = k | .imgEnd _ => false) ||
      (match x.cur with | some c => c.key = k | none => false)
    { x with lines := lines, frames := x.frames.filter (fun f => f.meas || used f.key) })

/-- The image has ended and every line is labelled: the open objects close, and the next line begins a new image. -/
def endImage (p : Nat) (s : State) : State :=
  match (portSt s p).ended with
  | none => s
  | some flag =>
    if (portSt s p).nLab < (portSt s p).nIn then s
    else
      let s1 := closeAll p (2 ^ flag) s
      updPort s1 p (fun x => { x with
        ended := none, lines := [], nIn := 0, nCor := 0, nRec := 0, nPlc := 0, nMsk := 0, nLab := 0, imgOpen := false })

/-- Run every stage. -/
def runStages (p : Nat) (s : State) : State := pruneLines p (endImage p (runBack p (runFront p s)))

/-- The pipeline stalls: a T3 line waits for budget. -/
def stalled (s : State) (p : Nat) : Bool := (portSt s p).owed.isSome

/-- Take items from before the pipeline while it does not stall. -/
def pumpLoop (fuel p : Nat) (s : State) : State :=
  match fuel with
  | 0 => s
  | k + 1 =>
    if stalled s p then s
    else match (portSt s p).rx with
      | [] => s
      | i :: t =>
        let s0 := updPort s p (fun x => { x with rx := t })
        let s1 := match i with
          | .line l => enterLine p l s0
          | .imgEnd flag => updPort s0 p (fun x => { x with ended := some flag })
        pumpLoop k p (runStages p s1)

/-- Move lines through the pipeline: first what a stall holds, then what waits. -/
def pump (p : Nat) (s : State) : State :=
  let s1 := if stalled s p then runStages p s else s
  statFlush p (pumpLoop ((portSt s1 p).rx.length + 1) p s1)

/-- Put an item before the pipeline. -/
def feed (p : Nat) (i : RxItem) (s : State) : State := pump p (updPort s p (fun x => { x with rx := x.rx ++ [i] }))

/-- The lines that wait in the receive buffer. -/
def rxLines (s : State) (p : Nat) : Nat :=
  ((portSt s p).rx.filter (fun i => match i with | .line _ => true | .imgEnd _ => false)).length

/-- PIPELINE_OUTPUT_PLACE. -/
def execPipelineOutputPlace (port : PortNo) (s : State) : Host.Outcome State Fault Refusal := .next (pump port.val s)

end Sys2Proof.Machine
end

