-- ==== Sys2Proof/Machine/Time.lean ====
section
/-! DEFINITION. The time bases (chapter 11): latches and snapshots, sources, the servo and its states, steps, Span time,
PTM, PPS_IN, alarms, and the time commands. -/

namespace Sys2Proof.Machine

/-! ## Counters -/

/-- Distance of base `b`'s registers. -/
def tbo (b : Nat) : Nat := b * 0x40

/-- Time base `b`. -/
def tbase (s : State) (b : Nat) : TimeBase := s.bases[(Fin.ofNat 4 b)]

/-- Change time base `b`. -/
def updBase (s : State) (b : Nat) (f : TimeBase → TimeBase) : State :=
  { s with bases := s.bases.set (Fin.ofNat 4 b) (f (tbase s b)) }

/-- SRC of base `b`. -/
def tbSrc (s : State) (b : Nat) : Nat := fget s fTB_SRV_CTL_SRC (tbo b)

/-- STATE of base `b`: 0 FREE, 1 ACQUIRE, 2 LOCKED, 3 HOLDOVER. -/
def tbState (s : State) (b : Nat) : Nat := fget s fTB_STAT_STATE (tbo b)

/-- A base's 48-bit value in units of 2^-16 ns. -/
def base64 (s : State) (b : Nat) : Nat := base48 s b * 65536 + (tbase s b).frac / 65536

/-- A difference modulo 2^n taken as signed. -/
def sgn (n : Nat) (i : Int) : Int := (BitVec.ofInt n i).toInt

/-- A read of TB_NS latches WRAP and FRAC for the agent that reads (R184). -/
def tbLatch (ag : Agent) (b : Nat) (s : State) : State :=
  let t := tbase s b
  match ag with
    | .host => wrn (wrn s (TB_HI + tbo b) t.wrap) (TB_FRAC + tbo b) t.frac
    | .dennil => { s with time := { s.time with
        hiLatch := upd s.time.hiLatch b (fun _ => t.wrap), fracLatch := upd s.time.fracLatch b (fun _ => t.frac) } }

/-- The read's data. -/
def tbNsRead (ag : Agent) (b : Nat) (s : State) : State := emit (tbLatch ag b s) (.readData ag (tbase s b).ns)

/-- TB_SNAP captures every base at one tick (R184). -/
def tbSnap (s : State) : State :=
  forEach (List.range 4) (fun b t =>
    wrn (wrn t (TB_SNAP_NS + 8 * b) (tbase t b).ns) (TB_SNAP_HI + 8 * b) (tbase t b).wrap) s

/-! ## States and sources -/

/-- TB0 of this unit is the chain root: pier 0 with SRC = NONE or PPS_IN (R187). -/
def chainRoot (s : State) : Bool :=
  pierValid s && myPier s == 0 && (tbSrc s 0 == 0 || tbSrc s 0 == 3)

/-- TB1 is locked as R187 defines. -/
def t1Locked (s : State) : Bool :=
  tbState s 1 == 2 && (tbSrc s 1 != 4 || tbState s 0 == 2 || chainRoot s)

/-- Keep ROOT, T1_LOCKED and VW_STAT.TB_OK. -/
def syncTime (s : State) : State :=
  let s1 := fbset (fbset s fTB_STAT_ROOT (chainRoot s)) fTB_STAT_T1_LOCKED (t1Locked s) 0x40
  fbset s1 fVW_STAT_TB_OK (t1Locked s)

/-- Put base `b` in a state; a change sets its STATE_CHG bit, and TB1 entering HOLDOVER is source 050h (R189). -/
def setTbState (b st : Nat) (s : State) : State :=
  if tbState s b = st then syncTime s
  else
    let s1 := syncTime (evtBit (fset s fTB_STAT_STATE st (tbo b)) TB_EVT b)
    if b = 1 ∧ st = 3 then paDetect 0x50 s1 else s1

/-- The sources that R186 allows a base. -/
def srcAllowed (s : State) (b src : Nat) : Bool :=
  match b with
  | 0 => src == 0 || src == 3 || (src == 1 && !(pierValid s && myPier s == 0))
  | 1 => src == 0 || src == 3 || src == 4 || src == 5
  | 2 => src == 0 || src == 2 || src == 3
  | _ => false

/-- A write of SRC (R186, R189); TB3's field is RO. -/
def tbSource (b src : Nat) (s : State) : State :=
  if b = 3 then s
  else if !srcAllowed s b src then evt s fTB_EVT_REFUSED
  else
    let s1 := updBase (fset s fTB_SRV_CTL_SRC src (tbo b)) b (fun t => { t with goodRun := 0, stepped := false })
    setTbState b 0 s1

/-! ## Steps (R190) -/

/-- An alarm whose base steps forward across its TARGET (R197). -/
def almCross (b : Nat) (from_ to_ : Nat) (a : Nat) (s : State) : State :=
  let o := a * 0x20
  let tgt : Nat := rdn s (TB_ALM_TGT_NS + o) + 2 ^ 32 * fget s fTB_ALM_TGT_HI_V o
  if fbit s fTB_ALM_CTL_EN o ∧ fget s fTB_ALM_CTL_BASE o = b ∧
      sgn 48 ((from_ : Int) - tgt) < 0 ∧ 0 ≤ sgn 48 ((to_ : Int) - tgt) then
    { s with time := { s.time with almPassed := upd s.time.almPassed a (fun _ => true) } }
  else s

/-- Add a signed number of ns to WRAP:NS of base `b`; the measurement interval of the base, and of a base that it is
the source of, contains a step. -/
def tbAdd (b : Nat) (d : Int) (s : State) : State :=
  let old := base48 s b
  let sum := ((tbase s b).carries : Int) * 2 ^ 48 + old + d
  let n := (BitVec.ofInt 64 sum).toNat
  let s1 := updBase s b (fun t => { t with
    ns := n % 2 ^ 32, wrap := n / 2 ^ 32 % 65536, carries := n / 2 ^ 48, stepped := true })
  let s2 := if (b = 0 ∧ tbSrc s 1 = 4) ∨ (b = 2 ∧ tbSrc s 1 = 5) then
      updBase s1 1 (fun t => { t with stepped := true })
    else s1
  forEach (List.range 8) (almCross b old (base48 s2 b)) s2

/-- The unit is idle as R228 defines. -/
def unitIdle (s : State) : Bool := quietUnit s && fget s fLG_STAT_LIVE == 0

/-- A step of base `b` is allowed (R190). -/
def stepAllowed (s : State) (b : Nat) : Bool := b != 3 && (b != 1 || quietUnit s)

/-- A step of base `b` by `d` ns, or its refusal. -/
def tbStepBy (b : Nat) (d : Int) (s : State) : State :=
  if stepAllowed s b then tbAdd b d s else evt s fTB_EVT_REFUSED

/-- The value of TB_STEP of base `b`. -/
def stepValue (s : State) (b : Nat) : Int :=
  let v : Nat := rdn s (TB_STEP_LO + tbo b) + 2 ^ 32 * fget s fTB_STEP_HI_V (tbo b)
  sgn 48 v

/-- The offset of TB1 against its source base plus TB_T1_OFS in 2^-16 ns (R187), saturated at ±2^46 (R188). -/
def satOfs (e : Int) : Int := max (-(2 ^ 46)) (min (2 ^ 46) e)

/-- The offset that TB1's source base measures now; none when its source is no base. -/
def t1Offset (s : State) : Option Int :=
  let src := if tbSrc s 1 = 4 then some 0 else if tbSrc s 1 = 5 then some 2 else none
  src.map (fun b =>
    satOfs (sgn 64 ((base64 s b : Int) + s32 (rdn s TB_T1_OFS) * 65536 - (base64 s 1 : Int))))

/-- ALIGN on TB1 (R190): a step by the offset in whole ns; a fraction is rounded either way (log 22). A source that is no base
measures no offset at that tick. -/
def tbAlign (s : State) : State :=
  match t1Offset s with
  | none => if stepAllowed s 1 then s else evt s fTB_EVT_REFUSED
  | some e => tbStepBy 1 (roundOpen e 65536 s) (useFree s)

/-! ## The servo (R188, R189) -/

/-- The limit of base `b` in 2^-32 ns per ns. -/
def servoLim (s : State) (b : Nat) : Int :=
  (((fget s fTB_SRV_LIM_LIM (tbo b)) * 4294967296 + 50000000) / 100000000 : Nat)

/-- FREQ of base `b` becomes `f`; a tracking SCLK_OUT follows TB1's (R38). -/
def freqPut (b f : Nat) (s : State) : State :=
  let s1 := wrn s (TB_FREQ + tbo b) f
  if b = 1 then sclkAll s1 else s1

/-- Clamp to plus and minus a limit. -/
def clampTo (l x : Int) : Int := max (-l) (min l x)

/-- The servo's update of FREQ for offset `e` and a source interval of `tint` ns. -/
def servo (b : Nat) (e : Int) (tint : Nat) (s : State) : State :=
  let lim := servoLim s b
  let r := (e * 65536).tdiv (tint : Int)
  let i0 := (tbase s b).integ + r / 2 ^ fget s fTB_SRV_CTL_KI_SH (tbo b)
  let i := clampTo lim i0
  let f0 := i + r / 2 ^ fget s fTB_SRV_CTL_KP_SH (tbo b)
  let f := clampTo lim f0
  let s1 := updBase s b (fun t => { t with integ := i })
  fbset (freqPut b (int32u f) s1) fTB_STAT_LIM_HIT (i != i0 || f != f0) (tbo b)

/-- LOCK_CNT of base `b`; 0 acts as 1. -/
def lockCnt (s : State) (b : Nat) : Nat := max 1 (fget s fTB_SRV_CTL_LOCK_CNT (tbo b))

/-- The lock detector of base `b` in ACQUIRE and LOCKED (R189). -/
def lockUpdate (b : Nat) (e : Int) (s : State) : State :=
  let thr : Int := (fget s fTB_SRV_CTL_LOCK_THR (tbo b) * 65536 : Nat)
  if tbState s b = 1 then
    let n := if (e.natAbs : Int) ≤ thr then (tbase s b).goodRun + 1 else 0
    let s1 := updBase s b (fun t => { t with goodRun := n })
    if lockCnt s b ≤ n then setTbState b 2 s1 else s1
  else if 4 * thr < (e.natAbs : Int) then setTbState b 1 (updBase s b (fun t => { t with goodRun := 0 }))
  else s

/-- An accepted measurement of base `b`. -/
def acceptOffset (b : Nat) (e : Int) (tint : Nat) (s0 : State) : State :=
  let ofs := max (-(2 ^ 31)) (min (2 ^ 31 - 1) (e / 4096))
  let s := fset (wrn s0 (TB_OFS_LAST + tbo b) (int32u ofs)) fTB_STAT_MEAS_CNT
    (fget s0 fTB_STAT_MEAS_CNT (tbo b) + 1) (tbo b)
  let fresh := fun (t : State) => setTbState b 1 (updBase t b (fun x => { x with goodRun := 0 }))
  if tbState s b = 0 then
    if fbit s fTB_SRV_CTL_STEP_FIRST (tbo b) then
      let s1 := tbStepBy b (roundOpen e 65536 s) (useFree s)
      fresh (if stepAllowed s b then s1 else servo b e tint s1)
    else fresh (servo b e tint s)
  else if tbState s b = 3 then fresh (servo b e tint s)
  else lockUpdate b e (servo b e tint s)

/-- Step 4 of R426: once TB1 is locked after step 3, Dennil aligns it while every port and the actuation block are idle. -/
def bringUpAlign (s : State) : State :=
  if dennilUp s && s.rs.step == 3 && t1Locked s && quietUnit s then
    let t := tbAlign s
    { t with rs := { t.rs with step := 4 } }
  else s

/-- A measurement of base `b`: discarded when its interval contains a step (R188). -/
def measure (b : Nat) (e : Int) (tint : Nat) (s : State) : State :=
  if tbSrc s b = 0 then s
  else if (tbase s b).stepped then updBase s b (fun t => { t with stepped := false })
  else bringUpAlign (acceptOffset b (satOfs e) tint s)

/-! ## Span time (R191 to R193) -/

/-- PERIOD of a control register in ms; 0 acts as 1. -/
def periodMs (n : Nat) : Nat := max 1 n

/-- TB0 at `phase` sixteenths of a ns after the last tick, in 2^-16 ns, to 1/16 ns. -/
def tb0Stamp (s : State) (phase : Nat) : Nat := (base64 s 0 / 4096 + phase) * 4096 % 2 ^ 64

/-- The upstream port, if any. -/
def upstreamPort (s : State) : Option Nat :=
  let u := fget s fSN_PIER_UPSTREAM
  if u = 1 then some 0 else if u = 2 then some 1 else none

/-- SYNCED of this unit's SYNC (R192). -/
def syncedNow (s : State) : Bool := chainRoot s || (tbState s 0 == 2 && fbit s fTB_STAT_ROOTED)

/-- SYNC payload (R192). -/
def syncBytes (synced : Bool) (seq t1 : Nat) : List Byte :=
  [1#8, if synced then 1#8 else 0#8] ++ leBytes 2 seq ++ leBytes 4 (t1 / 65536) ++ leBytes 2 (t1 / 2 ^ 48) ++
    leBytes 2 t1 ++ zeros 4

/-- Replace the exchanges in progress. -/
def setExch (l : List Exchange) (s : State) : State := { s with time := { s.time with exch := l } }

/-- The time marker that a packet follows leaves port `p` (R208), `phase` sixteenths of a ns after the last tick: it is counted
in SEQ, a SYNC takes its SEQ and T1, and a DREQ's exchange its T3 (R192). Another packet has no marker. -/
def stampDeparture (p phase : Nat) (t : TxItem) (s : State) : TxItem × State :=
  let seq := (netPort s p).tmkSeq
  let s1 := setNetPort (emit s (.spanMarker p seq)) p (fun n => { n with tmkSeq := (seq + 1) % 65536 })
  let pl := t.pkt.payload
  if !t.timed then (t, s)
  else if byteAt pl 0 = 1 then
    ({ t with pkt := { t.pkt with payload := syncBytes (syncedNow s) seq (tb0Stamp s phase) } }, s1)
  else (t, setExch (s1.time.exch.map (fun x => if x.seq = u16At pl 2 then { x with t3 := tb0Stamp s phase } else x)) s1)

/-- A chosen packet leaves port `p` (R206, R234), directly behind its marker if it has one (R208). -/
def sendItem (p : Nat) (x : TxItem × Bool) (phase : Nat) (s : State) : State :=
  let d := stampDeparture p phase x.1 s
  emit (takeItem p x d.2) (.spanPkt p (pktBytes d.1.pkt) x.1.eab)

/-- Queue a TIME packet behind a marker; when it is the next packet of its port, it leaves now. -/
def timeSend (p phase : Nat) (pl : List Byte) (s : State) : State :=
  let pk := mkMsg s clsTIME (flCTRL + flLOCAL) 0 [pl]
  let idle := ((netPort s p).txLocal.getD clsTIME []).isEmpty
  let s1 := pk.foldl (fun t k => enqueue t p ⟨k, none, false, true⟩) (bumpMsg s clsTIME)
  match (if idle then nextTx s1 p else none) with
  | some x => if x.1.timed then sendItem p x phase s1 else s1
  | none => s1

/-- SYNC on port `p`; its SEQ and T1 are those of its marker's departure. -/
def sendSync (phase p : Nat) (s : State) : State := timeSend p phase (syncBytes (syncedNow s) 0 0) s

/-- TB0 has just passed a multiple of the PERIOD in force; a tick adds at most 3 ns. -/
def syncDue (s : State) : Bool := decide (base48 s 0 % (s.time.spanPeriod * 1000000) < 3)

/-- A Span interval ends; the next one runs by PERIOD as it stands now (R200). -/
def spanInterval (s : State) : State :=
  { s with time := { s.time with spanPeriod := periodMs (fget s fTB_SPAN_CTL_PERIOD) } }

/-- SYNC on every active port but the upstream one; a link between two Keystones carries none (R226). -/
def syncSend (phase : Nat) (s : State) : State :=
  if !fbit s fTB_SPAN_CTL_EN || !syncDue s then s
  else spanInterval (forEach ([0, 1].filter (fun p => linkUp s p && upstreamPort s != some p && !dualKeystone s p))
    (sendSync phase) s)

/-- A SYNC arrives on the upstream port and is answered by a DREQ behind its own marker (R192). -/
def syncReceive (p : Nat) (pl : List Byte) (phase gap : Nat) (s : State) : State :=
  if upstreamPort s ≠ some p ∨ byteAt pl 0 ≠ 1 ∨ pl.length < 16 ∨ ¬ linkUp s p then s
  else
    let t1 := (u32At pl 4 + u16At pl 8 * 2 ^ 32) * 65536 + u16At pl 10
    let x : Exchange := ⟨u16At pl 2, t1, tb0Stamp s phase, 0, bit (byteAt pl 1) 0⟩
    timeSend p (phase + gap) ([2#8, 0#8] ++ leBytes 2 x.seq ++ zeros 4)
      (setExch (s.time.exch.filter (fun y => y.seq != x.seq) ++ [x]) s)

/-- A DREQ arrives and is answered with its marker's arrival (R192). -/
def dreqReceive (p : Nat) (pl : List Byte) (phase : Nat) (s : State) : State :=
  if byteAt pl 0 ≠ 2 ∨ pl.length < 8 ∨ ¬ linkUp s p then s
  else
    let t4 := tb0Stamp s phase
    netLocal s p clsTIME flCTRL ([3#8, 0#8] ++ leBytes 2 (u16At pl 2) ++ leBytes 4 (t4 / 65536) ++ leBytes 2 t4 ++
      zeros 6)

/-- The delay of an exchange: half of (T2 - T1) + (T4 - T3), in 2^-16 ns. DRESP carries 32 bits of ns, so the sum is
taken modulo 2^48 (R193). -/
def linkDelay (x : Exchange) (t4 : Nat) : Int :=
  sgn 48 ((x.t2 : Int) - x.t1 + ((t4 : Int) - x.t3)) / 2

/-- Port asymmetry in 2^-16 ns. -/
def asym (s : State) (p : Nat) : Int := s32 (rdn s (if p = 0 then TB_SPAN_ASYM_E else TB_SPAN_ASYM_W)) * 4096

/-- A DRESP completes the exchange of its SEQ (R193). -/
def drespReceive (p : Nat) (pl : List Byte) (s : State) : State :=
  match s.time.exch.find? (fun x => x.seq = u16At pl 2) with
  | none => s
  | some x =>
    if upstreamPort s ≠ some p ∨ byteAt pl 0 ≠ 3 ∨ pl.length < 16 then s
    else
      let t4 := u32At pl 4 * 65536 + u16At pl 8
      let ds := (linkDelay x t4 :: s.time.delays).take 8
      let mean := roundOpen ds.sum ds.length s
      let s0 := setExch (s.time.exch.erase x) s
      let s1 := useFree { s0 with time := { s0.time with delays := ds } }
      let s2 := useFree (wrn s1 TB_SPAN_DELAY (int32u (roundOpen mean 4096 s1)))
      let s3 := fbset s2 fTB_STAT_ROOTED x.synced
      if tbSrc s3 0 = 1 then
        spanInterval (measure 0 (sgn 64 ((x.t1 : Int) + mean + asym s p - x.t2)) (s.time.spanPeriod * 1000000) s3)
      else s3

/-- No DRESP came for the oldest exchange in twice PERIOD (R193). -/
def drespMiss (s : State) : State :=
  match s.time.exch with
  | [] => s
  | _ :: rest => evt (setExch rest s) fTB_EVT_DRESP_MISS

/-- A link has become ACTIVE, or the upstream port is another one: the delays measured before are forgotten (R193, R212). -/
def delaysFresh (s : State) : State := { s with time := { s.time with delays := [], exch := [] } }

/-- The upstream link has become ACTIVE. -/
def upstreamActive (p : Nat) (s : State) : State := if upstreamPort s = some p then delaysFresh s else s

/-! ## PTM and PPS_IN (R194, R195) -/

/-- PTM Enable of the PTM capability (log 20). -/
def ptmEnable (s : State) : Bool := bit (cfgRd s 0x248) 0

/-- TB2 follows PTM and dialogues run; no message leaves during a function reset (R262). -/
def ptmOn (s : State) : Bool :=
  tbSrc s 2 == 2 && fbit s fTB_PTM_CTL_EN && ptmEnable s && fbit s fHE_STAT_LINK_UP && !fbit s fHE_STAT_FLR_BUSY

/-- A dialogue starts: its request leaves now. -/
def ptmDialogue (s : State) : State :=
  if ptmOn s then emit { s with time := { s.time with ptm := some (base48 s 2) } } .ptmRequest else s

/-- The response gives the root's time at the request (R194); the next interval runs by PERIOD as it stands now (R200). -/
def ptmResponse (root : Nat) (s : State) : State :=
  match s.time.ptm with
  | none => s
  | some t =>
    let s1 := { s with time := { s.time with ptm := none } }
    let s2 := if ptmOn s then measure 2 (sgn 48 ((root : Int) - t) * 65536) (s.time.ptmPeriod * 1000000) s1 else s1
    { s2 with time := { s2.time with ptmPeriod := periodMs (fget s fTB_PTM_CTL_PERIOD) } }

/-- The offset of a base at an edge of PPS_IN: the nearest multiple of 10^9 ns less the captured value; of two equally
near, a free choice (log 22). -/
def ppsOffset (s : State) (b : Nat) : Int :=
  let c := (sgn 64 ((base48 s b : Int) - s32 (rdn s TB_PPS_ADJ))) % 2 ^ 48
  let m := c % 1000000000
  if m < 500000000 ∨ (m = 500000000 ∧ freeVal s % 2 = 0) then -m else 1000000000 - m

/-- An edge of PPS_IN; `rising` says which (R195). -/
def ppsEdge (rising : Bool) (s : State) : State :=
  if !fbit s fTB_PPS_CTL_EN || rising == fbit s fTB_PPS_CTL_POL then s
  else
    let es := [0, 1, 2].map (ppsOffset s)
    let s1 := useFree { s with time := { s.time with ppsSeen := true } }
    let s2 := forEach [0, 1, 2] (fun b t => if tbSrc t b = 3 then measure b (es.getD b 0 * 65536) 1000000000 t else t) s1
    emFire 0x38 s2

/-- No edge for 1.5 s. -/
def ppsMiss (s : State) : State :=
  if fbit s fTB_PPS_CTL_EN ∧ s.time.ppsSeen then
    evt { s with time := { s.time with ppsSeen := false } } fTB_EVT_PPS_MISS
  else s

/-! ## Alarms (R197) -/

/-- TARGET of alarm `a`. -/
def almTarget (s : State) (a : Nat) : Nat := rdn s (TB_ALM_TGT_NS + a * 0x20) + 2 ^ 32 * fget s fTB_ALM_TGT_HI_V (a * 0x20)

/-- How far alarm `a`'s base is past its TARGET. -/
def almAge (s : State) (a : Nat) : Int :=
  sgn 48 ((base48 s (fget s fTB_ALM_CTL_BASE (a * 0x20)) : Int) - almTarget s a)

/-- Advance TARGET by `k` periods. -/
def almAdvance (a k : Nat) (s : State) : State :=
  let o := a * 0x20
  let t := (almTarget s a + k * rdn s (TB_ALM_PERIOD + o)) % 2 ^ 48
  fset (wrn s (TB_ALM_TGT_NS + o) t) fTB_ALM_TGT_HI_V (t / 2 ^ 32) o

/-- Alarm `a` fires when its base has reached TARGET. -/
def alarmFire (a : Nat) (s : State) : State :=
  let o := a * 0x20
  let age := almAge s a
  if !fbit s fTB_ALM_CTL_EN o || s.time.almDone.getD a false || decide (age < 0) then s
  else
    let late := s.time.almPassed.getD a false
    let per := rdn s (TB_ALM_PERIOD + o)
    let s1 := fbset { s with time := { s.time with
      almPassed := upd s.time.almPassed a (fun _ => false),
      almDone := upd s.time.almDone a (fun _ => per == 0) } } fTB_ALM_STAT_FIRED true o
    let s2 := if late then evt (fbset s1 fTB_ALM_STAT_LATE true o) fTB_EVT_ALM_LATE else s1
    let k := if per = 0 then 0 else if late then (age / per).toNat + 1 else 1
    emFire (0x30 + a) (cntAdd (almAdvance a k s2) (TB_ALM_CNT_MISSED + o) (k - 1))

/-- A write of TB_ALM_CTL: an alarm enabled with its TARGET passed is late; BASE changes only while EN = 0. -/
def almCtl (a v : Nat) (s : State) : State :=
  let o := a * 0x20
  let was := fbit s fTB_ALM_CTL_EN o
  let s1 := if was then fbset s fTB_ALM_CTL_EN (bit v 31) o else putWord (TB_ALM_CTL + o) v s
  if !was && bit v 31 then
    { s1 with time := { s1.time with
      almPassed := upd s1.time.almPassed a (fun _ => decide (0 < almAge s1 a)),
      almDone := upd s1.time.almDone a (fun _ => false) } }
  else s1

/-! ## Writes of the TB block -/

/-- A write of TB_CMD of base `b`: STEP, ALIGN, CLR_I (W1S). -/
def tbCmd (b v : Nat) (s : State) : State :=
  let s1 := if bit v 0 then tbStepBy b (stepValue s b) s else s
  let s2 := if bit v 1 ∧ b = 1 then tbAlign s1 else s1
  if bit v 2 then updBase s2 b (fun t => { t with integ := 0 }) else s2

/-- A write of TB_SRV_CTL of base `b`: SRC through R186, the other fields as they are. -/
def tbSrvCtl (b v : Nat) (s : State) : State :=
  if b = 3 then s
  else tbSource b (v / 2 ^ 29 % 8) (fset s ⟨TB_SRV_CTL, 28, 0⟩ v (tbo b))

/-- A write of one word of the TB block. -/
def tbPut (a v : Nat) (s : State) : State :=
  let o := a - TB_NS
  if o < 0x100 then
    let b := o / 0x40
    match o % 0x40 with
    | 0x0C => if b ≠ 3 ∧ tbState s b = 0 ∧ tbSrc s b = 0 then freqPut b v s else s
    | 0x10 => tbSrvCtl b v s
    | 0x28 => tbCmd b v s
    | _ => putWord a v s
  else if a = TB_SNAP then (if bit v 0 then tbSnap s else s)
  else if 0x300 ≤ o ∧ o < 0x400 then
    let i := (o - 0x300) / 0x20
    if o % 0x20 = 0 then almCtl i v s
    else if o % 0x20 < 0x10 ∧ fbit s fTB_ALM_CTL_EN (i * 0x20) then s
    else putWord a v s
  else putWord a v s

/-! ## The rows -/

/-- TB_NS_READ. -/
def execTbNsRead (ag : Agent) (base : BaseNo) (s : State) : Host.Outcome State Fault Refusal :=
  .next (tbNsRead ag base.val s)

/-- TB_SNAP: any agent may write it without a lease. -/
def execTbSnap (s : State) : Host.Outcome State Fault Refusal := .next (tbSnap s)

/-- TB_SOURCE_WRITE. -/
def execTbSourceWrite (ag : Agent) (base : BaseNo) (src : Fin 8) (s : State) : Host.Outcome State Fault Refusal :=
  .next (gated ag 0x0B none (decide (base.val ≠ 3 ∧ tbSrc s base.val ≠ src.val)) (tbSource base.val src.val) s)

/-- TB1_MEASURE. -/
def execTb1Measure (s : State) : Host.Outcome State Fault Refusal :=
  .next (match t1Offset s with
    | none => s
    | some e => measure 1 e 1000000 s)

/-- TB_HOLDOVER_ENTRY: no measurement was accepted for four intervals. -/
def execTbHoldoverEntry (base : BaseNo) (s : State) : Host.Outcome State Fault Refusal :=
  .next (if tbSrc s base.val ≠ 0 ∧ (tbState s base.val = 1 ∨ tbState s base.val = 2) then
      setTbState base.val 3 (freqPut base.val (int32u (clampTo (servoLim s base.val) (tbase s base.val).integ)) s)
    else s)

/-- TB_STEP: a write of TB_CMD.STEP. -/
def execTbStep (ag : Agent) (base : BaseNo) (s : State) : Host.Outcome State Fault Refusal :=
  .next (gated ag 0x0B none true (tbCmd base.val 1) s)

/-- TB_ALIGN: a write of TB_CMD.ALIGN of TB1. -/
def execTbAlign (ag : Agent) (s : State) : Host.Outcome State Fault Refusal :=
  .next (gated ag 0x0B none true (tbCmd 1 2) s)

/-- TB_CLEAR_INTEGRATOR: a write of TB_CMD.CLR_I. -/
def execTbClearIntegrator (ag : Agent) (base : BaseNo) (s : State) : Host.Outcome State Fault Refusal :=
  .next (gated ag 0x0B none true (tbCmd base.val 4) s)

/-- SYNC_SEND; `phase` is the marker's departure after the last tick in sixteenths of a ns. -/
def execSyncSend (phase : Fin 32) (s : State) : Host.Outcome State Fault Refusal := .next (syncSend phase.val s)

/-- SYNC_RECEIVE; `phase` places the marker's arrival, and DREQ's marker departs `gap` sixteenths of a ns later. -/
def execSyncReceive (port : SpanNo) (payload : List Byte) (phase : Fin 32) (gap : Nat) (s : State) :
    Host.Outcome State Fault Refusal :=
  .next (syncReceive port.val payload phase.val gap s)

/-- DREQ_RECEIVE. -/
def execDreqReceive (port : SpanNo) (payload : List Byte) (phase : Fin 32) (s : State) :
    Host.Outcome State Fault Refusal :=
  .next (dreqReceive port.val payload phase.val s)

/-- DRESP_RECEIVE. -/
def execDrespReceive (port : SpanNo) (payload : List Byte) (s : State) : Host.Outcome State Fault Refusal :=
  .next (drespReceive port.val payload s)

/-- DRESP_MISS. -/
def execDrespMiss (s : State) : Host.Outcome State Fault Refusal := .next (drespMiss s)

/-- PTM_DIALOGUE. -/
def execPtmDialogue (s : State) : Host.Outcome State Fault Refusal := .next (ptmDialogue s)

/-- PTM_RESPONSE; `root` is the root's time in ns as PCI Express derives it. -/
def execPtmResponse (root : BitVec 64) (s : State) : Host.Outcome State Fault Refusal :=
  .next (ptmResponse root.toNat s)

/-- PPS_EDGE. -/
def execPpsEdge (rising : Bool) (s : State) : Host.Outcome State Fault Refusal := .next (ppsEdge rising s)

/-- PPS_MISS. -/
def execPpsMiss (s : State) : Host.Outcome State Fault Refusal := .next (ppsMiss s)

/-- ALARM_FIRE. -/
def execAlarmFire (alarm : Fin 8) (s : State) : Host.Outcome State Fault Refusal := .next (alarmFire alarm.val s)

/-- TIME_LOAD_PROFILE (R199). -/
def runTimeLoadProfile (_ : CmdCall) (s : State) : State × CmdRes :=
  match findProfile s 0x0B 0 with
  | none => (s, .refuse eSTATE 0)
  | some p =>
    let s1 := forEach p.writes (fun w t => tbPut w.1 w.2 t) s
    (fbset (fbset s1 fTB_SRV_CTL_STEP_FIRST true) fTB_SRV_CTL_STEP_FIRST true 0x80, .ok [])

/-- TIME_LOAD_PROFILE. -/
def execTimeLoadProfile (c : CmdCall) (s : State) : Host.Outcome State Fault Refusal :=
  .next (mbRun ⟨0x0B10, 0x10, false, 0, 0, false, true⟩ runTimeLoadProfile c s)

/-- TIME_ALIGN (R199). -/
def runTimeAlign (_ : CmdCall) (s : State) : State × CmdRes :=
  if unitIdle s then (tbAlign s, .ok []) else (s, .refuse eSTATE 0)

/-- TIME_ALIGN. -/
def execTimeAlign (c : CmdCall) (s : State) : Host.Outcome State Fault Refusal :=
  .next (mbRun ⟨0x0B11, 0x10, false, 0, 0, false, true⟩ runTimeAlign c s)

/-- TIME_STEP (R199). -/
def runTimeStep (c : CmdCall) (s : State) : State × CmdRes :=
  if 2 < pb c 0 then (s, .refuse eRANGE 0)
  else if !stepAllowed s (pb c 0) then (s, .refuse eSTATE 0)
  else (tbAdd (pb c 0) (sgn 48 (pq c 8)) s, .ok [])

/-- TIME_STEP. -/
def execTimeStep (c : CmdCall) (s : State) : Host.Outcome State Fault Refusal :=
  .next (mbRun ⟨0x0B90, 0x10, true, 16, 16, false, true⟩ runTimeStep c s)

end Sys2Proof.Machine
end

