-- ==== Sys2Proof/Machine/Chain.lean ====
section
/-! DEFINITION. The chain as one unit keeps it (chapter 13): credit epochs, what entering and leaving a link does to the
network layer, the Keystone's books and the chain map, upstream ports, and the pier that tiles go to. -/

namespace Sys2Proof.Machine

/-! ## Credit epochs (R235) -/

/-- Credits of class `c` that packets forwarded from port `p`, and BULK packets that wait for budget or pool, still hold in its
receive buffer. -/
def heldCredits (s : State) (p c : Nat) : Nat :=
  (((netPort s (1 - p)).txFwd.getD c []).map (fun t => credits t.pkt.payload.length)).sum +
    (if c = clsBULK then ((netPort s p).bulkWait.map (fun b => credits b.length)).sum else 0)

/-- The queue instance of port `p` and class `c` (R395). -/
def spanQueue (p c : Nat) : Nat := 54 + 6 * p + c

/-- A credit epoch starts on port `p`: counts of zero, a HELLO with the credits now free; a HELLO or CREDIT of the epoch before
that still waits is not sent, since its counts are those of that epoch. -/
def epochStart (p : Nat) (s : State) : State :=
  let z := List.replicate 6 0
  let offer := (List.range 6).map (fun c => grantCfg s p c - heldCredits s p c)
  let s1 := setNetPort s p (fun n => { n with
    active := true, helloRx := false, grant := z, sent := z, freed := z, offered := offer, rcvd := z, ownFreed := z,
    reported := z, partner := none, asked := false
    txLocal := n.txLocal.map (fun q => q.filter (fun t => !creditExempt t.pkt)) })
  let s2 := forEach (List.range 6) (fun c t => fset t fQU_CFG_SIZE (4 * grantCfg t p c) (quo (spanQueue p c))) s1
  sendHello (upstreamActive p (syncAvail p (cnt s2 (SN_CNT_EPOCH + sno p)))) p


/-! ## The chain map (R222, R226, R240) -/

/-- The units of one side that are reachable, nearest first: those that are there and have reported, as far as every link between
carries packets. Numbers held for units that are away lie between them (R225). -/
def walkSide (ver : Nat) (l : List PierHold) : List PierHold :=
  match l with
  | [] => []
  | h :: t =>
    if ver = 0 then []
    else if h.present then h :: walkSide (if h.east then h.eastVer else h.westVer) t
    else walkSide ver t

/-- The reachable units of one side of the Keystone. -/
def sideUnits (s : State) (east : Bool) : List PierHold :=
  walkSide (linkVer s (if east then 0 else 1)) (s.net.holds.filter (fun h => h.east == east))

/-- An entry of the map. -/
def holdUnit (h : PierHold) : ChainUnit := ⟨h.pier, h.transparent, h.hostLink, false⟩

/-- The Keystone's map, west to east. -/
def buildChain (s : State) : List ChainUnit :=
  ((sideUnits s false).reverse.map holdUnit) ++ [⟨0, false, fbit s fHE_STAT_LINK_UP, true⟩] ++
    (sideUnits s true).map holdUnit

/-- The versions of the links between the units of one side and the Keystone. -/
def sideVers (s : State) (east : Bool) : List Nat :=
  let u := sideUnits s east
  ((linkVer s (if east then 0 else 1)) :: u.map (fun h => if east then h.eastVer else h.westVer)).take u.length

/-- The chain floor (R240); with no link on the map it stays as it is. -/
def chainFloor (s : State) : Nat :=
  match sideVers s true ++ sideVers s false with
  | [] => fget s fSN_CHAIN_FLOOR
  | v :: t => t.foldl min v

/-- A CHAIN payload. -/
def chainBytes (l : List ChainUnit) (floor epoch : Nat) : List Byte :=
  [6#8, 0#8] ++ leBytes 2 l.length ++ leBytes 1 floor ++ [0#8] ++ leBytes 2 epoch ++
    l.flatMap (fun u => leBytes 2 (u.pier % 1024 + (if u.transparent then 1024 else 0) + (if u.hostLink then 2048 else 0) +
      (if u.keystone then 4096 else 0)))

/-! ## The host-link pier (R241) -/

/-- SN_HOST.PIER can take tiles: a reachable pier with HOST_LINK, or this unit while its endpoint's link is up. -/
def hostValid (s : State) : Bool :=
  let p := fget s fSN_HOST_PIER
  if pierValid s ∧ p = myPier s then fbit s fHE_STAT_LINK_UP
  else hasRoute s p && s.net.chain.any (fun u => !u.transparent && u.pier == p && u.hostLink)

/-- The candidates for SN_HOST.PIER as (hops, pier). -/
def hostCandidates (s : State) : List (Nat × Nat) :=
  match myIndex s with
  | none => []
  | some i => (s.net.chain.zipIdx).filterMap (fun x =>
      let u := x.1
      let mine := x.2 == i
      let ok := !u.transparent && (if mine then fbit s fHE_STAT_LINK_UP else u.hostLink && hasRoute s u.pier)
      if ok then some ((x.2 - i) + (i - x.2), u.pier) else none)

/-- The nearest candidate, the lower pier on a tie. -/
def hostNearest (s : State) : Option Nat :=
  match hostCandidates s with
  | [] => none
  | c :: t => some (t.foldl (fun a x => if x.1 < a.1 ∨ (x.1 = a.1 ∧ x.2 < a.2) then x else a) c).2

/-- SN_HOST.VALID follows the map and the links. -/
def hostKeep (s : State) : State := fbset s fSN_HOST_VALID (hostValid s)

/-- Dennil chooses the pier when AUTO is set and R241 lets it, and VALID follows. -/
def hostSelect (s : State) : State :=
  let may := fbit s fSN_HOST_AUTO && (!fbit s fTL_CTL_EN || (!hostValid s && decide (0x12 ≤ fget s fSN_CHAIN_FLOOR)))
  hostKeep (match (if may then hostNearest s else none) with
    | some p => fset s fSN_HOST_PIER p
    | none => s)

/-- TL_CTL.EN is cleared: the choice that a floor below 1.2 held back is due, for a pier that has left or lost its host link. -/
def hostFree (s : State) : State := if hostValid s then hostKeep s else hostSelect s

/-! ## Taking a map -/

/-- Commands forwarded to piers that are not reachable any more end E_UNREACH (R277). -/
def remoteLost (s : State) : State :=
  forEach (List.range 4) (fun c t =>
    let gone := (chan t c).remote.filter (fun r => !hasRoute t r.pier)
    let t1 := updChan t c (fun h => { h with remote := h.remote.filter (fun r => hasRoute t r.pier) })
    forEach gone (fun r u => complete c r.opcode eUNREACH r.tag (if r.taken then 1 else 0) [] u) t1) s

/-- The place of a numbered unit on the map. -/
def mapIndex (s : State) (pier : Nat) : Option Nat :=
  s.net.chain.findIdx? (fun u => !u.transparent && u.pier == pier)

/-- The place on the map of the first numbered unit beyond port `p`. -/
def beyondIndex (s : State) (p : Nat) : Option Nat :=
  if pierBeyond s p = 0xFFFF then none else mapIndex s (pierBeyond s p)

/-- Port `p` of a unit without a number faces east, as the numbered units beyond its ports tell it, or the side of the Keystone on
which the only one lies (R221; DEDUCED, log 105). -/
def facesEast (s : State) (p : Nat) : Option Bool :=
  match beyondIndex s p, beyondIndex s (1 - p), s.net.chain.findIdx? (fun u => u.keystone) with
  | some i, some j, _ => some (decide (j < i))
  | some i, none, some k => if i < k then some true else if k < i then some false else none
  | _, _, _ => none

/-- Keep FLIP of a unit without a number; ENUM sets it on the others. -/
def flipUpdate (s : State) : State :=
  if pierValid s then s
  else match facesEast s 0, facesEast s 1 with
    | some e, _ => fbset s fSN_PIER_FLIP (!e)
    | none, some w => fbset s fSN_PIER_FLIP w
    | none, none => s

/-- The SN_ROUTE code of the unit at place `j` of the map: by this unit's own place, or for a unit without a number by those of the
units beyond its ports. -/
def routeOf (s : State) (j : Nat) : Nat :=
  let e := eastPort s
  match myIndex s with
  | some i => if j = i then 3 else if i < j then e + 1 else 2 - e
  | none => match beyondIndex s e, beyondIndex s (1 - e) with
    | some i, some w => if i ≤ j then e + 1 else if j ≤ w then 2 - e else 0
    | some _, none => e + 1
    | none, some _ => 2 - e
    | none, none => 0

/-- The routes of a map as this unit sees them (R222). -/
def buildRoutes (s : State) : State :=
  let s1 := forEach (List.range 64) (fun w t => wrn t (SN_ROUTE + 4 * w) 0) (flipUpdate s)
  let s2 := forEach (s.net.chain.zipIdx) (fun x t => if x.1.transparent then t else setRoute t x.1.pier (routeOf s1 x.2)) s1
  if (mapIndex s 0).isSome || pierValid s then s2 else setRoute s2 0 (fget s fSN_PIER_UPSTREAM)

/-- Take a chain map. -/
def takeChain (l : List ChainUnit) (floor epoch : Nat) (s : State) : State :=
  let s1 := fset (fset { s with net := { s.net with chain := l } } fSN_CHAIN_EPOCH epoch) fSN_CHAIN_FLOOR floor
  helloOnChange s (remoteLost (hostSelect (evt (buildRoutes s1) fSN_EVT_CHAIN)))

/-- Keep a CHAIN payload as the last one (R243). -/
def keepChain (pl : List Byte) (s : State) : State := { s with net := { s.net with lastChain := pl } }


/-- The Keystone's books follow what it can reach: a unit beyond a dead link is away until it reports again, and a transparent
one, which holds no number, leaves the books (R239). -/
def sweepHolds (s : State) : State :=
  let w := sideUnits s true ++ sideUnits s false
  { s with net := { s.net with holds :=
    (s.net.holds.map (fun h => { h with present := h.present && w.contains h })).filter (fun h => h.present || !h.transparent) } }

/-- The Keystone broadcasts its map, under a new EPOCH when it has changed (R222). -/
def sendChain (s : State) : State :=
  let l := buildChain s
  let f := chainFloor s
  let same := l = s.net.chain ∧ f = fget s fSN_CHAIN_FLOOR
  let e := if same then fget s fSN_CHAIN_EPOCH else (fget s fSN_CHAIN_EPOCH + 1) % 65536
  let d := chainBytes l f e
  let s1 := netBcast s clsMGMT flCTRL (pieces 2 2048 d)
  if same then s1 else takeChain l f e (keepChain d s1)

/-- The Keystone publishes its map when it has changed (R222). -/
def publish (s : State) : State :=
  if !isKeystone s then s
  else
    let s1 := sweepHolds s
    if buildChain s1 = s1.net.chain ∧ chainFloor s1 = fget s1 fSN_CHAIN_FLOOR then s1 else sendChain s1

/-! ## REPORT (R242) -/

/-- Tell the Keystone of this unit's links; the Keystone itself looks at its map again. -/
def sendReport (s : State) : State :=
  if isKeystone s then publish s
  else reportSend s

/-! ## Upstream (R221, R227) -/

/-- The hop count that port `p`'s partner reports, if known. -/
def partnerHops (s : State) (p : Nat) : Option Nat :=
  if !linkUp s p then none
  else match (netPort s p).partner with
    | none => none
    | some h => if h.hops = 0xFFFF then none else some h.hops

/-- The partner of port `p`, or a unit beyond it, is numbered. -/
def numberedBeyond (s : State) (p : Nat) : Bool := pierBeyond s p != 0xFFFF

/-- The upstream port becomes the one of code `u`; the delays of another port's link are dropped (R193). -/
def setUpstream (u : Nat) (s : State) : State :=
  let s1 := fset s fSN_PIER_UPSTREAM u
  if fget s fSN_PIER_UPSTREAM = u then s1 else delaysFresh s1

/-- Keep UPSTREAM, HOPS, TRANSPARENT and the FLIP of a unit without a number at what the partners report. -/
def upstreamUpdate (s : State) : State :=
  if isKeystone s then s
  else
    let r : Nat × Nat := match partnerHops s 0, partnerHops s 1 with
      | some a, some b => if a ≤ b then (1, a + 1) else (2, b + 1)
      | some a, none => (1, a + 1)
      | none, some b => (2, b + 1)
      | none, none => (0, 0x3FF)
    let s1 := fset (setUpstream r.1 s) fSN_PIER_HOPS (min 0x3FF r.2)
    flipUpdate (fbset s1 fSN_PIER_TRANSPARENT (!pierValid s1 && numberedBeyond s1 0 && numberedBeyond s1 1))

/-! ## Enumeration (R224) -/

/-- An ENUM payload. -/
def enumBytes (east : Bool) (pier serial : Nat) : List Byte :=
  [3#8, if east then 0#8 else 1#8] ++ leBytes 2 pier ++ leBytes 4 serial ++ zeros 8

/-- Send ENUM on port `p`; the partner's SERIAL is that of its EXCH. -/
def sendEnum (p : Nat) (east : Bool) (pier : Nat) (s : State) : State :=
  netLocal (setNetPort s p (fun n => { n with asked := true })) p clsMGMT flCTRL
    (enumBytes east pier (rdn s (SL_PARTNER_SN + slo p)))

/-! ## Numbers for new partners (R225) -/

/-- Insert an element at a place of a list. -/
def insertAt {α : Type} (l : List α) (i : Nat) (x : α) : List α := l.take i ++ [x] ++ l.drop i

/-- Insert a hold at a place of its side. -/
def holdInsert (s : State) (i : Nat) (h : PierHold) : State :=
  let side := s.net.holds.filter (fun x => x.east == h.east)
  let rest := s.net.holds.filter (fun x => x.east != h.east)
  { s with net := { s.net with holds := rest ++ insertAt side i h } }

/-- Change the hold of a pier. -/
def updHold (s : State) (pier : Nat) (f : PierHold → PierHold) : State :=
  { s with net := { s.net with holds := s.net.holds.map (fun h => if h.pier = pier ∧ h.transparent = false then f h else h) } }

/-- The first hold with a property, and its place on its side. -/
def holdWhere (s : State) (f : PierHold → Bool) : Option (Nat × PierHold) :=
  match s.net.holds.find? f with
  | none => none
  | some h => ((s.net.holds.filter (fun x => x.east == h.east)).zipIdx.find? (fun x => f x.1)).map (fun x => (x.2, x.1))

/-- The hold of a pier and its place on its side. -/
def holdOf (s : State) (pier : Nat) : Option (Nat × PierHold) := holdWhere s (fun h => h.pier == pier && !h.transparent)

/-- How many units of a side the Keystone holds. -/
def sideCount (s : State) (east : Bool) : Nat := (s.net.holds.filter (fun h => h.east == east)).length

/-- The Keystone gives the next number to `serial`, found by `by_` on a side; none when numbers are exhausted. -/
def assignNext (east : Bool) (place serial : Nat) (s : State) : State × Option Nat :=
  let n := fget s fSN_NEXT_FREE
  if 1024 ≤ n then (evt s fSN_EVT_NUM_EXHAUST, none)
  else (holdInsert (fset s fSN_NEXT_FREE (n + 1)) place ⟨n, serial, false, east, false, 0, 0, 0, false⟩, some n)

/-- An ASSIGN to pier `to_` for `serial`; none orders it unnumbered or says that numbers are exhausted. -/
def sendAssign (to_ serial : Nat) (n : Option Nat) (s : State) : State :=
  netSend s clsMGMT flCTRL to_
    [[8#8, 0#8] ++ leBytes 2 (match n with | some k => k | none => 0xFFFF) ++ leBytes 4 serial ++ zeros 8]

/-- The Keystone answers a PIER_REQ of `to_` for `serial`, found on a side. -/
def answerReq (to_ serial : Nat) (east : Bool) (s : State) : State :=
  let place := match holdOf s to_ with | some (i, _) => i + 1 | none => sideCount s east
  let r := assignNext east place serial s
  sendAssign to_ serial r.2 r.1

/-- Port `p`'s partner is new at the end of the chain and asks to be numbered: the conditions of R225 hold together. While the
Keystone enumerates, it waits. -/
def pierReq (p : Nat) (s : State) : State :=
  match (netPort s p).partner with
  | none => s
  | some h =>
    let due := linkUp s p && fbit s fSN_CTL_AUTO_NUM && pierValid s && upstreamPort s != some p && !bit h.flags 0 &&
      h.otherPier == 0xFFFF && !(netPort s p).asked
    if !due then s
    else if isKeystone s then
      if s.net.stage ≠ .idle then s
      else
        let r := assignNext (p == 0) (sideCount s (p == 0)) h.serial s
        match r.2 with
        | none => setNetPort r.1 p (fun n => { n with asked := true })
        | some n => sendEnum p (p == 0) n r.1
    else if !reachable s 0 then s
    else netSend (setNetPort s p (fun n => { n with asked := true })) clsMGMT flCTRL 0
      [[7#8, 0#8] ++ leBytes 2 (myPier s) ++ leBytes 4 h.serial ++ zeros 8]

/-- What waited for the end of an enumeration: the PIER_REQs of others, and the Keystone's own partners. -/
def pierReqs (s : State) : State :=
  let q := s.net.pierReqs
  forEach [0, 1] pierReq (forEach q (fun r => answerReq r.1 r.2.1 r.2.2) { s with net := { s.net with pierReqs := [] } })

/-- Set the enumeration's stage. -/
def setStage (e : EnumStage) (s : State) : State := { s with net := { s.net with stage := e } }

/-- Complete SPAN_REENUMERATE. -/
def enumComplete (s : State) : State := forEach (deferredOf s 0x0D11) (fun x t => endD x 0 0 [] t) s

/-- Step 4: the numbers after the largest are free, and the map goes out. -/
def enumFinish (s : State) : State :=
  let big := max (max s.net.lastEast s.net.lastWest) ((s.net.holds.map (·.pier)).foldl max 0)
  let s1 := setStage .idle (fset s fSN_NEXT_FREE (min 1024 (big + 1)))
  pierReqs (enumComplete (sendChain (sweepHolds s1)))

/-- Step 3: the west side, or step 4 at once while its link is down or no number is left for it. -/
def enumWest (s : State) : State :=
  let s1 := { s with net := { s.net with lastWest := s.net.lastEast } }
  if !linkUp s1 1 then enumFinish s1
  else if 1024 ≤ s.net.lastEast + 1 then enumFinish (evt s1 fSN_EVT_NUM_EXHAUST)
  else setStage .west (sendEnum 1 false (s.net.lastEast + 1) s1)

/-- Step 1: the east side, or step 3 at once while its link is down. -/
def enumStart (s : State) : State :=
  let s1 := { s with net := { s.net with lastEast := 0, lastWest := 0 } }
  if linkUp s1 0 then setStage .east (sendEnum 0 true 1 s1) else enumWest s1

/-! ## Links that come and go -/

/-- A port enters ACTIVE or DEGRADED: a credit epoch, a REPORT, and on a Keystone that holds no number yet the
enumeration. -/
def linkEntered (p : Nat) (s : State) : State :=
  let s1 := epochStart p s
  if isKeystone s1 ∧ s1.net.holds = [] ∧ s1.net.stage = .idle then enumStart s1 else sendReport s1

/-- Every queued packet of port `p` is dropped, and forwarded ones free their credits (R238). -/
def dropQueues (p : Nat) (s : State) : State :=
  let n := netPort s p
  let fwd := n.txFwd.flatten
  let k := n.txLocal.flatten.length + fwd.length
  let s1 := forEach fwd (fun t u => match t.ingress with
    | some q => freeCredits q.val t.pkt.cls (credits t.pkt.payload.length) u
    | none => u) s
  let s2 := setNetPort s1 p (fun x => { x with
    active := false, helloRx := false, partner := none, txLocal := List.replicate 6 [], txFwd := List.replicate 6 [] })
  if k = 0 then s2 else evt (cntAdd s2 (SN_CNT_DROP_DOWN + sno p) k) fSN_EVT_DROP

/-- A word of SN_ROUTE without the routes of code `c`. -/
def clearCode (c w : Nat) : Nat :=
  (List.range 16).foldl (fun a i => if bits w (2 * i + 1) (2 * i) = c then setBits a (2 * i + 1) (2 * i) 0 else a) w

/-- Every pier beyond port `p` becomes unreachable. -/
def clearRoutes (p : Nat) (s : State) : State :=
  forEach (List.range 64) (fun w t => wrn t (SN_ROUTE + 4 * w) (clearCode (p + 1) (rdn t (SN_ROUTE + 4 * w)))) s

/-- SN_CTL.EN falls to 0: what waits and is neither HELLO, CREDIT nor TIME is dropped; a packet made here for want of a route, a
forwarded one on the port it arrived on, with its credits freed (R232). -/
def dropDisabled (p : Nat) (s : State) : State :=
  let n := netPort s p
  let gone := fun (q : List (List TxItem)) => q.flatten.filter (fun t => !alwaysCarried t.pkt)
  let keep := fun (q : List (List TxItem)) => q.map (fun l => l.filter (fun t => alwaysCarried t.pkt))
  let s1 := setNetPort s p (fun x => { x with txLocal := keep x.txLocal, txFwd := keep x.txFwd })
  let k := (gone n.txLocal).length
  forEach (gone n.txFwd) (fun t u => match t.ingress with
    | some q => freeCredits q.val t.pkt.cls (credits t.pkt.payload.length) (dropNoRoute u q.val 1)
    | none => u) (if k = 0 then s1 else dropNoRoute s1 p k)

/-- A port enters DETECT or DISABLED (R238, R239). -/
def portDown (p : Nat) (s : State) : State :=
  let s1 := dropQueues p s
  let s2 := clearRoutes p s1
  let s3 := fbset s2 fSN_PARTNER_PIER_VALID false (sno p)
  helloOnChange s (sendReport (remoteLost (hostSelect (upstreamUpdate s3))))

end Sys2Proof.Machine
end

