-- ==== Sys2Proof/Machine/SpanLanes.lean ====
section
/-! DEFINITION. The lanes of the Span ports (chapter 12): bring-up, lane failures, retrains, SKIP, the credit audit and the
eye scan. -/

namespace Sys2Proof.Machine

/-- A host write of fields that are not lease-writable is discarded and counted when it would change one (R268). -/
def dennilOnly (ag : Agent) (changes : Bool) (f : State → State) (s : State) : State :=
  match ag with
  | .dennil => f s
  | .host => if changes then noLease s else s

/-- The lanes of port `p`. -/
def lanePort (s : State) (p : Nat) : LanePort := s.lanes[(Fin.ofNat 2 p)]

/-- Change the lanes of port `p`. -/
def updLanes (s : State) (p : Nat) (f : LanePort → LanePort) : State :=
  { s with lanes := s.lanes.set (Fin.ofNat 2 p) (f (lanePort s p)) }

/-- The lanes of a mask, rising. -/
def maskLanes (m : Nat) : List Nat := (List.range 4).filter (fun k => bit m k)

/-- The mask of a list of lanes. -/
def laneMask (l : List Nat) : Nat := (List.range 4).foldl (fun a k => a + if l.contains k then 2 ^ k else 0) 0

/-- The lanes of port `p` whose one-bit status field is set. -/
def lanesWith (s : State) (f : Fld) (p : Nat) : List Nat :=
  (List.range 4).filter (fun k => fbit s f (slo p + 4 * k))

/-- Set a one-bit status field on the lanes of a mask and clear it on the others. -/
def setLanes (f : Fld) (p m : Nat) (s : State) : State :=
  forEach (List.range 4) (fun k t => fbset t f (bit m k) (slo p + 4 * k)) s

/-- Settings that take effect at an entry to DETECT or TRAIN. -/
def latchLanes (p : Nat) (s : State) : State :=
  updLanes s p (fun l => { l with
    laneEn := fget s fSL_CTL_LANE_EN (slo p), rateEn := fget s fSL_CTL_RATE_EN (slo p)
    thr := max 1 (fget s fSL_ERR_THR_THR (slo p)) })

/-! ## The eye scan (R218, R220) -/


/-- The bits that a scan of port `p` compares: 2^DWELL. -/
def eyeBits (s : State) (p : Nat) : Nat := 2 ^ max 20 (min 44 (fget s fSL_EYE_CTL_DWELL (slo p)))

/-- The bits compared and the disagreements so far. -/
def eyeCounts (s : State) (p : Nat) : Nat × Nat :=
  (rdn s (SL_EYE_BITS_LO + slo p) + 2 ^ 32 * rdn s (SL_EYE_BITS_HI + slo p),
   rdn s (SL_EYE_ERR_LO + slo p) + 2 ^ 32 * rdn s (SL_EYE_ERR_HI + slo p))

/-- Write SL_EYE_BITS and SL_EYE_ERR. -/
def eyePut (p b e : Nat) (s : State) : State :=
  let s1 := wrn (wrn s (SL_EYE_BITS_LO + slo p) b) (SL_EYE_BITS_HI + slo p) (b / 2 ^ 32)
  wrn (wrn s1 (SL_EYE_ERR_LO + slo p) e) (SL_EYE_ERR_HI + slo p) (e / 2 ^ 32)

/-- A running scan has gone on: BITS rises by a free number below its end, ERR by at most as much. Which bits are compared (all
of them, or those that the data sampler decides 1 or 0, by the sign of V) decides how fast, which no command tells. -/
def eyeRise (p : Nat) (s : State) : State :=
  if !fbit s fSL_EYE_CTL_BUSY (slo p) then s
  else
    let c := eyeCounts s p
    let up := freeVal s % max 1 (eyeBits s p - c.1)
    let s1 := useFree s
    eyePut p (c.1 + up) (c.2 + freeVal s1 % (up + 1)) (useFree s1)

/-- A scan ends. -/
def eyeStop (p : Nat) (aborted : Bool) (s : State) : State :=
  evt (fbset (fbset s fSL_EYE_CTL_BUSY false (slo p)) fSL_EYE_CTL_ABORT aborted (slo p)) fSL_EVT_EYE_DONE (slo p)

/-- The SPAN_EYE_SCAN of port `p` ends: its data are written and it completes, or with a scan cut short it completes E_STATE
(DESIGN CHOICE, log 105). -/
def eyeCmdEnd (p : Nat) (data : Option (List Byte)) (s : State) : State :=
  forEach ((deferredOf s 0x0C11).filter (fun x => pb x.2.call 0 == p)) (fun x t =>
    match data with
    | some d => endHost x (pq x.2.call 8) d [] t
    | none => endD x eSTATE 0 [] t) (updLanes s p (fun l => { l with grid := none }))

/-- A running eye scan stops early (R218). -/
def eyeAbort (p : Nat) (s : State) : State :=
  if !fbit s fSL_EYE_CTL_BUSY (slo p) then s else eyeCmdEnd p none (eyeStop p true (eyeRise p s))

/-- SL_STAT.COUNT as a number of lanes. -/
def lanesUsed (s : State) (p : Nat) : Nat :=
  let c := fget s fSL_STAT_COUNT (slo p)
  if c = 3 then 4 else c

/-- START: the counts clear and the scan begins; a scan of a lane that is not in use stops at once. -/
def eyeBegin (p : Nat) (s : State) : State :=
  let s1 := fbset (fbset (eyePut p 0 0 s) fSL_EYE_CTL_ABORT false (slo p)) fSL_EYE_CTL_BUSY true (slo p)
  if linkUp s p ∧ fget s fSL_EYE_CTL_LANE (slo p) < lanesUsed s p then s1 else eyeAbort p s1

/-- The points of a SPAN_EYE_SCAN from (-32, -64), H-minor, V ascending, as SL_EYE_CTL spells them. -/
def eyePoints (hStep vStep : Nat) : List (Nat × Nat) :=
  ((List.range 128).filter (fun v => v % vStep == 0)).flatMap (fun v =>
    ((List.range 64).filter (fun h => h % hStep == 0)).map (fun h => ((h + 32) % 64, (v + 64) % 128)))

/-- The next point of a grid is scanned; after the last one the errors counted, one u32 each, go to the host. -/
def eyeNext (p : Nat) (g : EyeGrid) (s : State) : State :=
  match g.todo with
  | [] => eyeCmdEnd p (some (g.done.reverse.flatMap (leBytes 4))) s
  | x :: _ =>
    eyeBegin p (fset (fset (updLanes s p (fun l => { l with grid := some g })) fSL_EYE_CTL_H x.1 (slo p))
      fSL_EYE_CTL_V x.2 (slo p))

/-- BITS reaches 2^DWELL; `errs` bits more than the registers show have disagreed. -/
def eyeDone (p errs : Nat) (s : State) : State :=
  if !fbit s fSL_EYE_CTL_BUSY (slo p) then s
  else
    let c := eyeCounts s p
    let e := c.2 + min errs (eyeBits s p - c.1)
    let s1 := eyeStop p false (eyePut p (eyeBits s p) e s)
    match (lanePort s p).grid with
    | none => s1
    | some g => eyeNext p ⟨g.todo.drop 1, e :: g.done⟩ s1

/-- A write of SL_EYE_CTL (R218): while a scan runs only START acts. -/
def eyeCtl (p v : Nat) (s : State) : State :=
  let s1 := if fbit s fSL_EYE_CTL_BUSY (slo p) then s
    else fset (fset (fset (fset s fSL_EYE_CTL_LANE (bits v 27 26) (slo p)) fSL_EYE_CTL_H (bits v 25 20) (slo p))
      fSL_EYE_CTL_V (bits v 19 13) (slo p)) fSL_EYE_CTL_DWELL (bits v 5 0) (slo p)
  if bit v 31 then eyeBegin p s1 else s1

/-! ## Training and exchange sets (R209, R210) -/

/-- The partner's transmit lanes that this end receives on the lanes of a mask. -/
def planesOf (s : State) (p m : Nat) : Nat :=
  laneMask ((maskLanes m).map (fun k => fget s fSL_LANE_STAT_PLANE (slo p + 4 * k)))

/-- The partner's transmit lanes that this end receives. -/
def planesIn (s : State) (p : Nat) : Nat := planesOf s p (lanePort s p).attempt

/-- The data bytes of the TS that transmit lane `k` sends (R209). A lane whose partner number is not known yet, for want of
symbol lock, is not in RX_OK. -/
def tsBytes (s : State) (p k : Nat) : List Byte :=
  let l := lanePort s p
  let ack := fbit s fSL_LANE_STAT_SYM_LOCK (slo p + 4 * k)
  let rxOk := planesOf s p (laneMask ((maskLanes l.attempt).filter (fun i =>
    fbit s fSL_LANE_STAT_BIT_LOCK (slo p + 4 * i) && fbit s fSL_LANE_STAT_SYM_LOCK (slo p + 4 * i))))
  leBytes 1 k ++ leBytes 1 (fget s fSL_STAT_RATE (slo p)) ++
    leBytes 1 ((if ack then 1 else 0) + (if l.quick then 2 else 0)) ++ leBytes 1 rxOk ++ List.replicate 10 0x4A#8

/-- TS on every lane of the attempt (R211). -/
def sendTs (p : Nat) (s : State) : State :=
  forEach (maskLanes (lanePort s p).attempt) (fun k t => emit t (.spanTs p k (tsBytes s p k))) s

/-- The data bytes of this port's EXCH (R210). -/
def exchBytes (s : State) (p : Nat) (ack : Bool) : List Byte :=
  let b := fun (x : Bool) (w : Nat) => if x then w else 0
  let f := b ack 1 + b (!fbit s fRS_STRAP_KEYSTONE_N) 2 + b (pierValid s) 4 + b (causeway s) 8 + b (fbit s fHE_STAT_LINK_UP) 16
  let d := [0x10#8, 0x12#8] ++ leBytes 1 (lanePort s p).rateEn ++ leBytes 1 (fget s fSL_STAT_RATE (slo p)) ++
    leBytes 1 (planesIn s p) ++ leBytes 1 f ++ leBytes 2 (myPier s) ++ leBytes 4 s.net.serial
  d ++ leBytes 2 (crc16 d)

/-- EXCH, with ACK from the first two identical valid EXCH received (R211). -/
def sendExch (p : Nat) (ack : Bool) (s : State) : State := emit s (.spanExch p (exchBytes s p ack))

/-! ## Bring-up (R211 to R213) -/

/-- A change of port `p` whose packets in progress, at most one each way, no operand tells (R215). -/
def withCut (p : Nat) (f : Fin 3 → State → State) (s : State) : State :=
  if linkUp s p then f (Fin.ofNat 3 (freeVal s)) (useFree s) else f 0 s

/-- Port `p` leaves ACTIVE or DEGRADED; `cut` packets were in progress on it, at most one each way (R215). -/
def leaveActive (p : Nat) (cut : Fin 3) (s : State) : State :=
  if !linkUp s p then s
  else
    let s1 := eyeAbort p (cntAdd s (SL_CNT_ABORT + slo p) cut.val)
    let s2 := setLanes fSL_LANE_STAT_USED p 0 (fset s1 fSL_STAT_COUNT 0 (slo p))
    setNetPort s2 p (fun n => { n with active := false, helloRx := false })

/-- Entry to DETECT (R211, R238). -/
def enterDetect (p : Nat) (cut : Fin 3) (s : State) : State :=
  let s1 := latchLanes p (fset (leaveActive p cut s) fSL_STAT_STATE 1 (slo p))
  replaceUpdate (portDown p (updLanes s1 p (fun l => { l with failedRates := [], quick := false })))

/-- Entry to DISABLED. -/
def enterDisabled (p : Nat) (cut : Fin 3) (s : State) : State :=
  let s1 := fset (leaveActive p cut s) fSL_STAT_STATE 0 (slo p)
  replaceUpdate (portDown p s1)

/-- Entry to TRAIN at a rate; an attempt takes the lanes detected and enabled that have not failed, and TS go out on them. -/
def enterTrain (p rate : Nat) (quick : Bool) (s : State) : State :=
  let s1 := latchLanes p s
  let l := lanePort s1 p
  let m := (laneMask (lanesWith s1 fSL_LANE_STAT_FAILED p)).xor 15 |>.land l.detected |>.land l.laneEn
  let s2 := fset (fset s1 fSL_STAT_STATE 2 (slo p)) fSL_STAT_RATE rate (slo p)
  let s3 := setLanes fSL_LANE_STAT_BIT_LOCK p 0 (setLanes fSL_LANE_STAT_SYM_LOCK p 0 s2)
  sendTs p (updLanes s3 p (fun x => { x with attempt := m, quick := quick }))

/-- A quick retrain of a port in ACTIVE or DEGRADED at its rate. -/
def quickRetrain (p : Nat) (cut : Fin 3) (s : State) : State :=
  if !linkUp s p then s
  else
    let s1 := cnt (leaveActive p cut s) (SL_CNT_RETRAIN + slo p)
    replaceUpdate (enterTrain p (fget s fSL_STAT_RATE (slo p)) true s1)

/-- Complete the SPAN_LINK_RETRAIN that waits for port `p` (R220). -/
def retrainDone (p : Nat) (s : State) : State :=
  forEach ((deferredOf s 0x0C10).filter (fun x => pb x.2.call 0 == p)) (fun x t => endD x 0 0 [] t) s

/-- The link goes down (R211). -/
def linkDown (p : Nat) (cut : Fin 3) (s : State) : State :=
  if !linkUp s p then s
  else retrainDone p (evt (cnt (enterDetect p cut s) (SL_CNT_DOWN + slo p)) fSL_EVT_DOWN (slo p))

/-- The port finds terminations on the lanes of `term`. The marks of failed lanes clear, and with them the errors counted toward
the next failure (DEDUCED, log 105). -/
def detect (p term : Nat) (s : State) : State :=
  if slState s p ≠ 1 then s
  else
    let m := term.land (lanePort s p).laneEn
    if m = 0 then latchLanes p s
    else
      let s1 := setLanes fSL_LANE_STAT_FAILED p 0 s
      enterTrain p 0 false (replaceUpdate (updLanes s1 p (fun l => { l with
        detected := term, failedRates := [], errs := [] })))

/-- Lanes without lock leave the attempt and the port enters LOCK. -/
def enterLock (p locked : Nat) (s : State) : State :=
  let m := (lanePort s p).attempt.land locked
  sendTs p (fset (setLanes fSL_LANE_STAT_BIT_LOCK p m (updLanes s p (fun l => { l with attempt := m })))
    fSL_STAT_STATE 3 (slo p))

/-- The lanes of `locked` have bit lock; the receivers of `inv` find COM inverted (R216). With every lane of the attempt the
port enters LOCK; fewer wait in TRAIN for the rest. -/
def bitLock (p locked inv : Nat) (s : State) : State :=
  let l := lanePort s p
  let m := l.attempt.land locked
  if slState s p ≠ 2 ∨ m = 0 then s
  else
    let s1 := forEach (maskLanes m) (fun k t => fbset t fSL_LANE_STAT_RX_INV (bit inv k) (slo p + 4 * k)) s
    if m = l.attempt then enterLock p locked s1 else setLanes fSL_LANE_STAT_BIT_LOCK p m s1

/-- The TS handshake has completed on the lanes of `ok`, TS with ACK having gone out on them; `plane` names the partner's
transmit lane on each receive lane (R211, R213). EXCH follows. -/
def lockDone (p ok : Nat) (plane : List (Fin 4)) (s : State) : State :=
  let m := (lanePort s p).attempt.land ok
  if slState s p ≠ 3 ∨ m = 0 then s
  else
    let s1 := setLanes fSL_LANE_STAT_SYM_LOCK p m (updLanes s p (fun l => { l with attempt := m }))
    let s2 := forEach (maskLanes m) (fun k t => fset t fSL_LANE_STAT_PLANE (plane.getD k 0).val (slo p + 4 * k)) s1
    sendExch p false (fset (sendTs p s2) fSL_STAT_STATE 4 (slo p))

/-- An attempt fails: the next lower rate that both ends enable, or DETECT (R211). -/
def attemptFails (p : Nat) (s : State) : State :=
  let l := lanePort s p
  let rate := fget s fSL_STAT_RATE (slo p)
  if rate = 0 ∨ l.quick then enterDetect p 0 s
  else
    let both := l.rateEn.land (bits (rdn s (SL_PARTNER0 + slo p)) 19 16)
    let next := ((List.range rate).filter (fun r => r == 0 || bit both r)).getLastD 0
    enterTrain p next false (updLanes s p (fun x => { x with failedRates := rate :: x.failedRates }))

/-- TRAIN, LOCK or EXCHANGE times out; `locked` names the lanes with bit lock. -/
def stateTimeout (p locked : Nat) (s : State) : State :=
  let st := slState s p
  if st < 2 ∨ 4 < st then s
  else
    let s1 := evtCnt s fSL_EVT_TMO SL_CNT_TMO (slo p)
    if st = 2 ∧ (lanePort s p).attempt.land locked ≠ 0 then enterLock p locked s1 else attemptFails p s1

/-- Round a number of lanes down to 4, 2 or 1. -/
def laneCount (n : Nat) : Nat := if 4 ≤ n then 4 else if 2 ≤ n then 2 else n

/-- The COUNT code of SL_STAT. -/
def countCode (c : Nat) : Nat := if c = 4 then 3 else c

/-- The lowest `c` lanes of a mask as LANE_MAP spells them. -/
def laneMap (m c : Nat) : Nat :=
  (((maskLanes m).take c).zipIdx).foldl (fun a x => a + x.1 * 4 ^ x.2) 0

/-- The lanes of LANE_EN that detected a termination (R212). -/
def offeredCount (s : State) (p : Nat) : Nat := (maskLanes ((lanePort s p).detected.land (lanePort s p).laneEn)).length

/-- The lane count of the exchange: own lanes in the partner's RX_OK, and the partner's that this end receives (R213). -/
def exchCount (s : State) (p rxOk : Nat) : Nat :=
  laneCount (min (maskLanes rxOk).length (maskLanes (planesIn s p)).length)

/-- The port carries packets from now on (R212). -/
def enterActive (p rxOk c ver offered : Nat) (s : State) : State :=
  let s1 := fset (fset s fSL_STAT_COUNT (countCode c) (slo p)) fSL_STAT_LANE_MAP (laneMap rxOk c) (slo p)
  let inUse := (maskLanes (planesIn s p)).take c
  let used := (maskLanes (lanePort s p).attempt).filter (fun k =>
    inUse.contains (fget s fSL_LANE_STAT_PLANE (slo p + 4 * k)))
  let s2 := setLanes fSL_LANE_STAT_USED p (laneMask used) (fset s1 fSL_STAT_VER ver (slo p))
  let low := decide (c < min (offeredCount s p) offered)
  let s3 := fset s2 fSL_STAT_STATE (if low then 6 else 5) (slo p)
  let s4 := replaceUpdate (if low then paDetect (0xA0 + 8 * p) s3 else s3)
  retrainDone p (linkEntered p (evt s4 fSL_EVT_UP (slo p)))

/-- The end of EXCHANGE: two identical valid EXCH with ACK have come, and this port has sent its own with ACK (R210 to R212). The
partner's offered count is in no EXCH field and is an operand. -/
def exchangeDone (p : Nat) (exch : List Byte) (offered : Nat) (s : State) : State :=
  let c := exchCount s p (byteAt exch 4 % 16)
  if slState s p ≠ 4 ∨ exch.length ≠ 14 ∨ crc16 (exch.take 12) ≠ u16At exch 12 ∨ ¬ bit (byteAt exch 5) 0 ∨ c = 0 then s
  else
    let s0 := sendExch p true s
    let s1 := wrn (wrn s0 (SL_PARTNER0 + slo p) (u32At exch 0)) (SL_PARTNER1 + slo p) (u32At exch 4)
    let s2 := wrn s1 (SL_PARTNER_SN + slo p) (u32At exch 8)
    let l := lanePort s p
    let hi := min 0x12 (byteAt exch 1)
    if hi < max 0x10 (byteAt exch 0) then
      retrainDone p (evt (enterDisabled p 0 s2) fSL_EVT_VER_MISMATCH (slo p))
    else
      let both := l.rateEn.land (byteAt exch 2)
      let target := ((List.range 4).filter (fun r => bit both r && !l.failedRates.contains r)).getLastD 0
      if fget s fSL_STAT_RATE (slo p) < target then enterTrain p target false s2
      else enterActive p (byteAt exch 4 % 16) c hi offered s2

/-- A write of SL_CTL.EN. -/
def portEnable (p : Nat) (en : Bool) (cut : Fin 3) (s : State) : State :=
  let s1 := fbset s fSL_CTL_EN en (slo p)
  if !en then enterDisabled p cut s1
  else if slState s p = 0 then enterDetect p 0 s1
  else s1

/-- The ticks of the window of R214: 1 ms of 2 ns each. -/
abbrev errWindow : Nat := 500000

/-- A lane counts errors: its counters, and the window that R214 judges (R203). -/
def laneErrors (p lane cv disp : Nat) (s : State) : State :=
  let s1 := cntAdd (cntAdd s (SL_CNT_CV + slo p + 4 * lane) cv) (SL_CNT_DISP + slo p + 4 * lane) disp
  if cv + disp = 0 then s1
  else updLanes s1 p (fun l => { l with
    errs := l.errs.filter (fun e => decide (s.tick < e.at_ + errWindow)) ++ [⟨s.tick, lane, cv + disp⟩] })

/-- The errors of a lane within the last 1 ms. -/
def windowErrors (s : State) (p lane : Nat) : Nat :=
  (((lanePort s p).errs.filter (fun e => e.lane == lane && decide (s.tick < e.at_ + errWindow))).map (·.count)).sum

/-- Lanes fail (R214): with every lane in use the link goes down, else a quick retrain leaves them out (R211). -/
def lanesFail (p : Nat) (lanes : List Nat) (cut : Fin 3) (s : State) : State :=
  let used := lanesWith s fSL_LANE_STAT_USED p
  let f := used.filter (fun k => lanes.contains k)
  if !linkUp s p || f.isEmpty then s
  else
    let s1 := evt (forEach f (fun k t => fbset t fSL_LANE_STAT_FAILED true (slo p + 4 * k)) s) fSL_EVT_LANE_FAIL (slo p)
    if f = used then linkDown p cut s1 else quickRetrain p cut s1

/-- Errors of a lane, or COM missed in four ordered sets; with those of the last 1 ms they may reach THR (R203, R214). -/
def laneFail (p lane cv disp : Nat) (comMiss : Bool) (cut : Fin 3) (s : State) : State :=
  let s1 := laneErrors p lane cv disp s
  let fails := comMiss || (decide (0 < cv + disp) && decide ((lanePort s p).thr ≤ windowErrors s1 p lane))
  lanesFail p (if fails then [lane] else []) cut s1

/-- A full bring-up of a port that is neither DISABLED nor in DETECT (R217). -/
def fullBringUp (p : Nat) (s : State) : State := if portLive s p then withCut p (enterDetect p) s else s

/-- A write of SL_CTL.RETRAIN (R211). -/
def retrain (p : Nat) (full : Bool) (cut : Fin 3) (s : State) : State :=
  let s1 := fbset s fSL_CTL_FULL full (slo p)
  if !linkUp s p then s1
  else if full then enterDetect p cut s1
  else quickRetrain p cut s1

/-- What a receiver has counted since the last report, with a SKIP or before there is one: an adjustment of the elastic buffer,
errors per lane, which may fail lanes, and ordered sets discarded, TS and EXCH among them (R203, R205, R207, R214). -/
def skipReceive (p : Nat) (adj : Bool) (cv disp : List Nat) (osErr : Nat) (s : State) : State :=
  if !portLive s p then s
  else
    let s1 := if adj && linkUp s p then cnt s (SL_CNT_SKIP_ADJ + slo p) else s
    let s2 := cntAdd (forEach (List.range 4) (fun k => laneErrors p k (nth cv k) (nth disp k)) s1) (SL_CNT_OS_ERR + slo p) osErr
    let f := (List.range 4).filter (fun k => decide (0 < nth cv k + nth disp k) && decide ((lanePort s p).thr ≤ windowErrors s2 p k))
    if f.isEmpty then s2 else withCut p (lanesFail p f) s2

/-- The 24 data bytes of an AUD (R237). -/
def audBytes (n : NetPort) : List Byte :=
  (List.range 6).flatMap (fun c => leBytes 2 (nth n.sent c) ++ leBytes 2 (nth n.ownFreed c))

/-- The partner's AUD is compared with what has arrived; the freed counts act as in a CREDIT (R237). -/
def audReceive (p : Nat) (d : List Byte) (s : State) : State :=
  if !linkUp s p ∨ d.length ≠ 24 then s
  else
    let n := netPort s p
    let sent := (List.range 6).map (fun c => u16At d (4 * c))
    let diff := (List.range 6).map (fun c => (nth sent c + 65536 - nth n.rcvd c % 65536) % 65536)
    let s1 := setNetPort s p (fun x => { x with
      rcvd := sent, freed := (List.range 6).map (fun c => u16At d (4 * c + 2))
      ownFreed := (List.range 6).map (fun c => (nth x.ownFreed c + nth diff c) % 65536) })
    let s2 := syncAvail p s1
    if diff.all (· == 0) then s2
    else paDetect (0xA2 + 8 * p) (evtCnt s2 fSN_EVT_AUDIT (SN_CNT_AUDIT + sno p))


/-! ## The rows -/

/-- SPAN_PORT_ENABLE. -/
def execSpanPortEnable (ag : Agent) (port : SpanNo) (en : Bool) (cut : Fin 3) (s : State) :
    Host.Outcome State Fault Refusal :=
  .next (dennilOnly ag (fbit s fSL_CTL_EN (slo port.val) != en) (portEnable port.val en cut) s)

/-- SPAN_DETECT; `term` names the lanes with a termination. -/
def execSpanDetect (port : SpanNo) (term : BitVec 4) (s : State) : Host.Outcome State Fault Refusal :=
  .next (detect port.val term.toNat s)

/-- SPAN_BIT_LOCK. -/
def execSpanBitLock (port : SpanNo) (locked inv : BitVec 4) (s : State) : Host.Outcome State Fault Refusal :=
  .next (bitLock port.val locked.toNat inv.toNat s)

/-- SPAN_LOCK_DONE. -/
def execSpanLockDone (port : SpanNo) (ok : BitVec 4) (plane : List (Fin 4)) (s : State) :
    Host.Outcome State Fault Refusal :=
  .next (lockDone port.val ok.toNat plane s)

/-- SPAN_EXCHANGE_DONE. -/
def execSpanExchangeDone (port : SpanNo) (exch : List Byte) (offered : Fin 5) (s : State) :
    Host.Outcome State Fault Refusal :=
  .next (exchangeDone port.val exch offered.val s)

/-- SPAN_STATE_TIMEOUT. -/
def execSpanStateTimeout (port : SpanNo) (locked : BitVec 4) (s : State) : Host.Outcome State Fault Refusal :=
  .next (stateTimeout port.val locked.toNat s)

/-- SPAN_LANE_FAIL. -/
def execSpanLaneFail (port : SpanNo) (lane : Fin 4) (cv disp : Nat) (comMiss : Bool) (cut : Fin 3) (s : State) :
    Host.Outcome State Fault Refusal :=
  .next (laneFail port.val lane.val cv disp comMiss cut s)

/-- SPAN_LINK_DOWN. -/
def execSpanLinkDown (port : SpanNo) (cut : Fin 3) (s : State) : Host.Outcome State Fault Refusal :=
  .next (linkDown port.val cut s)

/-- SPAN_TS_RECEIVED. -/
def execSpanTsReceived (port : SpanNo) (cut : Fin 3) (s : State) : Host.Outcome State Fault Refusal :=
  .next (quickRetrain port.val cut s)

/-- SPAN_RETRAIN. -/
def execSpanRetrain (ag : Agent) (port : SpanNo) (full : Bool) (cut : Fin 3) (s : State) :
    Host.Outcome State Fault Refusal :=
  .next (dennilOnly ag true (retrain port.val full cut) s)

/-- SKIP_SEND. -/
def execSkipSend (port : SpanNo) (s : State) : Host.Outcome State Fault Refusal :=
  .next (if linkUp s port.val then emit s (.spanSkip port.val) else s)

/-- SKIP_RECEIVE. -/
def execSkipReceive (port : SpanNo) (adj : Bool) (cv disp : List Nat) (osErr : Nat) (s : State) :
    Host.Outcome State Fault Refusal :=
  .next (skipReceive port.val adj cv disp osErr s)

/-- CREDIT_AUDIT_SEND. -/
def execCreditAuditSend (port : SpanNo) (s : State) : Host.Outcome State Fault Refusal :=
  .next (if linkUp s port.val then emit s (.spanAud port.val (audBytes (netPort s port.val))) else s)

/-- CREDIT_AUDIT_RECEIVE. -/
def execCreditAuditReceive (port : SpanNo) (data : List Byte) (s : State) : Host.Outcome State Fault Refusal :=
  .next (audReceive port.val data s)

/-- EYE_SCAN_START: a write of SL_EYE_CTL. -/
def execEyeScanStart (ag : Agent) (port : SpanNo) (value : Word) (s : State) : Host.Outcome State Fault Refusal :=
  .next (gated ag 0x0C none (value.getMsbD 0 || !fbit s fSL_EYE_CTL_BUSY (slo port.val))
    (eyeCtl port.val value.toNat) s)

/-- EYE_SCAN_DONE. -/
def execEyeScanDone (port : SpanNo) (errs : Nat) (s : State) : Host.Outcome State Fault Refusal :=
  .next (eyeDone port.val errs s)

/-- The refusal of a Span lane command: a PORT that is neither E nor W, or SL_CTL.EN = 0 (R220). -/
def laneCmd (c : CmdCall) (s : State) (f : Nat → State × CmdRes) : State × CmdRes :=
  if 2 ≤ pb c 0 then (s, .refuse eRANGE 0)
  else if !fbit s fSL_CTL_EN (slo (pb c 0)) then (s, .refuse eSTATE 0)
  else f (pb c 0)

/-- The packets that a retrain cuts, an operand of the call. -/
def cutOf (c : CmdCall) : Fin 3 := Fin.ofNat 3 (c.nums.getD 0 0).toNat

/-- SPAN_LINK_RETRAIN (R220). -/
def runSpanLinkRetrain (c : CmdCall) (s : State) : State × CmdRes :=
  laneCmd c s (fun p => (retrain p (bit (pb c 1) 0) (cutOf c) s, .defer false))

/-- SPAN_LINK_RETRAIN. -/
def execSpanLinkRetrain (c : CmdCall) (s : State) : Host.Outcome State Fault Refusal :=
  .next (mbRun ⟨0x0C10, 0x10, false, 8, 8, false, true⟩ runSpanLinkRetrain c s)

/-- SPAN_EYE_SCAN (R220): the scan of its first point starts, and each EYE_SCAN_DONE starts the next. -/
def runSpanEyeScan (c : CmdCall) (s : State) : State × CmdRes :=
  laneCmd c s (fun p =>
    let step := fun (n : Nat) => 1 ≤ n ∧ n ≤ 64
    if pb c 4 < 20 ∨ 44 < pb c 4 ∨ ¬ linkUp s p ∨ lanesUsed s p ≤ pb c 1 ∨ ¬ step (pb c 2) ∨ ¬ step (pb c 3) then
      (s, .refuse eRANGE 0)
    else
      let s1 := fset (fset s fSL_EYE_CTL_LANE (pb c 1) (slo p)) fSL_EYE_CTL_DWELL (pb c 4) (slo p)
      (eyeNext p ⟨eyePoints (pb c 2) (pb c 3), []⟩ s1, .defer true))

/-- SPAN_EYE_SCAN. -/
def execSpanEyeScan (c : CmdCall) (s : State) : Host.Outcome State Fault Refusal :=
  .next (mbRun ⟨0x0C11, 0x12, false, 16, 16, false, true⟩ runSpanEyeScan c s)

/-- SPAN_LANE_PARAMS (R220). -/
def runSpanLaneParams (c : CmdCall) (s : State) : State × CmdRes :=
  laneCmd c s (fun p =>
    let s1 := wrn s (SL_TMO + slo p) (pd c 4)
    let s2 := fset s1 fSL_ERR_THR_THR (pd c 8) (slo p)
    let s3 := fset s2 fSL_CTL_RATE_EN ((pb c 12 % 16).lor 1) (slo p)
    (fset s3 fSL_CTL_LANE_EN (pb c 13) (slo p), .ok []))

/-- SPAN_LANE_PARAMS. -/
def execSpanLaneParams (c : CmdCall) (s : State) : Host.Outcome State Fault Refusal :=
  .next (mbRun ⟨0x0C90, 0x10, true, 16, 16, false, true⟩ runSpanLaneParams c s)

end Sys2Proof.Machine
end

