-- ==== Sys2Proof/Machine/Ports.lean ====
section
/-! DEFINITION. The sensor ports (chapter 2): packets and their routing, frames and strips, length checks, the slot state
machine, orderly stops, sensor clocks; what happens at a frame start in every block of the port (R48, R69, R81, R87, R94);
and the port commands. -/

namespace Sys2Proof.Machine

/-! ## The state of a port -/


/-- The port receives (R32). -/
def portRx (s : State) (p : Nat) : Bool := ppSlot s p == 3 && fbit s fPP_CTL_EN (pof p) && !gangedOdd s p

/-- The odd half of a pair mirrors PP_FRAME_CNT and PP_STAT[31:14] (R22). -/
def mirror (p : Nat) (s : State) : State :=
  if !gangedEven s p then s
  else
    let a := PP_STAT + pof (p + 1)
    wrn (wrn s a (setBits (rdn s a) 31 14 (bits (rdn s (PP_STAT + pof p)) 31 14))) (PP_FRAME_CNT + pof (p + 1)) (frameNow s p)

/-- Strip mode. -/
def stripMode (s : State) (p : Nat) : Bool := fbit s fPP_CTL_MODE (pof p)

/-- HEIGHT of the port. -/
def portHeight (s : State) (p : Nat) : Nat := fget s fPP_GEOM_HEIGHT (pof p)

/-- Status bits of R30. -/
abbrev fsSHORT : Nat := 0
abbrev fsLONG : Nat := 1
abbrev fsLINE_SHORT : Nat := 2
abbrev fsLINE_LONG : Nat := 3
abbrev fsCRC : Nat := 4
abbrev fsHDR_LOST : Nat := 5
abbrev fsNO_FE : Nat := 6
abbrev fsTMO : Nat := 7
abbrev fsTRUNCATED : Nat := 8
abbrev fsSTRIP_BREAK : Nat := 9
abbrev fsHEAD_LOST : Nat := 10
abbrev fsFN_GAP : Nat := 11

/-- Mark the open frame. -/
def markFrame (p b : Nat) (s : State) : State :=
  updPort s p (fun x => { x with cur := x.cur.map (fun c => { c with fstat := withBit c.fstat b true }) })

/-! ## Images and strip breaks (R26, R455) -/

/-- The capture that the boot ROM runs on a port (R425). -/
def captureOf (s : State) (p : Nat) : Option Capture := s.mb.caps.find? (fun k => k.port = p)

/-- A line of a captured frame: lines 0, 4, 8 and so on go into the frame's slot of the buffer, as v[15:8]. -/
def captureLine (k : Capture) (frame idx : Nat) (v : List Nat) (s : State) : State :=
  if idx % 4 ≠ 0 then s
  else lp5Puts s (k.off + frame % k.slots * k.size + idx / 4 * k.width) (v.map (fun x => BitVec.ofNat 8 (x / 256)))

/-- The image at the front end ends: what is in the pipeline completes, the next line begins a new image. -/
def cutImage (p flag : Nat) (s : State) : State :=
  updPort (if (captureOf s p).isSome then s else feed p (.imgEnd flag) s) p (fun x => { x with nextImg := x.nextImg + 1, nextY := 0, stripOpen := false })

/-- A strip break, counted once between two lines; the odd half of a pair mirrors STRIP_ID (R22). -/
def stripBreak (p : Nat) (s : State) : State :=
  let x := portSt s p
  let s1 := if x.brkHere then s
    else
      let t1 := evtCnt s fPP_EVT_STRIP_BREAK PP_CNT_BREAK (pof p)
      let t2 := mirror p (fset t1 fPP_STAT_STRIP_ID (fget t1 fPP_STAT_STRIP_ID (pof p) + 1) (pof p))
      emFire (0x80 + p) (updPort t2 p (fun y => { y with brkHere := true }))
  if x.stripOpen then cutImage p lfINCOMPLETE s1 else s1

/-- The status word of the block that closed last gains STRIP_BREAK: in PP_FSTAT, and in its statistics record and tap
frames where they have not been produced yet (R30, R99, R455). -/
def markLast (p : Nat) (s : State) : State :=
  let num := rdn s (PP_FSTAT_NUM + pof p)
  let b := fun (w : Nat) => withBit w fsSTRIP_BREAK true
  let s1 := updPort s p (fun x => { x with frames := x.frames.map (fun r =>
    if r.frame = num then { r with closed := r.closed.map (fun c => (b c.1, c.2)) } else r) })
  let s2 := forEach [0, 1] (fun e t => updTap p e (fun x => { x with frames := x.frames.map (fun f =>
    if f.frame = num then { f with closed := f.closed.map (fun c => (b c.1, c.2)) } else f) }) t) s1
  fset s2 fPP_FSTAT_BITS (b (fget s2 fPP_FSTAT_BITS (pof p))) (pof p)

/-- A break after the block that closed last. -/
def breakAfter (p : Nat) (s : State) : State := stripBreak p (markLast p s)

/-! ## Closing a frame (R25, R29, R30) -/

/-- The status bits of a closing frame but for STRIP_BREAK. -/
def closeBits (s : State) (p : Nat) (c : CurFrame) (extra : Nat) : Nat :=
  let b := c.fstat.lor extra
  if c.delivered < portHeight s p then withBit b fsSHORT true else b

/-- A strip break at the end of a block (R26): none for a block that was truncated (R455). -/
def breaksHere (s : State) (p : Nat) (c : CurFrame) (fl : Nat) (en0 : Bool) : Bool :=
  stripMode s p && !c.trunc && (en0 || bit fl fsSHORT || bit fl fsLONG || bit fl fsNO_FE || bit fl fsTMO || bit fl fsHEAD_LOST)

/-- The image ends with an area frame (R111). -/
def areaEnd (p : Nat) (c : CurFrame) (fl : Nat) (en0 : Bool) (s : State) : State :=
  if stripMode s p || c.trunc || c.delivered = 0 then s
  else cutImage p (if bit fl fsSHORT || bit fl fsHEAD_LOST || en0 then lfINCOMPLETE else lfEDGE) s

/-- PP_LINE_PERIOD over a closed frame: a mean that is no whole number is one of its neighbours (log 22), and one over
fewer than two lines has no stated value. -/
def linePeriod (p : Nat) (c : CurFrame) (s : State) : State :=
  let a := PP_LINE_PERIOD + pof p
  if c.delivered < 2 then useFree (wrn s a (freeVal s))
  else
    useFree (wrn s a (int32u (roundOpen (sub32 c.last c.first : Nat) (c.delivered - 1 : Nat) s)))

/-- The open frame closes with the status bits `extra`; `en0` when PP_CTL.EN was written 0. -/
def closeFrame (p extra : Nat) (en0 : Bool) (s : State) : State :=
  match (portSt s p).cur with
  | none => s
  | some c =>
    let b0 := closeBits s p c extra
    let brk := breaksHere s p c b0 en0
    let fl := if brk then withBit b0 fsSTRIP_BREAK true else b0
    let num := frameNow s p
    let s1 := if brk then stripBreak p s else areaEnd p c fl en0 s
    let word := fl + (if c.delivered = 0 then 0xFFFF else c.delivered - 1) * 65536
    let s2 := wrn (wrn s1 (PP_FSTAT + pof p) word) (PP_FSTAT_NUM + pof p) num
    let strip := fget s2 fPP_STAT_STRIP_ID (pof p)
    let ev := fun (i : Nat) (f : Fld) (t : State) => if bit fl i then evt t f (pof p) else t
    let s3 := ev fsSHORT fPP_EVT_SHORT (ev fsLONG fPP_EVT_LONG (ev fsNO_FE fPP_EVT_NO_FE (ev fsTMO fPP_EVT_TMO
      (fbset s2 fPP_STAT_FRAME_OPEN false (pof p)))))
    let s4 := if fl % 2048 = 0 then s3 else cnt s3 (PP_CNT_FRAME_ERR + pof p)
    let s5 := updFrame p c.key (fun r => { r with closed := some (word, c.delivered, strip) }) (linePeriod p c s4)
    let s6 := forEach [0, 1] (fun e t => updTap p e (fun x => { x with
      frames := x.frames.map (fun f => if f.key = c.key then { f with closed := some (word, c.delivered) } else f) }) t) s5
    let s7 := updPort s6 p (fun x => { x with cur := none })
    emFire (0x70 + p) (mirror p (pump p (heldFlush p s7)))

/-- The port stops receiving: an open frame closes, or a strip ends after its last block (R25, R455). -/
def portEnds (p extra : Nat) (en0 : Bool) (s : State) : State :=
  if frameOpen s p then closeFrame p extra en0 s
  else if stripMode s p ∧ (portSt s p).stripOpen then mirror p (breakAfter p s)
  else s

/-- PP_CTL.EN is written 0 (R25); a write to a port that is already off cancels its slots all the same (R46). -/
def portOff (p : Nat) (s : State) : State :=
  if !fbit s fPP_CTL_EN (pof p) then slotsCancel p s
  else
    let s1 := portEnds p 0 true s
    idleReport (slotsCancel p (fbset (fbset s1 fPP_CTL_EN false (pof p)) fSG_STAT_ACTIVE false (pof p)))

/-! ## Enable (R39) -/

/-- Bits per sample of the port's packing (R20). -/
def portBits (s : State) (p : Nat) : Nat :=
  let dt := fget s fPP_CTL_DT_PIPE (pof p)
  if 0x30 ≤ dt then packBits (fget s fPP_CTL_UD_BITS (pof p)) else packBits (dt - 0x2A)

/-- The configuration is valid (R39). DESIGN CHOICE, log 100: LANES = 11b is refused on a ganged port too, although the
field is ignored there. -/
def portValid (s : State) (p : Nat) : Bool :=
  let o := pof p
  let w := fget s fPP_GEOM_WIDTH o
  let h := portHeight s p
  let dt := fget s fPP_CTL_DT_PIPE o
  let b := portBits s p
  let user := decide (0x30 ≤ dt ∧ dt ≤ 0x37)
  let gang := fbit s fPP_CTL_GANG o
  !(decide (w = 0 ∨ 16384 < w ∨ w % 2 = 1) || ((b == 10 || b == 14 || gang) && w % 4 != 0) ||
    decide (h = 0) || (stripMode s p && decide (4096 < h)) || !(user || decide (0x2A ≤ dt ∧ dt ≤ 0x2E)) ||
    fget s fPP_CTL_LANES o == 3 || (user && decide (4 < fget s fPP_CTL_UD_BITS o)) || fbit s fPP_STAT_PHY_DEAD o ||
    (gang && fbit s fPP_STAT_PHY_DEAD (pof (p + 1))))

/-- DUAL of the tables of port `q` whose pair is governed by `p` (R68, R106). -/
def fixDual (p q : Nat) (s : State) : State :=
  let wide := decide (8192 < fget s fPP_GEOM_WIDTH (pof p))
  let b := fun (x : Bool) (w : Nat) => if x then w else 0
  let join := fbit s fCX_CTL_DPC_JOIN (pof q)
  fset (fset s fCX_BANK_DUAL (b (!wide) 3 + b (!join) 4 + 8) (pof q)) fSG_BANK_DUAL (b (!wide) 1) (pof q)

/-- The blocks of the staging ring of port `p` (R142, R360). -/
def stageNeed (s : State) (p : Nat) : Nat :=
  blocksOf (max 64 (fget s fTL_STAGE_LINES (p * 4)) * fget s fPP_GEOM_WIDTH (pof p) * 8)

/-- PP_CTL.EN is written 1. -/
def portOn (p : Nat) (s : State) : State :=
  if fbit s fPP_CTL_EN (pof p) then s
  else if !portValid s p then mirror p (fbset s fPP_STAT_CFG_ERR true (pof p))
  else
    let s1 := poolGive s 0 (portSt s p).stageBlocks
    let n := stageNeed s p
    if !poolCan s1 0 n then poolRefuse (updPort s1 p (fun x => { x with stageBlocks := 0, stage := [] })) 0
    else
      let s2 := fbset (poolTake s1 0 n) fPP_STAT_CFG_ERR false (pof p)
      let s3 := wrn (fbset s2 fPP_CTL_EN true (pof p)) (PP_FRAME_CNT + pof p) 0xFFFFFFFF
      let s4 := if stripMode s p then fset s3 fPP_STAT_STRIP_ID (fget s3 fPP_STAT_STRIP_ID (pof p) + 1) (pof p) else s3
      let s5 := if gangedEven s p then fixDual p (p + 1) (fixDual p p s4) else fixDual p p s4
      idleReport (mirror p (updPort s5 p (fun x => { x with
        stage := [], stageBlocks := n, anyFs := false, prevFn := 0, lastLine := none, brkHere := false, stripOpen := false,
        burst := false, nextY := 0, nextImg := x.nextImg + 1 })))


/-! ## Frame start (R25, R26, R48, R69, R81, R87, R94) -/

/-- A bank swap that is due at the FS of frame `f` (R69): tables `sel` of the dual-bank ones invert. -/
def bankSwap (bank done : Nat) (ev : Fld) (cx : Bool) (p f : Nat) (s : State) : State :=
  let x := portSt s p
  match (if cx then x.cxReq else x.sgReq) with
  | none => s
  | some (sel, when_) =>
    if (match when_ with | some t => decide (sdiff f t < 0) | none => false) then s
    else
      let w := rdn s (bank + pof p)
      let flip := (sel.land (bits w 27 24)).xor (bits w 3 0)
      let s1 := wrn (wrn s (bank + pof p) (setBits (setBits w 28 28 0) 3 0 flip)) (done + pof p) f
      updPort (evt s1 ev (pof p)) p (fun y => if cx then { y with cxReq := none } else { y with sgReq := none })

/-- `n` words of a block's registers. -/
def blockWords (s : State) (a n : Nat) : List Nat := (List.range n).map (fun i => rdn s (a + 4 * i))

/-- The DM words: CTL, K01, K2, CM. -/
def dmWords (s : State) (p : Nat) : List Nat := blockWords s (DM_CTL + pof p) 3 ++ blockWords s (DM_CM + pof p) 8

/-- Errors of a commit of the ST registers (R102): windows, enabled or not, the histogram region, the plate region. -/
def stErrors (st : List Nat) (w h : Nat) : Nat × Bool × Bool :=
  ((List.range 16).foldl (fun m k =>
      m + if spanOk (nth st (16 + 2 * k)) w && spanOk (nth st (17 + 2 * k)) h then 0 else 2 ^ k) 0,
    !histOk st w h, !spanOk (nth st 4) w)

/-- The commit of the DM registers that is due at an FS (R81). -/
def dmShadow (p : Nat) (s : State) : State :=
  let o := pof p
  if fbit s fDM_CTL_PEND o then
    evt (updPort (fbset s fDM_CTL_PEND false o) p (fun x => { x with dmAct := dmWords s p })) fDM_EVT_COMMITTED o
  else s

/-- The commit of the SG registers (R104). -/
def sgShadow (p : Nat) (s : State) : State :=
  let o := pof p
  if fbit s fSG_CTL_PEND o then
    evt (updPort (fbset s fSG_CTL_PEND false o) p (fun x => { x with sgAct := blockWords s (SG_CTL + o) 48 }))
      fSG_EVT_COMMITTED o
  else s

/-- The commit of the ST registers (R102). -/
def stShadow (p : Nat) (s : State) : State :=
  let o := pof p
  if fbit s fST_CTL_PEND o then
    let st := blockWords s (ST_CTL + o) 48
    let e := stErrors st (fget s fPP_GEOM_WIDTH o) (portHeight s p)
    let was := bit (nth (portSt s p).stAct 0) 31
    let t1 := updPort (fbset s fST_CTL_PEND false o) p (fun x => { x with
      stAct := st, stF0 := if bit (nth st 0) 31 && was then x.stF0 else none,
      stSeq := if bit (nth st 0) 31 && !was then 0 else x.stSeq })
    let t2 := fbset (fbset (fset t1 fST_STAT_WIN_ERR e.1 o) fST_STAT_HIST_ERR e.2.1 o) fST_STAT_PLATE_ERR e.2.2 o
    if e.1 ≠ 0 ∨ e.2.1 ∨ e.2.2 then evt t2 fST_EVT_CFG_ERR o else t2
  else s

/-- The swaps and commits that are due at the FS of frame `f`. The SG and ST blocks of the odd half of a pair do not act
(R94, chapter 7). -/
def shadowApply (p f : Nat) (s : State) : State :=
  let half := fun (q : Nat) (t : State) => dmShadow q (bankSwap CX_BANK CX_SWAP_DONE fCX_EVT_SWAPPED true q f t)
  let s1 := if gangedEven s p then half (p + 1) (half p s) else half p s
  stShadow p (sgShadow p (bankSwap SG_BANK SG_SWAP_DONE fSG_EVT_SWAPPED false p f s1))

/-- Entries of a ring whose size field holds `n`, valid up to `top`. -/
def tapRing (s : State) (p e : Nat) : Nat :=
  let n := fget s fDM_TAP_RING_SIZE_SIZE (tpo p e)
  if 1 ≤ n ∧ n ≤ 12 then 2 ^ n else 2

/-- Tap engine `e` takes the descriptor at HEAD for a frame, and reads the next (R88, R89); `given` is what the host's memory
holds there, for a descriptor that has not been read ahead. -/
def tapTake (p e key frame gen : Nat) (given : List Byte) (s0 : State) : State :=
  let o := tpo p e
  let desc := if (tapSt s0 p e).desc != [] then (tapSt s0 p e).desc else given
  let s := tapUse p e s0
  let head := fget s fDM_TAP_HEAD_V o
  let len := u32At desc 8 % 2 ^ 24
  let size := if len = 0 then 2 ^ 24 else len
  let fmt := fget s fDM_TAP_CTL_FMT o
  let stride := fget s fDM_TAP_STRIDE_V o
  let h := fget s fDM_TAP_ROI_Y_H o
  let need := stride * h * (if fmt = 5 then 4 else 1)
  let f : TapFrame := ⟨key, frame, gen, head, u64At desc 0, size, bit (byteAt desc 11) 0, fget s fDM_TAP_CTL_POINT o, fmt,
    stride, fget s fDM_TAP_ROI_X_X0 o, fget s fDM_TAP_ROI_X_W o, fget s fDM_TAP_ROI_Y_Y0 o, h, 0, 0,
    if size < need then 2 else 0, none⟩
  tapFetch p e (updTap p e (fun t => { t with frames := t.frames ++ [f] })
    (fset s fDM_TAP_HEAD_V ((head + 1) % tapRing s p e) o))

/-- Tap engine `e` at the FS of a frame (R87, R91, R92). DESIGN CHOICE (log 106): a descriptor that stands between HEAD and TAIL
but cannot be read for want of a tag or of budget counts as none. -/
def tapSelect (p e key frame gen : Nat) (desc : List Byte) (s0 : State) : State :=
  let o := tpo p e
  let s := if (tapSt s0 p e).stopNext then
      updTap p e (fun t => { t with stopNext := false }) (fbset s0 fDM_TAP_CTL_EN false o)
    else s0
  if !fbit s fDM_TAP_CTL_EN o then s
  else
    let f0 := (tapSt s p e).f0.getD frame
    let s1 := updTap p e (fun t => { t with f0 := some f0 }) s
    if sub32 frame f0 % (fget s fDM_TAP_CTL_DECIM o + 1) ≠ 0 then s1
    else if !canDma s then evt (cnt s1 (DM_TAP_CNT_DROP + o)) fDM_TAP_EVT_DROP o
    else if fget s fDM_TAP_HEAD_V o = fget s fDM_TAP_TAIL_V o ∨ ¬ tapReadable s1 p e then cnt s1 (DM_TAP_CNT_NOBUF + o)
    else tapTake p e key frame gen desc s1

/-- The frame that opens is measured (R94). -/
def statSelect (p frame : Nat) (s : State) : State × Bool :=
  let x := portSt s p
  if !bit (nth x.stAct 0) 31 then (s, false)
  else
    let f0 := x.stF0.getD frame
    (updPort s p (fun y => { y with stF0 := some f0 }),
      sub32 frame f0 % (wb x.stAct 0 23 16 + 1) == 0)

/-- The sensor frame number is not the one expected after the last non-zero one (R26). -/
def fnGap (s : State) (p fn : Nat) : Bool :=
  let prev := (portSt s p).prevFn
  let m := fget s fPP_FN_MAX_MAX (pof p)
  let top := if m = 0 then 0xFFFF else m
  fbit s fPP_CTL_FN_CHK (pof p) && fn != 0 && prev != 0 && fn != (if prev = top then 1 else prev + 1)

/-- The record of a frame that opens. -/
def openRec (s : State) (p key frame fs : Nat) (meas : Bool) : FrameRec :=
  let x := portSt s p
  let odd := gangedEven s p
  let q := p + 1
  ⟨key, frame, fget s fSC_GEN_CUR (pof p), fs, cxWords s p p, if odd then cxWords s p q else [], x.dmAct,
    if odd then (portSt s q).dmAct else [], x.sgAct, rdn s (SG_BANK + pof p), x.stAct, meas, accZero, 0, none⟩

/-- An FS on the pipeline channel: `stamp` is its TB1 time of transmission, `fn` its frame number, `d0` and `d1` the
descriptors found at the HEADs of the two tap rings. -/
def csiFrameStart (p stamp fn : Nat) (d0 d1 : List Byte) (s0 : State) : State :=
  if !portRx s0 p then s0
  else
    let o := pof p
    let s := closeFrame p (2 ^ fsNO_FE) false (updPort s0 p (fun x => { x with burst := true }))
    let fs := sub32 stamp (rdn s (PP_TS_ADJ + o))
    let f := add32 (frameNow s p) 1
    let gap := fnGap s p fn
    let s1 := updPort (fset s fPP_SENSOR_FN_V fn o) p (fun x => { x with
      tsAdj := rdn s (PP_TS_ADJ + o), gap := fget s fPP_STRIP_GAP_GAP o * 10, frmTmo := fget s fPP_FRM_TMO_TMO o,
      prevFn := if fn = 0 ∨ ¬ fbit s fPP_CTL_FN_CHK o then x.prevFn else fn })
    let s2 := if gap then evt s1 fPP_EVT_FN_GAP o else s1
    let s3 := if gap ∧ stripMode s p ∧ (portSt s2 p).stripOpen then breakAfter p s2 else s2
    let s4 := fbset (wrn s3 (PP_FRAME_CNT + o) f) fPP_STAT_FRAME_OPEN true o
    let s5 := compSwitch p f fs (updPort s4 p (fun x => { x with fsStamp := fs, anyFs := true }))
    let s6 := shadowApply p f s5
    let sel := statSelect p f s6
    let key := (portSt s6 p).nextKey
    let r := openRec sel.1 p key f fs sel.2
    let s7 := updPort sel.1 p (fun x => { x with
      nextKey := key + 1, frames := if (captureOf sel.1 p).isSome then x.frames else x.frames ++ [r], cur := some ⟨key, 0, 0, if gap then 2 ^ fsFN_GAP else 0, 0, 0, false⟩ })
    let s8 := fbset (fbset s7 fSG_STAT_ACTIVE (bit (nth r.sg 0) 31) o) fST_STAT_ACTIVE
      ((portSt s7 p).frames.any (fun y => y.meas)) o
    let s9 := tapSelect p 1 key f r.gen d1 (tapSelect p 0 key f r.gen d0 s8)
    emFire (0x60 + p) (mirror p (slotsAdvance p s9))

/-! ## Packets (R18 to R21, R29) -/

/-- A side-queue record (R21); LINE has no stated value when no frame is open. -/
def sideRecord (s : State) (p dt vc stamp : Nat) (short : Bool) (field : Nat) (payload : List Byte) (crc : Bool) : List Byte :=
  let b := fun (x : Bool) (w : Nat) => if x then w else 0
  let line := match (portSt s p).cur with | some c => c.delivered | none => freeVal s
  leBytes 1 (dt % 64) ++ leBytes 1 (vc % 16) ++ leBytes 2 field ++ leBytes 4 (sub32 stamp (portSt s p).tsAdj) ++
    leBytes 4 (frameNow s p) ++ leBytes 2 line ++ leBytes 1 (b short 1 + b crc 2 + b (!frameOpen s p) 4) ++ zeros 1 ++
    (if short then [] else payload)

/-- A packet goes to a side queue. -/
def sidePacket (q p : Nat) (rec : List Byte) (s : State) : State :=
  let room := quRoom s q rec.length
  let s1 := useFree (quWrite s q rec)
  if room then s1 else evt s1 fPP_EVT_QUEUE_DROP (pof p)

/-- The overflow rule at a line (R82, R83). A strip-mode block truncated at its first line breaks the strip before it: the
break is marked in its own word and, where the strip held lines, in the word of the block before (R30, R455). -/
def overflow (p : Nat) (c : CurFrame) (s : State) : State :=
  let s1 := evt (evtCnt s fDM_EVT_TRUNC DM_CNT_TRUNC (pof p)) fPP_EVT_RX_OVR (pof p)
  let s2 := markFrame p fsTRUNCATED (updPort s1 p (fun x => { x with cur := x.cur.map (fun y => { y with trunc := true }) }))
  if stripMode s p then
    markFrame p fsSTRIP_BREAK
      (if c.delivered = 0 ∧ (portSt s p).stripOpen then breakAfter p s2 else stripBreak p s2)
  else if c.delivered = 0 then s2
  else cutImage p lfINCOMPLETE s2

/-- The gap check of R26 before the first line of a block. -/
def gapCheck (p stamp : Nat) (c : CurFrame) (s : State) : State :=
  let x := portSt s p
  match x.lastLine with
  | none => s
  | some l =>
    if stripMode s p ∧ c.count = 0 ∧ x.stripOpen ∧ x.gap ≠ 0 ∧ x.gap < sub32 stamp l then breakAfter p s else s

/-- Deliver a line to the pipeline (R28, R29). -/
def lineDeliver (p stamp : Nat) (c : CurFrame) (payload : List Byte) (crc : Bool) (s0 : State) : State :=
  let s := gapCheck p stamp c s0
  let o := pof p
  let w := fget s fPP_GEOM_WIDTH o
  let b := portBits s p
  let px := (unpack (payload.length + 1) b (payload.map BitVec.toNat)).take w
  let long := decide (w * b < payload.length * 8)
  let short := decide (px.length < w)
  let cx := match frameRec s p c.key with | some r => r.cx | none => []
  let cfa := cfaOf (nth cx 9)
  let pad := (List.range (w - px.length)).map (fun i => cxBlack cx (mosaicCh cfa c.delivered (px.length + i : Nat)))
  let st := sub32 stamp (portSt s p).tsAdj
  let x := portSt s p
  let l : PLine := ⟨x.nextImg, x.nextY, c.key, frameNow s p, c.delivered, st, fget s fSC_GEN_CUR o, px.length, px ++ pad, [],
    [], [], [], [], [], []⟩
  let m := fun (on : Bool) (i : Nat) (ev : Fld) (t : State) => if on then markFrame p i (evt t ev o) else t
  let s1 := m short fsLINE_SHORT fPP_EVT_LINE_SHORT (m long fsLINE_LONG fPP_EVT_LINE_LONG s)
  let s2 := if short || long then cnt s1 (PP_CNT_LINE_ERR + o) else s1
  let s3 := if crc then markFrame p fsCRC s2 else s2
  let s4 := updPort s3 p (fun y => { y with
    nextY := y.nextY + 1, stripOpen := stripMode s p, lastLine := some stamp, brkHere := false,
    cur := y.cur.map (fun k => { k with
      count := k.count + 1, delivered := k.delivered + 1, first := if k.delivered = 0 then stamp else k.first, last := stamp }) })
  match captureOf s4 p with
  | some k => captureLine k (frameNow s p) c.delivered l.raw s4
  | none => feed p (.line l) (tapLine p 0 l s4)

/-- A line of the pipeline type (R25, R29, R82). -/
def pipeLine (p stamp : Nat) (payload : List Byte) (crc : Bool) (s : State) : State :=
  match (portSt s p).cur with
  | none => evtCnt s fPP_EVT_ORPHAN PP_CNT_ORPHAN (pof p)
  | some c =>
    let arrive := fun (t : State) => updPort t p (fun y => { y with
      brkHere := false, cur := y.cur.map (fun k => { k with count := k.count + 1 }) })
    if portHeight s p ≤ c.count then markFrame p fsLONG (arrive s)
    else if c.trunc then arrive s
    else if stalled s p && decide (4 ≤ rxLines s p) then arrive (overflow p c s)
    else lineDeliver p stamp c payload crc s

/-- A packet other than FS or FE of the pipeline channel (R19). `ecc`: 0 clean, 1 corrected, 2 uncorrectable. -/
def packet (p stamp ecc dt vc field : Nat) (payload : List Byte) (crc : Bool) (s0 : State) : State :=
  if !portRx s0 p then s0
  else
    let o := pof p
    let s := updPort s0 p (fun x => { x with burst := true })
    if ecc = 2 then markFrame p fsHDR_LOST (evtCnt s fPP_EVT_HDR_ERR PP_CNT_HDR_ERR o)
    else
      let s1 := if ecc = 1 then cnt s (PP_CNT_ECC_CORR + o) else s
      let short := decide (dt < 0x10)
      let s2 := if crc && !short then evtCnt s1 fPP_EVT_CRC PP_CNT_CRC o else s1
      let rec_ := sideRecord s2 p dt vc stamp short (if short then field else payload.length) payload (crc && !short)
      let onPipe := vc == fget s fPP_CTL_VC_PIPE o
      let image := decide (0x2A ≤ dt ∧ dt ≤ 0x2E) || decide (0x30 ≤ dt ∧ dt ≤ 0x37)
      if dt ≤ 1 then (if onPipe then s2 else sidePacket p p rec_ s2)
      else if dt ≤ 3 then s2
      else if 8 ≤ dt ∧ dt ≤ 0xF then sidePacket p p rec_ s2
      else if dt = 0x12 then sidePacket (16 + p) p rec_ s2
      else if dt = fget s fPP_CTL_DT_PIPE o ∧ onPipe then pipeLine p stamp payload crc s2
      else if image then sidePacket p p rec_ s2
      else evtCnt s2 fPP_EVT_UNSUP PP_CNT_UNSUP o

/-! ## The slot (R31 to R36) -/

/-- Drive HP_PWREN of one port. -/
def pwrEn (p : Nat) (on : Bool) (s : State) : State :=
  if fbit s fPP_SLOT_STAT_PWR_ON (pof p) = on then s
  else emit (fbset s fPP_SLOT_STAT_PWR_ON on (pof p)) (.pin "HP_PWREN" p on)

/-- Drive HP_PWREN; a ganged odd port mirrors it (R36). -/
def headPower (p : Nat) (on : Bool) (s : State) : State :=
  let s1 := pwrEn p on s
  if gangedEven s p then pwrEn (p + 1) on s1 else s1

/-- A stop of the port has ended: the PORT_STOP commands that wait complete (R33, R288). -/
def stopEnded (p : Nat) (s : State) : State :=
  let s1 := updPort s p (fun x => { x with stopDue := false })
  forEach ((deferredOf s1 0x0211).filter (fun x => x.2.port == some p)) (fun x t => endD x 0 0 [] t) s1

/-- The slot changes state (R32): the indicator and the reference clocks follow; leaving ON cancels setting slots and ends
a stop. -/
def slotTo (p st : Nat) (s : State) : State :=
  let was := ppSlot s p
  let s1 := sclkAll (indUpdate p (evt (fset s fPP_SLOT_STAT_STATE st (pof p)) fPP_SLOT_STAT_STATE_CHG (pof p)))
  if was = 3 then stopEnded p (slotsCancel p s1)
  else if st = 3 then updPort s1 p (fun x => { x with burst := false })
  else s1

/-- An open frame closes HEAD_LOST when the slot leaves ON. -/
def headLost (p : Nat) (s : State) : State := if ppSlot s p = 3 then portEnds p (2 ^ fsHEAD_LOST) false s else s

/-- Surprise removal is a DEGRADED source of the port (R36). -/
def surprise (p : Nat) (on : Bool) (s : State) : State := if on then paDetect (0x101 + 0x10 * p) s else s

/-- The fault input of one port, if it is wired (R31). -/
def fltWired (s : State) (p : Nat) : Bool := (portSt s p).fltPin && fbit s fPP_SLOT_CAP_FLT (pof p)

/-- The fault input that port `p` sees: in a ganged pair P2n+1's is ORed into P2n's (R36). -/
def fltLevel (s : State) (p : Nat) : Bool := fltWired s p || (gangedEven s p && fltWired s (p + 1))

/-- The row POWERING or ON with HP_PWRFLT_N asserted. The slot of a ganged odd port is not run (R36). -/
def faultRow (p : Nat) (s : State) : State :=
  let was := ppSlot s p
  if gangedOdd s p || !fbit s fPP_SLOT_STAT_FLT_IN (pof p) || !(was == 2 || was == 3) then s
  else surprise p (was == 3) (evt (slotTo p 4 (headPower p false (headLost p s))) fPP_SLOT_STAT_FLT (pof p))

/-- FLT_IN follows the fault input, and the slot follows FLT_IN. -/
def fltUpdate (p : Nat) (s : State) : State := faultRow p (fbset s fPP_SLOT_STAT_FLT_IN (fltLevel s p) (pof p))

/-- The row OFF with PWR_CTL = 1; with a fault already asserted the slot goes on to FAULT. -/
def slotPowerUp (p : Nat) (s : State) : State :=
  if ppSlot s p = 1 ∧ fbit s fPP_SLOT_CTL_PWR_CTL (pof p) then faultRow p (slotTo p 2 (headPower p true s)) else s

/-- Presence asserts. -/
def presenceOn (p : Nat) (s : State) : State :=
  if ppSlot s p ≠ 0 then s
  else
    let s1 := evt (slotTo p 1 (fbset s fPP_SLOT_STAT_PRSNT true (pof p))) fPP_SLOT_STAT_PRSNT_CHG (pof p)
    slotPowerUp p (if fbit s fPP_SLOT_CTL_AUTO_PWR (pof p) then fbset s1 fPP_SLOT_CTL_PWR_CTL true (pof p) else s1)

/-- Presence is lost; an unwired presence detect never loses it (R31). -/
def presenceOff (p : Nat) (s : State) : State :=
  if !fbit s fPP_SLOT_CAP_PRS (pof p) || ppSlot s p = 0 then s
  else
    let was := ppSlot s p
    let s1 := fbset (headLost p s) fPP_SLOT_STAT_PRSNT false (pof p)
    let s2 := if was = 1 then s1 else fbset (headPower p false s1) fPP_SLOT_CTL_PWR_CTL false (pof p)
    surprise p (was == 3) (evt (slotTo p 0 s2) fPP_SLOT_STAT_PRSNT_CHG (pof p))

/-- HP_PWRFLT_N changes level; asserted in POWERING or ON it is a fault, in a ganged pair one of P2n. -/
def powerFault (p : Nat) (on : Bool) (s : State) : State :=
  let s1 := fltUpdate p (updPort s p (fun x => { x with fltPin := on }))
  if gangedOdd s p then fltUpdate (p - 1) s1 else s1

/-- PWR_CTL is written. -/
def slotPower (p : Nat) (on : Bool) (s : State) : State :=
  let s1 := fbset s fPP_SLOT_CTL_PWR_CTL on (pof p)
  if on then slotPowerUp p s1
  else match ppSlot s1 p with
    | 2 => slotTo p 1 (headPower p false s1)
    | 3 => slotTo p 1 (headPower p false (headLost p s1))
    | 4 => slotTo p 1 s1
    | _ => s1

/-- A write of PP_SLOT_CTL. The slot of a ganged odd port follows P2n's and takes no power request (R36, log 100). -/
def slotCtlPut (p v : Nat) (s : State) : State :=
  let was := fbit s fPP_SLOT_CTL_PWR_CTL (pof p)
  let s1 := irqAt (PP_SLOT_STAT + pof p) (putWord (PP_SLOT_CTL + pof p) (setBits v 8 8 (if was then 1 else 0)) s)
  indUpdate p (if gangedOdd s p then s1 else slotPower p (bit v 8) s1)

/-- PP_SLOT_CAP is written: COMMIT locks the wiring; a slot without presence detect has its head present (R31). -/
def slotCapPut (p v : Nat) (s : State) : State :=
  let o := pof p
  if fbit s fPP_SLOT_CAP_COMMIT o then s
  else
    let s1 := fltUpdate (leadPort s p) (fltUpdate p (wrn s (PP_SLOT_CAP + o) (v.land 0x8000001F)))
    if bit v 31 && !bit v 0 then presenceOn p s1 else s1

/-- The orderly stop (R33), at a frame or block boundary. -/
def orderlyStop (p : Nat) (s : State) : State :=
  let s1 := portOff p s
  indUpdate p (fset (slotPower p false s1) fPP_SLOT_CTL_ATTN_IND 2 (pof p))

/-- GANG of `p` has changed (R22, R36): HP_PWREN of P2n+1 mirrors P2n's, or follows its own slot again, and the fault
inputs are joined or parted. -/
def gangChange (p : Nat) (s : State) : State :=
  let on := if gangedEven s p then fbit s fPP_SLOT_STAT_PWR_ON (pof p) else ppSlot s (p + 1) == 2 || ppSlot s (p + 1) == 3
  fltUpdate (p + 1) (fltUpdate p (pwrEn (p + 1) on s))

/-- CX_FF_MODE.SRC follows the mode of the port that governs each half of the pair of `p`. -/
def ffSources (p : Nat) (s : State) : State :=
  forEach [p - p % 2, p - p % 2 + 1] (fun q t => fbset t fCX_FF_MODE_SRC (!stripMode t (leadPort t q)) (pof q)) s

/-- A write of PP_CTL (R39): fields but EN only while EN = 0; GANG is read-only 0 on odd ports and a ganged odd port's
writes are ignored (R22). P2n+1's EN reads 0 from the write of GANG on, which stops that port as a write of 0 would
(log 100). -/
def ppCtlPut (p v : Nat) (s : State) : State :=
  let o := pof p
  if gangedOdd s p then s
  else if fbit s fPP_CTL_EN o then (if bit v 31 then s else portOff p s)
  else
    let gang := p % 2 == 0 && bit v 29
    let s0 := if gang && !gangedEven s p then portOff (p + 1) s else if bit v 31 then s else slotsCancel p s
    let s1 := putWord (PP_CTL + o) (setBits v 31 31 0) s0
    let s2 := if p % 2 = 1 then fbset s1 fPP_CTL_GANG false o else s1
    let s3 := ffSources p s2
    let s4 := sclkAll (if gang = gangedEven s p then s3 else gangChange p s3)
    if bit v 31 then portOn p s4 else mirror p s4

/-- A write of PP_SCLK (R37). -/
def sclkPut (k v : Nat) (s : State) : State :=
  let d := v % 2 ^ 25
  if d < 32 * 65536 ∨ 288 * 65536 < d then s else sclkUpdate k (putWord (PP_SCLK + pof k) v s)

/-- A write of one word of the PP block. -/
def ppPut (a v : Nat) (s : State) : State :=
  let p := (a - 0x100000) / 0x10000
  match a % 0x10000 with
  | 0x00 => ppCtlPut p v s
  | 0x04 => if fbit s fPP_CTL_EN (pof p) || gangedOdd s p then s else putWord a v s
  | 0x08 => if fbit s fPP_CTL_EN (pof p) || gangedOdd s p then s else putWord a v s
  | 0x50 => slotCapPut p v s
  | 0x54 => slotCtlPut p v s
  | 0x60 => if p < 8 then sclkPut p v s else s
  | _ => putWord a v s

/-! ## The rows -/

/-- PORT_ENABLE: a write of PP_CTL with EN = 1. -/
def execPortEnable (ag : Agent) (port : PortNo) (value : BitVec 32) (s : State) : Host.Outcome State Fault Refusal :=
  let v := setBits value.toNat 31 31 1
  .next (gated ag 0x02 (some port.val) (rdn s (PP_CTL + pof port.val) != v) (ppCtlPut port.val v) s)

/-- PORT_DISABLE: a write of PP_CTL with EN = 0. -/
def execPortDisable (ag : Agent) (port : PortNo) (s : State) : Host.Outcome State Fault Refusal :=
  .next (gated ag 0x02 (some port.val) (fbit s fPP_CTL_EN (pof port.val)) (portOff port.val) s)

/-- CSI2_PACKET_RECEIVE: `stamp` is TB1 at the packet's start of transmission. -/
def execCsi2PacketReceive (port : PortNo) (stamp : BitVec 32) (ecc : Fin 3) (dt : BitVec 6) (vc : BitVec 4)
    (field : BitVec 16) (payload : List Byte) (crcErr : Bool) (s : State) : Host.Outcome State Fault Refusal :=
  .next (packet port.val stamp.toNat ecc.val dt.toNat vc.toNat field.toNat payload crcErr s)

/-- FRAME_START. -/
def execFrameStart (port : PortNo) (stamp : BitVec 32) (fn : BitVec 16) (desc0 desc1 : List Byte) (s : State) :
    Host.Outcome State Fault Refusal :=
  .next (csiFrameStart port.val stamp.toNat fn.toNat desc0 desc1 s)

/-- FRAME_END; its packet is a high-speed burst (R35). -/
def execFrameEnd (port : PortNo) (s : State) : Host.Outcome State Fault Refusal :=
  .next (if portRx s port.val then
      closeFrame port.val 0 false (updPort s port.val (fun x => { x with burst := true }))
    else s)

/-- FRAME_TIMEOUT: PP_FRM_TMO as it stood at the frame's start has passed; 0 disables it (R39). -/
def execFrameTimeout (port : PortNo) (s : State) : Host.Outcome State Fault Refusal :=
  .next (if (portSt s port.val).frmTmo = 0 then s else closeFrame port.val (2 ^ fsTMO) false s)

/-- PRESENCE_ASSERT. The odd half of a ganged pair follows the even one (R36). -/
def execPresenceAssert (port : PortNo) (s : State) : Host.Outcome State Fault Refusal :=
  .next (if gangedOdd s port.val then s else presenceOn port.val s)

/-- PRESENCE_LOST. -/
def execPresenceLost (port : PortNo) (s : State) : Host.Outcome State Fault Refusal :=
  .next (if gangedOdd s port.val then s else presenceOff port.val s)

/-- POWER_FAULT: the fault input takes a level. -/
def execPowerFault (port : PortNo) (asserted : Bool) (s : State) : Host.Outcome State Fault Refusal :=
  .next (powerFault port.val asserted s)

/-- SLOT_POWER_WRITE. -/
def execSlotPowerWrite (ag : Agent) (port : PortNo) (on : Bool) (s : State) : Host.Outcome State Fault Refusal :=
  .next (gated ag 0x02 (some port.val) (fbit s fPP_SLOT_CTL_PWR_CTL (pof port.val) != on)
    (fun t => if gangedOdd t port.val then t else slotPower port.val on t) s)

/-- POWER_SETTLE. -/
def execPowerSettle (port : PortNo) (s : State) : Host.Outcome State Fault Refusal :=
  let t := faultRow port.val s
  .next (if ppSlot t port.val = 2 then slotTo port.val 3 t else t)

/-- SLOT_CAP_COMMIT. -/
def execSlotCapCommit (ag : Agent) (port : PortNo) (caps : BitVec 5) (s : State) : Host.Outcome State Fault Refusal :=
  .next (dennilOnly ag (!fbit s fPP_SLOT_CAP_COMMIT (pof port.val)) (slotCapPut port.val (2 ^ 31 + caps.toNat)) s)

/-- ATTENTION_BUTTON: in ON Dennil answers with an orderly stop unless the port's function 02h is leased. -/
def execAttentionButton (port : PortNo) (s : State) : Host.Outcome State Fault Refusal :=
  let p := port.val
  .next (if !fbit s fPP_SLOT_CAP_BTN (pof p) || ppSlot s p = 0 || gangedOdd s p then s
    else
      let s1 := evt s fPP_SLOT_STAT_BTN (pof p)
      if ppSlot s p = 3 && dennilUp s && !leased s 0x02 (some p) then updPort s1 p (fun x => { x with stopDue := true }) else s1)

/-- ORDERLY_STOP: Dennil's stop that is due acts once no frame is open; under a lease it is suspended (R33, R280). -/
def execOrderlyStop (port : PortNo) (s : State) : Host.Outcome State Fault Refusal :=
  .next (if (portSt s port.val).stopDue && !frameOpen s port.val && dennilUp s && !leased s 0x02 (some port.val) then
      orderlyStop port.val s
    else s)

/-- LINK_TIMEOUT. -/
def execLinkTimeout (port : PortNo) (s : State) : Host.Outcome State Fault Refusal :=
  .next (if portRx s port.val && fget s fPP_HP_TIMING_LINK_TMO (pof port.val) != 0 && !(portSt s port.val).burst then
      evt s fPP_EVT_LINK_TMO (pof port.val) else s)

/-- SCLK_DIVISOR_WRITE: a write of PP_SCLK[k]. -/
def execSclkDivisorWrite (ag : Agent) (k : Fin 8) (value : BitVec 32) (s : State) : Host.Outcome State Fault Refusal :=
  .next (gated ag 0x02 (some k.val) (rdn s (PP_SCLK + pof k.val) != value.toNat) (sclkPut k.val value.toNat) s)

/-- ULPS_ENTRY_EXIT: lane `lane` (4 is the clock) is now stopped (0), in high-speed mode (1) or in ULPS (2). A data lane in
high-speed mode is a burst on a port that receives (R35). -/
def execUlpsEntryExit (port : PortNo) (lane : Fin 5) (mode : Fin 3) (s : State) : Host.Outcome State Fault Refusal :=
  let o := pof port.val
  let f := fun (w : Fld) (on : Bool) (t : State) => fset t w (withBit (fget t w o) lane.val on) o
  let lead := leadPort s port.val
  .next (if lane.val = 4 then fbset s fPP_STAT_CLK_HS (mode.val == 1) o
    else
      let s1 := f fPP_STAT_LANE_ULPS (mode.val == 2) (f fPP_STAT_LANE_HS (mode.val == 1) s)
      if mode.val = 1 ∧ portRx s lead then updPort s1 lead (fun x => { x with burst := true }) else s1)

/-! ## Sensor profiles and the port commands (R24, R45, R56, R78, R288) -/

/-- Dennil refuses to enable the port (R56, R78, R360). -/
def enableRefused (s : State) (p : Nat) : Bool :=
  let m := (cfaOf (rdn s (CX_CFA + pof p))).mosaic
  let per := match m with | 0 => 1 | 1 => 2 | _ => 4
  (stripMode s p && portHeight s p % per != 0) || (m != 0 && decide (fget s fPP_GEOM_WIDTH (pof p) < 8)) ||
    decide (rdn s (MM_POOL_FREE) + (portSt s p).stageBlocks < stageNeed s p)

/-- The writes of a sensor profile for port `p`: those in P0's window are moved to the port (log 21). -/
def profileWrites (pr : Profile) (p : Nat) : List (Nat × Nat) :=
  pr.writes.map (fun w => if 0x100000 ≤ w.1 ∧ w.1 < 0x110000 then (w.1 + pof p, w.2) else w)

/-- Write a word of a port's window, PP and SC words by their own rules. -/
def portWord (a v : Nat) (s : State) : State :=
  if 0x100000 ≤ a ∧ a < 0x200000 ∧ a % 0x10000 < 0x1000 then
    (if a % 0x10000 = 0 then ppCtlPut ((a - 0x100000) / 0x10000) (setBits v 31 31 0) s else ppPut a v s)
  else if 0x100000 ≤ a ∧ a < 0x200000 ∧ a % 0x10000 < 0x2000 then scPut a v none s
  else putWord a v s

/-- A stopped port takes a sensor profile: its registers, the start-up sequence, and a new generation (R45). Each message of
the sequence is a write to the sensor's address. -/
def loadSensor (p : Nat) (pr : Profile) (s : State) : State :=
  let s1 := forEach (profileWrites pr p) (fun w t => portWord w.1 w.2 t) s
  let a := BitVec.ofNat 8 (2 * fget s1 fSC_PROFILE_ADDR (pof p))
  let s2 := forEach pr.script (fun l t => emit t (.twCtrl (slotBus s1 p) (a :: l) none)) s1
  let g := fget s2 fSC_GEN_NEXT (pof p)
  fset (fset s2 fSC_GEN_NEXT (if g = 0xFFFF then 1 else g + 1) (pof p)) fSC_GEN_CUR g (pof p)

/-- LAT and the window that a profile would leave are those that R41 refuses. -/
def latencyBad (pr : Profile) (p : Nat) (s : State) : Bool :=
  let v := fun (a : Nat) => match ((profileWrites pr p).filter (fun w => w.1 = a)).getLast? with
    | some w => w.2
    | none => rdn s a
  let win := v (SC_WINDOW + pof p)
  decide (bits (v (SC_PROFILE + pof p)) 31 30 = 0 ∨ win / 65536 ≤ win % 65536)

/-- The profile's pixel rate exceeds what R24 admits for the single port or ganged pair that it sets up. -/
def rateBad (pr : Profile) (p : Nat) (s : State) : Bool :=
  decide ((if gangedEven (loadSensor p pr s) p then 4000000000 else 2000000000) < pr.rate)

/-- Dennil refuses the profile (R24, R41). -/
def profileBad (pr : Profile) (p : Nat) (s : State) : Bool := rateBad pr p s || latencyBad pr p s

/-- The ports enabled with a profile's settings: none where Dennil or the hardware refuses the enable (R39, R56, R78, R126,
R360). -/
def enableWith (p : Nat) (s : State) : Option State :=
  let t := portOn p s
  if enableRefused s p || !fbit t fPP_CTL_EN (pof p) || rangesBad t p then none else some t

/-- The functions whose registers a profile writes: ports and settings, and the block of each further word (R280). -/
def profileFuncs (pr : Profile) : List Nat :=
  [2, 3] ++ pr.writes.filterMap (fun w =>
    if 0x100000 ≤ w.1 ∧ w.1 < 0x200000 then
      match w.1 % 0x10000 / 0x1000 with
      | 2 => some 4 | 4 => some 5 | 6 => some 6 | 8 => some 7 | _ => none
    else none)

/-- HOT_INSERT_PROFILE_LOAD: Dennil answers a slot that has reached ON. It reads the head's identity (R71), and loads the
profile unless a scope that it writes is leased (R280) or the profile is one that it refuses (R24, R41). -/
def execHotInsertProfileLoad (port : PortNo) (profile : Fin 64) (headId : BitVec 64) (s : State) :
    Host.Outcome State Fault Refusal :=
  let p := port.val
  .next (if !dennilUp s || ppSlot s p ≠ 3 then s
    else
      let s0 := updPort s p (fun x => { x with headId := headId.toNat })
      match findProfile s 0x02 profile.val with
      | none => s0
      | some pr =>
        if gangedOdd s p || (profileFuncs pr).any (fun f => leased s f (some p)) || profileBad pr p (portOff p s0) then s0
        else
          let s1 := loadSensor p pr (portOff p s0)
          (enableWith p s1).getD s1)

/-- SENSOR_PROFILE_LOAD: checked at acceptance, the enable that FLAGS asks for too. -/
def runSensorProfileLoad (c : CmdCall) (s : State) : State × CmdRes :=
  let p := pb c 0
  if 16 ≤ p then (s, .refuse eRANGE 0)
  else match findProfile s 0x02 (pb c 1) with
    | none => (s, .refuse eRANGE 1)
    | some pr =>
      if fbit s fPP_CTL_EN (pof p) || ppSlot s p ≠ 3 || gangedOdd s p then (s, .refuse eSTATE 0)
      else if profileBad pr p s then (s, .refuse eRANGE 1)
      else if bit (pb c 2) 0 ∧ (enableWith p (loadSensor p pr s)).isNone then (s, .refuse eRANGE 2)
      else (s, .defer true)

/-- SENSOR_PROFILE_LOAD. -/
def execSensorProfileLoad (c : CmdCall) (s : State) : Host.Outcome State Fault Refusal :=
  .next (mbRun ⟨0x0210, 0x10, false, 8, 8, true, true⟩ runSensorProfileLoad c s)

/-- The start-up sequence of a SENSOR_PROFILE_LOAD has gone out, or failed on its bus. -/
def sensorProfileDone (x : Nat × Deferred) (ok : Bool) (s : State) : State :=
  let c := x.2.call
  let p := pb c 0 % 16
  match findProfile s 0x02 (pb c 1) with
  | none => endInternal x s
  | some pr =>
    if !ok then endInternal x s
    else
      let s1 := loadSensor p pr s
      let res := leBytes 2 (fget s1 fSC_GEN_CUR (pof p))
      if !bit (pb c 2) 0 then endD x 0 0 res s1
      else match enableWith p s1 with
        | some s2 => endD x 0 0 res s2
        | none => endD x eRANGE 2 [] s

/-- PORT_STOP. -/
def runPortStop (c : CmdCall) (s : State) : State × CmdRes :=
  let p := pb c 0
  if 16 ≤ p then (s, .refuse eRANGE 0)
  else if gangedOdd s p then (s, .refuse eSTATE 0)
  else if ppSlot s p = 3 then (updPort s p (fun x => { x with stopDue := true }), .defer true)
  else (slotPower p false (portOff p s), .ok [])

/-- PORT_STOP. -/
def execPortStop (c : CmdCall) (s : State) : Host.Outcome State Fault Refusal :=
  .next (mbRun ⟨0x0211, 0x10, false, 8, 8, true, true⟩ runPortStop c s)

/-- PORT_POWER. -/
def runPortPower (c : CmdCall) (s : State) : State × CmdRes :=
  let p := pb c 0
  if 16 ≤ p then (s, .refuse eRANGE 0)
  else if 1 < pb c 1 then (s, .refuse eRANGE 1)
  else if 1 < pb c 2 then (s, .refuse eRANGE 2)
  else if gangedOdd s p then (s, .refuse eSTATE 0)
  else (slotPower p (pb c 1 = 1) (fbset s fPP_SLOT_CTL_AUTO_PWR (pb c 2 = 1) (pof p)), .ok [])

/-- PORT_POWER. -/
def execPortPower (c : CmdCall) (s : State) : Host.Outcome State Fault Refusal :=
  .next (mbRun ⟨0x0212, 0x10, false, 8, 8, true, true⟩ runPortPower c s)

end Sys2Proof.Machine
end

