-- ==== Sys2Proof/Machine/Correct.lean ====
section
/-! DEFINITION. The correction block's registers, table windows and commands (R67 to R73), and the windows of the other
blocks' tables (R106, R127, R159). The stage itself stands in Pipe.lean. -/

namespace Sys2Proof.Machine

/-! ## Banks (R68 to R70, R106) -/

/-- Port `q` or the port that governs it is enabled. -/
def cxRuns (s : State) (q : Nat) : Bool := fbit s fPP_CTL_EN (pof (leadPort s q))

/-- Table `t` of port `q` is dual-bank: as fixed at the last enable while the port runs, else as the geometry and DPC_JOIN
now stand (R68). -/
def dualNow (s : State) (q t : Nat) : Bool :=
  if cxRuns s q then bit (rdn s (CX_BANK + pof q)) (24 + t)
  else if t = 3 then true
  else if t = 2 then !fbit s fCX_CTL_DPC_JOIN (pof q)
  else decide (fget s fPP_GEOM_WIDTH (pof (leadPort s q)) ≤ 8192)

/-- The active bank of table `t`. -/
def cxActive (s : State) (q t : Nat) : Nat := bits (rdn s (CX_BANK + pof q)) t t

/-- Bank `b` of table `t` may not be written (R70): the port runs, and the bank is active or the table has only one. -/
def cxLocked (s : State) (q t b : Nat) : Bool := cxRuns s q && (!dualNow s q t || cxActive s q t == b)

/-- The table and, in dual-bank mode, the bank at an offset of a correction window (R67, R68). -/
def cxPlace (off : Nat) : Option (Nat × Nat) :=
  if off < 0x20000 then some (1, off / 0x10000)
  else if off < 0x28000 then some (0, (off - 0x20000) / 0x4000)
  else if off < 0x30000 then some (2, (off - 0x28000) / 0x4000)
  else if off < 0x36388 then some (3, 0)
  else if 0x38000 ≤ off ∧ off < 0x3E388 then some (3, 1)
  else none

/-- Whether the reference table of port `p` is dual-bank (R106). -/
def sgDualNow (s : State) (p : Nat) : Bool :=
  if cxRuns s p then bit (rdn s (SG_BANK + pof p)) 24 else decide (fget s fPP_GEOM_WIDTH (pof (leadPort s p)) ≤ 8192)

/-- Bank `b` of the reference table may not be written. -/
def sgLocked (s : State) (p b : Nat) : Bool := cxRuns s p && (!sgDualNow s p || rdn s (SG_BANK + pof p) % 2 == b)

/-- CANCEL withdraws a pending swap (R69). -/
def swapCancel (bank p : Nat) (cx : Bool) (s : State) : State :=
  let s1 := wrn s (bank + pof p) (setBits (rdn s (bank + pof p)) 28 28 0)
  updPort s1 p (fun x => if cx then { x with cxReq := none } else { x with sgReq := none })

/-- A write of a bank register: ACT (bits `top` down to 0) only while the port is disabled, SEL and AT_EN first, then the
strobes (R69). -/
def bankPut (bank at_ top p v : Nat) (cx : Bool) (s : State) : State :=
  let a := bank + pof p
  let old := rdn s a
  let w0 := setBits (setBits old 29 29 (bits v 29 29)) (16 + top) 16 (bits v (16 + top) 16)
  let w := if cxRuns s p then w0 else setBits w0 top 0 (bits v top 0)
  let s1 := wrn s a w
  let s2 := if bit v 31 then swapRequest bank at_ p cx s1 else s1
  if bit v 30 then swapCancel bank p cx s2 else s2

/-! ## CX registers -/

/-- A write of CX_DPC_CNT: the count of the active bank, COUNT0 of a joined list, stays while the port runs. -/
def dpcCntPut (q v : Nat) (s : State) : State :=
  let a := CX_DPC_CNT + pof q
  if !cxRuns s q then wrn s a v
  else
    let b := if dualNow s q 2 then cxActive s q 2 else 0
    let kept := setBits v (16 * b + 15) (16 * b) (bits (rdn s a) (16 * b + 15) (16 * b))
    let s1 := wrn s a kept
    if kept = v % 2 ^ 32 then s1 else evt s1 fCX_EVT_ACT_WR (pof q)

/-- A write of a CX register. -/
def cxPut (a v : Nat) (s : State) : State :=
  let q := (a - 0x100000) / 0x10000
  let o := a % 0x10000 - 0x2000
  if o = 0 ∧ cxRuns s q then wrn s a (setBits (rdn s a) 31 29 (bits v 31 29))
  else if o = 4 ∧ cxRuns s q then s
  else if o = 0x10 then dpcCntPut q v s
  else if o = 0x14 then bankPut CX_BANK CX_SWAP_AT 3 q v true s
  else putWord a v s

/-! ## Table windows -/

/-- A write of `n` bytes inside a table window at W0 address `a` (R70, R106, R140): applied, or discarded with the event
that says so; reserved addresses ignore it. -/
def tablePut (a n v : Nat) (s : State) : State :=
  if 0x600000 ≤ a ∧ a < 0xA00000 then
    let q := (a - 0x600000) / 0x40000
    match cxPlace (a % 0x40000) with
    | none => s
    | some (t, b) => if cxLocked s q t b then evt s fCX_EVT_ACT_WR (pof q) else tblPuts s a (leBytes n v)
  else if 0xA00000 ≤ a ∧ a < 0xE00000 then
    let p := (a - 0xA00000) / 0x40000
    let off := a % 0x40000
    if 0x20000 ≤ off then s
    else if sgLocked s p (off / 0x10000) then evt s fSG_EVT_ACT_WR (pof p)
    else tblPuts s a (leBytes n v)
  else if 0xE00000 ≤ a ∧ a < 0xE08000 then
    if vwLocked s a then evt s fVW_EVT_CFG_WR else tblPuts s a (leBytes n v)
  else if 0xE10000 ≤ a ∧ a < 0xE14000 then tblPuts s a (leBytes n v)
  else s

/-- The `n` bytes of a table window at W0 address `a` as a number. -/
def tableRead (s : State) (a n : Nat) : Nat := if n = 2 then tbl16 s a else tbl32 s a

/-- The function and port whose lease a host write of a table window needs, none where no lease admits it (R67, R159). -/
def tableScope (a : Nat) : Option (Nat × Option Nat) :=
  if a < 0xA00000 then some (0x04, some ((a - 0x600000) / 0x40000))
  else if a < 0xE00000 then some (0x07, some ((a - 0xA00000) / 0x40000))
  else if a < 0xE08000 then some (0x08, none)
  else none

/-- A write of a table window by Dennil or the host. -/
def tableWrite (ag : Agent) (a n v : Nat) (s : State) : State :=
  let change := tableRead (tablePut a n v s) a n != tableRead s a n
  match tableScope a with
  | some (f, p) => gated ag f p change (tablePut a n v) s
  | none => if ag = .dennil then tablePut a n v s else if change then noLease s else s

/-! ## Loading tables -/

/-- Bytes of an entry of table `t`, and entries of a bank and of the single-bank table. -/
def tblEntry (t : Nat) : Nat := if t = 2 then 4 else 2
def tblCap (t : Nat) (dual : Bool) : Nat :=
  match t with
  | 0 => if dual then 8192 else 16384
  | 1 => if dual then 32768 else 65536
  | 2 => if dual then 4096 else 8192
  | _ => 12740

/-- The address of bank `b` of table `t` of port `q`. -/
def bankBase (q t b : Nat) : Nat :=
  cxTbl q + (match t with
    | 0 => 0x20000 + b * 0x4000
    | 1 => b * 0x10000
    | 2 => 0x28000 + b * 0x4000
    | _ => 0x30000 + b * 0x8000)

/-- The entries of a defect image are strictly ascending (R73). -/
def ascending : List Nat → Bool
  | [] => true
  | [_] => true
  | a :: b :: t => decide (a < b) && ascending (b :: t)

/-- The u32 entries of a byte image. -/
def entries32 (l : List Byte) : List Nat := (List.range (l.length / 4)).map (fun i => u32At l (4 * i))

/-- Request a swap of tables `sel` at frame `at_`, FFFFFFFFh meaning the next FS (R69, R73). -/
def swapAtFrame (q sel target : Nat) (s : State) : State :=
  let timed := target != 0xFFFFFFFF
  let w := setBits (setBits (rdn s (CX_BANK + pof q)) 19 16 sel) 29 29 (if timed then 1 else 0)
  let s1 := wrn s (CX_BANK + pof q) w
  swapRequest CX_BANK CX_SWAP_AT q true (if timed then wrn s1 (CX_SWAP_AT + pof q) target else s1)

/-- Set the length of bank `b` of the defect list. -/
def setDefects (q b n : Nat) (s : State) : State :=
  wrn s (CX_DPC_CNT + pof q) (setBits (rdn s (CX_DPC_CNT + pof q)) (16 * b + 15) (16 * b) n)

/-- CORR_TABLE_LOAD (R72, R73); the image is the data found at ADDR. -/
def corrTableLoad (c : CmdCall) (s : State) : State × CmdRes :=
  let q := pb c 0
  let t := pb c 1
  let swap := bit (pb c 3) 0
  let dual := dualNow s q t
  let b := if dual then pb c 2 else 0
  let n := pw c 6
  let img := fit (n * tblEntry t) c.data
  if 16 ≤ q then (s, .refuse eRANGE 0)
  else if 4 ≤ t then (s, .refuse eRANGE 1)
  else if dual ∧ 2 ≤ pb c 2 then (s, .refuse eRANGE 2)
  else if cxLocked s q t b ∨ (swap ∧ ¬ dual) then (s, .refuse eSTATE 2)
  else if tblCap t dual < pw c 4 + n ∨ (t = 3 ∧ (pw c 4 ≠ 0 ∨ n ≠ 12740)) then (s, .refuse eRANGE 4)
  else if !hostCanRead c s then (s, .waits)
  else if t = 2 ∧ ¬ ascending (entries32 img) then (s, .refuse eRANGE 8)
  else
    let s1 := tblPuts (hostRead c (pq c 8) (n * tblEntry t) s) (bankBase q t b + pw c 4 * tblEntry t) img
    let s2 := if t = 2 then setDefects q b n s1 else s1
    (if swap then swapAtFrame q (2 ^ t) (pd c 16) s2 else s2, .ok [])

/-- CORR_SET_MODE: fields that act from the next FS. -/
def corrSetMode (c : CmdCall) (s : State) : State × CmdRes :=
  let o := pof (pb c 0)
  let m := pb c 1
  if 16 ≤ pb c 0 then (s, .refuse eRANGE 0)
  else (fset (fset (fset s fCX_CTL_OFS_EN (bits m 0 0) o) fCX_CTL_DPC_MODE (bits m 2 1) o) fCX_FF_MODE_EN (bits m 3 3) o,
    .ok [])

/-- CORR_BANK_SWAP. -/
def corrBankSwap (c : CmdCall) (s : State) : State × CmdRes :=
  let q := pb c 0
  let sel := pb c 1 % 16
  if 16 ≤ q then (s, .refuse eRANGE 0)
  else if (List.range 4).any (fun t => bit sel t && !dualNow s q t) then (s, .refuse eSTATE 1)
  else
    let w := setBits (setBits (rdn s (CX_BANK + pof q)) 19 16 sel) 29 29 (bits (pb c 2) 0 0)
    (swapRequest CX_BANK CX_SWAP_AT q true (wrn (wrn s (CX_BANK + pof q) w) (CX_SWAP_AT + pof q) (pd c 4)), .ok [])

/-- CORR_PARAMS. -/
def corrParams (c : CmdCall) (s : State) : State × CmdRes :=
  let q := pb c 0
  let f := pb c 1
  if 16 ≤ q then (s, .refuse eRANGE 0)
  else if bit f 0 ∧ cxRuns s q then (s, .refuse eSTATE 1)
  else
    let s1 := if bit f 0 then putWord (CX_CFA + pof q) (pd c 4) s else s
    (if bit f 1 then putWord (CX_DPC_THR + pof q) (pd c 8) s1 else s1, .ok [])

/-! ## CORR_LOAD_CAL (R71) -/

/-- The PHASE byte of port `q`: mosaic, row phase and column phase as CX_CFA holds them (R340). -/
def cfaPhase (s : State) (q : Nat) : Nat := rdn s (CX_CFA + pof q) % 64

/-- The head identity of port `q`: that of the port which governs its pair, whose slot carries the head (R36, R71). -/
def headOf (s : State) (q : Nat) : Nat := (portSt s (leadPort s q)).headId

/-- The CAL types of R71, in order. -/
def corrTypes : List Nat := [0x0401, 0x0402, 0x0403, 0x0404, 0x0405]

/-- The table of a CAL type, none for the thresholds. -/
def corrTable (type : Nat) : Option Nat :=
  match type with
  | 0x0401 => some 0
  | 0x0402 => some 2
  | 0x0403 => some 1
  | 0x0404 => some 3
  | _ => none

/-- The entry of a type for the port's head at its phase. -/
def corrEntry (s : State) (q type : Nat) : Option CalEntry := calInUse s type (headOf s q) (cfaPhase s q)

/-- The head has an intact entry of a type, but at another phase. -/
def wrongPhase (s : State) (q type : Nat) : Bool :=
  (corrEntry s q type).isNone &&
    s.ev.cal.any (fun e => e.intact && e.type == type && e.head == headOf s q)

/-- The image of a table entry: the mesh has no COUNT. DESIGN CHOICE (log 102): a payload shorter than it says is filled
with zeros. -/
def calImage (t : Nat) (e : CalEntry) : List Byte :=
  if t = 3 then fit 25480 e.payload
  else fit (u32At e.payload 0 * (if t = 1 then 8 else tblEntry t)) (e.payload.drop 4)

/-- Load the image of a table into bank `b`. DESIGN CHOICE (log 102): what exceeds the bank is cut, and a defect list that is
not sorted is loaded as it is. -/
def calToBank (q t b : Nat) (dual : Bool) (img : List Byte) (s : State) : State :=
  let l := img.take (tblCap t dual * tblEntry t)
  let s1 := tblPuts s (bankBase q t b) l
  if t = 2 then setDefects q b (l.length / 4) s1 else s1

/-- Load one CAL entry: a table into its inactive bank, or into every bank while the port is stopped. -/
def calLoadOne (q : Nat) (e : CalEntry) (s : State) : State :=
  match corrTable e.type with
  | none =>
    let o := pof q
    fset (fset (fset s fCX_DPC_THR_DYN_ABS (u16At e.payload 0) o) fCX_DPC_THR_DYN_REL (byteAt e.payload 2) o)
      fCX_CTL_DPC_MODE (byteAt e.payload 3) o
  | some t =>
    let dual := dualNow s q t
    let banks := if !dual then [0] else if cxRuns s q then [1 - cxActive s q t] else [0, 1]
    forEach banks (fun b u => calToBank q t b dual (calImage t e) u) s

/-- CORR_LOAD_CAL: PORT in byte 0 and TARGET in bytes 4 to 7, a layout that the spec does not give. The RESULT
lists the missing types; DESIGN CHOICE (log 102): each as a u32. -/
def corrLoadCal (c : CmdCall) (s : State) : State × CmdRes :=
  let q := pb c 0
  let es := corrTypes.filterMap (corrEntry s q)
  let tables := es.filterMap (fun e => corrTable e.type)
  let dual := tables.filter (fun t => dualNow s q t)
  let missing := corrTypes.filter (fun t => (corrEntry s q t).isNone)
  if 16 ≤ q then (s, .refuse eRANGE 0)
  else match corrTypes.find? (wrongPhase s q) with
    | some t => (s, .refuse eRANGE t)
    | none =>
      if cxRuns s q ∧ dual.length ≠ tables.length then (s, .refuse eSTATE 0)
      else
        let s1 := forEach es (calLoadOne q) s
        (if dual = [] then s1 else swapAtFrame q (dual.foldl (fun a t => a + 2 ^ t) 0) (pd c 4) s1,
          .ok (missing.flatMap (leBytes 4)))

/-! ## The rows -/

/-- CX_BANK_SWAP_REQUEST: a write of CX_BANK with SWAP set. -/
def execCxBankSwapRequest (ag : Agent) (port : PortNo) (v : Word) (s : State) : Host.Outcome State Fault Refusal :=
  .next (gated ag 0x04 (some port.val) true (bankPut CX_BANK CX_SWAP_AT 3 port.val (v.toNat ||| 2 ^ 31) true) s)

/-- CX_BANK_CANCEL: a write of CX_BANK with CANCEL set and SWAP clear. -/
def execCxBankCancel (ag : Agent) (port : PortNo) (v : Word) (s : State) : Host.Outcome State Fault Refusal :=
  .next (gated ag 0x04 (some port.val) true
    (bankPut CX_BANK CX_SWAP_AT 3 port.val (setBits v.toNat 31 30 1) true) s)

/-- TABLE_WINDOW_WRITE: an aligned write of 16 or 32 bits at a table window's word `index`. -/
def execTableWindowWrite (ag : Agent) (wide : Bool) (index : Fin 5242880) (v : Word) (s : State) :
    Host.Outcome State Fault Refusal :=
  .next (if wide then tableWrite ag (0x600000 + index.val / 2 * 4) 4 v.toNat s
    else tableWrite ag (0x600000 + index.val * 2) 2 v.toNat s)

/-- CORR_LOAD_CAL. -/
def execCorrLoadCal (c : CmdCall) (s : State) : Host.Outcome State Fault Refusal :=
  .next (mbRun ⟨0x0410, 0x10, false, 8, 8, true, true⟩ corrLoadCal c s)

/-- CORR_SET_MODE. -/
def execCorrSetMode (c : CmdCall) (s : State) : Host.Outcome State Fault Refusal :=
  .next (mbRun ⟨0x0411, 0x10, false, 8, 8, true, true⟩ corrSetMode c s)

/-- CORR_TABLE_LOAD. -/
def execCorrTableLoad (c : CmdCall) (s : State) : Host.Outcome State Fault Refusal :=
  .next (mbRun ⟨0x0490, 0x10, true, 24, 24, true, true⟩ corrTableLoad c s)

/-- CORR_BANK_SWAP. -/
def execCorrBankSwap (c : CmdCall) (s : State) : Host.Outcome State Fault Refusal :=
  .next (mbRun ⟨0x0491, 0x10, true, 8, 8, true, true⟩ corrBankSwap c s)

/-- CORR_PARAMS. -/
def execCorrParams (c : CmdCall) (s : State) : Host.Outcome State Fault Refusal :=
  .next (mbRun ⟨0x0492, 0x10, true, 12, 12, true, true⟩ corrParams c s)

end Sys2Proof.Machine
end

