-- ==== Sys2Proof/Machine/Colour.lean ====
section
/-! DEFINITION. The colour block's registers, the tap engines' enables and completions, and the colour and tap commands
(R81, R85 to R93). The pixel stages and the taps' lines stand in Pipe.lean. -/

namespace Sys2Proof.Machine

/-! ## Tap engines -/

/-- Bytes of a line of `w` pixels in format `fmt` (R86). -/
def tapLineBytes (fmt w : Nat) : Nat :=
  match fmt with
  | 0 => 2 * w
  | 1 => w
  | 2 => 8 * w
  | 3 => 4 * w
  | 4 => 3 * w
  | 5 => 2 * w
  | 6 => w / 8
  | _ => w

/-- A tap point allows a format (R86). -/
def tapFmtOk (point fmt : Nat) : Bool :=
  match point with
  | 0 => decide (fmt ≤ 1)
  | 1 => decide (fmt ≤ 1)
  | 2 => decide (2 ≤ fmt ∧ fmt ≤ 5)
  | 3 => decide (2 ≤ fmt ∧ fmt ≤ 5)
  | 4 => decide (fmt = 6 ∨ fmt = 7)
  | _ => false

/-- The configuration of engine `e` of port `p` meets R86 and R87. -/
def tapConfigOk (s : State) (p e : Nat) : Bool :=
  let o := tpo p e
  let fmt := fget s fDM_TAP_CTL_FMT o
  let x0 := fget s fDM_TAP_ROI_X_X0 o
  let w := fget s fDM_TAP_ROI_X_W o
  let y0 := fget s fDM_TAP_ROI_Y_Y0 o
  let h := fget s fDM_TAP_ROI_Y_H o
  let stride := fget s fDM_TAP_STRIDE_V o
  tapFmtOk (fget s fDM_TAP_CTL_POINT o) fmt && decide (x0 + w ≤ fget s fPP_GEOM_WIDTH (pof p)) &&
    decide (y0 + h ≤ portHeight s p) && decide (1 ≤ w ∧ 1 ≤ h) && (fmt != 6 || w % 8 == 0) &&
    stride % 64 == 0 && decide (tapLineBytes fmt w ≤ stride)

/-- EN of engine `e` goes to 1: the next frame is its F0 (R87), and no stop is due. -/
def tapEnable (p e : Nat) (s : State) : State :=
  tapFetch p e (updTap p e (fun t => { t with f0 := none, stopNext := false })
    (fbset (fbset (tapForget p e s) fDM_TAP_STAT_CFG_ERR false (tpo p e)) fDM_TAP_CTL_EN true (tpo p e)))

/-- A write of DM_TAP_CTL (R85 to R87): fields but EN only while EN = 0; EN = 1 is refused with CFG_ERR where the
configuration is not allowed or the port is the odd half of a pair. -/
def tapCtlPut (p e v : Nat) (s : State) : State :=
  let o := tpo p e
  if fbit s fDM_TAP_CTL_EN o then (if bit v 31 then s else fbset s fDM_TAP_CTL_EN false o)
  else
    let s1 := putWord (DM_TAP_CTL + o) (setBits v 31 31 0) s
    if !bit v 31 then s1
    else if gangedOdd s1 p || !tapConfigOk s1 p e then fbset s1 fDM_TAP_STAT_CFG_ERR true o
    else tapEnable p e s1

/-- A write of a DM register. -/
def dmPut (a v : Nat) (s : State) : State :=
  let p := (a - 0x100000) / 0x10000
  let o := a % 0x10000 - 0x4000
  if o = 0 then
    let s1 := putWord a v s
    if bit v 29 then shadowCommit fDM_CTL_PEND p s1 else s1
  else if 0x100 ≤ o ∧ o < 0x180 then
    let e := (o - 0x100) / 0x40
    if o % 0x40 = 0 then tapCtlPut p e v s
    else if a = DM_TAP_TAIL + tpo p e then tapFetch p e (putWord a v s)
    else if o % 0x40 < 0x1C ∧ fbit s fDM_TAP_CTL_EN (tpo p e) then s
    else putWord a v s
  else putWord a v s

/-! ## Completion (R88 to R91) -/

/-- A taken frame's data is all written, or what ended it leaves nothing more to write. -/
def tapDone (f : TapFrame) : Bool :=
  match f.closed with
  | none => f.status == 4
  | some (_, delivered) => f.status != 0 || f.seen == delivered


/-- The status word that a descriptor returns: that of the frame, which an aborted frame still open does not have yet. -/
def tapFstat (s : State) (f : TapFrame) : Nat :=
  match f.closed with
  | some (w, _) => w
  | none => freeVal s

/-- Bytes 16 to 31 of the descriptor (R88). -/
def tapBack (s : State) (f : TapFrame) : List Byte :=
  leBytes 4 f.frame ++ leBytes 2 f.gen ++ leBytes 1 (if f.status = 0 then 1 else f.status) ++ leBytes 1 f.point ++
    leBytes 2 f.lines ++ zeros 2 ++ leBytes 4 (tapFstat s f)


/-- Write back the oldest taken frame of engine `e` when it is done and the budget covers it. -/
def tapComplete (p e : Nat) (s : State) : State :=
  match (tapSt s p e).frames with
  | [] => s
  | f :: rest =>
    let o := tpo p e
    if !tapDone f ∨ ¬ canDma s then s
    else if !tollCan s 36 tapBackCost then tollShort s 36 false
    else
      let s1 := dmaWrite (tollSpend s 36 tapBackCost) (tapDescAddr s p e f.idx + 16) (tapBack s f)
      let s2 := updTap p e (fun t => { t with frames := rest }) (useFree s1)
      let s3 := if f.status = 0 then cnt s2 (DM_TAP_CNT_DONE + o) else s2
      let s4 := if f.status = 2 then evt s3 fDM_TAP_EVT_BUF_SHORT o else s3
      let s5 := if f.status = 4 then evt s4 fDM_TAP_EVT_ABORTED o else s4
      if f.int then evt s5 fDM_TAP_EVT_DONE o else s5

/-- Bus Master Enable is cleared: the tap frames in progress end (R91). -/
def tapsPause (s : State) : State :=
  forEach (List.range 16) (fun p t => forEach [0, 1] (fun e u =>
    (tapSt u p e).frames.foldl (fun w f =>
      if f.status = 0 ∧ ¬ tapDone f then updTapFrame p e f.idx (fun x => { x with status := 4 }) (tapCut p e w) else w) u) t) s

/-- Bus Master Enable is set again: the frames that ended at the pause are written back first (R91); descriptors are read
again. -/
def tapsResume (s : State) : State :=
  forEach (List.range 16) (fun p t => forEach [0, 1] (fun e u =>
    tapFetch p e (if (tapSt u p e).frames.any (fun f => f.status == 4) then tapComplete p e u else u)) t) s

/-! ## Commands (R92, R93) -/

/-- TAP_START. -/
def tapStart (c : CmdCall) (s : State) : State × CmdRes :=
  let p := pb c 0
  let e := pb c 1
  let o := tpo p e
  if 16 ≤ p then (s, .refuse eRANGE 0)
  else if 2 ≤ e then (s, .refuse eRANGE 1)
  else if fbit s fDM_TAP_CTL_EN o ∨ gangedOdd s p then (s, .refuse eSTATE 1)
  else if 8 ≤ pb c 2 ∨ 16 ≤ pb c 3 then (s, .refuse eRANGE 2)
  else
    let s1 := fset (fset (fset s fDM_TAP_CTL_POINT (pb c 2) o) fDM_TAP_CTL_FMT (pb c 3) o) fDM_TAP_CTL_DECIM (pb c 12) o
    let s2 := wrn (wrn s1 (DM_TAP_ROI_X + o) (pw c 4 + 65536 * pw c 6)) (DM_TAP_ROI_Y + o) (pw c 8 + 65536 * pw c 10)
    let s3 := fset s2 fDM_TAP_STRIDE_V (pw c 13 + 65536 * pb c 15) o
    if !tapConfigOk s3 p e then (s, .refuse eRANGE 2)
    else (tapEnable p e s3, .ok [])

/-- TAP_STOP: PORT and ENGINE in bytes 0 and 1, a layout that the spec does not give. -/
def tapStop (c : CmdCall) (s : State) : State × CmdRes :=
  let p := pb c 0
  let e := pb c 1
  if 16 ≤ p ∨ 2 ≤ e then (s, .refuse eRANGE 0)
  else if !fbit s fDM_TAP_CTL_EN (tpo p e) then (s, .ok [])
  else (updTap p e (fun t => { t with stopNext := true }) s, .ok [])

/-- The colour calibration of the port's head, keyed by mosaic and phase. -/
def colourEntry (s : State) (p : Nat) : Option CalEntry :=
  calInUse s 0x0501 (headOf s p) (cfaPhase s p)

/-- A word that a colour calibration gives: DIR_THR alone of DM_CTL, the words of K and M whole, for P0's window, moved to the
port; nothing else. -/
def colourWord (p : Nat) (w : Nat × Nat) (s : State) : State :=
  if w.1 = DM_CTL then fset s fDM_CTL_DIR_THR w.2 (pof p)
  else if w.1 = DM_NIR_K01 ∨ w.1 = DM_NIR_K2 ∨ (DM_CM ≤ w.1 ∧ w.1 < DM_CM + 32) then putWord (w.1 + pof p) w.2 s
  else s

/-- COLOUR_LOAD_CAL: DIR_THR, K and M, then a commit. -/
def colourLoadCal (c : CmdCall) (s : State) : State × CmdRes :=
  let p := pb c 0
  if 16 ≤ p then (s, .refuse eRANGE 0)
  else match colourEntry s p with
    | some e => (shadowCommit fDM_CTL_PEND p (forEach (calPairs e) (colourWord p) s), .ok [])
    | none =>
      if s.ev.cal.any (fun e => e.intact && e.type == 0x0501 && e.head == headOf s p) then (s, .refuse eRANGE 0x0501)
      else (s, .refuse eSTATE 0x0501)

/-- COLOUR_PARAMS: PORT in byte 0, DM_CTL, DM_NIR_K01, DM_NIR_K2 and the eight DM_CM in bytes 8 to 51, a layout that
the spec does not give. -/
def colourParams (c : CmdCall) (s : State) : State × CmdRes :=
  let p := pb c 0
  let o := pof p
  if 16 ≤ p then (s, .refuse eRANGE 0)
  else
    let s1 := putWord (DM_NIR_K2 + o) (pd c 16) (putWord (DM_NIR_K01 + o) (pd c 12) (putWord (DM_CTL + o) (pd c 8) s))
    (shadowCommit fDM_CTL_PEND p (putWords (imageWords (DM_CM + o) ((c.payload.drop 20).take 32)) s1), .ok [])

/-! ## The rows -/

/-- DM_COMMIT: a write of DM_CTL with COMMIT set. -/
def execDmCommit (ag : Agent) (port : PortNo) (v : Word) (s : State) : Host.Outcome State Fault Refusal :=
  .next (gated ag 0x05 (some port.val) true (dmPut (DM_CTL + pof port.val) (v.toNat ||| 2 ^ 29)) s)

/-- TAP_ENABLE: a write of DM_TAP_CTL with EN set. -/
def execTapEnable (ag : Agent) (port : PortNo) (engine : Fin 2) (v : Word) (s : State) : Host.Outcome State Fault Refusal :=
  let a := DM_TAP_CTL + tpo port.val engine.val
  .next (gated ag 0x05 (some port.val) (!fbit s fDM_TAP_CTL_EN (tpo port.val engine.val)) (dmPut a (v.toNat ||| 2 ^ 31)) s)

/-- TAP_FRAME_COMPLETE. -/
def execTapFrameComplete (port : PortNo) (engine : Fin 2) (s : State) : Host.Outcome State Fault Refusal :=
  .next (tapComplete port.val engine.val s)

/-- TAP_START. -/
def execTapStart (c : CmdCall) (s : State) : Host.Outcome State Fault Refusal :=
  .next (mbRun ⟨0x0510, 0x10, false, 16, 16, true, true⟩ tapStart c s)

/-- TAP_STOP. -/
def execTapStop (c : CmdCall) (s : State) : Host.Outcome State Fault Refusal :=
  .next (mbRun ⟨0x0511, 0x10, false, 2, 8, true, true⟩ tapStop c s)

/-- COLOUR_LOAD_CAL. -/
def execColourLoadCal (c : CmdCall) (s : State) : Host.Outcome State Fault Refusal :=
  .next (mbRun ⟨0x0512, 0x10, false, 1, 8, true, true⟩ colourLoadCal c s)

/-- COLOUR_PARAMS. -/
def execColourParams (c : CmdCall) (s : State) : Host.Outcome State Fault Refusal :=
  .next (mbRun ⟨0x0590, 0x10, true, 52, 56, true, true⟩ colourParams c s)

end Sys2Proof.Machine
end

