-- ==== Sys2Proof/Machine/Stats.lean ====
section
/-! DEFINITION. The statistics block's registers, ring writer and commands (R100 to R103), and the readers and the stale timer
of the queue blocks (R390, R392, R393). The measurement stands in Pipe.lean. -/

namespace Sys2Proof.Machine

/-! ## ST registers -/

/-- A write of an ST register. -/
def stPut (a v : Nat) (s : State) : State :=
  let p := (a - 0x100000) / 0x10000
  let o := a % 0x10000 - 0x6000
  if o = 0 then
    let s1 := putWord a v s
    if bit v 30 then shadowCommit fST_CTL_PEND p s1 else s1
  else if 0x100 ≤ o ∧ o < 0x10C ∧ fbit s fST_RING_CTL_EN (pof p) then s
  else putWord a v s

/-! ## The ring writer (R100) -/

/-- Slots of the host ring of port `p`. -/
def statSlots (s : State) (p : Nat) : Nat :=
  let n := fget s fST_RING_SIZE_SIZE (pof p)
  if 1 ≤ n ∧ n ≤ 10 then 2 ^ n else 2

/-- The ring is full. -/
def statFull (s : State) (p : Nat) : Bool :=
  (fget s fST_RING_PROD_V (pof p) + 65536 - fget s fST_RING_CONS_V (pof p)) % 65536 == statSlots s p

/-- The hardware reader of instance `q` takes words: BURST words are held, or it drains after the stale timer (R392). -/
def hwReads (s : State) (q : Nat) : Bool :=
  let n := (quGet s q).words.length
  decide (0 < n) && ((quGet s q).drain || decide (max 1 (fget s fQU_THR_BURST (quo q)) ≤ n))

/-- The reader stops draining once the queue is empty. -/
def quRest (q : Nat) (s : State) : State :=
  if (quGet s q).words = [] then quPut s q { quGet s q with drain := false } else s

/-- The words of the oldest record that the next transaction carries: up to 256 bytes, and not above Max_Payload_Size (R254,
R362). -/
def statWords (s : State) (p : Nat) : List QWord :=
  (quRecord (quGet s (32 + p)).words).take (min 256 (maxPayload s) / quWordBytes s (32 + p))

/-- One transaction of the ring writer: words leave the queue for the slot in the host ring; after the record's last one PROD
advances. `poison` names the words of the queue that fail parity (R390). -/
def statChunk (p : Nat) (poison : List Nat) (s : State) : State :=
  let q := 32 + p
  let o := pof p
  let ws := statWords s p
  let bytes := quBytes ws
  let done := (quRecord (quGet s q).words).length == ws.length
  let pos := (portSt s p).stPos
  let prod := fget s fST_RING_PROD_V o
  let addr := addr64 s (ST_RING_LO + o) (ST_RING_HI + o) + prod % statSlots s p * 8192 + pos
  let s1 := forEach (List.range ws.length) (fun i t => quLeave t q (poison.contains i)) s
  let s2 := dmaWrite (quRest q s1) addr bytes (poison.any (fun k => decide (k < ws.length))) true
  let s3 := updPort s2 p (fun x => { x with stPos := if done then 0 else pos + bytes.length })
  if !done then s3
  else
    let s4 := cnt (fset s3 fST_RING_PROD_V (prod + 1) o) (ST_CNT_REC + o)
    if fbit s4 fST_RING_CTL_INT o then evt s4 fST_EVT_REC o else s4

/-- The ring writer can go on: it reads, or has begun a record; its ring is enabled and has room, and DMA is allowed. -/
def statCan (s : State) (p : Nat) : Bool :=
  (hwReads s (32 + p) || decide ((portSt s p).stPos ≠ 0)) && fbit s fST_RING_CTL_EN (pof p) && !statFull s p && canDma s

/-- The ring writer of port `p` copies the oldest record, transaction by transaction, as far as Toll client 35 covers them
(R100, R367). -/
def statCopy (fuel p : Nat) (poison : List Nat) (s : State) : State :=
  match fuel with
  | 0 => s
  | k + 1 =>
    let ws := statWords s p
    let cost := [(1, ((quBytes ws).length + 63) / 64), (2, 1)]
    if ws = [] ∨ ¬ statCan s p then s
    else if !tollCan s 35 cost then tollShort s 35 false
    else
      let s1 := statChunk p poison (tollSpend s 35 cost)
      if (portSt s1 p).stPos = 0 then s1
      else statCopy k p ((poison.filter (fun i => decide (ws.length ≤ i))).map (fun i => i - ws.length)) s1

/-- The ring writer of port `p` copies the oldest record. -/
def statWrite (p : Nat) (poison : List Nat) (s : State) : State := statCopy (quGet s (32 + p)).words.length p poison s

/-- The ring writer copies records until its queue is empty or the ring, Toll or a pause stops it. -/
def statDrain (fuel p : Nat) (s : State) : State :=
  match fuel with
  | 0 => s
  | k + 1 =>
    if (quGet s (32 + p)).words = [] then s
    else
      let s1 := statWrite p [] s
      if (quGet s1 (32 + p)).words.length = (quGet s (32 + p)).words.length ∨ (portSt s1 p).stPos ≠ 0 then s1
      else statDrain k p s1

/-! ## Queue blocks -/

/-- A write of a QU register: READER of a register reader's instance turns FLR_FLUSH with it (R394, R395). -/
def quRegPut (a v : Nat) (s : State) : State :=
  let q := (a - QU_CFG) / 0x80
  let o := (a - QU_CFG) % 0x80
  if a < QU_CFG then putWord a v s
  else if o = 0 then
    if fbit s fQU_CFG_HWR (quo q) then s
    else fbset (fbset s fQU_CFG_READER (bit v 26) (quo q)) fQU_CFG_FLR_FLUSH (bit v 26) (quo q)
  else if o = 0x40 ∨ o = 0x44 then quSummary q (putWord a v s)
  else putWord a v s

/-- Dennil has read a poisoned word of instance `q` (R390): it discards and counts a two-wire record, whose other words it takes
too, and makes no check of a frame's embedded data, whose held records go out. `ended` says that the word was the record's last. -/
def dennilPoison (q : Nat) (ended : Bool) (s : State) : State :=
  if 48 ≤ q ∧ q < 54 then
    let n := if ended then 0 else (quRecord (quGet s q).words).length
    evtCnt (forEach (List.range n) (fun _ t => quLeave t q false) s) fTW_EVT_TGT_DISCARD TW_CNT_TGT_DISCARD (two (q - 48))
  else if 16 ≤ q ∧ q < 32 then heldFlush (q - 16) s
  else s

/-- A read of QU_RTAG (R392): the reader selected takes the head word into the latch; the tag it returns, with POISON when
the word fails its parity check. -/
def rtagRead (ag : Agent) (q : Nat) (poison : Bool) (s : State) : State × Nat :=
  let reader := if fbit s fQU_CFG_READER (quo q) then Agent.host else Agent.dennil
  match (quGet s q).words with
  | [] => (s, 0)
  | w :: _ =>
    if fbit s fQU_CFG_HWR (quo q) || ag ≠ reader then (s, 0)
    else
      let s1 := quLeave s q poison
      let s2 := quPut s1 q { quGet s1 q with latch := w.bytes }
      (if poison && ag == .dennil then dennilPoison q (bit w.tag 5) s2 else s2, w.tag + if poison then 128 else 0)

/-- The stale timer of instance `q` reaches TIME (R393). -/
def quStale (q : Nat) (s : State) : State :=
  if !fbit s fQU_STALE_EN (quo q) || (quGet s q).words.isEmpty then s
  else
    let s1 := quEvt s fQU_EVT_STALE q
    if fbit s fQU_CFG_HWR (quo q) then quPut s1 q { quGet s1 q with drain := true } else s1

/-- A hardware reader reads (R392). Span words pass through their instances within the packet's own command. -/
def hwRead (q : Nat) (s : State) : State :=
  if 32 ≤ q ∧ q < 48 then statDrain 1024 (q - 32) s else s

/-! ## Commands (R103) -/

/-- A word of the ST block that STAT_START takes from a profile or a calibration entry. -/
def inSt (w : Nat × Nat) : Bool := decide (0x106004 ≤ w.1 ∧ w.1 < 0x106020) || decide (0x106040 ≤ w.1 ∧ w.1 < 0x1060C0) || w.1 == ST_CTL

/-- Write shadow words of the ST block for port `p`; COMMIT is the command's own. -/
def stWords (p : Nat) (l : List (Nat × Nat)) (s : State) : State :=
  putWords ((l.filter inSt).map (fun w => (w.1 + pof p, w.2))) s

/-- Set EN of the shadow and commit. -/
def stEnable (p : Nat) (on : Bool) (s : State) : State :=
  shadowCommit fST_CTL_PEND p (fbset s fST_CTL_EN on (pof p))

/-- STAT_START: PORT in byte 0 and the sensor profile's number in byte 1, a layout that the spec does not give. -/
def statStart (c : CmdCall) (s : State) : State × CmdRes :=
  let p := pb c 0
  if 16 ≤ p then (s, .refuse eRANGE 0)
  else match findProfile s 0x02 (pb c 1) with
    | none => (s, .refuse eRANGE 1)
    | some pr =>
      let cal := match calInUse s 0x0601 (headOf s p) 0 with | some e => calPairs e | none => []
      (stEnable p true (stWords p (pr.writes ++ cal) s), .ok [])

/-- STAT_STOP. -/
def statStop (c : CmdCall) (s : State) : State × CmdRes :=
  if 16 ≤ pb c 0 then (s, .refuse eRANGE 0) else (stEnable (pb c 0) false s, .ok [])

/-- STAT_PARAMS. -/
def statParams (c : CmdCall) (s : State) : State × CmdRes :=
  let p := pb c 0
  if 16 ≤ p then (s, .refuse eRANGE 0)
  else (shadowCommit fST_CTL_PEND p (stWords p (imageWords ST_CTL ((c.payload.drop 8).take 192)) s), .ok [])

/-! ## The rows -/

/-- STAT_RING_WRITE. -/
def execStatRingWrite (port : PortNo) (poison : List Nat) (s : State) : Host.Outcome State Fault Refusal :=
  .next (statWrite port.val poison s)

/-- STAT_COMMIT: a write of ST_CTL with COMMIT set. -/
def execStatCommit (ag : Agent) (port : PortNo) (v : Word) (s : State) : Host.Outcome State Fault Refusal :=
  .next (gated ag 0x06 (some port.val) true (stPut (ST_CTL + pof port.val) (v.toNat ||| 2 ^ 30)) s)

/-- STAT_START. -/
def execStatStart (c : CmdCall) (s : State) : Host.Outcome State Fault Refusal :=
  .next (mbRun ⟨0x0610, 0x10, false, 2, 8, true, true⟩ statStart c s)

/-- STAT_STOP. -/
def execStatStop (c : CmdCall) (s : State) : Host.Outcome State Fault Refusal :=
  .next (mbRun ⟨0x0611, 0x10, false, 1, 8, true, true⟩ statStop c s)

/-- STAT_PARAMS. -/
def execStatParams (c : CmdCall) (s : State) : Host.Outcome State Fault Refusal :=
  .next (mbRun ⟨0x0690, 0x12, true, 200, 200, true, true⟩ statParams c s)

/-- QUEUE_RTAG_READ. -/
def execQueueRtagRead (ag : Agent) (q : Fin 66) (poison : Bool) (s : State) : Host.Outcome State Fault Refusal :=
  .next (let r := rtagRead ag q.val poison s; emit r.1 (.readData ag r.2))

/-- QUEUE_STALE. -/
def execQueueStale (q : Fin 66) (s : State) : Host.Outcome State Fault Refusal := .next (quStale q.val s)

/-- QUEUE_HW_READ. -/
def execQueueHwRead (q : Fin 66) (s : State) : Host.Outcome State Fault Refusal := .next (hwRead q.val s)

end Sys2Proof.Machine
end

