-- ==== Sys2Proof/Machine/Segment.lean ====
section
/-! DEFINITION. The segmentation block's registers and commands (R104, R106, R123, R124). The stage itself stands in Pipe.lean
and Label.lean. -/

namespace Sys2Proof.Machine

/-- A write of an SG register. -/
def sgPut (a v : Nat) (s : State) : State :=
  let p := (a - 0x100000) / 0x10000
  let o := a % 0x10000 - 0x8000
  if o = 0 then
    let s1 := putWord a v s
    if bit v 30 then shadowCommit fSG_CTL_PEND p s1 else s1
  else if o = 0x30 then bankPut SG_BANK SG_SWAP_AT 0 p v false s
  else putWord a v s

/-! ## Commands -/

/-- SEG_LEARN_BG: it ends with its last line (R123). -/
def segLearn (c : CmdCall) (s : State) : State × CmdRes :=
  let p := pb c 0
  let n := pw c 2
  if 16 ≤ p then (s, .refuse eRANGE 0)
  else if !portRuns s p then (s, .refuse eSTATE 0)
  else if n = 0 ∨ 4096 < n then (s, .refuse eRANGE 2)
  else if stripMode s p ∧ ¬ sgDualNow s p then (s, .refuse eSTATE 1)
  else
    let lines := if stripMode s p then n else n * portHeight s p
    (updPort s p (fun x => { x with learn := some ⟨pb c 1, n, lines, !stripMode s p, [], 0⟩ }), .defer true)

/-- A word of the SG block that SEG_LOAD_PROFILE takes: bands, DIST, areas, MAX_LINES, alarm boxes. -/
def segProfileWord (w : Nat × Nat) : Bool :=
  decide (0x108008 ≤ w.1 ∧ w.1 < 0x108028) || decide (0x108060 ≤ w.1 ∧ w.1 < 0x1080C0)

/-- SEG_LOAD_PROFILE: PORT in byte 0 and the product profile's number in byte 1, a layout that the spec does not
give. -/
def segLoadProfile (c : CmdCall) (s : State) : State × CmdRes :=
  let p := pb c 0
  if 16 ≤ p then (s, .refuse eRANGE 0)
  else match findProfile s 0x07 (pb c 1) with
    | none => (s, .refuse eRANGE 1)
    | some pr =>
      let s1 := putWords ((pr.writes.filter segProfileWord).map (fun w => (w.1 + pof p, w.2))) s
      let s2 := match pr.writes.find? (fun w => w.1 == SG_CTL) with
        | some w => fset (fset s1 fSG_CTL_TEST (bits w.2 28 27) (pof p)) fSG_CTL_CH_EN (bits w.2 23 20) (pof p)
        | none => s1
      (shadowCommit fSG_CTL_PEND p s2, .ok [])

/-- SEG_PARAMS. -/
def segParams (c : CmdCall) (s : State) : State × CmdRes :=
  let p := pb c 0
  let img := imageWords (SG_CTL + pof p) ((c.payload.drop 8).take 192)
  if 16 ≤ p then (s, .refuse eRANGE 0)
  else (shadowCommit fSG_CTL_PEND p (putWords (img.take 12 ++ img.drop 24) s), .ok [])

/-- SEG_TABLE_LOAD; the image is the data found at ADDR. -/
def segTableLoad (c : CmdCall) (s : State) : State × CmdRes :=
  let p := pb c 0
  let dual := sgDualNow s p
  let b := if dual then pb c 2 else 0
  let n := pw c 6
  let swap := bit (pb c 3) 0
  let target := pd c 16
  if 16 ≤ p then (s, .refuse eRANGE 0)
  else if pb c 1 ≠ 0 then (s, .refuse eRANGE 1)
  else if dual ∧ 2 ≤ pb c 2 then (s, .refuse eRANGE 2)
  else if sgLocked s p b ∨ (swap ∧ ¬ dual) then (s, .refuse eSTATE 2)
  else if (if dual then 32768 else 65536) < pw c 4 + n then (s, .refuse eRANGE 4)
  else if !hostCanRead c s then (s, .waits)
  else
    let s1 := tblPuts (hostRead c (pq c 8) (2 * n) s) (sgTbl p + b * 0x10000 + 2 * pw c 4) (fit (2 * n) c.data)
    let timed := target != 0xFFFFFFFF
    let w := setBits (setBits (rdn s1 (SG_BANK + pof p)) 16 16 1) 29 29 (if timed then 1 else 0)
    let s2 := wrn s1 (SG_BANK + pof p) w
    (if swap then swapRequest SG_BANK SG_SWAP_AT p false (if timed then wrn s2 (SG_SWAP_AT + pof p) target else s2) else s1,
      .ok [])

/-! ## The rows -/

/-- SG_COMMIT: a write of SG_CTL with COMMIT set. -/
def execSgCommit (ag : Agent) (port : PortNo) (v : Word) (s : State) : Host.Outcome State Fault Refusal :=
  .next (gated ag 0x07 (some port.val) true (sgPut (SG_CTL + pof port.val) (v.toNat ||| 2 ^ 30)) s)

/-- SG_BANK_SWAP_REQUEST: a write of SG_BANK with SWAP set. -/
def execSgBankSwapRequest (ag : Agent) (port : PortNo) (v : Word) (s : State) : Host.Outcome State Fault Refusal :=
  .next (gated ag 0x07 (some port.val) true (sgPut (SG_BANK + pof port.val) (v.toNat ||| 2 ^ 31)) s)

/-- SG_BANK_CANCEL: a write of SG_BANK with CANCEL set and SWAP clear. -/
def execSgBankCancel (ag : Agent) (port : PortNo) (v : Word) (s : State) : Host.Outcome State Fault Refusal :=
  .next (gated ag 0x07 (some port.val) true (sgPut (SG_BANK + pof port.val) (setBits v.toNat 31 30 1)) s)

/-- SEG_LEARN_BG. -/
def execSegLearnBg (c : CmdCall) (s : State) : Host.Outcome State Fault Refusal :=
  .next (mbRun ⟨0x0710, 0x10, false, 8, 8, true, true⟩ segLearn c s)

/-- SEG_LOAD_PROFILE. -/
def execSegLoadProfile (c : CmdCall) (s : State) : Host.Outcome State Fault Refusal :=
  .next (mbRun ⟨0x0711, 0x10, false, 2, 8, true, true⟩ segLoadProfile c s)

/-- SEG_PARAMS. -/
def execSegParams (c : CmdCall) (s : State) : Host.Outcome State Fault Refusal :=
  .next (mbRun ⟨0x0790, 0x10, true, 200, 200, true, true⟩ segParams c s)

/-- SEG_TABLE_LOAD. -/
def execSegTableLoad (c : CmdCall) (s : State) : Host.Outcome State Fault Refusal :=
  .next (mbRun ⟨0x0791, 0x10, true, 24, 24, true, true⟩ segTableLoad c s)

end Sys2Proof.Machine
end

