-- ==== Sys2Proof/Machine/Parapet.lean ====
section
/-! DEFINITION. Parapet (chapter 22): detections, notices of other units, monitors, the watchdog and ALIVE, sticky bits,
force and release, DIVERT hold, and the Parapet commands. -/

namespace Sys2Proof.Machine

/-! ## Sources that assert -/

/-- Add a source to those that assert, or take it from them. -/
def setAssert (src : Nat) (on : Bool) (s : State) : State :=
  let l := s.pa.asserting.filter (fun x => x != src)
  { s with pa := { s.pa with asserting := if on then src :: l else l } }

/-- The conditions of these sources have ended. -/
def endAsserts (l : List Nat) (s : State) : State := forEach l (fun x t => setAssert x false t) s

/-- The condition of a source holds now: an outside condition that asserts, or the state of the block itself. -/
def condHolds (s : State) (src : Nat) : Bool :=
  s.pa.asserting.contains src ||
    (src == 0x50 && fget s fTB_STAT_STATE 0x40 == 3) ||
    (src == 0x42 && fbit s fPA_REPLACE_SRAM_REPAIR) ||
    (src == 0x52 && (List.range 5).any (fun w => rdn s (EM_TRIP + 4 * w) != 0)) ||
    (0x78 ≤ src && src ≤ 0x7F && bit (fget s fMM_STAT_LOST) (src - 0x78)) ||
    (src == 0xA0 && slState s 0 == 6) || (src == 0xA8 && slState s 1 == 6) ||
    (src == 0xB1 && [0, 1].any (fun p => linkUp s p && dualKeystone s p)) ||
    (0x100 ≤ src && src < 0x200 && src % 16 == 0 && fbit s fPP_STAT_PHY_DEAD ((src - 0x100) / 16 * 0x10000))

/-- A monitor's detection: the source asserts and is detected. -/
def monitorTrip (src : Nat) (s : State) : State := paDetect src (setAssert src true s)

/-- A detection of any assigned source; 042h is also the REPLACE cause SRAM_REPAIR (R407). -/
def faultDetect (src : Nat) (holds : Bool) (s : State) : State :=
  if !paAssigned src then s
  else
    let s1 := paDetect src (setAssert src holds s)
    if src = 0x42 then replaceTo ((replaceCauses s1).lor 4) s1 else s1

/-! ## Sticky bits (R397) -/

/-- Sticky bits are cleared; a source whose condition holds is detected again. -/
def stickyClear (srcs : List Nat) (s : State) : State :=
  let on := srcs.filter (paSticky s)
  forEach (on.filter (condHolds s)) paDetect (forEach on (fun x t => paSetSticky t x false) s)

/-- The sources of a PA_STICKY word whose bits are 1 in a mask. -/
def wordSources (w m : Nat) : List Nat := ((List.range 32).filter (bit m)).map (fun j => 32 * w + j)

/-- All sticky sources, rising. -/
def stickySources (s : State) : List Nat :=
  (List.range 16).flatMap (fun w => let v := rdn s (PA_STICKY + 4 * w); if v = 0 then [] else wordSources w v)

/-! ## Release (R405) -/

/-- The lowest SEVERE source whose sticky bit is set or that asserts. -/
def severeBlock (s : State) : Option Nat :=
  (List.range 512).find? (fun x => paClass s x == 2 && (paSticky s x || s.pa.asserting.contains x))

/-- A release ends the safe state now. -/
def releaseOk (s : State) : Bool := safeState s && !fbit s fPA_STAT_FATAL_SEEN && severeBlock s == none

/-- The end of the safe state. -/
def safeLeave (s : State) : State :=
  let s1 := fbset (fbset s fPA_STAT_SAFE false) fAC_STAT_SAFE false
  let s2 := forEach (List.range 4) (fun b t => fbset t fAC_BUS_CTL_SAFE false (buo b)) s1
  paPins (fbset (fbset s2 fPA_FIRST_SRC_VALID false) fPA_DIVERT_HOLD true)

/-- A write of PA_CTL.RELEASE. -/
def safeRelease (s : State) : State := if releaseOk s then idleBuses (safeLeave s) else s

/-- A write of PA_DIVERT.HOLD (R400). -/
def holdWrite (hold : Bool) (s : State) : State := paPins (fbset s fPA_DIVERT_HOLD hold)

/-! ## Configuration -/

/-- A class field of PA_EXT_CFG as a class: 11b acts as 10b. -/
def extClass (cfg k : Nat) : Nat := min 2 (bits cfg (2 * k + 1) (2 * k))

/-- A write of PA_EXT_CFG: the classes of sources 008h to 00Bh follow, and a mask bit of a SEVERE source reads 0. -/
def extCfg (v : Nat) (s : State) : State :=
  forEach (List.range 4) (fun k t =>
    let c := extClass v k
    let t1 := wrn t PA_CLASS (setBits (rdn t PA_CLASS) (2 * (8 + k) + 1) (2 * (8 + k)) c)
    if 2 ≤ c then regBit t1 PA_MASK (8 + k) false else t1) (fset s fPA_EXT_CFG_CLS v)

/-- A write of PA_MASK[w]: bits of SEVERE and FATAL sources stay 0 (R397). -/
def maskWrite (w v : Nat) (s : State) : State :=
  forEach (List.range 32) (fun j t => regBit t (PA_MASK + 4 * w) j (bit v j && decide (paClass t (32 * w + j) < 2))) s

/-- The watchdog restarts now (R402). -/
def wdogKick (s : State) : State := { s with pa := { s.pa with kickAt := s.tick } }

/-- The watchdog is suspended for 2 s, the time that a restarted steward has to reach running (R428). -/
def wdogSuspend (s : State) : State := { s with pa := { s.pa with kickAt := s.tick + 1000000000 } }

/-- WDOG.EN is set; only PORST_N clears it. -/
def wdogEnable (s : State) : State :=
  if fbit s fPA_WDOG_EN then s else paPins (wdogKick (fbset s fPA_WDOG_EN true))

/-- A write of one word of the PA block by Dennil. -/
def paPut (a v : Nat) (s : State) : State :=
  if a = PA_CTL then
    let s1 := fset s ⟨PA_CTL, 31, 28⟩ (v / 2 ^ 28)
    if bit v 27 then paDetect 4 s1 else if bit v 26 then safeRelease s1 else s1
  else if a = PA_DIVERT then holdWrite (bit v 31) s
  else if a = PA_WDOG then
    let s1 := fset s fPA_WDOG_TMO v
    let s2 := if bit v 31 then wdogEnable s1 else s1
    if bit v 30 then wdogKick s2 else s2
  else if a = PA_EXT_CFG then extCfg v s
  else if PA_STICKY ≤ a ∧ a < PA_STICKY + 64 then stickyClear (wordSources ((a - PA_STICKY) / 4) v) s
  else if PA_MASK ≤ a ∧ a < PA_MASK + 64 then maskWrite ((a - PA_MASK) / 4) v s
  else putWord a v s

/-! ## Notices (R403) -/

/-- A neighbour's notice. -/
def paNoticeRx (p : List Byte) (s : State) : State :=
  if byteAt p 0 ≠ 0x10 ∨ byteAt p 1 ≠ 0x50 ∨ p.length < 16 then s
  else
    let fl := byteAt p 5
    let w := u16At p 6 % 1024 * 2 ^ 22 + fl % 2 * 2 ^ 21 + fl / 2 % 2 * 2 ^ 20 + byteAt p 4 % 4 * 2 ^ 18 + u16At p 2 % 512
    let s1 := evt (wrn (wrn s PA_NBR w) PA_NBR_STAMP (u32At p 8)) fPA_EVT_NBR
    if fbit s fPA_CTL_NBR_SAFE ∧ bit fl 0 then paDetect 0xC s1 else s1

/-! ## Commands (R410) -/

/-- The sources whose conditions have ended, as a command carries them. -/
def endedOf (c : CmdCall) : List Nat := c.nums.map Int.toNat

/-- PA_CLEAR; `nums` names the sources whose conditions have ended. -/
def runPaClear (c : CmdCall) (s : State) : State × CmdRes :=
  let src := pw c 0
  if src ≠ 0xFFFF ∧ ¬ (src < 512 ∧ paAssigned src) then (s, .refuse eRANGE 0)
  else
    let s1 := endAsserts (endedOf c) s
    let s2 := stickyClear (if src = 0xFFFF then stickySources s1 else [src]) s1
    let left := stickySources s2
    (s2, .ok (leBytes 2 left.length ++ leBytes 2 (left.headD 0xFFFF)))

/-- Enable every bus that was enabled before the safe state, then clear HOLD. -/
def resumeBuses (s : State) : State :=
  holdWrite false (forEach (List.range 4) (fun b t =>
    if fbit t fAC_BUS_CTL_WAS_EN (buo b) then busEnable b true t else t) s)

/-- PA_RELEASE; `nums` names the sources whose conditions have ended. -/
def runPaRelease (c : CmdCall) (s : State) : State × CmdRes :=
  let s1 := endAsserts (endedOf c) s
  if releaseOk s1 then
    let s2 := safeLeave s1
    (idleBuses (if bit (pb c 0) 0 then resumeBuses s2 else s2), .ok [])
  else (s, .refuse eSTATE (if fbit s fPA_STAT_FATAL_SEEN then fget s fPA_FIRST_SRC_SOURCE
    else (severeBlock s1).getD 0))

/-- PA_FORCE_SAFE. -/
def runPaForce (_ : CmdCall) (s : State) : State × CmdRes := (paDetect 4 s, .ok [])

/-- A class as PA_CONFIG would set it. -/
def newClass (s : State) (ext src : Nat) : Nat :=
  if 8 ≤ src ∧ src ≤ 0xB then extClass ext (src - 8) else paClass s src

/-- PA_CONFIG. -/
def runPaConfig (c : CmdCall) (s : State) : State × CmdRes :=
  let ext := pb c 65
  let bad := (List.range 512).find? (fun x => bit (byteAt c.payload (x / 8)) (x % 8) && decide (2 ≤ newClass s ext x))
  match bad with
  | some x => (s, .refuse eRANGE (x / 8))
  | none =>
    if (List.range 4).any (fun k => bits ext (2 * k + 1) (2 * k) == 3) then (s, .refuse eRANGE 65)
    else if 150 < pb c 66 then (s, .refuse eRANGE 66)
    else
      let s1 := extCfg ext s
      let s2 := forEach (List.range 16) (fun w t => wrn t (PA_MASK + 4 * w) (pd c (4 * w))) s1
      let f := pb c 64
      let s3 := fset s2 ⟨PA_CTL, 31, 28⟩ (bits f 3 0)
      (fset s3 fPA_THERM_WARN (pb c 66), .ok [])

/-! ## The rows -/

/-- FAULT_DETECT; `holds` tells whether the condition goes on. -/
def execFaultDetect (src : Fin 512) (holds : Bool) (s : State) : Host.Outcome State Fault Refusal :=
  .next (faultDetect src.val holds s)

/-- PARAPET_NOTICE_RECEIVE. -/
def execParapetNoticeReceive (payload : List Byte) (s : State) : Host.Outcome State Fault Refusal :=
  .next (paNoticeRx payload s)

/-- SUPPLY_EXCURSION; rails in the order of R435. -/
def execSupplyExcursion (rail : Fin 8) (s : State) : Host.Outcome State Fault Refusal :=
  .next (monitorTrip (0x10 + rail.val) s)

/-- Tj against WARN: source 018h is detected above it, and again only after Tj has fallen 5 °C below it (R450). -/
def tjWarn (tj : Int) (s : State) : State :=
  let warn : Int := (fget s fPA_THERM_WARN * 16 : Nat)
  if warn < tj then (if s.pa.asserting.contains 0x18 then s else monitorTrip 0x18 s)
  else if tj ≤ warn - 80 then setAssert 0x18 false s
  else s

/-- TJ_WARN; `tj` is Tj in 1/16 °C. -/
def execTjWarn (tj : BitVec 16) (s : State) : Host.Outcome State Fault Refusal :=
  .next (tjWarn tj.toInt (fset s fPA_THERM_TJ tj.toNat))

/-- TJ_CRITICAL. -/
def execTjCritical (tj : BitVec 16) (s : State) : Host.Outcome State Fault Refusal :=
  let s1 := fset s fPA_THERM_TJ tj.toNat
  .next (if 158 * 16 < tj.toInt then monitorTrip 0x19 s1 else s1)

/-- WATCHDOG_EXPIRY: TMO ms without a kick; the watchdog stops in sleep (R429). -/
def execWatchdogExpiry (s : State) : Host.Outcome State Fault Refusal :=
  .next (if fbit s fPA_WDOG_EN ∧ s.pa.kickAt + max 1 (fget s fPA_WDOG_TMO) * 500000 ≤ s.tick ∧ ¬ s.rs.asleep then
      paDetect 2 (wdogKick s)
    else s)

/-- WATCHDOG_KICK. -/
def execWatchdogKick (ag : Agent) (s : State) : Host.Outcome State Fault Refusal :=
  .next (gated ag 0x16 none true wdogKick s)

/-- WATCHDOG_ENABLE. -/
def execWatchdogEnable (ag : Agent) (s : State) : Host.Outcome State Fault Refusal :=
  .next (gated ag 0x16 none true wdogEnable s)

/-- ALIVE_TOGGLE. -/
def execAliveToggle (s : State) : Host.Outcome State Fault Refusal :=
  .next (if fbit s fPA_STAT_ALIVE_RUN then
      emit { s with pa := { s.pa with alive := !s.pa.alive } } (.pin "ALIVE" 0 (!s.pa.alive))
    else s)

/-- SAFE_FORCE. -/
def execSafeForce (ag : Agent) (s : State) : Host.Outcome State Fault Refusal :=
  .next (gated ag 0x16 none true (paDetect 4) s)

/-- SAFE_RELEASE; `ended` names the sources whose conditions have ended. -/
def execSafeRelease (ag : Agent) (ended : List Nat) (s : State) : Host.Outcome State Fault Refusal :=
  .next (gated ag 0x16 none true safeRelease (endAsserts ended s))

/-- STICKY_CLEAR; `ended` names the sources whose conditions have ended. -/
def execStickyClear (ag : Agent) (word : Fin 16) (mask : Word) (ended : List Nat) (s : State) :
    Host.Outcome State Fault Refusal :=
  .next (gated ag 0x16 none true (stickyClear (wordSources word.val mask.toNat)) (endAsserts ended s))

/-- DIVERT_HOLD_WRITE. -/
def execDivertHoldWrite (ag : Agent) (hold : Bool) (s : State) : Host.Outcome State Fault Refusal :=
  .next (gated ag 0x16 none (fbit s fPA_DIVERT_HOLD != hold) (holdWrite hold) s)

/-- PA_CLEAR. -/
def execPaClear (c : CmdCall) (s : State) : Host.Outcome State Fault Refusal :=
  .next (mbRun ⟨0x1610, 0x10, false, 8, 8, false, true⟩ runPaClear c s)

/-- PA_RELEASE. -/
def execPaRelease (c : CmdCall) (s : State) : Host.Outcome State Fault Refusal :=
  .next (mbRun ⟨0x1611, 0x10, false, 8, 8, false, true⟩ runPaRelease c s)

/-- PA_FORCE_SAFE. -/
def execPaForceSafe (c : CmdCall) (s : State) : Host.Outcome State Fault Refusal :=
  .next (mbRun ⟨0x1612, 0x10, false, 8, 8, false, true⟩ runPaForce c s)

/-- PA_CONFIG. -/
def execPaConfig (c : CmdCall) (s : State) : Host.Outcome State Fault Refusal :=
  .next (mbRun ⟨0x1690, 0x10, true, 68, 68, false, true⟩ runPaConfig c s)

end Sys2Proof.Machine
end

