-- ==== Sys2Proof/Machine/Tiles.lean ====
section
/-! DEFINITION. Tiles, tile rings and verdict rings (chapter 9): the crop, its layout, the allocation in a ring, the TILE
packets of other piers, descriptors, timeouts, and the verdict fetches. -/

namespace Sys2Proof.Machine

/-! ## The crop (R142 to R145, R454) -/

/-- A row of a crop: pixels and mask bits. -/
abbrev CropRow := List (Px × Bool)

/-- A crop: its rows, the source position of its first pixel (line relative to the object's first), and TFLAGS. -/
structure Crop where
  rows : List CropRow
  x0 : Nat
  y0 : Int
  tflags : Nat
  deriving DecidableEq, Repr

/-- The staged lines of the entry's image. -/
def stageOf (s : State) (e : Entry) : List T3Line :=
  (s.ports[(Fin.ofNat 16 e.port)].stage).filter (fun l => l.img = e.img)

/-- The entry's image has ended. -/
def imgEnded (s : State) (e : Entry) : Bool :=
  let p := s.ports[(Fin.ofNat 16 e.port)]
  p.img != e.img || !p.imgOpen

/-- The crop can start (R142): the staging ring has held LAST + MARGIN, masks included, or the image has ended. -/
def cropReady (s : State) (e : Entry) (m : Nat) : Bool :=
  let st := stageOf s e
  st.all (fun l => decide (e.y1 + m < l.y) || l.mask.isSome) &&
    (imgEnded s e || st.any (fun l => decide (e.y1 + m ≤ l.y)))

/-- The last line of the entry's image that the crop takes. -/
def cropLast (s : State) (e : Entry) (m : Nat) : Nat :=
  let top := (stageOf s e).foldl (fun a l => max a l.y) e.y1
  if imgEnded s e then min (e.y1 + m) top else e.y1 + m

/-- The crop's first line is no longer staged (R142). -/
def cropLost (s : State) (e : Entry) (m : Nat) : Bool := !((stageOf s e).any (fun l => l.y = e.y0 - m))

/-- Columns `a` to `b` of a line. -/
def cropRow (a b : Nat) (l : T3Line) : CropRow :=
  ((l.px.zip (match l.mask with | some k => k | none => [])).drop a).take (b + 1 - a)

/-- The mean of samples, rounded half up. -/
def meanUp (l : List Nat) : Nat := (2 * l.sum + l.length) / (2 * max 1 l.length)

/-- The mean pixel of a block and the OR of its mask bits (R144). -/
def blockMean (l : List (Px × Bool)) : Px × Bool :=
  (⟨meanUp (l.map (·.1.r)), meanUp (l.map (·.1.g)), meanUp (l.map (·.1.b)), meanUp (l.map (·.1.n))⟩,
    l.any (·.2))

/-- Decimate rows by `d` in both directions. -/
def decimate (d : Nat) (rows : List CropRow) : List CropRow :=
  let w := match rows with | r :: _ => r.length | [] => 0
  (List.range ((rows.length + d - 1) / d)).map (fun j =>
    (List.range ((w + d - 1) / d)).map (fun i =>
      blockMean (((rows.drop (j * d)).take d).flatMap (fun r => (r.drop (i * d)).take d))))

/-- A window of rows. -/
def window (x y : Nat) (rows : List CropRow) : List CropRow :=
  ((rows.drop y).take 512).map (fun r => (r.drop x).take 512)

/-- Clamp an integer to a range. -/
def clampInt (v lo hi : Int) : Int := max lo (min v hi)

/-- The source rectangle of a crop with margin `m`: first and last column, first and last line (R143). -/
def cropRect (s : State) (e : Entry) (m : Nat) : Nat × Nat × Nat × Nat :=
  let fr := featRec s e.id
  (u32At fr 28 / 16 - m, min (u32At fr 32 / 16 - 1 + m) (portWidth s e.port - 1), e.y0 - m, cropLast s e m)

/-- The crop of an entry (R143, R144, R454); none for a dropped oversize crop. -/
def cropOf (s : State) (e : Entry) (w : Nat) : Option Crop :=
  let m := bits w 24 19
  let fr := featRec s e.id
  let xmin := u32At fr 28 / 16
  let xmax := u32At fr 32 / 16 - 1
  let wid := portWidth s e.port
  let (a, b, l0, l1) := cropRect s e m
  let edge := decide (xmin < m) || decide (wid ≤ xmax + m) || decide (e.y0 < m) || decide (l1 < e.y1 + m)
  let rows := ((stageOf s e).filter (fun l => decide (l0 ≤ l.y) && decide (l.y ≤ l1))).map (cropRow a b)
  let ws := b + 1 - a
  let hs := l1 + 1 - l0
  let yc : Int := (l0 : Int) - e.y0
  let ef := if edge then 8 else 0
  let cx : Int := (u32At fr 36 / 16 : Nat)
  let cy : Int := (u32At fr 40 / 16 : Nat)
  if ws ≤ 512 ∧ hs ≤ 512 then some ⟨rows, a, yc, ef⟩
  else match bits w 26 25 with
    | 0 =>
      if (ws + 1) / 2 ≤ 512 ∧ (hs + 1) / 2 ≤ 512 then some ⟨decimate 2 rows, a, yc, ef + 1⟩
      else
        let wd := (ws + 3) / 4
        let hd := (hs + 3) / 4
        if wd ≤ 512 ∧ hd ≤ 512 then some ⟨decimate 4 rows, a, yc, ef + 2⟩
        else
          let sx := if 512 < wd then clampInt ((cx - a) / 4 - 256) 0 ((wd : Int) - 512) else 0
          let sy := if 512 < hd then clampInt ((cy - yc) / 4 - 256) 0 ((hd : Int) - 512) else 0
          some ⟨window sx.toNat sy.toNat (decimate 4 rows), a + 4 * sx.toNat, yc + 4 * sy, ef + 2 + 4⟩
    | 1 =>
      let sx := if 512 < ws then clampInt (cx - 256) (a : Int) ((b : Int) - 511) else (a : Int)
      let sy := if 512 < hs then clampInt (cy - 256) yc (yc + (hs : Int) - 512) else yc
      some ⟨window (sx - a).toNat (sy - yc).toNat rows, sx.toNat, sy, ef + 4⟩
    | _ => none

/-- Bytes of a pixel in the formats of R145. -/
def fmtBytes (fmt : Nat) : Nat := match fmt with | 0 => 4 | 1 => 3 | _ => 8

/-- The tile length that a header tells (R145). -/
def tileLen (w h fmt : Nat) (mask feat : Bool) : Nat :=
  64 + (if feat then 128 else 0) + fmtBytes fmt * w * h + (if mask then (w * h + 7) / 8 else 0)

/-- Pack bits, the first in bit 0 of the first byte. -/
def maskPack (fuel : Nat) (l : List Bool) : List Byte :=
  match fuel with
  | 0 => []
  | k + 1 => if l = [] then [] else
    BitVec.ofNat 8 ((List.range 8).foldl (fun a i => a + if l.getD i false then 2 ^ i else 0) 0) :: maskPack k (l.drop 8)

/-- The pixel data of a crop (R145). -/
def pixelBytes (fmt : Nat) (px : List Px) : List Byte :=
  let hi := fun (v : Nat) => BitVec.ofNat 8 (v / 256)
  match fmt with
  | 0 => px.flatMap (fun p => [hi p.r, hi p.g, hi p.b, hi p.n])
  | 1 => px.flatMap (fun p => [hi p.r, hi p.g, hi p.b])
  | _ => px.flatMap (fun p => leBytes 2 p.r) ++ px.flatMap (fun p => leBytes 2 p.g) ++
      px.flatMap (fun p => leBytes 2 p.b) ++ px.flatMap (fun p => leBytes 2 p.n)

/-- DEADLINE and DL_OWNER of a tile header (R146). -/
def tileDeadline (s : State) (e : Entry) : Nat × Bool :=
  match setOf s e.id with
  | some r => if ownsSet s r then (effDeadline r % 2 ^ 32, true) else (add32 e.lastStamp (r.deadline * 1000), false)
  | none =>
    let own := (add32 e.lastStamp (fget s fVW_GRP_DEADLINE_US (e.group * 0x20) * 1000), false)
    match endedSet s e.id with
    | some x => if x.owned then (x.deadline % 2 ^ 32, true) else own
    | none => own

/-- The header of a tile (R146). A set that ended before the crop still gives its owner, members and deadline. -/
def tileHeader (s : State) (e : Entry) (m : TileMade) (c : Crop) : List Byte :=
  let w := m.route
  let fr := featRec s e.id
  let (owner, members) := setIdent s e.id
  let mates := members.length - 1
  let dl := tileDeadline s e
  let width := match c.rows with | r :: _ => r.length | [] => 0
  leBytes 4 e.id ++ leBytes 4 owner ++ leBytes 1 (e.group + 8 * e.view + 32 * mates) ++
    leBytes 1 (e.port + 16 * bits w 30 29 + 64 * bits w 28 28 + 128 * bits w 27 27) ++ leBytes 2 e.flags ++
    leBytes 2 width ++ leBytes 2 c.rows.length ++ leBytes 2 (c.tflags + if dl.2 then 16 else 0) ++
    leBytes 1 (bits w 24 19) ++ leBytes 1 m.ring ++ leBytes 2 c.x0 ++ leBytes 2 (int32u c.y0) ++
    leBytes 4 e.frame ++ leBytes 2 e.gen ++ (fr.drop 8).take 2 ++ leBytes 4 e.firstStamp ++ leBytes 4 e.lastStamp ++
    leBytes 4 (u32At fr 20) ++ leBytes 4 (u32At fr 36) ++ leBytes 4 (u32At fr 40) ++ leBytes 4 e.featPtr ++
    leBytes 4 dl.1 ++ zeros 4

/-- The bytes of a tile (R145). -/
def tileBytes (s : State) (e : Entry) (m : TileMade) (c : Crop) : List Byte :=
  let all := c.rows.flatten
  tileHeader s e m c ++ (if bit m.route 27 then featRec s e.id else []) ++
    pixelBytes (bits m.route 30 29) (all.map (·.1)) ++
    (if bit m.route 28 then maskPack (all.length + 1) (all.map (·.2)) else [])

/-! ## Tile rings (R147, R148) -/

/-- Distance of tile ring `r`'s registers. -/
def tro (r : Nat) : Nat := r * 0x40

/-- Descriptors of ring `r`. -/
def trSlots (s : State) (r : Nat) : Nat := ringSize (fget s fTL_TR_CTL_SIZE (tro r))

/-- Arena bytes of ring `r`. -/
def trArena (s : State) (r : Nat) : Nat :=
  let a := fget s fTL_TR_CTL_ASIZE (tro r)
  2 ^ (if 16 ≤ a ∧ a ≤ 30 then a else 16)

/-- P after the advance of step 2 of R147 for a tile of `len` bytes. -/
def trPlace (s : State) (r len : Nat) : Nat :=
  let p := rdn s (TL_TR_ARENA_PROD + tro r)
  let n := trArena s r
  let lena := (len + 63) / 64 * 64
  if n < p % n + lena then p - p % n + n else p

/-- The allocation of R147 succeeds. -/
def trFits (s : State) (r len : Nat) : Bool :=
  let seq := rdn s (TL_TR_SEQ + tro r)
  let lena := (len + 63) / 64 * 64
  fbit s fTL_TR_CTL_EN (tro r) && sub32 seq (rdn s (TL_TR_CONS + tro r)) != trSlots s r &&
    decide (sub32 (trPlace s r len + lena) (smGet s.tiles.arenaCons r 0) ≤ trArena s r)

/-- Keep BUSY of a ring. -/
def trBusy (r : Nat) (s : State) : State :=
  fbset s fTL_TR_CTL_BUSY (s.tiles.allocs.any (fun a => a.ring = r)) (tro r)

/-- Allocate a tile (R147). -/
def trAlloc (r len id : Nat) (maker : Option Nat) (msg blocks : Nat) (s : State) : State :=
  let p := trPlace s r len
  let lena := (len + 63) / 64 * 64
  let seq := rdn s (TL_TR_SEQ + tro r)
  let a : TileAlloc := { ring := r, seq := seq, off := p % trArena s r, arenaEnd := add32 p lena, len := len, id := id,
                         maker := maker, msg := msg, got := 0, nextSeg := 0, headerAt := now s, drop := none,
                         paused := false, blocks := blocks, poison := false }
  let s1 := wrn (wrn s (TL_TR_SEQ + tro r) (seq + 1)) (TL_TR_ARENA_PROD + tro r) (p + lena)
  trBusy r (acct { s1 with tiles := { s1.tiles with allocs := s1.tiles.allocs ++ [a] } }
    (fun x => { x with trAlloc := x.trAlloc + 1 }))

/-- A refused allocation (R147, R149). -/
def trNoSpace (r : Nat) (s : State) : State :=
  irqAt (TL_TR_EVT + tro r) (fset (cnt s (TL_TR_CNT_NOSPACE + tro r)) fTL_TR_EVT_NOSPACE 1 (tro r))

/-- Change an allocated tile. -/
def updAlloc (r seq : Nat) (f : TileAlloc → TileAlloc) (s : State) : State :=
  { s with tiles := { s.tiles with
      allocs := s.tiles.allocs.map (fun a => if a.ring = r ∧ a.seq = seq then f a else a) } }

/-- The host address of an allocated tile. -/
def allocAddr (s : State) (a : TileAlloc) : Nat :=
  fget s fTL_TR_ARENA_LO_BASE (tro a.ring) * 4096 + rdn s (TL_TR_ARENA_HI + tro a.ring) * 2 ^ 32 + a.off

/-- Write bytes of a tile to host memory at tile byte `at_` (R241), poisoned where the tile has lost blocks (R357). -/
def allocWrite (a : TileAlloc) (at_ : Nat) (data : List Byte) (s : State) : State :=
  let s1 := dmaWrite s (allocAddr s a + at_) data a.poison true
  updAlloc a.ring a.seq (fun x => { x with got := x.got + data.length, nextSeg := x.nextSeg + 1 }) s1

/-- REASON codes of R148 and R150. -/
def reasonDrop (r : Nat) : Drop :=
  match r with | 2 => .toll | 3 => .pause | 5 => .ring | _ => .span

/-- Send TILE_DONE (R150, R241). -/
def sendTileDone (pier status reason ring id seq : Nat) (s : State) : State :=
  netSend s clsTILE flCTRL pier [[1#8, BitVec.ofNat 8 status, BitVec.ofNat 8 reason, BitVec.ofNat 8 ring] ++
    leBytes 4 id ++ leBytes 4 seq ++ zeros 4]

/-- Report a tile that gets no descriptor to its maker. -/
def tileRefused (maker : Option Nat) (reason ring id : Nat) (s : State) : State :=
  match maker with
  | none => tileDrop id (reasonDrop reason) s
  | some p => sendTileDone p 2 reason ring id 0 s

/-- The DMA that writes tiles is paused (R156). -/
def tilePaused (s : State) : Bool := !canDma s

/-- A header reaches this unit's rings (R147, R149, R156): it is allocated, or refused. `blocks` are the pool blocks that
a tile of another pier takes. -/
def tileHeaderIn (r len id : Nat) (maker : Option Nat) (msg blocks : Nat) (s : State) : State :=
  if tilePaused s then tileRefused maker 3 r id s
  else if !poolCan s 2 blocks then tileRefused maker 2 r id (poolRefuse s 2)
  else if trFits s r len then trAlloc r len id maker msg blocks (poolTake s 2 blocks)
  else tileRefused maker 5 r id (trNoSpace r s)

/-! ## The maker (R142, R149, R241, R346) -/

/-- The evidence copy of a tile (R346). -/
def evCopy (id : Nat) (bytes : List Byte) (s : State) : State :=
  if !fbit s fEV_CTL_EVID_EN then s
  else
    let n := blocksOf bytes.length
    if poolCan s 3 n then
      let s1 := poolTake s 3 n
      { s1 with ev := { s1.ev with copies := s1.ev.copies ++ [⟨id, n, some bytes⟩] } }
    else
      let s1 := poolRefuse s 3
      { s1 with ev := { s1.ev with copies := s1.ev.copies ++ [⟨id, 0, none⟩] } }

/-- A streaming transfer is charged to client `c`. When its budget ran out on the way (`short`), what it had is taken and the
rest of the transfer is lost; transfers longer than a Toll period are one command here (log 23). -/
def tollStream (c : Nat) (costs : List (Nat × Nat)) (short : Bool) (s : State) : State :=
  if short then
    tollShort (costs.foldl (fun t rc => tollTake t c rc.1 (min rc.2 (rdn t (TO_AVAIL + tollOfs c rc.1)))) s) c true
  else tollBegin s c costs

/-- The costs of TILE_ENG (R365): the crop's lines read, the tile assembled, and its evidence copy when one is made. -/
def cropCosts (rect : Nat × Nat × Nat × Nat) (len : Nat) (copy : Bool) : List (Nat × Nat) :=
  let row := 8 * (rect.2.1 + 1 - rect.1)
  let n := rect.2.2.2 + 1 - rect.2.2.1
  let k := if copy then 2 else 1
  [(0, n * lp5Units row + k * lp5Units len), (2, n * trestleUnits row + k * trestleUnits len)]

/-- The costs of TILE_DMA for `n` bytes of a tile: the tile read and written to the host, and its packets stored first when
it comes over the Span (R365). -/
def dmaCosts (span : Bool) (n : Nat) : List (Nat × Nat) :=
  let k := if span then 2 else 1
  [(0, k * lp5Units n), (1, lp5Units n), (2, k * trestleUnits n)]

/-- A streaming client covers its next transaction of a transfer of `n` bytes on the resources of `costs`. -/
def tollNext (s : State) (c n : Nat) (costs : List (Nat × Nat)) : Bool :=
  tollCan s c (costs.map (fun rc => (rc.1, if rc.1 = 2 then 1 else lp5Units (min n (if rc.1 = 1 then maxPayload s else 256)))))

/-- Cut a list into packets of 2,048 bytes. -/
def tileSegs (fuel : Nat) (l : List Byte) : List (List Byte) :=
  match fuel with
  | 0 => []
  | k + 1 => if l.length ≤ 2048 then [l] else l.take 2048 :: tileSegs k (l.drop 2048)

/-- Send the first `n` packets of a tile to another pier (R241). -/
def tileSend (pier n : Nat) (segs : List (List Byte)) (s : State) : State :=
  let pk := (mkMsg s clsTILE 0 pier segs).take n
  let s1 := bumpMsg s clsTILE
  let r := routeTo s pier
  if r = 0 ∨ r = 3 then dropNoRoute s1 0 pk.length
  else if !fbit s fSN_CTL_EN then dropNoRoute s1 (r - 1) pk.length
  else pk.foldl (fun t k => enqueue t (r - 1) (ownItem k)) s1

/-- The tile goes to this unit's rings. -/
def tileLocal (s : State) : Bool := !fbit s fTL_CTL_DEST || (pierValid s && fget s fSN_HOST_PIER == myPier s)

/-- Bytes of an allocated tile reach the ring's unit and are written to the host; `dmaCut` says that TILE_DMA ran out on the
way, and without budget for the first transaction nothing is written (R149). -/
def tileWrite (a : TileAlloc) (at_ : Nat) (data : List Byte) (dmaCut : Bool) (s : State) : State :=
  let costs := dmaCosts a.maker.isSome data.length
  if !tollNext s 33 data.length costs then
    updAlloc a.ring a.seq (fun x => { x with drop := some 2 }) (tollShort s 33 true)
  else
    let short := dmaCut && fbit s fTO_CTL_EN
    let s1 := tollStream 33 costs short (allocWrite a at_ data s)
    if short then updAlloc a.ring a.seq (fun x => { x with drop := some 2 }) s1 else s1

/-- The tile of a local ring is written, up to `cut` bytes when TILE_ENG ran out there (R149). -/
def tileToRing (m : TileMade) (bytes : List Byte) (cut : Option Nat) (dmaCut : Bool) (s : State) : State :=
  let seq := rdn s (TL_TR_SEQ + tro m.ring)
  let s1 := tileHeaderIn m.ring bytes.length m.id none 0 0 s
  match s1.tiles.allocs.find? (fun a => a.ring = m.ring && a.seq = seq && a.maker.isNone && a.id = m.id) with
  | none => s1
  | some a =>
    let n := match cut with | some k => min k bytes.length | none => bytes.length
    let s2 := tileWrite a 0 (bytes.take n) dmaCut s1
    if cut.isSome then updAlloc a.ring a.seq (fun x => { x with drop := some 2 }) s2 else s2

/-- The assembled bytes of a tile go to the local ring or over the Span (R149, R241); `cut` gives the bytes after which
TILE_ENG ran out. -/
def tileOut (m : TileMade) (bytes : List Byte) (cut : Option Nat) (dmaCut : Bool) (s : State) : State :=
  if fbit s fTL_CTL_DEST && !fbit s fSN_HOST_VALID then tileDrop m.id .span s
  else if tileLocal s then tileToRing m bytes cut dmaCut s
  else
    let segs := tileSegs (bytes.length + 1) bytes
    let k := match cut with | some b => min ((b + 2047) / 2048) (segs.length - 1) | none => segs.length
    let s1 := tileSend (fget s fSN_HOST_PIER) k segs s
    if cut.isSome then tileDrop m.id .toll s1
    else if !reachable s (fget s fSN_HOST_PIER) then tileDrop m.id .span s1
    else { s1 with tiles := { s1.tiles with made := s1.tiles.made.map (fun x =>
      if x.id = m.id then { x with sentTo := some (fget s fSN_HOST_PIER), sentAt := now s } else x) } }

/-- The crop of a produced tile (R142 to R149, R241, R346): STAGE and OVERSIZE drops, the pool, the evidence copy, then the
local ring or the Span. Toll limits it only while TO_CTL.EN = 1 (R370). -/
def tileCrop (id : Nat) (cut0 : Option Nat) (dmaCut : Bool) (check : ReadCheck) (at_ : Nat) (s0 : State) : State :=
  match s0.tiles.made.find? (fun m => m.id = id && m.sentTo.isNone &&
    !(s0.tiles.allocs.any (fun a => a.maker.isNone && a.id = id))) with
  | none => s0
  | some m =>
    let e := entryOf s0 id
    let mg := bits m.route 24 19
    let rect := cropRect s0 e mg
    let s := lp5Check check at_ s0
    let cut := if fbit s fTO_CTL_EN then cut0 else none
    if !cropReady s0 e mg then s0
    else if check == .failed || cropLost s e mg || lp5Poison s (featAddr s (idIndex id)) 128 then tileDrop id .stage s
    else match cropOf s e m.route with
      | none => tileDrop id .oversize s
      | some c =>
        let bytes := tileBytes s e m c
        let n := blocksOf bytes.length
        let row := 8 * (rect.2.1 + 1 - rect.1)
        if cut = some 0 || !tollNext s 32 row [(0, 1), (2, 1)] then tileDrop id .toll (tollShort s 32 true)
        else if !poolCan s 2 n then tileDrop id .toll (poolRefuse s 2)
        else
          let s1 := evCopy id bytes (poolGive (poolTake s 2 n) 2 n)
          let copy := s1.ev.copies.any (fun x => x.id = id && x.data.isSome)
          tileOut m bytes cut dmaCut (tollStream 32 (cropCosts rect bytes.length copy) cut.isSome s1)

/-! ## The ring's unit (R148 to R150, R241) -/

/-- The allocated tile of a message from another pier. -/
def allocOf (s : State) (src msg : Nat) : Option TileAlloc :=
  s.tiles.allocs.find? (fun a => a.maker = some src && a.msg = msg)

/-- A TILE packet of another pier arrives (R241): SEG 0 allocates, later ones are placed, a gap drops the tile. -/
def tilePacket (src msg seg : Nat) (data : List Byte) (dmaCut : Bool) (s : State) : State :=
  if seg = 0 then
    let len := tileLen (u16At data 12) (u16At data 14) (bits (byteAt data 9) 5 4) (bit (byteAt data 9) 6)
      (bit (byteAt data 9) 7)
    if data.length < 64 then s
    else
      let s1 := tileHeaderIn (byteAt data 19 % 64) len (u32At data 0) (some src) msg (blocksOf len) s
      match allocOf s1 src msg with
      | none => s1
      | some a => tileWrite a 0 data dmaCut s1
  else match allocOf s src msg with
    | none => s
    | some a =>
      if a.paused ∨ a.drop.isSome then s
      else if seg ≠ a.nextSeg then updAlloc a.ring a.seq (fun x => { x with drop := some 4 }) s
      else tileWrite a (seg * 2048) data dmaCut s

/-- The REASON with which an allocated tile will be described: none for DONE; not decided for an incomplete one. -/
def allocEnd (a : TileAlloc) : Option (Option Nat) :=
  if a.paused then some (some 3)
  else match a.drop with
    | some r => some (some r)
    | none => if a.len ≤ a.got then some none else none

/-- The descriptor of an allocated tile (R148). -/
def descBytes (s : State) (a : TileAlloc) (reason : Option Nat) : List Byte :=
  leBytes 8 (allocAddr s a) ++ leBytes 4 a.len ++ leBytes 4 a.id ++ leBytes 4 a.seq ++
    leBytes 1 (if reason.isSome then 2 else 1) ++ leBytes 1 (match reason with | some r => r | none => 0) ++ zeros 2 ++
    leBytes 4 a.arenaEnd ++ zeros 4

/-- Forget an allocated tile and return its pool blocks. -/
def allocFree (a : TileAlloc) (s : State) : State :=
  trBusy a.ring (poolGive { s with tiles := { s.tiles with allocs := s.tiles.allocs.filter (fun x =>
    !(x.ring = a.ring ∧ x.seq = a.seq)) } } 2 a.blocks)

/-- The descriptor of a tile is written and the maker learns its fate (R148 to R150). -/
def descWrite (r seq : Nat) (s : State) : State :=
  match s.tiles.allocs.find? (fun a => a.ring = r && a.seq = seq) with
  | none => s
  | some a => match (if canDma s then allocEnd a else none) with
    | none => s
    | some reason =>
      let base := fget s fTL_TR_DESC_LO_BASE (tro r) * 64 + rdn s (TL_TR_DESC_HI + tro r) * 2 ^ 32
      let s1 := dmaWrite s (base + seq % trSlots s r * 32) (descBytes s a reason)
      let ok := reason.isNone
      let s2 := cnt s1 ((if ok then TL_TR_CNT_DONE else TL_TR_CNT_DROP) + tro r)
      let s3 := if fbit s fTL_TR_CTL_INT (tro r) then
          irqAt (TL_TR_EVT + tro r) (fset s2 (if ok then fTL_TR_EVT_DONE else fTL_TR_EVT_DROPPED) 1 (tro r))
        else s2
      let s4 := acct (allocFree a s3) (fun x => if ok then { x with trDone := x.trDone + 1 }
        else { x with trDrop := x.trDrop + 1 })
      match a.maker, reason with
      | some p, none => sendTileDone p 1 0 r a.id seq s4
      | some p, some k => sendTileDone p 2 k r a.id seq s4
      | none, none => tileDeliver a.id s4
      | none, some k => tileDrop a.id (reasonDrop k) s4

/-- TILE_DONE reaches the maker (R150). -/
def tileDone (src : Nat) (p : List Byte) (s : State) : State :=
  let id := u32At p 4
  let st := byteAt p 1
  if byteAt p 0 ≠ 1 ∨ p.length < 16 ∨ ¬ s.tiles.made.any (fun m => m.id = id && m.sentTo == some src) then s
  else if st = 1 then tileDeliver id s
  else if st = 2 then tileDrop id (reasonDrop (byteAt p 2)) s
  else s

/-- TL_CTL.ACK_TMO in ns; values below 100 act as 100. -/
def ackTmo (s : State) : Nat := max 100 (fget s fTL_CTL_ACK_TMO) * 1000

/-- The maker has waited twice ACK_TMO for TILE_DONE (R150). -/
def tileAckTmo (id : Nat) (s : State) : State :=
  match s.tiles.made.find? (fun m => m.id = id && m.sentTo.isSome) with
  | none => s
  | some m => if reached s (add32 m.sentAt (2 * ackTmo s)) then tileDrop id .span s else s

/-- A tile has stayed incomplete for ACK_TMO since its header (R149). -/
def tileStale (r seq : Nat) (s : State) : State :=
  match s.tiles.allocs.find? (fun a => a.ring = r && a.seq = seq) with
  | none => s
  | some a =>
    if (allocEnd a).isNone ∧ reached s (add32 a.headerAt (ackTmo s)) then
      updAlloc r seq (fun x => { x with drop := some 4 }) s
    else s

/-- A write of TL_TR_CONS (R151). -/
def consWrite (r v : Nat) (s : State) : State :=
  let old := rdn s (TL_TR_CONS + tro r)
  if sub32 v old ≤ sub32 (rdn s (TL_TR_SEQ + tro r)) old then
    let s1 := wrn s (TL_TR_CONS + tro r) v
    { s1 with tiles := { s1.tiles with
        arenaCons := smPut s1.tiles.arenaCons r 0 (rdn s (TL_TR_ARENA_CONS + tro r)) } }
  else irqAt (TL_TR_EVT + tro r) (fset s fTL_TR_EVT_CONS_ERR 1 (tro r))

/-! ## Verdict rings (R152) -/

/-- Distance of verdict ring `v`'s registers. -/
def vro (v : Nat) : Nat := v * 0x20

/-- Entries of verdict ring `v`. -/
def vrSize (s : State) (v : Nat) : Nat := ringSize (fget s fTL_VR_CTL_SIZE (vro v))

/-- A write of TL_VR_TAIL. -/
def vrDoorbell (v t : Nat) (s : State) : State :=
  if vrSize s v ≤ t then evt s fTL_EVT_DB_ERR else fset s fTL_VR_TAIL_V t (vro v)

/-- Ring `v` has entries to fetch and no fetch outstanding (log 24). -/
def vrWaits (s : State) (v : Nat) : Bool :=
  fbit s fTL_VR_CTL_EN (vro v) && fget s fTL_VR_HEAD_V (vro v) != fget s fTL_VR_TAIL_V (vro v) &&
    !(s.tiles.fetches.any (fun f => f.ring = v))

/-- The ring to serve next, round-robin. -/
def vrNext (s : State) : Option Nat :=
  ((List.range 16).map (fun k => (s.tiles.lastRing + 1 + k) % 16)).find? (vrWaits s)

/-- Entries of the next fetch of ring `v`: up to 8, up to TAIL and to the ring's end. -/
def vrCount (s : State) (v : Nat) : Nat :=
  let h := fget s fTL_VR_HEAD_V (vro v)
  let t := fget s fTL_VR_TAIL_V (vro v)
  min 8 (if h < t then t - h else vrSize s v - h)

/-- The base of verdict ring `v`. -/
def vrBase (s : State) (v : Nat) : Nat :=
  fget s fTL_VR_BASE_LO_BASE (vro v) * 64 + rdn s (TL_VR_BASE_HI + vro v) * 2 ^ 32

/-- The device issues the next verdict fetch (R152, R254, R365). -/
def vrFetch (s : State) : State :=
  match (if canDma s then vrNext s else none) with
  | none => s
  | some v =>
    let n := vrCount s v
    let cost := [(1, lp5Units (16 * n)), (2, 1)]
    if !tollCan s 36 cost then tollShort s 36 false
    else match freeTag s with
      | none => s
      | some tag =>
        let h := fget s fTL_VR_HEAD_V (vro v)
        let s1 := npIssue .verdict tag (vrBase s v + 16 * h) (16 * n) (tollSpend s 36 cost)
        { s1 with tiles := { s1.tiles with
            fetches := s1.tiles.fetches ++ [⟨v, h, n, tag⟩], lastRing := v } }

/-- Write back the HEADs that wait, as far as client 36 covers them. -/
def hwbRun (l : List (Nat × Nat)) (s : State) : State :=
  match l with
  | [] => { s with tiles := { s.tiles with hwb := [] } }
  | (v, h) :: rest =>
    if !canDma s then { s with tiles := { s.tiles with hwb := l } }
    else if !tollCan s 36 [(1, 1), (2, 1)] then tollShort { s with tiles := { s.tiles with hwb := l } } 36 false
    else hwbRun rest (dmaWrite (tollSpend s 36 [(1, 1), (2, 1)])
      (fget s fTL_VR_HWB_LO_ADDR (vro v) * 64 + rdn s (TL_VR_HWB_HI + vro v) * 2 ^ 32) (leBytes 4 h))

/-- Take one entry of ring `v` into processing: HEAD moves, and is written back when HWB.EN = 1 (R152). -/
def vrTake (v : Nat) (e : List Byte) (s : State) : State :=
  let h := (fget s fTL_VR_HEAD_V (vro v) + 1) % vrSize s v
  let s1 := cnt (fset s fTL_VR_HEAD_V h (vro v)) (TL_VR_CNT_TAKEN + vro v)
  let s2 := acct s1 (fun a => { a with vrTaken := a.vrTaken + 1 })
  let s3 := if fbit s2 fTL_VR_HWB_LO_EN (vro v) then hwbRun (s2.tiles.hwb ++ [(v, h)]) s2 else s2
  verdictTaken s3 e

/-- Forget the fetch of a tag; its ring fetches again from HEAD. -/
def fetchDrop (tag : Nat) (s : State) : State :=
  { s with tiles := { s.tiles with fetches := s.tiles.fetches.filter (fun f => f.tag != tag) } }

/-- The data of a verdict fetch arrives (R152, R261): accepted and taken, or discarded. -/
def vrArrive (v : Nat) (data : List Byte) (s : State) : State :=
  match s.tiles.fetches.find? (fun f => f.ring = v) with
  | none => s
  | some f =>
    let void := match npOf s f.tag with | some r => r.void | none => true
    let s1 := npEnd f.tag (fetchDrop f.tag s)
    if void || !canDma s then cnt s1 HE_CNT_CPL_DISCARD
    else
      let s2 := acct s1 (fun a => { a with vrArrived := a.vrArrived + f.count })
      forEach (List.range f.count) (fun k t => vrTake v (fit 16 (data.drop (16 * k))) t) s2

/-- A verdict arrives over ACT for an object of this pier (R13, R154 steps 3 and 4). -/
def actVerdict (p : List Byte) (s : State) : State :=
  if byteAt p 0 ≠ 1 ∨ p.length < 20 then s else verdictAtMember s ((p.drop 4).take 16)

/-! ## The commands -/

/-- TILE_CROP_START (R142): `cut` gives where the budgets of TILE_ENG and TILE_DMA run out; `read` says how the engine's reads of
staged lines and the feature record end (R357). -/
def execTileCropStart (id : Nat) (cut : TileCut) (read : Lp5Read) (s : State) : Host.Outcome State Fault Refusal :=
  .next (tileCrop id cut.eng cut.dma read.check read.addr s)

/-- TILE_PACKET_RECEIVE (R241). -/
def execTilePacketReceive (src msg seg : Nat) (payload : List Byte) (dmaCut : Bool) (s : State) :
    Host.Outcome State Fault Refusal := .next (tilePacket src msg seg payload dmaCut s)

/-- TILE_DESCRIPTOR_WRITE (R148). -/
def execTileDescriptorWrite (ring : Fin 64) (seq : Nat) (s : State) : Host.Outcome State Fault Refusal :=
  .next (descWrite ring.val seq s)

/-- TILE_DONE_RECEIVE (R150). -/
def execTileDoneReceive (src : Nat) (payload : List Byte) (s : State) : Host.Outcome State Fault Refusal :=
  .next (tileDone src payload s)

/-- TILE_ACK_TIMEOUT (R150). -/
def execTileAckTimeout (id : Nat) (s : State) : Host.Outcome State Fault Refusal := .next (tileAckTmo id s)

/-- TILE_INCOMPLETE_TIMEOUT (R149). -/
def execTileIncompleteTimeout (ring : Fin 64) (seq : Nat) (s : State) : Host.Outcome State Fault Refusal :=
  .next (tileStale ring.val seq s)

/-- TILE_RING_CONS_WRITE (R151). -/
def execTileRingConsWrite (ring : Fin 64) (value : Word) (s : State) : Host.Outcome State Fault Refusal :=
  .next (consWrite ring.val value.toNat s)

/-- VERDICT_DOORBELL (R152). -/
def execVerdictDoorbell (ring : Fin 16) (tail : BitVec 12) (s : State) : Host.Outcome State Fault Refusal :=
  .next (vrDoorbell ring.val tail.toNat s)

/-- VERDICT_FETCH (R152). -/
def execVerdictFetch (s : State) : Host.Outcome State Fault Refusal := .next (vrFetch s)

/-- VERDICT_FETCH_COMPLETE (R152). -/
def execVerdictFetchComplete (ring : Fin 16) (data : List Byte) (s : State) : Host.Outcome State Fault Refusal :=
  .next (vrArrive ring.val data s)

/-- ACT_VERDICT_RECEIVE (R13). -/
def execActVerdictReceive (_src : Nat) (payload : List Byte) (s : State) : Host.Outcome State Fault Refusal :=
  .next (actVerdict payload s)

end Sys2Proof.Machine
end

