-- ==== Sys2Proof/Machine/SpanNet.lean ====
section
/-! DEFINITION. The Span network (chapter 13): what a unit does with each packet that arrives, its transmitters, HELLO and
credits, enumeration, the Keystone's books, and the network commands. -/

namespace Sys2Proof.Machine

/-! ## Packets (R229 to R231) -/


/-- The fields of a header and the payload of LEN bytes after it. -/
def parsePkt (raw : List Byte) : SpanPkt :=
  { cls := byteAt raw 0 % 8, flags := byteAt raw 1, dst := u16At raw 2 % 1024, src := u16At raw 4 % 1024,
    msg := u16At raw 8, seg := u16At raw 10, ttl := u16At raw 12 % 1024, payload := (raw.drop 16).take (u16At raw 6) }


/-- Drop a received packet: one of R231's counters. -/
def dropRx (p a : Nat) (s : State) : State := evt (cnt s (a + sno p)) fSN_EVT_DROP

/-- Credits of class `c` that the partner has taken and this end has not freed. -/
def rxOutstanding (s : State) (p c : Nat) : Nat :=
  (nth (netPort s p).rcvd c + 65536 - nth (netPort s p).ownFreed c % 65536) % 65536

/-- A record passes through a queue instance: written and read. -/
def quPass (q : Nat) (rec : List Byte) (poison : Bool) (s : State) : State :=
  let s1 := quWrite s q rec
  forEach (List.range (fget s1 fQU_LEVEL_HELD (quo q))) (fun i t => quLeave t q (poison && i == 0)) s1

/-- A packet that finds no room (R236, R389). -/
def quRefused (q n : Nat) (s : State) : State :=
  let w := (n + 15) / 16
  quEvt (cntWrap (cntWrap s (QU_CNT_WR + quo q) w) (QU_CNT_DROP + quo q) w) fQU_EVT_DROP q

/-! ## HELLO (R225, R226, R235, R240) -/

/-- The partner's fields in a HELLO. -/
def parseHello (pl : List Byte) : Hello :=
  ⟨byteAt pl 1, u16At pl 2, u16At pl 4, u16At pl 6, byteAt pl 8, u32At pl 24⟩

/-- A HELLO arrives on port `p`. -/
def helloReceive (p : Nat) (pl : List Byte) (s : State) : State :=
  if !linkUp s p ∨ byteAt pl 0 ≠ 1 ∨ pl.length < 32 then s
  else
    let h := parseHello pl
    let first := !(netPort s p).helloRx
    let s1 := setNetPort s p (fun n => { n with
      partner := some h, helloRx := true
      grant := if first then (List.range 6).map (fun c => u16At pl (12 + 2 * c)) else n.grant })
    let s2 := fset (fset (fset s1 fSN_PARTNER_PIER_VALID (h.flags % 2) (sno p)) fSN_PARTNER_PIER (h.pier % 1024) (sno p))
      fSN_PARTNER_FLOOR h.floor (sno p)
    let s3 := upstreamUpdate (syncAvail p s2)
    let s4 := if !isKeystone s3 ∧ upstreamPort s3 = some p ∧ h.floor ≠ 0 then fset s3 fSN_CHAIN_FLOOR h.floor else s3
    if dualKeystone s4 p then paDetect 0xB1 (evt s4 fSN_EVT_DUAL_KEYSTONE)
    else
      let s5 := if isKeystone s4 ∧ bit h.flags 0 then
          publish (updHold s4 h.pier (fun x => { x with hostLink := bit h.flags 2 }))
        else s4
      let s6 := helloOnChange s (hostKeep s5)
      let s7 := if !isKeystone s6 && reports s6 && !reports s then sendReport s6 else s6
      forEach [0, 1] pierReq s7

/-! ## Credits (R236) -/

/-- A CREDIT arrives on port `p`. -/
def creditReceive (p : Nat) (pl : List Byte) (s : State) : State :=
  if !linkUp s p ∨ byteAt pl 0 ≠ 2 ∨ pl.length < 16 then s
  else syncAvail p (setNetPort s p (fun n => { n with freed := (List.range 6).map (fun c => u16At pl (4 + 2 * c)) }))

/-- The freed counts go back when any is unreported. -/
def creditReturn (p : Nat) (s : State) : State :=
  let n := netPort s p
  if !linkUp s p ∨ n.ownFreed = n.reported then s
  else
    let s1 := setNetPort s p (fun x => { x with reported := x.ownFreed })
    netLocal s1 p clsMGMT flCTRL ([2#8, 0#8, 0#8, 0#8] ++ n.ownFreed.flatMap (leBytes 2))

/-! ## Enumeration (R224, R225, R228) -/

/-- The largest pier that this unit knows of on the far side of port `p`, and those named before `named`. -/
def largestKnown (s : State) (p named : Nat) : Nat :=
  let b := pierBeyond s p
  max (max (myPier s) (named - 1)) (if b = 0xFFFF then 0 else b)

/-- ENUM_END to pier 0. -/
def sendEnumEnd (east : Bool) (last : Nat) (s : State) : State :=
  netSend s clsMGMT flCTRL 0 [[4#8, if east then 0#8 else 1#8] ++ leBytes 2 last ++ zeros 4]

/-- Port `p` is up with a partner that has said that it is unnumbered. -/
def unnumberedPartner (s : State) (p : Nat) : Bool :=
  linkUp s p && (match (netPort s p).partner with | some h => !bit h.flags 0 | none => false)

/-- This unit holds pier `n` from now on. -/
def takePier (n : Nat) (s : State) : State :=
  fset (fbset (evt s fSN_EVT_PIER) fSN_PIER_VALID true) fSN_PIER_PIER_ID n

/-- Step 2 of R224: pass the enumeration on, or end it. -/
def enumPass (q : Nat) (east : Bool) (named : Nat) (s : State) : State :=
  let next := max named (myPier s + 1)
  if !unnumberedPartner s q then sendEnumEnd east (largestKnown s q named) s
  else if 1024 ≤ next then sendEnumEnd east (largestKnown s q named) (evt s fSN_EVT_NUM_EXHAUST)
  else sendEnum q east next s

/-- ENUM arrives on port `p`. -/
def enumReceive (p : Nat) (pl : List Byte) (s : State) : State :=
  let east := byteAt pl 1 == 0
  let n := u16At pl 2
  if !linkUp s p ∨ byteAt pl 0 ≠ 3 ∨ pl.length < 16 ∨ u32At pl 4 ≠ s.net.serial ∨ isKeystone s ∨ 1024 ≤ n then s
  else
    let s1 := if pierValid s then s else takePier n s
    let s2 := setUpstream (p + 1) (upstreamUpdate s1)
    let s3 := fbset s2 fSN_PIER_FLIP (if east then p == 0 else p == 1)
    let s4 := helloOnChange s (setRoute (setRoute s3 0 (p + 1)) (myPier s3) 3)
    enumPass (1 - p) east n (sendReport s4)

/-- ENUM_END reaches the Keystone. -/
def enumEndReceive (pl : List Byte) (s : State) : State :=
  if byteAt pl 0 ≠ 4 ∨ pl.length < 8 ∨ ¬ isKeystone s then s
  else if s.net.stage = .east ∧ byteAt pl 1 = 0 then
    enumWest { s with net := { s.net with lastEast := u16At pl 2 } }
  else if s.net.stage = .west ∧ byteAt pl 1 = 1 then
    enumFinish { s with net := { s.net with lastWest := u16At pl 2 } }
  else s

/-- The largest pier that a side has reported. -/
def sideLargest (s : State) (east : Bool) : Nat :=
  ((s.net.holds.filter (fun h => h.east == east)).map (·.pier)).foldl max 0

/-- A step has waited longer than ENUM_TMO. -/
def enumTimeout (s : State) : State :=
  match s.net.stage with
  | .idle => s
  | .east => enumWest { s with net := { s.net with lastEast := sideLargest s true } }
  | .west => enumFinish { s with net := { s.net with lastWest := max s.net.lastEast (sideLargest s false) } }


/-- What a REPORT says of its unit, kept in its hold. -/
def reported (east : Bool) (pl : List Byte) (h : PierHold) : PierHold :=
  { h with serial := u32At pl 4, present := true, east := east, eastVer := byteAt pl 8, westVer := byteAt pl 9,
           idle := byteAt pl 10 % 4 }

/-- A REPORT of a unit that holds no number, which leaves PIER 0: it is transparent, and stands on the map at the place of its
hops (R227; DEDUCED, log 65). -/
def transparentReport (p hops : Nat) (pl : List Byte) (s : State) : State :=
  let serial := u32At pl 4
  let f := reported (p == 0) pl
  let mine := fun (h : PierHold) => h.transparent && h.serial == serial
  if s.net.holds.any mine then
    publish { s with net := { s.net with holds := s.net.holds.map (fun h => if mine h then f h else h) } }
  else publish (holdInsert s (hops - 1) (f ⟨0, serial, true, p == 0, false, 0, 0, 0, true⟩))

/-- A unit that reports a number is not transparent any more. -/
def dropTransparent (serial : Nat) (s : State) : State :=
  { s with net := { s.net with holds := s.net.holds.filter (fun h => !(h.transparent && h.serial == serial)) } }

/-- A REPORT reaches the Keystone through its port `p` from a unit `hops` links away (R226). -/
def reportReceive (p hops : Nat) (pl : List Byte) (s : State) : State :=
  let pier := u16At pl 2 % 1024
  let east := p == 0
  if byteAt pl 0 ≠ 5 ∨ pl.length < 16 ∨ ¬ isKeystone s then s
  else if pier = 0 then transparentReport p hops pl s
  else match holdOf s pier with
    | none =>
      let s1 := holdInsert (dropTransparent (u32At pl 4) s) (hops - 1)
        (reported east pl ⟨pier, 0, true, east, false, 0, 0, 0, false⟩)
      publish (fset s1 fSN_NEXT_FREE (max (fget s1 fSN_NEXT_FREE) (pier + 1)))
    | some (i, h) =>
      if h.serial = u32At pl 4 then publish (updHold s pier (reported east pl))
      else
        let s1 := paDetect 0xB0 (evt s fSN_EVT_CONFLICT)
        let heldNear := h.present && reachable s pier && decide (i + 1 ≤ hops)
        if heldNear then sendAssign pier (u32At pl 4) none s1
        else publish (updHold (sendAssign pier h.serial none s1) pier (reported east pl))

/-- PIER_REQ reaches the Keystone (R225). -/
def pierReqReceive (p : Nat) (pl : List Byte) (s : State) : State :=
  let to_ := u16At pl 2 % 1024
  if byteAt pl 0 ≠ 7 ∨ pl.length < 16 ∨ ¬ isKeystone s then s
  else if s.net.stage = .idle then answerReq to_ (u32At pl 4) (p == 0) s
  else { s with net := { s.net with pierReqs := s.net.pierReqs ++ [(to_, u32At pl 4, p == 0)] } }

/-- ASSIGN reaches a unit: a number for its new partner, or the order to be unnumbered (R225, R226). -/
def assignReceive (pl : List Byte) (s : State) : State :=
  let serial := u32At pl 4
  let n := u16At pl 2
  if byteAt pl 0 ≠ 8 ∨ pl.length < 16 ∨ isKeystone s then s
  else if 1024 ≤ n then
    if serial = s.net.serial ∧ pierValid s then
      helloOnChange s (upstreamUpdate (fset (fbset (evt s fSN_EVT_PIER) fSN_PIER_VALID false) fSN_PIER_PIER_ID 0))
    else s
  else match ([0, 1].find? (fun p => unnumberedPartner s p &&
      (match (netPort s p).partner with | some h => h.serial == serial | none => false))) with
    | none => s
    | some p => netLocal s p clsMGMT flCTRL (enumBytes (eastPort s == p) n serial)

/-- RENUM (R228): every unit but pier 0 clears its pier and what it holds. -/
def renumReceive (pl : List Byte) (s : State) : State :=
  if byteAt pl 0 ≠ 9 ∨ isKeystone s then s
  else
    let s1 := if pierValid s then evt s fSN_EVT_PIER else s
    let s2 := fset (fbset s1 fSN_PIER_VALID false) fSN_PIER_PIER_ID 0
    let s3 := { s2 with net := { s2.net with holds := [], chain := [] } }
    helloOnChange s (buildRoutes (upstreamUpdate s3))

/-- The entries of a CHAIN payload. -/
def parseChain (pl : List Byte) : List ChainUnit :=
  (List.range (u16At pl 2)).map (fun i =>
    let w := u16At pl (8 + 2 * i)
    ⟨w % 1024, bit w 10, bit w 11, bit w 12⟩)

/-- A whole CHAIN message reaches a unit (R222). -/
def chainReceive (pl : List Byte) (s : State) : State :=
  if byteAt pl 0 ≠ 6 ∨ pl.length < 8 + 2 * u16At pl 2 ∨ isKeystone s then s
  else takeChain (parseChain pl) (byteAt pl 4) (u16At pl 6) (keepChain pl s)

/-- A packet of a CHAIN message: its pieces are put together. -/
def chainSeg (seg : Nat) (last : Bool) (pl : List Byte) (s : State) : State :=
  let all := if seg = 0 then pl else s.net.chainRx ++ pl
  if last then chainReceive all { s with net := { s.net with chainRx := [] } }
  else { s with net := { s.net with chainRx := all } }

/-! ## BULK (R229, R360) -/

/-- What taking `n` bytes of a BULK packet costs. -/
def bulkCosts (n : Nat) : List (Nat × Nat) := [(0, lp5Units n), (2, trestleUnits n)]

/-- The channel whose forwarded command waits longest for data that go to its host, with the command and the address of the next
byte (R277). DESIGN CHOICE (log 106): BULK data belong to that command, since no rule says how they name it. -/
def bulkOwner (s : State) : Option (Nat × RemoteCmd × Nat) :=
  ((List.range 4).flatMap (fun c => (chan s c).remote.filterMap (fun r => r.host.map (fun a => (c, r, a))))).head?

/-- The bytes of a BULK packet go to the host memory that the command of `bulkOwner` names. -/
def bulkHost (pl : List Byte) (s : State) : State :=
  match bulkOwner s with
  | none => s
  | some (c, r, a) =>
    let s1 := updChan s c (fun h => { h with remote := h.remote.map (fun x => if x == r then { r with host := some (a + pl.length) } else x) })
    dmaWrite (tollBegin s1 43 (hostCosts s1 pl.length)) a pl

/-- The bulk pool takes a BULK packet: a block and the budgets of SPAN_E or SPAN_W. The block is returned as the transfer's
owner takes the bytes. -/
def bulkTake (p : Nat) (pl : List Byte) (s : State) : State :=
  let n := blocksOf pl.length
  let s1 := bulkHost pl (poolGive (poolTake (tollSpend s (40 + p) (bulkCosts pl.length)) 4 n) 4 n)
  freeCredits p clsBULK (min (credits pl.length) (rxOutstanding s p clsBULK)) s1

/-- A BULK packet can be taken now. -/
def bulkCan (s : State) (p : Nat) (pl : List Byte) : Bool :=
  tollCan s (40 + p) (bulkCosts pl.length) && poolCan s 4 (blocksOf pl.length) && ((bulkOwner s).isNone || canDma s)

/-- What is short for a BULK packet is recorded. -/
def bulkShort (p : Nat) (pl : List Byte) (s : State) : State :=
  if !tollCan s (40 + p) (bulkCosts pl.length) then tollShort s (40 + p) false
  else if !poolCan s 4 (blocksOf pl.length) then poolRefuse s 4
  else s

/-- A BULK packet is taken into the bulk pool, or waits in the receive buffer, in order, while a budget or a block is short. -/
def bulkReceive (p : Nat) (pl : List Byte) (s : State) : State :=
  let wait := fun (t : State) => setNetPort t p (fun n => { n with bulkWait := n.bulkWait ++ [pl] })
  if (netPort s p).bulkWait ≠ [] then wait s
  else if bulkCan s p pl then bulkTake p pl s
  else wait (bulkShort p pl s)

/-- The BULK packets of port `p` that wait are tried again, in order. -/
def bulkRun (p : Nat) (s : State) : State :=
  forEach (netPort s p).bulkWait (fun _ t => match (netPort t p).bulkWait with
    | pl :: l => if bulkCan t p pl then bulkTake p pl (setNetPort t p (fun n => { n with bulkWait := l })) else t
    | [] => t) s

/-! ## Delivery and forwarding (R231, R232) -/

/-- A MGMT payload is taken; a DENNIL message other than a notice waits for Dennil (DENNIL_MESSAGE_RECEIVE). -/
def mgmtDeliver (p hops : Nat) (k : SpanPkt) (s : State) : State :=
  let pl := k.payload
  match byteAt pl 0 with
  | 1 => helloReceive p pl s
  | 2 => creditReceive p pl s
  | 3 => enumReceive p pl s
  | 4 => enumEndReceive pl s
  | 5 => reportReceive p hops pl s
  | 6 => chainSeg k.seg (bit k.flags 3) pl s
  | 7 => pierReqReceive p pl s
  | 8 => assignReceive pl s
  | 9 => renumReceive pl s
  | 0x10 => paNoticeRx pl s
  | _ => s

/-- A packet is delivered to its local consumer; Causeway service runs no machine work, so TILE, MATE and ACT packets have
no consumer then. -/
def packetDeliver (p : Nat) (k : SpanPkt) (phase gap : Nat) (dmaCut : Bool) (s : State) : State :=
  let pl := k.payload
  if k.cls = clsMGMT then
    if k.seg ≠ 0 ∧ k.flags / 4 % 2 = 1 ∧ s.net.chainRx ≠ [] then chainSeg k.seg (bit k.flags 3) pl s
    else mgmtDeliver p (fget s fSN_CTL_TTL - k.ttl + 1) k s
  else if k.cls = clsTIME then
    match byteAt pl 0 with
    | 1 => syncReceive p pl phase gap s
    | 2 => dreqReceive p pl phase s
    | _ => drespReceive p pl s
  else if k.cls = clsBULK then bulkReceive p pl s
  else if causeway s then dropRx p SN_CNT_NOROUTE s
  else if k.cls = clsTILE then
    if bit k.flags 2 then tileDone k.src pl s else tilePacket k.src k.msg k.seg pl dmaCut s
  else if k.cls = clsMATE then
    match byteAt pl 0 with
    | 1 => candReceive k.src pl s
    | 2 => setReceive k.src pl s
    | 3 => outcomeReceive pl s
    | 4 => mateVerdict pl s
    | _ => withdrawReceive pl s
  else
    match byteAt pl 0 with
    | 1 => actVerdict pl s
    | 2 => orderReceive k.src pl s
    | 3 => resultReceive k.src pl s
    | _ => cancelReceive k.src pl s

/-- A packet is for this unit: LOCAL, BCAST or its pier. -/
def addressedHere (s : State) (k : SpanPkt) : Bool :=
  bit k.flags 1 || bit k.flags 0 || (pierValid s && k.dst == myPier s)

/-- The port that a packet from port `p` is forwarded on: none for one that ends here, and `some none` without a route. -/
def egress (s : State) (p : Nat) (k : SpanPkt) : Option (Option Nat) :=
  let other := if portLive s (1 - p) then some (1 - p) else none
  if bit k.flags 1 ∨ k.cls = clsTIME then none
  else if bit k.flags 0 then (if k.ttl = 0 then none else other.map some)
  else if pierValid s ∧ k.dst = myPier s then none
  else if k.ttl = 0 then some none
  else if fbit s fSN_PIER_TRANSPARENT then some other
  else match routeTo s k.dst with
    | 1 => some (some 0)
    | 2 => some (some 1)
    | _ => some none

/-- A forwarded packet as it waits on its way; `eab` says that its CRC-32 failed. -/
def fwdItem (p : Nat) (k : SpanPkt) (eab : Bool) : TxItem := ⟨{ k with ttl := k.ttl - 1 }, some (Fin.ofNat 2 p), eab, false⟩

/-- Packet `t` from port `p` goes on cut-through (R233): the egress port `q`, where it has been queued, runs at the rate and lane
count of the ingress or faster, and holds credit for it, and this packet is its next. -/
def cutThrough (s : State) (p q : Nat) (t : TxItem) : Bool :=
  decide (fget s fSL_STAT_RATE (slo p) ≤ fget s fSL_STAT_RATE (slo q)) &&
    decide (fget s fSL_STAT_COUNT (slo p) ≤ fget s fSL_STAT_COUNT (slo q)) && nextTx s q == some (t, true)

/-- Queue a packet on its egress port; one that goes cut-through leaves at once. -/
def forward (p q : Nat) (k : SpanPkt) (s : State) : State :=
  let t := fwdItem p k false
  let s1 := cnt (enqueue s q t) (SN_CNT_FWD + sno p)
  if cutThrough s1 p q t then sendItem q (t, true) 0 s1 else s1

/-- Deliver and forward a packet whose checks have passed; its credits are freed now unless a copy goes on. -/
def carry (p : Nat) (k : SpanPkt) (phase gap : Nat) (dmaCut : Bool) (s : State) : State :=
  let n := if creditExempt k then 0 else credits k.payload.length
  let out := egress s p k
  let s1 := if addressedHere s k then packetDeliver p k phase gap dmaCut s else s
  match out with
  | some (some q) => forward p q k s1
  | some none => freeCredits p k.cls n (dropRx p SN_CNT_NOROUTE s1)
  | none => if k.cls = clsBULK then s1 else freeCredits p k.cls n s1

/-- A packet that is neither delivered nor forwarded (R226, R231, R232). -/
def notCarried (s : State) (p : Nat) (k : SpanPkt) : Bool :=
  decide (6 ≤ k.cls) || (!fbit s fSN_CTL_EN && !alwaysCarried k) || (dualKeystone s p && !creditExempt k)

/-- A packet whose CRC-32 fails: where its first symbols have already left cut-through, it ends there with EAB and its credits
are freed as it leaves; else it is dropped here (R231, R233). -/
def crcDrop (p n : Nat) (k : SpanPkt) (s : State) : State :=
  let s1 := dropRx p SN_CNT_CRC s
  let free := freeCredits p k.cls n s1
  match egress s p k with
  | some (some q) =>
    let t := fwdItem p k true
    let s2 := enqueue s1 q t
    if !notCarried s p k && cutThrough s2 p q t then sendItem q (t, true) 0 s2 else free
  | _ => free

/-- A packet with a good header: credits, the receive buffer, and the drops of R231 and R232. -/
def receive (p : Nat) (k : SpanPkt) (len got crc : Nat) (bad poison : Bool) (phase gap : Nat) (dmaCut : Bool)
    (good : Nat) (s : State) : State :=
  let n := if creditExempt k then 0 else credits (if 2048 < len then got - 20 else len)
  let c := k.cls
  let np := netPort s p
  let room := (nth np.offered c + nth np.ownFreed c + 65536 - nth np.rcvd c % 65536) % 65536
  let s1 := if n = 0 then s else setNetPort s p (fun x => { x with rcvd := upd x.rcvd c (fun v => (v + n) % 65536) })
  let free := freeCredits p c n
  if 2048 < len then free (dropRx p SN_CNT_LEN s1)
  else if 0 < n ∧ c < 6 ∧ room < n then
    let s2 := evt (evtCnt s1 fSN_EVT_CRED_ERR (SN_CNT_CRED_ERR + sno p)) fSN_EVT_DROP
    free (quRefused (spanQueue p c) got (paDetect (0xA1 + 8 * p) s2))
  else
    let s2 := if 0 < n ∧ c < 6 then quPass (spanQueue p c) (zeros got) poison s1 else s1
    if got ≠ 20 + len then free (dropRx p SN_CNT_LEN s2)
    else if bad ∨ poison ∨ crc ≠ good then crcDrop p n k s2
    else if notCarried s p k then free (dropRx p SN_CNT_NOROUTE s2)
    else carry p k phase gap dmaCut s2

/-- A packet whose HCRC fails: the credits that its size takes in the class its first byte names are counted as received and
freed, since LEN cannot be trusted (R231; DEDUCED, log 67). -/
def hcrcDrop (p cls got : Nat) (s : State) : State :=
  let n := credits (got - 20)
  let s1 := setNetPort s p (fun x => { x with rcvd := upd x.rcvd cls (fun v => (v + n) % 65536) })
  freeCredits p cls n (dropRx p SN_CNT_HCRC s1)

/-- The bytes between SOP and EOP arrive on port `p`; `bad` says that EAB or a code violation ended them. -/
def packetIn (p : Nat) (raw : List Byte) (bad poison : Bool) (phase gap : Nat) (dmaCut : Bool) (s : State) : State :=
  if !linkUp s p then s
  else
    let s1 := cnt s (SN_CNT_RX + sno p)
    if raw.length < 16 ∨ crc16 (raw.take 14) ≠ u16At raw 14 then hcrcDrop p (byteAt raw 0 % 8) raw.length s1
    else receive p (parsePkt raw) (u16At raw 6) raw.length (crc32 (raw.take (raw.length - 4))) bad poison phase gap dmaCut
      (u32At raw (raw.length - 4)) s1

/-! ## Transmission (R234 to R236) -/

/-- The next packet of port `p` leaves; the place of a time marker within its tick is not told here and is free. -/
def packetOut (p : Nat) (s : State) : State :=
  match nextTx s p with
  | none => s
  | some x => if x.1.timed then sendItem p x (freeVal s % 32) (useFree s) else sendItem p x 0 s

/-! ## The rows -/

/-- SPAN_PACKET_FORWARD: the bytes of a packet; `phase` and `gap` place the markers of a TIME packet, `dmaCut` says that
TILE_DMA ran out of budget during a TILE packet. -/
def execSpanPacketForward (port : SpanNo) (raw : List Byte) (bad poison : Bool) (phase : Fin 32) (gap : Nat)
    (dmaCut : Bool) (s : State) : Host.Outcome State Fault Refusal :=
  .next (packetIn port.val raw bad poison phase.val gap dmaCut s)

/-- SPAN_PACKET_SEND. -/
def execSpanPacketSend (port : SpanNo) (s : State) : Host.Outcome State Fault Refusal := .next (packetOut port.val s)

/-- HELLO_RECEIVE. -/
def execHelloReceive (port : SpanNo) (payload : List Byte) (s : State) : Host.Outcome State Fault Refusal :=
  .next (helloReceive port.val payload s)

/-- CREDIT_RECEIVE. -/
def execCreditReceive (port : SpanNo) (payload : List Byte) (s : State) : Host.Outcome State Fault Refusal :=
  .next (creditReceive port.val payload s)

/-- CREDIT_RETURN. -/
def execCreditReturn (port : SpanNo) (s : State) : Host.Outcome State Fault Refusal := .next (creditReturn port.val s)

/-- ENUM_RECEIVE. -/
def execEnumReceive (port : SpanNo) (payload : List Byte) (s : State) : Host.Outcome State Fault Refusal :=
  .next (enumReceive port.val payload s)

/-- ENUM_END_RECEIVE. -/
def execEnumEndReceive (payload : List Byte) (s : State) : Host.Outcome State Fault Refusal :=
  .next (enumEndReceive payload s)

/-- ENUM_TIMEOUT. -/
def execEnumTimeout (s : State) : Host.Outcome State Fault Refusal := .next (enumTimeout s)

/-- REPORT_RECEIVE: the Keystone's port it arrives on and the links it has crossed. -/
def execReportReceive (port : SpanNo) (hops : Nat) (payload : List Byte) (s : State) : Host.Outcome State Fault Refusal :=
  .next (reportReceive port.val hops payload s)

/-- CHAIN_RECEIVE: a whole message. -/
def execChainReceive (payload : List Byte) (s : State) : Host.Outcome State Fault Refusal :=
  .next (chainReceive payload s)

/-- PIER_REQ_RECEIVE. -/
def execPierReqReceive (port : SpanNo) (payload : List Byte) (s : State) : Host.Outcome State Fault Refusal :=
  .next (pierReqReceive port.val payload s)

/-- ASSIGN_RECEIVE. -/
def execAssignReceive (payload : List Byte) (s : State) : Host.Outcome State Fault Refusal :=
  .next (assignReceive payload s)

/-- RENUM_RECEIVE. -/
def execRenumReceive (payload : List Byte) (s : State) : Host.Outcome State Fault Refusal :=
  .next (renumReceive payload s)

/-- BULK_PACKET_RECEIVE. -/
def execBulkPacketReceive (port : SpanNo) (payload : List Byte) (s : State) : Host.Outcome State Fault Refusal :=
  .next (bulkReceive port.val payload s)

/-! ## Commands (R243) -/

/-- SPAN_CHAIN_READ: the last CHAIN payload, of no bytes before the first. -/
def runSpanChainRead (c : CmdCall) (s : State) : State × CmdRes :=
  let d := s.net.lastChain
  if pd c 8 < d.length then (s, .refuse eLENGTH 0)
  else if !hostReady c s then (s, .waits)
  else (hostWrite c (pq c 0) d s, .ok [])

/-- SPAN_CHAIN_READ. -/
def execSpanChainRead (c : CmdCall) (s : State) : Host.Outcome State Fault Refusal :=
  .next (mbRun ⟨0x0D10, 0x10, false, 12, 12, false, true⟩ runSpanChainRead c s)

/-- The first pier on the chain that is not idle, this unit first. -/
def notIdle (s : State) : Option Nat :=
  if !unitIdle s then some 0
  else ((sideUnits s true ++ sideUnits s false).find? (fun h => h.idle != 3)).map (·.pier)

/-- SPAN_REENUMERATE (R228). -/
def runSpanReenumerate (_ : CmdCall) (s : State) : State × CmdRes :=
  if !isKeystone s then (s, .refuse eSTATE 0)
  else match notIdle s with
    | some p => (s, .refuse eSTATE p)
    | none =>
      let s1 := netBcast s clsMGMT flCTRL [9#8 :: zeros 7]
      (enumStart (fset { s1 with net := { s1.net with holds := [] } } fSN_NEXT_FREE 1), .defer false)

/-- SPAN_REENUMERATE. With both links down it is over at once. -/
def execSpanReenumerate (c : CmdCall) (s : State) : Host.Outcome State Fault Refusal :=
  let t := mbRun ⟨0x0D11, 0x10, false, 0, 0, false, true⟩ runSpanReenumerate c s
  .next (if t.net.stage = .idle then enumComplete t else t)

/-- A pier has a host link. -/
def hasHostLink (s : State) (p : Nat) : Bool :=
  if pierValid s ∧ p = myPier s then fbit s fHE_STAT_LINK_UP
  else s.net.chain.any (fun u => !u.transparent && u.pier == p && u.hostLink)

/-- The choice that setting AUTO makes (R241). -/
def hostChoose (s : State) : State :=
  hostSelect (match hostNearest s with | some p => fset s fSN_HOST_PIER p | none => s)

/-- SPAN_SET_HOST (R241, R243). -/
def runSpanSetHost (c : CmdCall) (s : State) : State × CmdRes :=
  let auto := bit (pb c 2) 0
  let p := pw c 0
  let frozen := fbit s fTL_CTL_EN && fget s fSN_CHAIN_FLOOR < 0x12
  if auto then
    if frozen then (s, .refuse eSTATE 0) else (hostChoose (fbset s fSN_HOST_AUTO true), .ok [])
  else if !hasHostLink s p then (s, .refuse eRANGE 0)
  else if frozen && p != fget s fSN_HOST_PIER then (s, .refuse eSTATE 0)
  else (hostSelect (fset (fbset s fSN_HOST_AUTO false) fSN_HOST_PIER p), .ok [])

/-- SPAN_SET_HOST. -/
def execSpanSetHost (c : CmdCall) (s : State) : Host.Outcome State Fault Refusal :=
  .next (mbRun ⟨0x0D12, 0x10, false, 3, 8, false, true⟩ runSpanSetHost c s)

/-- SPAN_CREDIT_PARAMS (R243). -/
def runSpanCreditParams (c : CmdCall) (s : State) : State × CmdRes :=
  let g := (List.range 6).map (fun i => pw c (4 + 2 * i))
  let ok := 1 ≤ nth g 1 ∧ [0, 2, 3, 4, 5].all (fun i => decide (33 ≤ nth g i)) ∧ g.sum ≤ 1024
  if 2 ≤ pb c 0 ∨ ¬ ok then (s, .refuse eRANGE 0)
  else
    let o := sno (pb c 0)
    (forEach [0, 1, 2] (fun i t => wrn t (SN_GRANT01 + o + 4 * i) (nth g (2 * i) + 65536 * nth g (2 * i + 1))) s, .ok [])

/-- SPAN_CREDIT_PARAMS. -/
def execSpanCreditParams (c : CmdCall) (s : State) : Host.Outcome State Fault Refusal :=
  .next (mbRun ⟨0x0D90, 0x10, true, 16, 16, false, true⟩ runSpanCreditParams c s)

end Sys2Proof.Machine
end

