-- ==== Sys2Proof/Machine/Endpoint.lean ====
section
/-! DEFINITION. The host endpoint (chapter 14): error reporting, completions and tags, pauses of DMA, the function resets, and
the link. Requests of the host follow in Window.lean. -/

namespace Sys2Proof.Machine

/-! ## Completions and timeouts (R255 to R257) -/

/-- The completion timeout in µs for a range value of Device Control 2 (R255). -/
def tmoOf (v : Nat) : Nat :=
  match v with
  | 1 => 90
  | 2 => 9000
  | 5 => 50000
  | 6 => 200000
  | 9 => 850000
  | 10 => 3200000
  | 13 => 12000000
  | 14 => 60000000
  | _ => 40000

/-- The owner of a read learns that it failed: a verdict ring fetches again (R152), a delayed read holds an error (R322); a
mailbox channel and a tap engine read again (log 106). -/
def ownerFail (r : NpReq) (s : State) : State :=
  match r.owner with
  | .verdict => fetchDrop r.tag s
  | .delayed i => drFill i none s
  | .mailbox c => mbFetch c s
  | .tap p e => tapFetch p e s
  | .nobody => s

/-- A read's data reaches its owner, which ends the request. -/
def ownerData (r : NpReq) (data : List Byte) (s : State) : State :=
  match r.owner with
  | .delayed i => drFill i (some (u32At data 0)) (npEnd r.tag s)
  | .verdict => match s.tiles.fetches.find? (fun f => f.tag = r.tag) with
    | some f => vrArrive f.ring data s
    | none => npEnd r.tag s
  | .mailbox c => mbGot c data (npEnd r.tag s)
  | .tap p e => tapGot p e data (npEnd r.tag s)
  | .nobody => npEnd r.tag s

/-- A completion arrives: status 0 SC, else UR or CA (R257, R261, R262). -/
def completionIn (tag status : Nat) (data : List Byte) (s : State) : State :=
  match npOf s tag with
  | none =>
    if s.he.quar.any (fun q => q.tag == tag && q.silent) then cnt s HE_CNT_CPL_DISCARD
    else
      let s1 := evtCnt (wrn s HE_UNEXP_LAST (2 ^ 31 + tag)) fHE_EVT_UNEXP_CPL HE_CNT_UNEXP
      aerAdvisory 16 s1
  | some r =>
    if r.void then ownerFail r (cnt (npEnd tag s) HE_CNT_CPL_DISCARD)
    else if status ≠ 0 then
      ownerFail r (cfgSet 0x04 (if status = 1 then 2 ^ 29 else 2 ^ 28) (evtCnt (npEnd tag s) fHE_EVT_CPL_ERR HE_CNT_CPL_ERR))
    else ownerData r data s

/-- A read receives no completion in time (R256). -/
def completionTmo (tag : Nat) (s : State) : State :=
  match npOf s tag with
  | none => s
  | some r => aerUncorr 14 (evtCnt (ownerFail r (npQuarantine tag s)) fHE_EVT_CPL_TMO HE_CNT_CPL_TMO)

/-- A quarantined tag returns to the pool. -/
def quarEnd (tag : Nat) (s : State) : State :=
  syncTags { s with he := { s.he with quar := s.he.quar.filter (fun q => q.tag != tag) } }

/-- A changed tag enable selects its pool once no request is outstanding (R254); tags in quarantine are then of an earlier
pool (R412). -/
def poolSwitch (s : State) : State :=
  let w := wantedPool s
  if fget s fHE_STAT_NP_OUT ≠ 0 ∨ fget s fHE_TAG_STAT_POOL = w then s
  else
    let s1 := fset s fHE_TAG_STAT_POOL w
    { s1 with he := { s1.he with quar := s1.he.quar.map (fun q => { q with old := true }) } }

/-! ## Pauses (R91, R156, R249, R261, R324) -/

/-- Requests stop: outstanding reads will be discarded, tiles and tap frames in progress end. -/
def dmaPause (s : State) : State :=
  let s1 : State := { s with he := { s.he with reqs := s.he.reqs.map (fun r => { r with void := true }) } }
  let s2 : State := { s1 with tiles := { s1.tiles with allocs := s1.tiles.allocs.map (fun a =>
    if (allocEnd a).isNone then { a with paused := true } else a) } }
  syncTags (tapsPause s2)

/-- Host software clears Bus Master Enable. -/
def bmeClear (s : State) : State :=
  if !bme s then s
  else dmaPause (fbset (cfgWr s 0x04 (setBits (cfgRd s 0x04) 2 2 0)) fHE_STAT_BME false)

/-- The function enters D3hot (R249). -/
def d3Enter (s : State) : State :=
  if fbit s fHE_STAT_D3 then s else dmaPause (fbset (cfgWr s 0x44 (setBits (cfgRd s 0x44) 1 0 3)) fHE_STAT_D3 true)

/-! ## CMD_ABORT's effect (R279) -/

/-- Restore what an interrupted run had changed. -/
def abortEffect (d : Deferred) (s : State) : State :=
  let p := pb d.call 0
  if d.waitsBme then s
  else match d.opcode with
    | 0x0710 => updPort s p (fun x => { x with learn := none })
    | 0x0811 => match s.views.calRun with
      | some r => runGroupBack r { s with views := { s.views with calRun := none } }
      | none => s
    | 0x0A11 => match s.views.ejectRun with
      | some r => runGroupBack r { s with views := { s.views with ejectRun := none } }
      | none => s
    | 0x0211 => updPort s p (fun x => { x with stopDue := false })
    | 0x0C11 =>
      if (lanePort s p).grid.isNone then s
      else
        let s1 := updLanes s p (fun l => { l with grid := none })
        if fbit s fSL_EYE_CTL_BUSY (slo p) then eyeStop p true (eyeRise p s1) else s1
    | 0x1090 =>
      if (twSt s p).run = .cmd ∨ ¬ fbit s fTW_CMD_BUSY (two p) then s else twCmdEnd p twABORTED 0 0 [] s
    | _ => s

/-- A deferred command stops without a completion. -/
def deferredStop (x : Nat × Deferred) (s : State) : State := abortEffect x.2 (dropDeferred x.1 x.2 s)

/-! ## Channels at a function reset (R283) -/

/-- A deferred command that can no longer stop runs on, and nobody takes its completion. -/
def deferredOrphan (x : Nat × Deferred) (s : State) : State :=
  let d := { x.2 with call := { x.2.call with origin := some noPier } }
  let s1 := dropDeferred x.1 x.2 s
  { s1 with mb := { s1.mb with remoteDef := s1.mb.remoteDef ++ [d] } }

/-- Channel `c` closes without ceremony: deferred commands stop, completions and events are discarded. -/
def channelWipe (c : Nat) (s : State) : State :=
  let n := (chan s c).events.length
  let ds := (deferredAll s).filter (fun x => x.1 == c)
  let s1 := forEach ds (fun x t => if x.2.canStop then deferredStop x t else deferredOrphan x t) s
  updChan (slotsOrphan c (cntAdd (mbForget c s1) MB_CNT_EVT_LOST n)) c (fun _ => freshChan)

/-! ## Function resets (R262, R264, R416) -/

/-- The reset domain of the register at `a`. -/
def domAt (a : Nat) : Option Dom := (findRow a).map (fun r => r.dom)

/-- Return every register of a domain to its reset value. -/
def resetDom (d : Dom) (s : State) : State := { s with regs := s.regs.filter (fun e => domAt e.1 != some d) }

/-- The configuration dwords that fuses fill: Revision ID, Subsystem ID and the Device Serial Number (R246, R247). -/
def cfgFused (o : Nat) : Bool := o == 0x08 || o == 0x2C || o == 0x154 || o == 0x158

/-- Configuration registers that a Function Level Reset leaves: the fused ones, Max_Payload_Size, link control, and the sticky
error registers (log 20). -/
def cfgKept (o : Nat) : Bool :=
  cfgFused o || o == 0x5C || o == 0x60 || o == 0x7C || o == 0x80 || decide (0x100 ≤ o ∧ o < 0x150) ||
    decide (0x160 ≤ o ∧ o < 0x240)

/-- Reset configuration space as PCI Express specifies; a link reset keeps the fused and the sticky error registers alone. -/
def cfgResetAll (flr : Bool) (s : State) : State :=
  let mps := bits (cfgRd s 0x58) 7 5
  let s1 : State := { s with he := { s.he with cfg := s.he.cfg.filter (fun e =>
    if flr then cfgKept e.1 else cfgFused e.1 || decide (0x100 ≤ e.1 ∧ e.1 < 0x150)) } }
  if flr then cfgWr s1 0x58 (setBits (cfgRd s1 0x58) 7 5 mps) else s1

/-- Step 1: FLR_BUSY, and with it step 2: no request or message leaves; every lease ends (R283). -/
def flrStart (s : State) : State :=
  let s1 := fbset { s with he := { s.he with silenced := false } } fHE_STAT_FLR_BUSY true
  let s2 : State := { s1 with he := { s1.he with reqs := s1.he.reqs.map (fun r => { r with void := true }) } }
  let s3 : State := { s2 with tiles := { s2.tiles with allocs := s2.tiles.allocs.map (fun a => { a with paused := true }) } }
  let s4 := updAb (fun a => { a with reqs := a.reqs.map (fun r => if r.ag = .host then { r with void := true } else r) }) s3
  syncTags (forEach (List.range 32) (leaseEnd lrFLR) s4)

/-- A tile in progress ends for its maker: TILE_DONE with DROPPED and PAUSE, or the drop itself on this unit (R157). -/
def flrTile (a : TileAlloc) (s : State) : State :=
  match a.maker with
  | some p => sendTileDone p 2 3 a.ring a.id a.seq s
  | none => tileDrop a.id .pause s

/-- Step 3: outstanding reads are abandoned and their tags enter quarantine; tiles in progress end. -/
def flrSilence (s : State) : State :=
  if !fbit s fHE_STAT_FLR_BUSY || s.he.silenced then s
  else
    let s1 := forEach s.he.reqs (fun r t => ownerFail r t) s
    let quar := s.he.reqs.map (fun r => QuarTag.mk r.tag false true)
    let s2 := syncTags { s1 with he := { s1.he with silenced := true, reqs := [], quar := s1.he.quar ++ quar } }
    forEach s2.tiles.allocs flrTile s2

/-- The written-off counts of R416, and the FUNC-domain terms at zero. -/
def flrWriteOff (s : State) : State :=
  let s1 := cntWrap (cntWrap s LI_WOFF_TILE s.tiles.allocs.length) LI_WOFF_VERDICT (verdictsHeld s)
  acct (wrn s1 LI_FLR_PASS (rdn s1 LI_PASS)) (fun a => { a with trAlloc := 0, trDone := 0, trDrop := 0, vrArrived := 0, vrTaken := 0 })

/-- The engines of the FUNC domain: tiles allocated, fetches, taps; their pool blocks return. -/
def flrEngines (s : State) : State :=
  let s1 := forEach s.tiles.allocs (fun a t => poolGive t 2 a.blocks) s
  let s2 : State := { s1 with tiles := { s1.tiles with allocs := [], fetches := [], arenaCons := [], hwb := [] } }
  let s3 := poolGive s2 1 (poolHeld s2 1)
  forEach (List.range 16) (fun p t => updPort t p (fun x => { x with taps := [freshTap, freshTap], stPos := 0 })) s3

/-- Step 4 (R262): queues flushed, channels closed, registers and configuration space reset. `flr` is false for a reset of
the LINK domain. -/
def flrFinish (flr : Bool) (s : State) : State :=
  let s1 := forEach (List.range 66) quFlush (flrWriteOff s)
  let s2 := forEach (List.range 4) channelWipe (flrEngines s1)
  let link := rdn s2 HE_STAT
  let s3 := cfgResetAll flr (resetDom .func s2)
  let s4 := wrn s3 HE_STAT (setBits (setBits (setBits link 22 22 0) 20 20 0) 18 18 0)
  let s5 := { wrn s4 HE_CPL_TMO (tmoOf 0) with he := { s4.he with silenced := false } }
  let s6 := syncTags (poolSwitch { s5 with time := { s5.time with ptm := none } })
  irqAll (forEach (List.range 384) irqUpdate (evt (cnt s6 HE_CNT_FLR) fHE_EVT_FLR_DONE))

/-- FLR_COMPLETE. -/
def flrComplete (s : State) : State :=
  if fbit s fHE_STAT_FLR_BUSY ∧ s.he.silenced then flrFinish true s else s

/-- PERST_N, a hot reset or a link down (R264): the link is down, which deasserts INTA without a message, and the function is
reset. -/
def linkReset (s : State) : State :=
  let up := fbit s fHE_STAT_LINK_UP
  let s0 := fbset (resetDom .link s) fHE_STAT_ROM_READY (fbit s fHE_STAT_ROM_READY)
  let s1 : State := { s0 with he := { s0.he with intx := false } }
  let s2 := flrStart (setW1 (s1.he.w1.filter (fun x => x.write)) s1)
  let s3 := cfgResetAll false s2
  let s4 := if up then paDetect 0x60 (cnt s3 HE_CNT_LINK_DOWN) else s3
  helloOnChange s (publish (sendReport (hostSelect s4)))

/-! ## The link (R244) -/

/-- The data link comes up. -/
def linkUpNow (speed width : Nat) (s : State) : State :=
  if s.rs.held || !s.he.perst || fbit s fHE_STAT_LINK_UP then s
  else
    let s1 := fset (fset (fbset s fHE_STAT_LINK_UP true) fHE_STAT_SPEED speed) fHE_STAT_WIDTH width
    helloOnChange s (publish (sendReport (hostSelect (syncTags (if dennilUp s1 then linkCap s1 else s1)))))

/-! ## The descriptor image (R252, R286, R342) -/

/-- A directory of entries, each a type, version and its data. -/
def imageEntries (l : List (Nat × Nat × List Byte)) (off : Nat) : List Byte × List Byte :=
  match l with
  | [] => ([], [])
  | (ty, ver, d) :: t =>
    let r := imageEntries t (off + d.length)
    (leBytes 2 ty ++ leBytes 2 ver ++ leBytes 4 off ++ leBytes 4 d.length ++ leBytes 4 (crc32 d) ++ r.1, d ++ r.2)

/-- The firmware manifest. -/
def fwManifest (s : State) : List Byte :=
  [3#8] ++ leBytes 1 (fget s fRS_BOOT_BOOTED) ++ leBytes 1 s.ev.nextSlot ++ [0#8] ++ leBytes 2 s.mb.svnMin ++ zeros 2 ++
    (List.range 3).flatMap (fun i => slotEntry i (fwSlot s i))

/-- The CAL entries in use. -/
def calUsed (s : State) : List CalEntry :=
  s.ev.cal.filter (fun e => calInUse s e.type e.head e.phase == some e)

/-- The calibration inventory. -/
def calInventory (s : State) : List Byte :=
  let l := calUsed s
  leBytes 4 l.length ++ zeros 4 ++ l.flatMap (fun e =>
    leBytes 2 e.type ++ leBytes 2 e.fmt ++ leBytes 4 e.gen ++ leBytes 8 e.head ++ leBytes 1 e.phase ++ zeros 3 ++
      leBytes 4 e.payload.length)

/-- The interface versions: HIV 1.0 to 1.6, Span 1.0 to 1.2 (R210), Orlek to version 2, as 2.0
(R178). -/
def ifVersions : List Byte := [0x10#8, 0x16#8, 0x10#8, 0x12#8, 0x20#8]

/-- The descriptor image. -/
def descriptorImage (s : State) : List Byte :=
  let l := [(1, 0, ifVersions), (2, 0, fwManifest s), (3, 0, calInventory s)]
  let dir := imageEntries l (16 + 16 * l.length)
  let body := dir.1 ++ dir.2
  let n := 0x110 + body.length
  [0x55#8, 0xAA#8] ++ zeros 22 ++ leBytes 2 0x1C ++ zeros 2 ++
    ([0x50#8, 0x43#8, 0x49#8, 0x52#8] ++ leBytes 2 0x1EF7 ++ leBytes 2 0x1664 ++ zeros 2 ++ leBytes 2 0x18 ++ [3#8] ++
      [0x00#8, 0x80#8, 0x11#8] ++ leBytes 2 ((n + 511) / 512) ++ zeros 2 ++ [0x70#8, 0x80#8] ++ zeros 2) ++ zeros 204 ++
    leBytes 4 0x4353445A ++ leBytes 2 0x0100 ++ leBytes 2 l.length ++ leBytes 4 (n - 0x100) ++ leBytes 4 (crc32 body) ++ body

/-- The copy in reserved LP5X is made or refreshed, and ROM_READY set (R252). -/
def imageCopy (s : State) : State :=
  fbset { s with he := { s.he with rom := descriptorImage s } } fHE_STAT_ROM_READY true

/-! ## The rows -/

/-- HOST_LINK_UP: at a speed code and width. -/
def execHostLinkUp (speed : BitVec 3) (width : BitVec 5) (s : State) : Host.Outcome State Fault Refusal :=
  .next (linkUpNow speed.toNat width.toNat s)

/-- BUS_MASTER_ENABLE_CLEAR. -/
def execBusMasterEnableClear (s : State) : Host.Outcome State Fault Refusal := .next (bmeClear s)

/-- D3HOT_ENTRY. -/
def execD3hotEntry (s : State) : Host.Outcome State Fault Refusal := .next (d3Enter s)

/-- FUNCTION_LEVEL_RESET: a write of Initiate Function Level Reset. -/
def execFunctionLevelReset (s : State) : Host.Outcome State Fault Refusal :=
  .next (if fbit s fHE_STAT_FLR_BUSY then s else flrStart s)

/-- FLR_DMA_SILENCE. -/
def execFlrDmaSilence (s : State) : Host.Outcome State Fault Refusal := .next (flrSilence s)

/-- FLR_COMPLETE. -/
def execFlrComplete (s : State) : Host.Outcome State Fault Refusal := .next (flrComplete s)

/-- LINK_RESET: PERST_N is asserted (`perst`), a hot reset, or link down. -/
def execLinkReset (perst : Bool) (s : State) : Host.Outcome State Fault Refusal :=
  .next (linkReset (if perst then { s with he := { s.he with perst := false } } else s))

/-- COMPLETION_TIMEOUT. -/
def execCompletionTimeout (tag : BitVec 10) (s : State) : Host.Outcome State Fault Refusal :=
  .next (completionTmo tag.toNat s)

/-- COMPLETION_RECEIVE. -/
def execCompletionReceive (tag : BitVec 10) (status : Fin 3) (data : List Byte) (s : State) :
    Host.Outcome State Fault Refusal :=
  .next (completionIn tag.toNat status.val data s)

/-- DELAYED_READ_COMPLETE: the completion of a delayed read's host read. -/
def execDelayedReadComplete (entry : Fin 8) (status : Fin 3) (data : Word) (s : State) : Host.Outcome State Fault Refusal :=
  .next (match (s.ab.dr.getD entry.val none).bind (fun d => d.tag) with
    | some t => completionIn t status.val (leBytes 4 data.toNat) s
    | none => s)

/-- TAG_QUARANTINE_END. -/
def execTagQuarantineEnd (tag : BitVec 10) (s : State) : Host.Outcome State Fault Refusal := .next (quarEnd tag.toNat s)

/-- TAG_POOL_SWITCH. -/
def execTagPoolSwitch (s : State) : Host.Outcome State Fault Refusal := .next (poolSwitch s)

/-- DESCRIPTOR_IMAGE_REFRESH. -/
def execDescriptorImageRefresh (s : State) : Host.Outcome State Fault Refusal :=
  .next (if dennilUp s ∧ fbit s fHE_STAT_ROM_READY then imageCopy s else s)

end Sys2Proof.Machine
end

