-- ==== Sys2Proof/Machine/Evidence.lean ====
section
/-! DEFINITION. The evidence store (chapter 18): codewords and bad blocks, refresh and compaction, erase credits, the
evidence ring, the lifetime log, and the store's commands. -/

namespace Sys2Proof.Machine

/-- Partitions in the order of R334: 0 BOOT, 1 CONF, 2 CAL, 3 LOG, 4 EVID. -/
abbrev PartNo := Fin 5

/-! ## Wear and bad blocks (R331, R344, R352) -/

/-- The accrual rate in 2^-32 credit per ms (R344). -/
def credRate (s : State) : Nat :=
  s.ev.hdr.peNative * s.ev.good * 2 ^ 32 % 2 ^ 64 / (s.ev.hdr.lifeH * 3600000)

/-- A wear cause of REPLACE holds: WEAR, or an SLC partition with fewer than two spares left. -/
def wornOut (s : State) : Bool :=
  decide (900 ≤ fget s fEV_STAT_WEAR) || s.ev.spares.any (fun n => decide (n < 2))

/-- WEAR and the NAND-wear cause follow the medium (R352); a WEAR that is no whole number rounds either way (log 22). -/
def wearUpdate (s : State) : State :=
  let w := (roundOpen ((s.ev.eraseSum * 1000 : Nat) : Int) (s.ev.good * s.ev.hdr.peNative) s).toNat
  let s1 := fset (useFree s) fEV_STAT_WEAR (min w 1023)
  let on := wornOut s1
  let causes := setBits (replaceCauses s1) 3 3 (if on then 1 else 0)
  let s2 := if on && !fbit s1 fPA_REPLACE_NAND_WEAR then evt s1 fEV_EVT_REPLACE else s1
  replaceTo causes s2

/-- A block goes bad (R331): the bad-block table is part of the configuration store, and the open superblock, the only one that is
programmed, leaves it out. -/
def markBad (part block : Nat) (s : State) : State :=
  let sbs := match s.ev.sbs.getLast? with
    | some b => if part = 4 ∧ s.ev.isOpen = true then s.ev.sbs.dropLast ++ [{ b with good := b.good - 1 }] else s.ev.sbs
    | none => s.ev.sbs
  let s1 := { s with ev := { s.ev with
    badBlocks := s.ev.badBlocks ++ [block], good := if part = 4 then s.ev.good - 1 else s.ev.good, sbs := sbs
    spares := if part = 4 then s.ev.spares else upd s.ev.spares part (fun n => n - 1) } }
  let s2 := if part = 4 then wrn s1 EV_CRED_RATE (credRate s1) else s1
  let s3 := paDetect 0x85 (evtCnt s2 fEV_EVT_GROWN_BAD EV_CNT_GROWN_BAD)
  wearUpdate (confStore 0 s3)

/-- NAND operations `ops` of client 39 over `n` codewords (R364, R365); those of EVID are the evidence writer's. -/
def maintCost (part ops n : Nat) (s : State) : State :=
  if part = 4 then s else tollBegin s 39 [(0, 64 * n), (2, 16 * n), (3, ops)]

/-- The image being programmed has ended: FW_WRITE or FW_LOAD completes (R285). -/
def imageDone (good : Bool) (s : State) : State :=
  fwLoadDone good (forEach (deferredOf s 0x0F13) (fwWriteDone good) s)

/-- A program ends (R331); `last` says that it was the last of an image. A block that fails is replaced from its partition's
spares; without a spare the image fails. -/
def programDone (part block : Nat) (ok last : Bool) (s0 : State) : State :=
  let s := maintCost part 1 1 s0
  if !evRunning s0 then s0
  else if ok then (if part = 0 ∧ last then imageDone true s else s)
  else if part = 0 ∧ nth s.ev.spares 0 = 0 then imageDone false s
  else markBad part block s

/-- An erase ends. -/
def eraseDone (part block : Nat) (ok : Bool) (s0 : State) : State :=
  let s := maintCost part 4 0 s0
  if !evRunning s0 then s0 else if ok then s else markBad part block s

/-! ## Reads (R329, R330, R343) -/

/-- An uncorrectable codeword of a partition: `idx` is the slot, copy, entry or superblock, `cw` the codeword in it. -/
def uncorrectable (part idx cw : Nat) (s : State) : State :=
  match part with
  | 0 => setSlot idx { fwSlot s idx with st := 2 } s
  | 1 =>
    let best := s.ev.confCopies.foldl (fun a c => if c.intact && decide (a.gen ≤ c.gen) then c else a) ⟨0, false, 0⟩
    emit { s with ev := { s.ev with confCopies := upd s.ev.confCopies idx (fun _ => best) } }
      (.nand 2 idx (confCopyBytes (keyBytes s) idx best.gen (confBody s)))
  | 2 => { s with ev := { s.ev with cal := upd s.ev.cal idx (fun e => { e with intact := false }) } }
  | 3 => { s with ev := { s.ev with log := s.ev.log.take (64 * cw) ++ s.ev.log.drop (64 * cw + 64) } }
  | _ => { s with ev := { s.ev with sbs := upd s.ev.sbs idx (fun b => { b with recs := b.recs.map (fun r =>
      if r.slot < 64 * cw + 64 ∧ 64 * cw < r.slot + (r.bytes.length + 63) / 64 then { r with bad := true } else r) }) } }

/-- A codeword is read: `step` is the ladder step reached, `fixed` the corrected bits. -/
def codewordRead (part idx cw block step fixed : Nat) (uncorr : Bool) (s0 : State) : State :=
  if !evRunning s0 then s0
  else
    let s := maintCost part (1 + step) (1 + step) s0
    let s1 := if step ≠ 0 then cnt s EV_CNT_LADDER else s
    if uncorr then paDetect (0x80 + part) (evtCnt (uncorrectable part idx cw s1) fEV_EVT_UNCORR EV_CNT_UNCORR)
    else if part < 4 ∧ (fget s fEV_PATROL_REFRESH_THR < fixed ∨ max 1 (fget s fEV_PATROL_REFRESH_STEP) ≤ step) ∧
        ¬ s.ev.refreshDue.contains block then
      { s1 with ev := { s1.ev with refreshDue := s1.ev.refreshDue ++ [block] } }
    else s1

/-- A patrol pass begins or has read everything (R343). -/
def patrolPass (done : Bool) (s : State) : State :=
  if !evRunning s || !fbit s fEV_CTL_EN || !fbit s fEV_CTL_PATROL_EN then s
  else if done then
    if fbit s fEV_STAT_PATROL then evt (fbset s fEV_STAT_PATROL false) fEV_EVT_PATROL_DONE else s
  else fbset s fEV_STAT_PATROL true

/-- A weakening block is copied and erased; a source that meets an uncorrectable codeword goes bad (R331, R343). -/
def blockRefresh (part block : Nat) (uncorr : Bool) (s : State) : State :=
  if !evRunning s || !s.ev.refreshDue.contains block || part == 4 then s
  else
    let s1 := { s with ev := { s.ev with refreshDue := s.ev.refreshDue.erase block } }
    let cw := s.ev.hdr.blockCw
    let s2 := evtCnt (maintCost part (2 * cw + 4) (2 * cw) s1) fEV_EVT_REFRESH EV_CNT_REFRESH
    if uncorr then markBad part block s2 else s2

/-! ## Erase credits (R344, R345) -/

/-- A millisecond of TB3. -/
def creditAccrue (s : State) : State :=
  let rate := rdn s EV_CRED_RATE
  let cap := max 1 (fget s fEV_CRED_CAP_HOURS) * 3600000 * rate
  let sum := reg64 s EV_CRED_BAL_LO + rate
  let bal := min cap sum
  let s1 := wr64 (wr64 s EV_CRED_BAL_LO bal) EV_CRED_GRANTED_LO ((reg64 s EV_CRED_GRANTED_LO + rate) % 2 ^ 64)
  wr64 s1 EV_CRED_FORFEIT_LO ((reg64 s EV_CRED_FORFEIT_LO + (sum - bal)) % 2 ^ 64)

/-! ## The evidence ring (R347 to R349) -/

/-- Keep WRITING and the ring's SEQ registers. -/
def ringRegs (s : State) : State :=
  let s1 := fbset s fEV_STAT_WRITING s.ev.isOpen
  let q := s.ev.sbs.map (·.seq)
  wrn (wrn s1 EV_RING_OLDEST (q.headD 0)) EV_RING_NEWEST (q.getLastD 0)

/-- The EVID partition (R334). -/
def evidPart (s : State) : Option Partition := s.ev.hdr.parts.find? (fun p => p.type == 5)

/-- Superblocks of the ring. -/
def evidCount (s : State) : Nat := match evidPart s with | some p => p.count - p.spare | none => 0

/-- Bytes of a superblock of `good` blocks, its header codeword with them. -/
def sbRoom (s : State) (good : Nat) : Nat :=
  good * s.ev.hdr.blockCw * 4096 / (match evidPart s with | some p => if p.mode = 1 then 3 else 1 | none => 1)

/-- Open the next superblock, with `good` good blocks of which the largest erase count is `erases` now: the oldest when
all are in use. -/
def sbOpen (good erases : Nat) (s : State) : State :=
  let keep := if s.ev.sbs.length < evidCount s then s.ev.sbs else s.ev.sbs.drop 1
  let b : EvSb := ⟨s.ev.nextSeq, s.ev.bootSeq, extTb1 s, erases, good, 4096, []⟩
  let cost := good * 2 ^ 32
  let s1 := emit { s with ev := { s.ev with
    isOpen := true, sbs := keep ++ [b], nextSeq := s.ev.nextSeq + 1, eraseSum := s.ev.eraseSum + good } }
    (.nand 5 b.seq (sbHeader b))
  let s2 := wr64 s1 EV_CRED_BAL_LO (reg64 s1 EV_CRED_BAL_LO - cost)
  wearUpdate (ringRegs (wr64 s2 EV_CRED_SPENT_LO ((reg64 s2 EV_CRED_SPENT_LO + cost) % 2 ^ 64)))


/-- The bytes of a record (R349). -/
def recBytes (s : State) (d : EvDue) : List Byte :=
  let body := pad64 (zeros 64 ++ d.tile) |>.drop 64
  let h := leBytes 4 0x4345525A ++ leBytes 4 (64 + body.length) ++ leBytes 4 d.id ++ leBytes 4 d.owner ++
    leBytes 1 d.outcome ++ leBytes 1 d.action ++ leBytes 2 d.flags ++ leBytes 4 s.ev.bootSeq ++ leBytes 8 d.stamp ++
    leBytes 6 d.tb2 ++ leBytes 1 d.tb2State ++ [0#8] ++ leBytes 4 d.launch ++ leBytes 2 d.dur ++ zeros 14
  h ++ leBytes 4 (crc32 (h ++ body)) ++ body

/-- Put a record in the open superblock. -/
def recPut (d : EvDue) (bytes : List Byte) (s : State) : State :=
  match s.ev.sbs.getLast? with
  | none => s
  | some b =>
    let r : EvRec := ⟨d.id, d.stamp, s.ev.bootSeq, b.used / 64, bytes, false⟩
    let b1 := { b with used := b.used + bytes.length, recs := b.recs ++ [r] }
    emit (cnt { s with ev := { s.ev with sbs := s.ev.sbs.dropLast ++ [b1] } } EV_CNT_REC) (.nand 5 b.seq bytes)

/-- The open superblock holds `n` more bytes. -/
def sbFits (s : State) (n : Nat) : Bool :=
  s.ev.isOpen && (match s.ev.sbs.getLast? with | some b => decide (b.used + n ≤ sbRoom s b.good) | none => false)

/-- What writing `n` bytes costs the evidence writer. -/
def recCosts (n : Nat) : List (Nat × Nat) := [(0, lp5Units n), (2, trestleUnits n), (3, (n + 4095) / 4096)]

/-- EVID_WR's budget does not cover a record: not its first transaction, or, as `cut` says of a limited client, a later one. -/
def recShort (s : State) (n : Nat) (cut : Bool) : Bool :=
  (cut && fbit s fTO_CTL_EN) || !tollCan s 34 (recCosts (min n 256))

/-- The oldest due record is written, or dropped: `cut` says that EVID_WR's budget runs out within it, `check` how the read of its
copy at LP5X address `at_` ends (R357), and the operands of `sbOpen` describe the next superblock. -/
def evidenceWrite (good erases : Nat) (cut : Bool) (check : ReadCheck) (at_ : Nat) (s : State) : State :=
  match s.ev.due with
  | [] => s
  | d :: rest =>
    let s1 := lp5Check check at_ { s with ev := { s.ev with due := rest } }
    let bytes := recBytes s d
    let n := bytes.length
    if !evRunning s || !fbit s fEV_CTL_EN then s
    else if check = .failed then evt (cnt s1 EV_CNT_DROP_STAGE) fEV_EVT_DROP
    else if recShort s n cut then evt (cnt (tollShort s1 34 true) EV_CNT_DROP_TOLL) fEV_EVT_DROP
    else if sbFits s1 n then recPut d bytes (tollBegin s1 34 (recCosts n))
    else
      let s2 := ringRegs { s1 with ev := { s1.ev with isOpen := false } }
      if good = 0 ∨ reg64 s2 EV_CRED_BAL_LO < good * 2 ^ 32 then evt (cnt s2 EV_CNT_DROP_CRED) fEV_EVT_DROP
      else recPut d bytes (tollBegin (tollBegin (sbOpen good erases s2) 34 [(3, 4 * good + 1)]) 34 (recCosts n))

/-! ## The lifetime log (R351) -/

/-- The band of R451 for Tj in 1/16 °C. -/
def tjBand (tj : Int) : Nat :=
  if tj ≤ 55 * 16 then 0 else if tj ≤ 85 * 16 then 1 else if tj ≤ 105 * 16 then 2 else if tj ≤ 125 * 16 then 3
  else if tj ≤ 150 * 16 then 4 else 5

/-- A PERIODIC record: ten minutes more of power. -/
def logPeriodic (s : State) : State :=
  if !evRunning s || !dennilUp s then s
  else
    let s1 := { s with ev := { s.ev with powerMin := s.ev.powerMin + 10 } }
    logWrite s1 2 (leBytes 4 s1.ev.powerMin ++ s1.ev.bandMin.flatMap (leBytes 4) ++ leBytes 8 (reg64 s1 EV_CRED_BAL_LO) ++
      leBytes 2 (fget s1 fEV_STAT_WEAR))

/-- The FAULT record of the oldest detection that waits for one (R404). -/
def faultRecord (s : State) : State :=
  match s.pa.faultRecs with
  | [] => s
  | src :: rest =>
    if !dennilUp s then s
    else logWrite { s with pa := { s.pa with faultRecs := rest } } 3 (leBytes 2 src ++ leBytes 1 (paClass s src))

/-- The bytes of a log record. -/
def logBytes (r : LogRec) : List Byte :=
  let b := leBytes 1 r.kind ++ zeros 3 ++ leBytes 4 r.bootSeq ++ leBytes 8 r.stamp ++ fit 44 r.data
  b ++ leBytes 4 (crc32 b)

/-! ## Retrieval (R350, R353) -/

/-- What EVID_READ has gathered: the bytes, records, skipped, and where it stopped, if it did. -/
structure EvScan where
  out : List Byte
  n : Nat
  skipped : Nat
  stop : Option (Nat × Nat)
  deriving DecidableEq, Repr

/-- Take one record into a scan. -/
def evScan (c : CmdCall) (a : EvScan) (x : Nat × EvRec) : EvScan :=
  let r := x.2
  let fl := pb c 0
  let hit := r.bootSeq = pd c 24 ∧ pq c 8 ≤ r.stamp ∧ r.stamp ≤ pq c 16 ∧ (¬ bit fl 0 ∨ r.id = pd c 4)
  let b := if bit fl 2 then r.bytes.take 64 else r.bytes
  if a.stop.isSome then a
  else if r.bad then { a with skipped := a.skipped + 1 }
  else if ¬ hit then a
  else if pw c 2 ≤ a.n ∨ pd c 28 < a.out.length + b.length then { a with stop := some (x.1, r.slot) }
  else { a with out := a.out ++ b, n := a.n + 1 }

/-- The superblocks from the one at which EVID_READ starts, the slot there, and OVERTAKEN. -/
def evStart (c : CmdCall) (s : State) : List EvSb × Nat × Bool :=
  let q := pq c 40 / 2 ^ 24
  if bit (pb c 0) 1 then
    match s.ev.sbs.dropWhile (fun b => b.seq % 2 ^ 40 != q) with
    | [] => (s.ev.sbs, 0, true)
    | l => (l, pq c 40 % 2 ^ 24, false)
  else
    let before := fun (b : EvSb) => b.bootSeq < pd c 24 ∨ (b.bootSeq = pd c 24 ∧ b.stamp ≤ pq c 8)
    (s.ev.sbs.drop ((s.ev.sbs.takeWhile (fun b => before b)).length - 1), 0, false)

/-- Complete an EVID_READ. -/
def evidReadDone (x : Nat × Deferred) (s : State) : State :=
  let c := x.2.call
  let st := evStart c s
  let recs := (st.1.zipIdx).flatMap (fun b =>
    (b.1.recs.filter (fun r => decide (b.2 ≠ 0 ∨ st.2.1 ≤ r.slot))).map (fun r => (b.1.seq, r)))
  let a := recs.foldl (evScan c) ⟨[], 0, 0, none⟩
  let ended := match s.ev.sbs.getLast? with | some b => (b.seq, b.used / 64) | none => (s.ev.nextSeq, 0)
  let cur := match a.stop with | some k => k | none => ended
  let fl := (if a.stop.isSome then 1 else 0) + (if st.2.2 then 2 else 0)
  endHost x (pq c 32) a.out (leBytes 4 a.n ++ leBytes 4 a.out.length ++ leBytes 8 (cur.1 % 2 ^ 40 * 2 ^ 24 + cur.2) ++
    leBytes 1 fl ++ [0#8] ++ leBytes 2 a.skipped) s

/-- Complete a LOG_READ: bit k of the KIND mask selects kind k. -/
def logReadDone (x : Nat × Deferred) (s : State) : State :=
  let c := x.2.call
  let l := (s.ev.log.filter (fun r => bit (pb c 0) r.kind && decide (pd c 4 ≤ r.bootSeq))).take (pd c 8 / 64)
  endHost x (pq c 16) (l.flatMap logBytes) (leBytes 4 l.length) s

/-- Complete an EVID_CLEAR. -/
def evidClearDone (x : Nat × Deferred) (s : State) : State :=
  endD x 0 0 [] (ringRegs { s with ev := { s.ev with sbs := [], isOpen := false } })

/-! ## The rows -/

/-- CODEWORD_READ. -/
def execCodewordRead (part : PartNo) (idx cw block : Nat) (step : Fin 9) (fixed : Nat) (uncorr : Bool) (s : State) :
    Host.Outcome State Fault Refusal :=
  .next (codewordRead part.val idx cw block step.val fixed uncorr s)

/-- NAND_PROGRAM_DONE. -/
def execNandProgramDone (part : PartNo) (block : Nat) (ok last : Bool) (s : State) : Host.Outcome State Fault Refusal :=
  .next (programDone part.val block ok last s)

/-- NAND_ERASE_DONE. -/
def execNandEraseDone (part : PartNo) (block : Nat) (ok : Bool) (s : State) : Host.Outcome State Fault Refusal :=
  .next (eraseDone part.val block ok s)

/-- PATROL_PASS: its start or its end. -/
def execPatrolPass (done : Bool) (s : State) : Host.Outcome State Fault Refusal := .next (patrolPass done s)

/-- BLOCK_REFRESH. -/
def execBlockRefresh (part : PartNo) (block : Nat) (uncorr : Bool) (s : State) : Host.Outcome State Fault Refusal :=
  .next (blockRefresh part.val block uncorr s)

/-- CAL_COMPACTION. -/
def execCalCompaction (s : State) : Host.Outcome State Fault Refusal := .next (calCompact s)

/-- ERASE_CREDIT_ACCRUE. -/
def execEraseCreditAccrue (s : State) : Host.Outcome State Fault Refusal := .next (creditAccrue s)

/-- EVIDENCE_WRITE. -/
def execEvidenceWrite (good erases : Nat) (cut : Bool) (read : Lp5Read) (s : State) : Host.Outcome State Fault Refusal :=
  .next (evidenceWrite good erases cut read.check read.addr s)

/-- LOG_PERIODIC. -/
def execLogPeriodic (s : State) : Host.Outcome State Fault Refusal := .next (logPeriodic s)

/-- FAULT_RECORD. -/
def execFaultRecord (s : State) : Host.Outcome State Fault Refusal := .next (faultRecord s)

/-- A command of the store is refused unless STATE is READY (R353). -/
def evCmd (s : State) (r : State × CmdRes) : State × CmdRes := if evRunning s then r else (s, .refuse eSTATE 0)

/-- EVID_READ. -/
def runEvidRead (_ : CmdCall) (s : State) : State × CmdRes := evCmd s (s, .defer true)

/-- EVID_READ. -/
def execEvidRead (c : CmdCall) (s : State) : Host.Outcome State Fault Refusal :=
  .next (mbRun ⟨0x1210, 0x10, false, 48, 48, false, true⟩ runEvidRead c s)

/-- LOG_READ. -/
def execLogRead (c : CmdCall) (s : State) : Host.Outcome State Fault Refusal :=
  .next (mbRun ⟨0x1211, 0x10, false, 24, 24, false, true⟩ runEvidRead c s)

/-- EV_INFO. -/
def runEvInfo (_ : CmdCall) (s : State) : State × CmdRes :=
  let q := s.ev.sbs.map (·.seq)
  evCmd s (s, .ok (leBytes 4 s.ev.good ++ leBytes 2 (fget s fEV_STAT_WEAR) ++ zeros 2 ++
    leBytes 8 (reg64 s EV_CRED_BAL_LO) ++ leBytes 8 (q.headD 0) ++ leBytes 8 (q.getLastD 0)))

/-- EV_INFO. -/
def execEvInfo (c : CmdCall) (s : State) : Host.Outcome State Fault Refusal :=
  .next (mbRun ⟨0x1212, 0x10, false, 0, 0, false, true⟩ runEvInfo c s)

/-- EVID_CLEAR. -/
def execEvidClear (c : CmdCall) (s : State) : Host.Outcome State Fault Refusal :=
  .next (mbRun ⟨0x1290, 0x10, true, 8, 8, false, true⟩ runEvidRead c s)

end Sys2Proof.Machine
end

