-- ==== Sys2Proof/Machine/Boot.lean ====
section
/-! DEFINITION. Reset, boot, Causeway service, sleep (chapter 24), the clock monitors (R439) and the sampled temperature
(R451). -/

namespace Sys2Proof.Machine

/-! ## Power-on reset (R418, R427) -/

/-- What stands on the medium outlives every reset (R9). -/
def keepMedium (e : EvSt) : EvSt :=
  { EvSt.reset with
    hdr := e.hdr, sbs := e.sbs, nextSeq := e.nextSeq, good := e.good, eraseSum := e.eraseSum
    spares := e.spares, log := e.log, bootSeq := e.bootSeq
    powerMin := e.powerMin, bandMin := e.bandMin, cal := e.cal, calGen := e.calGen, conf := e.conf
    confCopies := e.confCopies, badBlocks := e.badBlocks, slots := e.slots, nextSlot := e.nextSlot, token := e.token }

/-- The outputs while PORST_N is asserted (R427). -/
def outputsReset (s : State) : State :=
  let s1 := emit (emit (emit s (.pin "DIVERT_N" 0 false)) (.pin "ALIVE" 0 false)) (.pin "REPLACE_N" 0 true)
  let s2 := forEach (List.range 16) (fun i t => emit (emit t (.pin "HP_PWREN" i false)) (.pin "EM_OUT" i false)) s1
  let s3 := forEach (List.range 8) (fun k t => emit t (.sclk k none)) (emit s2 (.pin "LB_CLK" 0 false))
  forEach (List.range 6) (fun b t =>
    emit (emit (emit t (.pin "TW_ALERT_N" b true)) (.pin "TW_SCL" b true)) (.pin "TW_SDA" b true)) s3

/-- PORST_N is asserted: everything but the medium returns to its reset state. PERST_N is a pin of its own (R419). -/
def porst (s : State) : State :=
  outputsReset { State.reset with
    pending := s.pending, outbox := s.outbox, freeCtr := s.freeCtr, ev := keepMedium s.ev
    he := { State.reset.he with perst := s.he.perst } }

/-! ## The copies on the medium (R337, R338) -/

/-- The copy in use: of the intact copies at the highest generation, the one whose contents most of them share. -/
def chooseCopy (l : List ConfCopy) : Option ConfCopy :=
  let ok := l.filter (·.intact)
  let g := (ok.map (·.gen)).foldl max 0
  let top := ok.filter (fun c => c.gen == g)
  top.find? (fun c => decide (top.length < 2 * (top.filter (fun d => d.content == c.content)).length))

/-- What Dennil leaves of a copy when `w` has won: an intact one of an earlier generation stays, any other is written again. -/
def repaired (w c : ConfCopy) : ConfCopy := if c.intact && decide (c.gen < w.gen) then c else { w with intact := true }

/-- Write the header again on the channels where it is not the winning one (R337, R338). -/
def headerRepair (s : State) : State :=
  match chooseCopy (s.ev.hdrCopies.map (·.2)) with
  | none => s
  | some w =>
    let s1 := forEach (s.ev.hdrCopies.filter (fun x => repaired w x.2 != x.2)) (fun x t =>
      emit t (.nand 0 x.1 (mediumHeader (keyBytes s) s.ev.hdr))) s
    { s1 with ev := { s1.ev with hdrCopies := s.ev.hdrCopies.map (fun x => (x.1, repaired w x.2)) } }

/-- Write the copies of the configuration store again that are not the winning one. -/
def confRepair (s : State) : State :=
  match chooseCopy s.ev.confCopies with
  | none => s
  | some w =>
    let s1 := forEach ((List.range s.ev.confCopies.length).filter (fun i =>
        let c := s.ev.confCopies.getD i w
        repaired w c != c)) (fun i t =>
      emit t (.nand 2 i (confCopyBytes (keyBytes s) i w.gen (confBody s)))) s
    { s1 with ev := { s1.ev with confCopies := s.ev.confCopies.map (repaired w) } }

/-! ## The boot ROM (R420 to R423) -/

/-- Record a boot error. -/
def bootError (code : Nat) (s : State) : State := fset s fRS_BOOT_ERROR code

/-- A datum, header or store is refused (R338, R339). -/
def refuseDatum (code : Nat) (s : State) : State :=
  paDetect 0x20 (evt (fset (bootError code s) fEV_STAT_STATE 3) fEV_EVT_REFUSED)

/-- The straps are sampled (R420, R216, R223). -/
def sampleStraps (f : BootFound) (s : State) : State :=
  let s1 := fset (fbset (fbset s fRS_STRAP_KEYSTONE_N f.keystoneN) fRS_STRAP_SPAN_PINV f.spanPinv) fRS_STRAP_BOOT_SRC f.bootSrc.val
  let s2 := if f.spanPinv then forEach [0, 1] (fun p t => fset t fSL_PHY_CTL_TX_INV 15 (slo p)) s1 else s1
  if f.keystoneN then fset (fset s2 fSN_PIER_HOPS 0x3FF) fTB_SRV_CTL_SRC 1
  else
    let s3 := fbset (fbset s2 fSN_PIER_VALID true) fSN_PIER_KEYSTONE true
    publish (syncTime (fset (setRoute s3 0 3) fTB_SRV_CTL_SRC 0))

/-- The fuses are read (R339, R246). -/
def readFuses (f : BootFound) (s : State) : State :=
  let s1 := fset s fHE_ID_REV f.rev.toNat
  let s2 := cfgWr s1 0x08 (0x11800000 + f.rev.toNat)
  let s3 := cfgWr s2 0x2C (0x1EF7 + f.subsystem.toNat * 65536)
  let s4 := cfgWr (cfgWr s3 0x154 f.serial.toNat) 0x158 (f.serial.toNat / 2 ^ 32)
  { s4 with
    net := { s4.net with serial := f.serial.toNat % 2 ^ 32 }, mb := { s4.mb with svnMin := f.svnMin.toNat, keys := f.keys.toNat }
    ev := { s4.ev with deviceKey := f.deviceKey, profiles := f.profiles } }

/-- The receivers' self-check (R17). -/
def phyCheck (dead : Nat) (s : State) : State :=
  replaceUpdate (forEach ((List.range 16).filter (bit dead)) (fun p t =>
    paDetect (0x100 + 16 * p) (fbset t fPP_STAT_PHY_DEAD true (pof p))) s)

/-- Step 2: LP5X is trained, with all eight channels in use and its capacity known. -/
def lp5xTrain (gib : Nat) (s : State) : State :=
  if gib = 0 then bootError 2 s
  else
    let c := gib * 1024
    wrn (wrn s MM_STAT 0xFF000000) MM_CAP (c * 15 / 16 * 65536 + c)

/-- What the boot ROM finds of the medium: its parameter page, the marked blocks, the copies of the configuration store; a medium
not seen before brings its own contents. -/
def takeContents (m : Medium) (s : State) : State :=
  let e : EvSt := match m.contents with
    | none => s.ev
    | some d => { EvSt.reset with
        deviceKey := s.ev.deviceKey, profiles := s.ev.profiles, slots := d.slots, conf := d.conf, cal := d.cal
        calGen := (d.cal.map (·.gen)).foldl max 0, badBlocks := d.bad, token := d.token }
  { s with ev := { e with page := mediumPage m, marked := m.marked, confCopies := m.copies } }

/-- The credit balance becomes `n`, which is entered as granted (R345). -/
def creditStart (n : Nat) (s : State) : State := wr64 (wr64 s EV_CRED_BAL_LO n) EV_CRED_GRANTED_LO n

/-- The newest PERIODIC record restores the credit balance (R345). -/
def restoreCredit (s : State) : State :=
  match (s.ev.log.filter (fun r => r.kind = 2)).getLast? with
  | none => s
  | some r => creditStart (u64At r.data 28) s

/-- A header is in use: it tells the good EVID blocks and the spares that the bad-block table leaves (R331, R334). -/
def useHeader (h : MediumHdr) (s : State) : State :=
  let t := mediumTargets h
  let left := fun (p : Partition) => p.spare - badIn t p s.ev.badBlocks
  let good := fun (p : Partition) => p.count * t - badIn t p s.ev.badBlocks
  let s1 : State := { s with ev := { s.ev with
    hdr := h, good := ((h.parts.find? (fun p => p.type == 5)).map good).getD 0
    spares := [1, 2, 3, 4].map (fun k => ((h.parts.find? (fun p => p.type == k)).map left).getD 0) } }
  let s2 := fset s1 fEV_STAT_STATE 2
  wrn s2 EV_CRED_RATE (credRate s2)

/-- The header copies found, each as a copy whose contents are numbered by the first that is identical. -/
def headerCopies (key : List Byte) (l : List (Nat × List Byte)) : List (Nat × ConfCopy) :=
  l.map (fun x => (x.1, ⟨((readHeader key x.2).map (·.gen)).getD 0, (readHeader key x.2).isSome, l.findIdx (fun y => y.2 == x.2)⟩))

/-- Step 3: the medium is identified, its header and the configuration store are chosen. -/
def mediumBoot (m : Medium) (s : State) : State :=
  if !mediumUsable m then bootError 3 s
  else
    let s1 := takeContents m (wrn s EV_MEDIUM (mediumWord m))
    let key := keyBytes s
    let copies := headerCopies key m.headers
    if m.headers = [] then fset s1 fEV_STAT_STATE 1
    else
      let won := (chooseCopy (copies.map (·.2))).bind (fun w => readHeader key ((m.headers.map (·.2)).getD w.content []))
      match won, chooseCopy m.copies with
      | some h, some _ =>
        let s2 := useHeader h { s1 with ev := { s1.ev with hdrCopies := copies } }
        wearUpdate (ringRegs (restoreCredit (fset s2 fMB_FW_SLOT_NEXT s2.ev.nextSlot)))
      | _, _ => refuseDatum 4 s1

/-- Causeway service comes up; the Span ports whose EN is set enter DETECT on one lane (R217, R424). -/
def causewayStart (s : State) : State :=
  let s1 : State := { s with rs := { s.rs with causewayUp := true } }
  forEach [0, 1] (fun p t => if fbit t fSL_CTL_EN (slo p) then portEnable p true 0 t else t) s1

/-- The slots in the order in which they are tried (R422). -/
def slotOrder (s : State) : List Nat :=
  if fget s fRS_STRAP_BOOT_SRC = 2 then [2]
  else match s.ev.nextSlot with
    | 0 => [0, 1, 2]
    | 1 => [1, 0, 2]
    | _ => [2, 0, 1]

/-- Start the first slot of a list that holds a valid image; the rest stays to be tried. -/
def startFrom (signed : Nat) (l : List Nat) (s : State) : State :=
  match l with
  | [] => bootError 6 { s with rs := { s.rs with toTry := [] } }
  | i :: rest =>
    let f := fwSlot s i
    if f.st = 1 ∧ imageValid s f.img (bit signed i) = true then
      let s1 : State := { s with rs := { s.rs with toTry := rest } }
      startImage i f (fset s1 fRS_BOOT_TRIED ((fget s1 fRS_BOOT_TRIED).lor (2 ^ i)))
    else startFrom signed rest s

/-- Step 5: with the host boot source the boot ROM waits for FW_LOAD. -/
def selectImage (signed : Nat) (s : State) : State :=
  if fget s fRS_STRAP_BOOT_SRC = 1 then bootError 7 s else startFrom signed (slotOrder s) s

/-- PORST_N or the internal reset is released (R421). -/
def release (f : BootFound) (s0 : State) : State :=
  if !s0.rs.held then s0
  else
    let s := phyCheck f.phyDead.toNat (sampleStraps f (idleBuses { s0 with rs := { s0.rs with held := false } }))
    if !f.trimOk then causewayStart (refuseDatum 1 s)
    else
      let s1 := mediumBoot f.medium (lp5xTrain f.lp5xGiB (readFuses f s))
      let medium := mediumUsable f.medium && fget s1 fEV_STAT_STATE != 3
      let lp5x := f.lp5xGiB != 0
      let s2 : State := { s1 with rs := { s1.rs with mediumOk := medium && fget s1 fEV_STAT_STATE == 2 } }
      let s3 := causewayStart (if lp5x && s2.rs.mediumOk && f.imageOk then imageCopy s2 else s2)
      if lp5x && (medium || f.bootSrc.val == 1) then selectImage f.signed.toNat s3 else s3

/-! ## Steward restart (R428) -/

/-- A channel closes because the steward restarts: queued completions and events are discarded. -/
def channelDrop (c : Nat) (s : State) : State :=
  let s1 := updChan (slotsOrphan c s) c (fun _ => freshChan)
  if chState s c = 0 then s1 else evt (fset s1 fMB_STAT_STATE 0 (mbo c)) fMB_EVT_CLOSED (mbo c)

/-- The steward restarts and selects its image again from the given slots. -/
def stewardRestart (signed : Nat) (slots : Option (List Nat)) (s : State) : State :=
  let s1 := cnt (forEach (List.range 4) channelDrop (forEach (List.range 32) (leaseEnd lrCHANNEL) s)) RS_CNT_RESTART
  let s2 := wdogSuspend (fset (wrn s1 MB_DENNIL_STAT 0) fRS_BOOT_BOOTED 3)
  helloOnChange s (match slots with
    | some l => startFrom signed l (bootError 5 s2)
    | none => selectImage signed s2)

/-- A started image has not reached running within 2 s (R422, R428). -/
def startTimeout (signed : Nat) (s : State) : State :=
  if fget s fMB_DENNIL_STAT_STATE ≠ 1 then s
  else
    let s1 := if rdn s RS_CNT_RESTART = 0 then s else paDetect 2 s
    stewardRestart signed (some s1.rs.toTry) s1

/-! ## Dennil running and full service (R426) -/

/-- An unformatted medium is formatted once (R334): the blocks with the factory marker go into the bad-block table, the header onto
every populated channel, the empty configuration store into its copies, and one hour of accrual is granted (R331 to R345). -/
def formatMedium (s : State) : State :=
  if fget s fEV_STAT_STATE ≠ 1 then s
  else
    let p := s.ev.page
    let h := formatHeader (rdn s EV_MEDIUM) p (s.ev.profiles.find? (fun x => x.maker == p.maker && x.model == p.model))
    let chs := (List.range 4).filter (bit h.chMask)
    let key := keyBytes s
    let s1 : State := { s with ev := { EvSt.reset with
      page := p, marked := s.ev.marked, deviceKey := s.ev.deviceKey, profiles := s.ev.profiles, badBlocks := s.ev.marked
      hdrCopies := chs.map (fun c => (c, ⟨1, true, 0⟩)), confCopies := List.replicate 3 ⟨1, true, 0⟩ } }
    let s2 := forEach chs (fun c t => emit t (.nand 0 c (mediumHeader key h))) (useHeader h s1)
    let s3 := forEach [0, 1, 2] (fun i t => emit t (.nand 2 i (confCopyBytes key i 1 (confBody s2)))) s2
    wearUpdate (ringRegs (creditStart (3600000 * credRate s3) s3))

/-- The BOOT record of the lifetime log, with which BOOT_SEQ increments (R351). -/
def bootRecord (s : State) : State :=
  if !evRunning s then s
  else
    let s0 := confRepair (headerRepair s)
    let s1 : State := { s0 with ev := { s0.ev with bootSeq := s.ev.bootSeq + 1 } }
    logWrite s1 1 (leBytes 1 (fget s fRS_BOOT_BOOTED) ++ leBytes 4 s.rs.release ++ leBytes 1 (fget s fRS_BOOT_ERROR))

/-- Step 3 of R426 and the end of R217: the time profile, the configured masks, and a full retrain of both ports. -/
def timeSetup (s : State) : State :=
  let words := fun (func : Nat) (t : State) => ((findProfile t func 0).map (·.writes)).getD []
  let s1 := forEach (words 0x0B s) (fun w t => tbPut w.1 w.2 t) s
  let s2 := putWords (words 0x0C s1) s1
  let s3 := forEach [0, 1] (fun p t => fullBringUp p (fbset t fSL_CTL_FULL true (slo p))) s2
  { s3 with rs := { s3.rs with step := 3 } }

/-- Steps 1 to 4 of R426, where a restarted Dennil skips those that already hold (R428): step 2 once MM_RSV_BASE is committed, and
steps 3 and 4 once they were reached and TB1 is locked. A step 2 that fails ends the bring-up. -/
def takeOver (s : State) : State :=
  match memSetup s with
  | none => { s with rs := { s.rs with step := 1 } }
  | some t => if 3 ≤ t.rs.step ∧ t1Locked t then bringUpAlign t else bringUpAlign (timeSetup t)

/-- Dennil writes MB_DENNIL_STAT to running. -/
def dennilRunning (s : State) : State :=
  if fget s fMB_DENNIL_STAT_STATE ≠ 1 then s
  else helloOnChange s (takeOver (wdogKick (bootRecord (formatMedium (fset s fMB_DENNIL_STAT_STATE 2)))))

/-- Step 6: the buses of a mask are enabled, the watchdog starts, DIVERT_N is released; the steps before it have been reached. -/
def fullService (buses : Nat) (s : State) : State :=
  if !dennilUp s || !t1Locked s || safeState s || decide (s.rs.step < 4) then s
  else
    let s1 := forEach ((List.range 4).filter (bit buses)) (fun b t => busEnable b true t) s
    holdWrite false (wdogEnable { s1 with rs := { s1.rs with step := 6 } })

/-! ## Sleep (R429) -/

/-- The completion of a command that stops the steward is written before it stops: to the ring, or at once on the Span. -/
def completeNow (opcode : Nat) (c : CmdCall) (s : State) : State :=
  let s1 := completeFor opcode c 0 0 [] s
  match c.origin with
  | none => forEach (chan s1 c.chan.val).cpls (fun _ t => completionWrite c.chan.val t) s1
  | some _ =>
    let q := fun (t : State) (p : Nat) => (netPort t p).txLocal.getD 0 []
    forEach [0, 1] (fun p t => forEach ((q s1 p).drop (q s p).length) (fun x u => emit u (.spanPkt p (pktBytes x.pkt) false)) t) s1

/-- What SLEEP stops and WAKE enables again: Span ports 0 and 1, buses 16 to 19. -/
def sleepers (s : State) : List Nat :=
  (([0, 1] : List Nat).filter (fun p => fbit s fSL_CTL_EN (slo p))) ++
    ((List.range 4).filter (fun b => fbit s fAC_BUS_CTL_EN (buo b))).map (· + 16)

/-- SLEEP: the unit must be idle and no lease held. -/
def runSleep (c : CmdCall) (s : State) : State × CmdRes :=
  if !unitIdle s || (List.range 32).any (leaseHeld s) then (s, .refuse eSTATE 0)
  else
    let s0 := completeNow 0x1812 c s
    let l := sleepers s0
    let s1 := holdWrite true { s0 with rs := { s0.rs with
      asleep := true, wakeReq := false, holdBefore := fbit s0 fPA_DIVERT_HOLD, slept := l } }
    let s2 := forEach l (fun x t =>
      if x < 16 then withCut x (portEnable x false) t
      else updBus (fbset t fAC_BUS_CTL_EN false (buo (x - 16))) (x - 16) (fun b => { b with wire := .idle })) s1
    (cnt (fbset s2 fEV_STAT_PATROL false) RS_CNT_SLEEP, .silent)

/-- The unit wakes (R429). With no Span to wait for and TB1 locked, HOLD clears at once if it was clear before. -/
def wake (s : State) : State :=
  if !(s.rs.asleep && s.rs.wakeReq) then s
  else
    let s1 := wdogKick { s with rs := { s.rs with asleep := false, wakeReq := false, slept := [] } }
    let s2 := forEach (List.range 4) mbFetch (forEach s.rs.slept (fun x t =>
      if x < 16 then portEnable x true 0 t else busEnable (x - 16) true t) (fbset s1 fRS_CAUSE_WAKE true))
    if !s.rs.holdBefore && t1Locked s2 && s.rs.slept.all (fun x => decide (16 ≤ x)) then holdWrite false s2 else s2

/-! ## Commands (R430) -/

/-- BOOT_INFO. -/
def runBootInfo (_ : CmdCall) (s : State) : State × CmdRes :=
  (s, .ok (leBytes 4 (rdn s RS_BOOT) ++ leBytes 4 (rdn s RS_STRAP) ++ leBytes 4 (rdn s RS_CAUSE) ++ leBytes 1 s.rs.step))

/-- STEWARD_RESTART; `nums` names the slots whose signatures verify. -/
def runStewardRestart (c : CmdCall) (s : State) : State × CmdRes :=
  if deferredAll s ≠ [] then (s, .refuse eSTATE 0)
  else (stewardRestart (numAt c 0).toNat none (completeNow 0x1811 c s), .silent)

/-- UNIT_RESET: the internal reset is held. -/
def runUnitReset (_ : CmdCall) (s : State) : State × CmdRes :=
  (wrn (porst s) RS_CAUSE 2, .silent)

/-! ## CAPTURE (R425) -/

/-- The registers that a capture sets up on its port: area mode, lanes, type, geometry. -/
def captureRegs (p a0 a1 : Nat) (s : State) : State :=
  let o := pof p
  let s1 := fset (fset (fbset s fPP_CTL_MODE false o) fPP_CTL_LANES (bits a0 3 2) o) fPP_CTL_DT_PIPE (bits a0 13 8) o
  wrn s1 (PP_GEOM + o) (a1 % 2 ^ 31)

/-- STOP: the port is disabled and its slot powered off. -/
def captureStop (p : Nat) (s : State) : State :=
  let s1 := fbset (slotPower p false (portOff p s)) fPP_SCLK_EN false (pof p)
  { s1 with mb := { s1.mb with caps := s1.mb.caps.filter (fun k => k.port != p) } }

/-- Start: the slot is powered, its clock runs at 24 MHz, the port is enabled. -/
def captureStart (p : Nat) (k : Capture) (s : State) : State :=
  let s1 : State := { s with mb := { s.mb with caps := k :: s.mb.caps.filter (fun x => x.port != p) } }
  let s2 := wrn s1 (PP_SCLK + pof p) (3 * 2 ^ 30 + 72 * 65536)
  portOn p (slotPower p true (if ppSlot s2 p = 0 then presenceOn p s2 else s2))

/-- CAPTURE on the Causeway mailbox. -/
def capture (s : State) : State :=
  if !cwServes s then s
  else
    let a0 := cwArg s 0
    let p := a0 % 2
    let w := bits (cwArg s 1) 30 16
    let h := bits (cwArg s 1) 15 0
    let size := w * ((h + 3) / 4)
    if !causeway s then cwDone 4 eSTATE [] s
    else if bit a0 1 then cwDone 4 0 [] (captureStop p s)
    else
      let t := captureRegs p a0 (cwArg s 1) (portOff p s)
      if !portValid t p || decide (cwArg s 3 < size) || cwArg s 2 % 4096 != 0 then cwDone 4 eRANGE [] s
      else cwDone 4 0 [size] (captureStart p ⟨p, w, h, cwArg s 2, size, cwArg s 3 / size⟩ t)

/-! ## Clocks (R439) -/

/-- A clock is lost: 0 XO_25M, 1 SPAN_REFCLK, 2 REFCLK100. -/
def clockLoss (k : Nat) (s : State) : State :=
  let s1 := monitorTrip (0x1A + k) s
  match k with
  | 1 => withCut 1 (linkDown 1) (withCut 0 (linkDown 0) s1)
  | 2 => linkReset s1
  | _ => s1

/-! ## The rows -/

/-- POWER_ON_RESET. -/
def execPowerOnReset (s : State) : Host.Outcome State Fault Refusal := .next (porst s)

/-- POWER_ON_RESET_RELEASE: PORST_N or the internal reset is released; `found` is what the boot ROM finds. -/
def execPowerOnResetRelease (found : BootFound) (s : State) : Host.Outcome State Fault Refusal := .next (release found s)

/-- FIRMWARE_START_TIMEOUT; `signed` names the slots whose signatures verify. -/
def execFirmwareStartTimeout (signed : BitVec 3) (s : State) : Host.Outcome State Fault Refusal :=
  .next (startTimeout signed.toNat s)

/-- DENNIL_RUNNING. -/
def execDennilRunning (s : State) : Host.Outcome State Fault Refusal := .next (dennilRunning s)

/-- FULL_SERVICE_ENTRY; `buses` are the valve buses of the ejection profile. -/
def execFullServiceEntry (buses : BitVec 4) (s : State) : Host.Outcome State Fault Refusal :=
  .next (fullService buses.toNat s)

/-- AON_BROWNOUT. -/
def execAonBrownout (s : State) : Host.Outcome State Fault Refusal := .next (porst s)

/-- UNIT_RESET. -/
def execUnitReset (c : CmdCall) (s : State) : Host.Outcome State Fault Refusal :=
  .next (mbRun ⟨0x1813, 0x10, true, 8, 8, false, true⟩ runUnitReset c s)

/-- STEWARD_RESTART. -/
def execStewardRestart (c : CmdCall) (s : State) : Host.Outcome State Fault Refusal :=
  .next (mbRun ⟨0x1811, 0x10, false, 8, 8, false, true⟩ runStewardRestart c s)

/-- SLEEP. -/
def execSleep (c : CmdCall) (s : State) : Host.Outcome State Fault Refusal :=
  .next (mbRun ⟨0x1812, 0x13, false, 8, 8, false, true⟩ runSleep c s)

/-- WAKE. -/
def execWake (s : State) : Host.Outcome State Fault Refusal := .next (wake s)

/-- BOOT_INFO. -/
def execBootInfo (c : CmdCall) (s : State) : Host.Outcome State Fault Refusal :=
  .next (mbRun ⟨0x1810, 0x10, false, 0, 0, false, true⟩ runBootInfo c s)

/-- CAPTURE: GO with opcode 0004h. -/
def execCapture (s : State) : Host.Outcome State Fault Refusal := .next (capture s)

/-- CLOCK_LOSS: XO_25M, SPAN_REFCLK or REFCLK100. -/
def execClockLoss (clock : Fin 3) (s : State) : Host.Outcome State Fault Refusal := .next (clockLoss clock.val s)

/-- PERST_N_RELEASE. -/
def execPerstNRelease (s : State) : Host.Outcome State Fault Refusal :=
  .next { s with he := { s.he with perst := true } }

/-- TJ_SAMPLE: Tj in 1/16 °C, once a minute. -/
def execTjSample (tj : BitVec 16) (s : State) : Host.Outcome State Fault Refusal :=
  let s1 := fset s fPA_THERM_TJ tj.toNat
  .next (if evRunning s ∧ dennilUp s then
      { s1 with ev := { s1.ev with bandMin := upd s1.ev.bandMin (tjBand tj.toInt) (· + 1) } }
    else s1)

end Sys2Proof.Machine
end

