-- ==== Sys2Proof/Machine/Matrix.lean ====
section
/-! DEFINITION. The event matrix (chapter 20): inputs, cells, outputs, software firings, the storm guard and the commands. -/

namespace Sys2Proof.Machine

/-! ## Outputs (R382) -/

/-- The output level F of cell `k`. -/
def cellF (s : State) (k : Nat) : Bool := fbit s fEM_CELL_STAT_F (k * 0x10)

/-- The outputs that follow a cell take its F. -/
def outFollow (k : Nat) (s : State) : State :=
  forEach (List.range 16) (fun i t =>
    let o := i * 8
    if fbit t fEM_OUT_CFG_EN o ∧ fget t fEM_OUT_CFG_MODE o = 2 ∧ fget t fEM_OUT_CFG_CELL o = k ∧
        fbit t fEM_OUT_STAT_ACTIVE o ≠ cellF t k then emDrive i (cellF t k) t
    else t) s

/-- An output after a write of its configuration: inactive while EN = 0, at F of its cell in MODE 10b. -/
def outConfigured (i : Nat) (s : State) : State :=
  let o := i * 8
  if !fbit s fEM_OUT_CFG_EN o then emDrive i false (fbset s fEM_OUT_STAT_BUSY false o)
  else if fget s fEM_OUT_CFG_MODE o = 2 then emDrive i (cellF s (fget s fEM_OUT_CFG_CELL o)) s
  else emDrive i (fbit s fEM_OUT_STAT_ACTIVE o) s

/-- A pulse ends. -/
def outPulseEnd (i : Nat) (s : State) : State :=
  if fbit s fEM_OUT_STAT_BUSY (i * 8) then emDrive i false (fbset s fEM_OUT_STAT_BUSY false (i * 8)) else s

/-! ## Inputs (R380) -/

/-- The filtered level of EM_IN[k] follows its ball; the selected edges fire producer `k`. -/
def inputEdge (k : Nat) (ball : Bool) (s : State) : State :=
  let o := k * 4
  let lv := ball != fbit s fEM_IN_CFG_POL o
  if bit (rdn s EM_IN_LEVEL) k = lv then s
  else
    let s1 := regBit s EM_IN_LEVEL k lv
    if fbit s fEM_IN_CFG_EN o && bit (fget s fEM_IN_CFG_EDGE o) (if lv then 0 else 1) then emFire k s1 else s1

/-! ## Cells (R381) -/

/-- The level that LSEL selects. -/
def cellLevel (s : State) (l : Nat) : Bool :=
  if l < 0x10 then bit (rdn s EM_IN_LEVEL) l
  else if l < 0x30 then cellF s (l - 0x10)
  else bit (fget s fAB_SB_LEVEL_V) (l - 0x30)

/-- Input `j` of cell `k`: a level, or an event of this cycle. -/
def cellInput (s : State) (k : Nat) (events : Bool) (j : Nat) : Bool :=
  let sel := bits (rdn s (EM_CELL_IN + k * 0x10)) (8 * j + 7) (8 * j)
  if bit sel 7 then cellLevel s (sel % 64) else events && bit (cellEvents s k) j

/-- V after one evaluation. -/
def cellNext (s : State) (k : Nat) (events v : Bool) : Bool :=
  let b := fun j => if cellInput s k events j then 2 ^ j else 0
  let idx := b 0 + b 1 + b 2 + b 3
  let lut := fget s fEM_CELL_CTL_LUT (k * 0x10)
  match fget s fEM_CELL_CTL_FF (k * 0x10) with
  | 1 => if bit lut idx then !v else v
  | 2 => if 8 ≤ idx then false else if bit lut idx then true else v
  | _ => bit lut idx

/-- One evaluation of cell `k` with the events that wait at its inputs, after which F follows V when FILT asks for no more than
this cycle or V goes on holding its value, and the producer fires as EDGE selects. -/
def cellEval (k : Nat) (s : State) : State :=
  let o := k * 0x10
  if !fbit s fEM_CELL_CTL_EN o then s
  else
    let v := cellNext s k true (fbit s fEM_CELL_STAT_V o)
    let was := cellF s k
    let held := decide (fget s fEM_CELL_CTL_FILT o ≤ 1) || cellNext s k false v == v
    let f := if held then v else was
    let s1 := { s with em := { s.em with cellEv := smPut s.em.cellEv k 0 0 } }
    let s2 := outFollow k (fbset (fbset s1 fEM_CELL_STAT_V v o) fEM_CELL_STAT_F f o)
    let go := match fget s fEM_CELL_CTL_EDGE o with
      | 0 => f
      | 1 => f && !was
      | 2 => !f && was
      | _ => f != was
    if go then emFire (0x10 + k) s2 else s2

/-- V and F of a cell are 0, without firing. -/
def cellClear (k : Nat) (s : State) : State :=
  outFollow k (wrn s (EM_CELL_STAT + k * 0x10) 0)

/-- A write of EM_CELL_CTL. -/
def cellCtl (k v : Nat) (s : State) : State :=
  let s1 := putWord (EM_CELL_CTL + k * 0x10) v s
  let s2 := if bit v 26 then cellClear k s1 else s1
  if bit v 31 then s2
  else outFollow k (fbset { s2 with em := { s2.em with cellEv := smPut s2.em.cellEv k 0 0 } }
    fEM_CELL_STAT_F false (k * 0x10))

/-! ## Storm guard (R383) -/

/-- A producer has fired more than COUNT times in the window. -/
def stormTrip (p : Nat) (s : State) : State :=
  if !fbit s fEM_GUARD_EN || emTripped s p || decide (emFirings s p ≤ max 1 (fget s fEM_GUARD_COUNT)) then s
  else paDetect 0x52 (evtCnt (regBit s (EM_TRIP + p / 32 * 4) (p % 32) true) fEM_EVT_STORM EM_CNT_TRIP)

/-- A write of EM_TRIP: 1 restores a tripped producer. -/
def tripClear (w m : Nat) (s : State) : State :=
  let a := EM_TRIP + 4 * w
  wrn s a ((rdn s a).lor m - m)

/-- A write of EM_IN_CFG[k]: a change of POL inverts the level of a ball that stays (R380). -/
def inputConfigured (k v : Nat) (s : State) : State :=
  let ball := bit (rdn s EM_IN_LEVEL) k != fbit s fEM_IN_CFG_POL (k * 4)
  inputEdge k ball (putWord (EM_IN_CFG + k * 4) v s)

/-- The words that EM_LOAD_PROFILE takes from CONF: the guard, inputs, cells, outputs and routes (R385). -/
def inEm (w : Nat × Nat) : Bool :=
  w.1 == EM_GUARD || decide (EM_IN_CFG ≤ w.1 ∧ w.1 < EM_IN_CFG + 0x40) ||
    decide (EM_CELL_IN ≤ w.1 ∧ w.1 < EM_CELL_IN + 0x200) || decide (EM_OUT_CFG ≤ w.1 ∧ w.1 < EM_OUT_CFG + 0x80) ||
    decide (EM_ROUTE ≤ w.1 ∧ w.1 < EM_ROUTE + 0x2000)

/-- A write of one word of the EM block. -/
def emPut (a v : Nat) (s : State) : State :=
  if a = EM_FIRE then (if bit v 31 then emFire (v % 256) s else s)
  else if EM_TRIP ≤ a ∧ a < EM_TRIP + 32 then tripClear ((a - EM_TRIP) / 4) v s
  else if EM_CELL_IN ≤ a ∧ a < EM_CELL_IN + 0x200 ∧ a % 16 = 4 then cellCtl ((a - EM_CELL_IN) / 16) v s
  else if EM_OUT_CFG ≤ a ∧ a < EM_OUT_CFG + 0x80 ∧ a % 8 = 0 then outConfigured ((a - EM_OUT_CFG) / 8) (putWord a v s)
  else if EM_IN_CFG ≤ a ∧ a < EM_IN_CFG + 0x40 then inputConfigured ((a - EM_IN_CFG) / 4) v s
  else putWord a v s

/-! ## Commands (R385) -/

/-- EM_LOAD_PROFILE. -/
def runEmLoadProfile (c : CmdCall) (s : State) : State × CmdRes :=
  match findProfile s 0x14 (pb c 0) with
  | none => (s, .refuse eRANGE 0)
  | some p => (fbset (forEach (p.writes.filter inEm) (fun w t => emPut w.1 w.2 t) s) fEM_CTL_EN true, .ok [])

/-- EM_FIRE. -/
def runEmFire (c : CmdCall) (s : State) : State × CmdRes :=
  if 0x50 ≤ pb c 0 ∧ pb c 0 ≤ 0x5F then (emFire (pb c 0) s, .ok []) else (s, .refuse eRANGE 0)

/-- EM_ROUTE_LOAD; `data` holds the images. -/
def runEmRouteLoad (c : CmdCall) (s : State) : State × CmdRes :=
  let first := pb c 0
  let n := pb c 1
  if n < 1 ∨ 64 < n then (s, .refuse eRANGE 1)
  else if 256 < first + n then (s, .refuse eRANGE 0)
  else if !hostCanRead c s then (s, .waits)
  else (forEach (List.range n) (fun i t => forEach (List.range 6) (fun w u =>
    wrn u (EM_ROUTE + (first + i) * 0x20 + 4 * w) (u32At c.data (24 * i + 4 * w))) t) (hostRead c (pq c 8) (24 * n) s), .ok [])

/-! ## The rows -/

/-- EM_INPUT_EDGE; `ball` is the level of the ball after the filter. -/
def execEmInputEdge (inp : Fin 16) (ball : Bool) (s : State) : Host.Outcome State Fault Refusal :=
  .next (inputEdge inp.val ball s)

/-- EM_OUT_PULSE_END. -/
def execEmOutPulseEnd (out : Fin 16) (s : State) : Host.Outcome State Fault Refusal := .next (outPulseEnd out.val s)

/-- EM_FIRE_WRITE. The fields are WO, so a write without a lease is discarded and not counted (R268). -/
def execEmFireWrite (ag : Agent) (producer : Fin 256) (s : State) : Host.Outcome State Fault Refusal :=
  .next (gated ag 0x14 none false (emPut EM_FIRE (2 ^ 31 + producer.val)) s)

/-- STORM_TRIP. -/
def execStormTrip (producer : Fin 256) (s : State) : Host.Outcome State Fault Refusal := .next (stormTrip producer.val s)

/-- EM_TRIP_CLEAR. -/
def execEmTripClear (ag : Agent) (word : Fin 8) (mask : Word) (s : State) : Host.Outcome State Fault Refusal :=
  .next (gated ag 0x14 none (mask != 0) (tripClear word.val mask.toNat) s)

/-- CELL_CLEAR. -/
def execCellClear (ag : Agent) (cell : Fin 32) (s : State) : Host.Outcome State Fault Refusal :=
  .next (gated ag 0x14 none true (cellClear cell.val) s)

/-- CELL_FIRE: one evaluation of a cell. -/
def execCellFire (cell : Fin 32) (s : State) : Host.Outcome State Fault Refusal := .next (cellEval cell.val s)

/-- EM_LOAD_PROFILE. -/
def execEmLoadProfile (c : CmdCall) (s : State) : Host.Outcome State Fault Refusal :=
  .next (mbRun ⟨0x1410, 0x10, false, 8, 8, false, true⟩ runEmLoadProfile c s)

/-- EM_FIRE. -/
def execEmFire (c : CmdCall) (s : State) : Host.Outcome State Fault Refusal :=
  .next (mbRun ⟨0x1411, 0x10, false, 8, 8, false, true⟩ runEmFire c s)

/-- EM_ROUTE_LOAD. -/
def execEmRouteLoad (c : CmdCall) (s : State) : Host.Outcome State Fault Refusal :=
  .next (mbRun ⟨0x1490, 0x10, true, 16, 16, false, true⟩ runEmRouteLoad c s)

end Sys2Proof.Machine
end

