-- ==== Sys2Proof/Machine/Commands.lean ====
section
/-! DEFINITION. The executor (R275 to R279): entries taken from the rings and dispatched by opcode, deferred commands that
end, closing a channel, CMD_ABORT, Dennil messages, and Bus Master Enable set again (R282). -/

namespace Sys2Proof.Machine

/-- The next state of a meaning. -/
def nextIn (s : State) (o : Host.Outcome State Fault Refusal) : State := match o with | .next t => t | _ => s

/-! ## Closing a channel (R281, MB_CTL.CLOSE) -/

/-- A deferred command ends E_ABORTED because its channel closes; one that cannot stop runs on without a completion. -/
def deferredClose (x : Nat × Deferred) (s : State) : State :=
  if x.2.canStop then abortEffect x.2 (endD x eABORTED 0 [] s)
  else deferredOrphan x (completeFor x.2.opcode x.2.call eABORTED 0 [] s)

/-- A write of MB_CTL.CLOSE. -/
def mbClose (c : Nat) (s : State) : State :=
  match chState s c with
  | 0 => s
  | 4 => s
  | 2 =>
    let s1 := mbForget c (forEach ((deferredAll s).filter (fun x => x.1 == c)) deferredClose s)
    let s2 := slotsOrphan c (forEach (leasesOf s1 c) (leaseEnd lrCHANNEL) s1)
    closeDone c (fset s2 fMB_STAT_STATE 4 (mbo c))
  | _ => evt (fset s fMB_STAT_STATE 0 (mbo c)) fMB_EVT_CLOSED (mbo c)

/-- CHANNEL_CLOSE: the completion goes before the close. -/
def runChannelClose (c : CmdCall) (s : State) : State × CmdRes :=
  let s1 := completeFor 0x0F11 c 0 0 [] s
  (match c.origin with | none => mbClose c.chan.val s1 | some _ => s1, .silent)

/-- CHANNEL_CLOSE. -/
def execChannelClose (c : CmdCall) (s : State) : Host.Outcome State Fault Refusal :=
  .next (mbRun ⟨0x0F11, 0x10, false, 0, 0, false, true⟩ runChannelClose c s)

/-! ## CMD_ABORT (R279) -/

/-- The deferred command that a CMD_ABORT names. -/
def abortTarget (c : CmdCall) (s : State) : Option (Nat × Deferred) :=
  (deferredAll s).find? (fun x => x.2.call.tag == pd c 0 && x.1 == cmdChan c && x.2.call.chan == c.chan &&
    x.2.call.origin == c.origin)

/-- CMD_ABORT. -/
def runCmdAbort (c : CmdCall) (s : State) : State × CmdRes :=
  match abortTarget c s with
  | none => (s, .refuse eSTATE 0)
  | some x =>
    if x.2.canStop then (abortEffect x.2 (endD x eABORTED 0 [] s), .ok []) else (s, .refuse eSTATE 0)

/-- CMD_ABORT. -/
def execCmdAbort (c : CmdCall) (s : State) : Host.Outcome State Fault Refusal :=
  .next (mbRun ⟨0x0F15, 0x15, false, 8, 8, false, true⟩ runCmdAbort c s)

/-! ## Dispatch by opcode -/

/-- A command whose opcode no function defines (step 2 of R275). -/
def runUnknown (opcode : Nat) (c : CmdCall) (s0 : State) : State :=
  match c.origin with
  | some _ => if dennilUp s0 then completeFor opcode c eOPCODE 0 [] s0 else s0
  | none =>
    if !mbGate c s0 then s0
    else complete c.chan.val opcode ((checkForm c).getD eOPCODE) c.tag 0 [] (mbTake c s0)

/-- Run the command of an opcode. -/
def runOpcode (opcode : Nat) (c : CmdCall) (s : State) : State :=
  match opcode with
  | 0x0210 => nextIn s (execSensorProfileLoad c s)
  | 0x0211 => nextIn s (execPortStop c s)
  | 0x0212 => nextIn s (execPortPower c s)
  | 0x0310 => nextIn s (execSettingForFrame c s)
  | 0x0311 => nextIn s (execSettingCancel c s)
  | 0x0390 => nextIn s (execSettingRawForFrame c s)
  | 0x0391 => nextIn s (execLatencyProfileSet c s)
  | 0x0410 => nextIn s (execCorrLoadCal c s)
  | 0x0411 => nextIn s (execCorrSetMode c s)
  | 0x0490 => nextIn s (execCorrTableLoad c s)
  | 0x0491 => nextIn s (execCorrBankSwap c s)
  | 0x0492 => nextIn s (execCorrParams c s)
  | 0x0510 => nextIn s (execTapStart c s)
  | 0x0511 => nextIn s (execTapStop c s)
  | 0x0512 => nextIn s (execColourLoadCal c s)
  | 0x0590 => nextIn s (execColourParams c s)
  | 0x0610 => nextIn s (execStatStart c s)
  | 0x0611 => nextIn s (execStatStop c s)
  | 0x0690 => nextIn s (execStatParams c s)
  | 0x0710 => nextIn s (execSegLearnBg c s)
  | 0x0711 => nextIn s (execSegLoadProfile c s)
  | 0x0790 => nextIn s (execSegParams c s)
  | 0x0791 => nextIn s (execSegTableLoad c s)
  | 0x0810 => nextIn s (execViewLoadCal c s)
  | 0x0811 => nextIn s (execViewCalRun c s)
  | 0x0890 => nextIn s (execViewParams c s)
  | 0x0891 => nextIn s (execViewTableLoad c s)
  | 0x0A10 => nextIn s (execEjectLoadCal c s)
  | 0x0A11 => nextIn s (execEjectCalRun c s)
  | 0x0A90 => nextIn s (execEjectTest c s)
  | 0x0B10 => nextIn s (execTimeLoadProfile c s)
  | 0x0B11 => nextIn s (execTimeAlign c s)
  | 0x0B90 => nextIn s (execTimeStep c s)
  | 0x0C10 => nextIn s (execSpanLinkRetrain c s)
  | 0x0C11 => nextIn s (execSpanEyeScan c s)
  | 0x0C90 => nextIn s (execSpanLaneParams c s)
  | 0x0D10 => nextIn s (execSpanChainRead c s)
  | 0x0D11 => nextIn s (execSpanReenumerate c s)
  | 0x0D12 => nextIn s (execSpanSetHost c s)
  | 0x0D90 => nextIn s (execSpanCreditParams c s)
  | 0x0F10 => nextIn s (execInfo c s)
  | 0x0F11 => nextIn s (execChannelClose c s)
  | 0x0F12 => nextIn s (execExpertTokenSet c s)
  | 0x0F13 => nextIn s (execFwWrite c s)
  | 0x0F14 => nextIn s (execFwActivate c s)
  | 0x0F15 => nextIn s (execCmdAbort c s)
  | 0x0F16 => nextIn s (execEventMask c s)
  | 0x0F90 => nextIn s (execLeaseOpen c s)
  | 0x0F91 => nextIn s (execLeaseClose c s)
  | 0x0F92 => nextIn s (execLeaseRenew c s)
  | 0x1010 => nextIn s (execTwLoadProfile c s)
  | 0x1011 => nextIn s (execTwTgtResp c s)
  | 0x1090 => nextIn s (execTwXfer c s)
  | 0x1110 => nextIn s (execAbLoadProfile c s)
  | 0x1190 => nextIn s (execAbParams c s)
  | 0x1210 => nextIn s (execEvidRead c s)
  | 0x1211 => nextIn s (execLogRead c s)
  | 0x1212 => nextIn s (execEvInfo c s)
  | 0x1290 => nextIn s (execEvidClear c s)
  | 0x1310 => nextIn s (execTollLoadProfile c s)
  | 0x1311 => nextIn s (execMemInfo c s)
  | 0x1390 => nextIn s (execTollSet c s)
  | 0x1391 => nextIn s (execPoolSet c s)
  | 0x1410 => nextIn s (execEmLoadProfile c s)
  | 0x1411 => nextIn s (execEmFire c s)
  | 0x1490 => nextIn s (execEmRouteLoad c s)
  | 0x1610 => nextIn s (execPaClear c s)
  | 0x1611 => nextIn s (execPaRelease c s)
  | 0x1612 => nextIn s (execPaForceSafe c s)
  | 0x1690 => nextIn s (execPaConfig c s)
  | 0x1810 => nextIn s (execBootInfo c s)
  | 0x1811 => nextIn s (execStewardRestart c s)
  | 0x1812 => nextIn s (execSleep c s)
  | 0x1813 => nextIn s (execUnitReset c s)
  | _ => runUnknown opcode c s

/-- The channel that the executor serves next (R278): the first, from the one after the last served, with a command that
can be taken. -/
def nextServed (s : State) : Option (Fin 4) :=
  ([0, 1, 2, 3].map (fun i => Fin.ofNat 4 (s.mb.nextChan + i))).find? (fun ch =>
    mbGate ⟨none, ch, 0, 0, 0, 0, 0, [], [], [], 0, 0⟩ s)

/-- The command that an entry spells (R270), with the payload, the data and the outside values that belong to it. With INDIRECT
bytes 24 to 63 are 0 as the reserved header field is. -/
def parseEntry (ch : Fin 4) (e indirect data : List Byte) (nums : List Int) : CmdCall :=
  let fl := byteAt e 3
  let far := bit fl 0
  let body := if far then indirect else e.drop 16
  let rest := if far ∧ (e.drop 24).any (fun b => b != 0#8) = true then 1 else 0
  ⟨none, ch, byteAt e 2, fl, u32At e 4, u16At e 10, u32At e 12 + rest, fit (u16At e 8) body, data, nums,
    if far then u64At e 16 else 0, 0⟩

/-- Take the next command and run it to acceptance. What has been read of it already counts (R272); the operands are what the
reads still to be made return. -/
def commandTake (e indirect data : List Byte) (nums : List Int) (s : State) : State :=
  match nextServed s with
  | none => s
  | some ch =>
    let f := (chan s ch).fetched
    let entry := if f.length < 64 then fit 64 e else f.take 64
    let body := if f.length < 64 then indirect else f.drop 64 ++ indirect.drop (f.length - 64)
    runOpcode (u16At entry 0) (parseEntry ch entry body data nums) { s with mb := { s.mb with nextChan := (ch.val + 1) % 4 } }

/-! ## Deferred commands that end (R278) -/

/-- The commands that reach an access to host memory while they run. -/
def hostRun (opcode : Nat) : Option (CmdCall → State → State × CmdRes) :=
  match opcode with
  | 0x0490 => some corrTableLoad
  | 0x0791 => some segTableLoad
  | 0x0891 => some viewTableLoad
  | 0x0D10 => some runSpanChainRead
  | 0x0F13 => some runFwWrite
  | 0x1490 => some runEmRouteLoad
  | _ => none

/-- A command that waited to reach host memory writes what it has to write, is forwarded, or runs; it goes on waiting while it
still cannot (R282). -/
def resumeOne (x : Nat × Deferred) (s : State) : State :=
  let c := x.2.call
  match x.2.out, hostRun x.2.opcode with
  | some o, _ => if hostReady c s then endD x 0 0 o.result (hostWrite c o.addr o.data s) else s
  | none, run =>
    if c.origin.isNone ∧ isRemote c s = true then
      if !reachable s (c.target % 1024) then endD x eUNREACH 0 [] s
      else if hostCanRead c s then forwardCmd x.2.opcode c (dropDeferred x.1 x.2 s)
      else s
    else match run with
      | none => s
      | some run =>
        let r := run c s
        match r.2 with
        | .silent => dropDeferred x.1 x.2 r.1
        | .ok res => endD x 0 0 res r.1
        | .refuse st d => endD x st d [] s
        | .defer stop => putDeferred x { x.2 with canStop := stop, waitsBme := false } r.1
        | .waits => s

/-- The commands that wait to reach host memory go on. -/
def resumeWaiting (s : State) : State := forEach ((deferredAll s).filter (fun x => x.2.waitsBme)) resumeOne s

/-- Requests may leave again: tap frames that ended at the pause are written back, what was not read is read again, commands that
waited go on, and messages that were blocked are sent (R249, R261). -/
def dmaResume (s : State) : State :=
  irqAll (inRetry <| resumeWaiting (forEach [0, 1] bulkRun (forEach (List.range 4) mbFetch (tapsResume (syncTags s)))))

/-! ## A Toll period (R366, R367) -/

/-- Client 36 goes on: heads, tap descriptors, verdict fetches, commands and completions. -/
def ringsRetry (s : State) : State :=
  let s1 := hwbRun s.tiles.hwb s
  let s2 := forEach (List.range 16) (fun p t => forEach [0, 1] (fun e u => tapFetch p e (tapComplete p e u)) t) s1
  let s3 := forEach (List.range 16) (fun _ t => vrFetch t) s2
  forEach (List.range 4) (fun c t => mbFetch c (forEach (chan t c).cpls (fun _ u => completionWrite c u) t)) s3

/-- A waiting client that could not cover a transaction in the period before issues what it holds (R367). -/
def clientRetry (c : Nat) (s : State) : State :=
  match c with
  | 35 => forEach (List.range 16) (fun p t => statDrain (quGet t (32 + p)).words.length p t) s
  | 36 => ringsRetry s
  | 40 => bulkRun 0 s
  | 41 => bulkRun 1 s
  | 43 => resumeWaiting s
  | 44 => inRetry s
  | _ => s

/-- A Toll period starts, and the clients that were short go on. -/
def periodStart (s : State) : State := forEach s.toll.short.reverse clientRetry (tollPeriod s)

/-- The outside event of a deferred command arrives, with its outcome; without one that its chapter names, Dennil has failed
(R276). A command that waited to reach host memory goes on; commands that an event of their own row ends are not ended here.
`back` is a byte that the read-back of a written slot finds, and its offset: one that differs from the image's is the mismatch of
R285. -/
def deferredComplete (ch tag : Nat) (ok : Bool) (back : Option (Nat × Byte)) (s : State) : State :=
  match (deferredAll s).find? (fun x => x.1 == ch && x.2.call.tag == tag) with
  | none => s
  | some x =>
    if x.2.waitsBme then resumeOne x s
    else match x.2.opcode with
      | 0x0210 => sensorProfileDone x ok s
      | 0x0F13 => fwWriteDone (ok && readBack s (byteAt x.2.call.payload 0) back) x s
      | 0x1210 => if ok then evidReadDone x s else endD x eIO 0 [] s
      | 0x1211 => if ok then logReadDone x s else endD x eIO 0 [] s
      | 0x1290 => if ok then evidClearDone x s else endD x eIO 0 [] s
      | _ => if ok then s else endInternal x (abortEffect x.2 s)

/-! ## Bus Master Enable set (R261, R282) -/

/-- Host software sets Bus Master Enable. -/
def bmeSet (s : State) : State :=
  if bme s || fbit s fHE_STAT_FLR_BUSY then s
  else dmaResume (fbset (cfgWr s 0x04 (setBits (cfgRd s 0x04) 2 2 1)) fHE_STAT_BME true)

/-! ## Dennil messages (R159, R241, R242, R277) -/

/-- The completion of a command forwarded to `src` comes back. -/
def remoteDone (src opcode status ch tag detail : Nat) (res : List Byte) (s : State) : State :=
  match (chan s ch).remote.find? (fun r => r.pier == src && r.tag == tag && r.opcode == opcode) with
  | none => s
  | some r => closeDone ch (complete ch opcode status tag detail res (updChan s ch (fun h => { h with remote := h.remote.erase r })))

/-- An event of another pier: a REPLACE goes to every channel that has not masked it, any other to the channel that sent its
command, unless that has closed since (R50, R277). -/
def remoteEvent (kind ch tag sess : Nat) (res : List Byte) (s : State) : State :=
  if kind = evREPLACE then forEach (List.range 4) (fun c t => if (chan t c).masked then t else mbEvent c kind tag res t) s
  else if chOpen s ch ∧ nth s.mb.opens ch = sess then mbEvent ch kind tag res s
  else cnt s MB_CNT_EVT_LOST

/-- A neighbour's valve count. -/
def neighbourValves (src n : Nat) (s : State) : State :=
  let s1 := if neighbour s true = some src then fset (fbset s fAC_NBR_E_VALID true) fAC_NBR_E_VALVES n else s
  if neighbour s false = some src then fset (fbset s1 fAC_NBR_W_VALID true) fAC_NBR_W_VALVES n else s1

/-- The HOME code of a neighbour, if `src` is one: 1 east, 2 west. -/
def homeOf (s : State) (src : Nat) : Option Nat :=
  if neighbour s true = some src then some 1 else if neighbour s false = some src then some 2 else none

/-- A home pier's diagonal model goes into the copies of the ranges that have their home there; B moves into this pier's
valve frame (R159). -/
def takeModel (src g v : Nat) (en : Bool) (a b : Nat) (delays : List Nat) (s : State) : State :=
  match homeOf s src with
  | none => s
  | some h =>
    let shift : Int := if h = 2 then -((fget s fAC_NBR_W_VALVES : Nat) : Int) * 16 else ((fget s fAC_CTL_VALVES : Nat) : Int) * 16
    let one := fun (p r : Nat) (t : State) =>
      let o := p * 0x20 + r * 8
      if fbit t fVW_PMAP_EN o && fget t fVW_PMAP_HOME o == h && fget t fVW_PMAP_GROUP o == g && fget t fVW_PMAP_VIEW o == v then
        let x := (p * 4 + r) * 0x10
        let t1 := wrn (wrn (fbset t fAC_XMDL_CTL_EN en x) (AC_XMDL_A + x) a) (AC_XMDL_B + x) (int32u (s32 b + shift))
        tblPuts t1 (0xE10000 + (p * 4 + r) * 0x100) (fit 256 (delays.flatMap (leBytes 4)))
      else t
    forEach (List.range 16) (fun p t => forEach (List.range 4) (fun r u => one p r u) t) s

/-- The host link of a pier on the Keystone's books (R241). -/
def pierHost (src : Nat) (up : Bool) (s : State) : State :=
  publish { s with net := { s.net with holds := s.net.holds.map (fun h => if h.pier = src then { h with hostLink := up } else h) } }

/-- A DENNIL message from `src` is handled. -/
def dennilMsg (src : Nat) (m : DennilMsg) (s : State) : State :=
  if !dennilUp s then s
  else match m with
    | .command op call => runOpcode op.toNat { call with origin := some src } s
    | .taken tag => forEach (List.range 4) (fun c t => updChan t c (fun h => { h with
        remote := h.remote.map (fun r => if r.pier = src ∧ r.tag = tag.toNat then { r with taken := true } else r) })) s
    | .completion op st ch tag detail res => remoteDone src op.toNat st.toNat ch.toNat tag.toNat detail.toNat res s
    | .event kind ch tag res sess => remoteEvent kind.toNat ch.toNat tag.toNat sess.toNat res s
    | .valves n => neighbourValves src n.toNat s
    | .model g v en a b delays => takeModel src g.val v.val en a.toNat b.toNat (delays.map BitVec.toNat) s
    | .modelRequest => sendXmdls s
    | .hostLink up => pierHost src up s

/-! ## The rows -/

/-- MB_CLOSE. -/
def execMbClose (ch : ChanNo) (s : State) : Host.Outcome State Fault Refusal := .next (mbClose ch.val s)

/-- COMMAND_DOORBELL. -/
def execCommandDoorbell (ch : ChanNo) (tail : BitVec 12) (s : State) : Host.Outcome State Fault Refusal :=
  .next (doorbell ch.val tail.toNat s)

/-- COMMAND_TAKE: the entry at HEAD of the channel that is served next, its indirect payload, the data at the host addresses
that it names, and outside values. -/
def execCommandTake (entry indirect data : List Byte) (nums : List Int) (s : State) : Host.Outcome State Fault Refusal :=
  .next (commandTake entry indirect data nums s)

/-- DEFERRED_COMPLETE; channel 4 stands for the commands that other piers forwarded. -/
def execDeferredComplete (ch : Fin 5) (tag : Word) (ok : Bool) (back : Option (Nat × Byte)) (s : State) :
    Host.Outcome State Fault Refusal :=
  .next (deferredComplete ch.val tag.toNat ok back s)

/-- TOLL_PERIOD_START. -/
def execTollPeriodStart (s : State) : Host.Outcome State Fault Refusal := .next (periodStart s)

/-- BUS_MASTER_ENABLE_SET. -/
def execBusMasterEnableSet (s : State) : Host.Outcome State Fault Refusal := .next (bmeSet s)

/-- DENNIL_MESSAGE_RECEIVE from a pier. -/
def execDennilMessageReceive (src : BitVec 10) (msg : DennilMsg) (s : State) : Host.Outcome State Fault Refusal :=
  .next (dennilMsg src.toNat msg s)

end Sys2Proof.Machine
end

