-- ==== Sys2Proof/Machine/Window.lean ====
section
/-! DEFINITION. Requests of the host (chapter 14): writes and reads of W0 registers under R6, R7 and R268, the other windows,
configuration requests, vectors, and lane margining. -/

namespace Sys2Proof.Machine

/-! ## Whose field it is (R268, R269) -/

/-- The function whose lease covers a block, and whether it is leased per port (R269). -/
def blkFunc (b : Blk) : Nat × Bool :=
  match b with
  | .PP => (0x02, true)
  | .SC => (0x03, true)
  | .CX => (0x04, true)
  | .DM => (0x05, true)
  | .ST => (0x06, true)
  | .SG => (0x07, true)
  | .LG => (0x07, true)
  | .VW => (0x08, false)
  | .TL => (0x09, false)
  | .AC => (0x0A, false)
  | .TB => (0x0B, false)
  | .SL => (0x0C, false)
  | .SN => (0x0D, false)
  | .MB => (0x0F, false)
  | .TW => (0x10, false)
  | .AB => (0x11, false)
  | .EV => (0x12, false)
  | .TO => (0x13, false)
  | .MM => (0x13, false)
  | .EM => (0x14, false)
  | .QU => (0x15, false)
  | .PA => (0x16, false)
  | .LI => (0x17, false)
  | .RS => (0x18, false)
  | .HE => (0x0E, false)

/-- A lease admits host writes to the lease-writable fields of the register at `a` (R280). -/
def leaseAdmits (s : State) (a : Nat) (r : RegRow) : Bool :=
  match locate a with
  | some (b, n, _) => r.lease && leased s (blkFunc b).1 (if (blkFunc b).2 then some n else none)
  | none => false

/-- The register is an XX_EVT_EN: it lies above its XX_EVT and has its layout, as PA_MASK by chance does above PA_STICKY. -/
def isEvtEn (a : Nat) (r : RegRow) : Bool :=
  decide (4 ≤ a ∧ ¬ (PA_MASK ≤ a ∧ a < PA_MASK + 64)) && (match findRow (a - 4) with
    | some q => q.w1c != 0 && q.w1c == r.rw && r.reset == 0
    | none => false)

/-- The bits of a register that host software writes without a lease (R268). -/
def hostBits (a : Nat) (r : RegRow) : Nat :=
  if a < 0x20000 ∨ (r.dom = .func ∧ ¬ r.lease) ∨ isEvtEn a r ∨ a = TB_SNAP then 0xFFFFFFFF
  else if 0x100000 ≤ a ∧ a % 0x10000 = 0x54 then 0xF
  else if (PA_STICKY ≤ a ∧ a < PA_STICKY + 64) ∨ (EM_TRIP ≤ a ∧ a < EM_TRIP + 32) then 0
  else r.w1c

/-! ## Register writes by block -/

/-- Vector `v` is armed again, and its message is sent if it is still asserted (R259). -/
def vectorEoi (v : Nat) (s : State) : State := vecEval v (regBit s (HE_VEC_ARM + v / 32 * 4) (v % 32) true)

/-- A write of an HE register, or of the MSI-X table. -/
def hePut (a v : Nat) (s : State) : State :=
  if a = HE_VEC_EOI then vectorEoi (v % 2048) s
  else if HE_ISRC ≤ a ∧ a < HE_ISRC + 0x600 then
    let old := fget s fHE_ISRC_VECTOR (a - HE_ISRC)
    irqAll (vecEval old (putWord a v s))
  else if MSIX_ADDR_LO ≤ a ∧ a < 0x10000 then vecEval ((a - MSIX_ADDR_LO) / 16) (putWord a v s)
  else putWord a v s

/-- A write of MB_CW_CMD: GO runs a command of the Causeway mailbox; FW_LOAD stays BUSY until its image is checked and
programmed. While a command is BUSY, GO is ignored. -/
def cwPut (v : Nat) (s : State) : State :=
  let s1 := fset s fMB_CW_CMD_OPCODE v
  if fbit s fMB_CW_CMD_BUSY || !bit v 31 || !cwServes s then s1
  else match v % 65536 with
    | 1 => cwVersion s1
    | 2 => cwStatus s1
    | 3 => fbset s1 fMB_CW_CMD_BUSY true
    | 4 => capture s1
    | n => cwDone n eOPCODE [] s1

/-- A write of an MB register: ring bases, sizes and the offer stay unless the channel is CLOSED or REFUSED. -/
def mbPut (a v : Nat) (s : State) : State :=
  let o := a - 0x10000
  let c := o / 0x100
  let shut := chState s c == 0 || chState s c == 3
  if o < 0x400 then
    match o % 0x100 with
    | 0x00 =>
      let s1 := fbset (if shut then putWord a v s else s) fMB_CTL_INT (bit v 29) (mbo c)
      let s2 := if bit v 31 then openRequest c s1 else s1
      if bit v 30 then mbClose c s2 else s2
    | 0x04 => if shut then putWord a v s else s
    | 0x08 => wrn s a v
    | 0x0C => wrn s a v
    | 0x10 => wrn s a v
    | 0x14 => wrn s a v
    | 0x18 => if shut then putWord a v s else s
    | 0x1C => if shut then putWord a v s else s
    | 0x20 => if shut then putWord a v s else s
    | 0x24 => if shut then putWord a v s else s
    | 0x28 => doorbell c (v % 4096) s
    | _ => putWord a v s
  else if a = MB_CW_CMD then cwPut v s
  else putWord a v s

/-- A write of a Span lane register. -/
def slPut (p a v : Nat) (be3 : Bool) (s : State) : State :=
  match a % 0x1000 with
  | 0x00 =>
    let en := fbit s fSL_CTL_EN (slo p)
    let s1 := putWord a (setBits (setBits v 31 31 (if en then 1 else 0)) 24 24 1) s
    let s2 := if be3 then withCut p (portEnable p (bit v 31)) s1 else s1
    if bit v 30 then withCut p (retrain p (bit v 29)) s2 else s2
  | 0x100 => eyeCtl p v s
  | _ => putWord a v s

/-- A write of a Span network register: setting AUTO chooses the host pier (R241). -/
def snPut (a v : Nat) (s : State) : State :=
  if a = SN_HOST then
    let was := fbit s fSN_HOST_AUTO
    let s1 := putWord a v s
    if bit v 31 && !was then hostChoose s1 else hostKeep s1
  else if a = SN_CTL then
    let s1 := putWord a v s
    if fbit s fSN_CTL_EN && !bit v 31 then dropDisabled 1 (dropDisabled 0 s1) else s1
  else putWord a v s

/-- A write of a tile or verdict register: sizes and bases of a ring stay while it is enabled, and clearing TL_CTL.EN lets the
host pier be chosen (R241). -/
def tlPut (a v : Nat) (s : State) : State :=
  let o := a - 0xD0000
  if a = TL_CTL then (if fbit s fTL_CTL_EN && !bit v 31 then hostFree (putWord a v s) else putWord a v s)
  else if 0x50 ≤ o ∧ o < 0x90 then (if fbit s fPP_CTL_EN ((o - 0x50) / 4 * 0x10000) then s else putWord a v s)
  else if 0x1000 ≤ o ∧ o < 0x2000 then
    let r := (o - 0x1000) / 0x40
    let en := fbit s fTL_TR_CTL_EN (tro r)
    match o % 0x40 with
    | 0x00 => if en then fset s ⟨TL_TR_CTL, 31, 30⟩ (v / 2 ^ 30) (tro r) else putWord a v s
    | 0x04 => if en then s else putWord a v s
    | 0x08 => if en then s else putWord a v s
    | 0x0C => if en then s else putWord a v s
    | 0x10 => if en then s else putWord a v s
    | 0x18 => consWrite r v s
    | _ => putWord a v s
  else if 0x2000 ≤ o ∧ o < 0x2200 then
    let r := (o - 0x2000) / 0x20
    let en := fbit s fTL_VR_CTL_EN (vro r)
    match o % 0x20 with
    | 0x00 => if en then fbset s fTL_VR_CTL_EN (bit v 31) (vro r) else putWord a v s
    | 0x04 => if en then s else putWord a v s
    | 0x08 => if en then s else putWord a v s
    | 0x0C => vrDoorbell r (v % 4096) s
    | _ => putWord a v s
  else putWord a v s

/-- A write of a view register; clearing EN of a group closes its provisional sets (R140). -/
def vwRegPut (a v : Nat) (s : State) : State :=
  let s1 := vwPut a v s
  if VW_GRP_CTL ≤ a ∧ a < VW_GRP_CTL + 0x100 ∧ a % 0x20 = 0 ∧ !bit v 31 then groupEnable ((a - VW_GRP_CTL) / 0x20) false s1
  else s1

/-- A write of an actuation register; EN of a bus acts as R180 states. -/
def acRegPut (a v : Nat) (s : State) : State :=
  let s1 := acPut a v s
  if AC_BUS_CTL ≤ a ∧ a < AC_BUS_CTL + 0x100 ∧ a % 0x40 = 0 then busEnable ((a - AC_BUS_CTL) / 0x40) (bit v 31) s1 else s1

/-- A write of a ledger register: COMMIT is cleared by no write, and locks the feature base. -/
def lgPut (a v : Nat) (s : State) : State :=
  let locked := fbit s fLG_CTL_COMMIT
  if a = LG_CTL then putWord a (if locked then setBits v 31 31 1 else v) s
  else if (a = LG_FEAT_BASE_LO ∨ a = LG_FEAT_BASE_HI) ∧ locked then s
  else putWord a v s

/-- A write of a whole register by an owner of all its fields, of which the bytes of `be` are written and the others keep their
values (R6): an action of a field in a byte that is not written does not happen. `rep` is told of a setting slot that it arms. -/
def regPut (a v be : Nat) (rep : Nat → Option CmdCall) (s : State) : State :=
  match locate a with
  | some (.HE, _, _) => hePut a v s
  | some (.MB, _, _) => mbPut a v s
  | some (.PA, _, _) => paPut a v s
  | some (.TB, _, _) => if (a - TB_NS) % 0x40 = 0x10 ∧ a < TB_NS + 0xD0 ∧ ¬ bit be 3 then putWord a v s else tbPut a v s
  | some (.EM, _, _) => emPut a v s
  | some (.TO, _, _) => toPut a v s
  | some (.MM, _, _) => toPut a v s
  | some (.TW, _, _) => twPut a v s
  | some (.AB, _, _) => abPut a v s
  | some (.SL, p, _) => slPut p a v (bit be 3) s
  | some (.SN, _, _) => snPut a v s
  | some (.AC, _, _) => acRegPut a v s
  | some (.TL, _, _) => tlPut a v s
  | some (.VW, _, _) => vwRegPut a v s
  | some (.LG, _, _) => lgPut a v s
  | some (.QU, _, _) => quRegPut a v s
  | some (.PP, _, _) => ppPut a v s
  | some (.SC, p, _) => scPut a v (rep p) s
  | some (.CX, _, _) => cxPut a v s
  | some (.DM, _, _) => dmPut a v s
  | some (.ST, _, _) => stPut a v s
  | some (.SG, _, _) => sgPut a v s
  | _ => putWord a v s

/-! ## Writes of W0 (R6, R7, R268) -/

/-- The bits of the enabled bytes. -/
def byteMask (be : Nat) : Nat :=
  (if bit be 0 then 0xFF else 0) + (if bit be 1 then 0xFF00 else 0) + (if bit be 2 then 0xFF0000 else 0) +
    (if bit be 3 then 0xFF000000 else 0)

/-- `v` in the bits of `m`, `w` elsewhere. -/
def blend (m v w : Nat) : Nat := v.land m + (w.lor m - m)

/-- The RWL fields of the register at `a` are locked: the COMMIT of their block, or slot, is set (R8). -/
def rwlLocked (s : State) (a : Nat) : Bool :=
  match locate a with
  | some (.LG, _, _) => fbit s fLG_CTL_COMMIT
  | some (.MM, _, _) => fbit s fMM_CTL_COMMIT
  | some (.PP, p, _) => fbit s fPP_SLOT_CAP_COMMIT (pof p)
  | _ => false

/-- A write of a register's enabled bytes: Dennil owns every field; the host owns R268's, and the others under a lease. What
the host may not write keeps its value, and the write counts when that value, or a bit to be set or cleared, mattered; a locked
field keeps its value in any case. -/
def regWrite (ag : Agent) (a v be : Nat) (r : RegRow) (s : State) : State :=
  let bm := byteMask be
  let act := ((((if rwlLocked s a then 0 else r.rwl).lor r.rw).lor r.w1c).lor r.w1s).lor r.wo
  let kept := (r.rw.lor r.rwl).lor r.wo
  let cur := rdn s a
  let v1 := blend (bm.land act) v (cur.land kept)
  let rep := fun p => if ag = .host then leaseRep s p else none
  if bm.land act = 0 then s
  else if ag = .dennil || leaseAdmits s a r then regPut a v1 be rep s
  else
    let host := hostBits a r
    let v2 := blend host v1 (cur.land kept)
    let s1 := if (v1.lor r.wo) = (v2.lor r.wo) then s else noLease s
    if (bm.land act).land host = 0 then s1 else regPut a v2 be rep s1

/-- A write of one dword of a table window: its enabled halves, whole (R67). -/
def windowWrite (ag : Agent) (a v be : Nat) (s : State) : State :=
  let w := blend (byteMask be) v (tbl32 s a)
  if be % 4 = 0 then tableWrite ag (a + 2) 2 (w / 65536) s
  else if be / 4 = 0 then tableWrite ag a 2 (w % 65536) s
  else tableWrite ag a 4 w s

/-- A write of one dword of W0. -/
def w0Write (ag : Agent) (a v be : Nat) (s : State) : State :=
  if be = 0 then s
  else if isTable a then windowWrite ag a v be s
  else match findRow a with
    | some r => regWrite ag a v be r s
    | none => s

/-! ## Reads of W0 -/

/-- A read clears a register's RC field (R8); the low-water mark of a pool then starts again at the next change of its free
blocks (log 82). -/
def rcClear (a : Nat) (r : RegRow) (s : State) : State :=
  if r.rc = 0 then s
  else
    let s1 := wrn s a ((rdn s a).lor r.rc - r.rc)
    if MM_POOL_LOW ≤ a ∧ a < MM_POOL_LOW + 0x50 then
      { s1 with mem := { s1.mem with lowClear := (a - MM_POOL_LOW) / 16 :: s1.mem.lowClear } }
    else s1

/-- A read of a register by the host. `bad` says that a queue word fails its parity check (R392). -/
def regRead (a : Nat) (r : RegRow) (bad : Bool) (s : State) : State × Nat :=
  if TB_NS ≤ a ∧ a < TB_NS + 0x100 ∧ a % 0x40 = 0 then (tbLatch .host ((a - TB_NS) / 0x40) s, (tbase s ((a - TB_NS) / 0x40)).ns)
  else if QU_CFG ≤ a ∧ (a - QU_CFG) % 0x80 = 0x14 then rtagRead .host ((a - QU_CFG) / 0x80) bad s
  else if QU_CFG ≤ a ∧ a < 0x100000 ∧ 0x18 ≤ (a - QU_CFG) % 0x80 ∧ (a - QU_CFG) % 0x80 < 0x28 then
    (s, u32At (quGet s ((a - QU_CFG) / 0x80)).latch ((a - QU_CFG) % 0x80 - 0x18))
  else if MB_LEASE_LEFT ≤ a ∧ a < MB_LEASE_LEFT + 0x80 then
    (useFree s, (roundOpen (max 0 (leaseLeft s ((a - MB_LEASE_LEFT) / 4))) 1000000 s).toNat)
  else if SL_CTL ≤ a ∧ a < SL_CTL + 0x2000 ∧ 0x104 ≤ (a - SL_CTL) % 0x1000 then
    (eyeRise ((a - SL_CTL) / 0x1000) s, rdn (eyeRise ((a - SL_CTL) / 0x1000) s) a)
  else (rcClear a r s, (rdn s a).lor r.wo - r.wo)

/-- A read of one dword of W0 by the host: a register, the ledger mirror (R122), a table window. -/
def w0Read (a : Nat) (bad : Bool) (s : State) : State × Nat :=
  if isTable a then (s, tbl32 s a)
  else if 0x200000 ≤ a then (s, u32At (entryBytes (entryAt s ((a - 0x200000) / 32))) (a % 32))
  else match findRow a with
    | some r => regRead a r bad s
    | none => (s, 0)

/-- Reads of consecutive dwords, each where its flag says that the request touches it. -/
def w0Reads (bad : Bool) : List (Nat × Bool) → State → State × List Byte
  | [], s => (s, [])
  | (a, on) :: t, s =>
    let r := if on then w0Read a bad s else (s, 0)
    let q := w0Reads bad t r.1
    (q.1, leBytes 4 r.2 ++ q.2)

/-! ## Memory requests (R250, R251) -/

/-- The byte enables of a request's bytes: those of its first and last dword, all between. -/
def enables (n first last : Nat) : List Bool :=
  (List.range n).flatMap (fun j => [0, 1, 2, 3].map (fun k => if j = 0 then bit first k else if j + 1 = n then bit last k else true))

/-- From the first enabled byte to the last: where it starts, and its length. -/
def enabledSpan (l : List Bool) : Nat × Nat :=
  let lead := (l.takeWhile (fun b => !b)).length
  (lead, l.length - lead - ((l.drop lead).reverse.takeWhile (fun b => !b)).length)

/-- The runs of enabled bytes from offset `off` on, each with its offset; `run` is the one that grows, last byte first. -/
def byteRuns : List (Bool × Byte) → Nat → List Byte → List (Nat × List Byte)
  | [], off, run => if run = [] then [] else [(off - run.length, run.reverse)]
  | (true, b) :: t, off, run => byteRuns t (off + 1) (b :: run)
  | (false, _) :: t, off, run =>
    (if run = [] then [] else [(off - run.length, run.reverse)]) ++ byteRuns t (off + 1) []

/-- Bytes of a window; 0 where the request does not reach it (the ROM while its enable is clear). -/
def windowSize (s : State) (w : HostWindow) : Nat :=
  match w with
  | .w0 => 2 ^ 24
  | .w1 => 2 ^ (20 + bits (cfgRd s 0x258) 13 8)
  | .w2 => 2 ^ 24
  | .rom => if bit (cfgRd s 0x30) 0 then 2 ^ 20 else 0
  | _ => 0

/-- The request meets a hole, or a write the reserved region, which Dennil has set once MM_CTL.COMMIT is 1 (R251, R356). -/
def w1Hole (s : State) (off : Nat) : Bool := decide (lp5Usable s ≤ off)
def w1Reserved (s : State) (off : Nat) : Bool := fbit s fMM_CTL_COMMIT && decide (rsvBase s ≤ off)

/-- A read of W1. -/
def w1Read (tag off len : Nat) (check : ReadCheck) (s : State) : State :=
  if w1Hole s off then emit (evtCnt s fHE_EVT_W1_HOLE HE_CNT_W1_HOLE) (.completion .host tag 0 (zeros len) false)
  else w1Drain (setW1 (s.he.w1 ++ [⟨false, tag, off, len, [], check, 0⟩]) s)

/-- A write of W1. -/
def w1Write (off : Nat) (l : List (Bool × Byte)) (s : State) : State :=
  let bs := (l.zipIdx.filter (fun x => x.1.1)).map (fun x => (off + x.2, x.1.2))
  if w1Hole s off then evtCnt s fHE_EVT_W1_HOLE HE_CNT_W1_HOLE
  else if w1Reserved s off then evtCnt s fHE_EVT_W1_HOLE HE_CNT_W1_RO
  else w1Drain (setW1 (s.he.w1 ++ [⟨true, 0, off, bs.length, bs, .good, 0⟩]) s)

/-- A read of a window: `off` and `n` in dwords of the request, `lead` and `len` its enabled span. -/
def windowRead (w : HostWindow) (off n lead len : Nat) (en : List Bool) (tag : Nat) (check : ReadCheck) (s : State) : State :=
  if len = 0 then emit (useFree s) (.completion .host tag 0 (leBytes 1 (freeVal s)) false)
  else match w with
    | .w0 =>
      let r := w0Reads (check == .failed) ((List.range n).map (fun j => (off + 4 * j, ((en.drop (4 * j)).take 4).any id))) s
      emit r.1 (.completion .host tag 0 ((r.2.drop lead).take len) false)
    | .w1 => w1Read tag (off + lead) len check s
    | .w2 => abAccess .host tag (off + lead) len [] false none s
    | .rom =>
      let ready := fbit s fHE_STAT_ROM_READY
      emit s (.completion .host tag 0 ((List.range len).map (fun i => if ready then s.he.rom.getD (off + lead + i) 0#8 else 0#8)) false)
    | _ => s

/-- A write of a window. -/
def windowPost (w : HostWindow) (off n : Nat) (en : List Bool) (data : List Byte) (s : State) : State :=
  let l := en.zip (fit en.length data)
  match w with
  | .w0 => forEach (List.range n) (fun j t =>
      let e := (en.drop (4 * j)).take 4
      w0Write .host (off + 4 * j) (u32At data (4 * j))
        (e.zipIdx.foldl (fun acc x => acc + if x.1 then 2 ^ x.2 else 0) 0) t) s
  | .w1 => if en.any id then w1Write off l s else s
  | .w2 => forEach (byteRuns l off []) (fun r t => abPost r.1 r.2 t) s
  | _ => s

/-- An AtomicOp of 32 or 64 bits on W2, under LOCK_N; elsewhere, or of another size, it is unsupported (R248, R250). -/
def windowAtomic (w : HostWindow) (op off n : Nat) (data : List Byte) (tag : Nat) (s : State) : State :=
  let size := if op = 2 then 2 * n else 4 * n
  if w ≠ .w2 ∨ ¬ (size = 4 ∨ size = 8) ∨ off % size ≠ 0 then sendUr tag s
  else abAccess .host tag off size [] false
    (some (op, [leNat (fit size data), leNat (fit size (data.drop size))])) s

/-- The request is refused: completed as Unsupported Request, or, when posted, discarded; outside a function reset that is
logged. -/
def refuseRequest (posted : Bool) (tag : Nat) (s : State) : State :=
  if !posted then sendUr tag s
  else if fbit s fHE_STAT_FLR_BUSY then s
  else aerUncorr 20 s

/-- An access of Dennil to W2 (R314): a read of the enabled span, or a write of each run of enabled bytes; it makes no AtomicOp. -/
def dennilAccess (op : MemOp) (off : Nat) (en : List Bool) (data : List Byte) (s : State) : State :=
  let span := enabledSpan en
  match op with
  | .read => if span.2 = 0 then s else abAccess .dennil 0 (off + span.1) span.2 [] false none s
  | .write => forEach (byteRuns (en.zip (fit en.length data)) off [])
      (fun r t => abAccess .dennil 0 r.1 r.2.length r.2 true none t) s
  | _ => s

/-- A memory request of the host, or an access of Dennil. -/
def memoryRequest (w : HostWindow) (op : MemOp) (off n first last : Nat) (data : List Byte) (tag : Nat) (poisoned : Bool)
    (check : ReadCheck) (s : State) : State :=
  let en := enables n first last
  let span := enabledSpan en
  if w = .dennil then dennilAccess op off en data s
  else if !fbit s fHE_STAT_LINK_UP then s
  else if fbit s fHE_STAT_FLR_BUSY || fbit s fHE_STAT_D3 || !bit (cfgRd s 0x04) 1 ||
      decide (windowSize s w < off + (if op = .cas then 2 * n else 4 * n)) then
    refuseRequest (op == .write && w != .other) tag s
  else match op with
    | .read => windowRead w off n span.1 span.2 en tag check s
    | .write =>
      if poisoned then aerAdvisory 12 (cfgSet 0x04 (2 ^ 31) (cnt s HE_CNT_POISON_RX)) else windowPost w off n en data s
    | .fetchAdd => if poisoned then sendUr tag s else windowAtomic w 0 off n data tag s
    | .swap => if poisoned then sendUr tag s else windowAtomic w 1 off n data tag s
    | .cas => if poisoned then sendUr tag s else windowAtomic w 2 off n data tag s

/-! ## Configuration requests (R245 to R248) -/

/-- The RW bits of the configuration dword at `o` (log 20); BAR bits below the window's size read 0. -/
def cfgRw (s : State) (o : Nat) : Nat :=
  let size := windowSize s .w1
  match o with
  | 0x04 => 0x546
  | 0x0C => 0xFF
  | 0x10 => 0xFF000000
  | 0x14 => 2 ^ 32 - size % 2 ^ 32 - (if size < 2 ^ 32 then 0 else 2 ^ 32)
  | 0x18 => 2 ^ 32 - max 1 (size / 2 ^ 32)
  | 0x1C => 0xFF000000
  | 0x30 => 0xFFF00001
  | 0x3C => 0xFF
  | 0x58 => 0x79FF
  | 0x60 => 0x2CB
  | 0x78 => 0x100F
  | 0x80 => 0xFFBF
  | 0x90 => 0xC0000000
  | 0x108 => 0x005FF010
  | 0x10C => 0x005FF010
  | 0x114 => 0xF1C1
  | 0x118 => 0x140
  | 0x1C8 => 0x3
  | 0x248 => 0xFF01
  | _ => if 0x1F8 ≤ o ∧ o < 0x238 then 0xFFFF else 0

/-- The bits of the configuration dword at `o` that a written 1 clears. -/
def cfgW1c (o : Nat) : Nat :=
  match o with
  | 0x04 => 0xF9000000
  | 0x58 => 0xF0000
  | 0x104 => 0x005FF010
  | 0x110 => 0xF1C1
  | 0x168 => 0xFFFF
  | 0x19C => 0x10
  | 0x1A0 => 0xFFFF
  | 0x1A4 => 0xFFFF
  | 0x1A8 => 0xFFFF
  | 0x1CC => 0x20
  | _ => 0

/-- The dword as a configuration read shows it: Interrupt Status follows the INTx condition (R260), Transactions Pending the
requests outstanding, Link Status the link, and Margining Ready a link at 16.0 or 32.0 GT/s (R266). -/
def cfgShow (s : State) (o : Nat) : Nat :=
  let v := cfgRd s o
  match o with
  | 0x04 => setBits v 19 19 (if intxCond s then 1 else 0)
  | 0x58 => setBits v 21 21 (if fget s fHE_STAT_NP_OUT = 0 then 0 else 1)
  | 0x60 => setBits (setBits v 19 16 (fget s fHE_STAT_SPEED)) 25 20 (fget s fHE_STAT_WIDTH)
  | 0x1F4 => setBits v 16 16 (if fbit s fHE_STAT_LINK_UP ∧ 4 ≤ fget s fHE_STAT_SPEED then 1 else 0)
  | _ => v

/-- What a change of the Command register does: Bus Master Enable (R261) and Interrupt Disable (R260). -/
def commandPut (v : Nat) (s : State) : State :=
  let was := if bme s then 1 else 0
  let s1 := cfgWr s 0x04 (setBits v 2 2 was)
  intxEval (if bit v 2 then bmeSet s1 else bmeClear s1)

/-- What a write of the power state does: D0 and D3hot; other states are not supported and change nothing (R249). -/
def powerPut (v : Nat) (s : State) : State :=
  if v % 4 = 3 then d3Enter s
  else if v % 4 = 0 ∧ fbit s fHE_STAT_D3 then dmaResume (fbset (cfgWr s 0x44 (setBits (cfgRd s 0x44) 1 0 0)) fHE_STAT_D3 false)
  else s

/-- A write of the BAR Size field: 1 GiB to 64 GiB; address bits below the new size become 0 (R247). -/
def barSizePut (v : Nat) (s : State) : State :=
  let k := bits v 13 8
  if k < 10 ∨ 16 < k then s
  else
    let s1 := cfgWr s 0x258 (setBits (cfgRd s 0x258) 13 8 k)
    let s2 := cfgWr s1 0x14 ((cfgRd s1 0x14).land (cfgRw s1 0x14 + 0xF))
    cfgWr s2 0x18 ((cfgRd s2 0x18).land (cfgRw s2 0x18))

/-! ## Lane margining (R266) -/

/-- The error count limit of a lane (log 20: 4 until it is set). -/
def marginLimit (s : State) (lane : Nat) : Nat := smGet s.he.margin lane 4

/-- The parameter that a report command asks for; none where its code is reserved. M_SampleCount applies only to the other
reporting method. -/
def marginReport (code : Nat) : Option Nat :=
  match code with
  | 0x88 => some 0x1F
  | 0x89 => some 64
  | 0x8A => some 32
  | 0x8B => some 50
  | 0x8C => some 20
  | 0x8D => some 63
  | 0x8E => some 63
  | 0x8F => some 0
  | 0x90 => some 15
  | _ => none

/-- A margining step of `steps` out of `most`: refused, ended by too many errors, or in progress, with the error count. -/
def marginStep (lane steps most errors : Nat) (s : State) : Nat :=
  if most < steps then 0xC0
  else if marginLimit s lane < errors then errors % 64
  else 0x80 + errors % 64

/-- The response to a command's type and payload; none where the device does not answer. -/
def marginAnswer (lane type payload errors : Nat) (s : State) : Option Nat :=
  match type with
  | 1 => marginReport payload
  | 2 => if payload = 0x0F ∨ payload = 0x55 ∨ 0xC0 ≤ payload then some payload else none
  | 3 => some (marginStep lane (payload % 64) 32 errors s)
  | 4 => some (marginStep lane (payload % 128) 64 errors s)
  | 7 => if payload = 0x9C then some 0x9C else none
  | _ => none

/-- A lane margining command: its control word and its answer stand in the lane's register of the capability. It runs at 16.0 and
32.0 GT/s, on a lane in use, for this receiver (6) or every receiver (0). -/
def marginCommand (lane control errors : Nat) (s : State) : State :=
  let type := bits control 5 3
  let payload := bits control 15 8
  let rx := control % 8
  if !fbit s fHE_STAT_LINK_UP || decide (fget s fHE_STAT_SPEED < 4) || decide (fget s fHE_STAT_WIDTH ≤ lane) then s
  else
    let o := 0x1F8 + 4 * lane
    let s1 := cfgWr s o (setBits (cfgRd s o) 15 0 control)
    let s2 := if type = 2 ∧ 0xC0 ≤ payload then { s1 with he := { s1.he with margin := smPut s1.he.margin lane 4 (payload % 64) } } else s1
    if rx ≠ 0 ∧ rx ≠ 6 then s1
    else match marginAnswer lane type payload errors s with
      | some a => cfgWr s2 o (setBits (cfgRd s2 o) 31 16 (control % 256 + 256 * a))
      | none => s2

/-! ## Configuration writes -/

/-- A write of one configuration dword's enabled bytes. -/
def cfgWrite (o v be : Nat) (s : State) : State :=
  let bm := byteMask be
  let rw := (cfgRw s o).land bm
  let w := blend rw v (cfgRd s o)
  let c := (v.land bm).land (cfgW1c o)
  let new := w.lor c - c
  match o with
  | 0x04 => commandPut new s
  | 0x44 => if bit be 0 then powerPut v s else s
  | 0x58 =>
    let s1 := poolSwitch (cfgWr s o new)
    if bit v 15 && bit be 1 then flrStart s1 else s1
  | 0x78 => poolSwitch (wrn (cfgWr s o new) HE_CPL_TMO (tmoOf (new % 16)))
  | 0x90 => irqAll (cfgWr s o new)
  | 0x258 => if bit be 1 then barSizePut v s else s
  | _ =>
    if 0x1F8 ≤ o ∧ o < 0x238 ∧ (bit be 0 || bit be 1) = true then
      marginCommand ((o - 0x1F8) / 4) (new % 65536) (freeVal s % 64) (useFree (cfgWr s o new))
    else cfgWr s o new

/-- A configuration request: Type 1 requests are unsupported; during a function reset every one is to be retried (R245). -/
def configRequest (type1 write : Bool) (o be v tag : Nat) (s : State) : State :=
  if !fbit s fHE_STAT_LINK_UP then s
  else if type1 then sendUr tag s
  else if fbit s fHE_STAT_FLR_BUSY then emit s (.completion .host tag 2 [] false)
  else if write then emit (cfgWrite o v be s) (.completion .host tag 0 [] false)
  else emit s (.completion .host tag 0 (leBytes 4 (cfgShow s o)) false)

/-! ## The rows -/

/-- REGISTER_WRITE: a write of the enabled bytes of one dword of W0. -/
def execRegisterWrite (ag : Agent) (addr : BitVec 24) (value : Word) (be : BitVec 4) (s : State) :
    Host.Outcome State Fault Refusal :=
  .next (w0Write ag (addr.toNat / 4 * 4) value.toNat be.toNat s)

/-- CONFIG_REQUEST. -/
def execConfigRequest (type1 write : Bool) (dw : BitVec 10) (be : BitVec 4) (data : Word) (tag : BitVec 10) (s : State) :
    Host.Outcome State Fault Refusal :=
  .next (configRequest type1 write (4 * dw.toNat) be.toNat data.toNat tag.toNat s)

/-- MEMORY_REQUEST: `dw` is the offset in dwords within the window, `count` the dwords (0 is 1,024), with the byte enables of the
first and the last; `check` says how the check in the device of what is read ends. -/
def execMemoryRequest (win : HostWindow) (op : MemOp) (dw : BitVec 34) (count : BitVec 10) (first last : BitVec 4)
    (data : List Byte) (tag : BitVec 10) (poisoned : Bool) (check : ReadCheck) (s : State) : Host.Outcome State Fault Refusal :=
  .next (memoryRequest win op (4 * dw.toNat) (if count = 0 then 1024 else count.toNat) first.toNat last.toNat data tag.toNat
    poisoned check s)

/-- VECTOR_EOI: a write of HE_VEC_EOI. -/
def execVectorEoi (vector : BitVec 11) (s : State) : Host.Outcome State Fault Refusal := .next (vectorEoi vector.toNat s)

/-- LANE_MARGIN_COMMAND; `errors` is the error count that the lane has reached. -/
def execLaneMarginCommand (lane : Fin 16) (control : BitVec 16) (errors : BitVec 6) (s : State) :
    Host.Outcome State Fault Refusal :=
  .next (marginCommand lane.val control.toNat errors.toNat s)

end Sys2Proof.Machine
end

