-- ==== Sys2Proof/Machine/Dispatch.lean ====
section
/-! DEFINITION. One arm per command of the block. -/

namespace Sys2Proof.Machine

def exec (i : Instr) (s : State) : Host.Outcome State Fault Refusal :=
  match i with
  | .registerWrite ag addr value be => Sys2Proof.Machine.execRegisterWrite ag addr value be s
  | .powerOnReset => Sys2Proof.Machine.execPowerOnReset s
  | .powerOnResetRelease found => Sys2Proof.Machine.execPowerOnResetRelease found s
  | .firmwareStartTimeout signed => Sys2Proof.Machine.execFirmwareStartTimeout signed s
  | .dennilRunning => Sys2Proof.Machine.execDennilRunning s
  | .fullServiceEntry buses => Sys2Proof.Machine.execFullServiceEntry buses s
  | .aonBrownout => Sys2Proof.Machine.execAonBrownout s
  | .unitReset c => Sys2Proof.Machine.execUnitReset c s
  | .stewardRestart c => Sys2Proof.Machine.execStewardRestart c s
  | .sleep c => Sys2Proof.Machine.execSleep c s
  | .wake => Sys2Proof.Machine.execWake s
  | .bootInfo c => Sys2Proof.Machine.execBootInfo c s
  | .portEnable ag port value => Sys2Proof.Machine.execPortEnable ag port value s
  | .portDisable ag port => Sys2Proof.Machine.execPortDisable ag port s
  | .csi2PacketReceive port stamp ecc dt vc field payload crcErr => Sys2Proof.Machine.execCsi2PacketReceive port stamp ecc dt vc field payload crcErr s
  | .pipelineOutputPlace port => Sys2Proof.Machine.execPipelineOutputPlace port s
  | .frameStart port stamp fn desc0 desc1 => Sys2Proof.Machine.execFrameStart port stamp fn desc0 desc1 s
  | .frameEnd port => Sys2Proof.Machine.execFrameEnd port s
  | .frameTimeout port => Sys2Proof.Machine.execFrameTimeout port s
  | .presenceAssert port => Sys2Proof.Machine.execPresenceAssert port s
  | .presenceLost port => Sys2Proof.Machine.execPresenceLost port s
  | .powerFault port asserted => Sys2Proof.Machine.execPowerFault port asserted s
  | .slotPowerWrite ag port on => Sys2Proof.Machine.execSlotPowerWrite ag port on s
  | .powerSettle port => Sys2Proof.Machine.execPowerSettle port s
  | .slotCapCommit ag port caps => Sys2Proof.Machine.execSlotCapCommit ag port caps s
  | .attentionButton port => Sys2Proof.Machine.execAttentionButton port s
  | .orderlyStop port => Sys2Proof.Machine.execOrderlyStop port s
  | .hotInsertProfileLoad port profile headId => Sys2Proof.Machine.execHotInsertProfileLoad port profile headId s
  | .linkTimeout port => Sys2Proof.Machine.execLinkTimeout port s
  | .sclkDivisorWrite ag k value => Sys2Proof.Machine.execSclkDivisorWrite ag k value s
  | .slotArm ag port slot => Sys2Proof.Machine.execSlotArm ag port slot s
  | .slotCancel ag port slot => Sys2Proof.Machine.execSlotCancel ag port slot s
  | .slotSendStart bus => Sys2Proof.Machine.execSlotSendStart bus s
  | .settingWriteDone port slot => Sys2Proof.Machine.execSettingWriteDone port slot s
  | .settingWriteFail port slot => Sys2Proof.Machine.execSettingWriteFail port slot s
  | .embeddedDataCheck port data written => Sys2Proof.Machine.execEmbeddedDataCheck port data written s
  | .settingForFrame c => Sys2Proof.Machine.execSettingForFrame c s
  | .settingCancel c => Sys2Proof.Machine.execSettingCancel c s
  | .settingRawForFrame c => Sys2Proof.Machine.execSettingRawForFrame c s
  | .latencyProfileSet c => Sys2Proof.Machine.execLatencyProfileSet c s
  | .cxBankSwapRequest ag port v => Sys2Proof.Machine.execCxBankSwapRequest ag port v s
  | .cxBankCancel ag port v => Sys2Proof.Machine.execCxBankCancel ag port v s
  | .tableWindowWrite ag wide index v => Sys2Proof.Machine.execTableWindowWrite ag wide index v s
  | .corrLoadCal c => Sys2Proof.Machine.execCorrLoadCal c s
  | .corrSetMode c => Sys2Proof.Machine.execCorrSetMode c s
  | .corrTableLoad c => Sys2Proof.Machine.execCorrTableLoad c s
  | .corrBankSwap c => Sys2Proof.Machine.execCorrBankSwap c s
  | .corrParams c => Sys2Proof.Machine.execCorrParams c s
  | .dmCommit ag port v => Sys2Proof.Machine.execDmCommit ag port v s
  | .tapEnable ag port engine v => Sys2Proof.Machine.execTapEnable ag port engine v s
  | .tapFrameComplete port engine => Sys2Proof.Machine.execTapFrameComplete port engine s
  | .tapStart c => Sys2Proof.Machine.execTapStart c s
  | .tapStop c => Sys2Proof.Machine.execTapStop c s
  | .colourLoadCal c => Sys2Proof.Machine.execColourLoadCal c s
  | .colourParams c => Sys2Proof.Machine.execColourParams c s
  | .statRingWrite port poison => Sys2Proof.Machine.execStatRingWrite port poison s
  | .statCommit ag port v => Sys2Proof.Machine.execStatCommit ag port v s
  | .statStart c => Sys2Proof.Machine.execStatStart c s
  | .statStop c => Sys2Proof.Machine.execStatStop c s
  | .statParams c => Sys2Proof.Machine.execStatParams c s
  | .objectSeen id => Sys2Proof.Machine.execObjectSeen id s
  | .sgCommit ag port v => Sys2Proof.Machine.execSgCommit ag port v s
  | .sgBankSwapRequest ag port v => Sys2Proof.Machine.execSgBankSwapRequest ag port v s
  | .sgBankCancel ag port v => Sys2Proof.Machine.execSgBankCancel ag port v s
  | .segLearnBg c => Sys2Proof.Machine.execSegLearnBg c s
  | .segLoadProfile c => Sys2Proof.Machine.execSegLoadProfile c s
  | .segParams c => Sys2Proof.Machine.execSegParams c s
  | .segTableLoad c => Sys2Proof.Machine.execSegTableLoad c s
  | .orphanTimeout id => Sys2Proof.Machine.execOrphanTimeout id s
  | .verdictDeadline owner => Sys2Proof.Machine.execVerdictDeadline owner s
  | .entryRetire owner => Sys2Proof.Machine.execEntryRetire owner s
  | .setCloseTime low => Sys2Proof.Machine.execSetCloseTime low s
  | .groupDisable ag g => Sys2Proof.Machine.execGroupDisable ag g s
  | .mateCandReceive src payload => Sys2Proof.Machine.execMateCandReceive src payload s
  | .mateSetReceive src payload => Sys2Proof.Machine.execMateSetReceive src payload s
  | .mateOutcomeReceive src payload => Sys2Proof.Machine.execMateOutcomeReceive src payload s
  | .mateVerdictReceive src payload => Sys2Proof.Machine.execMateVerdictReceive src payload s
  | .mateWithdrawReceive src payload => Sys2Proof.Machine.execMateWithdrawReceive src payload s
  | .remoteWaitExpiry id => Sys2Proof.Machine.execRemoteWaitExpiry id s
  | .viewLoadCal c => Sys2Proof.Machine.execViewLoadCal c s
  | .viewCalRun c => Sys2Proof.Machine.execViewCalRun c s
  | .viewCalRunEnd => Sys2Proof.Machine.execViewCalRunEnd s
  | .viewParams c => Sys2Proof.Machine.execViewParams c s
  | .viewTableLoad c => Sys2Proof.Machine.execViewTableLoad c s
  | .tileCropStart id cut read => Sys2Proof.Machine.execTileCropStart id cut read s
  | .tilePacketReceive src msg seg payload dmaCut => Sys2Proof.Machine.execTilePacketReceive src msg seg payload dmaCut s
  | .tileDescriptorWrite ring seq => Sys2Proof.Machine.execTileDescriptorWrite ring seq s
  | .tileDoneReceive src payload => Sys2Proof.Machine.execTileDoneReceive src payload s
  | .tileAckTimeout id => Sys2Proof.Machine.execTileAckTimeout id s
  | .tileIncompleteTimeout ring seq => Sys2Proof.Machine.execTileIncompleteTimeout ring seq s
  | .tileRingConsWrite ring value => Sys2Proof.Machine.execTileRingConsWrite ring value s
  | .verdictDoorbell ring tail => Sys2Proof.Machine.execVerdictDoorbell ring tail s
  | .verdictFetch => Sys2Proof.Machine.execVerdictFetch s
  | .verdictFetchComplete ring data => Sys2Proof.Machine.execVerdictFetchComplete ring data s
  | .actVerdictReceive src payload => Sys2Proof.Machine.execActVerdictReceive src payload s
  | .actOrderReceive src payload => Sys2Proof.Machine.execActOrderReceive src payload s
  | .actResultReceive src payload => Sys2Proof.Machine.execActResultReceive src payload s
  | .actCancelReceive src payload => Sys2Proof.Machine.execActCancelReceive src payload s
  | .remoteLaunch owner => Sys2Proof.Machine.execRemoteLaunch owner s
  | .frameAssemble b => Sys2Proof.Machine.execFrameAssemble b s
  | .valveFrameStart b => Sys2Proof.Machine.execValveFrameStart b s
  | .valveFrameEnd b => Sys2Proof.Machine.execValveFrameEnd b s
  | .safeFrameRepeat => Sys2Proof.Machine.execSafeFrameRepeat s
  | .idleSafeFrame b => Sys2Proof.Machine.execIdleSafeFrame b s
  | .busEnableWrite ag b en => Sys2Proof.Machine.execBusEnableWrite ag b en s
  | .boardPoll b addr => Sys2Proof.Machine.execBoardPoll b addr s
  | .statusFrameReceive b frame => Sys2Proof.Machine.execStatusFrameReceive b frame s
  | .pollNoAnswer b => Sys2Proof.Machine.execPollNoAnswer b s
  | .ejectLoadCal c => Sys2Proof.Machine.execEjectLoadCal c s
  | .ejectCalRun c => Sys2Proof.Machine.execEjectCalRun c s
  | .ejectCalRunEnd => Sys2Proof.Machine.execEjectCalRunEnd s
  | .ejectTest c => Sys2Proof.Machine.execEjectTest c s
  | .tbNsRead ag base => Sys2Proof.Machine.execTbNsRead ag base s
  | .tbSnap => Sys2Proof.Machine.execTbSnap s
  | .tbSourceWrite ag base src => Sys2Proof.Machine.execTbSourceWrite ag base src s
  | .tb1Measure => Sys2Proof.Machine.execTb1Measure s
  | .tbHoldoverEntry base => Sys2Proof.Machine.execTbHoldoverEntry base s
  | .tbStep ag base => Sys2Proof.Machine.execTbStep ag base s
  | .tbAlign ag => Sys2Proof.Machine.execTbAlign ag s
  | .tbClearIntegrator ag base => Sys2Proof.Machine.execTbClearIntegrator ag base s
  | .syncSend phase => Sys2Proof.Machine.execSyncSend phase s
  | .syncReceive port payload phase gap => Sys2Proof.Machine.execSyncReceive port payload phase gap s
  | .dreqReceive port payload phase => Sys2Proof.Machine.execDreqReceive port payload phase s
  | .drespReceive port payload => Sys2Proof.Machine.execDrespReceive port payload s
  | .drespMiss => Sys2Proof.Machine.execDrespMiss s
  | .ptmDialogue => Sys2Proof.Machine.execPtmDialogue s
  | .ptmResponse root => Sys2Proof.Machine.execPtmResponse root s
  | .ppsEdge rising => Sys2Proof.Machine.execPpsEdge rising s
  | .ppsMiss => Sys2Proof.Machine.execPpsMiss s
  | .alarmFire alarm => Sys2Proof.Machine.execAlarmFire alarm s
  | .timeLoadProfile c => Sys2Proof.Machine.execTimeLoadProfile c s
  | .timeAlign c => Sys2Proof.Machine.execTimeAlign c s
  | .timeStep c => Sys2Proof.Machine.execTimeStep c s
  | .spanPortEnable ag port en cut => Sys2Proof.Machine.execSpanPortEnable ag port en cut s
  | .spanDetect port term => Sys2Proof.Machine.execSpanDetect port term s
  | .spanBitLock port locked inv => Sys2Proof.Machine.execSpanBitLock port locked inv s
  | .spanLockDone port ok plane => Sys2Proof.Machine.execSpanLockDone port ok plane s
  | .spanExchangeDone port exch offered => Sys2Proof.Machine.execSpanExchangeDone port exch offered s
  | .spanStateTimeout port locked => Sys2Proof.Machine.execSpanStateTimeout port locked s
  | .spanLaneFail port lane cv disp comMiss cut => Sys2Proof.Machine.execSpanLaneFail port lane cv disp comMiss cut s
  | .spanLinkDown port cut => Sys2Proof.Machine.execSpanLinkDown port cut s
  | .spanTsReceived port cut => Sys2Proof.Machine.execSpanTsReceived port cut s
  | .spanRetrain ag port full cut => Sys2Proof.Machine.execSpanRetrain ag port full cut s
  | .skipSend port => Sys2Proof.Machine.execSkipSend port s
  | .skipReceive port adj cv disp osErr => Sys2Proof.Machine.execSkipReceive port adj cv disp osErr s
  | .creditAuditSend port => Sys2Proof.Machine.execCreditAuditSend port s
  | .creditAuditReceive port data => Sys2Proof.Machine.execCreditAuditReceive port data s
  | .eyeScanStart ag port value => Sys2Proof.Machine.execEyeScanStart ag port value s
  | .eyeScanDone port errs => Sys2Proof.Machine.execEyeScanDone port errs s
  | .spanLinkRetrain c => Sys2Proof.Machine.execSpanLinkRetrain c s
  | .spanEyeScan c => Sys2Proof.Machine.execSpanEyeScan c s
  | .spanLaneParams c => Sys2Proof.Machine.execSpanLaneParams c s
  | .spanPacketForward port raw bad poison phase gap dmaCut => Sys2Proof.Machine.execSpanPacketForward port raw bad poison phase gap dmaCut s
  | .spanPacketSend port => Sys2Proof.Machine.execSpanPacketSend port s
  | .helloReceive port payload => Sys2Proof.Machine.execHelloReceive port payload s
  | .creditReceive port payload => Sys2Proof.Machine.execCreditReceive port payload s
  | .creditReturn port => Sys2Proof.Machine.execCreditReturn port s
  | .enumReceive port payload => Sys2Proof.Machine.execEnumReceive port payload s
  | .enumEndReceive payload => Sys2Proof.Machine.execEnumEndReceive payload s
  | .enumTimeout => Sys2Proof.Machine.execEnumTimeout s
  | .reportReceive port hops payload => Sys2Proof.Machine.execReportReceive port hops payload s
  | .chainReceive payload => Sys2Proof.Machine.execChainReceive payload s
  | .pierReqReceive port payload => Sys2Proof.Machine.execPierReqReceive port payload s
  | .assignReceive payload => Sys2Proof.Machine.execAssignReceive payload s
  | .renumReceive payload => Sys2Proof.Machine.execRenumReceive payload s
  | .dennilMessageReceive src msg => Sys2Proof.Machine.execDennilMessageReceive src msg s
  | .bulkPacketReceive port payload => Sys2Proof.Machine.execBulkPacketReceive port payload s
  | .spanChainRead c => Sys2Proof.Machine.execSpanChainRead c s
  | .spanReenumerate c => Sys2Proof.Machine.execSpanReenumerate c s
  | .spanSetHost c => Sys2Proof.Machine.execSpanSetHost c s
  | .spanCreditParams c => Sys2Proof.Machine.execSpanCreditParams c s
  | .hostLinkUp speed width => Sys2Proof.Machine.execHostLinkUp speed width s
  | .configRequest type1 write dw be data tag => Sys2Proof.Machine.execConfigRequest type1 write dw be data tag s
  | .memoryRequest win op dw count first last data tag poisoned check => Sys2Proof.Machine.execMemoryRequest win op dw count first last data tag poisoned check s
  | .busMasterEnableClear => Sys2Proof.Machine.execBusMasterEnableClear s
  | .busMasterEnableSet => Sys2Proof.Machine.execBusMasterEnableSet s
  | .d3hotEntry => Sys2Proof.Machine.execD3hotEntry s
  | .functionLevelReset => Sys2Proof.Machine.execFunctionLevelReset s
  | .flrDmaSilence => Sys2Proof.Machine.execFlrDmaSilence s
  | .flrComplete => Sys2Proof.Machine.execFlrComplete s
  | .linkReset perst => Sys2Proof.Machine.execLinkReset perst s
  | .completionTimeout tag => Sys2Proof.Machine.execCompletionTimeout tag s
  | .completionReceive tag status data => Sys2Proof.Machine.execCompletionReceive tag status data s
  | .tagQuarantineEnd tag => Sys2Proof.Machine.execTagQuarantineEnd tag s
  | .tagPoolSwitch => Sys2Proof.Machine.execTagPoolSwitch s
  | .vectorEoi vector => Sys2Proof.Machine.execVectorEoi vector s
  | .laneMarginCommand lane control errors => Sys2Proof.Machine.execLaneMarginCommand lane control errors s
  | .descriptorImageRefresh => Sys2Proof.Machine.execDescriptorImageRefresh s
  | .channelOpenRequest ch => Sys2Proof.Machine.execChannelOpenRequest ch s
  | .channelOpen ch => Sys2Proof.Machine.execChannelOpen ch s
  | .mbClose ch => Sys2Proof.Machine.execMbClose ch s
  | .commandDoorbell ch tail => Sys2Proof.Machine.execCommandDoorbell ch tail s
  | .commandTake entry indirect data nums => Sys2Proof.Machine.execCommandTake entry indirect data nums s
  | .completionWrite ch => Sys2Proof.Machine.execCompletionWrite ch s
  | .eventDeliver ch => Sys2Proof.Machine.execEventDeliver ch s
  | .deferredComplete ch tag ok back => Sys2Proof.Machine.execDeferredComplete ch tag ok back s
  | .leaseExpiry lease => Sys2Proof.Machine.execLeaseExpiry lease s
  | .sensorProfileLoad c => Sys2Proof.Machine.execSensorProfileLoad c s
  | .portStop c => Sys2Proof.Machine.execPortStop c s
  | .portPower c => Sys2Proof.Machine.execPortPower c s
  | .info c => Sys2Proof.Machine.execInfo c s
  | .channelClose c => Sys2Proof.Machine.execChannelClose c s
  | .expertTokenSet c => Sys2Proof.Machine.execExpertTokenSet c s
  | .fwWrite c => Sys2Proof.Machine.execFwWrite c s
  | .fwActivate c => Sys2Proof.Machine.execFwActivate c s
  | .cmdAbort c => Sys2Proof.Machine.execCmdAbort c s
  | .eventMask c => Sys2Proof.Machine.execEventMask c s
  | .leaseOpen c => Sys2Proof.Machine.execLeaseOpen c s
  | .leaseClose c => Sys2Proof.Machine.execLeaseClose c s
  | .leaseRenew c => Sys2Proof.Machine.execLeaseRenew c s
  | .cwVersion => Sys2Proof.Machine.execCwVersion s
  | .cwStatus => Sys2Proof.Machine.execCwStatus s
  | .fwLoad sigOk check addr => Sys2Proof.Machine.execFwLoad sigOk check addr s
  | .capture => Sys2Proof.Machine.execCapture s
  | .twCommandGo ag block value => Sys2Proof.Machine.execTwCommandGo ag block value s
  | .twTransactionStart block => Sys2Proof.Machine.execTwTransactionStart block s
  | .twTransactionEnd block acked data pecByte status byte bitNo => Sys2Proof.Machine.execTwTransactionEnd block acked data pecByte status byte bitNo s
  | .twTargetCommit block addr bytes close lost => Sys2Proof.Machine.execTwTargetCommit block addr bytes close lost s
  | .twTargetRead block addr clocked win lost => Sys2Proof.Machine.execTwTargetRead block addr clocked win lost s
  | .twSclTimeout block tgt => Sys2Proof.Machine.execTwSclTimeout block tgt s
  | .twSdaTimeout block high => Sys2Proof.Machine.execTwSdaTimeout block high s
  | .twAlertRequest ag block req => Sys2Proof.Machine.execTwAlertRequest ag block req s
  | .twAlertInEdge block low => Sys2Proof.Machine.execTwAlertInEdge block low s
  | .twWakeMatch block a1 => Sys2Proof.Machine.execTwWakeMatch block a1 s
  | .twLoadProfile c => Sys2Proof.Machine.execTwLoadProfile c s
  | .twTgtResp c => Sys2Proof.Machine.execTwTgtResp c s
  | .twXfer c => Sys2Proof.Machine.execTwXfer c s
  | .lbGrant req0 req1 => Sys2Proof.Machine.execLbGrant req0 req1 s
  | .lbOutboundBeat => Sys2Proof.Machine.execLbOutboundBeat s
  | .lbTransactionEnd resp data => Sys2Proof.Machine.execLbTransactionEnd resp data s
  | .lbNorespTimeout => Sys2Proof.Machine.execLbNorespTimeout s
  | .lockedSequence resp => Sys2Proof.Machine.execLockedSequence resp s
  | .lbInboundWrite master addr be data => Sys2Proof.Machine.execLbInboundWrite master addr be data s
  | .lbInboundRead master addr be => Sys2Proof.Machine.execLbInboundRead master addr be s
  | .delayedReadComplete entry status data => Sys2Proof.Machine.execDelayedReadComplete entry status data s
  | .delayedReadDiscard entry => Sys2Proof.Machine.execDelayedReadDiscard entry s
  | .abLogInfoRead ag slot => Sys2Proof.Machine.execAbLogInfoRead ag slot s
  | .sidebandSample lines => Sys2Proof.Machine.execSidebandSample lines s
  | .abLoadProfile c => Sys2Proof.Machine.execAbLoadProfile c s
  | .abParams c => Sys2Proof.Machine.execAbParams c s
  | .codewordRead part idx cw block step fixed uncorr => Sys2Proof.Machine.execCodewordRead part idx cw block step fixed uncorr s
  | .nandProgramDone part block ok last => Sys2Proof.Machine.execNandProgramDone part block ok last s
  | .nandEraseDone part block ok => Sys2Proof.Machine.execNandEraseDone part block ok s
  | .patrolPass done => Sys2Proof.Machine.execPatrolPass done s
  | .blockRefresh part block uncorr => Sys2Proof.Machine.execBlockRefresh part block uncorr s
  | .calCompaction => Sys2Proof.Machine.execCalCompaction s
  | .eraseCreditAccrue => Sys2Proof.Machine.execEraseCreditAccrue s
  | .evidenceWrite good erases cut read => Sys2Proof.Machine.execEvidenceWrite good erases cut read s
  | .logPeriodic => Sys2Proof.Machine.execLogPeriodic s
  | .faultRecord => Sys2Proof.Machine.execFaultRecord s
  | .evidRead c => Sys2Proof.Machine.execEvidRead c s
  | .logRead c => Sys2Proof.Machine.execLogRead c s
  | .evInfo c => Sys2Proof.Machine.execEvInfo c s
  | .evidClear c => Sys2Proof.Machine.execEvidClear c s
  | .tollPeriodStart => Sys2Proof.Machine.execTollPeriodStart s
  | .tollCommit ag => Sys2Proof.Machine.execTollCommit ag s
  | .tollRescale resource => Sys2Proof.Machine.execTollRescale resource s
  | .lp5xChannelLost channel retrain free other copies tiles => Sys2Proof.Machine.execLp5xChannelLost channel retrain free other copies tiles s
  | .scrubPass ces ues => Sys2Proof.Machine.execScrubPass ces ues s
  | .tollLoadProfile c => Sys2Proof.Machine.execTollLoadProfile c s
  | .memInfo c => Sys2Proof.Machine.execMemInfo c s
  | .tollSet c => Sys2Proof.Machine.execTollSet c s
  | .poolSet c => Sys2Proof.Machine.execPoolSet c s
  | .emInputEdge inp ball => Sys2Proof.Machine.execEmInputEdge inp ball s
  | .emOutPulseEnd out => Sys2Proof.Machine.execEmOutPulseEnd out s
  | .emFireWrite ag producer => Sys2Proof.Machine.execEmFireWrite ag producer s
  | .stormTrip producer => Sys2Proof.Machine.execStormTrip producer s
  | .emTripClear ag word mask => Sys2Proof.Machine.execEmTripClear ag word mask s
  | .cellClear ag cell => Sys2Proof.Machine.execCellClear ag cell s
  | .emLoadProfile c => Sys2Proof.Machine.execEmLoadProfile c s
  | .emFire c => Sys2Proof.Machine.execEmFire c s
  | .emRouteLoad c => Sys2Proof.Machine.execEmRouteLoad c s
  | .queueRtagRead ag q poison => Sys2Proof.Machine.execQueueRtagRead ag q poison s
  | .queueStale q => Sys2Proof.Machine.execQueueStale q s
  | .queueHwRead q => Sys2Proof.Machine.execQueueHwRead q s
  | .faultDetect src holds => Sys2Proof.Machine.execFaultDetect src holds s
  | .parapetNoticeReceive payload => Sys2Proof.Machine.execParapetNoticeReceive payload s
  | .supplyExcursion rail => Sys2Proof.Machine.execSupplyExcursion rail s
  | .tjWarn tj => Sys2Proof.Machine.execTjWarn tj s
  | .tjCritical tj => Sys2Proof.Machine.execTjCritical tj s
  | .clockLoss clock => Sys2Proof.Machine.execClockLoss clock s
  | .watchdogExpiry => Sys2Proof.Machine.execWatchdogExpiry s
  | .watchdogKick ag => Sys2Proof.Machine.execWatchdogKick ag s
  | .watchdogEnable ag => Sys2Proof.Machine.execWatchdogEnable ag s
  | .aliveToggle => Sys2Proof.Machine.execAliveToggle s
  | .safeForce ag => Sys2Proof.Machine.execSafeForce ag s
  | .safeRelease ag ended => Sys2Proof.Machine.execSafeRelease ag ended s
  | .stickyClear ag word mask ended => Sys2Proof.Machine.execStickyClear ag word mask ended s
  | .divertHoldWrite ag hold => Sys2Proof.Machine.execDivertHoldWrite ag hold s
  | .paClear c => Sys2Proof.Machine.execPaClear c s
  | .paRelease c => Sys2Proof.Machine.execPaRelease c s
  | .paForceSafe c => Sys2Proof.Machine.execPaForceSafe c s
  | .paConfig c => Sys2Proof.Machine.execPaConfig c s
  | .auditPass => Sys2Proof.Machine.execAuditPass s
  | .writeWindowClose port => Sys2Proof.Machine.execWriteWindowClose port s
  | .ulpsEntryExit port lane mode => Sys2Proof.Machine.execUlpsEntryExit port lane mode s
  | .perstNRelease => Sys2Proof.Machine.execPerstNRelease s
  | .startStopCondition block start => Sys2Proof.Machine.execStartStopCondition block start s
  | .cellFire cell => Sys2Proof.Machine.execCellFire cell s
  | .tjSample tj => Sys2Proof.Machine.execTjSample tj s

end Sys2Proof.Machine
end

