-- ==== Sys2Proof/Machine/Tick.lean ====
section
/-! DEFINITION. One tick of the time island (R183): what the block does while no command waits. -/

namespace Sys2Proof.Machine

/-- A base adds 2 × (2^32 + FREQ) to NS:FRAC; a carry out of NS goes into WRAP, and one out of WRAP is counted (R349). -/
def tickBase (freq : Nat) (t : TimeBase) : TimeBase :=
  let v := (t.ns * 2 ^ 32 + t.frac : Nat) + 2 * (2 ^ 32 + s32 freq)
  let ns := v.toNat / 2 ^ 32
  let wrap := t.wrap + ns / 2 ^ 32
  { t with frac := v.toNat % 2 ^ 32, ns := ns % 2 ^ 32, wrap := wrap % 65536, carries := t.carries + wrap / 65536 }

/-- The FREQ register of base `b`. -/
def freqOf (s : State) (b : Nat) : Nat := rdn s (TB_FREQ + tbo b)

/-- Every base advances by one tick of 2 ns. Nothing counts while PORST_N is asserted. -/
def tick (s : State) : State :=
  if s.rs.held then s
  else { s with bases := Vector.ofFn (fun b => tickBase (freqOf s b.val) s.bases[b]), tick := s.tick + 1 }

end Sys2Proof.Machine
end

