-- ==== Sys2Proof/Safety.lean ====
section
/-! DEFINITION. What the statements rely on: the canonical form of the sparse memories, the registers that the interrupt
logic writes, and what an outcome leaves unchanged. -/

namespace Sys2Proof.Machine

/-- The sparse memories of the unit are in canonical form: the W0 registers, the table windows, LP5X and configuration
space list their keys rising and no value that the unlisted key reads anyway. -/
def Canon (s : State) : Prop :=
  smWf regReset s.regs = true ∧ smWf (fun _ => 0#8) s.tables = true ∧ smWf (fun _ => 0#8) s.mem.lp5 = true ∧
    smWf cfgReset s.he.cfg = true

/-- The components of State, one per field. -/
inductive Comp where
  | pending
  | regs
  | tables
  | mem
  | bases
  | tick
  | time
  | ledger
  | views
  | tiles
  | ports
  | armCtr
  | tw
  | act
  | acct
  | net
  | lanes
  | queues
  | toll
  | em
  | pa
  | he
  | ab
  | ev
  | mb
  | rs
  | outbox
  | freeCtr
  deriving DecidableEq, Repr

/-- Component `p` of `t` is that of `s`. -/
def Comp.same (p : Comp) (s t : State) : Prop :=
  match p with
  | .pending => t.pending = s.pending
  | .regs => t.regs = s.regs
  | .tables => t.tables = s.tables
  | .mem => t.mem = s.mem
  | .bases => t.bases = s.bases
  | .tick => t.tick = s.tick
  | .time => t.time = s.time
  | .ledger => t.ledger = s.ledger
  | .views => t.views = s.views
  | .tiles => t.tiles = s.tiles
  | .ports => t.ports = s.ports
  | .armCtr => t.armCtr = s.armCtr
  | .tw => t.tw = s.tw
  | .act => t.act = s.act
  | .acct => t.acct = s.acct
  | .net => t.net = s.net
  | .lanes => t.lanes = s.lanes
  | .queues => t.queues = s.queues
  | .toll => t.toll = s.toll
  | .em => t.em = s.em
  | .pa => t.pa = s.pa
  | .he => t.he = s.he
  | .ab => t.ab = s.ab
  | .ev => t.ev = s.ev
  | .mb => t.mb = s.mb
  | .rs => t.rs = s.rs
  | .outbox => t.outbox = s.outbox
  | .freeCtr => t.freeCtr = s.freeCtr

/-- The W0 registers that the interrupt logic writes when an event bit changes (R258, R259): HE_IPEND, HE_VEC_ARM and
HE_PBA. -/
def IrqReg (a : Nat) : Prop :=
  (HE_IPEND ≤ a ∧ a < HE_IPEND + 48) ∨ (HE_VEC_ARM ≤ a ∧ a < HE_VEC_ARM + 256) ∨ (HE_PBA ≤ a ∧ a < HE_PBA + 256)

/-- `t` is `s` but for registers, the messages sent and the level of INTx: what a command that only writes registers and
sets event bits leaves. -/
def OnlyRegs (s t : State) : Prop :=
  t = { s with regs := t.regs, outbox := t.outbox, he := { s.he with intx := t.he.intx } }

/-- Every register outside `w` and outside the interrupt logic reads in `t` as in `s`. -/
def KeepsRegs (w : Nat → Prop) (s t : State) : Prop := ∀ a, ¬ w a → ¬ IrqReg a → rdn t a = rdn s a

/-- The components that a command may change; every other component stays as it is. -/
def touches (i : Instr) : List Comp :=
  match i with
  | .calCompaction .. | .logPeriodic .. =>
    [.ev]
  | .laneMarginCommand .. | .perstNRelease .. =>
    [.he]
  | .skipSend .. | .creditAuditSend .. =>
    [.outbox]
  | .tbSnap .. | .channelOpenRequest .. | .eraseCreditAccrue .. | .tollRescale .. =>
    [.regs]
  | .tileIncompleteTimeout .. =>
    [.tiles]
  | .faultRecord .. =>
    [.pa, .ev]
  | .aliveToggle .. =>
    [.pa, .outbox]
  | .frameAssemble .. | .valveFrameEnd .. =>
    [.regs, .act]
  | .tjSample .. =>
    [.regs, .ev]
  | .tagQuarantineEnd .. | .tagPoolSwitch .. | .descriptorImageRefresh .. =>
    [.regs, .he]
  | .leaseExpiry .. =>
    [.regs, .mb]
  | .creditReceive .. =>
    [.regs, .net]
  | .vectorEoi .. | .abLogInfoRead .. | .emOutPulseEnd .. =>
    [.regs, .outbox]
  | .ulpsEntryExit .. =>
    [.regs, .ports]
  | .startStopCondition .. =>
    [.regs, .tw]
  | .ptmDialogue .. =>
    [.time, .outbox]
  | .lbGrant .. | .lbOutboundBeat .. =>
    [.regs, .ab, .outbox]
  | .actCancelReceive .. =>
    [.regs, .act, .acct]
  | .boardPoll .. =>
    [.regs, .act, .outbox]
  | .linkTimeout .. | .verdictDoorbell .. | .cwStatus .. | .twAlertRequest .. | .twAlertInEdge .. | .patrolPass ..
  | .tollCommit .. | .emTripClear .. | .cellClear .. | .writeWindowClose .. =>
    [.regs, .he, .outbox]
  | .spanBitLock .. | .spanLockDone .. =>
    [.regs, .lanes, .outbox]
  | .slotSendStart .. =>
    [.regs, .ports, .tw]
  | .tbNsRead .. =>
    [.regs, .time, .outbox]
  | .statusFrameReceive .. | .pollNoAnswer .. =>
    [.regs, .act, .he, .outbox]
  | .delayedReadDiscard .. =>
    [.regs, .he, .ab, .outbox]
  | .channelOpen .. =>
    [.regs, .he, .mb, .outbox]
  | .cwVersion .. =>
    [.regs, .he, .outbox, .freeCtr]
  | .twWakeMatch .. =>
    [.regs, .he, .rs, .outbox]
  | .dreqReceive .. | .creditReturn .. | .pierReqReceive .. =>
    [.regs, .net, .he, .outbox]
  | .watchdogKick .. | .watchdogEnable .. | .divertHoldWrite .. =>
    [.regs, .pa, .he, .outbox]
  | .attentionButton .. | .cxBankSwapRequest .. | .cxBankCancel .. =>
    [.regs, .ports, .he, .outbox]
  | .twTransactionStart .. =>
    [.regs, .ports, .tw, .outbox]
  | .queueStale .. =>
    [.regs, .queues, .he, .outbox]
  | .tableWindowWrite .. | .statCommit .. =>
    [.regs, .tables, .he, .outbox]
  | .tileRingConsWrite .. =>
    [.regs, .tiles, .he, .outbox]
  | .drespMiss .. | .ppsMiss .. =>
    [.regs, .time, .he, .outbox]
  | .syncSend .. | .syncReceive .. =>
    [.regs, .time, .net, .outbox]
  | .chainReceive .. =>
    [.regs, .net, .he, .mb, .outbox]
  | .slotArm .. =>
    [.regs, .ports, .armCtr, .he, .outbox]
  | .settingWriteDone .. =>
    [.regs, .ports, .tw, .he, .outbox]
  | .sclkDivisorWrite .. | .sgCommit .. | .sgBankSwapRequest .. | .sgBankCancel .. =>
    [.regs, .tables, .ports, .he, .outbox]
  | .functionLevelReset .. =>
    [.regs, .tiles, .he, .ab, .mb]
  | .busMasterEnableClear .. | .d3hotEntry .. =>
    [.regs, .tiles, .ports, .he, .outbox]
  | .verdictFetch .. =>
    [.regs, .tiles, .toll, .he, .outbox]
  | .assignReceive .. | .renumReceive .. =>
    [.regs, .time, .net, .he, .outbox]
  | .spanPacketSend .. =>
    [.regs, .time, .net, .outbox, .freeCtr]
  | .completionWrite .. | .eventDeliver .. =>
    [.regs, .toll, .he, .mb, .outbox]
  | .commandDoorbell .. =>
    [.regs, .toll, .he, .rs, .outbox]
  | .tbStep .. | .tbAlign .. | .tbClearIntegrator .. =>
    [.regs, .bases, .time, .he, .outbox, .freeCtr]
  | .tileDoneReceive .. | .tileAckTimeout .. =>
    [.regs, .ledger, .tiles, .acct, .he, .outbox]
  | .mateWithdrawReceive .. =>
    [.regs, .ledger, .views, .net, .he, .outbox]
  | .enumEndReceive .. | .enumTimeout .. =>
    [.regs, .net, .he, .mb, .outbox, .freeCtr]
  | .tapFrameComplete .. =>
    [.regs, .ports, .toll, .he, .outbox, .freeCtr]
  | .dmCommit .. | .tapEnable .. =>
    [.regs, .tables, .ports, .toll, .he, .outbox]
  | .mateSetReceive .. =>
    [.regs, .ledger, .views, .tiles, .acct, .he, .outbox]
  | .bulkPacketReceive .. =>
    [.regs, .mem, .net, .toll, .he, .mb, .outbox]
  | .scrubPass .. =>
    [.regs, .mem, .net, .toll, .pa, .he, .outbox]
  | .bootInfo .. | .corrSetMode .. | .statStop .. | .spanLaneParams .. | .spanChainRead .. | .spanReenumerate ..
  | .spanSetHost .. | .spanCreditParams .. | .hostLinkUp .. | .info .. | .eventMask .. | .leaseOpen ..
  | .leaseClose .. | .leaseRenew .. | .twTgtResp .. | .evidRead .. | .logRead .. | .evInfo .. | .evidClear ..
  | .tollLoadProfile .. | .memInfo .. | .tollSet .. | .emRouteLoad .. | .paConfig .. =>
    [.regs, .net, .toll, .he, .mb, .outbox, .freeCtr]
  | .embeddedDataCheck .. =>
    [.regs, .ports, .net, .he, .mb, .outbox, .freeCtr]
  | .enumReceive .. =>
    [.regs, .time, .net, .he, .mb, .outbox, .freeCtr]
  | .entryRetire .. =>
    [.regs, .ledger, .act, .acct, .net, .he, .outbox, .freeCtr]
  | .setCloseTime .. | .groupDisable .. | .mateCandReceive .. | .remoteWaitExpiry .. =>
    [.regs, .ledger, .views, .tiles, .acct, .net, .he, .outbox]
  | .tileDescriptorWrite .. =>
    [.regs, .mem, .ledger, .tiles, .acct, .net, .he, .outbox]
  | .poolSet .. =>
    [.regs, .mem, .net, .toll, .he, .mb, .outbox, .freeCtr]
  | .eyeScanStart .. | .eyeScanDone .. | .spanEyeScan .. =>
    [.regs, .net, .lanes, .toll, .he, .mb, .outbox, .freeCtr]
  | .expertTokenSet .. | .fwWrite .. | .fwActivate .. =>
    [.regs, .net, .toll, .he, .ev, .mb, .outbox, .freeCtr]
  | .statRingWrite .. | .queueHwRead .. =>
    [.regs, .ports, .net, .queues, .toll, .pa, .he, .outbox]
  | .corrBankSwap .. | .tapStart .. | .tapStop .. | .segLearnBg .. =>
    [.regs, .ports, .net, .toll, .he, .mb, .outbox, .freeCtr]
  | .slotCancel .. | .settingWriteFail .. | .twTransactionEnd .. | .twTargetRead .. | .twSclTimeout ..
  | .twSdaTimeout .. =>
    [.regs, .ports, .tw, .net, .he, .mb, .outbox, .freeCtr]
  | .latencyProfileSet .. | .corrParams .. | .colourLoadCal .. | .colourParams .. | .statStart .. | .statParams ..
  | .segLoadProfile .. | .segParams .. | .viewLoadCal .. | .viewParams .. | .viewTableLoad .. | .ejectLoadCal .. =>
    [.regs, .tables, .net, .toll, .he, .mb, .outbox, .freeCtr]
  | .twCommandGo .. =>
    [.regs, .tables, .tw, .net, .he, .mb, .outbox, .freeCtr]
  | .timeAlign .. | .timeStep .. =>
    [.regs, .bases, .time, .net, .toll, .he, .mb, .outbox, .freeCtr]
  | .flrDmaSilence .. =>
    [.regs, .ledger, .tiles, .acct, .net, .toll, .he, .ab, .outbox]
  | .orphanTimeout .. =>
    [.regs, .mem, .ledger, .acct, .net, .he, .ev, .outbox, .freeCtr]
  | .tilePacketReceive .. =>
    [.regs, .mem, .ledger, .tiles, .acct, .net, .toll, .he, .outbox]
  | .fwLoad .. =>
    [.regs, .mem, .net, .pa, .he, .ev, .mb, .rs, .outbox]
  | .settingForFrame .. | .settingRawForFrame .. =>
    [.regs, .ports, .armCtr, .net, .toll, .he, .mb, .outbox, .freeCtr]
  | .queueRtagRead .. =>
    [.regs, .ports, .net, .queues, .pa, .he, .mb, .outbox, .freeCtr]
  | .twTargetCommit .. =>
    [.regs, .ports, .tw, .net, .queues, .he, .mb, .outbox, .freeCtr]
  | .settingCancel .. =>
    [.regs, .ports, .tw, .net, .toll, .he, .mb, .outbox, .freeCtr]
  | .corrLoadCal .. | .corrTableLoad .. | .segTableLoad .. =>
    [.regs, .tables, .ports, .net, .toll, .he, .mb, .outbox, .freeCtr]
  | .twLoadProfile .. | .twXfer .. =>
    [.regs, .tables, .tw, .net, .toll, .he, .mb, .outbox, .freeCtr]
  | .completionTimeout .. =>
    [.regs, .tiles, .net, .toll, .pa, .he, .ab, .outbox, .freeCtr]
  | .mateOutcomeReceive .. =>
    [.regs, .mem, .ledger, .views, .acct, .net, .he, .ev, .outbox, .freeCtr]
  | .objectSeen .. =>
    [.regs, .mem, .ledger, .views, .tiles, .acct, .net, .he, .outbox, .freeCtr]
  | .spanDetect .. =>
    [.regs, .ports, .net, .lanes, .pa, .he, .ev, .mb, .outbox, .freeCtr]
  | .stewardRestart .. =>
    [.regs, .ports, .net, .toll, .pa, .he, .mb, .rs, .outbox, .freeCtr]
  | .viewCalRun .. | .ejectCalRun .. =>
    [.regs, .ledger, .views, .tiles, .acct, .net, .toll, .he, .mb, .outbox, .freeCtr]
  | .tileCropStart .. =>
    [.regs, .mem, .ledger, .tiles, .acct, .net, .toll, .pa, .he, .ev, .outbox]
  | .verdictDeadline .. | .mateVerdictReceive .. | .actVerdictReceive .. | .actOrderReceive ..
  | .actResultReceive .. | .remoteLaunch .. =>
    [.regs, .mem, .ledger, .views, .act, .acct, .net, .he, .ev, .outbox, .freeCtr]
  | .evidenceWrite .. =>
    [.regs, .mem, .ports, .net, .toll, .pa, .he, .ev, .mb, .outbox, .freeCtr]
  | .spanTsReceived .. =>
    [.regs, .ports, .net, .lanes, .toll, .pa, .he, .ev, .mb, .outbox, .freeCtr]
  | .viewCalRunEnd .. | .ejectCalRunEnd .. =>
    [.regs, .tables, .ledger, .views, .tiles, .acct, .net, .he, .ev, .mb, .outbox, .freeCtr]
  | .busMasterEnableSet .. =>
    [.regs, .tables, .mem, .ports, .net, .toll, .he, .ab, .ev, .mb, .outbox, .freeCtr]
  | .spanPortEnable .. | .spanStateTimeout .. | .spanLaneFail .. | .spanLinkDown .. | .spanRetrain ..
  | .skipReceive .. | .spanLinkRetrain .. =>
    [.regs, .time, .ports, .net, .lanes, .toll, .pa, .he, .ev, .mb, .outbox, .freeCtr]
  | .mbClose .. =>
    [.regs, .ledger, .views, .tiles, .ports, .tw, .acct, .net, .lanes, .he, .mb, .outbox, .freeCtr]
  | .ejectTest .. =>
    [.regs, .mem, .ledger, .views, .act, .acct, .net, .toll, .he, .ev, .mb, .outbox, .freeCtr]
  | .verdictFetchComplete .. =>
    [.regs, .mem, .ledger, .views, .tiles, .act, .acct, .net, .toll, .he, .ev, .outbox, .freeCtr]
  | .channelClose .. | .cmdAbort .. =>
    [.regs, .ledger, .views, .tiles, .ports, .tw, .acct, .net, .lanes, .toll, .he, .mb, .outbox, .freeCtr]
  | .fullServiceEntry .. | .valveFrameStart .. | .safeFrameRepeat .. | .idleSafeFrame .. | .busEnableWrite ..
  | .creditAuditReceive .. | .emInputEdge .. | .stormTrip .. | .parapetNoticeReceive .. | .supplyExcursion ..
  | .tjWarn .. | .tjCritical .. | .watchdogExpiry .. | .safeForce .. | .safeRelease .. | .stickyClear ..
  | .auditPass .. | .cellFire .. =>
    [.regs, .mem, .ledger, .views, .act, .acct, .net, .em, .pa, .he, .ev, .rs, .outbox, .freeCtr]
  | .pipelineOutputPlace .. =>
    [.regs, .tables, .mem, .ledger, .ports, .acct, .net, .queues, .toll, .pa, .he, .mb, .outbox, .freeCtr]
  | .configRequest .. =>
    [.regs, .tables, .mem, .tiles, .ports, .net, .toll, .pa, .he, .ab, .ev, .mb, .outbox, .freeCtr]
  | .sleep .. =>
    [.regs, .time, .ports, .act, .net, .lanes, .toll, .pa, .he, .ev, .mb, .rs, .outbox, .freeCtr]
  | .tbSourceWrite .. =>
    [.regs, .mem, .bases, .ledger, .views, .act, .acct, .net, .em, .pa, .he, .ev, .rs, .outbox, .freeCtr]
  | .lbTransactionEnd .. | .lbNorespTimeout .. | .lockedSequence .. | .sidebandSample .. =>
    [.regs, .mem, .ledger, .views, .act, .acct, .net, .em, .pa, .he, .ab, .ev, .rs, .outbox, .freeCtr]
  | .reportReceive .. =>
    [.regs, .mem, .ledger, .views, .act, .acct, .net, .em, .pa, .he, .ev, .mb, .rs, .outbox, .freeCtr]
  | .codewordRead .. =>
    [.regs, .mem, .ledger, .views, .act, .acct, .net, .toll, .em, .pa, .he, .ev, .rs, .outbox, .freeCtr]
  | .tbHoldoverEntry .. =>
    [.regs, .mem, .ledger, .views, .ports, .act, .acct, .net, .em, .pa, .he, .ev, .rs, .outbox, .freeCtr]
  | .alarmFire .. =>
    [.regs, .mem, .time, .ledger, .views, .act, .acct, .net, .em, .pa, .he, .ev, .rs, .outbox, .freeCtr]
  | .emFireWrite .. =>
    [.regs, .tables, .mem, .ledger, .views, .act, .acct, .net, .em, .pa, .he, .ev, .rs, .outbox, .freeCtr]
  | .tollPeriodStart .. =>
    [.regs, .tables, .mem, .tiles, .ports, .net, .queues, .toll, .pa, .he, .ab, .ev, .mb, .outbox, .freeCtr]
  | .lbInboundWrite .. | .lbInboundRead .. =>
    [.regs, .mem, .ledger, .views, .act, .acct, .net, .toll, .em, .pa, .he, .ab, .ev, .rs, .outbox, .freeCtr]
  | .emFire .. | .paClear .. | .paRelease .. | .paForceSafe .. =>
    [.regs, .mem, .ledger, .views, .act, .acct, .net, .toll, .em, .pa, .he, .ev, .mb, .rs, .outbox, .freeCtr]
  | .firmwareStartTimeout .. | .faultDetect .. =>
    [.regs, .mem, .ledger, .views, .ports, .act, .acct, .net, .em, .pa, .he, .ev, .mb, .rs, .outbox, .freeCtr]
  | .helloReceive .. =>
    [.regs, .mem, .time, .ledger, .views, .act, .acct, .net, .em, .pa, .he, .ev, .mb, .rs, .outbox, .freeCtr]
  | .flrComplete .. =>
    [.regs, .mem, .time, .ledger, .views, .tiles, .ports, .tw, .acct, .net, .lanes, .queues, .he, .mb, .outbox,
     .freeCtr]
  | .tb1Measure .. | .drespReceive .. | .ptmResponse .. | .ppsEdge .. =>
    [.regs, .mem, .bases, .time, .ledger, .views, .ports, .act, .acct, .net, .em, .pa, .he, .ev, .rs, .outbox,
     .freeCtr]
  | .nandProgramDone .. | .nandEraseDone .. | .blockRefresh .. =>
    [.regs, .mem, .ledger, .views, .ports, .act, .acct, .net, .toll, .em, .pa, .he, .ev, .mb, .rs, .outbox,
     .freeCtr]
  | .linkReset .. =>
    [.regs, .mem, .ledger, .views, .tiles, .act, .acct, .net, .em, .pa, .he, .ab, .ev, .mb, .rs, .outbox,
     .freeCtr]
  | .completionReceive .. | .delayedReadComplete .. =>
    [.regs, .mem, .ledger, .views, .tiles, .ports, .act, .acct, .net, .toll, .pa, .he, .ab, .ev, .mb, .outbox,
     .freeCtr]
  | .emLoadProfile .. =>
    [.regs, .tables, .mem, .ledger, .views, .act, .acct, .net, .toll, .em, .pa, .he, .ev, .mb, .rs, .outbox,
     .freeCtr]
  | .lp5xChannelLost .. =>
    [.regs, .mem, .ledger, .views, .tiles, .ports, .act, .acct, .net, .toll, .em, .pa, .he, .ev, .mb, .rs,
     .outbox, .freeCtr]
  | .abLoadProfile .. | .abParams .. =>
    [.regs, .tables, .mem, .ledger, .views, .act, .acct, .net, .toll, .em, .pa, .he, .ab, .ev, .mb, .rs,
     .outbox, .freeCtr]
  | .powerOnResetRelease .. | .wake .. | .spanExchangeDone .. =>
    [.regs, .mem, .time, .ledger, .views, .ports, .act, .acct, .net, .lanes, .toll, .em, .pa, .he, .ev, .mb,
     .rs, .outbox, .freeCtr]
  | .csi2PacketReceive .. | .frameStart .. | .frameEnd .. | .frameTimeout .. =>
    [.regs, .tables, .mem, .ledger, .views, .ports, .act, .acct, .net, .queues, .toll, .em, .pa, .he, .ev, .mb,
     .rs, .outbox, .freeCtr]
  | .timeLoadProfile .. =>
    [.regs, .tables, .mem, .bases, .time, .ledger, .views, .ports, .act, .acct, .net, .toll, .em, .pa, .he, .ev,
     .mb, .rs, .outbox, .freeCtr]
  | .portEnable .. | .portDisable .. | .presenceAssert .. | .presenceLost .. | .powerFault .. | .slotPowerWrite ..
  | .powerSettle .. | .slotCapCommit .. | .orderlyStop .. | .portStop .. | .portPower .. | .capture .. =>
    [.regs, .tables, .mem, .ledger, .views, .ports, .tw, .act, .acct, .net, .queues, .toll, .em, .pa, .he, .ev,
     .mb, .rs, .outbox, .freeCtr]
  | .spanPacketForward .. =>
    [.regs, .mem, .bases, .time, .ledger, .views, .tiles, .ports, .act, .acct, .net, .queues, .toll, .em, .pa,
     .he, .ev, .mb, .rs, .outbox, .freeCtr]
  | .clockLoss .. =>
    [.regs, .mem, .time, .ledger, .views, .tiles, .ports, .act, .acct, .net, .lanes, .toll, .em, .pa, .he, .ab,
     .ev, .mb, .rs, .outbox, .freeCtr]
  | .dennilRunning .. =>
    [.regs, .tables, .mem, .bases, .time, .ledger, .views, .ports, .act, .acct, .net, .lanes, .toll, .em, .pa,
     .he, .ev, .mb, .rs, .outbox, .freeCtr]
  | .hotInsertProfileLoad .. | .sensorProfileLoad .. =>
    [.regs, .tables, .mem, .ledger, .views, .ports, .armCtr, .tw, .act, .acct, .net, .queues, .toll, .em, .pa,
     .he, .ev, .mb, .rs, .outbox, .freeCtr]
  | .deferredComplete .. =>
    [.regs, .tables, .mem, .ledger, .views, .tiles, .ports, .armCtr, .tw, .act, .acct, .net, .lanes, .queues,
     .toll, .em, .pa, .he, .ev, .mb, .rs, .outbox, .freeCtr]
  | .registerWrite .. | .memoryRequest .. =>
    [.regs, .tables, .mem, .bases, .time, .ledger, .views, .tiles, .ports, .armCtr, .tw, .act, .acct, .net,
     .lanes, .queues, .toll, .em, .pa, .he, .ab, .ev, .mb, .rs, .outbox, .freeCtr]
  | .powerOnReset .. | .aonBrownout .. | .unitReset .. | .dennilMessageReceive .. | .commandTake .. =>
    [.regs, .tables, .mem, .bases, .tick, .time, .ledger, .views, .tiles, .ports, .armCtr, .tw, .act, .acct,
     .net, .lanes, .queues, .toll, .em, .pa, .he, .ab, .ev, .mb, .rs, .outbox, .freeCtr]

/-- Command `c` of this unit's own channels is accepted in `s` and runs here (R275, R277, R278): a command waits, read or
readable, on an open channel with a free completion slot, the checks of R275 pass once it is taken, it names no other pier, and
fewer than sixteen commands of its channel are deferred. -/
def Accepted (sp : CmdSpec) (c : CmdCall) (s : State) : Prop :=
  c.origin = none ∧ mbGate c s = true ∧ checkHeader sp c (mbTake c s) = none ∧ isRemote c (mbTake c s) = false ∧
    checkScope sp c (mbTake c s) = none ∧ (chan (mbTake c s) c.chan.val).deferred.length < 16

end Sys2Proof.Machine
end

