-- ==== Sys2Proof/Certificates/Slice0/Obligations.lean ====
section
/-! DEFINITION. The statements about the block, for the provers: what the block does with its queue and its ticks, what every
command keeps, and per chapter where each command completes and with what effect. -/

open Sys2Proof Sys2Proof.Machine

/-! ## The block: the queue, ticks, reset -/

/-- The block takes the command at the front of its queue and runs it with the rest of the queue. -/
def Obligations.StepRunsFrontCommand : Prop :=
  ∀ (s : State) (c : Instr) (rest : List Instr), s.pending = c :: rest → step s = exec c { s with pending := rest }

/-- With no command waiting one tick of the time island passes (log 5 for the choice): while PORST_N is held nothing changes;
else each base, taken as one number of its carries, WRAP, NS and FRAC, grows by 2 × (2^32 + FREQ) units of 2^-32 ns, with
WRAP below 65536 and NS and FRAC below 2^32 after it (R183), and nothing but the bases and the tick count changes. -/
def Obligations.IdleStepIsOneTick : Prop :=
  (∀ s : State, s.pending = [] → s.rs.held = true → step s = .next s) ∧
  (∀ s : State, s.pending = [] → s.rs.held = false → ∃ t, step s = .next t ∧ t.tick = s.tick + 1 ∧
    (∀ p : Comp, p ≠ .bases → p ≠ .tick → p.same s t) ∧
    ∀ b : Fin 4, ∀ n : TimeBase → Int, (∀ x : TimeBase, n x = ((x.carries * 65536 + x.wrap) * 2 ^ 32 + x.ns) * 2 ^ 32 + x.frac) →
      n t.bases[b] = n s.bases[b] + 2 * (2 ^ 32 + s32 (rdn s (TB_FREQ + tbo b.val))) ∧
      t.bases[b].wrap < 65536 ∧ t.bases[b].ns < 2 ^ 32 ∧ t.bases[b].frac < 2 ^ 32)

/-- No command ends in a fault or a refusal, and none touches the queue of the commands that wait: for every command and
every state there is a next state, with the same queue. -/
def Obligations.EveryCommandAnswersANextState : Prop :=
  ∀ (c : Instr) (s : State), ∃ t, exec c s = .next t ∧ t.pending = s.pending

/-- The frame of every command by components of State: where a command answers a next state, every component that `touches`
does not list for it is in that state as before. -/
def Obligations.CommandsKeepUntouchedComponents : Prop :=
  ∀ (c : Instr) (s t : State), exec c s = .next t → ∀ p : Comp, p ∉ touches c → p.same s t

/-- Every step keeps the canonical form of the registers, the table windows, LP5X and configuration space. -/
def Obligations.EveryStepKeepsCanonicalMemories : Prop :=
  ∀ s t : State, Canon s → step s = .next t → Canon t

/-- The memories of the reset state are in canonical form. -/
def Obligations.ResetMemoriesAreCanonical : Prop :=
  Canon State.reset

/-- What reset leaves: every register reads its reset value (three of them are named), the table windows and LP5X list
nothing, the queue blocks, the ledger and the queue of waiting commands are empty, no port has a frame open or a line held,
every base stands at WRAP:NS 0, and PORST_N is still held. That LP5X reads 0 where nothing has been written is the model's
choice (log 2). -/
def Obligations.ResetStateHoldsResetValues : Prop :=
  (∀ a, rd State.reset a = regReset a) ∧ (∀ a, tblGet State.reset a = 0#8) ∧ (∀ a, lp5Get State.reset a = 0#8) ∧
  State.reset.tables = [] ∧ State.reset.mem.lp5 = [] ∧ State.reset.queues = [] ∧
  State.reset.pending = [] ∧ State.reset.rs.held = true ∧ State.reset.ledger.entries = [] ∧
  (∀ p : Fin 16, State.reset.ports[p].cur = none ∧ State.reset.ports[p].lines = []) ∧
  (∀ b : Fin 4, State.reset.bases[b].ns = 0 ∧ State.reset.bases[b].wrap = 0) ∧
  rdn State.reset HE_ID = 0x16640000 ∧ rdn State.reset HE_CPL_TMO = 0x9C40 ∧ rdn State.reset (PA_CLASS) = paClassWord 0

/-! ## Registers, fields, counters, memories -/

/-- Registers hold what is written, every register by itself: a read after a write gives the value modulo 2^32, and every
other register keeps its value; a field just set reads the value cut to its width, and the register's other bits stay.
Counters: a diagnostic counter below FFFFFFFFh rises by 1 and stops at FFFFFFFFh, and a count leaves every other register.
LP5X by bytes (R355, R359): a byte just written reads back unless its channel is lost, where a write is discarded; every
other byte keeps its value; and the bytes of a list written from an address read back, every byte outside them as before. -/
def Obligations.RegistersAndMemoriesReadAsWritten : Prop :=
  (∀ (s : State) (a v : Nat), rdn (wrn s a v) a = v % 2 ^ 32) ∧
  (∀ (s : State) (a b v : Nat), b ≠ a → rdn (wrn s a v) b = rdn s b) ∧
  (∀ (s : State) (f : Fld) (v o : Nat), f.lo ≤ f.hi → f.hi < 32 → fget (fset s f v o) f o = v % 2 ^ (f.hi + 1 - f.lo)) ∧
  (∀ (s : State) (f : Fld) (v o i : Nat), f.lo ≤ f.hi → f.hi < 32 → (i < f.lo ∨ f.hi < i) →
    (rdn (fset s f v o) (f.reg + o)).testBit i = (rdn s (f.reg + o)).testBit i) ∧
  (∀ (s : State) (a : Nat), rdn s a < 0xFFFFFFFF → rdn (cnt s a) a = rdn s a + 1) ∧
  (∀ (s : State) (a : Nat), rdn s a = 0xFFFFFFFF → rdn (cnt s a) a = 0xFFFFFFFF) ∧
  (∀ (s : State) (a b : Nat), b ≠ a → rdn (cnt s a) b = rdn s b) ∧
  (∀ (s : State) (a : Nat) (b : Byte), lp5Lost s a = false → lp5Get (lp5Put s a b) a = b) ∧
  (∀ (s : State) (a : Nat) (b : Byte), lp5Lost s a = true → lp5Put s a b = s) ∧
  (∀ (s : State) (a k : Nat) (b : Byte), k ≠ a → lp5Get (lp5Put s a b) k = lp5Get s k) ∧
  (∀ (s : State) (a i : Nat) (l : List Byte), i < l.length → (∀ j, j < l.length → lp5Lost s (a + j) = false) →
    lp5Get (lp5Puts s a l) (a + i) = l.getD i 0#8) ∧
  (∀ (s : State) (a k : Nat) (l : List Byte), (k < a ∨ a + l.length ≤ k) → lp5Get (lp5Puts s a l) k = lp5Get s k)

/-- Setting an event bit (R258): the bit reads 1, every other bit of its register stays, and beside HE_IPEND, HE_VEC_ARM and
HE_PBA no other register changes, nor anything but the messages sent and the level of INTx. -/
def Obligations.EventSetsItsBitAndKeepsTheRest : Prop :=
  (∀ (s : State) (f : Fld) (o : Nat), f.lo = f.hi → f.hi < 32 → ¬ IrqReg (f.reg + o) → fbit (evt s f o) f o = true) ∧
  (∀ (s : State) (f : Fld) (o i : Nat), f.lo = f.hi → f.hi < 32 → ¬ IrqReg (f.reg + o) → i ≠ f.hi →
    (rdn (evt s f o) (f.reg + o)).testBit i = (rdn s (f.reg + o)).testBit i) ∧
  (∀ (s : State) (f : Fld) (o a : Nat), a ≠ f.reg + o → ¬ IrqReg a → rdn (evt s f o) a = rdn s a) ∧
  (∀ (s : State) (f : Fld) (o : Nat), OnlyRegs s (evt s f o))

/-! ## Reset, boot, sleep (chapter 24) -/

/-- POWER_ON_RESET and AON_BROWNOUT (R418, R427, R436): each returns the unit to its reset state, PORST_N held, but for what
stands on the medium (`keepMedium`: header, records, log, calibration, configuration, bad blocks, slots, token), the level of
PERST_N, and the model's own queue, free-value counter and messages already sent, to which the outputs' reset levels are
added. -/
def Obligations.PowerOnResetClearsAllButTheMedium : Prop :=
  (∀ s : State, exec .powerOnReset s = .next (porst s)) ∧
  (∀ s : State, exec .aonBrownout s = .next (porst s)) ∧
  (∀ (s : State) (p : Comp), p ≠ .pending → p ≠ .ev → p ≠ .he → p ≠ .outbox → p ≠ .freeCtr → p.same State.reset (porst s)) ∧
  (∀ s : State, (porst s).pending = s.pending ∧ (porst s).freeCtr = s.freeCtr ∧ (porst s).ev = keepMedium s.ev ∧
    (porst s).he = { State.reset.he with perst := s.he.perst } ∧ (porst s).rs.held = true ∧
    (∀ o ∈ s.outbox, o ∈ (porst s).outbox) ∧ .pin "DIVERT_N" 0 false ∈ (porst s).outbox ∧
    .pin "ALIVE" 0 false ∈ (porst s).outbox ∧ .pin "REPLACE_N" 0 true ∈ (porst s).outbox)

/-- POWER_ON_RESET_RELEASE while PORST_N is held (R420 to R424): the straps are sampled and the receivers checked. When trim
or fuses do not resolve, datum 1 is refused and Causeway service comes up. When they resolve and the medium cannot be used,
with a boot source other than the host, the fuses are read, LP5X is trained, boot error 3 is recorded, and Causeway service
comes up. When they resolve, LP5X trains, the medium can be used and its header is chosen, with a sound descriptor image,
that image is copied, Causeway service comes up and an image is selected. DENNIL_RUNNING, FIRMWARE_START_TIMEOUT,
FULL_SERVICE_ENTRY (R422, R426, R428). A started image (state 1) that reports running becomes state 2: the medium is
formatted where it is not, the BOOT record is written, the watchdog is kicked, the take-over runs, and a HELLO goes out where
its contents change. A started image that does not reach running in time has the steward restart with the slots still to try,
after a restart with a detection of source 002h first. Full service, where Dennil runs, TB1 is locked, steps 1 to 4 are done
and the safe state is not in force: the buses named are enabled, the watchdog starts and HOLD is cleared. -/
def Obligations.BootStepsComplete : Prop :=
  (∀ (f : BootFound) (s u : State), s.rs.held = true → f.trimOk = false →
    u = phyCheck f.phyDead.toNat (sampleStraps f (idleBuses { s with rs := { s.rs with held := false } })) →
    exec (.powerOnResetRelease f) s = .next (causewayStart (refuseDatum 1 u))) ∧
  (∀ (f : BootFound) (s u s1 : State), s.rs.held = true → f.trimOk = true → mediumUsable f.medium = false → f.bootSrc.val ≠ 1 →
    u = phyCheck f.phyDead.toNat (sampleStraps f (idleBuses { s with rs := { s.rs with held := false } })) →
    s1 = bootError 3 (lp5xTrain f.lp5xGiB (readFuses f u)) →
    exec (.powerOnResetRelease f) s = .next (causewayStart { s1 with rs := { s1.rs with mediumOk := false } })) ∧
  (∀ (f : BootFound) (s u s1 s2 : State), s.rs.held = true → f.trimOk = true → mediumUsable f.medium = true → f.lp5xGiB ≠ 0 →
    f.imageOk = true →
    u = phyCheck f.phyDead.toNat (sampleStraps f (idleBuses { s with rs := { s.rs with held := false } })) →
    s1 = mediumBoot f.medium (lp5xTrain f.lp5xGiB (readFuses f u)) → fget s1 fEV_STAT_STATE = 2 →
    s2 = { s1 with rs := { s1.rs with mediumOk := true } } →
    exec (.powerOnResetRelease f) s = .next (selectImage f.signed.toNat (causewayStart (imageCopy s2)))) ∧
  (∀ s : State, fget s fMB_DENNIL_STAT_STATE = 1 →
    exec .dennilRunning s =
      .next (helloOnChange s (takeOver (wdogKick (bootRecord (formatMedium (fset s fMB_DENNIL_STAT_STATE 2))))))) ∧
  (∀ (g : BitVec 3) (s : State), fget s fMB_DENNIL_STAT_STATE = 1 → rdn s RS_CNT_RESTART = 0 →
    exec (.firmwareStartTimeout g) s = .next (stewardRestart g.toNat (some s.rs.toTry) s)) ∧
  (∀ (g : BitVec 3) (s : State), fget s fMB_DENNIL_STAT_STATE = 1 → rdn s RS_CNT_RESTART ≠ 0 →
    exec (.firmwareStartTimeout g) s =
      .next (stewardRestart g.toNat (some (paDetect 2 s).rs.toTry) (paDetect 2 s))) ∧
  (∀ (b : BitVec 4) (s s1 : State), dennilUp s = true → t1Locked s = true → safeState s = false → 4 ≤ s.rs.step →
    s1 = forEach ((List.range 4).filter (bit b.toNat)) (fun k t => busEnable k true t) s →
    exec (.fullServiceEntry b) s = .next (holdWrite false (wdogEnable { s1 with rs := { s1.rs with step := 6 } })))

/-- UNIT_RESET, STEWARD_RESTART, SLEEP, BOOT_INFO, WAKE (R428 to R430). An accepted UNIT_RESET holds the internal reset with
RS_CAUSE UNIT. An accepted STEWARD_RESTART with no deferred command completes and restarts the steward. An accepted SLEEP on
an idle unit without leases puts it to sleep with the patrol stopped. An accepted BOOT_INFO completes with RS_BOOT, RS_STRAP,
RS_CAUSE and the step. A requested wake of a unit for which nothing was stopped ends the sleep and sets RS_CAUSE.WAKE.
CAPTURE, CLOCK_LOSS, PERST_N_RELEASE, TJ_SAMPLE (R419, R425, R439, R451). In Causeway service with GO given, a CAPTURE with
STOP set stops its port and completes; one without it, whose geometry is valid and whose buffer is aligned and large enough,
starts the capture and completes with the slot size. A lost clock is detected, and takes both Span links or the host link
down where it is theirs. PERST_N released is recorded. A temperature sample is shown in TJ and, while Dennil runs on a
formatted medium, counts a minute in its band; without one the store's records stay. -/
def Obligations.ResetAndSampleCommandsComplete : Prop :=
  (∀ (c : CmdCall) (s : State), Accepted ⟨0x1813, 0x10, true, 8, 8, false, true⟩ c s →
    exec (.unitReset c) s = .next (wrn (porst (mbTake c s)) RS_CAUSE 2)) ∧
  (∀ (c : CmdCall) (s : State), Accepted ⟨0x1811, 0x10, false, 8, 8, false, true⟩ c s →
    deferredAll (mbTake c s) = [] →
    exec (.stewardRestart c) s =
      .next (stewardRestart (numAt c 0).toNat none (completeNow 0x1811 c (mbTake c s)))) ∧
  (∀ (c : CmdCall) (s : State), Accepted ⟨0x1812, 0x13, false, 8, 8, false, true⟩ c s →
    unitIdle (mbTake c s) = true → (∀ i, i < 32 → leaseHeld (mbTake c s) i = false) →
    ∃ t, exec (.sleep c) s = .next t ∧ t.rs.asleep = true ∧ t.rs.wakeReq = false ∧ fbit t fEV_STAT_PATROL = false) ∧
  (∀ (c : CmdCall) (s u : State), Accepted ⟨0x1810, 0x10, false, 0, 0, false, true⟩ c s → u = mbTake c s →
    exec (.bootInfo c) s = .next (completeCmd ⟨0x1810, 0x10, false, 0, 0, false, true⟩ c 0 0
      (leBytes 4 (rdn u RS_BOOT) ++ leBytes 4 (rdn u RS_STRAP) ++ leBytes 4 (rdn u RS_CAUSE) ++ leBytes 1 u.rs.step) u)) ∧
  (∀ s : State, s.rs.asleep = true → s.rs.wakeReq = true → s.rs.slept = [] →
    ∃ t, exec .wake s = .next t ∧ t.rs.asleep = false ∧ t.rs.wakeReq = false ∧ fbit t fRS_CAUSE_WAKE = true) ∧
  (∀ s : State, cwServes s = true → causeway s = true → bit (cwArg s 0) 1 = true →
    exec .capture s = .next (cwDone 4 0 [] (captureStop (cwArg s 0 % 2) s))) ∧
  (∀ s t : State, cwServes s = true → causeway s = true → bit (cwArg s 0) 1 = false →
    t = captureRegs (cwArg s 0 % 2) (cwArg s 0) (cwArg s 1) (portOff (cwArg s 0 % 2) s) →
    portValid t (cwArg s 0 % 2) = true → cwArg s 2 % 4096 = 0 →
    bits (cwArg s 1) 30 16 * ((bits (cwArg s 1) 15 0 + 3) / 4) ≤ cwArg s 3 →
    ∃ k : Capture, k.port = cwArg s 0 % 2 ∧ k.width = bits (cwArg s 1) 30 16 ∧ k.height = bits (cwArg s 1) 15 0 ∧
      k.off = cwArg s 2 ∧ k.size = k.width * ((k.height + 3) / 4) ∧ k.slots = cwArg s 3 / k.size ∧
      exec .capture s = .next (cwDone 4 0 [k.size] (captureStart k.port k t))) ∧
  (∀ s : State, exec (.clockLoss 0) s = .next (monitorTrip 0x1A s) ∧
    exec (.clockLoss 1) s = .next (withCut 1 (linkDown 1) (withCut 0 (linkDown 0) (monitorTrip 0x1B s))) ∧
    exec (.clockLoss 2) s = .next (linkReset (monitorTrip 0x1C s))) ∧
  (∀ s : State, exec .perstNRelease s = .next { s with he := { s.he with perst := true } }) ∧
  (∀ (tj : BitVec 16) (s : State), ∃ t, exec (.tjSample tj) s = .next t ∧ fget t fPA_THERM_TJ = tj.toNat ∧
    (evRunning s = true → dennilUp s = true → t.ev.bandMin = upd s.ev.bandMin (tjBand tj.toInt) (· + 1)) ∧
    (evRunning s = false → t.ev = s.ev))

/-! ## Sensor ports (chapter 2) -/

/-- PORT_ENABLE and PORT_DISABLE by Dennil or under a lease of function 02h for the port (R22, R25, R39). PORT_ENABLE is a
write of PP_CTL with EN = 1; PORT_DISABLE of an enabled port ends what is open, clears EN and SG_STAT.ACTIVE, cancels the
slots and sends the REPORT that the change makes due, and of a disabled port cancels the slots. A write of PP_CTL that sets
EN on a port neither enabled nor the odd half of a ganged pair, with no change of GANG, writes the other fields and then
enables the port. An enable of an invalid configuration sets CFG_ERR and leaves EN; one of a valid configuration whose
staging ring fits the pool sets EN, PP_FRAME_CNT FFFFFFFFh, CFG_ERR 0, and an empty staging ring of the blocks needed. -/
def Obligations.PortEnableAndDisable : Prop :=
  (∀ (ag : Agent) (p : PortNo) (v : BitVec 32) (s : State), (ag = .dennil ∨ leased s 2 (some p.val) = true) →
    exec (.portEnable ag p v) s = .next (ppCtlPut p.val (setBits v.toNat 31 31 1) s)) ∧
  (∀ (ag : Agent) (p : PortNo) (s : State), (ag = .dennil ∨ leased s 2 (some p.val) = true) →
    fbit s fPP_CTL_EN (pof p.val) = true →
    exec (.portDisable ag p) s = .next (idleReport (slotsCancel p.val (fbset (fbset (portEnds p.val 0 true s) fPP_CTL_EN false
      (pof p.val)) fSG_STAT_ACTIVE false (pof p.val))))) ∧
  (∀ (ag : Agent) (p : PortNo) (s : State), (ag = .dennil ∨ leased s 2 (some p.val) = true) →
    fbit s fPP_CTL_EN (pof p.val) = false → exec (.portDisable ag p) s = .next (slotsCancel p.val s)) ∧
  (∀ (p : PortNo) (v : Nat) (s : State), gangedOdd s p.val = false → fbit s fPP_CTL_EN (pof p.val) = false → bit v 31 = true →
    (p.val % 2 == 0 && bit v 29) = gangedEven s p.val →
    ppCtlPut p.val v s = (let a := putWord (PP_CTL + pof p.val) (setBits v 31 31 0) s
      portOn p.val (sclkAll (ffSources p.val (if p.val % 2 = 1 then fbset a fPP_CTL_GANG false (pof p.val) else a))))) ∧
  (∀ (p : PortNo) (s : State), fbit s fPP_CTL_EN (pof p.val) = false → portValid s p.val = false →
    ∃ t, portOn p.val s = mirror p.val t ∧ fbit t fPP_STAT_CFG_ERR (pof p.val) = true ∧ fbit t fPP_CTL_EN (pof p.val) = false) ∧
  (∀ (p : PortNo) (s : State), fbit s fPP_CTL_EN (pof p.val) = false → portValid s p.val = true →
    poolCan (poolGive s 0 (portSt s p.val).stageBlocks) 0 (stageNeed s p.val) = true →
    ∃ t, portOn p.val s = idleReport (mirror p.val t) ∧ fbit t fPP_CTL_EN (pof p.val) = true ∧
      rdn t (PP_FRAME_CNT + pof p.val) = 0xFFFFFFFF ∧ fbit t fPP_STAT_CFG_ERR (pof p.val) = false ∧
      (portSt t p.val).stageBlocks = stageNeed s p.val ∧ (portSt t p.val).stage = [])

/-- A host write of Dennil-owned fields without a covering lease is discarded (R268): it changes nothing, and one that would
have changed a field is counted in MB_CNT_NOLEASE and sets the NOLEASE event of every open channel, with nothing but
registers, messages and INTx changed. Two rows are named: a PORT_ENABLE that would change PP_CTL and a PORT_DISABLE of an
enabled port. -/
def Obligations.UnleasedHostWriteIsDiscarded : Prop :=
  (∀ (func : Nat) (port : Option Nat) (f : State → State) (s : State), leased s func port = false →
    gated .host func port true f s = noLease s ∧ gated .host func port false f s = s) ∧
  (∀ s : State, rdn s MB_CNT_NOLEASE < 0xFFFFFFFF → rdn (noLease s) MB_CNT_NOLEASE = rdn s MB_CNT_NOLEASE + 1) ∧
  (∀ (s : State) (c : Nat), c < 4 → chOpen s c = true → fbit (noLease s) fMB_EVT_NOLEASE (mbo c) = true) ∧
  (∀ s : State, OnlyRegs s (noLease s)) ∧
  (∀ (p : PortNo) (v : BitVec 32) (s : State), leased s 2 (some p.val) = false →
    rdn s (PP_CTL + pof p.val) ≠ setBits v.toNat 31 31 1 → exec (.portEnable .host p v) s = .next (noLease s)) ∧
  (∀ (p : PortNo) (s : State), leased s 2 (some p.val) = false → fbit s fPP_CTL_EN (pof p.val) = true →
    exec (.portDisable .host p) s = .next (noLease s))

/-- CSI2_PACKET_RECEIVE (R18, R19, R21, R29). On a port that receives, after the burst is noted: a header beyond correction
sets HDR_ERR, is counted, and marks the open frame HDR_LOST; with a clean header and payload, an image line of the pipeline's
type and channel goes to the pipeline, one of another type or channel and a generic short packet go to the port's side queue,
embedded data to its embedded-data queue; a corrected header is counted, and a type between 18h and 29h that is not the
pipeline's sets UNSUP and is counted. On a port that does not receive a packet does nothing. FRAME_START, FRAME_END,
FRAME_TIMEOUT (R25). On a port that receives, an FS closes a frame still open as one without FE, opens a frame whose stamp is
that of the FS less PP_TS_ADJ, advances the setting slots and fires the port's frame-start event; an FE closes the open frame
with no status bit of its own. A timeout closes the open frame with TMO, and does nothing where no frame is open or the
timeout latched at its start is 0. PIPELINE_OUTPUT_PLACE (R82): the pipeline takes items until none waits or it stalls, and
the statistics that are then ready are completed; with nothing waiting and no stall only the statistics are. A line to be
placed, while TO_CTL.EN is 0, is placed: what is owed ends and the next line becomes due. -/
def Obligations.FramesPacketsAndPlacesComplete : Prop :=
  (∀ (p : PortNo) (st : BitVec 32) (dt : BitVec 6) (vc : BitVec 4) (fl : BitVec 16) (l : List Byte) (e : Bool) (s u : State),
    portRx s p.val = true → u = updPort s p.val (fun x => { x with burst := true }) →
    exec (.csi2PacketReceive p st 2 dt vc fl l e) s =
      .next (markFrame p.val fsHDR_LOST (evtCnt u fPP_EVT_HDR_ERR PP_CNT_HDR_ERR (pof p.val)))) ∧
  (∀ (p : PortNo) (st : BitVec 32) (dt : BitVec 6) (vc : BitVec 4) (fl : BitVec 16) (l : List Byte) (s u : State),
    portRx s p.val = true → u = updPort s p.val (fun x => { x with burst := true }) →
    dt.toNat = fget u fPP_CTL_DT_PIPE (pof p.val) → vc.toNat = fget u fPP_CTL_VC_PIPE (pof p.val) → 0x2A ≤ dt.toNat →
    exec (.csi2PacketReceive p st 0 dt vc fl l false) s = .next (pipeLine p.val st.toNat l false u)) ∧
  (∀ (p : PortNo) (st : BitVec 32) (dt : BitVec 6) (vc : BitVec 4) (fl : BitVec 16) (l : List Byte) (s u : State),
    portRx s p.val = true → u = updPort s p.val (fun x => { x with burst := true }) →
    (dt.toNat ≠ fget u fPP_CTL_DT_PIPE (pof p.val) ∨ vc.toNat ≠ fget u fPP_CTL_VC_PIPE (pof p.val)) → 0x2A ≤ dt.toNat → dt.toNat ≤ 0x2E →
    exec (.csi2PacketReceive p st 0 dt vc fl l false) s = .next (sidePacket p.val p.val
      (sideRecord u p.val dt.toNat vc.toNat st.toNat false l.length l false) u)) ∧
  (∀ (p : PortNo) (st : BitVec 32) (dt : BitVec 6) (vc : BitVec 4) (fl : BitVec 16) (l : List Byte) (s u : State),
    portRx s p.val = true → u = updPort s p.val (fun x => { x with burst := true }) → 8 ≤ dt.toNat → dt.toNat ≤ 0xF →
    exec (.csi2PacketReceive p st 0 dt vc fl l false) s = .next (sidePacket p.val p.val
      (sideRecord u p.val dt.toNat vc.toNat st.toNat true fl.toNat l false) u)) ∧
  (∀ (p : PortNo) (st : BitVec 32) (dt : BitVec 6) (vc : BitVec 4) (fl : BitVec 16) (l : List Byte) (s u : State),
    portRx s p.val = true → u = updPort s p.val (fun x => { x with burst := true }) → dt.toNat = 0x12 →
    exec (.csi2PacketReceive p st 0 dt vc fl l false) s = .next (sidePacket (16 + p.val) p.val
      (sideRecord u p.val 0x12 vc.toNat st.toNat false l.length l false) u)) ∧
  (∀ (p : PortNo) (st : BitVec 32) (dt : BitVec 6) (vc : BitVec 4) (fl : BitVec 16) (l : List Byte) (s u : State),
    portRx s p.val = true → u = updPort s p.val (fun x => { x with burst := true }) → 0x18 ≤ dt.toNat → dt.toNat < 0x2A →
    dt.toNat ≠ fget u fPP_CTL_DT_PIPE (pof p.val) →
    exec (.csi2PacketReceive p st 1 dt vc fl l false) s =
      .next (evtCnt (cnt u (PP_CNT_ECC_CORR + pof p.val)) fPP_EVT_UNSUP PP_CNT_UNSUP (pof p.val))) ∧
  (∀ (p : PortNo) (st : BitVec 32) (ecc : Fin 3) (dt : BitVec 6) (vc : BitVec 4) (fl : BitVec 16) (l : List Byte) (e : Bool)
    (s : State), portRx s p.val = false → exec (.csi2PacketReceive p st ecc dt vc fl l e) s = .next s) ∧
  (∀ (p : PortNo) (st : BitVec 32) (fn : BitVec 16) (d0 d1 : List Byte) (s u : State), portRx s p.val = true →
    u = closeFrame p.val (2 ^ fsNO_FE) false (updPort s p.val (fun x => { x with burst := true })) →
    ∃ v, exec (.frameStart p st fn d0 d1) s = .next (emFire (0x60 + p.val) (mirror p.val (slotsAdvance p.val v))) ∧
      (portSt v p.val).fsStamp = sub32 st.toNat (rdn u (PP_TS_ADJ + pof p.val)) ∧ (portSt v p.val).cur.isSome = true) ∧
  (∀ (p : PortNo) (s : State), portRx s p.val = true → exec (.frameEnd p) s =
    .next (closeFrame p.val 0 false (updPort s p.val (fun x => { x with burst := true })))) ∧
  (∀ (p : PortNo) (s : State) (c : CurFrame), (portSt s p.val).cur = some c → (portSt s p.val).frmTmo ≠ 0 →
    exec (.frameTimeout p) s = .next (closeFrame p.val (2 ^ fsTMO) false s)) ∧
  (∀ (p : PortNo) (s : State), (portSt s p.val).cur = none ∨ (portSt s p.val).frmTmo = 0 → exec (.frameTimeout p) s = .next s) ∧
  (∀ (p : PortNo) (s : State), ∃ t, exec (.pipelineOutputPlace p) s = .next (statFlush p.val t) ∧
    ((portSt t p.val).rx = [] ∨ (portSt t p.val).owed.isSome = true)) ∧
  (∀ (p : PortNo) (s : State), (portSt s p.val).rx = [] → (portSt s p.val).owed = none →
    exec (.pipelineOutputPlace p) s = .next (statFlush p.val s)) ∧
  (∀ (p : PortNo) (s t : State) (l : PLine) (r : FrameRec), lineAt s p.val (portSt s p.val).nPlc = some l →
    frameRec s p.val l.key = some r → fbit s fTO_CTL_EN = false → t = placeLine p.val s →
    (portSt t p.val).owed = none ∧ (portSt t p.val).nPlc = (portSt s p.val).nPlc + 1) ∧
  (∀ (p : PortNo) (s : State), lineAt s p.val (portSt s p.val).nPlc = none → placeLine p.val s = s)

/-- The slot rows (R31 to R36), for a port that is not the odd half of a ganged pair. Presence asserted in EMPTY without
AUTO_PWR goes to OFF, and on where PWR_CTL is 1. Presence lost with a wired detector goes to EMPTY: from OFF directly; from
ON after the open frame ends HEAD_LOST, with power off and a detection of the port's removal source. A wired fault asserted
goes to FAULT with power off and the FLT event: from POWERING directly; from ON after the frame ends HEAD_LOST, with the
removal source. PWR_CTL written 1 by Dennil or under a lease in OFF, with no fault seen, powers the slot up. Power settled in
POWERING with no fault seen goes to ON. A commit of the wiring by Dennil, with presence detect wired, sets COMMIT and the
wiring bits. A change of slot state to a state below ON out of one other than ON (R32): the slot's registers read the new
STATE, STATE_CHG is set, and the indicator and the clocks follow. -/
def Obligations.SlotsFollowTheirStateTable : Prop :=
  (∀ (p : PortNo) (s : State), gangedOdd s p.val = false → ppSlot s p.val = 0 → fbit s fPP_SLOT_CTL_AUTO_PWR (pof p.val) = false →
    fbit (evt (slotTo p.val 1 (fbset s fPP_SLOT_STAT_PRSNT true (pof p.val))) fPP_SLOT_STAT_PRSNT_CHG (pof p.val))
      fPP_SLOT_CTL_AUTO_PWR (pof p.val) = false →
    exec (.presenceAssert p) s = .next (slotPowerUp p.val (evt (slotTo p.val 1 (fbset s fPP_SLOT_STAT_PRSNT true (pof p.val)))
      fPP_SLOT_STAT_PRSNT_CHG (pof p.val)))) ∧
  (∀ (p : PortNo) (s : State), gangedOdd s p.val = false → fbit s fPP_SLOT_CAP_PRS (pof p.val) = true → ppSlot s p.val = 1 →
    exec (.presenceLost p) s = .next (evt (slotTo p.val 0 (fbset s fPP_SLOT_STAT_PRSNT false (pof p.val)))
      fPP_SLOT_STAT_PRSNT_CHG (pof p.val))) ∧
  (∀ (p : PortNo) (s : State), gangedOdd s p.val = false → fbit s fPP_SLOT_CAP_PRS (pof p.val) = true → ppSlot s p.val = 3 →
    exec (.presenceLost p) s = .next (paDetect (0x101 + 0x10 * p.val) (evt (slotTo p.val 0 (fbset (headPower p.val false
      (fbset (portEnds p.val (2 ^ fsHEAD_LOST) false s) fPP_SLOT_STAT_PRSNT false (pof p.val)))
      fPP_SLOT_CTL_PWR_CTL false (pof p.val))) fPP_SLOT_STAT_PRSNT_CHG (pof p.val)))) ∧
  (∀ (p : PortNo) (s u : State), gangedOdd s p.val = false → fbit s fPP_SLOT_CAP_FLT (pof p.val) = true →
    u = fbset (updPort s p.val (fun x => { x with fltPin := true })) fPP_SLOT_STAT_FLT_IN true (pof p.val) →
    ppSlot u p.val = 2 → fbit u fPP_SLOT_STAT_FLT_IN (pof p.val) = true → gangedOdd u p.val = false →
    exec (.powerFault p true) s = .next (evt (slotTo p.val 4 (headPower p.val false u)) fPP_SLOT_STAT_FLT (pof p.val))) ∧
  (∀ (p : PortNo) (s u : State), gangedOdd s p.val = false → fbit s fPP_SLOT_CAP_FLT (pof p.val) = true →
    u = fbset (updPort s p.val (fun x => { x with fltPin := true })) fPP_SLOT_STAT_FLT_IN true (pof p.val) →
    ppSlot u p.val = 3 → fbit u fPP_SLOT_STAT_FLT_IN (pof p.val) = true → gangedOdd u p.val = false →
    exec (.powerFault p true) s = .next (paDetect (0x101 + 0x10 * p.val) (evt (slotTo p.val 4 (headPower p.val false
      (portEnds p.val (2 ^ fsHEAD_LOST) false u))) fPP_SLOT_STAT_FLT (pof p.val)))) ∧
  (∀ (ag : Agent) (p : PortNo) (s u v : State), (ag = .dennil ∨ leased s 2 (some p.val) = true) → gangedOdd s p.val = false →
    u = fbset s fPP_SLOT_CTL_PWR_CTL true (pof p.val) → ppSlot u p.val = 1 → fbit u fPP_SLOT_CTL_PWR_CTL (pof p.val) = true →
    v = slotTo p.val 2 (headPower p.val true u) → fbit v fPP_SLOT_STAT_FLT_IN (pof p.val) = false →
    exec (.slotPowerWrite ag p true) s = .next v) ∧
  (∀ (p : PortNo) (s : State), ppSlot s p.val = 2 → fbit s fPP_SLOT_STAT_FLT_IN (pof p.val) = false →
    exec (.powerSettle p) s = .next (slotTo p.val 3 s)) ∧
  (∀ (p : PortNo) (caps : BitVec 5) (s u : State), fbit s fPP_SLOT_CAP_COMMIT (pof p.val) = false → caps.getLsbD 0 = true →
    u = wrn s (PP_SLOT_CAP + pof p.val) (2 ^ 31 + caps.toNat) →
    exec (.slotCapCommit .dennil p caps) s = .next (fltUpdate (leadPort s p.val) (fltUpdate p.val u)) ∧
    fbit u fPP_SLOT_CAP_COMMIT (pof p.val) = true ∧ bits (rdn u (PP_SLOT_CAP + pof p.val)) 4 0 = caps.toNat) ∧
  (∀ (p : PortNo) (st : Nat) (s : State), ppSlot s p.val ≠ 3 → st < 3 →
    ∃ u, slotTo p.val st s = sclkAll (indUpdate p.val u) ∧ ppSlot u p.val = st ∧
      fbit u fPP_SLOT_STAT_STATE_CHG (pof p.val) = true ∧ OnlyRegs s u)

/-- Other port rows (R33, R35, R37, R38, R45). The attention button with its input wired, in ON, with Dennil running and the
port not leased, sets the BTN event and makes a stop due. A stop that is due, with no frame open, Dennil running and the port
not leased, is carried out. A profile for a slot that has reached ON is loaded, and the port enabled, where nothing refuses
it. A link timeout of a receiving port without a burst, with LINK_TMO not 0, sets LINK_TMO; after a burst it does nothing. A
divisor from 32 to 288, by Dennil or under a lease, is written and the clock follows. The clock lane's mode shows in CLK_HS,
a data lane's in LANE_HS and LANE_ULPS. SENSOR_PROFILE_LOAD, PORT_STOP, PORT_POWER, accepted and for a port that is not the
odd half of a ganged pair (R24, R33, R288). A profile that exists and is not refused, for a stopped port whose slot is ON,
without the flag that asks for the enable, is deferred until its sequence has gone out. PORT_STOP in ON makes the stop due
and is deferred. PORT_POWER sets AUTO_PWR and PWR_CTL and completes. -/
def Obligations.PortControlsComplete : Prop :=
  (∀ (p : PortNo) (s : State), fbit s fPP_SLOT_CAP_BTN (pof p.val) = true → gangedOdd s p.val = false → ppSlot s p.val = 3 →
    dennilUp s = true → leased s 2 (some p.val) = false →
    exec (.attentionButton p) s = .next (updPort (evt s fPP_SLOT_STAT_BTN (pof p.val)) p.val (fun x => { x with stopDue := true }))) ∧
  (∀ (p : PortNo) (s : State), (portSt s p.val).stopDue = true → frameOpen s p.val = false → dennilUp s = true →
    leased s 2 (some p.val) = false →
    exec (.orderlyStop p) s =
      .next (indUpdate p.val (fset (slotPower p.val false (portOff p.val s)) fPP_SLOT_CTL_ATTN_IND 2 (pof p.val)))) ∧
  (∀ (p : PortNo) (k : Fin 64) (h : BitVec 64) (s s0 t : State) (pr : Profile), dennilUp s = true → ppSlot s p.val = 3 →
    gangedOdd s p.val = false → findProfile s 2 k.val = some pr → (∀ f ∈ profileFuncs pr, leased s f (some p.val) = false) →
    s0 = portOff p.val (updPort s p.val (fun x => { x with headId := h.toNat })) → profileBad pr p.val s0 = false →
    enableWith p.val (loadSensor p.val pr s0) = some t → exec (.hotInsertProfileLoad p k h) s = .next t) ∧
  (∀ (p : PortNo) (s : State), portRx s p.val = true → fget s fPP_HP_TIMING_LINK_TMO (pof p.val) ≠ 0 →
    (portSt s p.val).burst = false → exec (.linkTimeout p) s = .next (evt s fPP_EVT_LINK_TMO (pof p.val))) ∧
  (∀ (p : PortNo) (s : State), (portSt s p.val).burst = true → exec (.linkTimeout p) s = .next s) ∧
  (∀ (ag : Agent) (k : Fin 8) (v : BitVec 32) (s : State), (ag = .dennil ∨ leased s 2 (some k.val) = true) →
    32 * 65536 ≤ v.toNat % 2 ^ 25 → v.toNat % 2 ^ 25 ≤ 288 * 65536 →
    exec (.sclkDivisorWrite ag k v) s = .next (sclkUpdate k.val (putWord (PP_SCLK + pof k.val) v.toNat s))) ∧
  (∀ (p : PortNo) (m : Fin 3) (s : State), ∃ t, exec (.ulpsEntryExit p 4 m) s = .next t ∧
    fbit t fPP_STAT_CLK_HS (pof p.val) = (m.val == 1)) ∧
  (∀ (p : PortNo) (l : Fin 5) (m : Fin 3) (s : State), l.val < 4 → ∃ t, exec (.ulpsEntryExit p l m) s = .next t ∧
    bit (fget t fPP_STAT_LANE_HS (pof p.val)) l.val = (m.val == 1) ∧ bit (fget t fPP_STAT_LANE_ULPS (pof p.val)) l.val = (m.val == 2)) ∧
  (∀ (c : CmdCall) (s u : State) (pr : Profile), Accepted ⟨0x0210, 0x10, false, 8, 8, true, true⟩ c s → pb c 0 < 16 → u = mbTake c s →
    findProfile u 2 (pb c 1) = some pr → fbit u fPP_CTL_EN (pof (pb c 0)) = false → ppSlot u (pb c 0) = 3 →
    gangedOdd u (pb c 0) = false → profileBad pr (pb c 0) u = false → bit (pb c 2) 0 = false →
    exec (.sensorProfileLoad c) s = .next (holdDeferred ⟨0x0210, 0x10, false, 8, 8, true, true⟩ c true false u)) ∧
  (∀ (c : CmdCall) (s u : State), Accepted ⟨0x0211, 0x10, false, 8, 8, true, true⟩ c s → pb c 0 < 16 → u = mbTake c s →
    ppSlot u (pb c 0) = 3 → gangedOdd u (pb c 0) = false →
    exec (.portStop c) s = .next (holdDeferred ⟨0x0211, 0x10, false, 8, 8, true, true⟩ c true false
      (updPort u (pb c 0) (fun x => { x with stopDue := true })))) ∧
  (∀ (c : CmdCall) (s u : State), Accepted ⟨0x0212, 0x10, false, 8, 8, true, true⟩ c s → pb c 0 < 16 → pb c 1 ≤ 1 →
    pb c 2 ≤ 1 → u = mbTake c s → gangedOdd u (pb c 0) = false →
    exec (.portPower c) s = .next (completeCmd ⟨0x0212, 0x10, false, 8, 8, true, true⟩ c 0 0 []
      (slotPower (pb c 0) (pb c 1 = 1) (fbset u fPP_SLOT_CTL_AUTO_PWR (pb c 2 = 1) (pof (pb c 0))))))

/-! ## Sensor settings (chapter 3) -/

/-- SLOT_ARM, SLOT_CANCEL, WRITE_WINDOW_CLOSE (R44, R46, R54). Arming a FREE slot, by Dennil or under a lease of function 03h
for the port, with the lease's channel as addressee for a host write; on a port with LAT = 0 the slot is then ARMED with the
generation of SC_GEN.NEXT, NEXT has stepped past FFFFh to 1, LATE, UNSURE, RETRY_CNT and SC_SLOT_DONE are 0, and the arming
order has advanced. Dennil's write to a slot in another state does nothing. Cancelling an ARMED slot gives up its transfer,
counts it, and ends it CANCELLED. At the close of the write window TARGET moves forward for the slots that missed it.
SLOT_SEND_START, SETTING_WRITE_DONE, SETTING_WRITE_FAIL (R46, R47). The first ready slot of a bus on which none is SENDING
becomes WRITTEN at once when its write holds no transaction, else SENDING with that many transactions left. A SENDING slot's
write that ends inside the window makes it WRITTEN, and SC_SLOT_DONE is TB1; one that ends after it counts as UNSURE and arms
the slot again; a failed write is repeated with RETRY_CNT one higher while RETRY allows, else the slot ends FAILED; each
releases the two-wire block. In a slot that is not SENDING both do nothing. -/
def Obligations.SettingSlotsComplete : Prop :=
  (∀ (ag : Agent) (p : PortNo) (k : Fin 8) (s : State), (ag = .dennil ∨ leased s 3 (some p.val) = true) →
    slotState s p.val k.val = 0 → slotLat s p.val = 0 →
    ∃ t, exec (.slotArm ag p k) s = .next t ∧ slotState t p.val k.val = 1 ∧
      fget t fSC_SLOT_CTL_GEN (sso p.val k.val) = fget s fSC_GEN_NEXT (pof p.val) ∧
      fget t fSC_GEN_NEXT (pof p.val) =
        (if fget s fSC_GEN_NEXT (pof p.val) = 0xFFFF then 1 else fget s fSC_GEN_NEXT (pof p.val) + 1) ∧
      fbit t fSC_SLOT_CTL_LATE (sso p.val k.val) = false ∧ fbit t fSC_SLOT_CTL_UNSURE (sso p.val k.val) = false ∧
      fget t fSC_SLOT_CTL_RETRY_CNT (sso p.val k.val) = 0 ∧ rdn t (SC_SLOT_DONE + sso p.val k.val) = 0 ∧
      t.armCtr = s.armCtr + 1) ∧
  (∀ (ag : Agent) (p : PortNo) (k : Fin 8) (s : State), (ag = .dennil ∨ leased s 3 (some p.val) = true) →
    slotState s p.val k.val = 0 → exec (.slotArm ag p k) s =
      .next (slotArm p.val k.val (if ag = .host then leaseRep s p.val else none) s)) ∧
  (∀ (p : PortNo) (k : Fin 8) (s : State), slotState s p.val k.val ≠ 0 → exec (.slotArm .dennil p k) s = .next s) ∧
  (∀ (ag : Agent) (p : PortNo) (k : Fin 8) (s : State), (ag = .dennil ∨ leased s 3 (some p.val) = true) →
    slotState s p.val k.val = 1 → exec (.slotCancel ag p k) s = .next (slotEnd p.val k.val arCANCELLED 0xFFFFFFFF 0
      (evtCnt (twDrop p.val k.val s) fSC_EVT_CANCELLED SC_CNT_CANCEL (pof p.val)))) ∧
  (∀ (p : PortNo) (s : State), exec (.writeWindowClose p) s = .next (slotsAdvance p.val s)) ∧
  (∀ (b : Fin 4) (p k : Nat) (s : State), busSending s b.val = false → firstReady s b.val = some (p, k) →
    (slotTrans s p k).length = 0 → exec (.slotSendStart b) s = .next (setSlotState p k 3 s)) ∧
  (∀ (b : Fin 4) (p k : Nat) (s : State), busSending s b.val = false → firstReady s b.val = some (p, k) →
    (slotTrans s p k).length ≠ 0 → ∃ t, exec (.slotSendStart b) s = .next t ∧ slotState t p k = 2 ∧
      (twSt t b.val).slot = some (p, k) ∧ (twSt t b.val).left = (slotTrans s p k).length) ∧
  (∀ (p : PortNo) (k : Fin 8) (s : State), slotState s p.val k.val = 2 →
    0 ≤ Machine.sdiff (windowClose s p.val (setSlotOf s p.val k.val).fs) (now s) →
    exec (.settingWriteDone p k) s =
      .next (setSlotState p.val k.val 3 (wrn (twRelease p.val k.val s) (SC_SLOT_DONE + sso p.val k.val) (now s)))) ∧
  (∀ (p : PortNo) (k : Fin 8) (s : State), slotState s p.val k.val = 2 →
    Machine.sdiff (windowClose s p.val (setSlotOf s p.val k.val).fs) (now s) < 0 →
    exec (.settingWriteDone p k) s = .next (slotAgain p.val k.val (evtCnt (fbset
      (updSlot p.val k.val (fun x => { x with unsure := slotTarget s p.val k.val }) (twRelease p.val k.val s))
      fSC_SLOT_CTL_UNSURE true (sso p.val k.val)) fSC_EVT_UNSURE SC_CNT_UNSURE (pof p.val)))) ∧
  (∀ (p : PortNo) (k : Fin 8) (s : State), slotState s p.val k.val = 2 →
    fget s fSC_SLOT_CTL_RETRY_CNT (sso p.val k.val) < fget s fSC_CTL_RETRY (pof p.val) →
    exec (.settingWriteFail p k) s = .next (slotAgain p.val k.val (fset (twRelease p.val k.val s) fSC_SLOT_CTL_RETRY_CNT
      (fget s fSC_SLOT_CTL_RETRY_CNT (sso p.val k.val) + 1) (sso p.val k.val)))) ∧
  (∀ (p : PortNo) (k : Fin 8) (s : State), slotState s p.val k.val = 2 →
    fget s fSC_CTL_RETRY (pof p.val) ≤ fget s fSC_SLOT_CTL_RETRY_CNT (sso p.val k.val) →
    exec (.settingWriteFail p k) s = .next (slotEnd p.val k.val arFAILED 0xFFFFFFFF 0
      (evtCnt (twRelease p.val k.val s) fSC_EVT_FAILED SC_CNT_FAIL (pof p.val)))) ∧
  (∀ (p : PortNo) (k : Fin 8) (s : State), slotState s p.val k.val ≠ 2 →
    exec (.settingWriteDone p k) s = .next s ∧ exec (.settingWriteFail p k) s = .next s)

/-- EMBEDDED_DATA_CHECK and the setting commands (R49, R51 to R53). With VERIFY set and Dennil running, an exposure in the
embedded data equal to the one written releases the held records, and without either the check does nothing. Accepted, with
port 0 to 15: SETTING_FOR_FRAME and SETTING_RAW_FOR_FRAME on a running port with a FREE slot, for a frame at most 2^20 ahead
and, for the raw one, a well-formed write, arm a request and complete with its result; SETTING_CANCEL of an ARMED slot's
generation cancels it; LATENCY_PROFILE_SET from HIV 1.3 on, with every slot FREE and values in range, writes SC_PROFILE,
SC_WINDOW, RETRY and VERIFY. -/
def Obligations.SettingCommandsComplete : Prop :=
  (∀ (p : PortNo) (d : List Byte) (w : BitVec 16) (s : State), fbit s fSC_CTL_VERIFY (pof p.val) = true → dennilUp s = true →
    u16At d (fget s fSC_PROFILE_VERIFY_OFS (pof p.val)) = w.toNat →
    exec (.embeddedDataCheck p d w) s = .next (heldFlush p.val s)) ∧
  (∀ (p : PortNo) (d : List Byte) (w : BitVec 16) (s : State),
    (fbit s fSC_CTL_VERIFY (pof p.val) = false ∨ dennilUp s = false) → exec (.embeddedDataCheck p d w) s = .next s) ∧
  (∀ (c : CmdCall) (s u : State) (k : Nat) (l : List Nat), Accepted ⟨0x0310, 0x10, false, 16, 16, true, true⟩ c s →
    u = mbTake c s → pb c 0 < 16 → portRuns u (pb c 0) = true → slotsIn u (pb c 0) 0 = k :: l →
    Machine.sdiff (requestFrame c u) (frameNow u (pb c 0)) ≤ 2 ^ 20 →
    ∃ a r, armRequest c (c.data.take 64) ((numAt c 1).toNat % 65536 + (numAt c 2).toNat * 65536)
        ((numAt c 3).toNat % 65536 + (numAt c 4).toNat * 65536)
        (normFor (numAt c 0).toNat (pd c 8) (pw c 12) (pw c 14) + 0x1000 * 65536) u = (a, .ok r) ∧
      exec (.settingForFrame c) s =
        .next (completeCmd ⟨0x0310, 0x10, false, 16, 16, true, true⟩ c 0 0 r a)) ∧
  (∀ (c : CmdCall) (s u : State) (k : Nat) (l : List Nat), Accepted ⟨0x0390, 0x10, true, 24, 88, true, true⟩ c s →
    u = mbTake c s → pb c 0 < 16 → portRuns u (pb c 0) = true → slotsIn u (pb c 0) 0 = k :: l → pb c 20 ≤ 64 →
    24 + pb c 20 ≤ c.payload.length → (transactions 64 ((c.payload.drop 24).take (pb c 20))).2 = false →
    Machine.sdiff (requestFrame c u) (frameNow u (pb c 0)) ≤ 2 ^ 20 →
    ∃ a r, armRequest c ((c.payload.drop 24).take (pb c 20)) (pd c 8) (pd c 12) (pd c 16) u = (a, .ok r) ∧
      exec (.settingRawForFrame c) s =
        .next (completeCmd ⟨0x0390, 0x10, true, 24, 88, true, true⟩ c 0 0 r a)) ∧
  (∀ (c : CmdCall) (s : State) (k : Nat), Accepted ⟨0x0311, 0x10, false, 8, 8, true, true⟩ c s → pb c 0 < 16 →
    (List.range 8).find? (fun j => slotState (mbTake c s) (pb c 0) j != 0 &&
      fget (mbTake c s) fSC_SLOT_CTL_GEN (sso (pb c 0) j) == pw c 2) = some k → slotState (mbTake c s) (pb c 0) k = 1 →
    exec (.settingCancel c) s = .next (completeCmd ⟨0x0311, 0x10, false, 8, 8, true, true⟩ c 0 0 []
      (slotCancel (pb c 0) k (mbTake c s)))) ∧
  (∀ (c : CmdCall) (s u : State), Accepted ⟨0x0391, 0x10, true, 16, 16, true, true⟩ c s → pb c 0 < 16 →
    (slotsIn (mbTake c s) (pb c 0) 0).length = 8 → bits (pd c 4) 31 30 ≠ 0 → pd c 8 % 65536 < pd c 8 / 65536 → pb c 12 ≤ 7 →
    0x13 ≤ c.hiv →
    u = fset (putWord (SC_PROFILE + pof (pb c 0)) (pd c 4) (mbTake c s)) fSC_CTL_VERIFY (pb c 1 % 2) (pof (pb c 0)) →
    exec (.latencyProfileSet c) s = .next (completeCmd ⟨0x0391, 0x10, true, 16, 16, true, true⟩ c 0 0 []
      (fset (wrn u (SC_WINDOW + pof (pb c 0)) (pd c 8)) fSC_CTL_RETRY (pb c 12) (pof (pb c 0)))))

/-! ## Correction (chapter 4) -/

/-- CX_BANK_SWAP_REQUEST, CX_BANK_CANCEL, TABLE_WINDOW_WRITE (R69, R70). On a running port, by Dennil or under a lease of
function 04h: a write of CX_BANK with SWAP and without CANCEL takes SEL and AT_EN, keeps ACT, and requests the swap; one with
CANCEL takes them and withdraws the swap that is pending. Dennil's write of 16 or 32 bits into a bank of a correction table
that may be written stores its bytes; one of 32 bits into a bank that is locked sets ACT_WR and stores nothing. Bytes stored
in the windows read back, every byte outside them as before. The correction commands, accepted and for port 0 to 15 (R71 to
R73). CORR_LOAD_CAL on a stopped port without dual-bank tables among its entries, none of them at another phase, loads the
head's entries and completes with the missing types, each as a u32 (log 102). CORR_SET_MODE writes OFS_EN, DPC_MODE and
FF_MODE.EN. CORR_TABLE_LOAD of an offset or gain table, or of a strictly ascending defect list with its count, without a
swap, into a bank of a dual-bank table that may be written, with host memory in reach, stores the image. CORR_BANK_SWAP of
dual-bank tables requests the swap at its frame. CORR_PARAMS with both flags on a stopped port writes CX_CFA and CX_DPC_THR. -/
def Obligations.CorrectionRowsComplete : Prop :=
  (∀ (ag : Agent) (p : PortNo) (v : Word) (s : State) (w : Nat), (ag = .dennil ∨ leased s 4 (some p.val) = true) →
    cxRuns s p.val = true → bit v.toNat 30 = false →
    w = setBits (setBits (rdn s (CX_BANK + pof p.val)) 29 29 (bits v.toNat 29 29)) 19 16 (bits v.toNat 19 16) →
    exec (.cxBankSwapRequest ag p v) s = .next (swapRequest CX_BANK CX_SWAP_AT p.val true (wrn s (CX_BANK + pof p.val) w))) ∧
  (∀ (ag : Agent) (p : PortNo) (v : Word) (s : State) (w : Nat), (ag = .dennil ∨ leased s 4 (some p.val) = true) →
    cxRuns s p.val = true →
    w = setBits (setBits (rdn s (CX_BANK + pof p.val)) 29 29 (bits v.toNat 29 29)) 19 16 (bits v.toNat 19 16) →
    exec (.cxBankCancel ag p v) s = .next (updPort (wrn (wrn s (CX_BANK + pof p.val) w) (CX_BANK + pof p.val)
      (setBits (w % 2 ^ 32) 28 28 0)) p.val (fun x => { x with cxReq := none }))) ∧
  (∀ (i : Fin 5242880) (v : Word) (s : State) (a q t b : Nat), a = 0x600000 + i.val * 2 → a < 0xA00000 →
    q = (a - 0x600000) / 0x40000 → cxPlace (a % 0x40000) = some (t, b) → cxLocked s q t b = false →
    exec (.tableWindowWrite .dennil false i v) s = .next (tblPuts s a (leBytes 2 v.toNat))) ∧
  (∀ (i : Fin 5242880) (v : Word) (s : State) (a q t b : Nat), a = 0x600000 + i.val / 2 * 4 → a < 0xA00000 →
    q = (a - 0x600000) / 0x40000 → cxPlace (a % 0x40000) = some (t, b) → cxLocked s q t b = false →
    exec (.tableWindowWrite .dennil true i v) s = .next (tblPuts s a (leBytes 4 v.toNat))) ∧
  (∀ (i : Fin 5242880) (v : Word) (s : State) (a q t b : Nat), a = 0x600000 + i.val / 2 * 4 → a < 0xA00000 →
    q = (a - 0x600000) / 0x40000 → cxPlace (a % 0x40000) = some (t, b) → cxLocked s q t b = true →
    exec (.tableWindowWrite .dennil true i v) s = .next (evt s fCX_EVT_ACT_WR (pof q))) ∧
  (∀ (s : State) (a i : Nat) (l : List Byte), i < l.length → tblGet (tblPuts s a l) (a + i) = l.getD i 0#8) ∧
  (∀ (s : State) (a k : Nat) (l : List Byte), (k < a ∨ a + l.length ≤ k) → tblGet (tblPuts s a l) k = tblGet s k) ∧
  (∀ (sp : CmdSpec) (c : CmdCall) (s u : State), sp = ⟨0x0410, 0x10, false, 8, 8, true, true⟩ → Accepted sp c s →
    u = mbTake c s → pb c 0 < 16 → corrTypes.find? (wrongPhase u (pb c 0)) = none → cxRuns u (pb c 0) = false →
    ((corrTypes.filterMap (corrEntry u (pb c 0))).filterMap (fun e => corrTable e.type)).filter (fun t => dualNow u (pb c 0) t) = [] →
    exec (.corrLoadCal c) s = .next (completeCmd sp c 0 0
      ((corrTypes.filter (fun t => (corrEntry u (pb c 0) t).isNone)).flatMap (leBytes 4))
      (forEach (corrTypes.filterMap (corrEntry u (pb c 0))) (calLoadOne (pb c 0)) u))) ∧
  (∀ (sp : CmdSpec) (c : CmdCall) (s u : State), sp = ⟨0x0411, 0x10, false, 8, 8, true, true⟩ → Accepted sp c s →
    u = mbTake c s → pb c 0 < 16 →
    exec (.corrSetMode c) s = .next (completeCmd sp c 0 0 [] (fset (fset (fset u fCX_CTL_OFS_EN (bits (pb c 1) 0 0) (pof (pb c 0)))
      fCX_CTL_DPC_MODE (bits (pb c 1) 2 1) (pof (pb c 0))) fCX_FF_MODE_EN (bits (pb c 1) 3 3) (pof (pb c 0))))) ∧
  (∀ (sp : CmdSpec) (c : CmdCall) (s u : State), sp = ⟨0x0490, 0x10, true, 24, 24, true, true⟩ → Accepted sp c s →
    u = mbTake c s → pb c 0 < 16 → (pb c 1 = 0 ∨ pb c 1 = 1) → pb c 2 < 2 → pb c 3 = 0 → dualNow u (pb c 0) (pb c 1) = true →
    cxLocked u (pb c 0) (pb c 1) (pb c 2) = false → pw c 4 + pw c 6 ≤ tblCap (pb c 1) true → hostCanRead c u = true →
    exec (.corrTableLoad c) s = .next (completeCmd sp c 0 0 [] (tblPuts (hostRead c (pq c 8) (pw c 6 * 2) u)
      (bankBase (pb c 0) (pb c 1) (pb c 2) + pw c 4 * 2) (fit (pw c 6 * 2) c.data)))) ∧
  (∀ (sp : CmdSpec) (c : CmdCall) (s u : State), sp = ⟨0x0490, 0x10, true, 24, 24, true, true⟩ → Accepted sp c s →
    u = mbTake c s → pb c 0 < 16 → pb c 1 = 2 → pb c 2 < 2 → pb c 3 = 0 → dualNow u (pb c 0) 2 = true →
    cxLocked u (pb c 0) 2 (pb c 2) = false → pw c 4 + pw c 6 ≤ 4096 → hostCanRead c u = true →
    ascending (entries32 (fit (pw c 6 * 4) c.data)) = true →
    exec (.corrTableLoad c) s = .next (completeCmd sp c 0 0 [] (setDefects (pb c 0) (pb c 2) (pw c 6) (tblPuts
      (hostRead c (pq c 8) (pw c 6 * 4) u) (bankBase (pb c 0) 2 (pb c 2) + pw c 4 * 4) (fit (pw c 6 * 4) c.data))))) ∧
  (∀ (sp : CmdSpec) (c : CmdCall) (s u : State), sp = ⟨0x0491, 0x10, true, 8, 8, true, true⟩ → Accepted sp c s →
    u = mbTake c s → pb c 0 < 16 → (∀ t, t < 4 → bit (pb c 1) t = true → dualNow u (pb c 0) t = true) →
    exec (.corrBankSwap c) s = .next (completeCmd sp c 0 0 [] (swapRequest CX_BANK CX_SWAP_AT (pb c 0) true
      (wrn (wrn u (CX_BANK + pof (pb c 0)) (setBits (setBits (rdn u (CX_BANK + pof (pb c 0))) 19 16 (pb c 1 % 16)) 29 29
        (bits (pb c 2) 0 0))) (CX_SWAP_AT + pof (pb c 0)) (pd c 4))))) ∧
  (∀ (sp : CmdSpec) (c : CmdCall) (s u : State), sp = ⟨0x0492, 0x10, true, 12, 12, true, true⟩ → Accepted sp c s →
    u = mbTake c s → pb c 0 < 16 → cxRuns u (pb c 0) = false → pb c 1 = 3 →
    exec (.corrParams c) s = .next (completeCmd sp c 0 0 [] (putWord (CX_DPC_THR + pof (pb c 0)) (pd c 8)
      (putWord (CX_CFA + pof (pb c 0)) (pd c 4) u))))

/-! ## Colour and taps (chapter 5) -/

/-- Colour and taps (R81, R85 to R93). By Dennil or under a lease of function 05h: DM_COMMIT writes DM_CTL and marks the
commit; TAP_ENABLE of an engine that is off writes its other fields, then enables it where its configuration is allowed and
its port is not the odd half of a pair, else sets CFG_ERR. Dennil's TAP_ENABLE of an enabled engine does nothing.
TAP_FRAME_COMPLETE of a done frame of status OK, with requests allowed and the budget for it, writes the second half of its
descriptor back, drops the frame and counts it, with the DONE event where the descriptor asks. Accepted, for port 0 to 15:
TAP_START with an allowed configuration on an engine that is off writes it and enables the engine; TAP_STOP of an enabled
engine 0 or 1 makes it stop at the next frame; COLOUR_LOAD_CAL with an entry for the head writes its words and commits;
COLOUR_PARAMS writes DM_CTL, K and M and commits. -/
def Obligations.ColourAndTapsComplete : Prop :=
  (∀ (ag : Agent) (p : PortNo) (v : Word) (s : State), (ag = .dennil ∨ leased s 5 (some p.val) = true) →
    exec (.dmCommit ag p v) s = .next (shadowCommit fDM_CTL_PEND p.val (putWord (DM_CTL + pof p.val) (v.toNat ||| 2 ^ 29) s))) ∧
  (∀ (ag : Agent) (p : PortNo) (e : Fin 2) (v : Word) (s u : State), (ag = .dennil ∨ leased s 5 (some p.val) = true) →
    fbit s fDM_TAP_CTL_EN (tpo p.val e.val) = false →
    u = putWord (DM_TAP_CTL + tpo p.val e.val) (setBits (v.toNat ||| 2 ^ 31) 31 31 0) s →
    exec (.tapEnable ag p e v) s = .next (if gangedOdd u p.val || !tapConfigOk u p.val e.val then
        fbset u fDM_TAP_STAT_CFG_ERR true (tpo p.val e.val)
      else tapEnable p.val e.val u)) ∧
  (∀ (p : PortNo) (e : Fin 2) (v : Word) (s : State), fbit s fDM_TAP_CTL_EN (tpo p.val e.val) = true →
    exec (.tapEnable .dennil p e v) s = .next s) ∧
  (∀ (p : PortNo) (e : Fin 2) (s u : State) (f : TapFrame) (l : List TapFrame), (tapSt s p.val e.val).frames = f :: l →
    tapDone f = true → canDma s = true → tollCan s 36 tapBackCost = true → f.status = 0 → f.int = false →
    u = dmaWrite (tollSpend s 36 tapBackCost) (tapDescAddr s p.val e.val f.idx + 16) (tapBack s f) →
    exec (.tapFrameComplete p e) s = .next (cnt (updTap p.val e.val (fun t => { t with frames := l }) (useFree u))
      (DM_TAP_CNT_DONE + tpo p.val e.val))) ∧
  (∀ (p : PortNo) (e : Fin 2) (s u : State) (f : TapFrame) (l : List TapFrame), (tapSt s p.val e.val).frames = f :: l →
    tapDone f = true → canDma s = true → tollCan s 36 tapBackCost = true → f.status = 0 → f.int = true →
    u = dmaWrite (tollSpend s 36 tapBackCost) (tapDescAddr s p.val e.val f.idx + 16) (tapBack s f) →
    exec (.tapFrameComplete p e) s = .next (evt (cnt (updTap p.val e.val (fun t => { t with frames := l }) (useFree u))
      (DM_TAP_CNT_DONE + tpo p.val e.val)) fDM_TAP_EVT_DONE (tpo p.val e.val))) ∧
  (∀ (sp : CmdSpec) (c : CmdCall) (s u t : State) (o : Nat), sp = ⟨0x0510, 0x10, false, 16, 16, true, true⟩ →
    Accepted sp c s → u = mbTake c s → pb c 0 < 16 → pb c 1 < 2 → o = tpo (pb c 0) (pb c 1) →
    fbit u fDM_TAP_CTL_EN o = false → gangedOdd u (pb c 0) = false → pb c 2 < 8 → pb c 3 < 16 →
    t = fset (wrn (wrn (fset (fset (fset u fDM_TAP_CTL_POINT (pb c 2) o) fDM_TAP_CTL_FMT (pb c 3) o) fDM_TAP_CTL_DECIM (pb c 12) o)
      (DM_TAP_ROI_X + o) (pw c 4 + 65536 * pw c 6)) (DM_TAP_ROI_Y + o) (pw c 8 + 65536 * pw c 10))
      fDM_TAP_STRIDE_V (pw c 13 + 65536 * pb c 15) o → tapConfigOk t (pb c 0) (pb c 1) = true →
    exec (.tapStart c) s = .next (completeCmd sp c 0 0 [] (tapEnable (pb c 0) (pb c 1) t))) ∧
  (∀ (sp : CmdSpec) (c : CmdCall) (s u : State), sp = ⟨0x0511, 0x10, false, 2, 8, true, true⟩ → Accepted sp c s →
    u = mbTake c s → pb c 0 < 16 → pb c 1 < 2 → fbit u fDM_TAP_CTL_EN (tpo (pb c 0) (pb c 1)) = true →
    exec (.tapStop c) s = .next (completeCmd sp c 0 0 [] (updTap (pb c 0) (pb c 1) (fun t => { t with stopNext := true }) u))) ∧
  (∀ (sp : CmdSpec) (c : CmdCall) (s u : State) (e : CalEntry), sp = ⟨0x0512, 0x10, false, 1, 8, true, true⟩ →
    Accepted sp c s → u = mbTake c s → pb c 0 < 16 → colourEntry u (pb c 0) = some e →
    exec (.colourLoadCal c) s = .next (completeCmd sp c 0 0 [] (shadowCommit fDM_CTL_PEND (pb c 0)
      (forEach (calPairs e) (colourWord (pb c 0)) u)))) ∧
  (∀ (sp : CmdSpec) (c : CmdCall) (s u t : State), sp = ⟨0x0590, 0x10, true, 52, 56, true, true⟩ → Accepted sp c s →
    u = mbTake c s → pb c 0 < 16 →
    t = putWord (DM_NIR_K2 + pof (pb c 0)) (pd c 16) (putWord (DM_NIR_K01 + pof (pb c 0)) (pd c 12)
      (putWord (DM_CTL + pof (pb c 0)) (pd c 8) u)) →
    exec (.colourParams c) s = .next (completeCmd sp c 0 0 [] (shadowCommit fDM_CTL_PEND (pb c 0)
      (putWords (imageWords (DM_CM + pof (pb c 0)) ((c.payload.drop 20).take 32)) t))))

/-! ## Statistics, queues (chapters 6 and 21) -/

/-- The statistics rows (R94 to R103). STAT_RING_WRITE of a record that one transaction carries, with the reader due, the
ring enabled and not full, requests allowed and the budget for it: its words leave the queue, its bytes go to slot PROD of
the host ring, PROD advances and ST_CNT_REC counts, with the REC event where INT is set. STAT_COMMIT by Dennil or under a
lease of function 06h writes ST_CTL and marks the commit. Accepted, for port 0 to 15: STAT_START with a profile that exists,
and no calibration of the head, writes the profile's words, sets EN and commits; STAT_STOP clears EN and commits; STAT_PARAMS
writes its words and commits. The queue rows (R392, R393). QUEUE_RTAG_READ of a register reader's queue that holds words, by
the reader that READER selects, takes the head word into the latch and answers its tag, with POISON on a parity error; Dennil
then discards and counts a two-wire record (R390); of an empty queue it answers 0. QUEUE_STALE with the timer enabled on a
register reader's queue that holds words sets STALE, on a hardware reader's it has the reader drain too, and with the timer
off or nothing held it does nothing. QUEUE_HW_READ of a statistics queue copies its records, and of another queue does
nothing. -/
def Obligations.StatisticsAndQueueRowsComplete : Prop :=
  (∀ (p : PortNo) (poison : List Nat) (s u : State) (q : Nat) (l : List QWord) (bytes : List Byte), q = 32 + p.val →
    l = quRecord (quGet s q).words → l ≠ [] → l = statWords s p.val → bytes = quBytes l → hwReads s q = true →
    fbit s fST_RING_CTL_EN (pof p.val) = true → statFull s p.val = false → canDma s = true → (portSt s p.val).stPos = 0 →
    tollCan s 35 [(1, (bytes.length + 63) / 64), (2, 1)] = true →
    u = cnt (fset (updPort (dmaWrite (quRest q (forEach (List.range l.length) (fun i t => quLeave t q (poison.contains i))
          (tollSpend s 35 [(1, (bytes.length + 63) / 64), (2, 1)])))
        (addr64 (tollSpend s 35 [(1, (bytes.length + 63) / 64), (2, 1)]) (ST_RING_LO + pof p.val) (ST_RING_HI + pof p.val) +
          fget (tollSpend s 35 [(1, (bytes.length + 63) / 64), (2, 1)]) fST_RING_PROD_V (pof p.val) %
            statSlots (tollSpend s 35 [(1, (bytes.length + 63) / 64), (2, 1)]) p.val * 8192)
        bytes (poison.any (fun k => decide (k < l.length))) true) p.val (fun x => { x with stPos := 0 }))
      fST_RING_PROD_V (fget (tollSpend s 35 [(1, (bytes.length + 63) / 64), (2, 1)]) fST_RING_PROD_V (pof p.val) + 1) (pof p.val))
      (ST_CNT_REC + pof p.val) →
    exec (.statRingWrite p poison) s =
      .next (if fbit u fST_RING_CTL_INT (pof p.val) then evt u fST_EVT_REC (pof p.val) else u)) ∧
  (∀ (ag : Agent) (p : PortNo) (v : Word) (s : State), (ag = .dennil ∨ leased s 6 (some p.val) = true) →
    exec (.statCommit ag p v) s = .next (shadowCommit fST_CTL_PEND p.val (putWord (ST_CTL + pof p.val) (v.toNat ||| 2 ^ 30) s))) ∧
  (∀ (sp : CmdSpec) (c : CmdCall) (s u : State) (pr : Profile), sp = ⟨0x0610, 0x10, false, 2, 8, true, true⟩ →
    Accepted sp c s → u = mbTake c s → pb c 0 < 16 → findProfile u 2 (pb c 1) = some pr →
    calInUse u 0x0601 (headOf u (pb c 0)) 0 = none →
    exec (.statStart c) s = .next (completeCmd sp c 0 0 [] (stEnable (pb c 0) true (stWords (pb c 0) pr.writes u)))) ∧
  (∀ (sp : CmdSpec) (c : CmdCall) (s u : State), sp = ⟨0x0611, 0x10, false, 1, 8, true, true⟩ → Accepted sp c s →
    u = mbTake c s → pb c 0 < 16 → exec (.statStop c) s = .next (completeCmd sp c 0 0 [] (stEnable (pb c 0) false u))) ∧
  (∀ (sp : CmdSpec) (c : CmdCall) (s u : State), sp = ⟨0x0690, 0x12, true, 200, 200, true, true⟩ → Accepted sp c s →
    u = mbTake c s → pb c 0 < 16 → exec (.statParams c) s = .next (completeCmd sp c 0 0 [] (shadowCommit fST_CTL_PEND (pb c 0)
      (stWords (pb c 0) (imageWords ST_CTL ((c.payload.drop 8).take 192)) u)))) ∧
  (∀ (ag : Agent) (q : Fin 66) (poison : Bool) (s : State) (w : QWord) (l : List QWord), (quGet s q.val).words = w :: l →
    fbit s fQU_CFG_HWR (quo q.val) = false → ag = (if fbit s fQU_CFG_READER (quo q.val) then Agent.host else Agent.dennil) →
    (poison = true → ag = .host) →
    exec (.queueRtagRead ag q poison) s = .next (emit (quPut (quLeave s q.val poison) q.val
      { quGet (quLeave s q.val poison) q.val with latch := w.bytes }) (.readData ag (w.tag + if poison then 128 else 0)))) ∧
  (∀ (b : TwNo) (q : Fin 66) (s u : State) (w : QWord) (l : List QWord), q.val = 48 + b.val → (quGet s q.val).words = w :: l →
    fbit s fQU_CFG_HWR (quo q.val) = false → fbit s fQU_CFG_READER (quo q.val) = false →
    u = quPut (quLeave s q.val true) q.val { quGet (quLeave s q.val true) q.val with latch := w.bytes } →
    exec (.queueRtagRead .dennil q true) s = .next (emit (evtCnt (forEach (List.range (if bit w.tag 5 then 0 else (quRecord
      (quGet u q.val).words).length)) (fun _ t => quLeave t q.val false) u) fTW_EVT_TGT_DISCARD TW_CNT_TGT_DISCARD (two b.val))
      (.readData .dennil (w.tag + 128)))) ∧
  (∀ (ag : Agent) (q : Fin 66) (poison : Bool) (s : State), (quGet s q.val).words = [] →
    exec (.queueRtagRead ag q poison) s = .next (emit s (.readData ag 0))) ∧
  (∀ (q : Fin 66) (s : State), fbit s fQU_STALE_EN (quo q.val) = true → (quGet s q.val).words ≠ [] →
    fbit s fQU_CFG_HWR (quo q.val) = false → exec (.queueStale q) s = .next (quEvt s fQU_EVT_STALE q.val)) ∧
  (∀ (q : Fin 66) (s u : State), fbit s fQU_STALE_EN (quo q.val) = true → (quGet s q.val).words ≠ [] →
    fbit s fQU_CFG_HWR (quo q.val) = true → u = quEvt s fQU_EVT_STALE q.val →
    exec (.queueStale q) s = .next (quPut u q.val { quGet u q.val with drain := true })) ∧
  (∀ (q : Fin 66) (s : State), (fbit s fQU_STALE_EN (quo q.val) = false ∨ (quGet s q.val).words = []) →
    exec (.queueStale q) s = .next s) ∧
  (∀ (q : Fin 66) (s : State), 32 ≤ q.val → q.val < 48 → exec (.queueHwRead q) s = .next (statDrain 1024 (q.val - 32) s)) ∧
  (∀ (q : Fin 66) (s : State), (q.val < 32 ∨ 48 ≤ q.val) → exec (.queueHwRead q) s = .next s)

/-! ## Segmentation (chapter 7) -/

/-- Segmentation rows complete with these next states (R104, R106, R123, R124). With the block leased or a write by Dennil:
SG_COMMIT; SG_BANK_SWAP_REQUEST without CANCEL and SG_BANK_CANCEL, both where the correction stage runs. For a command
accepted here: SEG_LEARN_BG on a running port, in strip mode with a dual bank and in frame mode; SEG_LOAD_PROFILE of a
profile without SG_CTL; SEG_PARAMS; SEG_TABLE_LOAD into an unlocked half of a dual bank, without a swap, once the host's
memory can be read. -/
def Obligations.SegmentationRowsComplete : Prop :=
  (∀ (ag : Agent) (p : PortNo) (v : Word) (s : State), (ag = .dennil ∨ leased s 7 (some p.val) = true) →
    exec (.sgCommit ag p v) s = .next (shadowCommit fSG_CTL_PEND p.val (putWord (SG_CTL + pof p.val) (v.toNat ||| 2 ^ 30) s))) ∧
  (∀ (ag : Agent) (p : PortNo) (v : Word) (s : State) (w : Nat), (ag = .dennil ∨ leased s 7 (some p.val) = true) →
    cxRuns s p.val = true → bit v.toNat 30 = false →
    w = setBits (setBits (rdn s (SG_BANK + pof p.val)) 29 29 (bits v.toNat 29 29)) 16 16 (bits v.toNat 16 16) →
    exec (.sgBankSwapRequest ag p v) s = .next (swapRequest SG_BANK SG_SWAP_AT p.val false (wrn s (SG_BANK + pof p.val) w))) ∧
  (∀ (ag : Agent) (p : PortNo) (v : Word) (s : State) (w : Nat), (ag = .dennil ∨ leased s 7 (some p.val) = true) →
    cxRuns s p.val = true →
    w = setBits (setBits (rdn s (SG_BANK + pof p.val)) 29 29 (bits v.toNat 29 29)) 16 16 (bits v.toNat 16 16) →
    exec (.sgBankCancel ag p v) s = .next (updPort (wrn (wrn s (SG_BANK + pof p.val) w) (SG_BANK + pof p.val)
      (setBits (w % 2 ^ 32) 28 28 0)) p.val (fun x => { x with sgReq := none }))) ∧
  (∀ (sp : CmdSpec) (c : CmdCall) (s u : State), sp = ⟨0x0710, 0x10, false, 8, 8, true, true⟩ → Accepted sp c s →
    u = mbTake c s → pb c 0 < 16 → portRuns u (pb c 0) = true → 1 ≤ pw c 2 → pw c 2 ≤ 4096 → stripMode u (pb c 0) = true →
    sgDualNow u (pb c 0) = true →
    exec (.segLearnBg c) s = .next (holdDeferred sp c true false (updPort u (pb c 0)
      (fun x => { x with learn := some ⟨pb c 1, pw c 2, pw c 2, false, [], 0⟩ })))) ∧
  (∀ (sp : CmdSpec) (c : CmdCall) (s u : State), sp = ⟨0x0710, 0x10, false, 8, 8, true, true⟩ → Accepted sp c s →
    u = mbTake c s → pb c 0 < 16 → portRuns u (pb c 0) = true → 1 ≤ pw c 2 → pw c 2 ≤ 4096 → stripMode u (pb c 0) = false →
    exec (.segLearnBg c) s = .next (holdDeferred sp c true false (updPort u (pb c 0)
      (fun x => { x with learn := some ⟨pb c 1, pw c 2, pw c 2 * portHeight u (pb c 0), true, [], 0⟩ })))) ∧
  (∀ (sp : CmdSpec) (c : CmdCall) (s u : State) (pr : Profile), sp = ⟨0x0711, 0x10, false, 2, 8, true, true⟩ →
    Accepted sp c s → u = mbTake c s → pb c 0 < 16 → findProfile u 7 (pb c 1) = some pr →
    pr.writes.find? (fun w => w.1 == SG_CTL) = none →
    exec (.segLoadProfile c) s = .next (completeCmd sp c 0 0 [] (shadowCommit fSG_CTL_PEND (pb c 0)
      (putWords ((pr.writes.filter segProfileWord).map (fun w => (w.1 + pof (pb c 0), w.2))) u)))) ∧
  (∀ (sp : CmdSpec) (c : CmdCall) (s u : State) (img : List (Nat × Nat)), sp = ⟨0x0790, 0x10, true, 200, 200, true, true⟩ →
    Accepted sp c s → u = mbTake c s → pb c 0 < 16 → img = imageWords (SG_CTL + pof (pb c 0)) ((c.payload.drop 8).take 192) →
    exec (.segParams c) s = .next (completeCmd sp c 0 0 [] (shadowCommit fSG_CTL_PEND (pb c 0)
      (putWords (img.take 12 ++ img.drop 24) u)))) ∧
  (∀ (sp : CmdSpec) (c : CmdCall) (s u : State), sp = ⟨0x0791, 0x10, true, 24, 24, true, true⟩ → Accepted sp c s →
    u = mbTake c s → pb c 0 < 16 → pb c 1 = 0 → pb c 2 < 2 → pb c 3 = 0 → sgDualNow u (pb c 0) = true →
    sgLocked u (pb c 0) (pb c 2) = false → pw c 4 + pw c 6 ≤ 32768 → hostCanRead c u = true →
    exec (.segTableLoad c) s = .next (completeCmd sp c 0 0 [] (tblPuts (hostRead c (pq c 8) (2 * pw c 6) u) (sgTbl (pb c 0) + pb c 2 * 0x10000 + 2 * pw c 4)
      (fit (2 * pw c 6) c.data))))

/-! ## The ledger, views and mates (chapters 7 and 8) -/

/-- Entries of the ledger (R116, R117): an allocation opens the head of the free list with the next ID and CHANGE one more;
an update keeps the ID's index, adds one to CHANGE modulo 256 and leaves every other entry; a retired entry joins the tail of
the free list; the indices of an ID are its own fields. -/
def Obligations.LedgerEntriesFollowTheirRules : Prop :=
  (∀ (pier idx gen : Nat), pier < 1024 → idx < 131072 → gen < 32 →
    idPier (mkId pier idx gen) = pier ∧ idIndex (mkId pier idx gen) = idx ∧ mkId pier idx gen % 32 = gen) ∧
  (∀ (s : State) (port frame first area : Nat), (entryAt (allocEntry s port frame first area) (freeHead s)).id = nextId s ∧
    (entryAt (allocEntry s port frame first area) (freeHead s)).st = .opened ∧
    (entryAt (allocEntry s port frame first area) (freeHead s)).area = min area 0xFFFF ∧
    (entryAt (allocEntry s port frame first area) (freeHead s)).change = ((entryAt s (freeHead s)).change + 1) % 256 ∧
    ∀ i, i ≠ freeHead s → entryAt (allocEntry s port frame first area) i = entryAt s i) ∧
  (∀ (s : State) (id : Nat) (f : Entry → Entry),
    entryOf (updEntry s id f) id = { f (entryOf s id) with change := ((entryOf s id).change + 1) % 256 } ∧
    (∀ i, i ≠ idIndex id → entryAt (updEntry s id f) i = entryAt s i) ∧ (updEntry s id f).regs = s.regs) ∧
  (∀ (s : State) (id : Nat), live s id = true → (entryOf (retireEntry id s) id).st = .retired ∧
    (retireEntry id s).ledger.retired = s.ledger.retired ++ [idIndex id] ∧
    (retireEntry id s).acct.lgRetired = s.acct.lgRetired + 1 ∧ ∀ i, i ≠ idIndex id → entryAt (retireEntry id s) i = entryAt s i)

/-- Ledger events complete with these next states (R115, R118, R119, R12, R132, R140). OBJECT_SEEN of a closed object: its
record goes to LP5X and its entry to SEEN and to the matcher, or to PASSED and RETIRED for a speck that passes.
ORPHAN_TIMEOUT of a member in MATED or TILED whose owner is elsewhere: DROPPED with ORPHAN. VERDICT_DEADLINE of a set owned
here in MATED or TILED: its default. ENTRY_RETIRE at launch + duration: the set ends. SET_CLOSE_TIME of a provisional set,
before and after its close time. GROUP_DISABLE, of an enabled group and of a disabled one. MATE messages complete with these
next states (R134 to R137). A CAND whose time is trusted goes to the matcher, where remote mates are on; an untrusted one is
counted and closes alone. A SET mates the objects that wait for it. An OUTCOME of PASSED ends, and one of SCHEDULED moves,
the local members of a set owned elsewhere. A VERDICT is judged here. A WITHDRAW of a decided set is late; one that leaves a
set with no remote member and no local set forgets the set's record. A wait that expires mates the object alone and sends
WITHDRAW where a neighbour was its home. -/
def Obligations.LedgerAndMateEventsComplete : Prop :=
  (∀ (id : Nat) (s u : State) (c : ClosedObj), s.ledger.closed.find? (fun x => x.id = id) = some c → c.speckPass = false →
    u = { s with ledger := { s.ledger with closed := s.ledger.closed.erase c } } →
    exec (.objectSeen id) s = .next (assignObject id (updEntry (lp5Puts u (featAddr u (idIndex id)) c.record) id
      (fun e => { e with st := .seen })))) ∧
  (∀ (id : Nat) (s u : State) (c : ClosedObj), s.ledger.closed.find? (fun x => x.id = id) = some c → c.speckPass = true →
    u = { s with ledger := { s.ledger with closed := s.ledger.closed.erase c } } →
    exec (.objectSeen id) s = .next (retireEntry id (updEntry (cnt (updEntry (lp5Puts u (featAddr u (idIndex id)) c.record) id
      (fun e => { e with st := .seen })) LG_CNT_SPECK_PASS) id (fun e => { e with st := .passed, outcome := ocPASSED })))) ∧
  (∀ (id : Nat) (s u : State) (r : SetRec), setOf s id = some r → ownsSet s r = false → live s id = true →
    ((entryOf s id).st = .mated ∨ (entryOf s id).st = .tiled) → reachedExt s (orphanTime s id) = true →
    u = retireEntry id (evt (cnt (evMember (fbit s fEV_CTL_EVID_EN && evSelected s 10) 10 r.owner 0 0 id (updEntry s id (fun e =>
      { e with st := .dropped, outcome := ocDROPPED, flags := withBit e.flags lfORPHAN true }))) LG_CNT_ORPHAN) fLG_EVT_ORPHAN) →
    exec (.orphanTimeout id) s = .next (if localMembers u r = [] then dropSet u r else u)) ∧
  (∀ (owner : Nat) (s : State) (r : SetRec), setOwned s owner = some r → ownsSet s r = true →
    (setState s r = .mated ∨ setState s r = .tiled) → reachedExt s (effDeadline r) = true →
    exec (.verdictDeadline owner) s = .next (defaultSet s r)) ∧
  (∀ (owner : Nat) (s : State) (x : RetireAt) (r : SetRec), s.ledger.retireAt.find? (fun y => y.owner = owner) = some x →
    setOwned s owner = some r → reached s x.time = true →
    exec (.entryRetire owner) s = .next (dropOrder (finishSet s r) owner)) ∧
  (∀ (low t : Nat) (s : State) (p : ProvSet), provLow s low = some p → closeTime s p.group p.members = some t →
    exec (.setCloseTime low) s = .next (if reached s t then closeProv p s else s)) ∧
  (∀ (low : Nat) (s : State) (p : ProvSet), provLow s low = some p → closeTime s p.group p.members = none →
    exec (.setCloseTime low) s = .next (closeProv p s)) ∧
  (∀ (ag : Agent) (g : Fin 8) (s u : State), (ag = .dennil ∨ leased s 8 none = true) → fbit s fVW_GRP_CTL_EN (g.val * 0x20) = true →
    u = fbset s fVW_GRP_CTL_EN false (g.val * 0x20) →
    exec (.groupDisable ag g) s = .next (forEach (u.views.prov.filter (fun p => p.group = g.val)) closeProv u)) ∧
  (∀ (ag : Agent) (g : Fin 8) (s : State), (ag = .dennil ∨ leased s 8 none = true) → fbit s fVW_GRP_CTL_EN (g.val * 0x20) = false →
    exec (.groupDisable ag g) s = .next (fbset s fVW_GRP_CTL_EN false (g.val * 0x20))) ∧
  (∀ (src : Nat) (p : List Byte) (s : State) (m : Member), byteAt p 0 = 1 → 32 ≤ p.length →
    fbit s fVW_CTL_REMOTE_EN = true → oldLink s src = false → bit (byteAt p 3) 0 = true → fbit s fVW_STAT_TB_OK = true →
    m = { id := u32At p 4, view := byteAt p 2 % 4, first := u32At p 8, last := u32At p 12, cx := u32At p 16, area := u32At p 20,
          partialView := bits (byteAt p 3) 3 1 != 0, width := u16At p 24 } →
    exec (.mateCandReceive src p) s = .next (matchObject (byteAt p 1 % 8) m (calNotes (byteAt p 1 % 8) m s))) ∧
  (∀ (src : Nat) (p : List Byte) (s : State) (m : Member), byteAt p 0 = 1 → 32 ≤ p.length →
    (bit (byteAt p 3) 0 = false ∨ fbit s fVW_STAT_TB_OK = false) →
    m = { id := u32At p 4, view := byteAt p 2 % 4, first := u32At p 8, last := u32At p 12, cx := u32At p 16, area := u32At p 20,
          partialView := bits (byteAt p 3) 3 1 != 0, width := u16At p 24 } →
    exec (.mateCandReceive src p) s = .next (closeMembers [m] (evtCnt s fVW_EVT_UNSYNC VW_CNT_UNSYNC))) ∧
  (∀ (src : Nat) (p : List Byte) (s : State) (ms got : List Nat), byteAt p 0 = 2 → 28 ≤ p.length →
    ms = sortIds ((List.range (min 4 (byteAt p 1))).map (fun n => u32At p (8 + 4 * n))) →
    got = ms.filter (fun m => s.views.waits.any (fun w => w.id = m)) → got ≠ [] →
    exec (.mateSetReceive src p) s = .next (mateSet ms got (u32At p 24) src
      { s with views := { s.views with waits := s.views.waits.filter (fun w => !got.contains w.id) } })) ∧
  (∀ (src : Nat) (p : List Byte) (s u : State) (r : SetRec), byteAt p 0 = 3 → 24 ≤ p.length → byteAt p 1 = 8 →
    u = noteOutcome (u32At p 4) 8 s → setOwned u (u32At p 4) = some r → ownsSet u r = false →
    exec (.mateOutcomeReceive src p) s = .next (finishSet (evTerminal
      (moveSet u r .passed (fun e => { e with action := byteAt p 2, outcome := ocPASSED })) r 8 0 0) r)) ∧
  (∀ (src : Nat) (p : List Byte) (s u : State) (r : SetRec), byteAt p 0 = 3 → 24 ≤ p.length → byteAt p 1 = 6 →
    u = noteOutcome (u32At p 4) 6 s → setOwned u (u32At p 4) = some r → ownsSet u r = false →
    exec (.mateOutcomeReceive src p) s = .next (moveSet u r .scheduled (fun e => { e with action := byteAt p 2 }))) ∧
  (∀ (src : Nat) (p : List Byte) (s : State), byteAt p 0 = 4 → 20 ≤ p.length →
    exec (.mateVerdictReceive src p) s = .next (verdictHere s ((p.drop 4).take 16))) ∧
  (∀ (src : Nat) (p : List Byte) (s : State) (h : HomeRec), byteAt p 0 = 5 → 8 ≤ p.length →
    s.views.recs.find? (fun h => h.members.any (fun m => m.id = u32At p 4)) = some h → h.decided = true →
    exec (.mateWithdrawReceive src p) s = .next (evtCnt s fVW_EVT_WITHDRAW_LATE VW_CNT_WITHDRAW_LATE)) ∧
  (∀ (src : Nat) (p : List Byte) (s : State) (h : HomeRec), byteAt p 0 = 5 → 8 ≤ p.length →
    s.views.recs.find? (fun h => h.members.any (fun m => m.id = u32At p 4)) = some h → h.decided = false →
    memberPiers s (sortIds ((h.members.filter (fun m => m.id != u32At p 4)).map (·.id))) = [] →
    s.ledger.sets.find? (fun r => r.locals.any (fun m =>
      (sortIds ((h.members.filter (fun m => m.id != u32At p 4)).map (·.id))).contains m) && r.owner == h.owner) = none →
    exec (.mateWithdrawReceive src p) s =
      .next { s with views := { s.views with recs := s.views.recs.flatMap (fun x => if x.owner != h.owner then [x] else []) } }) ∧
  (∀ (id h : Nat) (s u : State) (w : RemoteWait), s.views.waits.find? (fun w => w.id = id) = some w → reached s w.expiry = true →
    w.home = some h → u = { s with views := { s.views with waits := s.views.waits.filter (fun x => x.id != id) } } →
    exec (.remoteWaitExpiry id) s = .next (netSend (mateSingle id (cnt u VW_CNT_WITHDRAW)) clsMATE flCTRL h
      [[5#8, 0#8, 0#8, 0#8] ++ leBytes 4 id])) ∧
  (∀ (id : Nat) (s u : State) (w : RemoteWait), s.views.waits.find? (fun w => w.id = id) = some w → reached s w.expiry = true →
    w.home = none → u = { s with views := { s.views with waits := s.views.waits.filter (fun x => x.id != id) } } →
    exec (.remoteWaitExpiry id) s = .next (mateSingle id (cnt u VW_CNT_WITHDRAW)))

/-- The view commands, accepted here, complete with these next states (R126, R138, R139). VIEW_LOAD_CAL writes the entry in
use to disabled groups, where no port's ranges are left wrong, and enables them. VIEW_CAL_RUN with operands in range disables
the group and waits. At its end the group's enable returns; fewer than 8 filled bins answer E_RANGE, and else the result
begins with the fitted A and B, where neither load nor store was asked for. VIEW_PARAMS and VIEW_TABLE_LOAD write a disabled
group's words and tables. -/
def Obligations.ViewCommandsComplete : Prop :=
  (∀ (sp : CmdSpec) (c : CmdCall) (s u v : State) (e : CalEntry) (ws : List (Nat × Nat)),
    sp = ⟨0x0810, 0x10, false, 0, 0, false, true⟩ → Accepted sp c s → u = mbTake c s → evRunning u = true →
    calInUse u 0x0801 0 0 = some e →
    ws = (calPairs e).map (fun p => if 0xE0100 ≤ p.1 ∧ p.1 < 0xE0200 ∧ p.1 % 0x20 = 0 then (p.1, p.2 % 2 ^ 31) else p) →
    (wordsGroups ws).any (fun g => fbit u fVW_GRP_CTL_EN (g * 0x20)) = false → v = forEach ws (fun p t => vwPut p.1 p.2 t) u →
    (List.range 16).any (rangesBad v) = false →
    exec (.viewLoadCal c) s = .next (completeCmd sp c 0 0 [] (askXmdls (sendXmdls
      (forEach (wordsGroups ws) (fun g t => fbset t fVW_GRP_CTL_EN true (g * 0x20)) v))))) ∧
  (∀ (sp : CmdSpec) (c : CmdCall) (s u v : State), sp = ⟨0x0811, 0x11, false, 16, 16, false, true⟩ → Accepted sp c s →
    u = mbTake c s → pb c 0 ≤ 7 → pb c 1 ≤ 3 → pb c 2 ≤ 3 → pb c 1 ≠ pb c 2 → 16 ≤ pw c 4 → pw c 4 ≤ 4096 →
    2 * pd c 8 ≤ pw c 6 * 1000 → v = groupEnable (pb c 0) false u →
    (∀ r : CalRun, r =
      { group := pb c 0, src := pb c 1, dst := pb c 2, flags := pb c 3, count := pw c 4, sep := pw c 6, lo := 0,
        hi := (pd c 8 : Int), wasEn := fbit u fVW_GRP_CTL_EN (pb c 0 * 0x20), gate := [], objs := [] } →
      exec (.viewCalRun c) s = .next (holdDeferred sp c true false { v with views := { v.views with calRun := some r } }))) ∧
  (∀ (s u : State) (r : CalRun), s.views.calRun = some r → (fullBins (viewPairs r)).length < 8 →
    u = groupEnable r.group r.wasEn { s with views := { s.views with calRun := none } } →
    exec .viewCalRunEnd s = .next (endRun 0x0811 eRANGE [] u)) ∧
  (∀ (s u : State) (r : CalRun), s.views.calRun = some r → 8 ≤ (fullBins (viewPairs r)).length → r.flags % 4 = 0 →
    u = groupEnable r.group r.wasEn { s with views := { s.views with calRun := none } } →
    ∃ res, res.length = 32 ∧ u32At res 0 = int32u (fitAB (viewPairs r)).1 ∧ u32At res 4 = int32u (fitAB (viewPairs r)).2 ∧
      exec .viewCalRunEnd s = .next (endRun 0x0811 0 res (useFree u))) ∧
  (∀ (sp : CmdSpec) (c : CmdCall) (s u : State), sp = ⟨0x0890, 0x10, true, 580, 580, false, true⟩ → Accepted sp c s →
    u = mbTake c s → pb c 0 ≤ 7 → fbit u fVW_GRP_CTL_EN (pb c 0 * 0x20) = false →
    exec (.viewParams c) s = .next (completeCmd sp c 0 0 [] (putWords (imageWords (0xE0200 + pb c 0 * 0x20) ((c.payload.drop 36).take 32) ++
      imageWords (0xE1000 + pb c 0 * 0x200) ((c.payload.drop 68).take 512) ++
      imageWords (0xE0100 + pb c 0 * 0x20) ((c.payload.drop 4).take 32)) u))) ∧
  (∀ (sp : CmdSpec) (c : CmdCall) (s u : State), sp = ⟨0x0891, 0x10, true, 16, 16, false, true⟩ → Accepted sp c s →
    u = mbTake c s → pb c 0 ≤ 127 → fbit u fVW_GRP_CTL_EN (pb c 0 / 16 * 0x20) = false →
    hostCanRead c u = true → exec (.viewTableLoad c) s = .next (completeCmd sp c 0 0 [] (tblPuts (hostRead c (pq c 8) 256 u) (0xE00000 + pb c 0 * 0x100) (fit 256 c.data))))

/-! ## Tiles and verdicts (chapter 9) -/

/-- Tile rows complete with these next states (R142 to R149, R241). TILE_CROP_START of a tile that waits for its crop, ready
and with its reads good: it is dropped as STAGE when its first line is gone, as OVERSIZE when it has no crop, and else, with
budget and pool blocks for it, its bytes are copied for evidence, charged, and go out. TILE_PACKET_RECEIVE: the first packet
of a tile allocates it; the next one in turn places its bytes; one out of turn drops the tile with reason 4.
TILE_DESCRIPTOR_WRITE of a complete tile made here, on a ring without interrupts: its descriptor at SEQ modulo the ring's
size, TL_TR_CNT_DONE, and the tile is delivered. A descriptor has 32 bytes. -/
def Obligations.TileRowsComplete : Prop :=
  (∀ (id at_ : Nat) (cut : Option Nat) (d : Bool) (s : State) (m : TileMade),
    s.tiles.made.find? (fun m => m.id = id && m.sentTo.isNone && !(s.tiles.allocs.any (fun a => a.maker.isNone && a.id = id))) = some m →
    cropReady s (entryOf s id) (bits m.route 24 19) = true → cropLost s (entryOf s id) (bits m.route 24 19) = true →
    exec (.tileCropStart id ⟨cut, d⟩ ⟨.good, at_⟩) s = .next (tileDrop id .stage s)) ∧
  (∀ (id at_ : Nat) (cut : Option Nat) (d : Bool) (s : State) (m : TileMade),
    s.tiles.made.find? (fun m => m.id = id && m.sentTo.isNone && !(s.tiles.allocs.any (fun a => a.maker.isNone && a.id = id))) = some m →
    cropReady s (entryOf s id) (bits m.route 24 19) = true → cropLost s (entryOf s id) (bits m.route 24 19) = false →
    lp5Poison s (featAddr s (idIndex id)) 128 = false →
    cropOf s (entryOf s id) m.route = none → exec (.tileCropStart id ⟨cut, d⟩ ⟨.good, at_⟩) s = .next (tileDrop id .oversize s)) ∧
  (∀ (id at_ : Nat) (d : Bool) (s u : State) (m : TileMade) (c : Crop) (bytes : List Byte) (rect : Nat × Nat × Nat × Nat),
    s.tiles.made.find? (fun m => m.id = id && m.sentTo.isNone && !(s.tiles.allocs.any (fun a => a.maker.isNone && a.id = id))) = some m →
    cropReady s (entryOf s id) (bits m.route 24 19) = true → cropLost s (entryOf s id) (bits m.route 24 19) = false →
    lp5Poison s (featAddr s (idIndex id)) 128 = false →
    cropOf s (entryOf s id) m.route = some c → rect = cropRect s (entryOf s id) (bits m.route 24 19) →
    bytes = tileBytes s (entryOf s id) m c → tollNext s 32 (8 * (rect.2.1 + 1 - rect.1)) [(0, 1), (2, 1)] = true →
    poolCan s 2 (blocksOf bytes.length) = true →
    u = evCopy id bytes (poolGive (poolTake s 2 (blocksOf bytes.length)) 2 (blocksOf bytes.length)) →
    exec (.tileCropStart id ⟨none, d⟩ ⟨.good, at_⟩) s = .next (tileOut m bytes none d (tollStream 32
      (cropCosts rect bytes.length (u.ev.copies.any (fun x => x.id = id && x.data.isSome))) false u))) ∧
  (∀ (src msg : Nat) (p : List Byte) (s u : State) (a : TileAlloc) (len : Nat), 64 ≤ p.length →
    len = tileLen (u16At p 12) (u16At p 14) (bits (byteAt p 9) 5 4) (bit (byteAt p 9) 6) (bit (byteAt p 9) 7) →
    u = tileHeaderIn (byteAt p 19 % 64) len (u32At p 0) (some src) msg (blocksOf len) s → allocOf u src msg = some a →
    tollNext u 33 p.length (dmaCosts a.maker.isSome p.length) = true →
    exec (.tilePacketReceive src msg 0 p false) s =
      .next (tollStream 33 (dmaCosts a.maker.isSome p.length) false (allocWrite a 0 p u))) ∧
  (∀ (src msg seg : Nat) (p : List Byte) (s : State) (a : TileAlloc), seg ≠ 0 → allocOf s src msg = some a → a.paused = false →
    a.drop = none → seg = a.nextSeg → tollNext s 33 p.length (dmaCosts a.maker.isSome p.length) = true →
    exec (.tilePacketReceive src msg seg p false) s =
      .next (tollStream 33 (dmaCosts a.maker.isSome p.length) false (allocWrite a (seg * 2048) p s))) ∧
  (∀ (src msg seg : Nat) (p : List Byte) (d : Bool) (s : State) (a : TileAlloc), seg ≠ 0 → allocOf s src msg = some a →
    a.paused = false → a.drop = none → seg ≠ a.nextSeg → exec (.tilePacketReceive src msg seg p d) s =
      .next (updAlloc a.ring a.seq (fun x => { x with drop := some 4 }) s)) ∧
  (∀ (r : Fin 64) (seq : Nat) (s u : State) (a : TileAlloc), s.tiles.allocs.find? (fun a => a.ring = r.val && a.seq = seq) = some a →
    canDma s = true → allocEnd a = some none → fbit s fTL_TR_CTL_INT (tro r.val) = false → a.maker = none →
    u = cnt (dmaWrite s (fget s fTL_TR_DESC_LO_BASE (tro r.val) * 64 + rdn s (TL_TR_DESC_HI + tro r.val) * 2 ^ 32 +
      seq % trSlots s r.val * 32) (descBytes s a none)) (TL_TR_CNT_DONE + tro r.val) → fbit u fTL_TR_CTL_INT (tro r.val) = false →
    exec (.tileDescriptorWrite r seq) s =
      .next (tileDeliver a.id (acct (allocFree a u) (fun x => { x with trDone := x.trDone + 1 })))) ∧
  (∀ (s : State) (a : TileAlloc) (reason : Option Nat), (descBytes s a reason).length = 32)

/-- Tile ends complete with these next states (R149 to R151). TILE_DONE_RECEIVE from the unit that a tile was sent to: DONE
delivers it, DROPPED drops it for its reason. TILE_ACK_TIMEOUT drops a sent tile as SPAN once twice ACK_TMO has passed.
TILE_INCOMPLETE_TIMEOUT of a tile whose end is not decided, ACK_TMO after its header, gives it drop reason 4.
TILE_RING_CONS_WRITE: CONS moves within what was allocated and takes the arena index with it, every other register kept;
another value sets CONS_ERR and moves nothing. Verdict rows complete with these next states (R152, R13). VERDICT_DOORBELL:
TAIL takes an index inside the ring, every other register kept, and another value only sets DB_ERR. VERDICT_FETCH with a ring
to serve, budget and a tag: the fetch of that ring's next entries is outstanding. VERDICT_FETCH_COMPLETE of an outstanding
fetch: its entries are taken one by one where host memory can be reached, and those of a voided read are discarded and
counted. ACT_VERDICT_RECEIVE: the verdict is judged at the member. -/
def Obligations.VerdictsAndTileEndsComplete : Prop :=
  (∀ (src : Nat) (p : List Byte) (s : State), byteAt p 0 = 1 → 16 ≤ p.length →
    s.tiles.made.any (fun m => m.id = u32At p 4 && m.sentTo == some src) = true →
    (byteAt p 1 = 1 → exec (.tileDoneReceive src p) s = .next (tileDeliver (u32At p 4) s)) ∧
    (byteAt p 1 = 2 → exec (.tileDoneReceive src p) s = .next (tileDrop (u32At p 4) (reasonDrop (byteAt p 2)) s))) ∧
  (∀ (id : Nat) (s : State) (m : TileMade), s.tiles.made.find? (fun m => m.id = id && m.sentTo.isSome) = some m →
    exec (.tileAckTimeout id) s =
      .next (if reached s (add32 m.sentAt (2 * ackTmo s)) then tileDrop id .span s else s)) ∧
  (∀ (r : Fin 64) (seq : Nat) (s : State) (a : TileAlloc), s.tiles.allocs.find? (fun a => a.ring = r.val && a.seq = seq) = some a →
    allocEnd a = none → reached s (add32 a.headerAt (ackTmo s)) = true →
    exec (.tileIncompleteTimeout r seq) s = .next (updAlloc r.val seq (fun x => { x with drop := some 4 }) s)) ∧
  (∀ (r : Fin 64) (v : Word) (s : State), sub32 v.toNat (rdn s (TL_TR_CONS + tro r.val)) ≤
      sub32 (rdn s (TL_TR_SEQ + tro r.val)) (rdn s (TL_TR_CONS + tro r.val)) →
    ∃ t, exec (.tileRingConsWrite r v) s = .next t ∧ rdn t (TL_TR_CONS + tro r.val) = v.toNat ∧
      smGet t.tiles.arenaCons r.val 0 = rdn s (TL_TR_ARENA_CONS + tro r.val) ∧
      (∀ a, a ≠ TL_TR_CONS + tro r.val → rdn t a = rdn s a) ∧ t.tiles.allocs = s.tiles.allocs ∧ t.ledger = s.ledger) ∧
  (∀ (r : Fin 64) (v : Word) (s : State), sub32 (rdn s (TL_TR_SEQ + tro r.val)) (rdn s (TL_TR_CONS + tro r.val)) <
      sub32 v.toNat (rdn s (TL_TR_CONS + tro r.val)) →
    ∃ t, exec (.tileRingConsWrite r v) s = .next t ∧ fget t fTL_TR_EVT_CONS_ERR (tro r.val) = 1 ∧
      rdn t (TL_TR_CONS + tro r.val) = rdn s (TL_TR_CONS + tro r.val) ∧ t.tiles = s.tiles) ∧
  (∀ (v : Fin 16) (t : BitVec 12) (s : State), t.toNat < vrSize s v.val →
    ∃ u, exec (.verdictDoorbell v t) s = .next u ∧ fget u fTL_VR_TAIL_V (vro v.val) = t.toNat ∧
      (∀ a, a ≠ TL_VR_TAIL + vro v.val → rdn u a = rdn s a) ∧ OnlyRegs s u) ∧
  (∀ (v : Fin 16) (t : BitVec 12) (s : State), vrSize s v.val ≤ t.toNat →
    exec (.verdictDoorbell v t) s = .next (evt s fTL_EVT_DB_ERR)) ∧
  (∀ (s : State) (v tag n : Nat), canDma s = true → vrNext s = some v → n = vrCount s v →
    tollCan s 36 [(1, lp5Units (16 * n)), (2, 1)] = true → freeTag s = some tag →
    ∃ t, exec .verdictFetch s = .next t ∧ t.tiles.lastRing = v ∧
      t.tiles.fetches = (npIssue .verdict tag (vrBase s v + 16 * fget s fTL_VR_HEAD_V (vro v)) (16 * n)
        (tollSpend s 36 [(1, lp5Units (16 * n)), (2, 1)])).tiles.fetches ++ [⟨v, fget s fTL_VR_HEAD_V (vro v), n, tag⟩]) ∧
  (∀ (v : Fin 16) (d : List Byte) (s u : State) (f : VerdictFetch) (r : NpReq), s.tiles.fetches.find? (fun f => f.ring = v.val) = some f →
    npOf s f.tag = some r → r.void = false → u = npEnd f.tag (fetchDrop f.tag s) → canDma u = true →
    exec (.verdictFetchComplete v d) s = .next (forEach (List.range f.count) (fun k t => vrTake v.val (fit 16 (d.drop (16 * k))) t)
      (acct u (fun a => { a with vrArrived := a.vrArrived + f.count })))) ∧
  (∀ (v : Fin 16) (d : List Byte) (s : State) (f : VerdictFetch) (r : NpReq), s.tiles.fetches.find? (fun f => f.ring = v.val) = some f →
    npOf s f.tag = some r → r.void = true →
    exec (.verdictFetchComplete v d) s = .next (cnt (npEnd f.tag (fetchDrop f.tag s)) HE_CNT_CPL_DISCARD)) ∧
  (∀ (src : Nat) (p : List Byte) (s : State), byteAt p 0 = 1 → 20 ≤ p.length →
    exec (.actVerdictReceive src p) s = .next (verdictAtMember s ((p.drop 4).take 16)))

/-! ## Actuation (chapter 10) -/

/-- ACT messages complete with these next states (R168 to R170). ACT_ORDER_RECEIVE of an order whose valves all have boards:
an admitted one evicts its victims, queues its parts and answers RESULT 0; a refused one counts its cause and answers its
code. ACT_RESULT_RECEIVE before launch, for a waiting remote part of an order with local parts: QUEUED marks the part;
another code counts as refused and marks it. ACT_CANCEL_RECEIVE cancels the parts of its order on every bus. REMOTE_LAUNCH at
launch: parts without a RESULT count as late and refused, and an order with only remote parts fires when one is QUEUED. The
ejection commands complete with these next states (R159, R164, R181, R182). EJECT_LOAD_CAL with an entry in use that leaves
no overlapping boards: its words, and the diagonal models go to the neighbours. EJECT_CAL_RUN with operands in range: the
group is disabled and the command waits. EJECT_CAL_RUN_END with 8 or more filled bins, nothing to load or store: the group's
enable returns and the command completes. EJECT_TEST with ejection off, the buses on and room: test parts of priority 3 are
queued and counted. -/
def Obligations.ActMessagesAndCommandsComplete : Prop :=
  (∀ (src : Nat) (p : List Byte) (s u : State) (ps : List PartSpec) (evict : List Nat), byteAt p 0 = 2 → 24 ≤ p.length →
    ps = localParts s ((u16At p 14 : Nat), min (u16At p 16 : Int) (ownValves s - 1)) →
    missesBoard s ((u16At p 14 : Nat), min (u16At p 16 : Int) (ownValves s - 1)) = false → u = cnt s AC_CNT_ACT_RX →
    orderAdmission u src (u32At p 8) (byteAt p 1 % 4) ps = .inr evict →
    exec (.actOrderReceive src p) s = .next (sendResult src 0 (u16At p 2) (u32At p 4)
      (forEach ps (queuePart (.act src (u16At p 2) (u32At p 4)) (u32At p 8) (u16At p 12) (byteAt p 1 % 4))
        (forEach evict (fun o t => cancelOrder t o AC_CNT_EVICT) u)))) ∧
  (∀ (src : Nat) (p : List Byte) (s u : State) (code : Nat) (c : Cause), byteAt p 0 = 2 → 24 ≤ p.length →
    missesBoard s ((u16At p 14 : Nat), min (u16At p 16 : Int) (ownValves s - 1)) = false → u = cnt s AC_CNT_ACT_RX →
    orderAdmission u src (u32At p 8) (byteAt p 1 % 4)
      (localParts s ((u16At p 14 : Nat), min (u16At p 16 : Int) (ownValves s - 1))) = .inl (code, c) →
    exec (.actOrderReceive src p) s =
      .next (sendResult src code (u16At p 2) (u32At p 4) (evt (cnt u (causeCnt c)) fAC_EVT_REFUSED))) ∧
  (∀ (src : Nat) (p : List Byte) (s : State) (o : Order), byteAt p 0 = 3 → 16 ≤ p.length → orderOf s (u32At p 4) = some o →
    o.hasLocal = true → byteAt p 1 ≠ 0 → reached s o.launch = false → o.remotes.any (answers src (u16At p 2)) = true →
    exec (.actResultReceive src p) s = .next (updOrder (evt (cnt s AC_CNT_ACT_REFUSED) fAC_EVT_ACT_REFUSED) o.owner (fun x =>
      { x with remotes := x.remotes.map (fun r => if answers src (u16At p 2) r then { r with status := .refused } else r) }))) ∧
  (∀ (src : Nat) (p : List Byte) (s : State) (o : Order), byteAt p 0 = 3 → 16 ≤ p.length → orderOf s (u32At p 4) = some o →
    o.hasLocal = true → byteAt p 1 = 0 → reached s o.launch = false → o.remotes.any (answers src (u16At p 2)) = true →
    exec (.actResultReceive src p) s = .next (updOrder s o.owner (fun x =>
      { x with remotes := x.remotes.map (fun r => if answers src (u16At p 2) r then { r with status := .queued } else r) }))) ∧
  (∀ (src : Nat) (p : List Byte) (s : State), byteAt p 0 = 4 → 16 ≤ p.length →
    exec (.actCancelReceive src p) s = .next (forEach (List.range 4)
      (cancelParts · (fun x => x.src == .act src (u16At p 2) (u32At p 4))) s)) ∧
  (∀ (owner : Nat) (s u : State) (o : Order), orderOf s owner = some o → reached s o.launch = true → o.remotes ≠ [] →
    u = cntAdd (updOrder s owner (fun x => { x with
      remotes := x.remotes.map (fun r => if r.status = .waiting then { r with status := .refused } else r) }))
      AC_CNT_ACT_TMO (o.remotes.filter (fun r => r.status = .waiting)).length →
    (o.hasLocal = true → exec (.remoteLaunch owner) s = .next u) ∧
    (o.hasLocal = false → o.remotes.any (fun r => r.status = .queued) = true →
      exec (.remoteLaunch owner) s = .next (fireOrder u owner))) ∧
  (∀ (sp : CmdSpec) (c : CmdCall) (s u v : State) (e : CalEntry), sp = ⟨0x0A10, 0x10, false, 0, 0, false, true⟩ →
    Accepted sp c s → u = mbTake c s → evRunning u = true → calInUse u 0x0A01 0 0 = some e →
    v = forEach (calPairs e) (fun p t => acPut p.1 p.2 t) u → boardsBad v = false →
    exec (.ejectLoadCal c) s = .next (completeCmd sp c 0 0 [] (askXmdls (sendXmdls v)))) ∧
  (∀ (sp : CmdSpec) (c : CmdCall) (s u v : State), sp = ⟨0x0A11, 0x11, false, 16, 16, false, true⟩ → Accepted sp c s →
    u = mbTake c s → pb c 0 ≤ 7 → pb c 1 ≤ 3 → 16 ≤ pw c 4 → pw c 4 ≤ 4096 → pd c 8 < pd c 12 → v = groupEnable (pb c 0) false u →
    (∀ r : CalRun, r =
      { group := pb c 0, src := pb c 1, dst := pb c 1, flags := pb c 2, count := pw c 4, sep := pw c 6, lo := (pd c 8 : Int),
        hi := (pd c 12 : Int), wasEn := fbit u fVW_GRP_CTL_EN (pb c 0 * 0x20), gate := [], objs := [] } →
      exec (.ejectCalRun c) s = .next (holdDeferred sp c true false { v with views := { v.views with ejectRun := some r } }))) ∧
  (∀ (s u : State) (r : CalRun), s.views.ejectRun = some r → 8 ≤ (fullBins (gatePairs r)).length → r.flags % 4 = 0 →
    u = groupEnable r.group r.wasEn { s with views := { s.views with ejectRun := none } } →
    exec .ejectCalRunEnd s = .next (endRun 0x0A11 0 [] (useFree u))) ∧
  (∀ (sp : CmdSpec) (c : CmdCall) (s u : State) (ps : List PartSpec) (evict : List Nat),
    sp = ⟨0x0A90, 0x10, true, 16, 16, false, true⟩ → Accepted sp c s → u = mbTake c s →
    ps = localParts u (max 0 (s16 (pw c 0)), min (s16 (pw c 2)) (ownValves u - 1)) → fbit u fAC_CTL_EN = false →
    busesOn u ps = true → safeState u = false → 10000 ≤ pd c 8 → pd c 8 ≤ 1000000000 → ps ≠ [] →
    chooseVictims 16385 u ps 3 [] = some evict →
    exec (.ejectTest c) s = .next (completeCmd sp c 0 0 [] (cntAdd (forEach ps (queuePart .test (add32 (now u) (pd c 8))
      (clampDur u (pw c 4)) 3) (forEach evict (fun o t => cancelOrder t o AC_CNT_EVICT) u)) AC_CNT_TEST ps.length)))

/-- Valve frames complete with these next states (R171 to R173, R179, R180). FRAME_ASSEMBLE, 5 µs or less before the launch
of the earliest part that no frame holds: the parts of its board inside COAL make one frame. VALVE_FRAME_START of a due frame
at most 20 ns late on an idle bus: its parts leave the queue, the FIRE frame is sent, its orders fire. VALVE_FRAME_END of a
bus that does not poll: the wire is idle. SAFE_FRAME_REPEAT: a SAFE frame on all four buses in the safe state, nothing
outside it. IDLE_SAFE_FRAME of an idle bus with EN 0, running and outside the safe state: a SAFE frame. BUS_ENABLE_WRITE, by
Dennil or under a lease: EN 1 is written but in the safe state; EN 0 on an enabled bus cancels what is queued and the bus
begins to idle. Board polls complete with these next states (R178). BOARD_POLL of a board on the map, on an enabled, polling,
idle bus with nothing due: a POLL frame. STATUS_FRAME_RECEIVE of a polled board: a frame of another length, CRC or address
counts as STATUS_ERR; a good one of version 2 fills AC_BSTAT and the fault words and frees the wire. POLL_NO_ANSWER counts
POLL_MISS, and clears SEEN with an event where it was set. Without a poll outstanding both do nothing. -/
def Obligations.ValveBusesComplete : Prop :=
  (∀ (b : BusNo) (s : State) (p0 : Part) (l : List Part) (p : Part) (ps : List Part),
    (busAt s b.val).queue.filter (fun p => !((busAt s b.val).frames.any (fun f => f.pids.contains p.pid))) = p0 :: l →
    p = l.foldl (fun a x => if Machine.sdiff x.launch a.launch < 0 then x else a) p0 → Machine.sdiff p.launch (now s) ≤ 5000 →
    ps = (p0 :: l).filter (fun x => x.board = p.board &&
      decide (Machine.sdiff x.launch p.launch ≤ (fget s fAC_BUS_CTL_COAL (buo b.val) : Int))) →
    exec (.frameAssemble b) s = .next (cntAdd (updBus s b.val (fun w =>
      { w with frames := w.frames ++ [⟨p.board, ps.map (·.pid)⟩] })) (AC_BUS_CNT_COAL + buo b.val) (ps.length - 1))) ∧
  (∀ (b : BusNo) (s u : State) (f : Frame), (busAt s b.val).wire = .idle → nextFrame s b.val = some f →
    (Machine.sdiff (now s) (minLaunch (frameParts s b.val f))).toNat ≤ 20 →
    u = cnt (acct (updBus s b.val (fun w =>
        { w with queue := w.queue.filter (fun p => !(f.pids.contains p.pid)), frames := w.frames.erase f, wire := .fire f.pids }))
      (fun a => { a with partFired := addAt a.partFired b.val ((frameParts s b.val f).filter (fun p => !testPart p)).length }))
      (AC_BUS_CNT_FRAMES + buo b.val) →
    exec (.valveFrameStart b) s = .next (emFire (0x90 + b.val) (forEach (((frameParts s b.val f).filterMap partOwner).dedup)
      (fun o t => fireOrder t o) (emit u (.valveFrame b.val (frameBytes 0 f.board (orBits (frameParts s b.val f))
        (frameDur s (frameParts s b.val f)) (fireVer s b.val f.board))))))) ∧
  (∀ (b : BusNo) (s : State), (∀ a, (busAt s b.val).wire ≠ .poll a) →
    ∃ t, exec (.valveFrameEnd b) s = .next t ∧ (busAt t b.val).wire = .idle ∧ (busAt t b.val).queue = (busAt s b.val).queue ∧
      t.regs = s.regs) ∧
  (∀ s : State, safeState s = true → exec .safeFrameRepeat s =
    .next (forEach (List.range 4) (fun b t => emFire (0x94 + b) (sendSafe b t)) s)) ∧
  (∀ s : State, safeState s = false → exec .safeFrameRepeat s = .next s) ∧
  (∀ (b : BusNo) (s : State), fbit s fAC_BUS_CTL_EN (buo b.val) = false → safeState s = false → s.rs.held = false →
    s.rs.asleep = false → (busAt s b.val).wire = .idle → exec (.idleSafeFrame b) s = .next (emFire (0x94 + b.val) (sendSafe b.val s))) ∧
  (∀ (ag : Agent) (b : BusNo) (s : State), (ag = .dennil ∨ leased s 0xA none = true) → safeState s = false →
    exec (.busEnableWrite ag b true) s = .next (fbset s fAC_BUS_CTL_EN true (buo b.val))) ∧
  (∀ (ag : Agent) (b : BusNo) (s : State), (ag = .dennil ∨ leased s 0xA none = true) → safeState s = true →
    exec (.busEnableWrite ag b true) s = .next s) ∧
  (∀ (ag : Agent) (b : BusNo) (s : State), (ag = .dennil ∨ leased s 0xA none = true) → fbit s fAC_BUS_CTL_EN (buo b.val) = true →
    exec (.busEnableWrite ag b false) s = .next (idleSafe b.val (cancelBus b.val (fbset s fAC_BUS_CTL_EN false (buo b.val))))) ∧
  (∀ (b : BusNo) (a : Fin 32) (s : State), fbit s fAC_BUS_CTL_EN (buo b.val) = true → fbit s fAC_BUS_CTL_POLL_EN (buo b.val) = true →
    (busAt s b.val).wire = .idle → onMap s b.val a.val = true → dueSoon s b.val = false →
    exec (.boardPoll b a) s = .next (emit (updBus s b.val (fun u => { u with wire := .poll a.val }))
      (.valveFrame b.val (frameBytes 2 a.val 0 0 1)))) ∧
  (∀ (b : BusNo) (f : List Byte) (s : State) (a : Nat), (busAt s b.val).wire = .poll a →
    (f.length ≠ 14 ∨ crc16 (f.take 12) ≠ u16At f 12 ∨ byteAt f 0 ≠ 0x80 + a) →
    exec (.statusFrameReceive b f) s =
      .next (cnt (updBus s b.val (fun u => { u with wire := .idle })) (AC_BUS_CNT_STATUS_ERR + buo b.val))) ∧
  (∀ (b : BusNo) (f : List Byte) (s : State) (a : Nat), (busAt s b.val).wire = .poll a → a < 32 → f.length = 14 →
    crc16 (f.take 12) = u16At f 12 → byteAt f 0 = 0x80 + a → byteAt f 11 % 16 = 2 →
    ∃ t, exec (.statusFrameReceive b f) s = .next t ∧ (busAt t b.val).wire = .idle ∧
      rdn t (AC_BSTAT + (b.val * 32 + a) * 4) = 2 ^ 31 + 2 * 2 ^ 24 + byteAt f 9 * 65536 + byteAt f 10 * 256 ∧
      rdn t (AC_BFAULT_LO + 2 * ((b.val * 32 + a) * 4)) = u32At f 1 ∧ rdn t (AC_BFAULT_HI + 2 * ((b.val * 32 + a) * 4)) = u32At f 5) ∧
  (∀ (b : BusNo) (s u : State) (a : Nat), (busAt s b.val).wire = .poll a →
    u = cnt (updBus s b.val (fun w => { w with wire := .idle })) (AC_BUS_CNT_POLL_MISS + buo b.val) →
    exec (.pollNoAnswer b) s = .next (if fbit s fAC_BSTAT_SEEN ((b.val * 32 + a) * 4) then
      evt (fbset u fAC_BSTAT_SEEN false ((b.val * 32 + a) * 4)) fAC_EVT_BOARD else u)) ∧
  (∀ (b : BusNo) (f : List Byte) (s : State), (∀ a, (busAt s b.val).wire ≠ .poll a) →
    exec (.statusFrameReceive b f) s = .next s ∧ exec (.pollNoAnswer b) s = .next s)

/-! ## Time (chapter 11) -/

/-- Reads, snapshots, sources and steps of the time bases complete with these next states (R184, R186, R190). TB_NS_READ
answers NS and latches HI and FRAC for the host, and HI for Dennil without a change of registers. TB_SNAP captures NS and
WRAP of all four bases. By Dennil or under a lease: TB_SOURCE_WRITE of TB0 to TB2 refuses a source that is not allowed, and
sets an allowed one with the base FREE; TB_STEP steps where a step is allowed and is refused elsewhere; TB_ALIGN steps TB1 by
its offset in a quiet unit; TB_CLEAR_INTEGRATOR zeroes the integrator, with NS and every register as before. The servo and
holdover complete with these next states (R187 to R189). TB1_MEASURE with a source base accepts the saturated offset,
discards it when the interval contains a step, and does nothing without a source base. TB_HOLDOVER_ENTRY in ACQUIRE or
LOCKED: the base goes to HOLDOVER with FREQ at the clamped integrator. Clamping to a limit stays inside it and keeps what
lies inside. -/
def Obligations.TimeBaseRowsComplete : Prop :=
  (∀ (b : BaseNo) (s : State), ∃ t, exec (.tbNsRead .host b) s = .next t ∧
    t = emit (wrn (wrn s (TB_HI + tbo b.val) (tbase s b.val).wrap) (TB_FRAC + tbo b.val) (tbase s b.val).frac)
      (.readData .host (tbase s b.val).ns)) ∧
  (∀ (b : BaseNo) (s : State), ∃ t, exec (.tbNsRead .dennil b) s = .next t ∧ t.regs = s.regs ∧ t.bases = s.bases ∧
    t.outbox = .readData .dennil (tbase s b.val).ns :: s.outbox ∧
    (b.val < s.time.hiLatch.length → t.time.hiLatch.getD b.val 0 = (tbase s b.val).wrap)) ∧
  (∀ s : State, ∃ t, exec .tbSnap s = .next t ∧ ∀ b, b < 4 → rdn t (TB_SNAP_NS + 8 * b) = (tbase s b).ns % 2 ^ 32 ∧
    rdn t (TB_SNAP_HI + 8 * b) = (tbase s b).wrap % 2 ^ 32) ∧
  (∀ (ag : Agent) (b : BaseNo) (src : Fin 8) (s : State), (ag = .dennil ∨ leased s 0xB none = true) → b.val ≠ 3 →
    srcAllowed s b.val src.val = false → exec (.tbSourceWrite ag b src) s = .next (evt s fTB_EVT_REFUSED)) ∧
  (∀ (ag : Agent) (b : BaseNo) (src : Fin 8) (s : State), (ag = .dennil ∨ leased s 0xB none = true) → b.val ≠ 3 →
    srcAllowed s b.val src.val = true → exec (.tbSourceWrite ag b src) s = .next (setTbState b.val 0 (updBase
      (fset s fTB_SRV_CTL_SRC src.val (tbo b.val)) b.val (fun t => { t with goodRun := 0, stepped := false })))) ∧
  (∀ (ag : Agent) (b : BaseNo) (s : State), (ag = .dennil ∨ leased s 0xB none = true) → stepAllowed s b.val = true →
    exec (.tbStep ag b) s = .next (tbAdd b.val (stepValue s b.val) s)) ∧
  (∀ (ag : Agent) (b : BaseNo) (s : State), (ag = .dennil ∨ leased s 0xB none = true) → stepAllowed s b.val = false →
    exec (.tbStep ag b) s = .next (evt s fTB_EVT_REFUSED)) ∧
  (∀ (ag : Agent) (s : State) (e : Int), (ag = .dennil ∨ leased s 0xB none = true) → t1Offset s = some e → quietUnit s = true →
    exec (.tbAlign ag) s = .next (tbAdd 1 (roundOpen e 65536 s) (useFree s))) ∧
  (∀ (ag : Agent) (b : BaseNo) (s : State), (ag = .dennil ∨ leased s 0xB none = true) →
    ∃ t, exec (.tbClearIntegrator ag b) s = .next t ∧ (tbase t b.val).integ = 0 ∧ (tbase t b.val).ns = (tbase s b.val).ns ∧
      t.regs = s.regs) ∧
  (∀ (s : State) (e : Int), t1Offset s = some e → tbSrc s 1 ≠ 0 → (tbase s 1).stepped = false →
    exec .tb1Measure s = .next (acceptOffset 1 (satOfs e) 1000000 s)) ∧
  (∀ (s : State) (e : Int), t1Offset s = some e → tbSrc s 1 ≠ 0 → (tbase s 1).stepped = true →
    exec .tb1Measure s = .next (updBase s 1 (fun t => { t with stepped := false }))) ∧
  (∀ s : State, t1Offset s = none → exec .tb1Measure s = .next s) ∧
  (∀ (b : BaseNo) (s : State), tbSrc s b.val ≠ 0 → (tbState s b.val = 1 ∨ tbState s b.val = 2) →
    exec (.tbHoldoverEntry b) s = .next (setTbState b.val 3 (freqPut b.val
      (int32u (clampTo (servoLim s b.val) (tbase s b.val).integ)) s))) ∧
  (∀ (l x : Int), 0 ≤ l → -l ≤ clampTo l x ∧ clampTo l x ≤ l ∧ (-l ≤ x → x ≤ l → clampTo l x = x))

/-- Span time completes with these next states (R191 to R193, R226). SYNC_SEND when SYNC is due: on every active port but the
upstream one and one between two Keystones. SYNC_RECEIVE on the upstream port: the exchange is noted and DREQ is sent behind
its marker. DREQ_RECEIVE is answered by DRESP with its arrival. DRESP_RECEIVE of an exchange in progress, where TB0 does not
follow the Span: the exchange is closed, its delay joins the last eight, ROOTED is its SYNCED, and the bases stay. DRESP_MISS
ends the oldest exchange with DRESP_MISS, and does nothing without one. PTM, PPS_IN, alarms and the time commands complete
with these next states (R194, R195, R197, R199, R200). PTM_DIALOGUE and PTM_RESPONSE where dialogues run: the request notes
TB2; the response measures TB2 and takes the next interval. PPS_EDGE: the active edge, where no base follows PPS_IN, fires
its producer; another edge, or one with PPS_IN off, does nothing. PPS_MISS after an edge sets its event. ALARM_FIRE of a
periodic alarm in time: FIRED is set and TARGET advances by one period. TIME_LOAD_PROFILE with a profile, TIME_ALIGN in an
idle unit and TIME_STEP of a base that may step, accepted here: they complete with their effect. -/
def Obligations.TimeSourcesAndAlarmsComplete : Prop :=
  (∀ (ph : Fin 32) (s : State), fbit s fTB_SPAN_CTL_EN = true → syncDue s = true →
    exec (.syncSend ph) s = .next (spanInterval (forEach ([0, 1].filter (fun p => linkUp s p && upstreamPort s != some p &&
      !dualKeystone s p)) (sendSync ph.val) s))) ∧
  (∀ (p : SpanNo) (pl : List Byte) (ph : Fin 32) (gap : Nat) (s : State) (x : Exchange), upstreamPort s = some p.val →
    byteAt pl 0 = 1 → 16 ≤ pl.length → linkUp s p.val = true →
    x = ⟨u16At pl 2, (u32At pl 4 + u16At pl 8 * 2 ^ 32) * 65536 + u16At pl 10, tb0Stamp s ph.val, 0, bit (byteAt pl 1) 0⟩ →
    exec (.syncReceive p pl ph gap) s = .next (timeSend p.val (ph.val + gap) ([2#8, 0#8] ++ leBytes 2 x.seq ++ zeros 4)
      (setExch (s.time.exch.filter (fun y => y.seq != x.seq) ++ [x]) s))) ∧
  (∀ (p : SpanNo) (pl : List Byte) (ph : Fin 32) (s : State), byteAt pl 0 = 2 → 8 ≤ pl.length → linkUp s p.val = true →
    exec (.dreqReceive p pl ph) s = .next (netLocal s p.val clsTIME flCTRL ([3#8, 0#8] ++ leBytes 2 (u16At pl 2) ++
      leBytes 4 (tb0Stamp s ph.val / 65536) ++ leBytes 2 (tb0Stamp s ph.val) ++ zeros 6))) ∧
  (∀ (p : SpanNo) (pl : List Byte) (s : State) (x : Exchange), s.time.exch.find? (fun x => x.seq = u16At pl 2) = some x →
    upstreamPort s = some p.val → byteAt pl 0 = 3 → 16 ≤ pl.length → tbSrc s 0 ≠ 1 →
    ∃ t, exec (.drespReceive p pl) s = .next t ∧ t.time.exch = s.time.exch.erase x ∧
      t.time.delays = (linkDelay x (u32At pl 4 * 65536 + u16At pl 8) :: s.time.delays).take 8 ∧
      fbit t fTB_STAT_ROOTED = x.synced ∧ t.bases = s.bases) ∧
  (∀ (s : State) (x : Exchange) (rest : List Exchange), s.time.exch = x :: rest →
    exec .drespMiss s = .next (evt (setExch rest s) fTB_EVT_DRESP_MISS)) ∧
  (∀ s : State, s.time.exch = [] → exec .drespMiss s = .next s) ∧
  (∀ s : State, ptmOn s = true →
    exec .ptmDialogue s = .next (emit { s with time := { s.time with ptm := some (base48 s 2) } } .ptmRequest)) ∧
  (∀ (r : BitVec 64) (s u : State) (t0 : Nat), s.time.ptm = some t0 → ptmOn s = true →
    u = measure 2 (sgn 48 ((r.toNat : Int) - t0) * 65536) (s.time.ptmPeriod * 1000000) { s with time := { s.time with ptm := none } } →
    exec (.ptmResponse r) s = .next { u with time := { u.time with ptmPeriod := periodMs (fget s fTB_PTM_CTL_PERIOD) } }) ∧
  (∀ (rising : Bool) (s : State), fbit s fTB_PPS_CTL_EN = true → rising ≠ fbit s fTB_PPS_CTL_POL → (∀ b, b < 3 → tbSrc s b ≠ 3) →
    exec (.ppsEdge rising) s = .next (emFire 0x38 (useFree { s with time := { s.time with ppsSeen := true } }))) ∧
  (∀ (rising : Bool) (s : State), (fbit s fTB_PPS_CTL_EN = false ∨ rising = fbit s fTB_PPS_CTL_POL) →
    exec (.ppsEdge rising) s = .next s) ∧
  (∀ s : State, fbit s fTB_PPS_CTL_EN = true → s.time.ppsSeen = true →
    exec .ppsMiss s = .next (evt { s with time := { s.time with ppsSeen := false } } fTB_EVT_PPS_MISS)) ∧
  (∀ (a : Fin 8) (s : State), fbit s fTB_ALM_CTL_EN (a.val * 0x20) = true → s.time.almDone.getD a.val false = false →
    0 ≤ almAge s a.val → s.time.almPassed.getD a.val false = false → rdn s (TB_ALM_PERIOD + a.val * 0x20) ≠ 0 →
    exec (.alarmFire a) s = .next (emFire (0x30 + a.val) (cntAdd (almAdvance a.val 1 (fbset { s with time := { s.time with
      almPassed := upd s.time.almPassed a.val (fun _ => false), almDone := upd s.time.almDone a.val (fun _ => false) } }
      fTB_ALM_STAT_FIRED true (a.val * 0x20))) (TB_ALM_CNT_MISSED + a.val * 0x20) 0))) ∧
  (∀ (sp : CmdSpec) (c : CmdCall) (s u : State) (p : Profile), sp = ⟨0x0B10, 0x10, false, 0, 0, false, true⟩ →
    Accepted sp c s → u = mbTake c s → findProfile u 0xB 0 = some p →
    exec (.timeLoadProfile c) s = .next (completeCmd sp c 0 0 [] (fbset (fbset (forEach p.writes (fun w t => tbPut w.1 w.2 t) u)
      fTB_SRV_CTL_STEP_FIRST true) fTB_SRV_CTL_STEP_FIRST true 0x80))) ∧
  (∀ (sp : CmdSpec) (c : CmdCall) (s u : State), sp = ⟨0x0B11, 0x10, false, 0, 0, false, true⟩ → Accepted sp c s →
    u = mbTake c s → unitIdle u = true → exec (.timeAlign c) s = .next (completeCmd sp c 0 0 [] (tbAlign u))) ∧
  (∀ (sp : CmdSpec) (c : CmdCall) (s u : State), sp = ⟨0x0B90, 0x10, true, 16, 16, false, true⟩ → Accepted sp c s →
    u = mbTake c s → pb c 0 ≤ 2 → stepAllowed u (pb c 0) = true →
    exec (.timeStep c) s = .next (completeCmd sp c 0 0 [] (tbAdd (pb c 0) (sgn 48 (pq c 8)) u)))

/-- A step adds its nanoseconds to the base modulo 2^48 (R190) and leaves every other base's counter. -/
def Obligations.StepsAddToTheirBase : Prop :=
  ∀ (b : Nat) (d : Int) (s : State), b < 4 → (tbase s b).ns < 2 ^ 32 → (tbase s b).wrap < 65536 →
    (base48 (tbAdd b d s) b : Int) = ((base48 s b : Int) + d) % 2 ^ 48 ∧ (tbase (tbAdd b d s) b).frac = (tbase s b).frac ∧
      (tbAdd b d s).regs = s.regs ∧ ∀ k, k < 4 → k ≠ b → base48 (tbAdd b d s) k = base48 s k

/-! ## Span lanes (chapter 12) -/

/-- Span bring-up completes with these next states (R210 to R216). SPAN_PORT_ENABLE by Dennil: enabling a disabled port
enters DETECT, disabling enters DISABLED; a host write that would change EN is discarded and counted. SPAN_DETECT with a
termination on an enabled lane enters TRAIN at rate 0. SPAN_BIT_LOCK of every lane of the attempt enters LOCK, of some it
marks them. SPAN_LOCK_DONE of a lane of the attempt enters EXCHANGE with the lanes that are left. SPAN_EXCHANGE_DONE of a
good EXCH with ACK and a lane that both ends receive: without a common version the port is disabled with VER_MISMATCH; at the
highest rate it enters ACTIVE or DEGRADED. SPAN_STATE_TIMEOUT in LOCK or EXCHANGE counts and the attempt fails. -/
def Obligations.SpanBringUpCompletes : Prop :=
  (∀ (p : SpanNo) (cut : Fin 3) (s : State), slState (fbset s fSL_CTL_EN true (slo p.val)) p.val = 0 →
    exec (.spanPortEnable .dennil p true cut) s = .next (enterDetect p.val 0 (fbset s fSL_CTL_EN true (slo p.val)))) ∧
  (∀ (p : SpanNo) (cut : Fin 3) (s : State),
    exec (.spanPortEnable .dennil p false cut) s = .next (enterDisabled p.val cut (fbset s fSL_CTL_EN false (slo p.val)))) ∧
  (∀ (p : SpanNo) (en : Bool) (cut : Fin 3) (s : State), fbit s fSL_CTL_EN (slo p.val) ≠ en →
    exec (.spanPortEnable .host p en cut) s = .next (noLease s)) ∧
  (∀ (p : SpanNo) (term : BitVec 4) (s : State), slState s p.val = 1 → term.toNat.land (lanePort s p.val).laneEn ≠ 0 →
    exec (.spanDetect p term) s = .next (enterTrain p.val 0 false (replaceUpdate (updLanes (setLanes fSL_LANE_STAT_FAILED p.val 0 s)
      p.val (fun l => { l with detected := term.toNat, failedRates := [], errs := [] }))))) ∧
  (∀ (p : SpanNo) (lk inv : BitVec 4) (s : State), slState s p.val = 2 → (lanePort s p.val).attempt ≠ 0 →
    (lanePort s p.val).attempt.land lk.toNat = (lanePort s p.val).attempt →
    exec (.spanBitLock p lk inv) s = .next (enterLock p.val lk.toNat (forEach (maskLanes (lanePort s p.val).attempt)
      (fun k t => fbset t fSL_LANE_STAT_RX_INV (bit inv.toNat k) (slo p.val + 4 * k)) s))) ∧
  (∀ (p : SpanNo) (lk inv : BitVec 4) (s : State) (m : Nat), slState s p.val = 2 → m = (lanePort s p.val).attempt.land lk.toNat →
    m ≠ 0 → m ≠ (lanePort s p.val).attempt →
    exec (.spanBitLock p lk inv) s = .next (setLanes fSL_LANE_STAT_BIT_LOCK p.val m (forEach (maskLanes m)
      (fun k t => fbset t fSL_LANE_STAT_RX_INV (bit inv.toNat k) (slo p.val + 4 * k)) s))) ∧
  (∀ (p : SpanNo) (ok : BitVec 4) (pl : List (Fin 4)) (s : State), slState s p.val = 3 → (lanePort s p.val).attempt.land ok.toNat ≠ 0 →
    ∃ t, exec (.spanLockDone p ok pl) s = .next t ∧ slState t p.val = 4 ∧
      (lanePort t p.val).attempt = (lanePort s p.val).attempt.land ok.toNat) ∧
  (∀ (p : SpanNo) (x : List Byte) (n : Fin 5) (s u : State), slState s p.val = 4 → x.length = 14 → crc16 (x.take 12) = u16At x 12 →
    bit (byteAt x 5) 0 = true → exchCount s p.val (byteAt x 4 % 16) ≠ 0 → min 0x12 (byteAt x 1) < max 0x10 (byteAt x 0) →
    u = wrn (wrn (wrn (sendExch p.val true s) (SL_PARTNER0 + slo p.val) (u32At x 0)) (SL_PARTNER1 + slo p.val) (u32At x 4)) (SL_PARTNER_SN + slo p.val) (u32At x 8) →
    exec (.spanExchangeDone p x n) s =
      .next (retrainDone p.val (evt (enterDisabled p.val 0 u) fSL_EVT_VER_MISMATCH (slo p.val)))) ∧
  (∀ (p : SpanNo) (x : List Byte) (n : Fin 5) (s u : State), slState s p.val = 4 → x.length = 14 → crc16 (x.take 12) = u16At x 12 →
    bit (byteAt x 5) 0 = true → exchCount s p.val (byteAt x 4 % 16) ≠ 0 → max 0x10 (byteAt x 0) ≤ min 0x12 (byteAt x 1) →
    u = wrn (wrn (wrn (sendExch p.val true s) (SL_PARTNER0 + slo p.val) (u32At x 0)) (SL_PARTNER1 + slo p.val) (u32At x 4)) (SL_PARTNER_SN + slo p.val) (u32At x 8) →
    fget u fSL_STAT_RATE (slo p.val) = 3 →
    exec (.spanExchangeDone p x n) s = .next (enterActive p.val (byteAt x 4 % 16) (exchCount s p.val (byteAt x 4 % 16))
      (min 0x12 (byteAt x 1)) n.val u)) ∧
  (∀ (p : SpanNo) (lk : BitVec 4) (s : State), 3 ≤ slState s p.val → slState s p.val ≤ 4 →
    exec (.spanStateTimeout p lk) s = .next (attemptFails p.val (evtCnt s fSL_EVT_TMO SL_CNT_TMO (slo p.val))))

/-- Events of a Span link complete with these next states (R203, R205, R207, R211, R214, R215, R237). SPAN_LANE_FAIL counts
the errors; with COM missed, or errors of the last millisecond at the threshold, the lane fails: it is marked and a link in
ACTIVE or DEGRADED retrains without it, or goes down when it was the only lane in use. On a link that is up: SPAN_LINK_DOWN
goes down with its count and event, SPAN_TS_RECEIVED retrains, SPAN_RETRAIN by Dennil brings up in full or retrains,
SKIP_SEND and CREDIT_AUDIT_SEND send; a host's SPAN_RETRAIN is discarded. SKIP_RECEIVE without a lane at its threshold counts
its errors. CREDIT_AUDIT_RECEIVE that agrees changes no counter. On a link that is down the first, second and the two sending
commands do nothing. The eye scan and the lane commands complete with these next states (R218, R220). EYE_SCAN_START by
Dennil or under a lease writes SL_EYE_CTL, and a START on a lane in use, with no scan running, leaves BUSY set, LANE as
written and the low words of the counts 0. EYE_SCAN_DONE of a scan that no command asked for: BUSY is clear, BITS is 2^DWELL
(20 to 44), ERR has risen by the disagreements, and EYE_DONE is set. For a command accepted here on an enabled port:
SPAN_LINK_RETRAIN retrains and waits; SPAN_EYE_SCAN with operands in range starts its first point and waits; SPAN_LANE_PARAMS
writes its four fields. -/
def Obligations.SpanLinkEventsComplete : Prop :=
  (∀ (p : SpanNo) (k : Fin 4) (cv disp : Nat) (miss : Bool) (cut : Fin 3) (s u : State), u = laneErrors p.val k.val cv disp s →
    (miss = true ∨ (0 < cv + disp ∧ (lanePort s p.val).thr ≤ windowErrors u p.val k.val)) →
    exec (.spanLaneFail p k cv disp miss cut) s = .next (lanesFail p.val [k.val] cut u)) ∧
  (∀ (p : SpanNo) (k : Fin 4) (cv disp : Nat) (cut : Fin 3) (s u : State), u = laneErrors p.val k.val cv disp s →
    (cv + disp = 0 ∨ windowErrors u p.val k.val < (lanePort s p.val).thr) →
    exec (.spanLaneFail p k cv disp false cut) s = .next u) ∧
  (∀ (p : SpanNo) (k : Fin 4) (cut : Fin 3) (s u : State), linkUp s p.val = true → fbit s fSL_LANE_STAT_USED (slo p.val + 4 * k.val) = true →
    u = evt (fbset s fSL_LANE_STAT_FAILED true (slo p.val + 4 * k.val)) fSL_EVT_LANE_FAIL (slo p.val) →
    lanesFail p.val [k.val] cut s = if lanesWith s fSL_LANE_STAT_USED p.val = [k.val] then linkDown p.val cut u
      else quickRetrain p.val cut u) ∧
  (∀ (p : SpanNo) (cut : Fin 3) (s : State), linkUp s p.val = true →
    exec (.spanLinkDown p cut) s = .next (retrainDone p.val (evt (cnt (enterDetect p.val cut s) (SL_CNT_DOWN + slo p.val))
      fSL_EVT_DOWN (slo p.val))) ∧
    exec (.spanTsReceived p cut) s = .next (replaceUpdate (enterTrain p.val (fget s fSL_STAT_RATE (slo p.val)) true
      (cnt (leaveActive p.val cut s) (SL_CNT_RETRAIN + slo p.val)))) ∧
    exec (.skipSend p) s = .next (emit s (.spanSkip p.val)) ∧
    exec (.creditAuditSend p) s = .next (emit s (.spanAud p.val (audBytes (netPort s p.val))))) ∧
  (∀ (p : SpanNo) (full : Bool) (cut : Fin 3) (s : State), linkUp (fbset s fSL_CTL_FULL full (slo p.val)) p.val = true →
    linkUp s p.val = true → exec (.spanRetrain .dennil p full cut) s = .next (if full then
      enterDetect p.val cut (fbset s fSL_CTL_FULL full (slo p.val)) else quickRetrain p.val cut (fbset s fSL_CTL_FULL full (slo p.val)))) ∧
  (∀ (p : SpanNo) (full : Bool) (cut : Fin 3) (s : State), exec (.spanRetrain .host p full cut) s = .next (noLease s)) ∧
  (∀ (p : SpanNo) (cv disp : List Nat) (os : Nat) (s u : State), portLive s p.val = true →
    u = cntAdd (forEach (List.range 4) (fun k => laneErrors p.val k (nth cv k) (nth disp k)) s) (SL_CNT_OS_ERR + slo p.val) os →
    (∀ k, k < 4 → nth cv k + nth disp k = 0 ∨ windowErrors u p.val k < (lanePort s p.val).thr) →
    exec (.skipReceive p false cv disp os) s = .next u) ∧
  (∀ (p : SpanNo) (d : List Byte) (s u : State), linkUp s p.val = true → d.length = 24 →
    (∀ c, c < 6 → u16At d (4 * c) = nth (netPort s p.val).rcvd c % 65536) →
    u = setNetPort s p.val (fun x => { x with
      rcvd := (List.range 6).map (fun c => u16At d (4 * c)), freed := (List.range 6).map (fun c => u16At d (4 * c + 2)),
      ownFreed := (List.range 6).map (fun c => nth x.ownFreed c % 65536) }) →
    exec (.creditAuditReceive p d) s = .next (syncAvail p.val u)) ∧
  (∀ (p : SpanNo) (cut : Fin 3) (s : State), linkUp s p.val = false →
    exec (.spanLinkDown p cut) s = .next s ∧ exec (.spanTsReceived p cut) s = .next s ∧ exec (.skipSend p) s = .next s ∧
    exec (.creditAuditSend p) s = .next s) ∧
  (∀ (ag : Agent) (p : SpanNo) (v : Word) (s : State), (ag = .dennil ∨ leased s 0xC none = true) →
    exec (.eyeScanStart ag p v) s = .next (eyeCtl p.val v.toNat s)) ∧
  (∀ (p : SpanNo) (v : Nat) (s : State), fbit s fSL_EYE_CTL_BUSY (slo p.val) = false → bit v 31 = true → linkUp s p.val = true →
    bits v 27 26 < lanesUsed s p.val → ∃ t, eyeCtl p.val v s = t ∧ fbit t fSL_EYE_CTL_BUSY (slo p.val) = true ∧
      fget t fSL_EYE_CTL_LANE (slo p.val) = bits v 27 26 ∧ rdn t (SL_EYE_BITS_LO + slo p.val) = 0 ∧
      rdn t (SL_EYE_ERR_LO + slo p.val) = 0) ∧
  (∀ (p : SpanNo) (e : Nat) (s : State), fbit s fSL_EYE_CTL_BUSY (slo p.val) = true → (lanePort s p.val).grid = none →
    ∃ t, exec (.eyeScanDone p e) s = .next t ∧ fbit t fSL_EYE_CTL_BUSY (slo p.val) = false ∧
      rdn t (SL_EYE_BITS_LO + slo p.val) + 2 ^ 32 * rdn t (SL_EYE_BITS_HI + slo p.val) =
        2 ^ max 20 (min 44 (fget s fSL_EYE_CTL_DWELL (slo p.val))) ∧
      rdn t (SL_EYE_ERR_LO + slo p.val) + 2 ^ 32 * rdn t (SL_EYE_ERR_HI + slo p.val) =
        ((eyeCounts s p.val).2 + min e (eyeBits s p.val - (eyeCounts s p.val).1)) % 2 ^ 64 ∧
      fbit t fSL_EVT_EYE_DONE (slo p.val) = true) ∧
  (∀ (sp : CmdSpec) (c : CmdCall) (s u : State), sp = ⟨0x0C10, 0x10, false, 8, 8, false, true⟩ → Accepted sp c s →
    u = mbTake c s → pb c 0 < 2 → fbit u fSL_CTL_EN (slo (pb c 0)) = true →
    exec (.spanLinkRetrain c) s = .next (holdDeferred sp c false false (retrain (pb c 0) (bit (pb c 1) 0) (cutOf c) u))) ∧
  (∀ (sp : CmdSpec) (c : CmdCall) (s u : State), sp = ⟨0x0C11, 0x12, false, 16, 16, false, true⟩ → Accepted sp c s →
    u = mbTake c s → pb c 0 < 2 → fbit u fSL_CTL_EN (slo (pb c 0)) = true → 20 ≤ pb c 4 → pb c 4 ≤ 44 →
    linkUp u (pb c 0) = true → pb c 1 < lanesUsed u (pb c 0) → 1 ≤ pb c 2 → pb c 2 ≤ 64 → 1 ≤ pb c 3 → pb c 3 ≤ 64 →
    exec (.spanEyeScan c) s = .next (holdDeferred sp c true false (eyeNext (pb c 0) ⟨eyePoints (pb c 2) (pb c 3), []⟩
      (fset (fset u fSL_EYE_CTL_LANE (pb c 1) (slo (pb c 0))) fSL_EYE_CTL_DWELL (pb c 4) (slo (pb c 0)))))) ∧
  (∀ (sp : CmdSpec) (c : CmdCall) (s u : State), sp = ⟨0x0C90, 0x10, true, 16, 16, false, true⟩ → Accepted sp c s →
    u = mbTake c s → pb c 0 < 2 → fbit u fSL_CTL_EN (slo (pb c 0)) = true →
    exec (.spanLaneParams c) s = .next (completeCmd sp c 0 0 [] (fset (fset (fset (wrn u (SL_TMO + slo (pb c 0)) (pd c 4))
      fSL_ERR_THR_THR (pd c 8) (slo (pb c 0))) fSL_CTL_RATE_EN ((pb c 12 % 16).lor 1) (slo (pb c 0)))
      fSL_CTL_LANE_EN (pb c 13) (slo (pb c 0)))))

/-! ## The Span network (chapter 13) -/

/-- Span packets and credits complete with these next states (R229 to R236), on a link that is up. SPAN_PACKET_FORWARD: a
packet whose header check fails is dropped with its credits freed; a good LOCAL management packet without credits is
delivered, where it is carried. SPAN_PACKET_SEND: the next packet without a marker leaves with its header, HCRC and CRC-32,
its credits taken; without one nothing happens. HELLO_RECEIVE: between two Keystones the event is set and detected; on a unit
that is no Keystone the partner, its grants when first heard, its floor and what follows from them are kept. CREDIT_RECEIVE
replaces the freed counts. CREDIT_RETURN sends them back when they differ from those reported, and else does nothing. -/
def Obligations.SpanPacketsComplete : Prop :=
  (∀ (p : SpanNo) (raw : List Byte) (bad poison : Bool) (ph : Fin 32) (gap : Nat) (d : Bool) (s : State), linkUp s p.val = true →
    (raw.length < 16 ∨ crc16 (raw.take 14) ≠ u16At raw 14) → exec (.spanPacketForward p raw bad poison ph gap d) s =
      .next (hcrcDrop p.val (byteAt raw 0 % 8) raw.length (cnt s (SN_CNT_RX + sno p.val)))) ∧
  (∀ (p : SpanNo) (raw : List Byte) (ph : Fin 32) (gap : Nat) (d : Bool) (s u : State) (k : SpanPkt), linkUp s p.val = true →
    16 ≤ raw.length → crc16 (raw.take 14) = u16At raw 14 → k = parsePkt raw → k.cls = clsMGMT → creditExempt k = true →
    u16At raw 6 ≤ 2048 → raw.length = 20 + u16At raw 6 → crc32 (raw.take (raw.length - 4)) = u32At raw (raw.length - 4) →
    bit k.flags 1 = true → u = cnt s (SN_CNT_RX + sno p.val) → notCarried u p.val k = false →
    exec (.spanPacketForward p raw false false ph gap d) s =
      .next (freeCredits p.val k.cls 0 (packetDeliver p.val k ph.val gap d u))) ∧
  (∀ (p : SpanNo) (s : State) (t : TxItem) (fwd : Bool), nextTx s p.val = some (t, fwd) → t.timed = false →
    exec (.spanPacketSend p) s = .next (emit (takeItem p.val (t, fwd) s) (.spanPkt p.val (pktBytes t.pkt) t.eab))) ∧
  (∀ (p : SpanNo) (s : State), nextTx s p.val = none → exec (.spanPacketSend p) s = .next s) ∧
  (∀ (p : SpanNo) (pl : List Byte) (s u v w : State), linkUp s p.val = true → byteAt pl 0 = 1 → 32 ≤ pl.length →
    u = upstreamUpdate (syncAvail p.val (fset (fset (fset (setNetPort s p.val (fun n => { n with
        partner := some (parseHello pl), helloRx := true, grant := if !(netPort s p.val).helloRx then
          (List.range 6).map (fun c => u16At pl (12 + 2 * c)) else n.grant }))
        fSN_PARTNER_PIER_VALID ((parseHello pl).flags % 2) (sno p.val)) fSN_PARTNER_PIER ((parseHello pl).pier % 1024) (sno p.val))
        fSN_PARTNER_FLOOR (parseHello pl).floor (sno p.val))) →
    v = (if ¬ isKeystone u ∧ upstreamPort u = some p.val ∧ (parseHello pl).floor ≠ 0 then
      fset u fSN_CHAIN_FLOOR (parseHello pl).floor else u) →
    (dualKeystone v p.val = true → exec (.helloReceive p pl) s = .next (paDetect 0xB1 (evt v fSN_EVT_DUAL_KEYSTONE))) ∧
    (dualKeystone v p.val = false → isKeystone v = false → w = helloOnChange s (hostKeep v) →
      exec (.helloReceive p pl) s = .next (forEach [0, 1] pierReq
        (if !isKeystone w && reports w && !reports s then sendReport w else w)))) ∧
  (∀ (p : SpanNo) (pl : List Byte) (s : State), linkUp s p.val = true → byteAt pl 0 = 2 → 16 ≤ pl.length →
    exec (.creditReceive p pl) s = .next (syncAvail p.val (setNetPort s p.val (fun n =>
      { n with freed := (List.range 6).map (fun c => u16At pl (4 + 2 * c)) })))) ∧
  (∀ (p : SpanNo) (s : State), linkUp s p.val = true → (netPort s p.val).ownFreed ≠ (netPort s p.val).reported →
    exec (.creditReturn p) s = .next (netLocal (setNetPort s p.val (fun x => { x with reported := x.ownFreed })) p.val clsMGMT flCTRL
      ([2#8, 0#8, 0#8, 0#8] ++ (netPort s p.val).ownFreed.flatMap (leBytes 2)))) ∧
  (∀ (p : SpanNo) (s : State), (netPort s p.val).ownFreed = (netPort s p.val).reported → exec (.creditReturn p) s = .next s)

/-- Enumeration completes with these next states (R222, R224 to R228). ENUM_RECEIVE for this unit's SERIAL: the unit keeps or
takes the number, its upstream port, FLIP and routes, reports, and passes the enumeration on or ends it. ENUM_END_RECEIVE at
the Keystone, and ENUM_TIMEOUT, end the east step and the west step; ENUM_TIMEOUT outside an enumeration does nothing.
REPORT_RECEIVE at the Keystone, from a known unit, from a new number and from a unit without one, keeps its hold and
publishes the map. CHAIN_RECEIVE on another unit takes the map. PIER_REQ_RECEIVE at the Keystone is answered outside an
enumeration and waits during one. ASSIGN_RECEIVE: no number for this unit makes it unnumbered; a number for its new partner
is passed on by ENUM. RENUM_RECEIVE on another unit clears its pier and what it holds. BULK packets and the network commands
complete with these next states (R229, R360, R228, R241, R243). BULK_PACKET_RECEIVE with none waiting is taken when it can
be, and else waits with what is short recorded. For a command accepted here: SPAN_CHAIN_READ writes the last CHAIN payload
where it fits and the host can be written; SPAN_REENUMERATE on the Keystone of an idle chain starts over; SPAN_SET_HOST, with
every unit at 1.2, sets AUTO, or a pier with a host link; SPAN_CREDIT_PARAMS with grants in range writes all six. -/
def Obligations.EnumerationAndNetworkComplete : Prop :=
  (∀ (p : SpanNo) (pl : List Byte) (s u v : State), linkUp s p.val = true → byteAt pl 0 = 3 → 16 ≤ pl.length →
    u32At pl 4 = s.net.serial → isKeystone s = false → u16At pl 2 < 1024 → u = (if pierValid s then s else takePier (u16At pl 2) s) →
    v = fbset (setUpstream (p.val + 1) (upstreamUpdate u)) fSN_PIER_FLIP (if byteAt pl 1 == 0 then p.val == 0 else p.val == 1) →
    exec (.enumReceive p pl) s = .next (enumPass (1 - p.val) (byteAt pl 1 == 0) (u16At pl 2) (sendReport (helloOnChange s
      (setRoute (setRoute v 0 (p.val + 1)) (myPier v) 3))))) ∧
  (∀ (pl : List Byte) (s : State), byteAt pl 0 = 4 → 8 ≤ pl.length → isKeystone s = true →
    (s.net.stage = .east → byteAt pl 1 = 0 → exec (.enumEndReceive pl) s =
      .next (enumWest { s with net := { s.net with lastEast := u16At pl 2 } })) ∧
    (s.net.stage = .west → byteAt pl 1 = 1 → exec (.enumEndReceive pl) s =
      .next (enumFinish { s with net := { s.net with lastWest := u16At pl 2 } }))) ∧
  (∀ s : State, (s.net.stage = .idle → exec .enumTimeout s = .next s) ∧
    (s.net.stage = .east → exec .enumTimeout s =
      .next (enumWest { s with net := { s.net with lastEast := sideLargest s true } })) ∧
    (s.net.stage = .west → exec .enumTimeout s =
      .next (enumFinish { s with net := { s.net with lastWest := max s.net.lastEast (sideLargest s false) } }))) ∧
  (∀ (p : SpanNo) (hops i : Nat) (pl : List Byte) (s : State) (h : PierHold), byteAt pl 0 = 5 → 16 ≤ pl.length → isKeystone s = true →
    u16At pl 2 % 1024 ≠ 0 → holdOf s (u16At pl 2 % 1024) = some (i, h) → h.serial = u32At pl 4 →
    exec (.reportReceive p hops pl) s = .next (publish (updHold s (u16At pl 2 % 1024) (reported (p.val == 0) pl)))) ∧
  (∀ (p : SpanNo) (hops : Nat) (pl : List Byte) (s u : State), byteAt pl 0 = 5 → 16 ≤ pl.length → isKeystone s = true →
    holdOf s (u16At pl 2 % 1024) = none → u16At pl 2 % 1024 ≠ 0 →
    u = holdInsert (dropTransparent (u32At pl 4) s) (hops - 1)
      (reported (p.val == 0) pl ⟨u16At pl 2 % 1024, 0, true, p.val == 0, false, 0, 0, 0, false⟩) →
    exec (.reportReceive p hops pl) s =
      .next (publish (fset u fSN_NEXT_FREE (max (fget u fSN_NEXT_FREE) (u16At pl 2 % 1024 + 1))))) ∧
  (∀ (p : SpanNo) (hops : Nat) (pl : List Byte) (s : State), byteAt pl 0 = 5 → 16 ≤ pl.length → isKeystone s = true →
    u16At pl 2 % 1024 = 0 → exec (.reportReceive p hops pl) s = .next (transparentReport p.val hops pl s)) ∧
  (∀ (pl : List Byte) (s : State), byteAt pl 0 = 6 → 8 + 2 * u16At pl 2 ≤ pl.length → isKeystone s = false →
    exec (.chainReceive pl) s = .next (takeChain (parseChain pl) (byteAt pl 4) (u16At pl 6) (keepChain pl s))) ∧
  (∀ (p : SpanNo) (pl : List Byte) (s : State), byteAt pl 0 = 7 → 16 ≤ pl.length → isKeystone s = true →
    (s.net.stage = .idle → exec (.pierReqReceive p pl) s =
      .next (answerReq (u16At pl 2 % 1024) (u32At pl 4) (p.val == 0) s)) ∧
    (s.net.stage ≠ .idle → exec (.pierReqReceive p pl) s = .next { s with net := { s.net with
      pierReqs := s.net.pierReqs ++ [(u16At pl 2 % 1024, u32At pl 4, p.val == 0)] } })) ∧
  (∀ (pl : List Byte) (s : State), byteAt pl 0 = 8 → 16 ≤ pl.length → isKeystone s = false → 1024 ≤ u16At pl 2 →
    u32At pl 4 = s.net.serial → pierValid s = true → exec (.assignReceive pl) s =
      .next (helloOnChange s (upstreamUpdate (fset (fbset (evt s fSN_EVT_PIER) fSN_PIER_VALID false) fSN_PIER_PIER_ID 0)))) ∧
  (∀ (pl : List Byte) (s : State) (p : Nat), byteAt pl 0 = 8 → 16 ≤ pl.length → isKeystone s = false → u16At pl 2 < 1024 →
    [0, 1].find? (fun p => unnumberedPartner s p &&
      (match (netPort s p).partner with | some h => h.serial == u32At pl 4 | none => false)) = some p →
    exec (.assignReceive pl) s =
      .next (netLocal s p clsMGMT flCTRL (enumBytes (eastPort s == p) (u16At pl 2) (u32At pl 4)))) ∧
  (∀ (pl : List Byte) (s u : State), byteAt pl 0 = 9 → isKeystone s = false →
    u = fset (fbset (if pierValid s then evt s fSN_EVT_PIER else s) fSN_PIER_VALID false) fSN_PIER_PIER_ID 0 →
    exec (.renumReceive pl) s =
      .next (helloOnChange s (buildRoutes (upstreamUpdate { u with net := { u.net with holds := [], chain := [] } })))) ∧
  (∀ (p : SpanNo) (pl : List Byte) (s : State), (netPort s p.val).bulkWait = [] → bulkCan s p.val pl = true →
    exec (.bulkPacketReceive p pl) s = .next (bulkTake p.val pl s)) ∧
  (∀ (p : SpanNo) (pl : List Byte) (s : State), (netPort s p.val).bulkWait = [] → bulkCan s p.val pl = false →
    exec (.bulkPacketReceive p pl) s = .next (setNetPort (bulkShort p.val pl s) p.val
      (fun n => { n with bulkWait := n.bulkWait ++ [pl] }))) ∧
  (∀ (sp : CmdSpec) (c : CmdCall) (s u : State), sp = ⟨0x0D10, 0x10, false, 12, 12, false, true⟩ →
    Accepted sp c s → u = mbTake c s → u.net.lastChain.length ≤ pd c 8 → hostReady c u = true →
    exec (.spanChainRead c) s = .next (completeCmd sp c 0 0 [] (hostWrite c (pq c 0) u.net.lastChain u))) ∧
  (∀ (sp : CmdSpec) (c : CmdCall) (s u v : State), sp = ⟨0x0D11, 0x10, false, 0, 0, false, true⟩ → Accepted sp c s →
    u = mbTake c s → isKeystone u = true → notIdle u = none → v = netBcast u clsMGMT flCTRL [9#8 :: zeros 7] →
    ∃ w, w = holdDeferred sp c false false (enumStart (fset { v with net := { v.net with holds := [] } } fSN_NEXT_FREE 1)) ∧
      exec (.spanReenumerate c) s = .next (if w.net.stage = .idle then enumComplete w else w)) ∧
  (∀ (sp : CmdSpec) (c : CmdCall) (s u : State), sp = ⟨0x0D12, 0x10, false, 3, 8, false, true⟩ → Accepted sp c s →
    u = mbTake c s → bit (pb c 2) 0 = false → hasHostLink u (pw c 0) = true → 0x12 ≤ fget u fSN_CHAIN_FLOOR →
    exec (.spanSetHost c) s = .next (completeCmd sp c 0 0 [] (hostSelect (fset (fbset u fSN_HOST_AUTO false) fSN_HOST_PIER (pw c 0))))) ∧
  (∀ (sp : CmdSpec) (c : CmdCall) (s u : State), sp = ⟨0x0D12, 0x10, false, 3, 8, false, true⟩ → Accepted sp c s →
    u = mbTake c s → bit (pb c 2) 0 = true → 0x12 ≤ fget u fSN_CHAIN_FLOOR →
    exec (.spanSetHost c) s = .next (completeCmd sp c 0 0 [] (hostChoose (fbset u fSN_HOST_AUTO true)))) ∧
  (∀ (sp : CmdSpec) (c : CmdCall) (s u : State), sp = ⟨0x0D90, 0x10, true, 16, 16, false, true⟩ → Accepted sp c s →
    u = mbTake c s → pb c 0 < 2 → 33 ≤ pw c 4 → 1 ≤ pw c 6 → 33 ≤ pw c 8 → 33 ≤ pw c 10 → 33 ≤ pw c 12 → 33 ≤ pw c 14 →
    pw c 4 + pw c 6 + pw c 8 + pw c 10 + pw c 12 + pw c 14 ≤ 1024 →
    exec (.spanCreditParams c) s = .next (completeCmd sp c 0 0 [] (wrn (wrn (wrn u (SN_GRANT01 + sno (pb c 0)) (pw c 4 + 65536 * pw c 6))
      (SN_GRANT01 + sno (pb c 0) + 4) (pw c 8 + 65536 * pw c 10)) (SN_GRANT01 + sno (pb c 0) + 8) (pw c 12 + 65536 * pw c 14))))

/-! ## The host endpoint (chapter 14) and register access (chapter 0) -/

/-- REGISTER_WRITE completes with these next states (R6 to R8, R268). A write without byte enables, of a reserved address or
of no writable bit changes nothing. A write of all four bytes by Dennil, or by the host under a lease, writes the writable
bits, a locked field's among them only where COMMIT is clear. A host write that would change only bits it may not write
leaves them and is counted. Dennil's write of a table window that touches both halves writes its enabled bytes. -/
def Obligations.RegisterWritesComplete : Prop :=
  (∀ (ag : Agent) (a : BitVec 24) (v : Word) (s : State), exec (.registerWrite ag a v 0) s = .next s) ∧
  (∀ (ag : Agent) (a : BitVec 24) (v : Word) (be : BitVec 4) (s : State), isTable (a.toNat / 4 * 4) = false →
    findRow (a.toNat / 4 * 4) = none → exec (.registerWrite ag a v be) s = .next s) ∧
  (∀ (a : BitVec 24) (v : Word) (s : State) (r : RegRow) (act n : Nat), n = a.toNat / 4 * 4 → isTable n = false →
    findRow n = some r → act = ((((if rwlLocked s n then 0 else r.rwl).lor r.rw).lor r.w1c).lor r.w1s).lor r.wo →
    (byteMask 15).land act ≠ 0 → exec (.registerWrite .dennil a v 15) s = .next (regPut n
      (blend ((byteMask 15).land act) v.toNat ((rdn s n).land ((r.rw.lor r.rwl).lor r.wo))) 15 (fun _ => none) s)) ∧
  (∀ (a : BitVec 24) (v : Word) (s : State) (r : RegRow) (act n : Nat), n = a.toNat / 4 * 4 → isTable n = false →
    findRow n = some r → act = ((((if rwlLocked s n then 0 else r.rwl).lor r.rw).lor r.w1c).lor r.w1s).lor r.wo →
    (byteMask 15).land act ≠ 0 → leaseAdmits s n r = true → exec (.registerWrite .host a v 15) s = .next (regPut n
      (blend ((byteMask 15).land act) v.toNat ((rdn s n).land ((r.rw.lor r.rwl).lor r.wo))) 15 (fun p => leaseRep s p) s)) ∧
  (∀ (a : BitVec 24) (v : Word) (be : BitVec 4) (s : State) (r : RegRow) (act kept v1 n : Nat), n = a.toNat / 4 * 4 → be.toNat ≠ 0 →
    isTable n = false → findRow n = some r → kept = (r.rw.lor r.rwl).lor r.wo →
    act = ((((if rwlLocked s n then 0 else r.rwl).lor r.rw).lor r.w1c).lor r.w1s).lor r.wo → (byteMask be.toNat).land act ≠ 0 →
    leaseAdmits s n r = false → ((byteMask be.toNat).land act).land (hostBits n r) = 0 →
    v1 = blend ((byteMask be.toNat).land act) v.toNat ((rdn s n).land kept) →
    v1.lor r.wo ≠ (blend (hostBits n r) v1 ((rdn s n).land kept)).lor r.wo →
    exec (.registerWrite .host a v be) s = .next (noLease s)) ∧
  (∀ (ag : Agent) (a : BitVec 24) (v : Word) (be : BitVec 4) (s : State) (r : RegRow), isTable (a.toNat / 4 * 4) = false →
    findRow (a.toNat / 4 * 4) = some r →
    (byteMask be.toNat).land (((((if rwlLocked s (a.toNat / 4 * 4) then 0 else r.rwl).lor r.rw).lor r.w1c).lor r.w1s).lor r.wo) = 0 →
    exec (.registerWrite ag a v be) s = .next s) ∧
  (∀ (a : BitVec 24) (v : Word) (be : BitVec 4) (s : State), be.toNat ≠ 0 → isTable (a.toNat / 4 * 4) = true →
    be.toNat % 4 ≠ 0 → be.toNat / 4 ≠ 0 → exec (.registerWrite .dennil a v be) s = .next (tableWrite .dennil (a.toNat / 4 * 4) 4
      (blend (byteMask be.toNat) v.toNat (tbl32 s (a.toNat / 4 * 4))) s))

/-- CONFIG_REQUEST and MEMORY_REQUEST, on a link that is up, complete with these next states (R6, R245, R250, R265). A Type 1
configuration request is unsupported; a Type 0 one during a function reset is to be retried, and outside one a read answers
its dword and a write acts and completes. A memory read without Memory Space Enable is unsupported. With it, outside a
function reset and D3hot and inside the window: a write of one dword of W0 writes its enabled bytes; a read of one whole
dword of W0 completes with its value; a poisoned write is discarded, counted and logged. Completions and tags complete with
these next states (R254 to R257, R261, R262, R322). COMPLETION_RECEIVE of a tag that no read holds, and that is not silent,
is unexpected and logged; of a voided read it is discarded; with an error it fails its owner; else its data reach the owner.
COMPLETION_TIMEOUT of an outstanding read: the tag is quarantined and the owner told. DELAYED_READ_COMPLETE of a delayed read
that holds a tag is that tag's completion. TAG_QUARANTINE_END frees the tag. TAG_POOL_SWITCH, with nothing outstanding and
another pool wanted, selects it, and tags in quarantine are then of an earlier one; else it does nothing. -/
def Obligations.HostRequestsAndTagsComplete : Prop :=
  (∀ (w : Bool) (dw : BitVec 10) (be : BitVec 4) (v : Word) (tag : BitVec 10) (s : State), fbit s fHE_STAT_LINK_UP = true →
    exec (.configRequest true w dw be v tag) s = .next (sendUr tag.toNat s)) ∧
  (∀ (w : Bool) (dw : BitVec 10) (be : BitVec 4) (v : Word) (tag : BitVec 10) (s : State), fbit s fHE_STAT_LINK_UP = true →
    fbit s fHE_STAT_FLR_BUSY = true →
    exec (.configRequest false w dw be v tag) s = .next (emit s (.completion .host tag.toNat 2 [] false))) ∧
  (∀ (dw : BitVec 10) (be : BitVec 4) (v : Word) (tag : BitVec 10) (s : State), fbit s fHE_STAT_LINK_UP = true →
    fbit s fHE_STAT_FLR_BUSY = false → exec (.configRequest false false dw be v tag) s =
      .next (emit s (.completion .host tag.toNat 0 (leBytes 4 (cfgShow s (4 * dw.toNat))) false))) ∧
  (∀ (dw : BitVec 10) (be : BitVec 4) (v : Word) (tag : BitVec 10) (s : State), fbit s fHE_STAT_LINK_UP = true →
    fbit s fHE_STAT_FLR_BUSY = false → exec (.configRequest false true dw be v tag) s =
      .next (emit (cfgWrite (4 * dw.toNat) v.toNat be.toNat s) (.completion .host tag.toNat 0 [] false))) ∧
  (∀ (win : HostWindow) (dw : BitVec 34) (n : BitVec 10) (f l : BitVec 4) (d : List Byte) (tag : BitVec 10) (po : Bool) (bad : ReadCheck)
    (s : State), win ≠ .dennil → fbit s fHE_STAT_LINK_UP = true → bit (cfgRd s 0x04) 1 = false →
    exec (.memoryRequest win .read dw n f l d tag po bad) s = .next (sendUr tag.toNat s)) ∧
  (∀ (dw : BitVec 34) (f : BitVec 4) (d : List Byte) (tag : BitVec 10) (bad : ReadCheck) (s : State),
    fbit s fHE_STAT_LINK_UP = true → fbit s fHE_STAT_FLR_BUSY = false → fbit s fHE_STAT_D3 = false → bit (cfgRd s 0x04) 1 = true →
    4 * dw.toNat + 4 ≤ 2 ^ 24 → exec (.memoryRequest .w0 .write dw 1 f 0 d tag false bad) s =
      .next (windowPost .w0 (4 * dw.toNat) 1 (enables 1 f.toNat 0) d s)) ∧
  (∀ (dw : BitVec 34) (d : List Byte) (tag : BitVec 10) (bad : ReadCheck) (s t : State) (v : Nat), fbit s fHE_STAT_LINK_UP = true →
    fbit s fHE_STAT_FLR_BUSY = false → fbit s fHE_STAT_D3 = false → bit (cfgRd s 0x04) 1 = true → 4 * dw.toNat + 4 ≤ 2 ^ 24 →
    w0Read (4 * dw.toNat) (bad == .failed) s = (t, v) → exec (.memoryRequest .w0 .read dw 1 15 0 d tag false bad) s =
      .next (emit t (.completion .host tag.toNat 0 (leBytes 4 v) false))) ∧
  (∀ (win : HostWindow) (dw : BitVec 34) (f : BitVec 4) (d : List Byte) (tag : BitVec 10) (bad : ReadCheck) (s : State),
    fbit s fHE_STAT_LINK_UP = true → fbit s fHE_STAT_FLR_BUSY = false → fbit s fHE_STAT_D3 = false → bit (cfgRd s 0x04) 1 = true →
    win ≠ .dennil → 4 * dw.toNat + 4 ≤ windowSize s win → exec (.memoryRequest win .write dw 1 f 0 d tag true bad) s =
      .next (aerAdvisory 12 (cfgSet 0x04 (2 ^ 31) (cnt s HE_CNT_POISON_RX)))) ∧
  (∀ (tag : BitVec 10) (st : Fin 3) (d : List Byte) (s : State), npOf s tag.toNat = none →
    s.he.quar.any (fun q => q.tag == tag.toNat && q.silent) = false → exec (.completionReceive tag st d) s =
      .next (aerAdvisory 16 (evtCnt (wrn s HE_UNEXP_LAST (2 ^ 31 + tag.toNat)) fHE_EVT_UNEXP_CPL HE_CNT_UNEXP))) ∧
  (∀ (tag : BitVec 10) (st : Fin 3) (d : List Byte) (s : State) (r : NpReq), npOf s tag.toNat = some r → r.void = true →
    exec (.completionReceive tag st d) s = .next (ownerFail r (cnt (npEnd tag.toNat s) HE_CNT_CPL_DISCARD))) ∧
  (∀ (tag : BitVec 10) (st : Fin 3) (d : List Byte) (s : State) (r : NpReq), npOf s tag.toNat = some r → r.void = false → st ≠ 0 →
    exec (.completionReceive tag st d) s = .next (ownerFail r (cfgSet 0x04
      (if st.val = 1 then 2 ^ 29 else 2 ^ 28) (evtCnt (npEnd tag.toNat s) fHE_EVT_CPL_ERR HE_CNT_CPL_ERR)))) ∧
  (∀ (tag : BitVec 10) (d : List Byte) (s : State) (r : NpReq), npOf s tag.toNat = some r → r.void = false →
    exec (.completionReceive tag 0 d) s = .next (ownerData r d s)) ∧
  (∀ (tag : BitVec 10) (s : State) (r : NpReq), npOf s tag.toNat = some r →
    exec (.completionTimeout tag) s =
      .next (aerUncorr 14 (evtCnt (ownerFail r (npQuarantine tag.toNat s)) fHE_EVT_CPL_TMO HE_CNT_CPL_TMO))) ∧
  (∀ (e : Fin 8) (st : Fin 3) (v : Word) (s : State) (t : Nat), (s.ab.dr.getD e.val none).bind (fun d => d.tag) = some t →
    exec (.delayedReadComplete e st v) s = .next (completionIn t st.val (leBytes 4 v.toNat) s)) ∧
  (∀ (tag : BitVec 10) (s : State), exec (.tagQuarantineEnd tag) s =
    .next (syncTags { s with he := { s.he with quar := s.he.quar.filter (fun q => q.tag != tag.toNat) } })) ∧
  (∀ s : State, fget s fHE_STAT_NP_OUT = 0 → fget s fHE_TAG_STAT_POOL ≠ wantedPool s →
    ∃ t, exec .tagPoolSwitch s = .next t ∧ fget t fHE_TAG_STAT_POOL = wantedPool s % 1024 ∧ ∀ q ∈ t.he.quar, q.old = true) ∧
  (∀ s : State, (fget s fHE_STAT_NP_OUT ≠ 0 ∨ fget s fHE_TAG_STAT_POOL = wantedPool s) → exec .tagPoolSwitch s = .next s)

/-- The host link, pauses and function resets complete with these next states (R244, R249, R252, R259, R261, R262, R264,
R266). HOST_LINK_UP on a running unit out of PERST_N: LINK_UP, SPEED and WIDTH. BUS_MASTER_ENABLE_CLEAR and D3HOT_ENTRY pause
DMA, BUS_MASTER_ENABLE_SET resumes it; BUS_MASTER_ENABLE_CLEAR with the bit clear does nothing. FUNCTION_LEVEL_RESET:
FLR_BUSY, the reads void, the tiles paused, the leases ended; FLR_DMA_SILENCE with nothing in progress, FLR_COMPLETE after
it. LINK_RESET, with PERST_N and without. DESCRIPTOR_IMAGE_REFRESH with Dennil up and the image ready. VECTOR_EOI arms its
vector and evaluates it. LANE_MARGIN_COMMAND: a report of M_NumVoltageSteps on a lane in use at 16.0 GT/s or more is
answered; on a link that is down nothing happens. -/
def Obligations.HostLinkAndResetsComplete : Prop :=
  (∀ (sp : BitVec 3) (w : BitVec 5) (s : State), s.rs.held = false → s.he.perst = true → fbit s fHE_STAT_LINK_UP = false →
    ∃ t, exec (.hostLinkUp sp w) s = .next t ∧ fbit t fHE_STAT_LINK_UP = true ∧ fget t fHE_STAT_SPEED = sp.toNat ∧
      fget t fHE_STAT_WIDTH = w.toNat) ∧
  (∀ s : State, bme s = true → exec .busMasterEnableClear s =
    .next (dmaPause (fbset (cfgWr s 0x04 (setBits (cfgRd s 0x04) 2 2 0)) fHE_STAT_BME false))) ∧
  (∀ s : State, bme s = false → exec .busMasterEnableClear s = .next s) ∧
  (∀ s : State, bme s = false → fbit s fHE_STAT_FLR_BUSY = false → exec .busMasterEnableSet s =
    .next (dmaResume (fbset (cfgWr s 0x04 (setBits (cfgRd s 0x04) 2 2 1)) fHE_STAT_BME true))) ∧
  (∀ s : State, fbit s fHE_STAT_D3 = false → exec .d3hotEntry s =
    .next (dmaPause (fbset (cfgWr s 0x44 (setBits (cfgRd s 0x44) 1 0 3)) fHE_STAT_D3 true))) ∧
  (∀ s : State, fbit s fHE_STAT_FLR_BUSY = false → ∃ t, exec .functionLevelReset s = .next t ∧ fbit t fHE_STAT_FLR_BUSY = true ∧
    t.he.silenced = false ∧ (∀ r ∈ t.he.reqs, r.void = true) ∧ (∀ a ∈ t.tiles.allocs, a.paused = true) ∧
    (∀ i, i < 32 → leaseHeld t i = false)) ∧
  (∀ s : State, fbit s fHE_STAT_FLR_BUSY = true → s.he.silenced = false → s.he.reqs = [] → s.tiles.allocs = [] →
    exec .flrDmaSilence s = .next (syncTags { s with he := { s.he with silenced := true, reqs := [], quar := s.he.quar ++ [] } })) ∧
  (∀ s : State, fbit s fHE_STAT_FLR_BUSY = true → s.he.silenced = true → exec .flrComplete s = .next (flrFinish true s)) ∧
  (∀ s : State, exec (.linkReset true) s = .next (linkReset { s with he := { s.he with perst := false } }) ∧
    exec (.linkReset false) s = .next (linkReset s)) ∧
  (∀ s : State, dennilUp s = true → fbit s fHE_STAT_ROM_READY = true →
    ∃ t, exec .descriptorImageRefresh s = .next t ∧ t.he.rom = descriptorImage s ∧ fbit t fHE_STAT_ROM_READY = true) ∧
  (∀ (v : BitVec 11) (s : State), exec (.vectorEoi v) s = .next (vecEval v.toNat (regBit s (HE_VEC_ARM + v.toNat / 32 * 4)
    (v.toNat % 32) true))) ∧
  (∀ (k : Fin 16) (c : BitVec 16) (e : BitVec 6) (s : State), fbit s fHE_STAT_LINK_UP = true → 4 ≤ fget s fHE_STAT_SPEED →
    k.val < fget s fHE_STAT_WIDTH → bits c.toNat 5 3 = 1 → bits c.toNat 15 8 = 0x89 → (c.toNat % 8 = 0 ∨ c.toNat % 8 = 6) →
    exec (.laneMarginCommand k c e) s = .next (cfgWr (cfgWr s (0x1F8 + 4 * k.val) (setBits (cfgRd s (0x1F8 + 4 * k.val)) 15 0 c.toNat))
      (0x1F8 + 4 * k.val) (setBits (cfgRd (cfgWr s (0x1F8 + 4 * k.val) (setBits (cfgRd s (0x1F8 + 4 * k.val)) 15 0 c.toNat))
        (0x1F8 + 4 * k.val)) 31 16 (c.toNat % 256 + 256 * 64)))) ∧
  (∀ (k : Fin 16) (c : BitVec 16) (e : BitVec 6) (s : State), fbit s fHE_STAT_LINK_UP = false →
    exec (.laneMarginCommand k c e) s = .next s)

/-! ## The mailbox (chapter 15) -/

/-- Channels open, take doorbells and close with these next states (R272 to R274, R281). CHANNEL_OPEN_REQUEST of a CLOSED or
REFUSED channel: OPENING, every other register kept. CHANNEL_OPEN of an OPENING channel: refused with reason 3 while Dennil
is not up; with Dennil up, versions that overlap, sizes in range and a zero token it is OPEN with the highest version both
know, without Expert, its indices 0, nothing waiting, and OPENED set. COMMAND_DOORBELL outside sleep: an index below
2^CMD_SIZE sets TAIL and the next command is read; another sets DB_ERR. MB_CLOSE: an OPENING channel is CLOSED; an OPEN one
ends its deferred commands, its leases and its slots' reports and is CLOSING until nothing is left. -/
def Obligations.ChannelsOpenAndClose : Prop :=
  (∀ (ch : ChanNo) (s : State), (chState s ch.val = 0 ∨ chState s ch.val = 3) → ∃ t, exec (.channelOpenRequest ch) s = .next t ∧
    chState t ch.val = 1 ∧ (∀ a, a ≠ MB_STAT + mbo ch.val → rdn t a = rdn s a)) ∧
  (∀ (ch : ChanNo) (s : State), chState s ch.val = 1 → dennilUp (clearToken ch.val s) = false →
    exec (.channelOpen ch) s = .next (openRefused ch.val 3 (clearToken ch.val s))) ∧
  (∀ (ch : ChanNo) (s u : State), chState s ch.val = 1 → u = clearToken ch.val s → dennilUp u = true →
    max 0x10 (fget u fMB_HIV_OFFER_MIN (mbo ch.val)) ≤ min 0x16 (fget u fMB_HIV_OFFER_MAX (mbo ch.val)) →
    1 ≤ fget u fMB_CTL_CMD_SIZE (mbo ch.val) → fget u fMB_CTL_CMD_SIZE (mbo ch.val) ≤ 12 →
    1 ≤ fget u fMB_CTL_CPL_SIZE (mbo ch.val) → fget u fMB_CTL_CPL_SIZE (mbo ch.val) ≤ 12 →
    tokenWritten s ch.val = zeros 16 →
    ∃ t, exec (.channelOpen ch) s = .next t ∧ chState t ch.val = 2 ∧
      fget t fMB_STAT_HIV (mbo ch.val) = min 0x16 (fget u fMB_HIV_OFFER_MAX (mbo ch.val)) ∧
      fget t fMB_STAT_EXPERT (mbo ch.val) = 0 ∧ rdn t (MB_CMD_HEAD + mbo ch.val) = 0 ∧ rdn t (MB_CMD_TAIL + mbo ch.val) = 0 ∧
      rdn t (MB_CPL_PROD + mbo ch.val) = 0 ∧ rdn t (MB_CPL_CONS + mbo ch.val) = 0 ∧ chan t ch.val = freshChan ∧
      fbit t fMB_EVT_OPENED (mbo ch.val) = true) ∧
  (∀ (ch : ChanNo) (tail : BitVec 12) (s : State), s.rs.asleep = false →
    tail.toNat < 2 ^ fget s fMB_CTL_CMD_SIZE (mbo ch.val) →
    exec (.commandDoorbell ch tail) s = .next (mbFetch ch.val (wrn s (MB_CMD_TAIL + mbo ch.val) tail.toNat))) ∧
  (∀ (ch : ChanNo) (tail : BitVec 12) (s : State), s.rs.asleep = false →
    2 ^ fget s fMB_CTL_CMD_SIZE (mbo ch.val) ≤ tail.toNat →
    exec (.commandDoorbell ch tail) s = .next (evt s fMB_EVT_DB_ERR (mbo ch.val))) ∧
  (∀ (ch : ChanNo) (s : State), chState s ch.val = 1 → exec (.mbClose ch) s =
    .next (evt (fset s fMB_STAT_STATE 0 (mbo ch.val)) fMB_EVT_CLOSED (mbo ch.val))) ∧
  (∀ (ch : ChanNo) (s u : State), chState s ch.val = 2 →
    u = mbForget ch.val (forEach ((deferredAll s).filter (fun x => x.1 == ch.val)) deferredClose s) →
    exec (.mbClose ch) s = .next (closeDone ch.val (fset (slotsOrphan ch.val (forEach (leasesOf u ch.val) (leaseEnd lrCHANNEL) u))
      fMB_STAT_STATE 4 (mbo ch.val))))

/-- Entries of the completion ring (R271, R272). COMPLETION_WRITE writes the oldest completion that waits at PROD's slot
while the ring is live, has a free slot and client 36 has budget; EVENT_DELIVER writes the oldest event, with LOST, while no
command taken needs the slot; with nothing waiting both do nothing. An entry has 64 bytes with the opcode, kind, status, tag
and detail in their places. An event for an open channel waits behind the others; one that finds 256 waiting is discarded and
LOST is remembered. -/
def Obligations.CompletionsAndEventsAreWritten : Prop :=
  (∀ (ch : ChanNo) (s : State) (e : List Byte) (l : List (List Byte)), (chan s ch.val).cpls = e :: l → ringLive s ch.val = true →
    cplFree s ch.val ≠ 0 → tollCan s 36 entryCost = true → exec (.completionWrite ch) s = .next (closeDone ch.val (cplPut ch.val e false
      (updChan (tollSpend s 36 entryCost) ch.val (fun h => { h with cpls := l }))))) ∧
  (∀ (ch : ChanNo) (s : State) (e : List Byte) (l : List (List Byte)), (chan s ch.val).events = e :: l → ringLive s ch.val = true →
    cplRoom s ch.val = true → tollCan s 36 entryCost = true →
    exec (.eventDeliver ch) s = .next (closeDone ch.val (cplPut ch.val e (chan s ch.val).lost
      (updChan (tollSpend s 36 entryCost) ch.val (fun h => { h with events := l, lost := false }))))) ∧
  (∀ (ch : ChanNo) (s : State), (chan s ch.val).cpls = [] → exec (.completionWrite ch) s = .next s) ∧
  (∀ (ch : ChanNo) (s : State), (chan s ch.val).events = [] → exec (.eventDeliver ch) s = .next s) ∧
  (∀ (op kind st tag detail : Nat) (res : List Byte), (cplEntry op kind st tag detail res).length = 64 ∧
    u16At (cplEntry op kind st tag detail res) 0 = op % 65536 ∧ byteAt (cplEntry op kind st tag detail res) 2 = kind % 256 ∧
    byteAt (cplEntry op kind st tag detail res) 3 = st % 256 ∧ u32At (cplEntry op kind st tag detail res) 4 = tag % 2 ^ 32 ∧
    u32At (cplEntry op kind st tag detail res) 12 = detail % 2 ^ 32) ∧
  (∀ (ch : ChanNo) (k tag : Nat) (res : List Byte) (s : State), chOpen s ch.val = true → (chan s ch.val).events.length < 256 →
    (chan (mbEvent ch.val k tag res s) ch.val).events = (chan s ch.val).events ++ [cplEntry 0 k 0 tag 0 res] ∧
    (mbEvent ch.val k tag res s).regs = s.regs) ∧
  (∀ (ch : ChanNo) (k tag : Nat) (res : List Byte) (s : State), chOpen s ch.val = true → 256 ≤ (chan s ch.val).events.length →
    (chan (mbEvent ch.val k tag res s) ch.val).lost = true ∧
    (chan (mbEvent ch.val k tag res s) ch.val).events = (chan s ch.val).events)

/-- A command is taken once (R272, R275): HEAD advances by one modulo the ring, MB_CNT_CMD counts, every other register of
the mailbox keeps its value, and nothing changes but the registers, the Toll's books, the endpoint's reads, the channels and
what is sent. A completion of a local command joins its channel's waiting completions; a status other than OK counts in
MB_CNT_REFUSED. A command that the form, version or group checks refuse, one that the lease, busy or length checks refuse,
and one that its own rules refuse completes with that status and no other effect; one that cannot be taken changes nothing. -/
def Obligations.CommandsAreTakenAndRefusedInOrder : Prop :=
  (∀ (c : CmdCall) (s : State), rdn (mbTake c s) (MB_CMD_HEAD + mbo c.chan.val) =
      (rdn s (MB_CMD_HEAD + mbo c.chan.val) + 1) % ringSize (fget s fMB_CTL_CMD_SIZE (mbo c.chan.val)) ∧
    rdn (mbTake c s) (MB_CNT_CMD + mbo c.chan.val) = min 0xFFFFFFFF (rdn s (MB_CNT_CMD + mbo c.chan.val) + 1) ∧
    (∀ a, 0x10000 ≤ a → a < 0x11000 → a ≠ MB_CMD_HEAD + mbo c.chan.val → a ≠ MB_CNT_CMD + mbo c.chan.val →
      rdn (mbTake c s) a = rdn s a) ∧
    (∀ p : Comp, p ∉ [Comp.regs, .toll, .he, .mb, .outbox] → p.same s (mbTake c s))) ∧
  (∀ (ch : ChanNo) (op st tag detail : Nat) (res : List Byte) (s : State),
    (chan (complete ch.val op st tag detail res s) ch.val).cpls = (chan s ch.val).cpls ++ [cplEntry op 0 st tag detail res] ∧
    (∀ k : ChanNo, k ≠ ch → chan (complete ch.val op st tag detail res s) k.val = chan s k.val) ∧
    (st = 0 → (complete ch.val op st tag detail res s).regs = s.regs) ∧
    (st ≠ 0 → rdn (complete ch.val op st tag detail res s) (MB_CNT_REFUSED + mbo ch.val) =
      min 0xFFFFFFFF (rdn s (MB_CNT_REFUSED + mbo ch.val) + 1))) ∧
  (∀ (sp : CmdSpec) (run : CmdCall → State → State × CmdRes) (c : CmdCall) (s : State) (st : Nat), c.origin = none →
    mbGate c s = true → checkHeader sp c (mbTake c s) = some st →
    mbRun sp run c s = completeCmd sp c st 0 [] (mbTake c s)) ∧
  (∀ (sp : CmdSpec) (run : CmdCall → State → State × CmdRes) (c : CmdCall) (s : State) (st : Nat), c.origin = none →
    mbGate c s = true → checkHeader sp c (mbTake c s) = none → isRemote c (mbTake c s) = false →
    checkScope sp c (mbTake c s) = some st → mbRun sp run c s = completeCmd sp c st 0 [] (mbTake c s)) ∧
  (∀ (sp : CmdSpec) (run : CmdCall → State → State × CmdRes) (c : CmdCall) (s : State), c.origin = none →
    mbGate c s = false → mbRun sp run c s = s) ∧
  (∀ (sp : CmdSpec) (run : CmdCall → State → State × CmdRes) (c : CmdCall) (s : State) (st d : Nat), Accepted sp c s →
    (run c (mbTake c s)).2 = .refuse st d → mbRun sp run c s = completeCmd sp c st d [] (mbTake c s))

/-- The executor's rows complete with these next states (R270, R275 to R279, R281). COMMAND_TAKE with a channel to serve: the
entry, of which what has been read already counts, runs by its opcode, and the next channel is the one after; with none
nothing happens. DEFERRED_COMPLETE: a command that waits for host memory goes on; FW_WRITE ends with its outcome, and with
E_IO and a BAD slot when a byte read back is not the image's; a command that no chapter lets fail ends E_INTERNAL; without
such a command nothing happens. CMD_ABORT of a deferred command that can stop ends it E_ABORTED. CHANNEL_CLOSE completes and
then closes its channel. DENNIL_MESSAGE_RECEIVE: with Dennil up a command runs for its pier and a valve count is taken; else
nothing happens. -/
def Obligations.ExecutorRowsComplete : Prop :=
  (∀ (e ind d : List Byte) (n : List Int) (s : State) (ch : Fin 4), nextServed s = some ch → (chan s ch.val).fetched = [] →
    exec (.commandTake e ind d n) s = .next (runOpcode (u16At (fit 64 e) 0) (parseEntry ch (fit 64 e) ind d n)
      { s with mb := { s.mb with nextChan := (ch.val + 1) % 4 } })) ∧
  (∀ (e ind d : List Byte) (n : List Int) (s : State) (ch : Fin 4) (f : List Byte), nextServed s = some ch → (chan s ch.val).fetched = f →
    64 ≤ f.length → exec (.commandTake e ind d n) s = .next (runOpcode (u16At (f.take 64) 0)
      (parseEntry ch (f.take 64) (f.drop 64 ++ ind.drop (f.length - 64)) d n)
      { s with mb := { s.mb with nextChan := (ch.val + 1) % 4 } })) ∧
  (∀ (e ind d : List Byte) (n : List Int) (s : State), nextServed s = none → exec (.commandTake e ind d n) s = .next s) ∧
  (∀ (ch : Fin 5) (tag : Word) (ok : Bool) (back : Option (Nat × Byte)) (s : State) (x : Nat × Deferred),
    (deferredAll s).find? (fun x => x.1 == ch.val && x.2.call.tag == tag.toNat) = some x →
    (x.2.waitsBme = true → exec (.deferredComplete ch tag ok back) s = .next (resumeOne x s)) ∧
    (x.2.waitsBme = false → x.2.opcode = 0x0F13 → back = none → exec (.deferredComplete ch tag ok back) s = .next (endD x (if ok then 0 else eIO) 0 []
      (setSlot (byteAt x.2.call.payload 0) { fwSlot s (byteAt x.2.call.payload 0) with st := if ok then 1 else 2 } s))) ∧
    (∀ (i : Nat) (y : Byte), x.2.waitsBme = false → x.2.opcode = 0x0F13 → back = some (i, y) →
      (fwSlot s (byteAt x.2.call.payload 0)).img[i]? ≠ some y → exec (.deferredComplete ch tag ok back) s = .next (endD x eIO 0 []
      (setSlot (byteAt x.2.call.payload 0) { fwSlot s (byteAt x.2.call.payload 0) with st := 2 } s))) ∧
    (x.2.waitsBme = false → x.2.opcode ∉ [0x0210, 0x0F13, 0x1210, 0x1211, 0x1290] →
      exec (.deferredComplete ch tag false back) s = .next (endInternal x (abortEffect x.2 s)))) ∧
  (∀ (ch : Fin 5) (tag : Word) (ok : Bool) (back : Option (Nat × Byte)) (s : State),
    (deferredAll s).find? (fun x => x.1 == ch.val && x.2.call.tag == tag.toNat) = none →
    exec (.deferredComplete ch tag ok back) s = .next s) ∧
  (∀ (sp : CmdSpec) (c : CmdCall) (s u : State) (x : Nat × Deferred), sp = ⟨0x0F15, 0x15, false, 8, 8, false, true⟩ →
    Accepted sp c s → u = mbTake c s → abortTarget c u = some x → x.2.canStop = true →
    exec (.cmdAbort c) s = .next (completeCmd sp c 0 0 [] (abortEffect x.2 (endD x eABORTED 0 [] u)))) ∧
  (∀ (sp : CmdSpec) (c : CmdCall) (s : State), sp = ⟨0x0F11, 0x10, false, 0, 0, false, true⟩ → Accepted sp c s →
    exec (.channelClose c) s = .next (mbClose c.chan.val (complete c.chan.val 0x0F11 0 c.tag 0 [] (mbTake c s)))) ∧
  (∀ (src : BitVec 10) (op : BitVec 16) (call : CmdCall) (s : State), dennilUp s = true →
    exec (.dennilMessageReceive src (.command op call)) s =
      .next (runOpcode op.toNat { call with origin := some src.toNat } s)) ∧
  (∀ (src : BitVec 10) (n : BitVec 16) (s : State), dennilUp s = true → exec (.dennilMessageReceive src (.valves n)) s =
    .next (neighbourValves src.toNat n.toNat s)) ∧
  (∀ (src : BitVec 10) (m : DennilMsg) (s : State), dennilUp s = false → exec (.dennilMessageReceive src m) s = .next s)

/-- The mailbox's own commands, accepted here, complete with these next states (R274, R280, R281, R284 to R286): INFO answers
the unit's and the channel's identity; EXPERT_TOKEN_SET of a first token stores its digest; FW_WRITE of a valid image into a
slot that was not booted marks it WRITING and waits; FW_ACTIVATE of a VALID slot makes it the next; EVENT_MASK masks REPLACE;
LEASE_OPEN of a free scope holds a lease over it for its milliseconds on TB3; LEASE_CLOSE ends, LEASE_RENEW prolongs a lease
that the channel holds. LEASE_EXPIRY: a lease whose time has ended is no longer held, one whose time has not is left. The
Causeway mailbox completes with these next states (R285, R287). CW_VERSION and CW_STATUS where it takes commands: the boot
ROM's version, a free value, with the image's versions in full service; the firmware state and the boot error. FW_LOAD where
the boot ROM serves and no slot is being programmed: outside Causeway service it is refused; an image that is not valid, or
whose read from LP5X fails, ends E_AUTH; a valid image is checked (ACTION 0), programmed into slot A or B with BUSY set while
the medium is in use (1), or started (2). A command that ends sets DONE, its status and its results, and where it was not
BUSY its opcode. -/
def Obligations.MailboxCommandsComplete : Prop :=
  (∀ (sp : CmdSpec) (c : CmdCall) (s u : State), sp = ⟨0x0F10, 0x10, false, 0, 0, false, true⟩ → Accepted sp c s →
    u = mbTake c s → exec (.info c) s = .next (completeCmd sp c 0 0 (leBytes 4 u.rs.release ++
      leBytes 1 (fget u fMB_STAT_HIV (mbo c.chan.val)) ++ leBytes 1 (fget u fMB_STAT_EXPERT (mbo c.chan.val)) ++
      leBytes 2 (myPier u) ++ leBytes 4 (cfgRd u 0x154) ++ leBytes 4 (cfgRd u 0x158) ++
      leBytes 1 (fget u fMB_DENNIL_STAT_STATE)) u)) ∧
  (∀ (sp : CmdSpec) (c : CmdCall) (s u : State), sp = ⟨0x0F12, 0x10, false, 16, 16, false, false⟩ → Accepted sp c s →
    u = mbTake c s → c.payload.take 16 ≠ zeros 16 → u.ev.token = [] → evRunning u = true → (numAt c 0).toNat % 8 ≠ 7 →
    exec (.expertTokenSet c) s = .next (completeCmd sp c 0 0 [] (confStore (numAt c 0).toNat
      { u with ev := { u.ev with token := sha384 (c.payload.take 16) } }))) ∧
  (∀ (sp : CmdSpec) (c : CmdCall) (s u : State), sp = ⟨0x0F13, 0x10, false, 20, 20, false, false⟩ → Accepted sp c s →
    u = mbTake c s → pb c 0 < 2 → fget u fRS_BOOT_BOOTED ≠ pb c 0 → hostCanRead c u = true → c.data.length = pd c 16 →
    imageValid u c.data (numAt c 0 == 1) = true → exec (.fwWrite c) s = .next (holdDeferred sp c false false
      (emit (setSlot (pb c 0) ⟨3, c.data⟩ (hostRead c (pq c 8) (pd c 16) u)) (.nand 1 (pb c 0) c.data)))) ∧
  (∀ (sp : CmdSpec) (c : CmdCall) (s u : State), sp = ⟨0x0F14, 0x10, false, 8, 8, false, false⟩ → Accepted sp c s →
    u = mbTake c s → pb c 0 ≤ 2 → (fwSlot u (pb c 0)).st = 1 → exec (.fwActivate c) s = .next (completeCmd sp c 0 0 []
      (fset { u with ev := { u.ev with nextSlot := pb c 0 } } fMB_FW_SLOT_NEXT (pb c 0)))) ∧
  (∀ (sp : CmdSpec) (c : CmdCall) (s u : State), sp = ⟨0x0F16, 0x16, false, 8, 8, false, true⟩ → Accepted sp c s →
    u = mbTake c s → exec (.eventMask c) s = .next (completeCmd sp c 0 0 []
      (updChan u c.chan.val (fun h => { h with masked := bit (pb c 0) 0 })))) ∧
  (∀ (sp : CmdSpec) (c : CmdCall) (s u : State) (i ports : Nat), sp = ⟨0x0F90, 0x10, true, 8, 8, false, false⟩ →
    Accepted sp c s → u = mbTake c s → ports = (if leasePerPort (pb c 0) then pw c 2 else 0) → leasable (pb c 0) = true →
    1 ≤ pd c 4 → pd c 4 ≤ 60000 → (∀ k, k < 32 → leaseClash u (pb c 0) ports k = false) → leaseBusy u (pb c 0) ports = false →
    ((leasesOf u c.chan.val).filter (leaseHeld u)).length < 8 → (List.range 32).find? (fun i => !fbit u fMB_LEASE_HELD (i * 4)) = some i →
    exec (.leaseOpen c) s = .next (completeCmd sp c 0 0 (leBytes 1 i) (leaseTime i (pd c 4)
      (wrn u (MB_LEASE + i * 4) (2 ^ 31 + c.chan.val * 2 ^ 29 + pb c 0 * 65536 + ports))))) ∧
  (∀ (sp : CmdSpec) (c : CmdCall) (s u : State), sp = ⟨0x0F91, 0x10, true, 8, 8, false, false⟩ → Accepted sp c s →
    u = mbTake c s → holdsLease c (pb c 0) u = true →
    exec (.leaseClose c) s = .next (completeCmd sp c 0 0 [] (leaseEnd lrCLOSED (pb c 0) u))) ∧
  (∀ (sp : CmdSpec) (c : CmdCall) (s u : State), sp = ⟨0x0F92, 0x14, true, 8, 8, false, false⟩ → Accepted sp c s →
    u = mbTake c s → holdsLease c (pb c 0) u = true → 1 ≤ pd c 4 → pd c 4 ≤ 60000 →
    exec (.leaseRenew c) s = .next (completeCmd sp c 0 0 [] (leaseTime (pb c 0) (pd c 4) u))) ∧
  (∀ (i : Fin 32) (s : State), leaseLeft s i.val ≤ 0 → fbit s fMB_LEASE_HELD (i.val * 4) = true →
    ∃ t, exec (.leaseExpiry i) s = .next t ∧ fbit t fMB_LEASE_HELD (i.val * 4) = false ∧ (∀ l ∈ t.mb.leases, l.id ≠ i.val)) ∧
  (∀ (i : Fin 32) (s : State), 0 < leaseLeft s i.val → exec (.leaseExpiry i) s = .next s) ∧
  (∀ s : State, cwServes s = true → exec .cwVersion s = .next (cwDone 1 0
    [freeVal s, if causeway s then 0 else s.rs.hivMax * 256 + s.rs.hivMin] (useFree s))) ∧
  (∀ s : State, cwServes s = true → exec .cwStatus s =
    .next (cwDone 2 0 [rdn s MB_DENNIL_STAT, fget s fRS_BOOT_ERROR] s)) ∧
  (∀ (sig : Bool) (k : ReadCheck) (a : Nat) (s : State), cwUp s = true → s.mb.cwProg = none → causeway s = false →
    exec (.fwLoad sig k a) s = .next (cwDone 3 eSTATE [] s)) ∧
  (∀ (sig : Bool) (k : ReadCheck) (a : Nat) (s u : State) (img : List Byte), cwUp s = true → s.mb.cwProg = none → causeway s = true →
    u = lp5Check k a s → img = lp5Bytes u (cwArg u 0 + 2 ^ 32 * cwArg u 1) (cwArg u 2) →
    imageValid u img sig = true → k ≠ .failed →
    (bits (cwArg u 3) 1 0 = 0 → exec (.fwLoad sig k a) s = .next (cwDone 3 0 [u32At img 8, u16At img 14] u)) ∧
    (bits (cwArg u 3) 1 0 = 2 → exec (.fwLoad sig k a) s =
      .next (cwDone 3 0 [u32At img 8, u16At img 14] (startImage 3 ⟨1, img⟩ u))) ∧
    (bits (cwArg u 3) 1 0 = 1 → bits (cwArg u 3) 9 8 ≤ 1 → evRunning u = true → ∃ t, exec (.fwLoad sig k a) s = .next t ∧
      t.mb.cwProg = some (bits (cwArg u 3) 9 8) ∧ fbit t fMB_CW_CMD_BUSY = true ∧
      t.ev.slots = upd u.ev.slots (bits (cwArg u 3) 9 8) (fun _ => ⟨3, img⟩) ∧
      t.outbox = .nand 1 (bits (cwArg u 3) 9 8) img :: u.outbox)) ∧
  (∀ (sig : Bool) (k : ReadCheck) (a : Nat) (s u : State) (img : List Byte), cwUp s = true → s.mb.cwProg = none → causeway s = true →
    u = lp5Check k a s → img = lp5Bytes u (cwArg u 0 + 2 ^ 32 * cwArg u 1) (cwArg u 2) → bits (cwArg u 3) 1 0 = 0 →
    (imageValid u img sig = false ∨ k = .failed) → exec (.fwLoad sig k a) s = .next (cwDone 3 eAUTH [] u)) ∧
  (∀ (op st : Nat) (d : List Nat) (s : State), fbit (cwDone op st d s) fMB_CW_EVT_DONE = true ∧
    rdn (cwDone op st d s) MB_CW_RESP = st * 2 ^ 24 % 2 ^ 32 ∧ (fbit s fMB_CW_CMD_BUSY = false → rdn (cwDone op st d s) MB_CW_CMD = op % 2 ^ 32) ∧
    (∀ i, i < 4 → rdn (cwDone op st d s) (MB_CW_DATA + 4 * i) = nth d i % 2 ^ 32))

/-! ## The two-wire blocks (chapter 16) -/

/-- The two-wire controller completes with these next states (R291 to R294, R304, R305, R310). TW_COMMAND_GO by Dennil or
under a lease, with none BUSY: the transaction is pending, or for a WLEN above 64 ends ABORTED. TW_TRANSACTION_START on a
free bus with one ready: it is on the bus. TW_TRANSACTION_END: a TW_CMD transaction of at most 255 bytes read, without a PEC
byte, ends OK; no acknowledge ends it under its status; a lost arbitration is recorded and tried again while RETRY allows;
one that was stopping has stopped. TW_SCL_TIMEOUT with SMB_TMO ends what runs, a TW_CMD transaction with counts within WLEN
and RLEN. TW_SDA_TIMEOUT of a bus without a transaction: its event, and with recovery the stop or the end of what waits.
START_STOP_CONDITION of another device: the bus is busy, or is free. TW_XFER with operands in range, accepted here: its
command is BUSY and waits. The two-wire target and the commands of the block complete with these next states (R296 to R301,
R306 to R308, R310), outside sleep but for the wake-up. TW_TARGET_COMMIT of a write to an own address that ends with a stop:
with room for a record it is judged by the command table, where a block write of the right length is committed and a code of
type 0 discarded, and without room it is not acknowledged; to another address nothing happens. TW_TARGET_READ of an own
address is answered from the sampled entry or with Receive Byte, and FFh beyond its end with TX_UNDER, but not acknowledged
when the sampled entry allows no read; of the Alert Response Address, won, it clears REQ. TW_ALERT_REQUEST by Dennil or under
a lease drives the pin, and a raised REQ is its level. TW_ALERT_IN_EDGE: the level, and on a falling edge the event.
TW_WAKE_MATCH in sleep with WAKE asks for wake-up, and outside sleep nothing happens. Accepted here: TW_LOAD_PROFILE writes
the profile's words of the block with EN cleared first where TW_CFG is among them; TW_TGT_RESP puts the response into free
RAM. -/
def Obligations.TwoWireRowsComplete : Prop :=
  (∀ (ag : Agent) (b : TwNo) (v : BitVec 32) (s u : State), (ag = .dennil ∨ leased s 0x10 none = true) →
    u = putWord (TW_CMD + two b.val) (v.toNat % 2 ^ 30) s → fbit u fTW_CMD_BUSY (two b.val) = false →
    (fget u fTW_CMD_WLEN (two b.val) ≤ 64 → exec (.twCommandGo ag b v) s =
      .next (fbset (updTw u b.val (fun x => { x with retries := 0 })) fTW_CMD_BUSY true (two b.val))) ∧
    (64 < fget u fTW_CMD_WLEN (two b.val) → exec (.twCommandGo ag b v) s =
      .next (twCmdEnd b.val twABORTED 0 0 [] (updTw u b.val (fun x => { x with retries := 0 }))))) ∧
  (∀ (b : TwNo) (s u : State) (r : TwRun), twController s b.val = true → twFree s b.val = true → (twSt s b.val).run = .none →
    u = (if (twSt s b.val).again = .none ∧ b.val < 4 then slotSend b.val s else s) → r = twReady u b.val → r ≠ .none →
    exec (.twTransactionStart b) s = .next (emit (fbset (fbset (updTw u b.val (fun x => { x with run := r, again := .none, free := false }))
      fTW_STAT_CTRL_ACTIVE true (two b.val)) fTW_STAT_BUS_BUSY true (two b.val)) (.twCtrl b.val
      ((twWire u b.val r).1.map (BitVec.ofNat 8)) ((twWire u b.val r).2.map (fun x => (BitVec.ofNat 8 x.1, x.2)))))) ∧
  (∀ (b : TwNo) (n : Nat) (d data : List Byte) (y : BitVec 8) (i : Fin 8) (s u : State), (twSt s b.val).run = .cmd → u = twStop b.val s →
    data = d.take (twReadLen u b.val d) → data.length ≤ 255 → exec (.twTransactionEnd b n d none 0 y i) s =
      .next (twFinish b.val twOK (fget u fTW_CMD_WLEN (two b.val)) data.length data (twRx b.val data u))) ∧
  (∀ (b : TwNo) (n w : Nat) (d : List Byte) (x : Option (BitVec 8)) (y : BitVec 8) (i : Fin 8) (s : State), (twSt s b.val).run ≠ .none →
    (twSt s b.val).run ≠ .stopping → w = min n (fget s fTW_CMD_WLEN (two b.val)) →
    exec (.twTransactionEnd b n d x 1 y i) s =
      .next (twFinish b.val twNAK_ADDR 0 0 [] (cnt (twStop b.val s) (TW_CNT_NAK + two b.val))) ∧
    exec (.twTransactionEnd b n d x 2 y i) s =
      .next (twFinish b.val twNAK_DATA w 0 [] (cnt (twStop b.val s) (TW_CNT_NAK + two b.val))) ∧
    exec (.twTransactionEnd b n d x 3 y i) s = .next (twArbLoss b.val y.toNat i.val s) ∧
    exec (.twTransactionEnd b n d x 4 y i) s =
      .next (twFinish b.val twARB_SR w 0 [] (evtCnt s fTW_EVT_ARB_SR TW_CNT_ARB_SR (two b.val)))) ∧
  (∀ (b : TwNo) (n : Nat) (d : List Byte) (x : Option (BitVec 8)) (st : Fin 5) (y : BitVec 8) (i : Fin 8) (s : State),
    (twSt s b.val).run = .stopping → exec (.twTransactionEnd b n d x st y i) s = .next (twFinish b.val twOK 0 0 [] (twStop b.val s))) ∧
  (∀ (b : TwNo) (y i : Nat) (s u : State), (twSt s b.val).run ≠ .none → (twSt s b.val).run ≠ .stopping →
    twRetries (twSt s b.val) < fget s fTW_CFG_RETRY (two b.val) →
    u = twArbLoss b.val y i s → (twSt u b.val).run = .none ∧ (twSt u b.val).again = (twSt s b.val).run ∧
    fget u fTW_ARB_BYTE (two b.val) = y % 256 ∧ fget u fTW_ARB_BIT (two b.val) = i % 8) ∧
  (∀ (b : TwNo) (s : State), fbit s fTW_CFG_EN (two b.val) = true → fbit s fTW_CFG_SMB_TMO (two b.val) = true →
    (twSt s b.val).run ≠ .cmd →
    exec (.twSclTimeout b false) s = .next (twFinish b.val twSCL_TMO 0 0 [] (updTw (evtCnt s fTW_EVT_SCL_TMO TW_CNT_TMO (two b.val)) b.val
      (fun x => { x with free := false, stopAt := none, sampled := none })))) ∧
  (∀ (b : TwNo) (s u : State), fbit s fTW_CFG_EN (two b.val) = true → fbit s fTW_CFG_SMB_TMO (two b.val) = true →
    (twSt s b.val).run = .cmd → u = updTw (evtCnt s fTW_EVT_SCL_TMO TW_CNT_TMO (two b.val)) b.val
      (fun x => { x with free := false, stopAt := none, sampled := none }) →
    ∃ w r, w ≤ fget s fTW_CMD_WLEN (two b.val) ∧ r ≤ fget s fTW_CMD_RLEN (two b.val) ∧
      exec (.twSclTimeout b false) s = .next (twFinish b.val twSCL_TMO w r [] (useFree (useFree u)))) ∧
  (∀ (b : TwNo) (s u : State), fbit s fTW_CFG_EN (two b.val) = true → fget s fTW_TMO_SDA_MS (two b.val) ≠ 0 →
    (twSt s b.val).run = .none → u = updTw (evtCnt s fTW_EVT_SDA_TMO TW_CNT_TMO (two b.val)) b.val
      (fun x => { x with free := false, stopAt := none }) →
    (fbit s fTW_CFG_RECOVER_EN (two b.val) = false → exec (.twSdaTimeout b true) s = .next u) ∧
    (fbit s fTW_CFG_RECOVER_EN (two b.val) = true → fbit s fTW_CFG_CTRL_EN (two b.val) = true →
      exec (.twSdaTimeout b true) s = .next (twStop b.val (evt u fTW_EVT_RECOVERED (two b.val))) ∧
      exec (.twSdaTimeout b false) s = .next (twWaiting b.val twSDA_TMO u))) ∧
  (∀ (b : TwNo) (s : State), fbit s fTW_CFG_EN (two b.val) = true → (twSt s b.val).run = .none →
    exec (.startStopCondition b true) s =
      .next (updTw (fbset s fTW_STAT_BUS_BUSY true (two b.val)) b.val (fun x => { x with free := false })) ∧
    (fbit s fTW_STAT_BUS_BUSY (two b.val) = true → exec (.startStopCondition b false) s = .next (twStop b.val s)) ∧
    (fbit s fTW_STAT_BUS_BUSY (two b.val) = false →
      exec (.startStopCondition b false) s = .next (updTw s b.val (fun x => { x with free := true })))) ∧
  (∀ (sp : CmdSpec) (c : CmdCall) (s u : State), sp = ⟨0x1090, 0x10, true, 16, 80, false, true⟩ → Accepted sp c s →
    u = mbTake c s → pb c 0 < 6 → twController u (pb c 0) = true → pb c 1 < 128 → twReserved (pb c 1) = false → pb c 3 ≤ 64 →
    pb c 4 ≤ 40 → 16 + pb c 3 ≤ c.payload.length → fbit u fTW_CMD_BUSY (two (pb c 0)) = false →
    ∃ t, exec (.twXfer c) s = .next (holdDeferred sp c true false t) ∧ fbit t fTW_CMD_BUSY (two (pb c 0)) = true ∧
      fget t fTW_CMD_ADDR (two (pb c 0)) = pb c 1 ∧ fget t fTW_CMD_WLEN (two (pb c 0)) = pb c 3 ∧
      fget t fTW_CMD_RLEN (two (pb c 0)) = pb c 4) ∧
  (∀ (b : TwNo) (a : BitVec 7) (l : List Byte) (s u : State) (a1 : Bool), twTarget s b.val = true → s.rs.asleep = false →
    twOwn s b.val a.toNat = some a1 → u = updTw s b.val (fun x => { x with sampled := none }) →
    (quRoom u (48 + b.val) 264 = true → exec (.twTargetCommit b a l 0 none) s = .next (twWrite b.val a.toNat a1 l .stop u)) ∧
    (quRoom u (48 + b.val) 264 = false →
      exec (.twTargetCommit b a l 0 none) s = .next (evtCnt u fTW_EVT_TGT_BUSY TW_CNT_TGT_BUSY (two b.val)))) ∧
  (∀ (b : TwNo) (a : BitVec 7) (l : List Byte) (cl : Fin 5) (x : Option (Fin 8)) (s : State), twOwn s b.val a.toNat = none →
    exec (.twTargetCommit b a l cl x) s = .next s) ∧
  (∀ (b a : Nat) (a1 : Bool) (code : Byte) (n : Byte) (d : List Byte) (s : State), enType (twEntry s b code.toNat) = 5 →
    enPec (twEntry s b code.toNat) = false → n.toNat = d.length → d ≠ [] →
    twWrite b a a1 (code :: n :: d) .stop s = twCommit b (twRecord code.toNat d false false a1) s) ∧
  (∀ (b a : Nat) (a1 : Bool) (code : Byte) (l : List Byte) (s : State), enType (twEntry s b code.toNat) = 0 →
    twWrite b a a1 (code :: l) .stop s = twDiscard b s) ∧
  (∀ (b : TwNo) (a : BitVec 7) (n : Nat) (w : Bool) (s : State) (a1 : Bool) (all : List Nat), twTarget s b.val = true →
    s.rs.asleep = false → a ≠ 0x0C#7 → twOwn s b.val a.toNat = some a1 → twReadAcked s b.val = true →
    all = twReadData s b.val ++ [pec (twReadHead s b.val a.toNat ++ twReadData s b.val)] → n ≤ all.length →
    exec (.twTargetRead b a n w none) s = .next (emit (updTw s b.val (fun x => { x with sampled := none }))
      (.twSend b.val ((all.take n).map (BitVec.ofNat 8))))) ∧
  (∀ (b : TwNo) (a : BitVec 7) (n : Nat) (w : Bool) (s : State) (a1 : Bool) (all : List Nat), twTarget s b.val = true →
    s.rs.asleep = false → a ≠ 0x0C#7 → twOwn s b.val a.toNat = some a1 → twReadAcked s b.val = true →
    all = twReadData s b.val ++ [pec (twReadHead s b.val a.toNat ++ twReadData s b.val)] → all.length < n →
    exec (.twTargetRead b a n w none) s = .next (evt (emit (updTw s b.val (fun x => { x with sampled := none }))
      (.twSend b.val ((all ++ List.replicate (n - all.length) 0xFF).map (BitVec.ofNat 8)))) fTW_EVT_TX_UNDER (two b.val))) ∧
  (∀ (b : TwNo) (a : BitVec 7) (n : Nat) (w : Bool) (x : Option (Fin 8)) (s : State) (a1 : Bool), twTarget s b.val = true →
    s.rs.asleep = false → a ≠ 0x0C#7 → twOwn s b.val a.toNat = some a1 → twReadAcked s b.val = false →
    exec (.twTargetRead b a n w x) s = .next (updTw s b.val (fun x => { x with sampled := none }))) ∧
  (∀ (b : TwNo) (n : Nat) (s : State), twTarget s b.val = true → s.rs.asleep = false → fbit s fTW_ALERT_REQ (two b.val) = true →
    fbit s fTW_CFG_ARA_EN (two b.val) = true → ∃ t, exec (.twTargetRead b 0x0C#7 n true none) s = .next t ∧
      fbit t fTW_ALERT_REQ (two b.val) = false ∧ fbit t fTW_EVT_ALERT_WON (two b.val) = true) ∧
  (∀ (ag : Agent) (b : TwNo) (r : Bool) (s : State), (ag = .dennil ∨ leased s 0x10 none = true) →
    fbit s fTW_ALERT_REQ (two b.val) ≠ r → exec (.twAlertRequest ag b r) s =
      .next ((if r then twAlertIn b.val true else id) (emit (fbset s fTW_ALERT_REQ r (two b.val)) (.pin "TW_ALERT_N" b.val (!r))))) ∧
  (∀ (b : TwNo) (s : State), fbit s fTW_STAT_ALERT_IN (two b.val) = false →
    exec (.twAlertInEdge b true) s = .next (evt (fbset s fTW_STAT_ALERT_IN true (two b.val)) fTW_EVT_ALERT_IN (two b.val))) ∧
  (∀ (b : TwNo) (s : State), exec (.twAlertInEdge b false) s = .next (fbset s fTW_STAT_ALERT_IN false (two b.val))) ∧
  (∀ (b : TwNo) (s : State), s.rs.asleep = true → fbit s fTW_ADDR_A0_EN (two b.val) = true → fbit s fTW_ADDR_A0_WAKE (two b.val) = true →
    exec (.twWakeMatch b false) s = .next (evt { s with rs := { s.rs with wakeReq := true } } fTW_EVT_WAKE (two b.val))) ∧
  (∀ (b : TwNo) (a1 : Bool) (s : State), s.rs.asleep = false → exec (.twWakeMatch b a1) s = .next s) ∧
  (∀ (sp : CmdSpec) (c : CmdCall) (s u : State) (p : Profile), sp = ⟨0x1010, 0x10, false, 8, 8, false, true⟩ → Accepted sp c s →
    u = mbTake c s → pb c 0 < 6 → findProfile u 0x10 (pb c 0) = some p → (∀ w ∈ p.writes, w.1 ≠ TW_ADDR + two (pb c 0)) →
    ∀ mine : List (Nat × Nat), mine = p.writes.filter (fun w => w.1 / 0x1000 = 0x70 + pb c 0 &&
      (w.1 % 0x1000 < 0xC || 0x400 ≤ w.1 % 0x1000)) →
    exec (.twLoadProfile c) s = .next (completeCmd sp c 0 0 [] (forEach mine (fun w t => twPut w.1 w.2 t)
      (if mine.any (fun w => w.1 = TW_CFG + two (pb c 0)) then fbset u fTW_CFG_EN false (two (pb c 0)) else u)))) ∧
  (∀ (sp : CmdSpec) (c : CmdCall) (s u : State) (e o : Nat), sp = ⟨0x1011, 0x10, false, 8, 264, false, true⟩ → Accepted sp c s →
    u = mbTake c s → pb c 0 < 6 → twTarget u (pb c 0) = true → 1 ≤ pw c 2 → pw c 2 ≤ 256 → 8 + pw c 2 ≤ c.payload.length →
    e = twEntry u (pb c 0) (pb c 1) → (enType e = 3 ∨ enType e = 4 ∨ enType e = 6 ∨ enType e = 7) →
    twRoom u (pb c 0) (pw c 2) ≠ [] → o = nth (twRoom u (pb c 0) (pw c 2)) (freeVal u % (twRoom u (pb c 0) (pw c 2)).length) →
    exec (.twTgtResp c) s = .next (completeCmd sp c 0 0 [] (wrn (forEach (((c.payload.drop 8).take (pw c 2)).zipIdx)
      (fun x t => twRamPut (pb c 0) (o + x.2) x.1.toNat t) (useFree u)) (TW_TGT_CMD + two (pb c 0) + pb c 1 * 4) (setBits e 10 0 o))))

/-! ## The Abutment (chapter 17) -/

/-- LB_GRANT (R313), AB_CTL.EN 1 and FAIR 0: on an idle bus the first enabled requester other than the last one granted is
granted; a busy bus changes nothing. LB_OUTBOUND_BEAT (R312, R314): on an idle bus the next beat, posted or of a read, is
counted and driven at its region's local address; an access of Dennil to W2, which a MEMORY_REQUEST of its own brings, waits
for its turn. LB_TRANSACTION_END, LB_NORESP_TIMEOUT (R318 to R320): the device's beat ends with data, TERR or NORESP; RETRY_N
on it, or any of them on an idle bus, changes nothing; an external master's grant is withdrawn. A failure with a free log
slot is counted, logged lowest first, sets AB_EVT.ERR and fires AB_ERR. LOCKED_SEQUENCE (R317): a first 4-byte Swap whose
beats are ready drives read and write between LOCK_N's edges, completes with the old value and leaves; with none waiting
nothing changes. FetchAdd writes the sum, Swap its operand, CAS its second operand where the old value equals the first.
LB_INBOUND_WRITE (R321): in a window, by the granted master, with DMA allowed and under 32 beats waiting, it enters the write
buffer, which drains, and is answered ready; without DMA it is logged HOST_OFF, counted, dropped and answered ready; outside
every window it, and a read, changes nothing. LB_INBOUND_READ (R322): without a match, with DMA allowed, it takes the lowest
free entry and is retried; a repeat whose entry has data and no earlier beat waiting returns it and frees the entry.
DELAYED_READ_COMPLETE, DELAYED_READ_DISCARD (R322): a completion fills its entry; a filled entry is freed, counted, with its
event. AB_LOG_INFO_READ (R320) returns the word and clears VALID, and no other register. SIDEBAND_SAMPLE (R325), EN 1: a
sample at the present levels changes only the sample held; a change not selected only moves the level. AB_PARAMS,
AB_LOAD_PROFILE (R326): accepted, nothing open, an allowed configuration is written (of a profile with AB_CTL.EN set) and the
command completes. -/
def Obligations.AbutmentRowsComplete : Prop :=
  (∀ (r0 r1 : Bool) (s : State) (m : Nat) (req : List Nat), fbit s fAB_CTL_EN = true → s.ab.bus = .idle → fget s fAB_CTL_FAIR = 0 →
    req = ((if r0 then [0] else []) ++ if r1 then [1] else []).filter (fun m => bit (fget s fAB_CTL_M_EN) m) →
    req.find? (fun x => x != s.ab.lastExt) = some m → exec (.lbGrant r0 r1) s =
      .next (emit (updAb (fun a => { a with bus := .ext m, lastExt := m, extRun := if abWaiting s then a.extRun + 1 else 0 }) s) (.pin "LB_GNT_N" m false))) ∧
  (∀ (r0 r1 : Bool) (s : State), s.ab.bus ≠ .idle → exec (.lbGrant r0 r1) s = .next s) ∧
  (∀ (s : State) (b : AbBeat) (r : Nat), s.ab.bus = .idle → abNext s = some (true, b) → abRegion s b.off = some r →
    exec .lbOutboundBeat s = .next (emit (updAb (fun a => { a with bus := .posted, extRun := 0 }) (cnt s AB_CNT_OUT_WR))
      (.localBus true (abLocal s r b.off) b.be b.data))) ∧
  (∀ (s : State) (b : AbBeat) (r : Nat) (q : AbReq) (l : List AbReq), s.ab.bus = .idle → abNext s = some (false, b) → s.ab.reqs = q :: l →
    q.write = false → abRegion s b.off = some r → exec .lbOutboundBeat s =
      .next (emit (updAb (fun a => { a with bus := .req, extRun := 0 }) (cnt s AB_CNT_OUT_RD))
        (.localBus false (abLocal s r b.off) b.be b.data))) ∧
  (∀ (dw : BitVec 34) (d : List Byte) (tag : BitVec 10) (po : Bool) (k : ReadCheck) (s : State),
    exec (.memoryRequest .dennil .read dw 1 15 0 d tag po k) s = .next (abAccess .dennil 0 (4 * dw.toNat) 4 [] false none s) ∧
    exec (.memoryRequest .dennil .write dw 1 15 0 d tag po k) s =
      .next (abAccess .dennil 0 (4 * dw.toNat) 4 (fit 4 d) true none s)) ∧
  (∀ (s : State) (off r : Nat), abRegion s off = some r → r < 8 ∧ fbit s fAB_REG_CTL_EN (abo r) = true ∧
    rdn s (AB_REG_BASE + abo r) ≤ off ∧ off < rdn s (AB_REG_BASE + abo r) + rdn s (AB_REG_SIZE + abo r)) ∧
  (∀ (d : Word) (s : State), (s.ab.bus = .posted ∨ s.ab.bus = .req) →
    exec (.lbTransactionEnd 0 d) s = .next (beatEnd (some d.toNat) 0 s) ∧ exec (.lbTransactionEnd 1 d) s = .next (beatEnd none lbTERR s) ∧
    exec .lbNorespTimeout s = .next (beatEnd none lbNORESP s) ∧
    exec (.lbTransactionEnd 2 d) s = .next s) ∧
  (∀ (i : Fin 3) (d : Word) (s : State), s.ab.bus = .idle →
    exec (.lbTransactionEnd i d) s = .next s ∧ exec .lbNorespTimeout s = .next s) ∧
  (∀ (s : State) (b : AbBeat) (l : List AbBeat), s.ab.bus = .posted → s.ab.posted = b :: l →
    beatEnd (some 0) 0 s = abRun (postedDone (updAb (fun a => { a with bus := .idle }) s))) ∧
  (∀ (i : Fin 3) (d : Word) (m : Nat) (s : State), s.ab.bus = .ext m → exec (.lbTransactionEnd i d) s =
    .next (emit (updAb (fun a => { a with bus := .idle }) s) (.pin "LB_GNT_N" m true))) ∧
  (∀ (addr m r code : Nat) (w : Bool) (s : State) (i : Nat), (List.range 8).find? (fun i => !fbit s fAB_LOG_INFO_VALID (i * 0x10)) = some i →
    abFail addr w m r code s = emFire 0x39 (evt (wrn (wrn (wrn (cnt s AB_CNT_ERR) (AB_LOG_ADDR + i * 0x10) addr)
      (AB_LOG_STAMP + i * 0x10) (now s)) (AB_LOG_INFO + i * 0x10)
      (2 ^ 31 + (if w then 2 ^ 30 else 0) + m * 2 ^ 28 + r * 2 ^ 24 + code)) fAB_EVT_ERR)) ∧
  (∀ (v n : Nat) (s : State) (q : AbReq) (b : AbBeat) (r : Nat), s.ab.bus = .idle → s.ab.reqs = [q] → s.ab.posted = [] → q.after = 0 →
    q.atomic = some (1, [n]) → q.len = 4 → q.beats = [b] → q.void = false → q.fail = none → q.write = false → q.got = [] →
    q.off % 4 = 0 → abRegion s b.off = some r → v < 2 ^ 32 → ∃ u, exec (.lockedSequence [(0, v), (0, 0)]) s = .next u ∧
    u.outbox = .completion q.ag q.tag 0 (leBytes 4 v) false :: .pin "LOCK_N" 0 true ::
      .localBus true (abLocal s r b.off) b.be (n % 2 ^ 32) :: .localBus false (abLocal s r b.off) b.be b.data ::
      .pin "LOCK_N" 0 false :: s.outbox ∧ u.ab.reqs = []) ∧
  (∀ (resp : List (Nat × Nat)) (s : State), s.ab.reqs = [] → exec (.lockedSequence resp) s = .next s) ∧
  (∀ (old x size : Nat), atomicNew 0 [x] old size = some ((old + x) % 2 ^ (8 * size)) ∧ atomicNew 1 [x] old size = some x) ∧
  (∀ (old c x size : Nat), atomicNew 2 [c, x] old size = if old = c then some x else none) ∧
  (∀ (m : Fin 2) (a d : Word) (be : BitVec 4) (w : Nat) (s : State), abWindow s a.toNat = some w → s.ab.bus = .ext m.val →
    canDma s = true → s.ab.inbuf.length < 32 → exec (.lbInboundWrite m a be d) s =
      .next (emit (inDrain (s.ab.inbuf ++ [⟨abHost s w (a.toNat / 4 * 4), be.toNat, d.toNat⟩]) s) (.pin "LB_RDY_N" 0 false))) ∧
  (∀ (m : Fin 2) (a d : Word) (be : BitVec 4) (w : Nat) (s : State), abWindow s a.toNat = some w → s.ab.bus = .ext m.val →
    canDma s = false → exec (.lbInboundWrite m a be d) s = .next (emit (evt (abFail a.toNat true (2 + m.val) w lbHOST_OFF
      (cnt s AB_CNT_IN_DROP)) fAB_EVT_IN_DROP) (.pin "LB_RDY_N" 0 false))) ∧
  (∀ (m : Fin 2) (a d : Word) (be : BitVec 4) (s : State), abWindow s a.toNat = none →
    exec (.lbInboundWrite m a be d) s = .next s ∧ exec (.lbInboundRead m a be) s = .next s) ∧
  (∀ (m : Fin 2) (a : Word) (be : BitVec 4) (w i : Nat) (s : State), abWindow s a.toNat = some w → s.ab.bus = .ext m.val →
    drMatch s m.val a.toNat be.toNat = none → canDma s = true → (List.range 8).find? (fun i => (s.ab.dr.getD i none).isNone) = some i →
    ∀ d : AbRead, d = ⟨a.toNat, be.toNat, m.val, w, s.ab.posted.length, none, none⟩ → exec (.lbInboundRead m a be) s =
      .next (lbRetry (drIssue i (updAb (fun x => { x with dr := upd x.dr i (fun _ => some d) }) s)))) ∧
  (∀ (m : Fin 2) (a : Word) (be : BitVec 4) (w i v : Nat) (d : AbRead) (s : State), abWindow s a.toNat = some w → s.ab.bus = .ext m.val →
    drMatch s m.val a.toNat be.toNat = some i → s.ab.dr.getD i none = some d → d.result = some (some v) → d.after = 0 →
    exec (.lbInboundRead m a be) s =
      .next (emit (emit (drFree i s) (.localBus false a.toNat be.toNat v)) (.pin "LB_RDY_N" 0 false))) ∧
  (∀ (i : Fin 8) (v : Word) (s : State) (d : AbRead) (t : Nat) (r : NpReq), s.ab.dr.getD i.val none = some d → d.tag = some t →
    npOf s t = some r → r.void = false → r.owner = .delayed i.val → r.tag = t →
    exec (.delayedReadComplete i 0 v) s = .next (drFill i.val (some v.toNat) (npEnd t s))) ∧
  (∀ (i : Fin 8) (s : State) (d : AbRead), s.ab.dr.getD i.val none = some d → d.result.isSome = true →
    exec (.delayedReadDiscard i) s = .next (evt (cnt (drFree i.val s) AB_CNT_DR_DISCARD) fAB_EVT_DR_DISCARD)) ∧
  (∀ (ag : Agent) (i : Fin 8) (s : State), ∃ t, exec (.abLogInfoRead ag i) s = .next t ∧
    t.outbox = .readData ag (rdn s (AB_LOG_INFO + i.val * 0x10)) :: s.outbox ∧ fbit t fAB_LOG_INFO_VALID (i.val * 0x10) = false ∧
    (∀ a, a ≠ AB_LOG_INFO + i.val * 0x10 → rdn t a = rdn s a)) ∧
  (∀ (l : BitVec 16) (s : State), fbit s fAB_SB_CTL_EN = true → (∀ k, k < 16 → bit l.toNat k = bit (rdn s AB_SB_LEVEL) k) →
    exec (.sidebandSample l) s = .next (updAb (fun a => { a with sbLast := l.toNat }) s)) ∧
  (∀ (k : Nat) (v : Bool) (s : State), bit (rdn (regBit s AB_SB_LEVEL k v) AB_SB_EDGE) (2 * k + if v then 0 else 1) = false →
    sbChange k v s = regBit s AB_SB_LEVEL k v) ∧
  (∀ (sp : CmdSpec) (c : CmdCall) (s u : State), sp = ⟨0x1190, 0x10, true, 216, 216, false, true⟩ → Accepted sp c s →
    u = mbTake c s → abOpen u = false → abValid (putWords (abParamWrites c.payload) u) = true →
    exec (.abParams c) s = .next (completeCmd sp c 0 0 [] (abRun (putWords (abParamWrites c.payload) u)))) ∧
  (∀ (sp : CmdSpec) (c : CmdCall) (s u : State) (p : Profile), sp = ⟨0x1110, 0x10, false, 8, 8, false, true⟩ → Accepted sp c s →
    u = mbTake c s → findProfile u 0x11 0 = some p → abOpen u = false → abValid (putWords (p.writes.filter inAb) u) = true →
    exec (.abLoadProfile c) s = .next (completeCmd sp c 0 0 [] (fbset (abRun (putWords (p.writes.filter inAb) u)) fAB_CTL_EN true)))

/-! ## The evidence store (chapter 18) -/

/-- In a store that runs. CODEWORD_READ (R329, R330) is charged; a ladder step counts; an uncorrectable codeword has its
partition's effect, is counted and detected; outside EVID a block past the refresh bounds that is not on the refresh list
joins it, and else nothing more happens. NAND_PROGRAM_DONE, NAND_ERASE_DONE (R331) are charged; the last good program of an
image completes it; a failed one makes the block bad, or without a BOOT spare fails the image. PATROL_PASS (R343), enabled:
the start sets PATROL, the end of a running pass clears it with its event. BLOCK_REFRESH (R343): a listed block outside EVID
leaves the list, charged, counted, with the event, and goes bad where its source was uncorrectable. CAL_COMPACTION (R341):
exactly the entries in use stay, TYPE rising. ERASE_CREDIT_ACCRUE (R344): the balance grows by the rate up to its cap,
GRANTED by the rate, only registers change, and granted = spent + balance + forfeited (modulo 2^64) is kept. EVIDENCE_WRITE
(R345 to R349), the store READY and enabled: the oldest due record is dropped for a failed copy, for want of EVID_WR's
budget, or of credits for the superblock it needs; else it goes into the open superblock or the next one. A record put adds
its length and itself to its superblock; its bytes are 64 and the padded tile and begin with magic, length and ID.
LOG_PERIODIC (R351): ten minutes of power more, no register changed. FAULT_RECORD (R404): the oldest waiting detection gets
its FAULT record. A log with room appends a record. EVID_READ, LOG_READ, EVID_CLEAR (R350, R353): accepted, held until the
medium has answered. EV_INFO (R353) completes with good blocks, WEAR, balance, oldest and newest SEQ. -/
def Obligations.EvidenceStoreRowsComplete : Prop :=
  (∀ (p : Fin 5) (i w b f : Nat) (k : Fin 9) (s v : State), evRunning s = true → v = maintCost p.val (1 + k.val) (1 + k.val) s →
    exec (.codewordRead p i w b k f true) s =
      .next (paDetect (0x80 + p.val) (evtCnt (uncorrectable p.val i w (if k.val ≠ 0 then cnt v EV_CNT_LADDER else v))
        fEV_EVT_UNCORR EV_CNT_UNCORR)) ∧
    (p.val = 4 ∨ b ∈ s.ev.refreshDue ∨ (f ≤ fget s fEV_PATROL_REFRESH_THR ∧ k.val < max 1 (fget s fEV_PATROL_REFRESH_STEP)) →
      exec (.codewordRead p i w b k f false) s = .next (if k.val ≠ 0 then cnt v EV_CNT_LADDER else v)) ∧
    (p.val < 4 → b ∉ s.ev.refreshDue → (fget s fEV_PATROL_REFRESH_THR < f ∨ max 1 (fget s fEV_PATROL_REFRESH_STEP) ≤ k.val) →
      ∃ t, exec (.codewordRead p i w b k f false) s = .next t ∧ t.ev.refreshDue = s.ev.refreshDue ++ [b] ∧
        t.regs = (if k.val ≠ 0 then cnt v EV_CNT_LADDER else v).regs)) ∧
  (∀ (p : Fin 5) (b : Nat) (last : Bool) (s : State), evRunning s = true → (p.val ≠ 0 ∨ last = false) →
    exec (.nandProgramDone p b true last) s = .next (maintCost p.val 1 1 s)) ∧
  (∀ (b : Nat) (s : State), evRunning s = true →
    exec (.nandProgramDone 0 b true true) s = .next (imageDone true (maintCost 0 1 1 s))) ∧
  (∀ (p : Fin 5) (b : Nat) (last : Bool) (s : State), evRunning s = true → (p.val ≠ 0 ∨ nth s.ev.spares 0 ≠ 0) →
    exec (.nandProgramDone p b false last) s = .next (markBad p.val b (maintCost p.val 1 1 s))) ∧
  (∀ (b : Nat) (last : Bool) (s : State), evRunning s = true → nth s.ev.spares 0 = 0 →
    exec (.nandProgramDone 0 b false last) s = .next (imageDone false (maintCost 0 1 1 s))) ∧
  (∀ (p : Fin 5) (b : Nat) (s : State), evRunning s = true →
    exec (.nandEraseDone p b true) s = .next (maintCost p.val 4 0 s) ∧
    exec (.nandEraseDone p b false) s = .next (markBad p.val b (maintCost p.val 4 0 s))) ∧
  (∀ s : State, evRunning s = true → fbit s fEV_CTL_EN = true → fbit s fEV_CTL_PATROL_EN = true →
    exec (.patrolPass false) s = .next (fbset s fEV_STAT_PATROL true) ∧ (fbit s fEV_STAT_PATROL = true →
      exec (.patrolPass true) s = .next (evt (fbset s fEV_STAT_PATROL false) fEV_EVT_PATROL_DONE))) ∧
  (∀ (p : Fin 5) (b : Nat) (s v : State), evRunning s = true → b ∈ s.ev.refreshDue → p.val ≠ 4 →
    v = evtCnt (maintCost p.val (2 * s.ev.hdr.blockCw + 4) (2 * s.ev.hdr.blockCw)
      { s with ev := { s.ev with refreshDue := s.ev.refreshDue.erase b } }) fEV_EVT_REFRESH EV_CNT_REFRESH →
    exec (.blockRefresh p b false) s = .next v ∧ exec (.blockRefresh p b true) s = .next (markBad p.val b v)) ∧
  (∀ (p : Fin 5) (b : Nat) (u : Bool) (s : State), b ∉ s.ev.refreshDue → exec (.blockRefresh p b u) s = .next s) ∧
  (∀ s : State, evRunning s = true → ∃ t, exec .calCompaction s = .next t ∧ t = { s with ev := { s.ev with cal := t.ev.cal } } ∧
    (∀ e, e ∈ t.ev.cal ↔ e ∈ s.ev.cal ∧ calInUse s e.type e.head e.phase = some e) ∧
    t.ev.cal.Pairwise (fun a b => a.type ≤ b.type)) ∧
  (∀ s : State, ∃ t, exec .eraseCreditAccrue s = .next t ∧
    reg64 t EV_CRED_BAL_LO = min (max 1 (fget s fEV_CRED_CAP_HOURS) * 3600000 * rdn s EV_CRED_RATE)
      (reg64 s EV_CRED_BAL_LO + rdn s EV_CRED_RATE) % 2 ^ 64 ∧
    reg64 t EV_CRED_GRANTED_LO = (reg64 s EV_CRED_GRANTED_LO + rdn s EV_CRED_RATE) % 2 ^ 64 ∧
    (∀ p : Comp, p ≠ .regs → p.same s t)) ∧
  (∀ s t : State, exec .eraseCreditAccrue s = .next t →
    reg64 s EV_CRED_GRANTED_LO = (reg64 s EV_CRED_SPENT_LO + reg64 s EV_CRED_BAL_LO + reg64 s EV_CRED_FORFEIT_LO) % 2 ^ 64 →
    reg64 t EV_CRED_GRANTED_LO = (reg64 t EV_CRED_SPENT_LO + reg64 t EV_CRED_BAL_LO + reg64 t EV_CRED_FORFEIT_LO) % 2 ^ 64) ∧
  (∀ (g e a : Nat) (s : State) (d : EvDue) (l : List EvDue) (k : ReadCheck) (u : State), s.ev.due = d :: l → evRunning s = true →
    fbit s fEV_CTL_EN = true → u = lp5Check k a { s with ev := { s.ev with due := l } } →
    (∀ cut, k = .failed → exec (.evidenceWrite g e cut ⟨k, a⟩) s = .next (evt (cnt u EV_CNT_DROP_STAGE) fEV_EVT_DROP)) ∧
    (∀ cut, k ≠ .failed → recShort s (recBytes s d).length cut = true →
      exec (.evidenceWrite g e cut ⟨k, a⟩) s = .next (evt (cnt (tollShort u 34 true) EV_CNT_DROP_TOLL) fEV_EVT_DROP)) ∧
    (∀ cut, k ≠ .failed → recShort s (recBytes s d).length cut = false → sbFits u (recBytes s d).length = true →
      exec (.evidenceWrite g e cut ⟨k, a⟩) s = .next (recPut d (recBytes s d) (tollBegin u 34 (recCosts (recBytes s d).length)))) ∧
    (∀ (cut : Bool) (v : State), k ≠ .failed → recShort s (recBytes s d).length cut = false → sbFits u (recBytes s d).length = false →
      v = ringRegs { u with ev := { u.ev with isOpen := false } } →
      (g = 0 ∨ reg64 v EV_CRED_BAL_LO < g * 2 ^ 32 →
        exec (.evidenceWrite g e cut ⟨k, a⟩) s = .next (evt (cnt v EV_CNT_DROP_CRED) fEV_EVT_DROP)) ∧
      (g ≠ 0 → g * 2 ^ 32 ≤ reg64 v EV_CRED_BAL_LO → exec (.evidenceWrite g e cut ⟨k, a⟩) s = .next (recPut d (recBytes s d)
        (tollBegin (tollBegin (sbOpen g e v) 34 [(3, 4 * g + 1)]) 34 (recCosts (recBytes s d).length)))))) ∧
  (∀ (g e a : Nat) (c : Bool) (k : ReadCheck) (s : State), s.ev.due = [] → exec (.evidenceWrite g e c ⟨k, a⟩) s = .next s) ∧
  (∀ (d : EvDue) (bs : List Byte) (s : State) (b : EvSb), s.ev.sbs.getLast? = some b → ∃ x, (recPut d bs s).ev.sbs.getLast? = some x ∧
    x.used = b.used + bs.length ∧ x.seq = b.seq ∧ x.recs = b.recs ++ [⟨d.id, d.stamp, s.ev.bootSeq, b.used / 64, bs, false⟩]) ∧
  (∀ (d : EvDue) (s : State), (recBytes s d).length = 64 + (d.tile.length + 63) / 64 * 64 ∧ u32At (recBytes s d) 0 = 0x4345525A ∧
    u32At (recBytes s d) 4 = (recBytes s d).length % 2 ^ 32 ∧ u32At (recBytes s d) 8 = d.id % 2 ^ 32) ∧
  (∀ s : State, evRunning s = true → dennilUp s = true → ∃ t, exec .logPeriodic s = .next t ∧ t.ev.powerMin = s.ev.powerMin + 10 ∧
    t.regs = s.regs) ∧
  (∀ (s : State) (x : Nat) (l : List Nat), s.pa.faultRecs = x :: l → dennilUp s = true → exec .faultRecord s =
    .next (logWrite { s with pa := { s.pa with faultRecs := l } } 3 (leBytes 2 x ++ leBytes 1 (paClass s x)))) ∧
  (∀ (k : Nat) (d : List Byte) (s : State) (n : Nat), fget s fEV_STAT_STATE = 2 → partRoom s.ev.hdr 4 = some n →
    s.ev.log.length < n / 64 →
    logWrite s k d = { s with ev := { s.ev with log := s.ev.log ++ [⟨k, s.ev.bootSeq, extTb1 s, fit 44 d⟩] } }) ∧
  (∀ (sp : CmdSpec) (c : CmdCall) (s u : State), sp = ⟨0x1210, 0x10, false, 48, 48, false, true⟩ → Accepted sp c s →
    u = mbTake c s → evRunning u = true → exec (.evidRead c) s = .next (holdDeferred sp c true false u)) ∧
  (∀ (sp : CmdSpec) (c : CmdCall) (s u : State), sp = ⟨0x1211, 0x10, false, 24, 24, false, true⟩ → Accepted sp c s →
    u = mbTake c s → evRunning u = true → exec (.logRead c) s = .next (holdDeferred sp c true false u)) ∧
  (∀ (sp : CmdSpec) (c : CmdCall) (s u : State), sp = ⟨0x1212, 0x10, false, 0, 0, false, true⟩ → Accepted sp c s →
    u = mbTake c s → evRunning u = true → exec (.evInfo c) s = .next (completeCmd sp c 0 0 (leBytes 4 u.ev.good ++
      leBytes 2 (fget u fEV_STAT_WEAR) ++ zeros 2 ++ leBytes 8 (reg64 u EV_CRED_BAL_LO) ++
      leBytes 8 ((u.ev.sbs.map (fun b => b.seq)).headD 0) ++ leBytes 8 ((u.ev.sbs.map (fun b => b.seq)).getLastD 0)) u)) ∧
  (∀ (sp : CmdSpec) (c : CmdCall) (s u : State), sp = ⟨0x1290, 0x10, true, 8, 8, false, true⟩ → Accepted sp c s →
    u = mbTake c s → evRunning u = true → exec (.evidClear c) s = .next (holdDeferred sp c true false u))

/-! ## Toll and the memory (chapter 19) -/

/-- TOLL_PERIOD_START (R366): with TO_CTL.EN 1, no commit pending, no host access waiting for Toll and no client short, the
period count grows by one, every available amount becomes the budget plus the leftover up to one budget, less what of it the
client still owes (log 23), and where nothing is owed nothing is spent. A spend takes its cost from the available amount and
adds it to the spent sum, and changes no other register; with EN 0 every cost is covered and none is taken. TOLL_COMMIT
(R370): by Dennil or under a lease it sets PEND; without one the write is refused. TOLL_RESCALE (R370): where the capacity is
overcommitted, the streaming budgets of the resource are scaled by the ratio of its capacities, all others written as they
stand, and the set is committed. A set that breaks no resource's admission rule is taken (and applied where asked), one that
breaks one is refused with the first it breaks (R368). TOLL_SET and TOLL_LOAD_PROFILE (R372): accepted, with a set that
breaks nothing, they complete with the set admitted (TOLL_SET only where its flag asks for it). LP5X_CHANNEL_LOST (R359): a
channel in use that has met enough errors in the second or failed its retraining is lost, with its bit set in MM_STAT.LOST
and cleared in MM_STAT.USE; one not in use, or with neither, changes nothing. SCRUB_PASS (R358): enabled, it charges client
42, counts every line it names and sets SCRUB_DONE; disabled, it changes nothing. A take of blocks that a pool has moves them
from FREE to held, and LOW becomes the least since its last read (log 82); a give of blocks that are held moves them back
(R360, R361). MEM_INFO (R372): accepted it completes with the capacity, the reserved base, the channels in use and the pools.
POOL_SET (R372): accepted, with the pools' users disabled and the sizes fitting, it completes with each pool's TOTAL at its
size, and FREE and LOW at that less the held blocks. -/
def Obligations.TollAndMemoryRowsComplete : Prop :=
  (∀ s : State, fbit s fTO_CTL_PEND = false → fbit s fTO_CTL_EN = true → s.he.w1 = [] → s.toll.short = [] → ∃ t, exec .tollPeriodStart s = .next t ∧
    (∀ k g, k < 4 * tollClients → smGet s.toll.budget k 0 < 2 ^ 24 →
      g = smGet s.toll.budget k 0 + min (rdn s (TO_AVAIL + 4 * k)) (smGet s.toll.budget k 0) →
      rdn t (TO_AVAIL + 4 * k) = g - min (smGet s.toll.owed k 0) g) ∧
    rdn t TO_PERIOD = (rdn s TO_PERIOD + 1) % 2 ^ 32 ∧ (s.toll.owed = [] → t.toll.spent = s.toll.spent)) ∧
  (∀ (s : State) (c r n : Nat), fbit s fTO_CTL_EN = true → tollCovers s c r n = true → (∀ t, t = tollTake s c r n →
    rdn t (TO_AVAIL + tollOfs c r) + n = rdn s (TO_AVAIL + tollOfs c r) ∧
    smGet t.toll.spent (4 * c + r) 0 = (smGet s.toll.spent (4 * c + r) 0 + n) % 2 ^ 64 ∧
    (∀ a, a ≠ TO_AVAIL + tollOfs c r → rdn t a = rdn s a))) ∧
  (∀ (s : State) (c r n : Nat), fbit s fTO_CTL_EN = false → tollCovers s c r n = true ∧ tollTake s c r n = s) ∧
  (∀ (ag : Agent) (s : State), (ag = .dennil ∨ leased s 0x13 none = true) →
    exec (.tollCommit ag) s = .next (fbset s fTO_CTL_PEND true)) ∧
  (∀ s : State, leased s 0x13 none = false → exec (.tollCommit .host) s = .next (noLease s)) ∧
  (∀ (r : Fin 4) (s : State), bit (fget s fTO_STAT_OVER) r.val = true → nth s.toll.prevCap r.val ≠ 0 →
    ∃ t, exec (.tollRescale r) s = .next t ∧ fbit t fTO_CTL_PEND = true ∧
      (∀ k, k < 4 * tollClients → k % 4 = r.val → k / 4 < 35 → rdn t (TO_BUD + 4 * k) =
        smGet s.toll.budget k 0 * tollCap s r.val / nth s.toll.prevCap r.val % 2 ^ 24) ∧
      (∀ k, k < 4 * tollClients → k % 4 ≠ r.val → rdn t (TO_BUD + 4 * k) = smGet s.toll.budget k 0 % 2 ^ 24)) ∧
  (∀ (b : Nat → Nat) (s : State), (∀ r, r < 4 → setBreaks s b r = false) →
    trySet true b s = (admitSet b s, .ok []) ∧ trySet false b s = (s, .ok [])) ∧
  (∀ (a : Bool) (b : Nat → Nat) (s : State) (r : Nat), (List.range 4).find? (setBreaks s b) = some r →
    trySet a b s = (s, .refuse eRANGE r)) ∧
  (∀ (sp : CmdSpec) (c : CmdCall) (s u : State), sp = ⟨0x1390, 0x10, true, 724, 724, false, true⟩ → Accepted sp c s →
    u = mbTake c s → (∀ r, r < 4 → setBreaks u (fun k => pd c (4 + 4 * k)) r = false) → exec (.tollSet c) s =
      .next (completeCmd sp c 0 0 [] (if bit (pb c 0) 0 then admitSet (fun k => pd c (4 + 4 * k)) u else u))) ∧
  (∀ (sp : CmdSpec) (c : CmdCall) (s u : State) (p : Profile) (b : Nat → Nat), sp = ⟨0x1310, 0x10, false, 8, 8, false, true⟩ →
    Accepted sp c s → u = mbTake c s → findProfile u 0x13 (pb c 0) = some p →
    b = (fun k => ((p.writes.find? (fun w => w.1 = TO_BUD + 4 * k)).map (fun w => w.2)).getD 0) →
    (∀ r, r < 4 → setBreaks u b r = false) → exec (.tollLoadProfile c) s = .next (completeCmd sp c 0 0 [] (admitSet b u))) ∧
  (∀ (ch : Fin 8) (rt : Bool) (f o : List Nat) (c : List (Nat × Nat)) (t : List (Nat × Nat × Nat)) (s : State),
    bit (fget s fMM_STAT_USE) ch.val = true → (rt = true ∨ ueReached s ch.val = true) →
    exec (.lp5xChannelLost ch rt f o c t) s = .next (channelLost ch.val ⟨f, o, c, t⟩ s)) ∧
  (∀ (ch : Fin 8) (rt : Bool) (f o : List Nat) (c : List (Nat × Nat)) (t : List (Nat × Nat × Nat)) (s : State),
    bit (fget s fMM_STAT_USE) ch.val = false → exec (.lp5xChannelLost ch rt f o c t) s = .next s) ∧
  (∀ (ch : Fin 8) (f o : List Nat) (c : List (Nat × Nat)) (t : List (Nat × Nat × Nat)) (s : State), ueReached s ch.val = false →
    exec (.lp5xChannelLost ch false f o c t) s = .next s) ∧
  (∀ (ch : Nat) (l : ChannelLoss) (s : State), ch < 8 → ∃ t, channelLost ch l s = t ∧ bit (fget t fMM_STAT_USE) ch = false ∧
    bit (fget t fMM_STAT_LOST) ch = true) ∧
  (∀ (ce ue : List Nat) (s : State), fbit s fMM_SCRUB_EN = true → exec (.scrubPass ce ue) s =
    .next (evt (forEach ue (fun a t => lp5Ue t a) (forEach ce (fun a t => lp5Ce t a)
      (tollBegin s 42 [(0, lp5Usable s / 64 + ce.length)]))) fMM_EVT_SCRUB_DONE)) ∧
  (∀ (ce ue : List Nat) (s : State), fbit s fMM_SCRUB_EN = false → exec (.scrubPass ce ue) s = .next s) ∧
  (∀ (s : State) (p n : Nat), p < 5 → s.mem.held.length = 5 → poolCan s p n = true →
    rdn (poolTake s p n) (MM_POOL_FREE + p * 16) + n = rdn s (MM_POOL_FREE + p * 16) ∧ poolHeld (poolTake s p n) p = poolHeld s p + n ∧
    rdn (poolTake s p n) (MM_POOL_LOW + p * 16) =
      min (if p ∈ s.mem.lowClear then rdn s (MM_POOL_FREE + p * 16) else rdn s (MM_POOL_LOW + p * 16))
        (rdn s (MM_POOL_FREE + p * 16) - n)) ∧
  (∀ (s : State) (p n : Nat), p < 5 → s.mem.held.length = 5 → n ≤ poolHeld s p →
    rdn s (MM_POOL_FREE + p * 16) + n < 2 ^ 32 → rdn (poolGive s p n) (MM_POOL_FREE + p * 16) = rdn s (MM_POOL_FREE + p * 16) + n ∧
    poolHeld (poolGive s p n) p + n = poolHeld s p) ∧
  (∀ (sp : CmdSpec) (c : CmdCall) (s u : State), sp = ⟨0x1311, 0x10, false, 0, 0, false, true⟩ → Accepted sp c s →
    u = mbTake c s → exec (.memInfo c) s = .next (completeCmd sp c 0 0 (leBytes 2 (fget u fMM_CAP_C) ++
      leBytes 2 (fget u fMM_CAP_USABLE) ++ leBytes 4 (rdn u MM_RSV_BASE) ++ leBytes 1 (fget u fMM_STAT_USE) ++ zeros 3 ++
      (List.range 5).flatMap (fun p => leBytes 4 (rdn u (MM_POOL_FREE + p * 16)) ++ leBytes 4 (rdn u (MM_POOL_TOTAL + p * 16)))) u)) ∧
  (∀ (sp : CmdSpec) (c : CmdCall) (s u : State), sp = ⟨0x1391, 0x10, true, 20, 20, false, true⟩ → Accepted sp c s →
    u = mbTake c s → poolsQuiet u = true → (∀ p, p < 5 → poolHeld u p ≤ pd c (4 * p) ∧ pd c (4 * p) < 2 ^ 23) →
    rsvBase u + 80 * 1048576 + (pd c 0 + pd c 4 + pd c 8 + pd c 12 + pd c 16) * 4096 ≤ lp5Usable u →
    ∃ t, exec (.poolSet c) s = .next (completeCmd sp c 0 0 [] t) ∧ (∀ p, p < 5 → rdn t (MM_POOL_TOTAL + p * 16) = pd c (4 * p) ∧
      rdn t (MM_POOL_FREE + p * 16) = pd c (4 * p) - poolHeld u p ∧ rdn t (MM_POOL_LOW + p * 16) = pd c (4 * p) - poolHeld u p))

/-! ## The event matrix (chapter 20) -/

/-- EM_INPUT_EDGE (R380): a level that does not change changes nothing; a change moves EM_IN_LEVEL and, enabled and on a
selected edge, fires the input's producer, and disabled nothing more. EM_OUT_PULSE_END (R382): a busy output becomes inactive
and its ball goes to the inactive level; one that is not busy stays. EM_FIRE_WRITE (R379): by Dennil or under a lease it
fires the producer. A firing does nothing while EM_CTL.EN is 0 or its producer is tripped; else it counts, and with one route
it also runs that route's task (R378, R383). STORM_TRIP (R383): enabled, a producer that is not tripped and has fired more
than COUNT times is tripped, counted, with the event and the detection. EM_TRIP_CLEAR (R383): by Dennil or under a lease it
clears exactly the bits it names. CELL_CLEAR (R381): by Dennil or under a lease V and F become 0, and the outputs that follow
the cell follow it. CELL_FIRE (R381): a disabled cell changes nothing; an enabled one without a filter takes its waiting
events, V and F become the value of the evaluation, the outputs that follow it follow it, and the cell's producer fires as
EDGE selects. EM_FIRE, EM_LOAD_PROFILE, EM_ROUTE_LOAD (R385): accepted, EM_FIRE of a producer 50h to 5Fh fires it and
completes; a stored profile's matrix words are written, EM_CTL.EN set and the command completes; 1 to 64 routes below 256 are
read from the host and written, no component but the registers differing from what the read leaves, and the command
completes. -/
def Obligations.MatrixRowsComplete : Prop :=
  (∀ (k : Fin 16) (x : Bool) (s : State), bit (rdn s EM_IN_LEVEL) k.val = (x != fbit s fEM_IN_CFG_POL (k.val * 4)) →
    exec (.emInputEdge k x) s = .next s) ∧
  (∀ (k : Fin 16) (x l : Bool) (s u : State), l = (x != fbit s fEM_IN_CFG_POL (k.val * 4)) → bit (rdn s EM_IN_LEVEL) k.val ≠ l →
    u = regBit s EM_IN_LEVEL k.val l →
    (fbit s fEM_IN_CFG_EN (k.val * 4) = true → bit (fget s fEM_IN_CFG_EDGE (k.val * 4)) (if l then 0 else 1) = true →
      exec (.emInputEdge k x) s = .next (emFire k.val u)) ∧
    (fbit s fEM_IN_CFG_EN (k.val * 4) = false → exec (.emInputEdge k x) s = .next u)) ∧
  (∀ (k : Fin 16) (s : State), fbit s fEM_OUT_STAT_BUSY (k.val * 8) = true → ∃ t, exec (.emOutPulseEnd k) s = .next t ∧
    fbit t fEM_OUT_STAT_BUSY (k.val * 8) = false ∧ fbit t fEM_OUT_STAT_ACTIVE (k.val * 8) = false ∧
    t.outbox = .pin "EM_OUT" k.val (fbit s fEM_OUT_CFG_POL (k.val * 8)) :: s.outbox) ∧
  (∀ (k : Fin 16) (s : State), fbit s fEM_OUT_STAT_BUSY (k.val * 8) = false → exec (.emOutPulseEnd k) s = .next s) ∧
  (∀ (ag : Agent) (p : Fin 256) (s : State), (ag = .dennil ∨ leased s 0x14 none = true) →
    exec (.emFireWrite ag p) s = .next (emFire p.val s)) ∧
  (∀ (p : Nat) (s : State), fbit s fEM_CTL_EN = false → emFire p s = s) ∧
  (∀ (p : Nat) (s : State), emTripped s p = true → emFire p s = s) ∧
  (∀ (p : Nat) (s : State), fbit s fEM_CTL_EN = true → emAssigned p = true → emTripped s p = false → emRoutes s p = [] →
    emFire p s = emCount p s) ∧
  (∀ (p c : Nat) (s : State), fbit s fEM_CTL_EN = true → emAssigned p = true → emTripped s p = false → emRoutes s p = [c] →
    emFire p s = emTask paDetect c (emCount p s)) ∧
  (∀ (p : Fin 256) (s : State), fbit s fEM_GUARD_EN = true → emTripped s p.val = false →
    max 1 (fget s fEM_GUARD_COUNT) < emFirings s p.val → exec (.stormTrip p) s = .next (paDetect 0x52
      (evtCnt (regBit s (EM_TRIP + p.val / 32 * 4) (p.val % 32) true) fEM_EVT_STORM EM_CNT_TRIP))) ∧
  (∀ (ag : Agent) (w : Fin 8) (m : Word) (s : State), (ag = .dennil ∨ leased s 0x14 none = true) → ∃ t,
    exec (.emTripClear ag w m) s = .next t ∧ (∀ i, i < 32 → bit (rdn t (EM_TRIP + 4 * w.val)) i =
      (bit (rdn s (EM_TRIP + 4 * w.val)) i && !bit m.toNat i)) ∧ (∀ a, a ≠ EM_TRIP + 4 * w.val → rdn t a = rdn s a)) ∧
  (∀ (ag : Agent) (k : Fin 32) (s : State), (ag = .dennil ∨ leased s 0x14 none = true) →
    exec (.cellClear ag k) s = .next (outFollow k.val (wrn s (EM_CELL_STAT + k.val * 0x10) 0))) ∧
  (∀ (k : Fin 32) (s : State), fbit s fEM_CELL_CTL_EN (k.val * 0x10) = false → exec (.cellFire k) s = .next s) ∧
  (∀ (k : Fin 32) (s u : State) (v f : Bool), fbit s fEM_CELL_CTL_EN (k.val * 0x10) = true → fget s fEM_CELL_CTL_FILT (k.val * 0x10) = 0 →
    v = cellNext s k.val true (fbit s fEM_CELL_STAT_V (k.val * 0x10)) → f = cellF s k.val →
    u = outFollow k.val (fbset (fbset { s with em := { s.em with cellEv := smPut s.em.cellEv k.val 0 0 } }
      fEM_CELL_STAT_V v (k.val * 0x10)) fEM_CELL_STAT_F v (k.val * 0x10)) →
    exec (.cellFire k) s = .next (if (fget s fEM_CELL_CTL_EDGE (k.val * 0x10) = 0 ∧ v = true) ∨
      (fget s fEM_CELL_CTL_EDGE (k.val * 0x10) = 1 ∧ v = true ∧ f = false) ∨
      (fget s fEM_CELL_CTL_EDGE (k.val * 0x10) = 2 ∧ v = false ∧ f = true) ∨
      (fget s fEM_CELL_CTL_EDGE (k.val * 0x10) = 3 ∧ v ≠ f) then emFire (0x10 + k.val) u else u)) ∧
  (∀ (sp : CmdSpec) (c : CmdCall) (s u : State), sp = ⟨0x1411, 0x10, false, 8, 8, false, true⟩ → Accepted sp c s →
    u = mbTake c s → 0x50 ≤ pb c 0 → pb c 0 ≤ 0x5F → exec (.emFire c) s = .next (completeCmd sp c 0 0 [] (emFire (pb c 0) u))) ∧
  (∀ (sp : CmdSpec) (c : CmdCall) (s u : State) (p : Profile), sp = ⟨0x1410, 0x10, false, 8, 8, false, true⟩ → Accepted sp c s →
    u = mbTake c s → findProfile u 0x14 (pb c 0) = some p → exec (.emLoadProfile c) s =
      .next (completeCmd sp c 0 0 [] (fbset (forEach (p.writes.filter inEm) (fun w t => emPut w.1 w.2 t) u) fEM_CTL_EN true))) ∧
  (∀ (sp : CmdSpec) (c : CmdCall) (s u : State), sp = ⟨0x1490, 0x10, true, 16, 16, false, true⟩ → Accepted sp c s →
    u = mbTake c s → 1 ≤ pb c 1 → pb c 1 ≤ 64 → pb c 0 + pb c 1 ≤ 256 → hostCanRead c u = true → ∃ t, exec (.emRouteLoad c) s = .next (completeCmd sp c 0 0 [] t) ∧
      (∀ i w, i < pb c 1 → w < 6 → rdn t (EM_ROUTE + (pb c 0 + i) * 0x20 + 4 * w) = u32At c.data (24 * i + 4 * w)) ∧
      (∀ p : Comp, p ≠ .regs → p.same (hostRead c (pq c 8) (24 * pb c 1) u) t))

/-! ## Parapet (chapter 22) -/

/-- FAULT_DETECT (R397): a source that R396 assigns, other than 042h, asserts while its condition holds and is detected; an
unassigned number changes nothing. PARAPET_NOTICE_RECEIVE (R403): a well-formed notice is recorded with its event, and one
that carries SAFE detects source 00Ch where PA_CTL.NBR_SAFE is 1; without SAFE it is only recorded. SUPPLY_EXCURSION (R435):
the rail's source asserts and is detected. TJ_WARN (R450): Tj is kept; above WARN source 018h asserts and is detected unless
it asserts already; at 5 °C or more below WARN it ceases to assert; between, nothing more. TJ_CRITICAL (R450): Tj is kept;
above 158 °C source 019h asserts and is detected, else nothing more. AUDIT_PASS (R415): where every identity holds, a pass is
counted, the terms are latched and LI_STAT is 0; where some do not and no Function Level Reset is under way, LI_STAT names
exactly them, LI_WHERE and LI_DIFF the first instance, and each is reported. -/
def Obligations.DetectionsComplete : Prop :=
  (∀ (x : Fin 512) (h : Bool) (s : State), paAssigned x.val = true → x.val ≠ 0x42 →
    exec (.faultDetect x h) s = .next (paDetect x.val (setAssert x.val h s))) ∧
  (∀ (x : Fin 512) (h : Bool) (s : State), paAssigned x.val = false → exec (.faultDetect x h) s = .next s) ∧
  (∀ (p : List Byte) (s u : State), byteAt p 0 = 0x10 → byteAt p 1 = 0x50 → 16 ≤ p.length →
    u = evt (wrn (wrn s PA_NBR (u16At p 6 % 1024 * 2 ^ 22 + byteAt p 5 % 2 * 2 ^ 21 + byteAt p 5 / 2 % 2 * 2 ^ 20 +
      byteAt p 4 % 4 * 2 ^ 18 + u16At p 2 % 512)) PA_NBR_STAMP (u32At p 8)) fPA_EVT_NBR →
    (bit (byteAt p 5) 0 = false → exec (.parapetNoticeReceive p) s = .next u) ∧
    (bit (byteAt p 5) 0 = true → fbit s fPA_CTL_NBR_SAFE = true → exec (.parapetNoticeReceive p) s = .next (paDetect 0xC u))) ∧
  (∀ (r : Fin 8) (s : State), exec (.supplyExcursion r) s = .next (paDetect (0x10 + r.val) (setAssert (0x10 + r.val) true s))) ∧
  (∀ (tj : BitVec 16) (s u : State), u = fset s fPA_THERM_TJ tj.toNat →
    ((fget s fPA_THERM_WARN * 16 : Nat) < tj.toInt → 0x18 ∉ s.pa.asserting →
      exec (.tjWarn tj) s = .next (paDetect 0x18 (setAssert 0x18 true u))) ∧
    ((fget s fPA_THERM_WARN * 16 : Nat) < tj.toInt → 0x18 ∈ s.pa.asserting → exec (.tjWarn tj) s = .next u) ∧
    (tj.toInt ≤ (fget s fPA_THERM_WARN * 16 : Nat) - 80 → exec (.tjWarn tj) s = .next (setAssert 0x18 false u)) ∧
    ((fget s fPA_THERM_WARN * 16 : Nat) - 80 < tj.toInt → tj.toInt ≤ (fget s fPA_THERM_WARN * 16 : Nat) →
      exec (.tjWarn tj) s = .next u) ∧
    (2528 < tj.toInt → exec (.tjCritical tj) s = .next (paDetect 0x19 (setAssert 0x19 true u))) ∧
    (tj.toInt ≤ 2528 → exec (.tjCritical tj) s = .next u)) ∧
  (∀ s : State, (∀ i ∈ instances s, i.ok = true) → exec .auditPass s = .next (wrn (copyTerms (cntWrap s LI_PASS)) LI_STAT 0)) ∧
  (∀ (s : State) (i : Instance) (l : List Instance), (instances s).filter (fun i => !i.ok) = i :: l → fbit s fHE_STAT_FLR_BUSY = false →
    exec .auditPass s = .next (forEach (((i :: l).map (fun x => x.ident)).dedup) reportBad (wrn (wrn (wrn (copyTerms (cntWrap s LI_PASS))
      LI_STAT ((((i :: l).map (fun x => x.ident)).dedup.map (fun n => 2 ^ n)).sum)) LI_WHERE (2 ^ 31 + i.ident * 2 ^ 24 + i.inst))
      LI_DIFF (int32u i.diff))))

/-- What a detection does (R397 to R399): the sticky bit reads 1 and the class counts; a source whose bit was set already or
that is masked does no more than that in a unit that is awake; an entry to the safe state while it holds changes nothing, and
an entry disables every bus and sets its SAFE; a SEVERE or FATAL detection that reacts leaves the safe state in force. -/
def Obligations.DetectionsLatchAndEnterTheSafeState : Prop :=
  (∀ (x : Nat) (s : State), x < 512 → rdn s (PA_CNT + paClass s x * 4) < 0xFFFFFFFF →
    paSticky (paCount s x) x = true ∧ rdn (paCount s x) (PA_CNT + paClass s x * 4) = rdn s (PA_CNT + paClass s x * 4) + 1) ∧
  (∀ (x : Nat) (s : State), paReacts s x = false → s.rs.asleep = false → paDetect x s = paCount s x) ∧
  (∀ s : State, safeState s = true → safeEnter s = s) ∧
  (∀ s : State, safeState (safeEnter s) = true ∧ ∀ b : BusNo, safeState s = false → fbit (safeEnter s) fAC_BUS_CTL_EN (buo b.val) = false ∧
    fbit (safeEnter s) fAC_BUS_CTL_SAFE (buo b.val) = true) ∧
  (∀ (x : Nat) (s : State), 2 ≤ paClass s x → paReacts s x = true → safeState (paDetect x s) = true)

/-- WATCHDOG_EXPIRY (R402): enabled, with the unit awake, PA_WDOG.TMO ms after the last kick source 002h is detected and the
watchdog restarts; disabled, nothing changes. WATCHDOG_KICK, WATCHDOG_ENABLE, SAFE_FORCE and DIVERT_HOLD_WRITE (R402, R399,
R400), each by Dennil or under a lease: the watchdog restarts; EN is set once, with the restart, and ALIVE runs unless the
safe state holds; source 004h is detected; HOLD takes the value and DIVERT is asserted while the safe state or HOLD is.
ALIVE_TOGGLE (R401): while it runs the level changes and its pin follows, no register with it; else nothing. SAFE_RELEASE by
Dennil (R405): where nothing blocks it the safe state ends on Parapet and every bus, PA_DIVERT.HOLD and the DIVERT status are
set and the first source is invalid; else only the ended conditions are recorded. STICKY_CLEAR by Dennil (R397): bits of
sources whose conditions do not hold read 0. PA_CLEAR, PA_RELEASE, PA_FORCE_SAFE, PA_CONFIG (R410): accepted, PA_CLEAR of one
assigned source clears it and completes with the count of sticky sources and the lowest; a release that nothing blocks ends
the safe state, with the buses resumed where asked; the force detects 004h; a configuration that masks no SEVERE source, with
classes and WARN in range, is taken. -/
def Obligations.ParapetControlsComplete : Prop :=
  (∀ s : State, fbit s fPA_WDOG_EN = true → s.pa.kickAt + max 1 (fget s fPA_WDOG_TMO) * 500000 ≤ s.tick → s.rs.asleep = false →
    exec .watchdogExpiry s = .next (paDetect 2 { s with pa := { s.pa with kickAt := s.tick } })) ∧
  (∀ s : State, fbit s fPA_WDOG_EN = false → exec .watchdogExpiry s = .next s) ∧
  (∀ (ag : Agent) (s : State), (ag = .dennil ∨ leased s 0x16 none = true) →
    exec (.watchdogKick ag) s = .next { s with pa := { s.pa with kickAt := s.tick } } ∧
    exec (.safeForce ag) s = .next (paDetect 4 s) ∧
    (fbit s fPA_WDOG_EN = true → exec (.watchdogEnable ag) s = .next s) ∧
    (fbit s fPA_WDOG_EN = false → ∃ t, exec (.watchdogEnable ag) s = .next t ∧ fbit t fPA_WDOG_EN = true ∧ t.pa.kickAt = s.tick ∧
      (safeState s = false → fbit t fPA_STAT_ALIVE_RUN = true)) ∧
    (∀ h, ∃ t, exec (.divertHoldWrite ag h) s = .next t ∧ fbit t fPA_DIVERT_HOLD = h ∧
      fbit t fPA_STAT_DIVERT = (safeState s || h))) ∧
  (∀ s : State, fbit s fPA_STAT_ALIVE_RUN = true → ∃ t, exec .aliveToggle s = .next t ∧ t.pa.alive = !s.pa.alive ∧
    t.outbox = .pin "ALIVE" 0 (!s.pa.alive) :: s.outbox ∧ t.regs = s.regs) ∧
  (∀ (s : State), fbit s fPA_STAT_ALIVE_RUN = false → exec .aliveToggle s = .next s) ∧
  (∀ (ended : List Nat) (s : State), releaseOk (endAsserts ended s) = true → ∃ t, exec (.safeRelease .dennil ended) s = .next t ∧
    safeState t = false ∧ fbit t fPA_DIVERT_HOLD = true ∧ fbit t fPA_STAT_DIVERT = true ∧ fbit t fPA_FIRST_SRC_VALID = false ∧
    (∀ b : BusNo, fbit t fAC_BUS_CTL_SAFE (buo b.val) = false)) ∧
  (∀ (ended : List Nat) (s : State), releaseOk (endAsserts ended s) = false →
    exec (.safeRelease .dennil ended) s = .next (endAsserts ended s)) ∧
  (∀ (w : Fin 16) (m : Word) (s : State), (∀ x ∈ wordSources w.val m.toNat, condHolds s x = false) → ∃ t,
    exec (.stickyClear .dennil w m []) s = .next t ∧ (∀ x ∈ wordSources w.val m.toNat, paSticky t x = false)) ∧
  (∀ (sp : CmdSpec) (c : CmdCall) (s u : State), sp = ⟨0x1610, 0x10, false, 8, 8, false, true⟩ → Accepted sp c s →
    u = mbTake c s → pw c 0 < 512 → paAssigned (pw c 0) = true → ∃ v l, v = stickyClear [pw c 0] (endAsserts (endedOf c) u) ∧
    l = stickySources v ∧ exec (.paClear c) s = .next (completeCmd sp c 0 0 (leBytes 2 l.length ++ leBytes 2 (l.headD 0xFFFF)) v)) ∧
  (∀ (sp : CmdSpec) (c : CmdCall) (s u : State), sp = ⟨0x1611, 0x10, false, 8, 8, false, true⟩ → Accepted sp c s →
    u = endAsserts (endedOf c) (mbTake c s) → releaseOk u = true → exec (.paRelease c) s =
      .next (completeCmd sp c 0 0 [] (idleBuses (if bit (pb c 0) 0 then resumeBuses (safeLeave u) else safeLeave u)))) ∧
  (∀ (sp : CmdSpec) (c : CmdCall) (s u : State), sp = ⟨0x1612, 0x10, false, 8, 8, false, true⟩ → Accepted sp c s →
    u = mbTake c s → exec (.paForceSafe c) s = .next (completeCmd sp c 0 0 [] (paDetect 4 u))) ∧
  (∀ (sp : CmdSpec) (c : CmdCall) (s u : State), sp = ⟨0x1690, 0x10, true, 68, 68, false, true⟩ → Accepted sp c s →
    u = mbTake c s → (∀ x, x < 512 → bit (byteAt c.payload (x / 8)) (x % 8) = true → newClass u (pb c 65) x < 2) →
    (∀ k, k < 4 → bits (pb c 65) (2 * k + 1) (2 * k) ≠ 3) → pb c 66 ≤ 150 → ∃ t, exec (.paConfig c) s = .next (completeCmd sp c 0 0 [] t) ∧
      (∀ w, w < 16 → rdn t (PA_MASK + 4 * w) = pd c (4 * w)) ∧ fget t fPA_THERM_WARN = pb c 66 ∧ fget t fPA_EXT_CFG_CLS = pb c 65)

/-! ## The pipeline (chapters 4 to 7) -/

/-! ## Rules of the specification, word for word -/

/-- R453: every address of the table windows reads 0 after PORST_N release and after a unit reset; no other reset (PERST_N,
hot reset and link down, a Function Level Reset with its steps, a restart of the steward, sleep and wake) changes them. -/
def Obligations.TableWindowsAreClearedByPowerOnAndUnitReset : Prop :=
  (∀ (f : BootFound) (s t u : State) (a : Nat), (exec .powerOnReset s = .next t ∨ exec .aonBrownout s = .next t) →
    exec (.powerOnResetRelease f) t = .next u → tblGet u a = 0#8) ∧
  (∀ (c : CmdCall) (s t : State) (a : Nat), Accepted ⟨0x1813, 0x10, true, 8, 8, false, true⟩ c s →
    exec (.unitReset c) s = .next t → tblGet t a = 0#8) ∧
  (∀ (c : Instr) (s t : State), exec c s = .next t → ((∃ d, c = .linkReset d) ∨ c = .functionLevelReset ∨ c = .flrDmaSilence ∨ c = .flrComplete ∨
    c = .perstNRelease ∨ c = .wake ∨ (∃ k, c = .stewardRestart k) ∨ (∃ k, c = .sleep k)) → ∀ a, tblGet t a = tblGet s a)

/-- R35: an ON slot with EN = 1 that sees no high-speed burst in LINK_TMO sets PP_EVT.LINK_TMO; the slot's state does not
change. -/
def Obligations.LinkTimeoutOnlySetsItsEvent : Prop :=
  ∀ (p : PortNo) (s : State), portRx s p.val = true → fget s fPP_HP_TIMING_LINK_TMO (pof p.val) ≠ 0 → (portSt s p.val).burst = false →
    ∃ t, exec (.linkTimeout p) s = .next t ∧ fbit t fPP_EVT_LINK_TMO (pof p.val) = true ∧ ppSlot t p.val = ppSlot s p.val ∧ OnlyRegs s t

/-- R302: a repeated start where this target owes an acknowledge discards the whole block command and sets RS_IN_ACK; one
after an acknowledged byte commits the write part, and the read part that follows is served from the entry sampled. -/
def Obligations.RepeatedStartDiscardsOrCommits : Prop :=
  (∀ (b : TwNo) (a : BitVec 7) (l : List Byte) (s u : State) (a1 : Bool), twTarget s b.val = true → s.rs.asleep = false →
    twOwn s b.val a.toNat = some a1 → u = updTw s b.val (fun x => { x with sampled := none }) → quRoom u (48 + b.val) 264 = true →
    exec (.twTargetCommit b a l 4 none) s = .next (twDiscard b.val (fbset u fTW_STAT_RS_IN_ACK true (two b.val)))) ∧
  (∀ (b : TwNo) (a : BitVec 7) (k : Byte) (s u : State) (a1 : Bool), twTarget s b.val = true → s.rs.asleep = false →
    twOwn s b.val a.toNat = some a1 → u = updTw s b.val (fun x => { x with sampled := none }) → quRoom u (48 + b.val) 264 = true →
    (enType (twEntry s b.val k.toNat) = 3 ∨ enType (twEntry s b.val k.toNat) = 4 ∨ enType (twEntry s b.val k.toNat) = 6 ∨
      enType (twEntry s b.val k.toNat) = 7) →
    ∃ t v, exec (.twTargetCommit b a [k] 1 none) s = .next t ∧ v = twCommit b.val (twRecord k.toNat [] false false a1) u ∧
      t = updTw v b.val (fun x => { x with sampled := some (k.toNat, twEntry s b.val k.toNat) }) ∧
      (enType (twEntry s b.val k.toNat) = 4 → twReadData t b.val =
        (List.range (enLen (twEntry s b.val k.toNat))).map (fun i => twRam t b.val (enOfs (twEntry s b.val k.toNat) + i))))

/-- R319: a beat of a posted write that fails on the far side enters the error log with address, master, stamp and code, sets
AB_EVT.ERR, fires AB_ERR, and is not retried. -/
def Obligations.FailedPostedBeatIsLoggedNotRetried : Prop :=
  ∀ (s u : State) (b : AbBeat) (l : List AbBeat) (r i : Nat), s.ab.bus = .posted → s.ab.posted = b :: l → abRegion s b.off = some r →
    (List.range 8).find? (fun i => !fbit s fAB_LOG_INFO_VALID (i * 0x10)) = some i →
    u = updAb (fun a => { a with bus := .idle }) s →
    ∀ f : Nat → State, f = (fun code => abRun (postedDone (emFire 0x39 (evt (wrn (wrn (wrn (cnt u AB_CNT_ERR) (AB_LOG_ADDR + i * 0x10)
        (abLocal u r b.off)) (AB_LOG_STAMP + i * 0x10) (now s)) (AB_LOG_INFO + i * 0x10) (2 ^ 31 + 2 ^ 30 + r * 2 ^ 24 + code))
        fAB_EVT_ERR)))) →
    (∀ d, exec (.lbTransactionEnd 1 d) s = .next (f lbTERR)) ∧ exec .lbNorespTimeout s = .next (f lbNORESP)

/-- R375: bit i of EM_ROUTE[p] routes producer p to consumer i; the consumers of the producers that fire in a cycle and are
not tripped each get one event; while EM_CTL.EN = 0 events are discarded. -/
def Obligations.RoutedConsumersGetOneEvent : Prop :=
  (∀ (s : State) (p i : Nat), i < 192 → (i ∈ emRoutes s p ↔ bit (rdn s (EM_ROUTE + p * 0x20 + i / 32 * 4)) (i % 32) = true)) ∧
  (∀ (ps : List Nat) (s : State), fbit s fEM_CTL_EN = false → emFires ps s = s) ∧
  (∀ (ps : List Nat) (s : State), fbit s fEM_CTL_EN = true → ∃ (cs : List Nat) (u : State), emFires ps s = forEach cs (emTask paDetect) u ∧
    cs.Nodup ∧ (∀ i, i ∈ cs ↔ ∃ p ∈ ps, emAssigned p = true ∧ emTripped s p = false ∧ i ∈ emRoutes s p) ∧ u.outbox = s.outbox)

/-- R378: an event at a busy consumer sets its EM_OVR bit and EM_EVT.OVR and counts; EM_OUT ignores it, TB_CAP counts the
overrun and keeps or replaces its capture as OVWR says. -/
def Obligations.BusyConsumersOverrun : Prop :=
  (∀ (i : Nat) (s : State), i < 192 → bit (rdn (emOverrun i s) (EM_OVR + i / 32 * 4)) (i % 32) = true ∧
    fbit (emOverrun i s) fEM_EVT_OVR = true ∧ rdn (emOverrun i s) EM_CNT_OVR = min 0xFFFFFFFF (rdn s EM_CNT_OVR + 1)) ∧
  (∀ (d : Nat → State → State) (k : Nat) (s : State), k < 16 → fbit s fEM_OUT_CFG_EN (k * 8) = true →
    fget s fEM_OUT_CFG_MODE (k * 8) = 0 → fbit s fEM_OUT_STAT_BUSY (k * 8) = true → emTask d k s = emOverrun k s) ∧
  (∀ (d : Nat → State → State) (c : Nat) (s u : State), c < 8 → fbit s fTB_CAP_CTL_EN (c * 0x20) = true →
    fbit s fTB_CAP_CTL_VALID (c * 0x20) = true →
    u = evt (cnt (emOverrun (0x10 + c) s) (TB_CAP_CNT_OVR + c * 0x20)) fTB_EVT_CAP_OVR →
    emTask d (0x10 + c) s = if fbit s fTB_CAP_CTL_OVWR (c * 0x20) then captureAll u c else u)

/-- R391: the words written are the words read, dropped, held and written off, modulo 2^32: every write of a record and every
word that leaves, poisoned or not, keeps the identity, and so does a flush. -/
def Obligations.QueueWordIdentityIsKept : Prop :=
  ∀ (Inv : State → Nat → Prop), (∀ s q, Inv s q ↔ fget s fQU_LEVEL_HELD (quo q) = (quGet s q).words.length ∧
      rdn s (QU_CNT_WR + quo q) = (rdn s (QU_CNT_RD + quo q) + rdn s (QU_CNT_DROP + quo q) + fget s fQU_LEVEL_HELD (quo q) +
        rdn s (QU_CNT_WOFF + quo q)) % 2 ^ 32) →
    ∀ (s : State) (q : Nat), q < 66 → Inv s q →
    (∀ rec, Inv (quWrite s q rec) q) ∧ (∀ poison, (quGet s q).words ≠ [] → Inv (quLeave s q poison) q) ∧ Inv (quFlush q s) q ∧
    (∀ poison, (quGet s q).words ≠ [] → rdn (quLeave s q poison) (QU_CNT_RD + quo q) = (rdn s (QU_CNT_RD + quo q) + 1) % 2 ^ 32)
end

