-- ==== Sys2Proof/Laws/Maps.lean ====
section
/-! SUPPORT. Sparse maps: what a read finds after a write, and that every operation keeps the canonical form. -/

namespace Sys2Proof.Machine

variable {α : Type}

theorem smGet_smErase_same (m : Sparse α) (k : Nat) (d : α) : smGet (smErase m k) k d = d := by
  induction m with
  | nil => rfl
  | cons e t ih =>
    by_cases h : e.1 = k
    · simpa [smErase, h] using ih
    · simp only [smErase, List.filter_cons, h, decide_false, Bool.not_false, if_true, smGet, if_false]
      exact ih

theorem smGet_smErase_other (m : Sparse α) {k j : Nat} (d : α) (h : j ≠ k) :
    smGet (smErase m k) j d = smGet m j d := by
  induction m with
  | nil => rfl
  | cons e t ih =>
    by_cases hk : e.1 = k
    · have hj : e.1 ≠ j := fun c => h (c.symm.trans hk)
      simpa [smErase, hk, smGet, hj, h.symm] using ih
    · by_cases hj : e.1 = j
      · simp [smErase, smGet, hj, h]
      · simp only [smErase, List.filter_cons, hk, decide_false, Bool.not_false, if_true, smGet, hj, if_false]
        exact ih

theorem smGet_smIns_same (m : Sparse α) (k : Nat) (d v : α) (h : ∀ e ∈ m, e.1 ≠ k) :
    smGet (smIns m k v) k d = v := by
  induction m with
  | nil => simp [smIns, smGet]
  | cons e t ih =>
    unfold smIns
    split
    · simp [smGet]
    · have he : e.1 ≠ k := h e (by simp)
      simp [smGet, he, ih (fun x hx => h x (by simp [hx]))]

theorem smGet_smIns_other (m : Sparse α) {k j : Nat} (d v : α) (h : j ≠ k) :
    smGet (smIns m k v) j d = smGet m j d := by
  induction m with
  | nil => simp [smIns, smGet, h.symm]
  | cons e t ih =>
    unfold smIns
    split
    · simp [smGet, h.symm]
    · simp [smGet, ih]

theorem smErase_no_key (m : Sparse α) (k : Nat) : ∀ e ∈ smErase m k, e.1 ≠ k := by
  intro e he
  simpa using (List.mem_filter.mp he).2

/-- A read of the key just written finds the value. -/
theorem smGet_smPut_same [DecidableEq α] (m : Sparse α) (k : Nat) (d v : α) : smGet (smPut m k d v) k d = v := by
  unfold smPut
  split
  · rename_i h; rw [h]; exact smGet_smErase_same m k d
  · exact smGet_smIns_same _ k d v (smErase_no_key m k)

/-- A read of another key finds what was there. -/
theorem smGet_smPut_other [DecidableEq α] (m : Sparse α) {k j : Nat} (d d' v : α) (h : j ≠ k) :
    smGet (smPut m k d v) j d' = smGet m j d' := by
  unfold smPut
  split
  · exact smGet_smErase_other m d' h
  · rw [smGet_smIns_other _ d' v h, smGet_smErase_other m d' h]

/-! ## The canonical form -/

/-- The canonical form says that the keys rise and that no entry holds the default of its key. -/
theorem smWf_iff [DecidableEq α] (d : Nat → α) (m : Sparse α) :
    smWf d m = true ↔ m.Pairwise (fun a b => a.1 < b.1) ∧ ∀ e ∈ m, e.2 ≠ d e.1 := by
  induction m with
  | nil => simp [smWf]
  | cons e t ih =>
    cases t with
    | nil => simp [smWf]
    | cons f t =>
      simp only [smWf, Bool.and_eq_true, Bool.not_eq_true', decide_eq_false_iff_not, decide_eq_true_eq, ih]
      constructor
      · rintro ⟨⟨h1, h2⟩, h3, h4⟩
        refine ⟨List.pairwise_cons.mpr ⟨?_, h3⟩, ?_⟩
        · intro x hx
          rcases List.mem_cons.mp hx with rfl | hx
          · exact h2
          · exact Nat.lt_trans h2 ((List.pairwise_cons.mp h3).1 x hx)
        · intro x hx
          rcases List.mem_cons.mp hx with rfl | hx
          · exact h1
          · exact h4 x hx
      · rintro ⟨h1, h2⟩
        have h3 := List.pairwise_cons.mp h1
        exact ⟨⟨h2 e (by simp), h3.1 f (by simp)⟩, h3.2, fun x hx => h2 x (by simp [hx])⟩

/-- Leaving out entries keeps the canonical form. -/
theorem smWf_filter [DecidableEq α] {d : Nat → α} {m : Sparse α} (p : Nat × α → Bool) (h : smWf d m = true) :
    smWf d (m.filter p) = true := by
  rw [smWf_iff] at *
  exact ⟨h.1.filter p, fun e he => h.2 e (List.mem_filter.mp he).1⟩

theorem mem_smIns {m : Sparse α} {k : Nat} {v : α} {x : Nat × α} (h : x ∈ smIns m k v) : x = (k, v) ∨ x ∈ m := by
  induction m with
  | nil => simpa [smIns] using h
  | cons e t ih =>
    unfold smIns at h
    split at h
    · simpa using h
    · rcases List.mem_cons.mp h with rfl | h
      · simp
      · rcases ih h with h | h
        · exact .inl h
        · simp [h]

theorem smIns_pairwise {m : Sparse α} {k : Nat} {v : α} (h : m.Pairwise (fun a b => a.1 < b.1))
    (hk : ∀ e ∈ m, e.1 ≠ k) : (smIns m k v).Pairwise (fun a b => a.1 < b.1) := by
  induction m with
  | nil => simp [smIns]
  | cons e t ih =>
    have h' := List.pairwise_cons.mp h
    unfold smIns
    split
    · rename_i hlt
      refine List.pairwise_cons.mpr ⟨?_, h⟩
      intro x hx
      rcases List.mem_cons.mp hx with rfl | hx
      · exact hlt
      · exact Nat.lt_trans hlt (h'.1 x hx)
    · rename_i hge
      refine List.pairwise_cons.mpr ⟨?_, ih h'.2 (fun x hx => hk x (by simp [hx]))⟩
      intro x hx
      rcases mem_smIns hx with rfl | hx
      · have := hk e (by simp)
        simp only; omega
      · exact h'.1 x hx

/-- A write keeps the canonical form. -/
theorem smWf_smPut [DecidableEq α] {d : Nat → α} {m : Sparse α} (k : Nat) (v : α) (h : smWf d m = true) :
    smWf d (smPut m k (d k) v) = true := by
  unfold smPut
  have he : smWf d (smErase m k) = true := smWf_filter _ h
  split
  · exact he
  · rename_i hv
    rw [smWf_iff] at he ⊢
    refine ⟨smIns_pairwise he.1 (smErase_no_key m k), ?_⟩
    intro x hx
    rcases mem_smIns hx with rfl | hx
    · exact hv
    · exact he.2 x hx

end Sys2Proof.Machine
end

