-- ==== Sys2Proof/Laws/Regs.lean ====
section
/-! SUPPORT. Registers and fields: what a read finds after a write. -/

namespace Sys2Proof.Machine

theorem rd_wr_same (s : State) (a : Nat) (v : Word) : rd (wr s a v) a = v :=
  smGet_smPut_same s.regs a (regReset a) v

theorem rd_wr_other (s : State) {a b : Nat} (v : Word) (h : b ≠ a) : rd (wr s a v) b = rd s b :=
  smGet_smPut_other s.regs (regReset a) (regReset b) v h

theorem rd_congr {s t : State} (h : t.regs = s.regs) (a : Nat) : rd t a = rd s a := by simp [rd, h]

theorem rdn_congr {s t : State} (h : t.regs = s.regs) (a : Nat) : rdn t a = rdn s a := by simp [rdn, rd, h]

theorem fget_congr {s t : State} (h : t.regs = s.regs) (f : Fld) (o : Nat) : fget t f o = fget s f o := by
  simp [fget, rdn, rd, h]

@[simp] theorem rdn_wrn_same (s : State) (a v : Nat) : rdn (wrn s a v) a = v % 2 ^ 32 := by
  simp [rdn, wrn, rd_wr_same]

theorem rdn_wrn_other (s : State) {a b : Nat} (v : Nat) (h : b ≠ a) : rdn (wrn s a v) b = rdn s b := by
  simp [rdn, wrn, rd_wr_other s _ h]

theorem rdn_lt (s : State) (a : Nat) : rdn s a < 2 ^ 32 := (rd s a).isLt

/-! ## Bit fields of numbers -/

theorem bits_lt (v hi lo : Nat) : bits v hi lo < 2 ^ (hi + 1 - lo) := Nat.mod_lt _ (by positivity)

theorem bits_mul_le (v hi lo : Nat) : bits v hi lo * 2 ^ lo ≤ v := by
  unfold bits
  calc v / 2 ^ lo % 2 ^ (hi + 1 - lo) * 2 ^ lo ≤ v / 2 ^ lo * 2 ^ lo := Nat.mul_le_mul_right _ (Nat.mod_le _ _)
    _ ≤ v := Nat.div_mul_le_self _ _

/-- A digit below `q` and a rest below `p` make a number below `p * q`. -/
theorem digit_lt {r d p q : Nat} (hr : r < p) (hd : d < q) : r + d * p < p * q := by
  calc r + d * p < p + d * p := Nat.add_lt_add_right hr _
    _ = p * (d + 1) := by ring
    _ ≤ p * q := Nat.mul_le_mul_left _ hd

/-- A number as its bits below a field, the field, and the bits above. -/
theorem bits_split (v : Nat) {hi lo : Nat} (h : lo ≤ hi) :
    v = v % 2 ^ lo + bits v hi lo * 2 ^ lo + v / 2 ^ (hi + 1) * 2 ^ (hi + 1) := by
  have e : 2 ^ (hi + 1) = 2 ^ lo * 2 ^ (hi + 1 - lo) := by rw [← pow_add]; congr 1; omega
  have h1 := Nat.mod_add_div v (2 ^ lo)
  have h2 := Nat.mod_add_div (v / 2 ^ lo) (2 ^ (hi + 1 - lo))
  unfold bits
  rw [e, ← Nat.div_div_eq_div_mul]
  calc v = v % 2 ^ lo + 2 ^ lo * (v / 2 ^ lo) := h1.symm
    _ = v % 2 ^ lo + 2 ^ lo * (v / 2 ^ lo % 2 ^ (hi + 1 - lo) + 2 ^ (hi + 1 - lo) * (v / 2 ^ lo / 2 ^ (hi + 1 - lo))) := by
        rw [h2]
    _ = _ := by ring

theorem setBits_eq (v : Nat) {hi lo : Nat} (x : Nat) (h : lo ≤ hi) :
    setBits v hi lo x = v % 2 ^ lo + x % 2 ^ (hi + 1 - lo) * 2 ^ lo + v / 2 ^ (hi + 1) * 2 ^ (hi + 1) := by
  have h1 := bits_split v h
  unfold setBits
  omega

theorem bits_setBits_same (v : Nat) {hi lo : Nat} (x : Nat) (h : lo ≤ hi) :
    bits (setBits v hi lo x) hi lo = x % 2 ^ (hi + 1 - lo) := by
  rw [setBits_eq v x h]
  have e : 2 ^ (hi + 1) = 2 ^ lo * 2 ^ (hi + 1 - lo) := by rw [← pow_add]; congr 1; omega
  have hp : 0 < 2 ^ lo := by positivity
  have hq : 0 < 2 ^ (hi + 1 - lo) := by positivity
  have : v % 2 ^ lo + x % 2 ^ (hi + 1 - lo) * 2 ^ lo + v / 2 ^ (hi + 1) * 2 ^ (hi + 1) =
      v % 2 ^ lo + 2 ^ lo * (x % 2 ^ (hi + 1 - lo) + 2 ^ (hi + 1 - lo) * (v / 2 ^ (hi + 1))) := by
    rw [e]; ring
  unfold bits
  rw [this, Nat.add_mul_div_left _ _ hp, Nat.div_eq_of_lt (Nat.mod_lt _ hp), Nat.zero_add, Nat.add_mul_mod_self_left,
    Nat.mod_mod]

theorem setBits_lt (v : Nat) {hi lo w : Nat} (x : Nat) (h : lo ≤ hi) (hw : hi < w) (hv : v < 2 ^ w) :
    setBits v hi lo x < 2 ^ w := by
  rw [setBits_eq v x h]
  have e : 2 ^ (hi + 1) = 2 ^ lo * 2 ^ (hi + 1 - lo) := by rw [← pow_add]; congr 1; omega
  have ew : 2 ^ w = 2 ^ (hi + 1) * 2 ^ (w - (hi + 1)) := by rw [← pow_add]; congr 1; omega
  have h1 : v % 2 ^ lo < 2 ^ lo := Nat.mod_lt _ (by positivity)
  have h2 : x % 2 ^ (hi + 1 - lo) < 2 ^ (hi + 1 - lo) := Nat.mod_lt _ (by positivity)
  have h3 : v / 2 ^ (hi + 1) < 2 ^ (w - (hi + 1)) := by
    rw [Nat.div_lt_iff_lt_mul (by positivity), mul_comm, ← ew]; exact hv
  have h4 : v % 2 ^ lo + x % 2 ^ (hi + 1 - lo) * 2 ^ lo < 2 ^ (hi + 1) := by
    rw [e]; exact digit_lt h1 h2
  rw [ew]; exact digit_lt h4 h3

theorem bits_setBits_above (v : Nat) {hi lo h2 l2 : Nat} (x : Nat) (h : lo ≤ hi) (hl : hi < l2) :
    bits (setBits v hi lo x) h2 l2 = bits v h2 l2 := by
  have ew : 2 ^ l2 = 2 ^ (hi + 1) * 2 ^ (l2 - (hi + 1)) := by rw [← pow_add]; congr 1; omega
  have key : ∀ u : Nat, u / 2 ^ l2 = u / 2 ^ (hi + 1) / 2 ^ (l2 - (hi + 1)) := fun u => by
    rw [ew, Nat.div_div_eq_div_mul]
  unfold bits
  rw [key, key v]
  congr 2
  rw [setBits_eq v x h, Nat.add_mul_div_right _ _ (by positivity), Nat.div_eq_of_lt, Nat.zero_add]
  have e : 2 ^ (hi + 1) = 2 ^ lo * 2 ^ (hi + 1 - lo) := by rw [← pow_add]; congr 1; omega
  have h1 : v % 2 ^ lo < 2 ^ lo := Nat.mod_lt _ (by positivity)
  have h2 : x % 2 ^ (hi + 1 - lo) < 2 ^ (hi + 1 - lo) := Nat.mod_lt _ (by positivity)
  rw [e]; exact digit_lt h1 h2

theorem bits_setBits_below (v : Nat) {hi lo h2 l2 : Nat} (x : Nat) (h : lo ≤ hi) (h' : l2 ≤ h2) (hl : h2 < lo) :
    bits (setBits v hi lo x) h2 l2 = bits v h2 l2 := by
  have key : ∀ u : Nat, bits u h2 l2 = bits (u % 2 ^ lo) h2 l2 := fun u => by
    have e : 2 ^ lo = 2 ^ l2 * 2 ^ (lo - l2) := by rw [← pow_add]; congr 1; omega
    have e2 : 2 ^ (lo - l2) = 2 ^ (h2 + 1 - l2) * 2 ^ (lo - l2 - (h2 + 1 - l2)) := by rw [← pow_add]; congr 1; omega
    unfold bits
    rw [e, Nat.mod_mul_right_div_self, e2, Nat.mod_mul_right_mod]
  rw [key, key v]
  congr 1
  rw [setBits_eq v x h]
  have e : 2 ^ (hi + 1) = 2 ^ lo * 2 ^ (hi + 1 - lo) := by rw [← pow_add]; congr 1; omega
  have : v % 2 ^ lo + x % 2 ^ (hi + 1 - lo) * 2 ^ lo + v / 2 ^ (hi + 1) * 2 ^ (hi + 1) =
      v % 2 ^ lo + 2 ^ lo * (x % 2 ^ (hi + 1 - lo) + 2 ^ (hi + 1 - lo) * (v / 2 ^ (hi + 1))) := by
    rw [e]; ring
  rw [this, Nat.add_mul_mod_self_left, Nat.mod_mod]

/-! ## Fields of registers -/

/-- A field just set reads as the value, cut to its width. -/
theorem fget_fset_same (s : State) (f : Fld) (v o : Nat) (h : f.lo ≤ f.hi := by decide) (hw : f.hi < 32 := by decide) :
    fget (fset s f v o) f o = v % 2 ^ (f.hi + 1 - f.lo) := by
  unfold fget fset
  rw [rdn_wrn_same, Nat.mod_eq_of_lt (setBits_lt _ _ h hw (rdn_lt s _)), bits_setBits_same _ _ h]

/-- A field of another register is unchanged. -/
theorem fget_fset_reg (s : State) (f g : Fld) (v o p : Nat) (h : g.reg + p ≠ f.reg + o) :
    fget (fset s f v o) g p = fget s g p := by
  unfold fget fset
  rw [rdn_wrn_other s _ h]

/-- Another field of the register is unchanged. -/
theorem fget_fset_field (s : State) (f g : Fld) (v o p : Nat) (e : g.reg + p = f.reg + o) (h : f.lo ≤ f.hi)
    (hw : f.hi < 32) (hg : g.lo ≤ g.hi) (hd : f.hi < g.lo ∨ g.hi < f.lo) :
    fget (fset s f v o) g p = fget s g p := by
  unfold fget fset
  rw [e, rdn_wrn_same, Nat.mod_eq_of_lt (setBits_lt _ _ h hw (rdn_lt s _))]
  rcases hd with hd | hd
  · exact bits_setBits_above _ _ h hd
  · exact bits_setBits_below _ _ h hg hd

/-- A field of a register that is written reads as the written value's bits. -/
theorem fget_wrn_same (s : State) (f : Fld) (a v o : Nat) (e : f.reg + o = a) :
    fget (wrn s a v) f o = bits (v % 2 ^ 32) f.hi f.lo := by
  subst e; unfold fget; rw [rdn_wrn_same]

/-- A field of another register than the one written is unchanged. -/
theorem fget_wrn_other (s : State) (f : Fld) (a v o : Nat) (h : f.reg + o ≠ a) :
    fget (wrn s a v) f o = fget s f o := by
  unfold fget; rw [rdn_wrn_other s v h]

/-- A register other than the field's is unchanged. -/
theorem rdn_fset_other (s : State) (f : Fld) (v o : Nat) {a : Nat} (h : a ≠ f.reg + o) :
    rdn (fset s f v o) a = rdn s a := rdn_wrn_other s _ h

theorem fbit_fbset_same (s : State) (f : Fld) (b : Bool) (o : Nat) (h : f.lo = f.hi := by decide)
    (hw : f.hi < 32 := by decide) : fbit (fbset s f b o) f o = b := by
  unfold fbit fbset
  rw [fget_fset_same s f _ o (by omega) hw]
  have : f.hi + 1 - f.lo = 1 := by omega
  rw [this]
  cases b <;> simp

theorem rdn_cntAdd_same (s : State) (a n : Nat) : rdn (cntAdd s a n) a = min 0xFFFFFFFF (rdn s a + n) := by
  unfold cntAdd
  rw [rdn_wrn_same, Nat.mod_eq_of_lt]
  exact Nat.lt_of_le_of_lt (Nat.min_le_left _ _) (by norm_num)

theorem rdn_cntAdd_other (s : State) {a b : Nat} (n : Nat) (h : b ≠ a) : rdn (cntAdd s a n) b = rdn s b :=
  rdn_wrn_other s _ h

theorem rdn_cnt_same (s : State) (a : Nat) : rdn (cnt s a) a = min 0xFFFFFFFF (rdn s a + 1) := rdn_cntAdd_same s a 1

theorem rdn_cnt_other (s : State) {a b : Nat} (h : b ≠ a) : rdn (cnt s a) b = rdn s b := rdn_wrn_other s _ h

theorem rdn_cntWrap_same (s : State) (a n : Nat) : rdn (cntWrap s a n) a = (rdn s a + n) % 2 ^ 32 := by
  simp [cntWrap]

theorem rdn_cntWrap_other (s : State) {a b : Nat} (n : Nat) (h : b ≠ a) : rdn (cntWrap s a n) b = rdn s b :=
  rdn_wrn_other s _ h

end Sys2Proof.Machine
end

