-- ==== Sys2Proof/Laws/Irq.lean ====
section
/-! SUPPORT. The interrupt logic: an event bit that is set reads 1, and beside HE_IPEND, HE_VEC_ARM and HE_PBA (`IrqReg`) no
register, and beside the messages sent and the level of INTx nothing else, changes. -/

namespace Sys2Proof.Machine

theorem rdn_emit (s : State) (o : Out) (a : Nat) : rdn (emit s o) a = rdn s a := rfl

theorem rdn_regBit_other (s : State) {a b i : Nat} (v : Bool) (h : b ≠ a) : rdn (regBit s a i v) b = rdn s b :=
  rdn_wrn_other s _ h

theorem bits_lt_div (v : Nat) : v % 2 ^ 11 / 32 * 4 < 256 := by omega

theorem vecReg (s : State) (o : Nat) : fget s fHE_ISRC_VECTOR o / 32 * 4 < 256 := by
  have : fget s fHE_ISRC_VECTOR o < 2 ^ 11 := bits_lt _ _ _
  omega

/-- One vector's evaluation writes only its HE_VEC_ARM and HE_PBA. -/
theorem rdn_vecEval (s : State) {v a : Nat} (hv : v / 32 * 4 < 256) (h : ¬ IrqReg a) : rdn (vecEval v s) a = rdn s a := by
  have h1 : a ≠ HE_VEC_ARM + v / 32 * 4 := by
    intro e; apply h; right; left; omega
  have h2 : a ≠ HE_PBA + v / 32 * 4 := by
    intro e; apply h; right; right; omega
  unfold vecEval
  dsimp only
  split
  · split
    · rw [rdn_emit, rdn_regBit_other _ _ h2, rdn_regBit_other _ _ h1]
    · rw [rdn_regBit_other _ _ h2]
  · split
    · rfl
    · rw [rdn_regBit_other _ _ h2]

theorem regs_intxEval (s : State) : (intxEval s).regs = s.regs := by
  unfold intxEval
  dsimp only
  repeat' split
  all_goals rfl

theorem rdn_irqUpdate (s : State) {n a : Nat} (hn : n / 32 * 4 < 48) (h : ¬ IrqReg a) : rdn (irqUpdate n s) a = rdn s a := by
  have h1 : a ≠ HE_IPEND + n / 32 * 4 := by
    intro e; apply h; left; omega
  unfold irqUpdate
  dsimp only
  split
  · rfl
  · rw [rdn_congr (regs_intxEval _)]
    split
    · rw [rdn_vecEval _ (vecReg _ _) h, rdn_regBit_other _ _ h1]
    · rw [rdn_regBit_other _ _ h1]

theorem ite_some {α : Type} {p : Prop} [Decidable p] {x z : α} {y : Option α} (h : (if p then some x else y) = some z) :
    (p ∧ x = z) ∨ (¬ p ∧ y = some z) := by
  by_cases hp : p <;> simp_all

theorem ite_none {α : Type} {p : Prop} [Decidable p] {z : α} {y : Option α} (h : (if p then none else y) = some z) :
    ¬ p ∧ y = some z := by
  by_cases hp : p <;> simp_all

/-- The instances of the blocks that have several. -/
theorem locate_inst {a n o : Nat} {k : Blk} (h : locate a = some (k, n, o)) :
    n < 16 ∧ (k = .TW → n < 6) ∧ (k = .SL → n < 2) := by
  have fin : ∀ {k' : Blk} {n' o' : Nat}, (k', n', o') = (k, n, o) → n' < 16 → (k' = .TW → n' < 6) → (k' = .SL → n' < 2) →
      n < 16 ∧ (k = .TW → n < 6) ∧ (k = .SL → n < 2) := by
    intro k' n' o' e h1 h2 h3
    cases e
    exact ⟨h1, h2, h3⟩
  unfold locate at h
  iterate 9
    rcases ite_some h with ⟨hp, e⟩ | ⟨hp, h⟩
    · exact fin e (by norm_num) (by simp) (by simp)
    clear hp
  rcases ite_some h with ⟨hp, e⟩ | ⟨hp, h⟩
  · exact fin e (by omega) (fun _ => by omega) (by simp)
  obtain ⟨hp, h⟩ := ite_none h
  iterate 2
    rcases ite_some h with ⟨hp, e⟩ | ⟨hp, h⟩
    · exact fin e (by norm_num) (by simp) (by simp)
  rcases ite_some h with ⟨hp, e⟩ | ⟨hp, h⟩
  · exact fin e (by omega) (by simp) (fun _ => by omega)
  obtain ⟨hp, h⟩ := ite_none h
  clear hp
  iterate 6
    rcases ite_some h with ⟨hp, e⟩ | ⟨hp, h⟩
    · exact fin e (by norm_num) (by simp) (by simp)
    clear hp
  by_cases hq : a < 0x200000
  · rw [if_pos hq] at h
    iterate 6
      rcases ite_some h with ⟨hp, e⟩ | ⟨hp, h⟩
      · exact fin e (by omega) (by simp) (by simp)
      clear hp
    cases h
  · rw [if_neg hq] at h
    cases h

/-- Every interrupt source has a place in HE_IPEND. -/
theorem evtSource_lt {a n : Nat} (h : evtSource a = some n) : n / 32 * 4 < 48 := by
  unfold evtSource at h
  split at h
  all_goals first
    | (simp only [Option.some.injEq] at h; subst h; first | omega | (have := locate_inst ‹_›; simp at this; omega))
    | (split_ifs at h <;> simp only [Option.some.injEq] at h <;> subst h <;>
        first | omega | (have := locate_inst ‹_›; simp at this; omega))
    | cases h

theorem rdn_irqAt (s : State) (a : Nat) {b : Nat} (h : ¬ IrqReg b) : rdn (irqAt a s) b = rdn s b := by
  unfold irqAt
  split
  · rename_i n e
    exact rdn_irqUpdate s (evtSource_lt e) h
  · rfl

end Sys2Proof.Machine
end

