-- ==== Sys2Proof/Laws/Mailbox.lean ====
section
/-! SUPPORT. What an accepted mailbox command does, by what its own rules answer (R275, R278, R282). -/

namespace Sys2Proof.Machine

/-- An accepted command runs its own rules after it was taken. -/
theorem mbRun_accepted {sp : CmdSpec} {run : CmdCall → State → State × CmdRes} {c : CmdCall} {s : State} (h : Accepted sp c s) :
    mbRun sp run c s = runOwn sp run c (mbTake c s) := by
  obtain ⟨h1, h2, h3, h4, h5, _⟩ := h
  simp [mbRun, h1, h2, h3, h4, h5]

/-- An accepted command whose rules answer OK completes with their result. -/
theorem mbRun_ok {sp : CmdSpec} {run : CmdCall → State → State × CmdRes} {c : CmdCall} {s t : State} {res : List Byte}
    (h : Accepted sp c s) (hr : run c (mbTake c s) = (t, .ok res)) : mbRun sp run c s = completeCmd sp c 0 0 res t := by
  rw [mbRun_accepted h]
  simp only [runOwn, hr]

/-- An accepted command whose rules refuse completes with that status and has no effect. -/
theorem mbRun_refuse {sp : CmdSpec} {run : CmdCall → State → State × CmdRes} {c : CmdCall} {s : State} {st d : Nat}
    (h : Accepted sp c s) (hr : (run c (mbTake c s)).2 = .refuse st d) :
    mbRun sp run c s = completeCmd sp c st d [] (mbTake c s) := by
  rw [mbRun_accepted h]
  simp only [runOwn, hr]

/-- An accepted command whose rules wait for an event of outside is held as deferred. -/
theorem mbRun_defer {sp : CmdSpec} {run : CmdCall → State → State × CmdRes} {c : CmdCall} {s t : State} {stop : Bool}
    (h : Accepted sp c s) (hr : run c (mbTake c s) = (t, .defer stop)) :
    mbRun sp run c s = holdDeferred sp c stop false t := by
  rw [mbRun_accepted h]
  have h16 : ¬ 16 ≤ (chan (mbTake c s) c.chan.val).deferred.length := by have := h.2.2.2.2.2; omega
  simp [runOwn, hr, h16]

/-- An accepted command that reaches an access to host memory that cannot be made now is held until it can. -/
theorem mbRun_waits {sp : CmdSpec} {run : CmdCall → State → State × CmdRes} {c : CmdCall} {s : State}
    (h : Accepted sp c s) (hr : (run c (mbTake c s)).2 = .waits) :
    mbRun sp run c s = holdDeferred sp c true true (mbTake c s) := by
  rw [mbRun_accepted h]
  have h16 : ¬ 16 ≤ (chan (mbTake c s) c.chan.val).deferred.length := by have := h.2.2.2.2.2; omega
  simp [runOwn, hr, h16]

/-- An accepted command that answers for itself leaves the state of its rules. -/
theorem mbRun_silent {sp : CmdSpec} {run : CmdCall → State → State × CmdRes} {c : CmdCall} {s t : State}
    (h : Accepted sp c s) (hr : run c (mbTake c s) = (t, .silent)) : mbRun sp run c s = t := by
  rw [mbRun_accepted h]
  simp only [runOwn, hr]

end Sys2Proof.Machine
end

