-- ==== Sys2Proof/Laws/Medium.lean ====
section
/-! SUPPORT. The medium header (R333): a header written is intact when it is read with the same key, and what a boot does with
a medium of one intact header. -/

namespace Sys2Proof.Machine

theorem leBytes_length (n v : Nat) : (leBytes n v).length = n := by
  induction n generalizing v with
  | zero => rfl
  | succ n ih => simp [leBytes, ih]

theorem fit_length (n : Nat) (l : List Byte) : (fit n l).length = n := by
  simp [fit, zeros]

theorem hmac384_length (k l : List Byte) : (hmac384 k l).length = 48 := by
  simp [hmac384, sha384, beBytes, leBytes_length]

theorem crc32Bit_lt (c : Nat) (hc : c < 2 ^ 32) : crc32Bit c < 2 ^ 32 := by
  unfold crc32Bit
  split
  · exact Nat.xor_lt_two_pow (by omega) (by decide)
  · omega

theorem crc32Byte_lt (c : Nat) (b : Byte) (hc : c < 2 ^ 32) : crc32Byte c b < 2 ^ 32 := by
  have step : ∀ (m : List Nat) x, x < 2 ^ 32 → m.foldl (fun x _ => crc32Bit x) x < 2 ^ 32 := by
    intro m
    induction m with
    | nil => exact fun x hx => hx
    | cons _ m ih => exact fun x hx => ih _ (crc32Bit_lt x hx)
  exact step _ _ (Nat.xor_lt_two_pow hc (Nat.lt_of_lt_of_le b.isLt (by decide)))

/-- A CRC-32 has 32 bits. -/
theorem crc32_lt (l : List Byte) : crc32 l < 2 ^ 32 := by
  have fold : ∀ (l : List Byte) c, c < 2 ^ 32 → l.foldl crc32Byte c < 2 ^ 32 := by
    intro l
    induction l with
    | nil => exact fun c hc => hc
    | cons b l ih => exact fun c hc => ih _ (crc32Byte_lt c b hc)
  exact Nat.xor_lt_two_pow (fold _ _ (by decide)) (by decide)

theorem byteAt_append (a b : List Byte) (i : Nat) : byteAt (a ++ b) (a.length + i) = byteAt b i := by
  rw [byteAt, byteAt, List.getD_eq_getElem?_getD, List.getD_eq_getElem?_getD, List.getElem?_append_right (by omega),
    Nat.add_sub_cancel_left]

theorem byteAt_left (a b : List Byte) (i : Nat) (h : i < a.length) : byteAt (a ++ b) i = byteAt a i := by
  rw [byteAt, byteAt, List.getD_eq_getElem?_getD, List.getD_eq_getElem?_getD, List.getElem?_append_left h]

theorem byteAt_fit (n : Nat) (l : List Byte) (i : Nat) (h : i < n) : byteAt (fit n l) i = byteAt l i := by
  rw [byteAt, byteAt, List.getD_eq_getElem?_getD, List.getD_eq_getElem?_getD, fit, List.getElem?_take_of_lt h]
  rcases Nat.lt_or_ge i l.length with c | c
  · rw [List.getElem?_append_left c]
  · rw [List.getElem?_append_right c, List.getElem?_eq_none c, zeros, List.getElem?_replicate]
    split <;> rfl

/-- A u32 written after `a` is read there. -/
theorem u32At_append (a b : List Byte) (v : Nat) (h : v < 2 ^ 32) : u32At (a ++ leBytes 4 v ++ b) a.length = v := by
  have z := byteAt_append a (leBytes 4 v ++ b) 0
  simp only [Nat.add_zero] at z
  simp only [u32At, u16At, List.append_assoc, Nat.add_assoc, byteAt_append, z]
  simp [byteAt, leBytes]
  omega

/-- The header opens with its magic number and format. -/
theorem mediumHeader_magic (key : List Byte) (h : MediumHdr) (i : Nat) (hi : i < 6) :
    byteAt (mediumHeader key h) i = byteAt (leBytes 4 0x44454D5A ++ leBytes 2 0x0100) i := by
  unfold mediumHeader
  simp only [List.append_assoc]
  rw [byteAt_left _ _ _ (by rw [fit_length]; omega), byteAt_fit _ _ _ (by omega), ← List.append_assoc (leBytes 4 _) (leBytes 2 _),
    byteAt_left _ _ _ (by simp [leBytes_length]; omega)]

/-- A header written reads as intact under the same key, with the fields at its bytes (R333, R337). -/
theorem readHeader_mediumHeader (key : List Byte) (h : MediumHdr) : (readHeader key (mediumHeader key h)).isSome = true := by
  have m0 : u32At (mediumHeader key h) 0 = 0x44454D5A := by simp [u32At, u16At, mediumHeader_magic]; rfl
  have m4 : u16At (mediumHeader key h) 4 = 0x0100 := by simp [u16At, mediumHeader_magic]; rfl
  obtain ⟨body, hb, e⟩ : ∃ body, body.length = 4040 ∧ mediumHeader key h = (body ++ hmac384 key body) ++
      leBytes 4 (crc32 (body ++ hmac384 key body)) ++ zeros 4 := ⟨_, fit_length _ _, rfl⟩
  have hs : (body ++ hmac384 key body).length = 4088 := by simp [hb, hmac384_length]
  have h1 : (mediumHeader key h).length = 4096 := by simp [e, hb, hmac384_length, leBytes_length, zeros]
  have h2 : u32At (mediumHeader key h) 4088 = crc32 ((mediumHeader key h).take 4088) := by
    have c := u32At_append (body ++ hmac384 key body) (zeros 4) _ (crc32_lt (body ++ hmac384 key body))
    rw [e, ← hs, c, List.append_assoc, List.take_left]
  have h3 : hmac384 key ((mediumHeader key h).take 4040) = ((mediumHeader key h).drop 4040).take 48 := by
    rw [e]
    simp only [List.append_assoc]
    rw [List.take_left' hb, List.drop_left' hb, List.take_left' (hmac384_length _ _)]
  unfold readHeader
  rw [if_neg (by simp [h1, m0, m4, h2, h3])]
  rfl

/-- A boot that finds one intact header and one intact copy of the configuration store uses the header (R333, R337). -/
theorem mediumBoot_one (m : Medium) (key l : List Byte) (h : MediumHdr) (v : State) (hk : keyBytes v = key)
    (hu : mediumUsable m = true) (hh : m.headers = [(0, l)]) (hr : readHeader key l = some h) (hc : m.copies = [⟨1, true, 0⟩]) :
    ∃ u : State, mediumBoot m v =
        wearUpdate (ringRegs (restoreCredit (fset (useHeader h u) fMB_FW_SLOT_NEXT (useHeader h u).ev.nextSlot))) ∧
      u = { takeContents m (wrn v EV_MEDIUM (mediumWord m)) with
        ev := { (takeContents m (wrn v EV_MEDIUM (mediumWord m))).ev with hdrCopies := headerCopies key [(0, l)] } } := by
  refine ⟨_, ?_, rfl⟩
  have c : ∀ g, chooseCopy [⟨g, true, 0⟩] = some ⟨g, true, 0⟩ := by intro g; simp [chooseCopy]
  simp [mediumBoot, hk, hu, hh, hr, hc, c, headerCopies]

end Sys2Proof.Machine
end

