-- ==== Sys2Proof/WellFormed.lean ====
section
/-! DEFINITION. Well-formed commands: the operands that the types do not bound already. -/

namespace Sys2Proof

/-- A mailbox command whose header fields fit the entry of R270: one byte each for HIV and FLAGS, four for TAG, two for TARGET,
four reserved, two for LEN, eight for the host address of an INDIRECT payload; a command of another pier comes from a 10-bit pier
number. -/
def CmdCall.wf (c : CmdCall) : Bool :=
  decide (c.hiv < 256) && decide (c.flags < 256) && decide (c.tag < 2 ^ 32) && decide (c.target < 65536) &&
    decide (c.reserved < 2 ^ 32) && decide (c.payload.length < 65536) && decide (c.addr < 2 ^ 64) &&
    (match c.origin with | some p => decide (p < 1024) | none => true)

/-- The mailbox command that a row carries. -/
def Instr.call (i : Instr) : Option CmdCall :=
  match i with
  | .registerWrite _ _ _ _ => none
  | .powerOnReset => none
  | .powerOnResetRelease _ => none
  | .firmwareStartTimeout _ => none
  | .dennilRunning => none
  | .fullServiceEntry _ => none
  | .aonBrownout => none
  | .unitReset c => some c
  | .stewardRestart c => some c
  | .sleep c => some c
  | .wake => none
  | .bootInfo c => some c
  | .portEnable _ _ _ => none
  | .portDisable _ _ => none
  | .csi2PacketReceive _ _ _ _ _ _ _ _ => none
  | .pipelineOutputPlace _ => none
  | .frameStart _ _ _ _ _ => none
  | .frameEnd _ => none
  | .frameTimeout _ => none
  | .presenceAssert _ => none
  | .presenceLost _ => none
  | .powerFault _ _ => none
  | .slotPowerWrite _ _ _ => none
  | .powerSettle _ => none
  | .slotCapCommit _ _ _ => none
  | .attentionButton _ => none
  | .orderlyStop _ => none
  | .hotInsertProfileLoad _ _ _ => none
  | .linkTimeout _ => none
  | .sclkDivisorWrite _ _ _ => none
  | .slotArm _ _ _ => none
  | .slotCancel _ _ _ => none
  | .slotSendStart _ => none
  | .settingWriteDone _ _ => none
  | .settingWriteFail _ _ => none
  | .embeddedDataCheck _ _ _ => none
  | .settingForFrame c => some c
  | .settingCancel c => some c
  | .settingRawForFrame c => some c
  | .latencyProfileSet c => some c
  | .cxBankSwapRequest _ _ _ => none
  | .cxBankCancel _ _ _ => none
  | .tableWindowWrite _ _ _ _ => none
  | .corrLoadCal c => some c
  | .corrSetMode c => some c
  | .corrTableLoad c => some c
  | .corrBankSwap c => some c
  | .corrParams c => some c
  | .dmCommit _ _ _ => none
  | .tapEnable _ _ _ _ => none
  | .tapFrameComplete _ _ => none
  | .tapStart c => some c
  | .tapStop c => some c
  | .colourLoadCal c => some c
  | .colourParams c => some c
  | .statRingWrite _ _ => none
  | .statCommit _ _ _ => none
  | .statStart c => some c
  | .statStop c => some c
  | .statParams c => some c
  | .objectSeen _ => none
  | .sgCommit _ _ _ => none
  | .sgBankSwapRequest _ _ _ => none
  | .sgBankCancel _ _ _ => none
  | .segLearnBg c => some c
  | .segLoadProfile c => some c
  | .segParams c => some c
  | .segTableLoad c => some c
  | .orphanTimeout _ => none
  | .verdictDeadline _ => none
  | .entryRetire _ => none
  | .setCloseTime _ => none
  | .groupDisable _ _ => none
  | .mateCandReceive _ _ => none
  | .mateSetReceive _ _ => none
  | .mateOutcomeReceive _ _ => none
  | .mateVerdictReceive _ _ => none
  | .mateWithdrawReceive _ _ => none
  | .remoteWaitExpiry _ => none
  | .viewLoadCal c => some c
  | .viewCalRun c => some c
  | .viewCalRunEnd => none
  | .viewParams c => some c
  | .viewTableLoad c => some c
  | .tileCropStart _ _ _ => none
  | .tilePacketReceive _ _ _ _ _ => none
  | .tileDescriptorWrite _ _ => none
  | .tileDoneReceive _ _ => none
  | .tileAckTimeout _ => none
  | .tileIncompleteTimeout _ _ => none
  | .tileRingConsWrite _ _ => none
  | .verdictDoorbell _ _ => none
  | .verdictFetch => none
  | .verdictFetchComplete _ _ => none
  | .actVerdictReceive _ _ => none
  | .actOrderReceive _ _ => none
  | .actResultReceive _ _ => none
  | .actCancelReceive _ _ => none
  | .remoteLaunch _ => none
  | .frameAssemble _ => none
  | .valveFrameStart _ => none
  | .valveFrameEnd _ => none
  | .safeFrameRepeat => none
  | .idleSafeFrame _ => none
  | .busEnableWrite _ _ _ => none
  | .boardPoll _ _ => none
  | .statusFrameReceive _ _ => none
  | .pollNoAnswer _ => none
  | .ejectLoadCal c => some c
  | .ejectCalRun c => some c
  | .ejectCalRunEnd => none
  | .ejectTest c => some c
  | .tbNsRead _ _ => none
  | .tbSnap => none
  | .tbSourceWrite _ _ _ => none
  | .tb1Measure => none
  | .tbHoldoverEntry _ => none
  | .tbStep _ _ => none
  | .tbAlign _ => none
  | .tbClearIntegrator _ _ => none
  | .syncSend _ => none
  | .syncReceive _ _ _ _ => none
  | .dreqReceive _ _ _ => none
  | .drespReceive _ _ => none
  | .drespMiss => none
  | .ptmDialogue => none
  | .ptmResponse _ => none
  | .ppsEdge _ => none
  | .ppsMiss => none
  | .alarmFire _ => none
  | .timeLoadProfile c => some c
  | .timeAlign c => some c
  | .timeStep c => some c
  | .spanPortEnable _ _ _ _ => none
  | .spanDetect _ _ => none
  | .spanBitLock _ _ _ => none
  | .spanLockDone _ _ _ => none
  | .spanExchangeDone _ _ _ => none
  | .spanStateTimeout _ _ => none
  | .spanLaneFail _ _ _ _ _ _ => none
  | .spanLinkDown _ _ => none
  | .spanTsReceived _ _ => none
  | .spanRetrain _ _ _ _ => none
  | .skipSend _ => none
  | .skipReceive _ _ _ _ _ => none
  | .creditAuditSend _ => none
  | .creditAuditReceive _ _ => none
  | .eyeScanStart _ _ _ => none
  | .eyeScanDone _ _ => none
  | .spanLinkRetrain c => some c
  | .spanEyeScan c => some c
  | .spanLaneParams c => some c
  | .spanPacketForward _ _ _ _ _ _ _ => none
  | .spanPacketSend _ => none
  | .helloReceive _ _ => none
  | .creditReceive _ _ => none
  | .creditReturn _ => none
  | .enumReceive _ _ => none
  | .enumEndReceive _ => none
  | .enumTimeout => none
  | .reportReceive _ _ _ => none
  | .chainReceive _ => none
  | .pierReqReceive _ _ => none
  | .assignReceive _ => none
  | .renumReceive _ => none
  | .dennilMessageReceive _ _ => none
  | .bulkPacketReceive _ _ => none
  | .spanChainRead c => some c
  | .spanReenumerate c => some c
  | .spanSetHost c => some c
  | .spanCreditParams c => some c
  | .hostLinkUp _ _ => none
  | .configRequest _ _ _ _ _ _ => none
  | .memoryRequest _ _ _ _ _ _ _ _ _ _ => none
  | .busMasterEnableClear => none
  | .busMasterEnableSet => none
  | .d3hotEntry => none
  | .functionLevelReset => none
  | .flrDmaSilence => none
  | .flrComplete => none
  | .linkReset _ => none
  | .completionTimeout _ => none
  | .completionReceive _ _ _ => none
  | .tagQuarantineEnd _ => none
  | .tagPoolSwitch => none
  | .vectorEoi _ => none
  | .laneMarginCommand _ _ _ => none
  | .descriptorImageRefresh => none
  | .channelOpenRequest _ => none
  | .channelOpen _ => none
  | .mbClose _ => none
  | .commandDoorbell _ _ => none
  | .commandTake _ _ _ _ => none
  | .completionWrite _ => none
  | .eventDeliver _ => none
  | .deferredComplete _ _ _ _ => none
  | .leaseExpiry _ => none
  | .sensorProfileLoad c => some c
  | .portStop c => some c
  | .portPower c => some c
  | .info c => some c
  | .channelClose c => some c
  | .expertTokenSet c => some c
  | .fwWrite c => some c
  | .fwActivate c => some c
  | .cmdAbort c => some c
  | .eventMask c => some c
  | .leaseOpen c => some c
  | .leaseClose c => some c
  | .leaseRenew c => some c
  | .cwVersion => none
  | .cwStatus => none
  | .fwLoad _ _ _ => none
  | .capture => none
  | .twCommandGo _ _ _ => none
  | .twTransactionStart _ => none
  | .twTransactionEnd _ _ _ _ _ _ _ => none
  | .twTargetCommit _ _ _ _ _ => none
  | .twTargetRead _ _ _ _ _ => none
  | .twSclTimeout _ _ => none
  | .twSdaTimeout _ _ => none
  | .twAlertRequest _ _ _ => none
  | .twAlertInEdge _ _ => none
  | .twWakeMatch _ _ => none
  | .twLoadProfile c => some c
  | .twTgtResp c => some c
  | .twXfer c => some c
  | .lbGrant _ _ => none
  | .lbOutboundBeat => none
  | .lbTransactionEnd _ _ => none
  | .lbNorespTimeout => none
  | .lockedSequence _ => none
  | .lbInboundWrite _ _ _ _ => none
  | .lbInboundRead _ _ _ => none
  | .delayedReadComplete _ _ _ => none
  | .delayedReadDiscard _ => none
  | .abLogInfoRead _ _ => none
  | .sidebandSample _ => none
  | .abLoadProfile c => some c
  | .abParams c => some c
  | .codewordRead _ _ _ _ _ _ _ => none
  | .nandProgramDone _ _ _ _ => none
  | .nandEraseDone _ _ _ => none
  | .patrolPass _ => none
  | .blockRefresh _ _ _ => none
  | .calCompaction => none
  | .eraseCreditAccrue => none
  | .evidenceWrite _ _ _ _ => none
  | .logPeriodic => none
  | .faultRecord => none
  | .evidRead c => some c
  | .logRead c => some c
  | .evInfo c => some c
  | .evidClear c => some c
  | .tollPeriodStart => none
  | .tollCommit _ => none
  | .tollRescale _ => none
  | .lp5xChannelLost _ _ _ _ _ _ => none
  | .scrubPass _ _ => none
  | .tollLoadProfile c => some c
  | .memInfo c => some c
  | .tollSet c => some c
  | .poolSet c => some c
  | .emInputEdge _ _ => none
  | .emOutPulseEnd _ => none
  | .emFireWrite _ _ => none
  | .stormTrip _ => none
  | .emTripClear _ _ _ => none
  | .cellClear _ _ => none
  | .emLoadProfile c => some c
  | .emFire c => some c
  | .emRouteLoad c => some c
  | .queueRtagRead _ _ _ => none
  | .queueStale _ => none
  | .queueHwRead _ => none
  | .faultDetect _ _ => none
  | .parapetNoticeReceive _ => none
  | .supplyExcursion _ => none
  | .tjWarn _ => none
  | .tjCritical _ => none
  | .clockLoss _ => none
  | .watchdogExpiry => none
  | .watchdogKick _ => none
  | .watchdogEnable _ => none
  | .aliveToggle => none
  | .safeForce _ => none
  | .safeRelease _ _ => none
  | .stickyClear _ _ _ _ => none
  | .divertHoldWrite _ _ => none
  | .paClear c => some c
  | .paRelease c => some c
  | .paForceSafe c => some c
  | .paConfig c => some c
  | .auditPass => none
  | .writeWindowClose _ => none
  | .ulpsEntryExit _ _ _ => none
  | .perstNRelease => none
  | .startStopCondition _ _ => none
  | .cellFire _ => none
  | .tjSample _ => none

/-- A 32-bit number, as an object ID, a set or a SEQ is. -/
abbrev isU32 (n : Nat) : Bool := decide (n < 4294967296)

/-- A 10-bit pier number. -/
abbrev isPier (n : Nat) : Bool := decide (n < 1024)

/-- A payload that fits a Span packet or a host read of 4,096 bytes. -/
abbrev isPayload (l : List Byte) : Bool := decide (l.length ≤ 4096)

/-- Is the command well-formed? A register write enables a byte of an aligned dword (R6); a memory write carries as many bytes as its
dwords hold. -/
def Instr.wf (i : Instr) : Bool :=
  match i with
  | .registerWrite _ addr _ be => decide (addr.toNat % 4 = 0) && be != 0
  | .powerOnReset => true
  | .powerOnResetRelease _ => true
  | .firmwareStartTimeout _ => true
  | .dennilRunning => true
  | .fullServiceEntry _ => true
  | .aonBrownout => true
  | .unitReset c => c.wf
  | .stewardRestart c => c.wf
  | .sleep c => c.wf
  | .wake => true
  | .bootInfo c => c.wf
  | .portEnable _ _ _ => true
  | .portDisable _ _ => true
  | .csi2PacketReceive _ _ _ _ _ _ payload _ => isPayload payload
  | .pipelineOutputPlace _ => true
  | .frameStart _ _ _ _ _ => true
  | .frameEnd _ => true
  | .frameTimeout _ => true
  | .presenceAssert _ => true
  | .presenceLost _ => true
  | .powerFault _ _ => true
  | .slotPowerWrite _ _ _ => true
  | .powerSettle _ => true
  | .slotCapCommit _ _ _ => true
  | .attentionButton _ => true
  | .orderlyStop _ => true
  | .hotInsertProfileLoad _ _ _ => true
  | .linkTimeout _ => true
  | .sclkDivisorWrite _ _ _ => true
  | .slotArm _ _ _ => true
  | .slotCancel _ _ _ => true
  | .slotSendStart _ => true
  | .settingWriteDone _ _ => true
  | .settingWriteFail _ _ => true
  | .embeddedDataCheck _ data _ => isPayload data
  | .settingForFrame c => c.wf
  | .settingCancel c => c.wf
  | .settingRawForFrame c => c.wf
  | .latencyProfileSet c => c.wf
  | .cxBankSwapRequest _ _ _ => true
  | .cxBankCancel _ _ _ => true
  | .tableWindowWrite _ _ _ _ => true
  | .corrLoadCal c => c.wf
  | .corrSetMode c => c.wf
  | .corrTableLoad c => c.wf
  | .corrBankSwap c => c.wf
  | .corrParams c => c.wf
  | .dmCommit _ _ _ => true
  | .tapEnable _ _ _ _ => true
  | .tapFrameComplete _ _ => true
  | .tapStart c => c.wf
  | .tapStop c => c.wf
  | .colourLoadCal c => c.wf
  | .colourParams c => c.wf
  | .statRingWrite _ _ => true
  | .statCommit _ _ _ => true
  | .statStart c => c.wf
  | .statStop c => c.wf
  | .statParams c => c.wf
  | .objectSeen id => isU32 id
  | .sgCommit _ _ _ => true
  | .sgBankSwapRequest _ _ _ => true
  | .sgBankCancel _ _ _ => true
  | .segLearnBg c => c.wf
  | .segLoadProfile c => c.wf
  | .segParams c => c.wf
  | .segTableLoad c => c.wf
  | .orphanTimeout id => isU32 id
  | .verdictDeadline owner => isU32 owner
  | .entryRetire owner => isU32 owner
  | .setCloseTime low => isU32 low
  | .groupDisable _ _ => true
  | .mateCandReceive src payload => isPier src && isPayload payload
  | .mateSetReceive src payload => isPier src && isPayload payload
  | .mateOutcomeReceive src payload => isPier src && isPayload payload
  | .mateVerdictReceive src payload => isPier src && isPayload payload
  | .mateWithdrawReceive src payload => isPier src && isPayload payload
  | .remoteWaitExpiry id => isU32 id
  | .viewLoadCal c => c.wf
  | .viewCalRun c => c.wf
  | .viewCalRunEnd => true
  | .viewParams c => c.wf
  | .viewTableLoad c => c.wf
  | .tileCropStart id _ read => isU32 id && isU32 read.addr
  | .tilePacketReceive src msg seg payload _ => isPier src && isU32 msg && isU32 seg && isPayload payload
  | .tileDescriptorWrite _ seq => isU32 seq
  | .tileDoneReceive src payload => isPier src && isPayload payload
  | .tileAckTimeout id => isU32 id
  | .tileIncompleteTimeout _ seq => isU32 seq
  | .tileRingConsWrite _ _ => true
  | .verdictDoorbell _ _ => true
  | .verdictFetch => true
  | .verdictFetchComplete _ data => isPayload data
  | .actVerdictReceive src payload => isPier src && isPayload payload
  | .actOrderReceive src payload => isPier src && isPayload payload
  | .actResultReceive src payload => isPier src && isPayload payload
  | .actCancelReceive src payload => isPier src && isPayload payload
  | .remoteLaunch owner => isU32 owner
  | .frameAssemble _ => true
  | .valveFrameStart _ => true
  | .valveFrameEnd _ => true
  | .safeFrameRepeat => true
  | .idleSafeFrame _ => true
  | .busEnableWrite _ _ _ => true
  | .boardPoll _ _ => true
  | .statusFrameReceive _ frame => isPayload frame
  | .pollNoAnswer _ => true
  | .ejectLoadCal c => c.wf
  | .ejectCalRun c => c.wf
  | .ejectCalRunEnd => true
  | .ejectTest c => c.wf
  | .tbNsRead _ _ => true
  | .tbSnap => true
  | .tbSourceWrite _ _ _ => true
  | .tb1Measure => true
  | .tbHoldoverEntry _ => true
  | .tbStep _ _ => true
  | .tbAlign _ => true
  | .tbClearIntegrator _ _ => true
  | .syncSend _ => true
  | .syncReceive _ payload _ gap => isPayload payload && isU32 gap
  | .dreqReceive _ payload _ => isPayload payload
  | .drespReceive _ payload => isPayload payload
  | .drespMiss => true
  | .ptmDialogue => true
  | .ptmResponse _ => true
  | .ppsEdge _ => true
  | .ppsMiss => true
  | .alarmFire _ => true
  | .timeLoadProfile c => c.wf
  | .timeAlign c => c.wf
  | .timeStep c => c.wf
  | .spanPortEnable _ _ _ _ => true
  | .spanDetect _ _ => true
  | .spanBitLock _ _ _ => true
  | .spanLockDone _ _ _ => true
  | .spanExchangeDone _ _ _ => true
  | .spanStateTimeout _ _ => true
  | .spanLaneFail _ _ cv disp _ _ => isU32 cv && isU32 disp
  | .spanLinkDown _ _ => true
  | .spanTsReceived _ _ => true
  | .spanRetrain _ _ _ _ => true
  | .skipSend _ => true
  | .skipReceive _ _ _ _ osErr => isU32 osErr
  | .creditAuditSend _ => true
  | .creditAuditReceive _ data => isPayload data
  | .eyeScanStart _ _ _ => true
  | .eyeScanDone _ errs => isU32 errs
  | .spanLinkRetrain c => c.wf
  | .spanEyeScan c => c.wf
  | .spanLaneParams c => c.wf
  | .spanPacketForward _ raw _ _ _ gap _ => isPayload raw && isU32 gap
  | .spanPacketSend _ => true
  | .helloReceive _ payload => isPayload payload
  | .creditReceive _ payload => isPayload payload
  | .creditReturn _ => true
  | .enumReceive _ payload => isPayload payload
  | .enumEndReceive payload => isPayload payload
  | .enumTimeout => true
  | .reportReceive _ hops payload => isU32 hops && isPayload payload
  | .chainReceive payload => isPayload payload
  | .pierReqReceive _ payload => isPayload payload
  | .assignReceive payload => isPayload payload
  | .renumReceive payload => isPayload payload
  | .dennilMessageReceive _ _ => true
  | .bulkPacketReceive _ payload => isPayload payload
  | .spanChainRead c => c.wf
  | .spanReenumerate c => c.wf
  | .spanSetHost c => c.wf
  | .spanCreditParams c => c.wf
  | .hostLinkUp _ _ => true
  | .configRequest _ _ _ _ _ _ => true
  | .memoryRequest _ op _ count _ _ data _ _ _ =>
    op != .write || decide (data.length = 4 * (if count = 0 then 1024 else count.toNat))
  | .busMasterEnableClear => true
  | .busMasterEnableSet => true
  | .d3hotEntry => true
  | .functionLevelReset => true
  | .flrDmaSilence => true
  | .flrComplete => true
  | .linkReset _ => true
  | .completionTimeout _ => true
  | .completionReceive _ _ data => isPayload data
  | .tagQuarantineEnd _ => true
  | .tagPoolSwitch => true
  | .vectorEoi _ => true
  | .laneMarginCommand _ _ _ => true
  | .descriptorImageRefresh => true
  | .channelOpenRequest _ => true
  | .channelOpen _ => true
  | .mbClose _ => true
  | .commandDoorbell _ _ => true
  | .commandTake entry indirect data _ => isPayload entry && isPayload indirect && isPayload data
  | .completionWrite _ => true
  | .eventDeliver _ => true
  | .deferredComplete _ _ _ _ => true
  | .leaseExpiry _ => true
  | .sensorProfileLoad c => c.wf
  | .portStop c => c.wf
  | .portPower c => c.wf
  | .info c => c.wf
  | .channelClose c => c.wf
  | .expertTokenSet c => c.wf
  | .fwWrite c => c.wf
  | .fwActivate c => c.wf
  | .cmdAbort c => c.wf
  | .eventMask c => c.wf
  | .leaseOpen c => c.wf
  | .leaseClose c => c.wf
  | .leaseRenew c => c.wf
  | .cwVersion => true
  | .cwStatus => true
  | .fwLoad _ _ addr => isU32 addr
  | .capture => true
  | .twCommandGo _ _ _ => true
  | .twTransactionStart _ => true
  | .twTransactionEnd _ acked data _ _ _ _ => isU32 acked && isPayload data
  | .twTargetCommit _ _ bytes _ _ => isPayload bytes
  | .twTargetRead _ _ clocked _ _ => isU32 clocked
  | .twSclTimeout _ _ => true
  | .twSdaTimeout _ _ => true
  | .twAlertRequest _ _ _ => true
  | .twAlertInEdge _ _ => true
  | .twWakeMatch _ _ => true
  | .twLoadProfile c => c.wf
  | .twTgtResp c => c.wf
  | .twXfer c => c.wf
  | .lbGrant _ _ => true
  | .lbOutboundBeat => true
  | .lbTransactionEnd _ _ => true
  | .lbNorespTimeout => true
  | .lockedSequence _ => true
  | .lbInboundWrite _ _ _ _ => true
  | .lbInboundRead _ _ _ => true
  | .delayedReadComplete _ _ _ => true
  | .delayedReadDiscard _ => true
  | .abLogInfoRead _ _ => true
  | .sidebandSample _ => true
  | .abLoadProfile c => c.wf
  | .abParams c => c.wf
  | .codewordRead _ idx cw block _ fixed _ => isU32 idx && isU32 cw && isU32 block && isU32 fixed
  | .nandProgramDone _ block _ _ => isU32 block
  | .nandEraseDone _ block _ => isU32 block
  | .patrolPass _ => true
  | .blockRefresh _ block _ => isU32 block
  | .calCompaction => true
  | .eraseCreditAccrue => true
  | .evidenceWrite good erases _ read => isU32 good && isU32 erases && isU32 read.addr
  | .logPeriodic => true
  | .faultRecord => true
  | .evidRead c => c.wf
  | .logRead c => c.wf
  | .evInfo c => c.wf
  | .evidClear c => c.wf
  | .tollPeriodStart => true
  | .tollCommit _ => true
  | .tollRescale _ => true
  | .lp5xChannelLost _ _ _ _ _ _ => true
  | .scrubPass _ _ => true
  | .tollLoadProfile c => c.wf
  | .memInfo c => c.wf
  | .tollSet c => c.wf
  | .poolSet c => c.wf
  | .emInputEdge _ _ => true
  | .emOutPulseEnd _ => true
  | .emFireWrite _ _ => true
  | .stormTrip _ => true
  | .emTripClear _ _ _ => true
  | .cellClear _ _ => true
  | .emLoadProfile c => c.wf
  | .emFire c => c.wf
  | .emRouteLoad c => c.wf
  | .queueRtagRead _ _ _ => true
  | .queueStale _ => true
  | .queueHwRead _ => true
  | .faultDetect _ _ => true
  | .parapetNoticeReceive payload => isPayload payload
  | .supplyExcursion _ => true
  | .tjWarn _ => true
  | .tjCritical _ => true
  | .clockLoss _ => true
  | .watchdogExpiry => true
  | .watchdogKick _ => true
  | .watchdogEnable _ => true
  | .aliveToggle => true
  | .safeForce _ => true
  | .safeRelease _ _ => true
  | .stickyClear _ _ _ _ => true
  | .divertHoldWrite _ _ => true
  | .paClear c => c.wf
  | .paRelease c => c.wf
  | .paForceSafe c => c.wf
  | .paConfig c => c.wf
  | .auditPass => true
  | .writeWindowClose _ => true
  | .ulpsEntryExit _ _ _ => true
  | .perstNRelease => true
  | .startStopCondition _ _ => true
  | .cellFire _ => true
  | .tjSample _ => true

end Sys2Proof
end

