-- ==== Sys2Proof/Laws/PerInstr.lean ====
section
/-! SUPPORT. The family Call: a well-formed command that carries a mailbox entry carries a well-formed one (R270). -/

namespace Sys2Proof.Laws.Call

/-- A well-formed command's mailbox entry is well-formed. -/
def Statement (i : Instr) : Prop := i.wf = true → ∀ c, i.call = some c → c.wf = true

/-- A command that carries no entry. -/
theorem none_call (i : Instr) (h : i.call = none) : Statement i := fun _ c hc => by rw [h] at hc; cases hc

/-- A command that is nothing but its entry. -/
theorem some_call (i : Instr) (c : CmdCall) (h : i.call = some c) (hw : i.wf = c.wf) : Statement i := fun w d hd => by
  rw [h] at hd; cases hd; rw [← hw]; exact w

theorem registerWrite (ag : Agent) (addr : BitVec 24) (value : Word) (be : BitVec 4) : Statement (.registerWrite ag addr value be) := none_call _ rfl
theorem powerOnReset : Statement (.powerOnReset) := none_call _ rfl
theorem powerOnResetRelease (found : BootFound) : Statement (.powerOnResetRelease found) := none_call _ rfl
theorem firmwareStartTimeout (signed : BitVec 3) : Statement (.firmwareStartTimeout signed) := none_call _ rfl
theorem dennilRunning : Statement (.dennilRunning) := none_call _ rfl
theorem fullServiceEntry (buses : BitVec 4) : Statement (.fullServiceEntry buses) := none_call _ rfl
theorem aonBrownout : Statement (.aonBrownout) := none_call _ rfl
theorem unitReset (c : CmdCall) : Statement (.unitReset c) := some_call _ c rfl rfl
theorem stewardRestart (c : CmdCall) : Statement (.stewardRestart c) := some_call _ c rfl rfl
theorem sleep (c : CmdCall) : Statement (.sleep c) := some_call _ c rfl rfl
theorem wake : Statement (.wake) := none_call _ rfl
theorem bootInfo (c : CmdCall) : Statement (.bootInfo c) := some_call _ c rfl rfl
theorem portEnable (ag : Agent) (port : PortNo) (value : BitVec 32) : Statement (.portEnable ag port value) := none_call _ rfl
theorem portDisable (ag : Agent) (port : PortNo) : Statement (.portDisable ag port) := none_call _ rfl
theorem csi2PacketReceive (port : PortNo) (stamp : BitVec 32) (ecc : Fin 3) (dt : BitVec 6) (vc : BitVec 4) (field : BitVec 16) (payload : List Byte) (crcErr : Bool) : Statement (.csi2PacketReceive port stamp ecc dt vc field payload crcErr) := none_call _ rfl
theorem pipelineOutputPlace (port : PortNo) : Statement (.pipelineOutputPlace port) := none_call _ rfl
theorem frameStart (port : PortNo) (stamp : BitVec 32) (fn : BitVec 16) (desc0 : List Byte) (desc1 : List Byte) : Statement (.frameStart port stamp fn desc0 desc1) := none_call _ rfl
theorem frameEnd (port : PortNo) : Statement (.frameEnd port) := none_call _ rfl
theorem frameTimeout (port : PortNo) : Statement (.frameTimeout port) := none_call _ rfl
theorem presenceAssert (port : PortNo) : Statement (.presenceAssert port) := none_call _ rfl
theorem presenceLost (port : PortNo) : Statement (.presenceLost port) := none_call _ rfl
theorem powerFault (port : PortNo) (asserted : Bool) : Statement (.powerFault port asserted) := none_call _ rfl
theorem slotPowerWrite (ag : Agent) (port : PortNo) (on : Bool) : Statement (.slotPowerWrite ag port on) := none_call _ rfl
theorem powerSettle (port : PortNo) : Statement (.powerSettle port) := none_call _ rfl
theorem slotCapCommit (ag : Agent) (port : PortNo) (caps : BitVec 5) : Statement (.slotCapCommit ag port caps) := none_call _ rfl
theorem attentionButton (port : PortNo) : Statement (.attentionButton port) := none_call _ rfl
theorem orderlyStop (port : PortNo) : Statement (.orderlyStop port) := none_call _ rfl
theorem hotInsertProfileLoad (port : PortNo) (profile : Fin 64) (headId : BitVec 64) : Statement (.hotInsertProfileLoad port profile headId) := none_call _ rfl
theorem linkTimeout (port : PortNo) : Statement (.linkTimeout port) := none_call _ rfl
theorem sclkDivisorWrite (ag : Agent) (k : Fin 8) (value : BitVec 32) : Statement (.sclkDivisorWrite ag k value) := none_call _ rfl
theorem slotArm (ag : Agent) (port : PortNo) (slot : Fin 8) : Statement (.slotArm ag port slot) := none_call _ rfl
theorem slotCancel (ag : Agent) (port : PortNo) (slot : Fin 8) : Statement (.slotCancel ag port slot) := none_call _ rfl
theorem slotSendStart (bus : Fin 4) : Statement (.slotSendStart bus) := none_call _ rfl
theorem settingWriteDone (port : PortNo) (slot : Fin 8) : Statement (.settingWriteDone port slot) := none_call _ rfl
theorem settingWriteFail (port : PortNo) (slot : Fin 8) : Statement (.settingWriteFail port slot) := none_call _ rfl
theorem embeddedDataCheck (port : PortNo) (data : List Byte) (written : BitVec 16) : Statement (.embeddedDataCheck port data written) := none_call _ rfl
theorem settingForFrame (c : CmdCall) : Statement (.settingForFrame c) := some_call _ c rfl rfl
theorem settingCancel (c : CmdCall) : Statement (.settingCancel c) := some_call _ c rfl rfl
theorem settingRawForFrame (c : CmdCall) : Statement (.settingRawForFrame c) := some_call _ c rfl rfl
theorem latencyProfileSet (c : CmdCall) : Statement (.latencyProfileSet c) := some_call _ c rfl rfl
theorem cxBankSwapRequest (ag : Agent) (port : PortNo) (v : Word) : Statement (.cxBankSwapRequest ag port v) := none_call _ rfl
theorem cxBankCancel (ag : Agent) (port : PortNo) (v : Word) : Statement (.cxBankCancel ag port v) := none_call _ rfl
theorem tableWindowWrite (ag : Agent) (wide : Bool) (index : Fin 5242880) (v : Word) : Statement (.tableWindowWrite ag wide index v) := none_call _ rfl
theorem corrLoadCal (c : CmdCall) : Statement (.corrLoadCal c) := some_call _ c rfl rfl
theorem corrSetMode (c : CmdCall) : Statement (.corrSetMode c) := some_call _ c rfl rfl
theorem corrTableLoad (c : CmdCall) : Statement (.corrTableLoad c) := some_call _ c rfl rfl
theorem corrBankSwap (c : CmdCall) : Statement (.corrBankSwap c) := some_call _ c rfl rfl
theorem corrParams (c : CmdCall) : Statement (.corrParams c) := some_call _ c rfl rfl
theorem dmCommit (ag : Agent) (port : PortNo) (v : Word) : Statement (.dmCommit ag port v) := none_call _ rfl
theorem tapEnable (ag : Agent) (port : PortNo) (engine : Fin 2) (v : Word) : Statement (.tapEnable ag port engine v) := none_call _ rfl
theorem tapFrameComplete (port : PortNo) (engine : Fin 2) : Statement (.tapFrameComplete port engine) := none_call _ rfl
theorem tapStart (c : CmdCall) : Statement (.tapStart c) := some_call _ c rfl rfl
theorem tapStop (c : CmdCall) : Statement (.tapStop c) := some_call _ c rfl rfl
theorem colourLoadCal (c : CmdCall) : Statement (.colourLoadCal c) := some_call _ c rfl rfl
theorem colourParams (c : CmdCall) : Statement (.colourParams c) := some_call _ c rfl rfl
theorem statRingWrite (port : PortNo) (poison : List Nat) : Statement (.statRingWrite port poison) := none_call _ rfl
theorem statCommit (ag : Agent) (port : PortNo) (v : Word) : Statement (.statCommit ag port v) := none_call _ rfl
theorem statStart (c : CmdCall) : Statement (.statStart c) := some_call _ c rfl rfl
theorem statStop (c : CmdCall) : Statement (.statStop c) := some_call _ c rfl rfl
theorem statParams (c : CmdCall) : Statement (.statParams c) := some_call _ c rfl rfl
theorem objectSeen (id : Nat) : Statement (.objectSeen id) := none_call _ rfl
theorem sgCommit (ag : Agent) (port : PortNo) (v : Word) : Statement (.sgCommit ag port v) := none_call _ rfl
theorem sgBankSwapRequest (ag : Agent) (port : PortNo) (v : Word) : Statement (.sgBankSwapRequest ag port v) := none_call _ rfl
theorem sgBankCancel (ag : Agent) (port : PortNo) (v : Word) : Statement (.sgBankCancel ag port v) := none_call _ rfl
theorem segLearnBg (c : CmdCall) : Statement (.segLearnBg c) := some_call _ c rfl rfl
theorem segLoadProfile (c : CmdCall) : Statement (.segLoadProfile c) := some_call _ c rfl rfl
theorem segParams (c : CmdCall) : Statement (.segParams c) := some_call _ c rfl rfl
theorem segTableLoad (c : CmdCall) : Statement (.segTableLoad c) := some_call _ c rfl rfl
theorem orphanTimeout (id : Nat) : Statement (.orphanTimeout id) := none_call _ rfl
theorem verdictDeadline (owner : Nat) : Statement (.verdictDeadline owner) := none_call _ rfl
theorem entryRetire (owner : Nat) : Statement (.entryRetire owner) := none_call _ rfl
theorem setCloseTime (low : Nat) : Statement (.setCloseTime low) := none_call _ rfl
theorem groupDisable (ag : Agent) (g : Fin 8) : Statement (.groupDisable ag g) := none_call _ rfl
theorem mateCandReceive (src : Nat) (payload : List Byte) : Statement (.mateCandReceive src payload) := none_call _ rfl
theorem mateSetReceive (src : Nat) (payload : List Byte) : Statement (.mateSetReceive src payload) := none_call _ rfl
theorem mateOutcomeReceive (src : Nat) (payload : List Byte) : Statement (.mateOutcomeReceive src payload) := none_call _ rfl
theorem mateVerdictReceive (src : Nat) (payload : List Byte) : Statement (.mateVerdictReceive src payload) := none_call _ rfl
theorem mateWithdrawReceive (src : Nat) (payload : List Byte) : Statement (.mateWithdrawReceive src payload) := none_call _ rfl
theorem remoteWaitExpiry (id : Nat) : Statement (.remoteWaitExpiry id) := none_call _ rfl
theorem viewLoadCal (c : CmdCall) : Statement (.viewLoadCal c) := some_call _ c rfl rfl
theorem viewCalRun (c : CmdCall) : Statement (.viewCalRun c) := some_call _ c rfl rfl
theorem viewCalRunEnd : Statement (.viewCalRunEnd) := none_call _ rfl
theorem viewParams (c : CmdCall) : Statement (.viewParams c) := some_call _ c rfl rfl
theorem viewTableLoad (c : CmdCall) : Statement (.viewTableLoad c) := some_call _ c rfl rfl
theorem tileCropStart (id : Nat) (cut : TileCut) (read : Lp5Read) : Statement (.tileCropStart id cut read) := none_call _ rfl
theorem tilePacketReceive (src : Nat) (msg : Nat) (seg : Nat) (payload : List Byte) (dmaCut : Bool) : Statement (.tilePacketReceive src msg seg payload dmaCut) := none_call _ rfl
theorem tileDescriptorWrite (ring : Fin 64) (seq : Nat) : Statement (.tileDescriptorWrite ring seq) := none_call _ rfl
theorem tileDoneReceive (src : Nat) (payload : List Byte) : Statement (.tileDoneReceive src payload) := none_call _ rfl
theorem tileAckTimeout (id : Nat) : Statement (.tileAckTimeout id) := none_call _ rfl
theorem tileIncompleteTimeout (ring : Fin 64) (seq : Nat) : Statement (.tileIncompleteTimeout ring seq) := none_call _ rfl
theorem tileRingConsWrite (ring : Fin 64) (value : Word) : Statement (.tileRingConsWrite ring value) := none_call _ rfl
theorem verdictDoorbell (ring : Fin 16) (tail : BitVec 12) : Statement (.verdictDoorbell ring tail) := none_call _ rfl
theorem verdictFetch : Statement (.verdictFetch) := none_call _ rfl
theorem verdictFetchComplete (ring : Fin 16) (data : List Byte) : Statement (.verdictFetchComplete ring data) := none_call _ rfl
theorem actVerdictReceive (src : Nat) (payload : List Byte) : Statement (.actVerdictReceive src payload) := none_call _ rfl
theorem actOrderReceive (src : Nat) (payload : List Byte) : Statement (.actOrderReceive src payload) := none_call _ rfl
theorem actResultReceive (src : Nat) (payload : List Byte) : Statement (.actResultReceive src payload) := none_call _ rfl
theorem actCancelReceive (src : Nat) (payload : List Byte) : Statement (.actCancelReceive src payload) := none_call _ rfl
theorem remoteLaunch (owner : Nat) : Statement (.remoteLaunch owner) := none_call _ rfl
theorem frameAssemble (b : BusNo) : Statement (.frameAssemble b) := none_call _ rfl
theorem valveFrameStart (b : BusNo) : Statement (.valveFrameStart b) := none_call _ rfl
theorem valveFrameEnd (b : BusNo) : Statement (.valveFrameEnd b) := none_call _ rfl
theorem safeFrameRepeat : Statement (.safeFrameRepeat) := none_call _ rfl
theorem idleSafeFrame (b : BusNo) : Statement (.idleSafeFrame b) := none_call _ rfl
theorem busEnableWrite (ag : Agent) (b : BusNo) (en : Bool) : Statement (.busEnableWrite ag b en) := none_call _ rfl
theorem boardPoll (b : BusNo) (addr : Fin 32) : Statement (.boardPoll b addr) := none_call _ rfl
theorem statusFrameReceive (b : BusNo) (frame : List Byte) : Statement (.statusFrameReceive b frame) := none_call _ rfl
theorem pollNoAnswer (b : BusNo) : Statement (.pollNoAnswer b) := none_call _ rfl
theorem ejectLoadCal (c : CmdCall) : Statement (.ejectLoadCal c) := some_call _ c rfl rfl
theorem ejectCalRun (c : CmdCall) : Statement (.ejectCalRun c) := some_call _ c rfl rfl
theorem ejectCalRunEnd : Statement (.ejectCalRunEnd) := none_call _ rfl
theorem ejectTest (c : CmdCall) : Statement (.ejectTest c) := some_call _ c rfl rfl
theorem tbNsRead (ag : Agent) (base : BaseNo) : Statement (.tbNsRead ag base) := none_call _ rfl
theorem tbSnap : Statement (.tbSnap) := none_call _ rfl
theorem tbSourceWrite (ag : Agent) (base : BaseNo) (src : Fin 8) : Statement (.tbSourceWrite ag base src) := none_call _ rfl
theorem tb1Measure : Statement (.tb1Measure) := none_call _ rfl
theorem tbHoldoverEntry (base : BaseNo) : Statement (.tbHoldoverEntry base) := none_call _ rfl
theorem tbStep (ag : Agent) (base : BaseNo) : Statement (.tbStep ag base) := none_call _ rfl
theorem tbAlign (ag : Agent) : Statement (.tbAlign ag) := none_call _ rfl
theorem tbClearIntegrator (ag : Agent) (base : BaseNo) : Statement (.tbClearIntegrator ag base) := none_call _ rfl
theorem syncSend (phase : Fin 32) : Statement (.syncSend phase) := none_call _ rfl
theorem syncReceive (port : SpanNo) (payload : List Byte) (phase : Fin 32) (gap : Nat) : Statement (.syncReceive port payload phase gap) := none_call _ rfl
theorem dreqReceive (port : SpanNo) (payload : List Byte) (phase : Fin 32) : Statement (.dreqReceive port payload phase) := none_call _ rfl
theorem drespReceive (port : SpanNo) (payload : List Byte) : Statement (.drespReceive port payload) := none_call _ rfl
theorem drespMiss : Statement (.drespMiss) := none_call _ rfl
theorem ptmDialogue : Statement (.ptmDialogue) := none_call _ rfl
theorem ptmResponse (root : BitVec 64) : Statement (.ptmResponse root) := none_call _ rfl
theorem ppsEdge (rising : Bool) : Statement (.ppsEdge rising) := none_call _ rfl
theorem ppsMiss : Statement (.ppsMiss) := none_call _ rfl
theorem alarmFire (alarm : Fin 8) : Statement (.alarmFire alarm) := none_call _ rfl
theorem timeLoadProfile (c : CmdCall) : Statement (.timeLoadProfile c) := some_call _ c rfl rfl
theorem timeAlign (c : CmdCall) : Statement (.timeAlign c) := some_call _ c rfl rfl
theorem timeStep (c : CmdCall) : Statement (.timeStep c) := some_call _ c rfl rfl
theorem spanPortEnable (ag : Agent) (port : SpanNo) (en : Bool) (cut : Fin 3) : Statement (.spanPortEnable ag port en cut) := none_call _ rfl
theorem spanDetect (port : SpanNo) (term : BitVec 4) : Statement (.spanDetect port term) := none_call _ rfl
theorem spanBitLock (port : SpanNo) (locked : BitVec 4) (inv : BitVec 4) : Statement (.spanBitLock port locked inv) := none_call _ rfl
theorem spanLockDone (port : SpanNo) (ok : BitVec 4) (plane : List (Fin 4)) : Statement (.spanLockDone port ok plane) := none_call _ rfl
theorem spanExchangeDone (port : SpanNo) (exch : List Byte) (offered : Fin 5) : Statement (.spanExchangeDone port exch offered) := none_call _ rfl
theorem spanStateTimeout (port : SpanNo) (locked : BitVec 4) : Statement (.spanStateTimeout port locked) := none_call _ rfl
theorem spanLaneFail (port : SpanNo) (lane : Fin 4) (cv : Nat) (disp : Nat) (comMiss : Bool) (cut : Fin 3) : Statement (.spanLaneFail port lane cv disp comMiss cut) := none_call _ rfl
theorem spanLinkDown (port : SpanNo) (cut : Fin 3) : Statement (.spanLinkDown port cut) := none_call _ rfl
theorem spanTsReceived (port : SpanNo) (cut : Fin 3) : Statement (.spanTsReceived port cut) := none_call _ rfl
theorem spanRetrain (ag : Agent) (port : SpanNo) (full : Bool) (cut : Fin 3) : Statement (.spanRetrain ag port full cut) := none_call _ rfl
theorem skipSend (port : SpanNo) : Statement (.skipSend port) := none_call _ rfl
theorem skipReceive (port : SpanNo) (adj : Bool) (cv : List Nat) (disp : List Nat) (osErr : Nat) : Statement (.skipReceive port adj cv disp osErr) := none_call _ rfl
theorem creditAuditSend (port : SpanNo) : Statement (.creditAuditSend port) := none_call _ rfl
theorem creditAuditReceive (port : SpanNo) (data : List Byte) : Statement (.creditAuditReceive port data) := none_call _ rfl
theorem eyeScanStart (ag : Agent) (port : SpanNo) (value : Word) : Statement (.eyeScanStart ag port value) := none_call _ rfl
theorem eyeScanDone (port : SpanNo) (errs : Nat) : Statement (.eyeScanDone port errs) := none_call _ rfl
theorem spanLinkRetrain (c : CmdCall) : Statement (.spanLinkRetrain c) := some_call _ c rfl rfl
theorem spanEyeScan (c : CmdCall) : Statement (.spanEyeScan c) := some_call _ c rfl rfl
theorem spanLaneParams (c : CmdCall) : Statement (.spanLaneParams c) := some_call _ c rfl rfl
theorem spanPacketForward (port : SpanNo) (raw : List Byte) (bad : Bool) (poison : Bool) (phase : Fin 32) (gap : Nat) (dmaCut : Bool) : Statement (.spanPacketForward port raw bad poison phase gap dmaCut) := none_call _ rfl
theorem spanPacketSend (port : SpanNo) : Statement (.spanPacketSend port) := none_call _ rfl
theorem helloReceive (port : SpanNo) (payload : List Byte) : Statement (.helloReceive port payload) := none_call _ rfl
theorem creditReceive (port : SpanNo) (payload : List Byte) : Statement (.creditReceive port payload) := none_call _ rfl
theorem creditReturn (port : SpanNo) : Statement (.creditReturn port) := none_call _ rfl
theorem enumReceive (port : SpanNo) (payload : List Byte) : Statement (.enumReceive port payload) := none_call _ rfl
theorem enumEndReceive (payload : List Byte) : Statement (.enumEndReceive payload) := none_call _ rfl
theorem enumTimeout : Statement (.enumTimeout) := none_call _ rfl
theorem reportReceive (port : SpanNo) (hops : Nat) (payload : List Byte) : Statement (.reportReceive port hops payload) := none_call _ rfl
theorem chainReceive (payload : List Byte) : Statement (.chainReceive payload) := none_call _ rfl
theorem pierReqReceive (port : SpanNo) (payload : List Byte) : Statement (.pierReqReceive port payload) := none_call _ rfl
theorem assignReceive (payload : List Byte) : Statement (.assignReceive payload) := none_call _ rfl
theorem renumReceive (payload : List Byte) : Statement (.renumReceive payload) := none_call _ rfl
theorem dennilMessageReceive (src : BitVec 10) (msg : DennilMsg) : Statement (.dennilMessageReceive src msg) := none_call _ rfl
theorem bulkPacketReceive (port : SpanNo) (payload : List Byte) : Statement (.bulkPacketReceive port payload) := none_call _ rfl
theorem spanChainRead (c : CmdCall) : Statement (.spanChainRead c) := some_call _ c rfl rfl
theorem spanReenumerate (c : CmdCall) : Statement (.spanReenumerate c) := some_call _ c rfl rfl
theorem spanSetHost (c : CmdCall) : Statement (.spanSetHost c) := some_call _ c rfl rfl
theorem spanCreditParams (c : CmdCall) : Statement (.spanCreditParams c) := some_call _ c rfl rfl
theorem hostLinkUp (speed : BitVec 3) (width : BitVec 5) : Statement (.hostLinkUp speed width) := none_call _ rfl
theorem configRequest (type1 : Bool) (write : Bool) (dw : BitVec 10) (be : BitVec 4) (data : Word) (tag : BitVec 10) : Statement (.configRequest type1 write dw be data tag) := none_call _ rfl
theorem memoryRequest (win : HostWindow) (op : MemOp) (dw : BitVec 34) (count : BitVec 10) (first : BitVec 4) (last : BitVec 4) (data : List Byte) (tag : BitVec 10) (poisoned : Bool) (check : ReadCheck) : Statement (.memoryRequest win op dw count first last data tag poisoned check) := none_call _ rfl
theorem busMasterEnableClear : Statement (.busMasterEnableClear) := none_call _ rfl
theorem busMasterEnableSet : Statement (.busMasterEnableSet) := none_call _ rfl
theorem d3hotEntry : Statement (.d3hotEntry) := none_call _ rfl
theorem functionLevelReset : Statement (.functionLevelReset) := none_call _ rfl
theorem flrDmaSilence : Statement (.flrDmaSilence) := none_call _ rfl
theorem flrComplete : Statement (.flrComplete) := none_call _ rfl
theorem linkReset (perst : Bool) : Statement (.linkReset perst) := none_call _ rfl
theorem completionTimeout (tag : BitVec 10) : Statement (.completionTimeout tag) := none_call _ rfl
theorem completionReceive (tag : BitVec 10) (status : Fin 3) (data : List Byte) : Statement (.completionReceive tag status data) := none_call _ rfl
theorem tagQuarantineEnd (tag : BitVec 10) : Statement (.tagQuarantineEnd tag) := none_call _ rfl
theorem tagPoolSwitch : Statement (.tagPoolSwitch) := none_call _ rfl
theorem vectorEoi (vector : BitVec 11) : Statement (.vectorEoi vector) := none_call _ rfl
theorem laneMarginCommand (lane : Fin 16) (control : BitVec 16) (errors : BitVec 6) : Statement (.laneMarginCommand lane control errors) := none_call _ rfl
theorem descriptorImageRefresh : Statement (.descriptorImageRefresh) := none_call _ rfl
theorem channelOpenRequest (ch : ChanNo) : Statement (.channelOpenRequest ch) := none_call _ rfl
theorem channelOpen (ch : ChanNo) : Statement (.channelOpen ch) := none_call _ rfl
theorem mbClose (ch : ChanNo) : Statement (.mbClose ch) := none_call _ rfl
theorem commandDoorbell (ch : ChanNo) (tail : BitVec 12) : Statement (.commandDoorbell ch tail) := none_call _ rfl
theorem commandTake (entry : List Byte) (indirect : List Byte) (data : List Byte) (nums : List Int) : Statement (.commandTake entry indirect data nums) := none_call _ rfl
theorem completionWrite (ch : ChanNo) : Statement (.completionWrite ch) := none_call _ rfl
theorem eventDeliver (ch : ChanNo) : Statement (.eventDeliver ch) := none_call _ rfl
theorem deferredComplete (ch : Fin 5) (tag : Word) (ok : Bool) (back : Option (Nat × Byte)) : Statement (.deferredComplete ch tag ok back) := none_call _ rfl
theorem leaseExpiry (lease : Fin 32) : Statement (.leaseExpiry lease) := none_call _ rfl
theorem sensorProfileLoad (c : CmdCall) : Statement (.sensorProfileLoad c) := some_call _ c rfl rfl
theorem portStop (c : CmdCall) : Statement (.portStop c) := some_call _ c rfl rfl
theorem portPower (c : CmdCall) : Statement (.portPower c) := some_call _ c rfl rfl
theorem info (c : CmdCall) : Statement (.info c) := some_call _ c rfl rfl
theorem channelClose (c : CmdCall) : Statement (.channelClose c) := some_call _ c rfl rfl
theorem expertTokenSet (c : CmdCall) : Statement (.expertTokenSet c) := some_call _ c rfl rfl
theorem fwWrite (c : CmdCall) : Statement (.fwWrite c) := some_call _ c rfl rfl
theorem fwActivate (c : CmdCall) : Statement (.fwActivate c) := some_call _ c rfl rfl
theorem cmdAbort (c : CmdCall) : Statement (.cmdAbort c) := some_call _ c rfl rfl
theorem eventMask (c : CmdCall) : Statement (.eventMask c) := some_call _ c rfl rfl
theorem leaseOpen (c : CmdCall) : Statement (.leaseOpen c) := some_call _ c rfl rfl
theorem leaseClose (c : CmdCall) : Statement (.leaseClose c) := some_call _ c rfl rfl
theorem leaseRenew (c : CmdCall) : Statement (.leaseRenew c) := some_call _ c rfl rfl
theorem cwVersion : Statement (.cwVersion) := none_call _ rfl
theorem cwStatus : Statement (.cwStatus) := none_call _ rfl
theorem fwLoad (sigOk : Bool) (check : ReadCheck) (addr : Nat) : Statement (.fwLoad sigOk check addr) := none_call _ rfl
theorem capture : Statement (.capture) := none_call _ rfl
theorem twCommandGo (ag : Agent) (block : TwNo) (value : BitVec 32) : Statement (.twCommandGo ag block value) := none_call _ rfl
theorem twTransactionStart (block : TwNo) : Statement (.twTransactionStart block) := none_call _ rfl
theorem twTransactionEnd (block : TwNo) (acked : Nat) (data : List Byte) (pecByte : Option (BitVec 8)) (status : Fin 5) (byte : BitVec 8) (bitNo : Fin 8) : Statement (.twTransactionEnd block acked data pecByte status byte bitNo) := none_call _ rfl
theorem twTargetCommit (block : TwNo) (addr : BitVec 7) (bytes : List Byte) (close : Fin 5) (lost : Option (Fin 8)) : Statement (.twTargetCommit block addr bytes close lost) := none_call _ rfl
theorem twTargetRead (block : TwNo) (addr : BitVec 7) (clocked : Nat) (win : Bool) (lost : Option (Fin 8)) : Statement (.twTargetRead block addr clocked win lost) := none_call _ rfl
theorem twSclTimeout (block : TwNo) (tgt : Bool) : Statement (.twSclTimeout block tgt) := none_call _ rfl
theorem twSdaTimeout (block : TwNo) (high : Bool) : Statement (.twSdaTimeout block high) := none_call _ rfl
theorem twAlertRequest (ag : Agent) (block : TwNo) (req : Bool) : Statement (.twAlertRequest ag block req) := none_call _ rfl
theorem twAlertInEdge (block : TwNo) (low : Bool) : Statement (.twAlertInEdge block low) := none_call _ rfl
theorem twWakeMatch (block : TwNo) (a1 : Bool) : Statement (.twWakeMatch block a1) := none_call _ rfl
theorem twLoadProfile (c : CmdCall) : Statement (.twLoadProfile c) := some_call _ c rfl rfl
theorem twTgtResp (c : CmdCall) : Statement (.twTgtResp c) := some_call _ c rfl rfl
theorem twXfer (c : CmdCall) : Statement (.twXfer c) := some_call _ c rfl rfl
theorem lbGrant (req0 : Bool) (req1 : Bool) : Statement (.lbGrant req0 req1) := none_call _ rfl
theorem lbOutboundBeat : Statement (.lbOutboundBeat) := none_call _ rfl
theorem lbTransactionEnd (resp : Fin 3) (data : Word) : Statement (.lbTransactionEnd resp data) := none_call _ rfl
theorem lbNorespTimeout : Statement (.lbNorespTimeout) := none_call _ rfl
theorem lockedSequence (resp : List (Nat × Nat)) : Statement (.lockedSequence resp) := none_call _ rfl
theorem lbInboundWrite (master : Fin 2) (addr : Word) (be : BitVec 4) (data : Word) : Statement (.lbInboundWrite master addr be data) := none_call _ rfl
theorem lbInboundRead (master : Fin 2) (addr : Word) (be : BitVec 4) : Statement (.lbInboundRead master addr be) := none_call _ rfl
theorem delayedReadComplete (entry : Fin 8) (status : Fin 3) (data : Word) : Statement (.delayedReadComplete entry status data) := none_call _ rfl
theorem delayedReadDiscard (entry : Fin 8) : Statement (.delayedReadDiscard entry) := none_call _ rfl
theorem abLogInfoRead (ag : Agent) (slot : Fin 8) : Statement (.abLogInfoRead ag slot) := none_call _ rfl
theorem sidebandSample (lines : BitVec 16) : Statement (.sidebandSample lines) := none_call _ rfl
theorem abLoadProfile (c : CmdCall) : Statement (.abLoadProfile c) := some_call _ c rfl rfl
theorem abParams (c : CmdCall) : Statement (.abParams c) := some_call _ c rfl rfl
theorem codewordRead (part : Fin 5) (idx : Nat) (cw : Nat) (block : Nat) (step : Fin 9) (fixed : Nat) (uncorr : Bool) : Statement (.codewordRead part idx cw block step fixed uncorr) := none_call _ rfl
theorem nandProgramDone (part : Fin 5) (block : Nat) (ok : Bool) (last : Bool) : Statement (.nandProgramDone part block ok last) := none_call _ rfl
theorem nandEraseDone (part : Fin 5) (block : Nat) (ok : Bool) : Statement (.nandEraseDone part block ok) := none_call _ rfl
theorem patrolPass (done : Bool) : Statement (.patrolPass done) := none_call _ rfl
theorem blockRefresh (part : Fin 5) (block : Nat) (uncorr : Bool) : Statement (.blockRefresh part block uncorr) := none_call _ rfl
theorem calCompaction : Statement (.calCompaction) := none_call _ rfl
theorem eraseCreditAccrue : Statement (.eraseCreditAccrue) := none_call _ rfl
theorem evidenceWrite (good : Nat) (erases : Nat) (cut : Bool) (read : Lp5Read) : Statement (.evidenceWrite good erases cut read) := none_call _ rfl
theorem logPeriodic : Statement (.logPeriodic) := none_call _ rfl
theorem faultRecord : Statement (.faultRecord) := none_call _ rfl
theorem evidRead (c : CmdCall) : Statement (.evidRead c) := some_call _ c rfl rfl
theorem logRead (c : CmdCall) : Statement (.logRead c) := some_call _ c rfl rfl
theorem evInfo (c : CmdCall) : Statement (.evInfo c) := some_call _ c rfl rfl
theorem evidClear (c : CmdCall) : Statement (.evidClear c) := some_call _ c rfl rfl
theorem tollPeriodStart : Statement (.tollPeriodStart) := none_call _ rfl
theorem tollCommit (ag : Agent) : Statement (.tollCommit ag) := none_call _ rfl
theorem tollRescale (resource : Fin 4) : Statement (.tollRescale resource) := none_call _ rfl
theorem lp5xChannelLost (channel : Fin 8) (retrain : Bool) (free : List Nat) (other : List Nat) (copies : List (Nat × Nat)) (tiles : List (Nat × Nat × Nat)) : Statement (.lp5xChannelLost channel retrain free other copies tiles) := none_call _ rfl
theorem scrubPass (ces : List Nat) (ues : List Nat) : Statement (.scrubPass ces ues) := none_call _ rfl
theorem tollLoadProfile (c : CmdCall) : Statement (.tollLoadProfile c) := some_call _ c rfl rfl
theorem memInfo (c : CmdCall) : Statement (.memInfo c) := some_call _ c rfl rfl
theorem tollSet (c : CmdCall) : Statement (.tollSet c) := some_call _ c rfl rfl
theorem poolSet (c : CmdCall) : Statement (.poolSet c) := some_call _ c rfl rfl
theorem emInputEdge (inp : Fin 16) (ball : Bool) : Statement (.emInputEdge inp ball) := none_call _ rfl
theorem emOutPulseEnd (out : Fin 16) : Statement (.emOutPulseEnd out) := none_call _ rfl
theorem emFireWrite (ag : Agent) (producer : Fin 256) : Statement (.emFireWrite ag producer) := none_call _ rfl
theorem stormTrip (producer : Fin 256) : Statement (.stormTrip producer) := none_call _ rfl
theorem emTripClear (ag : Agent) (word : Fin 8) (mask : Word) : Statement (.emTripClear ag word mask) := none_call _ rfl
theorem cellClear (ag : Agent) (cell : Fin 32) : Statement (.cellClear ag cell) := none_call _ rfl
theorem emLoadProfile (c : CmdCall) : Statement (.emLoadProfile c) := some_call _ c rfl rfl
theorem emFire (c : CmdCall) : Statement (.emFire c) := some_call _ c rfl rfl
theorem emRouteLoad (c : CmdCall) : Statement (.emRouteLoad c) := some_call _ c rfl rfl
theorem queueRtagRead (ag : Agent) (q : Fin 66) (poison : Bool) : Statement (.queueRtagRead ag q poison) := none_call _ rfl
theorem queueStale (q : Fin 66) : Statement (.queueStale q) := none_call _ rfl
theorem queueHwRead (q : Fin 66) : Statement (.queueHwRead q) := none_call _ rfl
theorem faultDetect (src : Fin 512) (holds : Bool) : Statement (.faultDetect src holds) := none_call _ rfl
theorem parapetNoticeReceive (payload : List Byte) : Statement (.parapetNoticeReceive payload) := none_call _ rfl
theorem supplyExcursion (rail : Fin 8) : Statement (.supplyExcursion rail) := none_call _ rfl
theorem tjWarn (tj : BitVec 16) : Statement (.tjWarn tj) := none_call _ rfl
theorem tjCritical (tj : BitVec 16) : Statement (.tjCritical tj) := none_call _ rfl
theorem clockLoss (clock : Fin 3) : Statement (.clockLoss clock) := none_call _ rfl
theorem watchdogExpiry : Statement (.watchdogExpiry) := none_call _ rfl
theorem watchdogKick (ag : Agent) : Statement (.watchdogKick ag) := none_call _ rfl
theorem watchdogEnable (ag : Agent) : Statement (.watchdogEnable ag) := none_call _ rfl
theorem aliveToggle : Statement (.aliveToggle) := none_call _ rfl
theorem safeForce (ag : Agent) : Statement (.safeForce ag) := none_call _ rfl
theorem safeRelease (ag : Agent) (ended : List Nat) : Statement (.safeRelease ag ended) := none_call _ rfl
theorem stickyClear (ag : Agent) (word : Fin 16) (mask : Word) (ended : List Nat) : Statement (.stickyClear ag word mask ended) := none_call _ rfl
theorem divertHoldWrite (ag : Agent) (hold : Bool) : Statement (.divertHoldWrite ag hold) := none_call _ rfl
theorem paClear (c : CmdCall) : Statement (.paClear c) := some_call _ c rfl rfl
theorem paRelease (c : CmdCall) : Statement (.paRelease c) := some_call _ c rfl rfl
theorem paForceSafe (c : CmdCall) : Statement (.paForceSafe c) := some_call _ c rfl rfl
theorem paConfig (c : CmdCall) : Statement (.paConfig c) := some_call _ c rfl rfl
theorem auditPass : Statement (.auditPass) := none_call _ rfl
theorem writeWindowClose (port : PortNo) : Statement (.writeWindowClose port) := none_call _ rfl
theorem ulpsEntryExit (port : PortNo) (lane : Fin 5) (mode : Fin 3) : Statement (.ulpsEntryExit port lane mode) := none_call _ rfl
theorem perstNRelease : Statement (.perstNRelease) := none_call _ rfl
theorem startStopCondition (block : TwNo) (start : Bool) : Statement (.startStopCondition block start) := none_call _ rfl
theorem cellFire (cell : Fin 32) : Statement (.cellFire cell) := none_call _ rfl
theorem tjSample (tj : BitVec 16) : Statement (.tjSample tj) := none_call _ rfl

end Sys2Proof.Laws.Call
end

