-- ==== Sys2Proof/Laws/Sound.lean ====
section
/-! SUPPORT. What every operation leaves unchanged. `Sound K c b s` says that the components of `s` for which `K` holds are
those of `b` and, where `c` holds, that the memories of `s` are canonical. Every operation of the model keeps it, provided that
`K` holds for none of the components that the operation may change (`Free K L`); this file has the rules for the primitive
operations, and the files Laws/Sound<Family>.lean one lemma per operation. -/

namespace Sys2Proof.Machine

/-- The components for which `K` holds are those of `b`; if `c` then the memories are canonical. -/
def Sound (K : Comp → Prop) (c : Prop) (b s : State) : Prop := (∀ p, K p → p.same b s) ∧ (c → Canon s)

/-- `K` holds for no component of the list. -/
def Free (K : Comp → Prop) (l : List Comp) : Prop := ∀ p ∈ l, ¬ K p

variable {K : Comp → Prop} {c : Prop} {b s t : State}

theorem Free.mono {l m : List Comp} (h : Free K l) (hs : m.all (fun p => l.contains p) = true) : Free K m := by
  intro p hp
  have := List.all_eq_true.mp hs p hp
  exact h p (by simpa using this)

theorem Free.not {l : List Comp} (h : Free K l) (p : Comp) (hp : l.contains p = true) : ¬ K p := h p (by simpa using hp)

theorem Comp.same_trans {p : Comp} {r : State} (h1 : p.same r s) (h2 : p.same s t) : p.same r t := by
  cases p <;> exact Eq.trans h2 h1

theorem Sound.refl (K : Comp → Prop) (c : Prop) (hc : c → Canon s) : Sound K c s s :=
  ⟨fun p _ => by cases p <;> rfl, hc⟩

/-- A change of components for which `K` does not hold, and of none of the sparse memories. -/
theorem Sound.step (h : Sound K c b s) (hs : ∀ p, K p → p.same s t) (hr : t.regs = s.regs) (ht : t.tables = s.tables)
    (hm : t.mem.lp5 = s.mem.lp5) (hc : t.he.cfg = s.he.cfg) : Sound K c b t := by
  refine ⟨fun p hp => Comp.same_trans (h.1 p hp) (hs p hp), fun hc' => ?_⟩
  have := h.2 hc'
  unfold Canon at *
  rwa [hr, ht, hm, hc]

/-- A change of a component for which `K` does not hold that leaves the memories canonical. -/
theorem Sound.touch (h : Sound K c b s) (hs : ∀ p, K p → p.same s t) (hc : Canon s → Canon t) : Sound K c b t :=
  ⟨fun p hp => Comp.same_trans (h.1 p hp) (hs p hp), fun hc' => hc (h.2 hc')⟩

theorem Sound.ite {p : Prop} [Decidable p] (h1 : p → Sound K c b s) (h2 : ¬ p → Sound K c b t) :
    Sound K c b (if p then s else t) := by split <;> simp_all

theorem Sound.ite1 {β : Type} {p : Prop} [Decidable p] {x y : State × β} (h1 : p → Sound K c b x.1)
    (h2 : ¬ p → Sound K c b y.1) : Sound K c b (if p then x else y).1 := by split <;> simp_all

theorem Sound.ite2 {β : Type} {p : Prop} [Decidable p] {x y : β × State} (h1 : p → Sound K c b x.2)
    (h2 : ¬ p → Sound K c b y.2) : Sound K c b (if p then x else y).2 := by split <;> simp_all

/-- An outcome is sound: it is a next state, and that state is. -/
def SoundOut (K : Comp → Prop) (c : Prop) (b : State) (o : Host.Outcome State Fault Refusal) : Prop :=
  ∃ t, o = .next t ∧ Sound K c b t

theorem SoundOut.next (h : Sound K c b s) : SoundOut K c b (.next s) := ⟨s, rfl, h⟩

theorem SoundOut.ite {p : Prop} [Decidable p] {x y : Host.Outcome State Fault Refusal} (h1 : p → SoundOut K c b x)
    (h2 : ¬ p → SoundOut K c b y) : SoundOut K c b (if p then x else y) := by split <;> simp_all

theorem Sound.ofEq {β : Type} {p : State × β} {r : β} (e : p = (s, r)) (h : Sound K c b p.1) : Sound K c b s := by
  rw [e] at h; exact h

/-- A record update that leaves the queue and the memories. -/
theorem Sound.put {x_bases : Vector TimeBase 4} {x_tick : Nat} {x_time : TimeSt} {x_ledger : LedgerSt} {x_views :
    ViewSt} {x_tiles : TileSt} {x_ports : Vector PortSt 16} {x_armCtr : Nat} {x_tw : Vector TwSt 6} {x_act : ActSt}
    {x_acct : Acct} {x_net : NetSt} {x_lanes : Vector LanePort 2} {x_queues : Sparse Queue} {x_toll : TollSt} {x_em :
    EmSt} {x_pa : PaSt} {x_ab : AbSt} {x_ev : EvSt} {x_mb : MbSt} {x_rs : RsSt} {x_outbox : List Out} {x_freeCtr :
    Nat} (e_bases : K .bases → x_bases = s.bases) (e_tick : K .tick → x_tick = s.tick) (e_time : K .time → x_time =
    s.time) (e_ledger : K .ledger → x_ledger = s.ledger) (e_views : K .views → x_views = s.views) (e_tiles : K .tiles
    → x_tiles = s.tiles) (e_ports : K .ports → x_ports = s.ports) (e_armCtr : K .armCtr → x_armCtr = s.armCtr) (e_tw :
    K .tw → x_tw = s.tw) (e_act : K .act → x_act = s.act) (e_acct : K .acct → x_acct = s.acct) (e_net : K .net → x_net
    = s.net) (e_lanes : K .lanes → x_lanes = s.lanes) (e_queues : K .queues → x_queues = s.queues) (e_toll : K .toll →
    x_toll = s.toll) (e_em : K .em → x_em = s.em) (e_pa : K .pa → x_pa = s.pa) (e_ab : K .ab → x_ab = s.ab) (e_ev : K
    .ev → x_ev = s.ev) (e_mb : K .mb → x_mb = s.mb) (e_rs : K .rs → x_rs = s.rs) (e_outbox : K .outbox → x_outbox =
    s.outbox) (e_freeCtr : K .freeCtr → x_freeCtr = s.freeCtr) (h : Sound K c b s) : Sound K c b ⟨s.pending, s.regs,
    s.tables, s.mem, x_bases, x_tick, x_time, x_ledger, x_views, x_tiles, x_ports, x_armCtr, x_tw, x_act, x_acct,
    x_net, x_lanes, x_queues, x_toll, x_em, x_pa, s.he, x_ab, x_ev, x_mb, x_rs, x_outbox, x_freeCtr⟩ :=
  h.step (fun p hp => by cases p <;> first | rfl | exact absurd hp (by assumption) | solve_by_elim) rfl rfl rfl rfl

/-- A record update of the memory attachment but LP5X. -/
theorem Sound.putMem {m_held : List Nat} {m_ueNow : List Nat} {m_ueSecond : Nat} {m_low : List Nat} (k : ¬ K .mem) (h : Sound K c b s) :
    Sound K c b ⟨s.pending, s.regs, s.tables, ⟨m_held, m_ueNow, m_ueSecond, s.mem.lp5, m_low⟩, s.bases, s.tick, s.time,
    s.ledger, s.views, s.tiles, s.ports, s.armCtr, s.tw, s.act, s.acct, s.net, s.lanes, s.queues, s.toll, s.em, s.pa,
    s.he, s.ab, s.ev, s.mb, s.rs, s.outbox, s.freeCtr⟩ :=
  h.step (fun p hp => by cases p <;> first | rfl | exact absurd hp (by assumption)) rfl rfl rfl rfl

/-- A record update of the endpoint but configuration space. -/
theorem Sound.putHe {h_intx : Bool} {h_reqs : List NpReq} {h_quar : List QuarTag} {h_silenced : Bool} {h_perst : Bool}
    {h_rom : List Byte} {h_w1 : List W1Acc} {h_margin : Sparse Nat} (k : ¬ K .he) (h : Sound K c b s) : Sound K c b
    ⟨s.pending, s.regs, s.tables, s.mem, s.bases, s.tick, s.time, s.ledger, s.views, s.tiles, s.ports, s.armCtr, s.tw,
    s.act, s.acct, s.net, s.lanes, s.queues, s.toll, s.em, s.pa, ⟨s.he.cfg, h_intx, h_reqs, h_quar, h_silenced,
    h_perst, h_rom, h_w1, h_margin⟩, s.ab, s.ev, s.mb, s.rs, s.outbox, s.freeCtr⟩ :=
  h.step (fun p hp => by cases p <;> first | rfl | exact absurd hp (by assumption)) rfl rfl rfl rfl

theorem wr_sound {a : Nat} {v : Word} (k : Free K [.regs]) (h : Sound K c b s) : Sound K c b (wr s a v) :=
  h.touch (fun p hp => by cases p <;> first | rfl | exact absurd hp (k _ (by simp)))
    (fun hs => ⟨smWf_smPut _ _ hs.1, hs.2⟩)

theorem tblPut_sound {a : Nat} {v : Byte} (k : Free K [.tables]) (h : Sound K c b s) : Sound K c b (tblPut s a v) :=
  h.touch (fun p hp => by cases p <;> first | rfl | exact absurd hp (k _ (by simp)))
    (fun hs => ⟨hs.1, smWf_smPut a v hs.2.1, hs.2.2⟩)

theorem lp5Put_sound {a : Nat} {v : Byte} (k : Free K [.mem]) (h : Sound K c b s) : Sound K c b (lp5Put s a v) := by
  unfold lp5Put
  split
  · exact h
  · exact h.touch (fun p hp => by cases p <;> first | rfl | exact absurd hp (k _ (by simp)))
      (fun hs => ⟨hs.1, hs.2.1, smWf_smPut a v hs.2.2.1, hs.2.2.2⟩)

theorem cfgWr_sound {o v : Nat} (k : Free K [.he]) (h : Sound K c b s) : Sound K c b (cfgWr s o v) :=
  h.touch (fun p hp => by cases p <;> first | rfl | exact absurd hp (k _ (by simp)))
    (fun hs => ⟨hs.1, hs.2.1, hs.2.2.1, smWf_smPut _ _ hs.2.2.2⟩)

theorem forEach_sound {α : Type} {l : List α} {f : α → State → State} (h : Sound K c b s)
    (hf : ∀ x t, Sound K c b t → Sound K c b (f x t)) : Sound K c b (forEach l f s) := by
  induction l generalizing s with
  | nil => exact h
  | cons x l ih => exact ih (hf x s h)

theorem foldl_sound {α : Type} {l : List α} {f : State → α → State} (h : Sound K c b s)
    (hf : ∀ t x, Sound K c b t → Sound K c b (f t x)) : Sound K c b (l.foldl f s) := by
  induction l generalizing s with
  | nil => exact h
  | cons x l ih => exact ih (hf s x h)

theorem foldlSnd_sound {α β : Type} {l : List α} {f : β × State → α → β × State} {p : β × State}
    (h : Sound K c b p.2) (hf : ∀ t x, Sound K c b t.2 → Sound K c b (f t x).2) : Sound K c b (l.foldl f p).2 := by
  induction l generalizing p with
  | nil => exact h
  | cons x l ih => exact ih (hf p x h)

end Sys2Proof.Machine
end

