-- ==== Sys2Proof/Laws/State.lean ====
section
/-! SUPPORT. What the primitive updates and the event logic leave of each field of State: one lemma per field and update. -/

namespace Sys2Proof.Machine

@[simp] theorem wr_pending (s : State) (a : Nat) (v : Word) : (wr s a v).pending = s.pending := rfl
@[simp] theorem wr_tables (s : State) (a : Nat) (v : Word) : (wr s a v).tables = s.tables := rfl
@[simp] theorem wr_mem (s : State) (a : Nat) (v : Word) : (wr s a v).mem = s.mem := rfl
@[simp] theorem wr_bases (s : State) (a : Nat) (v : Word) : (wr s a v).bases = s.bases := rfl
@[simp] theorem wr_tick (s : State) (a : Nat) (v : Word) : (wr s a v).tick = s.tick := rfl
@[simp] theorem wr_time (s : State) (a : Nat) (v : Word) : (wr s a v).time = s.time := rfl
@[simp] theorem wr_ledger (s : State) (a : Nat) (v : Word) : (wr s a v).ledger = s.ledger := rfl
@[simp] theorem wr_views (s : State) (a : Nat) (v : Word) : (wr s a v).views = s.views := rfl
@[simp] theorem wr_tiles (s : State) (a : Nat) (v : Word) : (wr s a v).tiles = s.tiles := rfl
@[simp] theorem wr_ports (s : State) (a : Nat) (v : Word) : (wr s a v).ports = s.ports := rfl
@[simp] theorem wr_armCtr (s : State) (a : Nat) (v : Word) : (wr s a v).armCtr = s.armCtr := rfl
@[simp] theorem wr_tw (s : State) (a : Nat) (v : Word) : (wr s a v).tw = s.tw := rfl
@[simp] theorem wr_act (s : State) (a : Nat) (v : Word) : (wr s a v).act = s.act := rfl
@[simp] theorem wr_acct (s : State) (a : Nat) (v : Word) : (wr s a v).acct = s.acct := rfl
@[simp] theorem wr_net (s : State) (a : Nat) (v : Word) : (wr s a v).net = s.net := rfl
@[simp] theorem wr_lanes (s : State) (a : Nat) (v : Word) : (wr s a v).lanes = s.lanes := rfl
@[simp] theorem wr_queues (s : State) (a : Nat) (v : Word) : (wr s a v).queues = s.queues := rfl
@[simp] theorem wr_toll (s : State) (a : Nat) (v : Word) : (wr s a v).toll = s.toll := rfl
@[simp] theorem wr_em (s : State) (a : Nat) (v : Word) : (wr s a v).em = s.em := rfl
@[simp] theorem wr_pa (s : State) (a : Nat) (v : Word) : (wr s a v).pa = s.pa := rfl
@[simp] theorem wr_he (s : State) (a : Nat) (v : Word) : (wr s a v).he = s.he := rfl
@[simp] theorem wr_ab (s : State) (a : Nat) (v : Word) : (wr s a v).ab = s.ab := rfl
@[simp] theorem wr_ev (s : State) (a : Nat) (v : Word) : (wr s a v).ev = s.ev := rfl
@[simp] theorem wr_mb (s : State) (a : Nat) (v : Word) : (wr s a v).mb = s.mb := rfl
@[simp] theorem wr_rs (s : State) (a : Nat) (v : Word) : (wr s a v).rs = s.rs := rfl
@[simp] theorem wr_outbox (s : State) (a : Nat) (v : Word) : (wr s a v).outbox = s.outbox := rfl
@[simp] theorem wr_freeCtr (s : State) (a : Nat) (v : Word) : (wr s a v).freeCtr = s.freeCtr := rfl

@[simp] theorem wrn_pending (s : State) (a v : Nat) : (wrn s a v).pending = s.pending := rfl
@[simp] theorem wrn_tables (s : State) (a v : Nat) : (wrn s a v).tables = s.tables := rfl
@[simp] theorem wrn_mem (s : State) (a v : Nat) : (wrn s a v).mem = s.mem := rfl
@[simp] theorem wrn_bases (s : State) (a v : Nat) : (wrn s a v).bases = s.bases := rfl
@[simp] theorem wrn_tick (s : State) (a v : Nat) : (wrn s a v).tick = s.tick := rfl
@[simp] theorem wrn_time (s : State) (a v : Nat) : (wrn s a v).time = s.time := rfl
@[simp] theorem wrn_ledger (s : State) (a v : Nat) : (wrn s a v).ledger = s.ledger := rfl
@[simp] theorem wrn_views (s : State) (a v : Nat) : (wrn s a v).views = s.views := rfl
@[simp] theorem wrn_tiles (s : State) (a v : Nat) : (wrn s a v).tiles = s.tiles := rfl
@[simp] theorem wrn_ports (s : State) (a v : Nat) : (wrn s a v).ports = s.ports := rfl
@[simp] theorem wrn_armCtr (s : State) (a v : Nat) : (wrn s a v).armCtr = s.armCtr := rfl
@[simp] theorem wrn_tw (s : State) (a v : Nat) : (wrn s a v).tw = s.tw := rfl
@[simp] theorem wrn_act (s : State) (a v : Nat) : (wrn s a v).act = s.act := rfl
@[simp] theorem wrn_acct (s : State) (a v : Nat) : (wrn s a v).acct = s.acct := rfl
@[simp] theorem wrn_net (s : State) (a v : Nat) : (wrn s a v).net = s.net := rfl
@[simp] theorem wrn_lanes (s : State) (a v : Nat) : (wrn s a v).lanes = s.lanes := rfl
@[simp] theorem wrn_queues (s : State) (a v : Nat) : (wrn s a v).queues = s.queues := rfl
@[simp] theorem wrn_toll (s : State) (a v : Nat) : (wrn s a v).toll = s.toll := rfl
@[simp] theorem wrn_em (s : State) (a v : Nat) : (wrn s a v).em = s.em := rfl
@[simp] theorem wrn_pa (s : State) (a v : Nat) : (wrn s a v).pa = s.pa := rfl
@[simp] theorem wrn_he (s : State) (a v : Nat) : (wrn s a v).he = s.he := rfl
@[simp] theorem wrn_ab (s : State) (a v : Nat) : (wrn s a v).ab = s.ab := rfl
@[simp] theorem wrn_ev (s : State) (a v : Nat) : (wrn s a v).ev = s.ev := rfl
@[simp] theorem wrn_mb (s : State) (a v : Nat) : (wrn s a v).mb = s.mb := rfl
@[simp] theorem wrn_rs (s : State) (a v : Nat) : (wrn s a v).rs = s.rs := rfl
@[simp] theorem wrn_outbox (s : State) (a v : Nat) : (wrn s a v).outbox = s.outbox := rfl
@[simp] theorem wrn_freeCtr (s : State) (a v : Nat) : (wrn s a v).freeCtr = s.freeCtr := rfl

@[simp] theorem fset_pending (s : State) (f : Fld) (v o : Nat) : (fset s f v o).pending = s.pending := rfl
@[simp] theorem fset_tables (s : State) (f : Fld) (v o : Nat) : (fset s f v o).tables = s.tables := rfl
@[simp] theorem fset_mem (s : State) (f : Fld) (v o : Nat) : (fset s f v o).mem = s.mem := rfl
@[simp] theorem fset_bases (s : State) (f : Fld) (v o : Nat) : (fset s f v o).bases = s.bases := rfl
@[simp] theorem fset_tick (s : State) (f : Fld) (v o : Nat) : (fset s f v o).tick = s.tick := rfl
@[simp] theorem fset_time (s : State) (f : Fld) (v o : Nat) : (fset s f v o).time = s.time := rfl
@[simp] theorem fset_ledger (s : State) (f : Fld) (v o : Nat) : (fset s f v o).ledger = s.ledger := rfl
@[simp] theorem fset_views (s : State) (f : Fld) (v o : Nat) : (fset s f v o).views = s.views := rfl
@[simp] theorem fset_tiles (s : State) (f : Fld) (v o : Nat) : (fset s f v o).tiles = s.tiles := rfl
@[simp] theorem fset_ports (s : State) (f : Fld) (v o : Nat) : (fset s f v o).ports = s.ports := rfl
@[simp] theorem fset_armCtr (s : State) (f : Fld) (v o : Nat) : (fset s f v o).armCtr = s.armCtr := rfl
@[simp] theorem fset_tw (s : State) (f : Fld) (v o : Nat) : (fset s f v o).tw = s.tw := rfl
@[simp] theorem fset_act (s : State) (f : Fld) (v o : Nat) : (fset s f v o).act = s.act := rfl
@[simp] theorem fset_acct (s : State) (f : Fld) (v o : Nat) : (fset s f v o).acct = s.acct := rfl
@[simp] theorem fset_net (s : State) (f : Fld) (v o : Nat) : (fset s f v o).net = s.net := rfl
@[simp] theorem fset_lanes (s : State) (f : Fld) (v o : Nat) : (fset s f v o).lanes = s.lanes := rfl
@[simp] theorem fset_queues (s : State) (f : Fld) (v o : Nat) : (fset s f v o).queues = s.queues := rfl
@[simp] theorem fset_toll (s : State) (f : Fld) (v o : Nat) : (fset s f v o).toll = s.toll := rfl
@[simp] theorem fset_em (s : State) (f : Fld) (v o : Nat) : (fset s f v o).em = s.em := rfl
@[simp] theorem fset_pa (s : State) (f : Fld) (v o : Nat) : (fset s f v o).pa = s.pa := rfl
@[simp] theorem fset_he (s : State) (f : Fld) (v o : Nat) : (fset s f v o).he = s.he := rfl
@[simp] theorem fset_ab (s : State) (f : Fld) (v o : Nat) : (fset s f v o).ab = s.ab := rfl
@[simp] theorem fset_ev (s : State) (f : Fld) (v o : Nat) : (fset s f v o).ev = s.ev := rfl
@[simp] theorem fset_mb (s : State) (f : Fld) (v o : Nat) : (fset s f v o).mb = s.mb := rfl
@[simp] theorem fset_rs (s : State) (f : Fld) (v o : Nat) : (fset s f v o).rs = s.rs := rfl
@[simp] theorem fset_outbox (s : State) (f : Fld) (v o : Nat) : (fset s f v o).outbox = s.outbox := rfl
@[simp] theorem fset_freeCtr (s : State) (f : Fld) (v o : Nat) : (fset s f v o).freeCtr = s.freeCtr := rfl

@[simp] theorem fbset_pending (s : State) (f : Fld) (b : Bool) (o : Nat) : (fbset s f b o).pending = s.pending := rfl
@[simp] theorem fbset_tables (s : State) (f : Fld) (b : Bool) (o : Nat) : (fbset s f b o).tables = s.tables := rfl
@[simp] theorem fbset_mem (s : State) (f : Fld) (b : Bool) (o : Nat) : (fbset s f b o).mem = s.mem := rfl
@[simp] theorem fbset_bases (s : State) (f : Fld) (b : Bool) (o : Nat) : (fbset s f b o).bases = s.bases := rfl
@[simp] theorem fbset_tick (s : State) (f : Fld) (b : Bool) (o : Nat) : (fbset s f b o).tick = s.tick := rfl
@[simp] theorem fbset_time (s : State) (f : Fld) (b : Bool) (o : Nat) : (fbset s f b o).time = s.time := rfl
@[simp] theorem fbset_ledger (s : State) (f : Fld) (b : Bool) (o : Nat) : (fbset s f b o).ledger = s.ledger := rfl
@[simp] theorem fbset_views (s : State) (f : Fld) (b : Bool) (o : Nat) : (fbset s f b o).views = s.views := rfl
@[simp] theorem fbset_tiles (s : State) (f : Fld) (b : Bool) (o : Nat) : (fbset s f b o).tiles = s.tiles := rfl
@[simp] theorem fbset_ports (s : State) (f : Fld) (b : Bool) (o : Nat) : (fbset s f b o).ports = s.ports := rfl
@[simp] theorem fbset_armCtr (s : State) (f : Fld) (b : Bool) (o : Nat) : (fbset s f b o).armCtr = s.armCtr := rfl
@[simp] theorem fbset_tw (s : State) (f : Fld) (b : Bool) (o : Nat) : (fbset s f b o).tw = s.tw := rfl
@[simp] theorem fbset_act (s : State) (f : Fld) (b : Bool) (o : Nat) : (fbset s f b o).act = s.act := rfl
@[simp] theorem fbset_acct (s : State) (f : Fld) (b : Bool) (o : Nat) : (fbset s f b o).acct = s.acct := rfl
@[simp] theorem fbset_net (s : State) (f : Fld) (b : Bool) (o : Nat) : (fbset s f b o).net = s.net := rfl
@[simp] theorem fbset_lanes (s : State) (f : Fld) (b : Bool) (o : Nat) : (fbset s f b o).lanes = s.lanes := rfl
@[simp] theorem fbset_queues (s : State) (f : Fld) (b : Bool) (o : Nat) : (fbset s f b o).queues = s.queues := rfl
@[simp] theorem fbset_toll (s : State) (f : Fld) (b : Bool) (o : Nat) : (fbset s f b o).toll = s.toll := rfl
@[simp] theorem fbset_em (s : State) (f : Fld) (b : Bool) (o : Nat) : (fbset s f b o).em = s.em := rfl
@[simp] theorem fbset_pa (s : State) (f : Fld) (b : Bool) (o : Nat) : (fbset s f b o).pa = s.pa := rfl
@[simp] theorem fbset_he (s : State) (f : Fld) (b : Bool) (o : Nat) : (fbset s f b o).he = s.he := rfl
@[simp] theorem fbset_ab (s : State) (f : Fld) (b : Bool) (o : Nat) : (fbset s f b o).ab = s.ab := rfl
@[simp] theorem fbset_ev (s : State) (f : Fld) (b : Bool) (o : Nat) : (fbset s f b o).ev = s.ev := rfl
@[simp] theorem fbset_mb (s : State) (f : Fld) (b : Bool) (o : Nat) : (fbset s f b o).mb = s.mb := rfl
@[simp] theorem fbset_rs (s : State) (f : Fld) (b : Bool) (o : Nat) : (fbset s f b o).rs = s.rs := rfl
@[simp] theorem fbset_outbox (s : State) (f : Fld) (b : Bool) (o : Nat) : (fbset s f b o).outbox = s.outbox := rfl
@[simp] theorem fbset_freeCtr (s : State) (f : Fld) (b : Bool) (o : Nat) : (fbset s f b o).freeCtr = s.freeCtr := rfl

@[simp] theorem cntAdd_pending (s : State) (a n : Nat) : (cntAdd s a n).pending = s.pending := rfl
@[simp] theorem cntAdd_tables (s : State) (a n : Nat) : (cntAdd s a n).tables = s.tables := rfl
@[simp] theorem cntAdd_mem (s : State) (a n : Nat) : (cntAdd s a n).mem = s.mem := rfl
@[simp] theorem cntAdd_bases (s : State) (a n : Nat) : (cntAdd s a n).bases = s.bases := rfl
@[simp] theorem cntAdd_tick (s : State) (a n : Nat) : (cntAdd s a n).tick = s.tick := rfl
@[simp] theorem cntAdd_time (s : State) (a n : Nat) : (cntAdd s a n).time = s.time := rfl
@[simp] theorem cntAdd_ledger (s : State) (a n : Nat) : (cntAdd s a n).ledger = s.ledger := rfl
@[simp] theorem cntAdd_views (s : State) (a n : Nat) : (cntAdd s a n).views = s.views := rfl
@[simp] theorem cntAdd_tiles (s : State) (a n : Nat) : (cntAdd s a n).tiles = s.tiles := rfl
@[simp] theorem cntAdd_ports (s : State) (a n : Nat) : (cntAdd s a n).ports = s.ports := rfl
@[simp] theorem cntAdd_armCtr (s : State) (a n : Nat) : (cntAdd s a n).armCtr = s.armCtr := rfl
@[simp] theorem cntAdd_tw (s : State) (a n : Nat) : (cntAdd s a n).tw = s.tw := rfl
@[simp] theorem cntAdd_act (s : State) (a n : Nat) : (cntAdd s a n).act = s.act := rfl
@[simp] theorem cntAdd_acct (s : State) (a n : Nat) : (cntAdd s a n).acct = s.acct := rfl
@[simp] theorem cntAdd_net (s : State) (a n : Nat) : (cntAdd s a n).net = s.net := rfl
@[simp] theorem cntAdd_lanes (s : State) (a n : Nat) : (cntAdd s a n).lanes = s.lanes := rfl
@[simp] theorem cntAdd_queues (s : State) (a n : Nat) : (cntAdd s a n).queues = s.queues := rfl
@[simp] theorem cntAdd_toll (s : State) (a n : Nat) : (cntAdd s a n).toll = s.toll := rfl
@[simp] theorem cntAdd_em (s : State) (a n : Nat) : (cntAdd s a n).em = s.em := rfl
@[simp] theorem cntAdd_pa (s : State) (a n : Nat) : (cntAdd s a n).pa = s.pa := rfl
@[simp] theorem cntAdd_he (s : State) (a n : Nat) : (cntAdd s a n).he = s.he := rfl
@[simp] theorem cntAdd_ab (s : State) (a n : Nat) : (cntAdd s a n).ab = s.ab := rfl
@[simp] theorem cntAdd_ev (s : State) (a n : Nat) : (cntAdd s a n).ev = s.ev := rfl
@[simp] theorem cntAdd_mb (s : State) (a n : Nat) : (cntAdd s a n).mb = s.mb := rfl
@[simp] theorem cntAdd_rs (s : State) (a n : Nat) : (cntAdd s a n).rs = s.rs := rfl
@[simp] theorem cntAdd_outbox (s : State) (a n : Nat) : (cntAdd s a n).outbox = s.outbox := rfl
@[simp] theorem cntAdd_freeCtr (s : State) (a n : Nat) : (cntAdd s a n).freeCtr = s.freeCtr := rfl

@[simp] theorem cnt_pending (s : State) (a : Nat) : (cnt s a).pending = s.pending := rfl
@[simp] theorem cnt_tables (s : State) (a : Nat) : (cnt s a).tables = s.tables := rfl
@[simp] theorem cnt_mem (s : State) (a : Nat) : (cnt s a).mem = s.mem := rfl
@[simp] theorem cnt_bases (s : State) (a : Nat) : (cnt s a).bases = s.bases := rfl
@[simp] theorem cnt_tick (s : State) (a : Nat) : (cnt s a).tick = s.tick := rfl
@[simp] theorem cnt_time (s : State) (a : Nat) : (cnt s a).time = s.time := rfl
@[simp] theorem cnt_ledger (s : State) (a : Nat) : (cnt s a).ledger = s.ledger := rfl
@[simp] theorem cnt_views (s : State) (a : Nat) : (cnt s a).views = s.views := rfl
@[simp] theorem cnt_tiles (s : State) (a : Nat) : (cnt s a).tiles = s.tiles := rfl
@[simp] theorem cnt_ports (s : State) (a : Nat) : (cnt s a).ports = s.ports := rfl
@[simp] theorem cnt_armCtr (s : State) (a : Nat) : (cnt s a).armCtr = s.armCtr := rfl
@[simp] theorem cnt_tw (s : State) (a : Nat) : (cnt s a).tw = s.tw := rfl
@[simp] theorem cnt_act (s : State) (a : Nat) : (cnt s a).act = s.act := rfl
@[simp] theorem cnt_acct (s : State) (a : Nat) : (cnt s a).acct = s.acct := rfl
@[simp] theorem cnt_net (s : State) (a : Nat) : (cnt s a).net = s.net := rfl
@[simp] theorem cnt_lanes (s : State) (a : Nat) : (cnt s a).lanes = s.lanes := rfl
@[simp] theorem cnt_queues (s : State) (a : Nat) : (cnt s a).queues = s.queues := rfl
@[simp] theorem cnt_toll (s : State) (a : Nat) : (cnt s a).toll = s.toll := rfl
@[simp] theorem cnt_em (s : State) (a : Nat) : (cnt s a).em = s.em := rfl
@[simp] theorem cnt_pa (s : State) (a : Nat) : (cnt s a).pa = s.pa := rfl
@[simp] theorem cnt_he (s : State) (a : Nat) : (cnt s a).he = s.he := rfl
@[simp] theorem cnt_ab (s : State) (a : Nat) : (cnt s a).ab = s.ab := rfl
@[simp] theorem cnt_ev (s : State) (a : Nat) : (cnt s a).ev = s.ev := rfl
@[simp] theorem cnt_mb (s : State) (a : Nat) : (cnt s a).mb = s.mb := rfl
@[simp] theorem cnt_rs (s : State) (a : Nat) : (cnt s a).rs = s.rs := rfl
@[simp] theorem cnt_outbox (s : State) (a : Nat) : (cnt s a).outbox = s.outbox := rfl
@[simp] theorem cnt_freeCtr (s : State) (a : Nat) : (cnt s a).freeCtr = s.freeCtr := rfl

@[simp] theorem cntWrap_pending (s : State) (a n : Nat) : (cntWrap s a n).pending = s.pending := rfl
@[simp] theorem cntWrap_tables (s : State) (a n : Nat) : (cntWrap s a n).tables = s.tables := rfl
@[simp] theorem cntWrap_mem (s : State) (a n : Nat) : (cntWrap s a n).mem = s.mem := rfl
@[simp] theorem cntWrap_bases (s : State) (a n : Nat) : (cntWrap s a n).bases = s.bases := rfl
@[simp] theorem cntWrap_tick (s : State) (a n : Nat) : (cntWrap s a n).tick = s.tick := rfl
@[simp] theorem cntWrap_time (s : State) (a n : Nat) : (cntWrap s a n).time = s.time := rfl
@[simp] theorem cntWrap_ledger (s : State) (a n : Nat) : (cntWrap s a n).ledger = s.ledger := rfl
@[simp] theorem cntWrap_views (s : State) (a n : Nat) : (cntWrap s a n).views = s.views := rfl
@[simp] theorem cntWrap_tiles (s : State) (a n : Nat) : (cntWrap s a n).tiles = s.tiles := rfl
@[simp] theorem cntWrap_ports (s : State) (a n : Nat) : (cntWrap s a n).ports = s.ports := rfl
@[simp] theorem cntWrap_armCtr (s : State) (a n : Nat) : (cntWrap s a n).armCtr = s.armCtr := rfl
@[simp] theorem cntWrap_tw (s : State) (a n : Nat) : (cntWrap s a n).tw = s.tw := rfl
@[simp] theorem cntWrap_act (s : State) (a n : Nat) : (cntWrap s a n).act = s.act := rfl
@[simp] theorem cntWrap_acct (s : State) (a n : Nat) : (cntWrap s a n).acct = s.acct := rfl
@[simp] theorem cntWrap_net (s : State) (a n : Nat) : (cntWrap s a n).net = s.net := rfl
@[simp] theorem cntWrap_lanes (s : State) (a n : Nat) : (cntWrap s a n).lanes = s.lanes := rfl
@[simp] theorem cntWrap_queues (s : State) (a n : Nat) : (cntWrap s a n).queues = s.queues := rfl
@[simp] theorem cntWrap_toll (s : State) (a n : Nat) : (cntWrap s a n).toll = s.toll := rfl
@[simp] theorem cntWrap_em (s : State) (a n : Nat) : (cntWrap s a n).em = s.em := rfl
@[simp] theorem cntWrap_pa (s : State) (a n : Nat) : (cntWrap s a n).pa = s.pa := rfl
@[simp] theorem cntWrap_he (s : State) (a n : Nat) : (cntWrap s a n).he = s.he := rfl
@[simp] theorem cntWrap_ab (s : State) (a n : Nat) : (cntWrap s a n).ab = s.ab := rfl
@[simp] theorem cntWrap_ev (s : State) (a n : Nat) : (cntWrap s a n).ev = s.ev := rfl
@[simp] theorem cntWrap_mb (s : State) (a n : Nat) : (cntWrap s a n).mb = s.mb := rfl
@[simp] theorem cntWrap_rs (s : State) (a n : Nat) : (cntWrap s a n).rs = s.rs := rfl
@[simp] theorem cntWrap_outbox (s : State) (a n : Nat) : (cntWrap s a n).outbox = s.outbox := rfl
@[simp] theorem cntWrap_freeCtr (s : State) (a n : Nat) : (cntWrap s a n).freeCtr = s.freeCtr := rfl

@[simp] theorem regBit_pending (s : State) (a i : Nat) (b : Bool) : (regBit s a i b).pending = s.pending := rfl
@[simp] theorem regBit_tables (s : State) (a i : Nat) (b : Bool) : (regBit s a i b).tables = s.tables := rfl
@[simp] theorem regBit_mem (s : State) (a i : Nat) (b : Bool) : (regBit s a i b).mem = s.mem := rfl
@[simp] theorem regBit_bases (s : State) (a i : Nat) (b : Bool) : (regBit s a i b).bases = s.bases := rfl
@[simp] theorem regBit_tick (s : State) (a i : Nat) (b : Bool) : (regBit s a i b).tick = s.tick := rfl
@[simp] theorem regBit_time (s : State) (a i : Nat) (b : Bool) : (regBit s a i b).time = s.time := rfl
@[simp] theorem regBit_ledger (s : State) (a i : Nat) (b : Bool) : (regBit s a i b).ledger = s.ledger := rfl
@[simp] theorem regBit_views (s : State) (a i : Nat) (b : Bool) : (regBit s a i b).views = s.views := rfl
@[simp] theorem regBit_tiles (s : State) (a i : Nat) (b : Bool) : (regBit s a i b).tiles = s.tiles := rfl
@[simp] theorem regBit_ports (s : State) (a i : Nat) (b : Bool) : (regBit s a i b).ports = s.ports := rfl
@[simp] theorem regBit_armCtr (s : State) (a i : Nat) (b : Bool) : (regBit s a i b).armCtr = s.armCtr := rfl
@[simp] theorem regBit_tw (s : State) (a i : Nat) (b : Bool) : (regBit s a i b).tw = s.tw := rfl
@[simp] theorem regBit_act (s : State) (a i : Nat) (b : Bool) : (regBit s a i b).act = s.act := rfl
@[simp] theorem regBit_acct (s : State) (a i : Nat) (b : Bool) : (regBit s a i b).acct = s.acct := rfl
@[simp] theorem regBit_net (s : State) (a i : Nat) (b : Bool) : (regBit s a i b).net = s.net := rfl
@[simp] theorem regBit_lanes (s : State) (a i : Nat) (b : Bool) : (regBit s a i b).lanes = s.lanes := rfl
@[simp] theorem regBit_queues (s : State) (a i : Nat) (b : Bool) : (regBit s a i b).queues = s.queues := rfl
@[simp] theorem regBit_toll (s : State) (a i : Nat) (b : Bool) : (regBit s a i b).toll = s.toll := rfl
@[simp] theorem regBit_em (s : State) (a i : Nat) (b : Bool) : (regBit s a i b).em = s.em := rfl
@[simp] theorem regBit_pa (s : State) (a i : Nat) (b : Bool) : (regBit s a i b).pa = s.pa := rfl
@[simp] theorem regBit_he (s : State) (a i : Nat) (b : Bool) : (regBit s a i b).he = s.he := rfl
@[simp] theorem regBit_ab (s : State) (a i : Nat) (b : Bool) : (regBit s a i b).ab = s.ab := rfl
@[simp] theorem regBit_ev (s : State) (a i : Nat) (b : Bool) : (regBit s a i b).ev = s.ev := rfl
@[simp] theorem regBit_mb (s : State) (a i : Nat) (b : Bool) : (regBit s a i b).mb = s.mb := rfl
@[simp] theorem regBit_rs (s : State) (a i : Nat) (b : Bool) : (regBit s a i b).rs = s.rs := rfl
@[simp] theorem regBit_outbox (s : State) (a i : Nat) (b : Bool) : (regBit s a i b).outbox = s.outbox := rfl
@[simp] theorem regBit_freeCtr (s : State) (a i : Nat) (b : Bool) : (regBit s a i b).freeCtr = s.freeCtr := rfl

@[simp] theorem emit_pending (s : State) (o : Out) : (emit s o).pending = s.pending := rfl
@[simp] theorem emit_regs (s : State) (o : Out) : (emit s o).regs = s.regs := rfl
@[simp] theorem emit_tables (s : State) (o : Out) : (emit s o).tables = s.tables := rfl
@[simp] theorem emit_mem (s : State) (o : Out) : (emit s o).mem = s.mem := rfl
@[simp] theorem emit_bases (s : State) (o : Out) : (emit s o).bases = s.bases := rfl
@[simp] theorem emit_tick (s : State) (o : Out) : (emit s o).tick = s.tick := rfl
@[simp] theorem emit_time (s : State) (o : Out) : (emit s o).time = s.time := rfl
@[simp] theorem emit_ledger (s : State) (o : Out) : (emit s o).ledger = s.ledger := rfl
@[simp] theorem emit_views (s : State) (o : Out) : (emit s o).views = s.views := rfl
@[simp] theorem emit_tiles (s : State) (o : Out) : (emit s o).tiles = s.tiles := rfl
@[simp] theorem emit_ports (s : State) (o : Out) : (emit s o).ports = s.ports := rfl
@[simp] theorem emit_armCtr (s : State) (o : Out) : (emit s o).armCtr = s.armCtr := rfl
@[simp] theorem emit_tw (s : State) (o : Out) : (emit s o).tw = s.tw := rfl
@[simp] theorem emit_act (s : State) (o : Out) : (emit s o).act = s.act := rfl
@[simp] theorem emit_acct (s : State) (o : Out) : (emit s o).acct = s.acct := rfl
@[simp] theorem emit_net (s : State) (o : Out) : (emit s o).net = s.net := rfl
@[simp] theorem emit_lanes (s : State) (o : Out) : (emit s o).lanes = s.lanes := rfl
@[simp] theorem emit_queues (s : State) (o : Out) : (emit s o).queues = s.queues := rfl
@[simp] theorem emit_toll (s : State) (o : Out) : (emit s o).toll = s.toll := rfl
@[simp] theorem emit_em (s : State) (o : Out) : (emit s o).em = s.em := rfl
@[simp] theorem emit_pa (s : State) (o : Out) : (emit s o).pa = s.pa := rfl
@[simp] theorem emit_he (s : State) (o : Out) : (emit s o).he = s.he := rfl
@[simp] theorem emit_ab (s : State) (o : Out) : (emit s o).ab = s.ab := rfl
@[simp] theorem emit_ev (s : State) (o : Out) : (emit s o).ev = s.ev := rfl
@[simp] theorem emit_mb (s : State) (o : Out) : (emit s o).mb = s.mb := rfl
@[simp] theorem emit_rs (s : State) (o : Out) : (emit s o).rs = s.rs := rfl
@[simp] theorem emit_freeCtr (s : State) (o : Out) : (emit s o).freeCtr = s.freeCtr := rfl

@[simp] theorem useFree_pending (s : State) : (useFree s).pending = s.pending := rfl
@[simp] theorem useFree_regs (s : State) : (useFree s).regs = s.regs := rfl
@[simp] theorem useFree_tables (s : State) : (useFree s).tables = s.tables := rfl
@[simp] theorem useFree_mem (s : State) : (useFree s).mem = s.mem := rfl
@[simp] theorem useFree_bases (s : State) : (useFree s).bases = s.bases := rfl
@[simp] theorem useFree_tick (s : State) : (useFree s).tick = s.tick := rfl
@[simp] theorem useFree_time (s : State) : (useFree s).time = s.time := rfl
@[simp] theorem useFree_ledger (s : State) : (useFree s).ledger = s.ledger := rfl
@[simp] theorem useFree_views (s : State) : (useFree s).views = s.views := rfl
@[simp] theorem useFree_tiles (s : State) : (useFree s).tiles = s.tiles := rfl
@[simp] theorem useFree_ports (s : State) : (useFree s).ports = s.ports := rfl
@[simp] theorem useFree_armCtr (s : State) : (useFree s).armCtr = s.armCtr := rfl
@[simp] theorem useFree_tw (s : State) : (useFree s).tw = s.tw := rfl
@[simp] theorem useFree_act (s : State) : (useFree s).act = s.act := rfl
@[simp] theorem useFree_acct (s : State) : (useFree s).acct = s.acct := rfl
@[simp] theorem useFree_net (s : State) : (useFree s).net = s.net := rfl
@[simp] theorem useFree_lanes (s : State) : (useFree s).lanes = s.lanes := rfl
@[simp] theorem useFree_queues (s : State) : (useFree s).queues = s.queues := rfl
@[simp] theorem useFree_toll (s : State) : (useFree s).toll = s.toll := rfl
@[simp] theorem useFree_em (s : State) : (useFree s).em = s.em := rfl
@[simp] theorem useFree_pa (s : State) : (useFree s).pa = s.pa := rfl
@[simp] theorem useFree_he (s : State) : (useFree s).he = s.he := rfl
@[simp] theorem useFree_ab (s : State) : (useFree s).ab = s.ab := rfl
@[simp] theorem useFree_ev (s : State) : (useFree s).ev = s.ev := rfl
@[simp] theorem useFree_mb (s : State) : (useFree s).mb = s.mb := rfl
@[simp] theorem useFree_rs (s : State) : (useFree s).rs = s.rs := rfl
@[simp] theorem useFree_outbox (s : State) : (useFree s).outbox = s.outbox := rfl

@[simp] theorem tblPut_pending (s : State) (a : Nat) (b : Byte) : (tblPut s a b).pending = s.pending := rfl
@[simp] theorem tblPut_regs (s : State) (a : Nat) (b : Byte) : (tblPut s a b).regs = s.regs := rfl
@[simp] theorem tblPut_mem (s : State) (a : Nat) (b : Byte) : (tblPut s a b).mem = s.mem := rfl
@[simp] theorem tblPut_bases (s : State) (a : Nat) (b : Byte) : (tblPut s a b).bases = s.bases := rfl
@[simp] theorem tblPut_tick (s : State) (a : Nat) (b : Byte) : (tblPut s a b).tick = s.tick := rfl
@[simp] theorem tblPut_time (s : State) (a : Nat) (b : Byte) : (tblPut s a b).time = s.time := rfl
@[simp] theorem tblPut_ledger (s : State) (a : Nat) (b : Byte) : (tblPut s a b).ledger = s.ledger := rfl
@[simp] theorem tblPut_views (s : State) (a : Nat) (b : Byte) : (tblPut s a b).views = s.views := rfl
@[simp] theorem tblPut_tiles (s : State) (a : Nat) (b : Byte) : (tblPut s a b).tiles = s.tiles := rfl
@[simp] theorem tblPut_ports (s : State) (a : Nat) (b : Byte) : (tblPut s a b).ports = s.ports := rfl
@[simp] theorem tblPut_armCtr (s : State) (a : Nat) (b : Byte) : (tblPut s a b).armCtr = s.armCtr := rfl
@[simp] theorem tblPut_tw (s : State) (a : Nat) (b : Byte) : (tblPut s a b).tw = s.tw := rfl
@[simp] theorem tblPut_act (s : State) (a : Nat) (b : Byte) : (tblPut s a b).act = s.act := rfl
@[simp] theorem tblPut_acct (s : State) (a : Nat) (b : Byte) : (tblPut s a b).acct = s.acct := rfl
@[simp] theorem tblPut_net (s : State) (a : Nat) (b : Byte) : (tblPut s a b).net = s.net := rfl
@[simp] theorem tblPut_lanes (s : State) (a : Nat) (b : Byte) : (tblPut s a b).lanes = s.lanes := rfl
@[simp] theorem tblPut_queues (s : State) (a : Nat) (b : Byte) : (tblPut s a b).queues = s.queues := rfl
@[simp] theorem tblPut_toll (s : State) (a : Nat) (b : Byte) : (tblPut s a b).toll = s.toll := rfl
@[simp] theorem tblPut_em (s : State) (a : Nat) (b : Byte) : (tblPut s a b).em = s.em := rfl
@[simp] theorem tblPut_pa (s : State) (a : Nat) (b : Byte) : (tblPut s a b).pa = s.pa := rfl
@[simp] theorem tblPut_he (s : State) (a : Nat) (b : Byte) : (tblPut s a b).he = s.he := rfl
@[simp] theorem tblPut_ab (s : State) (a : Nat) (b : Byte) : (tblPut s a b).ab = s.ab := rfl
@[simp] theorem tblPut_ev (s : State) (a : Nat) (b : Byte) : (tblPut s a b).ev = s.ev := rfl
@[simp] theorem tblPut_mb (s : State) (a : Nat) (b : Byte) : (tblPut s a b).mb = s.mb := rfl
@[simp] theorem tblPut_rs (s : State) (a : Nat) (b : Byte) : (tblPut s a b).rs = s.rs := rfl
@[simp] theorem tblPut_outbox (s : State) (a : Nat) (b : Byte) : (tblPut s a b).outbox = s.outbox := rfl
@[simp] theorem tblPut_freeCtr (s : State) (a : Nat) (b : Byte) : (tblPut s a b).freeCtr = s.freeCtr := rfl

@[simp] theorem cfgWr_pending (s : State) (o v : Nat) : (cfgWr s o v).pending = s.pending := rfl
@[simp] theorem cfgWr_regs (s : State) (o v : Nat) : (cfgWr s o v).regs = s.regs := rfl
@[simp] theorem cfgWr_tables (s : State) (o v : Nat) : (cfgWr s o v).tables = s.tables := rfl
@[simp] theorem cfgWr_mem (s : State) (o v : Nat) : (cfgWr s o v).mem = s.mem := rfl
@[simp] theorem cfgWr_bases (s : State) (o v : Nat) : (cfgWr s o v).bases = s.bases := rfl
@[simp] theorem cfgWr_tick (s : State) (o v : Nat) : (cfgWr s o v).tick = s.tick := rfl
@[simp] theorem cfgWr_time (s : State) (o v : Nat) : (cfgWr s o v).time = s.time := rfl
@[simp] theorem cfgWr_ledger (s : State) (o v : Nat) : (cfgWr s o v).ledger = s.ledger := rfl
@[simp] theorem cfgWr_views (s : State) (o v : Nat) : (cfgWr s o v).views = s.views := rfl
@[simp] theorem cfgWr_tiles (s : State) (o v : Nat) : (cfgWr s o v).tiles = s.tiles := rfl
@[simp] theorem cfgWr_ports (s : State) (o v : Nat) : (cfgWr s o v).ports = s.ports := rfl
@[simp] theorem cfgWr_armCtr (s : State) (o v : Nat) : (cfgWr s o v).armCtr = s.armCtr := rfl
@[simp] theorem cfgWr_tw (s : State) (o v : Nat) : (cfgWr s o v).tw = s.tw := rfl
@[simp] theorem cfgWr_act (s : State) (o v : Nat) : (cfgWr s o v).act = s.act := rfl
@[simp] theorem cfgWr_acct (s : State) (o v : Nat) : (cfgWr s o v).acct = s.acct := rfl
@[simp] theorem cfgWr_net (s : State) (o v : Nat) : (cfgWr s o v).net = s.net := rfl
@[simp] theorem cfgWr_lanes (s : State) (o v : Nat) : (cfgWr s o v).lanes = s.lanes := rfl
@[simp] theorem cfgWr_queues (s : State) (o v : Nat) : (cfgWr s o v).queues = s.queues := rfl
@[simp] theorem cfgWr_toll (s : State) (o v : Nat) : (cfgWr s o v).toll = s.toll := rfl
@[simp] theorem cfgWr_em (s : State) (o v : Nat) : (cfgWr s o v).em = s.em := rfl
@[simp] theorem cfgWr_pa (s : State) (o v : Nat) : (cfgWr s o v).pa = s.pa := rfl
@[simp] theorem cfgWr_ab (s : State) (o v : Nat) : (cfgWr s o v).ab = s.ab := rfl
@[simp] theorem cfgWr_ev (s : State) (o v : Nat) : (cfgWr s o v).ev = s.ev := rfl
@[simp] theorem cfgWr_mb (s : State) (o v : Nat) : (cfgWr s o v).mb = s.mb := rfl
@[simp] theorem cfgWr_rs (s : State) (o v : Nat) : (cfgWr s o v).rs = s.rs := rfl
@[simp] theorem cfgWr_outbox (s : State) (o v : Nat) : (cfgWr s o v).outbox = s.outbox := rfl
@[simp] theorem cfgWr_freeCtr (s : State) (o v : Nat) : (cfgWr s o v).freeCtr = s.freeCtr := rfl

/-! ## Updates of registers, messages and INTx -/

theorem OnlyRegs.refl (s : State) : OnlyRegs s s := rfl

theorem OnlyRegs.trans {r s t : State} (h1 : OnlyRegs r s) (h2 : OnlyRegs s t) : OnlyRegs r t := by
  unfold OnlyRegs at *
  rw [h2, h1]

theorem wrn_only (s : State) (a v : Nat) : OnlyRegs s (wrn s a v) := rfl

theorem fset_only (s : State) (f : Fld) (v o : Nat) : OnlyRegs s (fset s f v o) := rfl

theorem emit_only (s : State) (o : Out) : OnlyRegs s (emit s o) := rfl

theorem vecEval_only (v : Nat) (s : State) : OnlyRegs s (vecEval v s) := by
  unfold vecEval
  dsimp only
  split
  · split <;> rfl
  · split <;> rfl

theorem intxEval_only (s : State) : OnlyRegs s (intxEval s) := by
  unfold intxEval
  dsimp only
  repeat' split
  all_goals rfl

theorem irqUpdate_only (n : Nat) (s : State) : OnlyRegs s (irqUpdate n s) := by
  unfold irqUpdate
  dsimp only
  split
  · rfl
  · refine OnlyRegs.trans ?_ (intxEval_only _)
    split
    · exact OnlyRegs.trans (wrn_only s _ _) (vecEval_only _ _)
    · exact wrn_only s _ _

/-- Re-evaluating a source changes registers, messages and INTx only. -/
theorem irqAt_only (a : Nat) (s : State) : OnlyRegs s (irqAt a s) := by
  unfold irqAt
  split
  · exact irqUpdate_only _ s
  · rfl

/-- Setting an event bit changes registers, messages and INTx only. -/
theorem evt_only (s : State) (f : Fld) (o : Nat) : OnlyRegs s (evt s f o) :=
  OnlyRegs.trans (fset_only s f 1 o) (irqAt_only _ _)

theorem evtCnt_only (s : State) (f : Fld) (c o : Nat) : OnlyRegs s (evtCnt s f c o) :=
  OnlyRegs.trans (wrn_only s _ _) (evt_only _ f o)

theorem OnlyRegs.pending {s t : State} (h : OnlyRegs s t) : t.pending = s.pending := by rw [h]
theorem OnlyRegs.tables {s t : State} (h : OnlyRegs s t) : t.tables = s.tables := by rw [h]
theorem OnlyRegs.mem {s t : State} (h : OnlyRegs s t) : t.mem = s.mem := by rw [h]
theorem OnlyRegs.bases {s t : State} (h : OnlyRegs s t) : t.bases = s.bases := by rw [h]
theorem OnlyRegs.tick {s t : State} (h : OnlyRegs s t) : t.tick = s.tick := by rw [h]
theorem OnlyRegs.time {s t : State} (h : OnlyRegs s t) : t.time = s.time := by rw [h]
theorem OnlyRegs.ledger {s t : State} (h : OnlyRegs s t) : t.ledger = s.ledger := by rw [h]
theorem OnlyRegs.views {s t : State} (h : OnlyRegs s t) : t.views = s.views := by rw [h]
theorem OnlyRegs.tiles {s t : State} (h : OnlyRegs s t) : t.tiles = s.tiles := by rw [h]
theorem OnlyRegs.ports {s t : State} (h : OnlyRegs s t) : t.ports = s.ports := by rw [h]
theorem OnlyRegs.armCtr {s t : State} (h : OnlyRegs s t) : t.armCtr = s.armCtr := by rw [h]
theorem OnlyRegs.tw {s t : State} (h : OnlyRegs s t) : t.tw = s.tw := by rw [h]
theorem OnlyRegs.act {s t : State} (h : OnlyRegs s t) : t.act = s.act := by rw [h]
theorem OnlyRegs.acct {s t : State} (h : OnlyRegs s t) : t.acct = s.acct := by rw [h]
theorem OnlyRegs.net {s t : State} (h : OnlyRegs s t) : t.net = s.net := by rw [h]
theorem OnlyRegs.lanes {s t : State} (h : OnlyRegs s t) : t.lanes = s.lanes := by rw [h]
theorem OnlyRegs.queues {s t : State} (h : OnlyRegs s t) : t.queues = s.queues := by rw [h]
theorem OnlyRegs.toll {s t : State} (h : OnlyRegs s t) : t.toll = s.toll := by rw [h]
theorem OnlyRegs.em {s t : State} (h : OnlyRegs s t) : t.em = s.em := by rw [h]
theorem OnlyRegs.pa {s t : State} (h : OnlyRegs s t) : t.pa = s.pa := by rw [h]
theorem OnlyRegs.ab {s t : State} (h : OnlyRegs s t) : t.ab = s.ab := by rw [h]
theorem OnlyRegs.ev {s t : State} (h : OnlyRegs s t) : t.ev = s.ev := by rw [h]
theorem OnlyRegs.mb {s t : State} (h : OnlyRegs s t) : t.mb = s.mb := by rw [h]
theorem OnlyRegs.rs {s t : State} (h : OnlyRegs s t) : t.rs = s.rs := by rw [h]
theorem OnlyRegs.freeCtr {s t : State} (h : OnlyRegs s t) : t.freeCtr = s.freeCtr := by rw [h]

@[simp] theorem irqAt_pending (a : Nat) (s : State) : (irqAt a s).pending = s.pending := (irqAt_only a s).pending
@[simp] theorem irqAt_tables (a : Nat) (s : State) : (irqAt a s).tables = s.tables := (irqAt_only a s).tables
@[simp] theorem irqAt_mem (a : Nat) (s : State) : (irqAt a s).mem = s.mem := (irqAt_only a s).mem
@[simp] theorem irqAt_bases (a : Nat) (s : State) : (irqAt a s).bases = s.bases := (irqAt_only a s).bases
@[simp] theorem irqAt_tick (a : Nat) (s : State) : (irqAt a s).tick = s.tick := (irqAt_only a s).tick
@[simp] theorem irqAt_time (a : Nat) (s : State) : (irqAt a s).time = s.time := (irqAt_only a s).time
@[simp] theorem irqAt_ledger (a : Nat) (s : State) : (irqAt a s).ledger = s.ledger := (irqAt_only a s).ledger
@[simp] theorem irqAt_views (a : Nat) (s : State) : (irqAt a s).views = s.views := (irqAt_only a s).views
@[simp] theorem irqAt_tiles (a : Nat) (s : State) : (irqAt a s).tiles = s.tiles := (irqAt_only a s).tiles
@[simp] theorem irqAt_ports (a : Nat) (s : State) : (irqAt a s).ports = s.ports := (irqAt_only a s).ports
@[simp] theorem irqAt_armCtr (a : Nat) (s : State) : (irqAt a s).armCtr = s.armCtr := (irqAt_only a s).armCtr
@[simp] theorem irqAt_tw (a : Nat) (s : State) : (irqAt a s).tw = s.tw := (irqAt_only a s).tw
@[simp] theorem irqAt_act (a : Nat) (s : State) : (irqAt a s).act = s.act := (irqAt_only a s).act
@[simp] theorem irqAt_acct (a : Nat) (s : State) : (irqAt a s).acct = s.acct := (irqAt_only a s).acct
@[simp] theorem irqAt_net (a : Nat) (s : State) : (irqAt a s).net = s.net := (irqAt_only a s).net
@[simp] theorem irqAt_lanes (a : Nat) (s : State) : (irqAt a s).lanes = s.lanes := (irqAt_only a s).lanes
@[simp] theorem irqAt_queues (a : Nat) (s : State) : (irqAt a s).queues = s.queues := (irqAt_only a s).queues
@[simp] theorem irqAt_toll (a : Nat) (s : State) : (irqAt a s).toll = s.toll := (irqAt_only a s).toll
@[simp] theorem irqAt_em (a : Nat) (s : State) : (irqAt a s).em = s.em := (irqAt_only a s).em
@[simp] theorem irqAt_pa (a : Nat) (s : State) : (irqAt a s).pa = s.pa := (irqAt_only a s).pa
@[simp] theorem irqAt_ab (a : Nat) (s : State) : (irqAt a s).ab = s.ab := (irqAt_only a s).ab
@[simp] theorem irqAt_ev (a : Nat) (s : State) : (irqAt a s).ev = s.ev := (irqAt_only a s).ev
@[simp] theorem irqAt_mb (a : Nat) (s : State) : (irqAt a s).mb = s.mb := (irqAt_only a s).mb
@[simp] theorem irqAt_rs (a : Nat) (s : State) : (irqAt a s).rs = s.rs := (irqAt_only a s).rs
@[simp] theorem irqAt_freeCtr (a : Nat) (s : State) : (irqAt a s).freeCtr = s.freeCtr := (irqAt_only a s).freeCtr

@[simp] theorem evt_pending (s : State) (f : Fld) (o : Nat) : (evt s f o).pending = s.pending := (evt_only s f o).pending
@[simp] theorem evt_tables (s : State) (f : Fld) (o : Nat) : (evt s f o).tables = s.tables := (evt_only s f o).tables
@[simp] theorem evt_mem (s : State) (f : Fld) (o : Nat) : (evt s f o).mem = s.mem := (evt_only s f o).mem
@[simp] theorem evt_bases (s : State) (f : Fld) (o : Nat) : (evt s f o).bases = s.bases := (evt_only s f o).bases
@[simp] theorem evt_tick (s : State) (f : Fld) (o : Nat) : (evt s f o).tick = s.tick := (evt_only s f o).tick
@[simp] theorem evt_time (s : State) (f : Fld) (o : Nat) : (evt s f o).time = s.time := (evt_only s f o).time
@[simp] theorem evt_ledger (s : State) (f : Fld) (o : Nat) : (evt s f o).ledger = s.ledger := (evt_only s f o).ledger
@[simp] theorem evt_views (s : State) (f : Fld) (o : Nat) : (evt s f o).views = s.views := (evt_only s f o).views
@[simp] theorem evt_tiles (s : State) (f : Fld) (o : Nat) : (evt s f o).tiles = s.tiles := (evt_only s f o).tiles
@[simp] theorem evt_ports (s : State) (f : Fld) (o : Nat) : (evt s f o).ports = s.ports := (evt_only s f o).ports
@[simp] theorem evt_armCtr (s : State) (f : Fld) (o : Nat) : (evt s f o).armCtr = s.armCtr := (evt_only s f o).armCtr
@[simp] theorem evt_tw (s : State) (f : Fld) (o : Nat) : (evt s f o).tw = s.tw := (evt_only s f o).tw
@[simp] theorem evt_act (s : State) (f : Fld) (o : Nat) : (evt s f o).act = s.act := (evt_only s f o).act
@[simp] theorem evt_acct (s : State) (f : Fld) (o : Nat) : (evt s f o).acct = s.acct := (evt_only s f o).acct
@[simp] theorem evt_net (s : State) (f : Fld) (o : Nat) : (evt s f o).net = s.net := (evt_only s f o).net
@[simp] theorem evt_lanes (s : State) (f : Fld) (o : Nat) : (evt s f o).lanes = s.lanes := (evt_only s f o).lanes
@[simp] theorem evt_queues (s : State) (f : Fld) (o : Nat) : (evt s f o).queues = s.queues := (evt_only s f o).queues
@[simp] theorem evt_toll (s : State) (f : Fld) (o : Nat) : (evt s f o).toll = s.toll := (evt_only s f o).toll
@[simp] theorem evt_em (s : State) (f : Fld) (o : Nat) : (evt s f o).em = s.em := (evt_only s f o).em
@[simp] theorem evt_pa (s : State) (f : Fld) (o : Nat) : (evt s f o).pa = s.pa := (evt_only s f o).pa
@[simp] theorem evt_ab (s : State) (f : Fld) (o : Nat) : (evt s f o).ab = s.ab := (evt_only s f o).ab
@[simp] theorem evt_ev (s : State) (f : Fld) (o : Nat) : (evt s f o).ev = s.ev := (evt_only s f o).ev
@[simp] theorem evt_mb (s : State) (f : Fld) (o : Nat) : (evt s f o).mb = s.mb := (evt_only s f o).mb
@[simp] theorem evt_rs (s : State) (f : Fld) (o : Nat) : (evt s f o).rs = s.rs := (evt_only s f o).rs
@[simp] theorem evt_freeCtr (s : State) (f : Fld) (o : Nat) : (evt s f o).freeCtr = s.freeCtr := (evt_only s f o).freeCtr

@[simp] theorem evtCnt_pending (s : State) (f : Fld) (c o : Nat) : (evtCnt s f c o).pending = s.pending := (evtCnt_only s f c o).pending
@[simp] theorem evtCnt_tables (s : State) (f : Fld) (c o : Nat) : (evtCnt s f c o).tables = s.tables := (evtCnt_only s f c o).tables
@[simp] theorem evtCnt_mem (s : State) (f : Fld) (c o : Nat) : (evtCnt s f c o).mem = s.mem := (evtCnt_only s f c o).mem
@[simp] theorem evtCnt_bases (s : State) (f : Fld) (c o : Nat) : (evtCnt s f c o).bases = s.bases := (evtCnt_only s f c o).bases
@[simp] theorem evtCnt_tick (s : State) (f : Fld) (c o : Nat) : (evtCnt s f c o).tick = s.tick := (evtCnt_only s f c o).tick
@[simp] theorem evtCnt_time (s : State) (f : Fld) (c o : Nat) : (evtCnt s f c o).time = s.time := (evtCnt_only s f c o).time
@[simp] theorem evtCnt_ledger (s : State) (f : Fld) (c o : Nat) : (evtCnt s f c o).ledger = s.ledger := (evtCnt_only s f c o).ledger
@[simp] theorem evtCnt_views (s : State) (f : Fld) (c o : Nat) : (evtCnt s f c o).views = s.views := (evtCnt_only s f c o).views
@[simp] theorem evtCnt_tiles (s : State) (f : Fld) (c o : Nat) : (evtCnt s f c o).tiles = s.tiles := (evtCnt_only s f c o).tiles
@[simp] theorem evtCnt_ports (s : State) (f : Fld) (c o : Nat) : (evtCnt s f c o).ports = s.ports := (evtCnt_only s f c o).ports
@[simp] theorem evtCnt_armCtr (s : State) (f : Fld) (c o : Nat) : (evtCnt s f c o).armCtr = s.armCtr := (evtCnt_only s f c o).armCtr
@[simp] theorem evtCnt_tw (s : State) (f : Fld) (c o : Nat) : (evtCnt s f c o).tw = s.tw := (evtCnt_only s f c o).tw
@[simp] theorem evtCnt_act (s : State) (f : Fld) (c o : Nat) : (evtCnt s f c o).act = s.act := (evtCnt_only s f c o).act
@[simp] theorem evtCnt_acct (s : State) (f : Fld) (c o : Nat) : (evtCnt s f c o).acct = s.acct := (evtCnt_only s f c o).acct
@[simp] theorem evtCnt_net (s : State) (f : Fld) (c o : Nat) : (evtCnt s f c o).net = s.net := (evtCnt_only s f c o).net
@[simp] theorem evtCnt_lanes (s : State) (f : Fld) (c o : Nat) : (evtCnt s f c o).lanes = s.lanes := (evtCnt_only s f c o).lanes
@[simp] theorem evtCnt_queues (s : State) (f : Fld) (c o : Nat) : (evtCnt s f c o).queues = s.queues := (evtCnt_only s f c o).queues
@[simp] theorem evtCnt_toll (s : State) (f : Fld) (c o : Nat) : (evtCnt s f c o).toll = s.toll := (evtCnt_only s f c o).toll
@[simp] theorem evtCnt_em (s : State) (f : Fld) (c o : Nat) : (evtCnt s f c o).em = s.em := (evtCnt_only s f c o).em
@[simp] theorem evtCnt_pa (s : State) (f : Fld) (c o : Nat) : (evtCnt s f c o).pa = s.pa := (evtCnt_only s f c o).pa
@[simp] theorem evtCnt_ab (s : State) (f : Fld) (c o : Nat) : (evtCnt s f c o).ab = s.ab := (evtCnt_only s f c o).ab
@[simp] theorem evtCnt_ev (s : State) (f : Fld) (c o : Nat) : (evtCnt s f c o).ev = s.ev := (evtCnt_only s f c o).ev
@[simp] theorem evtCnt_mb (s : State) (f : Fld) (c o : Nat) : (evtCnt s f c o).mb = s.mb := (evtCnt_only s f c o).mb
@[simp] theorem evtCnt_rs (s : State) (f : Fld) (c o : Nat) : (evtCnt s f c o).rs = s.rs := (evtCnt_only s f c o).rs
@[simp] theorem evtCnt_freeCtr (s : State) (f : Fld) (c o : Nat) : (evtCnt s f c o).freeCtr = s.freeCtr := (evtCnt_only s f c o).freeCtr

/-! ## Registers after an event -/

/-- An event bit that is set changes no other register outside the interrupt logic. -/
theorem rdn_evt_other (s : State) (f : Fld) (o : Nat) {a : Nat} (h : a ≠ f.reg + o) (hi : ¬ IrqReg a) :
    rdn (evt s f o) a = rdn s a := by
  unfold evt
  rw [rdn_irqAt _ _ hi, rdn_fset_other s f 1 o h]

/-- The event register after its bit is set. -/
theorem rdn_evt_same (s : State) (f : Fld) (o : Nat) (hi : ¬ IrqReg (f.reg + o)) :
    rdn (evt s f o) (f.reg + o) = rdn (fset s f 1 o) (f.reg + o) := by
  unfold evt
  rw [rdn_irqAt _ _ hi]

/-- An event bit that is set reads 1. -/
theorem fbit_evt_same (s : State) (f : Fld) (o : Nat) (h : f.lo = f.hi) (hw : f.hi < 32) (hi : ¬ IrqReg (f.reg + o)) :
    fbit (evt s f o) f o = true := by
  have : fget (evt s f o) f o = fget (fset s f 1 o) f o := by
    unfold fget
    rw [rdn_evt_same s f o hi]
  unfold fbit
  rw [this, fget_fset_same s f 1 o (by omega) hw]
  have : f.hi + 1 - f.lo = 1 := by omega
  simp [this]

theorem fget_evt_other (s : State) (f g : Fld) (o p : Nat) (h : g.reg + p ≠ f.reg + o) (hi : ¬ IrqReg (g.reg + p)) :
    fget (evt s f o) g p = fget s g p := by
  unfold fget
  rw [rdn_evt_other s f o h hi]

end Sys2Proof.Machine
end

