-- ==== Sys2Proof/Tests/Slice0.lean ====
section
/-! SUPPORT. The model's own tests: an ill-formed command for each check of WellFormed, the worked examples of the spec (the
numbers are the spec's), a few single steps, and for every statement with hypotheses a witness that meets them: one theorem
per statement, one state and operands per clause of it. A witness proves nothing about the statement's conclusion. -/

namespace Sys2Proof.Tests

set_option maxRecDepth 8000
set_option linter.unusedVariables false

open Sys2Proof.Machine

/-! ## Helpers -/
/-- Registers' fields set one after another: (field, value, offset). -/
def stOf (s : State) (l : List (Fld × Nat × Nat)) : State := l.foldl (fun t x => fset t x.1 x.2.1 x.2.2) s

/-- A mailbox command on channel 0. -/
def cc (payload : List Byte) (nums : List Int := []) : CmdCall :=
  ⟨none, 0, 22, if 48 < payload.length then 1 else 0, 0, 0, 0, payload, [], nums, 0, 0⟩

/-- What a boot finds: 4 GiB of LP5X, and with `m` a medium of one target, not formatted. -/
def bf (m : Bool) : BootFound :=
  ⟨false, 0, false, true, 0, 0, 0, 0, 0, 4,
    ⟨if m then [[⟨0, 0, 16384, 2048, 2 ^ 22, 1000, 3000, true⟩]] else [], [], [], [⟨1, true, 0⟩], none⟩, true, 1, 15, 0, []⟩

/-- A medium header of one partition. -/
def mh0 : MediumHdr := ⟨1, 1, 1, 0, 64, 1000, 3000, 30000, 100, [⟨5, 0, 0, 4, 0⟩]⟩

/-- That header, signed with the zero key. -/
def hdr0 : List Byte := mediumHeader (zeros 48) mh0

theorem read_hdr0 : readHeader (zeros 48) hdr0 = some mh0 := by
  have h := readHeader_mediumHeader (zeros 48) mh0
  unfold hdr0
  unfold readHeader at h ⊢
  split at h
  · cases h
  · rw [if_neg ‹_›]
    decide

/-- A boot that finds a formatted medium. -/
def bfH : BootFound := { bf true with medium := { (bf true).medium with headers := [(0, hdr0)] } }

/-- The unit of that boot before its medium is read. -/
def preBoot : State :=
  lp5xTrain bfH.lp5xGiB (readFuses bfH (phyCheck bfH.phyDead.toNat (sampleStraps bfH (idleBuses
    { State.reset with rs := { State.reset.rs with held := false } }))))

theorem boot_hdr0 : fget (mediumBoot bfH.medium preBoot) fEV_STAT_STATE = 2 := by
  have k : keyBytes preBoot = zeros 48 := by decide
  obtain ⟨u, h, hu⟩ := mediumBoot_one bfH.medium (zeros 48) hdr0 _ preBoot k (by decide) rfl read_hdr0 rfl
  rw [h, hu]
  decide

/-- `s` with port 0 as given. -/
def p0 (x : PortSt) (s : State) : State := { s with ports := s.ports.set 0 x }

/-- A unit whose requests may leave. -/
def dmaS : State := cfgWr (fset State.reset fHE_STAT_LINK_UP 1) 4 0x100004

/-- `s` with profiles in the configuration store. -/
def prf (l : List Profile) (s : State) : State := { s with ev := { s.ev with conf := l } }

/-- `s` with calibration entries. -/
def calS (l : List CalEntry) (s : State) : State := { s with ev := { s.ev with cal := l } }

/-- `s` with another ledger. -/
def lgS (f : LedgerSt → LedgerSt) (s : State) : State := { s with ledger := f s.ledger }

/-- `s` with other views. -/
def vwS (f : ViewSt → ViewSt) (s : State) : State := { s with views := f s.views }

/-- `s` with other tiles. -/
def tlS (f : TileSt → TileSt) (s : State) : State := { s with tiles := f s.tiles }

/-- `s` with another valve bus 0. -/
def bus0 (w : BusSt) (s : State) : State := { s with act := { s.act with buses := s.act.buses.set 0 w } }

/-- `s` with outstanding requests. -/
def reqS (l : List NpReq) (s : State) : State := { s with he := { s.he with reqs := l } }

/-- A calibration run of source view 1 and destination view 2. -/
def calR (objs : List CalObj) (gate : List Nat) : CalRun := ⟨0, 1, 2, 0, 64, 0, 0, 0, false, gate, objs⟩

/-- A tile that waits for its crop. -/
def tileM : TileMade := ⟨0, 0, 0, none, 0⟩

/-- A tile allocated in ring 0. -/
def tileA : TileAlloc := ⟨0, 0, 0, 0, 0, 0, none, 0, 0, 1, 0, none, false, 0, false⟩

/-- One enabled board with one valve on bus 0, which is enabled. -/
def boardF : List (Fld × Nat × Nat) :=
  [(fAC_CTL_EN, 1, 0), (fAC_CTL_REMOTE_EN, 1, 0), (fAC_CTL_VALVES, 1, 0), (fAC_BOARD_EN, 1, 0), (fAC_BOARD_COUNT, 1, 0),
   (fAC_BUS_CTL_EN, 1, 0)]

/-- A part that waits on a bus. -/
def partT : Part := ⟨0, .test, 0, 1, 0, 0, 0⟩

/-- `s` with other lanes of port E. -/
def lan0 (l : LanePort) (s : State) : State := { s with lanes := s.lanes.set 0 l }

/-- A Span packet of the given 14 header bytes and payload. -/
def rawP (h pl : List Byte) : List Byte :=
  let a := h ++ leBytes 2 (crc16 h) ++ pl
  a ++ leBytes 4 (crc32 a)

/-- A unit whose link is up and whose memory space is enabled. -/
def memS : State := cfgWr (fset State.reset fHE_STAT_LINK_UP 1) 4 0x100006

/-- `s` with other parts of channel 0. -/
def chS (f : MbChan → MbChan) (s : State) : State := updChan s 0 f

/-- A deferred command that can still be stopped. -/
def dfr (op : Nat) (c : CmdCall) : Deferred := ⟨c, op, 0, none, true, false, none⟩

/-- The smallest firmware image. -/
def img0 : List Byte := leBytes 4 0x4957465A ++ leBytes 2 0x100 ++ zeros 346

/-- `s` with that image at address 0 of LP5X. -/
def lpS (s : State) : State :=
  { s with mem := { s.mem with lp5 := [(0, 0x5A#8), (1, 0x46#8), (2, 0x57#8), (3, 0x49#8), (5, 1#8)] } }

/-- `s` with Causeway service up. -/
def cwS (s : State) : State := { s with rs := { s.rs with causewayUp := true } }

/-- `s` asleep. -/
def slS (s : State) : State := { s with rs := { s.rs with asleep := true } }
def stepS (s : State) : State := { s with rs := { s.rs with step := 4 } }

/-- A line in the stages. -/
def line0 : PLine := ⟨0, 0, 0, 0, 0, 0, 0, 0, [], [], [], [], [], [], [], []⟩

/-- A frame's record. -/
def frec0 : FrameRec := ⟨0, 0, 0, 0, [], [], [], [], [], 0, [], false, accZero, 0, none⟩

/-- A slot that is on, with a profile for it. -/
def hotS : State :=
  stOf { State.reset with ev := { State.reset.ev with conf := [⟨2, 0, [], [], 0⟩] } }
    [(fMB_DENNIL_STAT_STATE, 2, 0), (fPP_SLOT_STAT_STATE, 3, 0), (⟨MM_POOL_FREE, 31, 0⟩, 0xFFFFFFFF, 0), (fPP_GEOM_WIDTH, 8, 0), (fVW_PMAP_EN, 1, 0), (fVW_PMAP_X1_X1, 7, 0),
      (fPP_GEOM_HEIGHT, 64, 0), (fPP_CTL_DT_PIPE, 42, 0), (fSC_PROFILE_LAT, 1, 0), (⟨SC_WINDOW, 31, 0⟩, 0x10000, 0)]

/-- What the profile is loaded into, and the port enabled there. -/
def hot0 : State := portOff (0 : PortNo).val (updPort hotS (0 : PortNo).val (fun x => { x with headId := (0#64).toNat }))
def hotT : State := (enableWith (0 : PortNo).val (loadSensor (0 : PortNo).val ⟨2, 0, [], [], 0⟩ hot0)).get (by decide)
theorem hot_enabled : enableWith (0 : PortNo).val (loadSensor (0 : PortNo).val ⟨2, 0, [], [], 0⟩ hot0) = some hotT :=
  (Option.some_get _).symm

/-- Dennil runs, and one command waits on the open channel 0; requests may leave. -/
def mbS : State :=
  cfgWr (stOf State.reset [(fMB_DENNIL_STAT_STATE, 2, 0), (fMB_STAT_STATE, 2, 0), (fMB_STAT_EXPERT, 1, 0), (fMB_STAT_HIV, 22, 0),
    (fMB_CTL_CMD_SIZE, 4, 0), (fMB_CTL_CPL_SIZE, 4, 0), (⟨MB_CMD_TAIL, 31, 0⟩, 1, 0), (fHE_STAT_LINK_UP, 1, 0)]) 4 0x100004

/-! ## Well-formed commands: an ill-formed term for each check -/

/-- A mailbox command whose entry fields can be set apart. -/
def entry (hiv flags tag target reserved : Nat) (origin : Option Nat) (payload : List Byte) : CmdCall :=
  ⟨origin, 0, hiv, flags, tag, target, reserved, payload, [], [], 0, 0⟩

theorem test_wf_accepts : (Instr.info (entry 22 0 0xFFFFFFFF 0xFFFF 0 (some 1023) [])).wf = true := by decide
theorem test_wf_refuses_hiv : (Instr.info (entry 256 0 0 0 0 none [])).wf = false := by decide
theorem test_wf_refuses_flags : (Instr.info (entry 22 256 0 0 0 none [])).wf = false := by decide
theorem test_wf_refuses_tag : (Instr.info (entry 22 0 (2 ^ 32) 0 0 none [])).wf = false := by decide
theorem test_wf_refuses_target : (Instr.info (entry 22 0 0 65536 0 none [])).wf = false := by decide
theorem test_wf_refuses_reserved : (Instr.info (entry 22 0 0 0 (2 ^ 32) none [])).wf = false := by decide
theorem test_wf_refuses_origin : (Instr.info (entry 22 0 0 0 0 (some 1024) [])).wf = false := by decide
theorem test_wf_refuses_payload : (Instr.info (entry 22 0 0 0 0 none (zeros 65536))).wf = false := by
  have h : (zeros 65536).length = 65536 := List.length_replicate ..
  simp only [Instr.wf, CmdCall.wf, entry, h]
  decide

theorem test_wf_refuses_addr : (Instr.info { entry 22 0 0 0 0 none [] with addr := 2 ^ 64 }).wf = false := by decide

/-! ## The worked examples of the spec -/

/-- Chapter 4, steps 4, 11 and 13. -/
theorem test_correction_example :
    p1Of 23600 1024 (-24) = 22600 ∧ gainStep 22600 4915 = (27119, false) ∧ p4Of 22600 4915 3891 = (25762, false) := by decide

/-- Chapter 4: the median of the seven neighbours that remain. -/
theorem test_defect_median : medianOf [22400, 22900, 22100, 23100, 22700, 21900, 22500] = 22500 := by decide

/-- The p4 values of the table of chapter 5 by offset. -/
def p4Table : List (Int × Int × Nat) :=
  [(0, -1, 20000), (0, 1, 20400), (-1, 0, 18000), (1, 0, 22800), (-2, -1, 19800), (-2, 1, 20200), (2, -1, 20100), (2, 1, 20500),
   (-1, -2, 17900), (1, -2, 22700), (-1, 2, 18100), (1, 2, 22900), (-3, 0, 17000), (3, 0, 23600), (0, -3, 19900), (0, 3, 20500),
   (-1, -1, 3000), (-1, 1, 3100), (1, -1, 3400), (1, 1, 3500), (-2, 0, 9000), (2, 0, 11000), (0, -2, 10000), (0, 2, 10200)]

/-- The value of an offset. -/
def p4Tab (a b : Int) : Nat := ((p4Table.find? (fun e => e.1 = a && e.2.1 = b)).map (fun e => e.2.2)).getD 0

/-- Chapter 5, steps 1 to 10: the direction, G, N and B. -/
theorem test_reconstruction_example :
    mosaicCh ⟨2, 0, 0⟩ 18 1000 = 0 ∧ gEstimate p4Tab 0x400 = (20200, 0) ∧
    diffEstimate p4Tab (samplesOf ⟨2, 0, 0⟩ 18 1000 3) 20200 = (3163, false) ∧
    diffEstimate p4Tab (samplesOf ⟨2, 0, 0⟩ 18 1000 2) 20200 = (9975, false) := by decide

/-- Chapter 5, steps 11 to 16. -/
theorem test_colour_example :
    nirSub ⟨25762, 20200, 9975, 3163⟩ 0x666 0x333 0x4CD = (⟨24497, 19568, 9026, 3163⟩, false) ∧
    colourMatrix [0x1800, -1229, -819, 0, -819, 0x1666, -819, 0, -410, -1638, 0x1800, 0, 0, 0, 0, 0x1000]
      ⟨24497, 19568, 9026, 3163⟩ = (⟨29069, 20690, 3262, 3163⟩, false) := by decide

/-- Chapter 6: the contributions of one pixel. -/
theorem test_focus_example : focusOf (fun a b => ([1200, 1250, 1400, 1180, 1300, 1500, 1150, 1280, 1520] : List Int).getD
    (3 * (a + 1) + b + 1).toNat 0) = (1481000, 100) := by decide

/-- R20: RAW12 codes ABCh and 123h, MSB-aligned. -/
theorem test_raw12 : unpack 4 12 [0xAB, 0x12, 0x3C] = [0xABC0, 0x1230] := by decide

/-- Chapter 8: xp of the lentil's front view and of the chip. -/
theorem test_position_map : mdlXpos ⟨true, -1050673, 32790, 0⟩ 7456 = 25319 ∧ mdlXpos ⟨true, -1050673, 32790, 0⟩ 5900 = 26878 := by
  decide

/-- Model 1 of chapter 8 with its table entries 11 to 15. -/
def model1 : State :=
  stOf (tblPuts State.reset (0xE00000 + 0x100 + 44) ([41400, 41000, 40600, 40200, 39800].flatMap (leBytes 4)))
    [(fVW_MDL_CTL_EN, 1, 0x20), (⟨VW_MDL_A, 31, 0⟩, 0xFFEFF7CF, 0x20), (⟨VW_MDL_B, 31, 0⟩, 32790, 0x20),
     (fVW_MDL_CTL_TOL_X, 160, 0x20), (⟨VW_MDL_TOLT, 31, 0⟩, 75000, 0x20), (fVW_MDL_AREA_MAX, 0x180, 0x20),
     (fVW_GRP_CTL_W_X, 4, 0), (fVW_GRP_CTL_W_T, 1, 0), (fVW_GRP_CTL_W_A, 8, 0)]

/-- Chapter 8: the delays of A and A2. -/
theorem test_delay_example :
    mdlDelay model1 (vwModel model1 1) 7456 2048 = 40066 ∧ mdlDelay model1 (vwModel model1 1) 5900 2048 = 41263 := by
  decide +kernel

/-- Chapter 8: B costs 129 against A and is outside TOL_X against A2. -/
theorem test_cost_example :
    pairCost model1 0 ⟨1, 0, 0, 900000, 7456, 1512, false, 2048⟩ ⟨2, 1, 40000, 940000, 25301, 1468, false, 2048⟩ = some 129 ∧
    pairCost model1 0 ⟨3, 0, 4294667296, 0, 5900, 260, false, 2048⟩ ⟨2, 1, 40000, 940000, 25301, 1468, false, 2048⟩ = none := by
  decide +kernel

/-- Chapter 10: p0 and p1 of the lentil and their valves. -/
theorem test_valve_example :
    mdlXpos ⟨true, 34114, 2027, 0⟩ 7040 = 2256 ∧ mdlXpos ⟨true, 34114, 2027, 0⟩ 7872 = 2283 ∧
    (2256 : Int) / 16 = 141 ∧ (2283 : Int) / 16 = 142 := by decide

/-- Chapter 10, step 4: the symbols of the frame before its CRC. -/
theorem test_valve_frame : (frameBytes 0 0 0x6000 1525 2).take 12 = [0, 0, 0x60, 0, 0, 0, 0, 0, 0, 0xF5, 5, 2] := by decide

/-- Chapter 10, step 4: the lentil's part is bits 13 and 14 of board entry 2. -/
theorem test_board_example :
    boardBits (stOf State.reset [(fAC_BOARD_EN, 1, 8), (fAC_BOARD_COUNT, 64, 8), (fAC_BOARD_FIRST, 128, 8)]) 2 141 142 = 0x6000 := by
  decide +kernel

/-- Chapter 3: two writes of four bytes at 1 MHz are estimated at 104 µs. -/
theorem test_estimate_example :
    estimate (stOf State.reset [(fSC_SLOT_CTL_WLEN, 10, 0), (⟨SC_WBUF, 31, 0⟩, 0x03020104, 0),
      (⟨SC_WBUF, 31, 0⟩, 0x06050404, 4), (⟨SC_WBUF, 31, 0⟩, 0x0807, 8), (fTW_CFG_SPEED, 2, 0)]) 0 0
      = 104000 := by decide +kernel

/-- Chapter 12: three usable lanes against four give a count of 2. -/
theorem test_lane_count_example : laneCount (min 3 4) = 2 := by decide

/-- Chapter 13: packets of 2,048 and 2,020 bytes take 33 and 32 credits. -/
theorem test_credits_example : credits 2048 = 33 ∧ credits 2020 = 32 ∧ 3 * credits 2048 + credits 2020 = 131 := by decide

/-- Chapter 15: the entry of request A. -/
def requestA : List Byte :=
  [0x10, 0x03, 0x16, 0x00, 0x23, 0x01, 0x00, 0x00, 0x10, 0x00, 0x01, 0x80, 0, 0, 0, 0,
   0x01, 0x00, 0, 0, 0x88, 0x13, 0x00, 0x00, 0x20, 0xBF, 0x02, 0x00, 0x00, 0x02, 0x00, 0x10] ++ zeros 32

/-- Chapter 15: the fields of that entry. -/
theorem test_entry_example :
    u16At requestA 0 = 0x0310 ∧ (parseEntry 0 requestA [] [] []).hiv = 0x16 ∧ (parseEntry 0 requestA [] [] []).tag = 0x123 ∧
    (parseEntry 0 requestA [] [] []).target = 0x8001 ∧ (parseEntry 0 requestA [] [] []).payload.length = 16 ∧
    pd (parseEntry 0 requestA [] [] []) 4 = 5000 ∧ pd (parseEntry 0 requestA [] [] []) 8 = 180000 := by decide

/-- Chapter 15, step 4: the completion of request A. -/
theorem test_completion_example : cplEntry 0x0310 0 0 0x123 0 [0x13, 0x02, 0, 0, 0x88, 0x13, 0, 0] =
    [0x10, 0x03, 0, 0, 0x23, 0x01, 0, 0, 0, 0, 0, 0, 0, 0, 0, 0, 0x13, 0x02, 0, 0, 0x88, 0x13, 0, 0] ++ zeros 40 := by decide

/-- Chapter 18: the accrual rate of a Machine K unit. -/
theorem test_credit_rate_example :
    credRate { State.reset with ev := { State.reset.ev with
      good := 131072, hdr := { State.reset.ev.hdr with peNative := 3000, lifeH := 219150 } } } = 2140656 := by
  decide +kernel

/-- Chapter 21: a record of 54 bytes is seven words, six tagged 08h and the last 66h. -/
theorem test_queue_example : (quPack 55 8 (zeros 54)).map (·.tag) = [8, 8, 8, 8, 8, 8, 0x66] := by decide

/-- The check values that the catalogue of CRC algorithms gives for the CRCs of R176, R230 and R303, over 123456789. -/
theorem test_crc : crc16 (List.map (BitVec.ofNat 8) [49, 50, 51, 52, 53, 54, 55, 56, 57]) = 0x29B1 ∧
    crc32 (List.map (BitVec.ofNat 8) [49, 50, 51, 52, 53, 54, 55, 56, 57]) = 0xCBF43926 ∧
    pec [49, 50, 51, 52, 53, 54, 55, 56, 57] = 0xF4 := by decide +kernel

/-! ## One step of the machine -/

/-- The outcome's state, or the state after reset. -/
def stateAfter (o : Host.Outcome State Fault Refusal) : State :=
  match o with
  | .next t => t
  | _ => State.reset

/-- An idle step of a unit held in reset changes nothing, and one of a running unit counts a tick. -/
theorem test_idle_step :
    (stateAfter (step State.reset)).tick = 0 ∧ (stateAfter (step { State.reset with rs := { State.reset.rs with held := false } })).tick = 1 := by
  decide

/-- A write of PP_TS_ADJ, which is RW throughout, with all byte lanes, by Dennil. -/
theorem test_register_write :
    rdn (stateAfter (step { State.reset with pending := [.registerWrite .dennil 0x10000C 0x12345678 15] })) 0x10000C = 0x12345678 := by
  decide

/-- With byte lane 1 alone. -/
theorem test_register_write_lane :
    rdn (stateAfter (step { State.reset with pending := [.registerWrite .dennil 0x10000C 0x12345678 2] })) 0x10000C = 0x5600 := by
  decide

/-- The commands of the queue leave it in order. -/
theorem test_queue_order :
    (stateAfter (step { State.reset with pending := [.aliveToggle, .frameEnd 0] })).pending = [.frameEnd 0] := by decide

/-- The ALIVE pin toggles while WDOG runs (R401). -/
theorem test_alive_toggle :
    (stateAfter (execAliveToggle (stOf State.reset [(fPA_STAT_ALIVE_RUN, 1, 0)]))).outbox = [.pin "ALIVE" 0 true] := by decide

/-! ## Witnesses of the statements -/

theorem witness_StepRunsFrontCommand :
    ∃ (s : State) (c : Instr) (rest : List Instr), s.pending = c :: rest :=
  ⟨{ State.reset with pending := [.perstNRelease] }, .perstNRelease, [], by decide⟩

theorem witness_IdleStepIsOneTick :
    (∃ (s : State), s.pending = [] ∧ s.rs.held = true) ∧
    (∃ (s : State), s.pending = [] ∧ s.rs.held = false) :=
  ⟨⟨State.reset, by decide, by decide⟩,
    ⟨{ State.reset with rs := { State.reset.rs with held := false } }, by decide, by decide⟩⟩

theorem witness_CommandsKeepUntouchedComponents :
    ∃ (c : Instr) (s : State) (t : State) (p : Comp), exec c s = .next t ∧ p ∉ touches c :=
  ⟨.aliveToggle, State.reset, _, .tables, rfl, by decide⟩

theorem witness_EveryStepKeepsCanonicalMemories :
    ∃ (s : State) (t : State), Canon s ∧ step s = .next t :=
  ⟨State.reset, _, by unfold Canon; decide, rfl⟩

theorem witness_RegistersAndMemoriesReadAsWritten :
    (∃ (s : State) (a : Nat) (b : Nat) (v : Nat), b ≠ a) ∧
    (∃ (s : State) (f : Fld) (v : Nat) (o : Nat), f.lo ≤ f.hi ∧ f.hi < 32) ∧
    (∃ (s : State) (f : Fld) (v : Nat) (o : Nat) (i : Nat), f.lo ≤ f.hi ∧ f.hi < 32 ∧ ((i < f.lo ∨ f.hi < i))) ∧
    (∃ (s : State) (a : Nat), rdn s a < 0xFFFFFFFF) ∧
    (∃ (s : State) (a : Nat), rdn s a = 0xFFFFFFFF) ∧
    (∃ (s : State) (a : Nat) (b : Nat), b ≠ a) ∧
    (∃ (s : State) (a : Nat) (b : Byte), lp5Lost s a = false) ∧
    (∃ (s : State) (a : Nat) (b : Byte), lp5Lost s a = true) ∧
    (∃ (s : State) (a : Nat) (k : Nat) (b : Byte), k ≠ a) ∧
    (∃ (s : State) (a : Nat) (i : Nat) (l : List Byte), i < l.length ∧ ((∀ j, j < l.length → lp5Lost s (a + j) = false))) ∧
    (∃ (s : State) (a : Nat) (k : Nat) (l : List Byte), ((k < a ∨ a + l.length ≤ k))) :=
  ⟨⟨State.reset, 0, 4, 0, by decide⟩,
    ⟨State.reset, ⟨0, 31, 31⟩, 0, 0, by decide, by decide⟩,
    ⟨State.reset, ⟨0, 31, 1⟩, 0, 0, 0, by decide, by decide, by decide⟩,
    ⟨State.reset, 0, by decide⟩,
    ⟨{ State.reset with regs := [(0, 0xFFFFFFFF#32)] }, 0, by decide⟩,
    ⟨State.reset, 0, 4, by decide⟩,
    ⟨State.reset, 0, 0#8, by decide⟩,
    ⟨stOf State.reset [(fMM_STAT_LOST, 255, 0)], 0, 0#8, by decide⟩,
    ⟨State.reset, 0, 1, 0#8, by decide⟩,
    ⟨State.reset, 0, 0, [1#8], by decide, by decide⟩,
    ⟨State.reset, 0, 0, [], by decide⟩⟩

theorem witness_EventSetsItsBitAndKeepsTheRest :
    (∃ (s : State) (f : Fld) (o : Nat), f.lo = f.hi ∧ f.hi < 32 ∧ (¬ IrqReg (f.reg + o))) ∧
    (∃ (s : State) (f : Fld) (o : Nat) (i : Nat), f.lo = f.hi ∧ f.hi < 32 ∧ (¬ IrqReg (f.reg + o)) ∧ i ≠ f.hi) ∧
    (∃ (s : State) (f : Fld) (o : Nat) (a : Nat), a ≠ f.reg + o ∧ (¬ IrqReg a)) :=
  ⟨⟨State.reset, fPP_EVT_LINK_TMO, 0, by decide, by decide, by simp [IrqReg, HE_IPEND, HE_VEC_ARM, HE_PBA]⟩,
    ⟨State.reset, fPP_EVT_LINK_TMO, 0, 0, by decide, by decide, by simp [IrqReg, HE_IPEND, HE_VEC_ARM, HE_PBA], by decide⟩,
    ⟨State.reset, fPP_EVT_LINK_TMO, 0, 0, by decide, by simp [IrqReg, HE_IPEND, HE_VEC_ARM, HE_PBA]⟩⟩

theorem witness_PowerOnResetClearsAllButTheMedium :
    ∃ (s : State) (p : Comp), p ≠ .pending ∧ p ≠ .ev ∧ p ≠ .he ∧ p ≠ .outbox ∧ p ≠ .freeCtr :=
  ⟨State.reset, .tables, by decide, by decide, by decide, by decide, by decide⟩

theorem witness_BootStepsComplete :
    (∃ (f : BootFound) (s : State) (u : State), s.rs.held = true ∧ f.trimOk = false ∧
     u = phyCheck f.phyDead.toNat (sampleStraps f (idleBuses { s with rs := { s.rs with held := false } }))) ∧
    (∃ (f : BootFound) (s : State) (u : State) (s1 : State), s.rs.held = true ∧ f.trimOk = true ∧
     mediumUsable f.medium = false ∧ f.bootSrc.val ≠ 1 ∧
     u = phyCheck f.phyDead.toNat (sampleStraps f (idleBuses { s with rs := { s.rs with held := false } })) ∧
     s1 = bootError 3 (lp5xTrain f.lp5xGiB (readFuses f u))) ∧
    (∃ (f : BootFound) (s : State) (u : State) (s1 : State) (s2 : State), s.rs.held = true ∧ f.trimOk = true ∧
     mediumUsable f.medium = true ∧ f.lp5xGiB ≠ 0 ∧ f.imageOk = true ∧
     u = phyCheck f.phyDead.toNat (sampleStraps f (idleBuses { s with rs := { s.rs with held := false } })) ∧
     s1 = mediumBoot f.medium (lp5xTrain f.lp5xGiB (readFuses f u)) ∧ fget s1 fEV_STAT_STATE = 2 ∧
     s2 = { s1 with rs := { s1.rs with mediumOk := true } }) ∧
    (∃ (s : State), fget s fMB_DENNIL_STAT_STATE = 1) ∧
    (∃ (g : BitVec 3) (s : State), fget s fMB_DENNIL_STAT_STATE = 1 ∧ rdn s RS_CNT_RESTART = 0) ∧
    (∃ (g : BitVec 3) (s : State), fget s fMB_DENNIL_STAT_STATE = 1 ∧ rdn s RS_CNT_RESTART ≠ 0) ∧
    (∃ (b : BitVec 4) (s : State) (s1 : State), dennilUp s = true ∧ t1Locked s = true ∧ safeState s = false ∧ 4 ≤ s.rs.step ∧
     s1 = forEach ((List.range 4).filter (bit b.toNat)) (fun k t => busEnable k true t) s) :=
  ⟨⟨{ bf false with trimOk := false }, State.reset, _, by decide, by decide, rfl⟩,
    ⟨bf false, State.reset, _, _, by decide, by decide, by decide, by decide, rfl, rfl⟩,
    ⟨bfH, State.reset, _, mediumBoot bfH.medium preBoot, _, rfl, rfl, by decide, by decide, rfl, rfl, rfl, boot_hdr0, rfl⟩,
    ⟨(stOf (State.reset) [(fMB_DENNIL_STAT_STATE, 1, 0)]), by decide⟩,
    ⟨0#3, (stOf (State.reset) [(fMB_DENNIL_STAT_STATE, 1, 0)]), by decide, by decide⟩,
    ⟨0#3, (stOf (State.reset) [(fMB_DENNIL_STAT_STATE, 1, 0), (⟨RS_CNT_RESTART, 31, 0⟩, 1, 0)]), by decide, by decide⟩,
    ⟨0#4, (stOf (stOf (stepS State.reset) [(fMB_DENNIL_STAT_STATE, 2, 0), (fTB_STAT_STATE, 2, tbo 1), (fTB_STAT_STATE, 2,
    tbo 0)]) [(fMB_DENNIL_STAT_STATE, 2, 0)]), _, by decide, by decide, by decide, by decide, rfl⟩⟩

theorem witness_ResetAndSampleCommandsComplete :
    (∃ (c : CmdCall) (s : State), Accepted ⟨0x1813, 0x10, true, 8, 8, false, true⟩ c s) ∧
    (∃ (c : CmdCall) (s : State), Accepted ⟨0x1811, 0x10, false, 8, 8, false, true⟩ c s ∧ deferredAll (mbTake c s) = []) ∧
    (∃ (c : CmdCall) (s : State), Accepted ⟨0x1812, 0x13, false, 8, 8, false, true⟩ c s ∧ unitIdle (mbTake c s) = true ∧
     ((∀ i, i < 32 → leaseHeld (mbTake c s) i = false))) ∧
    (∃ (c : CmdCall) (s : State) (u : State), Accepted ⟨0x1810, 0x10, false, 0, 0, false, true⟩ c s ∧ u = mbTake c s) ∧
    (∃ (s : State), s.rs.asleep = true ∧ s.rs.wakeReq = true ∧ s.rs.slept = []) ∧
    (∃ (s : State), cwServes s = true ∧ causeway s = true ∧ bit (cwArg s 0) 1 = true) ∧
    (∃ (s : State) (t : State), cwServes s = true ∧ causeway s = true ∧ bit (cwArg s 0) 1 = false ∧
     t = captureRegs (cwArg s 0 % 2) (cwArg s 0) (cwArg s 1) (portOff (cwArg s 0 % 2) s) ∧
     portValid t (cwArg s 0 % 2) = true ∧ cwArg s 2 % 4096 = 0 ∧
     bits (cwArg s 1) 30 16 * ((bits (cwArg s 1) 15 0 + 3) / 4) ≤ cwArg s 3) :=
  ⟨⟨(cc (zeros 8)), mbS, by unfold Accepted; decide⟩,
    ⟨(cc (zeros 8)), mbS, by unfold Accepted; decide, by decide⟩,
    ⟨(cc (zeros 8)), mbS, by unfold Accepted; decide, by decide, by decide⟩,
    ⟨(cc []), mbS, _, by unfold Accepted; decide, rfl⟩,
    ⟨{ State.reset with rs := { State.reset.rs with asleep := true, wakeReq := true } }, by decide, by decide, by decide⟩,
    ⟨stOf { State.reset with rs := { State.reset.rs with causewayUp := true } } [(⟨MB_CW_ARG, 31, 0⟩, 2, 0)], by decide,
    by decide, by decide⟩,
    ⟨stOf { State.reset with rs := { State.reset.rs with causewayUp := true } } [(⟨MB_CW_ARG, 31, 0⟩, 0x2A00, 0),
    (⟨MB_CW_ARG + 4, 31, 0⟩, 2^16*8 + 4, 0), (⟨MB_CW_ARG + 12, 31, 0⟩, 0x1000, 0)], _, by decide, by decide, by decide, rfl,
    by decide, by decide, by decide⟩⟩

theorem witness_ResetAndSampleCommandsComplete_cases :
    (∃ (tj : BitVec 16) (s : State), evRunning s = true ∧ dennilUp s = true) ∧
    (∃ (tj : BitVec 16) (s : State), evRunning s = false) :=
  ⟨⟨0#16, (stOf (State.reset) [(fEV_STAT_STATE, 2, 0), (fMB_DENNIL_STAT_STATE, 2, 0)]), by decide, by decide⟩,
    ⟨0#16, State.reset, by decide⟩⟩

theorem witness_PortEnableAndDisable :
    (∃ (ag : Agent) (p : PortNo) (v : BitVec 32) (s : State), ((ag = .dennil ∨ leased s 2 (some p.val) = true))) ∧
    (∃ (ag : Agent) (p : PortNo) (s : State), ((ag = .dennil ∨ leased s 2 (some p.val) = true)) ∧
     fbit s fPP_CTL_EN (pof p.val) = true) ∧
    (∃ (ag : Agent) (p : PortNo) (s : State), ((ag = .dennil ∨ leased s 2 (some p.val) = true)) ∧
     fbit s fPP_CTL_EN (pof p.val) = false) ∧
    (∃ (p : PortNo) (v : Nat) (s : State), gangedOdd s p.val = false ∧ fbit s fPP_CTL_EN (pof p.val) = false ∧
     bit v 31 = true ∧ ((p.val % 2 == 0 && bit v 29) = gangedEven s p.val)) ∧
    (∃ (p : PortNo) (s : State), fbit s fPP_CTL_EN (pof p.val) = false ∧ portValid s p.val = false) ∧
    (∃ (p : PortNo) (s : State), fbit s fPP_CTL_EN (pof p.val) = false ∧ portValid s p.val = true ∧
     poolCan (poolGive s 0 (portSt s p.val).stageBlocks) 0 (stageNeed s p.val) = true) :=
  ⟨⟨.dennil, 0, 0#32, State.reset, by decide⟩,
    ⟨.dennil, 0, (stOf (State.reset) [(fPP_CTL_EN, 1, (pof (0 : PortNo).val))]), by decide, by decide⟩,
    ⟨.dennil, 0, State.reset, by decide, by decide⟩,
    ⟨0, 2 ^ 31, State.reset, by decide, by decide, by decide, by decide⟩,
    ⟨0, (stOf (State.reset) [(fPP_CTL_LANES, 3, 0)]), by decide, by decide⟩,
    ⟨0, (stOf (State.reset) [(fPP_GEOM_WIDTH, 64, 0), (fPP_GEOM_HEIGHT, 64, 0), (fTL_STAGE_LINES, 64, 0), (⟨MM_POOL_FREE, 31,
    0⟩, 4000, 0)]), by decide, by decide, by decide⟩⟩

theorem witness_UnleasedHostWriteIsDiscarded :
    (∃ (func : Nat) (port : Option Nat) (f : State → State) (s : State), leased s func port = false) ∧
    (∃ (s : State), rdn s MB_CNT_NOLEASE < 0xFFFFFFFF) ∧
    (∃ (s : State) (c : Nat), c < 4 ∧ chOpen s c = true) ∧
    (∃ (p : PortNo) (v : BitVec 32) (s : State), leased s 2 (some p.val) = false ∧
     rdn s (PP_CTL + pof p.val) ≠ setBits v.toNat 31 31 1) ∧
    (∃ (p : PortNo) (s : State), leased s 2 (some p.val) = false ∧ fbit s fPP_CTL_EN (pof p.val) = true) :=
  ⟨⟨0, none, id, State.reset, by decide⟩,
    ⟨State.reset, by decide⟩,
    ⟨(stOf (State.reset) [(fMB_STAT_STATE, 2, mbo (0 : Nat))]), 0, by decide, by decide⟩,
    ⟨0, 0#32, State.reset, by decide, by decide⟩,
    ⟨0, (stOf (State.reset) [(fPP_CTL_EN, 1, (pof (0 : PortNo).val))]), by decide, by decide⟩⟩

theorem witness_FramesPacketsAndPlacesComplete :
    (∃ (p : PortNo) (st : BitVec 32) (dt : BitVec 6) (vc : BitVec 4) (fl : BitVec 16) (l : List Byte) (e : Bool) (s : State) (u : State),
     portRx s p.val = true ∧ u = updPort s p.val (fun x => { x with burst := true })) ∧
    (∃ (p : PortNo) (st : BitVec 32) (dt : BitVec 6) (vc : BitVec 4) (fl : BitVec 16) (l : List Byte) (s : State) (u : State),
     portRx s p.val = true ∧
     u = updPort s p.val (fun x => { x with burst := true }) ∧ dt.toNat = fget u fPP_CTL_DT_PIPE (pof p.val) ∧ vc.toNat = fget u fPP_CTL_VC_PIPE (pof p.val) ∧ 0x2A ≤ dt.toNat) ∧
    (∃ (p : PortNo) (st : BitVec 32) (dt : BitVec 6) (vc : BitVec 4) (fl : BitVec 16) (l : List Byte) (s : State) (u : State),
     portRx s p.val = true ∧
     u = updPort s p.val (fun x => { x with burst := true }) ∧ ((dt.toNat ≠ fget u fPP_CTL_DT_PIPE (pof p.val) ∨ vc.toNat ≠ fget u fPP_CTL_VC_PIPE (pof p.val))) ∧ 0x2A ≤ dt.toNat ∧ dt.toNat ≤ 0x2E) ∧
    (∃ (p : PortNo) (st : BitVec 32) (dt : BitVec 6) (vc : BitVec 4) (fl : BitVec 16) (l : List Byte) (s : State) (u : State),
     portRx s p.val = true ∧ u = updPort s p.val (fun x => { x with burst := true }) ∧ 8 ≤ dt.toNat ∧ dt.toNat ≤ 0xF) ∧
    (∃ (p : PortNo) (st : BitVec 32) (dt : BitVec 6) (vc : BitVec 4) (fl : BitVec 16) (l : List Byte) (s : State) (u : State),
     portRx s p.val = true ∧ u = updPort s p.val (fun x => { x with burst := true }) ∧ dt.toNat = 0x12) ∧
    (∃ (p : PortNo) (st : BitVec 32) (dt : BitVec 6) (vc : BitVec 4) (fl : BitVec 16) (l : List Byte) (s : State) (u : State),
     portRx s p.val = true ∧
     u = updPort s p.val (fun x => { x with burst := true }) ∧ 0x18 ≤ dt.toNat ∧ dt.toNat < 0x2A ∧ dt.toNat ≠ fget u fPP_CTL_DT_PIPE (pof p.val)) ∧
    (∃ (p : PortNo) (st : BitVec 32) (ecc : Fin 3) (dt : BitVec 6) (vc : BitVec 4) (fl : BitVec 16) (l : List Byte) (e : Bool) (s : State),
     portRx s p.val = false) ∧
    (∃ (p : PortNo) (st : BitVec 32) (fn : BitVec 16) (d0 : List Byte) (d1 : List Byte) (s : State) (u : State),
     portRx s p.val = true ∧ u = closeFrame p.val (2 ^ fsNO_FE) false (updPort s p.val (fun x => { x with burst := true }))) ∧
    (∃ (p : PortNo) (s : State), portRx s p.val = true) ∧
    (∃ (p : PortNo) (s : State) (c : CurFrame), ((portSt s p.val).cur = some c) ∧ ((portSt s p.val).frmTmo ≠ 0)) ∧
    (∃ (p : PortNo) (s : State), ((portSt s p.val).cur = none ∨ (portSt s p.val).frmTmo = 0)) ∧
    (∃ (p : PortNo) (s : State), ((portSt s p.val).rx = []) ∧ ((portSt s p.val).owed = none)) ∧
    (∃ (p : PortNo) (s : State) (t : State) (l : PLine) (r : FrameRec), lineAt s p.val (portSt s p.val).nPlc = some l ∧
     frameRec s p.val l.key = some r ∧ fbit s fTO_CTL_EN = false ∧ t = placeLine p.val s) ∧
    (∃ (p : PortNo) (s : State), lineAt s p.val (portSt s p.val).nPlc = none) :=
  ⟨⟨0, 0#32, 0#6, 0#4, 0#16, [], false, (stOf (State.reset) [(fPP_SLOT_STAT_STATE, 3, pof (0 : PortNo).val), (fPP_CTL_EN, 1,
    pof (0 : PortNo).val)]), _, by decide, rfl⟩,
    ⟨0, 0#32, 0x2A, 0#4, 0#16, [], (stOf (State.reset) [(fPP_SLOT_STAT_STATE, 3, pof (0 : PortNo).val), (fPP_CTL_EN, 1,
    pof (0 : PortNo).val), (fPP_CTL_DT_PIPE, 0x2A, 0)]), _, by decide, rfl, by decide, by decide, by decide⟩,
    ⟨0, 0#32, 42, 0#4, 0#16, [], (stOf (State.reset) [(fPP_SLOT_STAT_STATE, 3, pof (0 : PortNo).val), (fPP_CTL_EN, 1,
    pof (0 : PortNo).val)]), _, by decide, rfl, by decide, by decide, by decide⟩,
    ⟨0, 0#32, 8, 0#4, 0#16, [], (stOf (State.reset) [(fPP_SLOT_STAT_STATE, 3, pof (0 : PortNo).val), (fPP_CTL_EN, 1,
    pof (0 : PortNo).val)]), _, by decide, rfl, by decide, by decide⟩,
    ⟨0, 0#32, 0x12, 0#4, 0#16, [1, 2, 3], (stOf (State.reset) [(fPP_SLOT_STAT_STATE, 3, pof (0 : PortNo).val), (fPP_CTL_EN, 1,
    pof (0 : PortNo).val)]), _, by decide, rfl, by decide⟩,
    ⟨0, 0#32, 0x1E, 0#4, 0#16, [], (stOf (State.reset) [(fPP_SLOT_STAT_STATE, 3, pof (0 : PortNo).val), (fPP_CTL_EN, 1,
    pof (0 : PortNo).val)]), _, by decide, rfl, by decide, by decide, by decide⟩,
    ⟨0, 0#32, 0, 0#6, 0#4, 0#16, [], false, State.reset, by decide⟩,
    ⟨0, 0#32, 0#16, [], [], (stOf (State.reset) [(fPP_SLOT_STAT_STATE, 3, pof (0 : PortNo).val), (fPP_CTL_EN, 1,
    pof (0 : PortNo).val)]), _, by decide, rfl⟩,
    ⟨0, (stOf (State.reset) [(fPP_SLOT_STAT_STATE, 3, pof (0 : PortNo).val), (fPP_CTL_EN, 1, pof (0 : PortNo).val)]),
    by decide⟩,
    ⟨0, p0 { portSt State.reset 0 with cur := some ⟨1, 2, 2, 0, 5, 9, false⟩, frmTmo := 5 } State.reset, ⟨1, 2, 2, 0, 5, 9,
    false⟩, by decide, by decide⟩,
    ⟨0, State.reset, by decide⟩,
    ⟨0, State.reset, by decide, by decide⟩,
    ⟨0, p0 { portSt State.reset 0 with lines := [line0], frames := [frec0] } State.reset, _, line0, frec0, by decide,
    by decide, by decide, rfl⟩,
    ⟨0, State.reset, by decide⟩⟩

theorem witness_SlotsFollowTheirStateTable :
    (∃ (p : PortNo) (s : State), gangedOdd s p.val = false ∧ ppSlot s p.val = 0 ∧
     fbit s fPP_SLOT_CTL_AUTO_PWR (pof p.val) = false ∧
     fbit (evt (slotTo p.val 1 (fbset s fPP_SLOT_STAT_PRSNT true (pof p.val))) fPP_SLOT_STAT_PRSNT_CHG (pof p.val)) fPP_SLOT_CTL_AUTO_PWR (pof p.val) = false) ∧
    (∃ (p : PortNo) (s : State), gangedOdd s p.val = false ∧ fbit s fPP_SLOT_CAP_PRS (pof p.val) = true ∧ ppSlot s p.val = 1) ∧
    (∃ (p : PortNo) (s : State), gangedOdd s p.val = false ∧ fbit s fPP_SLOT_CAP_PRS (pof p.val) = true ∧ ppSlot s p.val = 3) ∧
    (∃ (p : PortNo) (s : State) (u : State), gangedOdd s p.val = false ∧ fbit s fPP_SLOT_CAP_FLT (pof p.val) = true ∧
     u = fbset (updPort s p.val (fun x => { x with fltPin := true })) fPP_SLOT_STAT_FLT_IN true (pof p.val) ∧ ppSlot u p.val = 2 ∧ fbit u fPP_SLOT_STAT_FLT_IN (pof p.val) = true ∧ gangedOdd u p.val = false) ∧
    (∃ (p : PortNo) (s : State) (u : State), gangedOdd s p.val = false ∧ fbit s fPP_SLOT_CAP_FLT (pof p.val) = true ∧
     u = fbset (updPort s p.val (fun x => { x with fltPin := true })) fPP_SLOT_STAT_FLT_IN true (pof p.val) ∧ ppSlot u p.val = 3 ∧ fbit u fPP_SLOT_STAT_FLT_IN (pof p.val) = true ∧ gangedOdd u p.val = false) ∧
    (∃ (ag : Agent) (p : PortNo) (s : State) (u : State) (v : State), ((ag = .dennil ∨ leased s 2 (some p.val) = true)) ∧
     gangedOdd s p.val = false ∧ u = fbset s fPP_SLOT_CTL_PWR_CTL true (pof p.val) ∧ ppSlot u p.val = 1 ∧
     fbit u fPP_SLOT_CTL_PWR_CTL (pof p.val) = true ∧ v = slotTo p.val 2 (headPower p.val true u) ∧
     fbit v fPP_SLOT_STAT_FLT_IN (pof p.val) = false) ∧
    (∃ (p : PortNo) (s : State), ppSlot s p.val = 2 ∧ fbit s fPP_SLOT_STAT_FLT_IN (pof p.val) = false) ∧
    (∃ (p : PortNo) (caps : BitVec 5) (s : State) (u : State), fbit s fPP_SLOT_CAP_COMMIT (pof p.val) = false ∧
     caps.getLsbD 0 = true ∧ u = wrn s (PP_SLOT_CAP + pof p.val) (2 ^ 31 + caps.toNat)) ∧
    (∃ (p : PortNo) (st : Nat) (s : State), ppSlot s p.val ≠ 3 ∧ st < 3) :=
  ⟨⟨0, State.reset, by decide, by decide, by decide, by decide⟩,
    ⟨0, (stOf (State.reset) [(fPP_SLOT_CAP_PRS, 1, (pof (0 : PortNo).val)), (fPP_SLOT_STAT_STATE, 1, pof (0 : PortNo).val)]),
    by decide, by decide, by decide⟩,
    ⟨0, (stOf (State.reset) [(fPP_SLOT_CAP_PRS, 1, (pof (0 : PortNo).val)), (fPP_SLOT_STAT_STATE, 3, pof (0 : PortNo).val)]),
    by decide, by decide, by decide⟩,
    ⟨0, (stOf (State.reset) [(fPP_SLOT_CAP_FLT, 1, (pof (0 : PortNo).val)), (fPP_SLOT_STAT_STATE, 2, pof (0 : PortNo).val),
    (fPP_SLOT_STAT_FLT_IN, 1, (pof (0 : PortNo).val))]), _, by decide, by decide, rfl, by decide, by decide, by decide⟩,
    ⟨0, (stOf (State.reset) [(fPP_SLOT_CAP_FLT, 1, (pof (0 : PortNo).val)), (fPP_SLOT_STAT_STATE, 3, pof (0 : PortNo).val),
    (fPP_SLOT_STAT_FLT_IN, 1, (pof (0 : PortNo).val))]), _, by decide, by decide, rfl, by decide, by decide, by decide⟩,
    ⟨.dennil, 0, (stOf (State.reset) [(fPP_SLOT_STAT_STATE, 1, pof (0 : PortNo).val), (fPP_SLOT_CTL_PWR_CTL, 1,
    (pof (0 : PortNo).val))]), _, _, by decide, by decide, rfl, by decide, by decide, rfl, by decide⟩,
    ⟨0, (stOf (State.reset) [(fPP_SLOT_STAT_STATE, 2, pof (0 : PortNo).val)]), by decide, by decide⟩,
    ⟨0, 1, State.reset, _, by decide, by decide, rfl⟩,
    ⟨0, 0, State.reset, by decide, by decide⟩⟩

theorem witness_PortControlsComplete :
    (∃ (p : PortNo) (s : State), fbit s fPP_SLOT_CAP_BTN (pof p.val) = true ∧ gangedOdd s p.val = false ∧ ppSlot s p.val = 3 ∧
     dennilUp s = true ∧ leased s 2 (some p.val) = false) ∧
    (∃ (p : PortNo) (s : State), ((portSt s p.val).stopDue = true) ∧ frameOpen s p.val = false ∧ dennilUp s = true ∧
     leased s 2 (some p.val) = false) ∧
    (∃ (p : PortNo) (k : Fin 64) (h : BitVec 64) (s : State) (s0 : State) (t : State) (pr : Profile), dennilUp s = true ∧
     ppSlot s p.val = 3 ∧ gangedOdd s p.val = false ∧ findProfile s 2 k.val = some pr ∧ ((∀ f ∈ profileFuncs pr,
     leased s f (some p.val) = false)) ∧
     s0 = portOff p.val (updPort s p.val (fun x => { x with headId := h.toNat })) ∧ profileBad pr p.val s0 = false ∧ enableWith p.val (loadSensor p.val pr s0) = some t) ∧
    (∃ (p : PortNo) (s : State), portRx s p.val = true ∧ fget s fPP_HP_TIMING_LINK_TMO (pof p.val) ≠ 0 ∧
     ((portSt s p.val).burst = false)) ∧
    (∃ (p : PortNo) (s : State), ((portSt s p.val).burst = true)) ∧
    (∃ (ag : Agent) (k : Fin 8) (v : BitVec 32) (s : State), ((ag = .dennil ∨ leased s 2 (some k.val) = true)) ∧
     32 * 65536 ≤ v.toNat % 2 ^ 25 ∧ v.toNat % 2 ^ 25 ≤ 288 * 65536) ∧
    (∃ (p : PortNo) (l : Fin 5) (m : Fin 3) (s : State), l.val < 4) ∧
    (∃ (c : CmdCall) (s : State) (u : State) (pr : Profile), Accepted ⟨0x0210, 0x10, false, 8, 8, true, true⟩ c s ∧
     pb c 0 < 16 ∧ u = mbTake c s ∧ findProfile u 2 (pb c 1) = some pr ∧ fbit u fPP_CTL_EN (pof (pb c 0)) = false ∧
     ppSlot u (pb c 0) = 3 ∧ gangedOdd u (pb c 0) = false ∧ profileBad pr (pb c 0) u = false ∧ bit (pb c 2) 0 = false) ∧
    (∃ (c : CmdCall) (s : State) (u : State), Accepted ⟨0x0211, 0x10, false, 8, 8, true, true⟩ c s ∧ pb c 0 < 16 ∧
     u = mbTake c s ∧ ppSlot u (pb c 0) = 3 ∧ gangedOdd u (pb c 0) = false) ∧
    (∃ (c : CmdCall) (s : State) (u : State), Accepted ⟨0x0212, 0x10, false, 8, 8, true, true⟩ c s ∧ pb c 0 < 16 ∧
     pb c 1 ≤ 1 ∧ pb c 2 ≤ 1 ∧ u = mbTake c s ∧ gangedOdd u (pb c 0) = false) :=
  ⟨⟨0, (stOf (State.reset) [(fPP_SLOT_CAP_BTN, 1, (pof (0 : PortNo).val)), (fPP_SLOT_STAT_STATE, 3, pof (0 : PortNo).val),
    (fMB_DENNIL_STAT_STATE, 2, 0)]), by decide, by decide, by decide, by decide, by decide⟩,
    ⟨0,
    (stOf ({ State.reset with ports := State.reset.ports.set 0 { PortSt.reset with stopDue := true } }) [(fMB_DENNIL_STAT_STATE,
    2, 0)]), by decide, by decide, by decide, by decide⟩,
    ⟨0, 0, 0#64, hotS, hot0, hotT, ⟨2, 0, [], [], 0⟩, by decide, by decide, by decide, by decide, by decide, rfl, by decide,
    hot_enabled⟩,
    ⟨0, (stOf (State.reset) [(fPP_SLOT_STAT_STATE, 3, pof (0 : PortNo).val), (fPP_CTL_EN, 1, pof (0 : PortNo).val),
    (fPP_HP_TIMING_LINK_TMO, 1, (pof (0 : PortNo).val))]), by decide, by decide, by decide⟩,
    ⟨0, { State.reset with ports := State.reset.ports.set 0 { PortSt.reset with burst := true } }, by decide⟩,
    ⟨.dennil, 0, BitVec.ofNat 32 (32 * 65536), State.reset, by decide, by decide, by decide⟩,
    ⟨0, 0, 0, State.reset, by decide⟩,
    ⟨(cc (zeros 8)), (stOf (stOf { mbS with ev := { State.reset.ev with conf := [⟨2, 0, [], [], 0⟩] } } [(fPP_SLOT_STAT_STATE,
    3, 0), (fSC_PROFILE_LAT, 1, 0), (⟨SC_WINDOW, 31, 0⟩, 0x10000, 0)]) [(fPP_SLOT_STAT_STATE, 3,
    pof (pb ((cc (zeros 8)) : CmdCall) 0))]), _, ⟨2, 0, [], [], 0⟩, by unfold Accepted; decide, by decide, rfl, by decide,
    by decide, by decide, by decide, by decide, by decide⟩,
    ⟨(cc (zeros 8)), (stOf (mbS) [(fPP_SLOT_STAT_STATE, 3, pof (pb ((cc (zeros 8)) : CmdCall) 0))]), _,
    by unfold Accepted; decide, by decide, rfl, by decide, by decide⟩,
    ⟨(cc (zeros 8)), mbS, _, by unfold Accepted; decide, by decide, by decide, by decide, rfl, by decide⟩⟩

theorem witness_SettingSlotsComplete :
    (∃ (ag : Agent) (p : PortNo) (k : Fin 8) (s : State), ((ag = .dennil ∨ leased s 3 (some p.val) = true)) ∧
     slotState s p.val k.val = 0 ∧ slotLat s p.val = 0) ∧
    (∃ (ag : Agent) (p : PortNo) (k : Fin 8) (s : State), ((ag = .dennil ∨ leased s 3 (some p.val) = true)) ∧
     slotState s p.val k.val = 0) ∧
    (∃ (p : PortNo) (k : Fin 8) (s : State), slotState s p.val k.val ≠ 0) ∧
    (∃ (ag : Agent) (p : PortNo) (k : Fin 8) (s : State), ((ag = .dennil ∨ leased s 3 (some p.val) = true)) ∧
     slotState s p.val k.val = 1) ∧
    (∃ (b : Fin 4) (p : Nat) (k : Nat) (s : State), busSending s b.val = false ∧ firstReady s b.val = some (p, k) ∧
     ((slotTrans s p k).length = 0)) ∧
    (∃ (b : Fin 4) (p : Nat) (k : Nat) (s : State), busSending s b.val = false ∧ firstReady s b.val = some (p, k) ∧
     ((slotTrans s p k).length ≠ 0)) ∧
    (∃ (p : PortNo) (k : Fin 8) (s : State), slotState s p.val k.val = 2 ∧
     0 ≤ Machine.sdiff (windowClose s p.val (setSlotOf s p.val k.val).fs) (now s)) ∧
    (∃ (p : PortNo) (k : Fin 8) (s : State), slotState s p.val k.val = 2 ∧
     Machine.sdiff (windowClose s p.val (setSlotOf s p.val k.val).fs) (now s) < 0) ∧
    (∃ (p : PortNo) (k : Fin 8) (s : State), slotState s p.val k.val = 2 ∧
     fget s fSC_SLOT_CTL_RETRY_CNT (sso p.val k.val) < fget s fSC_CTL_RETRY (pof p.val)) ∧
    (∃ (p : PortNo) (k : Fin 8) (s : State), slotState s p.val k.val = 2 ∧
     fget s fSC_CTL_RETRY (pof p.val) ≤ fget s fSC_SLOT_CTL_RETRY_CNT (sso p.val k.val)) ∧
    (∃ (p : PortNo) (k : Fin 8) (s : State), slotState s p.val k.val ≠ 2) :=
  ⟨⟨.dennil, 0, 0, (stOf (State.reset) [(fSC_PROFILE_LAT, 0, 0)]), by decide, by decide, by decide⟩,
    ⟨.dennil, 0, 0, State.reset, by decide, by decide⟩,
    ⟨0, 0, (stOf (State.reset) [(fSC_SLOT_CTL_STATE, 1, 0)]), by decide⟩,
    ⟨.dennil, 0, 0, (stOf (State.reset) [(fSC_SLOT_CTL_STATE, 1, sso (0 : PortNo).val (0 : Fin 8).val)]), by decide,
    by decide⟩,
    ⟨0, 0, 0, stOf (p0 { PortSt.reset with anyFs := true } State.reset) [(fSC_SLOT_CTL_STATE, 1, 0), (fSC_PROFILE_LAT, 1, 0),
    (fSC_CTL_EN, 1, 0), (fPP_STAT_FRAME_OPEN, 1, 0), (⟨SC_SLOT_TGT, 31, 0⟩, 1, 0), (⟨PP_FRAME_CNT, 31, 0⟩, 0, 0),
    (fSC_WINDOW_CLOSE, 0xFFFF, 0), (fSC_WINDOW_OPEN, 0, 0), (fTW_CFG_EN, 1, 0), (fTW_CFG_CTRL_EN, 1, 0)], by decide,
    by decide, by decide⟩,
    ⟨0, 0, 0, stOf (p0 { PortSt.reset with anyFs := true } State.reset) [(fSC_SLOT_CTL_STATE, 1, 0), (fSC_PROFILE_LAT, 1, 0),
    (fSC_CTL_EN, 1, 0), (fPP_STAT_FRAME_OPEN, 1, 0), (⟨SC_SLOT_TGT, 31, 0⟩, 1, 0), (⟨PP_FRAME_CNT, 31, 0⟩, 0, 0),
    (fSC_WINDOW_CLOSE, 0xFFFF, 0), (fSC_WINDOW_OPEN, 0, 0), (fTW_CFG_EN, 1, 0), (fTW_CFG_CTRL_EN, 1, 0), (fSC_SLOT_CTL_WLEN,
    2, 0), (⟨SC_WBUF, 31, 0⟩, 0x101, 0)], by decide, by decide, by decide⟩,
    ⟨0, 0, (stOf (State.reset) [(fSC_SLOT_CTL_STATE, 2, sso (0 : PortNo).val (0 : Fin 8).val)]), by decide, by decide⟩,
    ⟨0, 0, (stOf (p0 { PortSt.reset with slots := [⟨0, none, 0, 0xFFFFFFFF⟩] } State.reset) [(fSC_SLOT_CTL_STATE, 2,
    sso (0 : PortNo).val (0 : Fin 8).val), (fSC_WINDOW_CLOSE, 0, 0)]), by decide, by decide⟩,
    ⟨0, 0, (stOf (State.reset) [(fSC_SLOT_CTL_STATE, 2, sso (0 : PortNo).val (0 : Fin 8).val), (fSC_CTL_RETRY, 1, 0)]),
    by decide, by decide⟩,
    ⟨0, 0, (stOf (State.reset) [(fSC_SLOT_CTL_STATE, 2, sso (0 : PortNo).val (0 : Fin 8).val), (fSC_CTL_RETRY, 0, 0)]),
    by decide, by decide⟩,
    ⟨0, 0, State.reset, by decide⟩⟩

theorem witness_SettingCommandsComplete :
    (∃ (p : PortNo) (d : List Byte) (w : BitVec 16) (s : State), fbit s fSC_CTL_VERIFY (pof p.val) = true ∧
     dennilUp s = true ∧ u16At d (fget s fSC_PROFILE_VERIFY_OFS (pof p.val)) = w.toNat) ∧
    (∃ (p : PortNo) (d : List Byte) (w : BitVec 16) (s : State),
     ((fbit s fSC_CTL_VERIFY (pof p.val) = false ∨ dennilUp s = false))) ∧
    (∃ (c : CmdCall) (s : State) (u : State) (k : Nat) (l : List Nat), Accepted ⟨0x0310, 0x10, false, 16, 16, true,
     true⟩ c s ∧ u = mbTake c s ∧ pb c 0 < 16 ∧ portRuns u (pb c 0) = true ∧ slotsIn u (pb c 0) 0 = k :: l ∧
     Machine.sdiff (requestFrame c u) (frameNow u (pb c 0)) ≤ 2 ^ 20) ∧
    (∃ (c : CmdCall) (s : State) (u : State) (k : Nat) (l : List Nat), Accepted ⟨0x0390, 0x10, true, 24, 88, true, true⟩ c s ∧
     u = mbTake c s ∧ pb c 0 < 16 ∧ portRuns u (pb c 0) = true ∧ slotsIn u (pb c 0) 0 = k :: l ∧ pb c 20 ≤ 64 ∧
     24 + pb c 20 ≤ c.payload.length ∧ ((transactions 64 ((c.payload.drop 24).take (pb c 20))).2 = false) ∧
     Machine.sdiff (requestFrame c u) (frameNow u (pb c 0)) ≤ 2 ^ 20) ∧
    (∃ (c : CmdCall) (s : State) (k : Nat), Accepted ⟨0x0311, 0x10, false, 8, 8, true, true⟩ c s ∧ pb c 0 < 16 ∧
     ((List.range 8).find? (fun j => slotState (mbTake c s) (pb c 0) j != 0 && fget (mbTake c s) fSC_SLOT_CTL_GEN (sso (pb c 0) j) == pw c 2) = some k) ∧ slotState (mbTake c s) (pb c 0) k = 1) ∧
    (∃ (c : CmdCall) (s : State) (u : State), Accepted ⟨0x0391, 0x10, true, 16, 16, true, true⟩ c s ∧ pb c 0 < 16 ∧
     ((slotsIn (mbTake c s) (pb c 0) 0).length = 8) ∧ bits (pd c 4) 31 30 ≠ 0 ∧ pd c 8 % 65536 < pd c 8 / 65536 ∧
     pb c 12 ≤ 7 ∧ 0x13 ≤ c.hiv ∧
     u = fset (putWord (SC_PROFILE + pof (pb c 0)) (pd c 4) (mbTake c s)) fSC_CTL_VERIFY (pb c 1 % 2) (pof (pb c 0))) :=
  ⟨⟨0, [], 0#16, (stOf (State.reset) [(fSC_CTL_VERIFY, 1, (pof (0 : PortNo).val)), (fMB_DENNIL_STAT_STATE, 2, 0)]),
    by decide, by decide, by decide⟩,
    ⟨0, [], 0#16, State.reset, by decide⟩,
    ⟨(cc (zeros 16)), (stOf (mbS) [(fPP_CTL_EN, 1, pof (pb ((cc (zeros 16)) : CmdCall) 0)), (fPP_SLOT_STAT_STATE, 3,
    pof (pb ((cc (zeros 16)) : CmdCall) 0))]), _, 0, [1, 2, 3, 4, 5, 6, 7], by unfold Accepted; decide, rfl, by decide,
    by decide, by decide, by decide⟩,
    ⟨(cc (zeros 24)), (stOf (mbS) [(fPP_CTL_EN, 1, pof (pb ((cc (zeros 24)) : CmdCall) 0)), (fPP_SLOT_STAT_STATE, 3,
    pof (pb ((cc (zeros 24)) : CmdCall) 0))]), _, 0, [1, 2, 3, 4, 5, 6, 7], by unfold Accepted; decide, rfl, by decide,
    by decide, by decide, by decide, by decide, by decide, by decide⟩,
    ⟨(cc (zeros 8)), (stOf (mbS) [(fSC_SLOT_CTL_STATE, 1, 0)]), 0, by unfold Accepted; decide, by decide, by decide,
    by decide⟩,
    ⟨cc [0, 0, 0, 0, 0, 0, 0, 0x40, 0, 0, 1, 0, 0, 0, 0, 0], mbS, _, by unfold Accepted; decide, by decide, by decide,
    by decide, by decide, by decide, by decide, rfl⟩⟩

theorem witness_CorrectionRowsComplete :
    (∃ (ag : Agent) (p : PortNo) (v : Word) (s : State) (w : Nat), ((ag = .dennil ∨ leased s 4 (some p.val) = true)) ∧
     cxRuns s p.val = true ∧ bit v.toNat 30 = false ∧
     w = setBits (setBits (rdn s (CX_BANK + pof p.val)) 29 29 (bits v.toNat 29 29)) 19 16 (bits v.toNat 19 16)) ∧
    (∃ (ag : Agent) (p : PortNo) (v : Word) (s : State) (w : Nat), ((ag = .dennil ∨ leased s 4 (some p.val) = true)) ∧
     cxRuns s p.val = true ∧
     w = setBits (setBits (rdn s (CX_BANK + pof p.val)) 29 29 (bits v.toNat 29 29)) 19 16 (bits v.toNat 19 16)) ∧
    (∃ (i : Fin 5242880) (v : Word) (s : State) (a : Nat) (q : Nat) (t : Nat) (b : Nat), a = 0x600000 + i.val * 2 ∧
     a < 0xA00000 ∧ q = (a - 0x600000) / 0x40000 ∧ cxPlace (a % 0x40000) = some (t, b) ∧ cxLocked s q t b = false) ∧
    (∃ (i : Fin 5242880) (v : Word) (s : State) (a : Nat) (q : Nat) (t : Nat) (b : Nat), a = 0x600000 + i.val / 2 * 4 ∧
     a < 0xA00000 ∧ q = (a - 0x600000) / 0x40000 ∧ cxPlace (a % 0x40000) = some (t, b) ∧ cxLocked s q t b = false) ∧
    (∃ (i : Fin 5242880) (v : Word) (s : State) (a : Nat) (q : Nat) (t : Nat) (b : Nat), a = 0x600000 + i.val / 2 * 4 ∧
     a < 0xA00000 ∧ q = (a - 0x600000) / 0x40000 ∧ cxPlace (a % 0x40000) = some (t, b) ∧ cxLocked s q t b = true) ∧
    (∃ (s : State) (a : Nat) (i : Nat) (l : List Byte), i < l.length) ∧
    (∃ (s : State) (a : Nat) (k : Nat) (l : List Byte), ((k < a ∨ a + l.length ≤ k))) ∧
    (∃ (sp : CmdSpec) (c : CmdCall) (s : State) (u : State), sp = ⟨0x0410, 0x10, false, 8, 8, true, true⟩ ∧ Accepted sp c s ∧
     u = mbTake c s ∧ pb c 0 < 16 ∧ (corrTypes.find? (wrongPhase u (pb c 0)) = none) ∧ cxRuns u (pb c 0) = false ∧
     (((corrTypes.filterMap (corrEntry u (pb c 0))).filterMap (fun e => corrTable e.type)).filter (fun t => dualNow u (pb c 0) t) = [])) ∧
    (∃ (sp : CmdSpec) (c : CmdCall) (s : State) (u : State), sp = ⟨0x0411, 0x10, false, 8, 8, true, true⟩ ∧ Accepted sp c s ∧
     u = mbTake c s ∧ pb c 0 < 16) ∧
    (∃ (sp : CmdSpec) (c : CmdCall) (s : State) (u : State), sp = ⟨0x0490, 0x10, true, 24, 24, true, true⟩ ∧ Accepted sp c s ∧
     u = mbTake c s ∧ pb c 0 < 16 ∧ ((pb c 1 = 0 ∨ pb c 1 = 1)) ∧ pb c 2 < 2 ∧ pb c 3 = 0 ∧
     dualNow u (pb c 0) (pb c 1) = true ∧ cxLocked u (pb c 0) (pb c 1) (pb c 2) = false ∧
     pw c 4 + pw c 6 ≤ tblCap (pb c 1) true ∧ hostCanRead c u = true) ∧
    (∃ (sp : CmdSpec) (c : CmdCall) (s : State) (u : State), sp = ⟨0x0490, 0x10, true, 24, 24, true, true⟩ ∧ Accepted sp c s ∧
     u = mbTake c s ∧ pb c 0 < 16 ∧ pb c 1 = 2 ∧ pb c 2 < 2 ∧ pb c 3 = 0 ∧ dualNow u (pb c 0) 2 = true ∧
     cxLocked u (pb c 0) 2 (pb c 2) = false ∧ pw c 4 + pw c 6 ≤ 4096 ∧ hostCanRead c u = true ∧
     ascending (entries32 (fit (pw c 6 * 4) c.data)) = true) ∧
    (∃ (sp : CmdSpec) (c : CmdCall) (s : State) (u : State), sp = ⟨0x0491, 0x10, true, 8, 8, true, true⟩ ∧ Accepted sp c s ∧
     u = mbTake c s ∧ pb c 0 < 16 ∧ ((∀ t, t < 4 → bit (pb c 1) t = true → dualNow u (pb c 0) t = true))) ∧
    (∃ (sp : CmdSpec) (c : CmdCall) (s : State) (u : State), sp = ⟨0x0492, 0x10, true, 12, 12, true, true⟩ ∧ Accepted sp c s ∧
     u = mbTake c s ∧ pb c 0 < 16 ∧ cxRuns u (pb c 0) = false ∧ pb c 1 = 3) :=
  ⟨⟨.dennil, 0, 0#32, (stOf (State.reset) [(fPP_CTL_EN, 1, pof (0 : PortNo).val)]), _, by decide, by decide, by decide, rfl⟩,
    ⟨.dennil, 0, 0#32, (stOf (State.reset) [(fPP_CTL_EN, 1, pof (0 : PortNo).val)]), _, by decide, by decide, rfl⟩,
    ⟨0, 0#32, State.reset, _, _, 1, 0, rfl, by decide, rfl, by decide, by decide⟩,
    ⟨0, 0#32, State.reset, _, _, 1, 0, rfl, by decide, rfl, by decide, by decide⟩,
    ⟨0, 0#32, (stOf (State.reset) [(fPP_CTL_EN, 1, 0)]), _, _, 1, 0, rfl, by decide, rfl, by decide, by decide⟩,
    ⟨State.reset, 0, 0, [1], by decide⟩,
    ⟨State.reset, 0, 0, [], by decide⟩,
    ⟨_, (cc (zeros 8)), mbS, _, rfl, by unfold Accepted; decide, rfl, by decide, by decide, by decide, by decide⟩,
    ⟨_, (cc (zeros 8)), mbS, _, rfl, by unfold Accepted; decide, rfl, by decide⟩,
    ⟨_, (cc (zeros 24)), mbS, _, rfl, by unfold Accepted; decide, rfl, by decide, by decide, by decide, by decide, by decide,
    by decide, by decide, by decide⟩,
    ⟨_, cc ([0, 2] ++ zeros 22), mbS, _, rfl, by unfold Accepted; decide, rfl, by decide, by decide, by decide, by decide,
    by decide, by decide, by decide, by decide, by decide⟩,
    ⟨_, (cc (zeros 8)), mbS, _, rfl, by unfold Accepted; decide, rfl, by decide, by decide⟩,
    ⟨_, cc ([0, 3] ++ zeros 10), mbS, _, rfl, by unfold Accepted; decide, rfl, by decide, by decide, by decide⟩⟩

theorem witness_ColourAndTapsComplete :
    (∃ (ag : Agent) (p : PortNo) (v : Word) (s : State), ((ag = .dennil ∨ leased s 5 (some p.val) = true))) ∧
    (∃ (ag : Agent) (p : PortNo) (e : Fin 2) (v : Word) (s : State) (u : State),
     ((ag = .dennil ∨ leased s 5 (some p.val) = true)) ∧ fbit s fDM_TAP_CTL_EN (tpo p.val e.val) = false ∧
     u = putWord (DM_TAP_CTL + tpo p.val e.val) (setBits (v.toNat ||| 2 ^ 31) 31 31 0) s) ∧
    (∃ (p : PortNo) (e : Fin 2) (v : Word) (s : State), fbit s fDM_TAP_CTL_EN (tpo p.val e.val) = true) ∧
    (∃ (p : PortNo) (e : Fin 2) (s : State) (u : State) (f : TapFrame) (l : List TapFrame),
     ((tapSt s p.val e.val).frames = f :: l) ∧ tapDone f = true ∧ canDma s = true ∧ tollCan s 36 tapBackCost = true ∧
     f.status = 0 ∧ f.int = false ∧
     u = dmaWrite (tollSpend s 36 tapBackCost) (tapDescAddr s p.val e.val f.idx + 16) (tapBack s f)) ∧
    (∃ (p : PortNo) (e : Fin 2) (s : State) (u : State) (f : TapFrame) (l : List TapFrame),
     ((tapSt s p.val e.val).frames = f :: l) ∧ tapDone f = true ∧ canDma s = true ∧ tollCan s 36 tapBackCost = true ∧
     f.status = 0 ∧ f.int = true ∧
     u = dmaWrite (tollSpend s 36 tapBackCost) (tapDescAddr s p.val e.val f.idx + 16) (tapBack s f)) ∧
    (∃ (sp : CmdSpec) (c : CmdCall) (s : State) (u : State) (t : State) (o : Nat), sp = ⟨0x0510, 0x10, false, 16, 16, true,
     true⟩ ∧ Accepted sp c s ∧ u = mbTake c s ∧ pb c 0 < 16 ∧ pb c 1 < 2 ∧ o = tpo (pb c 0) (pb c 1) ∧
     fbit u fDM_TAP_CTL_EN o = false ∧ gangedOdd u (pb c 0) = false ∧ pb c 2 < 8 ∧ pb c 3 < 16 ∧
     t = fset (wrn (wrn (fset (fset (fset u fDM_TAP_CTL_POINT (pb c 2) o) fDM_TAP_CTL_FMT (pb c 3) o) fDM_TAP_CTL_DECIM (pb c 12) o) (DM_TAP_ROI_X + o) (pw c 4 + 65536 * pw c 6)) (DM_TAP_ROI_Y + o) (pw c 8 + 65536 * pw c 10)) fDM_TAP_STRIDE_V (pw c 13 + 65536 * pb c 15) o ∧
     tapConfigOk t (pb c 0) (pb c 1) = true) ∧
    (∃ (sp : CmdSpec) (c : CmdCall) (s : State) (u : State), sp = ⟨0x0511, 0x10, false, 2, 8, true, true⟩ ∧ Accepted sp c s ∧
     u = mbTake c s ∧ pb c 0 < 16 ∧ pb c 1 < 2 ∧ fbit u fDM_TAP_CTL_EN (tpo (pb c 0) (pb c 1)) = true) ∧
    (∃ (sp : CmdSpec) (c : CmdCall) (s : State) (u : State) (e : CalEntry), sp = ⟨0x0512, 0x10, false, 1, 8, true, true⟩ ∧
     Accepted sp c s ∧ u = mbTake c s ∧ pb c 0 < 16 ∧ colourEntry u (pb c 0) = some e) ∧
    (∃ (sp : CmdSpec) (c : CmdCall) (s : State) (u : State) (t : State), sp = ⟨0x0590, 0x10, true, 52, 56, true, true⟩ ∧
     Accepted sp c s ∧ u = mbTake c s ∧ pb c 0 < 16 ∧
     t = putWord (DM_NIR_K2 + pof (pb c 0)) (pd c 16) (putWord (DM_NIR_K01 + pof (pb c 0)) (pd c 12) (putWord (DM_CTL + pof (pb c 0)) (pd c 8) u))) :=
  ⟨⟨.dennil, 0, 0#32, State.reset, by decide⟩,
    ⟨.dennil, 0, 0, 0#32, State.reset, _, by decide, by decide, rfl⟩,
    ⟨0, 0, 0#32, (stOf (State.reset) [(fDM_TAP_CTL_EN, 1, (tpo (0 : PortNo).val (0 : Fin 2).val))]), by decide⟩,
    ⟨0, 0,
    p0 { PortSt.reset with taps := [⟨none, false, [⟨0, 0, 0, 0, 0, 0, false, 0, 0, 0, 0, 0, 0, 0, 0, 0, 0, some (0, 0)⟩], []⟩] } dmaS,
    _, ⟨0, 0, 0, 0, 0, 0, false, 0, 0, 0, 0, 0, 0, 0, 0, 0, 0, some (0, 0)⟩, [], by decide, by decide, by decide, by decide,
    by decide, by decide, rfl⟩,
    ⟨0, 0,
    p0 { PortSt.reset with taps := [⟨none, false, [⟨0, 0, 0, 0, 0, 0, true, 0, 0, 0, 0, 0, 0, 0, 0, 0, 0, some (0, 0)⟩], []⟩] } dmaS,
    _, ⟨0, 0, 0, 0, 0, 0, true, 0, 0, 0, 0, 0, 0, 0, 0, 0, 0, some (0, 0)⟩, [], by decide, by decide, by decide, by decide,
    by decide, by decide, rfl⟩,
    ⟨_, cc [0, 0, 0, 0, 0, 0, 1, 0, 0, 0, 1, 0, 0, 64, 0, 0], (stOf (mbS) [(fPP_GEOM_WIDTH, 8, 0), (fPP_GEOM_HEIGHT, 8, 0)]),
    _, _, _, rfl, by unfold Accepted; decide, rfl, by decide, by decide, rfl, by decide, by decide, by decide, by decide, rfl,
    by decide⟩,
    ⟨_, (cc (zeros 2)), (stOf (mbS) [(fDM_TAP_CTL_EN, 1,
    (tpo (pb ((cc (zeros 2)) : CmdCall) 0) (pb ((cc (zeros 2)) : CmdCall) 1)))]), _, rfl, by unfold Accepted; decide, rfl,
    by decide, by decide, by decide⟩,
    ⟨_, (cc (zeros 1)), calS [(⟨0x0501, 0, 0, 0, 1, [], true⟩ : CalEntry)] mbS, _, ⟨0x0501, 0, 0, 0, 1, [], true⟩, rfl,
    by unfold Accepted; decide, rfl, by decide, by decide⟩,
    ⟨_, (cc (zeros 52)), mbS, _, _, rfl, by unfold Accepted; decide, rfl, by decide, rfl⟩⟩

theorem witness_StatisticsAndQueueRowsComplete :
    (∃ (p : PortNo) (poison : List Nat) (s : State) (u : State) (q : Nat) (l : List QWord) (bytes : List Byte),
     q = 32 + p.val ∧ l = quRecord (quGet s q).words ∧ l ≠ [] ∧ l = statWords s p.val ∧ bytes = quBytes l ∧
     hwReads s q = true ∧ fbit s fST_RING_CTL_EN (pof p.val) = true ∧ statFull s p.val = false ∧ canDma s = true ∧
     ((portSt s p.val).stPos = 0) ∧ tollCan s 35 [(1, (bytes.length + 63) / 64), (2, 1)] = true ∧
     u = cnt (fset (updPort (dmaWrite (quRest q (forEach (List.range l.length) (fun i t => quLeave t q (poison.contains i)) (tollSpend s 35 [(1, (bytes.length + 63) / 64), (2, 1)]))) (addr64 (tollSpend s 35 [(1, (bytes.length + 63) / 64), (2, 1)]) (ST_RING_LO + pof p.val) (ST_RING_HI + pof p.val) + fget (tollSpend s 35 [(1, (bytes.length + 63) / 64), (2, 1)]) fST_RING_PROD_V (pof p.val) % statSlots (tollSpend s 35 [(1, (bytes.length + 63) / 64), (2, 1)]) p.val * 8192) bytes (poison.any (fun k => decide (k < l.length))) true) p.val (fun x => { x with stPos := 0 })) fST_RING_PROD_V (fget (tollSpend s 35 [(1, (bytes.length + 63) / 64), (2, 1)]) fST_RING_PROD_V (pof p.val) + 1) (pof p.val)) (ST_CNT_REC + pof p.val)) ∧
    (∃ (ag : Agent) (p : PortNo) (v : Word) (s : State), ((ag = .dennil ∨ leased s 6 (some p.val) = true))) ∧
    (∃ (sp : CmdSpec) (c : CmdCall) (s : State) (u : State) (pr : Profile), sp = ⟨0x0610, 0x10, false, 2, 8, true, true⟩ ∧
     Accepted sp c s ∧ u = mbTake c s ∧ pb c 0 < 16 ∧ findProfile u 2 (pb c 1) = some pr ∧
     calInUse u 0x0601 (headOf u (pb c 0)) 0 = none) ∧
    (∃ (sp : CmdSpec) (c : CmdCall) (s : State) (u : State), sp = ⟨0x0611, 0x10, false, 1, 8, true, true⟩ ∧ Accepted sp c s ∧
     u = mbTake c s ∧ pb c 0 < 16) ∧
    (∃ (sp : CmdSpec) (c : CmdCall) (s : State) (u : State), sp = ⟨0x0690, 0x12, true, 200, 200, true, true⟩ ∧
     Accepted sp c s ∧ u = mbTake c s ∧ pb c 0 < 16) ∧
    (∃ (ag : Agent) (q : Fin 66) (poison : Bool) (s : State) (w : QWord) (l : List QWord), ((quGet s q.val).words = w :: l) ∧
     fbit s fQU_CFG_HWR (quo q.val) = false ∧ ag = (if fbit s fQU_CFG_READER (quo q.val) then Agent.host else Agent.dennil) ∧
     ((poison = true → ag = .host))) ∧
    (∃ (b : TwNo) (q : Fin 66) (s : State) (u : State) (w : QWord) (l : List QWord), q.val = 48 + b.val ∧
     ((quGet s q.val).words = w :: l) ∧ fbit s fQU_CFG_HWR (quo q.val) = false ∧ fbit s fQU_CFG_READER (quo q.val) = false ∧
     u = quPut (quLeave s q.val true) q.val { quGet (quLeave s q.val true) q.val with latch := w.bytes }) ∧
    (∃ (ag : Agent) (q : Fin 66) (poison : Bool) (s : State), ((quGet s q.val).words = [])) ∧
    (∃ (q : Fin 66) (s : State), fbit s fQU_STALE_EN (quo q.val) = true ∧ ((quGet s q.val).words ≠ []) ∧
     fbit s fQU_CFG_HWR (quo q.val) = false) ∧
    (∃ (q : Fin 66) (s : State) (u : State), fbit s fQU_STALE_EN (quo q.val) = true ∧ ((quGet s q.val).words ≠ []) ∧
     fbit s fQU_CFG_HWR (quo q.val) = true ∧ u = quEvt s fQU_EVT_STALE q.val) ∧
    (∃ (q : Fin 66) (s : State), ((fbit s fQU_STALE_EN (quo q.val) = false ∨ (quGet s q.val).words = []))) ∧
    (∃ (q : Fin 66) (s : State), 32 ≤ q.val ∧ q.val < 48) ∧
    (∃ (q : Fin 66) (s : State), ((q.val < 32 ∨ 48 ≤ q.val))) :=
  ⟨⟨0, [], (stOf (quPut dmaS 32 ⟨[⟨zeros 16, 0x20⟩], [], true⟩) [(fST_RING_CTL_EN, 1, (pof (0 : PortNo).val))]), _, _, _, _,
    rfl, rfl, by decide, rfl, rfl, by decide, by decide, by decide, by decide, by decide, by decide, rfl⟩,
    ⟨.dennil, 0, 0#32, State.reset, by decide⟩,
    ⟨_, (cc (zeros 2)), prf [⟨2, 0, [], [], 0⟩] mbS, _, ⟨2, 0, [], [], 0⟩, rfl, by unfold Accepted; decide, rfl, by decide,
    by decide, by decide⟩,
    ⟨_, (cc (zeros 1)), mbS, _, rfl, by unfold Accepted; decide, rfl, by decide⟩,
    ⟨_, (cc (zeros 200)), mbS, _, rfl, by unfold Accepted; decide, rfl, by decide⟩,
    ⟨_, 0, false, quPut State.reset 0 ⟨[(⟨[], 0⟩ : QWord)], [], false⟩, ⟨[], 0⟩, [], by decide, by decide, rfl, by decide⟩,
    ⟨0, 48, quPut State.reset 48 ⟨[⟨[], 32⟩], [], false⟩, _, ⟨[], 32⟩, [], by decide, by decide, by decide, by decide, rfl⟩,
    ⟨.dennil, 0, false, State.reset, by decide⟩,
    ⟨0, (stOf (quPut State.reset 0 ⟨[⟨[], 0⟩], [], false⟩) [(fQU_STALE_EN, 1, (quo (0 : Fin 66).val))]), by decide, by decide,
    by decide⟩,
    ⟨0, (stOf (quPut State.reset 0 ⟨[⟨[], 0⟩], [], false⟩) [(fQU_STALE_EN, 1, (quo (0 : Fin 66).val)), (fQU_CFG_HWR, 1,
    (quo (0 : Fin 66).val))]), _, by decide, by decide, by decide, rfl⟩,
    ⟨0, State.reset, by decide⟩,
    ⟨32, State.reset, by decide, by decide⟩,
    ⟨0, State.reset, by decide⟩⟩

theorem witness_SegmentationRowsComplete :
    (∃ (ag : Agent) (p : PortNo) (v : Word) (s : State), ((ag = .dennil ∨ leased s 7 (some p.val) = true))) ∧
    (∃ (ag : Agent) (p : PortNo) (v : Word) (s : State) (w : Nat), ((ag = .dennil ∨ leased s 7 (some p.val) = true)) ∧
     cxRuns s p.val = true ∧ bit v.toNat 30 = false ∧
     w = setBits (setBits (rdn s (SG_BANK + pof p.val)) 29 29 (bits v.toNat 29 29)) 16 16 (bits v.toNat 16 16)) ∧
    (∃ (ag : Agent) (p : PortNo) (v : Word) (s : State) (w : Nat), ((ag = .dennil ∨ leased s 7 (some p.val) = true)) ∧
     cxRuns s p.val = true ∧
     w = setBits (setBits (rdn s (SG_BANK + pof p.val)) 29 29 (bits v.toNat 29 29)) 16 16 (bits v.toNat 16 16)) ∧
    (∃ (sp : CmdSpec) (c : CmdCall) (s : State) (u : State), sp = ⟨0x0710, 0x10, false, 8, 8, true, true⟩ ∧ Accepted sp c s ∧
     u = mbTake c s ∧ pb c 0 < 16 ∧ portRuns u (pb c 0) = true ∧ 1 ≤ pw c 2 ∧ pw c 2 ≤ 4096 ∧ stripMode u (pb c 0) = true ∧
     sgDualNow u (pb c 0) = true) ∧
    (∃ (sp : CmdSpec) (c : CmdCall) (s : State) (u : State), sp = ⟨0x0710, 0x10, false, 8, 8, true, true⟩ ∧ Accepted sp c s ∧
     u = mbTake c s ∧ pb c 0 < 16 ∧ portRuns u (pb c 0) = true ∧ 1 ≤ pw c 2 ∧ pw c 2 ≤ 4096 ∧ stripMode u (pb c 0) = false) ∧
    (∃ (sp : CmdSpec) (c : CmdCall) (s : State) (u : State) (pr : Profile), sp = ⟨0x0711, 0x10, false, 2, 8, true, true⟩ ∧
     Accepted sp c s ∧ u = mbTake c s ∧ pb c 0 < 16 ∧ findProfile u 7 (pb c 1) = some pr ∧
     (pr.writes.find? (fun w => w.1 == SG_CTL) = none)) ∧
    (∃ (sp : CmdSpec) (c : CmdCall) (s : State) (u : State) (img : List (Nat × Nat)), sp = ⟨0x0790, 0x10, true, 200, 200,
     true, true⟩ ∧ Accepted sp c s ∧ u = mbTake c s ∧ pb c 0 < 16 ∧
     img = imageWords (SG_CTL + pof (pb c 0)) ((c.payload.drop 8).take 192)) ∧
    (∃ (sp : CmdSpec) (c : CmdCall) (s : State) (u : State), sp = ⟨0x0791, 0x10, true, 24, 24, true, true⟩ ∧ Accepted sp c s ∧
     u = mbTake c s ∧ pb c 0 < 16 ∧ pb c 1 = 0 ∧ pb c 2 < 2 ∧ pb c 3 = 0 ∧ sgDualNow u (pb c 0) = true ∧
     sgLocked u (pb c 0) (pb c 2) = false ∧ pw c 4 + pw c 6 ≤ 32768 ∧ hostCanRead c u = true) :=
  ⟨⟨.dennil, 0, 0#32, State.reset, by decide⟩,
    ⟨.dennil, 0, 0#32, (stOf (State.reset) [(fPP_CTL_EN, 1, pof (0 : PortNo).val)]), _, by decide, by decide, by decide, rfl⟩,
    ⟨.dennil, 0, 0#32, (stOf (State.reset) [(fPP_CTL_EN, 1, pof (0 : PortNo).val)]), _, by decide, by decide, rfl⟩,
    ⟨_, cc [0, 0, 1, 0, 0, 0, 0, 0], (stOf (mbS) [(fPP_CTL_EN, 1, pof (pb (cc [0, 0, 1, 0, 0, 0, 0, 0] : CmdCall) 0)),
    (fPP_SLOT_STAT_STATE, 3, pof (pb (cc [0, 0, 1, 0, 0, 0, 0, 0] : CmdCall) 0)), (fPP_CTL_MODE, 1, 0), (⟨SG_BANK, 24, 24⟩, 1,
    0)]), _, rfl, by unfold Accepted; decide, rfl, by decide, by decide, by decide, by decide, by decide, by decide⟩,
    ⟨_, cc [0, 0, 1, 0, 0, 0, 0, 0], (stOf (mbS) [(fPP_CTL_EN, 1, pof (pb (cc [0, 0, 1, 0, 0, 0, 0, 0] : CmdCall) 0)),
    (fPP_SLOT_STAT_STATE, 3, pof (pb (cc [0, 0, 1, 0, 0, 0, 0, 0] : CmdCall) 0))]), _, rfl, by unfold Accepted; decide, rfl,
    by decide, by decide, by decide, by decide, by decide⟩,
    ⟨_, (cc (zeros 2)), prf [⟨7, 0, [], [], 0⟩] mbS, _, ⟨7, 0, [], [], 0⟩, rfl, by unfold Accepted; decide, rfl, by decide,
    by decide, by decide⟩,
    ⟨_, (cc (zeros 200)), mbS, _, _, rfl, by unfold Accepted; decide, rfl, by decide, rfl⟩,
    ⟨_, (cc (zeros 24)), mbS, _, rfl, by unfold Accepted; decide, rfl, by decide, by decide, by decide, by decide, by decide,
    by decide, by decide, by decide⟩⟩

theorem witness_LedgerEntriesFollowTheirRules :
    (∃ (pier : Nat) (idx : Nat) (gen : Nat), pier < 1024 ∧ idx < 131072 ∧ gen < 32) ∧
    (∃ (s : State) (id : Nat), live s id = true) :=
  ⟨⟨0, 0, 0, by decide, by decide, by decide⟩,
    ⟨setEntry State.reset 0 { emptyEntry with st := .seen }, 0, by decide⟩⟩

theorem witness_LedgerAndMateEventsComplete :
    (∃ (id : Nat) (s : State) (u : State) (c : ClosedObj),
     (s.ledger.closed.find? (fun x => x.id = id) = some c) ∧ c.speckPass = false ∧ u = { s with ledger := { s.ledger with closed := s.ledger.closed.erase c } }) ∧
    (∃ (id : Nat) (s : State) (u : State) (c : ClosedObj),
     (s.ledger.closed.find? (fun x => x.id = id) = some c) ∧ c.speckPass = true ∧ u = { s with ledger := { s.ledger with closed := s.ledger.closed.erase c } }) ∧
    (∃ (id : Nat) (s : State) (u : State) (r : SetRec), setOf s id = some r ∧ ownsSet s r = false ∧ live s id = true ∧
     (((entryOf s id).st = .mated ∨ (entryOf s id).st = .tiled)) ∧ reachedExt s (orphanTime s id) = true ∧
     u = retireEntry id (evt (cnt (evMember (fbit s fEV_CTL_EVID_EN && evSelected s 10) 10 r.owner 0 0 id (updEntry s id (fun e => { e with st := .dropped, outcome := ocDROPPED, flags := withBit e.flags lfORPHAN true }))) LG_CNT_ORPHAN) fLG_EVT_ORPHAN)) ∧
    (∃ (owner : Nat) (s : State) (r : SetRec), setOwned s owner = some r ∧ ownsSet s r = true ∧
     ((setState s r = .mated ∨ setState s r = .tiled)) ∧ reachedExt s (effDeadline r) = true) ∧
    (∃ (owner : Nat) (s : State) (x : RetireAt) (r : SetRec),
     (s.ledger.retireAt.find? (fun y => y.owner = owner) = some x) ∧ setOwned s owner = some r ∧ reached s x.time = true) ∧
    (∃ (low : Nat) (t : Nat) (s : State) (p : ProvSet), provLow s low = some p ∧ closeTime s p.group p.members = some t) ∧
    (∃ (low : Nat) (s : State) (p : ProvSet), provLow s low = some p ∧ closeTime s p.group p.members = none) ∧
    (∃ (ag : Agent) (g : Fin 8) (s : State) (u : State), ((ag = .dennil ∨ leased s 8 none = true)) ∧
     fbit s fVW_GRP_CTL_EN (g.val * 0x20) = true ∧ u = fbset s fVW_GRP_CTL_EN false (g.val * 0x20)) ∧
    (∃ (ag : Agent) (g : Fin 8) (s : State), ((ag = .dennil ∨ leased s 8 none = true)) ∧
     fbit s fVW_GRP_CTL_EN (g.val * 0x20) = false) ∧
    (∃ (src : Nat) (p : List Byte) (s : State) (m : Member), byteAt p 0 = 1 ∧ 32 ≤ p.length ∧
     fbit s fVW_CTL_REMOTE_EN = true ∧ oldLink s src = false ∧ bit (byteAt p 3) 0 = true ∧ fbit s fVW_STAT_TB_OK = true ∧
     m = { id := u32At p 4, view := byteAt p 2 % 4, first := u32At p 8, last := u32At p 12, cx := u32At p 16, area := u32At p 20, partialView := bits (byteAt p 3) 3 1 != 0, width := u16At p 24 }) ∧
    (∃ (src : Nat) (p : List Byte) (s : State) (m : Member), byteAt p 0 = 1 ∧ 32 ≤ p.length ∧
     ((bit (byteAt p 3) 0 = false ∨ fbit s fVW_STAT_TB_OK = false)) ∧
     m = { id := u32At p 4, view := byteAt p 2 % 4, first := u32At p 8, last := u32At p 12, cx := u32At p 16, area := u32At p 20, partialView := bits (byteAt p 3) 3 1 != 0, width := u16At p 24 }) ∧
    (∃ (src : Nat) (p : List Byte) (s : State) (ms : List Nat) (got : List Nat), byteAt p 0 = 2 ∧ 28 ≤ p.length ∧
     ms = sortIds ((List.range (min 4 (byteAt p 1))).map (fun n => u32At p (8 + 4 * n))) ∧ got = ms.filter (fun m => s.views.waits.any (fun w => w.id = m)) ∧ got ≠ []) ∧
    (∃ (src : Nat) (p : List Byte) (s : State) (u : State) (r : SetRec), byteAt p 0 = 3 ∧ 24 ≤ p.length ∧ byteAt p 1 = 8 ∧
     u = noteOutcome (u32At p 4) 8 s ∧ setOwned u (u32At p 4) = some r ∧ ownsSet u r = false) ∧
    (∃ (src : Nat) (p : List Byte) (s : State) (u : State) (r : SetRec), byteAt p 0 = 3 ∧ 24 ≤ p.length ∧ byteAt p 1 = 6 ∧
     u = noteOutcome (u32At p 4) 6 s ∧ setOwned u (u32At p 4) = some r ∧ ownsSet u r = false) ∧
    (∃ (src : Nat) (p : List Byte) (s : State), byteAt p 0 = 4 ∧ 20 ≤ p.length) ∧
    (∃ (src : Nat) (p : List Byte) (s : State) (h : HomeRec), byteAt p 0 = 5 ∧ 8 ≤ p.length ∧
     (s.views.recs.find? (fun h => h.members.any (fun m => m.id = u32At p 4)) = some h) ∧ h.decided = true) ∧
    (∃ (src : Nat) (p : List Byte) (s : State) (h : HomeRec), byteAt p 0 = 5 ∧ 8 ≤ p.length ∧
     (s.views.recs.find? (fun h => h.members.any (fun m => m.id = u32At p 4)) = some h) ∧ h.decided = false ∧ memberPiers s (sortIds ((h.members.filter (fun m => m.id != u32At p 4)).map (·.id))) = [] ∧ (s.ledger.sets.find? (fun r => r.locals.any (fun m => (sortIds ((h.members.filter (fun m => m.id != u32At p 4)).map (·.id))).contains m) && r.owner == h.owner) = none)) ∧
    (∃ (id : Nat) (h : Nat) (s : State) (u : State) (w : RemoteWait),
     (s.views.waits.find? (fun w => w.id = id) = some w) ∧ reached s w.expiry = true ∧ w.home = some h ∧ u = { s with views := { s.views with waits := s.views.waits.filter (fun x => x.id != id) } }) ∧
    (∃ (id : Nat) (s : State) (u : State) (w : RemoteWait),
     (s.views.waits.find? (fun w => w.id = id) = some w) ∧ reached s w.expiry = true ∧ w.home = none ∧ u = { s with views := { s.views with waits := s.views.waits.filter (fun x => x.id != id) } }) :=
  ⟨⟨0, lgS (fun l => { l with closed := [⟨0, [], false⟩] }) State.reset, _, ⟨0, [], false⟩, by decide, by decide, rfl⟩,
    ⟨0, lgS (fun l => { l with closed := [⟨0, [], true⟩] }) State.reset, _, ⟨0, [], true⟩, by decide, by decide, rfl⟩,
    ⟨0,
    (stOf (setEntry (lgS (fun l => { l with sets := [⟨[0, 32], [0], 32, 0, 0, none, 0, 0⟩] }) State.reset) 0 { emptyEntry with st := .mated }) [(fLG_CTL_GRACE,
    0, 0), (fVW_GRP_DEADLINE_US, 0, 0)]), _, ⟨[0, 32], [0], 32, 0, 0, none, 0, 0⟩, by decide, by decide, by decide, by decide,
    by decide, rfl⟩,
    ⟨0,
    setEntry (lgS (fun l => { l with sets := [⟨[0], [0], 0, 0, 0, none, 0, 0⟩] }) State.reset) 0 { emptyEntry with st := .mated },
    ⟨[0], [0], 0, 0, 0, none, 0, 0⟩, by decide, by decide, by decide, by decide⟩,
    ⟨0, lgS (fun l => { l with sets := [⟨[0], [0], 0, 0, 0, none, 0, 0⟩], retireAt := [⟨0, 0⟩] }) State.reset, ⟨0, 0⟩, ⟨[0],
    [0], 0, 0, 0, none, 0, 0⟩, by decide, by decide, by decide⟩,
    ⟨0, 0, (stOf (vwS (fun v => { v with prov := [⟨0, [⟨0, 0, 0, 0, 0, 0, false, 64⟩]⟩] }) State.reset) [(fVW_MDL_CTL_EN, 1,
    0x20), (fVW_VIEW_EN, 1, 8)]), ⟨0, [⟨0, 0, 0, 0, 0, 0, false, 64⟩]⟩, by decide, by decide⟩,
    ⟨0, vwS (fun v => { v with prov := [⟨3, []⟩] }) State.reset, ⟨3, []⟩, by decide, by decide⟩,
    ⟨.dennil, 0, (stOf (State.reset) [(fVW_GRP_CTL_EN, 1, ((0 : Fin 8).val * 0x20))]), _, by decide, by decide, rfl⟩,
    ⟨.dennil, 0, State.reset, by decide, by decide⟩,
    ⟨0, [1, 0, 0, 1] ++ zeros 28, (stOf (State.reset) [(fVW_CTL_REMOTE_EN, 1, 0), (fVW_STAT_TB_OK, 1, 0)]), _, by decide,
    by decide, by decide, by decide, by decide, by decide, rfl⟩,
    ⟨0, [1, 0, 0, 0] ++ zeros 28, State.reset, _, by decide, by decide, by decide, rfl⟩,
    ⟨0, [2, 1] ++ zeros 26, vwS (fun v => { v with waits := [⟨0, none, 0⟩] }) State.reset, _, _, by decide, by decide, rfl,
    rfl, by decide +kernel⟩,
    ⟨0, [3, 8] ++ zeros 22, lgS (fun l => { l with sets := [⟨[0, 32], [32], 0, 0, 0, none, 0, 0⟩] }) State.reset, _, ⟨[0, 32],
    [32], 0, 0, 0, none, 0, 0⟩, by decide, by decide, by decide, rfl, by decide, by decide⟩,
    ⟨0, [3, 6] ++ zeros 22, lgS (fun l => { l with sets := [⟨[0, 32], [32], 0, 0, 0, none, 0, 0⟩] }) State.reset, _, ⟨[0, 32],
    [32], 0, 0, 0, none, 0, 0⟩, by decide, by decide, by decide, rfl, by decide, by decide⟩,
    ⟨0, [4] ++ zeros 19, State.reset, by decide, by decide⟩,
    ⟨0, [5] ++ zeros 7, vwS (fun v => { v with recs := [⟨[⟨0, 0, 0, 0, 0, 0, false, 64⟩], 0, 0, true⟩] }) State.reset, ⟨[⟨0,
    0, 0, 0, 0, 0, false, 64⟩], 0, 0, true⟩, by decide, by decide, by decide, by decide⟩,
    ⟨0, [5] ++ zeros 7, vwS (fun v => { v with recs := [⟨[⟨0, 0, 0, 0, 0, 0, false, 64⟩], 0, 0, false⟩] }) State.reset, ⟨[⟨0,
    0, 0, 0, 0, 0, false, 64⟩], 0, 0, false⟩, by decide, by decide, by decide, by decide, by decide +kernel,
    by decide +kernel⟩,
    ⟨0, 0, vwS (fun v => { v with waits := [⟨0, some 0, 0⟩] }) State.reset, _, ⟨0, some 0, 0⟩, by decide, by decide,
    by decide, rfl⟩,
    ⟨0, vwS (fun v => { v with waits := [⟨0, none, 0⟩] }) State.reset, _, ⟨0, none, 0⟩, by decide, by decide, by decide, rfl⟩⟩

theorem witness_ViewCommandsComplete :
    (∃ (sp : CmdSpec) (c : CmdCall) (s : State) (u : State) (v : State) (e : CalEntry) (ws : List (Nat × Nat)), sp = ⟨0x0810,
     0x10, false, 0, 0, false, true⟩ ∧ Accepted sp c s ∧ u = mbTake c s ∧ evRunning u = true ∧
     calInUse u 0x0801 0 0 = some e ∧
     (ws = (calPairs e).map (fun p => if 0xE0100 ≤ p.1 ∧ p.1 < 0xE0200 ∧ p.1 % 0x20 = 0 then (p.1, p.2 % 2 ^ 31) else p)) ∧ ((wordsGroups ws).any (fun g => fbit u fVW_GRP_CTL_EN (g * 0x20)) = false) ∧ v = forEach ws (fun p t => vwPut p.1 p.2 t) u ∧ ((List.range 16).any (rangesBad v) = false)) ∧
    (∃ (sp : CmdSpec) (c : CmdCall) (s : State) (u : State) (v : State), sp = ⟨0x0811, 0x11, false, 16, 16, false, true⟩ ∧
     Accepted sp c s ∧ u = mbTake c s ∧ pb c 0 ≤ 7 ∧ pb c 1 ≤ 3 ∧ pb c 2 ≤ 3 ∧ pb c 1 ≠ pb c 2 ∧ 16 ≤ pw c 4 ∧ pw c 4 ≤ 4096 ∧
     2 * pd c 8 ≤ pw c 6 * 1000 ∧ v = groupEnable (pb c 0) false u) ∧
    (∃ (s : State) (u : State) (r : CalRun), s.views.calRun = some r ∧ ((fullBins (viewPairs r)).length < 8) ∧
     u = groupEnable r.group r.wasEn { s with views := { s.views with calRun := none } }) ∧
    (∃ (s : State) (u : State) (r : CalRun), s.views.calRun = some r ∧ 8 ≤ (fullBins (viewPairs r)).length ∧ r.flags % 4 = 0 ∧
     u = groupEnable r.group r.wasEn { s with views := { s.views with calRun := none } }) ∧
    (∃ (sp : CmdSpec) (c : CmdCall) (s : State) (u : State), sp = ⟨0x0890, 0x10, true, 580, 580, false, true⟩ ∧
     Accepted sp c s ∧ u = mbTake c s ∧ pb c 0 ≤ 7 ∧ fbit u fVW_GRP_CTL_EN (pb c 0 * 0x20) = false) ∧
    (∃ (sp : CmdSpec) (c : CmdCall) (s : State) (u : State), sp = ⟨0x0891, 0x10, true, 16, 16, false, true⟩ ∧
     Accepted sp c s ∧ u = mbTake c s ∧ pb c 0 ≤ 127 ∧ fbit u fVW_GRP_CTL_EN (pb c 0 / 16 * 0x20) = false ∧
     hostCanRead c u = true) :=
  ⟨⟨_, (cc []), (stOf (calS [⟨0x0801, 0, 0, 0, 1, [], true⟩] mbS) [(fEV_STAT_STATE, 2, 0)]), _, _, ⟨0x0801, 0, 0, 0, 1, [],
    true⟩, _, rfl, by unfold Accepted; decide, rfl, by decide, by decide, rfl, by decide, rfl, by decide⟩,
    ⟨_, cc [0, 0, 1, 0, 16, 0, 0, 0, 0, 0, 0, 0, 0, 0, 0, 0], mbS, _, _, rfl, by unfold Accepted; decide, rfl, by decide,
    by decide, by decide, by decide, by decide, by decide, by decide, rfl⟩,
    ⟨vwS (fun v => { v with calRun := some (calR [] []) }) State.reset, _, calR [] [], by decide, by decide, rfl⟩,
    ⟨vwS (fun v => { v with calRun := some (calR ((List.range 24).flatMap (fun n => [⟨1, n, 16 * (n / 3), 63⟩, ⟨2, n, 0, 63⟩])) []) }) State.reset,
    _, calR ((List.range 24).flatMap (fun n => [⟨1, n, 16 * (n / 3), 63⟩, ⟨2, n, 0, 63⟩])) [], by decide, by decide,
    by decide, rfl⟩,
    ⟨_, (cc (zeros 580)), mbS, _, rfl, by unfold Accepted; decide, rfl, by decide, by decide⟩,
    ⟨_, (cc (zeros 16)), mbS, _, rfl, by unfold Accepted; decide, rfl, by decide, by decide, by decide⟩⟩

theorem witness_TileRowsComplete :
    (∃ (id : Nat) (at_ : Nat) (cut : Option Nat) (d : Bool) (s : State) (m : TileMade),
     (s.tiles.made.find? (fun m => m.id = id && m.sentTo.isNone && !(s.tiles.allocs.any (fun a => a.maker.isNone && a.id = id))) = some m) ∧ cropReady s (entryOf s id) (bits m.route 24 19) = true ∧ cropLost s (entryOf s id) (bits m.route 24 19) = true) ∧
    (∃ (id : Nat) (at_ : Nat) (cut : Option Nat) (d : Bool) (s : State) (m : TileMade),
     (s.tiles.made.find? (fun m => m.id = id && m.sentTo.isNone && !(s.tiles.allocs.any (fun a => a.maker.isNone && a.id = id))) = some m) ∧ cropReady s (entryOf s id) (bits m.route 24 19) = true ∧ cropLost s (entryOf s id) (bits m.route 24 19) = false ∧ lp5Poison s (featAddr s (idIndex id)) 128 = false ∧ cropOf s (entryOf s id) m.route = none) ∧
    (∃ (id : Nat) (at_ : Nat) (d : Bool) (s : State) (u : State) (m : TileMade) (c : Crop) (bytes : List Byte) (rect : Nat × Nat × Nat × Nat),
     (s.tiles.made.find? (fun m => m.id = id && m.sentTo.isNone && !(s.tiles.allocs.any (fun a => a.maker.isNone && a.id = id))) = some m) ∧ cropReady s (entryOf s id) (bits m.route 24 19) = true ∧ cropLost s (entryOf s id) (bits m.route 24 19) = false ∧ lp5Poison s (featAddr s (idIndex id)) 128 = false ∧ cropOf s (entryOf s id) m.route = some c ∧ rect = cropRect s (entryOf s id) (bits m.route 24 19) ∧ bytes = tileBytes s (entryOf s id) m c ∧ tollNext s 32 (8 * (rect.2.1 + 1 - rect.1)) [(0, 1), (2, 1)] = true ∧ poolCan s 2 (blocksOf bytes.length) = true ∧ u = evCopy id bytes (poolGive (poolTake s 2 (blocksOf bytes.length)) 2 (blocksOf bytes.length))) ∧
    (∃ (src : Nat) (msg : Nat) (p : List Byte) (s : State) (u : State) (a : TileAlloc) (len : Nat), 64 ≤ p.length ∧
     len = tileLen (u16At p 12) (u16At p 14) (bits (byteAt p 9) 5 4) (bit (byteAt p 9) 6) (bit (byteAt p 9) 7) ∧
     u = tileHeaderIn (byteAt p 19 % 64) len (u32At p 0) (some src) msg (blocksOf len) s ∧ allocOf u src msg = some a ∧
     tollNext u 33 p.length (dmaCosts a.maker.isSome p.length) = true) ∧
    (∃ (src : Nat) (msg : Nat) (seg : Nat) (p : List Byte) (s : State) (a : TileAlloc), seg ≠ 0 ∧ allocOf s src msg = some a ∧
     a.paused = false ∧ a.drop = none ∧ seg = a.nextSeg ∧ tollNext s 33 p.length (dmaCosts a.maker.isSome p.length) = true) ∧
    (∃ (src : Nat) (msg : Nat) (seg : Nat) (p : List Byte) (d : Bool) (s : State) (a : TileAlloc), seg ≠ 0 ∧
     allocOf s src msg = some a ∧ a.paused = false ∧ a.drop = none ∧ seg ≠ a.nextSeg) ∧
    (∃ (r : Fin 64) (seq : Nat) (s : State) (u : State) (a : TileAlloc),
     (s.tiles.allocs.find? (fun a => a.ring = r.val && a.seq = seq) = some a) ∧ canDma s = true ∧ allocEnd a = some none ∧ fbit s fTL_TR_CTL_INT (tro r.val) = false ∧ a.maker = none ∧ u = cnt (dmaWrite s (fget s fTL_TR_DESC_LO_BASE (tro r.val) * 64 + rdn s (TL_TR_DESC_HI + tro r.val) * 2 ^ 32 + seq % trSlots s r.val * 32) (descBytes s a none)) (TL_TR_CNT_DONE + tro r.val) ∧ fbit u fTL_TR_CTL_INT (tro r.val) = false) :=
  ⟨⟨0, 0, none, false, tlS (fun t => { t with made := [tileM] }) State.reset, tileM, by decide, by decide, by decide⟩,
    ⟨0, 0, none, false,
    p0 { PortSt.reset with stage := [⟨0, 0, 0, 0, 0, 0, [], some []⟩, ⟨0, 600, 0, 0, 0, 0, [], some []⟩] } (setEntry (tlS (fun t => { t with made := [{ tileM with route := 0x4000000 }] }) State.reset) 0 { emptyEntry with st := .mated, y1 := 600 }), { tileM with route := 0x4000000 }, by decide, by decide, by decide, by decide, by decide⟩,
    ⟨0, 0, false,
    (stOf (p0 { PortSt.reset with stage := [⟨0, 0, 0, 0, 0, 0, [], some []⟩] } (tlS (fun t => { t with made := [tileM] }) State.reset)) [(⟨MM_POOL_FREE, 31, 0⟩,
    0xFFFFFFFF, 0), (⟨MM_POOL_FREE + 32, 31, 0⟩, 0xFFFFFFFF, 0)]), _, tileM, ⟨[[]], 0, 0, 0⟩, _, _, by decide, by decide,
    by decide, by decide, by decide, rfl, rfl, by decide, by decide, rfl⟩,
    ⟨0, 0, zeros 64, stOf dmaS [(fTL_TR_CTL_EN, 1, 0), (⟨MM_POOL_FREE + 32, 31, 0⟩, 10, 0)], _, ⟨0, 0, 0, 64, 64, 0, some 0,
    0, 0, 0, 0, none, false, blocksOf 64, false⟩, _, by decide, rfl, rfl, by decide, by decide⟩,
    ⟨0, 0, 1, [],
    tlS (fun t => { t with allocs := [{ tileA with maker := some 0 }] }) State.reset, { tileA with maker := some 0 }, by decide, by decide, by decide, by decide, rfl, by decide⟩,
    ⟨0, 0, 2, [], false,
    tlS (fun t => { t with allocs := [{ tileA with maker := some 0 }] }) State.reset, { tileA with maker := some 0 }, by decide, by decide, by decide, by decide, by decide⟩,
    ⟨0, 0,
    tlS (fun t => { t with allocs := [tileA] }) dmaS, _, tileA, by decide, by decide, by decide, by decide, by decide, rfl, by decide⟩⟩

theorem witness_VerdictsAndTileEndsComplete :
    (∃ (src : Nat) (p : List Byte) (s : State), byteAt p 0 = 1 ∧ 16 ≤ p.length ∧
     s.tiles.made.any (fun m => m.id = u32At p 4 && m.sentTo == some src) = true) ∧
    (∃ (id : Nat) (s : State) (m : TileMade), (s.tiles.made.find? (fun m => m.id = id && m.sentTo.isSome) = some m)) ∧
    (∃ (r : Fin 64) (seq : Nat) (s : State) (a : TileAlloc),
     (s.tiles.allocs.find? (fun a => a.ring = r.val && a.seq = seq) = some a) ∧ allocEnd a = none ∧ reached s (add32 a.headerAt (ackTmo s)) = true) ∧
    (∃ (r : Fin 64) (v : Word) (s : State),
     sub32 v.toNat (rdn s (TL_TR_CONS + tro r.val)) ≤ sub32 (rdn s (TL_TR_SEQ + tro r.val)) (rdn s (TL_TR_CONS + tro r.val))) ∧
    (∃ (r : Fin 64) (v : Word) (s : State),
     sub32 (rdn s (TL_TR_SEQ + tro r.val)) (rdn s (TL_TR_CONS + tro r.val)) < sub32 v.toNat (rdn s (TL_TR_CONS + tro r.val))) ∧
    (∃ (v : Fin 16) (t : BitVec 12) (s : State), t.toNat < vrSize s v.val) ∧
    (∃ (v : Fin 16) (t : BitVec 12) (s : State), vrSize s v.val ≤ t.toNat) ∧
    (∃ (s : State) (v : Nat) (tag : Nat) (n : Nat), canDma s = true ∧ vrNext s = some v ∧ n = vrCount s v ∧ tollCan s 36 [(1,
     lp5Units (16 * n)), (2, 1)] = true ∧ freeTag s = some tag) ∧
    (∃ (v : Fin 16) (d : List Byte) (s : State) (u : State) (f : VerdictFetch) (r : NpReq),
     (s.tiles.fetches.find? (fun f => f.ring = v.val) = some f) ∧ npOf s f.tag = some r ∧ r.void = false ∧ u = npEnd f.tag (fetchDrop f.tag s) ∧ canDma u = true) ∧
    (∃ (v : Fin 16) (d : List Byte) (s : State) (f : VerdictFetch) (r : NpReq),
     (s.tiles.fetches.find? (fun f => f.ring = v.val) = some f) ∧ npOf s f.tag = some r ∧ r.void = true) ∧
    (∃ (src : Nat) (p : List Byte) (s : State), byteAt p 0 = 1 ∧ 20 ≤ p.length) :=
  ⟨⟨0, [1, 1] ++ zeros 14,
    tlS (fun t => { t with made := [{ tileM with sentTo := some 0 }] }) State.reset, by decide, by decide, by decide⟩,
    ⟨0,
    tlS (fun t => { t with made := [{ tileM with sentTo := some 0 }] }) State.reset, { tileM with sentTo := some 0 }, by decide⟩,
    ⟨0, 0,
    tlS (fun t => { t with allocs := [{ tileA with len := 64, headerAt := 0x80000000 }] }) State.reset, { tileA with len := 64, headerAt := 0x80000000 }, by decide, by decide, by decide⟩,
    ⟨0, 0#32, State.reset, by decide⟩,
    ⟨0, 1#32, State.reset, by decide⟩,
    ⟨0, 0#12, State.reset, by decide⟩,
    ⟨0, 2, State.reset, by decide⟩,
    ⟨(stOf (dmaS) [(fTL_VR_CTL_EN, 1, vro 1), (fTL_VR_TAIL_V, 1, vro 1)]), 1, 0, 1, by decide, by decide, rfl, by decide,
    by decide⟩,
    ⟨0, [], reqS [⟨0, .verdict, 0, false⟩] (tlS (fun t => { t with fetches := [⟨0, 0, 1, 0⟩] }) dmaS), _, ⟨0, 0, 1, 0⟩, ⟨0,
    .verdict, 0, false⟩, by decide, by decide, by decide, rfl, by decide⟩,
    ⟨0, [], reqS [⟨0, .verdict, 0, true⟩] (tlS (fun t => { t with fetches := [⟨0, 0, 1, 0⟩] }) dmaS), ⟨0, 0, 1, 0⟩, ⟨0,
    .verdict, 0, true⟩, by decide, by decide, by decide⟩,
    ⟨0, [1] ++ zeros 19, State.reset, by decide, by decide⟩⟩

theorem witness_VerdictsAndTileEndsComplete_cases :
    (∃ (src : Nat) (p : List Byte) (s : State), byteAt p 0 = 1 ∧ 16 ≤ p.length ∧
     s.tiles.made.any (fun m => m.id = u32At p 4 && m.sentTo == some src) = true ∧ byteAt p 1 = 1) ∧
    (∃ (src : Nat) (p : List Byte) (s : State), byteAt p 0 = 1 ∧ 16 ≤ p.length ∧
     s.tiles.made.any (fun m => m.id = u32At p 4 && m.sentTo == some src) = true ∧ byteAt p 1 = 2) :=
  ⟨⟨0, [1, 1] ++ zeros 14,
    tlS (fun t => { t with made := [{ tileM with sentTo := some 0 }] }) State.reset, by decide, by decide, by decide, by decide⟩,
    ⟨0, [1, 2] ++ zeros 14,
    tlS (fun t => { t with made := [{ tileM with sentTo := some 0 }] }) State.reset, by decide, by decide, by decide, by decide⟩⟩

theorem witness_ActMessagesAndCommandsComplete :
    (∃ (src : Nat) (p : List Byte) (s : State) (u : State) (ps : List PartSpec) (evict : List Nat), byteAt p 0 = 2 ∧
     24 ≤ p.length ∧ ps = localParts s ((u16At p 14 : Nat), min (u16At p 16 : Int) (ownValves s - 1)) ∧
     missesBoard s ((u16At p 14 : Nat), min (u16At p 16 : Int) (ownValves s - 1)) = false ∧ u = cnt s AC_CNT_ACT_RX ∧
     orderAdmission u src (u32At p 8) (byteAt p 1 % 4) ps = .inr evict) ∧
    (∃ (src : Nat) (p : List Byte) (s : State) (u : State) (code : Nat) (c : Cause), byteAt p 0 = 2 ∧ 24 ≤ p.length ∧
     missesBoard s ((u16At p 14 : Nat), min (u16At p 16 : Int) (ownValves s - 1)) = false ∧ u = cnt s AC_CNT_ACT_RX ∧
     orderAdmission u src (u32At p 8) (byteAt p 1 % 4) (localParts s ((u16At p 14 : Nat),
     min (u16At p 16 : Int) (ownValves s - 1))) = .inl (code, c)) ∧
    (∃ (src : Nat) (p : List Byte) (s : State) (o : Order), byteAt p 0 = 3 ∧ 16 ≤ p.length ∧ orderOf s (u32At p 4) = some o ∧
     o.hasLocal = true ∧ byteAt p 1 ≠ 0 ∧ reached s o.launch = false ∧ o.remotes.any (answers src (u16At p 2)) = true) ∧
    (∃ (src : Nat) (p : List Byte) (s : State) (o : Order), byteAt p 0 = 3 ∧ 16 ≤ p.length ∧ orderOf s (u32At p 4) = some o ∧
     o.hasLocal = true ∧ byteAt p 1 = 0 ∧ reached s o.launch = false ∧ o.remotes.any (answers src (u16At p 2)) = true) ∧
    (∃ (src : Nat) (p : List Byte) (s : State), byteAt p 0 = 4 ∧ 16 ≤ p.length) ∧
    (∃ (owner : Nat) (s : State) (u : State) (o : Order), orderOf s owner = some o ∧ reached s o.launch = true ∧
     o.remotes ≠ [] ∧
     u = cntAdd (updOrder s owner (fun x => { x with remotes := x.remotes.map (fun r => if r.status = .waiting then { r with status := .refused } else r) })) AC_CNT_ACT_TMO (o.remotes.filter (fun r => r.status = .waiting)).length) ∧
    (∃ (sp : CmdSpec) (c : CmdCall) (s : State) (u : State) (v : State) (e : CalEntry), sp = ⟨0x0A10, 0x10, false, 0, 0,
     false, true⟩ ∧ Accepted sp c s ∧ u = mbTake c s ∧ evRunning u = true ∧ calInUse u 0x0A01 0 0 = some e ∧
     v = forEach (calPairs e) (fun p t => acPut p.1 p.2 t) u ∧ boardsBad v = false) ∧
    (∃ (sp : CmdSpec) (c : CmdCall) (s : State) (u : State) (v : State), sp = ⟨0x0A11, 0x11, false, 16, 16, false, true⟩ ∧
     Accepted sp c s ∧ u = mbTake c s ∧ pb c 0 ≤ 7 ∧ pb c 1 ≤ 3 ∧ 16 ≤ pw c 4 ∧ pw c 4 ≤ 4096 ∧ pd c 8 < pd c 12 ∧
     v = groupEnable (pb c 0) false u) ∧
    (∃ (s : State) (u : State) (r : CalRun), s.views.ejectRun = some r ∧ 8 ≤ (fullBins (gatePairs r)).length ∧
     r.flags % 4 = 0 ∧ u = groupEnable r.group r.wasEn { s with views := { s.views with ejectRun := none } }) ∧
    (∃ (sp : CmdSpec) (c : CmdCall) (s : State) (u : State) (ps : List PartSpec) (evict : List Nat), sp = ⟨0x0A90, 0x10, true,
     16, 16, false, true⟩ ∧ Accepted sp c s ∧ u = mbTake c s ∧ ps = localParts u (max 0 (s16 (pw c 0)),
     min (s16 (pw c 2)) (ownValves u - 1)) ∧ fbit u fAC_CTL_EN = false ∧ busesOn u ps = true ∧ safeState u = false ∧
     10000 ≤ pd c 8 ∧ pd c 8 ≤ 1000000000 ∧ ps ≠ [] ∧ chooseVictims 16385 u ps 3 [] = some evict) :=
  ⟨⟨0, [2, 0, 0, 0, 0, 0, 0, 0, 0, 0, 16, 0] ++ zeros 12, stOf State.reset boardF, _, _, [], by decide, by decide, rfl,
    by decide, rfl, by decide⟩,
    ⟨0, [2] ++ zeros 23, (stOf (State.reset) [(fPA_STAT_SAFE, 1, 0)]), _, 3, .cancel, by decide, by decide, by decide, rfl,
    by decide⟩,
    ⟨0, [3, 1] ++ zeros 14,
    { State.reset with act := { State.reset.act with orders := [⟨0, 0x1000, 0, 0, true, false, [⟨0, 0, .waiting⟩]⟩] } }, ⟨0,
    0x1000, 0, 0, true, false, [⟨0, 0, .waiting⟩]⟩, by decide, by decide, by decide, by decide, by decide, by decide,
    by decide⟩,
    ⟨0, [3] ++ zeros 15,
    { State.reset with act := { State.reset.act with orders := [⟨0, 0x1000, 0, 0, true, false, [⟨0, 0, .waiting⟩]⟩] } }, ⟨0,
    0x1000, 0, 0, true, false, [⟨0, 0, .waiting⟩]⟩, by decide, by decide, by decide, by decide, by decide, by decide,
    by decide⟩,
    ⟨0, [4] ++ zeros 15, State.reset, by decide, by decide⟩,
    ⟨0, { State.reset with act := { State.reset.act with orders := [⟨0, 0, 0, 0, true, false, [⟨0, 0, .waiting⟩]⟩] } }, _, ⟨0,
    0, 0, 0, true, false, [⟨0, 0, .waiting⟩]⟩, by decide, by decide, by decide, rfl⟩,
    ⟨_, (cc []), (stOf (calS [⟨0x0A01, 0, 0, 0, 1, [], true⟩] mbS) [(fEV_STAT_STATE, 2, 0)]), _, _, ⟨0x0A01, 0, 0, 0, 1, [],
    true⟩, rfl, by unfold Accepted; decide, rfl, by decide, by decide, rfl, by decide⟩,
    ⟨_, cc [0, 0, 0, 0, 16, 0, 0, 0, 0, 0, 0, 0, 1, 0, 0, 0], mbS, _, _, rfl, by unfold Accepted; decide, rfl, by decide,
    by decide, by decide, by decide, by decide, rfl⟩,
    ⟨vwS (fun v => { v with ejectRun := some (calR ((List.range 24).map (fun n => ⟨1, n, 16 * (n / 3), 63⟩)) (List.range 24)) }) State.reset,
    _, calR ((List.range 24).map (fun n => ⟨1, n, 16 * (n / 3), 63⟩)) (List.range 24), by decide, by decide, by decide, rfl⟩,
    ⟨_, cc [0, 0, 0, 0, 0, 0, 0, 0, 0, 0, 16, 0, 0, 0, 0, 0], stOf (stOf mbS boardF) [(fAC_CTL_EN, 0, 0)], _, _, [], rfl,
    by unfold Accepted; decide, rfl, rfl, by decide, by decide, by decide, by decide, by decide, by decide, by decide⟩⟩

theorem witness_ActMessagesAndCommandsComplete_cases :
    (∃ (owner : Nat) (s : State) (u : State) (o : Order), orderOf s owner = some o ∧ reached s o.launch = true ∧
     o.remotes ≠ [] ∧
     u = cntAdd (updOrder s owner (fun x => { x with remotes := x.remotes.map (fun r => if r.status = .waiting then { r with status := .refused } else r) })) AC_CNT_ACT_TMO (o.remotes.filter (fun r => r.status = .waiting)).length ∧ o.hasLocal = true) ∧
    (∃ (owner : Nat) (s : State) (u : State) (o : Order), orderOf s owner = some o ∧ reached s o.launch = true ∧
     o.remotes ≠ [] ∧
     u = cntAdd (updOrder s owner (fun x => { x with remotes := x.remotes.map (fun r => if r.status = .waiting then { r with status := .refused } else r) })) AC_CNT_ACT_TMO (o.remotes.filter (fun r => r.status = .waiting)).length ∧ o.hasLocal = false ∧ o.remotes.any (fun r => r.status = .queued) = true) :=
  ⟨⟨0, { State.reset with act := { State.reset.act with orders := [⟨0, 0, 0, 0, true, false, [⟨0, 0, .waiting⟩]⟩] } }, _, ⟨0,
    0, 0, 0, true, false, [⟨0, 0, .waiting⟩]⟩, by decide, by decide, by decide, rfl, by decide⟩,
    ⟨0, { State.reset with act := { State.reset.act with orders := [⟨0, 0, 0, 0, false, false, [⟨0, 0, .queued⟩]⟩] } }, _, ⟨0,
    0, 0, 0, false, false, [⟨0, 0, .queued⟩]⟩, by decide, by decide, by decide, rfl, by decide, by decide⟩⟩

theorem witness_ValveBusesComplete :
    (∃ (b : BusNo) (s : State) (p0 : Part) (l : List Part) (p : Part) (ps : List Part),
     ((busAt s b.val).queue.filter (fun p => !((busAt s b.val).frames.any (fun f => f.pids.contains p.pid))) = p0 :: l) ∧ p = l.foldl (fun a x => if Machine.sdiff x.launch a.launch < 0 then x else a) p0 ∧ Machine.sdiff p.launch (now s) ≤ 5000 ∧ ps = (p0 :: l).filter (fun x => x.board = p.board && decide (Machine.sdiff x.launch p.launch ≤ (fget s fAC_BUS_CTL_COAL (buo b.val) : Int)))) ∧
    (∃ (b : BusNo) (s : State) (u : State) (f : Frame), ((busAt s b.val).wire = .idle) ∧ nextFrame s b.val = some f ∧
     ((Machine.sdiff (now s) (minLaunch (frameParts s b.val f))).toNat ≤ 20) ∧
     u = cnt (acct (updBus s b.val (fun w => { w with queue := w.queue.filter (fun p => !(f.pids.contains p.pid)), frames := w.frames.erase f, wire := .fire f.pids })) (fun a => { a with partFired := addAt a.partFired b.val ((frameParts s b.val f).filter (fun p => !testPart p)).length })) (AC_BUS_CNT_FRAMES + buo b.val)) ∧
    (∃ (b : BusNo) (s : State), ((∀ a, (busAt s b.val).wire ≠ .poll a))) ∧
    (∃ (s : State), safeState s = true) ∧
    (∃ (s : State), safeState s = false) ∧
    (∃ (b : BusNo) (s : State), fbit s fAC_BUS_CTL_EN (buo b.val) = false ∧ safeState s = false ∧ s.rs.held = false ∧
     s.rs.asleep = false ∧ ((busAt s b.val).wire = .idle)) ∧
    (∃ (ag : Agent) (b : BusNo) (s : State), ((ag = .dennil ∨ leased s 0xA none = true)) ∧ safeState s = false) ∧
    (∃ (ag : Agent) (b : BusNo) (s : State), ((ag = .dennil ∨ leased s 0xA none = true)) ∧ safeState s = true) ∧
    (∃ (ag : Agent) (b : BusNo) (s : State), ((ag = .dennil ∨ leased s 0xA none = true)) ∧
     fbit s fAC_BUS_CTL_EN (buo b.val) = true) ∧
    (∃ (b : BusNo) (a : Fin 32) (s : State), fbit s fAC_BUS_CTL_EN (buo b.val) = true ∧
     fbit s fAC_BUS_CTL_POLL_EN (buo b.val) = true ∧ ((busAt s b.val).wire = .idle) ∧ onMap s b.val a.val = true ∧
     dueSoon s b.val = false) ∧
    (∃ (b : BusNo) (f : List Byte) (s : State) (a : Nat), ((busAt s b.val).wire = .poll a) ∧
     ((f.length ≠ 14 ∨ crc16 (f.take 12) ≠ u16At f 12 ∨ byteAt f 0 ≠ 0x80 + a))) ∧
    (∃ (b : BusNo) (f : List Byte) (s : State) (a : Nat), ((busAt s b.val).wire = .poll a) ∧ a < 32 ∧ f.length = 14 ∧
     crc16 (f.take 12) = u16At f 12 ∧ byteAt f 0 = 0x80 + a ∧ byteAt f 11 % 16 = 2) ∧
    (∃ (b : BusNo) (s : State) (u : State) (a : Nat), ((busAt s b.val).wire = .poll a) ∧
     u = cnt (updBus s b.val (fun w => { w with wire := .idle })) (AC_BUS_CNT_POLL_MISS + buo b.val)) ∧
    (∃ (b : BusNo) (f : List Byte) (s : State), ((∀ a, (busAt s b.val).wire ≠ .poll a))) :=
  ⟨⟨0, bus0 ⟨[partT], [], .idle⟩ State.reset, partT, [], _, _, by decide, rfl, by decide, rfl⟩,
    ⟨0, bus0 ⟨[partT], [⟨0, [0]⟩], .idle⟩ State.reset, _, ⟨0, [0]⟩, by decide, by decide, by decide, rfl⟩,
    ⟨0, State.reset, fun _ h => nomatch h⟩,
    ⟨(stOf (State.reset) [(fPA_STAT_SAFE, 1, 0)]), by decide⟩,
    ⟨State.reset, by decide⟩,
    ⟨0, { State.reset with rs := { State.reset.rs with held := false } }, by decide, by decide, by decide, by decide,
    by decide⟩,
    ⟨.dennil, 0, State.reset, by decide, by decide⟩,
    ⟨.dennil, 0, (stOf (State.reset) [(fPA_STAT_SAFE, 1, 0)]), by decide, by decide⟩,
    ⟨.dennil, 0, (stOf (State.reset) [(fAC_BUS_CTL_EN, 1, (buo (0 : BusNo).val))]), by decide, by decide⟩,
    ⟨0, 0, (stOf (stOf State.reset boardF) [(fAC_BUS_CTL_EN, 1, (buo (0 : BusNo).val)), (fAC_BUS_CTL_POLL_EN, 1,
    (buo (0 : BusNo).val))]), by decide, by decide, by decide, by decide, by decide⟩,
    ⟨0, [], bus0 ⟨[], [], .poll 0⟩ State.reset, 0, by decide, by decide⟩,
    ⟨0, [0x80, 0, 0, 0, 0, 0, 0, 0, 0, 0, 0, 2, 0x1A, 0x0E], bus0 ⟨[], [], .poll 0⟩ State.reset, 0, by decide, by decide,
    by decide, by decide, by decide, by decide⟩,
    ⟨0, bus0 ⟨[], [], .poll 0⟩ State.reset, _, 0, by decide, rfl⟩,
    ⟨0, [], State.reset, fun _ h => nomatch h⟩⟩

theorem witness_TimeBaseRowsComplete :
    (∃ (ag : Agent) (b : BaseNo) (src : Fin 8) (s : State), ((ag = .dennil ∨ leased s 0xB none = true)) ∧ b.val ≠ 3 ∧
     srcAllowed s b.val src.val = false) ∧
    (∃ (ag : Agent) (b : BaseNo) (src : Fin 8) (s : State), ((ag = .dennil ∨ leased s 0xB none = true)) ∧ b.val ≠ 3 ∧
     srcAllowed s b.val src.val = true) ∧
    (∃ (ag : Agent) (b : BaseNo) (s : State), ((ag = .dennil ∨ leased s 0xB none = true)) ∧ stepAllowed s b.val = true) ∧
    (∃ (ag : Agent) (b : BaseNo) (s : State), ((ag = .dennil ∨ leased s 0xB none = true)) ∧ stepAllowed s b.val = false) ∧
    (∃ (ag : Agent) (s : State) (e : Int), ((ag = .dennil ∨ leased s 0xB none = true)) ∧ t1Offset s = some e ∧
     quietUnit s = true) ∧
    (∃ (ag : Agent) (b : BaseNo) (s : State), ((ag = .dennil ∨ leased s 0xB none = true))) ∧
    (∃ (s : State) (e : Int), t1Offset s = some e ∧ tbSrc s 1 ≠ 0 ∧ ((tbase s 1).stepped = false)) ∧
    (∃ (s : State) (e : Int), t1Offset s = some e ∧ tbSrc s 1 ≠ 0 ∧ ((tbase s 1).stepped = true)) ∧
    (∃ (s : State), t1Offset s = none) ∧
    (∃ (b : BaseNo) (s : State), tbSrc s b.val ≠ 0 ∧ ((tbState s b.val = 1 ∨ tbState s b.val = 2))) ∧
    (∃ (l : Int) (x : Int), 0 ≤ l) :=
  ⟨⟨.dennil, 0, 2, State.reset, by decide, by decide, by decide⟩,
    ⟨.dennil, 0, 0, State.reset, by decide, by decide, by decide⟩,
    ⟨.dennil, 0, State.reset, by decide, by decide⟩,
    ⟨.dennil, 3, State.reset, by decide, by decide⟩,
    ⟨.dennil, State.reset, 0, by decide, by decide, by decide⟩,
    ⟨.dennil, 0, State.reset, by decide⟩,
    ⟨State.reset, 0, by decide, by decide, by decide⟩,
    ⟨{ State.reset with bases := State.reset.bases.set 1 ⟨0, 0, 0, 0, 0, 0, true⟩ }, 0, by decide, by decide, by decide⟩,
    ⟨(stOf (State.reset) [(fTB_SRV_CTL_SRC, 0, tbo 1)]), by decide⟩,
    ⟨1, (stOf (State.reset) [(fTB_STAT_STATE, 1, tbo 1)]), by decide, by decide⟩,
    ⟨0, 0, by decide⟩⟩

theorem witness_TimeBaseRowsComplete_cases :
    (∃ (b : BaseNo) (s : State), b.val < s.time.hiLatch.length) ∧
    (∃ (l : Int) (x : Int), 0 ≤ l ∧ (-l ≤ x) ∧ x ≤ l) :=
  ⟨⟨0, State.reset, by decide⟩,
    ⟨5, -5, by decide, by decide, by decide⟩⟩

theorem witness_TimeSourcesAndAlarmsComplete :
    (∃ (ph : Fin 32) (s : State), fbit s fTB_SPAN_CTL_EN = true ∧ syncDue s = true) ∧
    (∃ (p : SpanNo) (pl : List Byte) (ph : Fin 32) (gap : Nat) (s : State) (x : Exchange), upstreamPort s = some p.val ∧
     byteAt pl 0 = 1 ∧ 16 ≤ pl.length ∧ linkUp s p.val = true ∧ x = ⟨u16At pl 2,
     (u32At pl 4 + u16At pl 8 * 2 ^ 32) * 65536 + u16At pl 10, tb0Stamp s ph.val, 0, bit (byteAt pl 1) 0⟩) ∧
    (∃ (p : SpanNo) (pl : List Byte) (ph : Fin 32) (s : State), byteAt pl 0 = 2 ∧ 8 ≤ pl.length ∧ linkUp s p.val = true) ∧
    (∃ (p : SpanNo) (pl : List Byte) (s : State) (x : Exchange),
     (s.time.exch.find? (fun x => x.seq = u16At pl 2) = some x) ∧ upstreamPort s = some p.val ∧ byteAt pl 0 = 3 ∧ 16 ≤ pl.length ∧ tbSrc s 0 ≠ 1) ∧
    (∃ (s : State) (x : Exchange) (rest : List Exchange), s.time.exch = x :: rest) ∧
    (∃ (s : State), s.time.exch = []) ∧
    (∃ (s : State), ptmOn s = true) ∧
    (∃ (r : BitVec 64) (s : State) (u : State) (t0 : Nat), s.time.ptm = some t0 ∧ ptmOn s = true ∧
     u = measure 2 (sgn 48 ((r.toNat : Int) - t0) * 65536) (s.time.ptmPeriod * 1000000) { s with time := { s.time with ptm := none } }) ∧
    (∃ (rising : Bool) (s : State), fbit s fTB_PPS_CTL_EN = true ∧ rising ≠ fbit s fTB_PPS_CTL_POL ∧ ((∀ b,
     b < 3 → tbSrc s b ≠ 3))) ∧
    (∃ (rising : Bool) (s : State), ((fbit s fTB_PPS_CTL_EN = false ∨ rising = fbit s fTB_PPS_CTL_POL))) ∧
    (∃ (s : State), fbit s fTB_PPS_CTL_EN = true ∧ s.time.ppsSeen = true) ∧
    (∃ (a : Fin 8) (s : State), fbit s fTB_ALM_CTL_EN (a.val * 0x20) = true ∧ s.time.almDone.getD a.val false = false ∧
     0 ≤ almAge s a.val ∧ s.time.almPassed.getD a.val false = false ∧ rdn s (TB_ALM_PERIOD + a.val * 0x20) ≠ 0) ∧
    (∃ (sp : CmdSpec) (c : CmdCall) (s : State) (u : State) (p : Profile), sp = ⟨0x0B10, 0x10, false, 0, 0, false, true⟩ ∧
     Accepted sp c s ∧ u = mbTake c s ∧ findProfile u 0xB 0 = some p) ∧
    (∃ (sp : CmdSpec) (c : CmdCall) (s : State) (u : State), sp = ⟨0x0B11, 0x10, false, 0, 0, false, true⟩ ∧ Accepted sp c s ∧
     u = mbTake c s ∧ unitIdle u = true) ∧
    (∃ (sp : CmdSpec) (c : CmdCall) (s : State) (u : State), sp = ⟨0x0B90, 0x10, true, 16, 16, false, true⟩ ∧
     Accepted sp c s ∧ u = mbTake c s ∧ pb c 0 ≤ 2 ∧ stepAllowed u (pb c 0) = true) :=
  ⟨⟨0, (stOf (State.reset) [(fTB_SPAN_CTL_EN, 1, 0)]), by decide, by decide⟩,
    ⟨0, [1] ++ zeros 15, 0, 0, (stOf (State.reset) [(fSN_PIER_UPSTREAM, 1, 0), (fSL_STAT_STATE, 5, slo (0 : SpanNo).val)]), _,
    by decide, by decide, by decide, by decide, rfl⟩,
    ⟨0, [2] ++ zeros 7, 0, (stOf (State.reset) [(fSL_STAT_STATE, 5, slo (0 : SpanNo).val)]), by decide, by decide, by decide⟩,
    ⟨0, [3] ++ zeros 15,
    (stOf ({ State.reset with time := { State.reset.time with exch := [⟨0, 0, 0, 0, false⟩] } }) [(fSN_PIER_UPSTREAM, 1, 0)]),
    ⟨0, 0, 0, 0, false⟩, by decide, by decide, by decide, by decide, by decide⟩,
    ⟨{ State.reset with time := { State.reset.time with exch := [⟨0, 0, 0, 0, false⟩] } }, ⟨0, 0, 0, 0, false⟩, [], by decide⟩,
    ⟨State.reset, by decide⟩,
    ⟨(stOf (cfgWr State.reset 0x248 1) [(fTB_SRV_CTL_SRC, 2, tbo 2), (fTB_PTM_CTL_EN, 1, 0), (fHE_STAT_LINK_UP, 1, 0)]),
    by decide⟩,
    ⟨0#64, (stOf (cfgWr { State.reset with time := { State.reset.time with ptm := some 0 } } 0x248 1) [(fTB_SRV_CTL_SRC, 2,
    tbo 2), (fTB_PTM_CTL_EN, 1, 0), (fHE_STAT_LINK_UP, 1, 0)]), _, 0, by decide, by decide, rfl⟩,
    ⟨true, (stOf (State.reset) [(fTB_PPS_CTL_EN, 1, 0)]), by decide, by decide, by decide⟩,
    ⟨false, State.reset, by decide⟩,
    ⟨(stOf ({ State.reset with time := { State.reset.time with ppsSeen := true } }) [(fTB_PPS_CTL_EN, 1, 0)]), by decide,
    by decide⟩,
    ⟨0, (stOf (State.reset) [(fTB_ALM_CTL_EN, 1, ((0 : Fin 8).val * 0x20)), (⟨(TB_ALM_PERIOD + (0 : Fin 8).val * 0x20), 31,
    0⟩, 1, 0)]), by decide, by decide, by decide, by decide, by decide⟩,
    ⟨_, (cc []), prf [⟨0xB, 0, [], [], 0⟩] mbS, _, ⟨0xB, 0, [], [], 0⟩, rfl, by unfold Accepted; decide, rfl, by decide⟩,
    ⟨_, (cc []), mbS, _, rfl, by unfold Accepted; decide, rfl, by decide⟩,
    ⟨_, (cc (zeros 16)), mbS, _, rfl, by unfold Accepted; decide, rfl, by decide, by decide⟩⟩

theorem witness_StepsAddToTheirBase :
    ∃ (b : Nat) (d : Int) (s : State), b < 4 ∧ ((tbase s b).ns < 2 ^ 32) ∧ ((tbase s b).wrap < 65536) :=
  ⟨0, 0, State.reset, by decide, by decide, by decide⟩

theorem witness_SpanBringUpCompletes :
    (∃ (p : SpanNo) (cut : Fin 3) (s : State), slState (fbset s fSL_CTL_EN true (slo p.val)) p.val = 0) ∧
    (∃ (p : SpanNo) (en : Bool) (cut : Fin 3) (s : State), fbit s fSL_CTL_EN (slo p.val) ≠ en) ∧
    (∃ (p : SpanNo) (term : BitVec 4) (s : State), slState s p.val = 1 ∧ term.toNat.land (lanePort s p.val).laneEn ≠ 0) ∧
    (∃ (p : SpanNo) (lk : BitVec 4) (inv : BitVec 4) (s : State), slState s p.val = 2 ∧ ((lanePort s p.val).attempt ≠ 0) ∧
     ((lanePort s p.val).attempt.land lk.toNat = (lanePort s p.val).attempt)) ∧
    (∃ (p : SpanNo) (lk : BitVec 4) (inv : BitVec 4) (s : State) (m : Nat), slState s p.val = 2 ∧
     m = (lanePort s p.val).attempt.land lk.toNat ∧ m ≠ 0 ∧ m ≠ (lanePort s p.val).attempt) ∧
    (∃ (p : SpanNo) (ok : BitVec 4) (pl : List (Fin 4)) (s : State), slState s p.val = 3 ∧
     ((lanePort s p.val).attempt.land ok.toNat ≠ 0)) ∧
    (∃ (p : SpanNo) (x : List Byte) (n : Fin 5) (s : State) (u : State), slState s p.val = 4 ∧ x.length = 14 ∧
     crc16 (x.take 12) = u16At x 12 ∧ bit (byteAt x 5) 0 = true ∧ exchCount s p.val (byteAt x 4 % 16) ≠ 0 ∧
     min 0x12 (byteAt x 1) < max 0x10 (byteAt x 0) ∧
     u = wrn (wrn (wrn (sendExch p.val true s) (SL_PARTNER0 + slo p.val) (u32At x 0)) (SL_PARTNER1 + slo p.val) (u32At x 4)) (SL_PARTNER_SN + slo p.val) (u32At x 8)) ∧
    (∃ (p : SpanNo) (x : List Byte) (n : Fin 5) (s : State) (u : State), slState s p.val = 4 ∧ x.length = 14 ∧
     crc16 (x.take 12) = u16At x 12 ∧ bit (byteAt x 5) 0 = true ∧ exchCount s p.val (byteAt x 4 % 16) ≠ 0 ∧
     max 0x10 (byteAt x 0) ≤ min 0x12 (byteAt x 1) ∧
     u = wrn (wrn (wrn (sendExch p.val true s) (SL_PARTNER0 + slo p.val) (u32At x 0)) (SL_PARTNER1 + slo p.val) (u32At x 4)) (SL_PARTNER_SN + slo p.val) (u32At x 8) ∧
     fget u fSL_STAT_RATE (slo p.val) = 3) ∧
    (∃ (p : SpanNo) (lk : BitVec 4) (s : State), 3 ≤ slState s p.val ∧ slState s p.val ≤ 4) :=
  ⟨⟨0, 0, State.reset, by decide⟩,
    ⟨0, false, 0, State.reset, by decide⟩,
    ⟨0, 1, (stOf (lan0 ⟨0, 0, false, [], 1, 1, 1, [], none⟩ State.reset) [(fSL_STAT_STATE, 1, slo (0 : SpanNo).val)]),
    by decide, by decide⟩,
    ⟨0, 1, 0#4, (stOf (lan0 ⟨1, 1, false, [], 1, 1, 1, [], none⟩ State.reset) [(fSL_STAT_STATE, 2, slo (0 : SpanNo).val)]),
    by decide, by decide, by decide⟩,
    ⟨0, 1, 0#4, (stOf (lan0 ⟨3, 3, false, [], 3, 1, 1, [], none⟩ State.reset) [(fSL_STAT_STATE, 2, slo (0 : SpanNo).val)]), 1,
    by decide, rfl, by decide, by decide⟩,
    ⟨0, 1, [], (stOf (lan0 ⟨1, 1, false, [], 1, 1, 1, [], none⟩ State.reset) [(fSL_STAT_STATE, 3, slo (0 : SpanNo).val)]),
    by decide, by decide⟩,
    ⟨0, ([0x13, 0x13, 0, 0, 1, 1, 0, 0, 0, 0, 0, 0] : List Byte) ++ leBytes 2 (crc16 [0x13, 0x13, 0, 0, 1, 1, 0, 0, 0, 0, 0,
    0]), 0, (stOf (lan0 ⟨1, 1, false, [], 1, 1, 1, [], none⟩ State.reset) [(fSL_STAT_STATE, 4, slo (0 : SpanNo).val)]), _,
    by decide, by decide, by decide, by decide, by decide, by decide, rfl⟩,
    ⟨0, ([0x10, 0x12, 0, 0, 1, 1, 0, 0, 0, 0, 0, 0] : List Byte) ++ leBytes 2 (crc16 [0x10, 0x12, 0, 0, 1, 1, 0, 0, 0, 0, 0,
    0]), 0, (stOf (lan0 ⟨1, 1, false, [], 1, 1, 1, [], none⟩ State.reset) [(fSL_STAT_STATE, 4, slo (0 : SpanNo).val),
    (fSL_STAT_RATE, 3, (slo (0 : SpanNo).val)), (fSL_STAT_RATE, 3, 0)]), _, by decide, by decide, by decide, by decide,
    by decide, by decide, rfl, by decide⟩,
    ⟨0, 0#4, (stOf (State.reset) [(fSL_STAT_STATE, 4, 0)]), by decide, by decide⟩⟩

theorem witness_SpanLinkEventsComplete :
    (∃ (p : SpanNo) (k : Fin 4) (cv : Nat) (disp : Nat) (miss : Bool) (cut : Fin 3) (s : State) (u : State),
     u = laneErrors p.val k.val cv disp s ∧ ((miss = true ∨ (0 < cv + disp ∧
     (lanePort s p.val).thr ≤ windowErrors u p.val k.val)))) ∧
    (∃ (p : SpanNo) (k : Fin 4) (cv : Nat) (disp : Nat) (cut : Fin 3) (s : State) (u : State),
     u = laneErrors p.val k.val cv disp s ∧ ((cv + disp = 0 ∨ windowErrors u p.val k.val < (lanePort s p.val).thr))) ∧
    (∃ (p : SpanNo) (k : Fin 4) (cut : Fin 3) (s : State) (u : State), linkUp s p.val = true ∧
     fbit s fSL_LANE_STAT_USED (slo p.val + 4 * k.val) = true ∧
     u = evt (fbset s fSL_LANE_STAT_FAILED true (slo p.val + 4 * k.val)) fSL_EVT_LANE_FAIL (slo p.val)) ∧
    (∃ (p : SpanNo) (cut : Fin 3) (s : State), linkUp s p.val = true) ∧
    (∃ (p : SpanNo) (full : Bool) (cut : Fin 3) (s : State), linkUp (fbset s fSL_CTL_FULL full (slo p.val)) p.val = true ∧
     linkUp s p.val = true) ∧
    (∃ (p : SpanNo) (cv : List Nat) (disp : List Nat) (os : Nat) (s : State) (u : State), portLive s p.val = true ∧
     u = cntAdd (forEach (List.range 4) (fun k => laneErrors p.val k (nth cv k) (nth disp k)) s) (SL_CNT_OS_ERR + slo p.val) os ∧ ((∀ k, k < 4 → nth cv k + nth disp k = 0 ∨ windowErrors u p.val k < (lanePort s p.val).thr))) ∧
    (∃ (p : SpanNo) (d : List Byte) (s : State) (u : State), linkUp s p.val = true ∧ d.length = 24 ∧ ((∀ c,
     c < 6 → u16At d (4 * c) = nth (netPort s p.val).rcvd c % 65536)) ∧
     u = setNetPort s p.val (fun x => { x with rcvd := (List.range 6).map (fun c => u16At d (4 * c)), freed := (List.range 6).map (fun c => u16At d (4 * c + 2)), ownFreed := (List.range 6).map (fun c => nth x.ownFreed c % 65536) })) ∧
    (∃ (p : SpanNo) (cut : Fin 3) (s : State), linkUp s p.val = false) ∧
    (∃ (ag : Agent) (p : SpanNo) (v : Word) (s : State), ((ag = .dennil ∨ leased s 0xC none = true))) ∧
    (∃ (p : SpanNo) (v : Nat) (s : State), fbit s fSL_EYE_CTL_BUSY (slo p.val) = false ∧ bit v 31 = true ∧
     linkUp s p.val = true ∧ bits v 27 26 < lanesUsed s p.val) ∧
    (∃ (p : SpanNo) (e : Nat) (s : State), fbit s fSL_EYE_CTL_BUSY (slo p.val) = true ∧ ((lanePort s p.val).grid = none)) ∧
    (∃ (sp : CmdSpec) (c : CmdCall) (s : State) (u : State), sp = ⟨0x0C10, 0x10, false, 8, 8, false, true⟩ ∧ Accepted sp c s ∧
     u = mbTake c s ∧ pb c 0 < 2 ∧ fbit u fSL_CTL_EN (slo (pb c 0)) = true) ∧
    (∃ (sp : CmdSpec) (c : CmdCall) (s : State) (u : State), sp = ⟨0x0C11, 0x12, false, 16, 16, false, true⟩ ∧
     Accepted sp c s ∧ u = mbTake c s ∧ pb c 0 < 2 ∧ fbit u fSL_CTL_EN (slo (pb c 0)) = true ∧ 20 ≤ pb c 4 ∧ pb c 4 ≤ 44 ∧
     linkUp u (pb c 0) = true ∧ pb c 1 < lanesUsed u (pb c 0) ∧ 1 ≤ pb c 2 ∧ pb c 2 ≤ 64 ∧ 1 ≤ pb c 3 ∧ pb c 3 ≤ 64) ∧
    (∃ (sp : CmdSpec) (c : CmdCall) (s : State) (u : State), sp = ⟨0x0C90, 0x10, true, 16, 16, false, true⟩ ∧
     Accepted sp c s ∧ u = mbTake c s ∧ pb c 0 < 2 ∧ fbit u fSL_CTL_EN (slo (pb c 0)) = true) :=
  ⟨⟨0, 0, 0, 0, true, 0, State.reset, _, rfl, by decide⟩,
    ⟨0, 0, 0, 0, 0, State.reset, _, rfl, by decide⟩,
    ⟨0, 0, 0, (stOf (State.reset) [(fSL_STAT_STATE, 5, slo (0 : SpanNo).val), (fSL_LANE_STAT_USED, 1,
    (slo (0 : SpanNo).val + 4 * (0 : Fin 4).val))]), _, by decide, by decide, rfl⟩,
    ⟨0, 0, (stOf (State.reset) [(fSL_STAT_STATE, 5, slo (0 : SpanNo).val)]), by decide⟩,
    ⟨0, false, 0, (stOf (State.reset) [(fSL_STAT_STATE, 5, slo (0 : SpanNo).val)]), by decide, by decide⟩,
    ⟨0, [], [], 0, (stOf (State.reset) [(fSL_STAT_STATE, 5, 0)]), _, by decide, rfl, by decide⟩,
    ⟨0, zeros 24, (stOf (State.reset) [(fSL_STAT_STATE, 5, slo (0 : SpanNo).val)]), _, by decide, by decide, by decide, rfl⟩,
    ⟨0, 0, State.reset, by decide⟩,
    ⟨.dennil, 0, 0#32, State.reset, by decide⟩,
    ⟨0, 0x80000000, (stOf (State.reset) [(fSL_STAT_STATE, 5, slo (0 : SpanNo).val), (fSL_STAT_COUNT, 1, 0)]), by decide,
    by decide, by decide, by decide⟩,
    ⟨0, 0, (stOf (State.reset) [(fSL_EYE_CTL_BUSY, 1, (slo (0 : SpanNo).val))]), by decide, by decide⟩,
    ⟨_, (cc (zeros 8)), (stOf (mbS) [(fSL_CTL_EN, 1, (slo (pb ((cc (zeros 8)) : CmdCall) 0)))]), _, rfl,
    by unfold Accepted; decide, rfl, by decide, by decide⟩,
    ⟨_, cc [0, 0, 1, 1, 20, 0, 0, 0, 0, 0, 0, 0, 0, 0, 0, 0], (stOf (mbS) [(fSL_CTL_EN, 1, (slo (pb (cc [0, 0, 1, 1, 20, 0, 0,
    0, 0, 0, 0, 0, 0, 0, 0, 0] : CmdCall) 0))), (fSL_STAT_STATE, 5, slo (pb (cc [0, 0, 1, 1, 20, 0, 0, 0, 0, 0, 0, 0, 0, 0, 0,
    0] : CmdCall) 0)), (fSL_STAT_COUNT, 1, 0)]), _, rfl, by unfold Accepted; decide, rfl, by decide, by decide, by decide,
    by decide, by decide, by decide, by decide, by decide, by decide, by decide⟩,
    ⟨_, (cc (zeros 16)), (stOf (mbS) [(fSL_CTL_EN, 1, (slo (pb ((cc (zeros 16)) : CmdCall) 0)))]), _, rfl,
    by unfold Accepted; decide, rfl, by decide, by decide⟩⟩

theorem witness_SpanPacketsComplete :
    (∃ (p : SpanNo) (raw : List Byte) (bad : Bool) (poison : Bool) (ph : Fin 32) (gap : Nat) (d : Bool) (s : State),
     linkUp s p.val = true ∧ ((raw.length < 16 ∨ crc16 (raw.take 14) ≠ u16At raw 14))) ∧
    (∃ (p : SpanNo) (raw : List Byte) (ph : Fin 32) (gap : Nat) (d : Bool) (s : State) (u : State) (k : SpanPkt),
     linkUp s p.val = true ∧ 16 ≤ raw.length ∧ crc16 (raw.take 14) = u16At raw 14 ∧ k = parsePkt raw ∧ k.cls = clsMGMT ∧
     creditExempt k = true ∧ u16At raw 6 ≤ 2048 ∧ raw.length = 20 + u16At raw 6 ∧
     crc32 (raw.take (raw.length - 4)) = u32At raw (raw.length - 4) ∧ bit k.flags 1 = true ∧
     u = cnt s (SN_CNT_RX + sno p.val) ∧ notCarried u p.val k = false) ∧
    (∃ (p : SpanNo) (s : State) (t : TxItem) (fwd : Bool), nextTx s p.val = some (t, fwd) ∧ t.timed = false) ∧
    (∃ (p : SpanNo) (s : State), nextTx s p.val = none) ∧
    (∃ (p : SpanNo) (pl : List Byte) (s : State) (u : State) (v : State) (w : State), linkUp s p.val = true ∧
     byteAt pl 0 = 1 ∧ 32 ≤ pl.length ∧
     u = upstreamUpdate (syncAvail p.val (fset (fset (fset (setNetPort s p.val (fun n => { n with partner := some (parseHello pl), helloRx := true, grant := if !(netPort s p.val).helloRx then (List.range 6).map (fun c => u16At pl (12 + 2 * c)) else n.grant })) fSN_PARTNER_PIER_VALID ((parseHello pl).flags % 2) (sno p.val)) fSN_PARTNER_PIER ((parseHello pl).pier % 1024) (sno p.val)) fSN_PARTNER_FLOOR (parseHello pl).floor (sno p.val))) ∧ (v = (if ¬ isKeystone u ∧ upstreamPort u = some p.val ∧ (parseHello pl).floor ≠ 0 then fset u fSN_CHAIN_FLOOR (parseHello pl).floor else u))) ∧
    (∃ (p : SpanNo) (pl : List Byte) (s : State), linkUp s p.val = true ∧ byteAt pl 0 = 2 ∧ 16 ≤ pl.length) ∧
    (∃ (p : SpanNo) (s : State), linkUp s p.val = true ∧ ((netPort s p.val).ownFreed ≠ (netPort s p.val).reported)) ∧
    (∃ (p : SpanNo) (s : State), ((netPort s p.val).ownFreed = (netPort s p.val).reported)) :=
  ⟨⟨0, [], false, false, 0, 0, false, (stOf (State.reset) [(fSL_STAT_STATE, 5, slo (0 : SpanNo).val)]), by decide, by decide⟩,
    ⟨0, rawP ([0, 6, 0, 0, 0, 0, 4, 0, 0, 0, 0, 0, 0, 0] : List Byte) [1, 0, 0, 0], 0, 0, false,
    (stOf (State.reset) [(fSL_STAT_STATE, 5, slo (0 : SpanNo).val)]), _, _, by decide, by decide, by decide, rfl, by decide,
    by decide, by decide, by decide, by decide, by decide, rfl, by decide⟩,
    ⟨0,
    (stOf (setNetPort State.reset 0 (fun n => { n with helloRx := true, grant := List.replicate 6 64, txLocal := [[], [⟨⟨1, 2, 0, 0, 0, 0, 0, []⟩, none, false, false⟩], [], [], [], []] })) [(fSL_STAT_STATE,
    5, 0)]), ⟨⟨1, 2, 0, 0, 0, 0, 0, []⟩, none, false, false⟩, false, by decide, by decide⟩,
    ⟨0, State.reset, by decide⟩,
    ⟨0, [1] ++ zeros 31, (stOf (State.reset) [(fSL_STAT_STATE, 5, slo (0 : SpanNo).val)]), _, _, State.reset, by decide,
    by decide, by decide, rfl, rfl⟩,
    ⟨0, [2] ++ zeros 15, (stOf (State.reset) [(fSL_STAT_STATE, 5, slo (0 : SpanNo).val)]), by decide, by decide, by decide⟩,
    ⟨0,
    (stOf (setNetPort State.reset 0 (fun n => { n with ownFreed := [1, 0, 0, 0, 0, 0] })) [(fSL_STAT_STATE, 5, slo (0 : SpanNo).val)]), by decide, by decide⟩,
    ⟨0, State.reset, by decide⟩⟩

theorem witness_SpanPacketsComplete_cases :
    (∃ (p : SpanNo) (pl : List Byte) (s : State) (u : State) (v : State) (w : State), linkUp s p.val = true ∧
     byteAt pl 0 = 1 ∧ 32 ≤ pl.length ∧
     u = upstreamUpdate (syncAvail p.val (fset (fset (fset (setNetPort s p.val (fun n => { n with partner := some (parseHello pl), helloRx := true, grant := if !(netPort s p.val).helloRx then (List.range 6).map (fun c => u16At pl (12 + 2 * c)) else n.grant })) fSN_PARTNER_PIER_VALID ((parseHello pl).flags % 2) (sno p.val)) fSN_PARTNER_PIER ((parseHello pl).pier % 1024) (sno p.val)) fSN_PARTNER_FLOOR (parseHello pl).floor (sno p.val))) ∧ (v = (if ¬ isKeystone u ∧ upstreamPort u = some p.val ∧ (parseHello pl).floor ≠ 0 then fset u fSN_CHAIN_FLOOR (parseHello pl).floor else u)) ∧ dualKeystone v p.val = true) ∧
    (∃ (p : SpanNo) (pl : List Byte) (s : State) (u : State) (v : State) (w : State), linkUp s p.val = true ∧
     byteAt pl 0 = 1 ∧ 32 ≤ pl.length ∧
     u = upstreamUpdate (syncAvail p.val (fset (fset (fset (setNetPort s p.val (fun n => { n with partner := some (parseHello pl), helloRx := true, grant := if !(netPort s p.val).helloRx then (List.range 6).map (fun c => u16At pl (12 + 2 * c)) else n.grant })) fSN_PARTNER_PIER_VALID ((parseHello pl).flags % 2) (sno p.val)) fSN_PARTNER_PIER ((parseHello pl).pier % 1024) (sno p.val)) fSN_PARTNER_FLOOR (parseHello pl).floor (sno p.val))) ∧ (v = (if ¬ isKeystone u ∧ upstreamPort u = some p.val ∧ (parseHello pl).floor ≠ 0 then fset u fSN_CHAIN_FLOOR (parseHello pl).floor else u)) ∧ dualKeystone v p.val = false ∧ isKeystone v = false ∧ w = helloOnChange s (hostKeep v)) :=
  ⟨⟨0, [1, 2] ++ zeros 30, (stOf (State.reset) [(fSL_STAT_STATE, 5, slo (0 : SpanNo).val), (fSN_PIER_KEYSTONE, 1, 0)]), _, _,
    State.reset, by decide, by decide, by decide, rfl, rfl, by decide +kernel⟩,
    ⟨0, [1] ++ zeros 31,
    (stOf (setNetPort State.reset 0 (fun n => { n with helloRx := true })) [(fSL_STAT_STATE, 5, slo (0 : SpanNo).val)]), _, _, _, by decide, by decide, by decide, rfl, rfl, by decide +kernel, by decide +kernel, rfl⟩⟩

theorem witness_EnumerationAndNetworkComplete :
    (∃ (p : SpanNo) (pl : List Byte) (s : State) (u : State) (v : State), linkUp s p.val = true ∧ byteAt pl 0 = 3 ∧
     16 ≤ pl.length ∧ u32At pl 4 = s.net.serial ∧ isKeystone s = false ∧ u16At pl 2 < 1024 ∧
     u = (if pierValid s then s else takePier (u16At pl 2) s) ∧
     v = fbset (setUpstream (p.val + 1) (upstreamUpdate u)) fSN_PIER_FLIP (if byteAt pl 1 == 0 then p.val == 0 else p.val == 1)) ∧
    (∃ (pl : List Byte) (s : State), byteAt pl 0 = 4 ∧ 8 ≤ pl.length ∧ isKeystone s = true) ∧
    (∃ (p : SpanNo) (hops : Nat) (i : Nat) (pl : List Byte) (s : State) (h : PierHold), byteAt pl 0 = 5 ∧ 16 ≤ pl.length ∧
     isKeystone s = true ∧ u16At pl 2 % 1024 ≠ 0 ∧ holdOf s (u16At pl 2 % 1024) = some (i, h) ∧ h.serial = u32At pl 4) ∧
    (∃ (p : SpanNo) (hops : Nat) (pl : List Byte) (s : State) (u : State), byteAt pl 0 = 5 ∧ 16 ≤ pl.length ∧
     isKeystone s = true ∧ holdOf s (u16At pl 2 % 1024) = none ∧ u16At pl 2 % 1024 ≠ 0 ∧
     u = holdInsert (dropTransparent (u32At pl 4) s) (hops - 1) (reported (p.val == 0) pl ⟨u16At pl 2 % 1024, 0, true,
     p.val == 0, false, 0, 0, 0, false⟩)) ∧
    (∃ (p : SpanNo) (hops : Nat) (pl : List Byte) (s : State), byteAt pl 0 = 5 ∧ 16 ≤ pl.length ∧ isKeystone s = true ∧
     u16At pl 2 % 1024 = 0) ∧
    (∃ (pl : List Byte) (s : State), byteAt pl 0 = 6 ∧ 8 + 2 * u16At pl 2 ≤ pl.length ∧ isKeystone s = false) ∧
    (∃ (p : SpanNo) (pl : List Byte) (s : State), byteAt pl 0 = 7 ∧ 16 ≤ pl.length ∧ isKeystone s = true) ∧
    (∃ (pl : List Byte) (s : State), byteAt pl 0 = 8 ∧ 16 ≤ pl.length ∧ isKeystone s = false ∧ 1024 ≤ u16At pl 2 ∧
     u32At pl 4 = s.net.serial ∧ pierValid s = true) ∧
    (∃ (pl : List Byte) (s : State) (p : Nat), byteAt pl 0 = 8 ∧ 16 ≤ pl.length ∧ isKeystone s = false ∧ u16At pl 2 < 1024 ∧
     ([0,
     1].find? (fun p => unnumberedPartner s p && (match (netPort s p).partner with | some h => h.serial == u32At pl 4 | none => false)) = some p)) ∧
    (∃ (pl : List Byte) (s : State) (u : State), byteAt pl 0 = 9 ∧ isKeystone s = false ∧
     u = fset (fbset (if pierValid s then evt s fSN_EVT_PIER else s) fSN_PIER_VALID false) fSN_PIER_PIER_ID 0) ∧
    (∃ (p : SpanNo) (pl : List Byte) (s : State), ((netPort s p.val).bulkWait = []) ∧ bulkCan s p.val pl = true) ∧
    (∃ (p : SpanNo) (pl : List Byte) (s : State), ((netPort s p.val).bulkWait = []) ∧ bulkCan s p.val pl = false) ∧
    (∃ (sp : CmdSpec) (c : CmdCall) (s : State) (u : State), sp = ⟨0x0D10, 0x10, false, 12, 12, false, true⟩ ∧
     Accepted sp c s ∧ u = mbTake c s ∧ u.net.lastChain.length ≤ pd c 8 ∧ hostReady c u = true) ∧
    (∃ (sp : CmdSpec) (c : CmdCall) (s : State) (u : State) (v : State), sp = ⟨0x0D11, 0x10, false, 0, 0, false, true⟩ ∧
     Accepted sp c s ∧ u = mbTake c s ∧ isKeystone u = true ∧ notIdle u = none ∧
     v = netBcast u clsMGMT flCTRL [9#8 :: zeros 7]) ∧
    (∃ (sp : CmdSpec) (c : CmdCall) (s : State) (u : State), sp = ⟨0x0D12, 0x10, false, 3, 8, false, true⟩ ∧ Accepted sp c s ∧
     u = mbTake c s ∧ bit (pb c 2) 0 = false ∧ hasHostLink u (pw c 0) = true ∧ 0x12 ≤ fget u fSN_CHAIN_FLOOR) ∧
    (∃ (sp : CmdSpec) (c : CmdCall) (s : State) (u : State), sp = ⟨0x0D12, 0x10, false, 3, 8, false, true⟩ ∧ Accepted sp c s ∧
     u = mbTake c s ∧ bit (pb c 2) 0 = true ∧ 0x12 ≤ fget u fSN_CHAIN_FLOOR) ∧
    (∃ (sp : CmdSpec) (c : CmdCall) (s : State) (u : State), sp = ⟨0x0D90, 0x10, true, 16, 16, false, true⟩ ∧
     Accepted sp c s ∧ u = mbTake c s ∧ pb c 0 < 2 ∧ 33 ≤ pw c 4 ∧ 1 ≤ pw c 6 ∧ 33 ≤ pw c 8 ∧ 33 ≤ pw c 10 ∧ 33 ≤ pw c 12 ∧
     33 ≤ pw c 14 ∧ pw c 4 + pw c 6 + pw c 8 + pw c 10 + pw c 12 + pw c 14 ≤ 1024) :=
  ⟨⟨0, [3] ++ zeros 15, (stOf (State.reset) [(fSL_STAT_STATE, 5, slo (0 : SpanNo).val)]), _, _, by decide, by decide,
    by decide, by decide, by decide, by decide, rfl, rfl⟩,
    ⟨[4] ++ zeros 7, (stOf (State.reset) [(fSN_PIER_KEYSTONE, 1, 0)]), by decide, by decide, by decide⟩,
    ⟨0, 0, 0, [5, 0, 1, 0] ++ zeros 12,
    (stOf ({ State.reset with net := { State.reset.net with holds := [⟨1, 0, true, true, false, 0, 0, 0, false⟩] } }) [(fSN_PIER_KEYSTONE,
    1, 0)]), ⟨1, 0, true, true, false, 0, 0, 0, false⟩, by decide, by decide, by decide, by decide, by decide, by decide⟩,
    ⟨0, 0, [5, 0, 1, 0] ++ zeros 12, (stOf (State.reset) [(fSN_PIER_KEYSTONE, 1, 0)]), _, by decide, by decide, by decide,
    by decide, by decide, rfl⟩,
    ⟨0, 0, [5] ++ zeros 15, (stOf (State.reset) [(fSN_PIER_KEYSTONE, 1, 0)]), by decide, by decide, by decide, by decide⟩,
    ⟨[6] ++ zeros 7, State.reset, by decide, by decide, by decide⟩,
    ⟨0, [7, 0, 1, 0] ++ zeros 12, (stOf (State.reset) [(fSN_PIER_KEYSTONE, 1, 0)]), by decide, by decide, by decide⟩,
    ⟨[8, 0, 0, 4] ++ zeros 12, (stOf (State.reset) [(fSN_PIER_VALID, 1, 0)]), by decide, by decide, by decide, by decide,
    by decide, by decide⟩,
    ⟨[8, 0, 1, 0] ++ zeros 12,
    (stOf (setNetPort State.reset 0 (fun n => { n with partner := some ⟨0, 0, 0, 0, 0, 0⟩ })) [(fSL_STAT_STATE, 5, 0)]), 0,
    by decide, by decide, by decide, by decide, by decide⟩,
    ⟨[9] ++ zeros 7, State.reset, _, by decide, by decide, rfl⟩,
    ⟨0, [], State.reset, by decide, by decide⟩,
    ⟨0, [0], (stOf (State.reset) [(fTO_CTL_EN, 1, 0), (⟨TO_AVAIL + tollOfs 40 0, 31, 0⟩, 0, 0)]), by decide, by decide⟩,
    ⟨_, cc [0, 0, 0, 0, 0, 0, 0, 0, 0, 16, 0, 0], mbS, _, rfl, by unfold Accepted; decide, rfl, by decide, by decide⟩,
    ⟨_, (cc []), (stOf (mbS) [(fSN_PIER_KEYSTONE, 1, 0)]), _, _, rfl, by unfold Accepted; decide, rfl, by decide, by decide,
    rfl⟩,
    ⟨_, (cc (zeros 3)), (stOf ({ mbS with net := { mbS.net with chain := [⟨0, false, true, true⟩] } }) [(fSN_CHAIN_FLOOR,
    0x12, 0)]), _, rfl, by unfold Accepted; decide, rfl, by decide, by decide, by decide⟩,
    ⟨_, cc [0, 0, 1], (stOf (mbS) [(fSN_CHAIN_FLOOR, 0x12, 0)]), _, rfl, by unfold Accepted; decide, rfl, by decide,
    by decide⟩,
    ⟨_, cc [0, 0, 0, 0, 33, 0, 1, 0, 33, 0, 33, 0, 33, 0, 33, 0], mbS, _, rfl, by unfold Accepted; decide, rfl, by decide,
    by decide, by decide, by decide, by decide, by decide, by decide, by decide⟩⟩

theorem witness_EnumerationAndNetworkComplete_cases :
    (∃ (pl : List Byte) (s : State), byteAt pl 0 = 4 ∧ 8 ≤ pl.length ∧ isKeystone s = true ∧ s.net.stage = .east ∧
     byteAt pl 1 = 0) ∧
    (∃ (pl : List Byte) (s : State), byteAt pl 0 = 4 ∧ 8 ≤ pl.length ∧ isKeystone s = true ∧ s.net.stage = .west ∧
     byteAt pl 1 = 1) ∧
    (∃ (s : State), s.net.stage = .idle) ∧
    (∃ (s : State), s.net.stage = .east) ∧
    (∃ (s : State), s.net.stage = .west) ∧
    (∃ (p : SpanNo) (pl : List Byte) (s : State), byteAt pl 0 = 7 ∧ 16 ≤ pl.length ∧ isKeystone s = true ∧ s.net.stage = .idle) ∧
    (∃ (p : SpanNo) (pl : List Byte) (s : State), byteAt pl 0 = 7 ∧ 16 ≤ pl.length ∧ isKeystone s = true ∧ s.net.stage ≠ .idle) :=
  ⟨⟨[4] ++ zeros 7, (stOf ({ State.reset with net := { State.reset.net with stage := .east } }) [(fSN_PIER_KEYSTONE, 1, 0)]),
    by decide, by decide, by decide, by decide, by decide⟩,
    ⟨[4, 1] ++ zeros 6, (stOf ({ State.reset with net := { State.reset.net with stage := .west } }) [(fSN_PIER_KEYSTONE, 1,
    0)]), by decide, by decide, by decide, by decide, by decide⟩,
    ⟨State.reset, by decide⟩,
    ⟨{ State.reset with net := { State.reset.net with stage := .east } }, by decide⟩,
    ⟨{ State.reset with net := { State.reset.net with stage := .west } }, by decide⟩,
    ⟨0, [7, 0, 1, 0] ++ zeros 12, (stOf (State.reset) [(fSN_PIER_KEYSTONE, 1, 0)]), by decide, by decide, by decide,
    by decide⟩,
    ⟨0, [7, 0, 1, 0] ++ zeros 12,
    (stOf ({ State.reset with net := { State.reset.net with stage := .east } }) [(fSN_PIER_KEYSTONE, 1, 0)]), by decide,
    by decide, by decide, by decide⟩⟩

theorem witness_RegisterWritesComplete :
    (∃ (ag : Agent) (a : BitVec 24) (v : Word) (be : BitVec 4) (s : State), isTable (a.toNat / 4 * 4) = false ∧
     findRow (a.toNat / 4 * 4) = none) ∧
    (∃ (a : BitVec 24) (v : Word) (s : State) (r : RegRow) (act : Nat) (n : Nat), n = a.toNat / 4 * 4 ∧ isTable n = false ∧
     findRow n = some r ∧ act = ((((if rwlLocked s n then 0 else r.rwl).lor r.rw).lor r.w1c).lor r.w1s).lor r.wo ∧
     ((byteMask 15).land act ≠ 0)) ∧
    (∃ (a : BitVec 24) (v : Word) (s : State) (r : RegRow) (act : Nat) (n : Nat), n = a.toNat / 4 * 4 ∧ isTable n = false ∧
     findRow n = some r ∧ act = ((((if rwlLocked s n then 0 else r.rwl).lor r.rw).lor r.w1c).lor r.w1s).lor r.wo ∧
     ((byteMask 15).land act ≠ 0) ∧ leaseAdmits s n r = true) ∧
    (∃ (a : BitVec 24) (v : Word) (be : BitVec 4) (s : State) (r : RegRow) (act : Nat) (kept : Nat) (v1 : Nat) (n : Nat),
     n = a.toNat / 4 * 4 ∧ be.toNat ≠ 0 ∧ isTable n = false ∧ findRow n = some r ∧ kept = (r.rw.lor r.rwl).lor r.wo ∧
     act = ((((if rwlLocked s n then 0 else r.rwl).lor r.rw).lor r.w1c).lor r.w1s).lor r.wo ∧
     ((byteMask be.toNat).land act ≠ 0) ∧ leaseAdmits s n r = false ∧
     (((byteMask be.toNat).land act).land (hostBits n r) = 0) ∧
     v1 = blend ((byteMask be.toNat).land act) v.toNat ((rdn s n).land kept) ∧
     v1.lor r.wo ≠ (blend (hostBits n r) v1 ((rdn s n).land kept)).lor r.wo) ∧
    (∃ (ag : Agent) (a : BitVec 24) (v : Word) (be : BitVec 4) (s : State) (r : RegRow), isTable (a.toNat / 4 * 4) = false ∧
     findRow (a.toNat / 4 * 4) = some r ∧
     ((byteMask be.toNat).land (((((if rwlLocked s (a.toNat / 4 * 4) then 0 else r.rwl).lor r.rw).lor r.w1c).lor r.w1s).lor r.wo) = 0)) ∧
    (∃ (a : BitVec 24) (v : Word) (be : BitVec 4) (s : State), be.toNat ≠ 0 ∧ isTable (a.toNat / 4 * 4) = true ∧
     be.toNat % 4 ≠ 0 ∧ be.toNat / 4 ≠ 0) :=
  ⟨⟨.dennil, 0x1FFFF0, 0#32, 0#4, State.reset, by decide, by decide⟩,
    ⟨0x10000C, 0#32, State.reset, ⟨"PP_TS_ADJ", 12, 1, 4, 1, 4, .por, true, 0, 0xFFFFFFFF, 0, 0, 0, 0, 0, 0⟩, _, _, rfl,
    by decide, by decide, rfl, by decide⟩,
    ⟨0x10000C, 1, stOf { mbS with mb := { mbS.mb with leases := [⟨0, 1000000⟩] } } [(⟨MB_LEASE, 31, 31⟩, 1, 0),
    (fMB_LEASE_FUNCTION, 2, 0), (fMB_LEASE_PORTS, 1, 0)], ⟨"PP_TS_ADJ", 12, 1, 4, 1, 4, .por, true, 0, 0xFFFFFFFF, 0, 0, 0, 0,
    0, 0⟩, _, _, rfl, by decide, by decide, rfl, by decide, by decide⟩,
    ⟨0x10000C, 1, 15, State.reset, ⟨"PP_TS_ADJ", 12, 1, 4, 1, 4, .por, true, 0, 0xFFFFFFFF, 0, 0, 0, 0, 0, 0⟩, _, _, _, _,
    rfl, by decide, by decide, by decide, rfl, rfl, by decide, by decide, by decide, rfl, by decide⟩,
    ⟨.dennil, 0#24, 0#32, 0#4, State.reset, ⟨"HE_ID", 0, 1, 4, 1, 4, .por, false, 0x16640000, 0, 0, 0, 0, 0, 0, 0⟩, by decide,
    by decide, by decide⟩,
    ⟨0x600000, 0#32, 5, State.reset, by decide, by decide, by decide, by decide⟩⟩

theorem witness_HostRequestsAndTagsComplete :
    (∃ (w : Bool) (dw : BitVec 10) (be : BitVec 4) (v : Word) (tag : BitVec 10) (s : State), fbit s fHE_STAT_LINK_UP = true) ∧
    (∃ (w : Bool) (dw : BitVec 10) (be : BitVec 4) (v : Word) (tag : BitVec 10) (s : State), fbit s fHE_STAT_LINK_UP = true ∧
     fbit s fHE_STAT_FLR_BUSY = true) ∧
    (∃ (dw : BitVec 10) (be : BitVec 4) (v : Word) (tag : BitVec 10) (s : State), fbit s fHE_STAT_LINK_UP = true ∧
     fbit s fHE_STAT_FLR_BUSY = false) ∧
    (∃ (dw : BitVec 10) (be : BitVec 4) (v : Word) (tag : BitVec 10) (s : State), fbit s fHE_STAT_LINK_UP = true ∧
     fbit s fHE_STAT_FLR_BUSY = false) ∧
    (∃ (win : HostWindow) (dw : BitVec 34) (n : BitVec 10) (f : BitVec 4) (l : BitVec 4) (d : List Byte) (tag : BitVec 10) (po : Bool) (bad : ReadCheck) (s : State),
     win ≠ .dennil ∧ fbit s fHE_STAT_LINK_UP = true ∧ bit (cfgRd s 0x04) 1 = false) ∧
    (∃ (dw : BitVec 34) (f : BitVec 4) (d : List Byte) (tag : BitVec 10) (bad : ReadCheck) (s : State),
     fbit s fHE_STAT_LINK_UP = true ∧ fbit s fHE_STAT_FLR_BUSY = false ∧ fbit s fHE_STAT_D3 = false ∧
     bit (cfgRd s 0x04) 1 = true ∧ 4 * dw.toNat + 4 ≤ 2 ^ 24) ∧
    (∃ (dw : BitVec 34) (d : List Byte) (tag : BitVec 10) (bad : ReadCheck) (s : State) (t : State) (v : Nat),
     fbit s fHE_STAT_LINK_UP = true ∧ fbit s fHE_STAT_FLR_BUSY = false ∧ fbit s fHE_STAT_D3 = false ∧
     bit (cfgRd s 0x04) 1 = true ∧ 4 * dw.toNat + 4 ≤ 2 ^ 24 ∧ w0Read (4 * dw.toNat) (bad == .failed) s = (t, v)) ∧
    (∃ (win : HostWindow) (dw : BitVec 34) (f : BitVec 4) (d : List Byte) (tag : BitVec 10) (bad : ReadCheck) (s : State),
     fbit s fHE_STAT_LINK_UP = true ∧ fbit s fHE_STAT_FLR_BUSY = false ∧ fbit s fHE_STAT_D3 = false ∧
     bit (cfgRd s 0x04) 1 = true ∧ win ≠ .dennil ∧ 4 * dw.toNat + 4 ≤ windowSize s win) ∧
    (∃ (tag : BitVec 10) (st : Fin 3) (d : List Byte) (s : State), npOf s tag.toNat = none ∧
     s.he.quar.any (fun q => q.tag == tag.toNat && q.silent) = false) ∧
    (∃ (tag : BitVec 10) (st : Fin 3) (d : List Byte) (s : State) (r : NpReq), npOf s tag.toNat = some r ∧ r.void = true) ∧
    (∃ (tag : BitVec 10) (st : Fin 3) (d : List Byte) (s : State) (r : NpReq), npOf s tag.toNat = some r ∧ r.void = false ∧
     st ≠ 0) ∧
    (∃ (tag : BitVec 10) (d : List Byte) (s : State) (r : NpReq), npOf s tag.toNat = some r ∧ r.void = false) ∧
    (∃ (tag : BitVec 10) (s : State) (r : NpReq), npOf s tag.toNat = some r) ∧
    (∃ (e : Fin 8) (st : Fin 3) (v : Word) (s : State) (t : Nat), ((s.ab.dr.getD e.val none).bind (fun d => d.tag) = some t)) ∧
    (∃ (s : State), fget s fHE_STAT_NP_OUT = 0 ∧ fget s fHE_TAG_STAT_POOL ≠ wantedPool s) ∧
    (∃ (s : State), ((fget s fHE_STAT_NP_OUT ≠ 0 ∨ fget s fHE_TAG_STAT_POOL = wantedPool s))) :=
  ⟨⟨false, 0#10, 0#4, 0#32, 0#10, (stOf (State.reset) [(fHE_STAT_LINK_UP, 1, 0)]), by decide⟩,
    ⟨false, 0#10, 0#4, 0#32, 0#10, (stOf (State.reset) [(fHE_STAT_LINK_UP, 1, 0), (fHE_STAT_FLR_BUSY, 1, 0)]), by decide,
    by decide⟩,
    ⟨0#10, 0#4, 0#32, 0#10, (stOf (State.reset) [(fHE_STAT_LINK_UP, 1, 0)]), by decide, by decide⟩,
    ⟨0#10, 0#4, 0#32, 0#10, (stOf (State.reset) [(fHE_STAT_LINK_UP, 1, 0)]), by decide, by decide⟩,
    ⟨.w0, 0#34, 0#10, 0#4, 0#4, [], 0#10, false, ReadCheck.good, (stOf (State.reset) [(fHE_STAT_LINK_UP, 1, 0)]), by decide,
    by decide, by decide⟩,
    ⟨0#34, 0#4, [], 0#10, ReadCheck.good, (stOf (memS) [(fHE_STAT_LINK_UP, 1, 0)]), by decide, by decide, by decide,
    by decide, by decide⟩,
    ⟨0#34, [], 0#10, ReadCheck.good, (stOf (memS) [(fHE_STAT_LINK_UP, 1, 0)]), memS, 0x16640000, by decide, by decide,
    by decide, by decide, by decide, by decide⟩,
    ⟨.w0, 0#34, 0#4, [], 0#10, ReadCheck.good, (stOf (memS) [(fHE_STAT_LINK_UP, 1, 0)]), by decide, by decide, by decide,
    by decide, by decide, by decide⟩,
    ⟨0#10, 0, [], State.reset, by decide, by decide⟩,
    ⟨0#10, 0, [], reqS [⟨0, .verdict, 0, true⟩] State.reset, ⟨0, .verdict, 0, true⟩, by decide, by decide⟩,
    ⟨0#10, 1, [], reqS [⟨0, .verdict, 0, false⟩] State.reset, ⟨0, .verdict, 0, false⟩, by decide, by decide, by decide⟩,
    ⟨0#10, [], reqS [⟨0, .verdict, 0, false⟩] State.reset, ⟨0, .verdict, 0, false⟩, by decide, by decide⟩,
    ⟨0#10, reqS [⟨0, .verdict, 0, false⟩] State.reset, ⟨0, .verdict, 0, false⟩, by decide⟩,
    ⟨0, 0, 0#32, { State.reset with ab := { State.reset.ab with dr := [some ⟨0, 15, 0, 0, 0, some 0, none⟩] } }, 0, by decide⟩,
    ⟨(stOf (State.reset) [(fHE_TAG_STAT_POOL, 1, 0)]), by decide, by decide⟩,
    ⟨State.reset, by decide⟩⟩

theorem witness_HostLinkAndResetsComplete :
    (∃ (sp : BitVec 3) (w : BitVec 5) (s : State), s.rs.held = false ∧ s.he.perst = true ∧ fbit s fHE_STAT_LINK_UP = false) ∧
    (∃ (s : State), bme s = true) ∧
    (∃ (s : State), bme s = false) ∧
    (∃ (s : State), bme s = false ∧ fbit s fHE_STAT_FLR_BUSY = false) ∧
    (∃ (s : State), fbit s fHE_STAT_D3 = false) ∧
    (∃ (s : State), fbit s fHE_STAT_FLR_BUSY = false) ∧
    (∃ (s : State), fbit s fHE_STAT_FLR_BUSY = true ∧ s.he.silenced = false ∧ s.he.reqs = [] ∧ s.tiles.allocs = []) ∧
    (∃ (s : State), fbit s fHE_STAT_FLR_BUSY = true ∧ s.he.silenced = true) ∧
    (∃ (s : State), dennilUp s = true ∧ fbit s fHE_STAT_ROM_READY = true) ∧
    (∃ (k : Fin 16) (c : BitVec 16) (e : BitVec 6) (s : State), fbit s fHE_STAT_LINK_UP = true ∧ 4 ≤ fget s fHE_STAT_SPEED ∧
     k.val < fget s fHE_STAT_WIDTH ∧ bits c.toNat 5 3 = 1 ∧ bits c.toNat 15 8 = 0x89 ∧ ((c.toNat % 8 = 0 ∨ c.toNat % 8 = 6))) ∧
    (∃ (k : Fin 16) (c : BitVec 16) (e : BitVec 6) (s : State), fbit s fHE_STAT_LINK_UP = false) :=
  ⟨⟨0#3, 0#5, { State.reset with rs := { State.reset.rs with held := false }, he := { State.reset.he with perst := true } },
    by decide, by decide, by decide⟩,
    ⟨dmaS, by decide⟩,
    ⟨State.reset, by decide⟩,
    ⟨State.reset, by decide, by decide⟩,
    ⟨State.reset, by decide⟩,
    ⟨State.reset, by decide⟩,
    ⟨(stOf (State.reset) [(fHE_STAT_FLR_BUSY, 1, 0)]), by decide, by decide, by decide, by decide⟩,
    ⟨(stOf ({ State.reset with he := { State.reset.he with silenced := true } }) [(fHE_STAT_FLR_BUSY, 1, 0)]), by decide,
    by decide⟩,
    ⟨(stOf (State.reset) [(fMB_DENNIL_STAT_STATE, 2, 0), (fHE_STAT_ROM_READY, 1, 0)]), by decide, by decide⟩,
    ⟨0, 0x8908, 0#6, (stOf (State.reset) [(fHE_STAT_LINK_UP, 1, 0), (fHE_STAT_SPEED, 4, 0), (fHE_STAT_WIDTH, 16, 0)]),
    by decide, by decide, by decide, by decide, by decide, by decide⟩,
    ⟨0, 0#16, 0#6, State.reset, by decide⟩⟩

theorem witness_ChannelsOpenAndClose :
    (∃ (ch : ChanNo) (s : State), ((chState s ch.val = 0 ∨ chState s ch.val = 3))) ∧
    (∃ (ch : ChanNo) (s : State), chState s ch.val = 1 ∧ dennilUp (clearToken ch.val s) = false) ∧
    (∃ (ch : ChanNo) (s : State) (u : State), chState s ch.val = 1 ∧ u = clearToken ch.val s ∧ dennilUp u = true ∧
     max 0x10 (fget u fMB_HIV_OFFER_MIN (mbo ch.val)) ≤ min 0x16 (fget u fMB_HIV_OFFER_MAX (mbo ch.val)) ∧
     1 ≤ fget u fMB_CTL_CMD_SIZE (mbo ch.val) ∧ fget u fMB_CTL_CMD_SIZE (mbo ch.val) ≤ 12 ∧
     1 ≤ fget u fMB_CTL_CPL_SIZE (mbo ch.val) ∧ fget u fMB_CTL_CPL_SIZE (mbo ch.val) ≤ 12 ∧ tokenWritten s ch.val = zeros 16) ∧
    (∃ (ch : ChanNo) (tail : BitVec 12) (s : State), s.rs.asleep = false ∧
     tail.toNat < 2 ^ fget s fMB_CTL_CMD_SIZE (mbo ch.val)) ∧
    (∃ (ch : ChanNo) (tail : BitVec 12) (s : State), s.rs.asleep = false ∧
     2 ^ fget s fMB_CTL_CMD_SIZE (mbo ch.val) ≤ tail.toNat) ∧
    (∃ (ch : ChanNo) (s : State), chState s ch.val = 1) ∧
    (∃ (ch : ChanNo) (s : State) (u : State), chState s ch.val = 2 ∧
     u = mbForget ch.val (forEach ((deferredAll s).filter (fun x => x.1 == ch.val)) deferredClose s)) :=
  ⟨⟨0, State.reset, by decide⟩,
    ⟨0, (stOf (State.reset) [(fMB_STAT_STATE, 1, 0)]), by decide, by decide⟩,
    ⟨0, (stOf (State.reset) [(fMB_DENNIL_STAT_STATE, 2, 0), (fMB_STAT_STATE, 1, 0), (fMB_HIV_OFFER_MIN, 0x10, 0),
    (fMB_HIV_OFFER_MAX, 0x16, 0), (fMB_CTL_CMD_SIZE, 4, 0), (fMB_CTL_CPL_SIZE, 4, 0)]), _, by decide, rfl, by decide,
    by decide, by decide, by decide, by decide, by decide, by decide⟩,
    ⟨0, 1, State.reset, by decide, by decide⟩,
    ⟨0, 0xFFF, State.reset, by decide, by decide⟩,
    ⟨0, (stOf (State.reset) [(fMB_STAT_STATE, 1, 0)]), by decide⟩,
    ⟨0, mbS, _, by decide, rfl⟩⟩

theorem witness_CompletionsAndEventsAreWritten :
    (∃ (ch : ChanNo) (s : State) (e : List Byte) (l : List (List Byte)), ((chan s ch.val).cpls = e :: l) ∧
     ringLive s ch.val = true ∧ cplFree s ch.val ≠ 0 ∧ tollCan s 36 entryCost = true) ∧
    (∃ (ch : ChanNo) (s : State) (e : List Byte) (l : List (List Byte)), ((chan s ch.val).events = e :: l) ∧
     ringLive s ch.val = true ∧ cplRoom s ch.val = true ∧ tollCan s 36 entryCost = true) ∧
    (∃ (ch : ChanNo) (s : State), ((chan s ch.val).cpls = [])) ∧
    (∃ (ch : ChanNo) (s : State), ((chan s ch.val).events = [])) ∧
    (∃ (ch : ChanNo) (k : Nat) (tag : Nat) (res : List Byte) (s : State), chOpen s ch.val = true ∧
     ((chan s ch.val).events.length < 256)) ∧
    (∃ (ch : ChanNo) (k : Nat) (tag : Nat) (res : List Byte) (s : State), chOpen s ch.val = true ∧
     256 ≤ (chan s ch.val).events.length) :=
  ⟨⟨0, chS (fun h => { h with cpls := [zeros 64] }) mbS, zeros 64, [], by decide, by decide, by decide, by decide⟩,
    ⟨0, chS (fun h => { h with events := [zeros 64] }) mbS, zeros 64, [], by decide, by decide, by decide, by decide⟩,
    ⟨0, State.reset, by decide⟩,
    ⟨0, State.reset, by decide⟩,
    ⟨0, 0, 0, [], (stOf (mbS) [(fMB_STAT_STATE, 2, mbo (0 : ChanNo).val)]), by decide, by decide⟩,
    ⟨0, 0, 0, [],
    (stOf (chS (fun h => { h with events := List.replicate 256 [] }) mbS) [(fMB_STAT_STATE, 2, mbo (0 : ChanNo).val)]), by decide, by decide⟩⟩

theorem witness_CommandsAreTakenAndRefusedInOrder :
    (∃ (sp : CmdSpec) (run : CmdCall → State → State × CmdRes) (c : CmdCall) (s : State) (st : Nat), c.origin = none ∧
     mbGate c s = true ∧ checkHeader sp c (mbTake c s) = some st) ∧
    (∃ (sp : CmdSpec) (run : CmdCall → State → State × CmdRes) (c : CmdCall) (s : State) (st : Nat), c.origin = none ∧
     mbGate c s = true ∧ checkHeader sp c (mbTake c s) = none ∧ isRemote c (mbTake c s) = false ∧
     checkScope sp c (mbTake c s) = some st) ∧
    (∃ (sp : CmdSpec) (run : CmdCall → State → State × CmdRes) (c : CmdCall) (s : State), c.origin = none ∧ mbGate c s = false) ∧
    (∃ (sp : CmdSpec) (run : CmdCall → State → State × CmdRes) (c : CmdCall) (s : State) (st : Nat) (d : Nat),
     Accepted sp c s ∧ ((run c (mbTake c s)).2 = .refuse st d)) :=
  ⟨⟨⟨0x0F10, 0x10, false, 0, 0, false, true⟩, fun _ s => (s, .silent), ⟨none, 0, 0x17, 0, 0, 0, 0, [], [], [], 0, 0⟩, mbS,
    eVERSION, by decide, by decide, by decide⟩,
    ⟨⟨0x0F14, 0x10, false, 8, 8, false, false⟩,
    fun _ s => (s, .silent), cc [], mbS, eLENGTH, by decide, by decide, by decide, by decide, by decide⟩,
    ⟨⟨0x0F10, 0x10, false, 0, 0, false, true⟩, fun _ s => (s, .silent), (cc []), State.reset, by decide, by decide⟩,
    ⟨⟨0x0F10, 0x10, false, 0, 0, false, true⟩,
    fun _ s => (s, .refuse eSTATE 0), cc [], mbS, eSTATE, 0, by unfold Accepted; decide, by decide⟩⟩

theorem witness_CommandsAreTakenAndRefusedInOrder_cases :
    (∃ (ch : ChanNo) (op : Nat) (st : Nat) (tag : Nat) (detail : Nat) (res : List Byte) (s : State), st = 0) ∧
    (∃ (ch : ChanNo) (op : Nat) (st : Nat) (tag : Nat) (detail : Nat) (res : List Byte) (s : State), st ≠ 0) :=
  ⟨⟨0, 0, 0, 0, 0, [], mbS, rfl⟩,
    ⟨0, 0, 6, 0, 0, [], mbS, by decide⟩⟩

theorem witness_ExecutorRowsComplete :
    (∃ (e : List Byte) (ind : List Byte) (d : List Byte) (n : List Int) (s : State) (ch : Fin 4), nextServed s = some ch ∧
     ((chan s ch.val).fetched = [])) ∧
    (∃ (e : List Byte) (ind : List Byte) (d : List Byte) (n : List Int) (s : State) (ch : Fin 4) (f : List Byte),
     nextServed s = some ch ∧ ((chan s ch.val).fetched = f) ∧ 64 ≤ f.length) ∧
    (∃ (e : List Byte) (ind : List Byte) (d : List Byte) (n : List Int) (s : State), nextServed s = none) ∧
    (∃ (ch : Fin 5) (tag : Word) (ok : Bool) (back : Option (Nat × Byte)) (s : State) (x : Nat × Deferred),
     ((deferredAll s).find? (fun x => x.1 == ch.val && x.2.call.tag == tag.toNat) = some x)) ∧
    (∃ (ch : Fin 5) (tag : Word) (ok : Bool) (back : Option (Nat × Byte)) (s : State),
     ((deferredAll s).find? (fun x => x.1 == ch.val && x.2.call.tag == tag.toNat) = none)) ∧
    (∃ (sp : CmdSpec) (c : CmdCall) (s : State) (u : State) (x : Nat × Deferred), sp = ⟨0x0F15, 0x15, false, 8, 8, false,
     true⟩ ∧ Accepted sp c s ∧ u = mbTake c s ∧ abortTarget c u = some x ∧ x.2.canStop = true) ∧
    (∃ (sp : CmdSpec) (c : CmdCall) (s : State), sp = ⟨0x0F11, 0x10, false, 0, 0, false, true⟩ ∧ Accepted sp c s) ∧
    (∃ (src : BitVec 10) (op : BitVec 16) (call : CmdCall) (s : State), dennilUp s = true) ∧
    (∃ (src : BitVec 10) (n : BitVec 16) (s : State), dennilUp s = true) ∧
    (∃ (src : BitVec 10) (m : DennilMsg) (s : State), dennilUp s = false) :=
  ⟨⟨[], [], [], [], mbS, 0, by decide, by decide⟩,
    ⟨[], [], [], [], chS (fun h => { h with fetched := zeros 64 }) mbS, 0, zeros 64, by decide, by decide, by decide⟩,
    ⟨[], [], [], [], State.reset, by decide⟩,
    ⟨0, 0#32, false, none,
    chS (fun h => { h with deferred := [dfr 0x0F13 (cc (zeros 20))] }) mbS, (0, dfr 0x0F13 (cc (zeros 20))), by decide⟩,
    ⟨0, 0#32, false, none, State.reset, by decide⟩,
    ⟨_, (cc (zeros 8)),
    chS (fun h => { h with deferred := [dfr 0x0F13 (cc (zeros 20))] }) mbS, _, (0, dfr 0x0F13 (cc (zeros 20))), rfl, by unfold Accepted; decide, rfl, by decide, by decide⟩,
    ⟨_, (cc []), mbS, rfl, by unfold Accepted; decide⟩,
    ⟨0#10, 0#16, (cc []), (stOf (State.reset) [(fMB_DENNIL_STAT_STATE, 2, 0)]), by decide⟩,
    ⟨0#10, 0#16, (stOf (State.reset) [(fMB_DENNIL_STAT_STATE, 2, 0)]), by decide⟩,
    ⟨0#10, .valves 1, State.reset, by decide⟩⟩

theorem witness_ExecutorRowsComplete_cases :
    (∃ (ch : Fin 5) (tag : Word) (ok : Bool) (back : Option (Nat × Byte)) (s : State) (x : Nat × Deferred),
     ((deferredAll s).find? (fun x => x.1 == ch.val && x.2.call.tag == tag.toNat) = some x) ∧ x.2.waitsBme = true) ∧
    (∃ (ch : Fin 5) (tag : Word) (ok : Bool) (back : Option (Nat × Byte)) (s : State) (x : Nat × Deferred),
     ((deferredAll s).find? (fun x => x.1 == ch.val && x.2.call.tag == tag.toNat) = some x) ∧ x.2.waitsBme = false ∧ x.2.opcode = 0x0F13 ∧ back = none) ∧
    (∃ (ch : Fin 5) (tag : Word) (ok : Bool) (back : Option (Nat × Byte)) (s : State) (x : Nat × Deferred),
     ((deferredAll s).find? (fun x => x.1 == ch.val && x.2.call.tag == tag.toNat) = some x) ∧ x.2.waitsBme = false ∧ x.2.opcode ∉ [0x0210, 0x0F13, 0x1210, 0x1211, 0x1290]) ∧
    (∃ (ch : Fin 5) (tag : Word) (ok : Bool) (back : Option (Nat × Byte)) (s : State) (x : Nat × Deferred) (i : Nat) (y : Byte),
     ((deferredAll s).find? (fun x => x.1 == ch.val && x.2.call.tag == tag.toNat) = some x) ∧ x.2.waitsBme = false ∧ x.2.opcode = 0x0F13 ∧ back = some (i, y) ∧ ((fwSlot s (byteAt x.2.call.payload 0)).img[i]? ≠ some y)) :=
  ⟨⟨0, 0#32, false, none,
    chS (fun h => { h with deferred := [{ dfr 0x0C11 (cc (zeros 16)) with waitsBme := true }] }) mbS, (0, { dfr 0x0C11 (cc (zeros 16)) with waitsBme := true }), by decide, by decide⟩,
    ⟨0, 0#32, false, _,
    chS (fun h => { h with deferred := [dfr 0x0F13 (cc (zeros 20))] }) mbS, (0, dfr 0x0F13 (cc (zeros 20))), by decide, by decide, by decide, rfl⟩,
    ⟨0, 0#32, false, none,
    chS (fun h => { h with deferred := [dfr 0x0C11 (cc (zeros 16))] }) mbS, (0, dfr 0x0C11 (cc (zeros 16))), by decide, by decide, by decide⟩,
    ⟨0, 0#32, false, some (0, 1),
    chS (fun h => { h with deferred := [dfr 0x0F13 (cc (zeros 20))] }) mbS, (0, dfr 0x0F13 (cc (zeros 20))), 0, 1, by decide, by decide, by decide, rfl, by decide⟩⟩

theorem witness_MailboxCommandsComplete :
    (∃ (sp : CmdSpec) (c : CmdCall) (s : State) (u : State), sp = ⟨0x0F10, 0x10, false, 0, 0, false, true⟩ ∧ Accepted sp c s ∧
     u = mbTake c s) ∧
    (∃ (sp : CmdSpec) (c : CmdCall) (s : State) (u : State), sp = ⟨0x0F12, 0x10, false, 16, 16, false, false⟩ ∧
     Accepted sp c s ∧ u = mbTake c s ∧ c.payload.take 16 ≠ zeros 16 ∧ u.ev.token = [] ∧ evRunning u = true ∧
     ((numAt c 0).toNat % 8 ≠ 7)) ∧
    (∃ (sp : CmdSpec) (c : CmdCall) (s : State) (u : State), sp = ⟨0x0F13, 0x10, false, 20, 20, false, false⟩ ∧
     Accepted sp c s ∧ u = mbTake c s ∧ pb c 0 < 2 ∧ fget u fRS_BOOT_BOOTED ≠ pb c 0 ∧ hostCanRead c u = true ∧
     c.data.length = pd c 16 ∧ imageValid u c.data (numAt c 0 == 1) = true) ∧
    (∃ (sp : CmdSpec) (c : CmdCall) (s : State) (u : State), sp = ⟨0x0F14, 0x10, false, 8, 8, false, false⟩ ∧
     Accepted sp c s ∧ u = mbTake c s ∧ pb c 0 ≤ 2 ∧ ((fwSlot u (pb c 0)).st = 1)) ∧
    (∃ (sp : CmdSpec) (c : CmdCall) (s : State) (u : State), sp = ⟨0x0F16, 0x16, false, 8, 8, false, true⟩ ∧ Accepted sp c s ∧
     u = mbTake c s) ∧
    (∃ (sp : CmdSpec) (c : CmdCall) (s : State) (u : State) (i : Nat) (ports : Nat), sp = ⟨0x0F90, 0x10, true, 8, 8, false,
     false⟩ ∧ Accepted sp c s ∧ u = mbTake c s ∧ ports = (if leasePerPort (pb c 0) then pw c 2 else 0) ∧
     leasable (pb c 0) = true ∧ 1 ≤ pd c 4 ∧ pd c 4 ≤ 60000 ∧ ((∀ k, k < 32 → leaseClash u (pb c 0) ports k = false)) ∧
     leaseBusy u (pb c 0) ports = false ∧ (((leasesOf u c.chan.val).filter (leaseHeld u)).length < 8) ∧
     ((List.range 32).find? (fun i => !fbit u fMB_LEASE_HELD (i * 4)) = some i)) ∧
    (∃ (sp : CmdSpec) (c : CmdCall) (s : State) (u : State), sp = ⟨0x0F91, 0x10, true, 8, 8, false, false⟩ ∧ Accepted sp c s ∧
     u = mbTake c s ∧ holdsLease c (pb c 0) u = true) ∧
    (∃ (sp : CmdSpec) (c : CmdCall) (s : State) (u : State), sp = ⟨0x0F92, 0x14, true, 8, 8, false, false⟩ ∧ Accepted sp c s ∧
     u = mbTake c s ∧ holdsLease c (pb c 0) u = true ∧ 1 ≤ pd c 4 ∧ pd c 4 ≤ 60000) ∧
    (∃ (i : Fin 32) (s : State), leaseLeft s i.val ≤ 0 ∧ fbit s fMB_LEASE_HELD (i.val * 4) = true) ∧
    (∃ (i : Fin 32) (s : State), 0 < leaseLeft s i.val) ∧
    (∃ (s : State), cwServes s = true) ∧
    (∃ (s : State), cwServes s = true) ∧
    (∃ (sig : Bool) (k : ReadCheck) (a : Nat) (s : State), cwUp s = true ∧ s.mb.cwProg = none ∧ causeway s = false) ∧
    (∃ (sig : Bool) (k : ReadCheck) (a : Nat) (s : State) (u : State) (img : List Byte), cwUp s = true ∧ s.mb.cwProg = none ∧
     causeway s = true ∧ u = lp5Check k a s ∧ img = lp5Bytes u (cwArg u 0 + 2 ^ 32 * cwArg u 1) (cwArg u 2) ∧
     imageValid u img sig = true ∧ k ≠ .failed) ∧
    (∃ (sig : Bool) (k : ReadCheck) (a : Nat) (s : State) (u : State) (img : List Byte), cwUp s = true ∧ s.mb.cwProg = none ∧
     causeway s = true ∧ u = lp5Check k a s ∧ img = lp5Bytes u (cwArg u 0 + 2 ^ 32 * cwArg u 1) (cwArg u 2) ∧
     bits (cwArg u 3) 1 0 = 0 ∧ ((imageValid u img sig = false ∨ k = .failed))) :=
  ⟨⟨_, (cc []), mbS, _, rfl, by unfold Accepted; decide, rfl⟩,
    ⟨_, cc ((zeros 15) ++ [1#8]) [0], (stOf (mbS) [(fEV_STAT_STATE, 2, 0)]), _, rfl, by unfold Accepted; decide, rfl,
    by decide, by decide, by decide, by decide⟩,
    ⟨_, { cc (zeros 16 ++ leBytes 4 352) [1] with data := img0 }, { mbS with mb := { mbS.mb with keys := 15 } }, _, rfl,
    by unfold Accepted; decide, rfl, by decide, by decide, by decide, by decide, by decide⟩,
    ⟨_, (cc (zeros 8)), { mbS with ev := { mbS.ev with slots := [⟨1, img0⟩] } }, _, rfl, by unfold Accepted; decide, rfl,
    by decide, by decide⟩,
    ⟨_, (cc (zeros 8)), mbS, _, rfl, by unfold Accepted; decide, rfl⟩,
    ⟨_, cc [2, 0, 1, 0, 100, 0, 0, 0], mbS, _, 0, _, rfl, by unfold Accepted; decide, rfl, rfl, by decide, by decide,
    by decide, by decide, by decide, by decide, by decide⟩,
    ⟨_, (cc (zeros 8)), (stOf ({ mbS with mb := { mbS.mb with leases := [⟨0, 1000000⟩] } }) [(⟨MB_LEASE, 31, 31⟩, 1, 0)]), _,
    rfl, by unfold Accepted; decide, rfl, by decide⟩,
    ⟨_, cc [0, 0, 0, 0, 100, 0, 0, 0], (stOf ({ mbS with mb := { mbS.mb with leases := [⟨0, 1000000⟩] } }) [(⟨MB_LEASE, 31,
    31⟩, 1, 0)]), _, rfl, by unfold Accepted; decide, rfl, by decide, by decide, by decide⟩,
    ⟨0, (stOf (State.reset) [(fMB_LEASE_HELD, 1, ((0 : Fin 32).val * 4)), (⟨MB_LEASE, 31, 31⟩, 1, 0)]), by decide, by decide⟩,
    ⟨0, { State.reset with mb := { State.reset.mb with leases := [⟨0, 1000000⟩] } }, by decide⟩,
    ⟨cwS State.reset, by decide⟩,
    ⟨cwS State.reset, by decide⟩,
    ⟨false, ReadCheck.good, 0, cwS (stOf State.reset [(fMB_DENNIL_STAT_STATE, 2, 0)]), by decide, by decide, by decide⟩,
    ⟨true, ReadCheck.good, 0,
    (stOf ({ lpS (cwS State.reset) with mb := { State.reset.mb with keys := 15 } }) [(⟨MB_CW_ARG + 8, 31, 0⟩, 352, 0)]), _, _,
    by decide, by decide, by decide, rfl, rfl, by decide, by decide⟩,
    ⟨false, ReadCheck.good, 0, cwS State.reset, _, _, by decide, by decide, by decide, rfl, rfl, by decide, by decide⟩⟩

theorem witness_MailboxCommandsComplete_cases :
    (∃ (sig : Bool) (k : ReadCheck) (a : Nat) (s : State) (u : State) (img : List Byte), cwUp s = true ∧ s.mb.cwProg = none ∧
     causeway s = true ∧ u = lp5Check k a s ∧ img = lp5Bytes u (cwArg u 0 + 2 ^ 32 * cwArg u 1) (cwArg u 2) ∧
     imageValid u img sig = true ∧ k ≠ .failed ∧ bits (cwArg u 3) 1 0 = 0) ∧
    (∃ (sig : Bool) (k : ReadCheck) (a : Nat) (s : State) (u : State) (img : List Byte), cwUp s = true ∧ s.mb.cwProg = none ∧
     causeway s = true ∧ u = lp5Check k a s ∧ img = lp5Bytes u (cwArg u 0 + 2 ^ 32 * cwArg u 1) (cwArg u 2) ∧
     imageValid u img sig = true ∧ k ≠ .failed ∧ bits (cwArg u 3) 1 0 = 2) ∧
    (∃ (sig : Bool) (k : ReadCheck) (a : Nat) (s : State) (u : State) (img : List Byte), cwUp s = true ∧ s.mb.cwProg = none ∧
     causeway s = true ∧ u = lp5Check k a s ∧ img = lp5Bytes u (cwArg u 0 + 2 ^ 32 * cwArg u 1) (cwArg u 2) ∧
     imageValid u img sig = true ∧ k ≠ .failed ∧ bits (cwArg u 3) 1 0 = 1 ∧ bits (cwArg u 3) 9 8 ≤ 1 ∧ evRunning u = true) ∧
    (∃ (op : Nat) (st : Nat) (d : List Nat) (s : State), fbit s fMB_CW_CMD_BUSY = false) :=
  ⟨⟨true, ReadCheck.good, 0,
    (stOf ({ lpS (cwS State.reset) with mb := { State.reset.mb with keys := 15 } }) [(⟨MB_CW_ARG + 8, 31, 0⟩, 352, 0)]), _, _,
    by decide, by decide, by decide, rfl, rfl, by decide, by decide, by decide⟩,
    ⟨true, ReadCheck.good, 0,
    (stOf ({ lpS (cwS State.reset) with mb := { State.reset.mb with keys := 15 } }) [(⟨MB_CW_ARG + 8, 31, 0⟩, 352, 0),
    (⟨MB_CW_ARG + 12, 31, 0⟩, 2, 0)]), _, _, by decide, by decide, by decide, rfl, rfl, by decide, by decide, by decide⟩,
    ⟨true, ReadCheck.good, 0,
    (stOf ({ lpS (cwS State.reset) with mb := { State.reset.mb with keys := 15 } }) [(fEV_STAT_STATE, 2, 0), (⟨MB_CW_ARG + 8,
    31, 0⟩, 352, 0), (⟨MB_CW_ARG + 12, 31, 0⟩, 1, 0)]), _, _, by decide, by decide, by decide, rfl, rfl, by decide, by decide,
    by decide, by decide, by decide⟩,
    ⟨0, 0, [], State.reset, by decide⟩⟩

theorem witness_TwoWireRowsComplete :
    (∃ (ag : Agent) (b : TwNo) (v : BitVec 32) (s : State) (u : State), ((ag = .dennil ∨ leased s 0x10 none = true)) ∧
     u = putWord (TW_CMD + two b.val) (v.toNat % 2 ^ 30) s ∧ fbit u fTW_CMD_BUSY (two b.val) = false) ∧
    (∃ (b : TwNo) (s : State) (u : State) (r : TwRun), twController s b.val = true ∧ twFree s b.val = true ∧
     ((twSt s b.val).run = .none) ∧ (u = (if (twSt s b.val).again = .none ∧ b.val < 4 then slotSend b.val s else s)) ∧
     r = twReady u b.val ∧ r ≠ .none) ∧
    (∃ (b : TwNo) (n : Nat) (d : List Byte) (data : List Byte) (y : BitVec 8) (i : Fin 8) (s : State) (u : State),
     ((twSt s b.val).run = .cmd) ∧ u = twStop b.val s ∧ data = d.take (twReadLen u b.val d) ∧ data.length ≤ 255) ∧
    (∃ (b : TwNo) (n : Nat) (w : Nat) (d : List Byte) (x : Option (BitVec 8)) (y : BitVec 8) (i : Fin 8) (s : State),
     ((twSt s b.val).run ≠ .none) ∧ ((twSt s b.val).run ≠ .stopping) ∧ w = min n (fget s fTW_CMD_WLEN (two b.val))) ∧
    (∃ (b : TwNo) (n : Nat) (d : List Byte) (x : Option (BitVec 8)) (st : Fin 5) (y : BitVec 8) (i : Fin 8) (s : State),
     ((twSt s b.val).run = .stopping)) ∧
    (∃ (b : TwNo) (y : Nat) (i : Nat) (s : State) (u : State), ((twSt s b.val).run ≠ .none) ∧
     ((twSt s b.val).run ≠ .stopping) ∧ twRetries (twSt s b.val) < fget s fTW_CFG_RETRY (two b.val) ∧
     u = twArbLoss b.val y i s) ∧
    (∃ (b : TwNo) (s : State), fbit s fTW_CFG_EN (two b.val) = true ∧ fbit s fTW_CFG_SMB_TMO (two b.val) = true ∧
     ((twSt s b.val).run ≠ .cmd)) ∧
    (∃ (b : TwNo) (s : State) (u : State), fbit s fTW_CFG_EN (two b.val) = true ∧ fbit s fTW_CFG_SMB_TMO (two b.val) = true ∧
     ((twSt s b.val).run = .cmd) ∧
     u = updTw (evtCnt s fTW_EVT_SCL_TMO TW_CNT_TMO (two b.val)) b.val (fun x => { x with free := false, stopAt := none, sampled := none })) ∧
    (∃ (b : TwNo) (s : State) (u : State), fbit s fTW_CFG_EN (two b.val) = true ∧ fget s fTW_TMO_SDA_MS (two b.val) ≠ 0 ∧
     ((twSt s b.val).run = .none) ∧
     u = updTw (evtCnt s fTW_EVT_SDA_TMO TW_CNT_TMO (two b.val)) b.val (fun x => { x with free := false, stopAt := none })) ∧
    (∃ (b : TwNo) (s : State), fbit s fTW_CFG_EN (two b.val) = true ∧ ((twSt s b.val).run = .none)) ∧
    (∃ (sp : CmdSpec) (c : CmdCall) (s : State) (u : State), sp = ⟨0x1090, 0x10, true, 16, 80, false, true⟩ ∧
     Accepted sp c s ∧ u = mbTake c s ∧ pb c 0 < 6 ∧ twController u (pb c 0) = true ∧ pb c 1 < 128 ∧
     twReserved (pb c 1) = false ∧ pb c 3 ≤ 64 ∧ pb c 4 ≤ 40 ∧ 16 + pb c 3 ≤ c.payload.length ∧
     fbit u fTW_CMD_BUSY (two (pb c 0)) = false) ∧
    (∃ (b : TwNo) (a : BitVec 7) (l : List Byte) (s : State) (u : State) (a1 : Bool), twTarget s b.val = true ∧
     s.rs.asleep = false ∧ twOwn s b.val a.toNat = some a1 ∧ u = updTw s b.val (fun x => { x with sampled := none })) ∧
    (∃ (b : TwNo) (a : BitVec 7) (l : List Byte) (cl : Fin 5) (x : Option (Fin 8)) (s : State), twOwn s b.val a.toNat = none) ∧
    (∃ (b : Nat) (a : Nat) (a1 : Bool) (code : Byte) (n : Byte) (d : List Byte) (s : State),
     enType (twEntry s b code.toNat) = 5 ∧ enPec (twEntry s b code.toNat) = false ∧ n.toNat = d.length ∧ d ≠ []) ∧
    (∃ (b : Nat) (a : Nat) (a1 : Bool) (code : Byte) (l : List Byte) (s : State), enType (twEntry s b code.toNat) = 0) ∧
    (∃ (b : TwNo) (a : BitVec 7) (n : Nat) (w : Bool) (s : State) (a1 : Bool) (all : List Nat), twTarget s b.val = true ∧
     s.rs.asleep = false ∧ a ≠ 0x0C#7 ∧ twOwn s b.val a.toNat = some a1 ∧ twReadAcked s b.val = true ∧
     all = twReadData s b.val ++ [pec (twReadHead s b.val a.toNat ++ twReadData s b.val)] ∧ n ≤ all.length) ∧
    (∃ (b : TwNo) (a : BitVec 7) (n : Nat) (w : Bool) (s : State) (a1 : Bool) (all : List Nat), twTarget s b.val = true ∧
     s.rs.asleep = false ∧ a ≠ 0x0C#7 ∧ twOwn s b.val a.toNat = some a1 ∧ twReadAcked s b.val = true ∧
     all = twReadData s b.val ++ [pec (twReadHead s b.val a.toNat ++ twReadData s b.val)] ∧ all.length < n) ∧
    (∃ (b : TwNo) (a : BitVec 7) (n : Nat) (w : Bool) (x : Option (Fin 8)) (s : State) (a1 : Bool), twTarget s b.val = true ∧
     s.rs.asleep = false ∧ a ≠ 0x0C#7 ∧ twOwn s b.val a.toNat = some a1 ∧ twReadAcked s b.val = false) ∧
    (∃ (b : TwNo) (n : Nat) (s : State), twTarget s b.val = true ∧ s.rs.asleep = false ∧
     fbit s fTW_ALERT_REQ (two b.val) = true ∧ fbit s fTW_CFG_ARA_EN (two b.val) = true) ∧
    (∃ (ag : Agent) (b : TwNo) (r : Bool) (s : State), ((ag = .dennil ∨ leased s 0x10 none = true)) ∧
     fbit s fTW_ALERT_REQ (two b.val) ≠ r) ∧
    (∃ (b : TwNo) (s : State), fbit s fTW_STAT_ALERT_IN (two b.val) = false) ∧
    (∃ (b : TwNo) (s : State), s.rs.asleep = true ∧ fbit s fTW_ADDR_A0_EN (two b.val) = true ∧
     fbit s fTW_ADDR_A0_WAKE (two b.val) = true) ∧
    (∃ (b : TwNo) (a1 : Bool) (s : State), s.rs.asleep = false) ∧
    (∃ (sp : CmdSpec) (c : CmdCall) (s : State) (u : State) (p : Profile) (mine : List (Nat × Nat)), sp = ⟨0x1010, 0x10,
     false, 8, 8, false, true⟩ ∧ Accepted sp c s ∧ u = mbTake c s ∧ pb c 0 < 6 ∧ findProfile u 0x10 (pb c 0) = some p ∧
     ((∀ w ∈ p.writes, w.1 ≠ TW_ADDR + two (pb c 0))) ∧
     mine = p.writes.filter (fun w => w.1 / 0x1000 = 0x70 + pb c 0 && (w.1 % 0x1000 < 0xC || 0x400 ≤ w.1 % 0x1000))) ∧
    (∃ (sp : CmdSpec) (c : CmdCall) (s : State) (u : State) (e : Nat) (o : Nat), sp = ⟨0x1011, 0x10, false, 8, 264, false,
     true⟩ ∧ Accepted sp c s ∧ u = mbTake c s ∧ pb c 0 < 6 ∧ twTarget u (pb c 0) = true ∧ 1 ≤ pw c 2 ∧ pw c 2 ≤ 256 ∧
     8 + pw c 2 ≤ c.payload.length ∧ e = twEntry u (pb c 0) (pb c 1) ∧
     ((enType e = 3 ∨ enType e = 4 ∨ enType e = 6 ∨ enType e = 7)) ∧ twRoom u (pb c 0) (pw c 2) ≠ [] ∧
     o = nth (twRoom u (pb c 0) (pw c 2)) (freeVal u % (twRoom u (pb c 0) (pw c 2)).length)) :=
  ⟨⟨.dennil, 0, 0#32, State.reset, _, by decide, rfl, by decide⟩,
    ⟨0, (stOf (State.reset) [(fTW_CFG_EN, 1, two (0 : TwNo).val), (fTW_CFG_CTRL_EN, 1, two (0 : TwNo).val), (fTW_CMD_BUSY, 1,
    0)]), _, _, by decide, by decide, by decide, rfl, rfl, by decide⟩,
    ⟨0, 0, [], _, 0#8, 0, updTw State.reset 0 (fun x => { x with run := .cmd }), _, by decide, rfl, rfl, by decide⟩,
    ⟨0, 0, _, [], none, 0#8, 0, updTw State.reset 0 (fun q => { q with run := .cmd }), by decide, by decide, rfl⟩,
    ⟨0, 0, [], none, 0, 0#8, 0, updTw State.reset 0 (fun q => { q with run := .stopping }), by decide⟩,
    ⟨0, 0, 0,
    (stOf (updTw State.reset 0 (fun x => { x with run := .cmd })) [(fTW_CFG_RETRY, 2, 0)]), _, by decide, by decide, by decide, rfl⟩,
    ⟨0, (stOf (State.reset) [(fTW_CFG_EN, 1, (two (0 : TwNo).val)), (fTW_CFG_SMB_TMO, 1, (two (0 : TwNo).val))]), by decide,
    by decide, by decide⟩,
    ⟨0,
    (stOf (updTw State.reset 0 (fun x => { x with run := .cmd })) [(fTW_CFG_EN, 1, (two (0 : TwNo).val)), (fTW_CFG_SMB_TMO, 1, (two (0 : TwNo).val))]), _, by decide, by decide, by decide, rfl⟩,
    ⟨0, (stOf (State.reset) [(fTW_CFG_EN, 1, (two (0 : TwNo).val)), (fTW_TMO_SDA_MS, 1, (two (0 : TwNo).val))]), _, by decide,
    by decide, by decide, rfl⟩,
    ⟨0, (stOf (State.reset) [(fTW_CFG_EN, 1, (two (0 : TwNo).val))]), by decide, by decide⟩,
    ⟨_, cc ([0, 16, 0, 0, 1] ++ zeros 11), (stOf (mbS) [(fTW_CFG_EN, 1, 0), (fTW_CFG_CTRL_EN, 1, 0)]), _, rfl,
    by unfold Accepted; decide, rfl, by decide, by decide, by decide, by decide, by decide, by decide, by decide, by decide⟩,
    ⟨0, 16, [], (stOf (State.reset) [(fTW_CFG_EN, 1, two (0 : TwNo).val), (fTW_CFG_TGT_EN, 1, two (0 : TwNo).val),
    (fTW_ADDR_A0_EN, 1, 0), (fTW_ADDR_A0, 16, 0)]), _, false, by decide, by decide, by decide, rfl⟩,
    ⟨0, 0#7, [], 0, none, State.reset, by decide⟩,
    ⟨0, 0, false, 0#8, 1, [1], (stOf (State.reset) [(⟨TW_TGT_CMD, 31, 28⟩, 5, 0)]), by decide, by decide, by decide,
    by decide⟩,
    ⟨0, 0, false, 0#8, [], State.reset, by decide⟩,
    ⟨0, 16, 0, false, (stOf (State.reset) [(fTW_CFG_EN, 1, two (0 : TwNo).val), (fTW_CFG_TGT_EN, 1, two (0 : TwNo).val),
    (fTW_ADDR_A0_EN, 1, 0), (fTW_ADDR_A0, 16, 0)]), false, _, by decide, by decide, by decide, by decide, by decide, rfl,
    by decide⟩,
    ⟨0, 16, 4, false, (stOf (State.reset) [(fTW_CFG_EN, 1, two (0 : TwNo).val), (fTW_CFG_TGT_EN, 1, two (0 : TwNo).val),
    (fTW_ADDR_A0_EN, 1, 0), (fTW_ADDR_A0, 16, 0)]), false, _, by decide, by decide, by decide, by decide, by decide, rfl,
    by decide⟩,
    ⟨0, 16, 0, false, none,
    (stOf (updTw State.reset 0 (fun q => { q with sampled := some (0, 0) })) [(fTW_CFG_EN, 1, two (0 : TwNo).val), (fTW_CFG_TGT_EN, 1, two (0 : TwNo).val), (fTW_ADDR_A0_EN, 1, 0), (fTW_ADDR_A0, 16, 0)]), false, by decide, by decide, by decide, by decide, by decide⟩,
    ⟨0, 0, (stOf (State.reset) [(fTW_CFG_EN, 1, two (0 : TwNo).val), (fTW_CFG_TGT_EN, 1, two (0 : TwNo).val), (fTW_ALERT_REQ,
    1, (two (0 : TwNo).val)), (fTW_CFG_ARA_EN, 1, (two (0 : TwNo).val))]), by decide, by decide, by decide, by decide⟩,
    ⟨.dennil, 0, true, State.reset, by decide, by decide⟩,
    ⟨0, State.reset, by decide⟩,
    ⟨0, (stOf (slS State.reset) [(fTW_ADDR_A0_EN, 1, (two (0 : TwNo).val)), (fTW_ADDR_A0_WAKE, 1, (two (0 : TwNo).val))]),
    by decide, by decide, by decide⟩,
    ⟨0, false, State.reset, by decide⟩,
    ⟨_, (cc (zeros 8)), prf [⟨0x10, 0, [], [], 0⟩] mbS, _, ⟨0x10, 0, [], [], 0⟩, _, rfl, by unfold Accepted; decide, rfl,
    by decide, by decide, by decide, rfl⟩,
    ⟨_, cc [0, 0, 1, 0, 0, 0, 0, 0, 7], (stOf (mbS) [(fTW_CFG_EN, 1, 0), (fTW_CFG_TGT_EN, 1, 0), (⟨TW_TGT_CMD, 31, 28⟩, 3,
    0)]), _, _, _, rfl, by unfold Accepted; decide, rfl, by decide, by decide, by decide, by decide, by decide, rfl,
    by decide, by decide, rfl⟩⟩

theorem witness_TwoWireRowsComplete_cases :
    (∃ (ag : Agent) (b : TwNo) (v : BitVec 32) (s : State) (u : State), ((ag = .dennil ∨ leased s 0x10 none = true)) ∧
     u = putWord (TW_CMD + two b.val) (v.toNat % 2 ^ 30) s ∧ fbit u fTW_CMD_BUSY (two b.val) = false ∧
     fget u fTW_CMD_WLEN (two b.val) ≤ 64) ∧
    (∃ (ag : Agent) (b : TwNo) (v : BitVec 32) (s : State) (u : State), ((ag = .dennil ∨ leased s 0x10 none = true)) ∧
     u = putWord (TW_CMD + two b.val) (v.toNat % 2 ^ 30) s ∧ fbit u fTW_CMD_BUSY (two b.val) = false ∧
     64 < fget u fTW_CMD_WLEN (two b.val)) ∧
    (∃ (b : TwNo) (s : State) (u : State), fbit s fTW_CFG_EN (two b.val) = true ∧ fget s fTW_TMO_SDA_MS (two b.val) ≠ 0 ∧
     ((twSt s b.val).run = .none) ∧
     u = updTw (evtCnt s fTW_EVT_SDA_TMO TW_CNT_TMO (two b.val)) b.val (fun x => { x with free := false, stopAt := none }) ∧ fbit s fTW_CFG_RECOVER_EN (two b.val) = false) ∧
    (∃ (b : TwNo) (s : State) (u : State), fbit s fTW_CFG_EN (two b.val) = true ∧ fget s fTW_TMO_SDA_MS (two b.val) ≠ 0 ∧
     ((twSt s b.val).run = .none) ∧
     u = updTw (evtCnt s fTW_EVT_SDA_TMO TW_CNT_TMO (two b.val)) b.val (fun x => { x with free := false, stopAt := none }) ∧ fbit s fTW_CFG_RECOVER_EN (two b.val) = true ∧ fbit s fTW_CFG_CTRL_EN (two b.val) = true) ∧
    (∃ (b : TwNo) (s : State), fbit s fTW_CFG_EN (two b.val) = true ∧ ((twSt s b.val).run = .none) ∧
     fbit s fTW_STAT_BUS_BUSY (two b.val) = true) ∧
    (∃ (b : TwNo) (s : State), fbit s fTW_CFG_EN (two b.val) = true ∧ ((twSt s b.val).run = .none) ∧
     fbit s fTW_STAT_BUS_BUSY (two b.val) = false) ∧
    (∃ (b : TwNo) (a : BitVec 7) (l : List Byte) (s : State) (u : State) (a1 : Bool), twTarget s b.val = true ∧
     s.rs.asleep = false ∧ twOwn s b.val a.toNat = some a1 ∧
     u = updTw s b.val (fun x => { x with sampled := none }) ∧ quRoom u (48 + b.val) 264 = true) ∧
    (∃ (b : TwNo) (a : BitVec 7) (l : List Byte) (s : State) (u : State) (a1 : Bool), twTarget s b.val = true ∧
     s.rs.asleep = false ∧ twOwn s b.val a.toNat = some a1 ∧
     u = updTw s b.val (fun x => { x with sampled := none }) ∧ quRoom u (48 + b.val) 264 = false) :=
  ⟨⟨.dennil, 0, 64, State.reset, _, by decide, rfl, by decide, by decide⟩,
    ⟨.dennil, 0, 65, State.reset, _, by decide, rfl, by decide, by decide⟩,
    ⟨0, (stOf (State.reset) [(fTW_CFG_EN, 1, (two (0 : TwNo).val)), (fTW_TMO_SDA_MS, 1, (two (0 : TwNo).val)),
    (fTW_TMO_SDA_MS, 25, 0), (fTW_CFG_RECOVER_EN, 0, 0)]), _, by decide, by decide, by decide, rfl, by decide⟩,
    ⟨0, (stOf (State.reset) [(fTW_CFG_EN, 1, (two (0 : TwNo).val)), (fTW_TMO_SDA_MS, 1, (two (0 : TwNo).val)),
    (fTW_CFG_RECOVER_EN, 1, (two (0 : TwNo).val)), (fTW_CFG_CTRL_EN, 1, (two (0 : TwNo).val)), (fTW_TMO_SDA_MS, 25, 0),
    (fTW_CFG_CTRL_EN, 1, 0), (fTW_CFG_RECOVER_EN, 1, 0)]), _, by decide, by decide, by decide, rfl, by decide, by decide⟩,
    ⟨0, (stOf (State.reset) [(fTW_CFG_EN, 1, (two (0 : TwNo).val)), (fTW_STAT_BUS_BUSY, 1, (two (0 : TwNo).val)),
    (fTW_STAT_BUS_BUSY, 1, 0)]), by decide, by decide, by decide⟩,
    ⟨0, (stOf (State.reset) [(fTW_CFG_EN, 1, (two (0 : TwNo).val))]), by decide, by decide, by decide⟩,
    ⟨0, 16, [], (stOf (State.reset) [(fTW_CFG_EN, 1, two (0 : TwNo).val), (fTW_CFG_TGT_EN, 1, two (0 : TwNo).val),
    (fTW_ADDR_A0_EN, 1, 0), (fTW_ADDR_A0, 16, 0), (fQU_CFG_SIZE, 64, quo 48)]), _, false, by decide, by decide, by decide,
    rfl, by decide⟩,
    ⟨0, 16, [], (stOf (State.reset) [(fTW_CFG_EN, 1, two (0 : TwNo).val), (fTW_CFG_TGT_EN, 1, two (0 : TwNo).val),
    (fTW_ADDR_A0_EN, 1, 0), (fTW_ADDR_A0, 16, 0), (fQU_CFG_SIZE, 0, quo 48)]), _, false, by decide, by decide, by decide, rfl,
    by decide⟩⟩

theorem witness_AbutmentRowsComplete :
    (∃ (r0 : Bool) (r1 : Bool) (s : State) (m : Nat) (req : List Nat), fbit s fAB_CTL_EN = true ∧ s.ab.bus = .idle ∧
     fget s fAB_CTL_FAIR = 0 ∧ req = ((if r0 then [0] else [])
     ++ if r1 then [1] else []).filter (fun m => bit (fget s fAB_CTL_M_EN) m) ∧ (req.find? (fun x => x != s.ab.lastExt) = some m)) ∧
    (∃ (r0 : Bool) (r1 : Bool) (s : State), s.ab.bus ≠ .idle) ∧
    (∃ (s : State) (b : AbBeat) (r : Nat), s.ab.bus = .idle ∧ abNext s = some (true, b) ∧ abRegion s b.off = some r) ∧
    (∃ (s : State) (b : AbBeat) (r : Nat) (q : AbReq) (l : List AbReq), s.ab.bus = .idle ∧ abNext s = some (false, b) ∧
     s.ab.reqs = q :: l ∧ q.write = false ∧ abRegion s b.off = some r) ∧
    (∃ (s : State) (off : Nat) (r : Nat), abRegion s off = some r) ∧
    (∃ (d : Word) (s : State), ((s.ab.bus = .posted ∨ s.ab.bus = .req))) ∧
    (∃ (i : Fin 3) (d : Word) (s : State), s.ab.bus = .idle) ∧
    (∃ (s : State) (b : AbBeat) (l : List AbBeat), s.ab.bus = .posted ∧ s.ab.posted = b :: l) ∧
    (∃ (i : Fin 3) (d : Word) (m : Nat) (s : State), s.ab.bus = .ext m) ∧
    (∃ (addr : Nat) (m : Nat) (r : Nat) (code : Nat) (w : Bool) (s : State) (i : Nat),
     ((List.range 8).find? (fun i => !fbit s fAB_LOG_INFO_VALID (i * 0x10)) = some i)) ∧
    (∃ (v : Nat) (n : Nat) (s : State) (q : AbReq) (b : AbBeat) (r : Nat), s.ab.bus = .idle ∧ s.ab.reqs = [q] ∧
     s.ab.posted = [] ∧ q.after = 0 ∧ q.atomic = some (1, [n]) ∧ q.len = 4 ∧ q.beats = [b] ∧ q.void = false ∧ q.fail = none ∧
     q.write = false ∧ q.got = [] ∧ q.off % 4 = 0 ∧ abRegion s b.off = some r ∧ v < 2 ^ 32) ∧
    (∃ (resp : List (Nat × Nat)) (s : State), s.ab.reqs = []) ∧
    (∃ (m : Fin 2) (a : Word) (d : Word) (be : BitVec 4) (w : Nat) (s : State), abWindow s a.toNat = some w ∧
     s.ab.bus = .ext m.val ∧ canDma s = true ∧ s.ab.inbuf.length < 32) ∧
    (∃ (m : Fin 2) (a : Word) (d : Word) (be : BitVec 4) (w : Nat) (s : State), abWindow s a.toNat = some w ∧
     s.ab.bus = .ext m.val ∧ canDma s = false) ∧
    (∃ (m : Fin 2) (a : Word) (d : Word) (be : BitVec 4) (s : State), abWindow s a.toNat = none) ∧
    (∃ (m : Fin 2) (a : Word) (be : BitVec 4) (w : Nat) (i : Nat) (s : State) (d : AbRead), abWindow s a.toNat = some w ∧
     s.ab.bus = .ext m.val ∧ drMatch s m.val a.toNat be.toNat = none ∧ canDma s = true ∧
     ((List.range 8).find? (fun i => (s.ab.dr.getD i none).isNone) = some i) ∧ d = ⟨a.toNat, be.toNat, m.val, w, s.ab.posted.length, none, none⟩) ∧
    (∃ (m : Fin 2) (a : Word) (be : BitVec 4) (w : Nat) (i : Nat) (v : Nat) (d : AbRead) (s : State),
     abWindow s a.toNat = some w ∧ s.ab.bus = .ext m.val ∧ drMatch s m.val a.toNat be.toNat = some i ∧
     s.ab.dr.getD i none = some d ∧ d.result = some (some v) ∧ d.after = 0) ∧
    (∃ (i : Fin 8) (v : Word) (s : State) (d : AbRead) (t : Nat) (r : NpReq), s.ab.dr.getD i.val none = some d ∧
     d.tag = some t ∧ npOf s t = some r ∧ r.void = false ∧ r.owner = .delayed i.val ∧ r.tag = t) ∧
    (∃ (i : Fin 8) (s : State) (d : AbRead), s.ab.dr.getD i.val none = some d ∧ d.result.isSome = true) ∧
    (∃ (l : BitVec 16) (s : State), fbit s fAB_SB_CTL_EN = true ∧ ((∀ k, k < 16 → bit l.toNat k = bit (rdn s AB_SB_LEVEL) k))) ∧
    (∃ (k : Nat) (v : Bool) (s : State), bit (rdn (regBit s AB_SB_LEVEL k v) AB_SB_EDGE) (2 * k + if v then 0 else 1) = false) ∧
    (∃ (sp : CmdSpec) (c : CmdCall) (s : State) (u : State), sp = ⟨0x1190, 0x10, true, 216, 216, false, true⟩ ∧
     Accepted sp c s ∧ u = mbTake c s ∧ abOpen u = false ∧ abValid (putWords (abParamWrites c.payload) u) = true) ∧
    (∃ (sp : CmdSpec) (c : CmdCall) (s : State) (u : State) (p : Profile), sp = ⟨0x1110, 0x10, false, 8, 8, false, true⟩ ∧
     Accepted sp c s ∧ u = mbTake c s ∧ findProfile u 0x11 0 = some p ∧ abOpen u = false ∧
     abValid (putWords (p.writes.filter inAb) u) = true) :=
  ⟨⟨true, false, (stOf (State.reset) [(fAB_CTL_EN, 1, 0), (fAB_CTL_M_EN, 3, 0), (fAB_CTL_FAIR, 0, 0)]), 0, [0], by decide,
    by decide, by decide, rfl, by decide⟩,
    ⟨false, false, updAb (fun z => { z with bus := .posted }) State.reset, by decide⟩,
    ⟨(stOf (updAb (fun z => { z with posted := [⟨16, 15, 7⟩] }) State.reset) [(fAB_CTL_EN, 1, 0), (fAB_REG_CTL_EN, 1, 0),
    (⟨AB_REG_SIZE, 31, 0⟩, 4096, 0)]), ⟨16, 15, 7⟩, 0, by decide, by decide, by decide⟩,
    ⟨(stOf (updAb (fun z => { z with reqs := [⟨.host, 3, 16, 4, [⟨16, 15, 0⟩], [], none, 0, false, none, false⟩] }) State.reset) [(fAB_CTL_EN,
    1, 0), (fAB_REG_CTL_EN, 1, 0), (⟨AB_REG_SIZE, 31, 0⟩, 4096, 0)]), ⟨16, 15, 0⟩, 0, ⟨.host, 3, 16, 4, [⟨16, 15, 0⟩], [],
    none, 0, false, none, false⟩, [], by decide, by decide, by decide, by decide, by decide⟩,
    ⟨(stOf (State.reset) [(fAB_CTL_EN, 1, 0), (fAB_REG_CTL_EN, 1, 0), (⟨AB_REG_SIZE, 31, 0⟩, 4096, 0)]), 0, 0, by decide⟩,
    ⟨0#32, updAb (fun z => { z with bus := .posted, posted := [⟨16, 15, 7⟩] }) State.reset, by decide⟩,
    ⟨0, 0#32, State.reset, by decide⟩,
    ⟨updAb (fun z => { z with bus := .posted, posted := [⟨16, 15, 7⟩] }) State.reset, ⟨16, 15, 7⟩, [], by decide, by decide⟩,
    ⟨0, 0#32, 0, updAb (fun z => { z with bus := .ext 0 }) State.reset, by decide⟩,
    ⟨0, 0, 0, 0, false, State.reset, 0, by decide⟩,
    ⟨5, 9,
    (stOf (updAb (fun z => { z with reqs := [⟨.host, 3, 16, 4, [⟨16, 15, 0⟩], [], none, 0, false, some (1, [9]), false⟩] }) State.reset) [(fAB_CTL_EN,
    1, 0), (fAB_REG_CTL_EN, 1, 0), (⟨AB_REG_SIZE, 31, 0⟩, 4096, 0)]), ⟨.host, 3, 16, 4, [⟨16, 15, 0⟩], [], none, 0, false,
    some (1, [9]), false⟩, ⟨16, 15, 0⟩, 0, by decide, by decide, by decide, by decide, by decide, by decide, by decide,
    by decide, by decide, by decide, by decide, by decide, by decide, by decide⟩,
    ⟨[], State.reset, by decide⟩,
    ⟨0, 0#32, 0#32, 0#4, 0,
    (stOf (updAb (fun z => { z with bus := .ext 0 }) dmaS) [(fAB_IN_CTL_EN, 1, 0), (⟨AB_IN_SIZE, 31, 0⟩, 4096, 0)]),
    by decide, by decide, by decide, by decide⟩,
    ⟨0, 0#32, 0#32, 0#4, 0,
    (stOf (updAb (fun z => { z with bus := .ext 0 }) State.reset) [(fAB_IN_CTL_EN, 1, 0), (⟨AB_IN_SIZE, 31, 0⟩, 4096, 0)]),
    by decide, by decide, by decide⟩,
    ⟨0, 0#32, 0#32, 0#4, State.reset, by decide⟩,
    ⟨0, 0#32, 0#4, 0, 0, (stOf (updAb (fun z => { z with bus := .ext 0 }) dmaS) [(fAB_IN_CTL_EN, 1, 0), (⟨AB_IN_SIZE, 31, 0⟩,
    4096, 0)]), _, by decide, by decide, by decide, by decide, by decide, rfl⟩,
    ⟨0, 0#32, 0#4, 0, 0, 5, ⟨0, 0, 0, 0, 0, none, some (some 5)⟩,
    (stOf (updAb (fun z => { z with bus := .ext 0, dr := [some ⟨0, 0, 0, 0, 0, none, some (some 5)⟩] }) State.reset) [(fAB_IN_CTL_EN,
    1, 0), (⟨AB_IN_SIZE, 31, 0⟩, 4096, 0)]), by decide, by decide, by decide, by decide, by decide, by decide⟩,
    ⟨0, 0#32, reqS [⟨6, .delayed 0, 100,
    false⟩] (updAb (fun z => { z with dr := [some ⟨0, 0, 0, 0, 0, some 6, none⟩] }) State.reset), ⟨0, 0, 0, 0, 0, some 6,
    none⟩, 6, ⟨6, .delayed 0, 100, false⟩, by decide, by decide, by decide, by decide, by decide, by decide⟩,
    ⟨0, updAb (fun z => { z with dr := [some ⟨0, 0, 0, 0, 0, none, some (some 5)⟩] }) State.reset, ⟨0, 0, 0, 0, 0, none,
    some (some 5)⟩, by decide, by decide⟩,
    ⟨0#16, (stOf (State.reset) [(fAB_SB_CTL_EN, 1, 0)]), by decide, by decide⟩,
    ⟨0, false, State.reset, by decide⟩,
    ⟨_, (cc (zeros 216)), mbS, _, rfl, by unfold Accepted; decide, rfl, by decide, by decide⟩,
    ⟨_, (cc (zeros 8)), prf [⟨0x11, 0, [], [], 0⟩] mbS, _, ⟨0x11, 0, [], [], 0⟩, rfl, by unfold Accepted; decide, rfl,
    by decide, by decide, by decide⟩⟩

theorem witness_EvidenceStoreRowsComplete :
    (∃ (p : Fin 5) (i : Nat) (w : Nat) (b : Nat) (f : Nat) (k : Fin 9) (s : State) (v : State), evRunning s = true ∧
     v = maintCost p.val (1 + k.val) (1 + k.val) s) ∧
    (∃ (p : Fin 5) (b : Nat) (last : Bool) (s : State), evRunning s = true ∧ ((p.val ≠ 0 ∨ last = false))) ∧
    (∃ (b : Nat) (s : State), evRunning s = true) ∧
    (∃ (p : Fin 5) (b : Nat) (last : Bool) (s : State), evRunning s = true ∧ ((p.val ≠ 0 ∨ nth s.ev.spares 0 ≠ 0))) ∧
    (∃ (b : Nat) (last : Bool) (s : State), evRunning s = true ∧ nth s.ev.spares 0 = 0) ∧
    (∃ (p : Fin 5) (b : Nat) (s : State), evRunning s = true) ∧
    (∃ (s : State), evRunning s = true ∧ fbit s fEV_CTL_EN = true ∧ fbit s fEV_CTL_PATROL_EN = true) ∧
    (∃ (p : Fin 5) (b : Nat) (s : State) (v : State), evRunning s = true ∧ b ∈ s.ev.refreshDue ∧ p.val ≠ 4 ∧
     v = evtCnt (maintCost p.val (2 * s.ev.hdr.blockCw + 4) (2 * s.ev.hdr.blockCw) { s with ev := { s.ev with refreshDue := s.ev.refreshDue.erase b } }) fEV_EVT_REFRESH EV_CNT_REFRESH) ∧
    (∃ (p : Fin 5) (b : Nat) (u : Bool) (s : State), b ∉ s.ev.refreshDue) ∧
    (∃ (s : State), evRunning s = true) ∧
    (∃ (s : State) (t : State), exec .eraseCreditAccrue s = .next t ∧
     reg64 s EV_CRED_GRANTED_LO = (reg64 s EV_CRED_SPENT_LO + reg64 s EV_CRED_BAL_LO + reg64 s EV_CRED_FORFEIT_LO) % 2 ^ 64) ∧
    (∃ (g : Nat) (e : Nat) (a : Nat) (s : State) (d : EvDue) (l : List EvDue) (k : ReadCheck) (u : State), s.ev.due = d :: l ∧
     evRunning s = true ∧ fbit s fEV_CTL_EN = true ∧ u = lp5Check k a { s with ev := { s.ev with due := l } }) ∧
    (∃ (g : Nat) (e : Nat) (a : Nat) (c : Bool) (k : ReadCheck) (s : State), s.ev.due = []) ∧
    (∃ (d : EvDue) (bs : List Byte) (s : State) (b : EvSb), (s.ev.sbs.getLast? = some b)) ∧
    (∃ (s : State), evRunning s = true ∧ dennilUp s = true) ∧
    (∃ (s : State) (x : Nat) (l : List Nat), s.pa.faultRecs = x :: l ∧ dennilUp s = true) ∧
    (∃ (k : Nat) (d : List Byte) (s : State) (n : Nat), fget s fEV_STAT_STATE = 2 ∧ partRoom s.ev.hdr 4 = some n ∧
     s.ev.log.length < n / 64) ∧
    (∃ (sp : CmdSpec) (c : CmdCall) (s : State) (u : State), sp = ⟨0x1210, 0x10, false, 48, 48, false, true⟩ ∧
     Accepted sp c s ∧ u = mbTake c s ∧ evRunning u = true) ∧
    (∃ (sp : CmdSpec) (c : CmdCall) (s : State) (u : State), sp = ⟨0x1211, 0x10, false, 24, 24, false, true⟩ ∧
     Accepted sp c s ∧ u = mbTake c s ∧ evRunning u = true) ∧
    (∃ (sp : CmdSpec) (c : CmdCall) (s : State) (u : State), sp = ⟨0x1212, 0x10, false, 0, 0, false, true⟩ ∧ Accepted sp c s ∧
     u = mbTake c s ∧ evRunning u = true) ∧
    (∃ (sp : CmdSpec) (c : CmdCall) (s : State) (u : State), sp = ⟨0x1290, 0x10, true, 8, 8, false, true⟩ ∧ Accepted sp c s ∧
     u = mbTake c s ∧ evRunning u = true) :=
  ⟨⟨0, 0, 0, 0, 0, 0, (stOf (State.reset) [(fEV_STAT_STATE, 2, 0)]), _, by decide, rfl⟩,
    ⟨1, 0, false, (stOf (State.reset) [(fEV_STAT_STATE, 2, 0)]), by decide, by decide⟩,
    ⟨0, (stOf (State.reset) [(fEV_STAT_STATE, 2, 0)]), by decide⟩,
    ⟨1, 0, false, (stOf (State.reset) [(fEV_STAT_STATE, 2, 0)]), by decide, by decide⟩,
    ⟨0, false, (stOf (State.reset) [(fEV_STAT_STATE, 2, 0)]), by decide, by decide⟩,
    ⟨0, 0, (stOf (State.reset) [(fEV_STAT_STATE, 2, 0)]), by decide⟩,
    ⟨(stOf (State.reset) [(fEV_STAT_STATE, 2, 0), (fEV_CTL_EN, 1, 0), (fEV_CTL_PATROL_EN, 1, 0)]), by decide, by decide,
    by decide⟩,
    ⟨0, 0, (stOf ({ State.reset with ev := { State.reset.ev with refreshDue := [0] } }) [(fEV_STAT_STATE, 2, 0)]), _,
    by decide, by decide, by decide, rfl⟩,
    ⟨0, 0, false, State.reset, by decide⟩,
    ⟨(stOf (State.reset) [(fEV_STAT_STATE, 2, 0)]), by decide⟩,
    ⟨State.reset, _, rfl, by decide⟩,
    ⟨0, 0, 0,
    (stOf ({ State.reset with ev := { State.reset.ev with due := [⟨0, 0, 0, 0, 0, 0, 0, 0, 0, 0, []⟩] } }) [(fEV_STAT_STATE,
    2, 0), (fEV_CTL_EN, 1, 0)]), ⟨0, 0, 0, 0, 0, 0, 0, 0, 0, 0, []⟩, [], ReadCheck.good, _, by decide, by decide, by decide,
    rfl⟩,
    ⟨0, 0, 0, false, ReadCheck.good, State.reset, by decide⟩,
    ⟨⟨0, 0, 0, 0, 0, 0, 0, 0, 0, 0, []⟩, [],
    { State.reset with ev := { State.reset.ev with sbs := [⟨0, 0, 0, 0, 0, 0, []⟩] } }, ⟨0, 0, 0, 0, 0, 0, []⟩, by decide⟩,
    ⟨(stOf (State.reset) [(fEV_STAT_STATE, 2, 0), (fMB_DENNIL_STAT_STATE, 2, 0)]), by decide, by decide⟩,
    ⟨(stOf ({ State.reset with pa := { State.reset.pa with faultRecs := [7] } }) [(fMB_DENNIL_STAT_STATE, 2, 0)]), 7, [],
    by decide, by decide⟩,
    ⟨0, [],
    (stOf ({ State.reset with ev := { State.reset.ev with hdr := { State.reset.ev.hdr with parts := [⟨4, 0, 0, 4, 1⟩], targets := 1, chMask := 1, blockCw := 64 } } }) [(fEV_STAT_STATE,
    2, 0)]), 786432, by decide, by decide, by decide⟩,
    ⟨_, (cc (zeros 48)), (stOf (mbS) [(fEV_STAT_STATE, 2, 0)]), _, rfl, by unfold Accepted; decide, rfl, by decide⟩,
    ⟨_, (cc (zeros 24)), (stOf (mbS) [(fEV_STAT_STATE, 2, 0)]), _, rfl, by unfold Accepted; decide, rfl, by decide⟩,
    ⟨_, (cc []), (stOf (mbS) [(fEV_STAT_STATE, 2, 0)]), _, rfl, by unfold Accepted; decide, rfl, by decide⟩,
    ⟨_, (cc (zeros 8)), (stOf (mbS) [(fEV_STAT_STATE, 2, 0)]), _, rfl, by unfold Accepted; decide, rfl, by decide⟩⟩

theorem witness_EvidenceStoreRowsComplete_cases :
    (∃ (p : Fin 5) (i : Nat) (w : Nat) (b : Nat) (f : Nat) (k : Fin 9) (s : State) (v : State), evRunning s = true ∧
     v = maintCost p.val (1 + k.val) (1 + k.val) s ∧ (p.val = 4 ∨ b ∈ s.ev.refreshDue ∨ (f ≤ fget s fEV_PATROL_REFRESH_THR ∧
     k.val < max 1 (fget s fEV_PATROL_REFRESH_STEP)))) ∧
    (∃ (p : Fin 5) (i : Nat) (w : Nat) (b : Nat) (f : Nat) (k : Fin 9) (s : State) (v : State), evRunning s = true ∧
     v = maintCost p.val (1 + k.val) (1 + k.val) s ∧ p.val < 4 ∧ b ∉ s.ev.refreshDue ∧
     ((fget s fEV_PATROL_REFRESH_THR < f ∨ max 1 (fget s fEV_PATROL_REFRESH_STEP) ≤ k.val))) ∧
    (∃ (s : State), evRunning s = true ∧ fbit s fEV_CTL_EN = true ∧ fbit s fEV_CTL_PATROL_EN = true ∧
     fbit s fEV_STAT_PATROL = true) ∧
    (∃ (g : Nat) (e : Nat) (a : Nat) (s : State) (d : EvDue) (l : List EvDue) (k : ReadCheck) (u : State) (cut : Bool),
     s.ev.due = d :: l ∧ evRunning s = true ∧ fbit s fEV_CTL_EN = true ∧
     u = lp5Check k a { s with ev := { s.ev with due := l } } ∧ k = .failed) ∧
    (∃ (g : Nat) (e : Nat) (a : Nat) (s : State) (d : EvDue) (l : List EvDue) (k : ReadCheck) (u : State) (cut : Bool),
     s.ev.due = d :: l ∧ evRunning s = true ∧ fbit s fEV_CTL_EN = true ∧
     u = lp5Check k a { s with ev := { s.ev with due := l } } ∧ k ≠ .failed ∧ recShort s (recBytes s d).length cut = true) ∧
    (∃ (g : Nat) (e : Nat) (a : Nat) (s : State) (d : EvDue) (l : List EvDue) (k : ReadCheck) (u : State) (cut : Bool),
     s.ev.due = d :: l ∧ evRunning s = true ∧ fbit s fEV_CTL_EN = true ∧
     u = lp5Check k a { s with ev := { s.ev with due := l } } ∧ k ≠ .failed ∧ recShort s (recBytes s d).length cut = false ∧
     sbFits u (recBytes s d).length = true) ∧
    (∃ (g : Nat) (e : Nat) (a : Nat) (s : State) (d : EvDue) (l : List EvDue) (k : ReadCheck) (u : State) (cut : Bool) (v : State),
     s.ev.due = d :: l ∧ evRunning s = true ∧ fbit s fEV_CTL_EN = true ∧
     u = lp5Check k a { s with ev := { s.ev with due := l } } ∧ k ≠ .failed ∧ recShort s (recBytes s d).length cut = false ∧
     sbFits u (recBytes s d).length = false ∧ v = ringRegs { u with ev := { u.ev with isOpen := false } }) :=
  ⟨⟨4, 0, 0, 0, 0, 0, (stOf (State.reset) [(fEV_STAT_STATE, 2, 0)]), _, by decide, rfl, by decide⟩,
    ⟨0, 0, 0, 0, 999, 0, (stOf (State.reset) [(fEV_STAT_STATE, 2, 0)]), _, by decide, rfl, by decide, by decide, by decide⟩,
    ⟨(stOf (State.reset) [(fEV_STAT_STATE, 2, 0), (fEV_CTL_EN, 1, 0), (fEV_CTL_PATROL_EN, 1, 0), (fEV_STAT_PATROL, 1, 0)]),
    by decide, by decide, by decide, by decide⟩,
    ⟨0, 0, 0,
    (stOf ({ State.reset with ev := { State.reset.ev with due := [⟨0, 0, 0, 0, 0, 0, 0, 0, 0, 0, []⟩] } }) [(fEV_STAT_STATE,
    2, 0), (fEV_CTL_EN, 1, 0)]), ⟨0, 0, 0, 0, 0, 0, 0, 0, 0, 0, []⟩, [], .failed, _, false, by decide, by decide, by decide,
    rfl, rfl⟩,
    ⟨0, 0, 0,
    (stOf ({ State.reset with ev := { State.reset.ev with due := [⟨0, 0, 0, 0, 0, 0, 0, 0, 0, 0, []⟩] } }) [(fEV_STAT_STATE,
    2, 0), (fEV_CTL_EN, 1, 0), (fTO_CTL_EN, 1, 0)]), ⟨0, 0, 0, 0, 0, 0, 0, 0, 0, 0, []⟩, [], .good, _, true, by decide,
    by decide, by decide, rfl, by decide, by decide +kernel⟩,
    ⟨0, 0, 0,
    (stOf ({ State.reset with ev := { State.reset.ev with due := [⟨0, 0, 0, 0, 0, 0, 0, 0, 0, 0, []⟩], isOpen := true, hdr := { State.reset.ev.hdr with parts := [⟨5, 0, 0, 4, 0⟩], targets := 1, chMask := 1, blockCw := 64 }, sbs := [⟨0, 0, 0, 0, 256, 0, []⟩] } }) [(fEV_STAT_STATE,
    2, 0), (fEV_CTL_EN, 1, 0)]), ⟨0, 0, 0, 0, 0, 0, 0, 0, 0, 0, []⟩, [], .good, _, false, by decide, by decide, by decide,
    rfl, by decide, by decide +kernel, by decide +kernel⟩,
    ⟨0, 0, 0,
    (stOf ({ State.reset with ev := { State.reset.ev with due := [⟨0, 0, 0, 0, 0, 0, 0, 0, 0, 0, []⟩] } }) [(fEV_STAT_STATE,
    2, 0), (fEV_CTL_EN, 1, 0)]), ⟨0, 0, 0, 0, 0, 0, 0, 0, 0, 0, []⟩, [], .good, _, false, _, by decide, by decide, by decide,
    rfl, by decide, by decide +kernel, by decide +kernel, rfl⟩⟩

theorem witness_TollAndMemoryRowsComplete :
    (∃ (s : State), fbit s fTO_CTL_PEND = false ∧ fbit s fTO_CTL_EN = true ∧ s.he.w1 = [] ∧ s.toll.short = []) ∧
    (∃ (s : State) (c : Nat) (r : Nat) (n : Nat), fbit s fTO_CTL_EN = true ∧ tollCovers s c r n = true) ∧
    (∃ (s : State) (c : Nat) (r : Nat) (n : Nat), fbit s fTO_CTL_EN = false) ∧
    (∃ (ag : Agent) (s : State), ((ag = .dennil ∨ leased s 0x13 none = true))) ∧
    (∃ (s : State), leased s 0x13 none = false) ∧
    (∃ (r : Fin 4) (s : State), bit (fget s fTO_STAT_OVER) r.val = true ∧ nth s.toll.prevCap r.val ≠ 0) ∧
    (∃ (b : Nat → Nat) (s : State), ((∀ r, r < 4 → setBreaks s b r = false))) ∧
    (∃ (a : Bool) (b : Nat → Nat) (s : State) (r : Nat), ((List.range 4).find? (setBreaks s b) = some r)) ∧
    (∃ (sp : CmdSpec) (c : CmdCall) (s : State) (u : State), sp = ⟨0x1390, 0x10, true, 724, 724, false, true⟩ ∧
     Accepted sp c s ∧ u = mbTake c s ∧ ((∀ r, r < 4 → setBreaks u (fun k => pd c (4 + 4 * k)) r = false))) ∧
    (∃ (sp : CmdSpec) (c : CmdCall) (s : State) (u : State) (p : Profile) (b : Nat → Nat), sp = ⟨0x1310, 0x10, false, 8, 8,
     false, true⟩ ∧ Accepted sp c s ∧ u = mbTake c s ∧ findProfile u 0x13 (pb c 0) = some p ∧
     b = (fun k => ((p.writes.find? (fun w => w.1 = TO_BUD + 4 * k)).map (fun w => w.2)).getD 0) ∧ ((∀ r, r < 4 → setBreaks u b r = false))) ∧
    (∃ (ch : Fin 8) (rt : Bool) (f : List Nat) (o : List Nat) (c : List (Nat × Nat)) (t : List (Nat × Nat × Nat)) (s : State),
     bit (fget s fMM_STAT_USE) ch.val = true ∧ ((rt = true ∨ ueReached s ch.val = true))) ∧
    (∃ (ch : Fin 8) (rt : Bool) (f : List Nat) (o : List Nat) (c : List (Nat × Nat)) (t : List (Nat × Nat × Nat)) (s : State),
     bit (fget s fMM_STAT_USE) ch.val = false) ∧
    (∃ (ch : Fin 8) (f : List Nat) (o : List Nat) (c : List (Nat × Nat)) (t : List (Nat × Nat × Nat)) (s : State),
     ueReached s ch.val = false) ∧
    (∃ (ch : Nat) (l : ChannelLoss) (s : State), ch < 8) ∧
    (∃ (ce : List Nat) (ue : List Nat) (s : State), fbit s fMM_SCRUB_EN = true) ∧
    (∃ (ce : List Nat) (ue : List Nat) (s : State), fbit s fMM_SCRUB_EN = false) ∧
    (∃ (s : State) (p : Nat) (n : Nat), p < 5 ∧ s.mem.held.length = 5 ∧ poolCan s p n = true) ∧
    (∃ (s : State) (p : Nat) (n : Nat), p < 5 ∧ s.mem.held.length = 5 ∧ n ≤ poolHeld s p ∧
     rdn s (MM_POOL_FREE + p * 16) + n < 2 ^ 32) ∧
    (∃ (sp : CmdSpec) (c : CmdCall) (s : State) (u : State), sp = ⟨0x1311, 0x10, false, 0, 0, false, true⟩ ∧ Accepted sp c s ∧
     u = mbTake c s) ∧
    (∃ (sp : CmdSpec) (c : CmdCall) (s : State) (u : State), sp = ⟨0x1391, 0x10, true, 20, 20, false, true⟩ ∧
     Accepted sp c s ∧ u = mbTake c s ∧ poolsQuiet u = true ∧ ((∀ p, p < 5 → poolHeld u p ≤ pd c (4 * p) ∧
     pd c (4 * p) < 2 ^ 23)) ∧ rsvBase u + 80 * 1048576 + (pd c 0 + pd c 4 + pd c 8 + pd c 12 + pd c 16) * 4096 ≤ lp5Usable u) :=
  ⟨⟨(stOf (State.reset) [(fTO_CTL_EN, 1, 0)]), by decide, by decide, by decide, by decide⟩,
    ⟨(stOf (State.reset) [(fTO_CTL_EN, 1, 0)]), 0, 0, 0, by decide, by decide⟩,
    ⟨State.reset, 0, 0, 0, by decide⟩,
    ⟨.dennil, State.reset, by decide⟩,
    ⟨State.reset, by decide⟩,
    ⟨0, (stOf ({ State.reset with toll := { State.reset.toll with prevCap := [5, 5, 5, 5] } }) [(fTO_STAT_OVER, 1, 0)]),
    by decide, by decide⟩,
    ⟨fun _ => 2 ^ 20, (stOf (State.reset) [(⟨TO_CAP0, 31, 0⟩, 2000000000, 0), (⟨TO_CAP0, 31, 0⟩, 2000000000, 4), (⟨TO_CAP0,
    31, 0⟩, 2000000000, 8), (⟨TO_CAP0, 31, 0⟩, 2000000000, 12)]), by decide⟩,
    ⟨false, fun _ => 2 ^ 20, State.reset, 0, by decide⟩,
    ⟨_, cc (zeros 4 ++ (List.range 180).flatMap (fun _ => leBytes 4 (2 ^ 20))), (stOf (mbS) [(⟨TO_CAP0, 31, 0⟩, 2000000000,
    0), (⟨TO_CAP0, 31, 0⟩, 2000000000, 4), (⟨TO_CAP0, 31, 0⟩, 2000000000, 8), (⟨TO_CAP0, 31, 0⟩, 2000000000, 12)]), _, rfl,
    by unfold Accepted; decide, rfl, by decide⟩,
    ⟨_, (cc (zeros 8)), (stOf (prf [⟨0x13, 0,
    (List.range 180).map (fun k => (TO_BUD + 4 * k, 2 ^ 20)), [], 0⟩] mbS) [(⟨TO_CAP0, 31, 0⟩, 2000000000, 0), (⟨TO_CAP0, 31,
    0⟩, 2000000000, 4), (⟨TO_CAP0, 31, 0⟩, 2000000000, 8), (⟨TO_CAP0, 31, 0⟩, 2000000000, 12)]), _, ⟨0x13, 0,
    (List.range 180).map (fun k => (TO_BUD + 4 * k, 2 ^ 20)), [], 0⟩, _, rfl, by unfold Accepted; decide, rfl, by decide, rfl,
    by decide⟩,
    ⟨0, true, [], [], [], [], (stOf (State.reset) [(fMM_STAT_USE, 255, 0)]), by decide, by decide⟩,
    ⟨0, false, [], [], [], [], State.reset, by decide⟩,
    ⟨0, [], [], [], [], State.reset, by decide⟩,
    ⟨0, (⟨[], [], [], []⟩ : ChannelLoss), State.reset, by decide⟩,
    ⟨[], [], (stOf (State.reset) [(fMM_SCRUB_EN, 1, 0)]), by decide⟩,
    ⟨[], [], (stOf (State.reset) [(fMM_SCRUB_EN, 0, 0)]), by decide⟩,
    ⟨State.reset, 0, 0, by decide, by decide, by decide⟩,
    ⟨State.reset, 0, 0, by decide, by decide, by decide, by decide⟩,
    ⟨_, (cc []), mbS, _, rfl, by unfold Accepted; decide, rfl⟩,
    ⟨_, (cc (zeros 20)), (stOf (mbS) [(fMM_CAP_USABLE, 1000, 0), (fMM_RSV_BASE_V, 1, 0)]), _, rfl, by unfold Accepted; decide,
    rfl, by decide, by decide, by decide⟩⟩

theorem witness_TollAndMemoryRowsComplete_cases :
    (∃ (s : State) (k : Nat) (g : Nat), fbit s fTO_CTL_PEND = false ∧ fbit s fTO_CTL_EN = true ∧ s.he.w1 = [] ∧
     s.toll.short = [] ∧ k < 4 * tollClients ∧ smGet s.toll.budget k 0 < 2 ^ 24 ∧
     g = smGet s.toll.budget k 0 + min (rdn s (TO_AVAIL + 4 * k)) (smGet s.toll.budget k 0)) ∧
    (∃ (s : State), fbit s fTO_CTL_PEND = false ∧ fbit s fTO_CTL_EN = true ∧ s.he.w1 = [] ∧ s.toll.short = [] ∧
     s.toll.owed = []) ∧
    (∃ (r : Fin 4) (s : State) (k : Nat), bit (fget s fTO_STAT_OVER) r.val = true ∧ nth s.toll.prevCap r.val ≠ 0 ∧
     k < 4 * tollClients ∧ k % 4 = r.val ∧ k / 4 < 35) ∧
    (∃ (r : Fin 4) (s : State) (k : Nat), bit (fget s fTO_STAT_OVER) r.val = true ∧ nth s.toll.prevCap r.val ≠ 0 ∧
     k < 4 * tollClients ∧ k % 4 ≠ r.val) :=
  ⟨⟨(stOf (State.reset) [(fTO_CTL_EN, 1, 0)]), 179, _, by decide, by decide, by decide, by decide, by decide, by decide, rfl⟩,
    ⟨(stOf (State.reset) [(fTO_CTL_EN, 1, 0)]), by decide, by decide, by decide, by decide, by decide⟩,
    ⟨0, (stOf ({ State.reset with toll := { State.reset.toll with prevCap := [5, 5, 5, 5] } }) [(fTO_STAT_OVER, 1, 0)]), 0,
    by decide, by decide, by decide, by decide, by decide⟩,
    ⟨0, (stOf ({ State.reset with toll := { State.reset.toll with prevCap := [5, 5, 5, 5] } }) [(fTO_STAT_OVER, 1, 0)]), 179,
    by decide, by decide, by decide, by decide⟩⟩

theorem witness_MatrixRowsComplete :
    (∃ (k : Fin 16) (x : Bool) (s : State), bit (rdn s EM_IN_LEVEL) k.val = (x != fbit s fEM_IN_CFG_POL (k.val * 4))) ∧
    (∃ (k : Fin 16) (x : Bool) (l : Bool) (s : State) (u : State), l = (x != fbit s fEM_IN_CFG_POL (k.val * 4)) ∧
     bit (rdn s EM_IN_LEVEL) k.val ≠ l ∧ u = regBit s EM_IN_LEVEL k.val l) ∧
    (∃ (k : Fin 16) (s : State), fbit s fEM_OUT_STAT_BUSY (k.val * 8) = true) ∧
    (∃ (k : Fin 16) (s : State), fbit s fEM_OUT_STAT_BUSY (k.val * 8) = false) ∧
    (∃ (ag : Agent) (p : Fin 256) (s : State), ((ag = .dennil ∨ leased s 0x14 none = true))) ∧
    (∃ (p : Nat) (s : State), fbit s fEM_CTL_EN = false) ∧
    (∃ (p : Nat) (s : State), emTripped s p = true) ∧
    (∃ (p : Nat) (s : State), fbit s fEM_CTL_EN = true ∧ emAssigned p = true ∧ emTripped s p = false ∧ emRoutes s p = []) ∧
    (∃ (p : Nat) (c : Nat) (s : State), fbit s fEM_CTL_EN = true ∧ emAssigned p = true ∧ emTripped s p = false ∧
     emRoutes s p = [c]) ∧
    (∃ (p : Fin 256) (s : State), fbit s fEM_GUARD_EN = true ∧ emTripped s p.val = false ∧
     max 1 (fget s fEM_GUARD_COUNT) < emFirings s p.val) ∧
    (∃ (ag : Agent) (w : Fin 8) (m : Word) (s : State), ((ag = .dennil ∨ leased s 0x14 none = true))) ∧
    (∃ (ag : Agent) (k : Fin 32) (s : State), ((ag = .dennil ∨ leased s 0x14 none = true))) ∧
    (∃ (k : Fin 32) (s : State), fbit s fEM_CELL_CTL_EN (k.val * 0x10) = false) ∧
    (∃ (k : Fin 32) (s : State) (u : State) (v : Bool) (f : Bool), fbit s fEM_CELL_CTL_EN (k.val * 0x10) = true ∧
     fget s fEM_CELL_CTL_FILT (k.val * 0x10) = 0 ∧ v = cellNext s k.val true (fbit s fEM_CELL_STAT_V (k.val * 0x10)) ∧
     f = cellF s k.val ∧
     u = outFollow k.val (fbset (fbset { s with em := { s.em with cellEv := smPut s.em.cellEv k.val 0 0 } } fEM_CELL_STAT_V v (k.val * 0x10)) fEM_CELL_STAT_F v (k.val * 0x10))) ∧
    (∃ (sp : CmdSpec) (c : CmdCall) (s : State) (u : State), sp = ⟨0x1411, 0x10, false, 8, 8, false, true⟩ ∧ Accepted sp c s ∧
     u = mbTake c s ∧ 0x50 ≤ pb c 0 ∧ pb c 0 ≤ 0x5F) ∧
    (∃ (sp : CmdSpec) (c : CmdCall) (s : State) (u : State) (p : Profile), sp = ⟨0x1410, 0x10, false, 8, 8, false, true⟩ ∧
     Accepted sp c s ∧ u = mbTake c s ∧ findProfile u 0x14 (pb c 0) = some p) ∧
    (∃ (sp : CmdSpec) (c : CmdCall) (s : State) (u : State), sp = ⟨0x1490, 0x10, true, 16, 16, false, true⟩ ∧
     Accepted sp c s ∧ u = mbTake c s ∧ 1 ≤ pb c 1 ∧ pb c 1 ≤ 64 ∧ pb c 0 + pb c 1 ≤ 256 ∧ hostCanRead c u = true) :=
  ⟨⟨0, false, State.reset, by decide⟩,
    ⟨0, true, _, State.reset, _, rfl, by decide, rfl⟩,
    ⟨0, (stOf (State.reset) [(fEM_OUT_STAT_BUSY, 1, ((0 : Fin 16).val * 8))]), by decide⟩,
    ⟨0, State.reset, by decide⟩,
    ⟨.dennil, 0, State.reset, by decide⟩,
    ⟨0, State.reset, by decide⟩,
    ⟨0, (stOf (State.reset) [(⟨EM_TRIP, 31, 0⟩, 1, 0)]), by decide⟩,
    ⟨0, (stOf (State.reset) [(fEM_CTL_EN, 1, 0)]), by decide, by decide, by decide, by decide⟩,
    ⟨0, 33, (stOf (State.reset) [(fEM_CTL_EN, 1, 0), (⟨EM_ROUTE, 31, 0⟩, 2, 4)]), by decide, by decide, by decide, by decide⟩,
    ⟨0, (stOf ({ State.reset with em := { State.reset.em with fired := [(0, 9999)] } }) [(fEM_GUARD_EN, 1, 0),
    (fEM_GUARD_COUNT, 5, 0)]), by decide, by decide, by decide⟩,
    ⟨.dennil, 0, 0#32, State.reset, by decide⟩,
    ⟨.dennil, 0, State.reset, by decide⟩,
    ⟨0, State.reset, by decide⟩,
    ⟨0, (stOf (State.reset) [(fEM_CELL_CTL_EN, 1, ((0 : Fin 32).val * 0x10))]), _, _, _, by decide, by decide, rfl, rfl, rfl⟩,
    ⟨_, cc [0x50, 0, 0, 0, 0, 0, 0, 0], mbS, _, rfl, by unfold Accepted; decide, rfl, by decide, by decide⟩,
    ⟨_, (cc (zeros 8)), prf [⟨0x14, 0, [], [], 0⟩] mbS, _, ⟨0x14, 0, [], [], 0⟩, rfl, by unfold Accepted; decide, rfl,
    by decide⟩,
    ⟨_, { cc [0, 1, 0, 0, 0, 0, 0, 0, 0, 0, 0, 0, 0, 0, 0, 0] with data := [7] }, mbS, _, rfl, by unfold Accepted; decide,
    rfl, by decide, by decide, by decide, by decide⟩⟩

theorem witness_MatrixRowsComplete_cases :
    (∃ (k : Fin 16) (x : Bool) (l : Bool) (s : State) (u : State), l = (x != fbit s fEM_IN_CFG_POL (k.val * 4)) ∧
     bit (rdn s EM_IN_LEVEL) k.val ≠ l ∧ u = regBit s EM_IN_LEVEL k.val l ∧ fbit s fEM_IN_CFG_EN (k.val * 4) = true ∧
     bit (fget s fEM_IN_CFG_EDGE (k.val * 4)) (if l then 0 else 1) = true) ∧
    (∃ (k : Fin 16) (x : Bool) (l : Bool) (s : State) (u : State), l = (x != fbit s fEM_IN_CFG_POL (k.val * 4)) ∧
     bit (rdn s EM_IN_LEVEL) k.val ≠ l ∧ u = regBit s EM_IN_LEVEL k.val l ∧ fbit s fEM_IN_CFG_EN (k.val * 4) = false) :=
  ⟨⟨0, true, _, (stOf (State.reset) [(fEM_IN_CFG_EN, 1, ((0 : Fin 16).val * 4)), (fEM_IN_CFG_EDGE, 3, 0), (fEM_IN_CFG_EN, 1,
    0)]), _, rfl, by decide, rfl, by decide, by decide⟩,
    ⟨0, true, _, State.reset, _, rfl, by decide, rfl, by decide⟩⟩

theorem witness_DetectionsComplete :
    (∃ (x : Fin 512) (h : Bool) (s : State), paAssigned x.val = true ∧ x.val ≠ 0x42) ∧
    (∃ (x : Fin 512) (h : Bool) (s : State), paAssigned x.val = false) ∧
    (∃ (p : List Byte) (s : State) (u : State), byteAt p 0 = 0x10 ∧ byteAt p 1 = 0x50 ∧ 16 ≤ p.length ∧
     u = evt (wrn (wrn s PA_NBR (u16At p 6 % 1024 * 2 ^ 22 + byteAt p 5 % 2 * 2 ^ 21 + byteAt p 5 / 2 % 2 * 2 ^ 20 + byteAt p 4 % 4 * 2 ^ 18 + u16At p 2 % 512)) PA_NBR_STAMP (u32At p 8)) fPA_EVT_NBR) ∧
    (∃ (tj : BitVec 16) (s : State) (u : State), u = fset s fPA_THERM_TJ tj.toNat) ∧
    (∃ (s : State), ((∀ i ∈ instances s, i.ok = true))) ∧
    (∃ (s : State) (i : Instance) (l : List Instance),
     ((instances s).filter (fun i => !i.ok) = i :: l) ∧ fbit s fHE_STAT_FLR_BUSY = false) :=
  ⟨⟨0, false, State.reset, by decide, by decide⟩,
    ⟨6, false, State.reset, by decide⟩,
    ⟨[0x10, 0x50] ++ zeros 14, State.reset, _, by decide, by decide, by decide, rfl⟩,
    ⟨0#16, State.reset, _, rfl⟩,
    ⟨State.reset, by decide⟩,
    ⟨{ State.reset with acct := { State.reset.acct with lgOpened := 1 } }, ⟨0, 0, 1, true⟩, [], by decide, by decide⟩⟩

theorem witness_DetectionsComplete_cases :
    (∃ (p : List Byte) (s : State) (u : State), byteAt p 0 = 0x10 ∧ byteAt p 1 = 0x50 ∧ 16 ≤ p.length ∧
     u = evt (wrn (wrn s PA_NBR (u16At p 6 % 1024 * 2 ^ 22 + byteAt p 5 % 2 * 2 ^ 21 + byteAt p 5 / 2 % 2 * 2 ^ 20 + byteAt p 4 % 4 * 2 ^ 18 + u16At p 2 % 512)) PA_NBR_STAMP (u32At p 8)) fPA_EVT_NBR ∧
     bit (byteAt p 5) 0 = false) ∧
    (∃ (p : List Byte) (s : State) (u : State), byteAt p 0 = 0x10 ∧ byteAt p 1 = 0x50 ∧ 16 ≤ p.length ∧
     u = evt (wrn (wrn s PA_NBR (u16At p 6 % 1024 * 2 ^ 22 + byteAt p 5 % 2 * 2 ^ 21 + byteAt p 5 / 2 % 2 * 2 ^ 20 + byteAt p 4 % 4 * 2 ^ 18 + u16At p 2 % 512)) PA_NBR_STAMP (u32At p 8)) fPA_EVT_NBR ∧
     bit (byteAt p 5) 0 = true ∧ fbit s fPA_CTL_NBR_SAFE = true) ∧
    (∃ (tj : BitVec 16) (s : State) (u : State), u = fset s fPA_THERM_TJ tj.toNat ∧
     ((fget s fPA_THERM_WARN * 16 : Nat) < tj.toInt) ∧ 0x18 ∉ s.pa.asserting) ∧
    (∃ (tj : BitVec 16) (s : State) (u : State), u = fset s fPA_THERM_TJ tj.toNat ∧
     ((fget s fPA_THERM_WARN * 16 : Nat) < tj.toInt) ∧ 0x18 ∈ s.pa.asserting) ∧
    (∃ (tj : BitVec 16) (s : State) (u : State), u = fset s fPA_THERM_TJ tj.toNat ∧
     tj.toInt ≤ (fget s fPA_THERM_WARN * 16 : Nat) - 80) ∧
    (∃ (tj : BitVec 16) (s : State) (u : State), u = fset s fPA_THERM_TJ tj.toNat ∧
     ((fget s fPA_THERM_WARN * 16 : Nat) - 80 < tj.toInt) ∧ tj.toInt ≤ (fget s fPA_THERM_WARN * 16 : Nat)) ∧
    (∃ (tj : BitVec 16) (s : State) (u : State), u = fset s fPA_THERM_TJ tj.toNat ∧ 2528 < tj.toInt) ∧
    (∃ (tj : BitVec 16) (s : State) (u : State), u = fset s fPA_THERM_TJ tj.toNat ∧ tj.toInt ≤ 2528) :=
  ⟨⟨[0x10, 0x50] ++ zeros 14, State.reset, _, by decide, by decide, by decide, rfl, by decide⟩,
    ⟨[0x10, 0x50, 0, 0, 0, 1] ++ zeros 10, (stOf (State.reset) [(fPA_CTL_NBR_SAFE, 1, 0)]), _, by decide, by decide,
    by decide, rfl, by decide, by decide⟩,
    ⟨0x7FFF, State.reset, _, rfl, by decide, by decide⟩,
    ⟨0x7FFF, { State.reset with pa := { State.reset.pa with asserting := [0x18] } }, _, rfl, by decide, by decide⟩,
    ⟨0x8000, State.reset, _, rfl, by decide⟩,
    ⟨BitVec.ofNat 16 (16 * fget State.reset fPA_THERM_WARN), State.reset, _, rfl, by decide, by decide⟩,
    ⟨2529, State.reset, _, rfl, by decide⟩,
    ⟨2528, State.reset, _, rfl, by decide⟩⟩

theorem witness_DetectionsLatchAndEnterTheSafeState :
    (∃ (x : Nat) (s : State), x < 512 ∧ rdn s (PA_CNT + paClass s x * 4) < 0xFFFFFFFF) ∧
    (∃ (x : Nat) (s : State), paReacts s x = false ∧ s.rs.asleep = false) ∧
    (∃ (s : State), safeState s = true) ∧
    (∃ (x : Nat) (s : State), 2 ≤ paClass s x ∧ paReacts s x = true) :=
  ⟨⟨0, State.reset, by decide, by decide⟩,
    ⟨0, (stOf (State.reset) [(⟨PA_STICKY, 31, 0⟩, 1, 0)]), by decide, by decide⟩,
    ⟨(stOf (State.reset) [(fPA_STAT_SAFE, 1, 0)]), by decide⟩,
    ⟨0, State.reset, by decide, by decide⟩⟩

theorem witness_ParapetControlsComplete :
    (∃ (s : State), fbit s fPA_WDOG_EN = true ∧ s.pa.kickAt + max 1 (fget s fPA_WDOG_TMO) * 500000 ≤ s.tick ∧
     s.rs.asleep = false) ∧
    (∃ (s : State), fbit s fPA_WDOG_EN = false) ∧
    (∃ (ag : Agent) (s : State), ((ag = .dennil ∨ leased s 0x16 none = true))) ∧
    (∃ (s : State), fbit s fPA_STAT_ALIVE_RUN = true) ∧
    (∃ (s : State), fbit s fPA_STAT_ALIVE_RUN = false) ∧
    (∃ (ended : List Nat) (s : State), releaseOk (endAsserts ended s) = true) ∧
    (∃ (ended : List Nat) (s : State), releaseOk (endAsserts ended s) = false) ∧
    (∃ (w : Fin 16) (m : Word) (s : State), ((∀ x ∈ wordSources w.val m.toNat, condHolds s x = false))) ∧
    (∃ (sp : CmdSpec) (c : CmdCall) (s : State) (u : State), sp = ⟨0x1610, 0x10, false, 8, 8, false, true⟩ ∧ Accepted sp c s ∧
     u = mbTake c s ∧ pw c 0 < 512 ∧ paAssigned (pw c 0) = true) ∧
    (∃ (sp : CmdSpec) (c : CmdCall) (s : State) (u : State), sp = ⟨0x1611, 0x10, false, 8, 8, false, true⟩ ∧ Accepted sp c s ∧
     u = endAsserts (endedOf c) (mbTake c s) ∧ releaseOk u = true) ∧
    (∃ (sp : CmdSpec) (c : CmdCall) (s : State) (u : State), sp = ⟨0x1612, 0x10, false, 8, 8, false, true⟩ ∧ Accepted sp c s ∧
     u = mbTake c s) ∧
    (∃ (sp : CmdSpec) (c : CmdCall) (s : State) (u : State), sp = ⟨0x1690, 0x10, true, 68, 68, false, true⟩ ∧
     Accepted sp c s ∧ u = mbTake c s ∧ ((∀ x,
     x < 512 → bit (byteAt c.payload (x / 8)) (x % 8) = true → newClass u (pb c 65) x < 2)) ∧ ((∀ k,
     k < 4 → bits (pb c 65) (2 * k + 1) (2 * k) ≠ 3)) ∧ pb c 66 ≤ 150) :=
  ⟨⟨(stOf ({ State.reset with tick := 100000000000 }) [(fPA_WDOG_EN, 1, 0)]), by decide, by decide, by decide⟩,
    ⟨State.reset, by decide⟩,
    ⟨.dennil, State.reset, by decide⟩,
    ⟨(stOf (State.reset) [(fPA_STAT_ALIVE_RUN, 1, 0)]), by decide⟩,
    ⟨State.reset, by decide⟩,
    ⟨[], (stOf (State.reset) [(fPA_STAT_SAFE, 1, 0)]), by decide +kernel⟩,
    ⟨[], State.reset, by decide⟩,
    ⟨0, 0#32, State.reset, by decide⟩,
    ⟨_, (cc (zeros 8)), mbS, _, rfl, by unfold Accepted; decide, rfl, by decide, by decide⟩,
    ⟨_, (cc (zeros 8)), (stOf (mbS) [(fPA_STAT_SAFE, 1, 0)]), _, rfl, by unfold Accepted; decide, rfl, by decide +kernel⟩,
    ⟨_, (cc (zeros 8)), mbS, _, rfl, by unfold Accepted; decide, rfl⟩,
    ⟨_, (cc (zeros 68)), mbS, _, rfl, by unfold Accepted; decide, rfl, by decide, by decide, by decide⟩⟩

theorem witness_ParapetControlsComplete_cases :
    (∃ (ag : Agent) (s : State), ((ag = .dennil ∨ leased s 0x16 none = true)) ∧ fbit s fPA_WDOG_EN = true) ∧
    (∃ (ag : Agent) (s : State), ((ag = .dennil ∨ leased s 0x16 none = true)) ∧ fbit s fPA_WDOG_EN = false) :=
  ⟨⟨.dennil, (stOf (State.reset) [(fPA_WDOG_EN, 1, 0)]), by decide, by decide⟩,
    ⟨.dennil, State.reset, by decide, by decide⟩⟩

theorem witness_TableWindowsAreClearedByPowerOnAndUnitReset :
    (∃ (f : BootFound) (s : State) (t : State) (u : State) (a : Nat),
     ((exec .powerOnReset s = .next t ∨ exec .aonBrownout s = .next t)) ∧ exec (.powerOnResetRelease f) t = .next u) ∧
    (∃ (c : CmdCall) (s : State) (t : State) (a : Nat), Accepted ⟨0x1813, 0x10, true, 8, 8, false, true⟩ c s ∧
     exec (.unitReset c) s = .next t) ∧
    (∃ (c : Instr) (s : State) (t : State) (a : Nat), exec c s = .next t ∧ (((∃ d,
     c = .linkReset d) ∨ c = .functionLevelReset ∨ c = .flrDmaSilence ∨ c = .flrComplete ∨ c = .perstNRelease ∨ c = .wake ∨ (∃ k,
     c = .stewardRestart k) ∨ (∃ k, c = .sleep k)))) :=
  ⟨⟨bf true, State.reset, porst State.reset, _, 0, Or.inl rfl, rfl⟩,
    ⟨(cc (zeros 8)), mbS, _, 0, by unfold Accepted; decide, rfl⟩,
    ⟨.perstNRelease, State.reset, _, 0, rfl, by simp⟩⟩

theorem witness_LinkTimeoutOnlySetsItsEvent :
    ∃ (p : PortNo) (s : State), portRx s p.val = true ∧ fget s fPP_HP_TIMING_LINK_TMO (pof p.val) ≠ 0 ∧
    ((portSt s p.val).burst = false) :=
  ⟨0, (stOf (State.reset) [(fPP_SLOT_STAT_STATE, 3, pof (0 : PortNo).val), (fPP_CTL_EN, 1, pof (0 : PortNo).val),
    (fPP_HP_TIMING_LINK_TMO, 1, (pof (0 : PortNo).val))]), by decide, by decide, by decide⟩

theorem witness_RepeatedStartDiscardsOrCommits :
    (∃ (b : TwNo) (a : BitVec 7) (l : List Byte) (s : State) (u : State) (a1 : Bool), twTarget s b.val = true ∧
     s.rs.asleep = false ∧ twOwn s b.val a.toNat = some a1 ∧
     u = updTw s b.val (fun x => { x with sampled := none }) ∧ quRoom u (48 + b.val) 264 = true) ∧
    (∃ (b : TwNo) (a : BitVec 7) (k : Byte) (s : State) (u : State) (a1 : Bool), twTarget s b.val = true ∧
     s.rs.asleep = false ∧ twOwn s b.val a.toNat = some a1 ∧
     u = updTw s b.val (fun x => { x with sampled := none }) ∧ quRoom u (48 + b.val) 264 = true ∧ ((enType (twEntry s b.val k.toNat) = 3 ∨ enType (twEntry s b.val k.toNat) = 4 ∨ enType (twEntry s b.val k.toNat) = 6 ∨ enType (twEntry s b.val k.toNat) = 7))) :=
  ⟨⟨0, 0x40, [], (stOf (State.reset) [(fTW_CFG_EN, 1, two (0 : TwNo).val), (fTW_CFG_TGT_EN, 1, two (0 : TwNo).val),
    (fTW_ADDR_A0_EN, 1, 0), (fTW_ADDR_A0, 0x40, 0)]), _, false, by decide, by decide, by decide, rfl, by decide⟩,
    ⟨0, 0x40, 0#8, (stOf (State.reset) [(fTW_CFG_EN, 1, two (0 : TwNo).val), (fTW_CFG_TGT_EN, 1, two (0 : TwNo).val),
    (fTW_ADDR_A0_EN, 1, 0), (fTW_ADDR_A0, 0x40, 0), (⟨TW_TGT_CMD, 31, 28⟩, 4, 0)]), _, false, by decide, by decide, by decide,
    rfl, by decide, by decide⟩⟩

theorem witness_FailedPostedBeatIsLoggedNotRetried :
    ∃ (s : State) (u : State) (b : AbBeat) (l : List AbBeat) (r : Nat) (i : Nat) (f : Nat → State), s.ab.bus = .posted ∧
    s.ab.posted = b :: l ∧ abRegion s b.off = some r ∧
    ((List.range 8).find? (fun i => !fbit s fAB_LOG_INFO_VALID (i * 0x10)) = some i) ∧ u = updAb (fun a => { a with bus := .idle }) s ∧ f = (fun code => abRun (postedDone (emFire 0x39 (evt (wrn (wrn (wrn (cnt u AB_CNT_ERR) (AB_LOG_ADDR + i * 0x10) (abLocal u r b.off)) (AB_LOG_STAMP + i * 0x10) (now s)) (AB_LOG_INFO + i * 0x10) (2 ^ 31 + 2 ^ 30 + r * 2 ^ 24 + code)) fAB_EVT_ERR)))) :=
  ⟨stOf { State.reset with ab := { State.reset.ab with bus := .posted, posted := [⟨0, 15, 0⟩] } } [(fAB_CTL_EN, 1, 0),
    (fAB_REG_CTL_EN, 1, 0), (⟨AB_REG_SIZE, 31, 0⟩, 0x10000, 0)], _, ⟨0, 15, 0⟩, [], 0, 0, _, by decide, by decide, by decide,
    by decide, rfl, rfl⟩

theorem witness_RoutedConsumersGetOneEvent :
    (∃ (s : State) (p : Nat) (i : Nat), i < 192) ∧
    (∃ (ps : List Nat) (s : State), fbit s fEM_CTL_EN = false) ∧
    (∃ (ps : List Nat) (s : State), fbit s fEM_CTL_EN = true) :=
  ⟨⟨State.reset, 0, 0, by decide⟩,
    ⟨[], State.reset, by decide⟩,
    ⟨[], (stOf (State.reset) [(fEM_CTL_EN, 1, 0)]), by decide⟩⟩

theorem witness_BusyConsumersOverrun :
    (∃ (i : Nat) (s : State), i < 192) ∧
    (∃ (d : Nat → State → State) (k : Nat) (s : State), k < 16 ∧ fbit s fEM_OUT_CFG_EN (k * 8) = true ∧
     fget s fEM_OUT_CFG_MODE (k * 8) = 0 ∧ fbit s fEM_OUT_STAT_BUSY (k * 8) = true) ∧
    (∃ (d : Nat → State → State) (c : Nat) (s : State) (u : State), c < 8 ∧ fbit s fTB_CAP_CTL_EN (c * 0x20) = true ∧
     fbit s fTB_CAP_CTL_VALID (c * 0x20) = true ∧
     u = evt (cnt (emOverrun (0x10 + c) s) (TB_CAP_CNT_OVR + c * 0x20)) fTB_EVT_CAP_OVR) :=
  ⟨⟨0, State.reset, by decide⟩,
    ⟨fun _ t => t, 0, (stOf (State.reset) [(fEM_OUT_CFG_EN, 1, ((0 : Nat) * 8)), (fEM_OUT_STAT_BUSY, 1, ((0 : Nat) * 8))]), by decide, by decide, by decide, by decide⟩,
    ⟨fun _ t => t, 0, (stOf (State.reset) [(fTB_CAP_CTL_EN, 1, ((0 : Nat) * 0x20)), (fTB_CAP_CTL_VALID, 1, ((0 : Nat) * 0x20))]), _, by decide, by decide, by decide, rfl⟩⟩

theorem witness_QueueWordIdentityIsKept :
    ∃ (Inv : State → Nat → Prop) (s : State) (q : Nat), ((∀ s q,
    Inv s q ↔ fget s fQU_LEVEL_HELD (quo q) = (quGet s q).words.length ∧
    rdn s (QU_CNT_WR + quo q) = (rdn s (QU_CNT_RD + quo q) + rdn s (QU_CNT_DROP + quo q) + fget s fQU_LEVEL_HELD (quo q) + rdn s (QU_CNT_WOFF + quo q)) % 2 ^ 32)) ∧
    q < 66 ∧ Inv s q :=
  ⟨fun x r => fget x fQU_LEVEL_HELD (quo r) = (quGet x r).words.length ∧ rdn x (QU_CNT_WR + quo r) = (rdn x (QU_CNT_RD + quo r) + rdn x (QU_CNT_DROP + quo r) + fget x fQU_LEVEL_HELD (quo r) + rdn x (QU_CNT_WOFF + quo r)) % 2 ^ 32, State.reset, 0, fun _ _ => Iff.rfl, by decide, by decide⟩

end Sys2Proof.Tests
end

section
/-! R453 for O54: what the resets leave of the table windows. Power-on and the unit's own reset return the component `tables`
to its reset value; every other operation that a reset runs leaves the component as it is. The second fact is a frame lemma for
each operation, in the order in which the operations call one another: `f_tables` says that `f` keeps the table windows, each
cites the lemmas of the operations that `f` calls, and a split names the cases where `f` decides by a match.

`simp -implicitDefEqProofs` writes the rewrites out in the proof term. With the default the kernel would have to see by
unfolding that a state and its update agree in one field, and would evaluate register addresses to find out. -/

namespace Sys2Proof.Machine

/-! ## Loops and branches -/

theorem foldl_tables {α : Type} {f : State → α → State} (hf : ∀ t x, (f t x).tables = t.tables) (l : List α) (s : State) :
    (l.foldl f s).tables = s.tables := by
  induction l generalizing s with
  | nil => rfl
  | cons x l ih => rw [List.foldl_cons, ih, hf]

@[simp] theorem forEach_tables {α : Type} {f : α → State → State} (hf : ∀ x t, (f x t).tables = t.tables) (l : List α)
    (s : State) : (forEach l f s).tables = s.tables := foldl_tables (fun t x => hf x t) l s

@[simp] theorem ite_tables {p : Prop} [Decidable p] (s t : State) :
    (if p then s else t).tables = if p then s.tables else t.tables := apply_ite State.tables p s t

/-! ## Updates of one component -/

section
variable (s : State)

@[simp] theorem updPort_tables (p : Nat) (f : PortSt → PortSt) : (updPort s p f).tables = s.tables := rfl
@[simp] theorem updChan_tables (c : Nat) (f : MbChan → MbChan) : (updChan s c f).tables = s.tables := rfl
@[simp] theorem updLanes_tables (p : Nat) (f : LanePort → LanePort) : (updLanes s p f).tables = s.tables := rfl
@[simp] theorem updTw_tables (b : Nat) (f : TwSt → TwSt) : (updTw s b f).tables = s.tables := rfl
@[simp] theorem updEntry_tables (id : Nat) (f : Entry → Entry) : (updEntry s id f).tables = s.tables := rfl
@[simp] theorem setNetPort_tables (p : Nat) (f : NetPort → NetPort) : (setNetPort s p f).tables = s.tables := rfl
@[simp] theorem enqueue_tables (p : Nat) (x : TxItem) : (enqueue s p x).tables = s.tables := rfl
@[simp] theorem bumpMsg_tables (cls : Nat) : (bumpMsg s cls).tables = s.tables := rfl
@[simp] theorem acct_tables (f : Acct → Acct) : (acct s f).tables = s.tables := rfl
@[simp] theorem slotsOrphan_tables (c : Nat) : (slotsOrphan c s).tables = s.tables := rfl
@[simp] theorem resetDom_tables (d : Dom) : (resetDom d s).tables = s.tables := rfl

/-! ## Interrupts, logs and indicators -/

@[simp] theorem vecEval_tables (v : Nat) : (vecEval v s).tables = s.tables := (vecEval_only v s).tables
@[simp] theorem intxEval_tables : (intxEval s).tables = s.tables := (intxEval_only s).tables
@[simp] theorem irqUpdate_tables (n : Nat) : (irqUpdate n s).tables = s.tables := (irqUpdate_only n s).tables

@[simp] theorem evtBit_tables (a i : Nat) : (evtBit s a i).tables = s.tables := by
  simp -implicitDefEqProofs [evtBit]

@[simp] theorem logWrite_tables (kind : Nat) (data : List Byte) : (logWrite s kind data).tables = s.tables := by
  unfold logWrite
  split <;> rfl

@[simp] theorem indAll_tables : (indAll s).tables = s.tables := by
  simp -implicitDefEqProofs [indAll, indUpdate]

/-! ## Messages on the Span -/

@[simp] theorem dropNoRoute_tables (p n : Nat) : (dropNoRoute s p n).tables = s.tables := by
  simp -implicitDefEqProofs [dropNoRoute]

@[simp] theorem netSend_tables (cls flags dst : Nat) (segs : List (List Byte)) :
    (netSend s cls flags dst segs).tables = s.tables := by
  simp -implicitDefEqProofs [netSend, foldl_tables]

@[simp] theorem netBcast_tables (cls flags : Nat) (segs : List (List Byte)) :
    (netBcast s cls flags segs).tables = s.tables := by
  simp -implicitDefEqProofs [netBcast, foldl_tables]

@[simp] theorem netLocal_tables (p cls flags : Nat) (payload : List Byte) :
    (netLocal s p cls flags payload).tables = s.tables := by
  simp -implicitDefEqProofs [netLocal, foldl_tables]

@[simp] theorem sendDennil_tables (pier topic : Nat) (body : List Byte) : (sendDennil s pier topic body).tables = s.tables :=
  netSend_tables s _ _ _ _

@[simp] theorem reportSend_tables : (reportSend s).tables = s.tables := by
  simp -implicitDefEqProofs [reportSend, sendHostLink]

@[simp] theorem mbEvent_tables (c kind tag : Nat) (result : List Byte) : (mbEvent c kind tag result s).tables = s.tables := by
  simp -implicitDefEqProofs [mbEvent]

/-! ## Notices and the REPLACE state (R403, R408) -/

@[simp] theorem paNotice_tables (src cls : Nat) : (paNotice s src cls).tables = s.tables := by
  simp -implicitDefEqProofs [paNotice, bcastDennil]

@[simp] theorem twAlertReq_tables (b : Nat) (req : Bool) : (twAlertReq b req s).tables = s.tables := by
  simp -implicitDefEqProofs [twAlertReq, twAlertIn]

@[simp] theorem replaceNew_tables (bitNo : Nat) : (replaceNew bitNo s).tables = s.tables := by
  simp -implicitDefEqProofs [replaceNew, sendEvent]

@[simp] theorem replaceTo_tables (new : Nat) : (replaceTo new s).tables = s.tables := by
  simp -implicitDefEqProofs [replaceTo]

@[simp] theorem replaceUpdate_tables : (replaceUpdate s).tables = s.tables := replaceTo_tables s _

/-! ## The ledger and the evidence of a set that ends (R119, R346) -/

@[simp] theorem retireEntry_tables (id : Nat) : (retireEntry id s).tables = s.tables := by
  simp -implicitDefEqProofs [retireEntry, setLive, idleReport]

@[simp] theorem finishSet_tables (r : SetRec) : (finishSet s r).tables = s.tables := by
  simp -implicitDefEqProofs [finishSet, dropSet]

@[simp] theorem sendOutcome_tables (r : SetRec) (code action launch durNs : Nat) :
    (sendOutcome s r code action launch durNs).tables = s.tables := by
  simp -implicitDefEqProofs [sendOutcome, noteOutcome]

@[simp] theorem poolGive_tables (p n : Nat) : (poolGive s p n).tables = s.tables := by
  simp -implicitDefEqProofs [poolGive, poolFree]

@[simp] theorem evMember_tables (keep : Bool) (code owner launch durUs m : Nat) :
    (evMember keep code owner launch durUs m s).tables = s.tables := by
  unfold evMember
  split
  case h_1 => rfl
  case h_2 c _ => cases c.data <;> simp -implicitDefEqProofs

@[simp] theorem evTerminal_tables (r : SetRec) (code launch durUs : Nat) :
    (evTerminal s r code launch durUs).tables = s.tables := by
  simp -implicitDefEqProofs [evTerminal]

@[simp] theorem endSet_tables (owner : Nat) (passed : Bool) : (endSet s owner passed).tables = s.tables := by
  unfold endSet
  split
  case h_1 => rfl
  case h_2 => simp -implicitDefEqProofs [moveSet]

/-! ## Buses and orders (R167 to R180) -/

@[simp] theorem updBus_tables (b : Nat) (f : BusSt → BusSt) : (updBus s b f).tables = s.tables := by
  simp -implicitDefEqProofs [updBus, syncBus]

@[simp] theorem sendSafe_tables (b : Nat) : (sendSafe b s).tables = s.tables := by
  simp -implicitDefEqProofs [sendSafe]

@[simp] theorem abortWire_tables (b : Nat) : (abortWire b s).tables = s.tables := by
  unfold abortWire
  split <;> simp -implicitDefEqProofs

@[simp] theorem busSafe_tables (b : Nat) : (busSafe b s).tables = s.tables := by
  simp -implicitDefEqProofs [busSafe]

@[simp] theorem cancelRemotes_tables (o : Order) : (cancelRemotes s o).tables = s.tables := by
  simp -implicitDefEqProofs [cancelRemotes]

@[simp] theorem cancelParts_tables (b : Nat) (sel : Part → Bool) : (cancelParts b sel s).tables = s.tables := by
  simp -implicitDefEqProofs [cancelParts]

@[simp] theorem orderEnds_tables (owner : Nat) : (orderEnds s owner).tables = s.tables := by
  unfold orderEnds
  split
  case h_1 => rfl
  case h_2 r _ => cases setState s r <;> simp -implicitDefEqProofs

@[simp] theorem cancelOrder_tables (owner counter : Nat) : (cancelOrder s owner counter).tables = s.tables := by
  unfold cancelOrder
  split
  case h_1 => rfl
  case h_2 => simp -implicitDefEqProofs [dropOrder]

@[simp] theorem actSafe_tables : (actSafe s).tables = s.tables := by
  simp -implicitDefEqProofs [actSafe, cancelEverything]

/-! ## Detections (R397 to R404) -/

@[simp] theorem paPins_tables : (paPins s).tables = s.tables := by
  simp -implicitDefEqProofs [paPins]

@[simp] theorem safeEnter_tables : (safeEnter s).tables = s.tables := by
  simp -implicitDefEqProofs [safeEnter]

@[simp] theorem paCount_tables (src : Nat) : (paCount s src).tables = s.tables := by
  simp -implicitDefEqProofs [paCount, paSetSticky]

@[simp] theorem paLog_tables (src cls : Nat) : (paLog s src cls).tables = s.tables := by
  simp -implicitDefEqProofs [paLog]

@[simp] theorem paReact_tables (src cls : Nat) : (paReact s src cls).tables = s.tables := by
  simp -implicitDefEqProofs [paReact]

@[simp] theorem paDetectCore_tables (src : Nat) : (paDetectCore src s).tables = s.tables := by
  simp -implicitDefEqProofs [paDetectCore]

/-! ## The event matrix (R374 to R378) -/

@[simp] theorem emOverrun_tables (i : Nat) : (emOverrun i s).tables = s.tables := by
  simp -implicitDefEqProofs [emOverrun]

@[simp] theorem emOutTask_tables (k : Nat) : (emOutTask k s).tables = s.tables := by
  unfold emOutTask
  extract_lets o
  split
  · rfl
  · split <;> simp -implicitDefEqProofs [emDrive]

@[simp] theorem emCapTask_tables (c : Nat) : (emCapTask c s).tables = s.tables := by
  simp -implicitDefEqProofs [emCapTask, captureAll]

@[simp] theorem emGateTask_tables : (emGateTask s).tables = s.tables := by
  unfold emGateTask
  split <;> rfl

@[simp] theorem emCellTask_tables (k j : Nat) : (emCellTask k j s).tables = s.tables := by
  unfold emCellTask
  split <;> rfl

@[simp] theorem emCount_tables (p : Nat) : (emCount p s).tables = s.tables := rfl

/-- What the consumers do with an event keeps the tables if what their Parapet sources do keeps them. -/
@[simp] theorem emFireWith_tables {det : Nat → State → State} (hd : ∀ src t, (det src t).tables = t.tables) (ps : List Nat) :
    (emFireWith det ps s).tables = s.tables := by
  have task : ∀ i t, (emTask det i t).tables = t.tables := fun i t => by simp -implicitDefEqProofs [emTask, hd]
  simp -implicitDefEqProofs [emFireWith, task]

@[simp] theorem paDetect_tables (src : Nat) : (paDetect src s).tables = s.tables := by
  simp -implicitDefEqProofs [paDetect]

@[simp] theorem idleSafe_tables (b : Nat) : (idleSafe b s).tables = s.tables := by
  simp -implicitDefEqProofs [idleSafe, safeStart, emFire, emFires]

/-! ## The chain map and its routes (R222 to R243) -/

@[simp] theorem helloOnChange_tables (old : State) : (helloOnChange old s).tables = s.tables := by
  simp -implicitDefEqProofs [helloOnChange, sendHello]

@[simp] theorem complete_tables (c opcode status tag detail : Nat) (result : List Byte) :
    (complete c opcode status tag detail result s).tables = s.tables := by
  simp -implicitDefEqProofs [complete]

@[simp] theorem remoteLost_tables : (remoteLost s).tables = s.tables := by
  simp -implicitDefEqProofs [remoteLost]

@[simp] theorem hostSelect_tables : (hostSelect s).tables = s.tables := by
  unfold hostSelect
  extract_lets
  split <;> simp -implicitDefEqProofs [hostKeep]

@[simp] theorem flipUpdate_tables : (flipUpdate s).tables = s.tables := by
  unfold flipUpdate
  split
  · rfl
  · split <;> simp -implicitDefEqProofs

@[simp] theorem setRoute_tables (pier code : Nat) : (setRoute s pier code).tables = s.tables := by
  simp -implicitDefEqProofs [setRoute]

@[simp] theorem buildRoutes_tables : (buildRoutes s).tables = s.tables := by
  simp -implicitDefEqProofs [buildRoutes]

@[simp] theorem takeChain_tables (l : List ChainUnit) (floor epoch : Nat) : (takeChain l floor epoch s).tables = s.tables := by
  simp -implicitDefEqProofs [takeChain]

@[simp] theorem publish_tables : (publish s).tables = s.tables := by
  simp -implicitDefEqProofs [publish, sweepHolds, sendChain, keepChain]

@[simp] theorem sendReport_tables : (sendReport s).tables = s.tables := by
  simp -implicitDefEqProofs [sendReport]

/-! ## Transfers to and from the host, and their credit -/

@[simp] theorem tollTake_tables (c r cost : Nat) : (tollTake s c r cost).tables = s.tables := by
  simp -implicitDefEqProofs [tollTake]

@[simp] theorem tollBegin_tables (c : Nat) (costs : List (Nat × Nat)) : (tollBegin s c costs).tables = s.tables := by
  simp -implicitDefEqProofs [tollBegin, tollSettle, foldl_tables]

@[simp] theorem tollSpend_tables (c : Nat) (costs : List (Nat × Nat)) : (tollSpend s c costs).tables = s.tables := by
  simp -implicitDefEqProofs [tollSpend, foldl_tables]

@[simp] theorem tollShort_tables (c : Nat) (streaming : Bool) : (tollShort s c streaming).tables = s.tables := by
  simp -implicitDefEqProofs [tollShort]

@[simp] theorem tlpWrites_tables (fuel mps addr : Nat) (data : List Byte) (poisoned relaxed : Bool) :
    (tlpWrites fuel mps addr data poisoned relaxed s).tables = s.tables := by
  induction fuel generalizing addr data s with
  | zero => rfl
  | succ k ih => simp -implicitDefEqProofs [tlpWrites, ih]

@[simp] theorem dmaWrite_tables (addr : Nat) (data : List Byte) (poisoned data_ : Bool) :
    (dmaWrite s addr data poisoned data_).tables = s.tables := by
  simp -implicitDefEqProofs [dmaWrite, cfgSet]

@[simp] theorem readNow_tables (addr len : Nat) : (readNow addr len s).tables = s.tables := by
  simp -implicitDefEqProofs [readNow]

@[simp] theorem syncTags_tables : (syncTags s).tables = s.tables := by
  simp -implicitDefEqProofs [syncTags]

@[simp] theorem npIssue_tables (owner : ReqOwner) (tag addr len : Nat) : (npIssue owner tag addr len s).tables = s.tables := by
  simp -implicitDefEqProofs [npIssue]

@[simp] theorem mbFetch_tables (c : Nat) : (mbFetch c s).tables = s.tables := by
  unfold mbFetch
  extract_lets
  split
  · rfl
  · split <;> simp -implicitDefEqProofs

/-! ## Commands of the mailbox (R275 to R278) -/

@[simp] theorem completeFor_tables (opcode : Nat) (c : CmdCall) (status detail : Nat) (result : List Byte) :
    (completeFor opcode c status detail result s).tables = s.tables := by
  unfold completeFor
  cases c.origin <;> simp -implicitDefEqProofs

@[simp] theorem dropDeferred_tables (ch : Nat) (d : Deferred) : (dropDeferred ch d s).tables = s.tables := by
  simp -implicitDefEqProofs [dropDeferred]

@[simp] theorem endD_tables (x : Nat × Deferred) (status detail : Nat) (result : List Byte) :
    (endD x status detail result s).tables = s.tables := by
  simp -implicitDefEqProofs [endD]

@[simp] theorem endHost_tables (x : Nat × Deferred) (addr : Nat) (data result : List Byte) :
    (endHost x addr data result s).tables = s.tables := by
  have write : (hostWrite x.2.call addr data s).tables = s.tables := by
    unfold hostWrite
    cases x.2.call.origin <;> simp -implicitDefEqProofs
  simp -implicitDefEqProofs [endHost, putDeferred, write]

@[simp] theorem holdDeferred_tables (sp : CmdSpec) (c : CmdCall) (canStop waits : Bool) :
    (holdDeferred sp c canStop waits s).tables = s.tables := by
  unfold holdDeferred
  cases c.origin <;> simp -implicitDefEqProofs

@[simp] theorem completeCmd_tables (sp : CmdSpec) (c : CmdCall) (status detail : Nat) (result : List Byte) :
    (completeCmd sp c status detail result s).tables = s.tables := completeFor_tables s _ _ _ _ _

@[simp] theorem forwardCmd_tables (opcode : Nat) (c : CmdCall) : (forwardCmd opcode c s).tables = s.tables := by
  have read : ∀ addr n, (hostRead c addr n s).tables = s.tables := fun addr n => by
    unfold hostRead
    cases c.origin <;> simp -implicitDefEqProofs
  simp -implicitDefEqProofs [forwardCmd, read]

@[simp] theorem mbTake_tables (c : CmdCall) : (mbTake c s).tables = s.tables := by
  unfold mbTake
  cases mbFlight s c.chan.val <;> simp -implicitDefEqProofs [npEnd]

end

section
variable {run : CmdCall → State → State × CmdRes} (hr : ∀ c t, (run c t).1.tables = t.tables)
include hr

/-- A command keeps the tables once it is accepted, if its own rules do. -/
theorem runOwn_tables (sp : CmdSpec) (c : CmdCall) (s : State) : (runOwn sp run c s).tables = s.tables := by
  unfold runOwn
  extract_lets full r
  split <;> simp -implicitDefEqProofs [r, hr]

theorem runForwarded_tables (sp : CmdSpec) (c : CmdCall) (s : State) : (runForwarded sp run c s).tables = s.tables := by
  unfold runForwarded
  split
  · rfl
  · extract_lets p mb t
    split
    · simp -implicitDefEqProofs [t]
    · split <;> simp -implicitDefEqProofs [t, runOwn_tables hr]

/-- However a command ends, its acceptance included, it keeps the tables if its own rules do. -/
theorem mbRun_tables (sp : CmdSpec) (c : CmdCall) (s : State) : (mbRun sp run c s).tables = s.tables := by
  unfold mbRun
  split
  · exact runForwarded_tables hr sp c s
  split
  · rfl
  extract_lets t
  split
  · simp -implicitDefEqProofs [t]
  · split
    · simp -implicitDefEqProofs [t]
    · split <;> simp -implicitDefEqProofs [t, runOwn_tables hr]

end

section
variable (s : State)

/-! ## The ports of the Span (R215 to R239) -/

@[simp] theorem eyeStop_tables (p : Nat) (aborted : Bool) : (eyeStop p aborted s).tables = s.tables := by
  simp -implicitDefEqProofs [eyeStop]

@[simp] theorem eyeRise_tables (p : Nat) : (eyeRise p s).tables = s.tables := by
  simp -implicitDefEqProofs [eyeRise, eyePut]

@[simp] theorem eyeCmdEnd_tables (p : Nat) (data : Option (List Byte)) : (eyeCmdEnd p data s).tables = s.tables := by
  unfold eyeCmdEnd
  cases data <;> simp -implicitDefEqProofs

@[simp] theorem leaveActive_tables (p : Nat) (cut : Fin 3) : (leaveActive p cut s).tables = s.tables := by
  simp -implicitDefEqProofs [leaveActive, eyeAbort, setLanes]

@[simp] theorem dropQueues_tables (p : Nat) : (dropQueues p s).tables = s.tables := by
  unfold dropQueues
  extract_lets n fwd k s1 s2
  have free : s2.tables = s.tables := forEach_tables (fun x t => by cases x.ingress <;> rfl) fwd s
  simp -implicitDefEqProofs [free]

@[simp] theorem upstreamUpdate_tables : (upstreamUpdate s).tables = s.tables := by
  simp -implicitDefEqProofs [upstreamUpdate, setUpstream, delaysFresh]

@[simp] theorem portDown_tables (p : Nat) : (portDown p s).tables = s.tables := by
  simp -implicitDefEqProofs [portDown, clearRoutes]

@[simp] theorem portEnable_tables (p : Nat) (en : Bool) (cut : Fin 3) : (portEnable p en cut s).tables = s.tables := by
  simp -implicitDefEqProofs [portEnable, enterDisabled, enterDetect, latchLanes]

/-! ## The release of PORST_N (R420 to R424) -/

@[simp] theorem sampleStraps_tables (f : BootFound) : (sampleStraps f s).tables = s.tables := by
  simp -implicitDefEqProofs [sampleStraps, syncTime]

@[simp] theorem phyCheck_tables (dead : Nat) : (phyCheck dead s).tables = s.tables := by
  simp -implicitDefEqProofs [phyCheck]

@[simp] theorem bootError_tables (code : Nat) : (bootError code s).tables = s.tables := fset_tables s _ _ _

@[simp] theorem refuseDatum_tables (code : Nat) : (refuseDatum code s).tables = s.tables := by
  simp -implicitDefEqProofs [refuseDatum]

@[simp] theorem lp5xTrain_tables (gib : Nat) : (lp5xTrain gib s).tables = s.tables := by
  simp -implicitDefEqProofs [lp5xTrain]

@[simp] theorem readFuses_tables (f : BootFound) : (readFuses f s).tables = s.tables := by
  simp -implicitDefEqProofs [readFuses]

@[simp] theorem useHeader_tables (h : MediumHdr) : (useHeader h s).tables = s.tables := by
  simp -implicitDefEqProofs [useHeader]

@[simp] theorem restoreCredit_tables : (restoreCredit s).tables = s.tables := by
  unfold restoreCredit
  split <;> simp -implicitDefEqProofs [creditStart, wr64]

@[simp] theorem ringRegs_tables : (ringRegs s).tables = s.tables := by
  simp -implicitDefEqProofs [ringRegs]

@[simp] theorem wearUpdate_tables : (wearUpdate s).tables = s.tables := by
  simp -implicitDefEqProofs [wearUpdate]

@[simp] theorem mediumBoot_tables (m : Medium) : (mediumBoot m s).tables = s.tables := by
  unfold mediumBoot
  split
  · simp -implicitDefEqProofs
  extract_lets s1 key copies won ev
  have found : s1.tables = s.tables := by simp -implicitDefEqProofs [s1, takeContents]
  split
  · simp -implicitDefEqProofs [found]
  · split <;> simp -implicitDefEqProofs [found]

@[simp] theorem imageCopy_tables : (imageCopy s).tables = s.tables := by
  simp -implicitDefEqProofs [imageCopy]

@[simp] theorem causewayStart_tables : (causewayStart s).tables = s.tables := by
  simp -implicitDefEqProofs [causewayStart]

@[simp] theorem startImage_tables (booted : Nat) (f : FwSlot) : (startImage booted f s).tables = s.tables := by
  simp -implicitDefEqProofs [startImage]

@[simp] theorem startFrom_tables (signed : Nat) (l : List Nat) : (startFrom signed l s).tables = s.tables := by
  induction l with
  | nil => simp -implicitDefEqProofs [startFrom]
  | cons i rest ih => simp -implicitDefEqProofs [startFrom, ih]

@[simp] theorem selectImage_tables (signed : Nat) : (selectImage signed s).tables = s.tables := by
  simp -implicitDefEqProofs [selectImage]

theorem release_tables (f : BootFound) : (release f s).tables = s.tables := by
  simp -implicitDefEqProofs [release, idleBuses]

/-! ## Function and link resets (R262, R264) -/

@[simp] theorem updAb_tables (f : AbSt → AbSt) : (updAb f s).tables = s.tables := by
  simp -implicitDefEqProofs [updAb]

@[simp] theorem leaseEnd_tables (reason i : Nat) : (leaseEnd reason i s).tables = s.tables := by
  simp -implicitDefEqProofs [leaseEnd]

@[simp] theorem flrStart_tables : (flrStart s).tables = s.tables := by
  simp -implicitDefEqProofs [flrStart]

@[simp] theorem tileDrop_tables (id : Nat) (d : Drop) : (tileDrop id d s).tables = s.tables := by
  simp -implicitDefEqProofs [tileDrop, tileStat, setFlag]

@[simp] theorem flrTile_tables (a : TileAlloc) : (flrTile a s).tables = s.tables := by
  unfold flrTile
  cases a.maker <;> simp -implicitDefEqProofs [sendTileDone]

@[simp] theorem tapFetch_tables (p e : Nat) : (tapFetch p e s).tables = s.tables := by
  unfold tapFetch
  extract_lets
  split
  · rfl
  · split <;> simp -implicitDefEqProofs

@[simp] theorem ownerFail_tables (r : NpReq) : (ownerFail r s).tables = s.tables := by
  unfold ownerFail
  cases r.owner <;> simp -implicitDefEqProofs [fetchDrop, drFill]

theorem flrSilence_tables : (flrSilence s).tables = s.tables := by
  simp -implicitDefEqProofs [flrSilence]

@[simp] theorem quSetWords_tables (q : Nat) (v : Queue) : (quSetWords s q v).tables = s.tables := by
  simp -implicitDefEqProofs [quSetWords, quPut, quEvt, quSummary]

@[simp] theorem quFlush_tables (q : Nat) : (quFlush q s).tables = s.tables := by
  simp -implicitDefEqProofs [quFlush]

@[simp] theorem tileProduce_tables (id : Nat) : (tileProduce id s).tables = s.tables := by
  simp -implicitDefEqProofs [tileProduce, tileStat]

@[simp] theorem mateSet_tables (members got : List Nat) (lastMax home : Nat) :
    (mateSet members got lastMax home s).tables = s.tables := by
  unfold mateSet
  cases got <;> simp -implicitDefEqProofs

@[simp] theorem closeMembers_tables (ms : List Member) : (closeMembers ms s).tables = s.tables := by
  simp -implicitDefEqProofs [closeMembers, sendSet]

@[simp] theorem runGroupBack_tables (r : CalRun) : (runGroupBack r s).tables = s.tables := by
  simp -implicitDefEqProofs [runGroupBack, groupEnable, closeProv, setProv, provStat]

@[simp] theorem twCmdEnd_tables (b status wdone rdone : Nat) (data : List Byte) :
    (twCmdEnd b status wdone rdone data s).tables = s.tables := by
  simp -implicitDefEqProofs [twCmdEnd]

@[simp] theorem abortEffect_tables (d : Deferred) : (abortEffect d s).tables = s.tables := by
  unfold abortEffect
  dsimp only
  split
  · rfl
  split
  case h_2 => cases s.views.calRun <;> simp -implicitDefEqProofs
  case h_3 => cases s.views.ejectRun <;> simp -implicitDefEqProofs
  all_goals simp -implicitDefEqProofs

@[simp] theorem channelWipe_tables (c : Nat) : (channelWipe c s).tables = s.tables := by
  simp -implicitDefEqProofs [channelWipe, deferredStop, deferredOrphan, mbForget]

@[simp] theorem cfgResetAll_tables (flr : Bool) : (cfgResetAll flr s).tables = s.tables := by
  simp -implicitDefEqProofs [cfgResetAll]

@[simp] theorem flrFinish_tables (flr : Bool) : (flrFinish flr s).tables = s.tables := by
  simp -implicitDefEqProofs [flrFinish, flrWriteOff, flrEngines, poolSwitch, irqAll]

theorem flrComplete_tables : (flrComplete s).tables = s.tables := by
  simp -implicitDefEqProofs [flrComplete]

theorem linkReset_tables : (linkReset s).tables = s.tables := by
  simp -implicitDefEqProofs [linkReset, setW1]

/-! ## Restart of the steward, sleep and wake (R428, R429) -/

@[simp] theorem channelDrop_tables (c : Nat) : (channelDrop c s).tables = s.tables := by
  simp -implicitDefEqProofs [channelDrop]

@[simp] theorem stewardRestart_tables (signed : Nat) (slots : Option (List Nat)) :
    (stewardRestart signed slots s).tables = s.tables := by
  unfold stewardRestart
  cases slots <;> simp -implicitDefEqProofs [wdogSuspend]

@[simp] theorem completionWrite_tables (c : Nat) : (completionWrite c s).tables = s.tables := by
  unfold completionWrite
  split
  case h_1 => rfl
  case h_2 => simp -implicitDefEqProofs [closeDone, cplPut]

@[simp] theorem completeNow_tables (opcode : Nat) (c : CmdCall) : (completeNow opcode c s).tables = s.tables := by
  unfold completeNow
  cases c.origin <;> simp -implicitDefEqProofs

@[simp] theorem holdWrite_tables (hold : Bool) : (holdWrite hold s).tables = s.tables := by
  simp -implicitDefEqProofs [holdWrite]

@[simp] theorem busEnable_tables (b : Nat) (en : Bool) : (busEnable b en s).tables = s.tables := by
  simp -implicitDefEqProofs [busEnable, cancelBus]

theorem wake_tables : (wake s).tables = s.tables := by
  simp -implicitDefEqProofs [wake, wdogKick]

theorem runStewardRestart_tables (c : CmdCall) : (runStewardRestart c s).1.tables = s.tables := by
  unfold runStewardRestart
  split <;> simp -implicitDefEqProofs

theorem runSleep_tables (c : CmdCall) : (runSleep c s).1.tables = s.tables := by
  unfold runSleep
  split
  · rfl
  · simp -implicitDefEqProofs [withCut]

end

/-! ## R453 -/

/-- What PORST_N asserted and the unit's own reset leave of the table windows: nothing. -/
theorem porst_tables (s : State) : (porst s).tables = [] := by
  simp -implicitDefEqProofs [porst, outputsReset, State.reset]

/-- The table windows read 0 everywhere in a state that lists no byte of them. -/
theorem tblGet_of_tables_nil {s : State} (h : s.tables = []) (a : Nat) : tblGet s a = 0#8 := by
  unfold tblGet
  rw [h]
  rfl

/-- The release of PORST_N, or of the brownout's reset, finds the table windows cleared and writes none of them. -/
theorem powerOnRelease_clears_tables {f : BootFound} {s t u : State}
    (ht : exec .powerOnReset s = .next t ∨ exec .aonBrownout s = .next t) (hu : exec (.powerOnResetRelease f) t = .next u) :
    u.tables = [] := by
  have hp : t = porst s := by rcases ht with h | h <;> exact (Host.Outcome.next.inj h).symm
  have hr : u = release f t := (Host.Outcome.next.inj hu).symm
  rw [hr, release_tables, hp, porst_tables]

/-- An accepted UNIT_RESET leaves the table windows as PORST_N does (R430). -/
theorem unitReset_clears_tables {c : CmdCall} {s t : State} (ha : Accepted ⟨0x1813, 0x10, true, 8, 8, false, true⟩ c s)
    (h : exec (.unitReset c) s = .next t) : t.tables = [] := by
  have ht : t = wrn (porst (mbTake c s)) RS_CAUSE 2 := (Host.Outcome.next.inj h).symm.trans (mbRun_silent ha rfl)
  rw [ht, wrn_tables, porst_tables]

/-- The resets that R453 leaves over: of the link, of the function with its steps, of the steward, and sleep with wake. -/
def KeepingReset (c : Instr) : Prop :=
  (∃ d, c = .linkReset d) ∨ c = .functionLevelReset ∨ c = .flrDmaSilence ∨ c = .flrComplete ∨ c = .perstNRelease ∨ c = .wake ∨
    (∃ k, c = .stewardRestart k) ∨ (∃ k, c = .sleep k)

theorem keepingReset_tables {c : Instr} {s t : State} (hc : KeepingReset c) (h : exec c s = .next t) : t.tables = s.tables := by
  rcases hc with ⟨perst, rfl⟩ | rfl | rfl | rfl | rfl | rfl | ⟨k, rfl⟩ | ⟨k, rfl⟩ <;> cases h
  · rw [linkReset_tables]
    cases perst <;> rfl
  · split
    · rfl
    · exact flrStart_tables s
  · exact flrSilence_tables s
  · exact flrComplete_tables s
  · rfl
  · exact wake_tables s
  · exact mbRun_tables (fun c t => runStewardRestart_tables t c) _ k s
  · exact mbRun_tables (fun c t => runSleep_tables t c) _ k s

/-- Settles O54: PORST_N and the unit reset empty the table windows, and every operation of the other resets keeps them. -/
theorem tableWindowsAreClearedByPowerOnAndUnitReset : Obligations.TableWindowsAreClearedByPowerOnAndUnitReset := by
  refine ⟨?_, ?_, ?_⟩
  · intro f s t u a ht hu
    exact tblGet_of_tables_nil (powerOnRelease_clears_tables ht hu) a
  · intro c s t a ha h
    exact tblGet_of_tables_nil (unitReset_clears_tables ha h) a
  · intro c s t h hc a
    unfold tblGet
    rw [keepingReset_tables hc h]

end Sys2Proof.Machine
end

section
/-! R35 for O55: what a link timeout does to a sensor port. -/

namespace Sys2Proof.Machine

/-- Every register of a sensor port lies above the interrupt logic's registers. -/
theorem not_irqReg_pof {f : Fld} (h : 0x100000 ≤ f.reg) (p : Nat) : ¬ IrqReg (f.reg + pof p) := by
  simp only [IrqReg, HE_IPEND, HE_VEC_ARM, HE_PBA]
  omega

/-- A receiving port with LINK_TMO not 0 that saw no burst answers its link timeout with the event alone. -/
theorem exec_linkTimeout_of_noBurst {p : PortNo} {s : State} (hrx : portRx s p.val = true)
    (htmo : fget s fPP_HP_TIMING_LINK_TMO (pof p.val) ≠ 0) (hburst : (portSt s p.val).burst = false) :
    exec (.linkTimeout p) s = .next (evt s fPP_EVT_LINK_TMO (pof p.val)) := by
  have hguard : (portRx s p.val && fget s fPP_HP_TIMING_LINK_TMO (pof p.val) != 0 && !(portSt s p.val).burst) = true := by
    simp [hrx, htmo, hburst]
  exact congrArg Host.Outcome.next (if_pos hguard)

/-- PP_EVT and PP_SLOT_STAT are two registers, so the event of a link timeout keeps the slot's state. -/
theorem ppSlot_evt_linkTmo (s : State) (p : Nat) : ppSlot (evt s fPP_EVT_LINK_TMO (pof p)) p = ppSlot s p :=
  have hreg : fPP_SLOT_STAT_STATE.reg ≠ fPP_EVT_LINK_TMO.reg := by decide
  fget_evt_other s _ _ _ _ (fun h => hreg (Nat.add_right_cancel h)) (not_irqReg_pof (by decide) p)

/-- Settles O55: the timeout is its event, which reads 1, and PP_SLOT_STAT is another register. -/
theorem linkTimeoutOnlySetsItsEvent : Obligations.LinkTimeoutOnlySetsItsEvent := by
  intro p s hrx htmo hburst
  refine ⟨_, exec_linkTimeout_of_noBurst hrx htmo hburst, ?_, ppSlot_evt_linkTmo s p.val, evt_only s _ _⟩
  exact fbit_evt_same s _ _ rfl (by decide) (not_irqReg_pof (by decide) p.val)

end Sys2Proof.Machine
end

section
/-! R302 for O56: how the write part of a target command ends at a repeated start, and what the read part then serves. -/

namespace Sys2Proof.Machine

/-! ## The block's own state -/

@[simp] theorem twSt_updTw_same (s : State) (b : Nat) (f : TwSt → TwSt) : twSt (updTw s b f) b = f (twSt s b) :=
  Vector.getElem_set_self _

/-- The command table stands in registers, which a change of the block's own state keeps. -/
@[simp] theorem twEntry_updTw (s : State) (b p : Nat) (f : TwSt → TwSt) (code : Nat) :
    twEntry (updTw s b f) p code = twEntry s p code := rdn_congr rfl _

theorem enReads_iff (e : Nat) : enReads e = true ↔ enType e = 3 ∨ enType e = 4 ∨ enType e = 6 ∨ enType e = 7 := by
  simp [enReads, or_assoc]

/-! ## The write part -/

/-- A write to an own address that finds the block awake and its receive queue with room for the longest record. -/
theorem twTargetWrite_of_room {s : State} {b a : Nat} {a1 : Bool} (l : List Byte) (cl : TwClose)
    (htgt : twTarget s b = true) (hawake : s.rs.asleep = false) (hown : twOwn s b a = some a1)
    (hroom : quRoom (updTw s b (fun x => { x with sampled := none })) (48 + b) 264 = true) :
    twTargetWrite b a l cl none s = twWrite b a a1 l cl (updTw s b (fun x => { x with sampled := none })) := by
  simp [twTargetWrite, twRoleSwitch, htgt, hawake, hown, hroom]

theorem twWrite_rsInAck (b a : Nat) (a1 : Bool) (l : List Byte) (s : State) :
    twWrite b a a1 l .rsInAck s = twDiscard b (fbset s fTW_STAT_RS_IN_ACK true (two b)) := if_pos rfl

/-- A command code alone is a whole write part where its entry allows a read (R298). -/
theorem twBody_read_nil {e : Nat} (h : enReads e = true) : twBody e true [] = some ([], []) := by
  simp [twBody, h]

/-- A command code whose entry allows a read, then a repeated start: the record is committed and the entry sampled. -/
theorem twWrite_code_rsRead (a : Nat) (a1 : Bool) {b : Nat} {code : Byte} {s : State}
    (h : enReads (twEntry s b code.toNat) = true) :
    twWrite b a a1 [code] .rsRead s = updTw (twCommit b (twRecord code.toNat [] false false a1) s) b
      (fun x => { x with sampled := some (code.toNat, twEntry s b code.toNat) }) := by
  simp [twWrite, twBody_read_nil h]

/-! ## The read part -/

/-- An entry that is not of a block type answers LEN bytes of the target RAM from OFS on (R301). -/
theorem twReadData_of_sampled {s : State} {b code e : Nat} (hs : (twSt s b).sampled = some (code, e))
    (h6 : enType e ≠ 6) (h7 : enType e ≠ 7) :
    twReadData s b = (List.range (enLen e)).map (fun i => twRam s b (enOfs e + i)) := by
  simp [twReadData, hs, h6, h7]

/-- Settles O56: `twWrite` discards where an acknowledge was owed; after an acknowledged command code it commits and samples
the entry, from which the read is served. -/
theorem repeatedStartDiscardsOrCommits : Obligations.RepeatedStartDiscardsOrCommits := by
  refine ⟨?_, ?_⟩
  · rintro b a l s _ a1 htgt hawake hown rfl hroom
    have hwrite := twTargetWrite_of_room l .rsInAck htgt hawake hown hroom
    exact congrArg Host.Outcome.next (hwrite.trans (twWrite_rsInAck ..))
  · rintro b a k s _ a1 htgt hawake hown rfl hroom htype
    have hreads : enReads (twEntry (updTw s b.val (fun x => { x with sampled := none })) b.val k.toNat) = true := by
      rwa [twEntry_updTw, enReads_iff]
    have hwrite := (twTargetWrite_of_room [k] .rsRead htgt hawake hown hroom).trans (twWrite_code_rsRead a.toNat a1 hreads)
    rw [twEntry_updTw] at hwrite
    refine ⟨_, _, congrArg Host.Outcome.next hwrite, rfl, rfl, fun h4 => ?_⟩
    exact twReadData_of_sampled (congrArg TwSt.sampled (twSt_updTw_same ..)) (by omega) (by omega)

end Sys2Proof.Machine
end

section
/-! R319 and R320 for O57: what the failure of a posted beat enters in the Abutment's error log. -/

namespace Sys2Proof.Machine

/-! ## The device's own state keeps the log and the regions -/

/-- Of the registers, a change of the device's own state writes AB_STAT alone. -/
theorem rdn_updAb_other (f : AbSt → AbSt) (s : State) {a : Nat} (h : a ≠ AB_STAT) : rdn (updAb f s) a = rdn s a := by
  unfold updAb
  extract_lets
  rw [rdn_fset_other _ fAB_STAT_PWB _ 0 h, rdn_fset_other _ fAB_STAT_DR _ 0 h, rdn_fset_other _ fAB_STAT_OWNER _ 0 h]
  exact rdn_congr rfl a

@[simp] theorem updAb_bases (f : AbSt → AbSt) (s : State) : (updAb f s).bases = s.bases := by
  simp -implicitDefEqProofs [updAb]

@[simp] theorem now_updAb (f : AbSt → AbSt) (s : State) : now (updAb f s) = now s := by
  unfold now
  rw [updAb_bases]

@[simp] theorem abLocal_updAb (f : AbSt → AbSt) (s : State) (r off : Nat) : abLocal (updAb f s) r off = abLocal s r off := by
  have hlb : AB_REG_LB + abo r ≠ AB_STAT := by simp only [AB_REG_LB, AB_STAT]; omega
  have hbase : AB_REG_BASE + abo r ≠ AB_STAT := by simp only [AB_REG_BASE, AB_STAT]; omega
  simp only [abLocal, rdn_updAb_other f s hlb, rdn_updAb_other f s hbase]

@[simp] theorem logValid_updAb (f : AbSt → AbSt) (s : State) (o : Nat) :
    fbit (updAb f s) fAB_LOG_INFO_VALID o = fbit s fAB_LOG_INFO_VALID o := by
  have hreg : fAB_LOG_INFO_VALID.reg + o ≠ AB_STAT := by simp only [AB_STAT]; omega
  unfold fbit fget
  rw [rdn_updAb_other f s hreg]

/-! ## The failure of a posted beat -/

/-- A failed write of the host while `i` is the lowest free slot of the log (R320). -/
theorem abFail_hostWrite_of_freeSlot {s : State} {i : Nat} (addr region code : Nat)
    (hfree : (List.range 8).find? (fun i => !fbit s fAB_LOG_INFO_VALID (i * 0x10)) = some i) :
    abFail addr true 0 region code s = emFire 0x39 (evt (wrn (wrn (wrn (cnt s AB_CNT_ERR) (AB_LOG_ADDR + i * 0x10) addr)
      (AB_LOG_STAMP + i * 0x10) (now s)) (AB_LOG_INFO + i * 0x10) (2 ^ 31 + 2 ^ 30 + region * 2 ^ 24 + code)) fAB_EVT_ERR) := by
  simp [abFail, hfree]

/-- A posted beat that fails is reported from the idle bus and then leaves the buffer: it is not retried. -/
theorem beatEnd_posted_failed {s : State} {b : AbBeat} {l : List AbBeat} {r : Nat} (code : Nat) (hbus : s.ab.bus = .posted)
    (hbuf : s.ab.posted = b :: l) (hreg : abRegion s b.off = some r) :
    beatEnd none code s =
      abRun (postedDone (abFail (abLocal s r b.off) true 0 r code (updAb (fun a => { a with bus := .idle }) s))) := by
  simp [beatEnd, hbus, hbuf, hreg]

/-- While a posted beat is on the bus, ERR_N ends it as failed. -/
theorem exec_lbTransactionEnd_err_posted {s : State} (d : Word) (hbus : s.ab.bus = .posted) :
    exec (.lbTransactionEnd 1 d) s = .next (beatEnd none lbTERR s) := by
  have hexec : exec (.lbTransactionEnd 1 d) s = execLbTransactionEnd 1 d s := rfl
  simp [hexec, execLbTransactionEnd, hbus]

/-- While a posted beat is on the bus, the missing response ends it as failed. -/
theorem exec_lbNorespTimeout_posted {s : State} (hbus : s.ab.bus = .posted) :
    exec .lbNorespTimeout s = .next (beatEnd none lbNORESP s) := by
  have hexec : exec .lbNorespTimeout s = execLbNorespTimeout s := rfl
  simp [hexec, execLbNorespTimeout, hbus]

/-- Settles O57: both answers end the beat as failed, and the bus that falls idle before the report leaves the log's free slot,
the beat's local address and the stamp as they were. -/
theorem failedPostedBeatIsLoggedNotRetried : Obligations.FailedPostedBeatIsLoggedNotRetried := by
  intro s u b l r i hbus hbuf hreg hfree hu f hf
  have hfreeIdle : (List.range 8).find? (fun i => !fbit u fAB_LOG_INFO_VALID (i * 0x10)) = some i := by
    simpa [hu] using hfree
  have hlocal : abLocal u r b.off = abLocal s r b.off := by simp [hu]
  have hstamp : now u = now s := by simp [hu]
  have hend : ∀ code, beatEnd none code s = f code := fun code => by
    rw [beatEnd_posted_failed code hbus hbuf hreg, ← hu, abFail_hostWrite_of_freeSlot _ _ _ hfreeIdle, hf, hlocal, hstamp]
  constructor
  · intro d
    rw [exec_lbTransactionEnd_err_posted d hbus, hend]
  · rw [exec_lbNorespTimeout_posted hbus, hend]

end Sys2Proof.Machine
end

section
/-! R375 for O58: which consumers the event matrix serves in a cycle. -/

namespace Sys2Proof.Machine

/-- A loop keeps what each of its passes keeps. -/
theorem forEach_keeps {α β : Type} (g : State → β) {f : α → State → State} (hf : ∀ x t, g (f x t) = g t) (l : List α)
    (s : State) : g (forEach l f s) = g s := by
  induction l generalizing s with
  | nil => rfl
  | cons x l ih => exact (ih (f x s)).trans (hf x s)

/-! ## Routes -/

/-- The set bits of the word `v`, the `w`-th of its row, as consumer numbers. -/
theorem mem_wordConsumers (v w i : Nat) :
    i ∈ (List.range 32).filterMap (fun j => if bit v j then some (w * 32 + j) else none) ↔
      w = i / 32 ∧ bit v (i % 32) = true := by
  simp only [List.mem_filterMap, List.mem_range, Option.ite_none_right_eq_some, Option.some.injEq]
  constructor
  · rintro ⟨j, hj, hbit, rfl⟩
    have hdiv : (w * 32 + j) / 32 = w := by omega
    have hmod : (w * 32 + j) % 32 = j := by omega
    exact ⟨hdiv.symm, hmod.symm ▸ hbit⟩
  · rintro ⟨rfl, hbit⟩
    exact ⟨i % 32, by omega, hbit, by omega⟩

/-- Producer `p` is routed to consumer `i` when bit `i` of EM_ROUTE[p], six words, is set. -/
theorem mem_emRoutes (s : State) (p i : Nat) :
    i ∈ emRoutes s p ↔ i / 32 < 6 ∧ bit (rdn s (EM_ROUTE + p * 0x20 + i / 32 * 4)) (i % 32) = true := by
  have hword : ∀ v w, (i ∈ if v = 0 then [] else
      (List.range 32).filterMap (fun j => if bit v j then some (w * 32 + j) else none)) ↔
      w = i / 32 ∧ bit v (i % 32) = true := fun v w => by
    by_cases hv : v = 0
    · simp [hv, bit]
    · rw [if_neg hv, mem_wordConsumers]
  simp only [emRoutes, List.mem_flatMap, List.mem_range, hword]
  constructor
  · rintro ⟨w, hw, rfl, hbit⟩
    exact ⟨hw, hbit⟩
  · rintro ⟨hw, hbit⟩
    exact ⟨i / 32, hw, rfl, hbit⟩

/-! ## One matrix cycle -/

/-- The consumers that an event of the cycle reaches, each once. -/
def emReached (ps : List Nat) (s : State) : List Nat :=
  ((ps.dedup.filter (fun p => emAssigned p && !emTripped s p)).flatMap (emRoutes s)).dedup

theorem mem_emReached (ps : List Nat) (s : State) (i : Nat) :
    i ∈ emReached ps s ↔ ∃ p ∈ ps, emAssigned p = true ∧ emTripped s p = false ∧ i ∈ emRoutes s p := by
  simp [emReached, and_assoc]

theorem emFireWith_of_disabled {s : State} (det : Nat → State → State) (ps : List Nat) (h : fbit s fEM_CTL_EN = false) :
    emFireWith det ps s = s := by
  simp [emFireWith, h]

/-- The counting of firings and the coincidence bits that come before the consumers' tasks send nothing. -/
theorem emFireWith_of_enabled {s : State} (det : Nat → State → State) (ps : List Nat) (h : fbit s fEM_CTL_EN = true) :
    ∃ u, emFireWith det ps s = forEach (emReached ps s) (emTask det) u ∧ u.outbox = s.outbox := by
  simp only [emFireWith, h, Bool.not_true, Bool.false_eq_true, if_false]
  refine ⟨_, rfl, ?_⟩
  rw [forEach_keeps State.outbox (fun _ _ => regBit_outbox ..), forEach_keeps State.outbox (f := emCount) (fun _ _ => rfl)]

/-- Settles O58: the route words decide membership in `emRoutes`, and an enabled cycle runs the tasks of `emReached`. -/
theorem routedConsumersGetOneEvent : Obligations.RoutedConsumersGetOneEvent := by
  refine ⟨?_, ?_, ?_⟩
  · intro s p i hi
    have hword : i / 32 < 6 := by omega
    rw [mem_emRoutes, and_iff_right hword]
  · exact fun ps s => emFireWith_of_disabled paDetect ps
  · intro ps s hen
    obtain ⟨u, hfire, hout⟩ := emFireWith_of_enabled paDetect ps hen
    exact ⟨emReached ps s, u, hfire, List.nodup_dedup _, mem_emReached ps s, hout⟩

end Sys2Proof.Machine
end

section
/-! R378 for O59: what an event does at a consumer that is busy. -/

namespace Sys2Proof.Machine

/-! ## Bits of registers -/

/-- Bit `i` of a register, as the one-bit field that `regBit` sets. -/
theorem fbit_bit (s : State) (a i : Nat) : fbit s ⟨a, i, i⟩ = bit (rdn s a) i := by
  simp [fbit, fget, bits, bit, Nat.testBit_eq_decide_div_mod_eq]

theorem bit_regBit_same (s : State) (a : Nat) {i : Nat} (b : Bool) (hi : i < 32) :
    bit (rdn (regBit s a i b) a) i = b := by
  rw [← fbit_bit]
  exact fbit_fbset_same s ⟨a, i, i⟩ b 0 rfl hi

/-! ## The overrun

EM_OVR[0] to EM_OVR[5], EM_CNT_OVR and EM_EVT are three places, and none belongs to the interrupt logic. -/

theorem not_irqReg_of_em {a : Nat} (h : EM_CTL ≤ a) : ¬ IrqReg a := by
  simp only [IrqReg, EM_CTL, HE_IPEND, HE_VEC_ARM, HE_PBA] at h ⊢
  omega

/-- Consumer `i`'s word of EM_OVR is none of the two other registers, and lies in the matrix's block. -/
theorem emOvr_place {i : Nat} (hi : i < 192) :
    EM_OVR + i / 32 * 4 ≠ fEM_EVT_OVR.reg + 0 ∧ EM_OVR + i / 32 * 4 ≠ EM_CNT_OVR ∧ EM_CTL ≤ EM_OVR + i / 32 * 4 := by
  simp only [EM_OVR, EM_CNT_OVR, EM_CTL]
  omega

theorem emOvr_emOverrun {i : Nat} (s : State) (hi : i < 192) :
    bit (rdn (emOverrun i s) (EM_OVR + i / 32 * 4)) (i % 32) = true := by
  obtain ⟨hevt, hcnt, hem⟩ := emOvr_place hi
  unfold emOverrun
  rw [rdn_evt_other _ _ _ hevt (not_irqReg_of_em hem), rdn_cnt_other _ hcnt]
  exact bit_regBit_same s _ true (Nat.mod_lt i (by decide))

theorem emEvtOvr_emOverrun (i : Nat) (s : State) : fbit (emOverrun i s) fEM_EVT_OVR = true :=
  fbit_evt_same _ _ 0 rfl (by decide) (not_irqReg_of_em (by decide))

theorem emCntOvr_emOverrun {i : Nat} (s : State) (hi : i < 192) :
    rdn (emOverrun i s) EM_CNT_OVR = min 0xFFFFFFFF (rdn s EM_CNT_OVR + 1) := by
  obtain ⟨-, hcnt, -⟩ := emOvr_place hi
  unfold emOverrun
  rw [rdn_evt_other _ _ _ (by decide) (not_irqReg_of_em (by decide)), rdn_cnt_same, rdn_regBit_other s true hcnt.symm]

/-! ## Consumers that can be busy -/

/-- Consumers 00h to 0Fh are EM_OUT[0] to EM_OUT[15] (R374). -/
theorem emTask_out (det : Nat → State → State) {k : Nat} (s : State) (hk : k < 16) : emTask det k s = emOutTask k s :=
  if_pos hk

/-- Consumers 10h to 17h are TB_CAP[0] to TB_CAP[7] (R374). -/
theorem emTask_cap (det : Nat → State → State) {c : Nat} (s : State) (hc : c < 8) :
    emTask det (0x10 + c) s = emCapTask c s := by
  have hout : ¬ 0x10 + c < 0x10 := by omega
  have hcap : 0x10 + c < 0x18 := by omega
  rw [emTask, if_neg hout, if_pos hcap, Nat.add_sub_cancel_left]

/-- An output that still drives a pulse of mode 0 ignores the event, which is an overrun (R378). -/
theorem emOutTask_busy {k : Nat} {s : State} (hen : fbit s fEM_OUT_CFG_EN (k * 8) = true)
    (hmode : fget s fEM_OUT_CFG_MODE (k * 8) = 0) (hbusy : fbit s fEM_OUT_STAT_BUSY (k * 8) = true) :
    emOutTask k s = emOverrun k s := by
  simp [emOutTask, hen, hmode, hbusy]

/-- A capture that has not been read is replaced only while OVWR is set (R196). -/
theorem emCapTask_valid {c : Nat} {s : State} (hen : fbit s fTB_CAP_CTL_EN (c * 0x20) = true)
    (hvalid : fbit s fTB_CAP_CTL_VALID (c * 0x20) = true) :
    emCapTask c s =
      if fbit s fTB_CAP_CTL_OVWR (c * 0x20)
      then captureAll (evt (cnt (emOverrun (0x10 + c) s) (TB_CAP_CNT_OVR + c * 0x20)) fTB_EVT_CAP_OVR) c
      else evt (cnt (emOverrun (0x10 + c) s) (TB_CAP_CNT_OVR + c * 0x20)) fTB_EVT_CAP_OVR := by
  simp only [emCapTask, hen, hvalid, Bool.not_true, Bool.false_eq_true, if_false, if_true]

/-- Settles O59: the overrun's three registers, then the rules of the two consumers. -/
theorem busyConsumersOverrun : Obligations.BusyConsumersOverrun := by
  refine ⟨?_, ?_, ?_⟩
  · exact fun i s hi => ⟨emOvr_emOverrun s hi, emEvtOvr_emOverrun i s, emCntOvr_emOverrun s hi⟩
  · intro d k s hk hen hmode hbusy
    rw [emTask_out d s hk, emOutTask_busy hen hmode hbusy]
  · rintro d c s _ hc hen hvalid rfl
    rw [emTask_cap d s hc, emCapTask_valid hen hvalid]

end Sys2Proof.Machine
end

section
/-! R391 for O60: the word identity and the width of QU_LEVEL.HELD. HELD has 16 bits, so a write keeps it equal to the number of
held words only below 2^16 words, and the check for room is what has to ensure that. A record without a byte is the gap: the check
reserves ⌈0 / word⌉ = 0 words for it (R389), and the writer stores one word, empty and tagged END. -/

namespace Sys2Proof.Machine

/-! ## The words that a queue holds -/

theorem quGet_congr {s t : State} (h : t.queues = s.queues) (q : Nat) : quGet t q = quGet s q := by simp only [quGet, h]

@[simp] theorem quGet_quPut_same (s : State) (q : Nat) (v : Queue) : quGet (quPut s q v) q = v :=
  smGet_smPut_same s.queues q emptyQueue v

@[simp] theorem quGet_wrn (s : State) (a v q : Nat) : quGet (wrn s a v) q = quGet s q := quGet_congr (wrn_queues s a v) q

@[simp] theorem quGet_fset (s : State) (f : Fld) (v o q : Nat) : quGet (fset s f v o) q = quGet s q :=
  quGet_congr (fset_queues s f v o) q

@[simp] theorem quGet_quEvt (s : State) (f : Fld) (r q : Nat) : quGet (quEvt s f r) q = quGet s q :=
  quGet_congr (irqUpdate_only 25 _).queues q

@[simp] theorem quGet_quSetWords_same (s : State) (q : Nat) (v : Queue) : quGet (quSetWords s q v) q = v := by
  unfold quSetWords
  dsimp only
  split
  · rw [quGet_quEvt, quGet_wrn, quGet_fset, quGet_quPut_same]
  · rw [quGet_wrn, quGet_fset, quGet_quPut_same]

/-! ## The record without a byte -/

theorem quWordBytes_pos (s : State) (q : Nat) : 0 < quWordBytes s q := by
  unfold quWordBytes
  split <;> decide

/-- A record without a byte reserves no word (R389). -/
theorem quRoom_zero (s : State) (q : Nat) :
    quRoom s q 0 =
      decide (fget s fQU_LEVEL_HELD (quo q) + fget s fQU_LEVEL_RSV (quo q) ≤ fget s fQU_CFG_SIZE (quo q)) := by
  have hwords : (0 + quWordBytes s q - 1) / quWordBytes s q = 0 :=
    Nat.div_eq_of_lt (by have := quWordBytes_pos s q; omega)
  unfold quRoom
  dsimp only
  rw [hwords, Nat.zero_add]

theorem length_quPack_nil (k w : Nat) : (quPack (k + 1) w []).length = 1 := by simp [quPack]

/-- A record without a byte that finds room stores one word. -/
theorem length_quWrite_nil {s : State} {q : Nat} (hroom : quRoom s q 0 = true) :
    (quGet (quWrite s q []) q).words.length = (quGet s q).words.length + 1 := by
  unfold quWrite
  dsimp only [List.length_nil]
  rw [if_pos hroom, quGet_quSetWords_same, List.length_append, length_quPack_nil]

/-- HELD agrees with the stored words after a record without a byte only when they number less than 2^16. -/
theorem length_lt_of_held_quWrite_nil {s : State} {q : Nat} (hroom : quRoom s q 0 = true)
    (hheld : fget (quWrite s q []) fQU_LEVEL_HELD (quo q) = (quGet (quWrite s q []) q).words.length) :
    (quGet s q).words.length + 1 < 2 ^ 16 := by
  rw [← length_quWrite_nil hroom, ← hheld]
  exact bits_lt _ fQU_LEVEL_HELD.hi fQU_LEVEL_HELD.lo

/-! ## The counterexample -/

/-- A queue of 65535 words, the most that HELD can count. -/
def longestQueue : Queue := ⟨List.replicate 0xFFFF ⟨[], 0⟩, [], false⟩

/-- Queue 0 with SIZE 65535 and filled to its last word: every word was written and none has left. -/
def fullQueueState : State :=
  quPut (wrn (wrn (wrn State.reset QU_CFG 0xFFFF) QU_LEVEL 0xFFFF) QU_CNT_WR 0xFFFF) 0 longestQueue

theorem length_fullQueueState : (quGet fullQueueState 0).words.length = 0xFFFF := by
  rw [fullQueueState, quGet_quPut_same, longestQueue, List.length_replicate]

theorem held_fullQueueState : fget fullQueueState fQU_LEVEL_HELD (quo 0) = 0xFFFF := by decide

theorem identity_fullQueueState :
    rdn fullQueueState (QU_CNT_WR + quo 0) = (rdn fullQueueState (QU_CNT_RD + quo 0) + rdn fullQueueState (QU_CNT_DROP + quo 0) +
      fget fullQueueState fQU_LEVEL_HELD (quo 0) + rdn fullQueueState (QU_CNT_WOFF + quo 0)) % 2 ^ 32 := by decide

/-- The queue is full and yet has room for a record without a byte. -/
theorem quRoom_fullQueueState : quRoom fullQueueState 0 0 = true := by
  rw [quRoom_zero]
  decide

/-- Refutes O60: SIZE is any 16-bit number in the statement, and a queue that is full with 65535 words still takes a record
without a byte. It then holds 65536 words, and HELD, of 16 bits, reads 0. -/
theorem not_queueWordIdentityIsKept : ¬ Obligations.QueueWordIdentityIsKept := by
  unfold Obligations.QueueWordIdentityIsKept
  intro h
  obtain ⟨hwrite, -⟩ := h _ (fun _ _ => Iff.rfl) fullQueueState 0 (by decide)
    ⟨held_fullQueueState.trans length_fullQueueState.symm, identity_fullQueueState⟩
  have hlt := length_lt_of_held_quWrite_nil quRoom_fullQueueState (hwrite []).1
  rw [length_fullQueueState] at hlt
  exact absurd hlt (by decide)

end Sys2Proof.Machine
end

section
/-! SUPPORT. What each operation of Machine/Ops.lean leaves unchanged (the rules are in Laws/Sound.lean). -/

namespace Sys2Proof.Machine

set_option Elab.async false

variable {K : Comp → Prop} {C : Prop} {z s t : State}

theorem Sound.ofEq2 {β : Type} {p : β × State} {r : β} (e : p = (r, s)) (h : Sound K C z p.2) : Sound K C z s := by
  rw [e] at h
  exact h

/-! A record update of one component, for which `K` does not hold. -/

theorem Sound.setBases {x : Vector TimeBase 4} (fr : Free K [.bases]) (h : Sound K C z s) : Sound K C z { s with bases := x } :=
  h.step (fun p hp => by cases p <;> first | rfl | exact absurd hp (fr.not _ rfl)) rfl rfl rfl rfl

theorem Sound.setTime {x : TimeSt} (fr : Free K [.time]) (h : Sound K C z s) : Sound K C z { s with time := x } :=
  h.step (fun p hp => by cases p <;> first | rfl | exact absurd hp (fr.not _ rfl)) rfl rfl rfl rfl

theorem Sound.setLedger {x : LedgerSt} (fr : Free K [.ledger]) (h : Sound K C z s) : Sound K C z { s with ledger := x } :=
  h.step (fun p hp => by cases p <;> first | rfl | exact absurd hp (fr.not _ rfl)) rfl rfl rfl rfl

theorem Sound.setViews {x : ViewSt} (fr : Free K [.views]) (h : Sound K C z s) : Sound K C z { s with views := x } :=
  h.step (fun p hp => by cases p <;> first | rfl | exact absurd hp (fr.not _ rfl)) rfl rfl rfl rfl

theorem Sound.setTiles {x : TileSt} (fr : Free K [.tiles]) (h : Sound K C z s) : Sound K C z { s with tiles := x } :=
  h.step (fun p hp => by cases p <;> first | rfl | exact absurd hp (fr.not _ rfl)) rfl rfl rfl rfl

theorem Sound.setPorts {x : Vector PortSt 16} (fr : Free K [.ports]) (h : Sound K C z s) : Sound K C z { s with ports := x } :=
  h.step (fun p hp => by cases p <;> first | rfl | exact absurd hp (fr.not _ rfl)) rfl rfl rfl rfl

theorem Sound.setArmCtr {x : Nat} (fr : Free K [.armCtr]) (h : Sound K C z s) : Sound K C z { s with armCtr := x } :=
  h.step (fun p hp => by cases p <;> first | rfl | exact absurd hp (fr.not _ rfl)) rfl rfl rfl rfl

theorem Sound.setTw {x : Vector TwSt 6} (fr : Free K [.tw]) (h : Sound K C z s) : Sound K C z { s with tw := x } :=
  h.step (fun p hp => by cases p <;> first | rfl | exact absurd hp (fr.not _ rfl)) rfl rfl rfl rfl

theorem Sound.setAct {x : ActSt} (fr : Free K [.act]) (h : Sound K C z s) : Sound K C z { s with act := x } :=
  h.step (fun p hp => by cases p <;> first | rfl | exact absurd hp (fr.not _ rfl)) rfl rfl rfl rfl

theorem Sound.setAcct {x : Acct} (fr : Free K [.acct]) (h : Sound K C z s) : Sound K C z { s with acct := x } :=
  h.step (fun p hp => by cases p <;> first | rfl | exact absurd hp (fr.not _ rfl)) rfl rfl rfl rfl

theorem Sound.setNet {x : NetSt} (fr : Free K [.net]) (h : Sound K C z s) : Sound K C z { s with net := x } :=
  h.step (fun p hp => by cases p <;> first | rfl | exact absurd hp (fr.not _ rfl)) rfl rfl rfl rfl

theorem Sound.setLanes {x : Vector LanePort 2} (fr : Free K [.lanes]) (h : Sound K C z s) : Sound K C z { s with lanes := x } :=
  h.step (fun p hp => by cases p <;> first | rfl | exact absurd hp (fr.not _ rfl)) rfl rfl rfl rfl

theorem Sound.setQueues {x : Sparse Queue} (fr : Free K [.queues]) (h : Sound K C z s) : Sound K C z { s with queues := x } :=
  h.step (fun p hp => by cases p <;> first | rfl | exact absurd hp (fr.not _ rfl)) rfl rfl rfl rfl

theorem Sound.setToll {x : TollSt} (fr : Free K [.toll]) (h : Sound K C z s) : Sound K C z { s with toll := x } :=
  h.step (fun p hp => by cases p <;> first | rfl | exact absurd hp (fr.not _ rfl)) rfl rfl rfl rfl

theorem Sound.setEm {x : EmSt} (fr : Free K [.em]) (h : Sound K C z s) : Sound K C z { s with em := x } :=
  h.step (fun p hp => by cases p <;> first | rfl | exact absurd hp (fr.not _ rfl)) rfl rfl rfl rfl

theorem Sound.setPa {x : PaSt} (fr : Free K [.pa]) (h : Sound K C z s) : Sound K C z { s with pa := x } :=
  h.step (fun p hp => by cases p <;> first | rfl | exact absurd hp (fr.not _ rfl)) rfl rfl rfl rfl

theorem Sound.setAb {x : AbSt} (fr : Free K [.ab]) (h : Sound K C z s) : Sound K C z { s with ab := x } :=
  h.step (fun p hp => by cases p <;> first | rfl | exact absurd hp (fr.not _ rfl)) rfl rfl rfl rfl

theorem Sound.setEv {x : EvSt} (fr : Free K [.ev]) (h : Sound K C z s) : Sound K C z { s with ev := x } :=
  h.step (fun p hp => by cases p <;> first | rfl | exact absurd hp (fr.not _ rfl)) rfl rfl rfl rfl

theorem Sound.setMb {x : MbSt} (fr : Free K [.mb]) (h : Sound K C z s) : Sound K C z { s with mb := x } :=
  h.step (fun p hp => by cases p <;> first | rfl | exact absurd hp (fr.not _ rfl)) rfl rfl rfl rfl

theorem Sound.setRs {x : RsSt} (fr : Free K [.rs]) (h : Sound K C z s) : Sound K C z { s with rs := x } :=
  h.step (fun p hp => by cases p <;> first | rfl | exact absurd hp (fr.not _ rfl)) rfl rfl rfl rfl

theorem Sound.setOutbox {x : List Out} (fr : Free K [.outbox]) (h : Sound K C z s) : Sound K C z { s with outbox := x } :=
  h.step (fun p hp => by cases p <;> first | rfl | exact absurd hp (fr.not _ rfl)) rfl rfl rfl rfl

theorem Sound.setFreeCtr {x : Nat} (fr : Free K [.freeCtr]) (h : Sound K C z s) : Sound K C z { s with freeCtr := x } :=
  h.step (fun p hp => by cases p <;> first | rfl | exact absurd hp (fr.not _ rfl)) rfl rfl rfl rfl

theorem Sound.setNetEvMb {x : NetSt} {y : EvSt} {v : MbSt} (fr : Free K [.net, .ev, .mb]) (h : Sound K C z s) :
    Sound K C z { s with net := x, ev := y, mb := v } :=
  h.step (fun p hp => by cases p <;> first | rfl | exact absurd hp (fr.not _ rfl)) rfl rfl rfl rfl

/-- The registers may lose some of those that hold another value than their reset value. -/
theorem Sound.filterRegs {q : Nat × Word → Bool} (fr : Free K [.regs]) (h : Sound K C z s) :
    Sound K C z { s with regs := s.regs.filter q } :=
  h.touch (fun p hp => by cases p <;> first | rfl | exact absurd hp (fr.not _ rfl))
    (fun hs => ⟨smWf_filter q hs.1, hs.2⟩)

/-- The memory attachment changes but LP5X. -/
theorem Sound.setMem {x : MemSt} (fr : Free K [.mem]) (h : Sound K C z s) (e : x.lp5 = s.mem.lp5 := by rfl) :
    Sound K C z { s with mem := x } :=
  h.step (fun p hp => by cases p <;> first | rfl | exact absurd hp (fr.not _ rfl)) rfl rfl e rfl

/-- The endpoint changes but configuration space. -/
theorem Sound.setHe {x : HeSt} (fr : Free K [.he]) (h : Sound K C z s) (e : x.cfg = s.he.cfg := by rfl) :
    Sound K C z { s with he := x } :=
  h.step (fun p hp => by cases p <;> first | rfl | exact absurd hp (fr.not _ rfl)) rfl rfl rfl e

/-- Configuration space may lose some of the registers that hold another value than their reset value. -/
theorem Sound.filterCfg {q : Nat × Word → Bool} (fr : Free K [.he]) (h : Sound K C z s) :
    Sound K C z { s with he := { s.he with cfg := s.he.cfg.filter q } } :=
  h.touch (fun p hp => by cases p <;> first | rfl | exact absurd hp (fr.not _ rfl))
    (fun hs => ⟨hs.1, hs.2.1, hs.2.2.1, smWf_filter q hs.2.2.2⟩)


theorem wrn_sound {a : Nat} {v : Nat} (fr : Free K [.regs]) (h : Sound K C z s) :
    Sound K C z (wrn s a v) := by
  unfold wrn
  exact wr_sound fr h

theorem wr64_sound {lo : Nat} {v : Nat} (fr : Free K [.regs]) (h : Sound K C z s) :
    Sound K C z (wr64 s lo v) := by
  unfold wr64
  exact wrn_sound fr (wrn_sound fr h)

theorem fset_sound {f : Fld} {v : Nat} {o : Nat} (fr : Free K [.regs]) (h : Sound K C z s) :
    Sound K C z (fset s f v o) := by
  unfold fset
  exact wrn_sound fr h

theorem fbset_sound {f : Fld} {b : Bool} {o : Nat} (fr : Free K [.regs]) (h : Sound K C z s) :
    Sound K C z (fbset s f b o) := by
  unfold fbset
  exact fset_sound fr h

theorem cntAdd_sound {a : Nat} {n : Nat} (fr : Free K [.regs]) (h : Sound K C z s) :
    Sound K C z (cntAdd s a n) := by
  unfold cntAdd
  exact wrn_sound fr h

theorem cnt_sound {a : Nat} (fr : Free K [.regs]) (h : Sound K C z s) :
    Sound K C z (cnt s a) := by
  unfold cnt
  exact cntAdd_sound fr h

theorem cntWrap_sound {a : Nat} {n : Nat} (fr : Free K [.regs]) (h : Sound K C z s) :
    Sound K C z (cntWrap s a n) := by
  unfold cntWrap
  exact wrn_sound fr h

theorem emit_sound {o : Out} (fr : Free K [.outbox]) (h : Sound K C z s) :
    Sound K C z (emit s o) := by
  unfold emit
  exact .setOutbox fr h

theorem useFree_sound (fr : Free K [.freeCtr]) (h : Sound K C z s) :
    Sound K C z (useFree s) := by
  unfold useFree
  exact .setFreeCtr fr h

theorem tblPuts_sound {a : Nat} {l : List Byte} (fr : Free K [.tables]) (h : Sound K C z s) : Sound K C z (tblPuts s a l)
    := by
  induction l generalizing s a with
  | nil => exact h
  | cons x l ih => exact ih (tblPut_sound fr h)

theorem lp5Puts_sound {a : Nat} {l : List Byte} (fr : Free K [.mem]) (h : Sound K C z s) : Sound K C z (lp5Puts s a l) :=
    by
  induction l generalizing s a with
  | nil => exact h
  | cons x l ih => exact ih (lp5Put_sound fr h)

end Sys2Proof.Machine
end

section
/-! SUPPORT. What each operation of Machine/Flags.lean leaves unchanged (the rules are in Laws/Sound.lean). -/

namespace Sys2Proof.Machine

set_option Elab.async false

variable {K : Comp → Prop} {C : Prop} {z s t : State}

theorem regBit_sound {a : Nat} {i : Nat} {b : Bool} (fr : Free K [.regs]) (h : Sound K C z s) :
    Sound K C z (regBit s a i b) := by
  unfold regBit
  exact wrn_sound fr h

theorem vecEval_sound {v : Nat} (fr : Free K [.regs, .outbox]) (h : Sound K C z s) :
    Sound K C z (vecEval v s) := by
  unfold vecEval
  extract_lets armed s1
  have hs1 : Sound K C z s1 := regBit_sound (fr.mono rfl) (regBit_sound (fr.mono rfl) h)
  exact .ite (fun _ => .ite (fun _ => emit_sound (fr.mono rfl) hs1) (fun _ => regBit_sound (fr.mono rfl) h)) (fun _ =>
    .ite (fun _ => h) (fun _ => regBit_sound (fr.mono rfl) h))

theorem intxEval_sound (fr : Free K [.he, .outbox]) (h : Sound K C z s) :
    Sound K C z (intxEval s) := by
  unfold intxEval
  extract_lets want src
  exact .ite (fun _ => h) (fun _ => .ite (fun _ => emit_sound (fr.mono rfl) (.setHe (fr.mono rfl) h)) (fun _ => .ite (fun
    _ => emit_sound (fr.mono rfl) (.setHe (fr.mono rfl) h)) (fun _ => h)))

theorem irqUpdate_sound {n : Nat} (fr : Free K [.regs, .he, .outbox]) (h : Sound K C z s) :
    Sound K C z (irqUpdate n s) := by
  unfold irqUpdate
  extract_lets p s1 s2
  have hs1 : Sound K C z s1 := regBit_sound (fr.mono rfl) h
  have hs2 : Sound K C z s2 := .ite (fun _ => vecEval_sound (fr.mono rfl) hs1) (fun _ => hs1)
  exact .ite (fun _ => h) (fun _ => intxEval_sound (fr.mono rfl) hs2)

theorem irqAll_sound (fr : Free K [.regs, .he, .outbox]) (h : Sound K C z s) :
    Sound K C z (irqAll s) := by
  unfold irqAll
  exact intxEval_sound (fr.mono rfl) (forEach_sound h (fun _ _ hs => vecEval_sound (fr.mono rfl) hs))

theorem irqAt_sound {a : Nat} (fr : Free K [.regs, .he, .outbox]) (h : Sound K C z s) :
    Sound K C z (irqAt a s) := by
  unfold irqAt
  split
  · exact irqUpdate_sound fr h
  · exact h

theorem evt_sound {f : Fld} {o : Nat} (fr : Free K [.regs, .he, .outbox]) (h : Sound K C z s) :
    Sound K C z (evt s f o) := by
  unfold evt
  exact irqAt_sound fr (fset_sound (fr.mono rfl) h)

theorem evtBit_sound {a : Nat} {i : Nat} (fr : Free K [.regs, .he, .outbox]) (h : Sound K C z s) :
    Sound K C z (evtBit s a i) := by
  unfold evtBit
  exact irqAt_sound fr (regBit_sound (fr.mono rfl) h)

theorem evtCnt_sound {f : Fld} {c : Nat} {o : Nat} (fr : Free K [.regs, .he, .outbox]) (h : Sound K C z s) :
    Sound K C z (evtCnt s f c o) := by
  unfold evtCnt
  exact evt_sound fr (cnt_sound (fr.mono rfl) h)

theorem quSummary_sound {q : Nat} (fr : Free K [.regs, .he, .outbox]) (h : Sound K C z s) :
    Sound K C z (quSummary q s) := by
  unfold quSummary
  extract_lets on
  exact irqUpdate_sound fr (regBit_sound (fr.mono rfl) h)

theorem quEvt_sound {f : Fld} {q : Nat} (fr : Free K [.regs, .he, .outbox]) (h : Sound K C z s) :
    Sound K C z (quEvt s f q) := by
  unfold quEvt
  exact quSummary_sound fr (fset_sound (fr.mono rfl) h)

end Sys2Proof.Machine
end

section
/-! SUPPORT. What each operation of Machine/Head.lean leaves unchanged (the rules are in Laws/Sound.lean). -/

namespace Sys2Proof.Machine

set_option Elab.async false

variable {K : Comp → Prop} {C : Prop} {z s t : State}

theorem updPort_sound {p : Nat} {f : PortSt → PortSt} (fr : Free K [.ports]) (h : Sound K C z s) :
    Sound K C z (updPort s p f) := by
  unfold updPort
  exact .setPorts fr h

theorem indUpdate_sound {p : Nat} (fr : Free K [.regs, .ports, .outbox]) (h : Sound K C z s) :
    Sound K C z (indUpdate p s) := by
  unfold indUpdate
  extract_lets s1 m
  have hs1 : Sound K C z s1 := fbset_sound (fr.mono rfl) h
  exact .ite (fun _ => hs1) (fun _ => emit_sound (fr.mono rfl) (updPort_sound (fr.mono rfl) hs1))

theorem indAll_sound (fr : Free K [.regs, .ports, .outbox]) (h : Sound K C z s) :
    Sound K C z (indAll s) := by
  unfold indAll
  exact forEach_sound h (fun _ _ hs => indUpdate_sound fr hs)

theorem sclkUpdate_sound {k : Nat} (fr : Free K [.ports, .outbox]) (h : Sound K C z s) :
    Sound K C z (sclkUpdate k s) := by
  unfold sclkUpdate
  extract_lets n
  exact .ite (fun _ => h) (fun _ => emit_sound (fr.mono rfl) (updPort_sound (fr.mono rfl) h))

theorem sclkAll_sound (fr : Free K [.ports, .outbox]) (h : Sound K C z s) :
    Sound K C z (sclkAll s) := by
  unfold sclkAll
  exact forEach_sound h (fun _ _ hs => sclkUpdate_sound fr hs)

end Sys2Proof.Machine
end

section
/-! SUPPORT. What each operation of Machine/Net.lean leaves unchanged (the rules are in Laws/Sound.lean). -/

namespace Sys2Proof.Machine

set_option Elab.async false

variable {K : Comp → Prop} {C : Prop} {z s t : State}

theorem setNetPort_sound {p : Nat} {f : NetPort → NetPort} (fr : Free K [.net]) (h : Sound K C z s) :
    Sound K C z (setNetPort s p f) := by
  unfold setNetPort
  extract_lets v src
  exact .setNet fr h

theorem setRoute_sound {pier : Nat} {code : Nat} (fr : Free K [.regs]) (h : Sound K C z s) :
    Sound K C z (setRoute s pier code) := by
  unfold setRoute
  extract_lets a
  exact wrn_sound fr h

theorem enqueue_sound {p : Nat} {t : TxItem} (fr : Free K [.net]) (h : Sound K C z s) :
    Sound K C z (enqueue s p t) := by
  unfold enqueue
  exact setNetPort_sound fr h

theorem bumpMsg_sound {cls : Nat} (fr : Free K [.net]) (h : Sound K C z s) :
    Sound K C z (bumpMsg s cls) := by
  unfold bumpMsg
  exact .setNet fr h

theorem dropNoRoute_sound {p : Nat} {n : Nat} (fr : Free K [.regs, .he, .outbox]) (h : Sound K C z s) :
    Sound K C z (dropNoRoute s p n) := by
  unfold dropNoRoute
  exact evt_sound fr (cntAdd_sound (fr.mono rfl) h)

theorem netSend_sound {cls : Nat} {flags : Nat} {dst : Nat} {segs : List (List Byte)}
    (fr : Free K [.regs, .net, .he, .outbox]) (h : Sound K C z s) :
    Sound K C z (netSend s cls flags dst segs) := by
  unfold netSend
  extract_lets s1 pk r
  have hs1 : Sound K C z s1 := bumpMsg_sound (fr.mono rfl) h
  exact .ite (fun _ => h) (fun _ => .ite (fun _ => dropNoRoute_sound (fr.mono rfl) hs1) (fun _ => .ite (fun _ =>
    dropNoRoute_sound (fr.mono rfl) hs1) (fun _ => foldl_sound hs1 (fun _ _ ht => enqueue_sound (fr.mono rfl) ht))))

theorem netLocal_sound {p : Nat} {cls : Nat} {flags : Nat} {payload : List Byte} (fr : Free K [.regs, .net, .he, .outbox])
    (h : Sound K C z s) :
    Sound K C z (netLocal s p cls flags payload) := by
  unfold netLocal
  extract_lets s1 pk kind exempt
  have hs1 : Sound K C z s1 := bumpMsg_sound (fr.mono rfl) h
  exact .ite (fun _ => dropNoRoute_sound (fr.mono rfl) hs1) (fun _ => .ite (fun _ => foldl_sound hs1 (fun _ _ ht =>
    enqueue_sound (fr.mono rfl) ht)) (fun _ => h))

theorem netBcast_sound {cls : Nat} {flags : Nat} {segs : List (List Byte)} (fr : Free K [.regs, .net, .he, .outbox])
    (h : Sound K C z s) :
    Sound K C z (netBcast s cls flags segs) := by
  unfold netBcast
  extract_lets s1 pk
  have hs1 : Sound K C z s1 := bumpMsg_sound (fr.mono rfl) h
  exact .ite (fun _ => dropNoRoute_sound (fr.mono rfl) hs1) (fun _ => forEach_sound hs1 (fun _ _ ht => .ite (fun _ =>
    foldl_sound ht (fun _ _ hu => enqueue_sound (fr.mono rfl) hu)) (fun _ => ht)))

theorem sendHello_sound {p : Nat} (fr : Free K [.regs, .net, .he, .outbox]) (h : Sound K C z s) :
    Sound K C z (sendHello s p) := by
  unfold sendHello
  exact .ite (fun _ => netLocal_sound fr h) (fun _ => h)

theorem helloOnChange_sound {old : State} (fr : Free K [.regs, .net, .he, .outbox]) (h : Sound K C z s) :
    Sound K C z (helloOnChange old s) := by
  unfold helloOnChange
  exact forEach_sound h (fun _ _ ht => .ite (fun _ => sendHello_sound fr ht) (fun _ => ht))

theorem bcastDennil_sound {topic : Nat} {body : List Byte} (fr : Free K [.regs, .net, .he, .outbox]) (h : Sound K C z s) :
    Sound K C z (bcastDennil s topic body) := by
  unfold bcastDennil
  exact netBcast_sound fr h

theorem sendDennil_sound {pier : Nat} {topic : Nat} {body : List Byte} (fr : Free K [.regs, .net, .he, .outbox])
    (h : Sound K C z s) :
    Sound K C z (sendDennil s pier topic body) := by
  unfold sendDennil
  exact netSend_sound fr h

theorem syncAvail_sound {p : Nat} (fr : Free K [.regs]) (h : Sound K C z s) :
    Sound K C z (syncAvail p s) := by
  unfold syncAvail
  extract_lets n
  exact forEach_sound h (fun _ _ ht => wrn_sound fr ht)

theorem freeCredits_sound {p : Nat} {c : Nat} {n : Nat} (fr : Free K [.net]) (h : Sound K C z s) :
    Sound K C z (freeCredits p c n s) := by
  unfold freeCredits
  exact setNetPort_sound fr h

theorem takeItem_sound {p : Nat} {x : TxItem × Bool} (fr : Free K [.regs, .net]) (h : Sound K C z s) :
    Sound K C z (takeItem p x s) := by
  unfold takeItem
  extract_lets t fwd c k s1 s2
  have hs1 : Sound K C z s1 := setNetPort_sound (fr.mono rfl) h
  have hs2 : Sound K C z s2 := cnt_sound (fr.mono rfl) (syncAvail_sound (fr.mono rfl) hs1)
  split
  · exact freeCredits_sound (fr.mono rfl) hs2
  · exact hs2

theorem sendHostLink_sound (fr : Free K [.regs, .net, .he, .outbox, .freeCtr]) (h : Sound K C z s) :
    Sound K C z (sendHostLink s) := by
  unfold sendHostLink
  exact sendDennil_sound (fr.mono rfl) (useFree_sound (fr.mono rfl) h)

theorem reportSend_sound (fr : Free K [.regs, .net, .he, .outbox, .freeCtr]) (h : Sound K C z s) :
    Sound K C z (reportSend s) := by
  unfold reportSend
  refine .ite (fun _ => ?_) (fun _ => h)
  extract_lets s1 src
  have hs1 : Sound K C z s1 := netSend_sound (fr.mono rfl) h
  exact sendHostLink_sound fr (.setNet (fr.mono rfl) hs1)

theorem idleReport_sound (fr : Free K [.regs, .net, .he, .outbox, .freeCtr]) (h : Sound K C z s) :
    Sound K C z (idleReport s) := by
  unfold idleReport
  exact .ite (fun _ => reportSend_sound fr h) (fun _ => h)

end Sys2Proof.Machine
end

section
/-! SUPPORT. What each operation of Machine/Pa.lean leaves unchanged (the rules are in Laws/Sound.lean). -/

namespace Sys2Proof.Machine

set_option Elab.async false

variable {K : Comp → Prop} {C : Prop} {z s t : State}

theorem paSetSticky_sound {src : Nat} {b : Bool} (fr : Free K [.regs]) (h : Sound K C z s) :
    Sound K C z (paSetSticky s src b) := by
  unfold paSetSticky
  extract_lets was n s1
  have hs1 : Sound K C z s1 := regBit_sound fr h
  exact fset_sound fr hs1

theorem paLog_sound {src : Nat} {cls : Nat} (fr : Free K [.regs, .pa, .he, .outbox]) (h : Sound K C z s) :
    Sound K C z (paLog s src cls) := by
  unfold paLog
  extract_lets i s1 src' s2 s3
  have hs1 : Sound K C z s1 := .ite (fun _ => evt_sound (fr.mono rfl) (cntWrap_sound (fr.mono rfl) h)) (fun _ => h)
  have hs2 : Sound K C z s2 := .setPa (fr.mono rfl) hs1
  have hs3 : Sound K C z s3 := wrn_sound (fr.mono rfl) hs2
  exact wrn_sound (fr.mono rfl) (wrn_sound (fr.mono rfl) hs3)

theorem paNotice_sound {src : Nat} {cls : Nat} (fr : Free K [.regs, .net, .pa, .he, .outbox]) (h : Sound K C z s) :
    Sound K C z (paNotice s src cls) := by
  unfold paNotice
  refine .ite (fun _ => h) (fun _ => ?_)
  extract_lets safe fl src' s1
  have hs1 : Sound K C z s1 := .ite (fun _ => .setPa (fr.mono rfl) h) (fun _ => h)
  exact bcastDennil_sound (fr.mono rfl) hs1

theorem paReact_sound {src : Nat} {cls : Nat} (fr : Free K [.regs, .pa, .he, .outbox]) (h : Sound K C z s) :
    Sound K C z (paReact s src cls) := by
  unfold paReact
  extract_lets s1 s2 s3 src' s4 s5 src'2
  have hs1 : Sound K C z s1 := evtBit_sound (fr.mono rfl) h
  have hs2 : Sound K C z s2 := .ite (fun _ => paLog_sound fr hs1) (fun _ => hs1)
  have hs3 : Sound K C z s3 := .ite (fun _ => fbset_sound (fr.mono rfl) hs2) (fun _ => hs2)
  have hs4 : Sound K C z s4 := .ite (fun _ => fset_sound (fr.mono rfl) (.setPa (fr.mono rfl) hs3)) (fun _ => hs3)
  have hs5 : Sound K C z s5 := .ite (fun _ => hs4) (fun _ => wrn_sound (fr.mono rfl) (wrn_sound (fr.mono rfl) hs4))
  exact .ite (fun _ => .ite (fun _ => hs5) (fun _ => .setPa (fr.mono rfl) hs5)) (fun _ => hs4)

theorem paCount_sound {src : Nat} (fr : Free K [.regs]) (h : Sound K C z s) :
    Sound K C z (paCount s src) := by
  unfold paCount
  exact cnt_sound fr (paSetSticky_sound fr h)

theorem paMinor_sound {src : Nat} (fr : Free K [.regs, .net, .pa, .he, .outbox]) (h : Sound K C z s) :
    Sound K C z (paMinor s src) := by
  unfold paMinor
  extract_lets cls s1 s2
  have hs1 : Sound K C z s1 := paCount_sound (fr.mono rfl) h
  have hs2 : Sound K C z s2 := paReact_sound (fr.mono rfl) hs1
  exact .ite (fun _ => .ite (fun _ => paNotice_sound fr hs2) (fun _ => hs2)) (fun _ => hs1)

end Sys2Proof.Machine
end

section
/-! SUPPORT. What each operation of Machine/Aer.lean leaves unchanged (the rules are in Laws/Sound.lean). -/

namespace Sys2Proof.Machine

set_option Elab.async false

variable {K : Comp → Prop} {C : Prop} {z s t : State}

theorem cfgSet_sound {o : Nat} {m : Nat} (fr : Free K [.he]) (h : Sound K C z s) :
    Sound K C z (cfgSet o m s) := by
  unfold cfgSet
  exact cfgWr_sound fr h

theorem errMessage_sound {kind : Nat} {ur : Bool} (fr : Free K [.he, .outbox]) (h : Sound K C z s) :
    Sound K C z (errMessage kind ur s) := by
  unfold errMessage
  extract_lets serr on
  exact .ite (fun _ => h) (fun _ => emit_sound (fr.mono rfl) (.ite (fun _ => cfgSet_sound (fr.mono rfl) h) (fun _ => h)))

theorem aerHeader_sound {old : Nat} {bitNo : Nat} (fr : Free K [.he, .freeCtr]) (h : Sound K C z s) :
    Sound K C z (aerHeader old bitNo s) := by
  unfold aerHeader
  exact .ite (fun _ => h) (fun _ => forEach_sound (cfgWr_sound (fr.mono rfl) h) (fun _ _ ht => useFree_sound (fr.mono rfl)
    (cfgWr_sound (fr.mono rfl) ht)))

theorem aerUncorr_sound {bitNo : Nat} (fr : Free K [.regs, .net, .pa, .he, .outbox, .freeCtr]) (h : Sound K C z s) :
    Sound K C z (aerUncorr bitNo s) := by
  unfold aerUncorr
  extract_lets fatal ur old s1 s2 s3
  have hs1 : Sound K C z s1 := cfgSet_sound (fr.mono rfl) h
  have hs2 : Sound K C z s2 := cfgSet_sound (fr.mono rfl) hs1
  have hs3 : Sound K C z s3 := .ite (fun _ => hs2) (fun _ => errMessage_sound (fr.mono rfl) (aerHeader_sound (fr.mono rfl)
      hs2))
  exact paMinor_sound (fr.mono rfl) hs3

theorem aerAdvisory_sound {bitNo : Nat} (fr : Free K [.regs, .net, .pa, .he, .outbox, .freeCtr]) (h : Sound K C z s) :
    Sound K C z (aerAdvisory bitNo s) := by
  unfold aerAdvisory
  extract_lets ur old s1 s3 s2
  have hs1 : Sound K C z s1 := cfgSet_sound (fr.mono rfl) (cfgSet_sound (fr.mono rfl) h)
  have hs3 : Sound K C z s3 := cfgSet_sound (fr.mono rfl) hs1
  have hs2 : Sound K C z s2 := .ite (fun _ => hs1) (fun _ => errMessage_sound (fr.mono rfl) (.ite (fun _ => hs3) (fun _ =>
      aerHeader_sound (fr.mono rfl) hs3)))
  exact paMinor_sound (fr.mono rfl) hs2

theorem aerCompleter_sound {bitNo : Nat} (fr : Free K [.regs, .net, .pa, .he, .outbox, .freeCtr]) (h : Sound K C z s) :
    Sound K C z (aerCompleter bitNo s) := by
  unfold aerCompleter
  exact .ite (fun _ => aerUncorr_sound fr h) (fun _ => aerAdvisory_sound fr h)

theorem sendUr_sound {tag : Nat} (fr : Free K [.regs, .net, .pa, .he, .outbox, .freeCtr]) (h : Sound K C z s) :
    Sound K C z (sendUr tag s) := by
  unfold sendUr
  exact emit_sound (fr.mono rfl) (aerCompleter_sound fr (cnt_sound (fr.mono rfl) h))

theorem sendCa_sound {tag : Nat} (fr : Free K [.regs, .net, .pa, .he, .outbox, .freeCtr]) (h : Sound K C z s) :
    Sound K C z (sendCa tag s) := by
  unfold sendCa
  exact emit_sound (fr.mono rfl) (aerCompleter_sound fr (cfgSet_sound (fr.mono rfl) h))

end Sys2Proof.Machine
end

section
/-! SUPPORT. What each operation of Machine/Mem.lean leaves unchanged (the rules are in Laws/Sound.lean). -/

namespace Sys2Proof.Machine

set_option Elab.async false

variable {K : Comp → Prop} {C : Prop} {z s t : State}

theorem tollTake_sound {c : Nat} {r : Nat} {cost : Nat} (fr : Free K [.regs, .toll]) (h : Sound K C z s) :
    Sound K C z (tollTake s c r cost) := by
  unfold tollTake
  refine .ite (fun _ => h) (fun _ => ?_)
  extract_lets s1 src
  have hs1 : Sound K C z s1 := wrn_sound (fr.mono rfl) h
  exact .setToll (fr.mono rfl) hs1

theorem tollSpend_sound {c : Nat} {costs : List (Nat × Nat)} (fr : Free K [.regs, .toll]) (h : Sound K C z s) :
    Sound K C z (tollSpend s c costs) := by
  unfold tollSpend
  exact foldl_sound h (fun _ _ ht => tollTake_sound fr ht)

theorem tollSettle_sound {k : Nat} (fr : Free K [.regs, .toll]) (h : Sound K C z s) :
    Sound K C z (tollSettle k s) := by
  unfold tollSettle
  extract_lets n src src'
  have hsrc : Sound K C z src := tollTake_sound fr h
  exact .ite (fun _ => h) (fun _ => .setToll (fr.mono rfl) hsrc)

theorem tollBegin_sound {c : Nat} {costs : List (Nat × Nat)} (fr : Free K [.regs, .toll]) (h : Sound K C z s) :
    Sound K C z (tollBegin s c costs) := by
  unfold tollBegin
  exact .ite (fun _ => h) (fun _ => foldl_sound h (fun _ _ ht => tollSettle_sound fr (.setToll (fr.mono rfl) ht)))

theorem tollShort_sound {c : Nat} {streaming : Bool} (fr : Free K [.regs, .toll, .he, .outbox]) (h : Sound K C z s) :
    Sound K C z (tollShort s c streaming) := by
  unfold tollShort
  extract_lets src s1
  have hs1 : Sound K C z s1 := .ite (fun _ => h) (fun _ => cnt_sound (fr.mono rfl) (.setToll (fr.mono rfl) h))
  exact .ite (fun _ => evt_sound (fr.mono rfl) hs1) (fun _ => hs1)

theorem poolFree_sound {p : Nat} {f : Nat} (fr : Free K [.regs, .mem]) (h : Sound K C z s) :
    Sound K C z (poolFree p f s) := by
  unfold poolFree
  extract_lets was low s1 src
  have hs1 : Sound K C z s1 := wrn_sound (fr.mono rfl) (wrn_sound (fr.mono rfl) h)
  exact .setMem (fr.mono rfl) hs1

theorem poolTake_sound {p : Nat} {n : Nat} (fr : Free K [.regs, .mem]) (h : Sound K C z s) :
    Sound K C z (poolTake s p n) := by
  unfold poolTake
  extract_lets s1 src
  have hs1 : Sound K C z s1 := poolFree_sound fr h
  exact .setMem (fr.mono rfl) hs1

theorem poolRefuse_sound {p : Nat} (fr : Free K [.regs, .he, .outbox]) (h : Sound K C z s) :
    Sound K C z (poolRefuse s p) := by
  unfold poolRefuse
  exact evt_sound fr (cnt_sound (fr.mono rfl) h)

theorem poolGive_sound {p : Nat} {n : Nat} (fr : Free K [.regs, .mem]) (h : Sound K C z s) :
    Sound K C z (poolGive s p n) := by
  unfold poolGive
  extract_lets k s1 src
  have hs1 : Sound K C z s1 := poolFree_sound fr h
  exact .setMem (fr.mono rfl) hs1

theorem lp5Ce_sound {a : Nat} (fr : Free K [.regs, .net, .pa, .he, .outbox]) (h : Sound K C z s) :
    Sound K C z (lp5Ce s a) := by
  unfold lp5Ce
  exact paMinor_sound fr (evt_sound (fr.mono rfl) (cnt_sound (fr.mono rfl) h))

theorem lp5Ue_sound {a : Nat} (fr : Free K [.regs, .mem, .net, .pa, .he, .outbox]) (h : Sound K C z s) :
    Sound K C z (lp5Ue s a) := by
  unfold lp5Ue
  extract_lets ch sec base src s1 s2
  have hs1 : Sound K C z s1 := .setMem (fr.mono rfl) h
  have hs2 : Sound K C z s2 := wrn_sound (fr.mono rfl) (wrn_sound (fr.mono rfl) (cnt_sound (fr.mono rfl) hs1))
  exact paMinor_sound (fr.mono rfl) (evt_sound (fr.mono rfl) hs2)

theorem lp5Check_sound {c : ReadCheck} {a : Nat} (fr : Free K [.regs, .mem, .net, .pa, .he, .outbox]) (h : Sound K C z s)
    :
    Sound K C z (lp5Check c a s) := by
  unfold lp5Check
  split
  · exact h
  · exact lp5Ce_sound (fr.mono rfl) h
  · exact lp5Ue_sound fr h

theorem setW1_sound {l : List W1Acc} (fr : Free K [.he]) (h : Sound K C z s) :
    Sound K C z (setW1 l s) := by
  unfold setW1
  exact .setHe fr h

theorem w1Do_sound {x : W1Acc} (fr : Free K [.regs, .mem, .net, .pa, .he, .outbox]) (h : Sound K C z s) :
    Sound K C z (w1Do x s) := by
  unfold w1Do
  refine .ite (fun _ => forEach_sound h (fun _ _ ht => lp5Put_sound (fr.mono rfl) ht)) (fun _ => ?_)
  extract_lets lost s1
  have hs1 : Sound K C z s1 := .ite (fun _ => h) (fun _ => lp5Check_sound fr h)
  exact emit_sound (fr.mono rfl) hs1

theorem w1Run_sound {fuel : Nat} (fr : Free K [.regs, .mem, .net, .toll, .pa, .he, .outbox]) (h : Sound K C z s) : Sound K
    C z (w1Run fuel s) := by
  induction fuel generalizing s with
  | zero => exact h
  | succ n ih =>
    unfold w1Run
    split
    · rename_i e _
      cases e
      exact .ite (fun _ => ih (w1Do_sound (fr.mono rfl) (setW1_sound (fr.mono rfl) h))) (fun _ =>
        .ite (fun _ => ih (setW1_sound (fr.mono rfl) (tollSpend_sound (fr.mono rfl) h)))
          (fun _ => tollShort_sound (fr.mono rfl) h))
    · exact h

theorem w1Drain_sound (fr : Free K [.regs, .mem, .net, .toll, .pa, .he, .outbox]) (h : Sound K C z s) :
    Sound K C z (w1Drain s) := by
  unfold w1Drain
  exact w1Run_sound fr h

theorem quPut_sound {q : Nat} {v : Queue} (fr : Free K [.queues]) (h : Sound K C z s) :
    Sound K C z (quPut s q v) := by
  unfold quPut
  exact .setQueues fr h

theorem quSetWords_sound {q : Nat} {v : Queue} (fr : Free K [.regs, .queues, .he, .outbox]) (h : Sound K C z s) :
    Sound K C z (quSetWords s q v) := by
  unfold quSetWords
  extract_lets was n s1 s2 high
  have hs1 : Sound K C z s1 := fset_sound (fr.mono rfl) (quPut_sound (fr.mono rfl) h)
  have hs2 : Sound K C z s2 := wrn_sound (fr.mono rfl) hs1
  exact .ite (fun _ => quEvt_sound (fr.mono rfl) hs2) (fun _ => hs2)

theorem quWrite_sound {q : Nat} {rec : List Byte} (fr : Free K [.regs, .queues, .he, .outbox]) (h : Sound K C z s) :
    Sound K C z (quWrite s q rec) := by
  unfold quWrite
  extract_lets w words s1 v
  have hs1 : Sound K C z s1 := cntWrap_sound (fr.mono rfl) h
  exact .ite (fun _ => quSetWords_sound fr hs1) (fun _ => quEvt_sound (fr.mono rfl) (cntWrap_sound (fr.mono rfl) hs1))

theorem quLeave_sound {q : Nat} {poison : Bool} (fr : Free K [.regs, .net, .queues, .pa, .he, .outbox])
    (h : Sound K C z s) :
    Sound K C z (quLeave s q poison) := by
  unfold quLeave
  extract_lets v s1
  have hs1 : Sound K C z s1 := cntWrap_sound (fr.mono rfl) (quSetWords_sound (fr.mono rfl) h)
  exact .ite (fun _ => paMinor_sound (fr.mono rfl) (quEvt_sound (fr.mono rfl) (cnt_sound (fr.mono rfl) hs1))) (fun _ =>
    hs1)

theorem quFlush_sound {q : Nat} (fr : Free K [.regs, .queues, .he, .outbox]) (h : Sound K C z s) :
    Sound K C z (quFlush q s) := by
  unfold quFlush
  extract_lets v
  exact .ite (fun _ => fset_sound (fr.mono rfl) (quSetWords_sound fr (cntWrap_sound (fr.mono rfl) h))) (fun _ => h)

theorem tlpWrites_sound {fuel mps addr : Nat} {data : List Byte} {poisoned relaxed : Bool} (fr : Free K [.outbox])
    (h : Sound K C z s) : Sound K C z (tlpWrites fuel mps addr data poisoned relaxed s) := by
  induction fuel generalizing addr data s with
  | zero => exact h
  | succ n ih => exact .ite (fun _ => h) (fun _ => ih (emit_sound fr h))

theorem dmaWrite_sound {addr : Nat} {data : List Byte} {poisoned : Bool} {data_ : Bool} (fr : Free K [.he, .outbox])
    (h : Sound K C z s) :
    Sound K C z (dmaWrite s addr data poisoned data_) := by
  unfold dmaWrite
  exact tlpWrites_sound (fr.mono rfl) (.ite (fun _ => cfgSet_sound (fr.mono rfl) h) (fun _ => h))

end Sys2Proof.Machine
end

section
/-! SUPPORT. What each operation of Machine/Ledger.lean leaves unchanged (the rules are in Laws/Sound.lean). -/

namespace Sys2Proof.Machine

set_option Elab.async false

variable {K : Comp → Prop} {C : Prop} {z s t : State}

theorem setEntry_sound {i : Nat} {e : Entry} (fr : Free K [.ledger]) (h : Sound K C z s) :
    Sound K C z (setEntry s i e) := by
  unfold setEntry
  exact .setLedger fr h

theorem updEntry_sound {id : Nat} {f : Entry → Entry} (fr : Free K [.ledger]) (h : Sound K C z s) :
    Sound K C z (updEntry s id f) := by
  unfold updEntry
  extract_lets e src
  exact setEntry_sound fr h

theorem setFlag_sound {id : Nat} {i : Nat} {b : Bool} (fr : Free K [.ledger]) (h : Sound K C z s) :
    Sound K C z (setFlag s id i b) := by
  unfold setFlag
  exact updEntry_sound fr h

theorem acct_sound {f : Acct → Acct} (fr : Free K [.acct]) (h : Sound K C z s) :
    Sound K C z (acct s f) := by
  unfold acct
  exact .setAcct fr h

theorem setLive_sound {n : Nat} (fr : Free K [.regs, .net, .he, .outbox, .freeCtr]) (h : Sound K C z s) :
    Sound K C z (setLive s n) := by
  unfold setLive
  exact idleReport_sound fr (fset_sound (fr.mono rfl) h)

theorem allocEntry_sound {port : Nat} {frame : Nat} {first : Nat} {area : Nat}
    (fr : Free K [.regs, .ledger, .acct, .net, .he, .outbox, .freeCtr]) (h : Sound K C z s) :
    Sound K C z (allocEntry s port frame first area) := by
  unfold allocEntry
  extract_lets id i l l' src s1
  have hs1 : Sound K C z s1 := setEntry_sound (fr.mono rfl) (.setLedger (fr.mono rfl) h)
  exact acct_sound (fr.mono rfl) (setLive_sound (fr.mono rfl) hs1)

theorem ledgerFull_sound (fr : Free K [.regs, .net, .pa, .he, .outbox]) (h : Sound K C z s) :
    Sound K C z (ledgerFull s) := by
  unfold ledgerFull
  exact paMinor_sound fr (evt_sound (fr.mono rfl) (cnt_sound (fr.mono rfl) h))

theorem retireEntry_sound {id : Nat} (fr : Free K [.regs, .ledger, .acct, .net, .he, .outbox, .freeCtr])
    (h : Sound K C z s) :
    Sound K C z (retireEntry id s) := by
  unfold retireEntry
  refine .ite (fun _ => ?_) (fun _ => h)
  extract_lets s1 src s2
  have hs1 : Sound K C z s1 := updEntry_sound (fr.mono rfl) h
  have hs2 : Sound K C z s2 := .setLedger (fr.mono rfl) hs1
  exact acct_sound (fr.mono rfl) (setLive_sound (fr.mono rfl) hs2)

theorem updSet_sound {r : SetRec} {f : SetRec → SetRec} (fr : Free K [.ledger]) (h : Sound K C z s) :
    Sound K C z (updSet s r f) := by
  unfold updSet
  exact .setLedger fr h

theorem dropSet_sound {r : SetRec} (fr : Free K [.ledger]) (h : Sound K C z s) :
    Sound K C z (dropSet s r) := by
  unfold dropSet
  extract_lets left src
  exact .setLedger fr h

theorem noteOutcome_sound {owner : Nat} {code : Nat} (fr : Free K [.views]) (h : Sound K C z s) :
    Sound K C z (noteOutcome owner code s) := by
  unfold noteOutcome
  extract_lets recs src
  exact .setViews fr h

theorem sendOutcome_sound {s0 : State} {r : SetRec} {code : Nat} {action : Nat} {launch : Nat} {durNs : Nat}
    (fr : Free K [.regs, .views, .net, .he, .outbox]) (hs0 : Sound K C z s0) :
    Sound K C z (sendOutcome s0 r code action launch durNs) := by
  unfold sendOutcome
  extract_lets s pl
  have hs : Sound K C z s := noteOutcome_sound (fr.mono rfl) hs0
  exact forEach_sound hs (fun _ _ ht => netSend_sound (fr.mono rfl) ht)

theorem moveSet_sound {r : SetRec} {st : EState} {f : Entry → Entry} (fr : Free K [.ledger]) (h : Sound K C z s) :
    Sound K C z (moveSet s r st f) := by
  unfold moveSet
  exact forEach_sound h (fun _ _ ht => updEntry_sound fr ht)

theorem finishSet_sound {r : SetRec} (fr : Free K [.regs, .ledger, .acct, .net, .he, .outbox, .freeCtr])
    (h : Sound K C z s) :
    Sound K C z (finishSet s r) := by
  unfold finishSet
  exact dropSet_sound (fr.mono rfl) (forEach_sound h (fun _ _ hs => retireEntry_sound fr hs))

theorem evMember_sound {keep : Bool} {code : Nat} {owner : Nat} {launch : Nat} {durUs : Nat} {m : Nat}
    (fr : Free K [.regs, .mem, .he, .ev, .outbox]) (h : Sound K C z s) :
    Sound K C z (evMember keep code owner launch durUs m s) := by
  unfold evMember
  split
  · exact h
  · extract_lets src s1 e src'
    have hs1 : Sound K C z s1 := poolGive_sound (fr.mono rfl) (.setEv (fr.mono rfl) h)
    refine .ite (fun _ => hs1) (fun _ => ?_)
    split
    · exact evt_sound (fr.mono rfl) (cnt_sound (fr.mono rfl) hs1)
    · exact .setEv (fr.mono rfl) hs1

theorem evTerminal_sound {r : SetRec} {code : Nat} {launch : Nat} {durUs : Nat}
    (fr : Free K [.regs, .mem, .he, .ev, .outbox]) (h : Sound K C z s) :
    Sound K C z (evTerminal s r code launch durUs) := by
  unfold evTerminal
  extract_lets on hit keep n src s1
  have hs1 : Sound K C z s1 := .ite (fun _ => .setEv (fr.mono rfl) h) (fun _ => h)
  exact forEach_sound hs1 (fun _ _ hs => evMember_sound fr hs)

theorem endSet_sound {owner : Nat} {passed : Bool}
    (fr : Free K [.regs, .mem, .ledger, .views, .acct, .net, .he, .ev, .outbox, .freeCtr]) (h : Sound K C z s) :
    Sound K C z (endSet s owner passed) := by
  unfold endSet
  split
  · exact h
  · extract_lets act s1 s1' s2
    have hs1 : Sound K C z s1 := moveSet_sound (fr.mono rfl) h
    have hs1' : Sound K C z s1' := evTerminal_sound (fr.mono rfl) hs1
    have hs2 : Sound K C z s2 := acct_sound (fr.mono rfl) hs1'
    exact finishSet_sound (fr.mono rfl) (sendOutcome_sound (fr.mono rfl) hs2)

theorem setRetire_sound {owner : Nat} {time : Nat} (fr : Free K [.ledger]) (h : Sound K C z s) :
    Sound K C z (setRetire s owner time) := by
  unfold setRetire
  exact .setLedger fr h

end Sys2Proof.Machine
end

section
/-! SUPPORT. What each operation of Machine/Act.lean leaves unchanged (the rules are in Laws/Sound.lean). -/

namespace Sys2Proof.Machine

set_option Elab.async false

variable {K : Comp → Prop} {C : Prop} {z s t : State}

theorem syncBus_sound {b : Nat} (fr : Free K [.regs]) (h : Sound K C z s) :
    Sound K C z (syncBus b s) := by
  unfold syncBus
  extract_lets q n s1 nxt s2
  have hs1 : Sound K C z s1 := wrn_sound fr h
  have hs2 : Sound K C z s2 := wrn_sound fr hs1
  exact fset_sound fr hs2

theorem updBus_sound {b : Nat} {f : BusSt → BusSt} (fr : Free K [.regs, .act]) (h : Sound K C z s) :
    Sound K C z (updBus s b f) := by
  unfold updBus
  extract_lets v src
  exact syncBus_sound (fr.mono rfl) (.setAct (fr.mono rfl) h)

theorem cancelParts_sound {b : Nat} {sel : Part → Bool} (fr : Free K [.regs, .act, .acct]) (h : Sound K C z s) :
    Sound K C z (cancelParts b sel s) := by
  unfold cancelParts
  extract_lets gone n s1
  have hs1 : Sound K C z s1 := updBus_sound (fr.mono rfl) h
  exact .ite (fun _ => h) (fun _ => acct_sound (fr.mono rfl) hs1)

theorem queuePart_sound {src : PartSrc} {launch : Nat} {dur : Nat} {prio : Nat} {p : PartSpec}
    (fr : Free K [.regs, .act, .acct]) (h : Sound K C z s) :
    Sound K C z (queuePart src launch dur prio p s) := by
  unfold queuePart
  extract_lets s1 src' s2
  have hs1 : Sound K C z s1 := updBus_sound (fr.mono rfl) h
  have hs2 : Sound K C z s2 := .setAct (fr.mono rfl) hs1
  exact .ite (fun _ => hs2) (fun _ => acct_sound (fr.mono rfl) hs2)

theorem updOrder_sound {owner : Nat} {f : Order → Order} (fr : Free K [.act]) (h : Sound K C z s) :
    Sound K C z (updOrder s owner f) := by
  unfold updOrder
  exact .setAct fr h

theorem dropOrder_sound {owner : Nat} (fr : Free K [.act]) (h : Sound K C z s) :
    Sound K C z (dropOrder s owner) := by
  unfold dropOrder
  exact .setAct fr h

theorem orderEnds_sound {owner : Nat}
    (fr : Free K [.regs, .mem, .ledger, .views, .acct, .net, .he, .ev, .outbox, .freeCtr]) (h : Sound K C z s) :
    Sound K C z (orderEnds s owner) := by
  unfold orderEnds
  split
  · exact h
  · split
    · exact finishSet_sound (fr.mono rfl) (sendOutcome_sound (fr.mono rfl) (evTerminal_sound (fr.mono rfl) h))
    · exact endSet_sound fr h
    · exact endSet_sound fr h
    · exact h

theorem cancelRemotes_sound {o : Order} (fr : Free K [.regs, .net, .he, .outbox]) (h : Sound K C z s) :
    Sound K C z (cancelRemotes s o) := by
  unfold cancelRemotes
  exact forEach_sound h (fun _ _ ht => .ite (fun _ => netSend_sound fr ht) (fun _ => ht))

theorem cancelOrder_sound {owner : Nat} {counter : Nat}
    (fr : Free K [.regs, .mem, .ledger, .views, .act, .acct, .net, .he, .ev, .outbox, .freeCtr]) (h : Sound K C z s) :
    Sound K C z (cancelOrder s owner counter) := by
  unfold cancelOrder
  split
  · exact h
  · extract_lets s1 s2 s3
    have hs1 : Sound K C z s1 := forEach_sound h (fun _ _ ht => cancelParts_sound (fr.mono rfl) ht)
    have hs2 : Sound K C z s2 := evt_sound (fr.mono rfl) (cnt_sound (fr.mono rfl) (cancelRemotes_sound (fr.mono rfl) hs1))
    have hs3 : Sound K C z s3 := dropOrder_sound (fr.mono rfl) hs2
    exact .ite (fun _ => hs3) (fun _ => orderEnds_sound (fr.mono rfl) hs3)

theorem sendOrder_sound {owner : Nat} {launch : Nat} {dur : Nat} {prio : Nat} {east : Bool} {r : Nat × Nat}
    (fr : Free K [.regs, .act, .net, .he, .outbox]) (h : Sound K C z s) :
    Sound K C z (sendOrder owner launch dur prio east r s) := by
  unfold sendOrder
  extract_lets tag src s1
  have hs1 : Sound K C z s1 := .setAct (fr.mono rfl) h
  split
  · exact updOrder_sound (fr.mono rfl) hs1
  · extract_lets s2 s3
    have hs2 : Sound K C z s2 := updOrder_sound (fr.mono rfl) hs1
    have hs3 : Sound K C z s3 := .ite (fun _ => cnt_sound (fr.mono rfl) hs2) (fun _ => hs2)
    exact netSend_sound (fr.mono rfl) hs3

theorem orderQueued_sound {r : SetRec} {launch : Nat} {dur : Nat}
    (fr : Free K [.regs, .mem, .ledger, .views, .net, .he, .ev, .outbox]) (h : Sound K C z s) :
    Sound K C z (orderQueued s r launch dur) := by
  unfold orderQueued
  extract_lets act
  split
  · exact setRetire_sound (fr.mono rfl) (sendOutcome_sound (fr.mono rfl) (evTerminal_sound (fr.mono rfl) h))
  · exact sendOutcome_sound (fr.mono rfl) (moveSet_sound (fr.mono rfl) h)
  · exact h

theorem placeOrder_sound {r : SetRec} {e : Entry} {md : Mdl} {launch : Nat} {ovr : Option Ovr} {prio : Nat}
    (fr : Free K [.regs, .mem, .ledger, .views, .act, .acct, .net, .he, .ev, .outbox, .freeCtr]) (h : Sound K C z s) :
    Sound K C z (placeOrder s r e md launch ovr prio) := by
  unfold placeOrder
  extract_lets want dur s1 rng ps we ea s2 miss s3
  have hs1 : Sound K C z s1 := .ite (fun _ => cnt_sound (fr.mono rfl) h) (fun _ => h)
  have hs2 : Sound K C z s2 := cnt_sound (fr.mono rfl) hs1
  have hs3 : Sound K C z s3 := .ite (fun _ => cnt_sound (fr.mono rfl) hs2) (fun _ => hs2)
  split
  · extract_lets s4
    have hs4 : Sound K C z s4 := .ite (fun _ => hs3) (fun _ => cnt_sound (fr.mono rfl) hs3)
    exact orderEnds_sound (fr.mono rfl) (evt_sound (fr.mono rfl) hs4)
  · extract_lets s4 src s5 s6 s7 s8
    have hs41 : Sound K C z s4 := forEach_sound hs3 (fun _ _ ht => cancelOrder_sound fr ht)
    have hs5 : Sound K C z s5 := .setAct (fr.mono rfl) hs41
    have hs6 : Sound K C z s6 := forEach_sound hs5 (fun _ _ hs => queuePart_sound (fr.mono rfl) hs)
    have hs7 : Sound K C z s7 := .ite (fun _ => hs6) (fun _ => orderQueued_sound (fr.mono rfl) hs6)
    have hs8 : Sound K C z s8 := by
      unfold s8
      unfold we
      split
      · exact sendOrder_sound (fr.mono rfl) hs7
      · exact hs7
    unfold ea
    split
    · exact sendOrder_sound (fr.mono rfl) hs8
    · exact hs8

theorem judgeSet_sound {r : SetRec} {action : Nat} {ovr : Option Ovr} {prio : Nat}
    (fr : Free K [.regs, .mem, .ledger, .views, .act, .acct, .net, .he, .ev, .outbox, .freeCtr]) (h : Sound K C z s) :
    Sound K C z (judgeSet s r action ovr prio) := by
  unfold judgeSet
  extract_lets s1 s2 s3
  have hs1 : Sound K C z s1 := moveSet_sound (fr.mono rfl) h
  have hs2 : Sound K C z s2 := acct_sound (fr.mono rfl) (cnt_sound (fr.mono rfl) hs1)
  have hs3 : Sound K C z s3 := sendOutcome_sound (fr.mono rfl) hs2
  refine .ite (fun _ => endSet_sound (fr.mono rfl) hs3) (fun _ => ?_)
  split
  · exact placeOrder_sound fr hs3
  · exact endSet_sound (fr.mono rfl) (cnt_sound (fr.mono rfl) hs3)

theorem defaultSet_sound {r : SetRec}
    (fr : Free K [.regs, .mem, .ledger, .views, .act, .acct, .net, .he, .ev, .outbox, .freeCtr]) (h : Sound K C z s) :
    Sound K C z (defaultSet s r) := by
  unfold defaultSet
  extract_lets s1 s2 s3
  have hs1 : Sound K C z s1 := moveSet_sound (fr.mono rfl) h
  have hs2 : Sound K C z s2 := evt_sound (fr.mono rfl) (cnt_sound (fr.mono rfl) hs1)
  have hs3 : Sound K C z s3 := acct_sound (fr.mono rfl) hs2
  refine .ite (fun _ => finishSet_sound (fr.mono rfl) (sendOutcome_sound (fr.mono rfl) (evTerminal_sound (fr.mono rfl)
    hs3))) (fun _ => ?_)
  split
  · exact placeOrder_sound fr hs3
  · exact finishSet_sound (fr.mono rfl) (sendOutcome_sound (fr.mono rfl) (evTerminal_sound (fr.mono rfl) hs3))

theorem fireOrder_sound {owner : Nat} (fr : Free K [.regs, .mem, .ledger, .views, .act, .acct, .net, .he, .ev, .outbox])
    (h : Sound K C z s) :
    Sound K C z (fireOrder s owner) := by
  unfold fireOrder
  split
  · exact h
  · refine .ite (fun _ => h) (fun _ => ?_)
    extract_lets s1
    have hs1 : Sound K C z s1 := cnt_sound (fr.mono rfl) (updOrder_sound (fr.mono rfl) h)
    split
    · exact hs1
    · refine .ite (fun _ => ?_) (fun _ => hs1)
      extract_lets s2 s2' s3
      have hs2 : Sound K C z s2 := moveSet_sound (fr.mono rfl) hs1
      have hs2' : Sound K C z s2' := evTerminal_sound (fr.mono rfl) hs2
      have hs3 : Sound K C z s3 := acct_sound (fr.mono rfl) hs2'
      exact setRetire_sound (fr.mono rfl) (sendOutcome_sound (fr.mono rfl) hs3)

theorem markLate_sound {id : Nat} (fr : Free K [.ledger]) (h : Sound K C z s) :
    Sound K C z (markLate s id) := by
  unfold markLate
  exact forEach_sound h (fun _ _ ht => setFlag_sound fr ht)

theorem verdictHere_sound {v : List Byte}
    (fr : Free K [.regs, .mem, .ledger, .views, .act, .acct, .net, .he, .ev, .outbox, .freeCtr]) (h : Sound K C z s) :
    Sound K C z (verdictHere s v) := by
  unfold verdictHere
  extract_lets id
  split
  · exact evt_sound (fr.mono rfl) (cnt_sound (fr.mono rfl) h)
  · exact cnt_sound (fr.mono rfl) h
  · exact evt_sound (fr.mono rfl) (cnt_sound (fr.mono rfl) (markLate_sound (fr.mono rfl) h))
  · split
    · exact judgeSet_sound fr h
    · exact h

theorem verdictBad_sound (fr : Free K [.regs, .he, .outbox]) (h : Sound K C z s) :
    Sound K C z (verdictBad s) := by
  unfold verdictBad
  exact evt_sound fr (cnt_sound (fr.mono rfl) h)

theorem verdictAtMember_sound {v : List Byte}
    (fr : Free K [.regs, .mem, .ledger, .views, .act, .acct, .net, .he, .ev, .outbox, .freeCtr]) (h : Sound K C z s) :
    Sound K C z (verdictAtMember s v) := by
  unfold verdictAtMember
  extract_lets id p
  exact .ite (fun _ => verdictHere_sound fr h) (fun _ => .ite (fun _ => netSend_sound (fr.mono rfl) h) (fun _ =>
    verdictBad_sound (fr.mono rfl) h))

theorem verdictTaken_sound {v : List Byte}
    (fr : Free K [.regs, .mem, .ledger, .views, .act, .acct, .net, .he, .ev, .outbox, .freeCtr]) (h : Sound K C z s) :
    Sound K C z (verdictTaken s v) := by
  unfold verdictTaken
  refine .ite (fun _ => verdictBad_sound (fr.mono rfl) h) (fun _ => ?_)
  extract_lets p
  exact .ite (fun _ => verdictAtMember_sound fr h) (fun _ => .ite (fun _ => netSend_sound (fr.mono rfl) h) (fun _ =>
    verdictBad_sound (fr.mono rfl) h))

end Sys2Proof.Machine
end

section
/-! SUPPORT. What each operation of Machine/Mbx.lean leaves unchanged (the rules are in Laws/Sound.lean). -/

namespace Sys2Proof.Machine

set_option Elab.async false

variable {K : Comp → Prop} {C : Prop} {z s t : State}

theorem updChan_sound {c : Nat} {f : MbChan → MbChan} (fr : Free K [.mb]) (h : Sound K C z s) :
    Sound K C z (updChan s c f) := by
  unfold updChan
  extract_lets v src
  exact .setMb fr h

theorem mbEvent_sound {c : Nat} {kind : Nat} {tag : Nat} {result : List Byte} (fr : Free K [.regs, .mb])
    (h : Sound K C z s) :
    Sound K C z (mbEvent c kind tag result s) := by
  unfold mbEvent
  exact .ite (fun _ => h) (fun _ => .ite (fun _ => cnt_sound (fr.mono rfl) (updChan_sound (fr.mono rfl) h)) (fun _ =>
    updChan_sound (fr.mono rfl) h))

theorem cplPut_sound {c : Nat} {entry : List Byte} {lost : Bool} (fr : Free K [.regs, .he, .mb, .outbox])
    (h : Sound K C z s) :
    Sound K C z (cplPut c entry lost s) := by
  unfold cplPut
  extract_lets o i ph e s1 n s2 s3
  have hs1 : Sound K C z s1 := dmaWrite_sound (fr.mono rfl) h
  have hs2 : Sound K C z s2 := wrn_sound (fr.mono rfl) hs1
  have hs3 : Sound K C z s3 := .ite (fun _ => updChan_sound (fr.mono rfl) hs2) (fun _ => hs2)
  exact .ite (fun _ => evt_sound (fr.mono rfl) hs3) (fun _ => hs3)

theorem complete_sound {c : Nat} {opcode : Nat} {status : Nat} {tag : Nat} {detail : Nat} {result : List Byte}
    (fr : Free K [.regs, .mb]) (h : Sound K C z s) :
    Sound K C z (complete c opcode status tag detail result s) := by
  unfold complete
  extract_lets s1
  have hs1 : Sound K C z s1 := updChan_sound (fr.mono rfl) h
  exact .ite (fun _ => hs1) (fun _ => cnt_sound (fr.mono rfl) hs1)

theorem logWrite_sound {kind : Nat} {data : List Byte} (fr : Free K [.ev]) (h : Sound K C z s) :
    Sound K C z (logWrite s kind data) := by
  unfold logWrite
  refine .ite (fun _ => h) (fun _ => ?_)
  extract_lets l past src
  exact .setEv fr h

theorem sendEvent_sound {pier : Nat} {kind : Nat} {chan : Nat} {tag : Nat} {sess : Nat} {result : List Byte}
    (fr : Free K [.regs, .net, .he, .outbox, .freeCtr]) (h : Sound K C z s) :
    Sound K C z (sendEvent pier kind chan tag sess result s) := by
  unfold sendEvent
  exact sendDennil_sound (fr.mono rfl) (useFree_sound (fr.mono rfl) h)

theorem twAlertIn_sound {b : Nat} {low : Bool} (fr : Free K [.regs, .he, .outbox]) (h : Sound K C z s) :
    Sound K C z (twAlertIn b low s) := by
  unfold twAlertIn
  extract_lets o s1
  have hs1 : Sound K C z s1 := fbset_sound (fr.mono rfl) h
  exact .ite (fun _ => evt_sound fr hs1) (fun _ => hs1)

theorem twAlertReq_sound {b : Nat} {req : Bool} (fr : Free K [.regs, .he, .outbox]) (h : Sound K C z s) :
    Sound K C z (twAlertReq b req s) := by
  unfold twAlertReq
  refine .ite (fun _ => h) (fun _ => ?_)
  extract_lets s1
  have hs1 : Sound K C z s1 := emit_sound (fr.mono rfl) (fbset_sound (fr.mono rfl) h)
  exact .ite (fun _ => twAlertIn_sound fr hs1) (fun _ => hs1)

theorem replaceNew_sound {bitNo : Nat} (fr : Free K [.regs, .net, .pa, .he, .ev, .mb, .outbox, .freeCtr])
    (h : Sound K C z s) :
    Sound K C z (replaceNew bitNo s) := by
  unfold replaceNew
  extract_lets s1 v s2 s3 s4 res s5
  have hs1 : Sound K C z s1 := evt_sound (fr.mono rfl) h
  have hs2 : Sound K C z s2 := paNotice_sound (fr.mono rfl) (useFree_sound (fr.mono rfl) hs1)
  have hs3 : Sound K C z s3 := twAlertReq_sound (fr.mono rfl) hs2
  have hs4 : Sound K C z s4 := logWrite_sound (fr.mono rfl) hs3
  have hs5 : Sound K C z s5 := forEach_sound (useFree_sound (fr.mono rfl) hs4) (fun _ _ ht => .ite (fun _ => ht) (fun _ =>
      mbEvent_sound (fr.mono rfl) ht))
  exact forEach_sound hs5 (fun _ _ ht1 => sendEvent_sound (fr.mono rfl) ht1)

theorem replaceTo_sound {new : Nat} (fr : Free K [.regs, .ports, .net, .pa, .he, .ev, .mb, .outbox, .freeCtr])
    (h : Sound K C z s) :
    Sound K C z (replaceTo new s) := by
  unfold replaceTo
  extract_lets old s1 s2 s3
  have hs1 : Sound K C z s1 := indAll_sound (fr.mono rfl) (wrn_sound (fr.mono rfl) (wrn_sound (fr.mono rfl) h))
  have hs2 : Sound K C z s2 := fbset_sound (fr.mono rfl) hs1
  have hs3 : Sound K C z s3 := .ite (fun _ => hs2) (fun _ => emit_sound (fr.mono rfl) hs2)
  exact forEach_sound hs3 (fun _ _ hs => replaceNew_sound (fr.mono rfl) hs)

theorem replaceUpdate_sound (fr : Free K [.regs, .ports, .net, .pa, .he, .ev, .mb, .outbox, .freeCtr]) (h : Sound K C z s)
    :
    Sound K C z (replaceUpdate s) := by
  unfold replaceUpdate
  exact replaceTo_sound fr h

end Sys2Proof.Machine
end

section
/-! SUPPORT. What each operation of Machine/Em.lean leaves unchanged (the rules are in Laws/Sound.lean). -/

namespace Sys2Proof.Machine

set_option Elab.async false

variable {K : Comp → Prop} {C : Prop} {z s t : State}

theorem captureAll_sound {c : Nat} (fr : Free K [.regs]) (h : Sound K C z s) :
    Sound K C z (captureAll s c) := by
  unfold captureAll
  extract_lets o s1 w
  have hs1 : Sound K C z s1 := forEach_sound h (fun _ _ ht => wrn_sound fr ht)
  exact fbset_sound fr (wrn_sound fr (wrn_sound fr hs1))

theorem emOverrun_sound {i : Nat} (fr : Free K [.regs, .he, .outbox]) (h : Sound K C z s) :
    Sound K C z (emOverrun i s) := by
  unfold emOverrun
  exact evt_sound fr (cnt_sound (fr.mono rfl) (regBit_sound (fr.mono rfl) h))

theorem emDrive_sound {k : Nat} {active : Bool} (fr : Free K [.regs, .outbox]) (h : Sound K C z s) :
    Sound K C z (emDrive k active s) := by
  unfold emDrive
  extract_lets s1
  have hs1 : Sound K C z s1 := fbset_sound (fr.mono rfl) h
  exact emit_sound (fr.mono rfl) hs1

theorem emOutTask_sound {k : Nat} (fr : Free K [.regs, .he, .outbox]) (h : Sound K C z s) :
    Sound K C z (emOutTask k s) := by
  unfold emOutTask
  extract_lets o
  refine .ite (fun _ => h) (fun _ => ?_)
  split
  · exact emDrive_sound (fr.mono rfl) h
  · exact h
  · exact .ite (fun _ => emOverrun_sound fr h) (fun _ => emDrive_sound (fr.mono rfl) (fbset_sound (fr.mono rfl) h))

theorem emCapTask_sound {c : Nat} (fr : Free K [.regs, .he, .outbox]) (h : Sound K C z s) :
    Sound K C z (emCapTask c s) := by
  unfold emCapTask
  extract_lets o s1
  have hs1 : Sound K C z s1 := evt_sound fr (cnt_sound (fr.mono rfl) (emOverrun_sound fr h))
  exact .ite (fun _ => h) (fun _ => .ite (fun _ => .ite (fun _ => captureAll_sound (fr.mono rfl) hs1) (fun _ => hs1)) (fun
    _ => captureAll_sound (fr.mono rfl) h))

theorem emGateTask_sound (fr : Free K [.views]) (h : Sound K C z s) :
    Sound K C z (emGateTask s) := by
  unfold emGateTask
  split
  · exact h
  · exact .setViews fr h

theorem emCellTask_sound {k : Nat} {j : Nat} (fr : Free K [.em]) (h : Sound K C z s) :
    Sound K C z (emCellTask k j s) := by
  unfold emCellTask
  exact .ite (fun _ => h) (fun _ => .setEm fr h)

theorem emTask_sound {det : Nat → State → State} {i : Nat} (fr : Free K [.regs, .views, .em, .he, .outbox])
    (hdet : ∀ x0 t, Sound K C z t → Sound K C z (det x0 t)) (h : Sound K C z s) :
    Sound K C z (emTask det i s) := by
  unfold emTask
  exact .ite (fun _ => emOutTask_sound (fr.mono rfl) h) (fun _ => .ite (fun _ => emCapTask_sound (fr.mono rfl) h) (fun _
    => .ite (fun _ => emGateTask_sound (fr.mono rfl) h) (fun _ => .ite (fun _ => hdet _ _ h) (fun _ => .ite (fun _ =>
    evtBit_sound (fr.mono rfl) h) (fun _ => .ite (fun _ => h) (fun _ => emCellTask_sound (fr.mono rfl) h))))))

theorem emCount_sound {p : Nat} (fr : Free K [.em]) (h : Sound K C z s) :
    Sound K C z (emCount p s) := by
  unfold emCount
  extract_lets m src
  exact .setEm fr h

theorem emFireWith_sound {det : Nat → State → State} {ps : List Nat} (fr : Free K [.regs, .views, .em, .he, .outbox])
    (hdet : ∀ x0 t, Sound K C z t → Sound K C z (det x0 t)) (h : Sound K C z s) :
    Sound K C z (emFireWith det ps s) := by
  unfold emFireWith
  extract_lets on s1 cs s2
  have hs1 : Sound K C z s1 := forEach_sound h (fun _ _ hs => emCount_sound (fr.mono rfl) hs)
  have hs2 : Sound K C z s2 := forEach_sound hs1 (fun _ _ ht => regBit_sound (fr.mono rfl) ht)
  exact .ite (fun _ => h) (fun _ => forEach_sound hs2 (fun _ _ hs3 => emTask_sound fr (fun _ _ ht1 => hdet _ _ ht1) hs3))

end Sys2Proof.Machine
end

section
/-! SUPPORT. What each operation of Machine/Safe.lean leaves unchanged (the rules are in Laws/Sound.lean). -/

namespace Sys2Proof.Machine

set_option Elab.async false

variable {K : Comp → Prop} {C : Prop} {z s t : State}

theorem abortWire_sound {b : Nat} (fr : Free K [.regs, .act, .outbox]) (h : Sound K C z s) :
    Sound K C z (abortWire b s) := by
  unfold abortWire
  split
  · exact h
  · exact emit_sound (fr.mono rfl) (updBus_sound (fr.mono rfl) h)

theorem sendSafe_sound {b : Nat} (fr : Free K [.regs, .act, .outbox]) (h : Sound K C z s) :
    Sound K C z (sendSafe b s) := by
  unfold sendSafe
  exact emit_sound (fr.mono rfl) (updBus_sound (fr.mono rfl) h)

theorem paPins_sound (fr : Free K [.regs, .pa, .outbox]) (h : Sound K C z s) :
    Sound K C z (paPins s) := by
  unfold paPins
  extract_lets div run s1 s2 src
  have hs1 : Sound K C z s1 := .ite (fun _ => h) (fun _ => emit_sound (fr.mono rfl) (fbset_sound (fr.mono rfl) h))
  have hs2 : Sound K C z s2 := fbset_sound (fr.mono rfl) hs1
  exact .ite (fun _ => emit_sound (fr.mono rfl) (.setPa (fr.mono rfl) hs2)) (fun _ => hs2)

theorem busSafe_sound {b : Nat} (fr : Free K [.regs, .act, .outbox]) (h : Sound K C z s) :
    Sound K C z (busSafe b s) := by
  unfold busSafe
  extract_lets s1 s2
  have hs1 : Sound K C z s1 := fbset_sound (fr.mono rfl) h
  have hs2 : Sound K C z s2 := fbset_sound (fr.mono rfl) (fbset_sound (fr.mono rfl) hs1)
  exact sendSafe_sound fr (abortWire_sound fr hs2)

theorem cancelEverything_sound
    (fr : Free K [.regs, .mem, .ledger, .views, .act, .acct, .net, .he, .ev, .outbox, .freeCtr]) (h : Sound K C z s) :
    Sound K C z (cancelEverything s) := by
  unfold cancelEverything
  extract_lets s1
  have hs1 : Sound K C z s1 := forEach_sound h (fun _ _ ht => .ite (fun _ => cancelRemotes_sound (fr.mono rfl) ht) (fun _
      => cancelOrder_sound fr ht))
  exact forEach_sound hs1 (fun _ _ ht1 => cancelParts_sound (fr.mono rfl) ht1)

theorem actSafe_sound (fr : Free K [.regs, .mem, .ledger, .views, .act, .acct, .net, .he, .ev, .outbox, .freeCtr])
    (h : Sound K C z s) :
    Sound K C z (actSafe s) := by
  unfold actSafe
  extract_lets s1 s2
  have hs1 : Sound K C z s1 := forEach_sound h (fun _ _ hs => busSafe_sound (fr.mono rfl) hs)
  have hs2 : Sound K C z s2 := evt_sound (fr.mono rfl) (fbset_sound (fr.mono rfl) hs1)
  exact cancelEverything_sound fr hs2

theorem safeEnter_sound (fr : Free K [.regs, .mem, .ledger, .views, .act, .acct, .net, .pa, .he, .ev, .outbox, .freeCtr])
    (h : Sound K C z s) :
    Sound K C z (safeEnter s) := by
  unfold safeEnter
  refine .ite (fun _ => h) (fun _ => ?_)
  extract_lets s1 src
  have hs1 : Sound K C z s1 := evt_sound (fr.mono rfl) (fbset_sound (fr.mono rfl) h)
  exact actSafe_sound (fr.mono rfl) (paPins_sound (fr.mono rfl) (.setPa (fr.mono rfl) hs1))

theorem paDetectCore_sound {src : Nat}
    (fr : Free K [.regs, .mem, .ledger, .views, .act, .acct, .net, .pa, .he, .ev, .rs, .outbox, .freeCtr])
    (h : Sound K C z s) :
    Sound K C z (paDetectCore src s) := by
  unfold paDetectCore
  extract_lets cls s0 src' s1 s2 s3
  have hs0 : Sound K C z s0 := paCount_sound (fr.mono rfl) h
  have hs1 : Sound K C z s1 := .ite (fun _ => .setRs (fr.mono rfl) hs0) (fun _ => hs0)
  have hs2 : Sound K C z s2 := paReact_sound (fr.mono rfl) hs1
  have hs3 : Sound K C z s3 := .ite (fun _ => safeEnter_sound (fr.mono rfl) hs2) (fun _ => hs2)
  exact .ite (fun _ => .ite (fun _ => paNotice_sound (fr.mono rfl) hs3) (fun _ => hs3)) (fun _ => hs1)

theorem paDetect_sound {src : Nat}
    (fr : Free K [.regs, .mem, .ledger, .views, .act, .acct, .net, .em, .pa, .he, .ev, .rs, .outbox, .freeCtr])
    (h : Sound K C z s) :
    Sound K C z (paDetect src s) := by
  unfold paDetect
  extract_lets s1
  have hs1 : Sound K C z s1 := paDetectCore_sound (fr.mono rfl) h
  exact .ite (fun _ => forEach_sound hs1 (fun _ _ hs => emFireWith_sound (fr.mono rfl) (fun _ _ ht => paDetectCore_sound
    (fr.mono rfl) ht) hs)) (fun _ => hs1)

theorem emFires_sound {ps : List Nat}
    (fr : Free K [.regs, .mem, .ledger, .views, .act, .acct, .net, .em, .pa, .he, .ev, .rs, .outbox, .freeCtr])
    (h : Sound K C z s) :
    Sound K C z (emFires ps s) := by
  unfold emFires
  exact emFireWith_sound (fr.mono rfl) (fun _ _ ht => paDetect_sound fr ht) h

theorem emFire_sound {p : Nat}
    (fr : Free K [.regs, .mem, .ledger, .views, .act, .acct, .net, .em, .pa, .he, .ev, .rs, .outbox, .freeCtr])
    (h : Sound K C z s) :
    Sound K C z (emFire p s) := by
  unfold emFire
  exact emFires_sound fr h

end Sys2Proof.Machine
end

section
/-! SUPPORT. What each operation of Machine/Tags.lean leaves unchanged (the rules are in Laws/Sound.lean). -/

namespace Sys2Proof.Machine

set_option Elab.async false

variable {K : Comp → Prop} {C : Prop} {z s t : State}

theorem syncTags_sound (fr : Free K [.regs]) (h : Sound K C z s) :
    Sound K C z (syncTags s) := by
  unfold syncTags
  extract_lets n s1 s2
  have hs1 : Sound K C z s1 := fset_sound fr h
  have hs2 : Sound K C z s2 := fbset_sound fr hs1
  exact fset_sound fr hs2

theorem readNow_sound {addr : Nat} {len : Nat} (fr : Free K [.outbox]) (h : Sound K C z s) :
    Sound K C z (readNow addr len s) := by
  unfold readNow
  exact forEach_sound h (fun _ _ ht => emit_sound fr ht)

theorem npIssue_sound {owner : ReqOwner} {tag : Nat} {addr : Nat} {len : Nat} (fr : Free K [.regs, .he, .outbox])
    (h : Sound K C z s) :
    Sound K C z (npIssue owner tag addr len s) := by
  unfold npIssue
  extract_lets r src
  exact emit_sound (fr.mono rfl) (syncTags_sound (fr.mono rfl) (.setHe (fr.mono rfl) h))

theorem npEnd_sound {tag : Nat} (fr : Free K [.regs, .he]) (h : Sound K C z s) :
    Sound K C z (npEnd tag s) := by
  unfold npEnd
  exact syncTags_sound (fr.mono rfl) (.setHe (fr.mono rfl) h)

theorem npQuarantine_sound {tag : Nat} (fr : Free K [.regs, .he]) (h : Sound K C z s) :
    Sound K C z (npQuarantine tag s) := by
  unfold npQuarantine
  extract_lets src s1
  have hs1 : Sound K C z s1 := .setHe (fr.mono rfl) h
  exact npEnd_sound fr hs1

end Sys2Proof.Machine
end

section
/-! SUPPORT. What each operation of Machine/Cmd.lean leaves unchanged (the rules are in Laws/Sound.lean). -/

namespace Sys2Proof.Machine

set_option Elab.async false

variable {K : Comp → Prop} {C : Prop} {z s t : State}

theorem hostRead_sound {c : CmdCall} {addr : Nat} {n : Nat} (fr : Free K [.regs, .toll, .outbox]) (h : Sound K C z s) :
    Sound K C z (hostRead c addr n s) := by
  unfold hostRead
  split
  · exact readNow_sound (fr.mono rfl) (tollBegin_sound (fr.mono rfl) h)
  · exact h

theorem hostWrite_sound {c : CmdCall} {addr : Nat} {data : List Byte} (fr : Free K [.regs, .net, .toll, .he, .outbox])
    (h : Sound K C z s) :
    Sound K C z (hostWrite c addr data s) := by
  unfold hostWrite
  split
  · exact dmaWrite_sound (fr.mono rfl) (tollBegin_sound (fr.mono rfl) h)
  · exact netSend_sound (fr.mono rfl) h

theorem forwardCmd_sound {opcode : Nat} {c : CmdCall} (fr : Free K [.regs, .net, .toll, .he, .mb, .outbox, .freeCtr])
    (h : Sound K C z s) :
    Sound K C z (forwardCmd opcode c s) := by
  unfold forwardCmd
  extract_lets pier sess s0 s1 m
  have hs0 : Sound K C z s0 := .ite (fun _ => netSend_sound (fr.mono rfl) (hostRead_sound (fr.mono rfl) h)) (fun _ => h)
  have hs1 : Sound K C z s1 := sendDennil_sound (fr.mono rfl) (useFree_sound (fr.mono rfl) hs0)
  exact updChan_sound (fr.mono rfl) hs1

theorem holdDeferred_sound {sp : CmdSpec} {c : CmdCall} {canStop : Bool} {waits : Bool} (fr : Free K [.regs, .mb])
    (h : Sound K C z s) :
    Sound K C z (holdDeferred sp c canStop waits s) := by
  unfold holdDeferred
  extract_lets ch d src s1
  have hs1 : Sound K C z s1 := updChan_sound (fr.mono rfl) h
  split
  · exact .setMb (fr.mono rfl) h
  · exact fset_sound (fr.mono rfl) hs1

theorem completeFor_sound {opcode : Nat} {c : CmdCall} {status : Nat} {detail : Nat} {result : List Byte}
    (fr : Free K [.regs, .net, .he, .mb, .outbox, .freeCtr]) (h : Sound K C z s) :
    Sound K C z (completeFor opcode c status detail result s) := by
  unfold completeFor
  split
  · exact complete_sound (fr.mono rfl) h
  · exact .ite (fun _ => h) (fun _ => sendDennil_sound (fr.mono rfl) (useFree_sound (fr.mono rfl) h))

theorem completeCmd_sound {sp : CmdSpec} {c : CmdCall} {status : Nat} {detail : Nat} {result : List Byte}
    (fr : Free K [.regs, .net, .he, .mb, .outbox, .freeCtr]) (h : Sound K C z s) :
    Sound K C z (completeCmd sp c status detail result s) := by
  unfold completeCmd
  exact completeFor_sound fr h

theorem eventFor_sound {c : CmdCall} {kind : Nat} {tag : Nat} {result : List Byte}
    (fr : Free K [.regs, .net, .he, .mb, .outbox, .freeCtr]) (h : Sound K C z s) :
    Sound K C z (eventFor c kind tag result s) := by
  unfold eventFor
  split
  · exact mbEvent_sound (fr.mono rfl) h
  · exact .ite (fun _ => h) (fun _ => sendEvent_sound (fr.mono rfl) h)

theorem runOwn_sound {sp : CmdSpec} {run : CmdCall → State → State × CmdRes} {c : CmdCall}
    (fr : Free K [.regs, .net, .he, .mb, .outbox, .freeCtr]) (hrun : ∀ x0 t, Sound K C z t → Sound K C z (run x0 t).1)
    (h : Sound K C z s) :
    Sound K C z (runOwn sp run c s) := by
  unfold runOwn
  extract_lets full r
  have hr : Sound K C z r.1 := hrun _ _ h
  split
  · exact hr
  · exact completeCmd_sound fr hr
  · exact completeCmd_sound fr h
  · exact .ite (fun _ => completeCmd_sound fr h) (fun _ => holdDeferred_sound (fr.mono rfl) hr)
  · exact .ite (fun _ => completeCmd_sound fr h) (fun _ => holdDeferred_sound (fr.mono rfl) h)

theorem mbFetch_sound {c : Nat} (fr : Free K [.regs, .toll, .he, .outbox]) (h : Sound K C z s) :
    Sound K C z (mbFetch c s) := by
  unfold mbFetch
  extract_lets o
  refine .ite (fun _ => h) (fun _ => ?_)
  split
  · extract_lets cost
    exact .ite (fun _ => npIssue_sound (fr.mono rfl) (tollSpend_sound (fr.mono rfl) h)) (fun _ => tollShort_sound fr h)
  · exact h

theorem mbGot_sound {c : Nat} {data : List Byte} (fr : Free K [.regs, .toll, .he, .mb, .outbox]) (h : Sound K C z s) :
    Sound K C z (mbGot c data s) := by
  unfold mbGot
  split
  · exact h
  · exact mbFetch_sound (fr.mono rfl) (updChan_sound (fr.mono rfl) h)

theorem mbTake_sound {c : CmdCall} (fr : Free K [.regs, .toll, .he, .mb, .outbox]) (h : Sound K C z s) :
    Sound K C z (mbTake c s) := by
  unfold mbTake
  extract_lets o n rest s1 s2 s3 s4
  have hs1 : Sound K C z s1 := by
    unfold s1
    split
    · exact npEnd_sound (fr.mono rfl) h
    · exact h
  have hs2 : Sound K C z s2 := forEach_sound hs1 (fun _ _ ht => readNow_sound (fr.mono rfl) (tollBegin_sound (fr.mono rfl)
      ht))
  have hs3 : Sound K C z s3 := updChan_sound (fr.mono rfl) hs2
  have hs4 : Sound K C z s4 := cnt_sound (fr.mono rfl) (wrn_sound (fr.mono rfl) hs3)
  exact mbFetch_sound (fr.mono rfl) hs4

theorem runForwarded_sound {sp : CmdSpec} {run : CmdCall → State → State × CmdRes} {c : CmdCall} {s0 : State}
    (fr : Free K [.regs, .net, .he, .mb, .outbox, .freeCtr]) (hrun : ∀ x0 t, Sound K C z t → Sound K C z (run x0 t).1)
    (hs0 : Sound K C z s0) :
    Sound K C z (runForwarded sp run c s0) := by
  unfold runForwarded
  refine .ite (fun _ => hs0) (fun _ => ?_)
  extract_lets p src s
  have hs : Sound K C z s := .setMb (fr.mono rfl) hs0
  refine .ite (fun _ => completeCmd_sound fr hs) (fun _ => ?_)
  split
  · exact completeCmd_sound fr hs
  · exact runOwn_sound fr (fun _ _ ht => hrun _ _ ht) hs

theorem mbRun_sound {sp : CmdSpec} {run : CmdCall → State → State × CmdRes} {c : CmdCall} {s0 : State}
    (fr : Free K [.regs, .net, .toll, .he, .mb, .outbox, .freeCtr])
    (hrun : ∀ x0 t, Sound K C z t → Sound K C z (run x0 t).1) (hs0 : Sound K C z s0) :
    Sound K C z (mbRun sp run c s0) := by
  unfold mbRun
  refine .ite (fun _ => runForwarded_sound (fr.mono rfl) (fun _ _ ht => hrun _ _ ht) hs0) (fun _ => .ite (fun _ => hs0)
    (fun _ => ?_))
  extract_lets s
  have hs : Sound K C z s := mbTake_sound (fr.mono rfl) hs0
  split
  · exact completeCmd_sound (fr.mono rfl) hs
  · refine .ite (fun _ => .ite (fun _ => completeCmd_sound (fr.mono rfl) hs) (fun _ => .ite (fun _ => completeCmd_sound
      (fr.mono rfl) hs) (fun _ => .ite (fun _ => .ite (fun _ => completeCmd_sound (fr.mono rfl) hs) (fun _ =>
      holdDeferred_sound (fr.mono rfl) hs)) (fun _ => forwardCmd_sound fr hs)))) (fun _ => ?_)
    split
    · exact completeCmd_sound (fr.mono rfl) hs
    · exact runOwn_sound (fr.mono rfl) (fun _ _ ht1 => hrun _ _ ht1) hs

theorem dropDeferred_sound {ch : Nat} {d : Deferred} (fr : Free K [.regs, .mb]) (h : Sound K C z s) :
    Sound K C z (dropDeferred ch d s) := by
  unfold dropDeferred
  refine .ite (fun _ => .setMb (fr.mono rfl) h) (fun _ => ?_)
  extract_lets s1
  have hs1 : Sound K C z s1 := updChan_sound (fr.mono rfl) h
  exact fset_sound (fr.mono rfl) hs1

theorem putDeferred_sound {x : Nat × Deferred} {new : Deferred} (fr : Free K [.mb]) (h : Sound K C z s) :
    Sound K C z (putDeferred x new s) := by
  unfold putDeferred
  extract_lets f src
  exact .ite (fun _ => .setMb fr h) (fun _ => updChan_sound fr h)

theorem endD_sound {x : Nat × Deferred} {status : Nat} {detail : Nat} {result : List Byte}
    (fr : Free K [.regs, .net, .he, .mb, .outbox, .freeCtr]) (h : Sound K C z s) :
    Sound K C z (endD x status detail result s) := by
  unfold endD
  exact completeFor_sound fr (dropDeferred_sound (fr.mono rfl) h)

theorem endInternal_sound {x : Nat × Deferred}
    (fr : Free K [.regs, .mem, .ledger, .views, .act, .acct, .net, .em, .pa, .he, .ev, .mb, .rs, .outbox, .freeCtr])
    (h : Sound K C z s) :
    Sound K C z (endInternal x s) := by
  unfold endInternal
  exact paDetect_sound (fr.mono rfl) (endD_sound (fr.mono rfl) h)

theorem endHost_sound {x : Nat × Deferred} {addr : Nat} {data : List Byte} {result : List Byte}
    (fr : Free K [.regs, .net, .toll, .he, .mb, .outbox, .freeCtr]) (h : Sound K C z s) :
    Sound K C z (endHost x addr data result s) := by
  unfold endHost
  exact .ite (fun _ => endD_sound (fr.mono rfl) (hostWrite_sound (fr.mono rfl) h)) (fun _ => putDeferred_sound (fr.mono
    rfl) h)

theorem endDeferred_sound {ch : Nat} {tag : Nat} {status : Nat} {detail : Nat} {result : List Byte}
    (fr : Free K [.regs, .net, .he, .mb, .outbox, .freeCtr]) (h : Sound K C z s) :
    Sound K C z (endDeferred ch tag status detail result s) := by
  unfold endDeferred
  split
  · exact h
  · exact endD_sound fr h

theorem noLease_sound (fr : Free K [.regs, .he, .outbox]) (h : Sound K C z s) :
    Sound K C z (noLease s) := by
  unfold noLease
  exact forEach_sound (cnt_sound (fr.mono rfl) h) (fun _ _ ht => .ite (fun _ => evt_sound fr ht) (fun _ => ht))

theorem gated_sound {ag : Agent} {func : Nat} {port : Option Nat} {changes : Bool} {f : State → State}
    (fr : Free K [.regs, .he, .outbox]) (hf : ∀ t, Sound K C z t → Sound K C z (f t)) (h : Sound K C z s) :
    Sound K C z (gated ag func port changes f s) := by
  unfold gated
  exact .ite (fun _ => hf _ h) (fun _ => .ite (fun _ => noLease_sound fr h) (fun _ => h))

end Sys2Proof.Machine
end

section
/-! SUPPORT. What each operation of Machine/Load.lean leaves unchanged (the rules are in Laws/Sound.lean). -/

namespace Sys2Proof.Machine

set_option Elab.async false

variable {K : Comp → Prop} {C : Prop} {z s t : State}

theorem putWord_sound {a : Nat} {v : Nat} (fr : Free K [.regs, .tables, .he, .outbox]) (h : Sound K C z s) :
    Sound K C z (putWord a v s) := by
  unfold putWord
  refine .ite (fun _ => tblPuts_sound (fr.mono rfl) h) (fun _ => ?_)
  split
  · exact h
  · extract_lets m w c
    exact irqAt_sound (fr.mono rfl) (wrn_sound (fr.mono rfl) h)

theorem putWords_sound {l : List (Nat × Nat)} (fr : Free K [.regs, .tables, .he, .outbox]) (h : Sound K C z s) :
    Sound K C z (putWords l s) := by
  unfold putWords
  exact forEach_sound h (fun _ _ ht => putWord_sound fr ht)

theorem calCompact_sound (fr : Free K [.ev]) (h : Sound K C z s) :
    Sound K C z (calCompact s) := by
  unfold calCompact
  exact .ite (fun _ => h) (fun _ => .setEv fr h)

theorem calStore_sound {type : Nat} {head : Nat} {phase : Nat} {payload : List Byte} (fr : Free K [.ev, .outbox])
    (h : Sound K C z s) :
    Sound K C z (calStore type head phase payload s) := by
  unfold calStore
  extract_lets g e s1 src
  have hs1 : Sound K C z s1 := .ite (fun _ => h) (fun _ => calCompact_sound (fr.mono rfl) h)
  exact emit_sound (fr.mono rfl) (.setEv (fr.mono rfl) hs1)

theorem confStore_sound {bad : Nat} (fr : Free K [.ev, .outbox]) (h : Sound K C z s) :
    Sound K C z (confStore bad s) := by
  unfold confStore
  extract_lets g n new s1 src
  have hs1 : Sound K C z s1 := forEach_sound h (fun _ _ ht => emit_sound (fr.mono rfl) ht)
  exact logWrite_sound (fr.mono rfl) (.setEv (fr.mono rfl) hs1)

theorem vwPut_sound {a : Nat} {v : Nat} (fr : Free K [.regs, .tables, .he, .outbox]) (h : Sound K C z s) :
    Sound K C z (vwPut a v s) := by
  unfold vwPut
  refine .ite (fun _ => evt_sound (fr.mono rfl) h) (fun _ => ?_)
  split
  · refine .ite (fun _ => ?_) (fun _ => putWord_sound fr h)
    extract_lets w s1
    have hs1 : Sound K C z s1 := fset_sound (fr.mono rfl) h
    exact .ite (fun _ => evt_sound (fr.mono rfl) hs1) (fun _ => hs1)
  · exact putWord_sound fr h

end Sys2Proof.Machine
end

section
/-! SUPPORT. What each operation of Machine/Abut.lean leaves unchanged (the rules are in Laws/Sound.lean). -/

namespace Sys2Proof.Machine

set_option Elab.async false

variable {K : Comp → Prop} {C : Prop} {z s t : State}

theorem updAb_sound {f : AbSt → AbSt} (fr : Free K [.regs, .ab]) (h : Sound K C z s) :
    Sound K C z (updAb f s) := by
  unfold updAb
  extract_lets a own use s1
  have hs1 : Sound K C z s1 := fset_sound (fr.mono rfl) (.setAb (fr.mono rfl) h)
  exact fset_sound (fr.mono rfl) (fset_sound (fr.mono rfl) hs1)

theorem abFail_sound {addr : Nat} {write : Bool} {master : Nat} {region : Nat} {code : Nat}
    (fr : Free K [.regs, .mem, .ledger, .views, .act, .acct, .net, .em, .pa, .he, .ev, .rs, .outbox, .freeCtr])
    (h : Sound K C z s) :
    Sound K C z (abFail addr write master region code s) := by
  unfold abFail
  extract_lets s1 s2
  have hs1 : Sound K C z s1 := cnt_sound (fr.mono rfl) h
  have hs2 : Sound K C z s2 := by
    unfold s2
    split
    · exact evt_sound (fr.mono rfl) (cnt_sound (fr.mono rfl) hs1)
    · extract_lets o t
      have ht : Sound K C z t := wrn_sound (fr.mono rfl) (wrn_sound (fr.mono rfl) hs1)
      exact evt_sound (fr.mono rfl) (wrn_sound (fr.mono rfl) ht)
  exact emFire_sound fr hs2

theorem postedDone_sound (fr : Free K [.regs, .ab]) (h : Sound K C z s) :
    Sound K C z (postedDone s) := by
  unfold postedDone
  exact updAb_sound fr h

theorem abComplete_sound {r : AbReq} (fr : Free K [.regs, .net, .pa, .he, .ab, .outbox, .freeCtr]) (h : Sound K C z s) :
    Sound K C z (abComplete r s) := by
  unfold abComplete
  extract_lets s1
  have hs1 : Sound K C z s1 := updAb_sound (fr.mono rfl) h
  refine .ite (fun _ => hs1) (fun _ => ?_)
  split
  · exact emit_sound (fr.mono rfl) hs1
  · extract_lets st
    exact .ite (fun _ => sendUr_sound (fr.mono rfl) hs1) (fun _ => .ite (fun _ => sendCa_sound (fr.mono rfl) hs1) (fun _
      => emit_sound (fr.mono rfl) hs1))

theorem reqBeatDone_sound {res : Option Nat} {code : Nat} (fr : Free K [.regs, .net, .pa, .he, .ab, .outbox, .freeCtr])
    (h : Sound K C z s) :
    Sound K C z (reqBeatDone res code s) := by
  unfold reqBeatDone
  split
  · exact h
  · extract_lets fail r1 s1
    have hs1 : Sound K C z s1 := updAb_sound (fr.mono rfl) h
    exact .ite (fun _ => abComplete_sound fr hs1) (fun _ => hs1)

theorem abNoMap_sound {x : Bool × AbBeat}
    (fr : Free K [.regs, .mem, .ledger, .views, .act, .acct, .net, .em, .pa, .he, .ab, .ev, .rs, .outbox, .freeCtr])
    (h : Sound K C z s) :
    Sound K C z (abNoMap x s) := by
  unfold abNoMap
  refine .ite (fun _ => postedDone_sound (fr.mono rfl) (abFail_sound (fr.mono rfl) h)) (fun _ => ?_)
  split
  · exact reqBeatDone_sound (fr.mono rfl) (abFail_sound (fr.mono rfl) h)
  · exact h

theorem abSettle_sound {fuel : Nat}
    (fr : Free K [.regs, .mem, .ledger, .views, .act, .acct, .net, .em, .pa, .he, .ab, .ev, .rs, .outbox, .freeCtr])
    (h : Sound K C z s) : Sound K C z (abSettle fuel s) := by
  induction fuel generalizing s with
  | zero => exact h
  | succ n ih =>
    unfold abSettle
    split
    · exact h
    · exact .ite (fun _ => ih (abNoMap_sound (fr.mono rfl) h)) (fun _ => h)

theorem abRun_sound
    (fr : Free K [.regs, .mem, .ledger, .views, .act, .acct, .net, .em, .pa, .he, .ab, .ev, .rs, .outbox, .freeCtr])
    (h : Sound K C z s) :
    Sound K C z (abRun s) := by
  unfold abRun
  exact abSettle_sound fr h

theorem abPost_sound {off : Nat} {data : List Byte}
    (fr : Free K [.regs, .mem, .ledger, .views, .act, .acct, .net, .em, .pa, .he, .ab, .ev, .rs, .outbox, .freeCtr])
    (h : Sound K C z s) :
    Sound K C z (abPost off data s) := by
  unfold abPost
  exact abRun_sound fr (updAb_sound (fr.mono rfl) h)

theorem abAccess_sound {ag : Agent} {tag : Nat} {off : Nat} {len : Nat} {data : List Byte} {write : Bool}
    {atomic : Option (Nat × List Nat)}
    (fr : Free K [.regs, .mem, .ledger, .views, .act, .acct, .net, .em, .pa, .he, .ab, .ev, .rs, .outbox, .freeCtr])
    (h : Sound K C z s) :
    Sound K C z (abAccess ag tag off len data write atomic s) := by
  unfold abAccess
  extract_lets r
  exact abRun_sound fr (updAb_sound (fr.mono rfl) h)

theorem beatStart_sound (fr : Free K [.regs, .ab, .outbox]) (h : Sound K C z s) :
    Sound K C z (beatStart s) := by
  unfold beatStart
  refine .ite (fun _ => h) (fun _ => ?_)
  split
  · exact h
  · split
    · exact h
    · extract_lets write s1 s2
      have hs1 : Sound K C z s1 := cnt_sound (fr.mono rfl) h
      have hs2 : Sound K C z s2 := updAb_sound (fr.mono rfl) hs1
      exact emit_sound (fr.mono rfl) hs2

theorem beatEnd_sound {res : Option Nat} {code : Nat}
    (fr : Free K [.regs, .mem, .ledger, .views, .act, .acct, .net, .em, .pa, .he, .ab, .ev, .rs, .outbox, .freeCtr])
    (h : Sound K C z s) :
    Sound K C z (beatEnd res code s) := by
  unfold beatEnd
  extract_lets s0
  have hs0 : Sound K C z s0 := updAb_sound (fr.mono rfl) h
  split
  · split
    · exact hs0
    · extract_lets r
      exact abRun_sound fr (postedDone_sound (fr.mono rfl) (.ite (fun _ => abFail_sound (fr.mono rfl) hs0) (fun _ =>
        hs0)))
  · split
    · exact hs0
    · extract_lets r
      exact abRun_sound fr (reqBeatDone_sound (fr.mono rfl) (.ite (fun _ => abFail_sound (fr.mono rfl) hs0) (fun _ =>
        hs0)))
  · exact hs0

theorem lockBeat_sound {write : Bool} {b : AbBeat} {code : Nat}
    (fr : Free K [.regs, .mem, .ledger, .views, .act, .acct, .net, .em, .pa, .he, .ev, .rs, .outbox, .freeCtr])
    (h : Sound K C z s) :
    Sound K C z (lockBeat write b code s) := by
  unfold lockBeat
  split
  · exact abFail_sound fr h
  · extract_lets s1
    have hs1 : Sound K C z s1 := emit_sound (fr.mono rfl) (cnt_sound (fr.mono rfl) h)
    exact .ite (fun _ => hs1) (fun _ => abFail_sound fr hs1)

theorem lockPin_sound {r : AbReq} {level : Bool} {t : State} (fr : Free K [.outbox]) (ht : Sound K C z t) :
    Sound K C z (lockPin r level s t) := by
  unfold lockPin
  exact .ite (fun _ => emit_sound fr ht) (fun _ => ht)

theorem lockedRun_sound {resp : List (Nat × Nat)}
    (fr : Free K [.regs, .mem, .ledger, .views, .act, .acct, .net, .em, .pa, .he, .ab, .ev, .rs, .outbox, .freeCtr])
    (h : Sound K C z s) :
    Sound K C z (lockedRun resp s) := by
  unfold lockedRun
  split
  · split
    · exact h
    · refine .ite (fun _ => h) (fun _ => ?_)
      extract_lets n s1 codeOf codes good s2 got old new wcodes s3 fail r1
      have hs1 : Sound K C z s1 := lockPin_sound (fr.mono rfl) (cnt_sound (fr.mono rfl) h)
      have hs2 : Sound K C z s2 := forEach_sound hs1 (fun _ _ ht => lockBeat_sound (fr.mono rfl) ht)
      have hs3 : Sound K C z s3 := by
        unfold s3
        unfold new
        split
        · exact hs2
        · exact forEach_sound hs2 (fun _ _ ht1 => lockBeat_sound (fr.mono rfl) ht1)
      exact abRun_sound fr (abComplete_sound (fr.mono rfl) (updAb_sound (fr.mono rfl) (lockPin_sound (fr.mono rfl) hs3)))
  · exact h

theorem abGrant_sound {req : List Nat} (fr : Free K [.regs, .ab, .outbox]) (h : Sound K C z s) :
    Sound K C z (abGrant req s) := by
  unfold abGrant
  extract_lets elig fair m
  exact .ite (fun _ => h) (fun _ => .ite (fun _ => h) (fun _ => emit_sound (fr.mono rfl) (updAb_sound (fr.mono rfl) h)))

theorem extEnd_sound {m : Nat} (fr : Free K [.regs, .ab, .outbox]) (h : Sound K C z s) :
    Sound K C z (extEnd m s) := by
  unfold extEnd
  exact emit_sound (fr.mono rfl) (updAb_sound (fr.mono rfl) h)

theorem lbAnswer_sound {line : String} (fr : Free K [.outbox]) (h : Sound K C z s) :
    Sound K C z (lbAnswer line s) := by
  unfold lbAnswer
  exact emit_sound fr h

theorem inPost_sound {b : AbBeat} (fr : Free K [.he, .outbox]) (h : Sound K C z s) :
    Sound K C z (inPost b s) := by
  unfold inPost
  exact .ite (fun _ => dmaWrite_sound fr h) (fun _ => forEach_sound h (fun _ _ ht => dmaWrite_sound fr ht))

theorem inDrain_sound {l : List AbBeat} (fr : Free K [.regs, .toll, .he, .ab, .outbox]) (h : Sound K C z s) : Sound K C z
    (inDrain l s) := by
  induction l generalizing s with
  | nil =>
    unfold inDrain
    exact updAb_sound (fr.mono rfl) h
  | cons b l ih =>
    unfold inDrain
    extract_lets rest
    have hrest : Sound K C z rest := updAb_sound (fr.mono rfl) h
    exact .ite (fun _ => hrest) (fun _ => .ite (fun _ => tollShort_sound (fr.mono rfl) hrest)
      (fun _ => ih (inPost_sound (fr.mono rfl) (tollSpend_sound (fr.mono rfl) h))))

theorem inWrite_sound {m : Nat} {addr : Nat} {be : Nat} {data : Nat}
    (fr : Free K [.regs, .mem, .ledger, .views, .act, .acct, .net, .toll, .em, .pa, .he, .ab, .ev, .rs, .outbox,
      .freeCtr])
    (h : Sound K C z s) :
    Sound K C z (inWrite m addr be data s) := by
  unfold inWrite
  split
  · exact h
  · exact .ite (fun _ => h) (fun _ => .ite (fun _ => lbAnswer_sound (fr.mono rfl) (evt_sound (fr.mono rfl) (abFail_sound
      (fr.mono rfl) (cnt_sound (fr.mono rfl) h)))) (fun _ => .ite (fun _ => h) (fun _ => lbAnswer_sound (fr.mono rfl)
      (inDrain_sound (fr.mono rfl) h))))

theorem lbRetry_sound (fr : Free K [.regs, .outbox]) (h : Sound K C z s) :
    Sound K C z (lbRetry s) := by
  unfold lbRetry
  exact lbAnswer_sound (fr.mono rfl) (cnt_sound (fr.mono rfl) h)

theorem drIssue_sound {i : Nat} (fr : Free K [.regs, .toll, .he, .ab, .outbox]) (h : Sound K C z s) :
    Sound K C z (drIssue i s) := by
  unfold drIssue
  split
  · exact h
  · split
    · exact h
    · exact .ite (fun _ => h) (fun _ => .ite (fun _ => tollShort_sound (fr.mono rfl) h) (fun _ => npIssue_sound (fr.mono
        rfl) (updAb_sound (fr.mono rfl) (tollSpend_sound (fr.mono rfl) h))))

theorem inRetry_sound (fr : Free K [.regs, .toll, .he, .ab, .outbox]) (h : Sound K C z s) :
    Sound K C z (inRetry s) := by
  unfold inRetry
  exact forEach_sound (inDrain_sound fr h) (fun _ _ hs => drIssue_sound fr hs)

theorem drFree_sound {i : Nat} (fr : Free K [.regs, .ab]) (h : Sound K C z s) :
    Sound K C z (drFree i s) := by
  unfold drFree
  exact updAb_sound fr h

theorem inRead_sound {m : Nat} {addr : Nat} {be : Nat}
    (fr : Free K [.regs, .mem, .ledger, .views, .act, .acct, .net, .toll, .em, .pa, .he, .ab, .ev, .rs, .outbox,
      .freeCtr])
    (h : Sound K C z s) :
    Sound K C z (inRead m addr be s) := by
  unfold inRead
  split
  · exact h
  · refine .ite (fun _ => h) (fun _ => ?_)
    split
    · split
      · exact h
      · split
        · exact lbRetry_sound (fr.mono rfl) (drIssue_sound (fr.mono rfl) h)
        · exact lbAnswer_sound (fr.mono rfl) (abFail_sound (fr.mono rfl) (drFree_sound (fr.mono rfl) h))
        · exact .ite (fun _ => lbRetry_sound (fr.mono rfl) h) (fun _ => lbAnswer_sound (fr.mono rfl) (emit_sound (fr.mono
            rfl) (drFree_sound (fr.mono rfl) h)))
    · refine .ite (fun _ => lbAnswer_sound (fr.mono rfl) (evt_sound (fr.mono rfl) (abFail_sound (fr.mono rfl) h))) (fun _
        => ?_)
      split
      · exact lbRetry_sound (fr.mono rfl) (cnt_sound (fr.mono rfl) h)
      · extract_lets d
        exact lbRetry_sound (fr.mono rfl) (drIssue_sound (fr.mono rfl) (updAb_sound (fr.mono rfl) h))

theorem drFill_sound {i : Nat} {res : Option Nat} (fr : Free K [.regs, .ab]) (h : Sound K C z s) :
    Sound K C z (drFill i res s) := by
  unfold drFill
  exact updAb_sound fr h

theorem drDiscard_sound {i : Nat} (fr : Free K [.regs, .he, .ab, .outbox]) (h : Sound K C z s) :
    Sound K C z (drDiscard i s) := by
  unfold drDiscard
  split
  · exact .ite (fun _ => evt_sound (fr.mono rfl) (cnt_sound (fr.mono rfl) (drFree_sound (fr.mono rfl) h))) (fun _ => h)
  · exact h

theorem sbChange_sound {k : Nat} {lvl : Bool}
    (fr : Free K [.regs, .mem, .ledger, .views, .act, .acct, .net, .em, .pa, .he, .ev, .rs, .outbox, .freeCtr])
    (h : Sound K C z s) :
    Sound K C z (sbChange k lvl s) := by
  unfold sbChange
  extract_lets s1 s2 s3
  have hs1 : Sound K C z s1 := regBit_sound (fr.mono rfl) h
  have hs2 : Sound K C z s2 := regBit_sound (fr.mono rfl) hs1
  have hs3 : Sound K C z s3 := .ite (fun _ => evt_sound (fr.mono rfl) hs2) (fun _ => hs2)
  exact .ite (fun _ => emFire_sound fr hs3) (fun _ => hs1)

theorem sbSample_sound {lines : Nat}
    (fr : Free K [.regs, .mem, .ledger, .views, .act, .acct, .net, .em, .pa, .he, .ab, .ev, .rs, .outbox, .freeCtr])
    (h : Sound K C z s) :
    Sound K C z (sbSample lines s) := by
  unfold sbSample
  refine .ite (fun _ => h) (fun _ => ?_)
  extract_lets last s1
  have hs1 : Sound K C z s1 := updAb_sound (fr.mono rfl) h
  refine forEach_sound hs1 (fun k t ht => ?_)
  extract_lets v
  exact .ite (fun _ => ht) (fun _ => sbChange_sound (fr.mono rfl) ht)

theorem abPut_sound {a : Nat} {v : Nat}
    (fr : Free K [.regs, .tables, .mem, .ledger, .views, .act, .acct, .net, .em, .pa, .he, .ab, .ev, .rs, .outbox,
      .freeCtr])
    (h : Sound K C z s) :
    Sound K C z (abPut a v s) := by
  unfold abPut
  extract_lets o s1
  have hs1 : Sound K C z s1 := fset_sound (fr.mono rfl) h
  exact .ite (fun _ => putWord_sound (fr.mono rfl) h) (fun _ => .ite (fun _ => abRun_sound (fr.mono rfl) (fbset_sound
    (fr.mono rfl) hs1)) (fun _ => .ite (fun _ => h) (fun _ => putWord_sound (fr.mono rfl) h)))

theorem abConfigure_sound {l : List (Nat × Nat)}
    (fr : Free K [.regs, .tables, .mem, .ledger, .views, .act, .acct, .net, .em, .pa, .he, .ab, .ev, .rs, .outbox,
      .freeCtr])
    (h : Sound K C z s) :
    Sound K C z (abConfigure l s).1 := by
  unfold abConfigure
  extract_lets s1
  have hs1 : Sound K C z s1 := putWords_sound (fr.mono rfl) h
  exact .ite1 (fun _ => h) (fun _ => .ite1 (fun _ => h) (fun _ => abRun_sound (fr.mono rfl) hs1))

theorem abParams_sound {c : CmdCall}
    (fr : Free K [.regs, .tables, .mem, .ledger, .views, .act, .acct, .net, .em, .pa, .he, .ab, .ev, .rs, .outbox,
      .freeCtr])
    (h : Sound K C z s) :
    Sound K C z (abParams c s).1 := by
  unfold abParams
  exact abConfigure_sound fr h

theorem abLoadProfile_sound {x : CmdCall}
    (fr : Free K [.regs, .tables, .mem, .ledger, .views, .act, .acct, .net, .em, .pa, .he, .ab, .ev, .rs, .outbox,
      .freeCtr])
    (h : Sound K C z s) :
    Sound K C z (abLoadProfile x s).1 := by
  unfold abLoadProfile
  split
  · exact h
  · extract_lets r
    have hr : Sound K C z r.1 := abConfigure_sound fr h
    split
    · exact fbset_sound (fr.mono rfl) hr
    · exact h

theorem execLbGrant_sound {req0 : Bool} {req1 : Bool} (fr : Free K [.regs, .ab, .outbox]) (h : Sound K C z s) :
    SoundOut K C z (execLbGrant req0 req1 s) := by
  unfold execLbGrant
  exact .next (abGrant_sound fr h)

theorem execLbOutboundBeat_sound (fr : Free K [.regs, .ab, .outbox]) (h : Sound K C z s) :
    SoundOut K C z (execLbOutboundBeat s) := by
  unfold execLbOutboundBeat
  exact .next (beatStart_sound fr h)

theorem execLbTransactionEnd_sound {resp : Fin 3} {data : Word}
    (fr : Free K [.regs, .mem, .ledger, .views, .act, .acct, .net, .em, .pa, .he, .ab, .ev, .rs, .outbox, .freeCtr])
    (h : Sound K C z s) :
    SoundOut K C z (execLbTransactionEnd resp data s) := by
  unfold execLbTransactionEnd
  refine .next ?_
  split
  · exact h
  · exact extEnd_sound (fr.mono rfl) h
  · exact .ite (fun _ => h) (fun _ => .ite (fun _ => beatEnd_sound fr h) (fun _ => beatEnd_sound fr h))

theorem execLbNorespTimeout_sound
    (fr : Free K [.regs, .mem, .ledger, .views, .act, .acct, .net, .em, .pa, .he, .ab, .ev, .rs, .outbox, .freeCtr])
    (h : Sound K C z s) :
    SoundOut K C z (execLbNorespTimeout s) := by
  unfold execLbNorespTimeout
  refine .next ?_
  split
  · exact beatEnd_sound fr h
  · exact beatEnd_sound fr h
  · exact h

theorem execLockedSequence_sound {resp : List (Nat × Nat)}
    (fr : Free K [.regs, .mem, .ledger, .views, .act, .acct, .net, .em, .pa, .he, .ab, .ev, .rs, .outbox, .freeCtr])
    (h : Sound K C z s) :
    SoundOut K C z (execLockedSequence resp s) := by
  unfold execLockedSequence
  exact .next (lockedRun_sound fr h)

theorem execLbInboundWrite_sound {master : Fin 2} {addr : Word} {be : BitVec 4} {data : Word}
    (fr : Free K [.regs, .mem, .ledger, .views, .act, .acct, .net, .toll, .em, .pa, .he, .ab, .ev, .rs, .outbox,
      .freeCtr])
    (h : Sound K C z s) :
    SoundOut K C z (execLbInboundWrite master addr be data s) := by
  unfold execLbInboundWrite
  exact .next (inWrite_sound fr h)

theorem execLbInboundRead_sound {master : Fin 2} {addr : Word} {be : BitVec 4}
    (fr : Free K [.regs, .mem, .ledger, .views, .act, .acct, .net, .toll, .em, .pa, .he, .ab, .ev, .rs, .outbox,
      .freeCtr])
    (h : Sound K C z s) :
    SoundOut K C z (execLbInboundRead master addr be s) := by
  unfold execLbInboundRead
  exact .next (inRead_sound fr h)

theorem execDelayedReadDiscard_sound {entry : Fin 8} (fr : Free K [.regs, .he, .ab, .outbox]) (h : Sound K C z s) :
    SoundOut K C z (execDelayedReadDiscard entry s) := by
  unfold execDelayedReadDiscard
  exact .next (drDiscard_sound fr h)

theorem execAbLogInfoRead_sound {ag : Agent} {slot : Fin 8} (fr : Free K [.regs, .outbox]) (h : Sound K C z s) :
    SoundOut K C z (execAbLogInfoRead ag slot s) := by
  unfold execAbLogInfoRead
  extract_lets a
  exact .next (fbset_sound (fr.mono rfl) (emit_sound (fr.mono rfl) h))

theorem execSidebandSample_sound {lines : BitVec 16}
    (fr : Free K [.regs, .mem, .ledger, .views, .act, .acct, .net, .em, .pa, .he, .ab, .ev, .rs, .outbox, .freeCtr])
    (h : Sound K C z s) :
    SoundOut K C z (execSidebandSample lines s) := by
  unfold execSidebandSample
  exact .next (sbSample_sound fr h)

theorem execAbLoadProfile_sound {c : CmdCall}
    (fr : Free K [.regs, .tables, .mem, .ledger, .views, .act, .acct, .net, .toll, .em, .pa, .he, .ab, .ev, .mb, .rs,
      .outbox, .freeCtr])
    (h : Sound K C z s) :
    SoundOut K C z (execAbLoadProfile c s) := by
  unfold execAbLoadProfile
  exact .next (mbRun_sound (fr.mono rfl) (fun _ _ ht => abLoadProfile_sound (fr.mono rfl) ht) h)

theorem execAbParams_sound {c : CmdCall}
    (fr : Free K [.regs, .tables, .mem, .ledger, .views, .act, .acct, .net, .toll, .em, .pa, .he, .ab, .ev, .mb, .rs,
      .outbox, .freeCtr])
    (h : Sound K C z s) :
    SoundOut K C z (execAbParams c s) := by
  unfold execAbParams
  exact .next (mbRun_sound (fr.mono rfl) (fun _ _ ht => abParams_sound (fr.mono rfl) ht) h)

end Sys2Proof.Machine
end

section
/-! SUPPORT. What each operation of Machine/Toll.lean leaves unchanged (the rules are in Laws/Sound.lean). -/

namespace Sys2Proof.Machine

set_option Elab.async false

variable {K : Comp → Prop} {C : Prop} {z s t : State}

theorem overUpdate_sound {r : Nat} (fr : Free K [.regs, .he, .outbox]) (h : Sound K C z s) :
    Sound K C z (overUpdate r s) := by
  unfold overUpdate
  extract_lets o was s1
  have hs1 : Sound K C z s1 := regBit_sound (fr.mono rfl) h
  exact .ite (fun _ => evt_sound fr hs1) (fun _ => hs1)

theorem setCap_sound {r : Nat} {v : Nat} (fr : Free K [.regs, .toll, .he, .outbox]) (h : Sound K C z s) :
    Sound K C z (setCap r v s) := by
  unfold setCap
  extract_lets old s1 src
  have hs1 : Sound K C z s1 := wrn_sound (fr.mono rfl) h
  exact overUpdate_sound (fr.mono rfl) (.setToll (fr.mono rfl) hs1)

theorem grantOne_sound {k : Nat} (fr : Free K [.regs, .toll]) (h : Sound K C z s) :
    Sound K C z (grantOne k s) := by
  unfold grantOne
  extract_lets b left keep s1 src
  have hs1 : Sound K C z s1 := wrn_sound (fr.mono rfl) h
  exact .setToll (fr.mono rfl) hs1

theorem applyBudgets_sound (fr : Free K [.regs, .toll, .he, .outbox]) (h : Sound K C z s) :
    Sound K C z (applyBudgets s) := by
  unfold applyBudgets
  refine .ite (fun _ => h) (fun _ => ?_)
  extract_lets src s1
  have hs1 : Sound K C z s1 := fbset_sound (fr.mono rfl) (.setToll (fr.mono rfl) h)
  exact evt_sound (fr.mono rfl) (forEach_sound hs1 (fun _ _ hs => overUpdate_sound (fr.mono rfl) hs))

theorem tollPeriod_sound (fr : Free K [.regs, .mem, .net, .toll, .pa, .he, .outbox]) (h : Sound K C z s) :
    Sound K C z (tollPeriod s) := by
  unfold tollPeriod
  extract_lets s1 src s2
  have hs1 : Sound K C z s1 := applyBudgets_sound (fr.mono rfl) (cntWrap_sound (fr.mono rfl) h)
  have hs2 : Sound K C z s2 := .setToll (fr.mono rfl) hs1
  exact w1Drain_sound fr (.ite (fun _ => forEach_sound hs2 (fun _ _ ht => tollSettle_sound (fr.mono rfl) (grantOne_sound
    (fr.mono rfl) ht))) (fun _ => hs2))

theorem admitSet_sound {b : Nat → Nat} (fr : Free K [.regs]) (h : Sound K C z s) :
    Sound K C z (admitSet b s) := by
  unfold admitSet
  exact fbset_sound fr (forEach_sound h (fun _ _ ht => wrn_sound fr ht))

theorem tollRescale_sound {r : Nat} (fr : Free K [.regs]) (h : Sound K C z s) :
    Sound K C z (tollRescale r s) := by
  unfold tollRescale
  extract_lets old
  exact .ite (fun _ => h) (fun _ => admitSet_sound fr h)

theorem poolLose_sound {p : Nat} {free : Nat} {held : Nat} (fr : Free K [.regs, .mem]) (h : Sound K C z s) :
    Sound K C z (poolLose p free held s) := by
  unfold poolLose
  extract_lets f h' back s1 s2 src s3
  have hs1 : Sound K C z s1 := poolFree_sound fr h
  have hs2 : Sound K C z s2 := wrn_sound (fr.mono rfl) hs1
  have hs3 : Sound K C z s3 := .setMem (fr.mono rfl) hs2
  exact cntWrap_sound (fr.mono rfl) hs3

theorem copyLose_sound {id : Nat} {n : Nat} (fr : Free K [.regs, .mem, .ev]) (h : Sound K C z s) :
    Sound K C z (copyLose id n s) := by
  unfold copyLose
  split
  · exact h
  · extract_lets k src
    exact poolLose_sound (fr.mono rfl) (.setEv (fr.mono rfl) h)

theorem tileLose_sound {ring : Nat} {seq : Nat} {n : Nat} (fr : Free K [.regs, .mem, .tiles]) (h : Sound K C z s) :
    Sound K C z (tileLose ring seq n s) := by
  unfold tileLose
  split
  · exact h
  · extract_lets k src
    exact poolLose_sound (fr.mono rfl) (.setTiles (fr.mono rfl) h)

theorem channelLost_sound {ch : Nat} {l : ChannelLoss}
    (fr : Free K [.regs, .mem, .ledger, .views, .tiles, .ports, .act, .acct, .net, .toll, .em, .pa, .he, .ev, .mb, .rs,
      .outbox, .freeCtr])
    (h : Sound K C z s) :
    Sound K C z (channelLost ch l s) := by
  unfold channelLost
  extract_lets use n s1 s2 s3 s4
  have hs1 : Sound K C z s1 := regBit_sound (fr.mono rfl) (regBit_sound (fr.mono rfl) h)
  have hs2 : Sound K C z s2 := forEach_sound hs1 (fun _ _ ht => poolLose_sound (fr.mono rfl) ht)
  have hs3 : Sound K C z s3 := forEach_sound (forEach_sound hs2 (fun _ _ ht1 => copyLose_sound (fr.mono rfl) ht1)) (fun _
      _ ht2 => tileLose_sound (fr.mono rfl) ht2)
  have hs4 : Sound K C z s4 := setCap_sound (fr.mono rfl) hs3
  exact replaceUpdate_sound (fr.mono rfl) (paDetect_sound (fr.mono rfl) (evt_sound (fr.mono rfl) hs4))

theorem toPut_sound {a : Nat} {v : Nat} (fr : Free K [.regs, .tables, .toll, .he, .outbox]) (h : Sound K C z s) :
    Sound K C z (toPut a v s) := by
  unfold toPut
  refine .ite (fun _ => ?_) (fun _ => .ite (fun _ => .ite (fun _ => h) (fun _ => setCap_sound (fr.mono rfl) h)) (fun _ =>
    .ite (fun _ => .ite (fun _ => fbset_sound (fr.mono rfl) h) (fun _ => h)) (fun _ => .ite (fun _ => .ite (fun _ => h)
    (fun _ => fset_sound (fr.mono rfl) h)) (fun _ => putWord_sound (fr.mono rfl) h))))
  extract_lets src s1
  have hs1 : Sound K C z s1 := fbset_sound (fr.mono rfl) (.ite (fun _ => h) (fun _ => .setToll (fr.mono rfl) h))
  exact .ite (fun _ => fbset_sound (fr.mono rfl) hs1) (fun _ => hs1)

theorem linkCap_sound (fr : Free K [.regs, .toll, .he, .outbox]) (h : Sound K C z s) :
    Sound K C z (linkCap s) := by
  unfold linkCap
  exact .ite (fun _ => setCap_sound fr h) (fun _ => h)

theorem setPools_sound {size : Nat → Nat} (fr : Free K [.regs, .mem]) (h : Sound K C z s) :
    Sound K C z (setPools size s) := by
  unfold setPools
  refine forEach_sound (.setMem (fr.mono rfl) h) (fun p t ht => ?_)
  extract_lets f
  exact wrn_sound (fr.mono rfl) (wrn_sound (fr.mono rfl) (wrn_sound (fr.mono rfl) ht))

theorem trySet_sound {apply : Bool} {b : Nat → Nat} (fr : Free K [.regs]) (h : Sound K C z s) :
    Sound K C z (trySet apply b s).1 := by
  unfold trySet
  split
  · exact h
  · exact .ite (fun _ => admitSet_sound fr h) (fun _ => h)

theorem runTollProfile_sound {c : CmdCall} (fr : Free K [.regs]) (h : Sound K C z s) :
    Sound K C z (runTollProfile c s).1 := by
  unfold runTollProfile
  split
  · exact h
  · exact trySet_sound fr h

theorem runMemInfo_sound {x : CmdCall} (h : Sound K C z s) :
    Sound K C z (runMemInfo x s).1 := by
  unfold runMemInfo
  exact h

theorem runTollSet_sound {c : CmdCall} (fr : Free K [.regs]) (h : Sound K C z s) :
    Sound K C z (runTollSet c s).1 := by
  unfold runTollSet
  exact trySet_sound fr h

theorem runPoolSet_sound {c : CmdCall} (fr : Free K [.regs, .mem]) (h : Sound K C z s) :
    Sound K C z (runPoolSet c s).1 := by
  unfold runPoolSet
  extract_lets size sum
  refine .ite1 (fun _ => h) (fun _ => .ite1 (fun _ => h) (fun _ => ?_))
  split
  · exact h
  · exact setPools_sound fr h

theorem memSetup_sound {t : State} (fr : Free K [.regs, .tables, .mem, .toll, .he, .outbox]) (h : Sound K C z s)
    (e : memSetup s = some t) : Sound K C z t := by
  unfold memSetup at e
  dsimp only at e
  have hset : ∀ n, Sound K C z (linkCap (forEach ((memWords s).filter (fun w => memPlain w.1)) (fun w t => toPut w.1 w.2
      t)
      (fbset (fset (setPools (fun p => memWord s (MM_POOL_TOTAL + 16 * p)) s) fMM_RSV_BASE_V n) fMM_CTL_COMMIT true))) :=
        fun _ =>
    linkCap_sound (fr.mono rfl) (forEach_sound (fbset_sound (fr.mono rfl) (fset_sound (fr.mono rfl)
      (setPools_sound (fr.mono rfl) h))) (fun _ _ ht => toPut_sound (fr.mono rfl) ht))
  split_ifs at e
  · exact Option.some.inj e ▸ h
  · exact Option.some.inj e ▸ hset _
  · exact Option.some.inj e ▸ admitSet_sound (fr.mono rfl) (hset _)

theorem execTollCommit_sound {ag : Agent} (fr : Free K [.regs, .he, .outbox]) (h : Sound K C z s) :
    SoundOut K C z (execTollCommit ag s) := by
  unfold execTollCommit
  exact .next (gated_sound fr (fun _ ht => fbset_sound (fr.mono rfl) ht) h)

theorem execTollRescale_sound {resource : Fin 4} (fr : Free K [.regs]) (h : Sound K C z s) :
    SoundOut K C z (execTollRescale resource s) := by
  unfold execTollRescale
  exact .next (tollRescale_sound fr h)

theorem execLp5xChannelLost_sound {channel : Fin 8} {retrain : Bool} {free : List Nat} {other : List Nat}
    {copies : List (Nat × Nat)} {tiles : List (Nat × Nat × Nat)}
    (fr : Free K [.regs, .mem, .ledger, .views, .tiles, .ports, .act, .acct, .net, .toll, .em, .pa, .he, .ev, .mb, .rs,
      .outbox, .freeCtr])
    (h : Sound K C z s) :
    SoundOut K C z (execLp5xChannelLost channel retrain free other copies tiles s) := by
  unfold execLp5xChannelLost
  exact .next (.ite (fun _ => channelLost_sound fr h) (fun _ => h))

theorem execScrubPass_sound {ces : List Nat} {ues : List Nat} (fr : Free K [.regs, .mem, .net, .toll, .pa, .he, .outbox])
    (h : Sound K C z s) :
    SoundOut K C z (execScrubPass ces ues s) := by
  unfold execScrubPass
  refine .next (.ite (fun _ => ?_) (fun _ => h))
  extract_lets s1
  have hs1 : Sound K C z s1 := tollBegin_sound (fr.mono rfl) h
  exact evt_sound (fr.mono rfl) (forEach_sound (forEach_sound hs1 (fun _ _ ht => lp5Ce_sound (fr.mono rfl) ht)) (fun _ _
    ht1 => lp5Ue_sound (fr.mono rfl) ht1))

theorem execTollLoadProfile_sound {c : CmdCall} (fr : Free K [.regs, .net, .toll, .he, .mb, .outbox, .freeCtr])
    (h : Sound K C z s) :
    SoundOut K C z (execTollLoadProfile c s) := by
  unfold execTollLoadProfile
  exact .next (mbRun_sound fr (fun _ _ ht => runTollProfile_sound (fr.mono rfl) ht) h)

theorem execMemInfo_sound {c : CmdCall} (fr : Free K [.regs, .net, .toll, .he, .mb, .outbox, .freeCtr])
    (h : Sound K C z s) :
    SoundOut K C z (execMemInfo c s) := by
  unfold execMemInfo
  exact .next (mbRun_sound fr (fun _ _ ht => runMemInfo_sound ht) h)

theorem execTollSet_sound {c : CmdCall} (fr : Free K [.regs, .net, .toll, .he, .mb, .outbox, .freeCtr])
    (h : Sound K C z s) :
    SoundOut K C z (execTollSet c s) := by
  unfold execTollSet
  exact .next (mbRun_sound fr (fun _ _ ht => runTollSet_sound (fr.mono rfl) ht) h)

theorem execPoolSet_sound {c : CmdCall} (fr : Free K [.regs, .mem, .net, .toll, .he, .mb, .outbox, .freeCtr])
    (h : Sound K C z s) :
    SoundOut K C z (execPoolSet c s) := by
  unfold execPoolSet
  exact .next (mbRun_sound (fr.mono rfl) (fun _ _ ht => runPoolSet_sound (fr.mono rfl) ht) h)

end Sys2Proof.Machine
end

section
/-! SUPPORT. What each operation of Machine/Audit.lean leaves unchanged (the rules are in Laws/Sound.lean). -/

namespace Sys2Proof.Machine

set_option Elab.async false

variable {K : Comp → Prop} {C : Prop} {z s t : State}

theorem wrWords_sound {a : Nat} {l : List Nat} (fr : Free K [.regs]) (h : Sound K C z s) :
    Sound K C z (wrWords a l s) := by
  unfold wrWords
  exact forEach_sound h (fun _ _ ht => wrn_sound fr ht)

theorem copyTerms_sound (fr : Free K [.regs]) (h : Sound K C z s) :
    Sound K C z (copyTerms s) := by
  unfold copyTerms
  extract_lets a s1 s2 s3 s4 s5 s6 s7
  have hs1 : Sound K C z s1 := wrWords_sound fr h
  have hs2 : Sound K C z s2 := wrWords_sound fr hs1
  have hs3 : Sound K C z s3 := wrWords_sound fr hs2
  have hs4 : Sound K C z s4 := forEach_sound hs3 (fun _ _ ht => wrWords_sound fr ht)
  have hs5 : Sound K C z s5 := wrWords_sound fr hs4
  have hs6 : Sound K C z s6 := wrWords_sound fr hs5
  have hs7 : Sound K C z s7 := by
    refine forEach_sound hs6 (fun r t ht1 => ?_)
    extract_lets ws
    exact wrWords_sound fr ht1
  exact wrWords_sound fr (wrWords_sound fr hs7)

theorem reportBad_sound {i : Nat}
    (fr : Free K [.regs, .mem, .ledger, .views, .act, .acct, .net, .em, .pa, .he, .ev, .rs, .outbox, .freeCtr])
    (h : Sound K C z s) :
    Sound K C z (reportBad i s) := by
  unfold reportBad
  exact paDetect_sound fr (evtBit_sound (fr.mono rfl) (cnt_sound (fr.mono rfl) h))

theorem auditPass_sound
    (fr : Free K [.regs, .mem, .ledger, .views, .act, .acct, .net, .em, .pa, .he, .ev, .rs, .outbox, .freeCtr])
    (h : Sound K C z s) :
    Sound K C z (auditPass s) := by
  unfold auditPass
  extract_lets skip bad ids s1 s2
  have hs1 : Sound K C z s1 := wrn_sound (fr.mono rfl) (copyTerms_sound (fr.mono rfl) (cntWrap_sound (fr.mono rfl) h))
  have hs2 : Sound K C z s2 := by
    unfold s2
    unfold bad
    split
    · exact hs1
    · exact wrn_sound (fr.mono rfl) (wrn_sound (fr.mono rfl) hs1)
  exact forEach_sound hs2 (fun _ _ hs => reportBad_sound fr hs)

theorem execAuditPass_sound
    (fr : Free K [.regs, .mem, .ledger, .views, .act, .acct, .net, .em, .pa, .he, .ev, .rs, .outbox, .freeCtr])
    (h : Sound K C z s) :
    SoundOut K C z (execAuditPass s) := by
  unfold execAuditPass
  exact .next (auditPass_sound fr h)

end Sys2Proof.Machine
end

section
/-! SUPPORT. What each operation of Machine/Valves.lean leaves unchanged (the rules are in Laws/Sound.lean). -/

namespace Sys2Proof.Machine

set_option Elab.async false

variable {K : Comp → Prop} {C : Prop} {z s t : State}

theorem sendResult_sound {src : Nat} {code : Nat} {tag : Nat} {owner : Nat} (fr : Free K [.regs, .net, .he, .outbox])
    (h : Sound K C z s) :
    Sound K C z (sendResult src code tag owner s) := by
  unfold sendResult
  exact netSend_sound fr h

theorem orderReceive_sound {src : Nat} {p : List Byte}
    (fr : Free K [.regs, .mem, .ledger, .views, .act, .acct, .net, .he, .ev, .outbox, .freeCtr]) (h : Sound K C z s) :
    Sound K C z (orderReceive src p s) := by
  unfold orderReceive
  refine .ite (fun _ => h) (fun _ => ?_)
  extract_lets prio tag owner launch rng ps miss s1 s2
  have hs1 : Sound K C z s1 := cnt_sound (fr.mono rfl) h
  have hs2 : Sound K C z s2 := .ite (fun _ => cnt_sound (fr.mono rfl) hs1) (fun _ => hs1)
  split
  · extract_lets s3
    have hs3 : Sound K C z s3 := .ite (fun _ => hs2) (fun _ => cnt_sound (fr.mono rfl) hs2)
    exact sendResult_sound (fr.mono rfl) (evt_sound (fr.mono rfl) hs3)
  · extract_lets s3
    have hs31 : Sound K C z s3 := forEach_sound hs2 (fun _ _ ht => cancelOrder_sound fr ht)
    exact sendResult_sound (fr.mono rfl) (forEach_sound hs31 (fun _ _ hs => queuePart_sound (fr.mono rfl) hs))

theorem resultApply_sound {o : Order} {src : Nat} {tag : Nat} {ok : Bool}
    (fr : Free K [.regs, .mem, .ledger, .views, .act, .acct, .net, .he, .ev, .outbox, .freeCtr]) (h : Sound K C z s) :
    Sound K C z (resultApply o src tag ok s) := by
  unfold resultApply
  extract_lets st s1
  have hs1 : Sound K C z s1 := updOrder_sound (fr.mono rfl) h
  refine .ite (fun _ => ?_) (fun _ => .ite (fun _ => orderEnds_sound (fr.mono rfl) (dropOrder_sound (fr.mono rfl) hs1))
    (fun _ => hs1))
  split
  · exact .ite (fun _ => hs1) (fun _ => orderQueued_sound (fr.mono rfl) hs1)
  · exact hs1

theorem resultReceive_sound {src : Nat} {p : List Byte}
    (fr : Free K [.regs, .mem, .ledger, .views, .act, .acct, .net, .he, .ev, .outbox, .freeCtr]) (h : Sound K C z s) :
    Sound K C z (resultReceive src p s) := by
  unfold resultReceive
  extract_lets tag owner ok passed s1
  have hs1 : Sound K C z s1 := .ite (fun _ => h) (fun _ => evt_sound (fr.mono rfl) (cnt_sound (fr.mono rfl) h))
  refine .ite (fun _ => h) (fun _ => ?_)
  split
  · exact .ite (fun _ => resultApply_sound fr hs1) (fun _ => hs1)
  · exact hs1

theorem cancelReceive_sound {src : Nat} {p : List Byte} (fr : Free K [.regs, .act, .acct]) (h : Sound K C z s) :
    Sound K C z (cancelReceive src p s) := by
  unfold cancelReceive
  exact .ite (fun _ => h) (fun _ => forEach_sound h (fun _ _ hs => cancelParts_sound fr hs))

theorem remoteLaunch_sound {owner : Nat}
    (fr : Free K [.regs, .mem, .ledger, .views, .act, .acct, .net, .he, .ev, .outbox, .freeCtr]) (h : Sound K C z s) :
    Sound K C z (remoteLaunch owner s) := by
  unfold remoteLaunch
  split
  · exact h
  · refine .ite (fun _ => h) (fun _ => ?_)
    extract_lets n s1
    have hs1 : Sound K C z s1 := cntAdd_sound (fr.mono rfl) (updOrder_sound (fr.mono rfl) h)
    exact .ite (fun _ => hs1) (fun _ => .ite (fun _ => fireOrder_sound (fr.mono rfl) hs1) (fun _ => .ite (fun _ => hs1)
      (fun _ => orderEnds_sound (fr.mono rfl) (dropOrder_sound (fr.mono rfl) hs1))))

theorem frameAssemble_sound {b : Nat} (fr : Free K [.regs, .act]) (h : Sound K C z s) :
    Sound K C z (frameAssemble b s) := by
  unfold frameAssemble
  extract_lets u free win
  unfold free
  split
  · exact h
  · extract_lets p ps s1
    have hs1 : Sound K C z s1 := updBus_sound fr h
    exact .ite (fun _ => h) (fun _ => cntAdd_sound (fr.mono rfl) hs1)

theorem valveStart_sound {b : Nat}
    (fr : Free K [.regs, .mem, .ledger, .views, .act, .acct, .net, .em, .pa, .he, .ev, .rs, .outbox, .freeCtr])
    (h : Sound K C z s) :
    Sound K C z (valveStart b s) := by
  unfold valveStart
  refine .ite (fun _ => h) (fun _ => ?_)
  split
  · exact h
  · extract_lets ps l late s1 s2 s3 m s4 s5 s6
    have hs1 : Sound K C z s1 := updBus_sound (fr.mono rfl) h
    have hs2 : Sound K C z s2 := acct_sound (fr.mono rfl) hs1
    have hs3 : Sound K C z s3 := cnt_sound (fr.mono rfl) hs2
    have hm : Sound K C z m := wrn_sound (fr.mono rfl) hs3
    have hs4 : Sound K C z s4 := .ite (fun _ => evt_sound (fr.mono rfl) (cnt_sound (fr.mono rfl) hm)) (fun _ => hs3)
    have hs5 : Sound K C z s5 := emit_sound (fr.mono rfl) hs4
    have hs6 : Sound K C z s6 := forEach_sound hs5 (fun _ _ ht => fireOrder_sound (fr.mono rfl) ht)
    exact emFire_sound fr hs6

theorem safeStart_sound {b : Nat}
    (fr : Free K [.regs, .mem, .ledger, .views, .act, .acct, .net, .em, .pa, .he, .ev, .rs, .outbox, .freeCtr])
    (h : Sound K C z s) :
    Sound K C z (safeStart b s) := by
  unfold safeStart
  exact emFire_sound fr (sendSafe_sound (fr.mono rfl) h)

theorem idleSafe_sound {b : Nat}
    (fr : Free K [.regs, .mem, .ledger, .views, .act, .acct, .net, .em, .pa, .he, .ev, .rs, .outbox, .freeCtr])
    (h : Sound K C z s) :
    Sound K C z (idleSafe b s) := by
  unfold idleSafe
  exact .ite (fun _ => h) (fun _ => safeStart_sound fr h)

theorem idleBuses_sound
    (fr : Free K [.regs, .mem, .ledger, .views, .act, .acct, .net, .em, .pa, .he, .ev, .rs, .outbox, .freeCtr])
    (h : Sound K C z s) :
    Sound K C z (idleBuses s) := by
  unfold idleBuses
  exact forEach_sound h (fun _ _ hs => idleSafe_sound fr hs)

theorem cancelBus_sound {b : Nat}
    (fr : Free K [.regs, .mem, .ledger, .views, .act, .acct, .net, .he, .ev, .outbox, .freeCtr]) (h : Sound K C z s) :
    Sound K C z (cancelBus b s) := by
  unfold cancelBus
  extract_lets s1
  have hs1 : Sound K C z s1 := forEach_sound h (fun _ _ ht => cancelOrder_sound fr ht)
  exact cancelParts_sound (fr.mono rfl) hs1

theorem busEnable_sound {b : Nat} {en : Bool}
    (fr : Free K [.regs, .mem, .ledger, .views, .act, .acct, .net, .em, .pa, .he, .ev, .rs, .outbox, .freeCtr])
    (h : Sound K C z s) :
    Sound K C z (busEnable b en s) := by
  unfold busEnable
  exact .ite (fun _ => .ite (fun _ => h) (fun _ => fbset_sound (fr.mono rfl) h)) (fun _ => .ite (fun _ => idleSafe_sound
    fr (cancelBus_sound (fr.mono rfl) (fbset_sound (fr.mono rfl) h))) (fun _ => h))

theorem boardPoll_sound {b : Nat} {addr : Nat} (fr : Free K [.regs, .act, .outbox]) (h : Sound K C z s) :
    Sound K C z (boardPoll b addr s) := by
  unfold boardPoll
  exact .ite (fun _ => emit_sound (fr.mono rfl) (updBus_sound (fr.mono rfl) h)) (fun _ => h)

theorem statusReceive_sound {b : Nat} {f : List Byte} (fr : Free K [.regs, .act, .he, .outbox]) (h : Sound K C z s) :
    Sound K C z (statusReceive b f s) := by
  unfold statusReceive
  split
  · extract_lets s1 o ver lo hi chg src s2 s3
    have hs1 : Sound K C z s1 := updBus_sound (fr.mono rfl) h
    have hs2 : Sound K C z s2 := wrn_sound (fr.mono rfl) (.setAct (fr.mono rfl) hs1)
    have hs3 : Sound K C z s3 := wrn_sound (fr.mono rfl) (wrn_sound (fr.mono rfl) hs2)
    exact .ite (fun _ => cnt_sound (fr.mono rfl) hs1) (fun _ => .ite (fun _ => evt_sound (fr.mono rfl) hs3) (fun _ =>
      hs3))
  · exact h

theorem pollMiss_sound {b : Nat} (fr : Free K [.regs, .act, .he, .outbox]) (h : Sound K C z s) :
    Sound K C z (pollMiss b s) := by
  unfold pollMiss
  split
  · extract_lets o s1
    have hs1 : Sound K C z s1 := cnt_sound (fr.mono rfl) (updBus_sound (fr.mono rfl) h)
    exact .ite (fun _ => evt_sound (fr.mono rfl) (fbset_sound (fr.mono rfl) hs1)) (fun _ => hs1)
  · exact h

theorem execActOrderReceive_sound {src : Nat} {payload : List Byte}
    (fr : Free K [.regs, .mem, .ledger, .views, .act, .acct, .net, .he, .ev, .outbox, .freeCtr]) (h : Sound K C z s) :
    SoundOut K C z (execActOrderReceive src payload s) := by
  unfold execActOrderReceive
  exact .next (orderReceive_sound fr h)

theorem execActResultReceive_sound {src : Nat} {payload : List Byte}
    (fr : Free K [.regs, .mem, .ledger, .views, .act, .acct, .net, .he, .ev, .outbox, .freeCtr]) (h : Sound K C z s) :
    SoundOut K C z (execActResultReceive src payload s) := by
  unfold execActResultReceive
  exact .next (resultReceive_sound fr h)

theorem execActCancelReceive_sound {src : Nat} {payload : List Byte} (fr : Free K [.regs, .act, .acct])
    (h : Sound K C z s) :
    SoundOut K C z (execActCancelReceive src payload s) := by
  unfold execActCancelReceive
  exact .next (cancelReceive_sound fr h)

theorem execRemoteLaunch_sound {owner : Nat}
    (fr : Free K [.regs, .mem, .ledger, .views, .act, .acct, .net, .he, .ev, .outbox, .freeCtr]) (h : Sound K C z s) :
    SoundOut K C z (execRemoteLaunch owner s) := by
  unfold execRemoteLaunch
  exact .next (remoteLaunch_sound fr h)

theorem execFrameAssemble_sound {b : BusNo} (fr : Free K [.regs, .act]) (h : Sound K C z s) :
    SoundOut K C z (execFrameAssemble b s) := by
  unfold execFrameAssemble
  exact .next (frameAssemble_sound fr h)

theorem execValveFrameStart_sound {b : BusNo}
    (fr : Free K [.regs, .mem, .ledger, .views, .act, .acct, .net, .em, .pa, .he, .ev, .rs, .outbox, .freeCtr])
    (h : Sound K C z s) :
    SoundOut K C z (execValveFrameStart b s) := by
  unfold execValveFrameStart
  exact .next (valveStart_sound fr h)

theorem execValveFrameEnd_sound {b : BusNo} (fr : Free K [.regs, .act]) (h : Sound K C z s) :
    SoundOut K C z (execValveFrameEnd b s) := by
  unfold execValveFrameEnd
  refine .next ?_
  split
  · exact h
  · exact updBus_sound fr h

theorem execSafeFrameRepeat_sound
    (fr : Free K [.regs, .mem, .ledger, .views, .act, .acct, .net, .em, .pa, .he, .ev, .rs, .outbox, .freeCtr])
    (h : Sound K C z s) :
    SoundOut K C z (execSafeFrameRepeat s) := by
  unfold execSafeFrameRepeat
  exact .next (.ite (fun _ => forEach_sound h (fun _ _ hs => safeStart_sound fr hs)) (fun _ => h))

theorem execIdleSafeFrame_sound {b : BusNo}
    (fr : Free K [.regs, .mem, .ledger, .views, .act, .acct, .net, .em, .pa, .he, .ev, .rs, .outbox, .freeCtr])
    (h : Sound K C z s) :
    SoundOut K C z (execIdleSafeFrame b s) := by
  unfold execIdleSafeFrame
  exact .next (.ite (fun _ => h) (fun _ => idleSafe_sound fr h))

theorem execBusEnableWrite_sound {ag : Agent} {b : BusNo} {en : Bool}
    (fr : Free K [.regs, .mem, .ledger, .views, .act, .acct, .net, .em, .pa, .he, .ev, .rs, .outbox, .freeCtr])
    (h : Sound K C z s) :
    SoundOut K C z (execBusEnableWrite ag b en s) := by
  unfold execBusEnableWrite
  exact .next (gated_sound (fr.mono rfl) (fun _ ht => busEnable_sound fr ht) h)

theorem execBoardPoll_sound {b : BusNo} {addr : Fin 32} (fr : Free K [.regs, .act, .outbox]) (h : Sound K C z s) :
    SoundOut K C z (execBoardPoll b addr s) := by
  unfold execBoardPoll
  exact .next (boardPoll_sound fr h)

theorem execStatusFrameReceive_sound {b : BusNo} {frame : List Byte} (fr : Free K [.regs, .act, .he, .outbox])
    (h : Sound K C z s) :
    SoundOut K C z (execStatusFrameReceive b frame s) := by
  unfold execStatusFrameReceive
  exact .next (statusReceive_sound fr h)

theorem execPollNoAnswer_sound {b : BusNo} (fr : Free K [.regs, .act, .he, .outbox]) (h : Sound K C z s) :
    SoundOut K C z (execPollNoAnswer b s) := by
  unfold execPollNoAnswer
  exact .next (pollMiss_sound fr h)

end Sys2Proof.Machine
end

section
/-! SUPPORT. What each operation of Machine/Mates.lean leaves unchanged (the rules are in Laws/Sound.lean). -/

namespace Sys2Proof.Machine

set_option Elab.async false

variable {K : Comp → Prop} {C : Prop} {z s t : State}

theorem tileStat_sound (fr : Free K [.regs]) (h : Sound K C z s) :
    Sound K C z (tileStat s) := by
  unfold tileStat
  exact fset_sound fr h

theorem tileDrop_sound {id : Nat} {d : Drop} (fr : Free K [.regs, .ledger, .tiles, .acct, .he, .outbox])
    (h : Sound K C z s) :
    Sound K C z (tileDrop id d s) := by
  unfold tileDrop
  refine .ite (fun _ => h) (fun _ => ?_)
  extract_lets src s1 s2
  have hs1 : Sound K C z s1 := tileStat_sound (fr.mono rfl) (.setTiles (fr.mono rfl) h)
  have hs2 : Sound K C z s2 := .ite (fun _ => setFlag_sound (fr.mono rfl) hs1) (fun _ => hs1)
  exact acct_sound (fr.mono rfl) (evt_sound (fr.mono rfl) (cnt_sound (fr.mono rfl) hs2))

theorem tileDeliver_sound {id : Nat} (fr : Free K [.regs, .ledger, .tiles, .acct]) (h : Sound K C z s) :
    Sound K C z (tileDeliver id s) := by
  unfold tileDeliver
  refine .ite (fun _ => h) (fun _ => ?_)
  extract_lets src s1 s2
  have hs1 : Sound K C z s1 := tileStat_sound (fr.mono rfl) (.setTiles (fr.mono rfl) h)
  have hs2 : Sound K C z s2 := .ite (fun _ => updEntry_sound (fr.mono rfl) hs1) (fun _ => hs1)
  exact acct_sound (fr.mono rfl) (cnt_sound (fr.mono rfl) hs2)

theorem tileProduce_sound {id : Nat} (fr : Free K [.regs, .ledger, .tiles, .acct, .he, .outbox]) (h : Sound K C z s) :
    Sound K C z (tileProduce id s) := by
  unfold tileProduce
  extract_lets e w src s1 s2
  have hs1 : Sound K C z s1 := .setTiles (fr.mono rfl) h
  have hs2 : Sound K C z s2 := acct_sound (fr.mono rfl) (cnt_sound (fr.mono rfl) (tileStat_sound (fr.mono rfl) hs1))
  exact .ite (fun _ => h) (fun _ => .ite (fun _ => tileDrop_sound fr hs2) (fun _ => hs2))

theorem mateSet_sound {members : List Nat} {got : List Nat} {lastMax : Nat} {home : Nat}
    (fr : Free K [.regs, .ledger, .tiles, .acct, .he, .outbox]) (h : Sound K C z s) :
    Sound K C z (mateSet members got lastMax home s) := by
  unfold mateSet
  split
  · exact h
  · extract_lets owner rem s1 g r src
    have hs1 : Sound K C z s1 := forEach_sound h (fun _ _ ht => updEntry_sound (fr.mono rfl) ht)
    exact forEach_sound (.setLedger (fr.mono rfl) hs1) (fun _ _ hs => tileProduce_sound fr hs)

theorem mateSingle_sound {id : Nat} (fr : Free K [.regs, .ledger, .tiles, .acct, .he, .outbox]) (h : Sound K C z s) :
    Sound K C z (mateSingle id s) := by
  unfold mateSingle
  exact mateSet_sound fr (cnt_sound (fr.mono rfl) h)

theorem provStat_sound (fr : Free K [.regs]) (h : Sound K C z s) :
    Sound K C z (provStat s) := by
  unfold provStat
  extract_lets s1
  have hs1 : Sound K C z s1 := fset_sound fr h
  exact forEach_sound hs1 (fun _ _ ht => fset_sound fr ht)

theorem setProv_sound {l : List ProvSet} (fr : Free K [.regs, .views]) (h : Sound K C z s) :
    Sound K C z (setProv s l) := by
  unfold setProv
  exact provStat_sound (fr.mono rfl) (.setViews (fr.mono rfl) h)

theorem sendSet_sound {members : List Nat} {lastMax : Nat} {pier : Nat} (fr : Free K [.regs, .net, .he, .outbox])
    (h : Sound K C z s) :
    Sound K C z (sendSet members lastMax pier s) := by
  unfold sendSet
  exact netSend_sound fr h

theorem closeMembers_sound {ms : List Member} (fr : Free K [.regs, .ledger, .views, .tiles, .acct, .net, .he, .outbox])
    (h : Sound K C z s) :
    Sound K C z (closeMembers ms s) := by
  unfold closeMembers
  extract_lets ids last s1 got piers src s2
  have hs1 : Sound K C z s1 := cnt_sound (fr.mono rfl) h
  have hs2 : Sound K C z s2 := .ite (fun _ => hs1) (fun _ => .setViews (fr.mono rfl) hs1)
  exact forEach_sound (mateSet_sound (fr.mono rfl) hs2) (fun _ _ hs => sendSet_sound (fr.mono rfl) hs)

theorem closeProv_sound {p : ProvSet} (fr : Free K [.regs, .ledger, .views, .tiles, .acct, .net, .he, .outbox])
    (h : Sound K C z s) :
    Sound K C z (closeProv p s) := by
  unfold closeProv
  exact closeMembers_sound fr (setProv_sound (fr.mono rfl) h)

theorem provCheck_sound {p : ProvSet} (fr : Free K [.regs, .ledger, .views, .tiles, .acct, .net, .he, .outbox])
    (h : Sound K C z s) :
    Sound K C z (provCheck p s) := by
  unfold provCheck
  exact .ite (fun _ => closeProv_sound fr h) (fun _ => h)

theorem matchObject_sound {g : Nat} {c : Member} (fr : Free K [.regs, .ledger, .views, .tiles, .acct, .net, .he, .outbox])
    (h : Sound K C z s) :
    Sound K C z (matchObject g c s) := by
  unfold matchObject
  refine .ite (fun _ => closeMembers_sound fr h) (fun _ => .ite (fun _ => closeMembers_sound fr (evtCnt_sound (fr.mono
    rfl) h)) (fun _ => ?_))
  split
  · extract_lets f s1
    have hs1 : Sound K C z s1 := setProv_sound (fr.mono rfl) h
    split
    · exact provCheck_sound fr hs1
    · exact hs1
  · extract_lets p
    exact provCheck_sound fr (setProv_sound (fr.mono rfl) h)

theorem sendCand_sound {id : Nat} {home : Option Nat} (fr : Free K [.regs, .views, .net, .he, .outbox])
    (h : Sound K C z s) :
    Sound K C z (sendCand id home s) := by
  unfold sendCand
  extract_lets e m fl t wait src s1
  have hs1 : Sound K C z s1 := .setViews (fr.mono rfl) h
  split
  · exact hs1
  · exact netSend_sound (fr.mono rfl) hs1

theorem calNotes_sound {g : Nat} {m : Member} (fr : Free K [.views]) (h : Sound K C z s) :
    Sound K C z (calNotes g m s) := by
  unfold calNotes
  exact .setViews fr h

theorem assignObject_sound {id : Nat} (fr : Free K [.regs, .ledger, .views, .tiles, .acct, .net, .he, .outbox])
    (h : Sound K C z s) :
    Sound K C z (assignObject id s) := by
  unfold assignObject
  extract_lets e
  split
  · exact mateSingle_sound (fr.mono rfl) (cnt_sound (fr.mono rfl) (updEntry_sound (fr.mono rfl) h))
  · extract_lets o g s1 side
    have hs1 : Sound K C z s1 := updEntry_sound (fr.mono rfl) h
    refine .ite (fun _ => matchObject_sound fr (calNotes_sound (fr.mono rfl) hs1)) (fun _ => .ite (fun _ =>
      mateSingle_sound (fr.mono rfl) hs1) (fun _ => ?_))
    split
    · exact sendCand_sound (fr.mono rfl) hs1
    · exact .ite (fun _ => mateSingle_sound (fr.mono rfl) hs1) (fun _ => sendCand_sound (fr.mono rfl) hs1)

theorem candReceive_sound {src : Nat} {p : List Byte}
    (fr : Free K [.regs, .ledger, .views, .tiles, .acct, .net, .he, .outbox]) (h : Sound K C z s) :
    Sound K C z (candReceive src p s) := by
  unfold candReceive
  refine .ite (fun _ => h) (fun _ => ?_)
  extract_lets fl m
  exact .ite (fun _ => closeMembers_sound fr (evtCnt_sound (fr.mono rfl) h)) (fun _ => .ite (fun _ => closeMembers_sound
    fr h) (fun _ => matchObject_sound fr (calNotes_sound (fr.mono rfl) h)))

theorem reviseSet_sound {r : SetRec} {members : List Nat} {lastMax : Nat} (fr : Free K [.regs, .ledger, .he, .outbox])
    (h : Sound K C z s) :
    Sound K C z (reviseSet r members lastMax s) := by
  unfold reviseSet
  extract_lets decided owner rem keep s1 newOwner
  have hs1 : Sound K C z s1 := forEach_sound h (fun _ _ ht => updEntry_sound (fr.mono rfl) ht)
  exact .ite (fun _ => evtCnt_sound (fr.mono rfl) h) (fun _ => updSet_sound (fr.mono rfl) hs1)

theorem setReceive_sound {src : Nat} {p : List Byte} (fr : Free K [.regs, .ledger, .views, .tiles, .acct, .he, .outbox])
    (h : Sound K C z s) :
    Sound K C z (setReceive src p s) := by
  unfold setReceive
  refine .ite (fun _ => h) (fun _ => ?_)
  extract_lets members got src'
  refine .ite (fun _ => mateSet_sound (fr.mono rfl) (.setViews (fr.mono rfl) h)) (fun _ => ?_)
  split
  · exact reviseSet_sound (fr.mono rfl) h
  · exact h

theorem withdrawSend_sound {id : Nat} (fr : Free K [.regs, .ledger, .views, .tiles, .acct, .net, .he, .outbox])
    (h : Sound K C z s) :
    Sound K C z (withdrawSend id s) := by
  unfold withdrawSend
  split
  · exact h
  · refine .ite (fun _ => h) (fun _ => ?_)
    extract_lets src s1 s2
    have hs1 : Sound K C z s1 := .setViews (fr.mono rfl) h
    have hs2 : Sound K C z s2 := mateSingle_sound (fr.mono rfl) (cnt_sound (fr.mono rfl) hs1)
    split
    · exact hs2
    · exact netSend_sound (fr.mono rfl) hs2

theorem withdrawReceive_sound {p : List Byte} (fr : Free K [.regs, .ledger, .views, .net, .he, .outbox])
    (h : Sound K C z s) :
    Sound K C z (withdrawReceive p s) := by
  unfold withdrawReceive
  extract_lets id src
  refine .ite (fun _ => h) (fun _ => ?_)
  split
  · exact h
  · refine .ite (fun _ => evtCnt_sound (fr.mono rfl) h) (fun _ => ?_)
    extract_lets left ids last s1 s2
    have hs1 : Sound K C z s1 := .setViews (fr.mono rfl) h
    have hs2 : Sound K C z s2 := by
      unfold s2
      split
      · exact reviseSet_sound (fr.mono rfl) hs1
      · exact hs1
    exact forEach_sound hs2 (fun _ _ hs => sendSet_sound (fr.mono rfl) hs)

theorem outcomeReceive_sound {p : List Byte}
    (fr : Free K [.regs, .mem, .ledger, .views, .acct, .net, .he, .ev, .outbox, .freeCtr]) (h : Sound K C z s) :
    Sound K C z (outcomeReceive p s) := by
  unfold outcomeReceive
  refine .ite (fun _ => h) (fun _ => ?_)
  extract_lets code act owner launch dur s1
  have hs1 : Sound K C z s1 := noteOutcome_sound (fr.mono rfl) h
  split
  · exact hs1
  · refine .ite (fun _ => hs1) (fun _ => ?_)
    extract_lets mv s2
    have hmv : ∀ x0 x1 t, Sound K C z t → Sound K C z (mv x0 x1 t) := fun _ _ _ ht => moveSet_sound (fr.mono rfl) ht
    have hs2 : Sound K C z s2 := evTerminal_sound (fr.mono rfl) (hmv _ _ _ hs1)
    unfold code
    split
    · exact moveSet_sound (fr.mono rfl) hs1
    · exact moveSet_sound (fr.mono rfl) hs1
    · exact setRetire_sound (fr.mono rfl) (evTerminal_sound (fr.mono rfl) (hmv _ _ _ hs1))
    · exact finishSet_sound (fr.mono rfl) (evTerminal_sound (fr.mono rfl) (hmv _ _ _ hs1))
    · exact .ite (fun _ => finishSet_sound (fr.mono rfl) hs2) (fun _ => setRetire_sound (fr.mono rfl) hs2)
    · exact finishSet_sound (fr.mono rfl) (evTerminal_sound (fr.mono rfl) (hmv _ _ _ hs1))
    · exact hs1

theorem groupEnable_sound {g : Nat} {en : Bool} (fr : Free K [.regs, .ledger, .views, .tiles, .acct, .net, .he, .outbox])
    (h : Sound K C z s) :
    Sound K C z (groupEnable g en s) := by
  unfold groupEnable
  extract_lets was s1
  have hs1 : Sound K C z s1 := fbset_sound (fr.mono rfl) h
  exact .ite (fun _ => forEach_sound hs1 (fun _ _ hs => closeProv_sound fr hs)) (fun _ => hs1)

end Sys2Proof.Machine
end

section
/-! SUPPORT. What each operation of Machine/Views.lean leaves unchanged (the rules are in Laws/Sound.lean). -/

namespace Sys2Proof.Machine

set_option Elab.async false

variable {K : Comp → Prop} {C : Prop} {z s t : State}

theorem objectSeen_sound {id : Nat}
    (fr : Free K [.regs, .mem, .ledger, .views, .tiles, .acct, .net, .he, .outbox, .freeCtr]) (h : Sound K C z s) :
    Sound K C z (objectSeen id s) := by
  unfold objectSeen
  split
  · exact h
  · extract_lets src s0 s1 s2 s3
    have hs0 : Sound K C z s0 := .setLedger (fr.mono rfl) h
    have hs1 : Sound K C z s1 := lp5Puts_sound (fr.mono rfl) hs0
    have hs2 : Sound K C z s2 := updEntry_sound (fr.mono rfl) hs1
    have hs3 : Sound K C z s3 := updEntry_sound (fr.mono rfl) (cnt_sound (fr.mono rfl) hs2)
    exact .ite (fun _ => retireEntry_sound (fr.mono rfl) hs3) (fun _ => assignObject_sound (fr.mono rfl) hs2)

theorem orphan_sound {id : Nat} (fr : Free K [.regs, .mem, .ledger, .acct, .net, .he, .ev, .outbox, .freeCtr])
    (h : Sound K C z s) :
    Sound K C z (orphan id s) := by
  unfold orphan
  split
  · exact h
  · extract_lets st s1 s2 s3
    have hs1 : Sound K C z s1 := updEntry_sound (fr.mono rfl) h
    have hs2 : Sound K C z s2 := evMember_sound (fr.mono rfl) hs1
    have hs3 : Sound K C z s3 := retireEntry_sound (fr.mono rfl) (evt_sound (fr.mono rfl) (cnt_sound (fr.mono rfl) hs2))
    exact .ite (fun _ => h) (fun _ => .ite (fun _ => dropSet_sound (fr.mono rfl) hs3) (fun _ => hs3))

theorem verdictDeadline_sound {owner : Nat}
    (fr : Free K [.regs, .mem, .ledger, .views, .act, .acct, .net, .he, .ev, .outbox, .freeCtr]) (h : Sound K C z s) :
    Sound K C z (verdictDeadline owner s) := by
  unfold verdictDeadline
  split
  · exact h
  · extract_lets st
    exact .ite (fun _ => defaultSet_sound fr h) (fun _ => h)

theorem entryRetire_sound {owner : Nat} (fr : Free K [.regs, .ledger, .act, .acct, .net, .he, .outbox, .freeCtr])
    (h : Sound K C z s) :
    Sound K C z (entryRetire owner s) := by
  unfold entryRetire
  split
  · exact .ite (fun _ => dropOrder_sound (fr.mono rfl) (finishSet_sound (fr.mono rfl) h)) (fun _ => h)
  · exact h

theorem setClose_sound {low : Nat} (fr : Free K [.regs, .ledger, .views, .tiles, .acct, .net, .he, .outbox])
    (h : Sound K C z s) :
    Sound K C z (setClose low s) := by
  unfold setClose
  split
  · exact h
  · split
    · exact closeProv_sound fr h
    · exact .ite (fun _ => closeProv_sound fr h) (fun _ => h)

theorem runGroupOff_sound {g : Nat} (fr : Free K [.regs, .ledger, .views, .tiles, .acct, .net, .he, .outbox])
    (h : Sound K C z s) :
    Sound K C z (runGroupOff g s) := by
  unfold runGroupOff
  exact groupEnable_sound fr h

theorem runGroupBack_sound {r : CalRun} (fr : Free K [.regs, .ledger, .views, .tiles, .acct, .net, .he, .outbox])
    (h : Sound K C z s) :
    Sound K C z (runGroupBack r s) := by
  unfold runGroupBack
  exact groupEnable_sound fr h

theorem sendXmdl_sound {g : Nat} {v : Nat} (fr : Free K [.regs, .net, .he, .outbox, .freeCtr]) (h : Sound K C z s) :
    Sound K C z (sendXmdl g v s) := by
  unfold sendXmdl
  extract_lets m body
  refine forEach_sound h (fun e t ht => ?_)
  split
  · exact sendDennil_sound (fr.mono rfl) (useFree_sound (fr.mono rfl) ht)
  · exact ht

theorem sendXmdls_sound (fr : Free K [.regs, .net, .he, .outbox, .freeCtr]) (h : Sound K C z s) :
    Sound K C z (sendXmdls s) := by
  unfold sendXmdls
  exact forEach_sound h (fun _ _ ht => forEach_sound ht (fun _ _ hu => sendXmdl_sound fr hu))

theorem askXmdls_sound (fr : Free K [.regs, .net, .he, .outbox, .freeCtr]) (h : Sound K C z s) :
    Sound K C z (askXmdls s) := by
  unfold askXmdls
  refine forEach_sound h (fun e t ht => ?_)
  split
  · exact sendDennil_sound (fr.mono rfl) (useFree_sound (fr.mono rfl) ht)
  · exact ht

theorem viewLoadCal_sound {x : CmdCall} (fr : Free K [.regs, .tables, .net, .he, .outbox, .freeCtr]) (h : Sound K C z s) :
    Sound K C z (viewLoadCal x s).1 := by
  unfold viewLoadCal
  split
  · exact h
  · extract_lets ws gs s1 s2
    have hs1 : Sound K C z s1 := forEach_sound h (fun _ _ ht => vwPut_sound (fr.mono rfl) ht)
    have hs2 : Sound K C z s2 := forEach_sound hs1 (fun _ _ ht1 => fbset_sound (fr.mono rfl) ht1)
    exact .ite1 (fun _ => h) (fun _ => .ite1 (fun _ => h) (fun _ => askXmdls_sound (fr.mono rfl) (sendXmdls_sound (fr.mono
      rfl) hs2)))

theorem viewParams_sound {c : CmdCall} (fr : Free K [.regs, .tables, .he, .outbox]) (h : Sound K C z s) :
    Sound K C z (viewParams c s).1 := by
  unfold viewParams
  extract_lets g ws
  exact .ite1 (fun _ => h) (fun _ => .ite1 (fun _ => h) (fun _ => putWords_sound fr h))

theorem viewTableLoad_sound {c : CmdCall} (fr : Free K [.regs, .tables, .toll, .outbox]) (h : Sound K C z s) :
    Sound K C z (viewTableLoad c s).1 := by
  unfold viewTableLoad
  extract_lets m
  exact .ite1 (fun _ => h) (fun _ => .ite1 (fun _ => h) (fun _ => .ite1 (fun _ => h) (fun _ => tblPuts_sound (fr.mono rfl)
    (hostRead_sound (fr.mono rfl) h))))

theorem viewCalRun_sound {c : CmdCall} (fr : Free K [.regs, .ledger, .views, .tiles, .acct, .net, .he, .outbox])
    (h : Sound K C z s) :
    Sound K C z (viewCalRun c s).1 := by
  unfold viewCalRun
  extract_lets g n r s1 src
  have hs1 : Sound K C z s1 := runGroupOff_sound fr h
  exact .ite1 (fun _ => h) (fun _ => .ite1 (fun _ => h) (fun _ => .ite1 (fun _ => h) (fun _ => .ite1 (fun _ => h) (fun _
    => .ite1 (fun _ => h) (fun _ => .setViews (fr.mono rfl) hs1)))))

theorem calMerge_sound {type : Nat} {ws : List (Nat × Nat)} (fr : Free K [.ev, .outbox]) (h : Sound K C z s) :
    Sound K C z (calMerge type ws s) := by
  unfold calMerge
  extract_lets old
  exact calStore_sound fr h

theorem endRun_sound {opcode : Nat} {status : Nat} {res : List Byte}
    (fr : Free K [.regs, .net, .he, .mb, .outbox, .freeCtr]) (h : Sound K C z s) :
    Sound K C z (endRun opcode status res s) := by
  unfold endRun
  split
  · exact endDeferred_sound fr h
  · exact h

theorem viewCalEnd_sound
    (fr : Free K [.regs, .tables, .ledger, .views, .tiles, .acct, .net, .he, .ev, .mb, .outbox, .freeCtr])
    (h : Sound K C z s) :
    Sound K C z (viewCalEnd s) := by
  unfold viewCalEnd
  split
  · exact h
  · extract_lets ps src s1 tbl ab n tolx tolt ws s2 res
    have hs1 : Sound K C z s1 := runGroupBack_sound (fr.mono rfl) (.setViews (fr.mono rfl) h)
    have hs2 : Sound K C z s2 := useFree_sound (fr.mono rfl) (.ite (fun _ => putWords_sound (fr.mono rfl) hs1) (fun _ =>
        hs1))
    exact .ite (fun _ => endRun_sound (fr.mono rfl) hs1) (fun _ => .ite (fun _ => .ite (fun _ => endRun_sound (fr.mono
      rfl) (calMerge_sound (fr.mono rfl) hs2)) (fun _ => endRun_sound (fr.mono rfl) hs2)) (fun _ => endRun_sound (fr.mono
      rfl) hs2))

theorem execObjectSeen_sound {id : Nat}
    (fr : Free K [.regs, .mem, .ledger, .views, .tiles, .acct, .net, .he, .outbox, .freeCtr]) (h : Sound K C z s) :
    SoundOut K C z (execObjectSeen id s) := by
  unfold execObjectSeen
  exact .next (objectSeen_sound fr h)

theorem execOrphanTimeout_sound {id : Nat} (fr : Free K [.regs, .mem, .ledger, .acct, .net, .he, .ev, .outbox, .freeCtr])
    (h : Sound K C z s) :
    SoundOut K C z (execOrphanTimeout id s) := by
  unfold execOrphanTimeout
  exact .next (orphan_sound fr h)

theorem execVerdictDeadline_sound {owner : Nat}
    (fr : Free K [.regs, .mem, .ledger, .views, .act, .acct, .net, .he, .ev, .outbox, .freeCtr]) (h : Sound K C z s) :
    SoundOut K C z (execVerdictDeadline owner s) := by
  unfold execVerdictDeadline
  exact .next (verdictDeadline_sound fr h)

theorem execEntryRetire_sound {owner : Nat} (fr : Free K [.regs, .ledger, .act, .acct, .net, .he, .outbox, .freeCtr])
    (h : Sound K C z s) :
    SoundOut K C z (execEntryRetire owner s) := by
  unfold execEntryRetire
  exact .next (entryRetire_sound fr h)

theorem execSetCloseTime_sound {low : Nat} (fr : Free K [.regs, .ledger, .views, .tiles, .acct, .net, .he, .outbox])
    (h : Sound K C z s) :
    SoundOut K C z (execSetCloseTime low s) := by
  unfold execSetCloseTime
  exact .next (setClose_sound fr h)

theorem execGroupDisable_sound {ag : Agent} {g : Fin 8}
    (fr : Free K [.regs, .ledger, .views, .tiles, .acct, .net, .he, .outbox]) (h : Sound K C z s) :
    SoundOut K C z (execGroupDisable ag g s) := by
  unfold execGroupDisable
  exact .next (gated_sound (fr.mono rfl) (fun _ ht => groupEnable_sound fr ht) h)

theorem execMateCandReceive_sound {src : Nat} {payload : List Byte}
    (fr : Free K [.regs, .ledger, .views, .tiles, .acct, .net, .he, .outbox]) (h : Sound K C z s) :
    SoundOut K C z (execMateCandReceive src payload s) := by
  unfold execMateCandReceive
  exact .next (candReceive_sound fr h)

theorem execMateSetReceive_sound {src : Nat} {payload : List Byte}
    (fr : Free K [.regs, .ledger, .views, .tiles, .acct, .he, .outbox]) (h : Sound K C z s) :
    SoundOut K C z (execMateSetReceive src payload s) := by
  unfold execMateSetReceive
  exact .next (setReceive_sound fr h)

theorem execMateOutcomeReceive_sound {_src : Nat} {payload : List Byte}
    (fr : Free K [.regs, .mem, .ledger, .views, .acct, .net, .he, .ev, .outbox, .freeCtr]) (h : Sound K C z s) :
    SoundOut K C z (execMateOutcomeReceive _src payload s) := by
  unfold execMateOutcomeReceive
  exact .next (outcomeReceive_sound fr h)

theorem mateVerdict_sound {p : List Byte}
    (fr : Free K [.regs, .mem, .ledger, .views, .act, .acct, .net, .he, .ev, .outbox, .freeCtr]) (h : Sound K C z s) :
    Sound K C z (mateVerdict p s) := by
  unfold mateVerdict
  exact .ite (fun _ => h) (fun _ => verdictHere_sound fr h)

theorem execMateVerdictReceive_sound {_src : Nat} {payload : List Byte}
    (fr : Free K [.regs, .mem, .ledger, .views, .act, .acct, .net, .he, .ev, .outbox, .freeCtr]) (h : Sound K C z s) :
    SoundOut K C z (execMateVerdictReceive _src payload s) := by
  unfold execMateVerdictReceive
  exact .next (mateVerdict_sound fr h)

theorem execMateWithdrawReceive_sound {_src : Nat} {payload : List Byte}
    (fr : Free K [.regs, .ledger, .views, .net, .he, .outbox]) (h : Sound K C z s) :
    SoundOut K C z (execMateWithdrawReceive _src payload s) := by
  unfold execMateWithdrawReceive
  exact .next (withdrawReceive_sound fr h)

theorem execRemoteWaitExpiry_sound {id : Nat} (fr : Free K [.regs, .ledger, .views, .tiles, .acct, .net, .he, .outbox])
    (h : Sound K C z s) :
    SoundOut K C z (execRemoteWaitExpiry id s) := by
  unfold execRemoteWaitExpiry
  exact .next (withdrawSend_sound fr h)

theorem execViewLoadCal_sound {c : CmdCall} (fr : Free K [.regs, .tables, .net, .toll, .he, .mb, .outbox, .freeCtr])
    (h : Sound K C z s) :
    SoundOut K C z (execViewLoadCal c s) := by
  unfold execViewLoadCal
  exact .next (mbRun_sound (fr.mono rfl) (fun _ _ ht => viewLoadCal_sound (fr.mono rfl) ht) h)

theorem execViewCalRun_sound {c : CmdCall}
    (fr : Free K [.regs, .ledger, .views, .tiles, .acct, .net, .toll, .he, .mb, .outbox, .freeCtr]) (h : Sound K C z s) :
    SoundOut K C z (execViewCalRun c s) := by
  unfold execViewCalRun
  exact .next (mbRun_sound (fr.mono rfl) (fun _ _ ht => viewCalRun_sound (fr.mono rfl) ht) h)

theorem execViewCalRunEnd_sound
    (fr : Free K [.regs, .tables, .ledger, .views, .tiles, .acct, .net, .he, .ev, .mb, .outbox, .freeCtr])
    (h : Sound K C z s) :
    SoundOut K C z (execViewCalRunEnd s) := by
  unfold execViewCalRunEnd
  exact .next (viewCalEnd_sound fr h)

theorem execViewParams_sound {c : CmdCall} (fr : Free K [.regs, .tables, .net, .toll, .he, .mb, .outbox, .freeCtr])
    (h : Sound K C z s) :
    SoundOut K C z (execViewParams c s) := by
  unfold execViewParams
  exact .next (mbRun_sound (fr.mono rfl) (fun _ _ ht => viewParams_sound (fr.mono rfl) ht) h)

theorem execViewTableLoad_sound {c : CmdCall} (fr : Free K [.regs, .tables, .net, .toll, .he, .mb, .outbox, .freeCtr])
    (h : Sound K C z s) :
    SoundOut K C z (execViewTableLoad c s) := by
  unfold execViewTableLoad
  exact .next (mbRun_sound (fr.mono rfl) (fun _ _ ht => viewTableLoad_sound (fr.mono rfl) ht) h)

end Sys2Proof.Machine
end

section
/-! SUPPORT. What each operation of Machine/Eject.lean leaves unchanged (the rules are in Laws/Sound.lean). -/

namespace Sys2Proof.Machine

set_option Elab.async false

variable {K : Comp → Prop} {C : Prop} {z s t : State}

theorem acPut_sound {a : Nat} {v : Nat} (fr : Free K [.regs, .tables, .net, .he, .outbox, .freeCtr]) (h : Sound K C z s) :
    Sound K C z (acPut a v s) := by
  unfold acPut
  exact .ite (fun _ => .ite (fun _ => h) (fun _ => putWord_sound (fr.mono rfl) h)) (fun _ => .ite (fun _ => putWord_sound
    (fr.mono rfl) h) (fun _ => idleReport_sound (fr.mono rfl) (putWord_sound (fr.mono rfl) h)))

theorem ejectLoadCal_sound {x : CmdCall} (fr : Free K [.regs, .tables, .net, .he, .outbox, .freeCtr]) (h : Sound K C z s)
    :
    Sound K C z (ejectLoadCal x s).1 := by
  unfold ejectLoadCal
  split
  · exact h
  · extract_lets s1
    have hs1 : Sound K C z s1 := forEach_sound h (fun _ _ ht => acPut_sound fr ht)
    exact .ite1 (fun _ => h) (fun _ => askXmdls_sound (fr.mono rfl) (sendXmdls_sound (fr.mono rfl) hs1))

theorem ejectCalRun_sound {c : CmdCall} (fr : Free K [.regs, .ledger, .views, .tiles, .acct, .net, .he, .outbox])
    (h : Sound K C z s) :
    Sound K C z (ejectCalRun c s).1 := by
  unfold ejectCalRun
  extract_lets g n r s1 src
  have hs1 : Sound K C z s1 := runGroupOff_sound fr h
  exact .ite1 (fun _ => h) (fun _ => .ite1 (fun _ => h) (fun _ => .ite1 (fun _ => h) (fun _ => .ite1 (fun _ => h) (fun _
    => .setViews (fr.mono rfl) hs1))))

theorem ejectCalEnd_sound
    (fr : Free K [.regs, .tables, .ledger, .views, .tiles, .acct, .net, .he, .ev, .mb, .outbox, .freeCtr])
    (h : Sound K C z s) :
    Sound K C z (ejectCalEnd s) := by
  unfold ejectCalEnd
  split
  · exact h
  · extract_lets ps src s1 ws s2 s3
    have hs1 : Sound K C z s1 := runGroupBack_sound (fr.mono rfl) (.setViews (fr.mono rfl) h)
    have hs2 : Sound K C z s2 := useFree_sound (fr.mono rfl) hs1
    have hs3 : Sound K C z s3 := .ite (fun _ => sendXmdl_sound (fr.mono rfl) (putWords_sound (fr.mono rfl) hs2)) (fun _ =>
        hs2)
    exact .ite (fun _ => endRun_sound (fr.mono rfl) hs1) (fun _ => .ite (fun _ => .ite (fun _ => endRun_sound (fr.mono
      rfl) (calMerge_sound (fr.mono rfl) hs3)) (fun _ => endRun_sound (fr.mono rfl) hs3)) (fun _ => endRun_sound (fr.mono
      rfl) hs3))

theorem ejectTest_sound {c : CmdCall}
    (fr : Free K [.regs, .mem, .ledger, .views, .act, .acct, .net, .he, .ev, .outbox, .freeCtr]) (h : Sound K C z s) :
    Sound K C z (ejectTest c s).1 := by
  unfold ejectTest
  extract_lets rng ps launch
  refine .ite1 (fun _ => h) (fun _ => .ite1 (fun _ => h) (fun _ => .ite1 (fun _ => h) (fun _ => ?_)))
  split
  · exact h
  · extract_lets s1 s2
    have hs1 : Sound K C z s1 := forEach_sound h (fun _ _ ht => cancelOrder_sound fr ht)
    have hs2 : Sound K C z s2 := forEach_sound hs1 (fun _ _ hs => queuePart_sound (fr.mono rfl) hs)
    exact cntAdd_sound (fr.mono rfl) hs2

theorem execEjectLoadCal_sound {c : CmdCall} (fr : Free K [.regs, .tables, .net, .toll, .he, .mb, .outbox, .freeCtr])
    (h : Sound K C z s) :
    SoundOut K C z (execEjectLoadCal c s) := by
  unfold execEjectLoadCal
  exact .next (mbRun_sound (fr.mono rfl) (fun _ _ ht => ejectLoadCal_sound (fr.mono rfl) ht) h)

theorem execEjectCalRun_sound {c : CmdCall}
    (fr : Free K [.regs, .ledger, .views, .tiles, .acct, .net, .toll, .he, .mb, .outbox, .freeCtr]) (h : Sound K C z s) :
    SoundOut K C z (execEjectCalRun c s) := by
  unfold execEjectCalRun
  exact .next (mbRun_sound (fr.mono rfl) (fun _ _ ht => ejectCalRun_sound (fr.mono rfl) ht) h)

theorem execEjectCalRunEnd_sound
    (fr : Free K [.regs, .tables, .ledger, .views, .tiles, .acct, .net, .he, .ev, .mb, .outbox, .freeCtr])
    (h : Sound K C z s) :
    SoundOut K C z (execEjectCalRunEnd s) := by
  unfold execEjectCalRunEnd
  exact .next (ejectCalEnd_sound fr h)

theorem execEjectTest_sound {c : CmdCall}
    (fr : Free K [.regs, .mem, .ledger, .views, .act, .acct, .net, .toll, .he, .ev, .mb, .outbox, .freeCtr])
    (h : Sound K C z s) :
    SoundOut K C z (execEjectTest c s) := by
  unfold execEjectTest
  exact .next (mbRun_sound (fr.mono rfl) (fun _ _ ht => ejectTest_sound (fr.mono rfl) ht) h)

end Sys2Proof.Machine
end

section
/-! SUPPORT. What each operation of Machine/Mailbox.lean leaves unchanged (the rules are in Laws/Sound.lean). -/

namespace Sys2Proof.Machine

set_option Elab.async false

variable {K : Comp → Prop} {C : Prop} {z s t : State}

theorem openRequest_sound {c : Nat} (fr : Free K [.regs]) (h : Sound K C z s) :
    Sound K C z (openRequest c s) := by
  unfold openRequest
  exact .ite (fun _ => fset_sound fr h) (fun _ => h)

theorem clearToken_sound {c : Nat} (fr : Free K [.regs]) (h : Sound K C z s) :
    Sound K C z (clearToken c s) := by
  unfold clearToken
  exact forEach_sound h (fun _ _ ht => wrn_sound fr ht)

theorem tokenBadCount_sound (fr : Free K [.regs, .mb]) (h : Sound K C z s) :
    Sound K C z (tokenBadCount s) := by
  unfold tokenBadCount
  extract_lets n s1 til src
  have hs1 : Sound K C z s1 := cnt_sound (fr.mono rfl) h
  exact .setMb (fr.mono rfl) hs1

theorem mbForget_sound {c : Nat} (fr : Free K [.he, .mb]) (h : Sound K C z s) :
    Sound K C z (mbForget c s) := by
  unfold mbForget
  extract_lets s1 src
  have hs1 : Sound K C z s1 := updChan_sound (fr.mono rfl) h
  exact .setHe (fr.mono rfl) hs1

theorem openRefused_sound {c : Nat} {reason : Nat} (fr : Free K [.regs, .he, .outbox]) (h : Sound K C z s) :
    Sound K C z (openRefused c reason s) := by
  unfold openRefused
  exact evt_sound fr (fset_sound (fr.mono rfl) (fset_sound (fr.mono rfl) h))

theorem channelOpen_sound {c : Nat} {s0 : State} (fr : Free K [.regs, .he, .mb, .outbox]) (hs0 : Sound K C z s0) :
    Sound K C z (channelOpen c s0) := by
  unfold channelOpen
  refine .ite (fun _ => hs0) (fun _ => ?_)
  extract_lets o tok s hi lo okSize zero good s1 src s2 s3
  have hs : Sound K C z s := clearToken_sound (fr.mono rfl) hs0
  have hs1 : Sound K C z s1 := .ite (fun _ => hs) (fun _ => tokenBadCount_sound (fr.mono rfl) hs)
  have hs2 : Sound K C z s2 := updChan_sound (fr.mono rfl) (.setMb (fr.mono rfl) hs1)
  have hs3 : Sound K C z s3 := forEach_sound hs2 (fun _ _ ht => wrn_sound (fr.mono rfl) ht)
  exact .ite (fun _ => openRefused_sound (fr.mono rfl) hs) (fun _ => .ite (fun _ => openRefused_sound (fr.mono rfl) hs)
    (fun _ => .ite (fun _ => openRefused_sound (fr.mono rfl) hs) (fun _ => evt_sound (fr.mono rfl) (wrn_sound (fr.mono
    rfl) hs3))))

theorem doorbell_sound {c : Nat} {tail : Nat} {s0 : State} (fr : Free K [.regs, .toll, .he, .rs, .outbox])
    (hs0 : Sound K C z s0) :
    Sound K C z (doorbell c tail s0) := by
  unfold doorbell
  extract_lets o src s
  have hs : Sound K C z s := .ite (fun _ => .setRs (fr.mono rfl) hs0) (fun _ => hs0)
  exact .ite (fun _ => evt_sound (fr.mono rfl) hs) (fun _ => mbFetch_sound (fr.mono rfl) (wrn_sound (fr.mono rfl) hs))

theorem closeDone_sound {c : Nat} (fr : Free K [.regs, .he, .outbox]) (h : Sound K C z s) :
    Sound K C z (closeDone c s) := by
  unfold closeDone
  extract_lets h'
  exact .ite (fun _ => evt_sound fr (fset_sound (fr.mono rfl) h)) (fun _ => h)

theorem completionWrite_sound {c : Nat} (fr : Free K [.regs, .toll, .he, .mb, .outbox]) (h : Sound K C z s) :
    Sound K C z (completionWrite c s) := by
  unfold completionWrite
  split
  · exact h
  · exact .ite (fun _ => h) (fun _ => .ite (fun _ => tollShort_sound (fr.mono rfl) h) (fun _ => closeDone_sound (fr.mono
      rfl) (cplPut_sound (fr.mono rfl) (updChan_sound (fr.mono rfl) (tollSpend_sound (fr.mono rfl) h)))))

theorem eventDeliver_sound {c : Nat} (fr : Free K [.regs, .toll, .he, .mb, .outbox]) (h : Sound K C z s) :
    Sound K C z (eventDeliver c s) := by
  unfold eventDeliver
  split
  · exact h
  · refine .ite (fun _ => h) (fun _ => .ite (fun _ => tollShort_sound (fr.mono rfl) h) (fun _ => ?_))
    extract_lets lost
    exact closeDone_sound (fr.mono rfl) (cplPut_sound (fr.mono rfl) (updChan_sound (fr.mono rfl) (tollSpend_sound (fr.mono
      rfl) h)))

theorem leaseEnd_sound {reason : Nat} {i : Nat} (fr : Free K [.regs, .mb]) (h : Sound K C z s) :
    Sound K C z (leaseEnd reason i s) := by
  unfold leaseEnd
  refine .ite (fun _ => h) (fun _ => ?_)
  extract_lets c res s1 src s2
  have hs1 : Sound K C z s1 := wrn_sound (fr.mono rfl) h
  have hs2 : Sound K C z s2 := .setMb (fr.mono rfl) hs1
  exact .ite (fun _ => hs2) (fun _ => mbEvent_sound fr hs2)

theorem leaseTime_sound {i : Nat} {ms : Nat} (fr : Free K [.mb]) (h : Sound K C z s) :
    Sound K C z (leaseTime i ms s) := by
  unfold leaseTime
  extract_lets e src
  exact .setMb fr h

theorem runLeaseOpen_sound {c : CmdCall} (fr : Free K [.regs, .mb]) (h : Sound K C z s) :
    Sound K C z (runLeaseOpen c s).1 := by
  unfold runLeaseOpen
  extract_lets func ports ms
  refine .ite1 (fun _ => h) (fun _ => .ite1 (fun _ => h) (fun _ => .ite1 (fun _ => h) (fun _ => .ite1 (fun _ => h) (fun _
    => .ite1 (fun _ => h) (fun _ => ?_)))))
  split
  · exact h
  · extract_lets s1
    have hs1 : Sound K C z s1 := wrn_sound (fr.mono rfl) h
    exact leaseTime_sound (fr.mono rfl) hs1

theorem runLeaseClose_sound {c : CmdCall} (fr : Free K [.regs, .mb]) (h : Sound K C z s) :
    Sound K C z (runLeaseClose c s).1 := by
  unfold runLeaseClose
  exact .ite1 (fun _ => leaseEnd_sound fr h) (fun _ => h)

theorem runLeaseRenew_sound {c : CmdCall} (fr : Free K [.mb]) (h : Sound K C z s) :
    Sound K C z (runLeaseRenew c s).1 := by
  unfold runLeaseRenew
  exact .ite1 (fun _ => h) (fun _ => .ite1 (fun _ => h) (fun _ => leaseTime_sound fr h))

theorem setSlot_sound {i : Nat} {f : FwSlot} (fr : Free K [.ev]) (h : Sound K C z s) :
    Sound K C z (setSlot i f s) := by
  unfold setSlot
  exact .setEv fr h

theorem runFwWrite_sound {c : CmdCall} (fr : Free K [.regs, .toll, .ev, .outbox]) (h : Sound K C z s) :
    Sound K C z (runFwWrite c s).1 := by
  unfold runFwWrite
  extract_lets i
  exact .ite1 (fun _ => h) (fun _ => .ite1 (fun _ => h) (fun _ => .ite1 (fun _ => h) (fun _ => .ite1 (fun _ => h) (fun _
    => emit_sound (fr.mono rfl) (setSlot_sound (fr.mono rfl) (hostRead_sound (fr.mono rfl) h))))))

theorem fwWriteDone_sound {ok : Bool} {x : Nat × Deferred} (fr : Free K [.regs, .net, .he, .ev, .mb, .outbox, .freeCtr])
    (h : Sound K C z s) :
    Sound K C z (fwWriteDone ok x s) := by
  unfold fwWriteDone
  extract_lets i src
  exact endD_sound (fr.mono rfl) (setSlot_sound (fr.mono rfl) h)

theorem runFwActivate_sound {c : CmdCall} (fr : Free K [.regs, .ev]) (h : Sound K C z s) :
    Sound K C z (runFwActivate c s).1 := by
  unfold runFwActivate
  extract_lets i src
  exact .ite1 (fun _ => h) (fun _ => .ite1 (fun _ => h) (fun _ => fset_sound (fr.mono rfl) (.setEv (fr.mono rfl) h)))

theorem runInfo_sound {c : CmdCall} (fr : Free K [.freeCtr]) (h : Sound K C z s) :
    Sound K C z (runInfo c s).1 := by
  unfold runInfo
  extract_lets o own v
  exact .ite (fun _ => h) (fun _ => useFree_sound fr h)

theorem runTokenSet_sound {c : CmdCall} (fr : Free K [.ev, .outbox]) (h : Sound K C z s) :
    Sound K C z (runTokenSet c s).1 := by
  unfold runTokenSet
  extract_lets tok src
  exact .ite1 (fun _ => h) (fun _ => .ite1 (fun _ => h) (fun _ => .ite1 (fun _ => h) (fun _ => confStore_sound fr (.setEv
    (fr.mono rfl) h))))

theorem runEventMask_sound {c : CmdCall} (fr : Free K [.mb]) (h : Sound K C z s) :
    Sound K C z (runEventMask c s).1 := by
  unfold runEventMask
  exact .ite (fun _ => updChan_sound fr h) (fun _ => h)

theorem cwDone_sound {opcode : Nat} {status : Nat} {data : List Nat} (fr : Free K [.regs, .he, .outbox])
    (h : Sound K C z s) :
    Sound K C z (cwDone opcode status data s) := by
  unfold cwDone
  extract_lets s0 s1
  have hs0 : Sound K C z s0 := .ite (fun _ => fbset_sound (fr.mono rfl) h) (fun _ => wrn_sound (fr.mono rfl) h)
  have hs1 : Sound K C z s1 := wrn_sound (fr.mono rfl) hs0
  exact evt_sound fr (forEach_sound hs1 (fun _ _ ht => wrn_sound (fr.mono rfl) ht))

theorem cwVersion_sound (fr : Free K [.regs, .he, .outbox, .freeCtr]) (h : Sound K C z s) :
    Sound K C z (cwVersion s) := by
  unfold cwVersion
  refine .ite (fun _ => h) (fun _ => ?_)
  extract_lets fw
  exact cwDone_sound (fr.mono rfl) (useFree_sound (fr.mono rfl) h)

theorem cwStatus_sound (fr : Free K [.regs, .he, .outbox]) (h : Sound K C z s) :
    Sound K C z (cwStatus s) := by
  unfold cwStatus
  exact .ite (fun _ => cwDone_sound fr h) (fun _ => h)

theorem startImage_sound {booted : Nat} {f : FwSlot} (fr : Free K [.regs, .rs]) (h : Sound K C z s) :
    Sound K C z (startImage booted f s) := by
  unfold startImage
  extract_lets release s1 s2 s3 src
  have hs1 : Sound K C z s1 := wrn_sound (fr.mono rfl) h
  have hs2 : Sound K C z s2 := fset_sound (fr.mono rfl) hs1
  have hs3 : Sound K C z s3 := .ite (fun _ => fset_sound (fr.mono rfl) hs2) (fun _ => hs2)
  exact .setRs (fr.mono rfl) hs3

theorem fwLoad_sound {sigOk : Bool} {check : ReadCheck} {at_ : Nat} {s0 : State}
    (fr : Free K [.regs, .mem, .net, .pa, .he, .ev, .mb, .rs, .outbox]) (hs0 : Sound K C z s0) :
    Sound K C z (fwLoad sigOk check at_ s0) := by
  unfold fwLoad
  extract_lets s img act i res s1 src
  have hs : Sound K C z s := lp5Check_sound (fr.mono rfl) hs0
  have hs1 : Sound K C z s1 := fbset_sound (fr.mono rfl) (.ite (fun _ => hs) (fun _ => wrn_sound (fr.mono rfl) hs))
  exact .ite (fun _ => hs0) (fun _ => .ite (fun _ => cwDone_sound (fr.mono rfl) hs0) (fun _ => .ite (fun _ => cwDone_sound
    (fr.mono rfl) hs0) (fun _ => .ite (fun _ => cwDone_sound (fr.mono rfl) hs0) (fun _ => .ite (fun _ => cwDone_sound
    (fr.mono rfl) hs) (fun _ => .ite (fun _ => .ite (fun _ => cwDone_sound (fr.mono rfl) hs) (fun _ => emit_sound (fr.mono
    rfl) (setSlot_sound (fr.mono rfl) (.setMb (fr.mono rfl) hs1)))) (fun _ => .ite (fun _ => cwDone_sound (fr.mono rfl)
    (startImage_sound (fr.mono rfl) hs)) (fun _ => cwDone_sound (fr.mono rfl) hs)))))))

theorem fwLoadDone_sound {ok : Bool} (fr : Free K [.regs, .he, .ev, .mb, .outbox]) (h : Sound K C z s) :
    Sound K C z (fwLoadDone ok s) := by
  unfold fwLoadDone
  split
  · exact h
  · extract_lets src src' s1
    have hs1 : Sound K C z s1 := setSlot_sound (fr.mono rfl) (.setMb (fr.mono rfl) h)
    exact cwDone_sound (fr.mono rfl) hs1

theorem execChannelOpenRequest_sound {ch : ChanNo} (fr : Free K [.regs]) (h : Sound K C z s) :
    SoundOut K C z (execChannelOpenRequest ch s) := by
  unfold execChannelOpenRequest
  exact .next (openRequest_sound fr h)

theorem execChannelOpen_sound {ch : ChanNo} (fr : Free K [.regs, .he, .mb, .outbox]) (h : Sound K C z s) :
    SoundOut K C z (execChannelOpen ch s) := by
  unfold execChannelOpen
  exact .next (channelOpen_sound fr h)

theorem execCompletionWrite_sound {ch : ChanNo} (fr : Free K [.regs, .toll, .he, .mb, .outbox]) (h : Sound K C z s) :
    SoundOut K C z (execCompletionWrite ch s) := by
  unfold execCompletionWrite
  exact .next (completionWrite_sound fr h)

theorem execEventDeliver_sound {ch : ChanNo} (fr : Free K [.regs, .toll, .he, .mb, .outbox]) (h : Sound K C z s) :
    SoundOut K C z (execEventDeliver ch s) := by
  unfold execEventDeliver
  exact .next (eventDeliver_sound fr h)

theorem execLeaseExpiry_sound {lease : Fin 32} (fr : Free K [.regs, .mb]) (h : Sound K C z s) :
    SoundOut K C z (execLeaseExpiry lease s) := by
  unfold execLeaseExpiry
  exact .next (.ite (fun _ => leaseEnd_sound fr h) (fun _ => h))

theorem execInfo_sound {c : CmdCall} (fr : Free K [.regs, .net, .toll, .he, .mb, .outbox, .freeCtr]) (h : Sound K C z s) :
    SoundOut K C z (execInfo c s) := by
  unfold execInfo
  exact .next (mbRun_sound fr (fun _ _ ht => runInfo_sound (fr.mono rfl) ht) h)

theorem execExpertTokenSet_sound {c : CmdCall} (fr : Free K [.regs, .net, .toll, .he, .ev, .mb, .outbox, .freeCtr])
    (h : Sound K C z s) :
    SoundOut K C z (execExpertTokenSet c s) := by
  unfold execExpertTokenSet
  exact .next (mbRun_sound (fr.mono rfl) (fun _ _ ht => runTokenSet_sound (fr.mono rfl) ht) h)

theorem execFwWrite_sound {c : CmdCall} (fr : Free K [.regs, .net, .toll, .he, .ev, .mb, .outbox, .freeCtr])
    (h : Sound K C z s) :
    SoundOut K C z (execFwWrite c s) := by
  unfold execFwWrite
  exact .next (mbRun_sound (fr.mono rfl) (fun _ _ ht => runFwWrite_sound (fr.mono rfl) ht) h)

theorem execFwActivate_sound {c : CmdCall} (fr : Free K [.regs, .net, .toll, .he, .ev, .mb, .outbox, .freeCtr])
    (h : Sound K C z s) :
    SoundOut K C z (execFwActivate c s) := by
  unfold execFwActivate
  exact .next (mbRun_sound (fr.mono rfl) (fun _ _ ht => runFwActivate_sound (fr.mono rfl) ht) h)

theorem execEventMask_sound {c : CmdCall} (fr : Free K [.regs, .net, .toll, .he, .mb, .outbox, .freeCtr])
    (h : Sound K C z s) :
    SoundOut K C z (execEventMask c s) := by
  unfold execEventMask
  exact .next (mbRun_sound fr (fun _ _ ht => runEventMask_sound (fr.mono rfl) ht) h)

theorem execLeaseOpen_sound {c : CmdCall} (fr : Free K [.regs, .net, .toll, .he, .mb, .outbox, .freeCtr])
    (h : Sound K C z s) :
    SoundOut K C z (execLeaseOpen c s) := by
  unfold execLeaseOpen
  exact .next (mbRun_sound fr (fun _ _ ht => runLeaseOpen_sound (fr.mono rfl) ht) h)

theorem execLeaseClose_sound {c : CmdCall} (fr : Free K [.regs, .net, .toll, .he, .mb, .outbox, .freeCtr])
    (h : Sound K C z s) :
    SoundOut K C z (execLeaseClose c s) := by
  unfold execLeaseClose
  exact .next (mbRun_sound fr (fun _ _ ht => runLeaseClose_sound (fr.mono rfl) ht) h)

theorem execLeaseRenew_sound {c : CmdCall} (fr : Free K [.regs, .net, .toll, .he, .mb, .outbox, .freeCtr])
    (h : Sound K C z s) :
    SoundOut K C z (execLeaseRenew c s) := by
  unfold execLeaseRenew
  exact .next (mbRun_sound fr (fun _ _ ht => runLeaseRenew_sound (fr.mono rfl) ht) h)

theorem execCwVersion_sound (fr : Free K [.regs, .he, .outbox, .freeCtr]) (h : Sound K C z s) :
    SoundOut K C z (execCwVersion s) := by
  unfold execCwVersion
  exact .next (cwVersion_sound fr h)

theorem execCwStatus_sound (fr : Free K [.regs, .he, .outbox]) (h : Sound K C z s) :
    SoundOut K C z (execCwStatus s) := by
  unfold execCwStatus
  exact .next (cwStatus_sound fr h)

theorem execFwLoad_sound {sigOk : Bool} {check : ReadCheck} {addr : Nat}
    (fr : Free K [.regs, .mem, .net, .pa, .he, .ev, .mb, .rs, .outbox]) (h : Sound K C z s) :
    SoundOut K C z (execFwLoad sigOk check addr s) := by
  unfold execFwLoad
  exact .next (fwLoad_sound fr h)

end Sys2Proof.Machine
end

section
/-! SUPPORT. What each operation of Machine/Settings.lean leaves unchanged (the rules are in Laws/Sound.lean). -/

namespace Sys2Proof.Machine

set_option Elab.async false

variable {K : Comp → Prop} {C : Prop} {z s t : State}

theorem setSlotState_sound {p : Nat} {k : Nat} {st : Nat} (fr : Free K [.regs]) (h : Sound K C z s) :
    Sound K C z (setSlotState p k st s) := by
  unfold setSlotState
  extract_lets s1 f
  have hs1 : Sound K C z s1 := fset_sound fr h
  have hf : ∀ t, Sound K C z t → ∀ x1 x2, Sound K C z (f t x1 x2) := fun _ ht _ _ => fset_sound fr ht
  exact hf _ (hf _ (hf _ hs1 _ _) _ _) _ _

theorem updSlot_sound {p : Nat} {k : Nat} {f : SetSlot → SetSlot} (fr : Free K [.ports]) (h : Sound K C z s) :
    Sound K C z (updSlot p k f s) := by
  unfold updSlot
  exact updPort_sound fr h

theorem slotAdvance_sound {p : Nat} {k : Nat} (fr : Free K [.regs, .he, .outbox]) (h : Sound K C z s) :
    Sound K C z (slotAdvance p k s) := by
  unfold slotAdvance
  extract_lets cur wf d live first s1 s2
  have hs1 : Sound K C z s1 := wrn_sound (fr.mono rfl) h
  have hs2 : Sound K C z s2 := .ite (fun _ => hs1) (fun _ => cnt_sound (fr.mono rfl) hs1)
  exact .ite (fun _ => h) (fun _ => evt_sound fr (fbset_sound (fr.mono rfl) hs2))

theorem slotsAdvance_sound {p : Nat} (fr : Free K [.regs, .he, .outbox]) (h : Sound K C z s) :
    Sound K C z (slotsAdvance p s) := by
  unfold slotsAdvance
  exact forEach_sound h (fun _ _ hs => slotAdvance_sound fr hs)

theorem sendApplied_sound {rep : Option CmdCall} {bytes : List Byte}
    (fr : Free K [.regs, .net, .he, .mb, .outbox, .freeCtr]) (h : Sound K C z s) :
    Sound K C z (sendApplied rep bytes s) := by
  unfold sendApplied
  split
  · exact cnt_sound (fr.mono rfl) h
  · exact eventFor_sound fr h

theorem slotEnd_sound {p : Nat} {k : Nat} {status : Nat} {frame : Nat} {fs : Nat}
    (fr : Free K [.regs, .ports, .net, .he, .mb, .outbox, .freeCtr]) (h : Sound K C z s) :
    Sound K C z (slotEnd p k status frame fs s) := by
  unfold slotEnd
  extract_lets b rep s1
  have hs1 : Sound K C z s1 := setSlotState_sound (fr.mono rfl) h
  exact .ite (fun _ => updPort_sound (fr.mono rfl) hs1) (fun _ => sendApplied_sound (fr.mono rfl) hs1)

theorem heldFlush_sound {p : Nat} (fr : Free K [.regs, .ports, .net, .he, .mb, .outbox, .freeCtr]) (h : Sound K C z s) :
    Sound K C z (heldFlush p s) := by
  unfold heldFlush
  exact forEach_sound (updPort_sound (fr.mono rfl) h) (fun _ _ ht => sendApplied_sound (fr.mono rfl) ht)

theorem updTw_sound {b : Nat} {f : TwSt → TwSt} (fr : Free K [.tw]) (h : Sound K C z s) :
    Sound K C z (updTw s b f) := by
  unfold updTw
  exact .setTw fr h

theorem twDrop_sound {p : Nat} {k : Nat} (fr : Free K [.tw]) (h : Sound K C z s) :
    Sound K C z (twDrop p k s) := by
  unfold twDrop
  exact .setTw fr h

theorem twStop_sound {b : Nat} (fr : Free K [.regs, .tw]) (h : Sound K C z s) :
    Sound K C z (twStop b s) := by
  unfold twStop
  exact updTw_sound (fr.mono rfl) (fbset_sound (fr.mono rfl) h)

theorem twRelease_sound {p : Nat} {k : Nat} (fr : Free K [.regs, .tw]) (h : Sound K C z s) :
    Sound K C z (twRelease p k s) := by
  unfold twRelease
  refine forEach_sound h (fun b t ht => .ite (fun _ => ?_) (fun _ => ht))
  extract_lets on t1
  have ht1 : Sound K C z t1 := updTw_sound (fr.mono rfl) ht
  exact .ite (fun _ => twStop_sound fr (fbset_sound (fr.mono rfl) ht1)) (fun _ => ht1)

theorem slotCancel_sound {p : Nat} {k : Nat} (fr : Free K [.regs, .ports, .tw, .net, .he, .mb, .outbox, .freeCtr])
    (h : Sound K C z s) :
    Sound K C z (slotCancel p k s) := by
  unfold slotCancel
  extract_lets s1
  have hs1 : Sound K C z s1 := evtCnt_sound (fr.mono rfl) (twDrop_sound (fr.mono rfl) h)
  exact slotEnd_sound (fr.mono rfl) hs1

theorem slotsCancel_sound {p : Nat} (fr : Free K [.regs, .ports, .tw, .net, .he, .mb, .outbox, .freeCtr])
    (h : Sound K C z s) :
    Sound K C z (slotsCancel p s) := by
  unfold slotsCancel
  exact forEach_sound h (fun _ _ ht => .ite (fun _ => ht) (fun _ => slotCancel_sound fr ht))

theorem slotsOrphan_sound {c : Nat} (fr : Free K [.ports]) (h : Sound K C z s) :
    Sound K C z (slotsOrphan c s) := by
  unfold slotsOrphan
  extract_lets gone
  exact .setPorts fr h

theorem slotArm_sound {p : Nat} {k : Nat} {rep : Option CmdCall} (fr : Free K [.regs, .ports, .armCtr, .he, .outbox])
    (h : Sound K C z s) :
    Sound K C z (slotArm p k rep s) := by
  unfold slotArm
  refine .ite (fun _ => h) (fun _ => ?_)
  extract_lets o g s1 s2 s3
  have hs1 : Sound K C z s1 := fset_sound (fr.mono rfl) h
  have hs2 : Sound K C z s2 := fset_sound (fr.mono rfl) (fset_sound (fr.mono rfl) (fbset_sound (fr.mono rfl) (fbset_sound
      (fr.mono rfl) hs1)))
  have hs3 : Sound K C z s3 := updSlot_sound (fr.mono rfl) (wrn_sound (fr.mono rfl) hs2)
  exact slotsAdvance_sound (fr.mono rfl) (setSlotState_sound (fr.mono rfl) (.setArmCtr (fr.mono rfl) hs3))

theorem slotSend_sound {b : Nat} (fr : Free K [.regs, .ports, .tw]) (h : Sound K C z s) :
    Sound K C z (slotSend b s) := by
  unfold slotSend
  refine .ite (fun _ => h) (fun _ => ?_)
  split
  · exact h
  · extract_lets n s1
    have hs1 : Sound K C z s1 := updSlot_sound (fr.mono rfl) h
    exact .ite (fun _ => setSlotState_sound (fr.mono rfl) h) (fun _ => updTw_sound (fr.mono rfl) (setSlotState_sound
      (fr.mono rfl) hs1))

theorem slotAgain_sound {p : Nat} {k : Nat} (fr : Free K [.regs, .he, .outbox]) (h : Sound K C z s) :
    Sound K C z (slotAgain p k s) := by
  unfold slotAgain
  exact slotAdvance_sound fr (setSlotState_sound (fr.mono rfl) (wrn_sound (fr.mono rfl) h))

theorem settingDone_sound {p : Nat} {k : Nat} (fr : Free K [.regs, .ports, .tw, .he, .outbox]) (h : Sound K C z s) :
    Sound K C z (settingDone p k s) := by
  unfold settingDone
  refine .ite (fun _ => h) (fun _ => ?_)
  extract_lets s1 s2 s3
  have hs1 : Sound K C z s1 := twRelease_sound (fr.mono rfl) h
  have hs2 : Sound K C z s2 := updSlot_sound (fr.mono rfl) hs1
  have hs3 : Sound K C z s3 := evtCnt_sound (fr.mono rfl) (fbset_sound (fr.mono rfl) hs2)
  exact .ite (fun _ => setSlotState_sound (fr.mono rfl) (wrn_sound (fr.mono rfl) hs1)) (fun _ => slotAgain_sound (fr.mono
    rfl) hs3)

theorem settingFail_sound {p : Nat} {k : Nat} (fr : Free K [.regs, .ports, .tw, .net, .he, .mb, .outbox, .freeCtr])
    (h : Sound K C z s) :
    Sound K C z (settingFail p k s) := by
  unfold settingFail
  refine .ite (fun _ => h) (fun _ => ?_)
  extract_lets s1 n
  have hs1 : Sound K C z s1 := twRelease_sound (fr.mono rfl) h
  exact .ite (fun _ => slotAgain_sound (fr.mono rfl) (fset_sound (fr.mono rfl) hs1)) (fun _ => slotEnd_sound (fr.mono rfl)
    (evtCnt_sound (fr.mono rfl) hs1))

theorem compSwitch_sound {p : Nat} {f : Nat} {fs : Nat} (fr : Free K [.regs, .ports, .net, .he, .mb, .outbox, .freeCtr])
    (h : Sound K C z s) :
    Sound K C z (compSwitch p f fs s) := by
  unfold compSwitch
  extract_lets l
  split
  · exact h
  · extract_lets o s1 s2
    have hs1 : Sound K C z s1 := wrn_sound (fr.mono rfl) (wrn_sound (fr.mono rfl) (wrn_sound (fr.mono rfl) h))
    have hs2 : Sound K C z s2 := fset_sound (fr.mono rfl) hs1
    exact forEach_sound hs2 (fun _ _ ht => .ite (fun _ => slotEnd_sound fr (evt_sound (fr.mono rfl) ht)) (fun _ =>
      slotEnd_sound fr (evtCnt_sound (fr.mono rfl) ht)))

theorem embeddedCheck_sound {p : Nat} {data : List Byte} {written : Nat}
    (fr : Free K [.regs, .ports, .net, .he, .mb, .outbox, .freeCtr]) (h : Sound K C z s) :
    Sound K C z (embeddedCheck p data written s) := by
  unfold embeddedCheck
  refine .ite (fun _ => h) (fun _ => ?_)
  extract_lets g mark s1
  have hs1 : Sound K C z s1 := updPort_sound (fr.mono rfl) h
  exact .ite (fun _ => heldFlush_sound fr h) (fun _ => heldFlush_sound fr (evtCnt_sound (fr.mono rfl) hs1))

theorem slotCtl_sound {p : Nat} {k : Nat} {v : Nat} {rep : Option CmdCall}
    (fr : Free K [.regs, .ports, .armCtr, .tw, .net, .he, .mb, .outbox, .freeCtr]) (h : Sound K C z s) :
    Sound K C z (slotCtl p k v rep s) := by
  unfold slotCtl
  extract_lets st s1
  have hs1 : Sound K C z s1 := fset_sound (fr.mono rfl) h
  exact .ite (fun _ => .ite (fun _ => slotArm_sound (fr.mono rfl) hs1) (fun _ => hs1)) (fun _ => .ite (fun _ =>
    slotCancel_sound (fr.mono rfl) h) (fun _ => h))

theorem scPut_sound {a : Nat} {v : Nat} {rep : Option CmdCall}
    (fr : Free K [.regs, .tables, .ports, .armCtr, .tw, .net, .he, .mb, .outbox, .freeCtr]) (h : Sound K C z s) :
    Sound K C z (scPut a v rep s) := by
  unfold scPut
  extract_lets p o s1 k
  have hs1 : Sound K C z s1 := fset_sound (fr.mono rfl) h
  exact .ite (fun _ => .ite (fun _ => hs1) (fun _ => fset_sound (fr.mono rfl) hs1)) (fun _ => .ite (fun _ => .ite (fun _
    => slotCtl_sound (fr.mono rfl) h) (fun _ => .ite (fun _ => putWord_sound (fr.mono rfl) h) (fun _ => h))) (fun _ =>
    .ite (fun _ => .ite (fun _ => putWord_sound (fr.mono rfl) h) (fun _ => h)) (fun _ => putWord_sound (fr.mono rfl) h)))

theorem execSlotArm_sound {ag : Agent} {port : PortNo} {slot : Fin 8} (fr : Free K [.regs, .ports, .armCtr, .he, .outbox])
    (h : Sound K C z s) :
    SoundOut K C z (execSlotArm ag port slot s) := by
  unfold execSlotArm
  exact .next (gated_sound (fr.mono rfl) (fun _ ht => slotArm_sound fr ht) h)

theorem execSlotCancel_sound {ag : Agent} {port : PortNo} {slot : Fin 8}
    (fr : Free K [.regs, .ports, .tw, .net, .he, .mb, .outbox, .freeCtr]) (h : Sound K C z s) :
    SoundOut K C z (execSlotCancel ag port slot s) := by
  unfold execSlotCancel
  exact .next (gated_sound (fr.mono rfl) (fun _ ht => .ite (fun _ => slotCancel_sound fr ht) (fun _ => ht)) h)

theorem execSlotSendStart_sound {bus : Fin 4} (fr : Free K [.regs, .ports, .tw]) (h : Sound K C z s) :
    SoundOut K C z (execSlotSendStart bus s) := by
  unfold execSlotSendStart
  exact .next (slotSend_sound fr h)

theorem execSettingWriteDone_sound {port : PortNo} {slot : Fin 8} (fr : Free K [.regs, .ports, .tw, .he, .outbox])
    (h : Sound K C z s) :
    SoundOut K C z (execSettingWriteDone port slot s) := by
  unfold execSettingWriteDone
  exact .next (settingDone_sound fr h)

theorem execSettingWriteFail_sound {port : PortNo} {slot : Fin 8}
    (fr : Free K [.regs, .ports, .tw, .net, .he, .mb, .outbox, .freeCtr]) (h : Sound K C z s) :
    SoundOut K C z (execSettingWriteFail port slot s) := by
  unfold execSettingWriteFail
  exact .next (settingFail_sound fr h)

theorem execEmbeddedDataCheck_sound {port : PortNo} {data : List Byte} {written : BitVec 16}
    (fr : Free K [.regs, .ports, .net, .he, .mb, .outbox, .freeCtr]) (h : Sound K C z s) :
    SoundOut K C z (execEmbeddedDataCheck port data written s) := by
  unfold execEmbeddedDataCheck
  exact .next (embeddedCheck_sound fr h)

theorem execWriteWindowClose_sound {port : PortNo} (fr : Free K [.regs, .he, .outbox]) (h : Sound K C z s) :
    SoundOut K C z (execWriteWindowClose port s) := by
  unfold execWriteWindowClose
  exact .next (slotsAdvance_sound fr h)

theorem armRequest_sound {c : CmdCall} {write : List Byte} {blk01 : Nat} {blk23 : Nat} {scale : Nat}
    (fr : Free K [.regs, .ports, .armCtr, .he, .outbox]) (h : Sound K C z s) :
    Sound K C z (armRequest c write blk01 blk23 scale s).1 := by
  unfold armRequest
  extract_lets p f
  refine .ite1 (fun _ => h) (fun _ => .ite1 (fun _ => h) (fun _ => ?_))
  split
  · exact h
  · refine .ite1 (fun _ => h) (fun _ => ?_)
    extract_lets o s1 s2 s3 s4
    have hs1 : Sound K C z s1 := forEach_sound h (fun _ _ ht => wrn_sound (fr.mono rfl) ht)
    have hs2 : Sound K C z s2 := wrn_sound (fr.mono rfl) (wrn_sound (fr.mono rfl) (wrn_sound (fr.mono rfl) hs1))
    have hs3 : Sound K C z s3 := fset_sound (fr.mono rfl) (wrn_sound (fr.mono rfl) (wrn_sound (fr.mono rfl) hs2))
    have hs4 : Sound K C z s4 := slotArm_sound fr hs3
    exact hs4

theorem runSettingForFrame_sound {c : CmdCall} (fr : Free K [.regs, .ports, .armCtr, .he, .outbox]) (h : Sound K C z s) :
    Sound K C z (runSettingForFrame c s).1 := by
  unfold runSettingForFrame
  extract_lets n norm
  exact armRequest_sound fr h

theorem execSettingForFrame_sound {c : CmdCall}
    (fr : Free K [.regs, .ports, .armCtr, .net, .toll, .he, .mb, .outbox, .freeCtr]) (h : Sound K C z s) :
    SoundOut K C z (execSettingForFrame c s) := by
  unfold execSettingForFrame
  exact .next (mbRun_sound (fr.mono rfl) (fun _ _ ht => runSettingForFrame_sound (fr.mono rfl) ht) h)

theorem runSettingRawForFrame_sound {c : CmdCall} (fr : Free K [.regs, .ports, .armCtr, .he, .outbox]) (h : Sound K C z s)
    :
    Sound K C z (runSettingRawForFrame c s).1 := by
  unfold runSettingRawForFrame
  extract_lets n w
  exact .ite1 (fun _ => h) (fun _ => .ite1 (fun _ => h) (fun _ => armRequest_sound fr h))

theorem execSettingRawForFrame_sound {c : CmdCall}
    (fr : Free K [.regs, .ports, .armCtr, .net, .toll, .he, .mb, .outbox, .freeCtr]) (h : Sound K C z s) :
    SoundOut K C z (execSettingRawForFrame c s) := by
  unfold execSettingRawForFrame
  exact .next (mbRun_sound (fr.mono rfl) (fun _ _ ht => runSettingRawForFrame_sound (fr.mono rfl) ht) h)

theorem runSettingCancel_sound {c : CmdCall} (fr : Free K [.regs, .ports, .tw, .net, .he, .mb, .outbox, .freeCtr])
    (h : Sound K C z s) :
    Sound K C z (runSettingCancel c s).1 := by
  unfold runSettingCancel
  extract_lets p
  refine .ite1 (fun _ => h) (fun _ => ?_)
  split
  · exact h
  · exact .ite1 (fun _ => slotCancel_sound fr h) (fun _ => h)

theorem execSettingCancel_sound {c : CmdCall} (fr : Free K [.regs, .ports, .tw, .net, .toll, .he, .mb, .outbox, .freeCtr])
    (h : Sound K C z s) :
    SoundOut K C z (execSettingCancel c s) := by
  unfold execSettingCancel
  exact .next (mbRun_sound (fr.mono rfl) (fun _ _ ht => runSettingCancel_sound (fr.mono rfl) ht) h)

theorem runLatencyProfileSet_sound {c : CmdCall} (fr : Free K [.regs, .tables, .he, .outbox]) (h : Sound K C z s) :
    Sound K C z (runLatencyProfileSet c s).1 := by
  unfold runLatencyProfileSet
  extract_lets p s1 s2
  have hs1 : Sound K C z s1 := putWord_sound fr h
  have hs2 : Sound K C z s2 := .ite (fun _ => fset_sound (fr.mono rfl) hs1) (fun _ => fset_sound (fr.mono rfl) hs1)
  exact .ite1 (fun _ => h) (fun _ => .ite1 (fun _ => h) (fun _ => .ite1 (fun _ => h) (fun _ => fset_sound (fr.mono rfl)
    (wrn_sound (fr.mono rfl) hs2))))

theorem execLatencyProfileSet_sound {c : CmdCall} (fr : Free K [.regs, .tables, .net, .toll, .he, .mb, .outbox, .freeCtr])
    (h : Sound K C z s) :
    SoundOut K C z (execLatencyProfileSet c s) := by
  unfold execLatencyProfileSet
  exact .next (mbRun_sound (fr.mono rfl) (fun _ _ ht => runLatencyProfileSet_sound (fr.mono rfl) ht) h)

end Sys2Proof.Machine
end

section
/-! SUPPORT. What each operation of Machine/TwoWire.lean leaves unchanged (the rules are in Laws/Sound.lean). -/

namespace Sys2Proof.Machine

set_option Elab.async false

variable {K : Comp → Prop} {C : Prop} {z s t : State}

theorem twRamPut_sound {b : Nat} {i : Nat} {v : Nat} (fr : Free K [.regs]) (h : Sound K C z s) :
    Sound K C z (twRamPut b i v s) := by
  unfold twRamPut
  extract_lets a
  exact wrn_sound fr h

theorem twCmdEnd_sound {b : Nat} {status : Nat} {wdone : Nat} {rdone : Nat} {data : List Byte}
    (fr : Free K [.regs, .tw, .net, .he, .mb, .outbox, .freeCtr]) (h : Sound K C z s) :
    Sound K C z (twCmdEnd b status wdone rdone data s) := by
  unfold twCmdEnd
  extract_lets o t s1 s2 s3
  have hs1 : Sound K C z s1 := fset_sound (fr.mono rfl) (fset_sound (fr.mono rfl) (fset_sound (fr.mono rfl) (fset_sound
      (fr.mono rfl) h)))
  have hs2 : Sound K C z s2 := evt_sound (fr.mono rfl) (fbset_sound (fr.mono rfl) hs1)
  have hs3 : Sound K C z s3 := updTw_sound (fr.mono rfl) hs2
  exact forEach_sound hs3 (fun _ _ hu => endD_sound (fr.mono rfl) hu)

theorem twGo_sound {b : Nat} (fr : Free K [.regs, .tw, .net, .he, .mb, .outbox, .freeCtr]) (h : Sound K C z s) :
    Sound K C z (twGo b s) := by
  unfold twGo
  refine .ite (fun _ => h) (fun _ => ?_)
  extract_lets s1
  have hs1 : Sound K C z s1 := updTw_sound (fr.mono rfl) h
  exact .ite (fun _ => twCmdEnd_sound fr hs1) (fun _ => fbset_sound (fr.mono rfl) hs1)

theorem twStart_sound {b : Nat} {s0 : State} (fr : Free K [.regs, .ports, .tw, .outbox]) (hs0 : Sound K C z s0) :
    Sound K C z (twStart b s0) := by
  unfold twStart
  refine .ite (fun _ => hs0) (fun _ => ?_)
  extract_lets s r wire s1
  have hs : Sound K C z s := .ite (fun _ => slotSend_sound (fr.mono rfl) hs0) (fun _ => hs0)
  have hs1 : Sound K C z s1 := updTw_sound (fr.mono rfl) hs
  exact .ite (fun _ => hs) (fun _ => emit_sound (fr.mono rfl) (fbset_sound (fr.mono rfl) (fbset_sound (fr.mono rfl) hs1)))

theorem twFinish_sound {b : Nat} {status : Nat} {wdone : Nat} {rdone : Nat} {data : List Byte}
    (fr : Free K [.regs, .ports, .tw, .net, .he, .mb, .outbox, .freeCtr]) (h : Sound K C z s) :
    Sound K C z (twFinish b status wdone rdone data s) := by
  unfold twFinish
  extract_lets t s1 s2
  have hs1 : Sound K C z s1 := updTw_sound (fr.mono rfl) (fbset_sound (fr.mono rfl) h)
  have hs2 : Sound K C z s2 := updTw_sound (fr.mono rfl) hs1
  split
  · exact h
  · exact hs1
  · exact twCmdEnd_sound (fr.mono rfl) hs1
  · exact .ite (fun _ => settingFail_sound fr hs2) (fun _ => .ite (fun _ => settingDone_sound (fr.mono rfl) hs2) (fun _ =>
      updTw_sound (fr.mono rfl) hs2))

theorem twArbLoss_sound {b : Nat} {byte : Nat} {bitNo : Nat}
    (fr : Free K [.regs, .ports, .tw, .net, .he, .mb, .outbox, .freeCtr]) (h : Sound K C z s) :
    Sound K C z (twArbLoss b byte bitNo s) := by
  unfold twArbLoss
  extract_lets o t s1 s2
  have hs1 : Sound K C z s1 := fset_sound (fr.mono rfl) (fset_sound (fr.mono rfl) (fbset_sound (fr.mono rfl) h))
  have hs2 : Sound K C z s2 := evtCnt_sound (fr.mono rfl) hs1
  exact .ite (fun _ => h) (fun _ => .ite (fun _ => updTw_sound (fr.mono rfl) (fbset_sound (fr.mono rfl) hs2)) (fun _ =>
    twFinish_sound fr hs2))

theorem twRx_sound {b : Nat} {l : List Byte} (fr : Free K [.regs]) (h : Sound K C z s) :
    Sound K C z (twRx b l s) := by
  unfold twRx
  refine forEach_sound h (fun x t ht => ?_)
  extract_lets a
  exact wrn_sound fr ht

theorem twDone_sound {b : Nat} {seen : List Byte} {pecByte : Option Nat}
    (fr : Free K [.regs, .ports, .tw, .net, .he, .mb, .outbox, .freeCtr]) (h : Sound K C z s) :
    Sound K C z (twDone b seen pecByte s) := by
  unfold twDone
  refine .ite (fun _ => twFinish_sound fr h) (fun _ => ?_)
  extract_lets data wdone s1 full r s2 ok
  have hs1 : Sound K C z s1 := twRx_sound (fr.mono rfl) h
  have hs2 : Sound K C z s2 := .ite (fun _ => useFree_sound (fr.mono rfl) hs1) (fun _ => hs1)
  exact .ite (fun _ => twFinish_sound fr hs2) (fun _ => twFinish_sound fr (evtCnt_sound (fr.mono rfl) hs2))

theorem twEnd_sound {b : Nat} {acked : Nat} {e : TwWireEnd}
    (fr : Free K [.regs, .ports, .tw, .net, .he, .mb, .outbox, .freeCtr]) (h : Sound K C z s) :
    Sound K C z (twEnd b acked e s) := by
  unfold twEnd
  extract_lets wdone
  refine .ite (fun _ => h) (fun _ => .ite (fun _ => twFinish_sound fr (twStop_sound (fr.mono rfl) h)) (fun _ => ?_))
  split
  · exact twDone_sound fr (twStop_sound (fr.mono rfl) h)
  · exact twFinish_sound fr (cnt_sound (fr.mono rfl) (twStop_sound (fr.mono rfl) h))
  · exact twFinish_sound fr (cnt_sound (fr.mono rfl) (twStop_sound (fr.mono rfl) h))
  · exact twArbLoss_sound fr h
  · exact twFinish_sound fr (evtCnt_sound (fr.mono rfl) h)

theorem twDiscard_sound {b : Nat} (fr : Free K [.regs, .he, .outbox]) (h : Sound K C z s) :
    Sound K C z (twDiscard b s) := by
  unfold twDiscard
  exact evtCnt_sound fr h

theorem twCommit_sound {b : Nat} {rec : List Byte} (fr : Free K [.regs, .queues, .he, .outbox]) (h : Sound K C z s) :
    Sound K C z (twCommit b rec s) := by
  unfold twCommit
  exact evt_sound (fr.mono rfl) (quWrite_sound fr h)

theorem twWrite_sound {b : Nat} {a : Nat} {a1 : Bool} {l : List Byte} {cl : TwClose}
    (fr : Free K [.regs, .tw, .queues, .he, .outbox]) (h : Sound K C z s) :
    Sound K C z (twWrite b a a1 l cl s) := by
  unfold twWrite
  refine .ite (fun _ => twDiscard_sound (fr.mono rfl) (fbset_sound (fr.mono rfl) h)) (fun _ => .ite (fun _ =>
    twDiscard_sound (fr.mono rfl) h) (fun _ => ?_))
  split
  · exact twCommit_sound (fr.mono rfl) h
  · extract_lets e s1
    have hs1 : Sound K C z s1 := twDiscard_sound (fr.mono rfl) h
    split
    · exact .ite (fun _ => updTw_sound (fr.mono rfl) hs1) (fun _ => hs1)
    · refine .ite (fun _ => twDiscard_sound (fr.mono rfl) h) (fun _ => ?_)
      extract_lets s1'
      have hs1' : Sound K C z s1' := twCommit_sound (fr.mono rfl) h
      exact .ite (fun _ => updTw_sound (fr.mono rfl) hs1') (fun _ => hs1')
    · exact .ite (fun _ => twCommit_sound (fr.mono rfl) h) (fun _ => twDiscard_sound (fr.mono rfl) (evtCnt_sound (fr.mono
        rfl) h))
    · exact twDiscard_sound (fr.mono rfl) h

theorem twRoleSwitch_sound {b : Nat} {lost : Option (Fin 8)}
    (fr : Free K [.regs, .ports, .tw, .net, .he, .mb, .outbox, .freeCtr]) (h : Sound K C z s) :
    Sound K C z (twRoleSwitch b lost s) := by
  unfold twRoleSwitch
  split
  · exact h
  · exact .ite (fun _ => h) (fun _ => twArbLoss_sound fr (evt_sound (fr.mono rfl) h))

theorem twTargetWrite_sound {b : Nat} {a : Nat} {l : List Byte} {cl : TwClose} {lost : Option (Fin 8)}
    (fr : Free K [.regs, .ports, .tw, .net, .queues, .he, .mb, .outbox, .freeCtr]) (h : Sound K C z s) :
    Sound K C z (twTargetWrite b a l cl lost s) := by
  unfold twTargetWrite
  refine .ite (fun _ => h) (fun _ => ?_)
  split
  · exact h
  · extract_lets s1
    have hs1 : Sound K C z s1 := updTw_sound (fr.mono rfl) (twRoleSwitch_sound (fr.mono rfl) h)
    exact .ite (fun _ => twWrite_sound (fr.mono rfl) hs1) (fun _ => evtCnt_sound (fr.mono rfl) hs1)

theorem twTargetRead_sound {b : Nat} {a : Nat} {n : Nat} {win : Bool} {lost : Option (Fin 8)}
    (fr : Free K [.regs, .ports, .tw, .net, .he, .mb, .outbox, .freeCtr]) (h : Sound K C z s) :
    Sound K C z (twTargetRead b a n win lost s) := by
  unfold twTargetRead
  extract_lets o s1 s1' data all out s2
  have hs1 : Sound K C z s1 := emit_sound (fr.mono rfl) (twRoleSwitch_sound fr h)
  have hs1' : Sound K C z s1' := twRoleSwitch_sound fr h
  have hs2 : Sound K C z s2 := emit_sound (fr.mono rfl) (updTw_sound (fr.mono rfl) hs1')
  refine .ite (fun _ => h) (fun _ => .ite (fun _ => .ite (fun _ => .ite (fun _ => emit_sound (fr.mono rfl) (evt_sound
    (fr.mono rfl) (fbset_sound (fr.mono rfl) hs1))) (fun _ => hs1)) (fun _ => h)) (fun _ => ?_))
  split
  · exact h
  · exact .ite (fun _ => updTw_sound (fr.mono rfl) h) (fun _ => .ite (fun _ => evt_sound (fr.mono rfl) hs2) (fun _ =>
      hs2))

theorem twSclTimeout_sound {b : Nat} {tgt : Bool} (fr : Free K [.regs, .ports, .tw, .net, .he, .mb, .outbox, .freeCtr])
    (h : Sound K C z s) :
    Sound K C z (twSclTimeout b tgt s) := by
  unfold twSclTimeout
  extract_lets o s1 s2
  have hs1 : Sound K C z s1 := updTw_sound (fr.mono rfl) (evtCnt_sound (fr.mono rfl) h)
  have hs2 : Sound K C z s2 := .ite (fun _ => twDiscard_sound (fr.mono rfl) hs1) (fun _ => hs1)
  exact .ite (fun _ => h) (fun _ => .ite (fun _ => twFinish_sound fr hs2) (fun _ => twFinish_sound fr (useFree_sound
    (fr.mono rfl) (useFree_sound (fr.mono rfl) hs2))))

theorem twWaiting_sound {b : Nat} {status : Nat} (fr : Free K [.regs, .ports, .tw, .net, .he, .mb, .outbox, .freeCtr])
    (h : Sound K C z s) :
    Sound K C z (twWaiting b status s) := by
  unfold twWaiting
  split
  · exact h
  · exact twCmdEnd_sound (fr.mono rfl) h
  · exact h
  · exact settingFail_sound fr h

theorem twSdaTimeout_sound {b : Nat} {high : Bool} (fr : Free K [.regs, .ports, .tw, .net, .he, .mb, .outbox, .freeCtr])
    (h : Sound K C z s) :
    Sound K C z (twSdaTimeout b high s) := by
  unfold twSdaTimeout
  extract_lets o s1
  have hs1 : Sound K C z s1 := updTw_sound (fr.mono rfl) (evtCnt_sound (fr.mono rfl) h)
  exact .ite (fun _ => h) (fun _ => .ite (fun _ => .ite (fun _ => twStop_sound (fr.mono rfl) (evt_sound (fr.mono rfl)
    hs1)) (fun _ => twWaiting_sound fr hs1)) (fun _ => hs1))

theorem twWake_sound {b : Nat} {a1 : Bool} (fr : Free K [.regs, .he, .rs, .outbox]) (h : Sound K C z s) :
    Sound K C z (twWake b a1 s) := by
  unfold twWake
  extract_lets o armed src
  exact .ite (fun _ => evt_sound (fr.mono rfl) (.setRs (fr.mono rfl) h)) (fun _ => h)

theorem twCondition_sound {b : Nat} {start : Bool} (fr : Free K [.regs, .tw]) (h : Sound K C z s) :
    Sound K C z (twCondition b start s) := by
  unfold twCondition
  exact .ite (fun _ => h) (fun _ => .ite (fun _ => updTw_sound (fr.mono rfl) (fbset_sound (fr.mono rfl) h)) (fun _ => .ite
    (fun _ => twStop_sound fr h) (fun _ => updTw_sound (fr.mono rfl) h)))

theorem twPut_sound {a : Nat} {v : Nat} (fr : Free K [.regs, .tables, .tw, .net, .he, .mb, .outbox, .freeCtr])
    (h : Sound K C z s) :
    Sound K C z (twPut a v s) := by
  unfold twPut
  extract_lets b o en s1 s2 s1'
  have hs1 : Sound K C z s1 := .ite (fun _ => h) (fun _ => putWord_sound (fr.mono rfl) h)
  have hs2 : Sound K C z s2 := fbset_sound (fr.mono rfl) hs1
  have hs1' : Sound K C z s1' := putWord_sound (fr.mono rfl) h
  exact .ite (fun _ => .ite (fun _ => updTw_sound (fr.mono rfl) hs2) (fun _ => hs2)) (fun _ => .ite (fun _ => .ite (fun _
    => twGo_sound (fr.mono rfl) hs1') (fun _ => hs1')) (fun _ => .ite (fun _ => twAlertReq_sound (fr.mono rfl) h) (fun _
    => putWord_sound (fr.mono rfl) h)))

theorem execTwCommandGo_sound {ag : Agent} {block : TwNo} {value : BitVec 32}
    (fr : Free K [.regs, .tables, .tw, .net, .he, .mb, .outbox, .freeCtr]) (h : Sound K C z s) :
    SoundOut K C z (execTwCommandGo ag block value s) := by
  unfold execTwCommandGo
  exact .next (gated_sound (fr.mono rfl) (fun _ ht => twPut_sound fr ht) h)

theorem execTwTransactionStart_sound {block : TwNo} (fr : Free K [.regs, .ports, .tw, .outbox]) (h : Sound K C z s) :
    SoundOut K C z (execTwTransactionStart block s) := by
  unfold execTwTransactionStart
  exact .next (twStart_sound fr h)

theorem execTwTransactionEnd_sound {block : TwNo} {acked : Nat} {data : List Byte} {pecByte : Option (BitVec 8)}
    {status : Fin 5} {byte : BitVec 8} {bitNo : Fin 8}
    (fr : Free K [.regs, .ports, .tw, .net, .he, .mb, .outbox, .freeCtr]) (h : Sound K C z s) :
    SoundOut K C z (execTwTransactionEnd block acked data pecByte status byte bitNo s) := by
  unfold execTwTransactionEnd
  extract_lets e
  exact .next (twEnd_sound fr h)

theorem execTwTargetCommit_sound {block : TwNo} {addr : BitVec 7} {bytes : List Byte} {close : Fin 5}
    {lost : Option (Fin 8)} (fr : Free K [.regs, .ports, .tw, .net, .queues, .he, .mb, .outbox, .freeCtr])
    (h : Sound K C z s) :
    SoundOut K C z (execTwTargetCommit block addr bytes close lost s) := by
  unfold execTwTargetCommit
  extract_lets cl
  exact .next (twTargetWrite_sound fr h)

theorem execTwTargetRead_sound {block : TwNo} {addr : BitVec 7} {clocked : Nat} {win : Bool} {lost : Option (Fin 8)}
    (fr : Free K [.regs, .ports, .tw, .net, .he, .mb, .outbox, .freeCtr]) (h : Sound K C z s) :
    SoundOut K C z (execTwTargetRead block addr clocked win lost s) := by
  unfold execTwTargetRead
  exact .next (twTargetRead_sound fr h)

theorem execTwSclTimeout_sound {block : TwNo} {tgt : Bool}
    (fr : Free K [.regs, .ports, .tw, .net, .he, .mb, .outbox, .freeCtr]) (h : Sound K C z s) :
    SoundOut K C z (execTwSclTimeout block tgt s) := by
  unfold execTwSclTimeout
  exact .next (twSclTimeout_sound fr h)

theorem execTwSdaTimeout_sound {block : TwNo} {high : Bool}
    (fr : Free K [.regs, .ports, .tw, .net, .he, .mb, .outbox, .freeCtr]) (h : Sound K C z s) :
    SoundOut K C z (execTwSdaTimeout block high s) := by
  unfold execTwSdaTimeout
  exact .next (twSdaTimeout_sound fr h)

theorem execTwAlertRequest_sound {ag : Agent} {block : TwNo} {req : Bool} (fr : Free K [.regs, .he, .outbox])
    (h : Sound K C z s) :
    SoundOut K C z (execTwAlertRequest ag block req s) := by
  unfold execTwAlertRequest
  exact .next (gated_sound fr (fun _ ht => twAlertReq_sound fr ht) h)

theorem execTwAlertInEdge_sound {block : TwNo} {low : Bool} (fr : Free K [.regs, .he, .outbox]) (h : Sound K C z s) :
    SoundOut K C z (execTwAlertInEdge block low s) := by
  unfold execTwAlertInEdge
  exact .next (twAlertIn_sound fr h)

theorem execTwWakeMatch_sound {block : TwNo} {a1 : Bool} (fr : Free K [.regs, .he, .rs, .outbox]) (h : Sound K C z s) :
    SoundOut K C z (execTwWakeMatch block a1 s) := by
  unfold execTwWakeMatch
  exact .next (twWake_sound fr h)

theorem execStartStopCondition_sound {block : TwNo} {start : Bool} (fr : Free K [.regs, .tw]) (h : Sound K C z s) :
    SoundOut K C z (execStartStopCondition block start s) := by
  unfold execStartStopCondition
  exact .next (twCondition_sound fr h)

theorem runTwLoadProfile_sound {c : CmdCall} (fr : Free K [.regs, .tables, .tw, .net, .he, .mb, .outbox, .freeCtr])
    (h : Sound K C z s) :
    Sound K C z (runTwLoadProfile c s).1 := by
  unfold runTwLoadProfile
  extract_lets b own
  refine .ite1 (fun _ => h) (fun _ => ?_)
  split
  · exact h
  · refine .ite1 (fun _ => h) (fun _ => ?_)
    extract_lets mine s1
    have hs1 : Sound K C z s1 := .ite (fun _ => fbset_sound (fr.mono rfl) h) (fun _ => h)
    exact forEach_sound hs1 (fun _ _ ht => twPut_sound fr ht)

theorem execTwLoadProfile_sound {c : CmdCall}
    (fr : Free K [.regs, .tables, .tw, .net, .toll, .he, .mb, .outbox, .freeCtr]) (h : Sound K C z s) :
    SoundOut K C z (execTwLoadProfile c s) := by
  unfold execTwLoadProfile
  exact .next (mbRun_sound (fr.mono rfl) (fun _ _ ht => runTwLoadProfile_sound (fr.mono rfl) ht) h)

theorem runTwTgtResp_sound {c : CmdCall} (fr : Free K [.regs, .freeCtr]) (h : Sound K C z s) :
    Sound K C z (runTwTgtResp c s).1 := by
  unfold runTwTgtResp
  extract_lets b m e room ofs s1
  have hs1 : Sound K C z s1 := forEach_sound (useFree_sound (fr.mono rfl) h) (fun _ _ ht => twRamPut_sound (fr.mono rfl)
      ht)
  exact .ite1 (fun _ => h) (fun _ => .ite1 (fun _ => h) (fun _ => .ite1 (fun _ => h) (fun _ => .ite1 (fun _ => h) (fun _
    => .ite1 (fun _ => h) (fun _ => wrn_sound (fr.mono rfl) hs1)))))

theorem execTwTgtResp_sound {c : CmdCall} (fr : Free K [.regs, .net, .toll, .he, .mb, .outbox, .freeCtr])
    (h : Sound K C z s) :
    SoundOut K C z (execTwTgtResp c s) := by
  unfold execTwTgtResp
  exact .next (mbRun_sound fr (fun _ _ ht => runTwTgtResp_sound (fr.mono rfl) ht) h)

theorem runTwXfer_sound {c : CmdCall} (fr : Free K [.regs, .tables, .tw, .net, .he, .mb, .outbox, .freeCtr])
    (h : Sound K C z s) :
    Sound K C z (runTwXfer c s).1 := by
  unfold runTwXfer
  extract_lets b w tx s1 v
  have hs1 : Sound K C z s1 := forEach_sound h (fun _ _ ht => wrn_sound (fr.mono rfl) ht)
  exact .ite1 (fun _ => h) (fun _ => .ite1 (fun _ => h) (fun _ => .ite1 (fun _ => h) (fun _ => .ite1 (fun _ => h) (fun _
    => .ite1 (fun _ => h) (fun _ => .ite1 (fun _ => h) (fun _ => .ite1 (fun _ => h) (fun _ => twPut_sound fr hs1)))))))

theorem execTwXfer_sound {c : CmdCall} (fr : Free K [.regs, .tables, .tw, .net, .toll, .he, .mb, .outbox, .freeCtr])
    (h : Sound K C z s) :
    SoundOut K C z (execTwXfer c s) := by
  unfold execTwXfer
  exact .next (mbRun_sound (fr.mono rfl) (fun _ _ ht => runTwXfer_sound (fr.mono rfl) ht) h)

end Sys2Proof.Machine
end

section
/-! SUPPORT. What each operation of Machine/Pipe.lean leaves unchanged (the rules are in Laws/Sound.lean). -/

namespace Sys2Proof.Machine

set_option Elab.async false

variable {K : Comp → Prop} {C : Prop} {z s t : State}

theorem updFrame_sound {p : Nat} {key : Nat} {f : FrameRec → FrameRec} (fr : Free K [.ports]) (h : Sound K C z s) :
    Sound K C z (updFrame p key f s) := by
  unfold updFrame
  exact updPort_sound fr h

theorem updLine_sound {p : Nat} {y : Nat} {f : PLine → PLine} (fr : Free K [.ports]) (h : Sound K C z s) :
    Sound K C z (updLine p y f s) := by
  unfold updLine
  exact updPort_sound fr h

theorem cntHalves_sound {p : Nat} {reg : Nat} {halves : List Nat} (fr : Free K [.regs]) (h : Sound K C z s) :
    Sound K C z (cntHalves p reg halves s) := by
  unfold cntHalves
  extract_lets n0 n1 s1
  have hs1 : Sound K C z s1 := .ite (fun _ => h) (fun _ => cntAdd_sound fr h)
  exact .ite (fun _ => hs1) (fun _ => cntAdd_sound fr hs1)

theorem updTap_sound {p : Nat} {e : Nat} {f : TapSt → TapSt} (fr : Free K [.regs, .ports]) (h : Sound K C z s) :
    Sound K C z (updTap p e f s) := by
  unfold updTap
  extract_lets s1
  have hs1 : Sound K C z s1 := updPort_sound (fr.mono rfl) h
  exact fbset_sound (fr.mono rfl) hs1

theorem tapFetch_sound {p : Nat} {e : Nat} (fr : Free K [.regs, .toll, .he, .outbox]) (h : Sound K C z s) :
    Sound K C z (tapFetch p e s) := by
  unfold tapFetch
  extract_lets o head
  refine .ite (fun _ => h) (fun _ => ?_)
  split
  · exact h
  · exact .ite (fun _ => npIssue_sound (fr.mono rfl) (tollSpend_sound (fr.mono rfl) h)) (fun _ => tollShort_sound fr h)

theorem tapGot_sound {p : Nat} {e : Nat} {data : List Byte} (fr : Free K [.regs, .ports]) (h : Sound K C z s) :
    Sound K C z (tapGot p e data s) := by
  unfold tapGot
  exact updTap_sound fr h

theorem tapForget_sound {p : Nat} {e : Nat} (fr : Free K [.regs, .ports, .he]) (h : Sound K C z s) :
    Sound K C z (tapForget p e s) := by
  unfold tapForget
  extract_lets s1 src
  have hs1 : Sound K C z s1 := updTap_sound (fr.mono rfl) h
  exact .setHe (fr.mono rfl) hs1

theorem tapUse_sound {p : Nat} {e : Nat} (fr : Free K [.regs, .ports, .toll, .he, .outbox]) (h : Sound K C z s) :
    Sound K C z (tapUse p e s) := by
  unfold tapUse
  extract_lets s1
  have hs1 : Sound K C z s1 := by
    unfold s1
    split
    · exact npEnd_sound (fr.mono rfl) h
    · exact .ite (fun _ => h) (fun _ => readNow_sound (fr.mono rfl) (tollSpend_sound (fr.mono rfl) h))
  exact updTap_sound (fr.mono rfl) hs1

theorem tapCut_sound {p : Nat} {e : Nat} (fr : Free K [.regs, .he, .outbox]) (h : Sound K C z s) :
    Sound K C z (tapCut p e s) := by
  unfold tapCut
  exact evt_sound fr (cnt_sound (fr.mono rfl) h)

theorem updTapFrame_sound {p : Nat} {e : Nat} {i : Nat} {f : TapFrame → TapFrame} (fr : Free K [.regs, .ports])
    (h : Sound K C z s) :
    Sound K C z (updTapFrame p e i f s) := by
  unfold updTapFrame
  exact updTap_sound fr h

theorem tapWrite_sound {p : Nat} {e : Nat} {f : TapFrame} {l : PLine}
    (fr : Free K [.regs, .mem, .ports, .toll, .he, .outbox]) (h : Sound K C z s) :
    Sound K C z (tapWrite p e f l s) := by
  unfold tapWrite
  extract_lets rows n inRoi s0 s1 at_ s2
  have hs0 : Sound K C z s0 := updTapFrame_sound (fr.mono rfl) h
  have hs1 : Sound K C z s1 := tollSpend_sound (fr.mono rfl) (poolGive_sound (fr.mono rfl) (poolTake_sound (fr.mono rfl)
      hs0))
  have hs2 : Sound K C z s2 := forEach_sound hs1 (fun _ _ ht => dmaWrite_sound (fr.mono rfl) ht)
  exact .ite (fun _ => hs0) (fun _ => .ite (fun _ => updTapFrame_sound (fr.mono rfl) (tapCut_sound (fr.mono rfl) hs0))
    (fun _ => .ite (fun _ => updTapFrame_sound (fr.mono rfl) (tapCut_sound (fr.mono rfl) (poolRefuse_sound (fr.mono rfl)
    hs0))) (fun _ => .ite (fun _ => updTapFrame_sound (fr.mono rfl) (tapCut_sound (fr.mono rfl) (tollShort_sound (fr.mono
    rfl) hs0))) (fun _ => updTapFrame_sound (fr.mono rfl) hs2))))

theorem tapLine_sound {p : Nat} {point : Nat} {l : PLine} (fr : Free K [.regs, .mem, .ports, .toll, .he, .outbox])
    (h : Sound K C z s) :
    Sound K C z (tapLine p point l s) := by
  unfold tapLine
  exact forEach_sound h (fun _ _ ht => forEach_sound ht (fun _ _ hu => tapWrite_sound fr hu))

theorem enterLine_sound {p : Nat} {l : PLine} (fr : Free K [.regs, .ports, .he, .outbox]) (h : Sound K C z s) :
    Sound K C z (enterLine p l s) := by
  unfold enterLine
  split
  · exact h
  · extract_lets w cols c0 c1 p1 listed note s1 s2
    have hnote : ∀ x0 x1 t, Sound K C z t → Sound K C z (note x0 x1 t) := by
      refine fun _ _ _ ht => ?_
      unfold note
      extract_lets t1
      have ht1 : Sound K C z t1 := .ite (fun _ => evt_sound (fr.mono rfl) ht) (fun _ => ht)
      exact .ite (fun _ => ht1) (fun _ => evt_sound (fr.mono rfl) (cntAdd_sound (fr.mono rfl) ht1))
    have hs1 : Sound K C z s1 := hnote _ _ _ h
    have hs2 : Sound K C z s2 := .ite (fun _ => hnote _ _ _ hs1) (fun _ => hs1)
    exact updPort_sound (fr.mono rfl) hs2

theorem correctLine_sound {p : Nat} {y : Nat} (fr : Free K [.regs, .mem, .ports, .toll, .he, .outbox]) (h : Sound K C z s)
    :
    Sound K C z (correctLine p y s) := by
  unfold correctLine
  split
  · exact h
  · split
    · exact h
    · extract_lets w reach rows out halves s1 s2 s3 s4 s5 l1
      have hs1 : Sound K C z s1 := cntHalves_sound (fr.mono rfl) h
      have hs2 : Sound K C z s2 := cntHalves_sound (fr.mono rfl) hs1
      have hs3 : Sound K C z s3 := cntHalves_sound (fr.mono rfl) hs2
      have hs4 : Sound K C z s4 := cntHalves_sound (fr.mono rfl) hs3
      have hs5 : Sound K C z s5 := cntHalves_sound (fr.mono rfl) hs4
      exact tapLine_sound fr (updLine_sound (fr.mono rfl) hs5)

theorem reconLine_sound {p : Nat} {y : Nat} (fr : Free K [.regs, .mem, .ports, .toll, .he, .outbox]) (h : Sound K C z s) :
    Sound K C z (reconLine p y s) := by
  unfold reconLine
  split
  · exact h
  · split
    · exact h
    · extract_lets w rows out halves s1 s2 s3 s4 s5 l1
      have hs1 : Sound K C z s1 := cntHalves_sound (fr.mono rfl) h
      have hs2 : Sound K C z s2 := cntHalves_sound (fr.mono rfl) hs1
      have hs3 : Sound K C z s3 := cntHalves_sound (fr.mono rfl) hs2
      have hs4 : Sound K C z s4 := cntHalves_sound (fr.mono rfl) hs3
      have hs5 : Sound K C z s5 := cntHalves_sound (fr.mono rfl) hs4
      exact tapLine_sound fr (tapLine_sound fr (updLine_sound (fr.mono rfl) hs5))

theorem shadowCommit_sound {f : Fld} {p : Nat} (fr : Free K [.regs]) (h : Sound K C z s) :
    Sound K C z (shadowCommit f p s) := by
  unfold shadowCommit
  exact fbset_sound fr h

theorem swapRequest_sound {bank : Nat} {at_ : Nat} {p : Nat} {cx : Bool} (fr : Free K [.regs, .ports]) (h : Sound K C z s)
    :
    Sound K C z (swapRequest bank at_ p cx s) := by
  unfold swapRequest
  extract_lets w req s1
  have hs1 : Sound K C z s1 := wrn_sound (fr.mono rfl) h
  exact updPort_sound (fr.mono rfl) hs1

theorem learnEnd_sound {p : Nat} {l : Learn} {strip : Bool}
    (fr : Free K [.regs, .tables, .ports, .net, .he, .mb, .outbox, .freeCtr]) (h : Sound K C z s) :
    Sound K C z (learnEnd p l strip s) := by
  unfold learnEnd
  extract_lets den mean s0 swap bank b t1 t1' s1
  have hs0 : Sound K C z s0 := updPort_sound (fr.mono rfl) h
  have ht1 : Sound K C z t1 := forEach_sound hs0 (fun _ _ ht => tblPuts_sound (fr.mono rfl) ht)
  have ht1' : Sound K C z t1' := wrn_sound (fr.mono rfl) (wrn_sound (fr.mono rfl) hs0)
  have hs1 : Sound K C z s1 := .ite (fun _ => .ite (fun _ => swapRequest_sound (fr.mono rfl) (wrn_sound (fr.mono rfl)
      ht1)) (fun _ => ht1)) (fun _ => .ite (fun _ => shadowCommit_sound (fr.mono rfl) ht1') (fun _ => ht1'))
  exact forEach_sound hs1 (fun _ _ ht2 => endD_sound (fr.mono rfl) ht2)

theorem learnLine_sound {p : Nat} {r : FrameRec} {l : PLine}
    (fr : Free K [.regs, .tables, .ports, .net, .he, .mb, .outbox, .freeCtr]) (h : Sound K C z s) :
    Sound K C z (learnLine p r l s) := by
  unfold learnLine
  split
  · exact h
  · refine .ite (fun _ => h) (fun _ => ?_)
    extract_lets strip sums a1
    exact .ite (fun _ => learnEnd_sound fr h) (fun _ => updPort_sound (fr.mono rfl) h)

theorem payPlace_sound {fuel c n : Nat} (fr : Free K [.regs, .toll]) (h : Sound K C z s) : Sound K C z
    (payPlace fuel c n s).1 := by
  induction fuel generalizing n s with
  | zero => exact h
  | succ m ih => exact .ite1 (fun _ => h) (fun _ => .ite1 (fun _ => ih (tollSpend_sound fr h)) (fun _ => h))

theorem payHalf_sound {c : Nat} {n : Nat} (fr : Free K [.regs, .toll]) (h : Sound K C z s) :
    Sound K C z (payHalf c n s).1 := by
  unfold payHalf
  exact .ite1 (fun _ => payPlace_sound fr h) (fun _ => h)

theorem placeLine_sound {p : Nat} (fr : Free K [.regs, .tables, .ports, .net, .toll, .he, .mb, .outbox, .freeCtr])
    (h : Sound K C z s) :
    Sound K C z (placeLine p s) := by
  unfold placeLine
  extract_lets x cap
  split
  · exact h
  · split
    · exact h
    · extract_lets all start due a b t1 t2 line m0 keep s1
      have ha : Sound K C z a.1 := payHalf_sound (fr.mono rfl) h
      have hb : Sound K C z b.1 := .ite1 (fun _ => ha) (fun _ => payHalf_sound (fr.mono rfl) ha)
      have ht1 : Sound K C z t1 := .ite (fun _ => hb) (fun _ => tollShort_sound (fr.mono rfl) hb)
      have ht2 : Sound K C z t2 := .ite (fun _ => ht1) (fun _ => tollShort_sound (fr.mono rfl) ht1)
      have hs1 : Sound K C z s1 := updPort_sound (fr.mono rfl) hb
      exact .ite (fun _ => updPort_sound (fr.mono rfl) ht2) (fun _ => learnLine_sound (fr.mono rfl) (updLine_sound
        (fr.mono rfl) hs1))

theorem statDone_sound {p : Nat} {r : FrameRec} {fstat : Nat} {lines : Nat} {strip : Nat}
    (fr : Free K [.regs, .ports, .queues, .he, .outbox]) (h : Sound K C z s) :
    Sound K C z (statDone p r fstat lines strip s) := by
  unfold statDone
  extract_lets rec_ s1 s2 room s3 s4
  have hs1 : Sound K C z s1 := forEach_sound h (fun _ _ ht => wrn_sound (fr.mono rfl) ht)
  have hs2 : Sound K C z s2 := .ite (fun _ => evt_sound (fr.mono rfl) hs1) (fun _ => hs1)
  have hs3 : Sound K C z s3 := quWrite_sound (fr.mono rfl) hs2
  have hs4 : Sound K C z s4 := .ite (fun _ => hs3) (fun _ => evtCnt_sound (fr.mono rfl) hs3)
  exact updPort_sound (fr.mono rfl) hs4

theorem statFlush_sound {p : Nat} (fr : Free K [.regs, .ports, .queues, .he, .outbox]) (h : Sound K C z s) :
    Sound K C z (statFlush p s) := by
  unfold statFlush
  extract_lets l s1
  have hs1 : Sound K C z s1 := by
    refine forEach_sound h (fun r t ht => ?_)
    split
    · exact updFrame_sound (fr.mono rfl) (statDone_sound fr ht)
    · exact ht
  exact fbset_sound (fr.mono rfl) hs1

theorem maskLine_sound {p : Nat} {y : Nat} (fr : Free K [.regs, .mem, .ports, .queues, .toll, .he, .outbox])
    (h : Sound K C z s) :
    Sound K C z (maskLine p y s) := by
  unfold maskLine
  split
  · exact h
  · split
    · exact h
    · extract_lets rows m l1 s1 acc s2
      have hs1 : Sound K C z s1 := updPort_sound (fr.mono rfl) h
      have hs2 : Sound K C z s2 := updFrame_sound (fr.mono rfl) hs1
      exact statFlush_sound (fr.mono rfl) (tapLine_sound (fr.mono rfl) hs2)

end Sys2Proof.Machine
end

section
/-! SUPPORT. What each operation of Machine/Label.lean leaves unchanged (the rules are in Laws/Sound.lean). -/

namespace Sys2Proof.Machine

set_option Elab.async false

variable {K : Comp → Prop} {C : Prop} {z s t : State}

theorem openCount_sound {p : Nat} (fr : Free K [.regs]) (h : Sound K C z s) :
    Sound K C z (openCount p s) := by
  unfold openCount
  exact fset_sound fr h

theorem closeObj_sound {p : Nat} {flags : Nat} {o : OpenObj} (fr : Free K [.regs, .ledger, .ports, .he, .outbox])
    (h : Sound K C z s) :
    Sound K C z (closeObj p flags o s) := by
  unfold closeObj
  extract_lets speck clump f0 fl s1 s2 c s3 s4 s5 src
  have hs1 : Sound K C z s1 := updPort_sound (fr.mono rfl) h
  have hs2 : Sound K C z s2 := updEntry_sound (fr.mono rfl) hs1
  have hc : ∀ x0 x1 t, Sound K C z t → Sound K C z (c x0 x1 t) := fun _ _ _ ht => .ite (fun _ => cnt_sound (fr.mono rfl)
      ht) (fun _ => ht)
  have hs3 : Sound K C z s3 := cnt_sound (fr.mono rfl) hs2
  have hs4 : Sound K C z s4 := hc _ _ _ (hc _ _ _ (hc _ _ _ (hc _ _ _ hs3)))
  have hs5 : Sound K C z s5 := .ite (fun _ => evt_sound (fr.mono rfl) hs4) (fun _ => hs4)
  exact openCount_sound (fr.mono rfl) (.setLedger (fr.mono rfl) hs5)

theorem closeAll_sound {p : Nat} {flags : Nat} (fr : Free K [.regs, .ledger, .ports, .he, .outbox]) (h : Sound K C z s) :
    Sound K C z (closeAll p flags s) := by
  unfold closeAll
  exact forEach_sound h (fun _ _ ht => closeObj_sound fr ht)

theorem absorbEntry_sound {survivor : Nat} {o : OpenObj}
    (fr : Free K [.regs, .ledger, .acct, .net, .he, .outbox, .freeCtr]) (h : Sound K C z s) :
    Sound K C z (absorbEntry survivor o s) := by
  unfold absorbEntry
  extract_lets src s1
  have hs1 : Sound K C z s1 := setEntry_sound (fr.mono rfl) h
  exact retireEntry_sound fr (cnt_sound (fr.mono rfl) hs1)

theorem startObj_sound {p : Nat} {r : FrameRec} {l : PLine} {run : Nat × Nat} {works : List Work}
    (fr : Free K [.regs, .ledger, .acct, .net, .pa, .he, .outbox, .freeCtr]) (h : Sound K C z s) :
    Sound K C z (startObj p r l run works s).2 := by
  unfold startObj
  refine .ite2 (fun _ => evtCnt_sound (fr.mono rfl) h) (fun _ => .ite2 (fun _ => ledgerFull_sound (fr.mono rfl) h) (fun _
    => ?_))
  extract_lets id s1 src s2
  have hs1 : Sound K C z s1 := allocEntry_sound (fr.mono rfl) h
  have hs2 : Sound K C z s2 := setEntry_sound (fr.mono rfl) hs1
  exact hs2

theorem labelRun_sound {p : Nat} {r : FrameRec} {l : PLine} {run : Nat × Nat} {works : List Work}
    (fr : Free K [.regs, .ledger, .acct, .net, .pa, .he, .outbox, .freeCtr]) (h : Sound K C z s) :
    Sound K C z (labelRun p r l run works s).2 := by
  unfold labelRun
  extract_lets hit
  split
  · exact startObj_sound fr h
  · extract_lets u gone
    exact .ite (fun _ => h) (fun _ => setFlag_sound (fr.mono rfl) (forEach_sound h (fun _ _ ha => absorbEntry_sound
      (fr.mono rfl) ha)))

theorem finishWork_sound {p : Nat} {r : FrameRec} {l : PLine} {w : Work}
    (fr : Free K [.regs, .ledger, .ports, .he, .outbox]) (h : Sound K C z s) :
    Sound K C z (finishWork p r l w s) := by
  unfold finishWork
  refine .ite (fun _ => closeObj_sound fr h) (fun _ => ?_)
  extract_lets o maxL s1
  have hs1 : Sound K C z s1 := updEntry_sound (fr.mono rfl) h
  exact .ite (fun _ => closeObj_sound fr h) (fun _ => updPort_sound (fr.mono rfl) hs1)

theorem labelLine_sound {p y : Nat} (fr : Free K [.regs, .ledger, .ports, .acct, .net, .pa, .he, .outbox, .freeCtr])
    (h : Sound K C z s) : Sound K C z (labelLine p y s) := by
  unfold labelLine
  split
  · exact h
  · split
    · exact h
    · extract_lets on s0 start res s1
      have hs0 : Sound K C z s0 := .ite (fun _ => closeAll_sound (fr.mono rfl) h) (fun _ => h)
      have hres : Sound K C z res.2 := foldlSnd_sound hs0 (fun _ _ ht => labelRun_sound (fr.mono rfl) ht)
      have hs1 : Sound K C z s1 := updPort_sound (fr.mono rfl) hres
      exact openCount_sound (fr.mono rfl) (forEach_sound hs1 (fun _ _ ht => finishWork_sound (fr.mono rfl) ht))

theorem stage_sound {get : PortSt → Nat} {limit : Nat} {p : Nat} {f : Nat → State → State}
    (hf : ∀ x0 t, Sound K C z t → Sound K C z (f x0 t)) (h : Sound K C z s) :
    Sound K C z (stage get limit p f s) := by
  unfold stage
  extract_lets n
  exact forEach_sound h (fun _ _ ht => hf _ _ ht)

theorem runFront_sound {p : Nat} (fr : Free K [.regs, .tables, .mem, .ports, .net, .toll, .he, .mb, .outbox, .freeCtr])
    (h : Sound K C z s) :
    Sound K C z (runFront p s) := by
  unfold runFront
  extract_lets s1 s2
  have hs1 : Sound K C z s1 := stage_sound (fun _ _ ht => updPort_sound (fr.mono rfl) (correctLine_sound (fr.mono rfl)
      ht)) h
  have hs2 : Sound K C z s2 := stage_sound (fun _ _ ht1 => updPort_sound (fr.mono rfl) (reconLine_sound (fr.mono rfl)
      ht1)) hs1
  exact stage_sound (fun _ _ ht2 => .ite (fun _ => placeLine_sound (fr.mono rfl) ht2) (fun _ => ht2)) hs2

theorem runBack_sound {p : Nat}
    (fr : Free K [.regs, .mem, .ledger, .ports, .acct, .net, .queues, .toll, .pa, .he, .outbox, .freeCtr])
    (h : Sound K C z s) :
    Sound K C z (runBack p s) := by
  unfold runBack
  extract_lets flush lim s1
  have hs1 : Sound K C z s1 := stage_sound (fun _ _ ht => updPort_sound (fr.mono rfl) (maskLine_sound (fr.mono rfl) ht)) h
  exact stage_sound (fun _ _ ht1 => updPort_sound (fr.mono rfl) (labelLine_sound (fr.mono rfl) ht1)) hs1

theorem pruneLines_sound {p : Nat} (fr : Free K [.ports]) (h : Sound K C z s) :
    Sound K C z (pruneLines p s) := by
  unfold pruneLines
  exact updPort_sound fr h

theorem endImage_sound {p : Nat} (fr : Free K [.regs, .ledger, .ports, .he, .outbox]) (h : Sound K C z s) :
    Sound K C z (endImage p s) := by
  unfold endImage
  split
  · exact h
  · refine .ite (fun _ => h) (fun _ => ?_)
    extract_lets s1
    have hs1 : Sound K C z s1 := closeAll_sound fr h
    exact updPort_sound (fr.mono rfl) hs1

theorem runStages_sound {p : Nat}
    (fr : Free K [.regs, .tables, .mem, .ledger, .ports, .acct, .net, .queues, .toll, .pa, .he, .mb, .outbox, .freeCtr])
    (h : Sound K C z s) :
    Sound K C z (runStages p s) := by
  unfold runStages
  exact pruneLines_sound (fr.mono rfl) (endImage_sound (fr.mono rfl) (runBack_sound (fr.mono rfl) (runFront_sound (fr.mono
    rfl) h)))

theorem pumpLoop_sound {fuel p : Nat}
    (fr : Free K [.regs, .tables, .mem, .ledger, .ports, .acct, .net, .queues, .toll, .pa, .he, .mb, .outbox, .freeCtr])
    (h : Sound K C z s) : Sound K C z (pumpLoop fuel p s) := by
  induction fuel generalizing s with
  | zero => exact h
  | succ n ih =>
    unfold pumpLoop
    refine .ite (fun _ => h) (fun _ => ?_)
    split
    · exact h
    · extract_lets s0 s1
      have hs0 : Sound K C z s0 := updPort_sound (fr.mono rfl) h
      have hs1 : Sound K C z s1 := by
        unfold s1
        split
        · exact enterLine_sound (fr.mono rfl) hs0
        · exact updPort_sound (fr.mono rfl) hs0
      exact ih (runStages_sound (fr.mono rfl) hs1)

theorem pump_sound {p : Nat}
    (fr : Free K [.regs, .tables, .mem, .ledger, .ports, .acct, .net, .queues, .toll, .pa, .he, .mb, .outbox, .freeCtr])
    (h : Sound K C z s) :
    Sound K C z (pump p s) := by
  unfold pump
  extract_lets s1
  have hs1 : Sound K C z s1 := .ite (fun _ => runStages_sound fr h) (fun _ => h)
  exact statFlush_sound (fr.mono rfl) (pumpLoop_sound fr hs1)

theorem feed_sound {p : Nat} {i : RxItem}
    (fr : Free K [.regs, .tables, .mem, .ledger, .ports, .acct, .net, .queues, .toll, .pa, .he, .mb, .outbox, .freeCtr])
    (h : Sound K C z s) :
    Sound K C z (feed p i s) := by
  unfold feed
  exact pump_sound fr (updPort_sound (fr.mono rfl) h)

theorem execPipelineOutputPlace_sound {port : PortNo}
    (fr : Free K [.regs, .tables, .mem, .ledger, .ports, .acct, .net, .queues, .toll, .pa, .he, .mb, .outbox, .freeCtr])
    (h : Sound K C z s) :
    SoundOut K C z (execPipelineOutputPlace port s) := by
  unfold execPipelineOutputPlace
  exact .next (pump_sound fr h)

end Sys2Proof.Machine
end

section
/-! SUPPORT. What each operation of Machine/Time.lean leaves unchanged (the rules are in Laws/Sound.lean). -/

namespace Sys2Proof.Machine

set_option Elab.async false

variable {K : Comp → Prop} {C : Prop} {z s t : State}

theorem updBase_sound {b : Nat} {f : TimeBase → TimeBase} (fr : Free K [.bases]) (h : Sound K C z s) :
    Sound K C z (updBase s b f) := by
  unfold updBase
  exact .setBases fr h

theorem tbLatch_sound {ag : Agent} {b : Nat} (fr : Free K [.regs, .time]) (h : Sound K C z s) :
    Sound K C z (tbLatch ag b s) := by
  unfold tbLatch
  extract_lets t src
  split
  · exact wrn_sound (fr.mono rfl) (wrn_sound (fr.mono rfl) h)
  · exact .setTime (fr.mono rfl) h

theorem tbNsRead_sound {ag : Agent} {b : Nat} (fr : Free K [.regs, .time, .outbox]) (h : Sound K C z s) :
    Sound K C z (tbNsRead ag b s) := by
  unfold tbNsRead
  exact emit_sound (fr.mono rfl) (tbLatch_sound (fr.mono rfl) h)

theorem tbSnap_sound (fr : Free K [.regs]) (h : Sound K C z s) :
    Sound K C z (tbSnap s) := by
  unfold tbSnap
  exact forEach_sound h (fun _ _ ht => wrn_sound fr (wrn_sound fr ht))

theorem syncTime_sound (fr : Free K [.regs]) (h : Sound K C z s) :
    Sound K C z (syncTime s) := by
  unfold syncTime
  extract_lets s1
  have hs1 : Sound K C z s1 := fbset_sound fr (fbset_sound fr h)
  exact fbset_sound fr hs1

theorem setTbState_sound {b : Nat} {st : Nat}
    (fr : Free K [.regs, .mem, .ledger, .views, .act, .acct, .net, .em, .pa, .he, .ev, .rs, .outbox, .freeCtr])
    (h : Sound K C z s) :
    Sound K C z (setTbState b st s) := by
  unfold setTbState
  refine .ite (fun _ => syncTime_sound (fr.mono rfl) h) (fun _ => ?_)
  extract_lets s1
  have hs1 : Sound K C z s1 := syncTime_sound (fr.mono rfl) (evtBit_sound (fr.mono rfl) (fset_sound (fr.mono rfl) h))
  exact .ite (fun _ => paDetect_sound fr hs1) (fun _ => hs1)

theorem tbSource_sound {b : Nat} {src : Nat}
    (fr : Free K [.regs, .mem, .bases, .ledger, .views, .act, .acct, .net, .em, .pa, .he, .ev, .rs, .outbox, .freeCtr])
    (h : Sound K C z s) :
    Sound K C z (tbSource b src s) := by
  unfold tbSource
  refine .ite (fun _ => h) (fun _ => .ite (fun _ => evt_sound (fr.mono rfl) h) (fun _ => ?_))
  extract_lets s1
  have hs1 : Sound K C z s1 := updBase_sound (fr.mono rfl) (fset_sound (fr.mono rfl) h)
  exact setTbState_sound (fr.mono rfl) hs1

theorem almCross_sound {b : Nat} {from_ : Nat} {to_ : Nat} {a : Nat} (fr : Free K [.time]) (h : Sound K C z s) :
    Sound K C z (almCross b from_ to_ a s) := by
  unfold almCross
  extract_lets o tgt src
  exact .ite (fun _ => .setTime fr h) (fun _ => h)

theorem tbAdd_sound {b : Nat} {d : Int} (fr : Free K [.bases, .time]) (h : Sound K C z s) :
    Sound K C z (tbAdd b d s) := by
  unfold tbAdd
  extract_lets old sum n s1 s2
  have hs1 : Sound K C z s1 := updBase_sound (fr.mono rfl) h
  have hs2 : Sound K C z s2 := .ite (fun _ => updBase_sound (fr.mono rfl) hs1) (fun _ => hs1)
  exact forEach_sound hs2 (fun _ _ hs => almCross_sound (fr.mono rfl) hs)

theorem tbStepBy_sound {b : Nat} {d : Int} (fr : Free K [.regs, .bases, .time, .he, .outbox]) (h : Sound K C z s) :
    Sound K C z (tbStepBy b d s) := by
  unfold tbStepBy
  exact .ite (fun _ => tbAdd_sound (fr.mono rfl) h) (fun _ => evt_sound (fr.mono rfl) h)

theorem tbAlign_sound (fr : Free K [.regs, .bases, .time, .he, .outbox, .freeCtr]) (h : Sound K C z s) :
    Sound K C z (tbAlign s) := by
  unfold tbAlign
  split
  · exact .ite (fun _ => h) (fun _ => evt_sound (fr.mono rfl) h)
  · exact tbStepBy_sound (fr.mono rfl) (useFree_sound (fr.mono rfl) h)

theorem freqPut_sound {b : Nat} {f : Nat} (fr : Free K [.regs, .ports, .outbox]) (h : Sound K C z s) :
    Sound K C z (freqPut b f s) := by
  unfold freqPut
  extract_lets s1
  have hs1 : Sound K C z s1 := wrn_sound (fr.mono rfl) h
  exact .ite (fun _ => sclkAll_sound (fr.mono rfl) hs1) (fun _ => hs1)

theorem servo_sound {b : Nat} {e : Int} {tint : Nat} (fr : Free K [.regs, .bases, .ports, .outbox]) (h : Sound K C z s) :
    Sound K C z (servo b e tint s) := by
  unfold servo
  extract_lets lim r i0 i f0 f s1
  have hs1 : Sound K C z s1 := updBase_sound (fr.mono rfl) h
  exact fbset_sound (fr.mono rfl) (freqPut_sound (fr.mono rfl) hs1)

theorem lockUpdate_sound {b : Nat} {e : Int}
    (fr : Free K [.regs, .mem, .bases, .ledger, .views, .act, .acct, .net, .em, .pa, .he, .ev, .rs, .outbox, .freeCtr])
    (h : Sound K C z s) :
    Sound K C z (lockUpdate b e s) := by
  unfold lockUpdate
  extract_lets thr n s1
  have hs1 : Sound K C z s1 := updBase_sound (fr.mono rfl) h
  exact .ite (fun _ => .ite (fun _ => setTbState_sound (fr.mono rfl) hs1) (fun _ => hs1)) (fun _ => .ite (fun _ =>
    setTbState_sound (fr.mono rfl) (updBase_sound (fr.mono rfl) h)) (fun _ => h))

theorem acceptOffset_sound {b : Nat} {e : Int} {tint : Nat} {s0 : State}
    (fr : Free K [.regs, .mem, .bases, .time, .ledger, .views, .ports, .act, .acct, .net, .em, .pa, .he, .ev, .rs,
      .outbox, .freeCtr])
    (hs0 : Sound K C z s0) :
    Sound K C z (acceptOffset b e tint s0) := by
  unfold acceptOffset
  extract_lets ofs s fresh s1
  have hs : Sound K C z s := fset_sound (fr.mono rfl) (wrn_sound (fr.mono rfl) hs0)
  have hfresh : ∀ t, Sound K C z t → Sound K C z (fresh t) := fun _ ht => setTbState_sound (fr.mono rfl) (updBase_sound
      (fr.mono rfl) ht)
  have hs1 : Sound K C z s1 := tbStepBy_sound (fr.mono rfl) (useFree_sound (fr.mono rfl) hs)
  exact .ite (fun _ => .ite (fun _ => hfresh _ (.ite (fun _ => hs1) (fun _ => servo_sound (fr.mono rfl) hs1))) (fun _ =>
    hfresh _ (servo_sound (fr.mono rfl) hs))) (fun _ => .ite (fun _ => hfresh _ (servo_sound (fr.mono rfl) hs)) (fun _ =>
    lockUpdate_sound (fr.mono rfl) (servo_sound (fr.mono rfl) hs)))

theorem bringUpAlign_sound (fr : Free K [.regs, .bases, .time, .he, .rs, .outbox, .freeCtr]) (h : Sound K C z s) :
    Sound K C z (bringUpAlign s) := by
  unfold bringUpAlign
  refine .ite (fun _ => ?_) (fun _ => h)
  extract_lets t src
  have ht : Sound K C z t := tbAlign_sound (fr.mono rfl) h
  exact .setRs (fr.mono rfl) ht

theorem measure_sound {b : Nat} {e : Int} {tint : Nat}
    (fr : Free K [.regs, .mem, .bases, .time, .ledger, .views, .ports, .act, .acct, .net, .em, .pa, .he, .ev, .rs,
      .outbox, .freeCtr])
    (h : Sound K C z s) :
    Sound K C z (measure b e tint s) := by
  unfold measure
  exact .ite (fun _ => h) (fun _ => .ite (fun _ => updBase_sound (fr.mono rfl) h) (fun _ => bringUpAlign_sound (fr.mono
    rfl) (acceptOffset_sound fr h)))

theorem setExch_sound {l : List Exchange} (fr : Free K [.time]) (h : Sound K C z s) :
    Sound K C z (setExch l s) := by
  unfold setExch
  exact .setTime fr h

theorem stampDeparture_sound {p : Nat} {phase : Nat} {t : TxItem} (fr : Free K [.time, .net, .outbox]) (h : Sound K C z s)
    :
    Sound K C z (stampDeparture p phase t s).2 := by
  unfold stampDeparture
  extract_lets seq s1 pl src
  have hs1 : Sound K C z s1 := setNetPort_sound (fr.mono rfl) (emit_sound (fr.mono rfl) h)
  exact .ite2 (fun _ => h) (fun _ => .ite2 (fun _ => hs1) (fun _ => setExch_sound (fr.mono rfl) hs1))

theorem sendItem_sound {p : Nat} {x : TxItem × Bool} {phase : Nat} (fr : Free K [.regs, .time, .net, .outbox])
    (h : Sound K C z s) :
    Sound K C z (sendItem p x phase s) := by
  unfold sendItem
  extract_lets d
  have hd : Sound K C z d.2 := stampDeparture_sound (fr.mono rfl) h
  exact emit_sound (fr.mono rfl) (takeItem_sound (fr.mono rfl) hd)

theorem timeSend_sound {p : Nat} {phase : Nat} {pl : List Byte} (fr : Free K [.regs, .time, .net, .outbox])
    (h : Sound K C z s) :
    Sound K C z (timeSend p phase pl s) := by
  unfold timeSend
  extract_lets pk idle s1
  have hs1 : Sound K C z s1 := foldl_sound (bumpMsg_sound (fr.mono rfl) h) (fun _ _ ht => enqueue_sound (fr.mono rfl) ht)
  split
  · exact .ite (fun _ => sendItem_sound fr hs1) (fun _ => hs1)
  · exact hs1

theorem sendSync_sound {phase : Nat} {p : Nat} (fr : Free K [.regs, .time, .net, .outbox]) (h : Sound K C z s) :
    Sound K C z (sendSync phase p s) := by
  unfold sendSync
  exact timeSend_sound fr h

theorem spanInterval_sound (fr : Free K [.time]) (h : Sound K C z s) :
    Sound K C z (spanInterval s) := by
  unfold spanInterval
  exact .setTime fr h

theorem syncSend_sound {phase : Nat} (fr : Free K [.regs, .time, .net, .outbox]) (h : Sound K C z s) :
    Sound K C z (syncSend phase s) := by
  unfold syncSend
  exact .ite (fun _ => h) (fun _ => spanInterval_sound (fr.mono rfl) (forEach_sound h (fun _ _ hs => sendSync_sound fr
    hs)))

theorem syncReceive_sound {p : Nat} {pl : List Byte} {phase : Nat} {gap : Nat} (fr : Free K [.regs, .time, .net, .outbox])
    (h : Sound K C z s) :
    Sound K C z (syncReceive p pl phase gap s) := by
  unfold syncReceive
  refine .ite (fun _ => h) (fun _ => ?_)
  extract_lets t1 x
  exact timeSend_sound fr (setExch_sound (fr.mono rfl) h)

theorem dreqReceive_sound {p : Nat} {pl : List Byte} {phase : Nat} (fr : Free K [.regs, .net, .he, .outbox])
    (h : Sound K C z s) :
    Sound K C z (dreqReceive p pl phase s) := by
  unfold dreqReceive
  refine .ite (fun _ => h) (fun _ => ?_)
  extract_lets t4
  exact netLocal_sound fr h

theorem drespReceive_sound {p : Nat} {pl : List Byte}
    (fr : Free K [.regs, .mem, .bases, .time, .ledger, .views, .ports, .act, .acct, .net, .em, .pa, .he, .ev, .rs,
      .outbox, .freeCtr])
    (h : Sound K C z s) :
    Sound K C z (drespReceive p pl s) := by
  unfold drespReceive
  split
  · exact h
  · refine .ite (fun _ => h) (fun _ => ?_)
    extract_lets t4 ds mean s0 src s1 s2 s3
    have hs0 : Sound K C z s0 := setExch_sound (fr.mono rfl) h
    have hs1 : Sound K C z s1 := useFree_sound (fr.mono rfl) (.setTime (fr.mono rfl) hs0)
    have hs2 : Sound K C z s2 := useFree_sound (fr.mono rfl) (wrn_sound (fr.mono rfl) hs1)
    have hs3 : Sound K C z s3 := fbset_sound (fr.mono rfl) hs2
    exact .ite (fun _ => spanInterval_sound (fr.mono rfl) (measure_sound fr hs3)) (fun _ => hs3)

theorem drespMiss_sound (fr : Free K [.regs, .time, .he, .outbox]) (h : Sound K C z s) :
    Sound K C z (drespMiss s) := by
  unfold drespMiss
  split
  · exact h
  · exact evt_sound (fr.mono rfl) (setExch_sound (fr.mono rfl) h)

theorem delaysFresh_sound (fr : Free K [.time]) (h : Sound K C z s) :
    Sound K C z (delaysFresh s) := by
  unfold delaysFresh
  exact .setTime fr h

theorem upstreamActive_sound {p : Nat} (fr : Free K [.time]) (h : Sound K C z s) :
    Sound K C z (upstreamActive p s) := by
  unfold upstreamActive
  exact .ite (fun _ => delaysFresh_sound fr h) (fun _ => h)

theorem ptmDialogue_sound (fr : Free K [.time, .outbox]) (h : Sound K C z s) :
    Sound K C z (ptmDialogue s) := by
  unfold ptmDialogue
  exact .ite (fun _ => emit_sound (fr.mono rfl) (.setTime (fr.mono rfl) h)) (fun _ => h)

theorem ptmResponse_sound {root : Nat}
    (fr : Free K [.regs, .mem, .bases, .time, .ledger, .views, .ports, .act, .acct, .net, .em, .pa, .he, .ev, .rs,
      .outbox, .freeCtr])
    (h : Sound K C z s) :
    Sound K C z (ptmResponse root s) := by
  unfold ptmResponse
  split
  · exact h
  · extract_lets src s1 s2 src'
    have hs1 : Sound K C z s1 := .setTime (fr.mono rfl) h
    have hs2 : Sound K C z s2 := .ite (fun _ => measure_sound fr hs1) (fun _ => hs1)
    exact .setTime (fr.mono rfl) hs2

theorem ppsEdge_sound {rising : Bool}
    (fr : Free K [.regs, .mem, .bases, .time, .ledger, .views, .ports, .act, .acct, .net, .em, .pa, .he, .ev, .rs,
      .outbox, .freeCtr])
    (h : Sound K C z s) :
    Sound K C z (ppsEdge rising s) := by
  unfold ppsEdge
  refine .ite (fun _ => h) (fun _ => ?_)
  extract_lets es src s1 s2
  have hs1 : Sound K C z s1 := useFree_sound (fr.mono rfl) (.setTime (fr.mono rfl) h)
  have hs2 : Sound K C z s2 := forEach_sound hs1 (fun _ _ ht => .ite (fun _ => measure_sound fr ht) (fun _ => ht))
  exact emFire_sound (fr.mono rfl) hs2

theorem ppsMiss_sound (fr : Free K [.regs, .time, .he, .outbox]) (h : Sound K C z s) :
    Sound K C z (ppsMiss s) := by
  unfold ppsMiss
  exact .ite (fun _ => evt_sound (fr.mono rfl) (.setTime (fr.mono rfl) h)) (fun _ => h)

theorem almAdvance_sound {a : Nat} {k : Nat} (fr : Free K [.regs]) (h : Sound K C z s) :
    Sound K C z (almAdvance a k s) := by
  unfold almAdvance
  extract_lets o t
  exact fset_sound fr (wrn_sound fr h)

theorem alarmFire_sound {a : Nat}
    (fr : Free K [.regs, .mem, .time, .ledger, .views, .act, .acct, .net, .em, .pa, .he, .ev, .rs, .outbox, .freeCtr])
    (h : Sound K C z s) :
    Sound K C z (alarmFire a s) := by
  unfold alarmFire
  extract_lets o age late per src s1 s2 k
  have hs1 : Sound K C z s1 := fbset_sound (fr.mono rfl) (.setTime (fr.mono rfl) h)
  have hs2 : Sound K C z s2 := .ite (fun _ => evt_sound (fr.mono rfl) (fbset_sound (fr.mono rfl) hs1)) (fun _ => hs1)
  exact .ite (fun _ => h) (fun _ => emFire_sound (fr.mono rfl) (cntAdd_sound (fr.mono rfl) (almAdvance_sound (fr.mono rfl)
    hs2)))

theorem almCtl_sound {a : Nat} {v : Nat} (fr : Free K [.regs, .tables, .time, .he, .outbox]) (h : Sound K C z s) :
    Sound K C z (almCtl a v s) := by
  unfold almCtl
  extract_lets o was s1 src
  have hs1 : Sound K C z s1 := .ite (fun _ => fbset_sound (fr.mono rfl) h) (fun _ => putWord_sound (fr.mono rfl) h)
  exact .ite (fun _ => .setTime (fr.mono rfl) hs1) (fun _ => hs1)

theorem tbCmd_sound {b : Nat} {v : Nat} (fr : Free K [.regs, .bases, .time, .he, .outbox, .freeCtr]) (h : Sound K C z s) :
    Sound K C z (tbCmd b v s) := by
  unfold tbCmd
  extract_lets s1 s2
  have hs1 : Sound K C z s1 := .ite (fun _ => tbStepBy_sound (fr.mono rfl) h) (fun _ => h)
  have hs2 : Sound K C z s2 := .ite (fun _ => tbAlign_sound fr hs1) (fun _ => hs1)
  exact .ite (fun _ => updBase_sound (fr.mono rfl) hs2) (fun _ => hs2)

theorem tbSrvCtl_sound {b : Nat} {v : Nat}
    (fr : Free K [.regs, .mem, .bases, .ledger, .views, .act, .acct, .net, .em, .pa, .he, .ev, .rs, .outbox, .freeCtr])
    (h : Sound K C z s) :
    Sound K C z (tbSrvCtl b v s) := by
  unfold tbSrvCtl
  exact .ite (fun _ => h) (fun _ => tbSource_sound fr (fset_sound (fr.mono rfl) h))

theorem tbPut_sound {a : Nat} {v : Nat}
    (fr : Free K [.regs, .tables, .mem, .bases, .time, .ledger, .views, .ports, .act, .acct, .net, .em, .pa, .he, .ev,
      .rs, .outbox, .freeCtr])
    (h : Sound K C z s) :
    Sound K C z (tbPut a v s) := by
  unfold tbPut
  extract_lets o b i
  refine .ite (fun _ => ?_) (fun _ => .ite (fun _ => .ite (fun _ => tbSnap_sound (fr.mono rfl) h) (fun _ => h)) (fun _ =>
    .ite (fun _ => .ite (fun _ => almCtl_sound (fr.mono rfl) h) (fun _ => .ite (fun _ => h) (fun _ => putWord_sound
    (fr.mono rfl) h))) (fun _ => putWord_sound (fr.mono rfl) h)))
  split
  · exact .ite (fun _ => freqPut_sound (fr.mono rfl) h) (fun _ => h)
  · exact tbSrvCtl_sound (fr.mono rfl) h
  · exact tbCmd_sound (fr.mono rfl) h
  · exact putWord_sound (fr.mono rfl) h

theorem execTbNsRead_sound {ag : Agent} {base : BaseNo} (fr : Free K [.regs, .time, .outbox]) (h : Sound K C z s) :
    SoundOut K C z (execTbNsRead ag base s) := by
  unfold execTbNsRead
  exact .next (tbNsRead_sound fr h)

theorem execTbSnap_sound (fr : Free K [.regs]) (h : Sound K C z s) :
    SoundOut K C z (execTbSnap s) := by
  unfold execTbSnap
  exact .next (tbSnap_sound fr h)

theorem execTbSourceWrite_sound {ag : Agent} {base : BaseNo} {src : Fin 8}
    (fr : Free K [.regs, .mem, .bases, .ledger, .views, .act, .acct, .net, .em, .pa, .he, .ev, .rs, .outbox, .freeCtr])
    (h : Sound K C z s) :
    SoundOut K C z (execTbSourceWrite ag base src s) := by
  unfold execTbSourceWrite
  exact .next (gated_sound (fr.mono rfl) (fun _ ht => tbSource_sound fr ht) h)

theorem execTb1Measure_sound
    (fr : Free K [.regs, .mem, .bases, .time, .ledger, .views, .ports, .act, .acct, .net, .em, .pa, .he, .ev, .rs,
      .outbox, .freeCtr])
    (h : Sound K C z s) :
    SoundOut K C z (execTb1Measure s) := by
  unfold execTb1Measure
  refine .next ?_
  split
  · exact h
  · exact measure_sound fr h

theorem execTbHoldoverEntry_sound {base : BaseNo}
    (fr : Free K [.regs, .mem, .ledger, .views, .ports, .act, .acct, .net, .em, .pa, .he, .ev, .rs, .outbox, .freeCtr])
    (h : Sound K C z s) :
    SoundOut K C z (execTbHoldoverEntry base s) := by
  unfold execTbHoldoverEntry
  exact .next (.ite (fun _ => setTbState_sound (fr.mono rfl) (freqPut_sound (fr.mono rfl) h)) (fun _ => h))

theorem execTbStep_sound {ag : Agent} {base : BaseNo} (fr : Free K [.regs, .bases, .time, .he, .outbox, .freeCtr])
    (h : Sound K C z s) :
    SoundOut K C z (execTbStep ag base s) := by
  unfold execTbStep
  exact .next (gated_sound (fr.mono rfl) (fun _ ht => tbCmd_sound fr ht) h)

theorem execTbAlign_sound {ag : Agent} (fr : Free K [.regs, .bases, .time, .he, .outbox, .freeCtr]) (h : Sound K C z s) :
    SoundOut K C z (execTbAlign ag s) := by
  unfold execTbAlign
  exact .next (gated_sound (fr.mono rfl) (fun _ ht => tbCmd_sound fr ht) h)

theorem execTbClearIntegrator_sound {ag : Agent} {base : BaseNo}
    (fr : Free K [.regs, .bases, .time, .he, .outbox, .freeCtr]) (h : Sound K C z s) :
    SoundOut K C z (execTbClearIntegrator ag base s) := by
  unfold execTbClearIntegrator
  exact .next (gated_sound (fr.mono rfl) (fun _ ht => tbCmd_sound fr ht) h)

theorem execSyncSend_sound {phase : Fin 32} (fr : Free K [.regs, .time, .net, .outbox]) (h : Sound K C z s) :
    SoundOut K C z (execSyncSend phase s) := by
  unfold execSyncSend
  exact .next (syncSend_sound fr h)

theorem execSyncReceive_sound {port : SpanNo} {payload : List Byte} {phase : Fin 32} {gap : Nat}
    (fr : Free K [.regs, .time, .net, .outbox]) (h : Sound K C z s) :
    SoundOut K C z (execSyncReceive port payload phase gap s) := by
  unfold execSyncReceive
  exact .next (syncReceive_sound fr h)

theorem execDreqReceive_sound {port : SpanNo} {payload : List Byte} {phase : Fin 32}
    (fr : Free K [.regs, .net, .he, .outbox]) (h : Sound K C z s) :
    SoundOut K C z (execDreqReceive port payload phase s) := by
  unfold execDreqReceive
  exact .next (dreqReceive_sound fr h)

theorem execDrespReceive_sound {port : SpanNo} {payload : List Byte}
    (fr : Free K [.regs, .mem, .bases, .time, .ledger, .views, .ports, .act, .acct, .net, .em, .pa, .he, .ev, .rs,
      .outbox, .freeCtr])
    (h : Sound K C z s) :
    SoundOut K C z (execDrespReceive port payload s) := by
  unfold execDrespReceive
  exact .next (drespReceive_sound fr h)

theorem execDrespMiss_sound (fr : Free K [.regs, .time, .he, .outbox]) (h : Sound K C z s) :
    SoundOut K C z (execDrespMiss s) := by
  unfold execDrespMiss
  exact .next (drespMiss_sound fr h)

theorem execPtmDialogue_sound (fr : Free K [.time, .outbox]) (h : Sound K C z s) :
    SoundOut K C z (execPtmDialogue s) := by
  unfold execPtmDialogue
  exact .next (ptmDialogue_sound fr h)

theorem execPtmResponse_sound {root : BitVec 64}
    (fr : Free K [.regs, .mem, .bases, .time, .ledger, .views, .ports, .act, .acct, .net, .em, .pa, .he, .ev, .rs,
      .outbox, .freeCtr])
    (h : Sound K C z s) :
    SoundOut K C z (execPtmResponse root s) := by
  unfold execPtmResponse
  exact .next (ptmResponse_sound fr h)

theorem execPpsEdge_sound {rising : Bool}
    (fr : Free K [.regs, .mem, .bases, .time, .ledger, .views, .ports, .act, .acct, .net, .em, .pa, .he, .ev, .rs,
      .outbox, .freeCtr])
    (h : Sound K C z s) :
    SoundOut K C z (execPpsEdge rising s) := by
  unfold execPpsEdge
  exact .next (ppsEdge_sound fr h)

theorem execPpsMiss_sound (fr : Free K [.regs, .time, .he, .outbox]) (h : Sound K C z s) :
    SoundOut K C z (execPpsMiss s) := by
  unfold execPpsMiss
  exact .next (ppsMiss_sound fr h)

theorem execAlarmFire_sound {alarm : Fin 8}
    (fr : Free K [.regs, .mem, .time, .ledger, .views, .act, .acct, .net, .em, .pa, .he, .ev, .rs, .outbox, .freeCtr])
    (h : Sound K C z s) :
    SoundOut K C z (execAlarmFire alarm s) := by
  unfold execAlarmFire
  exact .next (alarmFire_sound fr h)

theorem runTimeLoadProfile_sound {x : CmdCall}
    (fr : Free K [.regs, .tables, .mem, .bases, .time, .ledger, .views, .ports, .act, .acct, .net, .em, .pa, .he, .ev,
      .rs, .outbox, .freeCtr])
    (h : Sound K C z s) :
    Sound K C z (runTimeLoadProfile x s).1 := by
  unfold runTimeLoadProfile
  split
  · exact h
  · extract_lets s1
    have hs1 : Sound K C z s1 := forEach_sound h (fun _ _ ht => tbPut_sound fr ht)
    exact fbset_sound (fr.mono rfl) (fbset_sound (fr.mono rfl) hs1)

theorem execTimeLoadProfile_sound {c : CmdCall}
    (fr : Free K [.regs, .tables, .mem, .bases, .time, .ledger, .views, .ports, .act, .acct, .net, .toll, .em, .pa, .he,
      .ev, .mb, .rs, .outbox, .freeCtr])
    (h : Sound K C z s) :
    SoundOut K C z (execTimeLoadProfile c s) := by
  unfold execTimeLoadProfile
  exact .next (mbRun_sound (fr.mono rfl) (fun _ _ ht => runTimeLoadProfile_sound (fr.mono rfl) ht) h)

theorem runTimeAlign_sound {x : CmdCall} (fr : Free K [.regs, .bases, .time, .he, .outbox, .freeCtr]) (h : Sound K C z s)
    :
    Sound K C z (runTimeAlign x s).1 := by
  unfold runTimeAlign
  exact .ite1 (fun _ => tbAlign_sound fr h) (fun _ => h)

theorem execTimeAlign_sound {c : CmdCall} (fr : Free K [.regs, .bases, .time, .net, .toll, .he, .mb, .outbox, .freeCtr])
    (h : Sound K C z s) :
    SoundOut K C z (execTimeAlign c s) := by
  unfold execTimeAlign
  exact .next (mbRun_sound (fr.mono rfl) (fun _ _ ht => runTimeAlign_sound (fr.mono rfl) ht) h)

theorem runTimeStep_sound {c : CmdCall} (fr : Free K [.bases, .time]) (h : Sound K C z s) :
    Sound K C z (runTimeStep c s).1 := by
  unfold runTimeStep
  exact .ite1 (fun _ => h) (fun _ => .ite1 (fun _ => h) (fun _ => tbAdd_sound fr h))

theorem execTimeStep_sound {c : CmdCall} (fr : Free K [.regs, .bases, .time, .net, .toll, .he, .mb, .outbox, .freeCtr])
    (h : Sound K C z s) :
    SoundOut K C z (execTimeStep c s) := by
  unfold execTimeStep
  exact .next (mbRun_sound (fr.mono rfl) (fun _ _ ht => runTimeStep_sound (fr.mono rfl) ht) h)

end Sys2Proof.Machine
end

section
/-! SUPPORT. What each operation of Machine/Chain.lean leaves unchanged (the rules are in Laws/Sound.lean). -/

namespace Sys2Proof.Machine

set_option Elab.async false

variable {K : Comp → Prop} {C : Prop} {z s t : State}

theorem epochStart_sound {p : Nat} (fr : Free K [.regs, .time, .net, .he, .outbox]) (h : Sound K C z s) :
    Sound K C z (epochStart p s) := by
  unfold epochStart
  extract_lets z' offer s1 s2
  have hs1 : Sound K C z s1 := setNetPort_sound (fr.mono rfl) h
  have hs2 : Sound K C z s2 := forEach_sound hs1 (fun _ _ ht => fset_sound (fr.mono rfl) ht)
  exact sendHello_sound (fr.mono rfl) (upstreamActive_sound (fr.mono rfl) (syncAvail_sound (fr.mono rfl) (cnt_sound
    (fr.mono rfl) hs2)))

theorem hostKeep_sound (fr : Free K [.regs]) (h : Sound K C z s) :
    Sound K C z (hostKeep s) := by
  unfold hostKeep
  exact fbset_sound fr h

theorem hostSelect_sound (fr : Free K [.regs]) (h : Sound K C z s) :
    Sound K C z (hostSelect s) := by
  unfold hostSelect
  extract_lets may
  refine hostKeep_sound fr ?_
  split
  · exact fset_sound fr h
  · exact h

theorem hostFree_sound (fr : Free K [.regs]) (h : Sound K C z s) :
    Sound K C z (hostFree s) := by
  unfold hostFree
  exact .ite (fun _ => hostKeep_sound fr h) (fun _ => hostSelect_sound fr h)

theorem remoteLost_sound (fr : Free K [.regs, .mb]) (h : Sound K C z s) :
    Sound K C z (remoteLost s) := by
  unfold remoteLost
  refine forEach_sound h (fun c t ht => ?_)
  extract_lets gone t1
  have ht1 : Sound K C z t1 := updChan_sound (fr.mono rfl) ht
  exact forEach_sound ht1 (fun _ _ hu => complete_sound fr hu)

theorem flipUpdate_sound (fr : Free K [.regs]) (h : Sound K C z s) :
    Sound K C z (flipUpdate s) := by
  unfold flipUpdate
  refine .ite (fun _ => h) (fun _ => ?_)
  split
  · exact fbset_sound fr h
  · exact fbset_sound fr h
  · exact h

theorem buildRoutes_sound (fr : Free K [.regs]) (h : Sound K C z s) :
    Sound K C z (buildRoutes s) := by
  unfold buildRoutes
  extract_lets s1 s2
  have hs1 : Sound K C z s1 := forEach_sound (flipUpdate_sound fr h) (fun _ _ ht => wrn_sound fr ht)
  have hs2 : Sound K C z s2 := forEach_sound hs1 (fun _ _ ht1 => .ite (fun _ => ht1) (fun _ => setRoute_sound fr ht1))
  exact .ite (fun _ => hs2) (fun _ => setRoute_sound fr hs2)

theorem takeChain_sound {l : List ChainUnit} {floor : Nat} {epoch : Nat} (fr : Free K [.regs, .net, .he, .mb, .outbox])
    (h : Sound K C z s) :
    Sound K C z (takeChain l floor epoch s) := by
  unfold takeChain
  extract_lets src s1
  have hs1 : Sound K C z s1 := fset_sound (fr.mono rfl) (fset_sound (fr.mono rfl) (.setNet (fr.mono rfl) h))
  exact helloOnChange_sound (fr.mono rfl) (remoteLost_sound (fr.mono rfl) (hostSelect_sound (fr.mono rfl) (evt_sound
    (fr.mono rfl) (buildRoutes_sound (fr.mono rfl) hs1))))

theorem keepChain_sound {pl : List Byte} (fr : Free K [.net]) (h : Sound K C z s) :
    Sound K C z (keepChain pl s) := by
  unfold keepChain
  exact .setNet fr h

theorem sweepHolds_sound (fr : Free K [.net]) (h : Sound K C z s) :
    Sound K C z (sweepHolds s) := by
  unfold sweepHolds
  extract_lets w src
  exact .setNet fr h

theorem sendChain_sound (fr : Free K [.regs, .net, .he, .mb, .outbox]) (h : Sound K C z s) :
    Sound K C z (sendChain s) := by
  unfold sendChain
  extract_lets l f same e d s1
  have hs1 : Sound K C z s1 := netBcast_sound (fr.mono rfl) h
  exact .ite (fun _ => hs1) (fun _ => takeChain_sound fr (keepChain_sound (fr.mono rfl) hs1))

theorem publish_sound (fr : Free K [.regs, .net, .he, .mb, .outbox]) (h : Sound K C z s) :
    Sound K C z (publish s) := by
  unfold publish
  refine .ite (fun _ => h) (fun _ => ?_)
  extract_lets s1
  have hs1 : Sound K C z s1 := sweepHolds_sound (fr.mono rfl) h
  exact .ite (fun _ => hs1) (fun _ => sendChain_sound fr hs1)

theorem sendReport_sound (fr : Free K [.regs, .net, .he, .mb, .outbox, .freeCtr]) (h : Sound K C z s) :
    Sound K C z (sendReport s) := by
  unfold sendReport
  exact .ite (fun _ => publish_sound (fr.mono rfl) h) (fun _ => reportSend_sound (fr.mono rfl) h)

theorem setUpstream_sound {u : Nat} (fr : Free K [.regs, .time]) (h : Sound K C z s) :
    Sound K C z (setUpstream u s) := by
  unfold setUpstream
  extract_lets s1
  have hs1 : Sound K C z s1 := fset_sound (fr.mono rfl) h
  exact .ite (fun _ => hs1) (fun _ => delaysFresh_sound (fr.mono rfl) hs1)

theorem upstreamUpdate_sound (fr : Free K [.regs, .time]) (h : Sound K C z s) :
    Sound K C z (upstreamUpdate s) := by
  unfold upstreamUpdate
  refine .ite (fun _ => h) (fun _ => ?_)
  extract_lets r s1
  have hs1 : Sound K C z s1 := fset_sound (fr.mono rfl) (setUpstream_sound fr h)
  exact flipUpdate_sound (fr.mono rfl) (fbset_sound (fr.mono rfl) hs1)

theorem sendEnum_sound {p : Nat} {east : Bool} {pier : Nat} (fr : Free K [.regs, .net, .he, .outbox]) (h : Sound K C z s)
    :
    Sound K C z (sendEnum p east pier s) := by
  unfold sendEnum
  exact netLocal_sound fr (setNetPort_sound (fr.mono rfl) h)

theorem holdInsert_sound {i : Nat} {h' : PierHold} (fr : Free K [.net]) (h : Sound K C z s) :
    Sound K C z (holdInsert s i h') := by
  unfold holdInsert
  extract_lets side rest src
  exact .setNet fr h

theorem updHold_sound {pier : Nat} {f : PierHold → PierHold} (fr : Free K [.net]) (h : Sound K C z s) :
    Sound K C z (updHold s pier f) := by
  unfold updHold
  exact .setNet fr h

theorem assignNext_sound {east : Bool} {place : Nat} {serial : Nat} (fr : Free K [.regs, .net, .he, .outbox])
    (h : Sound K C z s) :
    Sound K C z (assignNext east place serial s).1 := by
  unfold assignNext
  extract_lets n
  exact .ite1 (fun _ => evt_sound (fr.mono rfl) h) (fun _ => holdInsert_sound (fr.mono rfl) (fset_sound (fr.mono rfl) h))

theorem sendAssign_sound {to_ : Nat} {serial : Nat} {n : Option Nat} (fr : Free K [.regs, .net, .he, .outbox])
    (h : Sound K C z s) :
    Sound K C z (sendAssign to_ serial n s) := by
  unfold sendAssign
  exact netSend_sound fr h

theorem answerReq_sound {to_ : Nat} {serial : Nat} {east : Bool} (fr : Free K [.regs, .net, .he, .outbox])
    (h : Sound K C z s) :
    Sound K C z (answerReq to_ serial east s) := by
  unfold answerReq
  extract_lets place r
  have hr : Sound K C z r.1 := assignNext_sound fr h
  exact sendAssign_sound fr hr

theorem pierReq_sound {p : Nat} (fr : Free K [.regs, .net, .he, .outbox]) (h : Sound K C z s) :
    Sound K C z (pierReq p s) := by
  unfold pierReq
  split
  · exact h
  · extract_lets due r
    have hr : Sound K C z r.1 := assignNext_sound fr h
    refine .ite (fun _ => h) (fun _ => .ite (fun _ => .ite (fun _ => h) (fun _ => ?_)) (fun _ => .ite (fun _ => h) (fun _
      => netSend_sound fr (setNetPort_sound (fr.mono rfl) h))))
    split
    · exact setNetPort_sound (fr.mono rfl) hr
    · exact sendEnum_sound fr hr

theorem pierReqs_sound (fr : Free K [.regs, .net, .he, .outbox]) (h : Sound K C z s) :
    Sound K C z (pierReqs s) := by
  unfold pierReqs
  extract_lets q src
  exact forEach_sound (forEach_sound (.setNet (fr.mono rfl) h) (fun _ _ hs => answerReq_sound fr hs)) (fun _ _ hs1 =>
    pierReq_sound fr hs1)

theorem setStage_sound {e : EnumStage} (fr : Free K [.net]) (h : Sound K C z s) :
    Sound K C z (setStage e s) := by
  unfold setStage
  exact .setNet fr h

theorem enumComplete_sound (fr : Free K [.regs, .net, .he, .mb, .outbox, .freeCtr]) (h : Sound K C z s) :
    Sound K C z (enumComplete s) := by
  unfold enumComplete
  exact forEach_sound h (fun _ _ ht => endD_sound fr ht)

theorem enumFinish_sound (fr : Free K [.regs, .net, .he, .mb, .outbox, .freeCtr]) (h : Sound K C z s) :
    Sound K C z (enumFinish s) := by
  unfold enumFinish
  extract_lets big s1
  have hs1 : Sound K C z s1 := setStage_sound (fr.mono rfl) (fset_sound (fr.mono rfl) h)
  exact pierReqs_sound (fr.mono rfl) (enumComplete_sound fr (sendChain_sound (fr.mono rfl) (sweepHolds_sound (fr.mono rfl)
    hs1)))

theorem enumWest_sound (fr : Free K [.regs, .net, .he, .mb, .outbox, .freeCtr]) (h : Sound K C z s) :
    Sound K C z (enumWest s) := by
  unfold enumWest
  extract_lets src s1
  have hs1 : Sound K C z s1 := .setNet (fr.mono rfl) h
  exact .ite (fun _ => enumFinish_sound fr hs1) (fun _ => .ite (fun _ => enumFinish_sound fr (evt_sound (fr.mono rfl)
    hs1)) (fun _ => setStage_sound (fr.mono rfl) (sendEnum_sound (fr.mono rfl) hs1)))

theorem enumStart_sound (fr : Free K [.regs, .net, .he, .mb, .outbox, .freeCtr]) (h : Sound K C z s) :
    Sound K C z (enumStart s) := by
  unfold enumStart
  extract_lets src s1
  have hs1 : Sound K C z s1 := .setNet (fr.mono rfl) h
  exact .ite (fun _ => setStage_sound (fr.mono rfl) (sendEnum_sound (fr.mono rfl) hs1)) (fun _ => enumWest_sound fr hs1)

theorem linkEntered_sound {p : Nat} (fr : Free K [.regs, .time, .net, .he, .mb, .outbox, .freeCtr]) (h : Sound K C z s) :
    Sound K C z (linkEntered p s) := by
  unfold linkEntered
  extract_lets s1
  have hs1 : Sound K C z s1 := epochStart_sound (fr.mono rfl) h
  exact .ite (fun _ => enumStart_sound (fr.mono rfl) hs1) (fun _ => sendReport_sound (fr.mono rfl) hs1)

theorem dropQueues_sound {p : Nat} (fr : Free K [.regs, .net, .he, .outbox]) (h : Sound K C z s) :
    Sound K C z (dropQueues p s) := by
  unfold dropQueues
  extract_lets n fwd k s1 s2
  have hs1 : Sound K C z s1 := by
    refine forEach_sound h (fun t u hu => ?_)
    split
    · exact freeCredits_sound (fr.mono rfl) hu
    · exact hu
  have hs2 : Sound K C z s2 := setNetPort_sound (fr.mono rfl) hs1
  exact .ite (fun _ => hs2) (fun _ => evt_sound (fr.mono rfl) (cntAdd_sound (fr.mono rfl) hs2))

theorem clearRoutes_sound {p : Nat} (fr : Free K [.regs]) (h : Sound K C z s) :
    Sound K C z (clearRoutes p s) := by
  unfold clearRoutes
  exact forEach_sound h (fun _ _ ht => wrn_sound fr ht)

theorem dropDisabled_sound {p : Nat} (fr : Free K [.regs, .net, .he, .outbox]) (h : Sound K C z s) :
    Sound K C z (dropDisabled p s) := by
  unfold dropDisabled
  extract_lets n gone keep s1 k
  have hs1 : Sound K C z s1 := setNetPort_sound (fr.mono rfl) h
  refine forEach_sound (.ite (fun _ => hs1) (fun _ => dropNoRoute_sound (fr.mono rfl) hs1)) (fun t u hu => ?_)
  split
  · exact freeCredits_sound (fr.mono rfl) (dropNoRoute_sound (fr.mono rfl) hu)
  · exact hu

theorem portDown_sound {p : Nat} (fr : Free K [.regs, .time, .net, .he, .mb, .outbox, .freeCtr]) (h : Sound K C z s) :
    Sound K C z (portDown p s) := by
  unfold portDown
  extract_lets s1 s2 s3
  have hs1 : Sound K C z s1 := dropQueues_sound (fr.mono rfl) h
  have hs2 : Sound K C z s2 := clearRoutes_sound (fr.mono rfl) hs1
  have hs3 : Sound K C z s3 := fbset_sound (fr.mono rfl) hs2
  exact helloOnChange_sound (fr.mono rfl) (sendReport_sound (fr.mono rfl) (remoteLost_sound (fr.mono rfl)
    (hostSelect_sound (fr.mono rfl) (upstreamUpdate_sound (fr.mono rfl) hs3))))

end Sys2Proof.Machine
end

section
/-! SUPPORT. What each operation of Machine/SpanLanes.lean leaves unchanged (the rules are in Laws/Sound.lean). -/

namespace Sys2Proof.Machine

set_option Elab.async false

variable {K : Comp → Prop} {C : Prop} {z s t : State}

theorem dennilOnly_sound {ag : Agent} {changes : Bool} {f : State → State} (fr : Free K [.regs, .he, .outbox])
    (hf : ∀ t, Sound K C z t → Sound K C z (f t)) (h : Sound K C z s) :
    Sound K C z (dennilOnly ag changes f s) := by
  unfold dennilOnly
  split
  · exact hf _ h
  · exact .ite (fun _ => noLease_sound fr h) (fun _ => h)

theorem updLanes_sound {p : Nat} {f : LanePort → LanePort} (fr : Free K [.lanes]) (h : Sound K C z s) :
    Sound K C z (updLanes s p f) := by
  unfold updLanes
  exact .setLanes fr h

theorem setLanes_sound {f : Fld} {p : Nat} {m : Nat} (fr : Free K [.regs]) (h : Sound K C z s) :
    Sound K C z (setLanes f p m s) := by
  unfold setLanes
  exact forEach_sound h (fun _ _ ht => fbset_sound fr ht)

theorem latchLanes_sound {p : Nat} (fr : Free K [.lanes]) (h : Sound K C z s) :
    Sound K C z (latchLanes p s) := by
  unfold latchLanes
  exact updLanes_sound fr h

theorem eyePut_sound {p : Nat} {b : Nat} {e : Nat} (fr : Free K [.regs]) (h : Sound K C z s) :
    Sound K C z (eyePut p b e s) := by
  unfold eyePut
  extract_lets s1
  have hs1 : Sound K C z s1 := wrn_sound fr (wrn_sound fr h)
  exact wrn_sound fr (wrn_sound fr hs1)

theorem eyeRise_sound {p : Nat} (fr : Free K [.regs, .freeCtr]) (h : Sound K C z s) :
    Sound K C z (eyeRise p s) := by
  unfold eyeRise
  refine .ite (fun _ => h) (fun _ => ?_)
  extract_lets c up s1
  have hs1 : Sound K C z s1 := useFree_sound (fr.mono rfl) h
  exact eyePut_sound (fr.mono rfl) (useFree_sound (fr.mono rfl) hs1)

theorem eyeStop_sound {p : Nat} {aborted : Bool} (fr : Free K [.regs, .he, .outbox]) (h : Sound K C z s) :
    Sound K C z (eyeStop p aborted s) := by
  unfold eyeStop
  exact evt_sound fr (fbset_sound (fr.mono rfl) (fbset_sound (fr.mono rfl) h))

theorem eyeCmdEnd_sound {p : Nat} {data : Option (List Byte)}
    (fr : Free K [.regs, .net, .lanes, .toll, .he, .mb, .outbox, .freeCtr]) (h : Sound K C z s) :
    Sound K C z (eyeCmdEnd p data s) := by
  unfold eyeCmdEnd
  refine forEach_sound (updLanes_sound (fr.mono rfl) h) (fun x t ht => ?_)
  split
  · exact endHost_sound (fr.mono rfl) ht
  · exact endD_sound (fr.mono rfl) ht

theorem eyeAbort_sound {p : Nat} (fr : Free K [.regs, .net, .lanes, .toll, .he, .mb, .outbox, .freeCtr])
    (h : Sound K C z s) :
    Sound K C z (eyeAbort p s) := by
  unfold eyeAbort
  exact .ite (fun _ => h) (fun _ => eyeCmdEnd_sound fr (eyeStop_sound (fr.mono rfl) (eyeRise_sound (fr.mono rfl) h)))

theorem eyeBegin_sound {p : Nat} (fr : Free K [.regs, .net, .lanes, .toll, .he, .mb, .outbox, .freeCtr])
    (h : Sound K C z s) :
    Sound K C z (eyeBegin p s) := by
  unfold eyeBegin
  extract_lets s1
  have hs1 : Sound K C z s1 := fbset_sound (fr.mono rfl) (fbset_sound (fr.mono rfl) (eyePut_sound (fr.mono rfl) h))
  exact .ite (fun _ => hs1) (fun _ => eyeAbort_sound fr hs1)

theorem eyeNext_sound {p : Nat} {g : EyeGrid} (fr : Free K [.regs, .net, .lanes, .toll, .he, .mb, .outbox, .freeCtr])
    (h : Sound K C z s) :
    Sound K C z (eyeNext p g s) := by
  unfold eyeNext
  split
  · exact eyeCmdEnd_sound fr h
  · exact eyeBegin_sound fr (fset_sound (fr.mono rfl) (fset_sound (fr.mono rfl) (updLanes_sound (fr.mono rfl) h)))

theorem eyeDone_sound {p : Nat} {errs : Nat} (fr : Free K [.regs, .net, .lanes, .toll, .he, .mb, .outbox, .freeCtr])
    (h : Sound K C z s) :
    Sound K C z (eyeDone p errs s) := by
  unfold eyeDone
  refine .ite (fun _ => h) (fun _ => ?_)
  extract_lets c e s1
  have hs1 : Sound K C z s1 := eyeStop_sound (fr.mono rfl) (eyePut_sound (fr.mono rfl) h)
  split
  · exact hs1
  · exact eyeNext_sound fr hs1

theorem eyeCtl_sound {p : Nat} {v : Nat} (fr : Free K [.regs, .net, .lanes, .toll, .he, .mb, .outbox, .freeCtr])
    (h : Sound K C z s) :
    Sound K C z (eyeCtl p v s) := by
  unfold eyeCtl
  extract_lets s1
  have hs1 : Sound K C z s1 := .ite (fun _ => h) (fun _ => fset_sound (fr.mono rfl) (fset_sound (fr.mono rfl) (fset_sound
      (fr.mono rfl) (fset_sound (fr.mono rfl) h))))
  exact .ite (fun _ => eyeBegin_sound fr hs1) (fun _ => hs1)

theorem sendTs_sound {p : Nat} (fr : Free K [.outbox]) (h : Sound K C z s) :
    Sound K C z (sendTs p s) := by
  unfold sendTs
  exact forEach_sound h (fun _ _ ht => emit_sound fr ht)

theorem sendExch_sound {p : Nat} {ack : Bool} (fr : Free K [.outbox]) (h : Sound K C z s) :
    Sound K C z (sendExch p ack s) := by
  unfold sendExch
  exact emit_sound fr h

theorem withCut_sound {p : Nat} {f : Fin 3 → State → State} (fr : Free K [.freeCtr])
    (hf : ∀ x0 t, Sound K C z t → Sound K C z (f x0 t)) (h : Sound K C z s) :
    Sound K C z (withCut p f s) := by
  unfold withCut
  exact .ite (fun _ => hf _ _ (useFree_sound fr h)) (fun _ => hf _ _ h)

theorem leaveActive_sound {p : Nat} {cut : Fin 3} (fr : Free K [.regs, .net, .lanes, .toll, .he, .mb, .outbox, .freeCtr])
    (h : Sound K C z s) :
    Sound K C z (leaveActive p cut s) := by
  unfold leaveActive
  refine .ite (fun _ => h) (fun _ => ?_)
  extract_lets s1 s2
  have hs1 : Sound K C z s1 := eyeAbort_sound fr (cntAdd_sound (fr.mono rfl) h)
  have hs2 : Sound K C z s2 := setLanes_sound (fr.mono rfl) (fset_sound (fr.mono rfl) hs1)
  exact setNetPort_sound (fr.mono rfl) hs2

theorem enterDetect_sound {p : Nat} {cut : Fin 3}
    (fr : Free K [.regs, .time, .ports, .net, .lanes, .toll, .pa, .he, .ev, .mb, .outbox, .freeCtr]) (h : Sound K C z s) :
    Sound K C z (enterDetect p cut s) := by
  unfold enterDetect
  extract_lets s1
  have hs1 : Sound K C z s1 := latchLanes_sound (fr.mono rfl) (fset_sound (fr.mono rfl) (leaveActive_sound (fr.mono rfl)
      h))
  exact replaceUpdate_sound (fr.mono rfl) (portDown_sound (fr.mono rfl) (updLanes_sound (fr.mono rfl) hs1))

theorem enterDisabled_sound {p : Nat} {cut : Fin 3}
    (fr : Free K [.regs, .time, .ports, .net, .lanes, .toll, .pa, .he, .ev, .mb, .outbox, .freeCtr]) (h : Sound K C z s) :
    Sound K C z (enterDisabled p cut s) := by
  unfold enterDisabled
  extract_lets s1
  have hs1 : Sound K C z s1 := fset_sound (fr.mono rfl) (leaveActive_sound (fr.mono rfl) h)
  exact replaceUpdate_sound (fr.mono rfl) (portDown_sound (fr.mono rfl) hs1)

theorem enterTrain_sound {p : Nat} {rate : Nat} {quick : Bool} (fr : Free K [.regs, .lanes, .outbox]) (h : Sound K C z s)
    :
    Sound K C z (enterTrain p rate quick s) := by
  unfold enterTrain
  extract_lets s1 l m s2 s3
  have hs1 : Sound K C z s1 := latchLanes_sound (fr.mono rfl) h
  have hs2 : Sound K C z s2 := fset_sound (fr.mono rfl) (fset_sound (fr.mono rfl) hs1)
  have hs3 : Sound K C z s3 := setLanes_sound (fr.mono rfl) (setLanes_sound (fr.mono rfl) hs2)
  exact sendTs_sound (fr.mono rfl) (updLanes_sound (fr.mono rfl) hs3)

theorem quickRetrain_sound {p : Nat} {cut : Fin 3}
    (fr : Free K [.regs, .ports, .net, .lanes, .toll, .pa, .he, .ev, .mb, .outbox, .freeCtr]) (h : Sound K C z s) :
    Sound K C z (quickRetrain p cut s) := by
  unfold quickRetrain
  refine .ite (fun _ => h) (fun _ => ?_)
  extract_lets s1
  have hs1 : Sound K C z s1 := cnt_sound (fr.mono rfl) (leaveActive_sound (fr.mono rfl) h)
  exact replaceUpdate_sound (fr.mono rfl) (enterTrain_sound (fr.mono rfl) hs1)

theorem retrainDone_sound {p : Nat} (fr : Free K [.regs, .net, .he, .mb, .outbox, .freeCtr]) (h : Sound K C z s) :
    Sound K C z (retrainDone p s) := by
  unfold retrainDone
  exact forEach_sound h (fun _ _ ht => endD_sound fr ht)

theorem linkDown_sound {p : Nat} {cut : Fin 3}
    (fr : Free K [.regs, .time, .ports, .net, .lanes, .toll, .pa, .he, .ev, .mb, .outbox, .freeCtr]) (h : Sound K C z s) :
    Sound K C z (linkDown p cut s) := by
  unfold linkDown
  exact .ite (fun _ => h) (fun _ => retrainDone_sound (fr.mono rfl) (evt_sound (fr.mono rfl) (cnt_sound (fr.mono rfl)
    (enterDetect_sound fr h))))

theorem detect_sound {p : Nat} {term : Nat}
    (fr : Free K [.regs, .ports, .net, .lanes, .pa, .he, .ev, .mb, .outbox, .freeCtr]) (h : Sound K C z s) :
    Sound K C z (detect p term s) := by
  unfold detect
  refine .ite (fun _ => h) (fun _ => ?_)
  extract_lets m s1
  have hs1 : Sound K C z s1 := setLanes_sound (fr.mono rfl) h
  exact .ite (fun _ => latchLanes_sound (fr.mono rfl) h) (fun _ => enterTrain_sound (fr.mono rfl) (replaceUpdate_sound
    (fr.mono rfl) (updLanes_sound (fr.mono rfl) hs1)))

theorem enterLock_sound {p : Nat} {locked : Nat} (fr : Free K [.regs, .lanes, .outbox]) (h : Sound K C z s) :
    Sound K C z (enterLock p locked s) := by
  unfold enterLock
  extract_lets m
  exact sendTs_sound (fr.mono rfl) (fset_sound (fr.mono rfl) (setLanes_sound (fr.mono rfl) (updLanes_sound (fr.mono rfl)
    h)))

theorem bitLock_sound {p : Nat} {locked : Nat} {inv : Nat} (fr : Free K [.regs, .lanes, .outbox]) (h : Sound K C z s) :
    Sound K C z (bitLock p locked inv s) := by
  unfold bitLock
  extract_lets l m s1
  have hs1 : Sound K C z s1 := forEach_sound h (fun _ _ ht => fbset_sound (fr.mono rfl) ht)
  exact .ite (fun _ => h) (fun _ => .ite (fun _ => enterLock_sound fr hs1) (fun _ => setLanes_sound (fr.mono rfl) hs1))

theorem lockDone_sound {p : Nat} {ok : Nat} {plane : List (Fin 4)} (fr : Free K [.regs, .lanes, .outbox])
    (h : Sound K C z s) :
    Sound K C z (lockDone p ok plane s) := by
  unfold lockDone
  extract_lets m s1 s2
  have hs1 : Sound K C z s1 := setLanes_sound (fr.mono rfl) (updLanes_sound (fr.mono rfl) h)
  have hs2 : Sound K C z s2 := forEach_sound hs1 (fun _ _ ht => fset_sound (fr.mono rfl) ht)
  exact .ite (fun _ => h) (fun _ => sendExch_sound (fr.mono rfl) (fset_sound (fr.mono rfl) (sendTs_sound (fr.mono rfl)
    hs2)))

theorem attemptFails_sound {p : Nat}
    (fr : Free K [.regs, .time, .ports, .net, .lanes, .toll, .pa, .he, .ev, .mb, .outbox, .freeCtr]) (h : Sound K C z s) :
    Sound K C z (attemptFails p s) := by
  unfold attemptFails
  extract_lets l rate both next
  exact .ite (fun _ => enterDetect_sound fr h) (fun _ => enterTrain_sound (fr.mono rfl) (updLanes_sound (fr.mono rfl) h))

theorem stateTimeout_sound {p : Nat} {locked : Nat}
    (fr : Free K [.regs, .time, .ports, .net, .lanes, .toll, .pa, .he, .ev, .mb, .outbox, .freeCtr]) (h : Sound K C z s) :
    Sound K C z (stateTimeout p locked s) := by
  unfold stateTimeout
  extract_lets st s1
  have hs1 : Sound K C z s1 := evtCnt_sound (fr.mono rfl) h
  exact .ite (fun _ => h) (fun _ => .ite (fun _ => enterLock_sound (fr.mono rfl) hs1) (fun _ => attemptFails_sound fr
    hs1))

theorem enterActive_sound {p : Nat} {rxOk : Nat} {c : Nat} {ver : Nat} {offered : Nat}
    (fr : Free K [.regs, .mem, .time, .ledger, .views, .ports, .act, .acct, .net, .em, .pa, .he, .ev, .mb, .rs, .outbox,
      .freeCtr])
    (h : Sound K C z s) :
    Sound K C z (enterActive p rxOk c ver offered s) := by
  unfold enterActive
  extract_lets s1 inUse used s2 low s3 s4
  have hs1 : Sound K C z s1 := fset_sound (fr.mono rfl) (fset_sound (fr.mono rfl) h)
  have hs2 : Sound K C z s2 := setLanes_sound (fr.mono rfl) (fset_sound (fr.mono rfl) hs1)
  have hs3 : Sound K C z s3 := fset_sound (fr.mono rfl) hs2
  have hs4 : Sound K C z s4 := replaceUpdate_sound (fr.mono rfl) (.ite (fun _ => paDetect_sound (fr.mono rfl) hs3) (fun _
      => hs3))
  exact retrainDone_sound (fr.mono rfl) (linkEntered_sound (fr.mono rfl) (evt_sound (fr.mono rfl) hs4))

theorem exchangeDone_sound {p : Nat} {exch : List Byte} {offered : Nat}
    (fr : Free K [.regs, .mem, .time, .ledger, .views, .ports, .act, .acct, .net, .lanes, .toll, .em, .pa, .he, .ev, .mb,
      .rs, .outbox, .freeCtr])
    (h : Sound K C z s) :
    Sound K C z (exchangeDone p exch offered s) := by
  unfold exchangeDone
  extract_lets c s0 s1 s2 l hi both target
  have hs0 : Sound K C z s0 := sendExch_sound (fr.mono rfl) h
  have hs1 : Sound K C z s1 := wrn_sound (fr.mono rfl) (wrn_sound (fr.mono rfl) hs0)
  have hs2 : Sound K C z s2 := wrn_sound (fr.mono rfl) hs1
  exact .ite (fun _ => h) (fun _ => .ite (fun _ => retrainDone_sound (fr.mono rfl) (evt_sound (fr.mono rfl)
    (enterDisabled_sound (fr.mono rfl) hs2))) (fun _ => .ite (fun _ => enterTrain_sound (fr.mono rfl) hs2) (fun _ =>
    enterActive_sound (fr.mono rfl) hs2)))

theorem portEnable_sound {p : Nat} {en : Bool} {cut : Fin 3}
    (fr : Free K [.regs, .time, .ports, .net, .lanes, .toll, .pa, .he, .ev, .mb, .outbox, .freeCtr]) (h : Sound K C z s) :
    Sound K C z (portEnable p en cut s) := by
  unfold portEnable
  extract_lets s1
  have hs1 : Sound K C z s1 := fbset_sound (fr.mono rfl) h
  exact .ite (fun _ => enterDisabled_sound fr hs1) (fun _ => .ite (fun _ => enterDetect_sound fr hs1) (fun _ => hs1))

theorem laneErrors_sound {p : Nat} {lane : Nat} {cv : Nat} {disp : Nat} (fr : Free K [.regs, .lanes]) (h : Sound K C z s)
    :
    Sound K C z (laneErrors p lane cv disp s) := by
  unfold laneErrors
  extract_lets s1
  have hs1 : Sound K C z s1 := cntAdd_sound (fr.mono rfl) (cntAdd_sound (fr.mono rfl) h)
  exact .ite (fun _ => hs1) (fun _ => updLanes_sound (fr.mono rfl) hs1)

theorem lanesFail_sound {p : Nat} {lanes : List Nat} {cut : Fin 3}
    (fr : Free K [.regs, .time, .ports, .net, .lanes, .toll, .pa, .he, .ev, .mb, .outbox, .freeCtr]) (h : Sound K C z s) :
    Sound K C z (lanesFail p lanes cut s) := by
  unfold lanesFail
  extract_lets used f s1
  have hs1 : Sound K C z s1 := evt_sound (fr.mono rfl) (forEach_sound h (fun _ _ ht => fbset_sound (fr.mono rfl) ht))
  exact .ite (fun _ => h) (fun _ => .ite (fun _ => linkDown_sound fr hs1) (fun _ => quickRetrain_sound (fr.mono rfl) hs1))

theorem laneFail_sound {p : Nat} {lane : Nat} {cv : Nat} {disp : Nat} {comMiss : Bool} {cut : Fin 3}
    (fr : Free K [.regs, .time, .ports, .net, .lanes, .toll, .pa, .he, .ev, .mb, .outbox, .freeCtr]) (h : Sound K C z s) :
    Sound K C z (laneFail p lane cv disp comMiss cut s) := by
  unfold laneFail
  extract_lets s1 fails
  have hs1 : Sound K C z s1 := laneErrors_sound (fr.mono rfl) h
  exact lanesFail_sound fr hs1

theorem fullBringUp_sound {p : Nat}
    (fr : Free K [.regs, .time, .ports, .net, .lanes, .toll, .pa, .he, .ev, .mb, .outbox, .freeCtr]) (h : Sound K C z s) :
    Sound K C z (fullBringUp p s) := by
  unfold fullBringUp
  exact .ite (fun _ => withCut_sound (fr.mono rfl) (fun _ _ ht => enterDetect_sound fr ht) h) (fun _ => h)

theorem retrain_sound {p : Nat} {full : Bool} {cut : Fin 3}
    (fr : Free K [.regs, .time, .ports, .net, .lanes, .toll, .pa, .he, .ev, .mb, .outbox, .freeCtr]) (h : Sound K C z s) :
    Sound K C z (retrain p full cut s) := by
  unfold retrain
  extract_lets s1
  have hs1 : Sound K C z s1 := fbset_sound (fr.mono rfl) h
  exact .ite (fun _ => hs1) (fun _ => .ite (fun _ => enterDetect_sound fr hs1) (fun _ => quickRetrain_sound (fr.mono rfl)
    hs1))

theorem skipReceive_sound {p : Nat} {adj : Bool} {cv : List Nat} {disp : List Nat} {osErr : Nat}
    (fr : Free K [.regs, .time, .ports, .net, .lanes, .toll, .pa, .he, .ev, .mb, .outbox, .freeCtr]) (h : Sound K C z s) :
    Sound K C z (skipReceive p adj cv disp osErr s) := by
  unfold skipReceive
  refine .ite (fun _ => h) (fun _ => ?_)
  extract_lets s1 s2 f
  have hs1 : Sound K C z s1 := .ite (fun _ => cnt_sound (fr.mono rfl) h) (fun _ => h)
  have hs2 : Sound K C z s2 := cntAdd_sound (fr.mono rfl) (forEach_sound hs1 (fun _ _ hs => laneErrors_sound (fr.mono rfl)
      hs))
  exact .ite (fun _ => hs2) (fun _ => withCut_sound (fr.mono rfl) (fun _ _ ht => lanesFail_sound fr ht) hs2)

theorem audReceive_sound {p : Nat} {d : List Byte}
    (fr : Free K [.regs, .mem, .ledger, .views, .act, .acct, .net, .em, .pa, .he, .ev, .rs, .outbox, .freeCtr])
    (h : Sound K C z s) :
    Sound K C z (audReceive p d s) := by
  unfold audReceive
  refine .ite (fun _ => h) (fun _ => ?_)
  extract_lets n sent diff s1 s2
  have hs1 : Sound K C z s1 := setNetPort_sound (fr.mono rfl) h
  have hs2 : Sound K C z s2 := syncAvail_sound (fr.mono rfl) hs1
  exact .ite (fun _ => hs2) (fun _ => paDetect_sound fr (evtCnt_sound (fr.mono rfl) hs2))

theorem execSpanPortEnable_sound {ag : Agent} {port : SpanNo} {en : Bool} {cut : Fin 3}
    (fr : Free K [.regs, .time, .ports, .net, .lanes, .toll, .pa, .he, .ev, .mb, .outbox, .freeCtr]) (h : Sound K C z s) :
    SoundOut K C z (execSpanPortEnable ag port en cut s) := by
  unfold execSpanPortEnable
  exact .next (dennilOnly_sound (fr.mono rfl) (fun _ ht => portEnable_sound fr ht) h)

theorem execSpanDetect_sound {port : SpanNo} {term : BitVec 4}
    (fr : Free K [.regs, .ports, .net, .lanes, .pa, .he, .ev, .mb, .outbox, .freeCtr]) (h : Sound K C z s) :
    SoundOut K C z (execSpanDetect port term s) := by
  unfold execSpanDetect
  exact .next (detect_sound fr h)

theorem execSpanBitLock_sound {port : SpanNo} {locked : BitVec 4} {inv : BitVec 4} (fr : Free K [.regs, .lanes, .outbox])
    (h : Sound K C z s) :
    SoundOut K C z (execSpanBitLock port locked inv s) := by
  unfold execSpanBitLock
  exact .next (bitLock_sound fr h)

theorem execSpanLockDone_sound {port : SpanNo} {ok : BitVec 4} {plane : List (Fin 4)}
    (fr : Free K [.regs, .lanes, .outbox]) (h : Sound K C z s) :
    SoundOut K C z (execSpanLockDone port ok plane s) := by
  unfold execSpanLockDone
  exact .next (lockDone_sound fr h)

theorem execSpanExchangeDone_sound {port : SpanNo} {exch : List Byte} {offered : Fin 5}
    (fr : Free K [.regs, .mem, .time, .ledger, .views, .ports, .act, .acct, .net, .lanes, .toll, .em, .pa, .he, .ev, .mb,
      .rs, .outbox, .freeCtr])
    (h : Sound K C z s) :
    SoundOut K C z (execSpanExchangeDone port exch offered s) := by
  unfold execSpanExchangeDone
  exact .next (exchangeDone_sound fr h)

theorem execSpanStateTimeout_sound {port : SpanNo} {locked : BitVec 4}
    (fr : Free K [.regs, .time, .ports, .net, .lanes, .toll, .pa, .he, .ev, .mb, .outbox, .freeCtr]) (h : Sound K C z s) :
    SoundOut K C z (execSpanStateTimeout port locked s) := by
  unfold execSpanStateTimeout
  exact .next (stateTimeout_sound fr h)

theorem execSpanLaneFail_sound {port : SpanNo} {lane : Fin 4} {cv : Nat} {disp : Nat} {comMiss : Bool} {cut : Fin 3}
    (fr : Free K [.regs, .time, .ports, .net, .lanes, .toll, .pa, .he, .ev, .mb, .outbox, .freeCtr]) (h : Sound K C z s) :
    SoundOut K C z (execSpanLaneFail port lane cv disp comMiss cut s) := by
  unfold execSpanLaneFail
  exact .next (laneFail_sound fr h)

theorem execSpanLinkDown_sound {port : SpanNo} {cut : Fin 3}
    (fr : Free K [.regs, .time, .ports, .net, .lanes, .toll, .pa, .he, .ev, .mb, .outbox, .freeCtr]) (h : Sound K C z s) :
    SoundOut K C z (execSpanLinkDown port cut s) := by
  unfold execSpanLinkDown
  exact .next (linkDown_sound fr h)

theorem execSpanTsReceived_sound {port : SpanNo} {cut : Fin 3}
    (fr : Free K [.regs, .ports, .net, .lanes, .toll, .pa, .he, .ev, .mb, .outbox, .freeCtr]) (h : Sound K C z s) :
    SoundOut K C z (execSpanTsReceived port cut s) := by
  unfold execSpanTsReceived
  exact .next (quickRetrain_sound fr h)

theorem execSpanRetrain_sound {ag : Agent} {port : SpanNo} {full : Bool} {cut : Fin 3}
    (fr : Free K [.regs, .time, .ports, .net, .lanes, .toll, .pa, .he, .ev, .mb, .outbox, .freeCtr]) (h : Sound K C z s) :
    SoundOut K C z (execSpanRetrain ag port full cut s) := by
  unfold execSpanRetrain
  exact .next (dennilOnly_sound (fr.mono rfl) (fun _ ht => retrain_sound fr ht) h)

theorem execSkipSend_sound {port : SpanNo} (fr : Free K [.outbox]) (h : Sound K C z s) :
    SoundOut K C z (execSkipSend port s) := by
  unfold execSkipSend
  exact .next (.ite (fun _ => emit_sound fr h) (fun _ => h))

theorem execSkipReceive_sound {port : SpanNo} {adj : Bool} {cv : List Nat} {disp : List Nat} {osErr : Nat}
    (fr : Free K [.regs, .time, .ports, .net, .lanes, .toll, .pa, .he, .ev, .mb, .outbox, .freeCtr]) (h : Sound K C z s) :
    SoundOut K C z (execSkipReceive port adj cv disp osErr s) := by
  unfold execSkipReceive
  exact .next (skipReceive_sound fr h)

theorem execCreditAuditSend_sound {port : SpanNo} (fr : Free K [.outbox]) (h : Sound K C z s) :
    SoundOut K C z (execCreditAuditSend port s) := by
  unfold execCreditAuditSend
  exact .next (.ite (fun _ => emit_sound fr h) (fun _ => h))

theorem execCreditAuditReceive_sound {port : SpanNo} {data : List Byte}
    (fr : Free K [.regs, .mem, .ledger, .views, .act, .acct, .net, .em, .pa, .he, .ev, .rs, .outbox, .freeCtr])
    (h : Sound K C z s) :
    SoundOut K C z (execCreditAuditReceive port data s) := by
  unfold execCreditAuditReceive
  exact .next (audReceive_sound fr h)

theorem execEyeScanStart_sound {ag : Agent} {port : SpanNo} {value : Word}
    (fr : Free K [.regs, .net, .lanes, .toll, .he, .mb, .outbox, .freeCtr]) (h : Sound K C z s) :
    SoundOut K C z (execEyeScanStart ag port value s) := by
  unfold execEyeScanStart
  exact .next (gated_sound (fr.mono rfl) (fun _ ht => eyeCtl_sound fr ht) h)

theorem execEyeScanDone_sound {port : SpanNo} {errs : Nat}
    (fr : Free K [.regs, .net, .lanes, .toll, .he, .mb, .outbox, .freeCtr]) (h : Sound K C z s) :
    SoundOut K C z (execEyeScanDone port errs s) := by
  unfold execEyeScanDone
  exact .next (eyeDone_sound fr h)

theorem laneCmd_sound {c : CmdCall} {f : Nat → State × CmdRes} (hf : ∀ x0, Sound K C z (f x0).1) (h : Sound K C z s) :
    Sound K C z (laneCmd c s f).1 := by
  unfold laneCmd
  exact .ite1 (fun _ => h) (fun _ => .ite1 (fun _ => h) (fun _ => hf _))

theorem runSpanLinkRetrain_sound {c : CmdCall}
    (fr : Free K [.regs, .time, .ports, .net, .lanes, .toll, .pa, .he, .ev, .mb, .outbox, .freeCtr]) (h : Sound K C z s) :
    Sound K C z (runSpanLinkRetrain c s).1 := by
  unfold runSpanLinkRetrain
  exact laneCmd_sound (fun _ => retrain_sound fr h) h

theorem execSpanLinkRetrain_sound {c : CmdCall}
    (fr : Free K [.regs, .time, .ports, .net, .lanes, .toll, .pa, .he, .ev, .mb, .outbox, .freeCtr]) (h : Sound K C z s) :
    SoundOut K C z (execSpanLinkRetrain c s) := by
  unfold execSpanLinkRetrain
  exact .next (mbRun_sound (fr.mono rfl) (fun _ _ ht => runSpanLinkRetrain_sound fr ht) h)

theorem runSpanEyeScan_sound {c : CmdCall} (fr : Free K [.regs, .net, .lanes, .toll, .he, .mb, .outbox, .freeCtr])
    (h : Sound K C z s) :
    Sound K C z (runSpanEyeScan c s).1 := by
  unfold runSpanEyeScan
  refine laneCmd_sound (fun _ => ?_) h
  extract_lets step s1
  have hs1 : Sound K C z s1 := fset_sound (fr.mono rfl) (fset_sound (fr.mono rfl) h)
  exact .ite1 (fun _ => h) (fun _ => eyeNext_sound fr hs1)

theorem execSpanEyeScan_sound {c : CmdCall} (fr : Free K [.regs, .net, .lanes, .toll, .he, .mb, .outbox, .freeCtr])
    (h : Sound K C z s) :
    SoundOut K C z (execSpanEyeScan c s) := by
  unfold execSpanEyeScan
  exact .next (mbRun_sound (fr.mono rfl) (fun _ _ ht => runSpanEyeScan_sound fr ht) h)

theorem runSpanLaneParams_sound {c : CmdCall} (fr : Free K [.regs]) (h : Sound K C z s) :
    Sound K C z (runSpanLaneParams c s).1 := by
  unfold runSpanLaneParams
  refine laneCmd_sound (fun _ => ?_) h
  extract_lets s1 s2 s3
  have hs1 : Sound K C z s1 := wrn_sound fr h
  have hs2 : Sound K C z s2 := fset_sound fr hs1
  have hs3 : Sound K C z s3 := fset_sound fr hs2
  exact fset_sound fr hs3

theorem execSpanLaneParams_sound {c : CmdCall} (fr : Free K [.regs, .net, .toll, .he, .mb, .outbox, .freeCtr])
    (h : Sound K C z s) :
    SoundOut K C z (execSpanLaneParams c s) := by
  unfold execSpanLaneParams
  exact .next (mbRun_sound fr (fun _ _ ht => runSpanLaneParams_sound (fr.mono rfl) ht) h)

end Sys2Proof.Machine
end

section
/-! SUPPORT. What each operation of Machine/Ports.lean leaves unchanged (the rules are in Laws/Sound.lean). -/

namespace Sys2Proof.Machine

set_option Elab.async false

variable {K : Comp → Prop} {C : Prop} {z s t : State}

theorem mirror_sound {p : Nat} (fr : Free K [.regs]) (h : Sound K C z s) :
    Sound K C z (mirror p s) := by
  unfold mirror
  refine .ite (fun _ => h) (fun _ => ?_)
  extract_lets a
  exact wrn_sound fr (wrn_sound fr h)

theorem markFrame_sound {p : Nat} {b : Nat} (fr : Free K [.ports]) (h : Sound K C z s) :
    Sound K C z (markFrame p b s) := by
  unfold markFrame
  exact updPort_sound fr h

theorem captureLine_sound {k : Capture} {frame : Nat} {idx : Nat} {v : List Nat} (fr : Free K [.mem]) (h : Sound K C z s)
    :
    Sound K C z (captureLine k frame idx v s) := by
  unfold captureLine
  exact .ite (fun _ => h) (fun _ => lp5Puts_sound fr h)

theorem cutImage_sound {p : Nat} {flag : Nat}
    (fr : Free K [.regs, .tables, .mem, .ledger, .ports, .acct, .net, .queues, .toll, .pa, .he, .mb, .outbox, .freeCtr])
    (h : Sound K C z s) :
    Sound K C z (cutImage p flag s) := by
  unfold cutImage
  exact updPort_sound (fr.mono rfl) (.ite (fun _ => h) (fun _ => feed_sound fr h))

theorem stripBreak_sound {p : Nat}
    (fr : Free K [.regs, .tables, .mem, .ledger, .views, .ports, .act, .acct, .net, .queues, .toll, .em, .pa, .he, .ev,
      .mb, .rs, .outbox, .freeCtr])
    (h : Sound K C z s) :
    Sound K C z (stripBreak p s) := by
  unfold stripBreak
  extract_lets x t1 t2 s1
  have ht1 : Sound K C z t1 := evtCnt_sound (fr.mono rfl) h
  have ht2 : Sound K C z t2 := mirror_sound (fr.mono rfl) (fset_sound (fr.mono rfl) ht1)
  have hs1 : Sound K C z s1 := .ite (fun _ => h) (fun _ => emFire_sound (fr.mono rfl) (updPort_sound (fr.mono rfl) ht2))
  exact .ite (fun _ => cutImage_sound (fr.mono rfl) hs1) (fun _ => hs1)

theorem markLast_sound {p : Nat} (fr : Free K [.regs, .ports]) (h : Sound K C z s) :
    Sound K C z (markLast p s) := by
  unfold markLast
  extract_lets num b s1 s2
  have hs1 : Sound K C z s1 := updPort_sound (fr.mono rfl) h
  have hs2 : Sound K C z s2 := forEach_sound hs1 (fun _ _ ht => updTap_sound fr ht)
  exact fset_sound (fr.mono rfl) hs2

theorem breakAfter_sound {p : Nat}
    (fr : Free K [.regs, .tables, .mem, .ledger, .views, .ports, .act, .acct, .net, .queues, .toll, .em, .pa, .he, .ev,
      .mb, .rs, .outbox, .freeCtr])
    (h : Sound K C z s) :
    Sound K C z (breakAfter p s) := by
  unfold breakAfter
  exact stripBreak_sound fr (markLast_sound (fr.mono rfl) h)

theorem areaEnd_sound {p : Nat} {c : CurFrame} {fl : Nat} {en0 : Bool}
    (fr : Free K [.regs, .tables, .mem, .ledger, .ports, .acct, .net, .queues, .toll, .pa, .he, .mb, .outbox, .freeCtr])
    (h : Sound K C z s) :
    Sound K C z (areaEnd p c fl en0 s) := by
  unfold areaEnd
  exact .ite (fun _ => h) (fun _ => cutImage_sound fr h)

theorem linePeriod_sound {p : Nat} {c : CurFrame} (fr : Free K [.regs, .freeCtr]) (h : Sound K C z s) :
    Sound K C z (linePeriod p c s) := by
  unfold linePeriod
  extract_lets a
  exact .ite (fun _ => useFree_sound (fr.mono rfl) (wrn_sound (fr.mono rfl) h)) (fun _ => useFree_sound (fr.mono rfl)
    (wrn_sound (fr.mono rfl) h))

theorem closeFrame_sound {p : Nat} {extra : Nat} {en0 : Bool}
    (fr : Free K [.regs, .tables, .mem, .ledger, .views, .ports, .act, .acct, .net, .queues, .toll, .em, .pa, .he, .ev,
      .mb, .rs, .outbox, .freeCtr])
    (h : Sound K C z s) :
    Sound K C z (closeFrame p extra en0 s) := by
  unfold closeFrame
  split
  · exact h
  · extract_lets b0 brk fl num s1 word s2 strip ev s3 s4 s5 s6 s7
    have hs1 : Sound K C z s1 := .ite (fun _ => stripBreak_sound fr h) (fun _ => areaEnd_sound (fr.mono rfl) h)
    have hs2 : Sound K C z s2 := wrn_sound (fr.mono rfl) (wrn_sound (fr.mono rfl) hs1)
    have hev : ∀ x0 x1 t, Sound K C z t → Sound K C z (ev x0 x1 t) := fun _ _ _ ht => .ite (fun _ => evt_sound (fr.mono
        rfl) ht) (fun _ => ht)
    have hs3 : Sound K C z s3 := hev _ _ _ (hev _ _ _ (hev _ _ _ (hev _ _ _ (fbset_sound (fr.mono rfl) hs2))))
    have hs4 : Sound K C z s4 := .ite (fun _ => hs3) (fun _ => cnt_sound (fr.mono rfl) hs3)
    have hs5 : Sound K C z s5 := updFrame_sound (fr.mono rfl) (linePeriod_sound (fr.mono rfl) hs4)
    have hs6 : Sound K C z s6 := forEach_sound hs5 (fun _ _ ht1 => updTap_sound (fr.mono rfl) ht1)
    have hs7 : Sound K C z s7 := updPort_sound (fr.mono rfl) hs6
    exact emFire_sound (fr.mono rfl) (mirror_sound (fr.mono rfl) (pump_sound (fr.mono rfl) (heldFlush_sound (fr.mono rfl)
      hs7)))

theorem portEnds_sound {p : Nat} {extra : Nat} {en0 : Bool}
    (fr : Free K [.regs, .tables, .mem, .ledger, .views, .ports, .act, .acct, .net, .queues, .toll, .em, .pa, .he, .ev,
      .mb, .rs, .outbox, .freeCtr])
    (h : Sound K C z s) :
    Sound K C z (portEnds p extra en0 s) := by
  unfold portEnds
  exact .ite (fun _ => closeFrame_sound fr h) (fun _ => .ite (fun _ => mirror_sound (fr.mono rfl) (breakAfter_sound fr h))
    (fun _ => h))

theorem portOff_sound {p : Nat}
    (fr : Free K [.regs, .tables, .mem, .ledger, .views, .ports, .tw, .act, .acct, .net, .queues, .toll, .em, .pa, .he,
      .ev, .mb, .rs, .outbox, .freeCtr])
    (h : Sound K C z s) :
    Sound K C z (portOff p s) := by
  unfold portOff
  refine .ite (fun _ => slotsCancel_sound (fr.mono rfl) h) (fun _ => ?_)
  extract_lets s1
  have hs1 : Sound K C z s1 := portEnds_sound (fr.mono rfl) h
  exact idleReport_sound (fr.mono rfl) (slotsCancel_sound (fr.mono rfl) (fbset_sound (fr.mono rfl) (fbset_sound (fr.mono
    rfl) hs1)))

theorem fixDual_sound {p : Nat} {q : Nat} (fr : Free K [.regs]) (h : Sound K C z s) :
    Sound K C z (fixDual p q s) := by
  unfold fixDual
  extract_lets wide b join
  exact fset_sound fr (fset_sound fr h)

theorem portOn_sound {p : Nat} (fr : Free K [.regs, .mem, .ports, .net, .he, .outbox, .freeCtr]) (h : Sound K C z s) :
    Sound K C z (portOn p s) := by
  unfold portOn
  refine .ite (fun _ => h) (fun _ => .ite (fun _ => mirror_sound (fr.mono rfl) (fbset_sound (fr.mono rfl) h)) (fun _ =>
    ?_))
  extract_lets s1 n s2 s3 s4 s5
  have hs1 : Sound K C z s1 := poolGive_sound (fr.mono rfl) h
  have hs2 : Sound K C z s2 := fbset_sound (fr.mono rfl) (poolTake_sound (fr.mono rfl) hs1)
  have hs3 : Sound K C z s3 := wrn_sound (fr.mono rfl) (fbset_sound (fr.mono rfl) hs2)
  have hs4 : Sound K C z s4 := .ite (fun _ => fset_sound (fr.mono rfl) hs3) (fun _ => hs3)
  have hs5 : Sound K C z s5 := .ite (fun _ => fixDual_sound (fr.mono rfl) (fixDual_sound (fr.mono rfl) hs4)) (fun _ =>
      fixDual_sound (fr.mono rfl) hs4)
  exact .ite (fun _ => poolRefuse_sound (fr.mono rfl) (updPort_sound (fr.mono rfl) hs1)) (fun _ => idleReport_sound
    (fr.mono rfl) (mirror_sound (fr.mono rfl) (updPort_sound (fr.mono rfl) hs5)))

theorem bankSwap_sound {bank : Nat} {done : Nat} {ev : Fld} {cx : Bool} {p : Nat} {f : Nat}
    (fr : Free K [.regs, .ports, .he, .outbox]) (h : Sound K C z s) :
    Sound K C z (bankSwap bank done ev cx p f s) := by
  unfold bankSwap
  extract_lets x w
  split
  · exact h
  · refine .ite (fun _ => h) (fun _ => ?_)
    extract_lets flip s1
    have hs1 : Sound K C z s1 := wrn_sound (fr.mono rfl) (wrn_sound (fr.mono rfl) h)
    exact updPort_sound (fr.mono rfl) (evt_sound (fr.mono rfl) hs1)

theorem dmShadow_sound {p : Nat} (fr : Free K [.regs, .ports, .he, .outbox]) (h : Sound K C z s) :
    Sound K C z (dmShadow p s) := by
  unfold dmShadow
  extract_lets o
  exact .ite (fun _ => evt_sound (fr.mono rfl) (updPort_sound (fr.mono rfl) (fbset_sound (fr.mono rfl) h))) (fun _ => h)

theorem sgShadow_sound {p : Nat} (fr : Free K [.regs, .ports, .he, .outbox]) (h : Sound K C z s) :
    Sound K C z (sgShadow p s) := by
  unfold sgShadow
  extract_lets o
  exact .ite (fun _ => evt_sound (fr.mono rfl) (updPort_sound (fr.mono rfl) (fbset_sound (fr.mono rfl) h))) (fun _ => h)

theorem stShadow_sound {p : Nat} (fr : Free K [.regs, .ports, .he, .outbox]) (h : Sound K C z s) :
    Sound K C z (stShadow p s) := by
  unfold stShadow
  extract_lets o st e was t1 t2
  have ht1 : Sound K C z t1 := updPort_sound (fr.mono rfl) (fbset_sound (fr.mono rfl) h)
  have ht2 : Sound K C z t2 := fbset_sound (fr.mono rfl) (fbset_sound (fr.mono rfl) (fset_sound (fr.mono rfl) ht1))
  exact .ite (fun _ => .ite (fun _ => evt_sound (fr.mono rfl) ht2) (fun _ => ht2)) (fun _ => h)

theorem shadowApply_sound {p : Nat} {f : Nat} (fr : Free K [.regs, .ports, .he, .outbox]) (h : Sound K C z s) :
    Sound K C z (shadowApply p f s) := by
  unfold shadowApply
  extract_lets half s1
  have hhalf : ∀ x0 t, Sound K C z t → Sound K C z (half x0 t) := fun _ _ ht => dmShadow_sound fr (bankSwap_sound fr ht)
  have hs1 : Sound K C z s1 := .ite (fun _ => hhalf _ _ (hhalf _ _ h)) (fun _ => hhalf _ _ h)
  exact stShadow_sound fr (sgShadow_sound fr (bankSwap_sound fr hs1))

theorem tapTake_sound {p : Nat} {e : Nat} {key : Nat} {frame : Nat} {gen : Nat} {given : List Byte} {s0 : State}
    (fr : Free K [.regs, .ports, .toll, .he, .outbox]) (hs0 : Sound K C z s0) :
    Sound K C z (tapTake p e key frame gen given s0) := by
  unfold tapTake
  extract_lets o desc s head len size fmt stride h' need f
  have hs : Sound K C z s := tapUse_sound fr hs0
  exact tapFetch_sound (fr.mono rfl) (updTap_sound (fr.mono rfl) (fset_sound (fr.mono rfl) hs))

theorem tapSelect_sound {p : Nat} {e : Nat} {key : Nat} {frame : Nat} {gen : Nat} {desc : List Byte} {s0 : State}
    (fr : Free K [.regs, .ports, .toll, .he, .outbox]) (hs0 : Sound K C z s0) :
    Sound K C z (tapSelect p e key frame gen desc s0) := by
  unfold tapSelect
  extract_lets o s f0 s1
  have hs : Sound K C z s := .ite (fun _ => updTap_sound (fr.mono rfl) (fbset_sound (fr.mono rfl) hs0)) (fun _ => hs0)
  have hs1 : Sound K C z s1 := updTap_sound (fr.mono rfl) hs
  exact .ite (fun _ => hs) (fun _ => .ite (fun _ => hs1) (fun _ => .ite (fun _ => evt_sound (fr.mono rfl) (cnt_sound
    (fr.mono rfl) hs1)) (fun _ => .ite (fun _ => cnt_sound (fr.mono rfl) hs1) (fun _ => tapTake_sound fr hs1))))

theorem statSelect_sound {p : Nat} {frame : Nat} (fr : Free K [.ports]) (h : Sound K C z s) :
    Sound K C z (statSelect p frame s).1 := by
  unfold statSelect
  extract_lets x f0
  exact .ite1 (fun _ => h) (fun _ => updPort_sound fr h)

theorem csiFrameStart_sound {p : Nat} {stamp : Nat} {fn : Nat} {d0 : List Byte} {d1 : List Byte} {s0 : State}
    (fr : Free K [.regs, .tables, .mem, .ledger, .views, .ports, .act, .acct, .net, .queues, .toll, .em, .pa, .he, .ev,
      .mb, .rs, .outbox, .freeCtr])
    (hs0 : Sound K C z s0) :
    Sound K C z (csiFrameStart p stamp fn d0 d1 s0) := by
  unfold csiFrameStart
  refine .ite (fun _ => hs0) (fun _ => ?_)
  extract_lets o s fs f gap s1 s2 s3 s4 s5 s6 sel key r s7 s8 s9
  have hs : Sound K C z s := closeFrame_sound fr (updPort_sound (fr.mono rfl) hs0)
  have hs1 : Sound K C z s1 := updPort_sound (fr.mono rfl) (fset_sound (fr.mono rfl) hs)
  have hs2 : Sound K C z s2 := .ite (fun _ => evt_sound (fr.mono rfl) hs1) (fun _ => hs1)
  have hs3 : Sound K C z s3 := .ite (fun _ => breakAfter_sound fr hs2) (fun _ => hs2)
  have hs4 : Sound K C z s4 := fbset_sound (fr.mono rfl) (wrn_sound (fr.mono rfl) hs3)
  have hs5 : Sound K C z s5 := compSwitch_sound (fr.mono rfl) (updPort_sound (fr.mono rfl) hs4)
  have hs6 : Sound K C z s6 := shadowApply_sound (fr.mono rfl) hs5
  have hsel : Sound K C z sel.1 := statSelect_sound (fr.mono rfl) hs6
  have hs7 : Sound K C z s7 := updPort_sound (fr.mono rfl) hsel
  have hs8 : Sound K C z s8 := fbset_sound (fr.mono rfl) (fbset_sound (fr.mono rfl) hs7)
  have hs9 : Sound K C z s9 := tapSelect_sound (fr.mono rfl) (tapSelect_sound (fr.mono rfl) hs8)
  exact emFire_sound (fr.mono rfl) (mirror_sound (fr.mono rfl) (slotsAdvance_sound (fr.mono rfl) hs9))

theorem sidePacket_sound {q : Nat} {p : Nat} {rec : List Byte} (fr : Free K [.regs, .queues, .he, .outbox, .freeCtr])
    (h : Sound K C z s) :
    Sound K C z (sidePacket q p rec s) := by
  unfold sidePacket
  extract_lets room s1
  have hs1 : Sound K C z s1 := useFree_sound (fr.mono rfl) (quWrite_sound (fr.mono rfl) h)
  exact .ite (fun _ => hs1) (fun _ => evt_sound (fr.mono rfl) hs1)

theorem overflow_sound {p : Nat} {c : CurFrame}
    (fr : Free K [.regs, .tables, .mem, .ledger, .views, .ports, .act, .acct, .net, .queues, .toll, .em, .pa, .he, .ev,
      .mb, .rs, .outbox, .freeCtr])
    (h : Sound K C z s) :
    Sound K C z (overflow p c s) := by
  unfold overflow
  extract_lets s1 s2
  have hs1 : Sound K C z s1 := evt_sound (fr.mono rfl) (evtCnt_sound (fr.mono rfl) h)
  have hs2 : Sound K C z s2 := markFrame_sound (fr.mono rfl) (updPort_sound (fr.mono rfl) hs1)
  exact .ite (fun _ => markFrame_sound (fr.mono rfl) (.ite (fun _ => breakAfter_sound fr hs2) (fun _ => stripBreak_sound
    fr hs2))) (fun _ => .ite (fun _ => hs2) (fun _ => cutImage_sound (fr.mono rfl) hs2))

theorem gapCheck_sound {p : Nat} {stamp : Nat} {c : CurFrame}
    (fr : Free K [.regs, .tables, .mem, .ledger, .views, .ports, .act, .acct, .net, .queues, .toll, .em, .pa, .he, .ev,
      .mb, .rs, .outbox, .freeCtr])
    (h : Sound K C z s) :
    Sound K C z (gapCheck p stamp c s) := by
  unfold gapCheck
  extract_lets x
  split
  · exact h
  · exact .ite (fun _ => breakAfter_sound fr h) (fun _ => h)

theorem lineDeliver_sound {p : Nat} {stamp : Nat} {c : CurFrame} {payload : List Byte} {crc : Bool} {s0 : State}
    (fr : Free K [.regs, .tables, .mem, .ledger, .views, .ports, .act, .acct, .net, .queues, .toll, .em, .pa, .he, .ev,
      .mb, .rs, .outbox, .freeCtr])
    (hs0 : Sound K C z s0) :
    Sound K C z (lineDeliver p stamp c payload crc s0) := by
  unfold lineDeliver
  extract_lets s o w b px long short cx cfa pad st x l m s1 s2 s3 s4
  have hs : Sound K C z s := gapCheck_sound fr hs0
  have hm : ∀ x0 x1 x2 t, Sound K C z t → Sound K C z (m x0 x1 x2 t) := fun _ _ _ _ ht => .ite (fun _ => markFrame_sound
      (fr.mono rfl) (evt_sound (fr.mono rfl) ht)) (fun _ => ht)
  have hs1 : Sound K C z s1 := hm _ _ _ _ (hm _ _ _ _ hs)
  have hs2 : Sound K C z s2 := .ite (fun _ => cnt_sound (fr.mono rfl) hs1) (fun _ => hs1)
  have hs3 : Sound K C z s3 := .ite (fun _ => markFrame_sound (fr.mono rfl) hs2) (fun _ => hs2)
  have hs4 : Sound K C z s4 := updPort_sound (fr.mono rfl) hs3
  split
  · exact captureLine_sound (fr.mono rfl) hs4
  · exact feed_sound (fr.mono rfl) (tapLine_sound (fr.mono rfl) hs4)

theorem pipeLine_sound {p : Nat} {stamp : Nat} {payload : List Byte} {crc : Bool}
    (fr : Free K [.regs, .tables, .mem, .ledger, .views, .ports, .act, .acct, .net, .queues, .toll, .em, .pa, .he, .ev,
      .mb, .rs, .outbox, .freeCtr])
    (h : Sound K C z s) :
    Sound K C z (pipeLine p stamp payload crc s) := by
  unfold pipeLine
  split
  · exact evtCnt_sound (fr.mono rfl) h
  · extract_lets arrive
    have harrive : ∀ t, Sound K C z t → Sound K C z (arrive t) := fun _ ht => updPort_sound (fr.mono rfl) ht
    exact .ite (fun _ => markFrame_sound (fr.mono rfl) (harrive _ h)) (fun _ => .ite (fun _ => harrive _ h) (fun _ => .ite
      (fun _ => harrive _ (overflow_sound fr h)) (fun _ => lineDeliver_sound fr h)))

theorem packet_sound {p : Nat} {stamp : Nat} {ecc : Nat} {dt : Nat} {vc : Nat} {field : Nat} {payload : List Byte}
    {crc : Bool} {s0 : State}
    (fr : Free K [.regs, .tables, .mem, .ledger, .views, .ports, .act, .acct, .net, .queues, .toll, .em, .pa, .he, .ev,
      .mb, .rs, .outbox, .freeCtr])
    (hs0 : Sound K C z s0) :
    Sound K C z (packet p stamp ecc dt vc field payload crc s0) := by
  unfold packet
  refine .ite (fun _ => hs0) (fun _ => ?_)
  extract_lets o s s1 short s2 rec_ onPipe image
  have hs : Sound K C z s := updPort_sound (fr.mono rfl) hs0
  have hs1 : Sound K C z s1 := .ite (fun _ => cnt_sound (fr.mono rfl) hs) (fun _ => hs)
  have hs2 : Sound K C z s2 := .ite (fun _ => evtCnt_sound (fr.mono rfl) hs1) (fun _ => hs1)
  exact .ite (fun _ => markFrame_sound (fr.mono rfl) (evtCnt_sound (fr.mono rfl) hs)) (fun _ => .ite (fun _ => .ite (fun _
    => hs2) (fun _ => sidePacket_sound (fr.mono rfl) hs2)) (fun _ => .ite (fun _ => hs2) (fun _ => .ite (fun _ =>
    sidePacket_sound (fr.mono rfl) hs2) (fun _ => .ite (fun _ => sidePacket_sound (fr.mono rfl) hs2) (fun _ => .ite (fun _
    => pipeLine_sound fr hs2) (fun _ => .ite (fun _ => sidePacket_sound (fr.mono rfl) hs2) (fun _ => evtCnt_sound (fr.mono
    rfl) hs2)))))))

theorem pwrEn_sound {p : Nat} {on : Bool} (fr : Free K [.regs, .outbox]) (h : Sound K C z s) :
    Sound K C z (pwrEn p on s) := by
  unfold pwrEn
  exact .ite (fun _ => h) (fun _ => emit_sound (fr.mono rfl) (fbset_sound (fr.mono rfl) h))

theorem headPower_sound {p : Nat} {on : Bool} (fr : Free K [.regs, .outbox]) (h : Sound K C z s) :
    Sound K C z (headPower p on s) := by
  unfold headPower
  extract_lets s1
  have hs1 : Sound K C z s1 := pwrEn_sound fr h
  exact .ite (fun _ => pwrEn_sound fr hs1) (fun _ => hs1)

theorem stopEnded_sound {p : Nat} (fr : Free K [.regs, .ports, .net, .he, .mb, .outbox, .freeCtr]) (h : Sound K C z s) :
    Sound K C z (stopEnded p s) := by
  unfold stopEnded
  extract_lets s1
  have hs1 : Sound K C z s1 := updPort_sound (fr.mono rfl) h
  exact forEach_sound hs1 (fun _ _ ht => endD_sound (fr.mono rfl) ht)

theorem slotTo_sound {p : Nat} {st : Nat} (fr : Free K [.regs, .ports, .tw, .net, .he, .mb, .outbox, .freeCtr])
    (h : Sound K C z s) :
    Sound K C z (slotTo p st s) := by
  unfold slotTo
  extract_lets was s1
  have hs1 : Sound K C z s1 := sclkAll_sound (fr.mono rfl) (indUpdate_sound (fr.mono rfl) (evt_sound (fr.mono rfl)
      (fset_sound (fr.mono rfl) h)))
  exact .ite (fun _ => stopEnded_sound (fr.mono rfl) (slotsCancel_sound fr hs1)) (fun _ => .ite (fun _ => updPort_sound
    (fr.mono rfl) hs1) (fun _ => hs1))

theorem headLost_sound {p : Nat}
    (fr : Free K [.regs, .tables, .mem, .ledger, .views, .ports, .act, .acct, .net, .queues, .toll, .em, .pa, .he, .ev,
      .mb, .rs, .outbox, .freeCtr])
    (h : Sound K C z s) :
    Sound K C z (headLost p s) := by
  unfold headLost
  exact .ite (fun _ => portEnds_sound fr h) (fun _ => h)

theorem surprise_sound {p : Nat} {on : Bool}
    (fr : Free K [.regs, .mem, .ledger, .views, .act, .acct, .net, .em, .pa, .he, .ev, .rs, .outbox, .freeCtr])
    (h : Sound K C z s) :
    Sound K C z (surprise p on s) := by
  unfold surprise
  exact .ite (fun _ => paDetect_sound fr h) (fun _ => h)

theorem faultRow_sound {p : Nat}
    (fr : Free K [.regs, .tables, .mem, .ledger, .views, .ports, .tw, .act, .acct, .net, .queues, .toll, .em, .pa, .he,
      .ev, .mb, .rs, .outbox, .freeCtr])
    (h : Sound K C z s) :
    Sound K C z (faultRow p s) := by
  unfold faultRow
  extract_lets was
  exact .ite (fun _ => h) (fun _ => surprise_sound (fr.mono rfl) (evt_sound (fr.mono rfl) (slotTo_sound (fr.mono rfl)
    (headPower_sound (fr.mono rfl) (headLost_sound (fr.mono rfl) h)))))

theorem fltUpdate_sound {p : Nat}
    (fr : Free K [.regs, .tables, .mem, .ledger, .views, .ports, .tw, .act, .acct, .net, .queues, .toll, .em, .pa, .he,
      .ev, .mb, .rs, .outbox, .freeCtr])
    (h : Sound K C z s) :
    Sound K C z (fltUpdate p s) := by
  unfold fltUpdate
  exact faultRow_sound fr (fbset_sound (fr.mono rfl) h)

theorem slotPowerUp_sound {p : Nat}
    (fr : Free K [.regs, .tables, .mem, .ledger, .views, .ports, .tw, .act, .acct, .net, .queues, .toll, .em, .pa, .he,
      .ev, .mb, .rs, .outbox, .freeCtr])
    (h : Sound K C z s) :
    Sound K C z (slotPowerUp p s) := by
  unfold slotPowerUp
  exact .ite (fun _ => faultRow_sound fr (slotTo_sound (fr.mono rfl) (headPower_sound (fr.mono rfl) h))) (fun _ => h)

theorem presenceOn_sound {p : Nat}
    (fr : Free K [.regs, .tables, .mem, .ledger, .views, .ports, .tw, .act, .acct, .net, .queues, .toll, .em, .pa, .he,
      .ev, .mb, .rs, .outbox, .freeCtr])
    (h : Sound K C z s) :
    Sound K C z (presenceOn p s) := by
  unfold presenceOn
  refine .ite (fun _ => h) (fun _ => ?_)
  extract_lets s1
  have hs1 : Sound K C z s1 := evt_sound (fr.mono rfl) (slotTo_sound (fr.mono rfl) (fbset_sound (fr.mono rfl) h))
  exact slotPowerUp_sound fr (.ite (fun _ => fbset_sound (fr.mono rfl) hs1) (fun _ => hs1))

theorem presenceOff_sound {p : Nat}
    (fr : Free K [.regs, .tables, .mem, .ledger, .views, .ports, .tw, .act, .acct, .net, .queues, .toll, .em, .pa, .he,
      .ev, .mb, .rs, .outbox, .freeCtr])
    (h : Sound K C z s) :
    Sound K C z (presenceOff p s) := by
  unfold presenceOff
  refine .ite (fun _ => h) (fun _ => ?_)
  extract_lets was s1 s2
  have hs1 : Sound K C z s1 := fbset_sound (fr.mono rfl) (headLost_sound (fr.mono rfl) h)
  have hs2 : Sound K C z s2 := .ite (fun _ => hs1) (fun _ => fbset_sound (fr.mono rfl) (headPower_sound (fr.mono rfl)
      hs1))
  exact surprise_sound (fr.mono rfl) (evt_sound (fr.mono rfl) (slotTo_sound (fr.mono rfl) hs2))

theorem powerFault_sound {p : Nat} {on : Bool}
    (fr : Free K [.regs, .tables, .mem, .ledger, .views, .ports, .tw, .act, .acct, .net, .queues, .toll, .em, .pa, .he,
      .ev, .mb, .rs, .outbox, .freeCtr])
    (h : Sound K C z s) :
    Sound K C z (powerFault p on s) := by
  unfold powerFault
  extract_lets s1
  have hs1 : Sound K C z s1 := fltUpdate_sound fr (updPort_sound (fr.mono rfl) h)
  exact .ite (fun _ => fltUpdate_sound fr hs1) (fun _ => hs1)

theorem slotPower_sound {p : Nat} {on : Bool}
    (fr : Free K [.regs, .tables, .mem, .ledger, .views, .ports, .tw, .act, .acct, .net, .queues, .toll, .em, .pa, .he,
      .ev, .mb, .rs, .outbox, .freeCtr])
    (h : Sound K C z s) :
    Sound K C z (slotPower p on s) := by
  unfold slotPower
  extract_lets s1
  have hs1 : Sound K C z s1 := fbset_sound (fr.mono rfl) h
  refine .ite (fun _ => slotPowerUp_sound fr hs1) (fun _ => ?_)
  split
  · exact slotTo_sound (fr.mono rfl) (headPower_sound (fr.mono rfl) hs1)
  · exact slotTo_sound (fr.mono rfl) (headPower_sound (fr.mono rfl) (headLost_sound (fr.mono rfl) hs1))
  · exact slotTo_sound (fr.mono rfl) hs1
  · exact hs1

theorem slotCtlPut_sound {p : Nat} {v : Nat}
    (fr : Free K [.regs, .tables, .mem, .ledger, .views, .ports, .tw, .act, .acct, .net, .queues, .toll, .em, .pa, .he,
      .ev, .mb, .rs, .outbox, .freeCtr])
    (h : Sound K C z s) :
    Sound K C z (slotCtlPut p v s) := by
  unfold slotCtlPut
  extract_lets was s1
  have hs1 : Sound K C z s1 := irqAt_sound (fr.mono rfl) (putWord_sound (fr.mono rfl) h)
  exact indUpdate_sound (fr.mono rfl) (.ite (fun _ => hs1) (fun _ => slotPower_sound fr hs1))

theorem slotCapPut_sound {p : Nat} {v : Nat}
    (fr : Free K [.regs, .tables, .mem, .ledger, .views, .ports, .tw, .act, .acct, .net, .queues, .toll, .em, .pa, .he,
      .ev, .mb, .rs, .outbox, .freeCtr])
    (h : Sound K C z s) :
    Sound K C z (slotCapPut p v s) := by
  unfold slotCapPut
  extract_lets o s1
  have hs1 : Sound K C z s1 := fltUpdate_sound fr (fltUpdate_sound fr (wrn_sound (fr.mono rfl) h))
  exact .ite (fun _ => h) (fun _ => .ite (fun _ => presenceOn_sound fr hs1) (fun _ => hs1))

theorem orderlyStop_sound {p : Nat}
    (fr : Free K [.regs, .tables, .mem, .ledger, .views, .ports, .tw, .act, .acct, .net, .queues, .toll, .em, .pa, .he,
      .ev, .mb, .rs, .outbox, .freeCtr])
    (h : Sound K C z s) :
    Sound K C z (orderlyStop p s) := by
  unfold orderlyStop
  extract_lets s1
  have hs1 : Sound K C z s1 := portOff_sound fr h
  exact indUpdate_sound (fr.mono rfl) (fset_sound (fr.mono rfl) (slotPower_sound fr hs1))

theorem gangChange_sound {p : Nat}
    (fr : Free K [.regs, .tables, .mem, .ledger, .views, .ports, .tw, .act, .acct, .net, .queues, .toll, .em, .pa, .he,
      .ev, .mb, .rs, .outbox, .freeCtr])
    (h : Sound K C z s) :
    Sound K C z (gangChange p s) := by
  unfold gangChange
  extract_lets on
  exact fltUpdate_sound fr (fltUpdate_sound fr (pwrEn_sound (fr.mono rfl) h))

theorem ffSources_sound {p : Nat} (fr : Free K [.regs]) (h : Sound K C z s) :
    Sound K C z (ffSources p s) := by
  unfold ffSources
  exact forEach_sound h (fun _ _ ht => fbset_sound fr ht)

theorem ppCtlPut_sound {p : Nat} {v : Nat}
    (fr : Free K [.regs, .tables, .mem, .ledger, .views, .ports, .tw, .act, .acct, .net, .queues, .toll, .em, .pa, .he,
      .ev, .mb, .rs, .outbox, .freeCtr])
    (h : Sound K C z s) :
    Sound K C z (ppCtlPut p v s) := by
  unfold ppCtlPut
  extract_lets o gang s0 s1 s2 s3 s4
  have hs0 : Sound K C z s0 := .ite (fun _ => portOff_sound fr h) (fun _ => .ite (fun _ => h) (fun _ => slotsCancel_sound
      (fr.mono rfl) h))
  have hs1 : Sound K C z s1 := putWord_sound (fr.mono rfl) hs0
  have hs2 : Sound K C z s2 := .ite (fun _ => fbset_sound (fr.mono rfl) hs1) (fun _ => hs1)
  have hs3 : Sound K C z s3 := ffSources_sound (fr.mono rfl) hs2
  have hs4 : Sound K C z s4 := sclkAll_sound (fr.mono rfl) (.ite (fun _ => hs3) (fun _ => gangChange_sound fr hs3))
  exact .ite (fun _ => h) (fun _ => .ite (fun _ => .ite (fun _ => h) (fun _ => portOff_sound fr h)) (fun _ => .ite (fun _
    => portOn_sound (fr.mono rfl) hs4) (fun _ => mirror_sound (fr.mono rfl) hs4)))

theorem sclkPut_sound {k : Nat} {v : Nat} (fr : Free K [.regs, .tables, .ports, .he, .outbox]) (h : Sound K C z s) :
    Sound K C z (sclkPut k v s) := by
  unfold sclkPut
  extract_lets d
  exact .ite (fun _ => h) (fun _ => sclkUpdate_sound (fr.mono rfl) (putWord_sound (fr.mono rfl) h))

theorem ppPut_sound {a : Nat} {v : Nat}
    (fr : Free K [.regs, .tables, .mem, .ledger, .views, .ports, .tw, .act, .acct, .net, .queues, .toll, .em, .pa, .he,
      .ev, .mb, .rs, .outbox, .freeCtr])
    (h : Sound K C z s) :
    Sound K C z (ppPut a v s) := by
  unfold ppPut
  extract_lets p
  split
  · exact ppCtlPut_sound fr h
  · exact .ite (fun _ => h) (fun _ => putWord_sound (fr.mono rfl) h)
  · exact .ite (fun _ => h) (fun _ => putWord_sound (fr.mono rfl) h)
  · exact slotCapPut_sound fr h
  · exact slotCtlPut_sound fr h
  · exact .ite (fun _ => sclkPut_sound (fr.mono rfl) h) (fun _ => h)
  · exact putWord_sound (fr.mono rfl) h

theorem execPortEnable_sound {ag : Agent} {port : PortNo} {value : BitVec 32}
    (fr : Free K [.regs, .tables, .mem, .ledger, .views, .ports, .tw, .act, .acct, .net, .queues, .toll, .em, .pa, .he,
      .ev, .mb, .rs, .outbox, .freeCtr])
    (h : Sound K C z s) :
    SoundOut K C z (execPortEnable ag port value s) := by
  unfold execPortEnable
  extract_lets v
  exact .next (gated_sound (fr.mono rfl) (fun _ ht => ppCtlPut_sound fr ht) h)

theorem execPortDisable_sound {ag : Agent} {port : PortNo}
    (fr : Free K [.regs, .tables, .mem, .ledger, .views, .ports, .tw, .act, .acct, .net, .queues, .toll, .em, .pa, .he,
      .ev, .mb, .rs, .outbox, .freeCtr])
    (h : Sound K C z s) :
    SoundOut K C z (execPortDisable ag port s) := by
  unfold execPortDisable
  exact .next (gated_sound (fr.mono rfl) (fun _ ht => portOff_sound fr ht) h)

theorem execCsi2PacketReceive_sound {port : PortNo} {stamp : BitVec 32} {ecc : Fin 3} {dt : BitVec 6} {vc : BitVec 4}
    {field : BitVec 16} {payload : List Byte} {crcErr : Bool}
    (fr : Free K [.regs, .tables, .mem, .ledger, .views, .ports, .act, .acct, .net, .queues, .toll, .em, .pa, .he, .ev,
      .mb, .rs, .outbox, .freeCtr])
    (h : Sound K C z s) :
    SoundOut K C z (execCsi2PacketReceive port stamp ecc dt vc field payload crcErr s) := by
  unfold execCsi2PacketReceive
  exact .next (packet_sound fr h)

theorem execFrameStart_sound {port : PortNo} {stamp : BitVec 32} {fn : BitVec 16} {desc0 : List Byte} {desc1 : List Byte}
    (fr : Free K [.regs, .tables, .mem, .ledger, .views, .ports, .act, .acct, .net, .queues, .toll, .em, .pa, .he, .ev,
      .mb, .rs, .outbox, .freeCtr])
    (h : Sound K C z s) :
    SoundOut K C z (execFrameStart port stamp fn desc0 desc1 s) := by
  unfold execFrameStart
  exact .next (csiFrameStart_sound fr h)

theorem execFrameEnd_sound {port : PortNo}
    (fr : Free K [.regs, .tables, .mem, .ledger, .views, .ports, .act, .acct, .net, .queues, .toll, .em, .pa, .he, .ev,
      .mb, .rs, .outbox, .freeCtr])
    (h : Sound K C z s) :
    SoundOut K C z (execFrameEnd port s) := by
  unfold execFrameEnd
  exact .next (.ite (fun _ => closeFrame_sound fr (updPort_sound (fr.mono rfl) h)) (fun _ => h))

theorem execFrameTimeout_sound {port : PortNo}
    (fr : Free K [.regs, .tables, .mem, .ledger, .views, .ports, .act, .acct, .net, .queues, .toll, .em, .pa, .he, .ev,
      .mb, .rs, .outbox, .freeCtr])
    (h : Sound K C z s) :
    SoundOut K C z (execFrameTimeout port s) := by
  unfold execFrameTimeout
  exact .next (.ite (fun _ => h) (fun _ => closeFrame_sound fr h))

theorem execPresenceAssert_sound {port : PortNo}
    (fr : Free K [.regs, .tables, .mem, .ledger, .views, .ports, .tw, .act, .acct, .net, .queues, .toll, .em, .pa, .he,
      .ev, .mb, .rs, .outbox, .freeCtr])
    (h : Sound K C z s) :
    SoundOut K C z (execPresenceAssert port s) := by
  unfold execPresenceAssert
  exact .next (.ite (fun _ => h) (fun _ => presenceOn_sound fr h))

theorem execPresenceLost_sound {port : PortNo}
    (fr : Free K [.regs, .tables, .mem, .ledger, .views, .ports, .tw, .act, .acct, .net, .queues, .toll, .em, .pa, .he,
      .ev, .mb, .rs, .outbox, .freeCtr])
    (h : Sound K C z s) :
    SoundOut K C z (execPresenceLost port s) := by
  unfold execPresenceLost
  exact .next (.ite (fun _ => h) (fun _ => presenceOff_sound fr h))

theorem execPowerFault_sound {port : PortNo} {asserted : Bool}
    (fr : Free K [.regs, .tables, .mem, .ledger, .views, .ports, .tw, .act, .acct, .net, .queues, .toll, .em, .pa, .he,
      .ev, .mb, .rs, .outbox, .freeCtr])
    (h : Sound K C z s) :
    SoundOut K C z (execPowerFault port asserted s) := by
  unfold execPowerFault
  exact .next (powerFault_sound fr h)

theorem execSlotPowerWrite_sound {ag : Agent} {port : PortNo} {on : Bool}
    (fr : Free K [.regs, .tables, .mem, .ledger, .views, .ports, .tw, .act, .acct, .net, .queues, .toll, .em, .pa, .he,
      .ev, .mb, .rs, .outbox, .freeCtr])
    (h : Sound K C z s) :
    SoundOut K C z (execSlotPowerWrite ag port on s) := by
  unfold execSlotPowerWrite
  exact .next (gated_sound (fr.mono rfl) (fun _ ht => .ite (fun _ => ht) (fun _ => slotPower_sound fr ht)) h)

theorem execPowerSettle_sound {port : PortNo}
    (fr : Free K [.regs, .tables, .mem, .ledger, .views, .ports, .tw, .act, .acct, .net, .queues, .toll, .em, .pa, .he,
      .ev, .mb, .rs, .outbox, .freeCtr])
    (h : Sound K C z s) :
    SoundOut K C z (execPowerSettle port s) := by
  unfold execPowerSettle
  extract_lets t
  have ht : Sound K C z t := faultRow_sound fr h
  exact .next (.ite (fun _ => slotTo_sound (fr.mono rfl) ht) (fun _ => ht))

theorem execSlotCapCommit_sound {ag : Agent} {port : PortNo} {caps : BitVec 5}
    (fr : Free K [.regs, .tables, .mem, .ledger, .views, .ports, .tw, .act, .acct, .net, .queues, .toll, .em, .pa, .he,
      .ev, .mb, .rs, .outbox, .freeCtr])
    (h : Sound K C z s) :
    SoundOut K C z (execSlotCapCommit ag port caps s) := by
  unfold execSlotCapCommit
  exact .next (dennilOnly_sound (fr.mono rfl) (fun _ ht => slotCapPut_sound fr ht) h)

theorem execAttentionButton_sound {port : PortNo} (fr : Free K [.regs, .ports, .he, .outbox]) (h : Sound K C z s) :
    SoundOut K C z (execAttentionButton port s) := by
  unfold execAttentionButton
  extract_lets p s1
  have hs1 : Sound K C z s1 := evt_sound (fr.mono rfl) h
  exact .next (.ite (fun _ => h) (fun _ => .ite (fun _ => updPort_sound (fr.mono rfl) hs1) (fun _ => hs1)))

theorem execOrderlyStop_sound {port : PortNo}
    (fr : Free K [.regs, .tables, .mem, .ledger, .views, .ports, .tw, .act, .acct, .net, .queues, .toll, .em, .pa, .he,
      .ev, .mb, .rs, .outbox, .freeCtr])
    (h : Sound K C z s) :
    SoundOut K C z (execOrderlyStop port s) := by
  unfold execOrderlyStop
  exact .next (.ite (fun _ => orderlyStop_sound fr h) (fun _ => h))

theorem execLinkTimeout_sound {port : PortNo} (fr : Free K [.regs, .he, .outbox]) (h : Sound K C z s) :
    SoundOut K C z (execLinkTimeout port s) := by
  unfold execLinkTimeout
  exact .next (.ite (fun _ => evt_sound fr h) (fun _ => h))

theorem execSclkDivisorWrite_sound {ag : Agent} {k : Fin 8} {value : BitVec 32}
    (fr : Free K [.regs, .tables, .ports, .he, .outbox]) (h : Sound K C z s) :
    SoundOut K C z (execSclkDivisorWrite ag k value s) := by
  unfold execSclkDivisorWrite
  exact .next (gated_sound (fr.mono rfl) (fun _ ht => sclkPut_sound fr ht) h)

theorem execUlpsEntryExit_sound {port : PortNo} {lane : Fin 5} {mode : Fin 3} (fr : Free K [.regs, .ports])
    (h : Sound K C z s) :
    SoundOut K C z (execUlpsEntryExit port lane mode s) := by
  unfold execUlpsEntryExit
  extract_lets o f lead s1
  have hf : ∀ x0 x1 t, Sound K C z t → Sound K C z (f x0 x1 t) := fun _ _ _ ht => fset_sound (fr.mono rfl) ht
  have hs1 : Sound K C z s1 := hf _ _ _ (hf _ _ _ h)
  exact .next (.ite (fun _ => fbset_sound (fr.mono rfl) h) (fun _ => .ite (fun _ => updPort_sound (fr.mono rfl) hs1) (fun
    _ => hs1)))

theorem portWord_sound {a : Nat} {v : Nat}
    (fr : Free K [.regs, .tables, .mem, .ledger, .views, .ports, .armCtr, .tw, .act, .acct, .net, .queues, .toll, .em,
      .pa, .he, .ev, .mb, .rs, .outbox, .freeCtr])
    (h : Sound K C z s) :
    Sound K C z (portWord a v s) := by
  unfold portWord
  exact .ite (fun _ => .ite (fun _ => ppCtlPut_sound (fr.mono rfl) h) (fun _ => ppPut_sound (fr.mono rfl) h)) (fun _ =>
    .ite (fun _ => scPut_sound (fr.mono rfl) h) (fun _ => putWord_sound (fr.mono rfl) h))

theorem loadSensor_sound {p : Nat} {pr : Profile}
    (fr : Free K [.regs, .tables, .mem, .ledger, .views, .ports, .armCtr, .tw, .act, .acct, .net, .queues, .toll, .em,
      .pa, .he, .ev, .mb, .rs, .outbox, .freeCtr])
    (h : Sound K C z s) :
    Sound K C z (loadSensor p pr s) := by
  unfold loadSensor
  extract_lets s1 a s2 g
  have hs1 : Sound K C z s1 := forEach_sound h (fun _ _ ht => portWord_sound fr ht)
  have hs2 : Sound K C z s2 := forEach_sound hs1 (fun _ _ ht1 => emit_sound (fr.mono rfl) ht1)
  exact fset_sound (fr.mono rfl) (fset_sound (fr.mono rfl) hs2)

theorem enableWith_sound {p : Nat} {t : State} (fr : Free K [.regs, .mem, .ports, .net, .he, .outbox, .freeCtr])
    (h : Sound K C z s) (e : enableWith p s = some t) :
    Sound K C z t := by
  unfold enableWith at e
  dsimp only at e
  split_ifs at e
  exact Option.some.inj e ▸ portOn_sound fr h

theorem execHotInsertProfileLoad_sound {port : PortNo} {profile : Fin 64} {headId : BitVec 64}
    (fr : Free K [.regs, .tables, .mem, .ledger, .views, .ports, .armCtr, .tw, .act, .acct, .net, .queues, .toll, .em,
      .pa, .he, .ev, .mb, .rs, .outbox, .freeCtr])
    (h : Sound K C z s) : SoundOut K C z (execHotInsertProfileLoad port profile headId s) := by
  refine .next (.ite (fun _ => h) (fun _ => ?_))
  have hs0 : Sound K C z (updPort s port.val (fun x => { x with headId := headId.toNat })) := updPort_sound (fr.mono rfl)
      h
  extract_lets s0
  split
  · exact hs0
  · refine .ite (fun _ => hs0) (fun _ => ?_)
    extract_lets s1
    have hs1 : Sound K C z s1 := loadSensor_sound (fr.mono rfl) (portOff_sound (fr.mono rfl) hs0)
    cases e : enableWith port.val s1 with
    | none => exact hs1
    | some t => exact enableWith_sound (fr.mono rfl) hs1 e

theorem runSensorProfileLoad_sound {c : CmdCall} (h : Sound K C z s) :
    Sound K C z (runSensorProfileLoad c s).1 := by
  unfold runSensorProfileLoad
  extract_lets p
  refine .ite1 (fun _ => h) (fun _ => ?_)
  split
  · exact h
  · exact .ite1 (fun _ => h) (fun _ => .ite1 (fun _ => h) (fun _ => .ite1 (fun _ => h) (fun _ => h)))

theorem execSensorProfileLoad_sound {c : CmdCall} (fr : Free K [.regs, .net, .toll, .he, .mb, .outbox, .freeCtr])
    (h : Sound K C z s) :
    SoundOut K C z (execSensorProfileLoad c s) := by
  unfold execSensorProfileLoad
  exact .next (mbRun_sound fr (fun _ _ ht => runSensorProfileLoad_sound ht) h)

theorem sensorProfileDone_sound {x : Nat × Deferred} {ok : Bool}
    (fr : Free K [.regs, .tables, .mem, .ledger, .views, .ports, .armCtr, .tw, .act, .acct, .net, .queues, .toll, .em,
      .pa, .he, .ev, .mb, .rs, .outbox, .freeCtr])
    (h : Sound K C z s) :
    Sound K C z (sensorProfileDone x ok s) := by
  unfold sensorProfileDone
  extract_lets c p
  split
  · exact endInternal_sound (fr.mono rfl) h
  · refine .ite (fun _ => endInternal_sound (fr.mono rfl) h) (fun _ => ?_)
    extract_lets s1 res
    have hs1 : Sound K C z s1 := loadSensor_sound fr h
    refine .ite (fun _ => endD_sound (fr.mono rfl) hs1) (fun _ => ?_)
    split
    · rename_i s2 e
      have hs2 := enableWith_sound (fr.mono rfl) hs1 e
      exact endD_sound (fr.mono rfl) hs2
    · exact endD_sound (fr.mono rfl) h

theorem runPortStop_sound {c : CmdCall}
    (fr : Free K [.regs, .tables, .mem, .ledger, .views, .ports, .tw, .act, .acct, .net, .queues, .toll, .em, .pa, .he,
      .ev, .mb, .rs, .outbox, .freeCtr])
    (h : Sound K C z s) :
    Sound K C z (runPortStop c s).1 := by
  unfold runPortStop
  extract_lets p
  exact .ite1 (fun _ => h) (fun _ => .ite1 (fun _ => h) (fun _ => .ite1 (fun _ => updPort_sound (fr.mono rfl) h) (fun _ =>
    slotPower_sound fr (portOff_sound fr h))))

theorem execPortStop_sound {c : CmdCall}
    (fr : Free K [.regs, .tables, .mem, .ledger, .views, .ports, .tw, .act, .acct, .net, .queues, .toll, .em, .pa, .he,
      .ev, .mb, .rs, .outbox, .freeCtr])
    (h : Sound K C z s) :
    SoundOut K C z (execPortStop c s) := by
  unfold execPortStop
  exact .next (mbRun_sound (fr.mono rfl) (fun _ _ ht => runPortStop_sound fr ht) h)

theorem runPortPower_sound {c : CmdCall}
    (fr : Free K [.regs, .tables, .mem, .ledger, .views, .ports, .tw, .act, .acct, .net, .queues, .toll, .em, .pa, .he,
      .ev, .mb, .rs, .outbox, .freeCtr])
    (h : Sound K C z s) :
    Sound K C z (runPortPower c s).1 := by
  unfold runPortPower
  extract_lets p
  exact .ite1 (fun _ => h) (fun _ => .ite1 (fun _ => h) (fun _ => .ite1 (fun _ => h) (fun _ => .ite1 (fun _ => h) (fun _
    => slotPower_sound fr (fbset_sound (fr.mono rfl) h)))))

theorem execPortPower_sound {c : CmdCall}
    (fr : Free K [.regs, .tables, .mem, .ledger, .views, .ports, .tw, .act, .acct, .net, .queues, .toll, .em, .pa, .he,
      .ev, .mb, .rs, .outbox, .freeCtr])
    (h : Sound K C z s) :
    SoundOut K C z (execPortPower c s) := by
  unfold execPortPower
  exact .next (mbRun_sound (fr.mono rfl) (fun _ _ ht => runPortPower_sound fr ht) h)

end Sys2Proof.Machine
end

section
/-! SUPPORT. What each operation of Machine/Correct.lean leaves unchanged (the rules are in Laws/Sound.lean). -/

namespace Sys2Proof.Machine

set_option Elab.async false

variable {K : Comp → Prop} {C : Prop} {z s t : State}

theorem swapCancel_sound {bank : Nat} {p : Nat} {cx : Bool} (fr : Free K [.regs, .ports]) (h : Sound K C z s) :
    Sound K C z (swapCancel bank p cx s) := by
  unfold swapCancel
  extract_lets s1
  have hs1 : Sound K C z s1 := wrn_sound (fr.mono rfl) h
  exact updPort_sound (fr.mono rfl) hs1

theorem bankPut_sound {bank : Nat} {at_ : Nat} {top : Nat} {p : Nat} {v : Nat} {cx : Bool} (fr : Free K [.regs, .ports])
    (h : Sound K C z s) :
    Sound K C z (bankPut bank at_ top p v cx s) := by
  unfold bankPut
  extract_lets a old w0 w s1 s2
  have hs1 : Sound K C z s1 := wrn_sound (fr.mono rfl) h
  have hs2 : Sound K C z s2 := .ite (fun _ => swapRequest_sound fr hs1) (fun _ => hs1)
  exact .ite (fun _ => swapCancel_sound fr hs2) (fun _ => hs2)

theorem dpcCntPut_sound {q : Nat} {v : Nat} (fr : Free K [.regs, .he, .outbox]) (h : Sound K C z s) :
    Sound K C z (dpcCntPut q v s) := by
  unfold dpcCntPut
  extract_lets a b kept s1
  have hs1 : Sound K C z s1 := wrn_sound (fr.mono rfl) h
  exact .ite (fun _ => wrn_sound (fr.mono rfl) h) (fun _ => .ite (fun _ => hs1) (fun _ => evt_sound fr hs1))

theorem cxPut_sound {a : Nat} {v : Nat} (fr : Free K [.regs, .tables, .ports, .he, .outbox]) (h : Sound K C z s) :
    Sound K C z (cxPut a v s) := by
  unfold cxPut
  extract_lets q o
  exact .ite (fun _ => wrn_sound (fr.mono rfl) h) (fun _ => .ite (fun _ => h) (fun _ => .ite (fun _ => dpcCntPut_sound
    (fr.mono rfl) h) (fun _ => .ite (fun _ => bankPut_sound (fr.mono rfl) h) (fun _ => putWord_sound (fr.mono rfl) h))))

theorem tablePut_sound {a : Nat} {n : Nat} {v : Nat} (fr : Free K [.regs, .tables, .he, .outbox]) (h : Sound K C z s) :
    Sound K C z (tablePut a n v s) := by
  unfold tablePut
  refine .ite (fun _ => ?_) (fun _ => .ite (fun _ => ?_) (fun _ => .ite (fun _ => .ite (fun _ => evt_sound (fr.mono rfl)
    h) (fun _ => tblPuts_sound (fr.mono rfl) h)) (fun _ => .ite (fun _ => tblPuts_sound (fr.mono rfl) h) (fun _ => h))))
  · extract_lets q
    split
    · exact h
    · exact .ite (fun _ => evt_sound (fr.mono rfl) h) (fun _ => tblPuts_sound (fr.mono rfl) h)
  · extract_lets p off
    exact .ite (fun _ => h) (fun _ => .ite (fun _ => evt_sound (fr.mono rfl) h) (fun _ => tblPuts_sound (fr.mono rfl) h))

theorem tableWrite_sound {ag : Agent} {a : Nat} {n : Nat} {v : Nat} (fr : Free K [.regs, .tables, .he, .outbox])
    (h : Sound K C z s) :
    Sound K C z (tableWrite ag a n v s) := by
  unfold tableWrite
  extract_lets change
  split
  · exact gated_sound (fr.mono rfl) (fun _ ht => tablePut_sound fr ht) h
  · exact .ite (fun _ => tablePut_sound fr h) (fun _ => .ite (fun _ => noLease_sound (fr.mono rfl) h) (fun _ => h))

theorem swapAtFrame_sound {q : Nat} {sel : Nat} {target : Nat} (fr : Free K [.regs, .ports]) (h : Sound K C z s) :
    Sound K C z (swapAtFrame q sel target s) := by
  unfold swapAtFrame
  extract_lets timed w s1
  have hs1 : Sound K C z s1 := wrn_sound (fr.mono rfl) h
  exact swapRequest_sound fr (.ite (fun _ => wrn_sound (fr.mono rfl) hs1) (fun _ => hs1))

theorem setDefects_sound {q : Nat} {b : Nat} {n : Nat} (fr : Free K [.regs]) (h : Sound K C z s) :
    Sound K C z (setDefects q b n s) := by
  unfold setDefects
  exact wrn_sound fr h

theorem corrTableLoad_sound {c : CmdCall} (fr : Free K [.regs, .tables, .ports, .toll, .outbox]) (h : Sound K C z s) :
    Sound K C z (corrTableLoad c s).1 := by
  unfold corrTableLoad
  extract_lets q t swap dual b n img s1 s2
  have hs1 : Sound K C z s1 := tblPuts_sound (fr.mono rfl) (hostRead_sound (fr.mono rfl) h)
  have hs2 : Sound K C z s2 := .ite (fun _ => setDefects_sound (fr.mono rfl) hs1) (fun _ => hs1)
  exact .ite1 (fun _ => h) (fun _ => .ite1 (fun _ => h) (fun _ => .ite1 (fun _ => h) (fun _ => .ite1 (fun _ => h) (fun _
    => .ite1 (fun _ => h) (fun _ => .ite1 (fun _ => h) (fun _ => .ite1 (fun _ => h) (fun _ => .ite (fun _ =>
    swapAtFrame_sound (fr.mono rfl) hs2) (fun _ => hs2))))))))

theorem corrSetMode_sound {c : CmdCall} (fr : Free K [.regs]) (h : Sound K C z s) :
    Sound K C z (corrSetMode c s).1 := by
  unfold corrSetMode
  extract_lets o m
  exact .ite1 (fun _ => h) (fun _ => fset_sound fr (fset_sound fr (fset_sound fr h)))

theorem corrBankSwap_sound {c : CmdCall} (fr : Free K [.regs, .ports]) (h : Sound K C z s) :
    Sound K C z (corrBankSwap c s).1 := by
  unfold corrBankSwap
  extract_lets q sel w
  exact .ite1 (fun _ => h) (fun _ => .ite1 (fun _ => h) (fun _ => swapRequest_sound fr (wrn_sound (fr.mono rfl) (wrn_sound
    (fr.mono rfl) h))))

theorem corrParams_sound {c : CmdCall} (fr : Free K [.regs, .tables, .he, .outbox]) (h : Sound K C z s) :
    Sound K C z (corrParams c s).1 := by
  unfold corrParams
  extract_lets q f s1
  have hs1 : Sound K C z s1 := .ite (fun _ => putWord_sound fr h) (fun _ => h)
  exact .ite1 (fun _ => h) (fun _ => .ite1 (fun _ => h) (fun _ => .ite (fun _ => putWord_sound fr hs1) (fun _ => hs1)))

theorem calToBank_sound {q : Nat} {t : Nat} {b : Nat} {dual : Bool} {img : List Byte} (fr : Free K [.regs, .tables])
    (h : Sound K C z s) :
    Sound K C z (calToBank q t b dual img s) := by
  unfold calToBank
  extract_lets l s1
  have hs1 : Sound K C z s1 := tblPuts_sound (fr.mono rfl) h
  exact .ite (fun _ => setDefects_sound (fr.mono rfl) hs1) (fun _ => hs1)

theorem calLoadOne_sound {q : Nat} {e : CalEntry} (fr : Free K [.regs, .tables]) (h : Sound K C z s) :
    Sound K C z (calLoadOne q e s) := by
  unfold calLoadOne
  split
  · extract_lets o
    exact fset_sound (fr.mono rfl) (fset_sound (fr.mono rfl) (fset_sound (fr.mono rfl) h))
  · extract_lets dual banks
    exact forEach_sound h (fun _ _ hu => calToBank_sound fr hu)

theorem corrLoadCal_sound {c : CmdCall} (fr : Free K [.regs, .tables, .ports]) (h : Sound K C z s) :
    Sound K C z (corrLoadCal c s).1 := by
  unfold corrLoadCal
  extract_lets q es tables dual missing s1
  have hs1 : Sound K C z s1 := forEach_sound h (fun _ _ hs => calLoadOne_sound (fr.mono rfl) hs)
  refine .ite1 (fun _ => h) (fun _ => ?_)
  split
  · exact h
  · exact .ite1 (fun _ => h) (fun _ => .ite (fun _ => hs1) (fun _ => swapAtFrame_sound (fr.mono rfl) hs1))

theorem execCxBankSwapRequest_sound {ag : Agent} {port : PortNo} {v : Word} (fr : Free K [.regs, .ports, .he, .outbox])
    (h : Sound K C z s) :
    SoundOut K C z (execCxBankSwapRequest ag port v s) := by
  unfold execCxBankSwapRequest
  exact .next (gated_sound (fr.mono rfl) (fun _ ht => bankPut_sound (fr.mono rfl) ht) h)

theorem execCxBankCancel_sound {ag : Agent} {port : PortNo} {v : Word} (fr : Free K [.regs, .ports, .he, .outbox])
    (h : Sound K C z s) :
    SoundOut K C z (execCxBankCancel ag port v s) := by
  unfold execCxBankCancel
  exact .next (gated_sound (fr.mono rfl) (fun _ ht => bankPut_sound (fr.mono rfl) ht) h)

theorem execTableWindowWrite_sound {ag : Agent} {wide : Bool} {index : Fin 5242880} {v : Word}
    (fr : Free K [.regs, .tables, .he, .outbox]) (h : Sound K C z s) :
    SoundOut K C z (execTableWindowWrite ag wide index v s) := by
  unfold execTableWindowWrite
  exact .next (.ite (fun _ => tableWrite_sound fr h) (fun _ => tableWrite_sound fr h))

theorem execCorrLoadCal_sound {c : CmdCall}
    (fr : Free K [.regs, .tables, .ports, .net, .toll, .he, .mb, .outbox, .freeCtr]) (h : Sound K C z s) :
    SoundOut K C z (execCorrLoadCal c s) := by
  unfold execCorrLoadCal
  exact .next (mbRun_sound (fr.mono rfl) (fun _ _ ht => corrLoadCal_sound (fr.mono rfl) ht) h)

theorem execCorrSetMode_sound {c : CmdCall} (fr : Free K [.regs, .net, .toll, .he, .mb, .outbox, .freeCtr])
    (h : Sound K C z s) :
    SoundOut K C z (execCorrSetMode c s) := by
  unfold execCorrSetMode
  exact .next (mbRun_sound fr (fun _ _ ht => corrSetMode_sound (fr.mono rfl) ht) h)

theorem execCorrTableLoad_sound {c : CmdCall}
    (fr : Free K [.regs, .tables, .ports, .net, .toll, .he, .mb, .outbox, .freeCtr]) (h : Sound K C z s) :
    SoundOut K C z (execCorrTableLoad c s) := by
  unfold execCorrTableLoad
  exact .next (mbRun_sound (fr.mono rfl) (fun _ _ ht => corrTableLoad_sound (fr.mono rfl) ht) h)

theorem execCorrBankSwap_sound {c : CmdCall} (fr : Free K [.regs, .ports, .net, .toll, .he, .mb, .outbox, .freeCtr])
    (h : Sound K C z s) :
    SoundOut K C z (execCorrBankSwap c s) := by
  unfold execCorrBankSwap
  exact .next (mbRun_sound (fr.mono rfl) (fun _ _ ht => corrBankSwap_sound (fr.mono rfl) ht) h)

theorem execCorrParams_sound {c : CmdCall} (fr : Free K [.regs, .tables, .net, .toll, .he, .mb, .outbox, .freeCtr])
    (h : Sound K C z s) :
    SoundOut K C z (execCorrParams c s) := by
  unfold execCorrParams
  exact .next (mbRun_sound (fr.mono rfl) (fun _ _ ht => corrParams_sound (fr.mono rfl) ht) h)

end Sys2Proof.Machine
end

section
/-! SUPPORT. What each operation of Machine/Colour.lean leaves unchanged (the rules are in Laws/Sound.lean). -/

namespace Sys2Proof.Machine

set_option Elab.async false

variable {K : Comp → Prop} {C : Prop} {z s t : State}

theorem tapEnable_sound {p : Nat} {e : Nat} (fr : Free K [.regs, .ports, .toll, .he, .outbox]) (h : Sound K C z s) :
    Sound K C z (tapEnable p e s) := by
  unfold tapEnable
  exact tapFetch_sound (fr.mono rfl) (updTap_sound (fr.mono rfl) (fbset_sound (fr.mono rfl) (fbset_sound (fr.mono rfl)
    (tapForget_sound (fr.mono rfl) h))))

theorem tapCtlPut_sound {p : Nat} {e : Nat} {v : Nat} (fr : Free K [.regs, .tables, .ports, .toll, .he, .outbox])
    (h : Sound K C z s) :
    Sound K C z (tapCtlPut p e v s) := by
  unfold tapCtlPut
  extract_lets o s1
  have hs1 : Sound K C z s1 := putWord_sound (fr.mono rfl) h
  exact .ite (fun _ => .ite (fun _ => h) (fun _ => fbset_sound (fr.mono rfl) h)) (fun _ => .ite (fun _ => hs1) (fun _ =>
    .ite (fun _ => fbset_sound (fr.mono rfl) hs1) (fun _ => tapEnable_sound (fr.mono rfl) hs1)))

theorem dmPut_sound {a : Nat} {v : Nat} (fr : Free K [.regs, .tables, .ports, .toll, .he, .outbox]) (h : Sound K C z s) :
    Sound K C z (dmPut a v s) := by
  unfold dmPut
  extract_lets p o s1 e
  have hs1 : Sound K C z s1 := putWord_sound (fr.mono rfl) h
  exact .ite (fun _ => .ite (fun _ => shadowCommit_sound (fr.mono rfl) hs1) (fun _ => hs1)) (fun _ => .ite (fun _ => .ite
    (fun _ => tapCtlPut_sound fr h) (fun _ => .ite (fun _ => tapFetch_sound (fr.mono rfl) (putWord_sound (fr.mono rfl) h))
    (fun _ => .ite (fun _ => h) (fun _ => putWord_sound (fr.mono rfl) h)))) (fun _ => putWord_sound (fr.mono rfl) h))

theorem tapComplete_sound {p : Nat} {e : Nat} (fr : Free K [.regs, .ports, .toll, .he, .outbox, .freeCtr])
    (h : Sound K C z s) :
    Sound K C z (tapComplete p e s) := by
  unfold tapComplete
  split
  · exact h
  · extract_lets o s1 s2 s3 s4 s5
    have hs1 : Sound K C z s1 := dmaWrite_sound (fr.mono rfl) (tollSpend_sound (fr.mono rfl) h)
    have hs2 : Sound K C z s2 := updTap_sound (fr.mono rfl) (useFree_sound (fr.mono rfl) hs1)
    have hs3 : Sound K C z s3 := .ite (fun _ => cnt_sound (fr.mono rfl) hs2) (fun _ => hs2)
    have hs4 : Sound K C z s4 := .ite (fun _ => evt_sound (fr.mono rfl) hs3) (fun _ => hs3)
    have hs5 : Sound K C z s5 := .ite (fun _ => evt_sound (fr.mono rfl) hs4) (fun _ => hs4)
    exact .ite (fun _ => h) (fun _ => .ite (fun _ => tollShort_sound (fr.mono rfl) h) (fun _ => .ite (fun _ => evt_sound
      (fr.mono rfl) hs5) (fun _ => hs5)))

theorem tapsPause_sound (fr : Free K [.regs, .ports, .he, .outbox]) (h : Sound K C z s) :
    Sound K C z (tapsPause s) := by
  unfold tapsPause
  exact forEach_sound h (fun _ _ ht => forEach_sound ht (fun _ _ hu => foldl_sound hu (fun _ _ hw => .ite (fun _ =>
    updTapFrame_sound (fr.mono rfl) (tapCut_sound (fr.mono rfl) hw)) (fun _ => hw))))

theorem tapsResume_sound (fr : Free K [.regs, .ports, .toll, .he, .outbox, .freeCtr]) (h : Sound K C z s) :
    Sound K C z (tapsResume s) := by
  unfold tapsResume
  exact forEach_sound h (fun _ _ ht => forEach_sound ht (fun _ _ hu => tapFetch_sound (fr.mono rfl) (.ite (fun _ =>
    tapComplete_sound fr hu) (fun _ => hu))))

theorem tapStart_sound {c : CmdCall} (fr : Free K [.regs, .ports, .toll, .he, .outbox]) (h : Sound K C z s) :
    Sound K C z (tapStart c s).1 := by
  unfold tapStart
  extract_lets p e o s1 s2 s3
  have hs1 : Sound K C z s1 := fset_sound (fr.mono rfl) (fset_sound (fr.mono rfl) (fset_sound (fr.mono rfl) h))
  have hs2 : Sound K C z s2 := wrn_sound (fr.mono rfl) (wrn_sound (fr.mono rfl) hs1)
  have hs3 : Sound K C z s3 := fset_sound (fr.mono rfl) hs2
  exact .ite1 (fun _ => h) (fun _ => .ite1 (fun _ => h) (fun _ => .ite1 (fun _ => h) (fun _ => .ite1 (fun _ => h) (fun _
    => .ite1 (fun _ => h) (fun _ => tapEnable_sound fr hs3)))))

theorem tapStop_sound {c : CmdCall} (fr : Free K [.regs, .ports]) (h : Sound K C z s) :
    Sound K C z (tapStop c s).1 := by
  unfold tapStop
  extract_lets p e
  exact .ite1 (fun _ => h) (fun _ => .ite1 (fun _ => h) (fun _ => updTap_sound fr h))

theorem colourWord_sound {p : Nat} {w : Nat × Nat} (fr : Free K [.regs, .tables, .he, .outbox]) (h : Sound K C z s) :
    Sound K C z (colourWord p w s) := by
  unfold colourWord
  exact .ite (fun _ => fset_sound (fr.mono rfl) h) (fun _ => .ite (fun _ => putWord_sound fr h) (fun _ => h))

theorem colourLoadCal_sound {c : CmdCall} (fr : Free K [.regs, .tables, .he, .outbox]) (h : Sound K C z s) :
    Sound K C z (colourLoadCal c s).1 := by
  unfold colourLoadCal
  extract_lets p
  refine .ite1 (fun _ => h) (fun _ => ?_)
  split
  · exact shadowCommit_sound (fr.mono rfl) (forEach_sound h (fun _ _ hs => colourWord_sound fr hs))
  · exact .ite1 (fun _ => h) (fun _ => h)

theorem colourParams_sound {c : CmdCall} (fr : Free K [.regs, .tables, .he, .outbox]) (h : Sound K C z s) :
    Sound K C z (colourParams c s).1 := by
  unfold colourParams
  extract_lets p o s1
  have hs1 : Sound K C z s1 := putWord_sound fr (putWord_sound fr (putWord_sound fr h))
  exact .ite1 (fun _ => h) (fun _ => shadowCommit_sound (fr.mono rfl) (putWords_sound fr hs1))

theorem execDmCommit_sound {ag : Agent} {port : PortNo} {v : Word}
    (fr : Free K [.regs, .tables, .ports, .toll, .he, .outbox]) (h : Sound K C z s) :
    SoundOut K C z (execDmCommit ag port v s) := by
  unfold execDmCommit
  exact .next (gated_sound (fr.mono rfl) (fun _ ht => dmPut_sound fr ht) h)

theorem execTapEnable_sound {ag : Agent} {port : PortNo} {engine : Fin 2} {v : Word}
    (fr : Free K [.regs, .tables, .ports, .toll, .he, .outbox]) (h : Sound K C z s) :
    SoundOut K C z (execTapEnable ag port engine v s) := by
  unfold execTapEnable
  extract_lets a
  exact .next (gated_sound (fr.mono rfl) (fun _ ht => dmPut_sound fr ht) h)

theorem execTapFrameComplete_sound {port : PortNo} {engine : Fin 2}
    (fr : Free K [.regs, .ports, .toll, .he, .outbox, .freeCtr]) (h : Sound K C z s) :
    SoundOut K C z (execTapFrameComplete port engine s) := by
  unfold execTapFrameComplete
  exact .next (tapComplete_sound fr h)

theorem execTapStart_sound {c : CmdCall} (fr : Free K [.regs, .ports, .net, .toll, .he, .mb, .outbox, .freeCtr])
    (h : Sound K C z s) :
    SoundOut K C z (execTapStart c s) := by
  unfold execTapStart
  exact .next (mbRun_sound (fr.mono rfl) (fun _ _ ht => tapStart_sound (fr.mono rfl) ht) h)

theorem execTapStop_sound {c : CmdCall} (fr : Free K [.regs, .ports, .net, .toll, .he, .mb, .outbox, .freeCtr])
    (h : Sound K C z s) :
    SoundOut K C z (execTapStop c s) := by
  unfold execTapStop
  exact .next (mbRun_sound (fr.mono rfl) (fun _ _ ht => tapStop_sound (fr.mono rfl) ht) h)

theorem execColourLoadCal_sound {c : CmdCall} (fr : Free K [.regs, .tables, .net, .toll, .he, .mb, .outbox, .freeCtr])
    (h : Sound K C z s) :
    SoundOut K C z (execColourLoadCal c s) := by
  unfold execColourLoadCal
  exact .next (mbRun_sound (fr.mono rfl) (fun _ _ ht => colourLoadCal_sound (fr.mono rfl) ht) h)

theorem execColourParams_sound {c : CmdCall} (fr : Free K [.regs, .tables, .net, .toll, .he, .mb, .outbox, .freeCtr])
    (h : Sound K C z s) :
    SoundOut K C z (execColourParams c s) := by
  unfold execColourParams
  exact .next (mbRun_sound (fr.mono rfl) (fun _ _ ht => colourParams_sound (fr.mono rfl) ht) h)

end Sys2Proof.Machine
end

section
/-! SUPPORT. What each operation of Machine/Stats.lean leaves unchanged (the rules are in Laws/Sound.lean). -/

namespace Sys2Proof.Machine

set_option Elab.async false

variable {K : Comp → Prop} {C : Prop} {z s t : State}

theorem stPut_sound {a : Nat} {v : Nat} (fr : Free K [.regs, .tables, .he, .outbox]) (h : Sound K C z s) :
    Sound K C z (stPut a v s) := by
  unfold stPut
  extract_lets p o s1
  have hs1 : Sound K C z s1 := putWord_sound fr h
  exact .ite (fun _ => .ite (fun _ => shadowCommit_sound (fr.mono rfl) hs1) (fun _ => hs1)) (fun _ => .ite (fun _ => h)
    (fun _ => putWord_sound fr h))

theorem quRest_sound {q : Nat} (fr : Free K [.queues]) (h : Sound K C z s) :
    Sound K C z (quRest q s) := by
  unfold quRest
  exact .ite (fun _ => quPut_sound fr h) (fun _ => h)

theorem statChunk_sound {p : Nat} {poison : List Nat} (fr : Free K [.regs, .ports, .net, .queues, .pa, .he, .outbox])
    (h : Sound K C z s) :
    Sound K C z (statChunk p poison s) := by
  unfold statChunk
  extract_lets q o ws bytes done pos prod addr s1 s2 s3 s4
  have hs1 : Sound K C z s1 := forEach_sound h (fun _ _ ht => quLeave_sound (fr.mono rfl) ht)
  have hs2 : Sound K C z s2 := dmaWrite_sound (fr.mono rfl) (quRest_sound (fr.mono rfl) hs1)
  have hs3 : Sound K C z s3 := updPort_sound (fr.mono rfl) hs2
  have hs4 : Sound K C z s4 := cnt_sound (fr.mono rfl) (fset_sound (fr.mono rfl) hs3)
  exact .ite (fun _ => hs3) (fun _ => .ite (fun _ => evt_sound (fr.mono rfl) hs4) (fun _ => hs4))

theorem statCopy_sound {fuel p : Nat} {poison : List Nat}
    (fr : Free K [.regs, .ports, .net, .queues, .toll, .pa, .he, .outbox]) (h : Sound K C z s) :
    Sound K C z (statCopy fuel p poison s) := by
  induction fuel generalizing poison s with
  | zero => exact h
  | succ n ih =>
    unfold statCopy
    extract_lets ws cost s1
    have hs1 : Sound K C z s1 := statChunk_sound (fr.mono rfl) (tollSpend_sound (fr.mono rfl) h)
    exact .ite (fun _ => h) (fun _ => .ite (fun _ => tollShort_sound (fr.mono rfl) h)
      (fun _ => .ite (fun _ => hs1) (fun _ => ih hs1)))

theorem statWrite_sound {p : Nat} {poison : List Nat}
    (fr : Free K [.regs, .ports, .net, .queues, .toll, .pa, .he, .outbox]) (h : Sound K C z s) :
    Sound K C z (statWrite p poison s) := by
  unfold statWrite
  exact statCopy_sound fr h

theorem statDrain_sound {fuel p : Nat} (fr : Free K [.regs, .ports, .net, .queues, .toll, .pa, .he, .outbox])
    (h : Sound K C z s) : Sound K C z (statDrain fuel p s) := by
  induction fuel generalizing s with
  | zero => exact h
  | succ n ih =>
    have hs1 : Sound K C z (statWrite p [] s) := statWrite_sound fr h
    exact .ite (fun _ => h) (fun _ => .ite (fun _ => hs1) (fun _ => ih hs1))

theorem quRegPut_sound {a : Nat} {v : Nat} (fr : Free K [.regs, .tables, .he, .outbox]) (h : Sound K C z s) :
    Sound K C z (quRegPut a v s) := by
  unfold quRegPut
  extract_lets q o
  exact .ite (fun _ => putWord_sound fr h) (fun _ => .ite (fun _ => .ite (fun _ => h) (fun _ => fbset_sound (fr.mono rfl)
    (fbset_sound (fr.mono rfl) h))) (fun _ => .ite (fun _ => quSummary_sound (fr.mono rfl) (putWord_sound fr h)) (fun _ =>
    putWord_sound fr h)))

theorem dennilPoison_sound {q : Nat} {ended : Bool}
    (fr : Free K [.regs, .ports, .net, .queues, .pa, .he, .mb, .outbox, .freeCtr]) (h : Sound K C z s) :
    Sound K C z (dennilPoison q ended s) := by
  unfold dennilPoison
  refine .ite (fun _ => ?_) (fun _ => .ite (fun _ => heldFlush_sound (fr.mono rfl) h) (fun _ => h))
  extract_lets n
  exact evtCnt_sound (fr.mono rfl) (forEach_sound h (fun _ _ ht => quLeave_sound (fr.mono rfl) ht))

theorem rtagRead_sound {ag : Agent} {q : Nat} {poison : Bool}
    (fr : Free K [.regs, .ports, .net, .queues, .pa, .he, .mb, .outbox, .freeCtr]) (h : Sound K C z s) :
    Sound K C z (rtagRead ag q poison s).1 := by
  unfold rtagRead
  extract_lets reader s1 src
  have hs1 : Sound K C z s1 := quLeave_sound (fr.mono rfl) h
  split
  · exact h
  · refine .ite1 (fun _ => h) (fun _ => ?_)
    extract_lets s2
    have hs2 : Sound K C z s2 := quPut_sound (fr.mono rfl) hs1
    exact .ite (fun _ => dennilPoison_sound fr hs2) (fun _ => hs2)

theorem quStale_sound {q : Nat} (fr : Free K [.regs, .queues, .he, .outbox]) (h : Sound K C z s) :
    Sound K C z (quStale q s) := by
  unfold quStale
  refine .ite (fun _ => h) (fun _ => ?_)
  extract_lets s1 src
  have hs1 : Sound K C z s1 := quEvt_sound (fr.mono rfl) h
  exact .ite (fun _ => quPut_sound (fr.mono rfl) hs1) (fun _ => hs1)

theorem hwRead_sound {q : Nat} (fr : Free K [.regs, .ports, .net, .queues, .toll, .pa, .he, .outbox]) (h : Sound K C z s)
    :
    Sound K C z (hwRead q s) := by
  unfold hwRead
  exact .ite (fun _ => statDrain_sound fr h) (fun _ => h)

theorem stWords_sound {p : Nat} {l : List (Nat × Nat)} (fr : Free K [.regs, .tables, .he, .outbox]) (h : Sound K C z s) :
    Sound K C z (stWords p l s) := by
  unfold stWords
  exact putWords_sound fr h

theorem stEnable_sound {p : Nat} {on : Bool} (fr : Free K [.regs]) (h : Sound K C z s) :
    Sound K C z (stEnable p on s) := by
  unfold stEnable
  exact shadowCommit_sound fr (fbset_sound fr h)

theorem statStart_sound {c : CmdCall} (fr : Free K [.regs, .tables, .he, .outbox]) (h : Sound K C z s) :
    Sound K C z (statStart c s).1 := by
  unfold statStart
  extract_lets p cal
  refine .ite1 (fun _ => h) (fun _ => ?_)
  split
  · exact h
  · exact stEnable_sound (fr.mono rfl) (stWords_sound fr h)

theorem statStop_sound {c : CmdCall} (fr : Free K [.regs]) (h : Sound K C z s) :
    Sound K C z (statStop c s).1 := by
  unfold statStop
  exact .ite1 (fun _ => h) (fun _ => stEnable_sound fr h)

theorem statParams_sound {c : CmdCall} (fr : Free K [.regs, .tables, .he, .outbox]) (h : Sound K C z s) :
    Sound K C z (statParams c s).1 := by
  unfold statParams
  extract_lets p
  exact .ite1 (fun _ => h) (fun _ => shadowCommit_sound (fr.mono rfl) (stWords_sound fr h))

theorem execStatRingWrite_sound {port : PortNo} {poison : List Nat}
    (fr : Free K [.regs, .ports, .net, .queues, .toll, .pa, .he, .outbox]) (h : Sound K C z s) :
    SoundOut K C z (execStatRingWrite port poison s) := by
  unfold execStatRingWrite
  exact .next (statWrite_sound fr h)

theorem execStatCommit_sound {ag : Agent} {port : PortNo} {v : Word} (fr : Free K [.regs, .tables, .he, .outbox])
    (h : Sound K C z s) :
    SoundOut K C z (execStatCommit ag port v s) := by
  unfold execStatCommit
  exact .next (gated_sound (fr.mono rfl) (fun _ ht => stPut_sound fr ht) h)

theorem execStatStart_sound {c : CmdCall} (fr : Free K [.regs, .tables, .net, .toll, .he, .mb, .outbox, .freeCtr])
    (h : Sound K C z s) :
    SoundOut K C z (execStatStart c s) := by
  unfold execStatStart
  exact .next (mbRun_sound (fr.mono rfl) (fun _ _ ht => statStart_sound (fr.mono rfl) ht) h)

theorem execStatStop_sound {c : CmdCall} (fr : Free K [.regs, .net, .toll, .he, .mb, .outbox, .freeCtr])
    (h : Sound K C z s) :
    SoundOut K C z (execStatStop c s) := by
  unfold execStatStop
  exact .next (mbRun_sound fr (fun _ _ ht => statStop_sound (fr.mono rfl) ht) h)

theorem execStatParams_sound {c : CmdCall} (fr : Free K [.regs, .tables, .net, .toll, .he, .mb, .outbox, .freeCtr])
    (h : Sound K C z s) :
    SoundOut K C z (execStatParams c s) := by
  unfold execStatParams
  exact .next (mbRun_sound (fr.mono rfl) (fun _ _ ht => statParams_sound (fr.mono rfl) ht) h)

theorem execQueueRtagRead_sound {ag : Agent} {q : Fin 66} {poison : Bool}
    (fr : Free K [.regs, .ports, .net, .queues, .pa, .he, .mb, .outbox, .freeCtr]) (h : Sound K C z s) :
    SoundOut K C z (execQueueRtagRead ag q poison s) := by
  unfold execQueueRtagRead
  refine .next ?_
  extract_lets r
  have hr : Sound K C z r.1 := rtagRead_sound fr h
  exact emit_sound (fr.mono rfl) hr

theorem execQueueStale_sound {q : Fin 66} (fr : Free K [.regs, .queues, .he, .outbox]) (h : Sound K C z s) :
    SoundOut K C z (execQueueStale q s) := by
  unfold execQueueStale
  exact .next (quStale_sound fr h)

theorem execQueueHwRead_sound {q : Fin 66} (fr : Free K [.regs, .ports, .net, .queues, .toll, .pa, .he, .outbox])
    (h : Sound K C z s) :
    SoundOut K C z (execQueueHwRead q s) := by
  unfold execQueueHwRead
  exact .next (hwRead_sound fr h)

end Sys2Proof.Machine
end

section
/-! SUPPORT. What each operation of Machine/Segment.lean leaves unchanged (the rules are in Laws/Sound.lean). -/

namespace Sys2Proof.Machine

set_option Elab.async false

variable {K : Comp → Prop} {C : Prop} {z s t : State}

theorem sgPut_sound {a : Nat} {v : Nat} (fr : Free K [.regs, .tables, .ports, .he, .outbox]) (h : Sound K C z s) :
    Sound K C z (sgPut a v s) := by
  unfold sgPut
  extract_lets p o s1
  have hs1 : Sound K C z s1 := putWord_sound (fr.mono rfl) h
  exact .ite (fun _ => .ite (fun _ => shadowCommit_sound (fr.mono rfl) hs1) (fun _ => hs1)) (fun _ => .ite (fun _ =>
    bankPut_sound (fr.mono rfl) h) (fun _ => putWord_sound (fr.mono rfl) h))

theorem segLearn_sound {c : CmdCall} (fr : Free K [.ports]) (h : Sound K C z s) :
    Sound K C z (segLearn c s).1 := by
  unfold segLearn
  extract_lets p n lines
  exact .ite1 (fun _ => h) (fun _ => .ite1 (fun _ => h) (fun _ => .ite1 (fun _ => h) (fun _ => .ite1 (fun _ => h) (fun _
    => updPort_sound fr h))))

theorem segLoadProfile_sound {c : CmdCall} (fr : Free K [.regs, .tables, .he, .outbox]) (h : Sound K C z s) :
    Sound K C z (segLoadProfile c s).1 := by
  unfold segLoadProfile
  extract_lets p
  refine .ite1 (fun _ => h) (fun _ => ?_)
  split
  · exact h
  · extract_lets s1 s2
    have hs1 : Sound K C z s1 := putWords_sound fr h
    have hs2 : Sound K C z s2 := by
      unfold s2
      split
      · exact fset_sound (fr.mono rfl) (fset_sound (fr.mono rfl) hs1)
      · exact hs1
    exact shadowCommit_sound (fr.mono rfl) hs2

theorem segParams_sound {c : CmdCall} (fr : Free K [.regs, .tables, .he, .outbox]) (h : Sound K C z s) :
    Sound K C z (segParams c s).1 := by
  unfold segParams
  extract_lets p img
  exact .ite1 (fun _ => h) (fun _ => shadowCommit_sound (fr.mono rfl) (putWords_sound fr h))

theorem segTableLoad_sound {c : CmdCall} (fr : Free K [.regs, .tables, .ports, .toll, .outbox]) (h : Sound K C z s) :
    Sound K C z (segTableLoad c s).1 := by
  unfold segTableLoad
  extract_lets p dual b n swap target s1 timed w s2
  have hs1 : Sound K C z s1 := tblPuts_sound (fr.mono rfl) (hostRead_sound (fr.mono rfl) h)
  have hs2 : Sound K C z s2 := wrn_sound (fr.mono rfl) hs1
  exact .ite1 (fun _ => h) (fun _ => .ite1 (fun _ => h) (fun _ => .ite1 (fun _ => h) (fun _ => .ite1 (fun _ => h) (fun _
    => .ite1 (fun _ => h) (fun _ => .ite1 (fun _ => h) (fun _ => .ite (fun _ => swapRequest_sound (fr.mono rfl) (.ite (fun
    _ => wrn_sound (fr.mono rfl) hs2) (fun _ => hs2))) (fun _ => hs1)))))))

theorem execSgCommit_sound {ag : Agent} {port : PortNo} {v : Word} (fr : Free K [.regs, .tables, .ports, .he, .outbox])
    (h : Sound K C z s) :
    SoundOut K C z (execSgCommit ag port v s) := by
  unfold execSgCommit
  exact .next (gated_sound (fr.mono rfl) (fun _ ht => sgPut_sound fr ht) h)

theorem execSgBankSwapRequest_sound {ag : Agent} {port : PortNo} {v : Word}
    (fr : Free K [.regs, .tables, .ports, .he, .outbox]) (h : Sound K C z s) :
    SoundOut K C z (execSgBankSwapRequest ag port v s) := by
  unfold execSgBankSwapRequest
  exact .next (gated_sound (fr.mono rfl) (fun _ ht => sgPut_sound fr ht) h)

theorem execSgBankCancel_sound {ag : Agent} {port : PortNo} {v : Word}
    (fr : Free K [.regs, .tables, .ports, .he, .outbox]) (h : Sound K C z s) :
    SoundOut K C z (execSgBankCancel ag port v s) := by
  unfold execSgBankCancel
  exact .next (gated_sound (fr.mono rfl) (fun _ ht => sgPut_sound fr ht) h)

theorem execSegLearnBg_sound {c : CmdCall} (fr : Free K [.regs, .ports, .net, .toll, .he, .mb, .outbox, .freeCtr])
    (h : Sound K C z s) :
    SoundOut K C z (execSegLearnBg c s) := by
  unfold execSegLearnBg
  exact .next (mbRun_sound (fr.mono rfl) (fun _ _ ht => segLearn_sound (fr.mono rfl) ht) h)

theorem execSegLoadProfile_sound {c : CmdCall} (fr : Free K [.regs, .tables, .net, .toll, .he, .mb, .outbox, .freeCtr])
    (h : Sound K C z s) :
    SoundOut K C z (execSegLoadProfile c s) := by
  unfold execSegLoadProfile
  exact .next (mbRun_sound (fr.mono rfl) (fun _ _ ht => segLoadProfile_sound (fr.mono rfl) ht) h)

theorem execSegParams_sound {c : CmdCall} (fr : Free K [.regs, .tables, .net, .toll, .he, .mb, .outbox, .freeCtr])
    (h : Sound K C z s) :
    SoundOut K C z (execSegParams c s) := by
  unfold execSegParams
  exact .next (mbRun_sound (fr.mono rfl) (fun _ _ ht => segParams_sound (fr.mono rfl) ht) h)

theorem execSegTableLoad_sound {c : CmdCall}
    (fr : Free K [.regs, .tables, .ports, .net, .toll, .he, .mb, .outbox, .freeCtr]) (h : Sound K C z s) :
    SoundOut K C z (execSegTableLoad c s) := by
  unfold execSegTableLoad
  exact .next (mbRun_sound (fr.mono rfl) (fun _ _ ht => segTableLoad_sound (fr.mono rfl) ht) h)

end Sys2Proof.Machine
end

section
/-! SUPPORT. What each operation of Machine/Parapet.lean leaves unchanged (the rules are in Laws/Sound.lean). -/

namespace Sys2Proof.Machine

set_option Elab.async false

variable {K : Comp → Prop} {C : Prop} {z s t : State}

theorem setAssert_sound {src : Nat} {on : Bool} (fr : Free K [.pa]) (h : Sound K C z s) :
    Sound K C z (setAssert src on s) := by
  unfold setAssert
  extract_lets l src'
  exact .setPa fr h

theorem endAsserts_sound {l : List Nat} (fr : Free K [.pa]) (h : Sound K C z s) :
    Sound K C z (endAsserts l s) := by
  unfold endAsserts
  exact forEach_sound h (fun _ _ ht => setAssert_sound fr ht)

theorem monitorTrip_sound {src : Nat}
    (fr : Free K [.regs, .mem, .ledger, .views, .act, .acct, .net, .em, .pa, .he, .ev, .rs, .outbox, .freeCtr])
    (h : Sound K C z s) :
    Sound K C z (monitorTrip src s) := by
  unfold monitorTrip
  exact paDetect_sound fr (setAssert_sound (fr.mono rfl) h)

theorem faultDetect_sound {src : Nat} {holds : Bool}
    (fr : Free K [.regs, .mem, .ledger, .views, .ports, .act, .acct, .net, .em, .pa, .he, .ev, .mb, .rs, .outbox,
      .freeCtr])
    (h : Sound K C z s) :
    Sound K C z (faultDetect src holds s) := by
  unfold faultDetect
  refine .ite (fun _ => h) (fun _ => ?_)
  extract_lets s1
  have hs1 : Sound K C z s1 := paDetect_sound (fr.mono rfl) (setAssert_sound (fr.mono rfl) h)
  exact .ite (fun _ => replaceTo_sound (fr.mono rfl) hs1) (fun _ => hs1)

theorem stickyClear_sound {srcs : List Nat}
    (fr : Free K [.regs, .mem, .ledger, .views, .act, .acct, .net, .em, .pa, .he, .ev, .rs, .outbox, .freeCtr])
    (h : Sound K C z s) :
    Sound K C z (stickyClear srcs s) := by
  unfold stickyClear
  extract_lets on
  exact forEach_sound (forEach_sound h (fun _ _ ht => paSetSticky_sound (fr.mono rfl) ht)) (fun _ _ hs => paDetect_sound
    fr hs)

theorem safeLeave_sound (fr : Free K [.regs, .pa, .outbox]) (h : Sound K C z s) :
    Sound K C z (safeLeave s) := by
  unfold safeLeave
  extract_lets s1 s2
  have hs1 : Sound K C z s1 := fbset_sound (fr.mono rfl) (fbset_sound (fr.mono rfl) h)
  have hs2 : Sound K C z s2 := forEach_sound hs1 (fun _ _ ht => fbset_sound (fr.mono rfl) ht)
  exact paPins_sound fr (fbset_sound (fr.mono rfl) (fbset_sound (fr.mono rfl) hs2))

theorem safeRelease_sound
    (fr : Free K [.regs, .mem, .ledger, .views, .act, .acct, .net, .em, .pa, .he, .ev, .rs, .outbox, .freeCtr])
    (h : Sound K C z s) :
    Sound K C z (safeRelease s) := by
  unfold safeRelease
  exact .ite (fun _ => idleBuses_sound fr (safeLeave_sound (fr.mono rfl) h)) (fun _ => h)

theorem holdWrite_sound {hold : Bool} (fr : Free K [.regs, .pa, .outbox]) (h : Sound K C z s) :
    Sound K C z (holdWrite hold s) := by
  unfold holdWrite
  exact paPins_sound fr (fbset_sound (fr.mono rfl) h)

theorem extCfg_sound {v : Nat} (fr : Free K [.regs]) (h : Sound K C z s) :
    Sound K C z (extCfg v s) := by
  unfold extCfg
  refine forEach_sound (fset_sound fr h) (fun k t ht => ?_)
  extract_lets c t1
  have ht1 : Sound K C z t1 := wrn_sound fr ht
  exact .ite (fun _ => regBit_sound fr ht1) (fun _ => ht1)

theorem maskWrite_sound {w : Nat} {v : Nat} (fr : Free K [.regs]) (h : Sound K C z s) :
    Sound K C z (maskWrite w v s) := by
  unfold maskWrite
  exact forEach_sound h (fun _ _ ht => regBit_sound fr ht)

theorem wdogKick_sound (fr : Free K [.pa]) (h : Sound K C z s) :
    Sound K C z (wdogKick s) := by
  unfold wdogKick
  exact .setPa fr h

theorem wdogSuspend_sound (fr : Free K [.pa]) (h : Sound K C z s) :
    Sound K C z (wdogSuspend s) := by
  unfold wdogSuspend
  exact .setPa fr h

theorem wdogEnable_sound (fr : Free K [.regs, .pa, .outbox]) (h : Sound K C z s) :
    Sound K C z (wdogEnable s) := by
  unfold wdogEnable
  exact .ite (fun _ => h) (fun _ => paPins_sound fr (wdogKick_sound (fr.mono rfl) (fbset_sound (fr.mono rfl) h)))

theorem paPut_sound {a : Nat} {v : Nat}
    (fr : Free K [.regs, .tables, .mem, .ledger, .views, .act, .acct, .net, .em, .pa, .he, .ev, .rs, .outbox, .freeCtr])
    (h : Sound K C z s) :
    Sound K C z (paPut a v s) := by
  unfold paPut
  refine .ite (fun _ => ?_) (fun _ => .ite (fun _ => holdWrite_sound (fr.mono rfl) h) (fun _ => .ite (fun _ => ?_) (fun _
    => .ite (fun _ => extCfg_sound (fr.mono rfl) h) (fun _ => .ite (fun _ => stickyClear_sound (fr.mono rfl) h) (fun _ =>
    .ite (fun _ => maskWrite_sound (fr.mono rfl) h) (fun _ => putWord_sound (fr.mono rfl) h))))))
  · extract_lets s1
    have hs1 : Sound K C z s1 := fset_sound (fr.mono rfl) h
    exact .ite (fun _ => paDetect_sound (fr.mono rfl) hs1) (fun _ => .ite (fun _ => safeRelease_sound (fr.mono rfl) hs1)
      (fun _ => hs1))
  · extract_lets s1 s2
    have hs11 : Sound K C z s1 := fset_sound (fr.mono rfl) h
    have hs2 : Sound K C z s2 := .ite (fun _ => wdogEnable_sound (fr.mono rfl) hs11) (fun _ => hs11)
    exact .ite (fun _ => wdogKick_sound (fr.mono rfl) hs2) (fun _ => hs2)

theorem paNoticeRx_sound {p : List Byte}
    (fr : Free K [.regs, .mem, .ledger, .views, .act, .acct, .net, .em, .pa, .he, .ev, .rs, .outbox, .freeCtr])
    (h : Sound K C z s) :
    Sound K C z (paNoticeRx p s) := by
  unfold paNoticeRx
  refine .ite (fun _ => h) (fun _ => ?_)
  extract_lets fl w s1
  have hs1 : Sound K C z s1 := evt_sound (fr.mono rfl) (wrn_sound (fr.mono rfl) (wrn_sound (fr.mono rfl) h))
  exact .ite (fun _ => paDetect_sound fr hs1) (fun _ => hs1)

theorem runPaClear_sound {c : CmdCall}
    (fr : Free K [.regs, .mem, .ledger, .views, .act, .acct, .net, .em, .pa, .he, .ev, .rs, .outbox, .freeCtr])
    (h : Sound K C z s) :
    Sound K C z (runPaClear c s).1 := by
  unfold runPaClear
  extract_lets src s1 s2 left
  have hs1 : Sound K C z s1 := endAsserts_sound (fr.mono rfl) h
  have hs2 : Sound K C z s2 := stickyClear_sound fr hs1
  exact .ite1 (fun _ => h) (fun _ => hs2)

theorem resumeBuses_sound
    (fr : Free K [.regs, .mem, .ledger, .views, .act, .acct, .net, .em, .pa, .he, .ev, .rs, .outbox, .freeCtr])
    (h : Sound K C z s) :
    Sound K C z (resumeBuses s) := by
  unfold resumeBuses
  exact holdWrite_sound (fr.mono rfl) (forEach_sound h (fun _ _ ht => .ite (fun _ => busEnable_sound fr ht) (fun _ =>
    ht)))

theorem runPaRelease_sound {c : CmdCall}
    (fr : Free K [.regs, .mem, .ledger, .views, .act, .acct, .net, .em, .pa, .he, .ev, .rs, .outbox, .freeCtr])
    (h : Sound K C z s) :
    Sound K C z (runPaRelease c s).1 := by
  unfold runPaRelease
  extract_lets s1 s2
  have hs1 : Sound K C z s1 := endAsserts_sound (fr.mono rfl) h
  have hs2 : Sound K C z s2 := safeLeave_sound (fr.mono rfl) hs1
  exact .ite1 (fun _ => idleBuses_sound fr (.ite (fun _ => resumeBuses_sound fr hs2) (fun _ => hs2))) (fun _ => h)

theorem runPaForce_sound {x : CmdCall}
    (fr : Free K [.regs, .mem, .ledger, .views, .act, .acct, .net, .em, .pa, .he, .ev, .rs, .outbox, .freeCtr])
    (h : Sound K C z s) :
    Sound K C z (runPaForce x s).1 := by
  unfold runPaForce
  exact paDetect_sound fr h

theorem runPaConfig_sound {c : CmdCall} (fr : Free K [.regs]) (h : Sound K C z s) :
    Sound K C z (runPaConfig c s).1 := by
  unfold runPaConfig
  extract_lets ext bad s1 s2 f s3
  have hs1 : Sound K C z s1 := extCfg_sound fr h
  have hs2 : Sound K C z s2 := forEach_sound hs1 (fun _ _ ht => wrn_sound fr ht)
  have hs3 : Sound K C z s3 := fset_sound fr hs2
  unfold bad
  split
  · exact h
  · exact .ite1 (fun _ => h) (fun _ => .ite1 (fun _ => h) (fun _ => fset_sound fr hs3))

theorem execFaultDetect_sound {src : Fin 512} {holds : Bool}
    (fr : Free K [.regs, .mem, .ledger, .views, .ports, .act, .acct, .net, .em, .pa, .he, .ev, .mb, .rs, .outbox,
      .freeCtr])
    (h : Sound K C z s) :
    SoundOut K C z (execFaultDetect src holds s) := by
  unfold execFaultDetect
  exact .next (faultDetect_sound fr h)

theorem execParapetNoticeReceive_sound {payload : List Byte}
    (fr : Free K [.regs, .mem, .ledger, .views, .act, .acct, .net, .em, .pa, .he, .ev, .rs, .outbox, .freeCtr])
    (h : Sound K C z s) :
    SoundOut K C z (execParapetNoticeReceive payload s) := by
  unfold execParapetNoticeReceive
  exact .next (paNoticeRx_sound fr h)

theorem execSupplyExcursion_sound {rail : Fin 8}
    (fr : Free K [.regs, .mem, .ledger, .views, .act, .acct, .net, .em, .pa, .he, .ev, .rs, .outbox, .freeCtr])
    (h : Sound K C z s) :
    SoundOut K C z (execSupplyExcursion rail s) := by
  unfold execSupplyExcursion
  exact .next (monitorTrip_sound fr h)

theorem tjWarn_sound {tj : Int}
    (fr : Free K [.regs, .mem, .ledger, .views, .act, .acct, .net, .em, .pa, .he, .ev, .rs, .outbox, .freeCtr])
    (h : Sound K C z s) :
    Sound K C z (tjWarn tj s) := by
  unfold tjWarn
  extract_lets warn
  exact .ite (fun _ => .ite (fun _ => h) (fun _ => monitorTrip_sound fr h)) (fun _ => .ite (fun _ => setAssert_sound
    (fr.mono rfl) h) (fun _ => h))

theorem execTjWarn_sound {tj : BitVec 16}
    (fr : Free K [.regs, .mem, .ledger, .views, .act, .acct, .net, .em, .pa, .he, .ev, .rs, .outbox, .freeCtr])
    (h : Sound K C z s) :
    SoundOut K C z (execTjWarn tj s) := by
  unfold execTjWarn
  exact .next (tjWarn_sound fr (fset_sound (fr.mono rfl) h))

theorem execTjCritical_sound {tj : BitVec 16}
    (fr : Free K [.regs, .mem, .ledger, .views, .act, .acct, .net, .em, .pa, .he, .ev, .rs, .outbox, .freeCtr])
    (h : Sound K C z s) :
    SoundOut K C z (execTjCritical tj s) := by
  unfold execTjCritical
  extract_lets s1
  have hs1 : Sound K C z s1 := fset_sound (fr.mono rfl) h
  exact .next (.ite (fun _ => monitorTrip_sound fr hs1) (fun _ => hs1))

theorem execWatchdogExpiry_sound
    (fr : Free K [.regs, .mem, .ledger, .views, .act, .acct, .net, .em, .pa, .he, .ev, .rs, .outbox, .freeCtr])
    (h : Sound K C z s) :
    SoundOut K C z (execWatchdogExpiry s) := by
  unfold execWatchdogExpiry
  exact .next (.ite (fun _ => paDetect_sound fr (wdogKick_sound (fr.mono rfl) h)) (fun _ => h))

theorem execWatchdogKick_sound {ag : Agent} (fr : Free K [.regs, .pa, .he, .outbox]) (h : Sound K C z s) :
    SoundOut K C z (execWatchdogKick ag s) := by
  unfold execWatchdogKick
  exact .next (gated_sound (fr.mono rfl) (fun _ ht => wdogKick_sound (fr.mono rfl) ht) h)

theorem execWatchdogEnable_sound {ag : Agent} (fr : Free K [.regs, .pa, .he, .outbox]) (h : Sound K C z s) :
    SoundOut K C z (execWatchdogEnable ag s) := by
  unfold execWatchdogEnable
  exact .next (gated_sound (fr.mono rfl) (fun _ ht => wdogEnable_sound (fr.mono rfl) ht) h)

theorem execAliveToggle_sound (fr : Free K [.pa, .outbox]) (h : Sound K C z s) :
    SoundOut K C z (execAliveToggle s) := by
  unfold execAliveToggle
  exact .next (.ite (fun _ => emit_sound (fr.mono rfl) (.setPa (fr.mono rfl) h)) (fun _ => h))

theorem execSafeForce_sound {ag : Agent}
    (fr : Free K [.regs, .mem, .ledger, .views, .act, .acct, .net, .em, .pa, .he, .ev, .rs, .outbox, .freeCtr])
    (h : Sound K C z s) :
    SoundOut K C z (execSafeForce ag s) := by
  unfold execSafeForce
  exact .next (gated_sound (fr.mono rfl) (fun _ ht => paDetect_sound fr ht) h)

theorem execSafeRelease_sound {ag : Agent} {ended : List Nat}
    (fr : Free K [.regs, .mem, .ledger, .views, .act, .acct, .net, .em, .pa, .he, .ev, .rs, .outbox, .freeCtr])
    (h : Sound K C z s) :
    SoundOut K C z (execSafeRelease ag ended s) := by
  unfold execSafeRelease
  exact .next (gated_sound (fr.mono rfl) (fun _ ht => safeRelease_sound fr ht) (endAsserts_sound (fr.mono rfl) h))

theorem execStickyClear_sound {ag : Agent} {word : Fin 16} {mask : Word} {ended : List Nat}
    (fr : Free K [.regs, .mem, .ledger, .views, .act, .acct, .net, .em, .pa, .he, .ev, .rs, .outbox, .freeCtr])
    (h : Sound K C z s) :
    SoundOut K C z (execStickyClear ag word mask ended s) := by
  unfold execStickyClear
  exact .next (gated_sound (fr.mono rfl) (fun _ ht => stickyClear_sound fr ht) (endAsserts_sound (fr.mono rfl) h))

theorem execDivertHoldWrite_sound {ag : Agent} {hold : Bool} (fr : Free K [.regs, .pa, .he, .outbox]) (h : Sound K C z s)
    :
    SoundOut K C z (execDivertHoldWrite ag hold s) := by
  unfold execDivertHoldWrite
  exact .next (gated_sound (fr.mono rfl) (fun _ ht => holdWrite_sound (fr.mono rfl) ht) h)

theorem execPaClear_sound {c : CmdCall}
    (fr : Free K [.regs, .mem, .ledger, .views, .act, .acct, .net, .toll, .em, .pa, .he, .ev, .mb, .rs, .outbox,
      .freeCtr])
    (h : Sound K C z s) :
    SoundOut K C z (execPaClear c s) := by
  unfold execPaClear
  exact .next (mbRun_sound (fr.mono rfl) (fun _ _ ht => runPaClear_sound (fr.mono rfl) ht) h)

theorem execPaRelease_sound {c : CmdCall}
    (fr : Free K [.regs, .mem, .ledger, .views, .act, .acct, .net, .toll, .em, .pa, .he, .ev, .mb, .rs, .outbox,
      .freeCtr])
    (h : Sound K C z s) :
    SoundOut K C z (execPaRelease c s) := by
  unfold execPaRelease
  exact .next (mbRun_sound (fr.mono rfl) (fun _ _ ht => runPaRelease_sound (fr.mono rfl) ht) h)

theorem execPaForceSafe_sound {c : CmdCall}
    (fr : Free K [.regs, .mem, .ledger, .views, .act, .acct, .net, .toll, .em, .pa, .he, .ev, .mb, .rs, .outbox,
      .freeCtr])
    (h : Sound K C z s) :
    SoundOut K C z (execPaForceSafe c s) := by
  unfold execPaForceSafe
  exact .next (mbRun_sound (fr.mono rfl) (fun _ _ ht => runPaForce_sound (fr.mono rfl) ht) h)

theorem execPaConfig_sound {c : CmdCall} (fr : Free K [.regs, .net, .toll, .he, .mb, .outbox, .freeCtr])
    (h : Sound K C z s) :
    SoundOut K C z (execPaConfig c s) := by
  unfold execPaConfig
  exact .next (mbRun_sound fr (fun _ _ ht => runPaConfig_sound (fr.mono rfl) ht) h)

end Sys2Proof.Machine
end

section
/-! SUPPORT. What each operation of Machine/Tiles.lean leaves unchanged (the rules are in Laws/Sound.lean). -/

namespace Sys2Proof.Machine

set_option Elab.async false

variable {K : Comp → Prop} {C : Prop} {z s t : State}

theorem trBusy_sound {r : Nat} (fr : Free K [.regs]) (h : Sound K C z s) :
    Sound K C z (trBusy r s) := by
  unfold trBusy
  exact fbset_sound fr h

theorem trAlloc_sound {r : Nat} {len : Nat} {id : Nat} {maker : Option Nat} {msg : Nat} {blocks : Nat}
    (fr : Free K [.regs, .tiles, .acct]) (h : Sound K C z s) :
    Sound K C z (trAlloc r len id maker msg blocks s) := by
  unfold trAlloc
  extract_lets p lena seq a s1 src
  have hs1 : Sound K C z s1 := wrn_sound (fr.mono rfl) (wrn_sound (fr.mono rfl) h)
  exact trBusy_sound (fr.mono rfl) (acct_sound (fr.mono rfl) (.setTiles (fr.mono rfl) hs1))

theorem trNoSpace_sound {r : Nat} (fr : Free K [.regs, .he, .outbox]) (h : Sound K C z s) :
    Sound K C z (trNoSpace r s) := by
  unfold trNoSpace
  exact irqAt_sound fr (fset_sound (fr.mono rfl) (cnt_sound (fr.mono rfl) h))

theorem updAlloc_sound {r : Nat} {seq : Nat} {f : TileAlloc → TileAlloc} (fr : Free K [.tiles]) (h : Sound K C z s) :
    Sound K C z (updAlloc r seq f s) := by
  unfold updAlloc
  exact .setTiles fr h

theorem allocWrite_sound {a : TileAlloc} {at_ : Nat} {data : List Byte} (fr : Free K [.tiles, .he, .outbox])
    (h : Sound K C z s) :
    Sound K C z (allocWrite a at_ data s) := by
  unfold allocWrite
  extract_lets s1
  have hs1 : Sound K C z s1 := dmaWrite_sound (fr.mono rfl) h
  exact updAlloc_sound (fr.mono rfl) hs1

theorem sendTileDone_sound {pier : Nat} {status : Nat} {reason : Nat} {ring : Nat} {id : Nat} {seq : Nat}
    (fr : Free K [.regs, .net, .he, .outbox]) (h : Sound K C z s) :
    Sound K C z (sendTileDone pier status reason ring id seq s) := by
  unfold sendTileDone
  exact netSend_sound fr h

theorem tileRefused_sound {maker : Option Nat} {reason : Nat} {ring : Nat} {id : Nat}
    (fr : Free K [.regs, .ledger, .tiles, .acct, .net, .he, .outbox]) (h : Sound K C z s) :
    Sound K C z (tileRefused maker reason ring id s) := by
  unfold tileRefused
  split
  · exact tileDrop_sound (fr.mono rfl) h
  · exact sendTileDone_sound (fr.mono rfl) h

theorem tileHeaderIn_sound {r : Nat} {len : Nat} {id : Nat} {maker : Option Nat} {msg : Nat} {blocks : Nat}
    (fr : Free K [.regs, .mem, .ledger, .tiles, .acct, .net, .he, .outbox]) (h : Sound K C z s) :
    Sound K C z (tileHeaderIn r len id maker msg blocks s) := by
  unfold tileHeaderIn
  exact .ite (fun _ => tileRefused_sound (fr.mono rfl) h) (fun _ => .ite (fun _ => tileRefused_sound (fr.mono rfl)
    (poolRefuse_sound (fr.mono rfl) h)) (fun _ => .ite (fun _ => trAlloc_sound (fr.mono rfl) (poolTake_sound (fr.mono rfl)
    h)) (fun _ => tileRefused_sound (fr.mono rfl) (trNoSpace_sound (fr.mono rfl) h))))

theorem evCopy_sound {id : Nat} {bytes : List Byte} (fr : Free K [.regs, .mem, .he, .ev, .outbox]) (h : Sound K C z s) :
    Sound K C z (evCopy id bytes s) := by
  unfold evCopy
  refine .ite (fun _ => h) (fun _ => ?_)
  extract_lets n s1 src s1' src'
  have hs1 : Sound K C z s1 := poolTake_sound (fr.mono rfl) h
  have hs1' : Sound K C z s1' := poolRefuse_sound (fr.mono rfl) h
  exact .ite (fun _ => .setEv (fr.mono rfl) hs1) (fun _ => .setEv (fr.mono rfl) hs1')

theorem tollStream_sound {c : Nat} {costs : List (Nat × Nat)} {short : Bool} (fr : Free K [.regs, .toll, .he, .outbox])
    (h : Sound K C z s) :
    Sound K C z (tollStream c costs short s) := by
  unfold tollStream
  exact .ite (fun _ => tollShort_sound fr (foldl_sound h (fun _ _ ht => tollTake_sound (fr.mono rfl) ht))) (fun _ =>
    tollBegin_sound (fr.mono rfl) h)

theorem tileSend_sound {pier : Nat} {n : Nat} {segs : List (List Byte)} (fr : Free K [.regs, .net, .he, .outbox])
    (h : Sound K C z s) :
    Sound K C z (tileSend pier n segs s) := by
  unfold tileSend
  extract_lets pk s1 r
  have hs1 : Sound K C z s1 := bumpMsg_sound (fr.mono rfl) h
  exact .ite (fun _ => dropNoRoute_sound (fr.mono rfl) hs1) (fun _ => .ite (fun _ => dropNoRoute_sound (fr.mono rfl) hs1)
    (fun _ => foldl_sound hs1 (fun _ _ ht => enqueue_sound (fr.mono rfl) ht)))

theorem tileWrite_sound {a : TileAlloc} {at_ : Nat} {data : List Byte} {dmaCut : Bool}
    (fr : Free K [.regs, .tiles, .toll, .he, .outbox]) (h : Sound K C z s) :
    Sound K C z (tileWrite a at_ data dmaCut s) := by
  unfold tileWrite
  extract_lets costs short s1
  have hs1 : Sound K C z s1 := tollStream_sound (fr.mono rfl) (allocWrite_sound (fr.mono rfl) h)
  exact .ite (fun _ => updAlloc_sound (fr.mono rfl) (tollShort_sound (fr.mono rfl) h)) (fun _ => .ite (fun _ =>
    updAlloc_sound (fr.mono rfl) hs1) (fun _ => hs1))

theorem tileToRing_sound {m : TileMade} {bytes : List Byte} {cut : Option Nat} {dmaCut : Bool}
    (fr : Free K [.regs, .mem, .ledger, .tiles, .acct, .net, .toll, .he, .outbox]) (h : Sound K C z s) :
    Sound K C z (tileToRing m bytes cut dmaCut s) := by
  unfold tileToRing
  extract_lets seq s1 n
  have hs1 : Sound K C z s1 := tileHeaderIn_sound (fr.mono rfl) h
  split
  · exact hs1
  · extract_lets s2
    have hs2 : Sound K C z s2 := tileWrite_sound (fr.mono rfl) hs1
    exact .ite (fun _ => updAlloc_sound (fr.mono rfl) hs2) (fun _ => hs2)

theorem tileOut_sound {m : TileMade} {bytes : List Byte} {cut : Option Nat} {dmaCut : Bool}
    (fr : Free K [.regs, .mem, .ledger, .tiles, .acct, .net, .toll, .he, .outbox]) (h : Sound K C z s) :
    Sound K C z (tileOut m bytes cut dmaCut s) := by
  unfold tileOut
  refine .ite (fun _ => tileDrop_sound (fr.mono rfl) h) (fun _ => .ite (fun _ => tileToRing_sound fr h) (fun _ => ?_))
  extract_lets segs k s1 src
  have hs1 : Sound K C z s1 := tileSend_sound (fr.mono rfl) h
  exact .ite (fun _ => tileDrop_sound (fr.mono rfl) hs1) (fun _ => .ite (fun _ => tileDrop_sound (fr.mono rfl) hs1) (fun _
    => .setTiles (fr.mono rfl) hs1))

theorem tileCrop_sound {id : Nat} {cut0 : Option Nat} {dmaCut : Bool} {check : ReadCheck} {at_ : Nat} {s0 : State}
    (fr : Free K [.regs, .mem, .ledger, .tiles, .acct, .net, .toll, .pa, .he, .ev, .outbox]) (hs0 : Sound K C z s0) :
    Sound K C z (tileCrop id cut0 dmaCut check at_ s0) := by
  unfold tileCrop
  split
  · exact hs0
  · extract_lets e mg rect s cut row
    have hs : Sound K C z s := lp5Check_sound (fr.mono rfl) hs0
    refine .ite (fun _ => hs0) (fun _ => .ite (fun _ => tileDrop_sound (fr.mono rfl) hs) (fun _ => ?_))
    split
    · exact tileDrop_sound (fr.mono rfl) hs
    · extract_lets bytes n s1 copy
      have hs1 : Sound K C z s1 := evCopy_sound (fr.mono rfl) (poolGive_sound (fr.mono rfl) (poolTake_sound (fr.mono rfl)
          hs))
      exact .ite (fun _ => tileDrop_sound (fr.mono rfl) (tollShort_sound (fr.mono rfl) hs)) (fun _ => .ite (fun _ =>
        tileDrop_sound (fr.mono rfl) (poolRefuse_sound (fr.mono rfl) hs)) (fun _ => tileOut_sound (fr.mono rfl)
        (tollStream_sound (fr.mono rfl) hs1)))

theorem tilePacket_sound {src : Nat} {msg : Nat} {seg : Nat} {data : List Byte} {dmaCut : Bool}
    (fr : Free K [.regs, .mem, .ledger, .tiles, .acct, .net, .toll, .he, .outbox]) (h : Sound K C z s) :
    Sound K C z (tilePacket src msg seg data dmaCut s) := by
  unfold tilePacket
  refine .ite (fun _ => ?_) (fun _ => ?_)
  · extract_lets len s1
    have hs1 : Sound K C z s1 := tileHeaderIn_sound (fr.mono rfl) h
    refine .ite (fun _ => h) (fun _ => ?_)
    split
    · exact hs1
    · exact tileWrite_sound (fr.mono rfl) hs1
  · split
    · exact h
    · exact .ite (fun _ => h) (fun _ => .ite (fun _ => updAlloc_sound (fr.mono rfl) h) (fun _ => tileWrite_sound (fr.mono
        rfl) h))

theorem allocFree_sound {a : TileAlloc} (fr : Free K [.regs, .mem, .tiles]) (h : Sound K C z s) :
    Sound K C z (allocFree a s) := by
  unfold allocFree
  exact trBusy_sound (fr.mono rfl) (poolGive_sound (fr.mono rfl) (.setTiles (fr.mono rfl) h))

theorem descWrite_sound {r : Nat} {seq : Nat} (fr : Free K [.regs, .mem, .ledger, .tiles, .acct, .net, .he, .outbox])
    (h : Sound K C z s) :
    Sound K C z (descWrite r seq s) := by
  unfold descWrite
  split
  · exact h
  · split
    · exact h
    · extract_lets base s1 ok s2 s3 s4
      have hs1 : Sound K C z s1 := dmaWrite_sound (fr.mono rfl) h
      have hs2 : Sound K C z s2 := cnt_sound (fr.mono rfl) hs1
      have hs3 : Sound K C z s3 := .ite (fun _ => irqAt_sound (fr.mono rfl) (fset_sound (fr.mono rfl) hs2)) (fun _ => hs2)
      have hs4 : Sound K C z s4 := acct_sound (fr.mono rfl) (allocFree_sound (fr.mono rfl) hs3)
      split
      · exact sendTileDone_sound (fr.mono rfl) hs4
      · exact sendTileDone_sound (fr.mono rfl) hs4
      · exact tileDeliver_sound (fr.mono rfl) hs4
      · exact tileDrop_sound (fr.mono rfl) hs4

theorem tileDone_sound {src : Nat} {p : List Byte} (fr : Free K [.regs, .ledger, .tiles, .acct, .he, .outbox])
    (h : Sound K C z s) :
    Sound K C z (tileDone src p s) := by
  unfold tileDone
  extract_lets id st
  exact .ite (fun _ => h) (fun _ => .ite (fun _ => tileDeliver_sound (fr.mono rfl) h) (fun _ => .ite (fun _ =>
    tileDrop_sound fr h) (fun _ => h)))

theorem tileAckTmo_sound {id : Nat} (fr : Free K [.regs, .ledger, .tiles, .acct, .he, .outbox]) (h : Sound K C z s) :
    Sound K C z (tileAckTmo id s) := by
  unfold tileAckTmo
  split
  · exact h
  · exact .ite (fun _ => tileDrop_sound fr h) (fun _ => h)

theorem tileStale_sound {r : Nat} {seq : Nat} (fr : Free K [.tiles]) (h : Sound K C z s) :
    Sound K C z (tileStale r seq s) := by
  unfold tileStale
  split
  · exact h
  · exact .ite (fun _ => updAlloc_sound fr h) (fun _ => h)

theorem consWrite_sound {r : Nat} {v : Nat} (fr : Free K [.regs, .tiles, .he, .outbox]) (h : Sound K C z s) :
    Sound K C z (consWrite r v s) := by
  unfold consWrite
  extract_lets old s1 src
  have hs1 : Sound K C z s1 := wrn_sound (fr.mono rfl) h
  exact .ite (fun _ => .setTiles (fr.mono rfl) hs1) (fun _ => irqAt_sound (fr.mono rfl) (fset_sound (fr.mono rfl) h))

theorem vrDoorbell_sound {v : Nat} {t : Nat} (fr : Free K [.regs, .he, .outbox]) (h : Sound K C z s) :
    Sound K C z (vrDoorbell v t s) := by
  unfold vrDoorbell
  exact .ite (fun _ => evt_sound fr h) (fun _ => fset_sound (fr.mono rfl) h)

theorem vrFetch_sound (fr : Free K [.regs, .tiles, .toll, .he, .outbox]) (h : Sound K C z s) :
    Sound K C z (vrFetch s) := by
  unfold vrFetch
  split
  · exact h
  · extract_lets n cost h'
    refine .ite (fun _ => tollShort_sound (fr.mono rfl) h) (fun _ => ?_)
    split
    · exact h
    · extract_lets s1 src
      have hs1 : Sound K C z s1 := npIssue_sound (fr.mono rfl) (tollSpend_sound (fr.mono rfl) h)
      exact .setTiles (fr.mono rfl) hs1

theorem hwbRun_sound {l : List (Nat × Nat)} (fr : Free K [.regs, .tiles, .toll, .he, .outbox]) (h : Sound K C z s) : Sound
    K C z (hwbRun l s) := by
  induction l generalizing s with
  | nil => exact .setTiles (fr.mono rfl) h
  | cons x l ih =>
    have hput : Sound K C z { s with tiles := { s.tiles with hwb := x :: l } } := .setTiles (fr.mono rfl) h
    exact .ite (fun _ => hput) (fun _ => .ite (fun _ => tollShort_sound (fr.mono rfl) hput)
      (fun _ => ih (dmaWrite_sound (fr.mono rfl) (tollSpend_sound (fr.mono rfl) h))))

theorem vrTake_sound {v : Nat} {e : List Byte}
    (fr : Free K [.regs, .mem, .ledger, .views, .tiles, .act, .acct, .net, .toll, .he, .ev, .outbox, .freeCtr])
    (h : Sound K C z s) :
    Sound K C z (vrTake v e s) := by
  unfold vrTake
  extract_lets h' s1 s2 s3
  have hs1 : Sound K C z s1 := cnt_sound (fr.mono rfl) (fset_sound (fr.mono rfl) h)
  have hs2 : Sound K C z s2 := acct_sound (fr.mono rfl) hs1
  have hs3 : Sound K C z s3 := .ite (fun _ => hwbRun_sound (fr.mono rfl) hs2) (fun _ => hs2)
  exact verdictTaken_sound (fr.mono rfl) hs3

theorem fetchDrop_sound {tag : Nat} (fr : Free K [.tiles]) (h : Sound K C z s) :
    Sound K C z (fetchDrop tag s) := by
  unfold fetchDrop
  exact .setTiles fr h

theorem vrArrive_sound {v : Nat} {data : List Byte}
    (fr : Free K [.regs, .mem, .ledger, .views, .tiles, .act, .acct, .net, .toll, .he, .ev, .outbox, .freeCtr])
    (h : Sound K C z s) :
    Sound K C z (vrArrive v data s) := by
  unfold vrArrive
  split
  · exact h
  · extract_lets void s1 s2
    have hs1 : Sound K C z s1 := npEnd_sound (fr.mono rfl) (fetchDrop_sound (fr.mono rfl) h)
    have hs2 : Sound K C z s2 := acct_sound (fr.mono rfl) hs1
    exact .ite (fun _ => cnt_sound (fr.mono rfl) hs1) (fun _ => forEach_sound hs2 (fun _ _ ht => vrTake_sound fr ht))

theorem actVerdict_sound {p : List Byte}
    (fr : Free K [.regs, .mem, .ledger, .views, .act, .acct, .net, .he, .ev, .outbox, .freeCtr]) (h : Sound K C z s) :
    Sound K C z (actVerdict p s) := by
  unfold actVerdict
  exact .ite (fun _ => h) (fun _ => verdictAtMember_sound fr h)

theorem execTileCropStart_sound {id : Nat} {cut : TileCut} {read : Lp5Read}
    (fr : Free K [.regs, .mem, .ledger, .tiles, .acct, .net, .toll, .pa, .he, .ev, .outbox]) (h : Sound K C z s) :
    SoundOut K C z (execTileCropStart id cut read s) := by
  unfold execTileCropStart
  exact .next (tileCrop_sound fr h)

theorem execTilePacketReceive_sound {src : Nat} {msg : Nat} {seg : Nat} {payload : List Byte} {dmaCut : Bool}
    (fr : Free K [.regs, .mem, .ledger, .tiles, .acct, .net, .toll, .he, .outbox]) (h : Sound K C z s) :
    SoundOut K C z (execTilePacketReceive src msg seg payload dmaCut s) := by
  unfold execTilePacketReceive
  exact .next (tilePacket_sound fr h)

theorem execTileDescriptorWrite_sound {ring : Fin 64} {seq : Nat}
    (fr : Free K [.regs, .mem, .ledger, .tiles, .acct, .net, .he, .outbox]) (h : Sound K C z s) :
    SoundOut K C z (execTileDescriptorWrite ring seq s) := by
  unfold execTileDescriptorWrite
  exact .next (descWrite_sound fr h)

theorem execTileDoneReceive_sound {src : Nat} {payload : List Byte}
    (fr : Free K [.regs, .ledger, .tiles, .acct, .he, .outbox]) (h : Sound K C z s) :
    SoundOut K C z (execTileDoneReceive src payload s) := by
  unfold execTileDoneReceive
  exact .next (tileDone_sound fr h)

theorem execTileAckTimeout_sound {id : Nat} (fr : Free K [.regs, .ledger, .tiles, .acct, .he, .outbox])
    (h : Sound K C z s) :
    SoundOut K C z (execTileAckTimeout id s) := by
  unfold execTileAckTimeout
  exact .next (tileAckTmo_sound fr h)

theorem execTileIncompleteTimeout_sound {ring : Fin 64} {seq : Nat} (fr : Free K [.tiles]) (h : Sound K C z s) :
    SoundOut K C z (execTileIncompleteTimeout ring seq s) := by
  unfold execTileIncompleteTimeout
  exact .next (tileStale_sound fr h)

theorem execTileRingConsWrite_sound {ring : Fin 64} {value : Word} (fr : Free K [.regs, .tiles, .he, .outbox])
    (h : Sound K C z s) :
    SoundOut K C z (execTileRingConsWrite ring value s) := by
  unfold execTileRingConsWrite
  exact .next (consWrite_sound fr h)

theorem execVerdictDoorbell_sound {ring : Fin 16} {tail : BitVec 12} (fr : Free K [.regs, .he, .outbox])
    (h : Sound K C z s) :
    SoundOut K C z (execVerdictDoorbell ring tail s) := by
  unfold execVerdictDoorbell
  exact .next (vrDoorbell_sound fr h)

theorem execVerdictFetch_sound (fr : Free K [.regs, .tiles, .toll, .he, .outbox]) (h : Sound K C z s) :
    SoundOut K C z (execVerdictFetch s) := by
  unfold execVerdictFetch
  exact .next (vrFetch_sound fr h)

theorem execVerdictFetchComplete_sound {ring : Fin 16} {data : List Byte}
    (fr : Free K [.regs, .mem, .ledger, .views, .tiles, .act, .acct, .net, .toll, .he, .ev, .outbox, .freeCtr])
    (h : Sound K C z s) :
    SoundOut K C z (execVerdictFetchComplete ring data s) := by
  unfold execVerdictFetchComplete
  exact .next (vrArrive_sound fr h)

theorem execActVerdictReceive_sound {_src : Nat} {payload : List Byte}
    (fr : Free K [.regs, .mem, .ledger, .views, .act, .acct, .net, .he, .ev, .outbox, .freeCtr]) (h : Sound K C z s) :
    SoundOut K C z (execActVerdictReceive _src payload s) := by
  unfold execActVerdictReceive
  exact .next (actVerdict_sound fr h)

end Sys2Proof.Machine
end

section
/-! SUPPORT. What each operation of Machine/SpanNet.lean leaves unchanged (the rules are in Laws/Sound.lean). -/

namespace Sys2Proof.Machine

set_option Elab.async false

variable {K : Comp → Prop} {C : Prop} {z s t : State}

theorem dropRx_sound {p : Nat} {a : Nat} (fr : Free K [.regs, .he, .outbox]) (h : Sound K C z s) :
    Sound K C z (dropRx p a s) := by
  unfold dropRx
  exact evt_sound fr (cnt_sound (fr.mono rfl) h)

theorem quPass_sound {q : Nat} {rec : List Byte} {poison : Bool} (fr : Free K [.regs, .net, .queues, .pa, .he, .outbox])
    (h : Sound K C z s) :
    Sound K C z (quPass q rec poison s) := by
  unfold quPass
  extract_lets s1
  have hs1 : Sound K C z s1 := quWrite_sound (fr.mono rfl) h
  exact forEach_sound hs1 (fun _ _ ht => quLeave_sound fr ht)

theorem quRefused_sound {q : Nat} {n : Nat} (fr : Free K [.regs, .he, .outbox]) (h : Sound K C z s) :
    Sound K C z (quRefused q n s) := by
  unfold quRefused
  extract_lets w
  exact quEvt_sound fr (cntWrap_sound (fr.mono rfl) (cntWrap_sound (fr.mono rfl) h))

theorem helloReceive_sound {p : Nat} {pl : List Byte}
    (fr : Free K [.regs, .mem, .time, .ledger, .views, .act, .acct, .net, .em, .pa, .he, .ev, .mb, .rs, .outbox,
      .freeCtr])
    (h : Sound K C z s) :
    Sound K C z (helloReceive p pl s) := by
  unfold helloReceive
  refine .ite (fun _ => h) (fun _ => ?_)
  extract_lets h' first s1 s2 s3 s4 s5 s6 s7
  have hs1 : Sound K C z s1 := setNetPort_sound (fr.mono rfl) h
  have hs2 : Sound K C z s2 := fset_sound (fr.mono rfl) (fset_sound (fr.mono rfl) (fset_sound (fr.mono rfl) hs1))
  have hs3 : Sound K C z s3 := upstreamUpdate_sound (fr.mono rfl) (syncAvail_sound (fr.mono rfl) hs2)
  have hs4 : Sound K C z s4 := .ite (fun _ => fset_sound (fr.mono rfl) hs3) (fun _ => hs3)
  have hs5 : Sound K C z s5 := .ite (fun _ => publish_sound (fr.mono rfl) (updHold_sound (fr.mono rfl) hs4)) (fun _ =>
      hs4)
  have hs6 : Sound K C z s6 := helloOnChange_sound (fr.mono rfl) (hostKeep_sound (fr.mono rfl) hs5)
  have hs7 : Sound K C z s7 := .ite (fun _ => sendReport_sound (fr.mono rfl) hs6) (fun _ => hs6)
  exact .ite (fun _ => paDetect_sound (fr.mono rfl) (evt_sound (fr.mono rfl) hs4)) (fun _ => forEach_sound hs7 (fun _ _ hs
    => pierReq_sound (fr.mono rfl) hs))

theorem creditReceive_sound {p : Nat} {pl : List Byte} (fr : Free K [.regs, .net]) (h : Sound K C z s) :
    Sound K C z (creditReceive p pl s) := by
  unfold creditReceive
  exact .ite (fun _ => h) (fun _ => syncAvail_sound (fr.mono rfl) (setNetPort_sound (fr.mono rfl) h))

theorem creditReturn_sound {p : Nat} (fr : Free K [.regs, .net, .he, .outbox]) (h : Sound K C z s) :
    Sound K C z (creditReturn p s) := by
  unfold creditReturn
  extract_lets n s1
  have hs1 : Sound K C z s1 := setNetPort_sound (fr.mono rfl) h
  exact .ite (fun _ => h) (fun _ => netLocal_sound fr hs1)

theorem sendEnumEnd_sound {east : Bool} {last : Nat} (fr : Free K [.regs, .net, .he, .outbox]) (h : Sound K C z s) :
    Sound K C z (sendEnumEnd east last s) := by
  unfold sendEnumEnd
  exact netSend_sound fr h

theorem takePier_sound {n : Nat} (fr : Free K [.regs, .he, .outbox]) (h : Sound K C z s) :
    Sound K C z (takePier n s) := by
  unfold takePier
  exact fset_sound (fr.mono rfl) (fbset_sound (fr.mono rfl) (evt_sound fr h))

theorem enumPass_sound {q : Nat} {east : Bool} {named : Nat} (fr : Free K [.regs, .net, .he, .outbox]) (h : Sound K C z s)
    :
    Sound K C z (enumPass q east named s) := by
  unfold enumPass
  extract_lets next
  exact .ite (fun _ => sendEnumEnd_sound fr h) (fun _ => .ite (fun _ => sendEnumEnd_sound fr (evt_sound (fr.mono rfl) h))
    (fun _ => sendEnum_sound fr h))

theorem enumReceive_sound {p : Nat} {pl : List Byte} (fr : Free K [.regs, .time, .net, .he, .mb, .outbox, .freeCtr])
    (h : Sound K C z s) :
    Sound K C z (enumReceive p pl s) := by
  unfold enumReceive
  extract_lets east n s1 s2 s3 s4
  have hs1 : Sound K C z s1 := .ite (fun _ => h) (fun _ => takePier_sound (fr.mono rfl) h)
  have hs2 : Sound K C z s2 := setUpstream_sound (fr.mono rfl) (upstreamUpdate_sound (fr.mono rfl) hs1)
  have hs3 : Sound K C z s3 := fbset_sound (fr.mono rfl) hs2
  have hs4 : Sound K C z s4 := helloOnChange_sound (fr.mono rfl) (setRoute_sound (fr.mono rfl) (setRoute_sound (fr.mono
      rfl) hs3))
  exact .ite (fun _ => h) (fun _ => enumPass_sound (fr.mono rfl) (sendReport_sound (fr.mono rfl) hs4))

theorem enumEndReceive_sound {pl : List Byte} (fr : Free K [.regs, .net, .he, .mb, .outbox, .freeCtr]) (h : Sound K C z s)
    :
    Sound K C z (enumEndReceive pl s) := by
  unfold enumEndReceive
  exact .ite (fun _ => h) (fun _ => .ite (fun _ => enumWest_sound fr (.setNet (fr.mono rfl) h)) (fun _ => .ite (fun _ =>
    enumFinish_sound fr (.setNet (fr.mono rfl) h)) (fun _ => h)))

theorem enumTimeout_sound (fr : Free K [.regs, .net, .he, .mb, .outbox, .freeCtr]) (h : Sound K C z s) :
    Sound K C z (enumTimeout s) := by
  unfold enumTimeout
  split
  · exact h
  · exact enumWest_sound fr (.setNet (fr.mono rfl) h)
  · exact enumFinish_sound fr (.setNet (fr.mono rfl) h)

theorem transparentReport_sound {p : Nat} {hops : Nat} {pl : List Byte} (fr : Free K [.regs, .net, .he, .mb, .outbox])
    (h : Sound K C z s) :
    Sound K C z (transparentReport p hops pl s) := by
  unfold transparentReport
  extract_lets serial f mine src
  exact .ite (fun _ => publish_sound fr (.setNet (fr.mono rfl) h)) (fun _ => publish_sound fr (holdInsert_sound (fr.mono
    rfl) h))

theorem dropTransparent_sound {serial : Nat} (fr : Free K [.net]) (h : Sound K C z s) :
    Sound K C z (dropTransparent serial s) := by
  unfold dropTransparent
  exact .setNet fr h

theorem reportReceive_sound {p : Nat} {hops : Nat} {pl : List Byte}
    (fr : Free K [.regs, .mem, .ledger, .views, .act, .acct, .net, .em, .pa, .he, .ev, .mb, .rs, .outbox, .freeCtr])
    (h : Sound K C z s) :
    Sound K C z (reportReceive p hops pl s) := by
  unfold reportReceive
  extract_lets pier east s1 s1'
  have hs1 : Sound K C z s1 := holdInsert_sound (fr.mono rfl) (dropTransparent_sound (fr.mono rfl) h)
  have hs1' : Sound K C z s1' := paDetect_sound (fr.mono rfl) (evt_sound (fr.mono rfl) h)
  refine .ite (fun _ => h) (fun _ => .ite (fun _ => transparentReport_sound (fr.mono rfl) h) (fun _ => ?_))
  split
  · exact publish_sound (fr.mono rfl) (fset_sound (fr.mono rfl) hs1)
  · refine .ite (fun _ => publish_sound (fr.mono rfl) (updHold_sound (fr.mono rfl) h)) (fun _ => ?_)
    extract_lets heldNear
    exact .ite (fun _ => sendAssign_sound (fr.mono rfl) hs1') (fun _ => publish_sound (fr.mono rfl) (updHold_sound
      (fr.mono rfl) (sendAssign_sound (fr.mono rfl) hs1')))

theorem pierReqReceive_sound {p : Nat} {pl : List Byte} (fr : Free K [.regs, .net, .he, .outbox]) (h : Sound K C z s) :
    Sound K C z (pierReqReceive p pl s) := by
  unfold pierReqReceive
  extract_lets to_ src
  exact .ite (fun _ => h) (fun _ => .ite (fun _ => answerReq_sound fr h) (fun _ => .setNet (fr.mono rfl) h))

theorem assignReceive_sound {pl : List Byte} (fr : Free K [.regs, .time, .net, .he, .outbox]) (h : Sound K C z s) :
    Sound K C z (assignReceive pl s) := by
  unfold assignReceive
  extract_lets serial n
  refine .ite (fun _ => h) (fun _ => .ite (fun _ => .ite (fun _ => helloOnChange_sound (fr.mono rfl) (upstreamUpdate_sound
    (fr.mono rfl) (fset_sound (fr.mono rfl) (fbset_sound (fr.mono rfl) (evt_sound (fr.mono rfl) h))))) (fun _ => h)) (fun
    _ => ?_))
  split
  · exact h
  · exact netLocal_sound (fr.mono rfl) h

theorem renumReceive_sound {pl : List Byte} (fr : Free K [.regs, .time, .net, .he, .outbox]) (h : Sound K C z s) :
    Sound K C z (renumReceive pl s) := by
  unfold renumReceive
  refine .ite (fun _ => h) (fun _ => ?_)
  extract_lets s1 s2 src s3
  have hs1 : Sound K C z s1 := .ite (fun _ => evt_sound (fr.mono rfl) h) (fun _ => h)
  have hs2 : Sound K C z s2 := fset_sound (fr.mono rfl) (fbset_sound (fr.mono rfl) hs1)
  have hs3 : Sound K C z s3 := .setNet (fr.mono rfl) hs2
  exact helloOnChange_sound (fr.mono rfl) (buildRoutes_sound (fr.mono rfl) (upstreamUpdate_sound (fr.mono rfl) hs3))

theorem chainReceive_sound {pl : List Byte} (fr : Free K [.regs, .net, .he, .mb, .outbox]) (h : Sound K C z s) :
    Sound K C z (chainReceive pl s) := by
  unfold chainReceive
  exact .ite (fun _ => h) (fun _ => takeChain_sound fr (keepChain_sound (fr.mono rfl) h))

theorem chainSeg_sound {seg : Nat} {last : Bool} {pl : List Byte} (fr : Free K [.regs, .net, .he, .mb, .outbox])
    (h : Sound K C z s) :
    Sound K C z (chainSeg seg last pl s) := by
  unfold chainSeg
  extract_lets all src
  exact .ite (fun _ => chainReceive_sound fr (.setNet (fr.mono rfl) h)) (fun _ => .setNet (fr.mono rfl) h)

theorem bulkHost_sound {pl : List Byte} (fr : Free K [.regs, .toll, .he, .mb, .outbox]) (h : Sound K C z s) :
    Sound K C z (bulkHost pl s) := by
  unfold bulkHost
  split
  · exact h
  · extract_lets s1
    have hs1 : Sound K C z s1 := updChan_sound (fr.mono rfl) h
    exact dmaWrite_sound (fr.mono rfl) (tollBegin_sound (fr.mono rfl) hs1)

theorem bulkTake_sound {p : Nat} {pl : List Byte} (fr : Free K [.regs, .mem, .net, .toll, .he, .mb, .outbox])
    (h : Sound K C z s) :
    Sound K C z (bulkTake p pl s) := by
  unfold bulkTake
  extract_lets n s1
  have hs1 : Sound K C z s1 := bulkHost_sound (fr.mono rfl) (poolGive_sound (fr.mono rfl) (poolTake_sound (fr.mono rfl)
      (tollSpend_sound (fr.mono rfl) h)))
  exact freeCredits_sound (fr.mono rfl) hs1

theorem bulkShort_sound {p : Nat} {pl : List Byte} (fr : Free K [.regs, .toll, .he, .outbox]) (h : Sound K C z s) :
    Sound K C z (bulkShort p pl s) := by
  unfold bulkShort
  exact .ite (fun _ => tollShort_sound fr h) (fun _ => .ite (fun _ => poolRefuse_sound (fr.mono rfl) h) (fun _ => h))

theorem bulkReceive_sound {p : Nat} {pl : List Byte} (fr : Free K [.regs, .mem, .net, .toll, .he, .mb, .outbox])
    (h : Sound K C z s) :
    Sound K C z (bulkReceive p pl s) := by
  unfold bulkReceive
  extract_lets wait
  have hwait : ∀ t, Sound K C z t → Sound K C z (wait t) := fun _ ht => setNetPort_sound (fr.mono rfl) ht
  exact .ite (fun _ => hwait _ h) (fun _ => .ite (fun _ => bulkTake_sound fr h) (fun _ => hwait _ (bulkShort_sound
    (fr.mono rfl) h)))

theorem bulkRun_sound {p : Nat} (fr : Free K [.regs, .mem, .net, .toll, .he, .mb, .outbox]) (h : Sound K C z s) :
    Sound K C z (bulkRun p s) := by
  unfold bulkRun
  refine forEach_sound h (fun x t ht => ?_)
  split
  · exact .ite (fun _ => bulkTake_sound fr (setNetPort_sound (fr.mono rfl) ht)) (fun _ => ht)
  · exact ht

theorem mgmtDeliver_sound {p : Nat} {hops : Nat} {k : SpanPkt}
    (fr : Free K [.regs, .mem, .time, .ledger, .views, .act, .acct, .net, .em, .pa, .he, .ev, .mb, .rs, .outbox,
      .freeCtr])
    (h : Sound K C z s) :
    Sound K C z (mgmtDeliver p hops k s) := by
  unfold mgmtDeliver
  extract_lets pl
  split
  · exact helloReceive_sound fr h
  · exact creditReceive_sound (fr.mono rfl) h
  · exact enumReceive_sound (fr.mono rfl) h
  · exact enumEndReceive_sound (fr.mono rfl) h
  · exact reportReceive_sound (fr.mono rfl) h
  · exact chainSeg_sound (fr.mono rfl) h
  · exact pierReqReceive_sound (fr.mono rfl) h
  · exact assignReceive_sound (fr.mono rfl) h
  · exact renumReceive_sound (fr.mono rfl) h
  · exact paNoticeRx_sound (fr.mono rfl) h
  · exact h

theorem packetDeliver_sound {p : Nat} {k : SpanPkt} {phase : Nat} {gap : Nat} {dmaCut : Bool}
    (fr : Free K [.regs, .mem, .bases, .time, .ledger, .views, .tiles, .ports, .act, .acct, .net, .toll, .em, .pa, .he,
      .ev, .mb, .rs, .outbox, .freeCtr])
    (h : Sound K C z s) :
    Sound K C z (packetDeliver p k phase gap dmaCut s) := by
  unfold packetDeliver
  extract_lets pl
  refine .ite (fun _ => .ite (fun _ => chainSeg_sound (fr.mono rfl) h) (fun _ => mgmtDeliver_sound (fr.mono rfl) h)) (fun
    _ => .ite (fun _ => ?_) (fun _ => .ite (fun _ => bulkReceive_sound (fr.mono rfl) h) (fun _ => .ite (fun _ =>
    dropRx_sound (fr.mono rfl) h) (fun _ => .ite (fun _ => .ite (fun _ => tileDone_sound (fr.mono rfl) h) (fun _ =>
    tilePacket_sound (fr.mono rfl) h)) (fun _ => .ite (fun _ => ?_) (fun _ => ?_))))))
  · split
    · exact syncReceive_sound (fr.mono rfl) h
    · exact dreqReceive_sound (fr.mono rfl) h
    · exact drespReceive_sound (fr.mono rfl) h
  · split
    · exact candReceive_sound (fr.mono rfl) h
    · exact setReceive_sound (fr.mono rfl) h
    · exact outcomeReceive_sound (fr.mono rfl) h
    · exact mateVerdict_sound (fr.mono rfl) h
    · exact withdrawReceive_sound (fr.mono rfl) h
  · split
    · exact actVerdict_sound (fr.mono rfl) h
    · exact orderReceive_sound (fr.mono rfl) h
    · exact resultReceive_sound (fr.mono rfl) h
    · exact cancelReceive_sound (fr.mono rfl) h

theorem forward_sound {p : Nat} {q : Nat} {k : SpanPkt} (fr : Free K [.regs, .time, .net, .outbox]) (h : Sound K C z s) :
    Sound K C z (forward p q k s) := by
  unfold forward
  extract_lets t s1
  have hs1 : Sound K C z s1 := cnt_sound (fr.mono rfl) (enqueue_sound (fr.mono rfl) h)
  exact .ite (fun _ => sendItem_sound fr hs1) (fun _ => hs1)

theorem carry_sound {p : Nat} {k : SpanPkt} {phase : Nat} {gap : Nat} {dmaCut : Bool}
    (fr : Free K [.regs, .mem, .bases, .time, .ledger, .views, .tiles, .ports, .act, .acct, .net, .toll, .em, .pa, .he,
      .ev, .mb, .rs, .outbox, .freeCtr])
    (h : Sound K C z s) :
    Sound K C z (carry p k phase gap dmaCut s) := by
  unfold carry
  extract_lets n out s1
  have hs1 : Sound K C z s1 := .ite (fun _ => packetDeliver_sound fr h) (fun _ => h)
  unfold out
  split
  · exact forward_sound (fr.mono rfl) hs1
  · exact freeCredits_sound (fr.mono rfl) (dropRx_sound (fr.mono rfl) hs1)
  · exact .ite (fun _ => hs1) (fun _ => freeCredits_sound (fr.mono rfl) hs1)

theorem crcDrop_sound {p : Nat} {n : Nat} {k : SpanPkt} (fr : Free K [.regs, .time, .net, .he, .outbox])
    (h : Sound K C z s) :
    Sound K C z (crcDrop p n k s) := by
  unfold crcDrop
  extract_lets s1 free t
  have hs1 : Sound K C z s1 := dropRx_sound (fr.mono rfl) h
  have hfree : Sound K C z free := freeCredits_sound (fr.mono rfl) hs1
  split
  · extract_lets s2
    have hs2 : Sound K C z s2 := enqueue_sound (fr.mono rfl) hs1
    exact .ite (fun _ => sendItem_sound (fr.mono rfl) hs2) (fun _ => hfree)
  · exact hfree

theorem receive_sound {p : Nat} {k : SpanPkt} {len : Nat} {got : Nat} {crc : Nat} {bad : Bool} {poison : Bool}
    {phase : Nat} {gap : Nat} {dmaCut : Bool} {good : Nat}
    (fr : Free K [.regs, .mem, .bases, .time, .ledger, .views, .tiles, .ports, .act, .acct, .net, .queues, .toll, .em,
      .pa, .he, .ev, .mb, .rs, .outbox, .freeCtr])
    (h : Sound K C z s) :
    Sound K C z (receive p k len got crc bad poison phase gap dmaCut good s) := by
  unfold receive
  extract_lets n c np room s1 free s2 s2'
  have hs1 : Sound K C z s1 := .ite (fun _ => h) (fun _ => setNetPort_sound (fr.mono rfl) h)
  have hfree : ∀ t, Sound K C z t → Sound K C z (free t) := fun _ ht => freeCredits_sound (fr.mono rfl) ht
  have hs2 : Sound K C z s2 := evt_sound (fr.mono rfl) (evtCnt_sound (fr.mono rfl) hs1)
  have hs2' : Sound K C z s2' := .ite (fun _ => quPass_sound (fr.mono rfl) hs1) (fun _ => hs1)
  exact .ite (fun _ => hfree _ (dropRx_sound (fr.mono rfl) hs1)) (fun _ => .ite (fun _ => hfree _ (quRefused_sound
    (fr.mono rfl) (paDetect_sound (fr.mono rfl) hs2))) (fun _ => .ite (fun _ => hfree _ (dropRx_sound (fr.mono rfl) hs2'))
    (fun _ => .ite (fun _ => crcDrop_sound (fr.mono rfl) hs2') (fun _ => .ite (fun _ => hfree _ (dropRx_sound (fr.mono
    rfl) hs2')) (fun _ => carry_sound (fr.mono rfl) hs2')))))

theorem hcrcDrop_sound {p : Nat} {cls : Nat} {got : Nat} (fr : Free K [.regs, .net, .he, .outbox]) (h : Sound K C z s) :
    Sound K C z (hcrcDrop p cls got s) := by
  unfold hcrcDrop
  extract_lets n s1
  have hs1 : Sound K C z s1 := setNetPort_sound (fr.mono rfl) h
  exact freeCredits_sound (fr.mono rfl) (dropRx_sound (fr.mono rfl) hs1)

theorem packetIn_sound {p : Nat} {raw : List Byte} {bad : Bool} {poison : Bool} {phase : Nat} {gap : Nat} {dmaCut : Bool}
    (fr : Free K [.regs, .mem, .bases, .time, .ledger, .views, .tiles, .ports, .act, .acct, .net, .queues, .toll, .em,
      .pa, .he, .ev, .mb, .rs, .outbox, .freeCtr])
    (h : Sound K C z s) :
    Sound K C z (packetIn p raw bad poison phase gap dmaCut s) := by
  unfold packetIn
  refine .ite (fun _ => h) (fun _ => ?_)
  extract_lets s1
  have hs1 : Sound K C z s1 := cnt_sound (fr.mono rfl) h
  exact .ite (fun _ => hcrcDrop_sound (fr.mono rfl) hs1) (fun _ => receive_sound fr hs1)

theorem packetOut_sound {p : Nat} (fr : Free K [.regs, .time, .net, .outbox, .freeCtr]) (h : Sound K C z s) :
    Sound K C z (packetOut p s) := by
  unfold packetOut
  split
  · exact h
  · exact .ite (fun _ => sendItem_sound (fr.mono rfl) (useFree_sound (fr.mono rfl) h)) (fun _ => sendItem_sound (fr.mono
      rfl) h)

theorem execSpanPacketForward_sound {port : SpanNo} {raw : List Byte} {bad : Bool} {poison : Bool} {phase : Fin 32}
    {gap : Nat} {dmaCut : Bool}
    (fr : Free K [.regs, .mem, .bases, .time, .ledger, .views, .tiles, .ports, .act, .acct, .net, .queues, .toll, .em,
      .pa, .he, .ev, .mb, .rs, .outbox, .freeCtr])
    (h : Sound K C z s) :
    SoundOut K C z (execSpanPacketForward port raw bad poison phase gap dmaCut s) := by
  unfold execSpanPacketForward
  exact .next (packetIn_sound fr h)

theorem execSpanPacketSend_sound {port : SpanNo} (fr : Free K [.regs, .time, .net, .outbox, .freeCtr]) (h : Sound K C z s)
    :
    SoundOut K C z (execSpanPacketSend port s) := by
  unfold execSpanPacketSend
  exact .next (packetOut_sound fr h)

theorem execHelloReceive_sound {port : SpanNo} {payload : List Byte}
    (fr : Free K [.regs, .mem, .time, .ledger, .views, .act, .acct, .net, .em, .pa, .he, .ev, .mb, .rs, .outbox,
      .freeCtr])
    (h : Sound K C z s) :
    SoundOut K C z (execHelloReceive port payload s) := by
  unfold execHelloReceive
  exact .next (helloReceive_sound fr h)

theorem execCreditReceive_sound {port : SpanNo} {payload : List Byte} (fr : Free K [.regs, .net]) (h : Sound K C z s) :
    SoundOut K C z (execCreditReceive port payload s) := by
  unfold execCreditReceive
  exact .next (creditReceive_sound fr h)

theorem execCreditReturn_sound {port : SpanNo} (fr : Free K [.regs, .net, .he, .outbox]) (h : Sound K C z s) :
    SoundOut K C z (execCreditReturn port s) := by
  unfold execCreditReturn
  exact .next (creditReturn_sound fr h)

theorem execEnumReceive_sound {port : SpanNo} {payload : List Byte}
    (fr : Free K [.regs, .time, .net, .he, .mb, .outbox, .freeCtr]) (h : Sound K C z s) :
    SoundOut K C z (execEnumReceive port payload s) := by
  unfold execEnumReceive
  exact .next (enumReceive_sound fr h)

theorem execEnumEndReceive_sound {payload : List Byte} (fr : Free K [.regs, .net, .he, .mb, .outbox, .freeCtr])
    (h : Sound K C z s) :
    SoundOut K C z (execEnumEndReceive payload s) := by
  unfold execEnumEndReceive
  exact .next (enumEndReceive_sound fr h)

theorem execEnumTimeout_sound (fr : Free K [.regs, .net, .he, .mb, .outbox, .freeCtr]) (h : Sound K C z s) :
    SoundOut K C z (execEnumTimeout s) := by
  unfold execEnumTimeout
  exact .next (enumTimeout_sound fr h)

theorem execReportReceive_sound {port : SpanNo} {hops : Nat} {payload : List Byte}
    (fr : Free K [.regs, .mem, .ledger, .views, .act, .acct, .net, .em, .pa, .he, .ev, .mb, .rs, .outbox, .freeCtr])
    (h : Sound K C z s) :
    SoundOut K C z (execReportReceive port hops payload s) := by
  unfold execReportReceive
  exact .next (reportReceive_sound fr h)

theorem execChainReceive_sound {payload : List Byte} (fr : Free K [.regs, .net, .he, .mb, .outbox]) (h : Sound K C z s) :
    SoundOut K C z (execChainReceive payload s) := by
  unfold execChainReceive
  exact .next (chainReceive_sound fr h)

theorem execPierReqReceive_sound {port : SpanNo} {payload : List Byte} (fr : Free K [.regs, .net, .he, .outbox])
    (h : Sound K C z s) :
    SoundOut K C z (execPierReqReceive port payload s) := by
  unfold execPierReqReceive
  exact .next (pierReqReceive_sound fr h)

theorem execAssignReceive_sound {payload : List Byte} (fr : Free K [.regs, .time, .net, .he, .outbox]) (h : Sound K C z s)
    :
    SoundOut K C z (execAssignReceive payload s) := by
  unfold execAssignReceive
  exact .next (assignReceive_sound fr h)

theorem execRenumReceive_sound {payload : List Byte} (fr : Free K [.regs, .time, .net, .he, .outbox]) (h : Sound K C z s)
    :
    SoundOut K C z (execRenumReceive payload s) := by
  unfold execRenumReceive
  exact .next (renumReceive_sound fr h)

theorem execBulkPacketReceive_sound {port : SpanNo} {payload : List Byte}
    (fr : Free K [.regs, .mem, .net, .toll, .he, .mb, .outbox]) (h : Sound K C z s) :
    SoundOut K C z (execBulkPacketReceive port payload s) := by
  unfold execBulkPacketReceive
  exact .next (bulkReceive_sound fr h)

theorem runSpanChainRead_sound {c : CmdCall} (fr : Free K [.regs, .net, .toll, .he, .outbox]) (h : Sound K C z s) :
    Sound K C z (runSpanChainRead c s).1 := by
  unfold runSpanChainRead
  extract_lets d
  exact .ite1 (fun _ => h) (fun _ => .ite1 (fun _ => h) (fun _ => hostWrite_sound fr h))

theorem execSpanChainRead_sound {c : CmdCall} (fr : Free K [.regs, .net, .toll, .he, .mb, .outbox, .freeCtr])
    (h : Sound K C z s) :
    SoundOut K C z (execSpanChainRead c s) := by
  unfold execSpanChainRead
  exact .next (mbRun_sound fr (fun _ _ ht => runSpanChainRead_sound (fr.mono rfl) ht) h)

theorem runSpanReenumerate_sound {x : CmdCall} (fr : Free K [.regs, .net, .he, .mb, .outbox, .freeCtr])
    (h : Sound K C z s) :
    Sound K C z (runSpanReenumerate x s).1 := by
  unfold runSpanReenumerate
  refine .ite1 (fun _ => h) (fun _ => ?_)
  split
  · exact h
  · extract_lets s1 src
    have hs1 : Sound K C z s1 := netBcast_sound (fr.mono rfl) h
    exact enumStart_sound fr (fset_sound (fr.mono rfl) (.setNet (fr.mono rfl) hs1))

theorem execSpanReenumerate_sound {c : CmdCall} (fr : Free K [.regs, .net, .toll, .he, .mb, .outbox, .freeCtr])
    (h : Sound K C z s) :
    SoundOut K C z (execSpanReenumerate c s) := by
  unfold execSpanReenumerate
  extract_lets t
  have ht : Sound K C z t := mbRun_sound fr (fun _ _ ht1 => runSpanReenumerate_sound (fr.mono rfl) ht1) h
  exact .next (.ite (fun _ => enumComplete_sound (fr.mono rfl) ht) (fun _ => ht))

theorem hostChoose_sound (fr : Free K [.regs]) (h : Sound K C z s) :
    Sound K C z (hostChoose s) := by
  unfold hostChoose
  refine hostSelect_sound fr ?_
  split
  · exact fset_sound fr h
  · exact h

theorem runSpanSetHost_sound {c : CmdCall} (fr : Free K [.regs]) (h : Sound K C z s) :
    Sound K C z (runSpanSetHost c s).1 := by
  unfold runSpanSetHost
  extract_lets auto p frozen
  exact .ite1 (fun _ => .ite1 (fun _ => h) (fun _ => hostChoose_sound fr (fbset_sound fr h))) (fun _ => .ite1 (fun _ => h)
    (fun _ => .ite1 (fun _ => h) (fun _ => hostSelect_sound fr (fset_sound fr (fbset_sound fr h)))))

theorem execSpanSetHost_sound {c : CmdCall} (fr : Free K [.regs, .net, .toll, .he, .mb, .outbox, .freeCtr])
    (h : Sound K C z s) :
    SoundOut K C z (execSpanSetHost c s) := by
  unfold execSpanSetHost
  exact .next (mbRun_sound fr (fun _ _ ht => runSpanSetHost_sound (fr.mono rfl) ht) h)

theorem runSpanCreditParams_sound {c : CmdCall} (fr : Free K [.regs]) (h : Sound K C z s) :
    Sound K C z (runSpanCreditParams c s).1 := by
  unfold runSpanCreditParams
  extract_lets g ok o
  exact .ite1 (fun _ => h) (fun _ => forEach_sound h (fun _ _ ht => wrn_sound fr ht))

theorem execSpanCreditParams_sound {c : CmdCall} (fr : Free K [.regs, .net, .toll, .he, .mb, .outbox, .freeCtr])
    (h : Sound K C z s) :
    SoundOut K C z (execSpanCreditParams c s) := by
  unfold execSpanCreditParams
  exact .next (mbRun_sound fr (fun _ _ ht => runSpanCreditParams_sound (fr.mono rfl) ht) h)

end Sys2Proof.Machine
end

section
/-! SUPPORT. What each operation of Machine/Endpoint.lean leaves unchanged (the rules are in Laws/Sound.lean). -/

namespace Sys2Proof.Machine

set_option Elab.async false

variable {K : Comp → Prop} {C : Prop} {z s t : State}

theorem ownerFail_sound {r : NpReq} (fr : Free K [.regs, .tiles, .toll, .he, .ab, .outbox]) (h : Sound K C z s) :
    Sound K C z (ownerFail r s) := by
  unfold ownerFail
  split
  · exact fetchDrop_sound (fr.mono rfl) h
  · exact drFill_sound (fr.mono rfl) h
  · exact mbFetch_sound (fr.mono rfl) h
  · exact tapFetch_sound (fr.mono rfl) h
  · exact h

theorem ownerData_sound {r : NpReq} {data : List Byte}
    (fr : Free K [.regs, .mem, .ledger, .views, .tiles, .ports, .act, .acct, .net, .toll, .he, .ab, .ev, .mb, .outbox,
      .freeCtr])
    (h : Sound K C z s) :
    Sound K C z (ownerData r data s) := by
  unfold ownerData
  split
  · exact drFill_sound (fr.mono rfl) (npEnd_sound (fr.mono rfl) h)
  · split
    · exact vrArrive_sound (fr.mono rfl) h
    · exact npEnd_sound (fr.mono rfl) h
  · exact mbGot_sound (fr.mono rfl) (npEnd_sound (fr.mono rfl) h)
  · exact tapGot_sound (fr.mono rfl) (npEnd_sound (fr.mono rfl) h)
  · exact npEnd_sound (fr.mono rfl) h

theorem completionIn_sound {tag : Nat} {status : Nat} {data : List Byte}
    (fr : Free K [.regs, .mem, .ledger, .views, .tiles, .ports, .act, .acct, .net, .toll, .pa, .he, .ab, .ev, .mb,
      .outbox, .freeCtr])
    (h : Sound K C z s) :
    Sound K C z (completionIn tag status data s) := by
  unfold completionIn
  split
  · refine .ite (fun _ => cnt_sound (fr.mono rfl) h) (fun _ => ?_)
    extract_lets s1
    have hs1 : Sound K C z s1 := evtCnt_sound (fr.mono rfl) (wrn_sound (fr.mono rfl) h)
    exact aerAdvisory_sound (fr.mono rfl) hs1
  · exact .ite (fun _ => ownerFail_sound (fr.mono rfl) (cnt_sound (fr.mono rfl) (npEnd_sound (fr.mono rfl) h))) (fun _ =>
      .ite (fun _ => ownerFail_sound (fr.mono rfl) (cfgSet_sound (fr.mono rfl) (evtCnt_sound (fr.mono rfl) (npEnd_sound
      (fr.mono rfl) h)))) (fun _ => ownerData_sound (fr.mono rfl) h))

theorem completionTmo_sound {tag : Nat} (fr : Free K [.regs, .tiles, .net, .toll, .pa, .he, .ab, .outbox, .freeCtr])
    (h : Sound K C z s) :
    Sound K C z (completionTmo tag s) := by
  unfold completionTmo
  split
  · exact h
  · exact aerUncorr_sound (fr.mono rfl) (evtCnt_sound (fr.mono rfl) (ownerFail_sound (fr.mono rfl) (npQuarantine_sound
      (fr.mono rfl) h)))

theorem quarEnd_sound {tag : Nat} (fr : Free K [.regs, .he]) (h : Sound K C z s) :
    Sound K C z (quarEnd tag s) := by
  unfold quarEnd
  exact syncTags_sound (fr.mono rfl) (.setHe (fr.mono rfl) h)

theorem poolSwitch_sound (fr : Free K [.regs, .he]) (h : Sound K C z s) :
    Sound K C z (poolSwitch s) := by
  unfold poolSwitch
  extract_lets w s1 src
  have hs1 : Sound K C z s1 := fset_sound (fr.mono rfl) h
  exact .ite (fun _ => h) (fun _ => .setHe (fr.mono rfl) hs1)

theorem dmaPause_sound (fr : Free K [.regs, .tiles, .ports, .he, .outbox]) (h : Sound K C z s) :
    Sound K C z (dmaPause s) := by
  unfold dmaPause
  extract_lets src s1 src' s2
  have hs1 : Sound K C z s1 := .setHe (fr.mono rfl) h
  have hs2 : Sound K C z s2 := .setTiles (fr.mono rfl) hs1
  exact syncTags_sound (fr.mono rfl) (tapsPause_sound (fr.mono rfl) hs2)

theorem bmeClear_sound (fr : Free K [.regs, .tiles, .ports, .he, .outbox]) (h : Sound K C z s) :
    Sound K C z (bmeClear s) := by
  unfold bmeClear
  exact .ite (fun _ => h) (fun _ => dmaPause_sound fr (fbset_sound (fr.mono rfl) (cfgWr_sound (fr.mono rfl) h)))

theorem d3Enter_sound (fr : Free K [.regs, .tiles, .ports, .he, .outbox]) (h : Sound K C z s) :
    Sound K C z (d3Enter s) := by
  unfold d3Enter
  exact .ite (fun _ => h) (fun _ => dmaPause_sound fr (fbset_sound (fr.mono rfl) (cfgWr_sound (fr.mono rfl) h)))

theorem abortEffect_sound {d : Deferred}
    (fr : Free K [.regs, .ledger, .views, .tiles, .ports, .tw, .acct, .net, .lanes, .he, .mb, .outbox, .freeCtr])
    (h : Sound K C z s) :
    Sound K C z (abortEffect d s) := by
  unfold abortEffect
  extract_lets p src s1
  have hs1 : Sound K C z s1 := updLanes_sound (fr.mono rfl) h
  refine .ite (fun _ => h) (fun _ => ?_)
  split
  · exact updPort_sound (fr.mono rfl) h
  · split
    · exact runGroupBack_sound (fr.mono rfl) (.setViews (fr.mono rfl) h)
    · exact h
  · split
    · exact runGroupBack_sound (fr.mono rfl) (.setViews (fr.mono rfl) h)
    · exact h
  · exact updPort_sound (fr.mono rfl) h
  · exact .ite (fun _ => h) (fun _ => .ite (fun _ => eyeStop_sound (fr.mono rfl) (eyeRise_sound (fr.mono rfl) hs1)) (fun _
      => hs1))
  · exact .ite (fun _ => h) (fun _ => twCmdEnd_sound (fr.mono rfl) h)
  · exact h

theorem deferredStop_sound {x : Nat × Deferred}
    (fr : Free K [.regs, .ledger, .views, .tiles, .ports, .tw, .acct, .net, .lanes, .he, .mb, .outbox, .freeCtr])
    (h : Sound K C z s) :
    Sound K C z (deferredStop x s) := by
  unfold deferredStop
  exact abortEffect_sound fr (dropDeferred_sound (fr.mono rfl) h)

theorem deferredOrphan_sound {x : Nat × Deferred} (fr : Free K [.regs, .mb]) (h : Sound K C z s) :
    Sound K C z (deferredOrphan x s) := by
  unfold deferredOrphan
  extract_lets src src' d s1 src'2
  have hs1 : Sound K C z s1 := dropDeferred_sound fr h
  exact .setMb (fr.mono rfl) hs1

theorem channelWipe_sound {c : Nat}
    (fr : Free K [.regs, .ledger, .views, .tiles, .ports, .tw, .acct, .net, .lanes, .he, .mb, .outbox, .freeCtr])
    (h : Sound K C z s) :
    Sound K C z (channelWipe c s) := by
  unfold channelWipe
  extract_lets n ds s1
  have hs1 : Sound K C z s1 := forEach_sound h (fun _ _ ht => .ite (fun _ => deferredStop_sound fr ht) (fun _ =>
      deferredOrphan_sound (fr.mono rfl) ht))
  exact updChan_sound (fr.mono rfl) (slotsOrphan_sound (fr.mono rfl) (cntAdd_sound (fr.mono rfl) (mbForget_sound (fr.mono
    rfl) hs1)))

theorem resetDom_sound {d : Dom} (fr : Free K [.regs]) (h : Sound K C z s) : Sound K C z (resetDom d s) :=
  .filterRegs fr h

theorem cfgResetAll_sound {flr : Bool} (fr : Free K [.he]) (h : Sound K C z s) : Sound K C z (cfgResetAll flr s) :=
  .ite (fun _ => cfgWr_sound fr (.filterCfg fr h)) (fun _ => .filterCfg fr h)

theorem flrStart_sound (fr : Free K [.regs, .tiles, .he, .ab, .mb]) (h : Sound K C z s) :
    Sound K C z (flrStart s) := by
  unfold flrStart
  extract_lets src s1 src' s2 src'2 s3 s4
  have hs1 : Sound K C z s1 := fbset_sound (fr.mono rfl) (.setHe (fr.mono rfl) h)
  have hs2 : Sound K C z s2 := .setHe (fr.mono rfl) hs1
  have hs3 : Sound K C z s3 := .setTiles (fr.mono rfl) hs2
  have hs4 : Sound K C z s4 := updAb_sound (fr.mono rfl) hs3
  exact syncTags_sound (fr.mono rfl) (forEach_sound hs4 (fun _ _ hs => leaseEnd_sound (fr.mono rfl) hs))

theorem flrTile_sound {a : TileAlloc} (fr : Free K [.regs, .ledger, .tiles, .acct, .net, .he, .outbox])
    (h : Sound K C z s) :
    Sound K C z (flrTile a s) := by
  unfold flrTile
  split
  · exact sendTileDone_sound (fr.mono rfl) h
  · exact tileDrop_sound (fr.mono rfl) h

theorem flrSilence_sound (fr : Free K [.regs, .ledger, .tiles, .acct, .net, .toll, .he, .ab, .outbox]) (h : Sound K C z s)
    :
    Sound K C z (flrSilence s) := by
  unfold flrSilence
  refine .ite (fun _ => h) (fun _ => ?_)
  extract_lets s1 quar src s2
  have hs1 : Sound K C z s1 := forEach_sound h (fun _ _ ht => ownerFail_sound (fr.mono rfl) ht)
  have hs2 : Sound K C z s2 := syncTags_sound (fr.mono rfl) (.setHe (fr.mono rfl) hs1)
  exact forEach_sound hs2 (fun _ _ hs => flrTile_sound (fr.mono rfl) hs)

theorem flrWriteOff_sound (fr : Free K [.regs, .acct]) (h : Sound K C z s) :
    Sound K C z (flrWriteOff s) := by
  unfold flrWriteOff
  extract_lets s1
  have hs1 : Sound K C z s1 := cntWrap_sound (fr.mono rfl) (cntWrap_sound (fr.mono rfl) h)
  exact acct_sound (fr.mono rfl) (wrn_sound (fr.mono rfl) hs1)

theorem flrEngines_sound (fr : Free K [.regs, .mem, .tiles, .ports]) (h : Sound K C z s) :
    Sound K C z (flrEngines s) := by
  unfold flrEngines
  extract_lets s1 src s2 s3
  have hs1 : Sound K C z s1 := forEach_sound h (fun _ _ ht => poolGive_sound (fr.mono rfl) ht)
  have hs2 : Sound K C z s2 := .setTiles (fr.mono rfl) hs1
  have hs3 : Sound K C z s3 := poolGive_sound (fr.mono rfl) hs2
  exact forEach_sound hs3 (fun _ _ ht1 => updPort_sound (fr.mono rfl) ht1)

theorem flrFinish_sound {flr : Bool}
    (fr : Free K [.regs, .mem, .time, .ledger, .views, .tiles, .ports, .tw, .acct, .net, .lanes, .queues, .he, .mb,
      .outbox, .freeCtr])
    (h : Sound K C z s) :
    Sound K C z (flrFinish flr s) := by
  unfold flrFinish
  extract_lets s1 s2 link s3 s4 src src' s5 src'2 s6
  have hs1 : Sound K C z s1 := forEach_sound (flrWriteOff_sound (fr.mono rfl) h) (fun _ _ hs => quFlush_sound (fr.mono
      rfl) hs)
  have hs2 : Sound K C z s2 := forEach_sound (flrEngines_sound (fr.mono rfl) hs1) (fun _ _ hs3 => channelWipe_sound
      (fr.mono rfl) hs3)
  have hs31 : Sound K C z s3 := cfgResetAll_sound (fr.mono rfl) (resetDom_sound (fr.mono rfl) hs2)
  have hs4 : Sound K C z s4 := wrn_sound (fr.mono rfl) hs31
  have hsrc : Sound K C z src := wrn_sound (fr.mono rfl) hs4
  have hs5 : Sound K C z s5 := .setHe (fr.mono rfl) hsrc
  have hs6 : Sound K C z s6 := syncTags_sound (fr.mono rfl) (poolSwitch_sound (fr.mono rfl) (.setTime (fr.mono rfl) hs5))
  exact irqAll_sound (fr.mono rfl) (forEach_sound (evt_sound (fr.mono rfl) (cnt_sound (fr.mono rfl) hs6)) (fun _ _ hs7 =>
    irqUpdate_sound (fr.mono rfl) hs7))

theorem flrComplete_sound
    (fr : Free K [.regs, .mem, .time, .ledger, .views, .tiles, .ports, .tw, .acct, .net, .lanes, .queues, .he, .mb,
      .outbox, .freeCtr])
    (h : Sound K C z s) :
    Sound K C z (flrComplete s) := by
  unfold flrComplete
  exact .ite (fun _ => flrFinish_sound fr h) (fun _ => h)

theorem linkReset_sound
    (fr : Free K [.regs, .mem, .ledger, .views, .tiles, .act, .acct, .net, .em, .pa, .he, .ab, .ev, .mb, .rs, .outbox,
      .freeCtr])
    (h : Sound K C z s) :
    Sound K C z (linkReset s) := by
  unfold linkReset
  extract_lets up s0 src s1 s2 s3 s4
  have hs0 : Sound K C z s0 := fbset_sound (fr.mono rfl) (resetDom_sound (fr.mono rfl) h)
  have hs1 : Sound K C z s1 := .setHe (fr.mono rfl) hs0
  have hs2 : Sound K C z s2 := flrStart_sound (fr.mono rfl) (setW1_sound (fr.mono rfl) hs1)
  have hs3 : Sound K C z s3 := cfgResetAll_sound (fr.mono rfl) hs2
  have hs4 : Sound K C z s4 := .ite (fun _ => paDetect_sound (fr.mono rfl) (cnt_sound (fr.mono rfl) hs3)) (fun _ => hs3)
  exact helloOnChange_sound (fr.mono rfl) (publish_sound (fr.mono rfl) (sendReport_sound (fr.mono rfl) (hostSelect_sound
    (fr.mono rfl) hs4)))

theorem linkUpNow_sound {speed : Nat} {width : Nat} (fr : Free K [.regs, .net, .toll, .he, .mb, .outbox, .freeCtr])
    (h : Sound K C z s) :
    Sound K C z (linkUpNow speed width s) := by
  unfold linkUpNow
  refine .ite (fun _ => h) (fun _ => ?_)
  extract_lets s1
  have hs1 : Sound K C z s1 := fset_sound (fr.mono rfl) (fset_sound (fr.mono rfl) (fbset_sound (fr.mono rfl) h))
  exact helloOnChange_sound (fr.mono rfl) (publish_sound (fr.mono rfl) (sendReport_sound (fr.mono rfl) (hostSelect_sound
    (fr.mono rfl) (syncTags_sound (fr.mono rfl) (.ite (fun _ => linkCap_sound (fr.mono rfl) hs1) (fun _ => hs1))))))

theorem imageCopy_sound (fr : Free K [.regs, .he]) (h : Sound K C z s) :
    Sound K C z (imageCopy s) := by
  unfold imageCopy
  exact fbset_sound (fr.mono rfl) (.setHe (fr.mono rfl) h)

theorem execHostLinkUp_sound {speed : BitVec 3} {width : BitVec 5}
    (fr : Free K [.regs, .net, .toll, .he, .mb, .outbox, .freeCtr]) (h : Sound K C z s) :
    SoundOut K C z (execHostLinkUp speed width s) := by
  unfold execHostLinkUp
  exact .next (linkUpNow_sound fr h)

theorem execBusMasterEnableClear_sound (fr : Free K [.regs, .tiles, .ports, .he, .outbox]) (h : Sound K C z s) :
    SoundOut K C z (execBusMasterEnableClear s) := by
  unfold execBusMasterEnableClear
  exact .next (bmeClear_sound fr h)

theorem execD3hotEntry_sound (fr : Free K [.regs, .tiles, .ports, .he, .outbox]) (h : Sound K C z s) :
    SoundOut K C z (execD3hotEntry s) := by
  unfold execD3hotEntry
  exact .next (d3Enter_sound fr h)

theorem execFunctionLevelReset_sound (fr : Free K [.regs, .tiles, .he, .ab, .mb]) (h : Sound K C z s) :
    SoundOut K C z (execFunctionLevelReset s) := by
  unfold execFunctionLevelReset
  exact .next (.ite (fun _ => h) (fun _ => flrStart_sound fr h))

theorem execFlrDmaSilence_sound (fr : Free K [.regs, .ledger, .tiles, .acct, .net, .toll, .he, .ab, .outbox])
    (h : Sound K C z s) :
    SoundOut K C z (execFlrDmaSilence s) := by
  unfold execFlrDmaSilence
  exact .next (flrSilence_sound fr h)

theorem execFlrComplete_sound
    (fr : Free K [.regs, .mem, .time, .ledger, .views, .tiles, .ports, .tw, .acct, .net, .lanes, .queues, .he, .mb,
      .outbox, .freeCtr])
    (h : Sound K C z s) :
    SoundOut K C z (execFlrComplete s) := by
  unfold execFlrComplete
  exact .next (flrComplete_sound fr h)

theorem execLinkReset_sound {perst : Bool}
    (fr : Free K [.regs, .mem, .ledger, .views, .tiles, .act, .acct, .net, .em, .pa, .he, .ab, .ev, .mb, .rs, .outbox,
      .freeCtr])
    (h : Sound K C z s) :
    SoundOut K C z (execLinkReset perst s) := by
  unfold execLinkReset
  exact .next (linkReset_sound fr (.ite (fun _ => .setHe (fr.mono rfl) h) (fun _ => h)))

theorem execCompletionTimeout_sound {tag : BitVec 10}
    (fr : Free K [.regs, .tiles, .net, .toll, .pa, .he, .ab, .outbox, .freeCtr]) (h : Sound K C z s) :
    SoundOut K C z (execCompletionTimeout tag s) := by
  unfold execCompletionTimeout
  exact .next (completionTmo_sound fr h)

theorem execCompletionReceive_sound {tag : BitVec 10} {status : Fin 3} {data : List Byte}
    (fr : Free K [.regs, .mem, .ledger, .views, .tiles, .ports, .act, .acct, .net, .toll, .pa, .he, .ab, .ev, .mb,
      .outbox, .freeCtr])
    (h : Sound K C z s) :
    SoundOut K C z (execCompletionReceive tag status data s) := by
  unfold execCompletionReceive
  exact .next (completionIn_sound fr h)

theorem execDelayedReadComplete_sound {entry : Fin 8} {status : Fin 3} {data : Word}
    (fr : Free K [.regs, .mem, .ledger, .views, .tiles, .ports, .act, .acct, .net, .toll, .pa, .he, .ab, .ev, .mb,
      .outbox, .freeCtr])
    (h : Sound K C z s) :
    SoundOut K C z (execDelayedReadComplete entry status data s) := by
  unfold execDelayedReadComplete
  refine .next ?_
  split
  · exact completionIn_sound fr h
  · exact h

theorem execTagQuarantineEnd_sound {tag : BitVec 10} (fr : Free K [.regs, .he]) (h : Sound K C z s) :
    SoundOut K C z (execTagQuarantineEnd tag s) := by
  unfold execTagQuarantineEnd
  exact .next (quarEnd_sound fr h)

theorem execTagPoolSwitch_sound (fr : Free K [.regs, .he]) (h : Sound K C z s) :
    SoundOut K C z (execTagPoolSwitch s) := by
  unfold execTagPoolSwitch
  exact .next (poolSwitch_sound fr h)

theorem execDescriptorImageRefresh_sound (fr : Free K [.regs, .he]) (h : Sound K C z s) :
    SoundOut K C z (execDescriptorImageRefresh s) := by
  unfold execDescriptorImageRefresh
  exact .next (.ite (fun _ => imageCopy_sound fr h) (fun _ => h))

end Sys2Proof.Machine
end

section
/-! SUPPORT. What each operation of Machine/Evidence.lean leaves unchanged (the rules are in Laws/Sound.lean). -/

namespace Sys2Proof.Machine

set_option Elab.async false

variable {K : Comp → Prop} {C : Prop} {z s t : State}

theorem wearUpdate_sound (fr : Free K [.regs, .ports, .net, .pa, .he, .ev, .mb, .outbox, .freeCtr]) (h : Sound K C z s) :
    Sound K C z (wearUpdate s) := by
  unfold wearUpdate
  extract_lets w s1 on causes s2
  have hs1 : Sound K C z s1 := fset_sound (fr.mono rfl) (useFree_sound (fr.mono rfl) h)
  have hs2 : Sound K C z s2 := .ite (fun _ => evt_sound (fr.mono rfl) hs1) (fun _ => hs1)
  exact replaceTo_sound fr hs2

theorem markBad_sound {part : Nat} {block : Nat}
    (fr : Free K [.regs, .mem, .ledger, .views, .ports, .act, .acct, .net, .em, .pa, .he, .ev, .mb, .rs, .outbox,
      .freeCtr])
    (h : Sound K C z s) :
    Sound K C z (markBad part block s) := by
  unfold markBad
  extract_lets sbs src s1 s2 s3
  have hs1 : Sound K C z s1 := .setEv (fr.mono rfl) h
  have hs2 : Sound K C z s2 := .ite (fun _ => wrn_sound (fr.mono rfl) hs1) (fun _ => hs1)
  have hs3 : Sound K C z s3 := paDetect_sound (fr.mono rfl) (evtCnt_sound (fr.mono rfl) hs2)
  exact wearUpdate_sound (fr.mono rfl) (confStore_sound (fr.mono rfl) hs3)

theorem maintCost_sound {part : Nat} {ops : Nat} {n : Nat} (fr : Free K [.regs, .toll]) (h : Sound K C z s) :
    Sound K C z (maintCost part ops n s) := by
  unfold maintCost
  exact .ite (fun _ => h) (fun _ => tollBegin_sound fr h)

theorem imageDone_sound {good : Bool} (fr : Free K [.regs, .net, .he, .ev, .mb, .outbox, .freeCtr]) (h : Sound K C z s) :
    Sound K C z (imageDone good s) := by
  unfold imageDone
  exact fwLoadDone_sound (fr.mono rfl) (forEach_sound h (fun _ _ hs => fwWriteDone_sound fr hs))

theorem programDone_sound {part : Nat} {block : Nat} {ok : Bool} {last : Bool} {s0 : State}
    (fr : Free K [.regs, .mem, .ledger, .views, .ports, .act, .acct, .net, .toll, .em, .pa, .he, .ev, .mb, .rs, .outbox,
      .freeCtr])
    (hs0 : Sound K C z s0) :
    Sound K C z (programDone part block ok last s0) := by
  unfold programDone
  extract_lets s
  have hs : Sound K C z s := maintCost_sound (fr.mono rfl) hs0
  exact .ite (fun _ => hs0) (fun _ => .ite (fun _ => .ite (fun _ => imageDone_sound (fr.mono rfl) hs) (fun _ => hs)) (fun
    _ => .ite (fun _ => imageDone_sound (fr.mono rfl) hs) (fun _ => markBad_sound (fr.mono rfl) hs)))

theorem eraseDone_sound {part : Nat} {block : Nat} {ok : Bool} {s0 : State}
    (fr : Free K [.regs, .mem, .ledger, .views, .ports, .act, .acct, .net, .toll, .em, .pa, .he, .ev, .mb, .rs, .outbox,
      .freeCtr])
    (hs0 : Sound K C z s0) :
    Sound K C z (eraseDone part block ok s0) := by
  unfold eraseDone
  extract_lets s
  have hs : Sound K C z s := maintCost_sound (fr.mono rfl) hs0
  exact .ite (fun _ => hs0) (fun _ => .ite (fun _ => hs) (fun _ => markBad_sound (fr.mono rfl) hs))

theorem uncorrectable_sound {part : Nat} {idx : Nat} {cw : Nat} (fr : Free K [.ev, .outbox]) (h : Sound K C z s) :
    Sound K C z (uncorrectable part idx cw s) := by
  unfold uncorrectable
  split
  · exact setSlot_sound (fr.mono rfl) h
  · extract_lets best src
    exact emit_sound (fr.mono rfl) (.setEv (fr.mono rfl) h)
  · exact .setEv (fr.mono rfl) h
  · exact .setEv (fr.mono rfl) h
  · exact .setEv (fr.mono rfl) h

theorem codewordRead_sound {part : Nat} {idx : Nat} {cw : Nat} {block : Nat} {step : Nat} {fixed : Nat} {uncorr : Bool}
    {s0 : State}
    (fr : Free K [.regs, .mem, .ledger, .views, .act, .acct, .net, .toll, .em, .pa, .he, .ev, .rs, .outbox, .freeCtr])
    (hs0 : Sound K C z s0) :
    Sound K C z (codewordRead part idx cw block step fixed uncorr s0) := by
  unfold codewordRead
  refine .ite (fun _ => hs0) (fun _ => ?_)
  extract_lets s s1 src
  have hs : Sound K C z s := maintCost_sound (fr.mono rfl) hs0
  have hs1 : Sound K C z s1 := .ite (fun _ => cnt_sound (fr.mono rfl) hs) (fun _ => hs)
  exact .ite (fun _ => paDetect_sound (fr.mono rfl) (evtCnt_sound (fr.mono rfl) (uncorrectable_sound (fr.mono rfl) hs1)))
    (fun _ => .ite (fun _ => .setEv (fr.mono rfl) hs1) (fun _ => hs1))

theorem patrolPass_sound {done : Bool} (fr : Free K [.regs, .he, .outbox]) (h : Sound K C z s) :
    Sound K C z (patrolPass done s) := by
  unfold patrolPass
  exact .ite (fun _ => h) (fun _ => .ite (fun _ => .ite (fun _ => evt_sound fr (fbset_sound (fr.mono rfl) h)) (fun _ =>
    h)) (fun _ => fbset_sound (fr.mono rfl) h))

theorem blockRefresh_sound {part : Nat} {block : Nat} {uncorr : Bool}
    (fr : Free K [.regs, .mem, .ledger, .views, .ports, .act, .acct, .net, .toll, .em, .pa, .he, .ev, .mb, .rs, .outbox,
      .freeCtr])
    (h : Sound K C z s) :
    Sound K C z (blockRefresh part block uncorr s) := by
  unfold blockRefresh
  refine .ite (fun _ => h) (fun _ => ?_)
  extract_lets src s1 cw s2
  have hs1 : Sound K C z s1 := .setEv (fr.mono rfl) h
  have hs2 : Sound K C z s2 := evtCnt_sound (fr.mono rfl) (maintCost_sound (fr.mono rfl) hs1)
  exact .ite (fun _ => markBad_sound (fr.mono rfl) hs2) (fun _ => hs2)

theorem creditAccrue_sound (fr : Free K [.regs]) (h : Sound K C z s) :
    Sound K C z (creditAccrue s) := by
  unfold creditAccrue
  extract_lets rate cap sum bal s1
  have hs1 : Sound K C z s1 := wr64_sound fr (wr64_sound fr h)
  exact wr64_sound fr hs1

theorem ringRegs_sound (fr : Free K [.regs]) (h : Sound K C z s) :
    Sound K C z (ringRegs s) := by
  unfold ringRegs
  extract_lets s1 q
  have hs1 : Sound K C z s1 := fbset_sound fr h
  exact wrn_sound fr (wrn_sound fr hs1)

theorem sbOpen_sound {good : Nat} {erases : Nat}
    (fr : Free K [.regs, .ports, .net, .pa, .he, .ev, .mb, .outbox, .freeCtr]) (h : Sound K C z s) :
    Sound K C z (sbOpen good erases s) := by
  unfold sbOpen
  extract_lets keep b cost src s1 s2
  have hs1 : Sound K C z s1 := emit_sound (fr.mono rfl) (.setEv (fr.mono rfl) h)
  have hs2 : Sound K C z s2 := wr64_sound (fr.mono rfl) hs1
  exact wearUpdate_sound fr (ringRegs_sound (fr.mono rfl) (wr64_sound (fr.mono rfl) hs2))

theorem recPut_sound {d : EvDue} {bytes : List Byte} (fr : Free K [.regs, .ev, .outbox]) (h : Sound K C z s) :
    Sound K C z (recPut d bytes s) := by
  unfold recPut
  split
  · exact h
  · extract_lets r b1 src
    exact emit_sound (fr.mono rfl) (cnt_sound (fr.mono rfl) (.setEv (fr.mono rfl) h))

theorem evidenceWrite_sound {good : Nat} {erases : Nat} {cut : Bool} {check : ReadCheck} {at_ : Nat}
    (fr : Free K [.regs, .mem, .ports, .net, .toll, .pa, .he, .ev, .mb, .outbox, .freeCtr]) (h : Sound K C z s) :
    Sound K C z (evidenceWrite good erases cut check at_ s) := by
  unfold evidenceWrite
  split
  · exact h
  · extract_lets src s1 bytes n src' s2
    have hs1 : Sound K C z s1 := lp5Check_sound (fr.mono rfl) (.setEv (fr.mono rfl) h)
    have hs2 : Sound K C z s2 := ringRegs_sound (fr.mono rfl) (.setEv (fr.mono rfl) hs1)
    exact .ite (fun _ => h) (fun _ => .ite (fun _ => evt_sound (fr.mono rfl) (cnt_sound (fr.mono rfl) hs1)) (fun _ => .ite
      (fun _ => evt_sound (fr.mono rfl) (cnt_sound (fr.mono rfl) (tollShort_sound (fr.mono rfl) hs1))) (fun _ => .ite (fun
      _ => recPut_sound (fr.mono rfl) (tollBegin_sound (fr.mono rfl) hs1)) (fun _ => .ite (fun _ => evt_sound (fr.mono
      rfl) (cnt_sound (fr.mono rfl) hs2)) (fun _ => recPut_sound (fr.mono rfl) (tollBegin_sound (fr.mono rfl)
      (tollBegin_sound (fr.mono rfl) (sbOpen_sound (fr.mono rfl) hs2))))))))

theorem logPeriodic_sound (fr : Free K [.ev]) (h : Sound K C z s) :
    Sound K C z (logPeriodic s) := by
  unfold logPeriodic
  refine .ite (fun _ => h) (fun _ => ?_)
  extract_lets src s1
  have hs1 : Sound K C z s1 := .setEv fr h
  exact logWrite_sound fr hs1

theorem faultRecord_sound (fr : Free K [.pa, .ev]) (h : Sound K C z s) :
    Sound K C z (faultRecord s) := by
  unfold faultRecord
  split
  · exact h
  · exact .ite (fun _ => h) (fun _ => logWrite_sound (fr.mono rfl) (.setPa (fr.mono rfl) h))

theorem evidReadDone_sound {x : Nat × Deferred} (fr : Free K [.regs, .net, .toll, .he, .mb, .outbox, .freeCtr])
    (h : Sound K C z s) :
    Sound K C z (evidReadDone x s) := by
  unfold evidReadDone
  extract_lets c st recs a ended cur fl
  exact endHost_sound fr h

theorem logReadDone_sound {x : Nat × Deferred} (fr : Free K [.regs, .net, .toll, .he, .mb, .outbox, .freeCtr])
    (h : Sound K C z s) :
    Sound K C z (logReadDone x s) := by
  unfold logReadDone
  extract_lets c l
  exact endHost_sound fr h

theorem evidClearDone_sound {x : Nat × Deferred} (fr : Free K [.regs, .net, .he, .ev, .mb, .outbox, .freeCtr])
    (h : Sound K C z s) :
    Sound K C z (evidClearDone x s) := by
  unfold evidClearDone
  exact endD_sound (fr.mono rfl) (ringRegs_sound (fr.mono rfl) (.setEv (fr.mono rfl) h))

theorem execCodewordRead_sound {part : PartNo} {idx : Nat} {cw : Nat} {block : Nat} {step : Fin 9} {fixed : Nat}
    {uncorr : Bool}
    (fr : Free K [.regs, .mem, .ledger, .views, .act, .acct, .net, .toll, .em, .pa, .he, .ev, .rs, .outbox, .freeCtr])
    (h : Sound K C z s) :
    SoundOut K C z (execCodewordRead part idx cw block step fixed uncorr s) := by
  unfold execCodewordRead
  exact .next (codewordRead_sound fr h)

theorem execNandProgramDone_sound {part : PartNo} {block : Nat} {ok : Bool} {last : Bool}
    (fr : Free K [.regs, .mem, .ledger, .views, .ports, .act, .acct, .net, .toll, .em, .pa, .he, .ev, .mb, .rs, .outbox,
      .freeCtr])
    (h : Sound K C z s) :
    SoundOut K C z (execNandProgramDone part block ok last s) := by
  unfold execNandProgramDone
  exact .next (programDone_sound fr h)

theorem execNandEraseDone_sound {part : PartNo} {block : Nat} {ok : Bool}
    (fr : Free K [.regs, .mem, .ledger, .views, .ports, .act, .acct, .net, .toll, .em, .pa, .he, .ev, .mb, .rs, .outbox,
      .freeCtr])
    (h : Sound K C z s) :
    SoundOut K C z (execNandEraseDone part block ok s) := by
  unfold execNandEraseDone
  exact .next (eraseDone_sound fr h)

theorem execPatrolPass_sound {done : Bool} (fr : Free K [.regs, .he, .outbox]) (h : Sound K C z s) :
    SoundOut K C z (execPatrolPass done s) := by
  unfold execPatrolPass
  exact .next (patrolPass_sound fr h)

theorem execBlockRefresh_sound {part : PartNo} {block : Nat} {uncorr : Bool}
    (fr : Free K [.regs, .mem, .ledger, .views, .ports, .act, .acct, .net, .toll, .em, .pa, .he, .ev, .mb, .rs, .outbox,
      .freeCtr])
    (h : Sound K C z s) :
    SoundOut K C z (execBlockRefresh part block uncorr s) := by
  unfold execBlockRefresh
  exact .next (blockRefresh_sound fr h)

theorem execCalCompaction_sound (fr : Free K [.ev]) (h : Sound K C z s) :
    SoundOut K C z (execCalCompaction s) := by
  unfold execCalCompaction
  exact .next (calCompact_sound fr h)

theorem execEraseCreditAccrue_sound (fr : Free K [.regs]) (h : Sound K C z s) :
    SoundOut K C z (execEraseCreditAccrue s) := by
  unfold execEraseCreditAccrue
  exact .next (creditAccrue_sound fr h)

theorem execEvidenceWrite_sound {good : Nat} {erases : Nat} {cut : Bool} {read : Lp5Read}
    (fr : Free K [.regs, .mem, .ports, .net, .toll, .pa, .he, .ev, .mb, .outbox, .freeCtr]) (h : Sound K C z s) :
    SoundOut K C z (execEvidenceWrite good erases cut read s) := by
  unfold execEvidenceWrite
  exact .next (evidenceWrite_sound fr h)

theorem execLogPeriodic_sound (fr : Free K [.ev]) (h : Sound K C z s) :
    SoundOut K C z (execLogPeriodic s) := by
  unfold execLogPeriodic
  exact .next (logPeriodic_sound fr h)

theorem execFaultRecord_sound (fr : Free K [.pa, .ev]) (h : Sound K C z s) :
    SoundOut K C z (execFaultRecord s) := by
  unfold execFaultRecord
  exact .next (faultRecord_sound fr h)

theorem evCmd_sound {r : State × CmdRes} (h : Sound K C z s) (hr : Sound K C z r.1) : Sound K C z (evCmd s r).1 :=
  .ite1 (fun _ => hr) (fun _ => h)

theorem runEvidRead_sound {x : CmdCall} (h : Sound K C z s) :
    Sound K C z (runEvidRead x s).1 := by
  unfold runEvidRead
  exact evCmd_sound h h

theorem execEvidRead_sound {c : CmdCall} (fr : Free K [.regs, .net, .toll, .he, .mb, .outbox, .freeCtr])
    (h : Sound K C z s) :
    SoundOut K C z (execEvidRead c s) := by
  unfold execEvidRead
  exact .next (mbRun_sound fr (fun _ _ ht => runEvidRead_sound ht) h)

theorem execLogRead_sound {c : CmdCall} (fr : Free K [.regs, .net, .toll, .he, .mb, .outbox, .freeCtr])
    (h : Sound K C z s) :
    SoundOut K C z (execLogRead c s) := by
  unfold execLogRead
  exact .next (mbRun_sound fr (fun _ _ ht => runEvidRead_sound ht) h)

theorem runEvInfo_sound {x : CmdCall} (h : Sound K C z s) :
    Sound K C z (runEvInfo x s).1 := by
  unfold runEvInfo
  extract_lets q
  exact evCmd_sound h h

theorem execEvInfo_sound {c : CmdCall} (fr : Free K [.regs, .net, .toll, .he, .mb, .outbox, .freeCtr]) (h : Sound K C z s)
    :
    SoundOut K C z (execEvInfo c s) := by
  unfold execEvInfo
  exact .next (mbRun_sound fr (fun _ _ ht => runEvInfo_sound ht) h)

theorem execEvidClear_sound {c : CmdCall} (fr : Free K [.regs, .net, .toll, .he, .mb, .outbox, .freeCtr])
    (h : Sound K C z s) :
    SoundOut K C z (execEvidClear c s) := by
  unfold execEvidClear
  exact .next (mbRun_sound fr (fun _ _ ht => runEvidRead_sound ht) h)

end Sys2Proof.Machine
end

section
/-! SUPPORT. What each operation of Machine/Boot.lean leaves unchanged (the rules are in Laws/Sound.lean). -/

namespace Sys2Proof.Machine

set_option Elab.async false

variable {K : Comp → Prop} {C : Prop} {z s t : State}

theorem outputsReset_sound (fr : Free K [.outbox]) (h : Sound K C z s) :
    Sound K C z (outputsReset s) := by
  unfold outputsReset
  extract_lets s1 s2 s3
  have hs1 : Sound K C z s1 := emit_sound fr (emit_sound fr (emit_sound fr h))
  have hs2 : Sound K C z s2 := forEach_sound hs1 (fun _ _ ht => emit_sound fr (emit_sound fr ht))
  have hs3 : Sound K C z s3 := forEach_sound (emit_sound fr hs2) (fun _ _ ht1 => emit_sound fr ht1)
  exact forEach_sound hs3 (fun _ _ ht2 => emit_sound fr (emit_sound fr (emit_sound fr ht2)))

theorem canon_reset : Canon State.reset := ⟨rfl, rfl, rfl, rfl⟩

/-- The reset state keeps the waiting commands and nothing else; its memories are canonical. -/
theorem porst_sound
    (fr : Free K [.regs, .tables, .mem, .bases, .tick, .time, .ledger, .views, .tiles, .ports, .armCtr, .tw, .act, .acct,
      .net, .lanes, .queues, .toll, .em, .pa, .he, .ab, .ev, .mb, .rs, .outbox, .freeCtr])
    (h : Sound K C z s) :
    Sound K C z (porst s) :=
  outputsReset_sound (fr.mono rfl) (h.touch (fun p hp => by cases p <;> first | rfl | exact absurd hp (fr _ (by simp)))
    (fun _ => canon_reset))

theorem headerRepair_sound (fr : Free K [.ev, .outbox]) (h : Sound K C z s) :
    Sound K C z (headerRepair s) := by
  unfold headerRepair
  split
  · exact h
  · extract_lets s1 src
    have hs1 : Sound K C z s1 := forEach_sound h (fun _ _ ht => emit_sound (fr.mono rfl) ht)
    exact .setEv (fr.mono rfl) hs1

theorem confRepair_sound (fr : Free K [.ev, .outbox]) (h : Sound K C z s) :
    Sound K C z (confRepair s) := by
  unfold confRepair
  split
  · exact h
  · extract_lets s1 src
    have hs1 : Sound K C z s1 := forEach_sound h (fun _ _ ht => emit_sound (fr.mono rfl) ht)
    exact .setEv (fr.mono rfl) hs1

theorem bootError_sound {code : Nat} (fr : Free K [.regs]) (h : Sound K C z s) :
    Sound K C z (bootError code s) := by
  unfold bootError
  exact fset_sound fr h

theorem refuseDatum_sound {code : Nat}
    (fr : Free K [.regs, .mem, .ledger, .views, .act, .acct, .net, .em, .pa, .he, .ev, .rs, .outbox, .freeCtr])
    (h : Sound K C z s) :
    Sound K C z (refuseDatum code s) := by
  unfold refuseDatum
  exact paDetect_sound fr (evt_sound (fr.mono rfl) (fset_sound (fr.mono rfl) (bootError_sound (fr.mono rfl) h)))

theorem sampleStraps_sound {f : BootFound} (fr : Free K [.regs, .net, .he, .mb, .outbox]) (h : Sound K C z s) :
    Sound K C z (sampleStraps f s) := by
  unfold sampleStraps
  extract_lets s1 s2 s3
  have hs1 : Sound K C z s1 := fset_sound (fr.mono rfl) (fbset_sound (fr.mono rfl) (fbset_sound (fr.mono rfl) h))
  have hs2 : Sound K C z s2 := .ite (fun _ => forEach_sound hs1 (fun _ _ ht => fset_sound (fr.mono rfl) ht)) (fun _ =>
      hs1)
  have hs3 : Sound K C z s3 := fbset_sound (fr.mono rfl) (fbset_sound (fr.mono rfl) hs2)
  exact .ite (fun _ => fset_sound (fr.mono rfl) (fset_sound (fr.mono rfl) hs2)) (fun _ => publish_sound fr (syncTime_sound
    (fr.mono rfl) (fset_sound (fr.mono rfl) (setRoute_sound (fr.mono rfl) hs3))))

theorem readFuses_sound {f : BootFound} (fr : Free K [.regs, .net, .he, .ev, .mb]) (h : Sound K C z s) :
    Sound K C z (readFuses f s) := by
  unfold readFuses
  extract_lets s1 s2 s3 s4 src src' src'2
  have hs1 : Sound K C z s1 := fset_sound (fr.mono rfl) h
  have hs2 : Sound K C z s2 := cfgWr_sound (fr.mono rfl) hs1
  have hs3 : Sound K C z s3 := cfgWr_sound (fr.mono rfl) hs2
  have hs4 : Sound K C z s4 := cfgWr_sound (fr.mono rfl) (cfgWr_sound (fr.mono rfl) hs3)
  exact .setNetEvMb (fr.mono rfl) hs4

theorem phyCheck_sound {dead : Nat}
    (fr : Free K [.regs, .mem, .ledger, .views, .ports, .act, .acct, .net, .em, .pa, .he, .ev, .mb, .rs, .outbox,
      .freeCtr])
    (h : Sound K C z s) :
    Sound K C z (phyCheck dead s) := by
  unfold phyCheck
  exact replaceUpdate_sound (fr.mono rfl) (forEach_sound h (fun _ _ ht => paDetect_sound (fr.mono rfl) (fbset_sound
    (fr.mono rfl) ht)))

theorem lp5xTrain_sound {gib : Nat} (fr : Free K [.regs]) (h : Sound K C z s) :
    Sound K C z (lp5xTrain gib s) := by
  unfold lp5xTrain
  refine .ite (fun _ => bootError_sound fr h) (fun _ => ?_)
  extract_lets c
  exact wrn_sound fr (wrn_sound fr h)

theorem takeContents_sound {m : Medium} (fr : Free K [.ev]) (h : Sound K C z s) :
    Sound K C z (takeContents m s) := by
  unfold takeContents
  extract_lets src e
  exact .setEv fr h

theorem creditStart_sound {n : Nat} (fr : Free K [.regs]) (h : Sound K C z s) :
    Sound K C z (creditStart n s) := by
  unfold creditStart
  exact wr64_sound fr (wr64_sound fr h)

theorem restoreCredit_sound (fr : Free K [.regs]) (h : Sound K C z s) :
    Sound K C z (restoreCredit s) := by
  unfold restoreCredit
  split
  · exact h
  · exact creditStart_sound fr h

theorem useHeader_sound {h' : MediumHdr} (fr : Free K [.regs, .ev]) (h : Sound K C z s) :
    Sound K C z (useHeader h' s) := by
  unfold useHeader
  extract_lets t left good src s1 s2
  have hs1 : Sound K C z s1 := .setEv (fr.mono rfl) h
  have hs2 : Sound K C z s2 := fset_sound (fr.mono rfl) hs1
  exact wrn_sound (fr.mono rfl) hs2

theorem mediumBoot_sound {m : Medium}
    (fr : Free K [.regs, .mem, .ledger, .views, .ports, .act, .acct, .net, .em, .pa, .he, .ev, .mb, .rs, .outbox,
      .freeCtr])
    (h : Sound K C z s) :
    Sound K C z (mediumBoot m s) := by
  unfold mediumBoot
  refine .ite (fun _ => bootError_sound (fr.mono rfl) h) (fun _ => ?_)
  extract_lets s1 key copies won src
  have hs1 : Sound K C z s1 := takeContents_sound (fr.mono rfl) (wrn_sound (fr.mono rfl) h)
  refine .ite (fun _ => fset_sound (fr.mono rfl) hs1) (fun _ => ?_)
  unfold won
  split
  · extract_lets s2
    have hs2 : Sound K C z s2 := useHeader_sound (fr.mono rfl) (.setEv (fr.mono rfl) hs1)
    exact wearUpdate_sound (fr.mono rfl) (ringRegs_sound (fr.mono rfl) (restoreCredit_sound (fr.mono rfl) (fset_sound
      (fr.mono rfl) hs2)))
  · exact refuseDatum_sound (fr.mono rfl) hs1

theorem causewayStart_sound
    (fr : Free K [.regs, .time, .ports, .net, .lanes, .toll, .pa, .he, .ev, .mb, .rs, .outbox, .freeCtr])
    (h : Sound K C z s) :
    Sound K C z (causewayStart s) := by
  unfold causewayStart
  extract_lets src s1
  have hs1 : Sound K C z s1 := .setRs (fr.mono rfl) h
  exact forEach_sound hs1 (fun _ _ ht => .ite (fun _ => portEnable_sound (fr.mono rfl) ht) (fun _ => ht))

theorem startFrom_sound {signed : Nat} {l : List Nat} (fr : Free K [.regs, .rs]) (h : Sound K C z s) :
    Sound K C z (startFrom signed l s) := by
  induction l generalizing s with
  | nil => exact bootError_sound (fr.mono rfl) (.setRs (fr.mono rfl) h)
  | cons i l ih =>
    exact .ite (fun _ => startImage_sound (fr.mono rfl) (fset_sound (fr.mono rfl) (.setRs (fr.mono rfl) h))) (fun _ => ih
      h)

theorem selectImage_sound {signed : Nat} (fr : Free K [.regs, .rs]) (h : Sound K C z s) :
    Sound K C z (selectImage signed s) := by
  unfold selectImage
  exact .ite (fun _ => bootError_sound (fr.mono rfl) h) (fun _ => startFrom_sound fr h)

theorem release_sound {f : BootFound} {s0 : State}
    (fr : Free K [.regs, .mem, .time, .ledger, .views, .ports, .act, .acct, .net, .lanes, .toll, .em, .pa, .he, .ev, .mb,
      .rs, .outbox, .freeCtr])
    (hs0 : Sound K C z s0) :
    Sound K C z (release f s0) := by
  unfold release
  refine .ite (fun _ => hs0) (fun _ => ?_)
  extract_lets src s s1 medium lp5x src' s2 s3
  have hs : Sound K C z s := phyCheck_sound (fr.mono rfl) (sampleStraps_sound (fr.mono rfl) (idleBuses_sound (fr.mono rfl)
      (.setRs (fr.mono rfl) hs0)))
  have hs1 : Sound K C z s1 := mediumBoot_sound (fr.mono rfl) (lp5xTrain_sound (fr.mono rfl) (readFuses_sound (fr.mono
      rfl) hs))
  have hs2 : Sound K C z s2 := .setRs (fr.mono rfl) hs1
  have hs3 : Sound K C z s3 := causewayStart_sound (fr.mono rfl) (.ite (fun _ => imageCopy_sound (fr.mono rfl) hs2) (fun _
      => hs2))
  exact .ite (fun _ => causewayStart_sound (fr.mono rfl) (refuseDatum_sound (fr.mono rfl) hs)) (fun _ => .ite (fun _ =>
    selectImage_sound (fr.mono rfl) hs3) (fun _ => hs3))

theorem channelDrop_sound {c : Nat} (fr : Free K [.regs, .ports, .he, .mb, .outbox]) (h : Sound K C z s) :
    Sound K C z (channelDrop c s) := by
  unfold channelDrop
  extract_lets s1
  have hs1 : Sound K C z s1 := updChan_sound (fr.mono rfl) (slotsOrphan_sound (fr.mono rfl) h)
  exact .ite (fun _ => hs1) (fun _ => evt_sound (fr.mono rfl) (fset_sound (fr.mono rfl) hs1))

theorem stewardRestart_sound {signed : Nat} {slots : Option (List Nat)}
    (fr : Free K [.regs, .ports, .net, .pa, .he, .mb, .rs, .outbox]) (h : Sound K C z s) :
    Sound K C z (stewardRestart signed slots s) := by
  unfold stewardRestart
  extract_lets s1 s2
  have hs1 : Sound K C z s1 := cnt_sound (fr.mono rfl) (forEach_sound (forEach_sound h (fun _ _ hs => leaseEnd_sound
      (fr.mono rfl) hs)) (fun _ _ hs2 => channelDrop_sound (fr.mono rfl) hs2))
  have hs21 : Sound K C z s2 := wdogSuspend_sound (fr.mono rfl) (fset_sound (fr.mono rfl) (wrn_sound (fr.mono rfl) hs1))
  refine helloOnChange_sound (fr.mono rfl) ?_
  split
  · exact startFrom_sound (fr.mono rfl) (bootError_sound (fr.mono rfl) hs21)
  · exact selectImage_sound (fr.mono rfl) hs21

theorem startTimeout_sound {signed : Nat}
    (fr : Free K [.regs, .mem, .ledger, .views, .ports, .act, .acct, .net, .em, .pa, .he, .ev, .mb, .rs, .outbox,
      .freeCtr])
    (h : Sound K C z s) :
    Sound K C z (startTimeout signed s) := by
  unfold startTimeout
  refine .ite (fun _ => h) (fun _ => ?_)
  extract_lets s1
  have hs1 : Sound K C z s1 := .ite (fun _ => h) (fun _ => paDetect_sound (fr.mono rfl) h)
  exact stewardRestart_sound (fr.mono rfl) hs1

theorem formatMedium_sound (fr : Free K [.regs, .ports, .net, .pa, .he, .ev, .mb, .outbox, .freeCtr]) (h : Sound K C z s)
    :
    Sound K C z (formatMedium s) := by
  unfold formatMedium
  refine .ite (fun _ => h) (fun _ => ?_)
  extract_lets p h' chs key src s1 s2 s3
  have hs1 : Sound K C z s1 := .setEv (fr.mono rfl) h
  have hs2 : Sound K C z s2 := forEach_sound (useHeader_sound (fr.mono rfl) hs1) (fun _ _ ht => emit_sound (fr.mono rfl)
      ht)
  have hs3 : Sound K C z s3 := forEach_sound hs2 (fun _ _ ht1 => emit_sound (fr.mono rfl) ht1)
  exact wearUpdate_sound fr (ringRegs_sound (fr.mono rfl) (creditStart_sound (fr.mono rfl) hs3))

theorem bootRecord_sound (fr : Free K [.ev, .outbox]) (h : Sound K C z s) :
    Sound K C z (bootRecord s) := by
  unfold bootRecord
  refine .ite (fun _ => h) (fun _ => ?_)
  extract_lets s0 src s1
  have hs0 : Sound K C z s0 := confRepair_sound fr (headerRepair_sound fr h)
  have hs1 : Sound K C z s1 := .setEv (fr.mono rfl) hs0
  exact logWrite_sound (fr.mono rfl) hs1

theorem timeSetup_sound
    (fr : Free K [.regs, .tables, .mem, .bases, .time, .ledger, .views, .ports, .act, .acct, .net, .lanes, .toll, .em,
      .pa, .he, .ev, .mb, .rs, .outbox, .freeCtr])
    (h : Sound K C z s) :
    Sound K C z (timeSetup s) := by
  unfold timeSetup
  extract_lets words s1 s2 s3 src
  have hs1 : Sound K C z s1 := forEach_sound h (fun _ _ ht => tbPut_sound (fr.mono rfl) ht)
  have hs2 : Sound K C z s2 := putWords_sound (fr.mono rfl) hs1
  have hs3 : Sound K C z s3 := forEach_sound hs2 (fun _ _ ht1 => fullBringUp_sound (fr.mono rfl) (fbset_sound (fr.mono
      rfl) ht1))
  exact .setRs (fr.mono rfl) hs3

theorem takeOver_sound
    (fr : Free K [.regs, .tables, .mem, .bases, .time, .ledger, .views, .ports, .act, .acct, .net, .lanes, .toll, .em,
      .pa, .he, .ev, .mb, .rs, .outbox, .freeCtr])
    (h : Sound K C z s) :
    Sound K C z (takeOver s) := by
  unfold takeOver
  split
  · exact .setRs (fr.mono rfl) h
  · rename_i t e
    have ht := memSetup_sound (fr.mono rfl) h e
    exact .ite (fun _ => bringUpAlign_sound (fr.mono rfl) ht) (fun _ => bringUpAlign_sound (fr.mono rfl) (timeSetup_sound
      fr ht))

theorem dennilRunning_sound
    (fr : Free K [.regs, .tables, .mem, .bases, .time, .ledger, .views, .ports, .act, .acct, .net, .lanes, .toll, .em,
      .pa, .he, .ev, .mb, .rs, .outbox, .freeCtr])
    (h : Sound K C z s) :
    Sound K C z (dennilRunning s) := by
  unfold dennilRunning
  exact .ite (fun _ => h) (fun _ => helloOnChange_sound (fr.mono rfl) (takeOver_sound fr (wdogKick_sound (fr.mono rfl)
    (bootRecord_sound (fr.mono rfl) (formatMedium_sound (fr.mono rfl) (fset_sound (fr.mono rfl) h))))))

theorem fullService_sound {buses : Nat}
    (fr : Free K [.regs, .mem, .ledger, .views, .act, .acct, .net, .em, .pa, .he, .ev, .rs, .outbox, .freeCtr])
    (h : Sound K C z s) :
    Sound K C z (fullService buses s) := by
  unfold fullService
  refine .ite (fun _ => h) (fun _ => ?_)
  extract_lets s1 src
  have hs1 : Sound K C z s1 := forEach_sound h (fun _ _ ht => busEnable_sound fr ht)
  exact holdWrite_sound (fr.mono rfl) (wdogEnable_sound (fr.mono rfl) (.setRs (fr.mono rfl) hs1))

theorem completeNow_sound {opcode : Nat} {c : CmdCall} (fr : Free K [.regs, .net, .toll, .he, .mb, .outbox, .freeCtr])
    (h : Sound K C z s) :
    Sound K C z (completeNow opcode c s) := by
  unfold completeNow
  extract_lets s1 q
  have hs1 : Sound K C z s1 := completeFor_sound (fr.mono rfl) h
  split
  · exact forEach_sound hs1 (fun _ _ ht => completionWrite_sound (fr.mono rfl) ht)
  · exact forEach_sound hs1 (fun _ _ ht1 => forEach_sound ht1 (fun _ _ hu => emit_sound (fr.mono rfl) hu))

theorem runSleep_sound {c : CmdCall}
    (fr : Free K [.regs, .time, .ports, .act, .net, .lanes, .toll, .pa, .he, .ev, .mb, .rs, .outbox, .freeCtr])
    (h : Sound K C z s) :
    Sound K C z (runSleep c s).1 := by
  unfold runSleep
  refine .ite1 (fun _ => h) (fun _ => ?_)
  extract_lets s0 l src s1 s2
  have hs0 : Sound K C z s0 := completeNow_sound (fr.mono rfl) h
  have hs1 : Sound K C z s1 := holdWrite_sound (fr.mono rfl) (.setRs (fr.mono rfl) hs0)
  have hs2 : Sound K C z s2 := forEach_sound hs1 (fun _ _ ht => .ite (fun _ => withCut_sound (fr.mono rfl) (fun _ _ ht1 =>
      portEnable_sound (fr.mono rfl) ht1) ht) (fun _ => updBus_sound (fr.mono rfl) (fbset_sound (fr.mono rfl) ht)))
  exact cnt_sound (fr.mono rfl) (fbset_sound (fr.mono rfl) hs2)

theorem wake_sound
    (fr : Free K [.regs, .mem, .time, .ledger, .views, .ports, .act, .acct, .net, .lanes, .toll, .em, .pa, .he, .ev, .mb,
      .rs, .outbox, .freeCtr])
    (h : Sound K C z s) :
    Sound K C z (wake s) := by
  unfold wake
  refine .ite (fun _ => h) (fun _ => ?_)
  extract_lets src s1 s2
  have hs1 : Sound K C z s1 := wdogKick_sound (fr.mono rfl) (.setRs (fr.mono rfl) h)
  have hs2 : Sound K C z s2 := forEach_sound (forEach_sound (fbset_sound (fr.mono rfl) hs1) (fun _ _ ht => .ite (fun _ =>
      portEnable_sound (fr.mono rfl) ht) (fun _ => busEnable_sound (fr.mono rfl) ht))) (fun _ _ hs => mbFetch_sound
      (fr.mono rfl) hs)
  exact .ite (fun _ => holdWrite_sound (fr.mono rfl) hs2) (fun _ => hs2)

theorem runBootInfo_sound {x : CmdCall} (h : Sound K C z s) :
    Sound K C z (runBootInfo x s).1 := by
  unfold runBootInfo
  exact h

theorem runStewardRestart_sound {c : CmdCall}
    (fr : Free K [.regs, .ports, .net, .toll, .pa, .he, .mb, .rs, .outbox, .freeCtr]) (h : Sound K C z s) :
    Sound K C z (runStewardRestart c s).1 := by
  unfold runStewardRestart
  refine .ite1 (fun _ => h) (fun _ => ?_)
  dsimp only
  exact stewardRestart_sound (fr.mono rfl) (completeNow_sound (fr.mono rfl) h)

theorem runUnitReset_sound {x : CmdCall}
    (fr : Free K [.regs, .tables, .mem, .bases, .tick, .time, .ledger, .views, .tiles, .ports, .armCtr, .tw, .act, .acct,
      .net, .lanes, .queues, .toll, .em, .pa, .he, .ab, .ev, .mb, .rs, .outbox, .freeCtr])
    (h : Sound K C z s) :
    Sound K C z (runUnitReset x s).1 := by
  unfold runUnitReset
  exact wrn_sound (fr.mono rfl) (porst_sound fr h)

theorem captureRegs_sound {p : Nat} {a0 : Nat} {a1 : Nat} (fr : Free K [.regs]) (h : Sound K C z s) :
    Sound K C z (captureRegs p a0 a1 s) := by
  unfold captureRegs
  extract_lets o s1
  have hs1 : Sound K C z s1 := fset_sound fr (fset_sound fr (fbset_sound fr h))
  exact wrn_sound fr hs1

theorem captureStop_sound {p : Nat}
    (fr : Free K [.regs, .tables, .mem, .ledger, .views, .ports, .tw, .act, .acct, .net, .queues, .toll, .em, .pa, .he,
      .ev, .mb, .rs, .outbox, .freeCtr])
    (h : Sound K C z s) :
    Sound K C z (captureStop p s) := by
  unfold captureStop
  extract_lets s1 src
  have hs1 : Sound K C z s1 := fbset_sound (fr.mono rfl) (slotPower_sound fr (portOff_sound fr h))
  exact .setMb (fr.mono rfl) hs1

theorem captureStart_sound {p : Nat} {k : Capture}
    (fr : Free K [.regs, .tables, .mem, .ledger, .views, .ports, .tw, .act, .acct, .net, .queues, .toll, .em, .pa, .he,
      .ev, .mb, .rs, .outbox, .freeCtr])
    (h : Sound K C z s) :
    Sound K C z (captureStart p k s) := by
  unfold captureStart
  extract_lets src s1 s2
  have hs1 : Sound K C z s1 := .setMb (fr.mono rfl) h
  have hs2 : Sound K C z s2 := wrn_sound (fr.mono rfl) hs1
  exact portOn_sound (fr.mono rfl) (slotPower_sound fr (.ite (fun _ => presenceOn_sound fr hs2) (fun _ => hs2)))

theorem capture_sound
    (fr : Free K [.regs, .tables, .mem, .ledger, .views, .ports, .tw, .act, .acct, .net, .queues, .toll, .em, .pa, .he,
      .ev, .mb, .rs, .outbox, .freeCtr])
    (h : Sound K C z s) :
    Sound K C z (capture s) := by
  unfold capture
  refine .ite (fun _ => h) (fun _ => ?_)
  extract_lets a0 p w h' size t
  have ht : Sound K C z t := captureRegs_sound (fr.mono rfl) (portOff_sound fr h)
  exact .ite (fun _ => cwDone_sound (fr.mono rfl) h) (fun _ => .ite (fun _ => cwDone_sound (fr.mono rfl)
    (captureStop_sound fr h)) (fun _ => .ite (fun _ => cwDone_sound (fr.mono rfl) h) (fun _ => cwDone_sound (fr.mono rfl)
    (captureStart_sound fr ht))))

theorem clockLoss_sound {k : Nat}
    (fr : Free K [.regs, .mem, .time, .ledger, .views, .tiles, .ports, .act, .acct, .net, .lanes, .toll, .em, .pa, .he,
      .ab, .ev, .mb, .rs, .outbox, .freeCtr])
    (h : Sound K C z s) :
    Sound K C z (clockLoss k s) := by
  unfold clockLoss
  extract_lets s1
  have hs1 : Sound K C z s1 := monitorTrip_sound (fr.mono rfl) h
  split
  · exact withCut_sound (fr.mono rfl) (fun _ _ ht => linkDown_sound (fr.mono rfl) ht) (withCut_sound (fr.mono rfl) (fun _
      _ ht1 => linkDown_sound (fr.mono rfl) ht1) hs1)
  · exact linkReset_sound (fr.mono rfl) hs1
  · exact hs1

theorem execPowerOnReset_sound
    (fr : Free K [.regs, .tables, .mem, .bases, .tick, .time, .ledger, .views, .tiles, .ports, .armCtr, .tw, .act, .acct,
      .net, .lanes, .queues, .toll, .em, .pa, .he, .ab, .ev, .mb, .rs, .outbox, .freeCtr])
    (h : Sound K C z s) :
    SoundOut K C z (execPowerOnReset s) := by
  unfold execPowerOnReset
  exact .next (porst_sound fr h)

theorem execPowerOnResetRelease_sound {found : BootFound}
    (fr : Free K [.regs, .mem, .time, .ledger, .views, .ports, .act, .acct, .net, .lanes, .toll, .em, .pa, .he, .ev, .mb,
      .rs, .outbox, .freeCtr])
    (h : Sound K C z s) :
    SoundOut K C z (execPowerOnResetRelease found s) := by
  unfold execPowerOnResetRelease
  exact .next (release_sound fr h)

theorem execFirmwareStartTimeout_sound {signed : BitVec 3}
    (fr : Free K [.regs, .mem, .ledger, .views, .ports, .act, .acct, .net, .em, .pa, .he, .ev, .mb, .rs, .outbox,
      .freeCtr])
    (h : Sound K C z s) :
    SoundOut K C z (execFirmwareStartTimeout signed s) := by
  unfold execFirmwareStartTimeout
  exact .next (startTimeout_sound fr h)

theorem execDennilRunning_sound
    (fr : Free K [.regs, .tables, .mem, .bases, .time, .ledger, .views, .ports, .act, .acct, .net, .lanes, .toll, .em,
      .pa, .he, .ev, .mb, .rs, .outbox, .freeCtr])
    (h : Sound K C z s) :
    SoundOut K C z (execDennilRunning s) := by
  unfold execDennilRunning
  exact .next (dennilRunning_sound fr h)

theorem execFullServiceEntry_sound {buses : BitVec 4}
    (fr : Free K [.regs, .mem, .ledger, .views, .act, .acct, .net, .em, .pa, .he, .ev, .rs, .outbox, .freeCtr])
    (h : Sound K C z s) :
    SoundOut K C z (execFullServiceEntry buses s) := by
  unfold execFullServiceEntry
  exact .next (fullService_sound fr h)

theorem execAonBrownout_sound
    (fr : Free K [.regs, .tables, .mem, .bases, .tick, .time, .ledger, .views, .tiles, .ports, .armCtr, .tw, .act, .acct,
      .net, .lanes, .queues, .toll, .em, .pa, .he, .ab, .ev, .mb, .rs, .outbox, .freeCtr])
    (h : Sound K C z s) :
    SoundOut K C z (execAonBrownout s) := by
  unfold execAonBrownout
  exact .next (porst_sound fr h)

theorem execUnitReset_sound {c : CmdCall}
    (fr : Free K [.regs, .tables, .mem, .bases, .tick, .time, .ledger, .views, .tiles, .ports, .armCtr, .tw, .act, .acct,
      .net, .lanes, .queues, .toll, .em, .pa, .he, .ab, .ev, .mb, .rs, .outbox, .freeCtr])
    (h : Sound K C z s) :
    SoundOut K C z (execUnitReset c s) := by
  unfold execUnitReset
  exact .next (mbRun_sound (fr.mono rfl) (fun _ _ ht => runUnitReset_sound fr ht) h)

theorem execStewardRestart_sound {c : CmdCall}
    (fr : Free K [.regs, .ports, .net, .toll, .pa, .he, .mb, .rs, .outbox, .freeCtr]) (h : Sound K C z s) :
    SoundOut K C z (execStewardRestart c s) := by
  unfold execStewardRestart
  exact .next (mbRun_sound (fr.mono rfl) (fun _ _ ht => runStewardRestart_sound fr ht) h)

theorem execSleep_sound {c : CmdCall}
    (fr : Free K [.regs, .time, .ports, .act, .net, .lanes, .toll, .pa, .he, .ev, .mb, .rs, .outbox, .freeCtr])
    (h : Sound K C z s) :
    SoundOut K C z (execSleep c s) := by
  unfold execSleep
  exact .next (mbRun_sound (fr.mono rfl) (fun _ _ ht => runSleep_sound fr ht) h)

theorem execWake_sound
    (fr : Free K [.regs, .mem, .time, .ledger, .views, .ports, .act, .acct, .net, .lanes, .toll, .em, .pa, .he, .ev, .mb,
      .rs, .outbox, .freeCtr])
    (h : Sound K C z s) :
    SoundOut K C z (execWake s) := by
  unfold execWake
  exact .next (wake_sound fr h)

theorem execBootInfo_sound {c : CmdCall} (fr : Free K [.regs, .net, .toll, .he, .mb, .outbox, .freeCtr])
    (h : Sound K C z s) :
    SoundOut K C z (execBootInfo c s) := by
  unfold execBootInfo
  exact .next (mbRun_sound fr (fun _ _ ht => runBootInfo_sound ht) h)

theorem execCapture_sound
    (fr : Free K [.regs, .tables, .mem, .ledger, .views, .ports, .tw, .act, .acct, .net, .queues, .toll, .em, .pa, .he,
      .ev, .mb, .rs, .outbox, .freeCtr])
    (h : Sound K C z s) :
    SoundOut K C z (execCapture s) := by
  unfold execCapture
  exact .next (capture_sound fr h)

theorem execClockLoss_sound {clock : Fin 3}
    (fr : Free K [.regs, .mem, .time, .ledger, .views, .tiles, .ports, .act, .acct, .net, .lanes, .toll, .em, .pa, .he,
      .ab, .ev, .mb, .rs, .outbox, .freeCtr])
    (h : Sound K C z s) :
    SoundOut K C z (execClockLoss clock s) := by
  unfold execClockLoss
  exact .next (clockLoss_sound fr h)

theorem execPerstNRelease_sound (fr : Free K [.he]) (h : Sound K C z s) :
    SoundOut K C z (execPerstNRelease s) := by
  unfold execPerstNRelease
  exact .next (.setHe fr h)

theorem execTjSample_sound {tj : BitVec 16} (fr : Free K [.regs, .ev]) (h : Sound K C z s) :
    SoundOut K C z (execTjSample tj s) := by
  unfold execTjSample
  extract_lets s1 src
  have hs1 : Sound K C z s1 := fset_sound (fr.mono rfl) h
  exact .next (.ite (fun _ => .setEv (fr.mono rfl) hs1) (fun _ => hs1))

end Sys2Proof.Machine
end

section
/-! SUPPORT. What each operation of Machine/Matrix.lean leaves unchanged (the rules are in Laws/Sound.lean). -/

namespace Sys2Proof.Machine

set_option Elab.async false

variable {K : Comp → Prop} {C : Prop} {z s t : State}

theorem outFollow_sound {k : Nat} (fr : Free K [.regs, .outbox]) (h : Sound K C z s) :
    Sound K C z (outFollow k s) := by
  unfold outFollow
  refine forEach_sound h (fun i t ht => ?_)
  extract_lets o
  exact .ite (fun _ => emDrive_sound fr ht) (fun _ => ht)

theorem outConfigured_sound {i : Nat} (fr : Free K [.regs, .outbox]) (h : Sound K C z s) :
    Sound K C z (outConfigured i s) := by
  unfold outConfigured
  extract_lets o
  exact .ite (fun _ => emDrive_sound fr (fbset_sound (fr.mono rfl) h)) (fun _ => .ite (fun _ => emDrive_sound fr h) (fun _
    => emDrive_sound fr h))

theorem outPulseEnd_sound {i : Nat} (fr : Free K [.regs, .outbox]) (h : Sound K C z s) :
    Sound K C z (outPulseEnd i s) := by
  unfold outPulseEnd
  exact .ite (fun _ => emDrive_sound fr (fbset_sound (fr.mono rfl) h)) (fun _ => h)

theorem inputEdge_sound {k : Nat} {ball : Bool}
    (fr : Free K [.regs, .mem, .ledger, .views, .act, .acct, .net, .em, .pa, .he, .ev, .rs, .outbox, .freeCtr])
    (h : Sound K C z s) :
    Sound K C z (inputEdge k ball s) := by
  unfold inputEdge
  extract_lets o lv s1
  have hs1 : Sound K C z s1 := regBit_sound (fr.mono rfl) h
  exact .ite (fun _ => h) (fun _ => .ite (fun _ => emFire_sound fr hs1) (fun _ => hs1))

theorem cellEval_sound {k : Nat}
    (fr : Free K [.regs, .mem, .ledger, .views, .act, .acct, .net, .em, .pa, .he, .ev, .rs, .outbox, .freeCtr])
    (h : Sound K C z s) :
    Sound K C z (cellEval k s) := by
  unfold cellEval
  extract_lets o v was held f src s1 s2 go
  have hs1 : Sound K C z s1 := .setEm (fr.mono rfl) h
  have hs2 : Sound K C z s2 := outFollow_sound (fr.mono rfl) (fbset_sound (fr.mono rfl) (fbset_sound (fr.mono rfl) hs1))
  exact .ite (fun _ => h) (fun _ => .ite (fun _ => emFire_sound fr hs2) (fun _ => hs2))

theorem cellClear_sound {k : Nat} (fr : Free K [.regs, .outbox]) (h : Sound K C z s) :
    Sound K C z (cellClear k s) := by
  unfold cellClear
  exact outFollow_sound fr (wrn_sound (fr.mono rfl) h)

theorem cellCtl_sound {k : Nat} {v : Nat} (fr : Free K [.regs, .tables, .em, .he, .outbox]) (h : Sound K C z s) :
    Sound K C z (cellCtl k v s) := by
  unfold cellCtl
  extract_lets s1 s2 src
  have hs1 : Sound K C z s1 := putWord_sound (fr.mono rfl) h
  have hs2 : Sound K C z s2 := .ite (fun _ => cellClear_sound (fr.mono rfl) hs1) (fun _ => hs1)
  exact .ite (fun _ => hs2) (fun _ => outFollow_sound (fr.mono rfl) (fbset_sound (fr.mono rfl) (.setEm (fr.mono rfl)
    hs2)))

theorem stormTrip_sound {p : Nat}
    (fr : Free K [.regs, .mem, .ledger, .views, .act, .acct, .net, .em, .pa, .he, .ev, .rs, .outbox, .freeCtr])
    (h : Sound K C z s) :
    Sound K C z (stormTrip p s) := by
  unfold stormTrip
  exact .ite (fun _ => h) (fun _ => paDetect_sound fr (evtCnt_sound (fr.mono rfl) (regBit_sound (fr.mono rfl) h)))

theorem tripClear_sound {w : Nat} {m : Nat} (fr : Free K [.regs]) (h : Sound K C z s) :
    Sound K C z (tripClear w m s) := by
  unfold tripClear
  extract_lets a
  exact wrn_sound fr h

theorem inputConfigured_sound {k : Nat} {v : Nat}
    (fr : Free K [.regs, .tables, .mem, .ledger, .views, .act, .acct, .net, .em, .pa, .he, .ev, .rs, .outbox, .freeCtr])
    (h : Sound K C z s) :
    Sound K C z (inputConfigured k v s) := by
  unfold inputConfigured
  extract_lets ball
  exact inputEdge_sound (fr.mono rfl) (putWord_sound (fr.mono rfl) h)

theorem emPut_sound {a : Nat} {v : Nat}
    (fr : Free K [.regs, .tables, .mem, .ledger, .views, .act, .acct, .net, .em, .pa, .he, .ev, .rs, .outbox, .freeCtr])
    (h : Sound K C z s) :
    Sound K C z (emPut a v s) := by
  unfold emPut
  exact .ite (fun _ => .ite (fun _ => emFire_sound (fr.mono rfl) h) (fun _ => h)) (fun _ => .ite (fun _ => tripClear_sound
    (fr.mono rfl) h) (fun _ => .ite (fun _ => cellCtl_sound (fr.mono rfl) h) (fun _ => .ite (fun _ => outConfigured_sound
    (fr.mono rfl) (putWord_sound (fr.mono rfl) h)) (fun _ => .ite (fun _ => inputConfigured_sound fr h) (fun _ =>
    putWord_sound (fr.mono rfl) h)))))

theorem runEmLoadProfile_sound {c : CmdCall}
    (fr : Free K [.regs, .tables, .mem, .ledger, .views, .act, .acct, .net, .em, .pa, .he, .ev, .rs, .outbox, .freeCtr])
    (h : Sound K C z s) :
    Sound K C z (runEmLoadProfile c s).1 := by
  unfold runEmLoadProfile
  split
  · exact h
  · exact fbset_sound (fr.mono rfl) (forEach_sound h (fun _ _ ht => emPut_sound fr ht))

theorem runEmFire_sound {c : CmdCall}
    (fr : Free K [.regs, .mem, .ledger, .views, .act, .acct, .net, .em, .pa, .he, .ev, .rs, .outbox, .freeCtr])
    (h : Sound K C z s) :
    Sound K C z (runEmFire c s).1 := by
  unfold runEmFire
  exact .ite1 (fun _ => emFire_sound fr h) (fun _ => h)

theorem runEmRouteLoad_sound {c : CmdCall} (fr : Free K [.regs, .toll, .outbox]) (h : Sound K C z s) :
    Sound K C z (runEmRouteLoad c s).1 := by
  unfold runEmRouteLoad
  extract_lets first n
  exact .ite1 (fun _ => h) (fun _ => .ite1 (fun _ => h) (fun _ => .ite1 (fun _ => h) (fun _ => forEach_sound
    (hostRead_sound fr h) (fun _ _ ht => forEach_sound ht (fun _ _ hu => wrn_sound (fr.mono rfl) hu)))))

theorem execEmInputEdge_sound {inp : Fin 16} {ball : Bool}
    (fr : Free K [.regs, .mem, .ledger, .views, .act, .acct, .net, .em, .pa, .he, .ev, .rs, .outbox, .freeCtr])
    (h : Sound K C z s) :
    SoundOut K C z (execEmInputEdge inp ball s) := by
  unfold execEmInputEdge
  exact .next (inputEdge_sound fr h)

theorem execEmOutPulseEnd_sound {out : Fin 16} (fr : Free K [.regs, .outbox]) (h : Sound K C z s) :
    SoundOut K C z (execEmOutPulseEnd out s) := by
  unfold execEmOutPulseEnd
  exact .next (outPulseEnd_sound fr h)

theorem execEmFireWrite_sound {ag : Agent} {producer : Fin 256}
    (fr : Free K [.regs, .tables, .mem, .ledger, .views, .act, .acct, .net, .em, .pa, .he, .ev, .rs, .outbox, .freeCtr])
    (h : Sound K C z s) :
    SoundOut K C z (execEmFireWrite ag producer s) := by
  unfold execEmFireWrite
  exact .next (gated_sound (fr.mono rfl) (fun _ ht => emPut_sound fr ht) h)

theorem execStormTrip_sound {producer : Fin 256}
    (fr : Free K [.regs, .mem, .ledger, .views, .act, .acct, .net, .em, .pa, .he, .ev, .rs, .outbox, .freeCtr])
    (h : Sound K C z s) :
    SoundOut K C z (execStormTrip producer s) := by
  unfold execStormTrip
  exact .next (stormTrip_sound fr h)

theorem execEmTripClear_sound {ag : Agent} {word : Fin 8} {mask : Word} (fr : Free K [.regs, .he, .outbox])
    (h : Sound K C z s) :
    SoundOut K C z (execEmTripClear ag word mask s) := by
  unfold execEmTripClear
  exact .next (gated_sound fr (fun _ ht => tripClear_sound (fr.mono rfl) ht) h)

theorem execCellClear_sound {ag : Agent} {cell : Fin 32} (fr : Free K [.regs, .he, .outbox]) (h : Sound K C z s) :
    SoundOut K C z (execCellClear ag cell s) := by
  unfold execCellClear
  exact .next (gated_sound fr (fun _ ht => cellClear_sound (fr.mono rfl) ht) h)

theorem execCellFire_sound {cell : Fin 32}
    (fr : Free K [.regs, .mem, .ledger, .views, .act, .acct, .net, .em, .pa, .he, .ev, .rs, .outbox, .freeCtr])
    (h : Sound K C z s) :
    SoundOut K C z (execCellFire cell s) := by
  unfold execCellFire
  exact .next (cellEval_sound fr h)

theorem execEmLoadProfile_sound {c : CmdCall}
    (fr : Free K [.regs, .tables, .mem, .ledger, .views, .act, .acct, .net, .toll, .em, .pa, .he, .ev, .mb, .rs, .outbox,
      .freeCtr])
    (h : Sound K C z s) :
    SoundOut K C z (execEmLoadProfile c s) := by
  unfold execEmLoadProfile
  exact .next (mbRun_sound (fr.mono rfl) (fun _ _ ht => runEmLoadProfile_sound (fr.mono rfl) ht) h)

theorem execEmFire_sound {c : CmdCall}
    (fr : Free K [.regs, .mem, .ledger, .views, .act, .acct, .net, .toll, .em, .pa, .he, .ev, .mb, .rs, .outbox,
      .freeCtr])
    (h : Sound K C z s) :
    SoundOut K C z (execEmFire c s) := by
  unfold execEmFire
  exact .next (mbRun_sound (fr.mono rfl) (fun _ _ ht => runEmFire_sound (fr.mono rfl) ht) h)

theorem execEmRouteLoad_sound {c : CmdCall} (fr : Free K [.regs, .net, .toll, .he, .mb, .outbox, .freeCtr])
    (h : Sound K C z s) :
    SoundOut K C z (execEmRouteLoad c s) := by
  unfold execEmRouteLoad
  exact .next (mbRun_sound fr (fun _ _ ht => runEmRouteLoad_sound (fr.mono rfl) ht) h)

end Sys2Proof.Machine
end

section
/-! SUPPORT. What each operation of Machine/Commands.lean leaves unchanged (the rules are in Laws/Sound.lean). -/

namespace Sys2Proof.Machine

set_option Elab.async false

variable {K : Comp → Prop} {C : Prop} {z s t : State}

theorem nextIn_sound {o : Host.Outcome State Fault Refusal} (h : SoundOut K C z o) : Sound K C z (nextIn s o) := by
  obtain ⟨t, rfl, ht⟩ := h
  exact ht

theorem deferredClose_sound {x : Nat × Deferred}
    (fr : Free K [.regs, .ledger, .views, .tiles, .ports, .tw, .acct, .net, .lanes, .he, .mb, .outbox, .freeCtr])
    (h : Sound K C z s) :
    Sound K C z (deferredClose x s) := by
  unfold deferredClose
  exact .ite (fun _ => abortEffect_sound fr (endD_sound (fr.mono rfl) h)) (fun _ => deferredOrphan_sound (fr.mono rfl)
    (completeFor_sound (fr.mono rfl) h))

theorem mbClose_sound {c : Nat}
    (fr : Free K [.regs, .ledger, .views, .tiles, .ports, .tw, .acct, .net, .lanes, .he, .mb, .outbox, .freeCtr])
    (h : Sound K C z s) :
    Sound K C z (mbClose c s) := by
  unfold mbClose
  split
  · exact h
  · exact h
  · extract_lets s1 s2
    have hs1 : Sound K C z s1 := mbForget_sound (fr.mono rfl) (forEach_sound h (fun _ _ hs => deferredClose_sound fr hs))
    have hs2 : Sound K C z s2 := slotsOrphan_sound (fr.mono rfl) (forEach_sound hs1 (fun _ _ hs3 => leaseEnd_sound
        (fr.mono rfl) hs3))
    exact closeDone_sound (fr.mono rfl) (fset_sound (fr.mono rfl) hs2)
  · exact evt_sound (fr.mono rfl) (fset_sound (fr.mono rfl) h)

theorem runChannelClose_sound {c : CmdCall}
    (fr : Free K [.regs, .ledger, .views, .tiles, .ports, .tw, .acct, .net, .lanes, .he, .mb, .outbox, .freeCtr])
    (h : Sound K C z s) :
    Sound K C z (runChannelClose c s).1 := by
  unfold runChannelClose
  extract_lets s1
  have hs1 : Sound K C z s1 := completeFor_sound (fr.mono rfl) h
  refine ?_
  split
  · exact mbClose_sound fr hs1
  · exact hs1

theorem execChannelClose_sound {c : CmdCall}
    (fr : Free K [.regs, .ledger, .views, .tiles, .ports, .tw, .acct, .net, .lanes, .toll, .he, .mb, .outbox, .freeCtr])
    (h : Sound K C z s) :
    SoundOut K C z (execChannelClose c s) := by
  unfold execChannelClose
  exact .next (mbRun_sound (fr.mono rfl) (fun _ _ ht => runChannelClose_sound (fr.mono rfl) ht) h)

theorem runCmdAbort_sound {c : CmdCall}
    (fr : Free K [.regs, .ledger, .views, .tiles, .ports, .tw, .acct, .net, .lanes, .he, .mb, .outbox, .freeCtr])
    (h : Sound K C z s) :
    Sound K C z (runCmdAbort c s).1 := by
  unfold runCmdAbort
  split
  · exact h
  · exact .ite1 (fun _ => abortEffect_sound fr (endD_sound (fr.mono rfl) h)) (fun _ => h)

theorem execCmdAbort_sound {c : CmdCall}
    (fr : Free K [.regs, .ledger, .views, .tiles, .ports, .tw, .acct, .net, .lanes, .toll, .he, .mb, .outbox, .freeCtr])
    (h : Sound K C z s) :
    SoundOut K C z (execCmdAbort c s) := by
  unfold execCmdAbort
  exact .next (mbRun_sound (fr.mono rfl) (fun _ _ ht => runCmdAbort_sound (fr.mono rfl) ht) h)

theorem runUnknown_sound {opcode : Nat} {c : CmdCall} {s0 : State}
    (fr : Free K [.regs, .net, .toll, .he, .mb, .outbox, .freeCtr]) (hs0 : Sound K C z s0) :
    Sound K C z (runUnknown opcode c s0) := by
  unfold runUnknown
  split
  · exact .ite (fun _ => completeFor_sound (fr.mono rfl) hs0) (fun _ => hs0)
  · exact .ite (fun _ => hs0) (fun _ => complete_sound (fr.mono rfl) (mbTake_sound (fr.mono rfl) hs0))

theorem runOpcode_sound {opcode : Nat} {c : CmdCall}
    (fr : Free K [.regs, .tables, .mem, .bases, .tick, .time, .ledger, .views, .tiles, .ports, .armCtr, .tw, .act, .acct,
      .net, .lanes, .queues, .toll, .em, .pa, .he, .ab, .ev, .mb, .rs, .outbox, .freeCtr])
    (h : Sound K C z s) :
    Sound K C z (runOpcode opcode c s) := by
  unfold runOpcode
  split
  · exact nextIn_sound (execSensorProfileLoad_sound (fr.mono rfl) h)
  · exact nextIn_sound (execPortStop_sound (fr.mono rfl) h)
  · exact nextIn_sound (execPortPower_sound (fr.mono rfl) h)
  · exact nextIn_sound (execSettingForFrame_sound (fr.mono rfl) h)
  · exact nextIn_sound (execSettingCancel_sound (fr.mono rfl) h)
  · exact nextIn_sound (execSettingRawForFrame_sound (fr.mono rfl) h)
  · exact nextIn_sound (execLatencyProfileSet_sound (fr.mono rfl) h)
  · exact nextIn_sound (execCorrLoadCal_sound (fr.mono rfl) h)
  · exact nextIn_sound (execCorrSetMode_sound (fr.mono rfl) h)
  · exact nextIn_sound (execCorrTableLoad_sound (fr.mono rfl) h)
  · exact nextIn_sound (execCorrBankSwap_sound (fr.mono rfl) h)
  · exact nextIn_sound (execCorrParams_sound (fr.mono rfl) h)
  · exact nextIn_sound (execTapStart_sound (fr.mono rfl) h)
  · exact nextIn_sound (execTapStop_sound (fr.mono rfl) h)
  · exact nextIn_sound (execColourLoadCal_sound (fr.mono rfl) h)
  · exact nextIn_sound (execColourParams_sound (fr.mono rfl) h)
  · exact nextIn_sound (execStatStart_sound (fr.mono rfl) h)
  · exact nextIn_sound (execStatStop_sound (fr.mono rfl) h)
  · exact nextIn_sound (execStatParams_sound (fr.mono rfl) h)
  · exact nextIn_sound (execSegLearnBg_sound (fr.mono rfl) h)
  · exact nextIn_sound (execSegLoadProfile_sound (fr.mono rfl) h)
  · exact nextIn_sound (execSegParams_sound (fr.mono rfl) h)
  · exact nextIn_sound (execSegTableLoad_sound (fr.mono rfl) h)
  · exact nextIn_sound (execViewLoadCal_sound (fr.mono rfl) h)
  · exact nextIn_sound (execViewCalRun_sound (fr.mono rfl) h)
  · exact nextIn_sound (execViewParams_sound (fr.mono rfl) h)
  · exact nextIn_sound (execViewTableLoad_sound (fr.mono rfl) h)
  · exact nextIn_sound (execEjectLoadCal_sound (fr.mono rfl) h)
  · exact nextIn_sound (execEjectCalRun_sound (fr.mono rfl) h)
  · exact nextIn_sound (execEjectTest_sound (fr.mono rfl) h)
  · exact nextIn_sound (execTimeLoadProfile_sound (fr.mono rfl) h)
  · exact nextIn_sound (execTimeAlign_sound (fr.mono rfl) h)
  · exact nextIn_sound (execTimeStep_sound (fr.mono rfl) h)
  · exact nextIn_sound (execSpanLinkRetrain_sound (fr.mono rfl) h)
  · exact nextIn_sound (execSpanEyeScan_sound (fr.mono rfl) h)
  · exact nextIn_sound (execSpanLaneParams_sound (fr.mono rfl) h)
  · exact nextIn_sound (execSpanChainRead_sound (fr.mono rfl) h)
  · exact nextIn_sound (execSpanReenumerate_sound (fr.mono rfl) h)
  · exact nextIn_sound (execSpanSetHost_sound (fr.mono rfl) h)
  · exact nextIn_sound (execSpanCreditParams_sound (fr.mono rfl) h)
  · exact nextIn_sound (execInfo_sound (fr.mono rfl) h)
  · exact nextIn_sound (execChannelClose_sound (fr.mono rfl) h)
  · exact nextIn_sound (execExpertTokenSet_sound (fr.mono rfl) h)
  · exact nextIn_sound (execFwWrite_sound (fr.mono rfl) h)
  · exact nextIn_sound (execFwActivate_sound (fr.mono rfl) h)
  · exact nextIn_sound (execCmdAbort_sound (fr.mono rfl) h)
  · exact nextIn_sound (execEventMask_sound (fr.mono rfl) h)
  · exact nextIn_sound (execLeaseOpen_sound (fr.mono rfl) h)
  · exact nextIn_sound (execLeaseClose_sound (fr.mono rfl) h)
  · exact nextIn_sound (execLeaseRenew_sound (fr.mono rfl) h)
  · exact nextIn_sound (execTwLoadProfile_sound (fr.mono rfl) h)
  · exact nextIn_sound (execTwTgtResp_sound (fr.mono rfl) h)
  · exact nextIn_sound (execTwXfer_sound (fr.mono rfl) h)
  · exact nextIn_sound (execAbLoadProfile_sound (fr.mono rfl) h)
  · exact nextIn_sound (execAbParams_sound (fr.mono rfl) h)
  · exact nextIn_sound (execEvidRead_sound (fr.mono rfl) h)
  · exact nextIn_sound (execLogRead_sound (fr.mono rfl) h)
  · exact nextIn_sound (execEvInfo_sound (fr.mono rfl) h)
  · exact nextIn_sound (execEvidClear_sound (fr.mono rfl) h)
  · exact nextIn_sound (execTollLoadProfile_sound (fr.mono rfl) h)
  · exact nextIn_sound (execMemInfo_sound (fr.mono rfl) h)
  · exact nextIn_sound (execTollSet_sound (fr.mono rfl) h)
  · exact nextIn_sound (execPoolSet_sound (fr.mono rfl) h)
  · exact nextIn_sound (execEmLoadProfile_sound (fr.mono rfl) h)
  · exact nextIn_sound (execEmFire_sound (fr.mono rfl) h)
  · exact nextIn_sound (execEmRouteLoad_sound (fr.mono rfl) h)
  · exact nextIn_sound (execPaClear_sound (fr.mono rfl) h)
  · exact nextIn_sound (execPaRelease_sound (fr.mono rfl) h)
  · exact nextIn_sound (execPaForceSafe_sound (fr.mono rfl) h)
  · exact nextIn_sound (execPaConfig_sound (fr.mono rfl) h)
  · exact nextIn_sound (execBootInfo_sound (fr.mono rfl) h)
  · exact nextIn_sound (execStewardRestart_sound (fr.mono rfl) h)
  · exact nextIn_sound (execSleep_sound (fr.mono rfl) h)
  · exact nextIn_sound (execUnitReset_sound fr h)
  · exact runUnknown_sound (fr.mono rfl) h

theorem commandTake_sound {e : List Byte} {indirect : List Byte} {data : List Byte} {nums : List Int}
    (fr : Free K [.regs, .tables, .mem, .bases, .tick, .time, .ledger, .views, .tiles, .ports, .armCtr, .tw, .act, .acct,
      .net, .lanes, .queues, .toll, .em, .pa, .he, .ab, .ev, .mb, .rs, .outbox, .freeCtr])
    (h : Sound K C z s) :
    Sound K C z (commandTake e indirect data nums s) := by
  unfold commandTake
  split
  · exact h
  · extract_lets f entry body src
    exact runOpcode_sound fr (.setMb (fr.mono rfl) h)

/-- What a command that waited runs when host memory can be reached keeps what every command keeps. -/
theorem hostRun_sound {opcode : Nat} {run : CmdCall → State → State × CmdRes} {c : CmdCall}
    (fr : Free K [.regs, .tables, .ports, .net, .toll, .he, .ev, .mb, .outbox, .freeCtr])
    (h : Sound K C z s) (e : hostRun opcode = some run) : Sound K C z (run c s).1 := by
  unfold hostRun at e
  split at e <;> cases e
  · exact corrTableLoad_sound (fr.mono rfl) h
  · exact segTableLoad_sound (fr.mono rfl) h
  · exact viewTableLoad_sound (fr.mono rfl) h
  · exact runSpanChainRead_sound (fr.mono rfl) h
  · exact runFwWrite_sound (fr.mono rfl) h
  · exact runEmRouteLoad_sound (fr.mono rfl) h

theorem resumeOne_sound {x : Nat × Deferred}
    (fr : Free K [.regs, .tables, .ports, .net, .toll, .he, .ev, .mb, .outbox, .freeCtr]) (h : Sound K C z s) : Sound K C
    z (resumeOne x s) := by
  unfold resumeOne
  extract_lets c
  split
  · exact .ite (fun _ => endD_sound (fr.mono rfl) (hostWrite_sound (fr.mono rfl) h)) (fun _ => h)
  · refine .ite (fun _ => .ite (fun _ => endD_sound (fr.mono rfl) h) (fun _ => .ite
      (fun _ => forwardCmd_sound (fr.mono rfl) (dropDeferred_sound (fr.mono rfl) h)) (fun _ => h))) (fun _ => ?_)
    split
    · exact h
    · rename_i run e
      extract_lets r
      have hr : Sound K C z r.1 := hostRun_sound fr h e
      split
      · exact dropDeferred_sound (fr.mono rfl) hr
      · exact endD_sound (fr.mono rfl) hr
      · exact endD_sound (fr.mono rfl) h
      · exact putDeferred_sound (fr.mono rfl) hr
      · exact h

theorem resumeWaiting_sound (fr : Free K [.regs, .tables, .ports, .net, .toll, .he, .ev, .mb, .outbox, .freeCtr])
    (h : Sound K C z s) :
    Sound K C z (resumeWaiting s) := by
  unfold resumeWaiting
  exact forEach_sound h (fun _ _ hs => resumeOne_sound fr hs)

theorem dmaResume_sound (fr : Free K [.regs, .tables, .mem, .ports, .net, .toll, .he, .ab, .ev, .mb, .outbox, .freeCtr])
    (h : Sound K C z s) :
    Sound K C z (dmaResume s) := by
  unfold dmaResume
  exact irqAll_sound (fr.mono rfl) (inRetry_sound (fr.mono rfl) (resumeWaiting_sound (fr.mono rfl) (forEach_sound
    (forEach_sound (tapsResume_sound (fr.mono rfl) (syncTags_sound (fr.mono rfl) h)) (fun _ _ hs => mbFetch_sound (fr.mono
    rfl) hs)) (fun _ _ hs1 => bulkRun_sound (fr.mono rfl) hs1))))

theorem ringsRetry_sound (fr : Free K [.regs, .tiles, .ports, .toll, .he, .mb, .outbox, .freeCtr]) (h : Sound K C z s) :
    Sound K C z (ringsRetry s) := by
  unfold ringsRetry
  extract_lets s1 s2 s3
  have hs1 : Sound K C z s1 := hwbRun_sound (fr.mono rfl) h
  have hs2 : Sound K C z s2 := forEach_sound hs1 (fun _ _ ht => forEach_sound ht (fun _ _ hu => tapFetch_sound (fr.mono
      rfl) (tapComplete_sound (fr.mono rfl) hu)))
  have hs3 : Sound K C z s3 := forEach_sound hs2 (fun _ _ ht1 => vrFetch_sound (fr.mono rfl) ht1)
  exact forEach_sound hs3 (fun _ _ ht2 => mbFetch_sound (fr.mono rfl) (forEach_sound ht2 (fun _ _ hu1 =>
    completionWrite_sound (fr.mono rfl) hu1)))

theorem clientRetry_sound {c : Nat}
    (fr : Free K [.regs, .tables, .mem, .tiles, .ports, .net, .queues, .toll, .pa, .he, .ab, .ev, .mb, .outbox, .freeCtr])
    (h : Sound K C z s) :
    Sound K C z (clientRetry c s) := by
  unfold clientRetry
  split
  · exact forEach_sound h (fun _ _ ht => statDrain_sound (fr.mono rfl) ht)
  · exact ringsRetry_sound (fr.mono rfl) h
  · exact bulkRun_sound (fr.mono rfl) h
  · exact bulkRun_sound (fr.mono rfl) h
  · exact resumeWaiting_sound (fr.mono rfl) h
  · exact inRetry_sound (fr.mono rfl) h
  · exact h

theorem periodStart_sound
    (fr : Free K [.regs, .tables, .mem, .tiles, .ports, .net, .queues, .toll, .pa, .he, .ab, .ev, .mb, .outbox, .freeCtr])
    (h : Sound K C z s) :
    Sound K C z (periodStart s) := by
  unfold periodStart
  exact forEach_sound (tollPeriod_sound (fr.mono rfl) h) (fun _ _ hs => clientRetry_sound fr hs)

theorem deferredComplete_sound {ch : Nat} {tag : Nat} {ok : Bool} {back : Option (Nat × Byte)}
    (fr : Free K [.regs, .tables, .mem, .ledger, .views, .tiles, .ports, .armCtr, .tw, .act, .acct, .net, .lanes, .queues,
      .toll, .em, .pa, .he, .ev, .mb, .rs, .outbox, .freeCtr])
    (h : Sound K C z s) :
    Sound K C z (deferredComplete ch tag ok back s) := by
  unfold deferredComplete
  split
  · exact h
  · refine .ite (fun _ => resumeOne_sound (fr.mono rfl) h) (fun _ => ?_)
    split
    · exact sensorProfileDone_sound (fr.mono rfl) h
    · exact fwWriteDone_sound (fr.mono rfl) h
    · exact .ite (fun _ => evidReadDone_sound (fr.mono rfl) h) (fun _ => endD_sound (fr.mono rfl) h)
    · exact .ite (fun _ => logReadDone_sound (fr.mono rfl) h) (fun _ => endD_sound (fr.mono rfl) h)
    · exact .ite (fun _ => evidClearDone_sound (fr.mono rfl) h) (fun _ => endD_sound (fr.mono rfl) h)
    · exact .ite (fun _ => h) (fun _ => endInternal_sound (fr.mono rfl) (abortEffect_sound (fr.mono rfl) h))

theorem bmeSet_sound (fr : Free K [.regs, .tables, .mem, .ports, .net, .toll, .he, .ab, .ev, .mb, .outbox, .freeCtr])
    (h : Sound K C z s) :
    Sound K C z (bmeSet s) := by
  unfold bmeSet
  exact .ite (fun _ => h) (fun _ => dmaResume_sound fr (fbset_sound (fr.mono rfl) (cfgWr_sound (fr.mono rfl) h)))

theorem remoteDone_sound {src : Nat} {opcode : Nat} {status : Nat} {ch : Nat} {tag : Nat} {detail : Nat} {res : List Byte}
    (fr : Free K [.regs, .he, .mb, .outbox]) (h : Sound K C z s) :
    Sound K C z (remoteDone src opcode status ch tag detail res s) := by
  unfold remoteDone
  split
  · exact h
  · exact closeDone_sound (fr.mono rfl) (complete_sound (fr.mono rfl) (updChan_sound (fr.mono rfl) h))

theorem remoteEvent_sound {kind : Nat} {ch : Nat} {tag : Nat} {sess : Nat} {res : List Byte} (fr : Free K [.regs, .mb])
    (h : Sound K C z s) :
    Sound K C z (remoteEvent kind ch tag sess res s) := by
  unfold remoteEvent
  exact .ite (fun _ => forEach_sound h (fun _ _ ht => .ite (fun _ => ht) (fun _ => mbEvent_sound fr ht))) (fun _ => .ite
    (fun _ => mbEvent_sound fr h) (fun _ => cnt_sound (fr.mono rfl) h))

theorem neighbourValves_sound {src : Nat} {n : Nat} (fr : Free K [.regs]) (h : Sound K C z s) :
    Sound K C z (neighbourValves src n s) := by
  unfold neighbourValves
  extract_lets s1
  have hs1 : Sound K C z s1 := .ite (fun _ => fset_sound fr (fbset_sound fr h)) (fun _ => h)
  exact .ite (fun _ => fset_sound fr (fbset_sound fr hs1)) (fun _ => hs1)

theorem takeModel_sound {src : Nat} {g : Nat} {v : Nat} {en : Bool} {a : Nat} {b : Nat} {delays : List Nat}
    (fr : Free K [.regs, .tables]) (h : Sound K C z s) :
    Sound K C z (takeModel src g v en a b delays s) := by
  unfold takeModel
  split
  · exact h
  · extract_lets shift one
    have hone : ∀ x0 x1 t, Sound K C z t → Sound K C z (one x0 x1 t) := by
      refine fun _ _ _ ht => ?_
      unfold one
      extract_lets o x t1
      have ht1 : Sound K C z t1 := wrn_sound (fr.mono rfl) (wrn_sound (fr.mono rfl) (fbset_sound (fr.mono rfl) ht))
      exact .ite (fun _ => tblPuts_sound (fr.mono rfl) ht1) (fun _ => ht)
    exact forEach_sound h (fun _ _ ht2 => forEach_sound ht2 (fun _ _ hu => hone _ _ _ hu))

theorem pierHost_sound {src : Nat} {up : Bool} (fr : Free K [.regs, .net, .he, .mb, .outbox]) (h : Sound K C z s) :
    Sound K C z (pierHost src up s) := by
  unfold pierHost
  exact publish_sound fr (.setNet (fr.mono rfl) h)

theorem dennilMsg_sound {src : Nat} {m : DennilMsg}
    (fr : Free K [.regs, .tables, .mem, .bases, .tick, .time, .ledger, .views, .tiles, .ports, .armCtr, .tw, .act, .acct,
      .net, .lanes, .queues, .toll, .em, .pa, .he, .ab, .ev, .mb, .rs, .outbox, .freeCtr])
    (h : Sound K C z s) :
    Sound K C z (dennilMsg src m s) := by
  unfold dennilMsg
  refine .ite (fun _ => h) (fun _ => ?_)
  split
  · exact runOpcode_sound fr h
  · exact forEach_sound h (fun _ _ ht => updChan_sound (fr.mono rfl) ht)
  · exact remoteDone_sound (fr.mono rfl) h
  · exact remoteEvent_sound (fr.mono rfl) h
  · exact neighbourValves_sound (fr.mono rfl) h
  · exact takeModel_sound (fr.mono rfl) h
  · exact sendXmdls_sound (fr.mono rfl) h
  · exact pierHost_sound (fr.mono rfl) h

theorem execMbClose_sound {ch : ChanNo}
    (fr : Free K [.regs, .ledger, .views, .tiles, .ports, .tw, .acct, .net, .lanes, .he, .mb, .outbox, .freeCtr])
    (h : Sound K C z s) :
    SoundOut K C z (execMbClose ch s) := by
  unfold execMbClose
  exact .next (mbClose_sound fr h)

theorem execCommandDoorbell_sound {ch : ChanNo} {tail : BitVec 12} (fr : Free K [.regs, .toll, .he, .rs, .outbox])
    (h : Sound K C z s) :
    SoundOut K C z (execCommandDoorbell ch tail s) := by
  unfold execCommandDoorbell
  exact .next (doorbell_sound fr h)

theorem execCommandTake_sound {entry : List Byte} {indirect : List Byte} {data : List Byte} {nums : List Int}
    (fr : Free K [.regs, .tables, .mem, .bases, .tick, .time, .ledger, .views, .tiles, .ports, .armCtr, .tw, .act, .acct,
      .net, .lanes, .queues, .toll, .em, .pa, .he, .ab, .ev, .mb, .rs, .outbox, .freeCtr])
    (h : Sound K C z s) :
    SoundOut K C z (execCommandTake entry indirect data nums s) := by
  unfold execCommandTake
  exact .next (commandTake_sound fr h)

theorem execDeferredComplete_sound {ch : Fin 5} {tag : Word} {ok : Bool} {back : Option (Nat × Byte)}
    (fr : Free K [.regs, .tables, .mem, .ledger, .views, .tiles, .ports, .armCtr, .tw, .act, .acct, .net, .lanes, .queues,
      .toll, .em, .pa, .he, .ev, .mb, .rs, .outbox, .freeCtr])
    (h : Sound K C z s) :
    SoundOut K C z (execDeferredComplete ch tag ok back s) := by
  unfold execDeferredComplete
  exact .next (deferredComplete_sound fr h)

theorem execTollPeriodStart_sound
    (fr : Free K [.regs, .tables, .mem, .tiles, .ports, .net, .queues, .toll, .pa, .he, .ab, .ev, .mb, .outbox, .freeCtr])
    (h : Sound K C z s) :
    SoundOut K C z (execTollPeriodStart s) := by
  unfold execTollPeriodStart
  exact .next (periodStart_sound fr h)

theorem execBusMasterEnableSet_sound
    (fr : Free K [.regs, .tables, .mem, .ports, .net, .toll, .he, .ab, .ev, .mb, .outbox, .freeCtr]) (h : Sound K C z s) :
    SoundOut K C z (execBusMasterEnableSet s) := by
  unfold execBusMasterEnableSet
  exact .next (bmeSet_sound fr h)

theorem execDennilMessageReceive_sound {src : BitVec 10} {msg : DennilMsg}
    (fr : Free K [.regs, .tables, .mem, .bases, .tick, .time, .ledger, .views, .tiles, .ports, .armCtr, .tw, .act, .acct,
      .net, .lanes, .queues, .toll, .em, .pa, .he, .ab, .ev, .mb, .rs, .outbox, .freeCtr])
    (h : Sound K C z s) :
    SoundOut K C z (execDennilMessageReceive src msg s) := by
  unfold execDennilMessageReceive
  exact .next (dennilMsg_sound fr h)

end Sys2Proof.Machine
end

section
/-! SUPPORT. What each operation of Machine/Window.lean leaves unchanged (the rules are in Laws/Sound.lean). -/

namespace Sys2Proof.Machine

set_option Elab.async false

variable {K : Comp → Prop} {C : Prop} {z s t : State}

theorem vectorEoi_sound {v : Nat} (fr : Free K [.regs, .outbox]) (h : Sound K C z s) :
    Sound K C z (vectorEoi v s) := by
  unfold vectorEoi
  exact vecEval_sound fr (regBit_sound (fr.mono rfl) h)

theorem hePut_sound {a : Nat} {v : Nat} (fr : Free K [.regs, .tables, .he, .outbox]) (h : Sound K C z s) :
    Sound K C z (hePut a v s) := by
  unfold hePut
  refine .ite (fun _ => vectorEoi_sound (fr.mono rfl) h) (fun _ => .ite (fun _ => ?_) (fun _ => .ite (fun _ =>
    vecEval_sound (fr.mono rfl) (putWord_sound fr h)) (fun _ => putWord_sound fr h)))
  extract_lets old
  exact irqAll_sound (fr.mono rfl) (vecEval_sound (fr.mono rfl) (putWord_sound fr h))

theorem cwPut_sound {v : Nat}
    (fr : Free K [.regs, .tables, .mem, .ledger, .views, .ports, .tw, .act, .acct, .net, .queues, .toll, .em, .pa, .he,
      .ev, .mb, .rs, .outbox, .freeCtr])
    (h : Sound K C z s) :
    Sound K C z (cwPut v s) := by
  unfold cwPut
  extract_lets s1
  have hs1 : Sound K C z s1 := fset_sound (fr.mono rfl) h
  refine .ite (fun _ => hs1) (fun _ => ?_)
  split
  · exact cwVersion_sound (fr.mono rfl) hs1
  · exact cwStatus_sound (fr.mono rfl) hs1
  · exact fbset_sound (fr.mono rfl) hs1
  · exact capture_sound fr hs1
  · exact cwDone_sound (fr.mono rfl) hs1

theorem mbPut_sound {a : Nat} {v : Nat}
    (fr : Free K [.regs, .tables, .mem, .ledger, .views, .tiles, .ports, .tw, .act, .acct, .net, .lanes, .queues, .toll,
      .em, .pa, .he, .ev, .mb, .rs, .outbox, .freeCtr])
    (h : Sound K C z s) :
    Sound K C z (mbPut a v s) := by
  unfold mbPut
  extract_lets -underBinder o c shut
  refine .ite (fun _ => ?_) (fun _ => .ite (fun _ => cwPut_sound (fr.mono rfl) h) (fun _ => putWord_sound (fr.mono rfl)
    h))
  split
  · extract_lets s1 s2
    have hs1 : Sound K C z s1 := fbset_sound (fr.mono rfl) (.ite (fun _ => putWord_sound (fr.mono rfl) h) (fun _ => h))
    have hs2 : Sound K C z s2 := .ite (fun _ => openRequest_sound (fr.mono rfl) hs1) (fun _ => hs1)
    exact .ite (fun _ => mbClose_sound (fr.mono rfl) hs2) (fun _ => hs2)
  · exact .ite (fun _ => putWord_sound (fr.mono rfl) h) (fun _ => h)
  · exact wrn_sound (fr.mono rfl) h
  · exact wrn_sound (fr.mono rfl) h
  · exact wrn_sound (fr.mono rfl) h
  · exact wrn_sound (fr.mono rfl) h
  · exact .ite (fun _ => putWord_sound (fr.mono rfl) h) (fun _ => h)
  · exact .ite (fun _ => putWord_sound (fr.mono rfl) h) (fun _ => h)
  · exact .ite (fun _ => putWord_sound (fr.mono rfl) h) (fun _ => h)
  · exact .ite (fun _ => putWord_sound (fr.mono rfl) h) (fun _ => h)
  · exact doorbell_sound (fr.mono rfl) h
  · exact putWord_sound (fr.mono rfl) h

theorem slPut_sound {p : Nat} {a : Nat} {v : Nat} {be3 : Bool}
    (fr : Free K [.regs, .tables, .time, .ports, .net, .lanes, .toll, .pa, .he, .ev, .mb, .outbox, .freeCtr])
    (h : Sound K C z s) :
    Sound K C z (slPut p a v be3 s) := by
  unfold slPut
  split
  · extract_lets en s1 s2
    have hs1 : Sound K C z s1 := putWord_sound (fr.mono rfl) h
    have hs2 : Sound K C z s2 := .ite (fun _ => withCut_sound (fr.mono rfl) (fun _ _ ht => portEnable_sound (fr.mono rfl)
        ht) hs1) (fun _ => hs1)
    exact .ite (fun _ => withCut_sound (fr.mono rfl) (fun _ _ ht1 => retrain_sound (fr.mono rfl) ht1) hs2) (fun _ => hs2)
  · exact eyeCtl_sound (fr.mono rfl) h
  · exact putWord_sound (fr.mono rfl) h

theorem snPut_sound {a : Nat} {v : Nat} (fr : Free K [.regs, .tables, .net, .he, .outbox]) (h : Sound K C z s) :
    Sound K C z (snPut a v s) := by
  unfold snPut
  refine .ite (fun _ => ?_) (fun _ => .ite (fun _ => ?_) (fun _ => putWord_sound (fr.mono rfl) h))
  · extract_lets was s1
    have hs1 : Sound K C z s1 := putWord_sound (fr.mono rfl) h
    exact .ite (fun _ => hostChoose_sound (fr.mono rfl) hs1) (fun _ => hostKeep_sound (fr.mono rfl) hs1)
  · extract_lets s1
    have hs11 : Sound K C z s1 := putWord_sound (fr.mono rfl) h
    exact .ite (fun _ => dropDisabled_sound (fr.mono rfl) (dropDisabled_sound (fr.mono rfl) hs11)) (fun _ => hs11)

theorem tlPut_sound {a : Nat} {v : Nat} (fr : Free K [.regs, .tables, .tiles, .he, .outbox]) (h : Sound K C z s) :
    Sound K C z (tlPut a v s) := by
  unfold tlPut
  extract_lets o r en r' en'
  refine .ite (fun _ => .ite (fun _ => hostFree_sound (fr.mono rfl) (putWord_sound (fr.mono rfl) h)) (fun _ =>
    putWord_sound (fr.mono rfl) h)) (fun _ => .ite (fun _ => .ite (fun _ => h) (fun _ => putWord_sound (fr.mono rfl) h))
    (fun _ => .ite (fun _ => ?_) (fun _ => .ite (fun _ => ?_) (fun _ => putWord_sound (fr.mono rfl) h))))
  · split
    · exact .ite (fun _ => fset_sound (fr.mono rfl) h) (fun _ => putWord_sound (fr.mono rfl) h)
    · exact .ite (fun _ => h) (fun _ => putWord_sound (fr.mono rfl) h)
    · exact .ite (fun _ => h) (fun _ => putWord_sound (fr.mono rfl) h)
    · exact .ite (fun _ => h) (fun _ => putWord_sound (fr.mono rfl) h)
    · exact .ite (fun _ => h) (fun _ => putWord_sound (fr.mono rfl) h)
    · exact consWrite_sound (fr.mono rfl) h
    · exact putWord_sound (fr.mono rfl) h
  · split
    · exact .ite (fun _ => fbset_sound (fr.mono rfl) h) (fun _ => putWord_sound (fr.mono rfl) h)
    · exact .ite (fun _ => h) (fun _ => putWord_sound (fr.mono rfl) h)
    · exact .ite (fun _ => h) (fun _ => putWord_sound (fr.mono rfl) h)
    · exact vrDoorbell_sound (fr.mono rfl) h
    · exact putWord_sound (fr.mono rfl) h

theorem vwRegPut_sound {a : Nat} {v : Nat}
    (fr : Free K [.regs, .tables, .ledger, .views, .tiles, .acct, .net, .he, .outbox]) (h : Sound K C z s) :
    Sound K C z (vwRegPut a v s) := by
  unfold vwRegPut
  extract_lets s1
  have hs1 : Sound K C z s1 := vwPut_sound (fr.mono rfl) h
  exact .ite (fun _ => groupEnable_sound (fr.mono rfl) hs1) (fun _ => hs1)

theorem acRegPut_sound {a : Nat} {v : Nat}
    (fr : Free K [.regs, .tables, .mem, .ledger, .views, .act, .acct, .net, .em, .pa, .he, .ev, .rs, .outbox, .freeCtr])
    (h : Sound K C z s) :
    Sound K C z (acRegPut a v s) := by
  unfold acRegPut
  extract_lets s1
  have hs1 : Sound K C z s1 := acPut_sound (fr.mono rfl) h
  exact .ite (fun _ => busEnable_sound (fr.mono rfl) hs1) (fun _ => hs1)

theorem lgPut_sound {a : Nat} {v : Nat} (fr : Free K [.regs, .tables, .he, .outbox]) (h : Sound K C z s) :
    Sound K C z (lgPut a v s) := by
  unfold lgPut
  extract_lets locked
  exact .ite (fun _ => putWord_sound fr h) (fun _ => .ite (fun _ => h) (fun _ => putWord_sound fr h))

theorem regPut_sound {a : Nat} {v : Nat} {be : Nat} {rep : Nat → Option CmdCall}
    (fr : Free K [.regs, .tables, .mem, .bases, .time, .ledger, .views, .tiles, .ports, .armCtr, .tw, .act, .acct, .net,
      .lanes, .queues, .toll, .em, .pa, .he, .ab, .ev, .mb, .rs, .outbox, .freeCtr])
    (h : Sound K C z s) :
    Sound K C z (regPut a v be rep s) := by
  unfold regPut
  split
  · exact hePut_sound (fr.mono rfl) h
  · exact mbPut_sound (fr.mono rfl) h
  · exact paPut_sound (fr.mono rfl) h
  · exact .ite (fun _ => putWord_sound (fr.mono rfl) h) (fun _ => tbPut_sound (fr.mono rfl) h)
  · exact emPut_sound (fr.mono rfl) h
  · exact toPut_sound (fr.mono rfl) h
  · exact toPut_sound (fr.mono rfl) h
  · exact twPut_sound (fr.mono rfl) h
  · exact abPut_sound (fr.mono rfl) h
  · exact slPut_sound (fr.mono rfl) h
  · exact snPut_sound (fr.mono rfl) h
  · exact acRegPut_sound (fr.mono rfl) h
  · exact tlPut_sound (fr.mono rfl) h
  · exact vwRegPut_sound (fr.mono rfl) h
  · exact lgPut_sound (fr.mono rfl) h
  · exact quRegPut_sound (fr.mono rfl) h
  · exact ppPut_sound (fr.mono rfl) h
  · exact scPut_sound (fr.mono rfl) h
  · exact cxPut_sound (fr.mono rfl) h
  · exact dmPut_sound (fr.mono rfl) h
  · exact stPut_sound (fr.mono rfl) h
  · exact sgPut_sound (fr.mono rfl) h
  · exact putWord_sound (fr.mono rfl) h

theorem regWrite_sound {ag : Agent} {a : Nat} {v : Nat} {be : Nat} {r : RegRow}
    (fr : Free K [.regs, .tables, .mem, .bases, .time, .ledger, .views, .tiles, .ports, .armCtr, .tw, .act, .acct, .net,
      .lanes, .queues, .toll, .em, .pa, .he, .ab, .ev, .mb, .rs, .outbox, .freeCtr])
    (h : Sound K C z s) :
    Sound K C z (regWrite ag a v be r s) := by
  unfold regWrite
  extract_lets bm act kept cur v1 rep host v2 s1
  have hs1 : Sound K C z s1 := .ite (fun _ => h) (fun _ => noLease_sound (fr.mono rfl) h)
  exact .ite (fun _ => h) (fun _ => .ite (fun _ => regPut_sound fr h) (fun _ => .ite (fun _ => hs1) (fun _ => regPut_sound
    fr hs1)))

theorem windowWrite_sound {ag : Agent} {a : Nat} {v : Nat} {be : Nat} (fr : Free K [.regs, .tables, .he, .outbox])
    (h : Sound K C z s) :
    Sound K C z (windowWrite ag a v be s) := by
  unfold windowWrite
  extract_lets w
  exact .ite (fun _ => tableWrite_sound fr h) (fun _ => .ite (fun _ => tableWrite_sound fr h) (fun _ => tableWrite_sound
    fr h))

theorem w0Write_sound {ag : Agent} {a : Nat} {v : Nat} {be : Nat}
    (fr : Free K [.regs, .tables, .mem, .bases, .time, .ledger, .views, .tiles, .ports, .armCtr, .tw, .act, .acct, .net,
      .lanes, .queues, .toll, .em, .pa, .he, .ab, .ev, .mb, .rs, .outbox, .freeCtr])
    (h : Sound K C z s) :
    Sound K C z (w0Write ag a v be s) := by
  unfold w0Write
  refine .ite (fun _ => h) (fun _ => .ite (fun _ => windowWrite_sound (fr.mono rfl) h) (fun _ => ?_))
  split
  · exact regWrite_sound fr h
  · exact h

theorem rcClear_sound {a : Nat} {r : RegRow} (fr : Free K [.regs, .mem]) (h : Sound K C z s) :
    Sound K C z (rcClear a r s) := by
  unfold rcClear
  refine .ite (fun _ => h) (fun _ => ?_)
  extract_lets s1 src
  have hs1 : Sound K C z s1 := wrn_sound (fr.mono rfl) h
  exact .ite (fun _ => .setMem (fr.mono rfl) hs1) (fun _ => hs1)

theorem regRead_sound {a : Nat} {r : RegRow} {bad : Bool}
    (fr : Free K [.regs, .mem, .time, .ports, .net, .queues, .pa, .he, .mb, .outbox, .freeCtr]) (h : Sound K C z s) :
    Sound K C z (regRead a r bad s).1 := by
  unfold regRead
  exact .ite1 (fun _ => tbLatch_sound (fr.mono rfl) h) (fun _ => .ite1 (fun _ => rtagRead_sound (fr.mono rfl) h) (fun _ =>
    .ite1 (fun _ => h) (fun _ => .ite1 (fun _ => useFree_sound (fr.mono rfl) h) (fun _ => .ite1 (fun _ => eyeRise_sound
    (fr.mono rfl) h) (fun _ => rcClear_sound (fr.mono rfl) h)))))

theorem w0Read_sound {a : Nat} {bad : Bool}
    (fr : Free K [.regs, .mem, .time, .ports, .net, .queues, .pa, .he, .mb, .outbox, .freeCtr]) (h : Sound K C z s) :
    Sound K C z (w0Read a bad s).1 := by
  unfold w0Read
  refine .ite1 (fun _ => h) (fun _ => .ite1 (fun _ => h) (fun _ => ?_))
  split
  · exact regRead_sound fr h
  · exact h

theorem w0Reads_sound {bad : Bool} {l : List (Nat × Bool)}
    (fr : Free K [.regs, .mem, .time, .ports, .net, .queues, .pa, .he, .mb, .outbox, .freeCtr]) (h : Sound K C z s) :
    Sound K C z (w0Reads bad l s).1 := by
  induction l generalizing s with
  | nil => exact h
  | cons x l ih => exact ih (.ite1 (fun _ => w0Read_sound fr h) (fun _ => h))

theorem w1Read_sound {tag : Nat} {off : Nat} {len : Nat} {check : ReadCheck}
    (fr : Free K [.regs, .mem, .net, .toll, .pa, .he, .outbox]) (h : Sound K C z s) :
    Sound K C z (w1Read tag off len check s) := by
  unfold w1Read
  exact .ite (fun _ => emit_sound (fr.mono rfl) (evtCnt_sound (fr.mono rfl) h)) (fun _ => w1Drain_sound fr (setW1_sound
    (fr.mono rfl) h))

theorem w1Write_sound {off : Nat} {l : List (Bool × Byte)} (fr : Free K [.regs, .mem, .net, .toll, .pa, .he, .outbox])
    (h : Sound K C z s) :
    Sound K C z (w1Write off l s) := by
  unfold w1Write
  extract_lets bs
  exact .ite (fun _ => evtCnt_sound (fr.mono rfl) h) (fun _ => .ite (fun _ => evtCnt_sound (fr.mono rfl) h) (fun _ =>
    w1Drain_sound fr (setW1_sound (fr.mono rfl) h)))

theorem windowRead_sound {w : HostWindow} {off : Nat} {n : Nat} {lead : Nat} {len : Nat} {en : List Bool} {tag : Nat}
    {check : ReadCheck}
    (fr : Free K [.regs, .mem, .time, .ledger, .views, .ports, .act, .acct, .net, .queues, .toll, .em, .pa, .he, .ab, .ev,
      .mb, .rs, .outbox, .freeCtr])
    (h : Sound K C z s) :
    Sound K C z (windowRead w off n lead len en tag check s) := by
  unfold windowRead
  refine .ite (fun _ => emit_sound (fr.mono rfl) (useFree_sound (fr.mono rfl) h)) (fun _ => ?_)
  split
  · extract_lets r
    have hr : Sound K C z r.1 := w0Reads_sound (fr.mono rfl) h
    exact emit_sound (fr.mono rfl) hr
  · exact w1Read_sound (fr.mono rfl) h
  · exact abAccess_sound (fr.mono rfl) h
  · extract_lets ready
    exact emit_sound (fr.mono rfl) h
  · exact h

theorem windowPost_sound {w : HostWindow} {off : Nat} {n : Nat} {en : List Bool} {data : List Byte}
    (fr : Free K [.regs, .tables, .mem, .bases, .time, .ledger, .views, .tiles, .ports, .armCtr, .tw, .act, .acct, .net,
      .lanes, .queues, .toll, .em, .pa, .he, .ab, .ev, .mb, .rs, .outbox, .freeCtr])
    (h : Sound K C z s) :
    Sound K C z (windowPost w off n en data s) := by
  unfold windowPost
  extract_lets l
  split
  · refine forEach_sound h (fun j t ht => ?_)
    extract_lets e
    exact w0Write_sound fr ht
  · exact .ite (fun _ => w1Write_sound (fr.mono rfl) h) (fun _ => h)
  · exact forEach_sound h (fun _ _ ht1 => abPost_sound (fr.mono rfl) ht1)
  · exact h

theorem windowAtomic_sound {w : HostWindow} {op : Nat} {off : Nat} {n : Nat} {data : List Byte} {tag : Nat}
    (fr : Free K [.regs, .mem, .ledger, .views, .act, .acct, .net, .em, .pa, .he, .ab, .ev, .rs, .outbox, .freeCtr])
    (h : Sound K C z s) :
    Sound K C z (windowAtomic w op off n data tag s) := by
  unfold windowAtomic
  extract_lets size
  exact .ite (fun _ => sendUr_sound (fr.mono rfl) h) (fun _ => abAccess_sound fr h)

theorem refuseRequest_sound {posted : Bool} {tag : Nat} (fr : Free K [.regs, .net, .pa, .he, .outbox, .freeCtr])
    (h : Sound K C z s) :
    Sound K C z (refuseRequest posted tag s) := by
  unfold refuseRequest
  exact .ite (fun _ => sendUr_sound fr h) (fun _ => .ite (fun _ => h) (fun _ => aerUncorr_sound fr h))

theorem dennilAccess_sound {op : MemOp} {off : Nat} {en : List Bool} {data : List Byte}
    (fr : Free K [.regs, .mem, .ledger, .views, .act, .acct, .net, .em, .pa, .he, .ab, .ev, .rs, .outbox, .freeCtr])
    (h : Sound K C z s) :
    Sound K C z (dennilAccess op off en data s) := by
  unfold dennilAccess
  extract_lets span
  split
  · exact .ite (fun _ => h) (fun _ => abAccess_sound fr h)
  · exact forEach_sound h (fun _ _ ht => abAccess_sound fr ht)
  · exact h

theorem memoryRequest_sound {w : HostWindow} {op : MemOp} {off : Nat} {n : Nat} {first : Nat} {last : Nat}
    {data : List Byte} {tag : Nat} {poisoned : Bool} {check : ReadCheck}
    (fr : Free K [.regs, .tables, .mem, .bases, .time, .ledger, .views, .tiles, .ports, .armCtr, .tw, .act, .acct, .net,
      .lanes, .queues, .toll, .em, .pa, .he, .ab, .ev, .mb, .rs, .outbox, .freeCtr])
    (h : Sound K C z s) :
    Sound K C z (memoryRequest w op off n first last data tag poisoned check s) := by
  unfold memoryRequest
  extract_lets en span
  refine .ite (fun _ => dennilAccess_sound (fr.mono rfl) h) (fun _ => .ite (fun _ => h) (fun _ => .ite (fun _ =>
    refuseRequest_sound (fr.mono rfl) h) (fun _ => ?_)))
  split
  · exact windowRead_sound (fr.mono rfl) h
  · exact .ite (fun _ => aerAdvisory_sound (fr.mono rfl) (cfgSet_sound (fr.mono rfl) (cnt_sound (fr.mono rfl) h))) (fun _
      => windowPost_sound fr h)
  · exact .ite (fun _ => sendUr_sound (fr.mono rfl) h) (fun _ => windowAtomic_sound (fr.mono rfl) h)
  · exact .ite (fun _ => sendUr_sound (fr.mono rfl) h) (fun _ => windowAtomic_sound (fr.mono rfl) h)
  · exact .ite (fun _ => sendUr_sound (fr.mono rfl) h) (fun _ => windowAtomic_sound (fr.mono rfl) h)

theorem commandPut_sound {v : Nat}
    (fr : Free K [.regs, .tables, .mem, .tiles, .ports, .net, .toll, .he, .ab, .ev, .mb, .outbox, .freeCtr])
    (h : Sound K C z s) :
    Sound K C z (commandPut v s) := by
  unfold commandPut
  extract_lets was s1
  have hs1 : Sound K C z s1 := cfgWr_sound (fr.mono rfl) h
  exact intxEval_sound (fr.mono rfl) (.ite (fun _ => bmeSet_sound (fr.mono rfl) hs1) (fun _ => bmeClear_sound (fr.mono
    rfl) hs1))

theorem powerPut_sound {v : Nat}
    (fr : Free K [.regs, .tables, .mem, .tiles, .ports, .net, .toll, .he, .ab, .ev, .mb, .outbox, .freeCtr])
    (h : Sound K C z s) :
    Sound K C z (powerPut v s) := by
  unfold powerPut
  exact .ite (fun _ => d3Enter_sound (fr.mono rfl) h) (fun _ => .ite (fun _ => dmaResume_sound (fr.mono rfl) (fbset_sound
    (fr.mono rfl) (cfgWr_sound (fr.mono rfl) h))) (fun _ => h))

theorem barSizePut_sound {v : Nat} (fr : Free K [.he]) (h : Sound K C z s) :
    Sound K C z (barSizePut v s) := by
  unfold barSizePut
  extract_lets k s1 s2
  have hs1 : Sound K C z s1 := cfgWr_sound fr h
  have hs2 : Sound K C z s2 := cfgWr_sound fr hs1
  exact .ite (fun _ => h) (fun _ => cfgWr_sound fr hs2)

theorem marginCommand_sound {lane : Nat} {control : Nat} {errors : Nat} (fr : Free K [.he]) (h : Sound K C z s) :
    Sound K C z (marginCommand lane control errors s) := by
  unfold marginCommand
  extract_lets type payload rx o s1 src s2
  have hs1 : Sound K C z s1 := cfgWr_sound fr h
  have hs2 : Sound K C z s2 := .ite (fun _ => .setHe fr hs1) (fun _ => hs1)
  refine .ite (fun _ => h) (fun _ => .ite (fun _ => hs1) (fun _ => ?_))
  split
  · exact cfgWr_sound fr hs2
  · exact hs2

theorem cfgWrite_sound {o : Nat} {v : Nat} {be : Nat}
    (fr : Free K [.regs, .tables, .mem, .tiles, .ports, .net, .toll, .he, .ab, .ev, .mb, .outbox, .freeCtr])
    (h : Sound K C z s) :
    Sound K C z (cfgWrite o v be s) := by
  unfold cfgWrite
  extract_lets bm rw w c new s1
  have hs1 : Sound K C z s1 := poolSwitch_sound (fr.mono rfl) (cfgWr_sound (fr.mono rfl) h)
  split
  · exact commandPut_sound fr h
  · exact .ite (fun _ => powerPut_sound fr h) (fun _ => h)
  · exact .ite (fun _ => flrStart_sound (fr.mono rfl) hs1) (fun _ => hs1)
  · exact poolSwitch_sound (fr.mono rfl) (wrn_sound (fr.mono rfl) (cfgWr_sound (fr.mono rfl) h))
  · exact irqAll_sound (fr.mono rfl) (cfgWr_sound (fr.mono rfl) h)
  · exact .ite (fun _ => barSizePut_sound (fr.mono rfl) h) (fun _ => h)
  · exact .ite (fun _ => marginCommand_sound (fr.mono rfl) (useFree_sound (fr.mono rfl) (cfgWr_sound (fr.mono rfl) h)))
      (fun _ => cfgWr_sound (fr.mono rfl) h)

theorem configRequest_sound {type1 : Bool} {write : Bool} {o : Nat} {be : Nat} {v : Nat} {tag : Nat}
    (fr : Free K [.regs, .tables, .mem, .tiles, .ports, .net, .toll, .pa, .he, .ab, .ev, .mb, .outbox, .freeCtr])
    (h : Sound K C z s) :
    Sound K C z (configRequest type1 write o be v tag s) := by
  unfold configRequest
  exact .ite (fun _ => h) (fun _ => .ite (fun _ => sendUr_sound (fr.mono rfl) h) (fun _ => .ite (fun _ => emit_sound
    (fr.mono rfl) h) (fun _ => .ite (fun _ => emit_sound (fr.mono rfl) (cfgWrite_sound (fr.mono rfl) h)) (fun _ =>
    emit_sound (fr.mono rfl) h))))

theorem execRegisterWrite_sound {ag : Agent} {addr : BitVec 24} {value : Word} {be : BitVec 4}
    (fr : Free K [.regs, .tables, .mem, .bases, .time, .ledger, .views, .tiles, .ports, .armCtr, .tw, .act, .acct, .net,
      .lanes, .queues, .toll, .em, .pa, .he, .ab, .ev, .mb, .rs, .outbox, .freeCtr])
    (h : Sound K C z s) :
    SoundOut K C z (execRegisterWrite ag addr value be s) := by
  unfold execRegisterWrite
  exact .next (w0Write_sound fr h)

theorem execConfigRequest_sound {type1 : Bool} {write : Bool} {dw : BitVec 10} {be : BitVec 4} {data : Word}
    {tag : BitVec 10}
    (fr : Free K [.regs, .tables, .mem, .tiles, .ports, .net, .toll, .pa, .he, .ab, .ev, .mb, .outbox, .freeCtr])
    (h : Sound K C z s) :
    SoundOut K C z (execConfigRequest type1 write dw be data tag s) := by
  unfold execConfigRequest
  exact .next (configRequest_sound fr h)

theorem execMemoryRequest_sound {win : HostWindow} {op : MemOp} {dw : BitVec 34} {count : BitVec 10} {first : BitVec 4}
    {last : BitVec 4} {data : List Byte} {tag : BitVec 10} {poisoned : Bool} {check : ReadCheck}
    (fr : Free K [.regs, .tables, .mem, .bases, .time, .ledger, .views, .tiles, .ports, .armCtr, .tw, .act, .acct, .net,
      .lanes, .queues, .toll, .em, .pa, .he, .ab, .ev, .mb, .rs, .outbox, .freeCtr])
    (h : Sound K C z s) :
    SoundOut K C z (execMemoryRequest win op dw count first last data tag poisoned check s) := by
  unfold execMemoryRequest
  exact .next (memoryRequest_sound fr h)

theorem execVectorEoi_sound {vector : BitVec 11} (fr : Free K [.regs, .outbox]) (h : Sound K C z s) :
    SoundOut K C z (execVectorEoi vector s) := by
  unfold execVectorEoi
  exact .next (vectorEoi_sound fr h)

theorem execLaneMarginCommand_sound {lane : Fin 16} {control : BitVec 16} {errors : BitVec 6} (fr : Free K [.he])
    (h : Sound K C z s) :
    SoundOut K C z (execLaneMarginCommand lane control errors s) := by
  unfold execLaneMarginCommand
  exact .next (marginCommand_sound fr h)

end Sys2Proof.Machine
end

section
/-! The frame of every command, and the obligations that follow from it. -/

namespace Sys2Proof.Machine

set_option Elab.async false

variable {K : Comp → Prop} {C : Prop} {z s t : State}

/-- What every command leaves unchanged: it answers a next state that keeps every component outside `touches` and the
canonical form of the memories. -/
theorem exec_sound {i : Instr} (fr : Free K (touches i)) (h : Sound K C z s) : SoundOut K C z (exec i s) := by
  cases i with
  | registerWrite _ _ _ _ => exact execRegisterWrite_sound (fr.mono rfl) h
  | powerOnReset => exact execPowerOnReset_sound (fr.mono rfl) h
  | powerOnResetRelease _ => exact execPowerOnResetRelease_sound (fr.mono rfl) h
  | firmwareStartTimeout _ => exact execFirmwareStartTimeout_sound (fr.mono rfl) h
  | dennilRunning => exact execDennilRunning_sound (fr.mono rfl) h
  | fullServiceEntry _ => exact execFullServiceEntry_sound (fr.mono rfl) h
  | aonBrownout => exact execAonBrownout_sound (fr.mono rfl) h
  | unitReset _ => exact execUnitReset_sound (fr.mono rfl) h
  | stewardRestart _ => exact execStewardRestart_sound (fr.mono rfl) h
  | sleep _ => exact execSleep_sound (fr.mono rfl) h
  | wake => exact execWake_sound (fr.mono rfl) h
  | bootInfo _ => exact execBootInfo_sound (fr.mono rfl) h
  | portEnable _ _ _ => exact execPortEnable_sound (fr.mono rfl) h
  | portDisable _ _ => exact execPortDisable_sound (fr.mono rfl) h
  | csi2PacketReceive _ _ _ _ _ _ _ _ => exact execCsi2PacketReceive_sound (fr.mono rfl) h
  | pipelineOutputPlace _ => exact execPipelineOutputPlace_sound (fr.mono rfl) h
  | frameStart _ _ _ _ _ => exact execFrameStart_sound (fr.mono rfl) h
  | frameEnd _ => exact execFrameEnd_sound (fr.mono rfl) h
  | frameTimeout _ => exact execFrameTimeout_sound (fr.mono rfl) h
  | presenceAssert _ => exact execPresenceAssert_sound (fr.mono rfl) h
  | presenceLost _ => exact execPresenceLost_sound (fr.mono rfl) h
  | powerFault _ _ => exact execPowerFault_sound (fr.mono rfl) h
  | slotPowerWrite _ _ _ => exact execSlotPowerWrite_sound (fr.mono rfl) h
  | powerSettle _ => exact execPowerSettle_sound (fr.mono rfl) h
  | slotCapCommit _ _ _ => exact execSlotCapCommit_sound (fr.mono rfl) h
  | attentionButton _ => exact execAttentionButton_sound (fr.mono rfl) h
  | orderlyStop _ => exact execOrderlyStop_sound (fr.mono rfl) h
  | hotInsertProfileLoad _ _ _ => exact execHotInsertProfileLoad_sound (fr.mono rfl) h
  | linkTimeout _ => exact execLinkTimeout_sound (fr.mono rfl) h
  | sclkDivisorWrite _ _ _ => exact execSclkDivisorWrite_sound (fr.mono rfl) h
  | slotArm _ _ _ => exact execSlotArm_sound (fr.mono rfl) h
  | slotCancel _ _ _ => exact execSlotCancel_sound (fr.mono rfl) h
  | slotSendStart _ => exact execSlotSendStart_sound (fr.mono rfl) h
  | settingWriteDone _ _ => exact execSettingWriteDone_sound (fr.mono rfl) h
  | settingWriteFail _ _ => exact execSettingWriteFail_sound (fr.mono rfl) h
  | embeddedDataCheck _ _ _ => exact execEmbeddedDataCheck_sound (fr.mono rfl) h
  | settingForFrame _ => exact execSettingForFrame_sound (fr.mono rfl) h
  | settingCancel _ => exact execSettingCancel_sound (fr.mono rfl) h
  | settingRawForFrame _ => exact execSettingRawForFrame_sound (fr.mono rfl) h
  | latencyProfileSet _ => exact execLatencyProfileSet_sound (fr.mono rfl) h
  | cxBankSwapRequest _ _ _ => exact execCxBankSwapRequest_sound (fr.mono rfl) h
  | cxBankCancel _ _ _ => exact execCxBankCancel_sound (fr.mono rfl) h
  | tableWindowWrite _ _ _ _ => exact execTableWindowWrite_sound (fr.mono rfl) h
  | corrLoadCal _ => exact execCorrLoadCal_sound (fr.mono rfl) h
  | corrSetMode _ => exact execCorrSetMode_sound (fr.mono rfl) h
  | corrTableLoad _ => exact execCorrTableLoad_sound (fr.mono rfl) h
  | corrBankSwap _ => exact execCorrBankSwap_sound (fr.mono rfl) h
  | corrParams _ => exact execCorrParams_sound (fr.mono rfl) h
  | dmCommit _ _ _ => exact execDmCommit_sound (fr.mono rfl) h
  | tapEnable _ _ _ _ => exact execTapEnable_sound (fr.mono rfl) h
  | tapFrameComplete _ _ => exact execTapFrameComplete_sound (fr.mono rfl) h
  | tapStart _ => exact execTapStart_sound (fr.mono rfl) h
  | tapStop _ => exact execTapStop_sound (fr.mono rfl) h
  | colourLoadCal _ => exact execColourLoadCal_sound (fr.mono rfl) h
  | colourParams _ => exact execColourParams_sound (fr.mono rfl) h
  | statRingWrite _ _ => exact execStatRingWrite_sound (fr.mono rfl) h
  | statCommit _ _ _ => exact execStatCommit_sound (fr.mono rfl) h
  | statStart _ => exact execStatStart_sound (fr.mono rfl) h
  | statStop _ => exact execStatStop_sound (fr.mono rfl) h
  | statParams _ => exact execStatParams_sound (fr.mono rfl) h
  | objectSeen _ => exact execObjectSeen_sound (fr.mono rfl) h
  | sgCommit _ _ _ => exact execSgCommit_sound (fr.mono rfl) h
  | sgBankSwapRequest _ _ _ => exact execSgBankSwapRequest_sound (fr.mono rfl) h
  | sgBankCancel _ _ _ => exact execSgBankCancel_sound (fr.mono rfl) h
  | segLearnBg _ => exact execSegLearnBg_sound (fr.mono rfl) h
  | segLoadProfile _ => exact execSegLoadProfile_sound (fr.mono rfl) h
  | segParams _ => exact execSegParams_sound (fr.mono rfl) h
  | segTableLoad _ => exact execSegTableLoad_sound (fr.mono rfl) h
  | orphanTimeout _ => exact execOrphanTimeout_sound (fr.mono rfl) h
  | verdictDeadline _ => exact execVerdictDeadline_sound (fr.mono rfl) h
  | entryRetire _ => exact execEntryRetire_sound (fr.mono rfl) h
  | setCloseTime _ => exact execSetCloseTime_sound (fr.mono rfl) h
  | groupDisable _ _ => exact execGroupDisable_sound (fr.mono rfl) h
  | mateCandReceive _ _ => exact execMateCandReceive_sound (fr.mono rfl) h
  | mateSetReceive _ _ => exact execMateSetReceive_sound (fr.mono rfl) h
  | mateOutcomeReceive src _ => exact execMateOutcomeReceive_sound (_src := src) (fr.mono rfl) h
  | mateVerdictReceive src _ => exact execMateVerdictReceive_sound (_src := src) (fr.mono rfl) h
  | mateWithdrawReceive src _ => exact execMateWithdrawReceive_sound (_src := src) (fr.mono rfl) h
  | remoteWaitExpiry _ => exact execRemoteWaitExpiry_sound (fr.mono rfl) h
  | viewLoadCal _ => exact execViewLoadCal_sound (fr.mono rfl) h
  | viewCalRun _ => exact execViewCalRun_sound (fr.mono rfl) h
  | viewCalRunEnd => exact execViewCalRunEnd_sound (fr.mono rfl) h
  | viewParams _ => exact execViewParams_sound (fr.mono rfl) h
  | viewTableLoad _ => exact execViewTableLoad_sound (fr.mono rfl) h
  | tileCropStart _ _ _ => exact execTileCropStart_sound (fr.mono rfl) h
  | tilePacketReceive _ _ _ _ _ => exact execTilePacketReceive_sound (fr.mono rfl) h
  | tileDescriptorWrite _ _ => exact execTileDescriptorWrite_sound (fr.mono rfl) h
  | tileDoneReceive _ _ => exact execTileDoneReceive_sound (fr.mono rfl) h
  | tileAckTimeout _ => exact execTileAckTimeout_sound (fr.mono rfl) h
  | tileIncompleteTimeout _ _ => exact execTileIncompleteTimeout_sound (fr.mono rfl) h
  | tileRingConsWrite _ _ => exact execTileRingConsWrite_sound (fr.mono rfl) h
  | verdictDoorbell _ _ => exact execVerdictDoorbell_sound (fr.mono rfl) h
  | verdictFetch => exact execVerdictFetch_sound (fr.mono rfl) h
  | verdictFetchComplete _ _ => exact execVerdictFetchComplete_sound (fr.mono rfl) h
  | actVerdictReceive src _ => exact execActVerdictReceive_sound (_src := src) (fr.mono rfl) h
  | actOrderReceive _ _ => exact execActOrderReceive_sound (fr.mono rfl) h
  | actResultReceive _ _ => exact execActResultReceive_sound (fr.mono rfl) h
  | actCancelReceive _ _ => exact execActCancelReceive_sound (fr.mono rfl) h
  | remoteLaunch _ => exact execRemoteLaunch_sound (fr.mono rfl) h
  | frameAssemble _ => exact execFrameAssemble_sound (fr.mono rfl) h
  | valveFrameStart _ => exact execValveFrameStart_sound (fr.mono rfl) h
  | valveFrameEnd _ => exact execValveFrameEnd_sound (fr.mono rfl) h
  | safeFrameRepeat => exact execSafeFrameRepeat_sound (fr.mono rfl) h
  | idleSafeFrame _ => exact execIdleSafeFrame_sound (fr.mono rfl) h
  | busEnableWrite _ _ _ => exact execBusEnableWrite_sound (fr.mono rfl) h
  | boardPoll _ _ => exact execBoardPoll_sound (fr.mono rfl) h
  | statusFrameReceive _ _ => exact execStatusFrameReceive_sound (fr.mono rfl) h
  | pollNoAnswer _ => exact execPollNoAnswer_sound (fr.mono rfl) h
  | ejectLoadCal _ => exact execEjectLoadCal_sound (fr.mono rfl) h
  | ejectCalRun _ => exact execEjectCalRun_sound (fr.mono rfl) h
  | ejectCalRunEnd => exact execEjectCalRunEnd_sound (fr.mono rfl) h
  | ejectTest _ => exact execEjectTest_sound (fr.mono rfl) h
  | tbNsRead _ _ => exact execTbNsRead_sound (fr.mono rfl) h
  | tbSnap => exact execTbSnap_sound (fr.mono rfl) h
  | tbSourceWrite _ _ _ => exact execTbSourceWrite_sound (fr.mono rfl) h
  | tb1Measure => exact execTb1Measure_sound (fr.mono rfl) h
  | tbHoldoverEntry _ => exact execTbHoldoverEntry_sound (fr.mono rfl) h
  | tbStep _ _ => exact execTbStep_sound (fr.mono rfl) h
  | tbAlign _ => exact execTbAlign_sound (fr.mono rfl) h
  | tbClearIntegrator _ _ => exact execTbClearIntegrator_sound (fr.mono rfl) h
  | syncSend _ => exact execSyncSend_sound (fr.mono rfl) h
  | syncReceive _ _ _ _ => exact execSyncReceive_sound (fr.mono rfl) h
  | dreqReceive _ _ _ => exact execDreqReceive_sound (fr.mono rfl) h
  | drespReceive _ _ => exact execDrespReceive_sound (fr.mono rfl) h
  | drespMiss => exact execDrespMiss_sound (fr.mono rfl) h
  | ptmDialogue => exact execPtmDialogue_sound (fr.mono rfl) h
  | ptmResponse _ => exact execPtmResponse_sound (fr.mono rfl) h
  | ppsEdge _ => exact execPpsEdge_sound (fr.mono rfl) h
  | ppsMiss => exact execPpsMiss_sound (fr.mono rfl) h
  | alarmFire _ => exact execAlarmFire_sound (fr.mono rfl) h
  | timeLoadProfile _ => exact execTimeLoadProfile_sound (fr.mono rfl) h
  | timeAlign _ => exact execTimeAlign_sound (fr.mono rfl) h
  | timeStep _ => exact execTimeStep_sound (fr.mono rfl) h
  | spanPortEnable _ _ _ _ => exact execSpanPortEnable_sound (fr.mono rfl) h
  | spanDetect _ _ => exact execSpanDetect_sound (fr.mono rfl) h
  | spanBitLock _ _ _ => exact execSpanBitLock_sound (fr.mono rfl) h
  | spanLockDone _ _ _ => exact execSpanLockDone_sound (fr.mono rfl) h
  | spanExchangeDone _ _ _ => exact execSpanExchangeDone_sound (fr.mono rfl) h
  | spanStateTimeout _ _ => exact execSpanStateTimeout_sound (fr.mono rfl) h
  | spanLaneFail _ _ _ _ _ _ => exact execSpanLaneFail_sound (fr.mono rfl) h
  | spanLinkDown _ _ => exact execSpanLinkDown_sound (fr.mono rfl) h
  | spanTsReceived _ _ => exact execSpanTsReceived_sound (fr.mono rfl) h
  | spanRetrain _ _ _ _ => exact execSpanRetrain_sound (fr.mono rfl) h
  | skipSend _ => exact execSkipSend_sound (fr.mono rfl) h
  | skipReceive _ _ _ _ _ => exact execSkipReceive_sound (fr.mono rfl) h
  | creditAuditSend _ => exact execCreditAuditSend_sound (fr.mono rfl) h
  | creditAuditReceive _ _ => exact execCreditAuditReceive_sound (fr.mono rfl) h
  | eyeScanStart _ _ _ => exact execEyeScanStart_sound (fr.mono rfl) h
  | eyeScanDone _ _ => exact execEyeScanDone_sound (fr.mono rfl) h
  | spanLinkRetrain _ => exact execSpanLinkRetrain_sound (fr.mono rfl) h
  | spanEyeScan _ => exact execSpanEyeScan_sound (fr.mono rfl) h
  | spanLaneParams _ => exact execSpanLaneParams_sound (fr.mono rfl) h
  | spanPacketForward _ _ _ _ _ _ _ => exact execSpanPacketForward_sound (fr.mono rfl) h
  | spanPacketSend _ => exact execSpanPacketSend_sound (fr.mono rfl) h
  | helloReceive _ _ => exact execHelloReceive_sound (fr.mono rfl) h
  | creditReceive _ _ => exact execCreditReceive_sound (fr.mono rfl) h
  | creditReturn _ => exact execCreditReturn_sound (fr.mono rfl) h
  | enumReceive _ _ => exact execEnumReceive_sound (fr.mono rfl) h
  | enumEndReceive _ => exact execEnumEndReceive_sound (fr.mono rfl) h
  | enumTimeout => exact execEnumTimeout_sound (fr.mono rfl) h
  | reportReceive _ _ _ => exact execReportReceive_sound (fr.mono rfl) h
  | chainReceive _ => exact execChainReceive_sound (fr.mono rfl) h
  | pierReqReceive _ _ => exact execPierReqReceive_sound (fr.mono rfl) h
  | assignReceive _ => exact execAssignReceive_sound (fr.mono rfl) h
  | renumReceive _ => exact execRenumReceive_sound (fr.mono rfl) h
  | dennilMessageReceive _ _ => exact execDennilMessageReceive_sound (fr.mono rfl) h
  | bulkPacketReceive _ _ => exact execBulkPacketReceive_sound (fr.mono rfl) h
  | spanChainRead _ => exact execSpanChainRead_sound (fr.mono rfl) h
  | spanReenumerate _ => exact execSpanReenumerate_sound (fr.mono rfl) h
  | spanSetHost _ => exact execSpanSetHost_sound (fr.mono rfl) h
  | spanCreditParams _ => exact execSpanCreditParams_sound (fr.mono rfl) h
  | hostLinkUp _ _ => exact execHostLinkUp_sound (fr.mono rfl) h
  | configRequest _ _ _ _ _ _ => exact execConfigRequest_sound (fr.mono rfl) h
  | memoryRequest _ _ _ _ _ _ _ _ _ _ => exact execMemoryRequest_sound (fr.mono rfl) h
  | busMasterEnableClear => exact execBusMasterEnableClear_sound (fr.mono rfl) h
  | busMasterEnableSet => exact execBusMasterEnableSet_sound (fr.mono rfl) h
  | d3hotEntry => exact execD3hotEntry_sound (fr.mono rfl) h
  | functionLevelReset => exact execFunctionLevelReset_sound (fr.mono rfl) h
  | flrDmaSilence => exact execFlrDmaSilence_sound (fr.mono rfl) h
  | flrComplete => exact execFlrComplete_sound (fr.mono rfl) h
  | linkReset _ => exact execLinkReset_sound (fr.mono rfl) h
  | completionTimeout _ => exact execCompletionTimeout_sound (fr.mono rfl) h
  | completionReceive _ _ _ => exact execCompletionReceive_sound (fr.mono rfl) h
  | tagQuarantineEnd _ => exact execTagQuarantineEnd_sound (fr.mono rfl) h
  | tagPoolSwitch => exact execTagPoolSwitch_sound (fr.mono rfl) h
  | vectorEoi _ => exact execVectorEoi_sound (fr.mono rfl) h
  | laneMarginCommand _ _ _ => exact execLaneMarginCommand_sound (fr.mono rfl) h
  | descriptorImageRefresh => exact execDescriptorImageRefresh_sound (fr.mono rfl) h
  | channelOpenRequest _ => exact execChannelOpenRequest_sound (fr.mono rfl) h
  | channelOpen _ => exact execChannelOpen_sound (fr.mono rfl) h
  | mbClose _ => exact execMbClose_sound (fr.mono rfl) h
  | commandDoorbell _ _ => exact execCommandDoorbell_sound (fr.mono rfl) h
  | commandTake _ _ _ _ => exact execCommandTake_sound (fr.mono rfl) h
  | completionWrite _ => exact execCompletionWrite_sound (fr.mono rfl) h
  | eventDeliver _ => exact execEventDeliver_sound (fr.mono rfl) h
  | deferredComplete _ _ _ _ => exact execDeferredComplete_sound (fr.mono rfl) h
  | leaseExpiry _ => exact execLeaseExpiry_sound (fr.mono rfl) h
  | sensorProfileLoad _ => exact execSensorProfileLoad_sound (fr.mono rfl) h
  | portStop _ => exact execPortStop_sound (fr.mono rfl) h
  | portPower _ => exact execPortPower_sound (fr.mono rfl) h
  | info _ => exact execInfo_sound (fr.mono rfl) h
  | channelClose _ => exact execChannelClose_sound (fr.mono rfl) h
  | expertTokenSet _ => exact execExpertTokenSet_sound (fr.mono rfl) h
  | fwWrite _ => exact execFwWrite_sound (fr.mono rfl) h
  | fwActivate _ => exact execFwActivate_sound (fr.mono rfl) h
  | cmdAbort _ => exact execCmdAbort_sound (fr.mono rfl) h
  | eventMask _ => exact execEventMask_sound (fr.mono rfl) h
  | leaseOpen _ => exact execLeaseOpen_sound (fr.mono rfl) h
  | leaseClose _ => exact execLeaseClose_sound (fr.mono rfl) h
  | leaseRenew _ => exact execLeaseRenew_sound (fr.mono rfl) h
  | cwVersion => exact execCwVersion_sound (fr.mono rfl) h
  | cwStatus => exact execCwStatus_sound (fr.mono rfl) h
  | fwLoad _ _ _ => exact execFwLoad_sound (fr.mono rfl) h
  | capture => exact execCapture_sound (fr.mono rfl) h
  | twCommandGo _ _ _ => exact execTwCommandGo_sound (fr.mono rfl) h
  | twTransactionStart _ => exact execTwTransactionStart_sound (fr.mono rfl) h
  | twTransactionEnd _ _ _ _ _ _ _ => exact execTwTransactionEnd_sound (fr.mono rfl) h
  | twTargetCommit _ _ _ _ _ => exact execTwTargetCommit_sound (fr.mono rfl) h
  | twTargetRead _ _ _ _ _ => exact execTwTargetRead_sound (fr.mono rfl) h
  | twSclTimeout _ _ => exact execTwSclTimeout_sound (fr.mono rfl) h
  | twSdaTimeout _ _ => exact execTwSdaTimeout_sound (fr.mono rfl) h
  | twAlertRequest _ _ _ => exact execTwAlertRequest_sound (fr.mono rfl) h
  | twAlertInEdge _ _ => exact execTwAlertInEdge_sound (fr.mono rfl) h
  | twWakeMatch _ _ => exact execTwWakeMatch_sound (fr.mono rfl) h
  | twLoadProfile _ => exact execTwLoadProfile_sound (fr.mono rfl) h
  | twTgtResp _ => exact execTwTgtResp_sound (fr.mono rfl) h
  | twXfer _ => exact execTwXfer_sound (fr.mono rfl) h
  | lbGrant _ _ => exact execLbGrant_sound (fr.mono rfl) h
  | lbOutboundBeat => exact execLbOutboundBeat_sound (fr.mono rfl) h
  | lbTransactionEnd _ _ => exact execLbTransactionEnd_sound (fr.mono rfl) h
  | lbNorespTimeout => exact execLbNorespTimeout_sound (fr.mono rfl) h
  | lockedSequence _ => exact execLockedSequence_sound (fr.mono rfl) h
  | lbInboundWrite _ _ _ _ => exact execLbInboundWrite_sound (fr.mono rfl) h
  | lbInboundRead _ _ _ => exact execLbInboundRead_sound (fr.mono rfl) h
  | delayedReadComplete _ _ _ => exact execDelayedReadComplete_sound (fr.mono rfl) h
  | delayedReadDiscard _ => exact execDelayedReadDiscard_sound (fr.mono rfl) h
  | abLogInfoRead _ _ => exact execAbLogInfoRead_sound (fr.mono rfl) h
  | sidebandSample _ => exact execSidebandSample_sound (fr.mono rfl) h
  | abLoadProfile _ => exact execAbLoadProfile_sound (fr.mono rfl) h
  | abParams _ => exact execAbParams_sound (fr.mono rfl) h
  | codewordRead _ _ _ _ _ _ _ => exact execCodewordRead_sound (fr.mono rfl) h
  | nandProgramDone _ _ _ _ => exact execNandProgramDone_sound (fr.mono rfl) h
  | nandEraseDone _ _ _ => exact execNandEraseDone_sound (fr.mono rfl) h
  | patrolPass _ => exact execPatrolPass_sound (fr.mono rfl) h
  | blockRefresh _ _ _ => exact execBlockRefresh_sound (fr.mono rfl) h
  | calCompaction => exact execCalCompaction_sound (fr.mono rfl) h
  | eraseCreditAccrue => exact execEraseCreditAccrue_sound (fr.mono rfl) h
  | evidenceWrite _ _ _ _ => exact execEvidenceWrite_sound (fr.mono rfl) h
  | logPeriodic => exact execLogPeriodic_sound (fr.mono rfl) h
  | faultRecord => exact execFaultRecord_sound (fr.mono rfl) h
  | evidRead _ => exact execEvidRead_sound (fr.mono rfl) h
  | logRead _ => exact execLogRead_sound (fr.mono rfl) h
  | evInfo _ => exact execEvInfo_sound (fr.mono rfl) h
  | evidClear _ => exact execEvidClear_sound (fr.mono rfl) h
  | tollPeriodStart => exact execTollPeriodStart_sound (fr.mono rfl) h
  | tollCommit _ => exact execTollCommit_sound (fr.mono rfl) h
  | tollRescale _ => exact execTollRescale_sound (fr.mono rfl) h
  | lp5xChannelLost _ _ _ _ _ _ => exact execLp5xChannelLost_sound (fr.mono rfl) h
  | scrubPass _ _ => exact execScrubPass_sound (fr.mono rfl) h
  | tollLoadProfile _ => exact execTollLoadProfile_sound (fr.mono rfl) h
  | memInfo _ => exact execMemInfo_sound (fr.mono rfl) h
  | tollSet _ => exact execTollSet_sound (fr.mono rfl) h
  | poolSet _ => exact execPoolSet_sound (fr.mono rfl) h
  | emInputEdge _ _ => exact execEmInputEdge_sound (fr.mono rfl) h
  | emOutPulseEnd _ => exact execEmOutPulseEnd_sound (fr.mono rfl) h
  | emFireWrite _ _ => exact execEmFireWrite_sound (fr.mono rfl) h
  | stormTrip _ => exact execStormTrip_sound (fr.mono rfl) h
  | emTripClear _ _ _ => exact execEmTripClear_sound (fr.mono rfl) h
  | cellClear _ _ => exact execCellClear_sound (fr.mono rfl) h
  | emLoadProfile _ => exact execEmLoadProfile_sound (fr.mono rfl) h
  | emFire _ => exact execEmFire_sound (fr.mono rfl) h
  | emRouteLoad _ => exact execEmRouteLoad_sound (fr.mono rfl) h
  | queueRtagRead _ _ _ => exact execQueueRtagRead_sound (fr.mono rfl) h
  | queueStale _ => exact execQueueStale_sound (fr.mono rfl) h
  | queueHwRead _ => exact execQueueHwRead_sound (fr.mono rfl) h
  | faultDetect _ _ => exact execFaultDetect_sound (fr.mono rfl) h
  | parapetNoticeReceive _ => exact execParapetNoticeReceive_sound (fr.mono rfl) h
  | supplyExcursion _ => exact execSupplyExcursion_sound (fr.mono rfl) h
  | tjWarn _ => exact execTjWarn_sound (fr.mono rfl) h
  | tjCritical _ => exact execTjCritical_sound (fr.mono rfl) h
  | clockLoss _ => exact execClockLoss_sound (fr.mono rfl) h
  | watchdogExpiry => exact execWatchdogExpiry_sound (fr.mono rfl) h
  | watchdogKick _ => exact execWatchdogKick_sound (fr.mono rfl) h
  | watchdogEnable _ => exact execWatchdogEnable_sound (fr.mono rfl) h
  | aliveToggle => exact execAliveToggle_sound (fr.mono rfl) h
  | safeForce _ => exact execSafeForce_sound (fr.mono rfl) h
  | safeRelease _ _ => exact execSafeRelease_sound (fr.mono rfl) h
  | stickyClear _ _ _ _ => exact execStickyClear_sound (fr.mono rfl) h
  | divertHoldWrite _ _ => exact execDivertHoldWrite_sound (fr.mono rfl) h
  | paClear _ => exact execPaClear_sound (fr.mono rfl) h
  | paRelease _ => exact execPaRelease_sound (fr.mono rfl) h
  | paForceSafe _ => exact execPaForceSafe_sound (fr.mono rfl) h
  | paConfig _ => exact execPaConfig_sound (fr.mono rfl) h
  | auditPass => exact execAuditPass_sound (fr.mono rfl) h
  | writeWindowClose _ => exact execWriteWindowClose_sound (fr.mono rfl) h
  | ulpsEntryExit _ _ _ => exact execUlpsEntryExit_sound (fr.mono rfl) h
  | perstNRelease => exact execPerstNRelease_sound (fr.mono rfl) h
  | startStopCondition _ _ => exact execStartStopCondition_sound (fr.mono rfl) h
  | cellFire _ => exact execCellFire_sound (fr.mono rfl) h
  | tjSample _ => exact execTjSample_sound (fr.mono rfl) h

theorem pending_not_mem_touches (c : Instr) : Comp.pending ∉ touches c := by
  cases c <;> simp [touches]

/-- A tick of the time island keeps the canonical form of the memories: it changes the bases only. -/
theorem tick_canon (h : Canon s) : Canon (tick s) := by
  unfold tick
  split <;> exact h

/-- Settles O3: no command touches the waiting commands, so that the frame of every command applies to them. -/
theorem everyCommandAnswersANextState : Obligations.EveryCommandAnswersANextState := by
  unfold Obligations.EveryCommandAnswersANextState
  intro c s
  have fr : Free (· = Comp.pending) (touches c) := by
    rintro p hp rfl
    exact absurd hp (pending_not_mem_touches c)
  obtain ⟨t, ht, hsame, -⟩ := exec_sound fr (.refl _ False (fun h => h.elim) : Sound (· = Comp.pending) False s s)
  exact ⟨t, ht, hsame .pending rfl⟩

/-- Settles O4, from the frame of every command with the components outside `touches`. -/
theorem commandsKeepUntouchedComponents : Obligations.CommandsKeepUntouchedComponents := by
  unfold Obligations.CommandsKeepUntouchedComponents
  intro c s t ht p hp
  have fr : Free (· ∉ touches c) (touches c) := fun q hq hn => hn hq
  obtain ⟨u, hu, hsame, -⟩ := exec_sound fr (.refl _ False (fun h => h.elim) : Sound (· ∉ touches c) False s s)
  obtain rfl : u = t := by simpa [hu] using ht
  exact hsame p hp

/-- Settles O5: a command keeps the canonical form (`exec_sound`, with no component to keep), and so does a tick. -/
theorem everyStepKeepsCanonicalMemories : Obligations.EveryStepKeepsCanonicalMemories := by
  unfold Obligations.EveryStepKeepsCanonicalMemories
  intro s t hs ht
  unfold step at ht
  split at ht
  case h_1 =>
    obtain rfl : tick s = t := by simpa using ht
    exact tick_canon hs
  case h_2 c rest _ =>
    have fr : Free (fun _ => False) (touches c) := fun _ _ h => h
    have h0 : Sound (fun _ => False) True { s with pending := rest } { s with pending := rest } := .refl _ _ (fun _ => hs)
    obtain ⟨u, hu, -, hcanon⟩ := exec_sound fr h0
    obtain rfl : u = t := by simpa [hu] using ht
    exact hcanon trivial

/-- Settles O6: nothing is listed in any of the four memories. -/
theorem resetMemoriesAreCanonical : Obligations.ResetMemoriesAreCanonical := canon_reset

/-- Settles O1: the definition of a step. -/
theorem stepRunsFrontCommand : Obligations.StepRunsFrontCommand := by
  unfold Obligations.StepRunsFrontCommand
  intro s c rest h
  simp only [step, h]

theorem le_s32 (f : Nat) : -(2 ^ 31) ≤ s32 f := BitVec.le_toInt (BitVec.ofNat 32 f)

/-- A base grows by 2 × (2^32 + FREQ): what a tick adds is positive, so that no borrow occurs. -/
theorem tickBase_count (f : Nat) (x : TimeBase) :
    ((((tickBase f x).carries * 65536 + (tickBase f x).wrap) * 2 ^ 32 + (tickBase f x).ns) * 2 ^ 32 + (tickBase f x).frac : Int) =
      ((x.carries * 65536 + x.wrap) * 2 ^ 32 + x.ns) * 2 ^ 32 + x.frac + 2 * (2 ^ 32 + s32 f) := by
  have hf := le_s32 f
  simp only [tickBase]
  omega

/-- After a tick WRAP, NS and FRAC are within their widths. -/
theorem tickBase_lt (f : Nat) (x : TimeBase) :
    (tickBase f x).wrap < 65536 ∧ (tickBase f x).ns < 2 ^ 32 ∧ (tickBase f x).frac < 2 ^ 32 :=
  ⟨Nat.mod_lt _ (by decide), Nat.mod_lt _ (by decide), Nat.mod_lt _ (by decide)⟩

/-- Settles O2: base by base what `tickBase` does. -/
theorem idleStepIsOneTick : Obligations.IdleStepIsOneTick := by
  unfold Obligations.IdleStepIsOneTick
  refine ⟨fun s hp hh => ?_, fun s hp hh => ?_⟩
  · simp [step, hp, tick, hh]
  · have ht : step s = .next (tick s) := by simp only [step, hp]
    have hb : ∀ b : Fin 4, (tick s).bases[b] = tickBase (freqOf s b.val) s.bases[b] := fun b => by simp [tick, hh]
    refine ⟨tick s, ht, by simp [tick, hh], fun p h1 h2 => ?_, fun b n hn => ?_⟩
    · cases p <;> first | contradiction | simp [Comp.same, tick, hh]
    · rw [hb, hn, hn]
      exact ⟨tickBase_count _ _, tickBase_lt _ _⟩

end Sys2Proof.Machine
end

section
/-! What registers, fields, counters and LP5X bytes read after a write; what an event sets. -/

namespace Sys2Proof.Machine

set_option Elab.async false

/-! ## Registers, fields, counters, LP5X -/

theorem testBit_setBits_other (v : Nat) {hi lo i : Nat} (x : Nat) (h : lo ≤ hi) (hi' : i < lo ∨ hi < i) :
    (setBits v hi lo x).testBit i = v.testBit i := by
  have key : ∀ u : Nat, u.testBit i = (bits u i i == 1) := fun u => by
    simp only [Nat.testBit_eq_decide_div_mod_eq, bits, Nat.add_sub_cancel_left, pow_one]
    rfl
  rw [key, key]
  rcases hi' with hb | ha
  · rw [bits_setBits_below _ _ h (le_refl i) hb]
  · rw [bits_setBits_above _ _ h ha]

/-- The bits of a register outside a field that is set stay. -/
theorem testBit_fset_other (s : State) (f : Fld) (v o : Nat) {i : Nat} (h : f.lo ≤ f.hi) (hw : f.hi < 32)
    (hi : i < f.lo ∨ f.hi < i) : (rdn (fset s f v o) (f.reg + o)).testBit i = (rdn s (f.reg + o)).testBit i := by
  unfold fset
  rw [rdn_wrn_same, Nat.mod_eq_of_lt (setBits_lt _ _ h hw (rdn_lt s _)), testBit_setBits_other _ _ h hi]

theorem lp5Get_lp5Put_same {s : State} {a : Nat} (b : Byte) (h : lp5Lost s a = false) : lp5Get (lp5Put s a b) a = b := by
  simp only [lp5Put, h, lp5Get]
  exact smGet_smPut_same s.mem.lp5 a 0#8 b

theorem lp5Get_lp5Put_other (s : State) {a k : Nat} (b : Byte) (h : k ≠ a) : lp5Get (lp5Put s a b) k = lp5Get s k := by
  unfold lp5Put
  split
  · rfl
  · exact smGet_smPut_other s.mem.lp5 0#8 0#8 b h

theorem lp5Lost_lp5Put (s : State) (a k : Nat) (b : Byte) : lp5Lost (lp5Put s a b) k = lp5Lost s k := by
  unfold lp5Put
  split <;> rfl

theorem lp5Get_lp5Puts_outside (s : State) {a k : Nat} {l : List Byte} (h : k < a ∨ a + l.length ≤ k) :
    lp5Get (lp5Puts s a l) k = lp5Get s k := by
  induction l generalizing s a with
  | nil => rfl
  | cons b l ih =>
    rw [List.length_cons] at h
    rw [lp5Puts, ih _ (by omega), lp5Get_lp5Put_other s b (by omega)]

theorem lp5Get_lp5Puts_inside (s : State) {a i : Nat} {l : List Byte} (hi : i < l.length)
    (h : ∀ j, j < l.length → lp5Lost s (a + j) = false) : lp5Get (lp5Puts s a l) (a + i) = l.getD i 0#8 := by
  induction l generalizing s a i with
  | nil => exact absurd hi (Nat.not_lt_zero i)
  | cons b l ih =>
    rw [List.length_cons] at hi h
    cases i with
    | zero =>
      change lp5Get (lp5Puts (lp5Put s a b) (a + 1) l) a = b
      rw [lp5Get_lp5Puts_outside _ (.inl (Nat.lt_succ_self a))]
      exact lp5Get_lp5Put_same b (h 0 (by omega))
    | succ i =>
      rw [lp5Puts, show a + (i + 1) = a + 1 + i by omega, ih _ (by omega) (fun j hj => ?_)]
      · rfl
      · rw [lp5Lost_lp5Put, show a + 1 + j = a + (j + 1) by omega]
        exact h (j + 1) (by omega)

/-- Settles O8, from the read-after-write laws of registers and of LP5X. -/
theorem registersAndMemoriesReadAsWritten : Obligations.RegistersAndMemoriesReadAsWritten := by
  unfold Obligations.RegistersAndMemoriesReadAsWritten
  refine ⟨rdn_wrn_same, fun s a b v h => rdn_wrn_other s v h, fun s f v o h hw => fget_fset_same s f v o h hw,
    fun s f v o i h hw hi => testBit_fset_other s f v o h hw hi, fun s a h => ?_, fun s a h => ?_,
    fun s a b h => rdn_cnt_other s h, fun s a b h => lp5Get_lp5Put_same b h, fun s a b h => ?_,
    fun s a k b h => lp5Get_lp5Put_other s b h, fun s a i l hi h => lp5Get_lp5Puts_inside s hi h,
    fun s a k l h => lp5Get_lp5Puts_outside s h⟩
  · rw [rdn_cnt_same]
    omega
  · rw [rdn_cnt_same]
    omega
  · simp only [lp5Put, h, if_true]

/-- Settles O9: the bit is set by `fset`, and the interrupt logic writes only its own registers. -/
theorem eventSetsItsBitAndKeepsTheRest : Obligations.EventSetsItsBitAndKeepsTheRest := by
  unfold Obligations.EventSetsItsBitAndKeepsTheRest
  refine ⟨fun s f o h hw hi => fbit_evt_same s f o h hw hi, fun s f o i h hw hi hne => ?_,
    fun s f o a h hi => rdn_evt_other s f o h hi, evt_only⟩
  rw [rdn_evt_same s f o hi]
  exact testBit_fset_other s f 1 o (le_of_eq h) hw (by omega)

end Sys2Proof.Machine
end

section
/-! Ledger entries and steps of a base. -/

namespace Sys2Proof.Machine

set_option Elab.async false

/-! ## Components that an operation keeps -/

/-- A component outside the list of an operation's `_sound` lemma is in its result as before. -/
theorem kept_of_sound (p : Comp) {l : List Comp} {s t : State}
    (f : Free (· = p) l → Sound (· = p) False s s → Sound (· = p) False s t) (hp : l.contains p = false := by rfl) :
    p.same s t := by
  have fr : Free (· = p) l := by
    rintro q hq rfl
    simp [hq] at hp
  exact (f fr (.refl _ _ (fun h => h.elim))).1 p rfl

theorem forEach_kept {α β : Type} {l : List α} {f : α → State → State} (g : State → β) (hf : ∀ x t, g (f x t) = g t) (s : State) :
    g (forEach l f s) = g s := by
  induction l generalizing s with
  | nil => rfl
  | cons x l ih => exact (ih (f x s)).trans (hf x s)

/-! ## Ledger entries -/

@[simp] theorem entryAt_setEntry_same (s : State) (i : Nat) (e : Entry) : entryAt (setEntry s i e) i = e :=
  smGet_smPut_same s.ledger.entries i emptyEntry e

theorem entryAt_setEntry_other (s : State) {i k : Nat} (e : Entry) (h : k ≠ i) : entryAt (setEntry s i e) k = entryAt s k :=
  smGet_smPut_other s.ledger.entries emptyEntry emptyEntry e h

theorem entryAt_congr {s t : State} (h : t.ledger = s.ledger) (i : Nat) : entryAt t i = entryAt s i := by
  simp only [entryAt, h]

theorem setLive_ledger (s : State) (n : Nat) : (setLive s n).ledger = s.ledger := kept_of_sound .ledger setLive_sound

theorem setLive_acct (s : State) (n : Nat) : (setLive s n).acct = s.acct := kept_of_sound .acct setLive_sound

theorem acct_ledger (s : State) (f : Acct → Acct) : (acct s f).ledger = s.ledger := rfl

theorem idIndex_nextId (s : State) (h : freeHead s < 131072) : idIndex (nextId s) = freeHead s := by
  simp only [nextId, mkId, idIndex]
  split <;> omega

/-- The fields of an ID are the values it was made of. -/
theorem mkId_fields {pier idx gen : Nat} (hi : idx < 131072) (hg : gen < 32) :
    idPier (mkId pier idx gen) = pier ∧ idIndex (mkId pier idx gen) = idx ∧ mkId pier idx gen % 32 = gen := by
  simp only [mkId, idPier, idIndex]
  omega

theorem entryAt_allocEntry_same (s : State) (port frame first area : Nat) :
    entryAt (allocEntry s port frame first area) (freeHead s) =
      { emptyEntry with
          id := nextId s, st := .opened, port := port, mateNext := nextId s, frame := frame, firstStamp := first,
          lastStamp := first, lastExt := extStamp s first, featPtr := featAddr s (freeHead s) / 128, area := min area 0xFFFF,
          change := ((entryAt s (freeHead s)).change + 1) % 256 } := by
  simp only [allocEntry]
  rw [entryAt_congr (acct_ledger _ _), entryAt_congr (setLive_ledger _ _), entryAt_setEntry_same]

theorem entryAt_allocEntry_other (s : State) (port frame first area : Nat) {i : Nat} (h : i ≠ freeHead s) :
    entryAt (allocEntry s port frame first area) i = entryAt s i := by
  simp only [allocEntry]
  rw [entryAt_congr (acct_ledger _ _), entryAt_congr (setLive_ledger _ _), entryAt_setEntry_other _ _ h]
  unfold entryAt
  dsimp only
  split <;> rfl

/-- A live entry that is retired: the state before the counts. -/
theorem retireEntry_of_live {s : State} {id : Nat} (h : live s id = true) :
    (retireEntry id s).ledger = { (updEntry s id (fun e => { e with st := .retired })).ledger with
      retired := s.ledger.retired ++ [idIndex id] } ∧ (retireEntry id s).acct.lgRetired = s.acct.lgRetired + 1 := by
  simp only [retireEntry, h, if_true]
  constructor
  · rw [acct_ledger, setLive_ledger]
    rfl
  · show (setLive _ _).acct.lgRetired + 1 = _
    rw [setLive_acct]
    rfl

/-- Settles O24, from the reads of `setEntry` and the frame of `setLive`. -/
theorem ledgerEntriesFollowTheirRules : Obligations.LedgerEntriesFollowTheirRules := by
  unfold Obligations.LedgerEntriesFollowTheirRules
  refine ⟨fun pier idx gen _ hi hg => mkId_fields hi hg, fun s port frame first area => ?_, fun s id f => ?_,
    fun s id h => ?_⟩
  · rw [entryAt_allocEntry_same]
    exact ⟨rfl, rfl, rfl, rfl, fun i hi => entryAt_allocEntry_other s port frame first area hi⟩
  · exact ⟨entryAt_setEntry_same _ _ _, fun i hi => entryAt_setEntry_other _ _ hi, rfl⟩
  · obtain ⟨hl, ha⟩ := retireEntry_of_live h
    have he : ∀ i, entryAt (retireEntry id s) i = entryAt (updEntry s id (fun e => { e with st := .retired })) i := fun i => by
      simp only [entryAt, hl]
    refine ⟨?_, by rw [hl], ha, fun i hi => ?_⟩
    · rw [entryOf, he, updEntry, entryAt_setEntry_same]
    · rw [he, updEntry, entryAt_setEntry_other _ _ hi]

/-! ## Steps of a base -/

theorem almCross_bases (b x y a : Nat) (s : State) : (almCross b x y a s).bases = s.bases := by
  unfold almCross
  dsimp only
  split <;> rfl

theorem almCross_regs (b x y a : Nat) (s : State) : (almCross b x y a s).regs = s.regs := by
  unfold almCross
  dsimp only
  split <;> rfl

theorem tbase_updBase_same (s : State) (b : Nat) (f : TimeBase → TimeBase) : tbase (updBase s b f) b = f (tbase s b) := by
  simp [tbase, updBase]

theorem tbase_updBase_other (s : State) {b k : Nat} (f : TimeBase → TimeBase) (hb : b < 4) (hk : k < 4) (h : k ≠ b) :
    tbase (updBase s b f) k = tbase s k := by
  simp [tbase, updBase]
  rw [Vector.getElem_set_ne]
  omega


theorem base48_eq (s : State) (b : Nat) : base48 s b = (tbase s b).wrap * 2 ^ 32 + (tbase s b).ns := rfl

theorem tbase_congr {s t : State} (h : t.bases = s.bases) (b : Nat) : tbase t b = tbase s b := by
  simp only [tbase, h]

/-- A mark that the source of TB1 was stepped changes no count. -/
theorem tbase_markStepped (s : State) (k : Nat) (hk : k < 4) :
    ∃ x, tbase (updBase s 1 (fun t => { t with stepped := true })) k = { tbase s k with stepped := x } := by
  by_cases h : k = 1
  · subst h
    exact ⟨true, tbase_updBase_same s 1 _⟩
  · exact ⟨(tbase s k).stepped, tbase_updBase_other s _ (by decide) hk h⟩

/-- The base with the step added to its carries, WRAP and NS as one number modulo 2^64. -/
def stepSum (s : State) (b : Nat) (d : Int) : TimeBase :=
  let n := (BitVec.ofInt 64 (((tbase s b).carries : Int) * 2 ^ 48 + base48 s b + d)).toNat
  { tbase s b with ns := n % 2 ^ 32, wrap := n / 2 ^ 32 % 65536, carries := n / 2 ^ 48, stepped := true }

/-- What a step does to the bases, but for the marks that a step occurred. -/
theorem tbase_tbAdd (s : State) (d : Int) {b k : Nat} (hb : b < 4) (hk : k < 4) :
    ∃ x, tbase (tbAdd b d s) k = { (if k = b then stepSum s b d else tbase s k) with stepped := x } := by
  have h1 : ∀ f : TimeBase → TimeBase, tbase (updBase s b f) k = if k = b then f (tbase s b) else tbase s k := fun f => by
    split
    · subst k
      exact tbase_updBase_same s b f
    · exact tbase_updBase_other s f hb hk ‹_›
  simp only [tbAdd]
  rw [tbase_congr (forEach_kept State.bases (fun a t => almCross_bases _ _ _ a t) _)]
  split
  · obtain ⟨x, hx⟩ := tbase_markStepped (updBase s b (fun _ => stepSum s b d)) k hk
    refine ⟨x, ?_⟩
    rw [h1] at hx
    exact hx
  · refine ⟨(if k = b then stepSum s b d else tbase s k).stepped, (h1 _).trans ?_⟩
    split <;> rfl

theorem tbAdd_regs (b : Nat) (d : Int) (s : State) : (tbAdd b d s).regs = s.regs := by
  simp only [tbAdd]
  rw [forEach_kept State.regs (fun a t => almCross_regs _ _ _ a t)]
  split <;> rfl

theorem stepSum_count (s : State) (b : Nat) (d : Int) :
    (((stepSum s b d).wrap * 2 ^ 32 + (stepSum s b d).ns : Nat) : Int) = (base48 s b + d) % 2 ^ 48 := by
  have hn : ((BitVec.ofInt 64 (((tbase s b).carries : Int) * 2 ^ 48 + base48 s b + d)).toNat : Int) =
      (((tbase s b).carries : Int) * 2 ^ 48 + base48 s b + d) % 2 ^ 64 := by
    rw [BitVec.toNat_ofInt, Int.toNat_of_nonneg (Int.emod_nonneg _ (by norm_num))]
    norm_num
  simp only [stepSum]
  generalize (BitVec.ofInt 64 (((tbase s b).carries : Int) * 2 ^ 48 + base48 s b + d)).toNat = n at hn
  omega

/-- Settles O33: carries, WRAP and NS are one number to which the step is added; the marks that follow change no count. -/
theorem stepsAddToTheirBase : Obligations.StepsAddToTheirBase := by
  unfold Obligations.StepsAddToTheirBase
  intro b d s hb _ _
  obtain ⟨x, hx⟩ := tbase_tbAdd s d hb hb
  rw [if_pos rfl] at hx
  refine ⟨?_, by rw [hx]; rfl, tbAdd_regs b d s, fun k hk hne => ?_⟩
  · rw [base48_eq, hx]
    exact stepSum_count s b d
  · obtain ⟨y, hy⟩ := tbase_tbAdd s d hb hk
    rw [if_neg hne] at hy
    rw [base48_eq, hy, base48_eq]

end Sys2Proof.Machine
end

section
/-! Commands: how one is taken and completed. -/

namespace Sys2Proof.Machine

set_option Elab.async false

/-! ## Taking a command -/

theorem rdn_tollTake (s : State) (c r cost : Nat) {a : Nat} (h : a < 0x60400) : rdn (tollTake s c r cost) a = rdn s a := by
  unfold tollTake
  split
  · rfl
  · exact rdn_wrn_other s _ (by unfold TO_AVAIL; omega)

theorem rdn_tollSettle (k : Nat) (s : State) {a : Nat} (h : a < 0x60400) : rdn (tollSettle k s) a = rdn s a := by
  unfold tollSettle
  dsimp only
  split
  · rfl
  · exact rdn_tollTake s _ _ _ h

theorem rdn_foldl {α : Type} {l : List α} {f : State → α → State} {a : Nat} (hf : ∀ t x, rdn (f t x) a = rdn t a) (s : State) :
    rdn (l.foldl f s) a = rdn s a := by
  induction l generalizing s with
  | nil => rfl
  | cons x l ih => exact (ih (f s x)).trans (hf s x)

theorem rdn_forEach {α : Type} {l : List α} {f : α → State → State} {a : Nat} (hf : ∀ x t, rdn (f x t) a = rdn t a) (s : State) :
    rdn (forEach l f s) a = rdn s a := rdn_foldl (fun t x => hf x t) s

theorem rdn_tollBegin (s : State) (c : Nat) (costs : List (Nat × Nat)) {a : Nat} (h : a < 0x60400) :
    rdn (tollBegin s c costs) a = rdn s a := by
  unfold tollBegin
  split
  · rfl
  · refine rdn_foldl (fun t x => ?_) s
    exact rdn_tollSettle _ _ h

theorem rdn_tollSpend (s : State) (c : Nat) (costs : List (Nat × Nat)) {a : Nat} (h : a < 0x60400) :
    rdn (tollSpend s c costs) a = rdn s a := rdn_foldl (fun t x => rdn_tollTake t _ _ _ h) s

theorem rdn_tollShort (s : State) (c : Nat) (streaming : Bool) {a : Nat} (h : a < 0x60000) (hi : ¬ IrqReg a) :
    rdn (tollShort s c streaming) a = rdn s a := by
  have h1 : ∀ t : State, rdn (cnt t (TO_CNT_EXH + c * 4)) a = rdn t a := fun t => rdn_cnt_other t (by unfold TO_CNT_EXH; omega)
  unfold tollShort
  dsimp only
  split
  · rw [rdn_evt_other _ _ _ (by simp only; omega) hi]
    split
    · rfl
    · exact h1 _
  · split
    · rfl
    · exact h1 _

theorem rdn_syncTags (s : State) {a : Nat} (h1 : a ≠ HE_STAT) (h2 : a ≠ HE_TAG_STAT) : rdn (syncTags s) a = rdn s a := by
  have e1 : a ≠ fHE_STAT_NP_OUT.reg + 0 := h1
  have e2 : a ≠ fHE_STAT_QUIET.reg + 0 := h1
  have e3 : a ≠ fHE_TAG_STAT_QUAR.reg + 0 := h2
  exact (rdn_fset_other _ _ _ _ e3).trans ((rdn_fset_other _ _ _ _ e2).trans (rdn_fset_other s _ _ _ e1))

theorem rdn_npIssue (owner : ReqOwner) (tag addr len : Nat) (s : State) {a : Nat} (h1 : a ≠ HE_STAT) (h2 : a ≠ HE_TAG_STAT) :
    rdn (npIssue owner tag addr len s) a = rdn s a :=
  (rdn_emit _ _ a).trans ((rdn_syncTags _ h1 h2).trans (rdn_congr rfl a))

theorem rdn_npEnd (tag : Nat) (s : State) {a : Nat} (h1 : a ≠ HE_STAT) (h2 : a ≠ HE_TAG_STAT) :
    rdn (npEnd tag s) a = rdn s a := rdn_syncTags _ h1 h2

/-- Registers between those of the endpoint and those of the Toll, the mailbox's among them. -/
def QuietReg (a : Nat) : Prop := 0x10000 ≤ a ∧ a < 0x60000

theorem QuietReg.not_irq {a : Nat} (h : QuietReg a) : ¬ IrqReg a := by
  unfold QuietReg at h
  unfold IrqReg HE_IPEND HE_VEC_ARM HE_PBA
  omega

theorem rdn_mbFetch (c : Nat) (s : State) {a : Nat} (h : QuietReg a) : rdn (mbFetch c s) a = rdn s a := by
  obtain ⟨h1, h2⟩ := h
  unfold mbFetch
  dsimp only
  split
  · rfl
  · split
    · split
      · rw [rdn_npIssue _ _ _ _ _ (by unfold HE_STAT; omega) (by unfold HE_TAG_STAT; omega), rdn_tollSpend _ _ _ (by omega)]
      · exact rdn_tollShort _ _ _ (by omega) (QuietReg.not_irq ⟨h1, h2⟩)
    · rfl

theorem rdn_readNow (addr len : Nat) (s : State) (a : Nat) : rdn (readNow addr len s) a = rdn s a :=
  rdn_forEach (fun x t => rdn_emit t _ a) s

/-- The state in which HEAD advances when a command is taken. -/
def mbTaken (c : CmdCall) (s : State) : State :=
  updChan (forEach (mbRest c s) (fun x t => readNow x.1 x.2 (tollBegin t 36 [(1, (x.2 + 63) / 64), (2, 1)]))
    (match mbFlight s c.chan.val with | some r => npEnd r.tag s | none => s)) c.chan.val (fun h => { h with fetched := [] })

theorem mbTake_eq (c : CmdCall) (s : State) :
    mbTake c s = mbFetch c.chan.val (cnt (wrn (mbTaken c s) (MB_CMD_HEAD + mbo c.chan.val)
      ((rdn s (MB_CMD_HEAD + mbo c.chan.val) + 1) % ringSize (fget s fMB_CTL_CMD_SIZE (mbo c.chan.val))))
      (MB_CNT_CMD + mbo c.chan.val)) := rfl

theorem rdn_mbTaken (c : CmdCall) (s : State) {a : Nat} (h : QuietReg a) : rdn (mbTaken c s) a = rdn s a := by
  obtain ⟨h1, h2⟩ := h
  refine (rdn_forEach (fun x t => ?_) _).trans ?_
  · rw [rdn_readNow, rdn_tollBegin _ _ _ (by omega)]
  · split
    · exact rdn_npEnd _ _ (by unfold HE_STAT; omega) (by unfold HE_TAG_STAT; omega)
    · rfl

theorem ringSize_le (n : Nat) : ringSize n ≤ 4096 := by
  unfold ringSize
  split
  · exact Nat.pow_le_pow_right (by decide) (by omega : n ≤ 12)
  · decide

theorem ringSize_pos (n : Nat) : 0 < ringSize n := by
  unfold ringSize
  split <;> positivity

theorem quietReg_channel (ch : ChanNo) {a : Nat} (h1 : 0x10000 ≤ a) (h2 : a < 0x10100) : QuietReg (a + mbo ch.val) := by
  have := ch.isLt
  unfold QuietReg mbo
  omega

/-- Taking a command advances HEAD and counts in MB_CNT_CMD; the mailbox's other registers stay. -/
theorem rdn_mbTake (c : CmdCall) (s : State) :
    rdn (mbTake c s) (MB_CMD_HEAD + mbo c.chan.val) =
      (rdn s (MB_CMD_HEAD + mbo c.chan.val) + 1) % ringSize (fget s fMB_CTL_CMD_SIZE (mbo c.chan.val)) ∧
    rdn (mbTake c s) (MB_CNT_CMD + mbo c.chan.val) = min 0xFFFFFFFF (rdn s (MB_CNT_CMD + mbo c.chan.val) + 1) ∧
    ∀ a, QuietReg a → a ≠ MB_CMD_HEAD + mbo c.chan.val → a ≠ MB_CNT_CMD + mbo c.chan.val → rdn (mbTake c s) a = rdn s a := by
  have hh : QuietReg (MB_CMD_HEAD + mbo c.chan.val) := quietReg_channel _ (by decide) (by decide)
  have hc : QuietReg (MB_CNT_CMD + mbo c.chan.val) := quietReg_channel _ (by decide) (by decide)
  have hne : MB_CMD_HEAD + mbo c.chan.val ≠ MB_CNT_CMD + mbo c.chan.val := by
    unfold MB_CMD_HEAD MB_CNT_CMD
    omega
  have hlt : (rdn s (MB_CMD_HEAD + mbo c.chan.val) + 1) % ringSize (fget s fMB_CTL_CMD_SIZE (mbo c.chan.val)) < 2 ^ 32 :=
    lt_of_lt_of_le (Nat.mod_lt _ (ringSize_pos _)) ((ringSize_le _).trans (by norm_num))
  rw [mbTake_eq]
  refine ⟨?_, ?_, fun a ha h1 h2 => ?_⟩
  · rw [rdn_mbFetch _ _ hh, rdn_cnt_other _ hne, rdn_wrn_same, Nat.mod_eq_of_lt hlt]
  · rw [rdn_mbFetch _ _ hc, rdn_cnt_same, rdn_wrn_other _ _ hne.symm, rdn_mbTaken _ _ hc]
  · rw [rdn_mbFetch _ _ ha, rdn_cnt_other _ h2, rdn_wrn_other _ _ h1, rdn_mbTaken _ _ ha]

/-! ## Channels -/

theorem chan_updChan_same (s : State) (c : Nat) (f : MbChan → MbChan) : chan (updChan s c f) c = f (chan s c) := by
  simp [chan, updChan]

theorem chan_updChan_other (s : State) {c k : Nat} (f : MbChan → MbChan) (hc : c < 4) (hk : k < 4) (h : k ≠ c) :
    chan (updChan s c f) k = chan s k := by
  simp [chan, updChan]
  rw [Vector.getElem_set_ne]
  omega

theorem chan_congr {s t : State} (h : t.mb = s.mb) (c : Nat) : chan t c = chan s c := by
  simp only [chan, h]

theorem complete_mb (c op st tag detail : Nat) (res : List Byte) (s : State) :
    (complete c op st tag detail res s).mb =
      (updChan s c (fun h => { h with cpls := h.cpls ++ [cplEntry op 0 st tag detail res] })).mb := by
  unfold complete
  dsimp only
  split <;> rfl

/-- Settles O43: the effect of `mbTake` by its registers and its frame, and the checks in the order of `mbRun`. -/
theorem commandsAreTakenAndRefusedInOrder : Obligations.CommandsAreTakenAndRefusedInOrder := by
  unfold Obligations.CommandsAreTakenAndRefusedInOrder
  refine ⟨fun c s => ?_, fun ch op st tag detail res s => ?_, fun sp run c s st ho hg hc => ?_,
    fun sp run c s st ho hg hc hr hs => ?_, fun sp run c s ho hg => ?_, fun sp run c s st d h hr => mbRun_refuse h hr⟩
  · obtain ⟨hhead, hcnt, hother⟩ := rdn_mbTake c s
    refine ⟨hhead, hcnt, fun a h1 h2 => hother a ⟨h1, by omega⟩, fun p hp => kept_of_sound p mbTake_sound ?_⟩
    simpa using hp
  · refine ⟨?_, fun k hk => ?_, fun h => ?_, fun h => ?_⟩
    · rw [chan_congr (complete_mb ..), chan_updChan_same]
    · rw [chan_congr (complete_mb ..), chan_updChan_other _ _ ch.isLt k.isLt (fun e => hk (Fin.ext e))]
    · simp only [complete, h, if_true]
      rfl
    · simp only [complete, h, if_false]
      exact rdn_cnt_same _ _
  · simp [mbRun, ho, hg, hc]
  · simp [mbRun, ho, hg, hc, hr, hs]
  · simp [mbRun, ho, hg]

end Sys2Proof.Machine
end

section
/-! Detections and the entry to the safe state. -/

namespace Sys2Proof.Machine

set_option Elab.async false

/-! ## Registers of the safe state that the cancelling of orders leaves -/

/-- Register `a` reads `v`. -/
def Reads (a v : Nat) (s : State) : Prop := rdn s a = v

/-- PA_STAT, the control registers of the valve buses, HE_STAT and MM_STAT. -/
abbrev SafeReg (a : Nat) : Prop := a = 0x20004 ∨ a = 0x4 ∨ a = 0x68004 ∨ (0xC0400 ≤ a ∧ a < 0xC0500 ∧ a % 0x40 = 0)

variable {a v : Nat} {s t : State}

theorem SafeReg.ne {b : Nat} (ha : SafeReg a) (hb : ¬ SafeReg b) : a ≠ b := fun e => hb (e ▸ ha)

theorem SafeReg.not_irq (ha : SafeReg a) : ¬ IrqReg a := by
  unfold SafeReg at ha
  unfold IrqReg HE_IPEND HE_VEC_ARM HE_PBA
  omega

theorem Reads.ite {p : Prop} [Decidable p] (h1 : p → Reads a v s) (h2 : ¬ p → Reads a v t) :
    Reads a v (if p then s else t) := by split <;> simp_all

theorem Reads.set (h : Reads a v s) (e : t.regs = s.regs := by rfl) : Reads a v t := (rdn_congr e a).trans h

theorem forEach_reads {α : Type} {l : List α} {f : α → State → State} (h : Reads a v s)
    (hf : ∀ x t, Reads a v t → Reads a v (f x t)) : Reads a v (forEach l f s) := by
  induction l generalizing s with
  | nil => exact h
  | cons x l ih => exact ih (hf x s h)

theorem foldl_reads {α : Type} {l : List α} {f : State → α → State} (h : Reads a v s)
    (hf : ∀ t x, Reads a v t → Reads a v (f t x)) : Reads a v (l.foldl f s) := by
  induction l generalizing s with
  | nil => exact h
  | cons x l ih => exact ih (hf s x h)

theorem wrn_reads {b n : Nat} (hb : a ≠ b) (h : Reads a v s) : Reads a v (wrn s b n) := (rdn_wrn_other s n hb).trans h

theorem fset_reads {f : Fld} {n o : Nat} (hb : a ≠ f.reg + o) (h : Reads a v s) : Reads a v (fset s f n o) :=
  (rdn_fset_other s f n o hb).trans h

theorem fbset_reads {f : Fld} {b : Bool} {o : Nat} (hb : a ≠ f.reg + o) (h : Reads a v s) : Reads a v (fbset s f b o) :=
  fset_reads hb h

theorem cntAdd_reads {b n : Nat} (hb : a ≠ b) (h : Reads a v s) : Reads a v (cntAdd s b n) := wrn_reads hb h

theorem cnt_reads {b : Nat} (hb : a ≠ b) (h : Reads a v s) : Reads a v (cnt s b) := wrn_reads hb h

theorem regBit_reads {b i : Nat} {x : Bool} (hb : a ≠ b) (h : Reads a v s) : Reads a v (regBit s b i x) := wrn_reads hb h

theorem evt_reads {f : Fld} {o : Nat} (ha : SafeReg a) (hb : ¬ SafeReg (f.reg + o)) (h : Reads a v s) : Reads a v (evt s f o) :=
  (rdn_evt_other s f o (ha.ne hb) ha.not_irq).trans h

theorem emit_reads {o : Out} (h : Reads a v s) : Reads a v (emit s o) := h

theorem useFree_reads (h : Reads a v s) : Reads a v (useFree s) := h

theorem setNetPort_reads {p : Nat} {f : NetPort → NetPort} (h : Reads a v s) :
    Reads a v (setNetPort s p f) := by
  unfold setNetPort
  extract_lets w src
  exact .set h

theorem enqueue_reads {p : Nat} {t : TxItem} (h : Reads a v s) :
    Reads a v (enqueue s p t) := by
  unfold enqueue
  exact setNetPort_reads h

theorem bumpMsg_reads {cls : Nat} (h : Reads a v s) :
    Reads a v (bumpMsg s cls) := by
  unfold bumpMsg
  exact .set h

theorem dropNoRoute_reads (ha : SafeReg a) {p : Nat} {n : Nat} (h : Reads a v s) :
    Reads a v (dropNoRoute s p n) := by
  unfold dropNoRoute
  exact evt_reads ha (by decide) (cntAdd_reads (ha.ne (by unfold SafeReg SN_CNT_NOROUTE sno; omega)) h)

theorem netSend_reads (ha : SafeReg a) {cls : Nat} {flags : Nat} {dst : Nat} {segs : List (List Byte)} (h : Reads a v s) :
    Reads a v (netSend s cls flags dst segs) := by
  unfold netSend
  extract_lets s1 pk r
  have hs1 : Reads a v s1 := bumpMsg_reads h
  exact .ite (fun _ => h) (fun _ => .ite (fun _ => dropNoRoute_reads ha hs1) (fun _ => .ite (fun _ => dropNoRoute_reads ha hs1) (fun _ => foldl_reads hs1 (fun _ _ ht => enqueue_reads ht))))

theorem netBcast_reads (ha : SafeReg a) {cls : Nat} {flags : Nat} {segs : List (List Byte)} (h : Reads a v s) :
    Reads a v (netBcast s cls flags segs) := by
  unfold netBcast
  extract_lets s1 pk
  have hs1 : Reads a v s1 := bumpMsg_reads h
  exact .ite (fun _ => dropNoRoute_reads ha hs1) (fun _ => forEach_reads hs1 (fun _ _ ht => .ite (fun _ => foldl_reads ht (fun _ _ hu => enqueue_reads hu)) (fun _ => ht)))

theorem bcastDennil_reads (ha : SafeReg a) {topic : Nat} {body : List Byte} (h : Reads a v s) :
    Reads a v (bcastDennil s topic body) := by
  unfold bcastDennil
  exact netBcast_reads ha h

theorem sendDennil_reads (ha : SafeReg a) {pier : Nat} {topic : Nat} {body : List Byte} (h : Reads a v s) :
    Reads a v (sendDennil s pier topic body) := by
  unfold sendDennil
  exact netSend_reads ha h

theorem sendHostLink_reads (ha : SafeReg a) (h : Reads a v s) :
    Reads a v (sendHostLink s) := by
  unfold sendHostLink
  exact sendDennil_reads ha (useFree_reads h)

theorem reportSend_reads (ha : SafeReg a) (h : Reads a v s) :
    Reads a v (reportSend s) := by
  unfold reportSend
  refine .ite (fun _ => ?_) (fun _ => h)
  extract_lets s1 src
  have hs1 : Reads a v s1 := netSend_reads ha h
  exact sendHostLink_reads ha (.set hs1)

theorem idleReport_reads (ha : SafeReg a) (h : Reads a v s) :
    Reads a v (idleReport s) := by
  unfold idleReport
  exact .ite (fun _ => reportSend_reads ha h) (fun _ => h)

theorem paNotice_reads (ha : SafeReg a) {src : Nat} {cls : Nat} (h : Reads a v s) :
    Reads a v (paNotice s src cls) := by
  unfold paNotice
  refine .ite (fun _ => h) (fun _ => ?_)
  extract_lets safe fl src' s1
  have hs1 : Reads a v s1 := .ite (fun _ => .set h) (fun _ => h)
  exact bcastDennil_reads ha hs1

theorem poolFree_reads (ha : SafeReg a) {p : Nat} {f : Nat} (h : Reads a v s) :
    Reads a v (poolFree p f s) := by
  unfold poolFree
  extract_lets was low s1 src
  have hs1 : Reads a v s1 := wrn_reads (ha.ne (by unfold SafeReg MM_POOL_LOW; omega))
    (wrn_reads (ha.ne (by unfold SafeReg MM_POOL_FREE; omega)) h)
  exact .set hs1

theorem poolGive_reads (ha : SafeReg a) {p : Nat} {n : Nat} (h : Reads a v s) :
    Reads a v (poolGive s p n) := by
  unfold poolGive
  extract_lets k s1 src
  have hs1 : Reads a v s1 := poolFree_reads ha h
  exact .set hs1

theorem setEntry_reads {i : Nat} {e : Entry} (h : Reads a v s) :
    Reads a v (setEntry s i e) := by
  unfold setEntry
  exact .set h

theorem updEntry_reads {id : Nat} {f : Entry → Entry} (h : Reads a v s) :
    Reads a v (updEntry s id f) := by
  unfold updEntry
  extract_lets e src
  exact setEntry_reads h

theorem acct_reads {f : Acct → Acct} (h : Reads a v s) :
    Reads a v (acct s f) := by
  unfold acct
  exact .set h

theorem setLive_reads (ha : SafeReg a) {n : Nat} (h : Reads a v s) :
    Reads a v (setLive s n) := by
  unfold setLive
  exact idleReport_reads ha (fset_reads (ha.ne (by decide)) h)

theorem retireEntry_reads (ha : SafeReg a) {id : Nat} (h : Reads a v s) :
    Reads a v (retireEntry id s) := by
  unfold retireEntry
  refine .ite (fun _ => ?_) (fun _ => h)
  extract_lets s1 src s2
  have hs1 : Reads a v s1 := updEntry_reads h
  have hs2 : Reads a v s2 := .set hs1
  exact acct_reads (setLive_reads ha hs2)

theorem dropSet_reads {r : SetRec} (h : Reads a v s) :
    Reads a v (dropSet s r) := by
  unfold dropSet
  extract_lets left src
  exact .set h

theorem noteOutcome_reads {owner : Nat} {code : Nat} (h : Reads a v s) :
    Reads a v (noteOutcome owner code s) := by
  unfold noteOutcome
  extract_lets recs src
  exact .set h

theorem sendOutcome_reads (ha : SafeReg a) {s0 : State} {r : SetRec} {code : Nat} {action : Nat} {launch : Nat} {durNs : Nat} (hs0 : Reads a v s0) :
    Reads a v (sendOutcome s0 r code action launch durNs) := by
  unfold sendOutcome
  extract_lets s pl
  have hs : Reads a v s := noteOutcome_reads hs0
  exact forEach_reads hs (fun _ _ ht => netSend_reads ha ht)

theorem moveSet_reads {r : SetRec} {st : EState} {f : Entry → Entry} (h : Reads a v s) :
    Reads a v (moveSet s r st f) := by
  unfold moveSet
  exact forEach_reads h (fun _ _ ht => updEntry_reads ht)

theorem finishSet_reads (ha : SafeReg a) {r : SetRec} (h : Reads a v s) :
    Reads a v (finishSet s r) := by
  unfold finishSet
  exact dropSet_reads (forEach_reads h (fun _ _ hs => retireEntry_reads ha hs))

theorem evMember_reads (ha : SafeReg a) {keep : Bool} {code : Nat} {owner : Nat} {launch : Nat} {durUs : Nat} {m : Nat} (h : Reads a v s) :
    Reads a v (evMember keep code owner launch durUs m s) := by
  unfold evMember
  split
  · exact h
  · extract_lets src s1 e src'
    have hs1 : Reads a v s1 := poolGive_reads ha (.set h)
    refine .ite (fun _ => hs1) (fun _ => ?_)
    split
    · exact evt_reads ha (by decide) (cnt_reads (ha.ne (by decide)) hs1)
    · exact .set hs1

theorem evTerminal_reads (ha : SafeReg a) {r : SetRec} {code : Nat} {launch : Nat} {durUs : Nat} (h : Reads a v s) :
    Reads a v (evTerminal s r code launch durUs) := by
  unfold evTerminal
  extract_lets on hit keep n src s1
  have hs1 : Reads a v s1 := .ite (fun _ => .set h) (fun _ => h)
  exact forEach_reads hs1 (fun _ _ hs => evMember_reads ha hs)

theorem endSet_reads (ha : SafeReg a) {owner : Nat} {passed : Bool} (h : Reads a v s) :
    Reads a v (endSet s owner passed) := by
  unfold endSet
  split
  · exact h
  · extract_lets act s1 s1' s2
    have hs1 : Reads a v s1 := moveSet_reads h
    have hs1' : Reads a v s1' := evTerminal_reads ha hs1
    have hs2 : Reads a v s2 := acct_reads hs1'
    exact finishSet_reads ha (sendOutcome_reads ha hs2)

theorem syncBus_reads (ha : SafeReg a) {b : Nat} (h : Reads a v s) :
    Reads a v (syncBus b s) := by
  unfold syncBus
  extract_lets q n s1 nxt s2
  have hs1 : Reads a v s1 := wrn_reads (ha.ne (by unfold SafeReg AC_QSTAT buo; omega)) h
  have hs2 : Reads a v s2 := wrn_reads (ha.ne (by unfold SafeReg AC_QNEXT buo; omega)) hs1
  exact fset_reads (ha.ne (by decide)) hs2

theorem updBus_reads (ha : SafeReg a) {b : Nat} {f : BusSt → BusSt} (h : Reads a v s) :
    Reads a v (updBus s b f) := by
  unfold updBus
  extract_lets w src
  exact syncBus_reads ha (.set h)

theorem cancelParts_reads (ha : SafeReg a) {b : Nat} {sel : Part → Bool} (h : Reads a v s) :
    Reads a v (cancelParts b sel s) := by
  unfold cancelParts
  extract_lets gone n s1
  have hs1 : Reads a v s1 := updBus_reads ha h
  exact .ite (fun _ => h) (fun _ => acct_reads hs1)

theorem dropOrder_reads {owner : Nat} (h : Reads a v s) :
    Reads a v (dropOrder s owner) := by
  unfold dropOrder
  exact .set h

theorem orderEnds_reads (ha : SafeReg a) {owner : Nat} (h : Reads a v s) :
    Reads a v (orderEnds s owner) := by
  unfold orderEnds
  split
  · exact h
  · split
    · exact finishSet_reads ha (sendOutcome_reads ha (evTerminal_reads ha h))
    · exact endSet_reads ha h
    · exact endSet_reads ha h
    · exact h

theorem cancelRemotes_reads (ha : SafeReg a) {o : Order} (h : Reads a v s) :
    Reads a v (cancelRemotes s o) := by
  unfold cancelRemotes
  exact forEach_reads h (fun _ _ ht => .ite (fun _ => netSend_reads ha ht) (fun _ => ht))

theorem cancelOrder_reads (ha : SafeReg a) {owner : Nat} {counter : Nat} (hc : ¬ SafeReg counter) (h : Reads a v s) :
    Reads a v (cancelOrder s owner counter) := by
  unfold cancelOrder
  split
  · exact h
  · extract_lets s1 s2 s3
    have hs1 : Reads a v s1 := forEach_reads h (fun _ _ ht => cancelParts_reads ha ht)
    have hs2 : Reads a v s2 := evt_reads ha (by decide) (cnt_reads (ha.ne hc) (cancelRemotes_reads ha hs1))
    have hs3 : Reads a v s3 := dropOrder_reads hs2
    exact .ite (fun _ => hs3) (fun _ => orderEnds_reads ha hs3)

theorem abortWire_reads (ha : SafeReg a) {b : Nat} (h : Reads a v s) :
    Reads a v (abortWire b s) := by
  unfold abortWire
  split
  · exact h
  · exact emit_reads (updBus_reads ha h)

theorem sendSafe_reads (ha : SafeReg a) {b : Nat} (h : Reads a v s) :
    Reads a v (sendSafe b s) := by
  unfold sendSafe
  exact emit_reads (updBus_reads ha h)

/-! ## Entry to the safe state -/

theorem cancelEverything_reads (ha : SafeReg a) (h : Reads a v s) : Reads a v (cancelEverything s) := by
  unfold cancelEverything
  extract_lets s1
  have hs1 : Reads a v s1 := forEach_reads h (fun _ _ ht => .ite (fun _ => cancelRemotes_reads ha ht)
    (fun _ => cancelOrder_reads ha (by decide) ht))
  exact forEach_reads hs1 (fun _ _ ht => cancelParts_reads ha ht)

theorem busSafe_reads (ha : SafeReg a) {b : Nat} (hb : a ≠ AC_BUS_CTL + buo b) (h : Reads a v s) : Reads a v (busSafe b s) :=
  sendSafe_reads ha (abortWire_reads ha (fbset_reads hb (fbset_reads hb (fbset_reads hb h))))

theorem actSafe_reads (ha : SafeReg a) (hb : ∀ b, a ≠ AC_BUS_CTL + buo b) (h : Reads a v s) : Reads a v (actSafe s) :=
  cancelEverything_reads ha (evt_reads ha (by decide) (fbset_reads (ha.ne (by decide))
    (forEach_reads h (fun b _ ht => busSafe_reads ha (hb b) ht))))

theorem fbit_of_reads {f : Fld} {o : Nat} (h : Reads (f.reg + o) (rdn s (f.reg + o)) t) : fbit t f o = fbit s f o := by
  unfold Reads at h
  unfold fbit fget
  rw [h]

theorem safeReg_paStat : SafeReg PA_STAT := by decide

theorem safeReg_bus (b : BusNo) : SafeReg (AC_BUS_CTL + buo b.val) := by
  have := b.isLt
  unfold SafeReg AC_BUS_CTL buo
  omega

theorem paStat_ne_bus (b : Nat) : PA_STAT ≠ AC_BUS_CTL + buo b := by
  unfold PA_STAT AC_BUS_CTL
  omega

/-- Another field of a bit's register that is set leaves the bit. -/
theorem fbit_fbset_field (s : State) (f g : Fld) (b : Bool) (o : Nat) (e : g.reg = f.reg := by rfl) (h : f.lo ≤ f.hi := by decide)
    (hw : f.hi < 32 := by decide) (hg : g.lo ≤ g.hi := by decide) (hd : f.hi < g.lo ∨ g.hi < f.lo := by decide) :
    fbit (fbset s f b o) g o = fbit s g o := by
  unfold fbit fbset
  rw [fget_fset_field s f g _ o o (by rw [e]) h hw hg hd]

/-- Bus `b` is disabled and holds its safe state. -/
def BusIsSafe (b : Nat) (s : State) : Prop := fbit s fAC_BUS_CTL_EN (buo b) = false ∧ fbit s fAC_BUS_CTL_SAFE (buo b) = true

theorem BusIsSafe.of_reads {b : Nat} (h : BusIsSafe b s) (hr : Reads (AC_BUS_CTL + buo b) (rdn s (AC_BUS_CTL + buo b)) t) :
    BusIsSafe b t := ⟨(fbit_of_reads hr).trans h.1, (fbit_of_reads hr).trans h.2⟩

theorem busIsSafe_busSafe (b : BusNo) (s : State) : BusIsSafe b.val (busSafe b.val s) := by
  have hb := safeReg_bus b
  unfold busSafe
  extract_lets s1 s2
  have h : BusIsSafe b.val s2 := by
    refine ⟨?_, fbit_fbset_same _ _ _ _⟩
    exact (fbit_fbset_field _ fAC_BUS_CTL_SAFE fAC_BUS_CTL_EN _ _).trans (fbit_fbset_same s1 fAC_BUS_CTL_EN _ _)
  exact h.of_reads (sendSafe_reads hb (abortWire_reads hb rfl))

theorem BusIsSafe.busSafe {b : BusNo} (h : BusIsSafe b.val s) (x : Nat) : BusIsSafe b.val (busSafe x s) := by
  by_cases hx : x = b.val
  · subst hx
    exact busIsSafe_busSafe b s
  · refine h.of_reads (busSafe_reads (safeReg_bus b) ?_ rfl)
    unfold buo
    omega

theorem busIsSafe_forEach {b : BusNo} {l : List Nat} (h : b.val ∈ l ∨ BusIsSafe b.val s) :
    BusIsSafe b.val (forEach l Machine.busSafe s) := by
  induction l generalizing s with
  | nil => exact h.resolve_left (by simp)
  | cons x l ih =>
    refine ih ?_
    rcases h with h | h
    · rcases List.mem_cons.mp h with rfl | h
      · exact .inr (busIsSafe_busSafe b s)
      · exact .inl h
    · exact .inr (h.busSafe x)

theorem busIsSafe_actSafe (b : BusNo) (s : State) : BusIsSafe b.val (actSafe s) := by
  have hb := safeReg_bus b
  refine (busIsSafe_forEach (.inl (List.mem_range.mpr b.isLt)) : BusIsSafe b.val (forEach (List.range 4) busSafe s)).of_reads ?_
  exact cancelEverything_reads hb (evt_reads hb (by decide) (fbset_reads (hb.ne (by decide)) rfl))

theorem safeState_actSafe (s : State) : safeState (actSafe s) = safeState s :=
  fbit_of_reads (actSafe_reads safeReg_paStat paStat_ne_bus rfl)

/-- The safe state is in force or not, as `x` says. -/
def SafeIs (x : Bool) (s : State) : Prop := safeState s = x

theorem SafeIs.ite {x : Bool} {p : Prop} [Decidable p] (h1 : p → SafeIs x s) (h2 : ¬ p → SafeIs x t) :
    SafeIs x (if p then s else t) := by split <;> simp_all

theorem SafeIs.setPa {x : Bool} {p : PaSt} (h : SafeIs x s) : SafeIs x { s with pa := p } := h

theorem SafeIs.setRs {x : Bool} {r : RsSt} (h : SafeIs x s) : SafeIs x { s with rs := r } := h

theorem SafeIs.emit {x : Bool} {o : Out} (h : SafeIs x s) : SafeIs x (emit s o) := h

/-- A write of another register than PA_STAT. -/
theorem SafeIs.of_reads {x : Bool} (h : SafeIs x s) (hr : Reads PA_STAT (rdn s PA_STAT) t) : SafeIs x t :=
  (fbit_of_reads hr).trans h

/-- A write of another field of PA_STAT. -/
theorem SafeIs.setField {x : Bool} {f : Fld} {n : Nat} (h : SafeIs x s) (e : f.reg = PA_STAT := by rfl)
    (hl : f.lo ≤ f.hi := by decide) (hh : f.hi < 31 := by decide) : SafeIs x (fset s f n) := by
  have hk : fget (fset s f n) fPA_STAT_SAFE = fget s fPA_STAT_SAFE :=
    fget_fset_field s f fPA_STAT_SAFE n 0 0 (by rw [e]) hl (by omega) (by decide) (.inl hh)
  unfold SafeIs safeState fbit at *
  rwa [hk]

theorem SafeIs.field {x b : Bool} {f : Fld} (h : SafeIs x s) (e : f.reg = PA_STAT := by rfl)
    (hl : f.lo ≤ f.hi := by decide) (hh : f.hi < 31 := by decide) : SafeIs x (fbset s f b) := h.setField e hl hh

theorem paPins_safeIs {x : Bool} (h : SafeIs x s) : SafeIs x (paPins s) := by
  unfold paPins
  extract_lets div run s1 s2 src
  have hs1 : SafeIs x s1 := .ite (fun _ => h) (fun _ => .emit (.field h))
  have hs2 : SafeIs x s2 := .field hs1
  exact .ite (fun _ => .emit (.setPa hs2)) (fun _ => hs2)

theorem actSafe_safeIs {x : Bool} (h : SafeIs x s) : SafeIs x (actSafe s) :=
  h.of_reads (actSafe_reads safeReg_paStat paStat_ne_bus rfl)

theorem Reads.refl (a : Nat) (s : State) : Reads a (rdn s a) s := Eq.refl _

theorem SafeIs.evt {x : Bool} {f : Fld} {o : Nat} (h : SafeIs x s) (hf : ¬ SafeReg (f.reg + o)) : SafeIs x (evt s f o) :=
  h.of_reads (evt_reads safeReg_paStat hf (.refl _ _))

theorem setSafe_safeIs (s : State) : SafeIs true (fbset s fPA_STAT_SAFE true) := fbit_fbset_same s fPA_STAT_SAFE true 0

theorem safeState_safeEnter (s : State) : SafeIs true (safeEnter s) := by
  unfold safeEnter
  extract_lets s1 src
  have hs1 : SafeIs true s1 := (setSafe_safeIs s).evt (by decide)
  exact .ite (fun h => h) (fun _ => actSafe_safeIs (paPins_safeIs (.setPa hs1)))

theorem safeEnter_safeIs {x : Bool} (h : SafeIs x s) : SafeIs true (safeEnter s) := safeState_safeEnter s

/-! ## Detections while the safe state is in force -/

theorem SafeIs.wrn {x : Bool} {b n : Nat} (h : SafeIs x s) (hb : PA_STAT ≠ b) : SafeIs x (wrn s b n) :=
  h.of_reads (wrn_reads hb (.refl _ _))

theorem SafeIs.fset {x : Bool} {f : Fld} {n o : Nat} (h : SafeIs x s) (hb : PA_STAT ≠ f.reg + o) : SafeIs x (fset s f n o) :=
  h.wrn hb

theorem SafeIs.fbset {x b : Bool} {f : Fld} {o : Nat} (h : SafeIs x s) (hb : PA_STAT ≠ f.reg + o) : SafeIs x (fbset s f b o) :=
  h.wrn hb

theorem SafeIs.regBit {x b : Bool} {r i : Nat} (h : SafeIs x s) (hb : PA_STAT ≠ r) : SafeIs x (regBit s r i b) := h.wrn hb

theorem SafeIs.cnt {x : Bool} {b : Nat} (h : SafeIs x s) (hb : PA_STAT ≠ b) : SafeIs x (cnt s b) := h.wrn hb

theorem SafeIs.cntWrap {x : Bool} {b n : Nat} (h : SafeIs x s) (hb : PA_STAT ≠ b) : SafeIs x (cntWrap s b n) := h.wrn hb

theorem SafeIs.evtBit {x : Bool} {b i : Nat} (h : SafeIs x s) (hb : PA_STAT ≠ b) : SafeIs x (evtBit s b i) :=
  h.of_reads ((rdn_irqAt _ _ safeReg_paStat.not_irq).trans (rdn_wrn_other s _ hb))

theorem SafeIs.setEm {x : Bool} {e : EmSt} (h : SafeIs x s) : SafeIs x { s with em := e } := h

theorem SafeIs.setViews {x : Bool} {w : ViewSt} (h : SafeIs x s) : SafeIs x { s with views := w } := h

theorem SafeIs.forEach {x : Bool} {α : Type} {l : List α} {f : α → State → State} (h : SafeIs x s)
    (hf : ∀ y t, SafeIs x t → SafeIs x (f y t)) : SafeIs x (forEach l f s) := by
  induction l generalizing s with
  | nil => exact h
  | cons y l ih => exact ih (hf y s h)

variable {x : Bool}

theorem captureAll_safeIs {c : Nat} (h : SafeIs x s) : SafeIs x (captureAll s c) := by
  unfold captureAll
  extract_lets o s1 w
  have hs1 : SafeIs x s1 := h.forEach (fun _ _ ht => ht.wrn (by unfold PA_STAT TB_CAP_NS; omega))
  exact ((hs1.wrn (by unfold PA_STAT TB_CAP_HI01; omega)).wrn (by unfold PA_STAT TB_CAP_HI23; omega)).fbset
    (by unfold PA_STAT; simp only; omega)

theorem emOverrun_safeIs {i : Nat} (h : SafeIs x s) : SafeIs x (emOverrun i s) :=
  ((h.regBit (by unfold PA_STAT EM_OVR; omega)).cnt (by decide)).evt (by decide)

theorem emDrive_safeIs {k : Nat} {active : Bool} (h : SafeIs x s) : SafeIs x (emDrive k active s) :=
  (h.fbset (by unfold PA_STAT; simp only; omega)).emit

theorem emOutTask_safeIs {k : Nat} (h : SafeIs x s) : SafeIs x (emOutTask k s) := by
  unfold emOutTask
  extract_lets o
  refine .ite (fun _ => h) (fun _ => ?_)
  split
  · exact emDrive_safeIs h
  · exact h
  · exact .ite (fun _ => emOverrun_safeIs h) (fun _ => emDrive_safeIs (h.fbset (by unfold PA_STAT; simp only; omega)))

theorem emCapTask_safeIs {c : Nat} (h : SafeIs x s) (hc : c < 8) : SafeIs x (emCapTask c s) := by
  unfold emCapTask
  extract_lets o s1
  have hs1 : SafeIs x s1 := ((emOverrun_safeIs h).cnt (by unfold PA_STAT TB_CAP_CNT_OVR; omega)).evt (by decide)
  exact .ite (fun _ => h) (fun _ => .ite (fun _ => .ite (fun _ => captureAll_safeIs hs1) (fun _ => hs1))
    (fun _ => captureAll_safeIs h))

theorem emGateTask_safeIs (h : SafeIs x s) : SafeIs x (emGateTask s) := by
  unfold emGateTask
  split
  · exact h
  · exact h.setViews

theorem emCellTask_safeIs {k j : Nat} (h : SafeIs x s) : SafeIs x (emCellTask k j s) :=
  .ite (fun _ => h) (fun _ => h.setEm)

theorem emTask_safeIs {det : Nat → State → State} {i : Nat} (hdet : ∀ n t, SafeIs x t → SafeIs x (det n t)) (h : SafeIs x s) :
    SafeIs x (emTask det i s) :=
  .ite (fun _ => emOutTask_safeIs h) (fun _ => .ite (fun _ => emCapTask_safeIs h (by omega)) (fun _ =>
    .ite (fun _ => emGateTask_safeIs h) (fun _ => .ite (fun _ => hdet _ _ h) (fun _ =>
    .ite (fun _ => h.evtBit (by decide)) (fun _ => .ite (fun _ => h) (fun _ => emCellTask_safeIs h))))))

theorem emFireWith_safeIs {det : Nat → State → State} {ps : List Nat} (hdet : ∀ n t, SafeIs x t → SafeIs x (det n t))
    (h : SafeIs x s) : SafeIs x (emFireWith det ps s) := by
  unfold emFireWith
  extract_lets on s1 cs s2
  have hs1 : SafeIs x s1 := h.forEach (fun _ _ ht => ht.setEm)
  have hs2 : SafeIs x s2 := hs1.forEach (fun _ _ ht => ht.regBit (by unfold PA_STAT EM_COINC; omega))
  exact .ite (fun _ => h) (fun _ => hs2.forEach (fun _ _ ht => emTask_safeIs hdet ht))

theorem paSetSticky_safeIs {n : Nat} {b : Bool} (h : SafeIs x s) : SafeIs x (paSetSticky s n b) := by
  unfold paSetSticky
  extract_lets was m s1
  have hs1 : SafeIs x s1 := h.regBit (by unfold PA_STAT PA_STICKY; omega)
  exact hs1.setField

theorem paCount_safeIs {n : Nat} (h : SafeIs x s) : SafeIs x (paCount s n) :=
  (paSetSticky_safeIs h).cnt (by unfold PA_STAT PA_CNT; omega)

theorem paLog_safeIs {n c : Nat} (h : SafeIs x s) : SafeIs x (paLog s n c) := by
  unfold paLog
  extract_lets i s1 src' s2 s3
  have hs1 : SafeIs x s1 := .ite (fun _ => (h.cntWrap (by decide)).evt (by decide)) (fun _ => h)
  have hs2 : SafeIs x s2 := hs1.setPa
  have hs3 : SafeIs x s3 := hs2.wrn (by unfold PA_STAT PA_LOG_INFO; omega)
  exact (hs3.wrn (by unfold PA_STAT PA_LOG_STAMP; omega)).wrn (by unfold PA_STAT PA_LOG_SEQ; omega)

theorem paNotice_safeIs {n c : Nat} (h : SafeIs x s) : SafeIs x (paNotice s n c) :=
  h.of_reads (paNotice_reads safeReg_paStat (.refl _ _))

theorem paReact_safeIs {n c : Nat} (h : SafeIs x s) : SafeIs x (paReact s n c) := by
  unfold paReact
  extract_lets s1 s2 s3 src' s4 s5 src'2
  have hs1 : SafeIs x s1 := h.evtBit (by decide)
  have hs2 : SafeIs x s2 := .ite (fun _ => paLog_safeIs hs1) (fun _ => hs1)
  have hs3 : SafeIs x s3 := .ite (fun _ => .field hs2) (fun _ => hs2)
  have hs4 : SafeIs x s4 := .ite (fun _ => hs3.setPa.fset (by decide)) (fun _ => hs3)
  have hs5 : SafeIs x s5 := .ite (fun _ => hs4) (fun _ => (hs4.wrn (by decide)).wrn (by decide))
  exact .ite (fun _ => .ite (fun _ => hs5) (fun _ => hs5.setPa)) (fun _ => hs4)

/-- A detection that reacts to a SEVERE or FATAL source, or any detection while the safe state is in force, leaves it in
force. -/
theorem paDetectCore_safeIs {n : Nat} (h : SafeIs true s ∨ (2 ≤ paClass s n ∧ paReacts s n = true)) :
    SafeIs true (paDetectCore n s) := by
  have keep : ∀ {y : Bool}, SafeIs y s → SafeIs y (if 2 ≤ paClass s n ∧ s.rs.asleep = true then
      { paCount s n with rs := { (paCount s n).rs with wakeReq := true } } else paCount s n) := fun hy =>
    .ite (fun _ => (paCount_safeIs hy).setRs) (fun _ => paCount_safeIs hy)
  unfold paDetectCore
  extract_lets cls s0 src s1 s2 s3
  have hs3 : SafeIs true s3 := by
    refine .ite (fun _ => safeState_safeEnter s2) (fun hc => ?_)
    rcases h with h | h
    · exact paReact_safeIs (keep h)
    · exact absurd h.1 hc
  refine .ite (fun _ => .ite (fun _ => paNotice_safeIs hs3) (fun _ => hs3)) (fun hr => ?_)
  rcases h with h | h
  · exact keep h
  · exact absurd h.2 hr

theorem paDetect_safeIs {n : Nat} (h : SafeIs true s ∨ (2 ≤ paClass s n ∧ paReacts s n = true)) : SafeIs true (paDetect n s) := by
  unfold paDetect
  extract_lets s1
  have hs1 : SafeIs true s1 := paDetectCore_safeIs h
  exact .ite (fun _ => hs1.forEach (fun _ _ ht => emFireWith_safeIs (fun _ _ hu => paDetectCore_safeIs (.inl hu)) ht)) (fun _ => hs1)

theorem paClass_lt (s : State) (n : Nat) : paClass s n < 4 := by
  have h := bits_lt (rdn s (PA_CLASS + n / 16 * 4)) (2 * (n % 16) + 1) (2 * (n % 16))
  rwa [show 2 * (n % 16) + 1 + 1 - 2 * (n % 16) = 2 by omega] at h

theorem rdn_paSetSticky_other (s : State) {n a : Nat} (b : Bool) (h1 : a ≠ PA_STICKY + n / 32 * 4) (h2 : a ≠ PA_STAT) :
    rdn (paSetSticky s n b) a = rdn s a :=
  (rdn_fset_other _ fPA_STAT_STICKY_CNT _ 0 h2).trans (rdn_wrn_other s _ h1)

theorem paSticky_paSetSticky (s : State) (n : Nat) (b : Bool) : paSticky (paSetSticky s n b) n = b := by
  have hne : PA_STICKY + n / 32 * 4 ≠ fPA_STAT_STICKY_CNT.reg + 0 := by
    unfold PA_STICKY
    simp only
    omega
  have hr : rdn (paSetSticky s n b) (PA_STICKY + n / 32 * 4) = rdn (regBit s (PA_STICKY + n / 32 * 4) (n % 32) b) (PA_STICKY + n / 32 * 4) :=
    rdn_fset_other _ fPA_STAT_STICKY_CNT _ 0 hne
  unfold paSticky
  rw [hr]
  exact bit_regBit_same s _ _ (Nat.mod_lt _ (by decide))

theorem paCount_of_not_reacts {s : State} {n : Nat} (hr : paReacts s n = false) (ha : s.rs.asleep = false) :
    paDetect n s = paCount s n := by
  have hcore : paDetectCore n s = paCount s n := by
    unfold paDetectCore
    simp only [hr, ha, Bool.false_eq_true, and_false, if_false]
  have hkeep : safeState (paCount s n) = safeState s := paCount_safeIs rfl
  unfold paDetect
  simp only [hcore, hkeep, Bool.not_and_self, Bool.false_eq_true, if_false]

/-- The count and the sticky bit of a detection. -/
theorem paCount_latches {s : State} {n : Nat} (hlt : rdn s (PA_CNT + paClass s n * 4) < 0xFFFFFFFF) :
    paSticky (paCount s n) n = true ∧ rdn (paCount s n) (PA_CNT + paClass s n * 4) = rdn s (PA_CNT + paClass s n * 4) + 1 := by
  have hcls := paClass_lt s n
  constructor
  · have hk : rdn (paCount s n) (PA_STICKY + n / 32 * 4) = rdn (paSetSticky s n true) (PA_STICKY + n / 32 * 4) :=
      rdn_cnt_other _ (by unfold PA_STICKY PA_CNT; omega)
    unfold paSticky
    rw [hk]
    exact paSticky_paSetSticky s n true
  · rw [paCount, rdn_cnt_same, rdn_paSetSticky_other s true (by unfold PA_STICKY PA_CNT; omega) (by unfold PA_STAT PA_CNT; omega)]
    omega

theorem busIsSafe_safeEnter {s : State} (h : safeState s = false) (b : BusNo) : BusIsSafe b.val (safeEnter s) := by
  unfold safeEnter
  rw [if_neg (by simp [h])]
  exact busIsSafe_actSafe b _

/-- Settles O52, from the writes of `paCount` and the steps of the safe state. -/
theorem detectionsLatchAndEnterTheSafeState : Obligations.DetectionsLatchAndEnterTheSafeState := by
  unfold Obligations.DetectionsLatchAndEnterTheSafeState
  exact ⟨fun _ _ _ hlt => paCount_latches hlt, fun _ _ hr ha => paCount_of_not_reacts hr ha, fun s h => if_pos h,
    fun s => ⟨safeState_safeEnter s, fun b h => busIsSafe_safeEnter h b⟩, fun _ _ hc hr => paDetect_safeIs (.inr ⟨hc, hr⟩)⟩

end Sys2Proof.Machine
end

section
/-! What the reset state holds. -/

namespace Sys2Proof.Machine

set_option Elab.async false

/-! ## Reset and boot -/

/-- Settles O7: nothing is listed in any memory, and the reset state is spelled out in its definition. -/
theorem resetStateHoldsResetValues : Obligations.ResetStateHoldsResetValues := by
  unfold Obligations.ResetStateHoldsResetValues
  refine ⟨fun _ => rfl, fun _ => rfl, fun _ => rfl, rfl, rfl, rfl, rfl, rfl, rfl, fun p => ?_, fun b => ?_, by decide, by decide, ?_⟩
  · simp [State.reset, PortSt.reset]
  · fin_cases b <;> exact ⟨rfl, rfl⟩
  · decide

end Sys2Proof.Machine
end

section
/-! Power-on reset and boot. -/

namespace Sys2Proof.Machine

set_option Elab.async false

theorem mem_outbox_emit {s : State} {o x : Out} : o ∈ (emit s x).outbox ↔ o ∈ s.outbox ∨ o = x := by
  simp [emit, or_comm]

theorem mem_outbox_forEach {α : Type} {l : List α} {f : α → State → State} {o : Out}
    (hf : ∀ x t, o ∈ t.outbox → o ∈ (f x t).outbox) {s : State} (h : o ∈ s.outbox) : o ∈ (forEach l f s).outbox := by
  induction l generalizing s with
  | nil => exact h
  | cons x l ih => exact ih (hf x s h)

/-- The outputs at their reset levels are added to what was sent. -/
theorem mem_outbox_outputsReset {s : State} {o : Out}
    (h : o ∈ s.outbox ∨ o = .pin "DIVERT_N" 0 false ∨ o = .pin "ALIVE" 0 false ∨ o = .pin "REPLACE_N" 0 true) :
    o ∈ (outputsReset s).outbox := by
  have grow : ∀ (t : State) (x : Out), o ∈ t.outbox → o ∈ (emit t x).outbox := fun t x ht => mem_outbox_emit.mpr (.inl ht)
  have h1 : o ∈ (emit (emit (emit s (.pin "DIVERT_N" 0 false)) (.pin "ALIVE" 0 false)) (.pin "REPLACE_N" 0 true)).outbox := by
    rw [mem_outbox_emit, mem_outbox_emit, mem_outbox_emit, or_assoc, or_assoc]
    exact h
  unfold outputsReset
  exact mem_outbox_forEach (fun _ _ ht => grow _ _ (grow _ _ (grow _ _ ht))) (mem_outbox_forEach (fun _ _ ht => grow _ _ ht)
    (grow _ _ (mem_outbox_forEach (fun _ _ ht => grow _ _ (grow _ _ ht)) h1)))

theorem outputsReset_same (s : State) {p : Comp} (hp : p ≠ .outbox) : p.same s (outputsReset s) :=
  kept_of_sound p outputsReset_sound (by cases p <;> first | rfl | exact absurd rfl hp)

/-- Settles O10: the outputs' reset levels are messages only. -/
theorem powerOnResetClearsAllButTheMedium : Obligations.PowerOnResetClearsAllButTheMedium := by
  unfold Obligations.PowerOnResetClearsAllButTheMedium
  refine ⟨fun s => rfl, fun s => rfl, fun s p h1 h2 h3 h4 h5 => ?_, fun s => ?_⟩
  · refine Comp.same_trans (s := { State.reset with
      pending := s.pending, outbox := s.outbox, freeCtr := s.freeCtr, ev := keepMedium s.ev
      he := { State.reset.he with perst := s.he.perst } }) ?_ (outputsReset_same _ h4)
    cases p <;> first | rfl | contradiction
  · have keep := fun (p : Comp) (hp : p ≠ .outbox) => outputsReset_same { State.reset with
      pending := s.pending, outbox := s.outbox, freeCtr := s.freeCtr, ev := keepMedium s.ev
      he := { State.reset.he with perst := s.he.perst } } hp
    have hrs : (porst s).rs = State.reset.rs := keep .rs (by decide)
    exact ⟨keep .pending (by decide), keep .freeCtr (by decide), keep .ev (by decide), keep .he (by decide), by rw [hrs]; rfl,
      fun o ho => mem_outbox_outputsReset (.inl ho), mem_outbox_outputsReset (.inr (.inl rfl)),
      mem_outbox_outputsReset (.inr (.inr (.inl rfl))), mem_outbox_outputsReset (.inr (.inr (.inr rfl)))⟩

theorem mediumBoot_unusable {m : Medium} (h : mediumUsable m = false) (s : State) : mediumBoot m s = bootError 3 s :=
  if_pos (by simp [h])

/-- Settles O11: each row by the branch that its hypotheses select. -/
theorem bootStepsComplete : Obligations.BootStepsComplete := by
  unfold Obligations.BootStepsComplete
  refine ⟨fun f s u hh ht hu => ?_, fun f s u s1 hh ht hm hb hu h1 => ?_, fun f s u s1 s2 hh ht hm hg hi hu h1 he h2 => ?_,
    fun s h => ?_, fun g s h hr => ?_, fun g s h hr => ?_, fun b s s1 hd ht hs h4 h1 => ?_⟩
  · simp only [exec, execPowerOnResetRelease, release, hh, ht, ← hu, Bool.not_true, Bool.not_false, Bool.false_eq_true, if_true,
      if_false]
  · simp only [exec, execPowerOnResetRelease, release, hh, ht, hm, hb, ← hu, mediumBoot_unusable hm, ← h1, Bool.not_true,
      Bool.false_eq_true, if_false, Bool.false_and, Bool.and_false, beq_eq_false_iff_ne.mpr hb, Bool.or_self]
  · simp only [exec, execPowerOnResetRelease, release, hh, ht, hm, hi, ← hu, ← h1, he, ← h2, bne_iff_ne.mpr hg, Bool.not_true,
      Bool.false_eq_true, if_false, if_true, Bool.true_and, Bool.and_true, Bool.and_self, beq_self_eq_true, Bool.true_or]
    simp [h2]
  · simp only [exec, execDennilRunning, dennilRunning, h, ne_eq, not_true, if_false]
  · simp only [exec, execFirmwareStartTimeout, startTimeout, h, hr, ne_eq, not_true, if_false, if_true]
  · simp only [exec, execFirmwareStartTimeout, startTimeout, h, hr, ne_eq, not_true, if_false]
  · simp only [exec, execFullServiceEntry, fullService, hd, ht, hs, Nat.not_lt.mpr h4, ← h1, Bool.not_true, Bool.or_false,
      decide_false, Bool.false_eq_true, if_false]

end Sys2Proof.Machine
end

section
/-! Unit reset, sleep, wake and capture. -/

namespace Sys2Proof.Machine

set_option Elab.async false

theorem rdn_paPins {a : Nat} (h : a ≠ PA_STAT) (s : State) : rdn (paPins s) a = rdn s a := by
  have h0 : Reads a (rdn s a) s := Eq.refl _
  have h1 : Reads a (rdn s a) (if (safeState s || fbit s fPA_DIVERT_HOLD) = fbit s fPA_STAT_DIVERT then s
      else emit (fbset s fPA_STAT_DIVERT (safeState s || fbit s fPA_DIVERT_HOLD))
        (.pin "DIVERT_N" 0 (!(safeState s || fbit s fPA_DIVERT_HOLD)))) :=
    Reads.ite (fun _ => h0) (fun _ => emit_reads (fbset_reads h h0))
  exact Reads.ite (fun _ => emit_reads ((fbset_reads h h1).set)) (fun _ => fbset_reads h h1)

theorem rdn_holdWrite {a : Nat} (h1 : a ≠ PA_STAT) (h2 : a ≠ PA_DIVERT) (b : Bool) (s : State) : rdn (holdWrite b s) a = rdn s a :=
  (rdn_paPins h1 _).trans (rdn_fset_other s fPA_DIVERT_HOLD _ 0 h2)

theorem holdWrite_rs (b : Bool) (s : State) : (holdWrite b s).rs = s.rs := kept_of_sound .rs holdWrite_sound

theorem withCut_rs {p : Nat} {f : Fin 3 → State → State} (hf : ∀ k t, (f k t).rs = t.rs) (s : State) : (withCut p f s).rs = s.rs := by
  unfold withCut
  split
  · exact hf _ _
  · exact hf _ _

/-- What a unit asleep shows: asleep, without a wake request, the patrol stopped. -/
def Slept (t : State) : Prop := t.rs.asleep = true ∧ t.rs.wakeReq = false ∧ fbit t fEV_STAT_PATROL = false

theorem fbit_cnt_other (s : State) {a : Nat} (f : Fld) (o : Nat) (h : f.reg + o ≠ a) : fbit (cnt s a) f o = fbit s f o := by
  unfold fbit fget
  rw [rdn_cnt_other s h]

theorem slept_of_patrolStopped {s : State} (h1 : s.rs.asleep = true) (h2 : s.rs.wakeReq = false) :
    Slept (cnt (fbset s fEV_STAT_PATROL false) RS_CNT_SLEEP) := by
  refine ⟨by rwa [cnt_rs, fbset_rs], by rwa [cnt_rs, fbset_rs], ?_⟩
  exact (fbit_cnt_other _ _ _ (by decide)).trans (fbit_fbset_same s _ false 0)

theorem updBus_rs (s : State) (b : Nat) (f : BusSt → BusSt) : (updBus s b f).rs = s.rs := kept_of_sound .rs updBus_sound

theorem portEnable_rs (s : State) (p : Nat) (b : Bool) (k : Fin 3) : (portEnable p b k s).rs = s.rs := kept_of_sound .rs portEnable_sound

theorem sleepStep_rs (x : Nat) (t : State) :
    (if x < 16 then withCut x (portEnable x false) t
      else updBus (fbset t fAC_BUS_CTL_EN false (buo (x - 16))) (x - 16) (fun b => { b with wire := .idle })).rs = t.rs := by
  split
  · exact withCut_rs (fun k u => portEnable_rs u x false k) t
  · rw [updBus_rs, fbset_rs]

theorem runSleep_sleeps {c : CmdCall} {s : State} (hi : unitIdle s = true) (hl : ∀ i, i < 32 → leaseHeld s i = false) :
    ∃ t, runSleep c s = (t, .silent) ∧ Slept t := by
  have hany : (List.range 32).any (leaseHeld s) = false := by
    rw [List.any_eq_false]
    intro i hm
    simp [hl i (List.mem_range.mp hm)]
  simp only [runSleep, hi, hany, Bool.not_true, Bool.or_self, Bool.false_eq_true, if_false]
  refine ⟨_, rfl, slept_of_patrolStopped ?_ ?_⟩
  · rw [forEach_kept State.rs sleepStep_rs, holdWrite_rs]
  · rw [forEach_kept State.rs sleepStep_rs, holdWrite_rs]

theorem wake_wakes {s : State} (ha : s.rs.asleep = true) (hw : s.rs.wakeReq = true) (hl : s.rs.slept = []) :
    (wake s).rs.asleep = false ∧ (wake s).rs.wakeReq = false ∧ fbit (wake s) fRS_CAUSE_WAKE = true := by
  have hq : QuietReg (fRS_CAUSE_WAKE.reg + 0) := ⟨by decide, by decide⟩
  unfold wake
  rw [if_neg (by simp [ha, hw]), hl]
  extract_lets r s1 s2
  have hrs : s2.rs = s1.rs := (forEach_kept State.rs (fun x t => kept_of_sound .rs mbFetch_sound) _).trans (fbset_rs _ _ _ _)
  have hb : fbit s2 fRS_CAUSE_WAKE = true := by
    refine (fbit_of_reads (s := fbset s1 fRS_CAUSE_WAKE true) ?_).trans (fbit_fbset_same s1 fRS_CAUSE_WAKE true 0)
    exact rdn_forEach (fun x t => rdn_mbFetch x t hq) _
  have h1 : s2.rs.asleep = false := by rw [hrs]; rfl
  have h2 : s2.rs.wakeReq = false := by rw [hrs]; rfl
  split
  · exact ⟨by rwa [holdWrite_rs], by rwa [holdWrite_rs],
      (fbit_of_reads (rdn_holdWrite (by decide) (by decide) false s2)).trans hb⟩
  · exact ⟨h1, h2, hb⟩

/-- Settles O12: each row by the branch that its hypotheses select. -/
theorem resetAndSampleCommandsComplete : Obligations.ResetAndSampleCommandsComplete := by
  unfold Obligations.ResetAndSampleCommandsComplete
  refine ⟨fun c s h => ?_, fun c s h hd => ?_, fun c s h hi hl => ?_, fun c s u h hu => ?_, fun s ha hw hl => ?_,
    fun s h1 h2 h3 => ?_, fun s t h1 h2 h3 ht hv ha hs => ?_, fun s => ⟨rfl, rfl, rfl⟩, fun s => rfl, fun tj s => ?_⟩
  · exact congrArg Host.Outcome.next (mbRun_silent h rfl)
  · exact congrArg Host.Outcome.next (mbRun_silent h (if_neg (not_not.mpr hd)))
  · obtain ⟨t, hr, ht⟩ := runSleep_sleeps (c := c) hi hl
    exact ⟨t, congrArg Host.Outcome.next (mbRun_silent h hr), ht⟩
  · subst hu
    exact congrArg Host.Outcome.next (mbRun_ok h rfl)
  · exact ⟨_, rfl, wake_wakes ha hw hl⟩
  · simp only [exec, execCapture, capture, h1, h2, h3, Bool.not_true, Bool.false_eq_true, if_false, if_true]
  · refine ⟨⟨cwArg s 0 % 2, bits (cwArg s 1) 30 16, bits (cwArg s 1) 15 0, cwArg s 2,
      bits (cwArg s 1) 30 16 * ((bits (cwArg s 1) 15 0 + 3) / 4),
      cwArg s 3 / (bits (cwArg s 1) 30 16 * ((bits (cwArg s 1) 15 0 + 3) / 4))⟩, rfl, rfl, rfl, rfl, rfl, rfl, ?_⟩
    have hn : ¬ cwArg s 3 < bits (cwArg s 1) 30 16 * ((bits (cwArg s 1) 15 0 + 3) / 4) := by omega
    simp only [exec, execCapture, capture, h1, h2, h3, ← ht, hv, ha, hn, Bool.not_true, Bool.false_eq_true, if_false,
      decide_false, bne_self_eq_false, Bool.or_self]
  · refine ⟨_, rfl, ?_, fun h1 h2 => ?_, fun h1 => ?_⟩
    · have h : fget (fset s fPA_THERM_TJ tj.toNat) fPA_THERM_TJ = tj.toNat :=
        (fget_fset_same s fPA_THERM_TJ tj.toNat 0).trans (Nat.mod_eq_of_lt tj.isLt)
      dsimp only
      split
      · exact h
      · exact h
    · rw [if_pos ⟨h1, h2⟩]
      rfl
    · rw [if_neg (by simp [h1])]
      rfl

end Sys2Proof.Machine
end

section
/-! Ports: enable and disable. -/

namespace Sys2Proof.Machine

set_option Elab.async false

theorem gated_of_covered {ag : Agent} {func : Nat} {port : Option Nat} {s : State} (h : ag = .dennil ∨ leased s func port = true)
    (b : Bool) (f : State → State) : gated ag func port b f s = f s := if_pos h

theorem fixDual_reads {a v p q : Nat} {s : State} (h1 : a ≠ CX_BANK + pof q) (h2 : a ≠ SG_BANK + pof q) (h : Reads a v s) :
    Reads a v (fixDual p q s) := fset_reads h2 (fset_reads h1 h)

theorem portSt_updPort_same (s : State) (p : Nat) (f : PortSt → PortSt) : portSt (updPort s p f) p = f (portSt s p) := by
  simp [portSt, updPort]

/-- The registers of a port, as its enable leaves them. -/
def EnableRegs (p : Nat) (t : State) : Prop :=
  fbit t fPP_CTL_EN (pof p) = true ∧ rdn t (PP_FRAME_CNT + pof p) = 0xFFFFFFFF ∧ fbit t fPP_STAT_CFG_ERR (pof p) = false

theorem enableRegs_set (p : Nat) (s : State) :
    EnableRegs p (wrn (fbset (fbset s fPP_STAT_CFG_ERR false (pof p)) fPP_CTL_EN true (pof p)) (PP_FRAME_CNT + pof p) 0xFFFFFFFF) := by
  have e1 : fPP_CTL_EN.reg + pof p ≠ PP_FRAME_CNT + pof p := by simp [fPP_CTL_EN, PP_CTL, PP_FRAME_CNT]
  have e2 : fPP_STAT_CFG_ERR.reg + pof p ≠ PP_FRAME_CNT + pof p := by simp [fPP_STAT_CFG_ERR, PP_STAT, PP_FRAME_CNT]
  have e3 : fPP_STAT_CFG_ERR.reg + pof p ≠ fPP_CTL_EN.reg + pof p := by simp [fPP_STAT_CFG_ERR, PP_STAT, fPP_CTL_EN, PP_CTL]
  refine ⟨?_, rdn_wrn_same _ _ _, ?_⟩
  · exact (fbit_of_reads (wrn_reads e1 (.refl _ _))).trans (fbit_fbset_same _ fPP_CTL_EN true _)
  · exact (fbit_of_reads (wrn_reads e2 (fbset_reads e3 (.refl _ _)))).trans (fbit_fbset_same _ fPP_STAT_CFG_ERR false _)

theorem EnableRegs.stripId {p n : Nat} {s : State} (h : EnableRegs p s) : EnableRegs p (fset s fPP_STAT_STRIP_ID n (pof p)) := by
  obtain ⟨h1, h2, h3⟩ := h
  have e1 : fPP_CTL_EN.reg + pof p ≠ fPP_STAT_STRIP_ID.reg + pof p := by simp [fPP_STAT_STRIP_ID, PP_STAT, fPP_CTL_EN, PP_CTL]
  have e2 : PP_FRAME_CNT + pof p ≠ fPP_STAT_STRIP_ID.reg + pof p := by simp [fPP_STAT_STRIP_ID, PP_STAT, PP_FRAME_CNT]
  refine ⟨(fbit_of_reads (fset_reads e1 (.refl _ _))).trans h1, (fset_reads e2 (.refl _ _)).trans h2, ?_⟩
  rw [← h3]
  exact congrArg (fun n => decide (n = 1)) (fget_fset_field s fPP_STAT_STRIP_ID fPP_STAT_CFG_ERR n _ _ rfl (by decide) (by decide) (by decide) (by decide))

theorem EnableRegs.fixDual {n p q : Nat} {s : State} (h : EnableRegs n s) : EnableRegs n (fixDual p q s) := by
  obtain ⟨h1, h2, h3⟩ := h
  have keep : ∀ a, a = PP_CTL ∨ a = PP_FRAME_CNT ∨ a = PP_STAT → Reads (a + pof n) (rdn s (a + pof n)) (Machine.fixDual p q s) := by
    intro a ha
    refine fixDual_reads ?_ ?_ (.refl _ _)
    · unfold PP_CTL PP_FRAME_CNT PP_STAT at ha
      unfold CX_BANK pof
      omega
    · unfold PP_CTL PP_FRAME_CNT PP_STAT at ha
      unfold SG_BANK pof
      omega
  exact ⟨(fbit_of_reads (keep PP_CTL (.inl rfl))).trans h1, (keep PP_FRAME_CNT (.inr (.inl rfl))).trans h2,
    (fbit_of_reads (keep PP_STAT (.inr (.inr rfl)))).trans h3⟩

/-- Settles O13: the branches of `ppCtlPut`, `portOff` and `portOn`. -/
theorem portEnableAndDisable : Obligations.PortEnableAndDisable := by
  unfold Obligations.PortEnableAndDisable
  refine ⟨fun ag p v s h => ?_, fun ag p s h he => ?_, fun ag p s h he => ?_, fun p v s ho he hv hg => ?_, fun p s he hv => ?_,
    fun p s he hv hc => ?_⟩
  · exact congrArg Host.Outcome.next (gated_of_covered h _ _)
  · refine congrArg Host.Outcome.next ((gated_of_covered h _ _).trans ?_)
    simp only [portOff, he, Bool.not_true, Bool.false_eq_true, if_false]
  · refine congrArg Host.Outcome.next ((gated_of_covered h _ _).trans ?_)
    simp only [portOff, he, Bool.not_false, if_true]
  · simp only [ppCtlPut, ho, he, hv, hg, Bool.and_not_self, Bool.false_eq_true, if_false, if_true]
  · refine ⟨fbset s fPP_STAT_CFG_ERR true (pof p.val), ?_, fbit_fbset_same _ _ _ _, ?_⟩
    · simp only [portOn, he, hv, Bool.not_false, Bool.false_eq_true, if_false, if_true]
    · refine (fbit_of_reads (fbset_reads ?_ (.refl _ _))).trans he
      simp [fPP_STAT_CFG_ERR, PP_STAT, fPP_CTL_EN, PP_CTL]
  · unfold portOn
    rw [if_neg (by simp [he]), if_neg (by simp [hv])]
    extract_lets s1 n s2 s3 s4 s5
    rw [if_neg (by simp [s1, n, hc])]
    have h4 : EnableRegs p.val s4 := by
      unfold s4
      split
      · exact (enableRegs_set p.val _).stripId
      · exact enableRegs_set p.val _
    obtain ⟨h1, h2, h3⟩ : EnableRegs p.val s5 := by
      unfold s5
      split
      · exact h4.fixDual.fixDual
      · exact h4.fixDual
    exact ⟨_, rfl, h1, h2, h3, by rw [portSt_updPort_same], by rw [portSt_updPort_same]⟩

end Sys2Proof.Machine
end

section
/-! What operations keep of a port, and what a frame start leaves in it. -/

namespace Sys2Proof.Machine

set_option Elab.async false

/-! ## What an operation keeps of a port's state -/

section
variable {β α : Type} {g : PortSt → β} {b s t : State}

/-- Every port of `s` reads as in `b` under `g`. -/
def PortsKeep (g : PortSt → β) (b s : State) : Prop := ∀ q, g (portSt s q) = g (portSt b q)

theorem PortsKeep.refl (g : PortSt → β) (s : State) : PortsKeep g s s := fun _ => rfl

theorem portSt_congr (h : t.ports = s.ports) (q : Nat) : portSt t q = portSt s q := by
  simp only [portSt, h]

theorem PortsKeep.of_ports (h : PortsKeep g b s) (e : t.ports = s.ports) : PortsKeep g b t :=
  fun q => (congrArg g (portSt_congr e q)).trans (h q)

theorem vector_set_fin {γ : Type} {n : Nat} (v : Vector γ n) (i j : Fin n) (x : γ) :
    (v.set i x)[j] = if i = j then x else v[j] := by
  simp [Vector.getElem_set, Fin.ext_iff]

theorem portSt_updPort (s : State) (p q : Nat) (f : PortSt → PortSt) :
    portSt (updPort s p f) q = if Fin.ofNat 16 p = Fin.ofNat 16 q then f (portSt s p) else portSt s q :=
  vector_set_fin s.ports _ _ _

theorem PortsKeep.updPort {p : Nat} {f : PortSt → PortSt} (h : PortsKeep g b s) (hf : ∀ x, g (f x) = g x := by intro x; rfl) :
    PortsKeep g b (updPort s p f) := fun q => by
  rw [portSt_updPort]
  split
  · rename_i e
    have hp : portSt s p = portSt s q := congrArg (fun i : Fin 16 => s.ports[i]) e
    rw [hf, hp, h q]
  · exact h q

theorem PortsKeep.wrn {a v : Nat} (h : PortsKeep g b s) : PortsKeep g b (wrn s a v) := h.of_ports rfl

theorem PortsKeep.fset {f : Fld} {v o : Nat} (h : PortsKeep g b s) : PortsKeep g b (fset s f v o) := h.of_ports rfl

theorem PortsKeep.fbset {f : Fld} {v : Bool} {o : Nat} (h : PortsKeep g b s) : PortsKeep g b (fbset s f v o) := h.of_ports rfl

theorem PortsKeep.cnt {a : Nat} (h : PortsKeep g b s) : PortsKeep g b (cnt s a) := h.of_ports rfl

theorem PortsKeep.evt {f : Fld} {o : Nat} (h : PortsKeep g b s) : PortsKeep g b (evt s f o) :=
  h.of_ports (kept_of_sound .ports evt_sound)

theorem PortsKeep.evtCnt {f : Fld} {c o : Nat} (h : PortsKeep g b s) : PortsKeep g b (evtCnt s f c o) :=
  h.of_ports (kept_of_sound .ports evtCnt_sound)

theorem PortsKeep.ite {c : Prop} [Decidable c] (h1 : PortsKeep g b s) (h2 : PortsKeep g b t) :
    PortsKeep g b (if c then s else t) := by
  split
  · exact h1
  · exact h2

theorem PortsKeep.forEach {l : List α} {f : α → State → State} (h : PortsKeep g b s)
    (hf : ∀ x t, PortsKeep g b t → PortsKeep g b (f x t)) : PortsKeep g b (forEach l f s) := by
  induction l generalizing s with
  | nil => exact h
  | cons x l ih => exact ih (hf x s h)

theorem PortsKeep.updTap {p e : Nat} {f : TapSt → TapSt} (h : PortsKeep g b s) (hf : ∀ x y, g { x with taps := y } = g x := by intro x y; rfl) :
    PortsKeep g b (updTap p e f s) := (h.updPort (fun x => hf x _)).fbset

end

/-! ## Frames and lines -/

section
variable {s b : State} {p y : Nat}

theorem setSlotState_fsKeeps {β : Type} {g : PortSt → β} {k st : Nat} (h : PortsKeep g b s) : PortsKeep g b (setSlotState p k st s) :=
  h.of_ports (kept_of_sound .ports setSlotState_sound)

/-- The fields of a port that its frame start sets. -/
def frameFields (x : PortSt) : Nat × Option CurFrame := (x.fsStamp, x.cur)

/-- What a line still owes, and the next line to be placed. -/
def placeFields (x : PortSt) : Option (Nat × Nat) × Nat := (x.owed, x.nPlc)

theorem slotEnd_keeps {k st f fs : Nat} (h : PortsKeep PortSt.fsStamp b s) : PortsKeep PortSt.fsStamp b (slotEnd p k st f fs s) := by
  unfold slotEnd
  extract_lets x rep s1
  have h1 : PortsKeep PortSt.fsStamp b s1 := setSlotState_fsKeeps h
  split
  · exact h1.updPort
  · exact h1.of_ports (kept_of_sound .ports sendApplied_sound)

theorem compSwitch_keeps {f fs : Nat} (h : PortsKeep PortSt.fsStamp b s) : PortsKeep PortSt.fsStamp b (compSwitch p f fs s) := by
  unfold compSwitch
  extract_lets l
  split
  · exact h
  · extract_lets o s1 s2
    have h2 : PortsKeep PortSt.fsStamp b s2 := h.of_ports rfl
    refine h2.forEach fun k t ht => .ite ?_ ?_
    · exact slotEnd_keeps ht.evt
    · exact slotEnd_keeps ht.evtCnt

theorem bankSwap_keeps {bank done f : Nat} {ev : Fld} {cx : Bool} (h : PortsKeep PortSt.fsStamp b s) :
    PortsKeep PortSt.fsStamp b (bankSwap bank done ev cx p f s) := by
  unfold bankSwap
  extract_lets x
  split
  · exact h
  · refine .ite h (PortsKeep.updPort ?_ ?_)
    · exact PortsKeep.evt (.wrn (.wrn h))
    · intro x
      split <;> rfl

theorem dmShadow_keeps (h : PortsKeep PortSt.fsStamp b s) : PortsKeep PortSt.fsStamp b (dmShadow p s) :=
  .ite (PortsKeep.evt (.updPort (.fbset h))) h

theorem sgShadow_keeps (h : PortsKeep PortSt.fsStamp b s) : PortsKeep PortSt.fsStamp b (sgShadow p s) :=
  .ite (PortsKeep.evt (.updPort (.fbset h))) h

theorem stShadow_keeps (h : PortsKeep PortSt.fsStamp b s) : PortsKeep PortSt.fsStamp b (stShadow p s) := by
  unfold stShadow
  extract_lets o st e was t1 t2
  have h1 : PortsKeep PortSt.fsStamp b t1 := .updPort (.fbset h)
  have h2 : PortsKeep PortSt.fsStamp b t2 := .fbset (.fbset (.fset h1))
  exact .ite (.ite h2.evt h2) h

theorem shadowApply_keeps {f : Nat} (h : PortsKeep PortSt.fsStamp b s) : PortsKeep PortSt.fsStamp b (shadowApply p f s) := by
  unfold shadowApply
  extract_lets half s1
  have hh : ∀ q t, PortsKeep PortSt.fsStamp b t → PortsKeep PortSt.fsStamp b (half q t) :=
    fun q t ht => dmShadow_keeps (bankSwap_keeps ht)
  have h1 : PortsKeep PortSt.fsStamp b s1 := .ite (hh _ _ (hh _ _ h)) (hh _ _ h)
  exact stShadow_keeps (sgShadow_keeps (bankSwap_keeps h1))

theorem statSelect_keeps {f : Nat} (h : PortsKeep PortSt.fsStamp b s) : PortsKeep PortSt.fsStamp b (statSelect p f s).1 := by
  unfold statSelect
  extract_lets x
  split
  · exact h
  · exact h.updPort

theorem tapUse_keeps {e : Nat} (h : PortsKeep frameFields b s) : PortsKeep frameFields b (tapUse p e s) := by
  unfold tapUse
  extract_lets s1
  have h1 : PortsKeep frameFields b s1 := by
    unfold s1
    split
    · exact h.of_ports (kept_of_sound .ports npEnd_sound)
    · exact .ite h (h.of_ports ((kept_of_sound .ports readNow_sound).trans (kept_of_sound .ports tollSpend_sound)))
  exact h1.updTap

theorem tapTake_keeps {e key f gen : Nat} {l : List Byte} (h : PortsKeep frameFields b s) :
    PortsKeep frameFields b (tapTake p e key f gen l s) := by
  unfold tapTake
  extract_lets o desc s1 head len size fmt stride w need fr
  have h1 : PortsKeep frameFields b s1 := tapUse_keeps h
  exact PortsKeep.of_ports (.updTap (.fset h1)) (kept_of_sound .ports tapFetch_sound)

theorem tapSelect_keeps {e key f gen : Nat} {l : List Byte} (h : PortsKeep frameFields b s) :
    PortsKeep frameFields b (tapSelect p e key f gen l s) := by
  unfold tapSelect
  extract_lets o s0 f0 s1
  have h0 : PortsKeep frameFields b s0 := .ite (.updTap (.fbset h)) h
  have h1 : PortsKeep frameFields b s1 := h0.updTap
  exact .ite h0 (.ite h1 (.ite (.evt (.cnt h1)) (.ite (.cnt h1) (tapTake_keeps h1))))

theorem csiFrameStart_opens {s : State} {st fn : Nat} {d0 d1 : List Byte} (hr : portRx s p = true) :
    ∃ v, csiFrameStart p st fn d0 d1 s = emFire (0x60 + p) (mirror p (slotsAdvance p v)) ∧
      (portSt v p).fsStamp = sub32 st (rdn (closeFrame p (2 ^ fsNO_FE) false (updPort s p (fun x => { x with burst := true })))
        (PP_TS_ADJ + pof p)) ∧ (portSt v p).cur.isSome = true := by
  unfold csiFrameStart
  rw [if_neg (by simp [hr])]
  extract_lets o u fs f gap s1 s2 s3 s4 s5 s6 sel key r s7 s8 s9
  have h4 : (portSt (updPort s4 p (fun x => { x with fsStamp := fs, anyFs := true })) p).fsStamp = fs := by
    rw [portSt_updPort_same]
  have h6 : PortsKeep PortSt.fsStamp (updPort s4 p (fun x => { x with fsStamp := fs, anyFs := true })) sel.1 :=
    statSelect_keeps (shadowApply_keeps (compSwitch_keeps (.refl _ _)))
  have h7 : frameFields (portSt s7 p) = (fs, some ⟨key, 0, 0, if gap then 2 ^ fsFN_GAP else 0, 0, 0, false⟩) := by
    unfold s7
    rw [portSt_updPort_same]
    exact Prod.ext ((h6 p).trans h4) rfl
  have h9 : PortsKeep frameFields s7 s9 := tapSelect_keeps (tapSelect_keeps (.fbset (.fbset (.refl _ _))))
  have hv := (h9 p).trans h7
  have hc : (portSt s9 p).cur = some ⟨key, 0, 0, if gap then 2 ^ fsFN_GAP else 0, 0, 0, false⟩ := congrArg Prod.snd hv
  exact ⟨s9, rfl, congrArg Prod.fst hv, by rw [hc]; rfl⟩

end

end Sys2Proof.Machine
end

section
/-! Packets, frames and the pipeline. -/

namespace Sys2Proof.Machine

set_option Elab.async false

/-! ## The pipeline -/

section
variable {s b : State} {p : Nat}

/-- The waiting items, what a line still owes, and the next line to be placed. -/
def flowFields (x : PortSt) : List RxItem × Option (Nat × Nat) × Nat := (x.rx, x.owed, x.nPlc)

theorem PortsKeep.rx (h : PortsKeep flowFields b s) : PortsKeep PortSt.rx b s := fun q => congrArg Prod.fst (h q)

theorem updLine_keeps {y : Nat} {f : PLine → PLine} (h : PortsKeep flowFields b s) : PortsKeep flowFields b (updLine p y f s) :=
  h.updPort

theorem swapRequest_keeps {bank at_ : Nat} {cx : Bool} (h : PortsKeep flowFields b s) :
    PortsKeep flowFields b (swapRequest bank at_ p cx s) := by
  unfold swapRequest
  extract_lets w req s1
  refine PortsKeep.updPort h.wrn ?_
  intro x
  cases cx <;> rfl

theorem learnEnd_keeps {l : Learn} {strip : Bool} (h : PortsKeep flowFields b s) :
    PortsKeep flowFields b (learnEnd p l strip s) := by
  unfold learnEnd
  extract_lets den mean s0 swap bank bk tS tF s1
  have h0 : PortsKeep flowFields b s0 := h.updPort
  have hS : PortsKeep flowFields b tS := h0.forEach fun k t ht => ht.of_ports (kept_of_sound .ports tblPuts_sound)
  have hF : PortsKeep flowFields b tF := .wrn (.wrn h0)
  have h1 : PortsKeep flowFields b s1 := .ite (.ite (swapRequest_keeps hS.wrn) hS) (.ite hF.fbset hF)
  exact h1.forEach fun x t ht => ht.of_ports (kept_of_sound .ports endD_sound)

theorem learnLine_keeps {r : FrameRec} {l : PLine} (h : PortsKeep flowFields b s) : PortsKeep flowFields b (learnLine p r l s) := by
  unfold learnLine
  split
  · exact h
  · extract_lets strip sums a1
    exact .ite h (.ite (learnEnd_keeps h) h.updPort)

theorem payHalf_ports (s : State) (c n : Nat) : (payHalf c n s).1.ports = s.ports := kept_of_sound .ports payHalf_sound

theorem tollShort_ports (s : State) (c : Nat) (b : Bool) : (tollShort s c b).ports = s.ports := kept_of_sound .ports tollShort_sound

theorem placeLine_rx (h : PortsKeep PortSt.rx b s) : PortsKeep PortSt.rx b (placeLine p s) := by
  unfold placeLine
  extract_lets x cap
  split
  · exact h
  · split
    · exact h
    · extract_lets all start due a c t1 t2 line m0 keep s1
      have ha : PortsKeep PortSt.rx b a.1 := h.of_ports (payHalf_ports ..)
      have hc : PortsKeep PortSt.rx b c.1 := by
        unfold c
        split
        · exact ha
        · exact ha.of_ports (payHalf_ports ..)
      split
      · have h1 : PortsKeep PortSt.rx b t1 := .ite hc (hc.of_ports (tollShort_ports ..))
        have h2 : PortsKeep PortSt.rx b t2 := .ite h1 (h1.of_ports (tollShort_ports ..))
        exact h2.updPort
      · have h1 : PortsKeep PortSt.rx b s1 := hc.updPort
        intro q
        exact ((learnLine_keeps (updLine_keeps (.refl flowFields s1))).rx q).trans (h1 q)

theorem learnLine_updLine_flow {r : FrameRec} {l : PLine} {y : Nat} (f : PLine → PLine) :
    flowFields (portSt (learnLine p r l (updLine p y f s)) p) = flowFields (portSt s p) :=
  learnLine_keeps (updLine_keeps (.refl flowFields s)) p

/-- While TO_CTL.EN is 0 a line that is there is placed. -/
theorem placeLine_places {l : PLine} {r : FrameRec} (hl : lineAt s p (portSt s p).nPlc = some l) (hr : frameRec s p l.key = some r)
    (he : fbit s fTO_CTL_EN = false) :
    (portSt (placeLine p s) p).owed = none ∧ (portSt (placeLine p s) p).nPlc = (portSt s p).nPlc + 1 := by
  have hpay : ∀ c n, payHalf c n s = (s, 0) := fun c n => by rw [payHalf, he]; rfl
  unfold placeLine
  simp only [hl, hr, hpay, ite_self]
  rw [if_neg (by simp)]
  have hk := fun u => learnLine_updLine_flow (s := u) (p := p) (r := r) (l := l) (y := l.y)
  constructor
  · refine (congrArg (fun x => x.2.1) (hk _ _)).trans ?_
    rw [portSt_updPort_same]
    rfl
  · refine (congrArg (fun x => x.2.2) (hk _ _)).trans ?_
    rw [portSt_updPort_same]
    rfl

theorem updTapFrame_rx {e i : Nat} {f : TapFrame → TapFrame} (h : PortsKeep PortSt.rx b s) :
    PortsKeep PortSt.rx b (updTapFrame p e i f s) := h.updTap

theorem tapCut_rx {e : Nat} (h : PortsKeep PortSt.rx b s) : PortsKeep PortSt.rx b (tapCut p e s) := h.cnt.evt

theorem tapWrite_rx {e : Nat} {f : TapFrame} {l : PLine} (h : PortsKeep PortSt.rx b s) :
    PortsKeep PortSt.rx b (tapWrite p e f l s) := by
  unfold tapWrite
  extract_lets rows n inRoi s0 s1 at_ s2
  have h0 : PortsKeep PortSt.rx b s0 := updTapFrame_rx h
  have h1 : PortsKeep PortSt.rx b s1 := h0.of_ports ((kept_of_sound .ports tollSpend_sound).trans
    ((kept_of_sound .ports poolGive_sound).trans (kept_of_sound .ports poolTake_sound)))
  have h2 : PortsKeep PortSt.rx b s2 := h1.forEach fun x t ht => ht.of_ports (kept_of_sound .ports dmaWrite_sound)
  refine .ite h0 (.ite (updTapFrame_rx (tapCut_rx h0)) (.ite (updTapFrame_rx (tapCut_rx (h0.of_ports ?_)))
    (.ite (updTapFrame_rx (tapCut_rx (h0.of_ports (tollShort_ports ..)))) (updTapFrame_rx h2))))
  exact kept_of_sound .ports poolRefuse_sound

theorem tapLine_rx {point : Nat} {l : PLine} (h : PortsKeep PortSt.rx b s) : PortsKeep PortSt.rx b (tapLine p point l s) :=
  h.forEach fun _ _ ht => ht.forEach fun _ _ hu => tapWrite_rx hu

theorem cntHalves_rx {reg : Nat} {l : List Nat} (h : PortsKeep PortSt.rx b s) : PortsKeep PortSt.rx b (cntHalves p reg l s) :=
  h.of_ports (kept_of_sound .ports cntHalves_sound)

theorem updLine_rx {y : Nat} {f : PLine → PLine} (h : PortsKeep PortSt.rx b s) : PortsKeep PortSt.rx b (updLine p y f s) :=
  h.updPort

theorem correctLine_rx {y : Nat} (h : PortsKeep PortSt.rx b s) : PortsKeep PortSt.rx b (correctLine p y s) := by
  unfold correctLine
  split
  · exact h
  · split
    · exact h
    · exact tapLine_rx (updLine_rx (cntHalves_rx (cntHalves_rx (cntHalves_rx (cntHalves_rx (cntHalves_rx h))))))

theorem reconLine_rx {y : Nat} (h : PortsKeep PortSt.rx b s) : PortsKeep PortSt.rx b (reconLine p y s) := by
  unfold reconLine
  split
  · exact h
  · split
    · exact h
    · exact tapLine_rx (tapLine_rx (updLine_rx (cntHalves_rx (cntHalves_rx (cntHalves_rx (cntHalves_rx (cntHalves_rx h)))))))

theorem statDone_rx {r : FrameRec} {f n k : Nat} (h : PortsKeep PortSt.rx b s) : PortsKeep PortSt.rx b (statDone p r f n k s) := by
  unfold statDone
  extract_lets rec_ s1 s2 room s3 s4
  have h1 : PortsKeep PortSt.rx b s1 := h.forEach fun i t ht => ht.wrn
  have h2 : PortsKeep PortSt.rx b s2 := .ite h1.evt h1
  have h3 : PortsKeep PortSt.rx b s3 := h2.of_ports (kept_of_sound .ports quWrite_sound)
  have h4 : PortsKeep PortSt.rx b s4 := .ite h3 h3.evtCnt
  exact h4.updPort

theorem statFlush_rx (h : PortsKeep PortSt.rx b s) : PortsKeep PortSt.rx b (statFlush p s) := by
  unfold statFlush
  extract_lets l s1
  have h1 : PortsKeep PortSt.rx b s1 := h.forEach fun r t ht => by
    split
    · exact PortsKeep.updPort (statDone_rx ht)
    · exact ht
  exact h1.fbset

theorem maskLine_rx {y : Nat} (h : PortsKeep PortSt.rx b s) : PortsKeep PortSt.rx b (maskLine p y s) := by
  unfold maskLine
  split
  · exact h
  · split
    · exact h
    · exact statFlush_rx (tapLine_rx (.updPort (.updPort h)))

theorem openCount_rx (h : PortsKeep PortSt.rx b s) : PortsKeep PortSt.rx b (openCount p s) := h.fset

theorem closeObj_rx {f : Nat} {o : OpenObj} (h : PortsKeep PortSt.rx b s) : PortsKeep PortSt.rx b (closeObj p f o s) := by
  have hc : ∀ (c : Bool) r t, PortsKeep PortSt.rx b t → PortsKeep PortSt.rx b (if c then cnt t (r + pof p) else t) :=
    fun c r t ht => .ite ht.cnt ht
  unfold closeObj
  extract_lets speck clump f0 fl s1 s2 c s3 s4 s5
  have h1 : PortsKeep PortSt.rx b s1 := h.updPort
  have h2 : PortsKeep PortSt.rx b s2 := h1.of_ports (kept_of_sound .ports updEntry_sound)
  have h4 : PortsKeep PortSt.rx b s4 := hc _ _ _ (hc _ _ _ (hc _ _ _ (hc _ _ _ h2.cnt)))
  have h5 : PortsKeep PortSt.rx b s5 := .ite h4.evt h4
  exact openCount_rx (h5.of_ports rfl)

theorem closeAll_rx {f : Nat} (h : PortsKeep PortSt.rx b s) : PortsKeep PortSt.rx b (closeAll p f s) :=
  h.forEach fun _ _ ht => closeObj_rx ht

theorem finishWork_rx {r : FrameRec} {l : PLine} {w : Work} (h : PortsKeep PortSt.rx b s) :
    PortsKeep PortSt.rx b (finishWork p r l w s) := by
  unfold finishWork
  extract_lets o maxL s1
  have h1 : PortsKeep PortSt.rx b s1 := h.of_ports (kept_of_sound .ports updEntry_sound)
  exact .ite (closeObj_rx h) (.ite (closeObj_rx h) h1.updPort)

theorem labelRuns_rx {r : FrameRec} {l : PLine} {runs : List (Nat × Nat)} (a : List Work × State) (h : PortsKeep PortSt.rx b a.2) :
    PortsKeep PortSt.rx b (runs.foldl (fun a run => labelRun p r l run a.1 a.2) a).2 := by
  induction runs generalizing a with
  | nil => exact h
  | cons run runs ih => exact ih _ (h.of_ports (kept_of_sound .ports labelRun_sound))

theorem labelLine_rx {y : Nat} (h : PortsKeep PortSt.rx b s) : PortsKeep PortSt.rx b (labelLine p y s) := by
  unfold labelLine
  split
  · exact h
  · split
    · exact h
    · extract_lets on s0 start res s1
      have h0 : PortsKeep PortSt.rx b s0 := .ite (closeAll_rx h) h
      have h1 : PortsKeep PortSt.rx b s1 := (labelRuns_rx (start, s0) h0).updPort
      exact openCount_rx (h1.forEach fun _ _ ht => finishWork_rx ht)

theorem stage_rx {get : PortSt → Nat} {n : Nat} {f : Nat → State → State} (h : PortsKeep PortSt.rx b s)
    (hf : ∀ y t, PortsKeep PortSt.rx b t → PortsKeep PortSt.rx b (f y t)) : PortsKeep PortSt.rx b (stage get n p f s) :=
  h.forEach fun _ _ ht => hf _ _ ht

theorem runFront_rx (h : PortsKeep PortSt.rx b s) : PortsKeep PortSt.rx b (runFront p s) := by
  unfold runFront
  extract_lets s1 s2
  have h1 : PortsKeep PortSt.rx b s1 := stage_rx h fun y t ht => (correctLine_rx ht).updPort
  have h2 : PortsKeep PortSt.rx b s2 := stage_rx h1 fun y t ht => (reconLine_rx ht).updPort
  exact stage_rx h2 fun y t ht => .ite (placeLine_rx ht) ht

theorem runBack_rx (h : PortsKeep PortSt.rx b s) : PortsKeep PortSt.rx b (runBack p s) := by
  unfold runBack
  extract_lets flush lim s1
  have h1 : PortsKeep PortSt.rx b s1 := stage_rx h fun y t ht => (maskLine_rx ht).updPort
  exact stage_rx h1 fun y t ht => (labelLine_rx ht).updPort

theorem endImage_rx (h : PortsKeep PortSt.rx b s) : PortsKeep PortSt.rx b (endImage p s) := by
  unfold endImage
  split
  · exact h
  · exact .ite h (closeAll_rx h).updPort

theorem pruneLines_rx (h : PortsKeep PortSt.rx b s) : PortsKeep PortSt.rx b (pruneLines p s) := by
  unfold pruneLines
  exact h.updPort

/-- Running the stages takes nothing from the waiting items. -/
theorem runStages_rx (s : State) (p : Nat) : PortsKeep PortSt.rx s (runStages p s) :=
  pruneLines_rx (endImage_rx (runBack_rx (runFront_rx (.refl _ s))))

theorem enterLine_rx {l : PLine} (h : PortsKeep PortSt.rx b s) : PortsKeep PortSt.rx b (enterLine p l s) := by
  unfold enterLine
  split
  · exact h
  · rename_i r _
    have hn : ∀ q (c : List Nat × Nat × Bool) t, PortsKeep PortSt.rx b t → PortsKeep PortSt.rx b
        (let t1 := if c.2.2 then evt t fCX_EVT_DPC_ORDER (pof q) else t
        if c.2.1 = 0 then t1 else evt (cntAdd t1 (CX_CNT_DPC_OVF + pof q) c.2.1) fCX_EVT_DPC_OVF (pof q)) := by
      intro q c t ht
      have h1 : PortsKeep PortSt.rx b (if c.2.2 then evt t fCX_EVT_DPC_ORDER (pof q) else t) := .ite ht.evt ht
      exact .ite h1 (PortsKeep.evt h1.wrn)
    extract_lets w cols c0 c1 p1 listed note s1 s2
    have h2 : PortsKeep PortSt.rx b s2 := .ite (hn _ _ _ (hn _ _ _ h)) (hn _ _ _ h)
    exact h2.updPort

theorem pumpLoop_empties (fuel p : Nat) (s : State) (h : (portSt s p).rx.length < fuel) :
    (portSt (pumpLoop fuel p s) p).rx = [] ∨ (portSt (pumpLoop fuel p s) p).owed.isSome = true := by
  induction fuel generalizing s with
  | zero => omega
  | succ k ih =>
    unfold pumpLoop
    split
    · rename_i hs
      exact .inr hs
    · split
      · rename_i hx
        exact .inl hx
      · rename_i i t hx
        extract_lets s0 s1
        apply ih
        have h0 : (portSt s0 p).rx = t := by
          unfold s0
          rw [portSt_updPort_same]
        have h1 : (portSt s1 p).rx = t := by
          unfold s1
          cases i with
          | line l =>
            refine (enterLine_rx (.refl _ s0) p).trans h0
          | imgEnd flag => rw [portSt_updPort_same]; exact h0
        rw [runStages_rx s1 p p, h1]
        rw [hx, List.length_cons] at h
        omega

end

/-- Settles O15: the branches of `packet`, what `csiFrameStart` leaves in the port, and the loop of `pump`. -/
theorem framesPacketsAndPlacesComplete : Obligations.FramesPacketsAndPlacesComplete := by
  unfold Obligations.FramesPacketsAndPlacesComplete
  refine ⟨fun p st dt vc fl l e s u hr hu => ?_, fun p st dt vc fl l s u hr hu hd hv h => ?_,
    fun p st dt vc fl l s u hr hu ho h1 h2 => ?_, fun p st dt vc fl l s u hr hu h1 h2 => ?_,
    fun p st dt vc fl l s u hr hu hd => ?_, fun p st dt vc fl l s u hr hu h1 h2 ho => ?_,
    fun p st ecc dt vc fl l e s hr => ?_, fun p st fn d0 d1 s u hr hu => ?_, fun p s hr => ?_, fun p s c hc ht => ?_,
    fun p s h => ?_, fun p s => ?_, fun p s h1 h2 => ?_, fun p s t l r hl hr he ht => ?_, fun p s h => ?_⟩
  · simp only [exec, execCsi2PacketReceive, packet, hr, ← hu, Bool.not_true, Bool.false_eq_true, if_false, Fin.val_two, if_true]
  · simp only [exec, execCsi2PacketReceive, packet, hr, ← hu, ← hd, ← hv, Bool.not_true, Bool.false_eq_true, if_false, if_true,
      Fin.val_zero, Bool.false_and, beq_self_eq_true, and_self]
    rw [if_neg (by omega), if_neg (by omega), if_neg (by omega), if_neg (by omega), if_neg (by omega), if_neg (by omega)]
  · have hshort : ¬ dt.toNat < 0x10 := by omega
    simp only [exec, execCsi2PacketReceive, packet, hr, ← hu, Bool.not_true, Bool.false_eq_true, if_false, if_true,
      Fin.val_zero, Bool.false_and, beq_iff_eq, h1, h2, and_self, decide_true, Bool.true_or, hshort, decide_false]
    rw [if_neg (by omega), if_neg (by omega), if_neg (by omega), if_neg (by omega), if_neg (by omega), if_neg (by omega), if_neg (by tauto)]
  · have hshort : dt.toNat < 0x10 := by omega
    simp only [exec, execCsi2PacketReceive, packet, hr, ← hu, Bool.not_true, Bool.false_eq_true, if_false, if_true,
      Fin.val_zero, Bool.false_and, h1, h2, and_self, decide_true, hshort]
    rw [if_neg (by omega), if_neg (by omega), if_neg (by omega), if_neg (by omega)]
  · have hshort : ¬ dt.toNat < 0x10 := by omega
    simp only [exec, execCsi2PacketReceive, packet, hr, ← hu, Bool.not_true, Bool.false_eq_true, if_false, if_true,
      Fin.val_zero, Bool.false_and, hshort, decide_false]
    rw [if_neg (by omega), if_neg (by omega), if_neg (by omega), if_neg (by omega), if_pos hd, hd, if_neg (by omega)]
  · have hshort : ¬ dt.toNat < 0x10 := by omega
    have himg : ¬ ((decide (0x2A ≤ dt.toNat ∧ dt.toNat ≤ 0x2E) || decide (0x30 ≤ dt.toNat ∧ dt.toNat ≤ 0x37)) = true) := by
      simp
      omega
    simp only [exec, execCsi2PacketReceive, packet, hr, ← hu, Bool.not_true, Bool.false_eq_true, if_false, if_true,
      Fin.val_one, Bool.false_and, hshort, decide_false, himg]
    rw [if_neg (by decide), if_neg (by omega), if_neg (by omega), if_neg (by omega), if_neg (by omega), if_neg (by tauto)]
  · simp only [exec, execCsi2PacketReceive, packet, hr, Bool.not_false, if_true]
  · subst hu
    obtain ⟨v, hv, h⟩ := csiFrameStart_opens (st := st.toNat) (fn := fn.toNat) (d0 := d0) (d1 := d1) hr
    exact ⟨v, congrArg Host.Outcome.next hv, h⟩
  · simp only [exec, execFrameEnd, hr, if_true]
  · simp only [exec, execFrameTimeout, ht, if_false]
  · simp only [exec, execFrameTimeout]
    rcases h with h | h
    · split
      · rfl
      · rw [closeFrame, h]
    · rw [if_pos h]
  · refine ⟨_, rfl, ?_⟩
    exact pumpLoop_empties _ _ _ (Nat.lt_succ_self _)
  · have hs : stalled s p.val = false := by rw [stalled, h2]; rfl
    simp only [exec, execPipelineOutputPlace, pump, hs, Bool.false_eq_true, if_false, h1, List.length_nil, pumpLoop]
  · subst ht
    exact placeLine_places hl hr he
  · rw [placeLine, h]

end Sys2Proof.Machine
end

section
/-! Port slots and port controls. -/

namespace Sys2Proof.Machine

set_option Elab.async false

theorem fget_evt_field (s : State) (f g : Fld) (o : Nat) (e : g.reg = f.reg) (hi : ¬ IrqReg (g.reg + o)) (h : f.lo ≤ f.hi := by decide)
    (hw : f.hi < 32 := by decide) (hg : g.lo ≤ g.hi := by decide) (hd : f.hi < g.lo ∨ g.hi < f.lo := by decide) :
    fget (evt s f o) g o = fget s g o := by
  rw [← fget_fset_field s f g 1 o o (by rw [e]) h hw hg hd]
  unfold fget
  rw [e, rdn_evt_same s f o (e ▸ hi)]

theorem slotStat_not_irq (p : PortNo) : ¬ IrqReg (PP_SLOT_STAT + pof p.val) := by
  unfold PP_SLOT_STAT pof IrqReg HE_IPEND HE_VEC_ARM HE_PBA
  omega

theorem faultRow_quiet {s : State} {p : Nat} (h : fbit s fPP_SLOT_STAT_FLT_IN (pof p) = false) : faultRow p s = s :=
  if_pos (by simp [h])

theorem fltUpdate_asserted {s u : State} {p : Nat} (hc : fbit s fPP_SLOT_CAP_FLT (pof p) = true)
    (hu : u = fbset (updPort s p (fun x => { x with fltPin := true })) fPP_SLOT_STAT_FLT_IN true (pof p)) :
    fltUpdate p (updPort s p (fun x => { x with fltPin := true })) = faultRow p u := by
  have hw : fltWired (updPort s p (fun x => { x with fltPin := true })) p = true := by
    rw [fltWired, portSt_updPort_same]
    exact hc
  have hl : fltLevel (updPort s p (fun x => { x with fltPin := true })) p = true := by
    rw [fltLevel, hw, Bool.true_or]
  rw [fltUpdate, hl, hu]

theorem capWord_eq : ∀ caps : BitVec 5, (2 ^ 31 + caps.toNat).land 0x8000001F = 2 ^ 31 + caps.toNat ∧
    bit (2 ^ 31 + caps.toNat) 31 = true ∧ bits (2 ^ 31 + caps.toNat) 31 31 = 1 ∧ bits (2 ^ 31 + caps.toNat) 4 0 = caps.toNat ∧
    (caps.getLsbD 0 = true → bit (2 ^ 31 + caps.toNat) 0 = true) := by
  decide

/-- Settles O16: the rows of the slot's state table. -/
theorem slotsFollowTheirStateTable : Obligations.SlotsFollowTheirStateTable := by
  unfold Obligations.SlotsFollowTheirStateTable
  refine ⟨fun p s hg h0 ha _ => ?_, fun p s hg hc h1 => ?_, fun p s hg hc h3 => ?_, fun p s u hg hc hu h2 hf hgu => ?_,
    fun p s u hg hc hu h3 hf hgu => ?_, fun ag p s u v hl hg hu h1 hp hv hf => ?_, fun p s h2 hf => ?_,
    fun p caps s u hc h0 hu => ?_, fun p st s hs hst => ?_⟩
  · simp only [exec, execPresenceAssert, presenceOn, hg, h0, ha, Bool.false_eq_true, if_false, ne_eq, not_true]
  · simp only [exec, execPresenceLost, presenceOff, headLost, surprise, hg, hc, h1, Bool.not_true, Bool.false_or, Bool.false_eq_true,
      decide_false, one_ne_zero, if_false, if_true, OfNat.one_ne_ofNat, beq_iff_eq]
  · simp only [exec, execPresenceLost, presenceOff, headLost, surprise, hg, hc, h3, Bool.not_true, Bool.false_or, Bool.false_eq_true,
      decide_false, OfNat.ofNat_ne_zero, OfNat.ofNat_ne_one, if_false, if_true, beq_self_eq_true]
  · simp only [exec, execPowerFault, powerFault, hg, Bool.false_eq_true, if_false, fltUpdate_asserted hc hu, faultRow, headLost,
      surprise, h2, hf, hgu]
    rfl
  · simp only [exec, execPowerFault, powerFault, hg, Bool.false_eq_true, if_false, fltUpdate_asserted hc hu, faultRow, headLost,
      surprise, h3, hf, hgu]
    rfl
  · simp only [exec, execSlotPowerWrite, gated_of_covered hl, hg, slotPower, ← hu, slotPowerUp, h1, hp, ← hv,
      Bool.false_eq_true, if_false, if_true, and_self, faultRow_quiet hf]
  · simp only [exec, execPowerSettle, faultRow_quiet hf, h2, if_true]
  · obtain ⟨hand, h31, htop, hlow, hb⟩ := capWord_eq caps
    have hw : rdn u (PP_SLOT_CAP + pof p.val) = 2 ^ 31 + caps.toNat := by
      rw [hu, rdn_wrn_same, Nat.mod_eq_of_lt (by omega)]
    refine ⟨?_, ?_, by rw [hw, hlow]⟩
    · simp only [exec, execSlotCapCommit, dennilOnly, slotCapPut, hc, Bool.false_eq_true, if_false, hand, ← hu, h31, hb h0,
        Bool.not_true, Bool.and_false]
    · exact (congrArg (fun n => decide (bits n 31 31 = 1)) hw).trans (decide_eq_true htop)
  · refine ⟨evt (fset s fPP_SLOT_STAT_STATE st (pof p.val)) fPP_SLOT_STAT_STATE_CHG (pof p.val), ?_, ?_, ?_, ?_⟩
    · simp only [slotTo, hs, if_false]
      rw [if_neg (by omega)]
    · refine (fget_evt_field _ fPP_SLOT_STAT_STATE_CHG fPP_SLOT_STAT_STATE _ rfl (slotStat_not_irq p)).trans ?_
      rw [fget_fset_same s fPP_SLOT_STAT_STATE]
      exact Nat.mod_eq_of_lt (by simp [fPP_SLOT_STAT_STATE]; omega)
    · exact fbit_evt_same _ _ _ rfl (by decide) (slotStat_not_irq p)
    · exact (fset_only s _ _ _).trans (evt_only _ _ _)

theorem bit_eq_bits (v i : Nat) : bit v i = decide (bits v i i = 1) := by
  rw [bit, Nat.testBit_eq_decide_div_mod_eq, bits, Nat.add_sub_cancel_left, pow_one]

theorem bit_withBit_same (v i : Nat) (b : Bool) : bit (withBit v i b) i = b := by
  rw [bit_eq_bits, withBit, bits_setBits_same _ _ le_rfl, Nat.add_sub_cancel_left]
  cases b <;> simp

theorem bit_mod_two_pow {v i n : Nat} (h : i < n) : bit (v % 2 ^ n) i = bit v i := by
  rw [bit, bit, Nat.testBit_mod_two_pow, decide_eq_true h, Bool.true_and]

/-- Setting bit `i` of a field shows in that bit. -/
theorem bit_fget_fset_withBit (s : State) (f : Fld) {i : Nat} (v o : Nat) (b : Bool) (h : f.lo ≤ f.hi) (hw : f.hi < 32)
    (hi : i < f.hi + 1 - f.lo) : bit (fget (fset s f (withBit v i b) o) f o) i = b := by
  rw [fget_fset_same s f _ o h hw, bit_mod_two_pow hi, bit_withBit_same]

/-- Settles O17: each row by the branch that its hypotheses select. -/
theorem portControlsComplete : Obligations.PortControlsComplete := by
  unfold Obligations.PortControlsComplete
  refine ⟨fun p s hb hg h3 hd hl => ?_, fun p s hs hf hd hl => ?_, fun p k h s s0 t pr hd h3 hg hp hl h0 hbad he => ?_,
    fun p s hr ht hb => ?_, fun p s hb => ?_, fun ag k v s hl h1 h2 => ?_, fun p m s => ⟨_, rfl, fbit_fbset_same _ fPP_STAT_CLK_HS _ _⟩,
    fun p l m s hl => ?_, fun c s u pr h hp hu hpr he h3 hg hbad hbit => ?_, fun c s u h hp hu h3 hg => ?_,
    fun c s u h hp h1 h2 hu hg => ?_⟩
  · simp only [exec, execAttentionButton, hb, hg, h3, hd, hl, Bool.not_true, Bool.not_false, Bool.false_or, Bool.or_false,
      Bool.and_self, Bool.false_eq_true, decide_false, OfNat.ofNat_ne_zero, if_false, if_true, decide_true]
  · simp only [exec, execOrderlyStop, orderlyStop, hs, hf, hd, hl, Bool.not_false, Bool.and_self, if_true]
  · have hany : (profileFuncs pr).any (fun f => leased s f (some p.val)) = false := by
      rw [List.any_eq_false]
      intro f hf
      simp [hl f hf]
    simp only [exec, execHotInsertProfileLoad, hd, h3, hg, hp, hany, ← h0, hbad, he, Bool.not_true, ne_eq, not_true,
      decide_false, Bool.or_self, Bool.false_eq_true, if_false, Option.getD_some]
  · simp only [exec, execLinkTimeout, hr, hb, bne_iff_ne.mpr ht, Bool.not_false, Bool.and_self, if_true]
  · simp only [exec, execLinkTimeout, hb, Bool.not_true, Bool.and_false, Bool.false_eq_true, if_false]
  · refine congrArg Host.Outcome.next ((gated_of_covered hl _ _).trans ?_)
    exact if_neg (by omega)
  · have hne : ¬ l.val = 4 := by omega
    simp only [exec, execUlpsEntryExit, hne, if_false]
    refine ⟨_, rfl, ?_⟩
    have hs1 : ∀ t : State, bit (fget t fPP_STAT_LANE_HS (pof p.val)) l.val = (m.val == 1) →
        ∀ u, u = fset t fPP_STAT_LANE_ULPS (withBit (fget t fPP_STAT_LANE_ULPS (pof p.val)) l.val (m.val == 2)) (pof p.val) →
        bit (fget u fPP_STAT_LANE_HS (pof p.val)) l.val = (m.val == 1) ∧
          bit (fget u fPP_STAT_LANE_ULPS (pof p.val)) l.val = (m.val == 2) := by
      intro t ht u hu
      subst hu
      refine ⟨?_, bit_fget_fset_withBit t fPP_STAT_LANE_ULPS _ _ _ (by decide) (by decide) hl⟩
      rw [fget_fset_field t fPP_STAT_LANE_ULPS fPP_STAT_LANE_HS _ _ _ rfl (by decide) (by decide) (by decide) (by decide), ht]
    have h := hs1 _ (bit_fget_fset_withBit s fPP_STAT_LANE_HS (fget s fPP_STAT_LANE_HS (pof p.val)) (pof p.val) (m.val == 1) (by decide) (by decide) hl) _ rfl
    split
    · exact h
    · exact h
  · subst hu
    refine congrArg Host.Outcome.next (mbRun_defer h ?_)
    have hn : ¬ 16 ≤ pb c 0 := by omega
    simp only [runSensorProfileLoad, hn, hpr, he, h3, hg, hbad, hbit, if_false, ne_eq, not_true, decide_false, Bool.or_self,
      Bool.false_eq_true, false_and]
  · subst hu
    refine congrArg Host.Outcome.next (mbRun_defer h ?_)
    have hn : ¬ 16 ≤ pb c 0 := by omega
    simp only [runPortStop, hn, h3, hg, if_false, if_true, Bool.false_eq_true]
  · subst hu
    refine congrArg Host.Outcome.next (mbRun_ok h ?_)
    have hn : ¬ 16 ≤ pb c 0 := by omega
    simp only [runPortPower, hn, Nat.not_lt.mpr h1, Nat.not_lt.mpr h2, hg, if_false, Bool.false_eq_true]

end Sys2Proof.Machine
end

section
/-! Setting slots and setting commands. -/

namespace Sys2Proof.Machine

set_option Elab.async false

/-! ## Setting slots -/

/-- Two fields of one block that do not overlap. -/
def Apart (f g : Fld) : Bool :=
  g.reg != f.reg || (decide (f.lo ≤ f.hi) && decide (f.hi < 32) && decide (g.lo ≤ g.hi) && (decide (f.hi < g.lo) || decide (g.hi < f.lo)))

theorem fget_fset_apart (s : State) (f g : Fld) (v o : Nat) (h : Apart f g = true) : fget (fset s f v o) g o = fget s g o := by
  by_cases e : g.reg = f.reg
  · simp [Apart, e] at h
    obtain ⟨⟨⟨h1, h2⟩, h3⟩, h4⟩ := h
    exact fget_fset_field s f g v o o (by rw [e]) h1 h2 h3 h4
  · exact fget_fset_reg s f g v o o (by omega)

theorem fget_fbset_apart (s : State) (f g : Fld) (b : Bool) (o : Nat) (h : Apart f g = true) :
    fget (fbset s f b o) g o = fget s g o := fget_fset_apart s f g _ o h

theorem fbit_fset_apart (s : State) (f g : Fld) (v o : Nat) (h : Apart f g = true) : fbit (fset s f v o) g o = fbit s g o := by
  rw [fbit, fget_fset_apart s f g v o h, fbit]

theorem fbit_fbset_apart (s : State) (f g : Fld) (b : Bool) (o : Nat) (h : Apart f g = true) :
    fbit (fbset s f b o) g o = fbit s g o := fbit_fset_apart s f g _ o h

theorem fget_wrn_apart (s : State) (g : Fld) (a v o : Nat) (h : (g.reg != a) = true) : fget (wrn s (a + o) v) g o = fget s g o :=
  fget_wrn_other s g _ v o (by simp at h; omega)

theorem fbit_wrn_apart (s : State) (g : Fld) (a v o : Nat) (h : (g.reg != a) = true) : fbit (wrn s (a + o) v) g o = fbit s g o := by
  rw [fbit, fget_wrn_apart s g a v o h, fbit]

theorem slotAdvance_of_lat_zero {s : State} {p : Nat} (h : slotLat s p = 0) (k : Nat) : slotAdvance p k s = s :=
  if_pos (.inr (.inl h))

theorem forEach_id {α : Type} {l : List α} {f : α → State → State} {s : State} (hf : ∀ x ∈ l, f x s = s) : forEach l f s = s := by
  induction l with
  | nil => rfl
  | cons x l ih =>
    have hx : f x s = s := hf x (List.mem_cons_self ..)
    exact (congrArg (forEach l f) hx).trans (ih fun y hy => hf y (List.mem_cons_of_mem _ hy))

/-- With LAT = 0 no slot's TARGET moves. -/
theorem slotsAdvance_of_lat_zero {s : State} {p : Nat} (h : slotLat s p = 0) : slotsAdvance p s = s :=
  forEach_id fun k _ => slotAdvance_of_lat_zero h k

theorem rdn_setSlotState_other (p k st : Nat) (s : State) {a : Nat} (h1 : a ≠ SC_SLOT_CTL + sso p k) (h2 : a ≠ SC_STAT + pof p) :
    rdn (setSlotState p k st s) a = rdn s a := by
  unfold setSlotState
  dsimp only
  rw [rdn_fset_other _ fSC_STAT_WRITTEN _ _ h2, rdn_fset_other _ fSC_STAT_SENDING _ _ h2, rdn_fset_other _ fSC_STAT_ARMED _ _ h2,
    rdn_fset_other _ fSC_SLOT_CTL_STATE _ _ h1]

theorem slotCtl_ne_stat (p k : PortNo) : SC_SLOT_CTL + sso p.val k.val ≠ SC_STAT + pof p.val := by
  unfold SC_SLOT_CTL SC_STAT sso
  omega

/-- The other fields of SC_SLOT_CTL stay when the slot's state changes. -/
theorem fget_setSlotState_field (p k st : Nat) (s : State) (f : Fld) (e : f.reg = SC_SLOT_CTL := by rfl)
    (hh : f.hi < 29 := by decide) (hl : f.lo ≤ f.hi := by decide) :
    fget (setSlotState p k st s) f (sso p k) = fget s f (sso p k) := by
  have hr : f.reg + sso p k ≠ SC_STAT + pof p := by
    rw [e]
    unfold SC_SLOT_CTL SC_STAT sso
    omega
  unfold setSlotState
  dsimp only
  rw [fget_fset_reg _ fSC_STAT_WRITTEN f _ _ _ hr, fget_fset_reg _ fSC_STAT_SENDING f _ _ _ hr,
    fget_fset_reg _ fSC_STAT_ARMED f _ _ _ hr,
    fget_fset_field s fSC_SLOT_CTL_STATE f _ _ _ (by rw [e]) (by decide) (by decide) hl (.inr hh)]

theorem slotState_setSlotState (p k st : Nat) (s : State) : slotState (setSlotState p k st s) p k = st % 8 := by
  have hr : fSC_SLOT_CTL_STATE.reg + sso p k ≠ SC_STAT + pof p := by
    unfold SC_STAT sso
    simp only
    omega
  unfold slotState setSlotState
  dsimp only
  rw [fget_fset_reg _ fSC_STAT_WRITTEN _ _ _ _ hr, fget_fset_reg _ fSC_STAT_SENDING _ _ _ _ hr,
    fget_fset_reg _ fSC_STAT_ARMED _ _ _ _ hr]
  exact fget_fset_same s fSC_SLOT_CTL_STATE st _

/-- SC_GEN.NEXT after an arm: FFFFh is followed by 1. -/
def nextGen (g : Nat) : Nat := if g = 0xFFFF then 1 else g + 1

theorem nextGen_lt {g : Nat} (h : g < 2 ^ 16) : nextGen g < 2 ^ 16 := by
  unfold nextGen
  split <;> omega

/-- What an arm writes into SC_GEN and the slot's registers. -/
def armRegs (p k g : Nat) (s : State) : State :=
  wrn (fset (fset (fbset (fbset (fset s fSC_GEN_NEXT (nextGen g) (pof p)) fSC_SLOT_CTL_LATE false (sso p k)) fSC_SLOT_CTL_UNSURE false
    (sso p k)) fSC_SLOT_CTL_GEN g (sso p k)) fSC_SLOT_CTL_RETRY_CNT 0 (sso p k)) (SC_SLOT_DONE + sso p k) 0

/-- An armed slot: its generation, clear marks, and no time of an end. -/
structure Armed (p k g : Nat) (t : State) : Prop where
  gen : fget t fSC_SLOT_CTL_GEN (sso p k) = g
  late : fbit t fSC_SLOT_CTL_LATE (sso p k) = false
  unsure : fbit t fSC_SLOT_CTL_UNSURE (sso p k) = false
  retry : fget t fSC_SLOT_CTL_RETRY_CNT (sso p k) = 0
  done : rdn t (SC_SLOT_DONE + sso p k) = 0
  next : fget t fSC_GEN_NEXT (pof p) = nextGen g

theorem armed_armRegs (p k : Nat) {g : Nat} (hg : g < 2 ^ 16) (s : State) : Armed p k g (armRegs p k g s) where
  gen := by
    rw [armRegs, fget_wrn_apart _ _ _ _ _ rfl, fget_fset_apart _ _ _ _ _ rfl, fget_fset_same _ fSC_SLOT_CTL_GEN]
    exact Nat.mod_eq_of_lt hg
  late := by
    rw [armRegs, fbit_wrn_apart _ _ _ _ _ rfl, fbit_fset_apart _ _ _ _ _ rfl, fbit_fset_apart _ _ _ _ _ rfl,
      fbit_fbset_apart _ _ _ _ _ rfl, fbit_fbset_same _ fSC_SLOT_CTL_LATE]
  unsure := by
    rw [armRegs, fbit_wrn_apart _ _ _ _ _ rfl, fbit_fset_apart _ _ _ _ _ rfl, fbit_fset_apart _ _ _ _ _ rfl,
      fbit_fbset_same _ fSC_SLOT_CTL_UNSURE]
  retry := by
    rw [armRegs, fget_wrn_apart _ _ _ _ _ rfl, fget_fset_same _ fSC_SLOT_CTL_RETRY_CNT]
    rfl
  done := rdn_wrn_same _ _ _
  next := by
    have h1 : fSC_GEN_NEXT.reg + pof p ≠ SC_SLOT_DONE + sso p k := by
      unfold SC_SLOT_DONE sso
      simp only
      omega
    have h2 : ∀ f : Fld, f.reg = SC_SLOT_CTL → fSC_GEN_NEXT.reg + pof p ≠ f.reg + sso p k := by
      intro f hf
      rw [hf]
      unfold SC_SLOT_CTL sso
      simp only
      omega
    rw [armRegs, fget_wrn_other _ _ _ _ _ h1, fget_fset_reg _ _ _ _ _ _ (h2 _ rfl), fget_fset_reg _ _ _ _ _ _ (h2 _ rfl)]
    refine (fget_fset_reg _ fSC_SLOT_CTL_UNSURE _ _ _ _ (h2 _ rfl)).trans ((fget_fset_reg _ fSC_SLOT_CTL_LATE _ _ _ _ (h2 _ rfl)).trans ?_)
    rw [fget_fset_same _ fSC_GEN_NEXT]
    exact Nat.mod_eq_of_lt (nextGen_lt hg)

theorem Armed.setSlotState {p k g st : Nat} {s : State} (h : Armed p k g s) : Armed p k g (setSlotState p k st s) where
  gen := (fget_setSlotState_field p k st s fSC_SLOT_CTL_GEN).trans h.gen
  late := (congrArg (fun n => decide (n = 1)) (fget_setSlotState_field p k st s fSC_SLOT_CTL_LATE)).trans h.late
  unsure := (congrArg (fun n => decide (n = 1)) (fget_setSlotState_field p k st s fSC_SLOT_CTL_UNSURE)).trans h.unsure
  retry := (fget_setSlotState_field p k st s fSC_SLOT_CTL_RETRY_CNT).trans h.retry
  done := (rdn_setSlotState_other p k st s (by unfold SC_SLOT_DONE SC_SLOT_CTL; omega)
    (by unfold SC_SLOT_DONE SC_STAT sso; omega)).trans h.done
  next := (congrArg (fun n => bits n 31 16) (rdn_setSlotState_other p k st s (by unfold SC_SLOT_CTL sso; simp only; omega)
    (by unfold SC_STAT; simp only; omega))).trans h.next

theorem Armed.congr {p k g : Nat} {s t : State} (h : Armed p k g s) (e : t.regs = s.regs) : Armed p k g t where
  gen := (fget_congr e _ _).trans h.gen
  late := (congrArg (fun n => decide (n = 1)) (fget_congr e _ _)).trans h.late
  unsure := (congrArg (fun n => decide (n = 1)) (fget_congr e _ _)).trans h.unsure
  retry := (fget_congr e _ _).trans h.retry
  done := (rdn_congr e _).trans h.done
  next := (fget_congr e _ _).trans h.next

theorem setSlotState_armCtr (p k st : Nat) (s : State) : (setSlotState p k st s).armCtr = s.armCtr :=
  kept_of_sound .armCtr setSlotState_sound

theorem slotLat_armRegs (p k g : Nat) (s : State) : slotLat (armRegs p k g s) p = slotLat s p := by
  have h : ∀ f : Fld, f.reg = SC_SLOT_CTL → fSC_PROFILE_LAT.reg + pof p ≠ f.reg + sso p k := by
    intro f hf
    rw [hf]
    unfold SC_SLOT_CTL sso
    simp only
    omega
  have h1 : fSC_PROFILE_LAT.reg + pof p ≠ SC_SLOT_DONE + sso p k := by
    unfold SC_SLOT_DONE sso
    simp only
    omega
  unfold slotLat armRegs
  rw [fget_wrn_other _ _ _ _ _ h1, fget_fset_reg _ _ _ _ _ _ (h _ rfl), fget_fset_reg _ _ _ _ _ _ (h _ rfl)]
  exact (fget_fset_reg _ fSC_SLOT_CTL_UNSURE _ _ _ _ (h _ rfl)).trans ((fget_fset_reg _ fSC_SLOT_CTL_LATE _ _ _ _ (h _ rfl)).trans
    (fget_fset_apart _ _ _ _ _ rfl))

theorem slotLat_setSlotState (p k st : Nat) (s : State) : slotLat (setSlotState p k st s) p = slotLat s p := by
  unfold slotLat fget
  rw [rdn_setSlotState_other _ _ _ _ (by unfold SC_SLOT_CTL sso; simp only; omega) (by unfold SC_STAT; simp only; omega)]

theorem updSlot_regs (s : State) (p k : Nat) (f : SetSlot → SetSlot) : (updSlot p k f s).regs = s.regs := rfl

/-- The slot once armed, before its TARGET moves. -/
def armSlot (p k : Nat) (rep : Option CmdCall) (s : State) : State :=
  updSlot p k (fun _ => ⟨s.armCtr, rep, 0xFFFFFFFF, 0⟩) (armRegs p k (fget s fSC_GEN_NEXT (pof p)) s)

theorem slotArm_eq {p k : Nat} {s : State} (rep : Option CmdCall) (h0 : slotState s p k = 0) :
    slotArm p k rep s = slotsAdvance p (setSlotState p k 1 { armSlot p k rep s with armCtr := s.armCtr + 1 }) := by
  unfold slotArm armSlot armRegs nextGen
  rw [if_neg (by simp [h0])]

theorem armSlot_regs (p k : Nat) (rep : Option CmdCall) (s : State) :
    (armSlot p k rep s).regs = (armRegs p k (fget s fSC_GEN_NEXT (pof p)) s).regs := updSlot_regs ..

theorem slotsAdvance_armed {p k g n : Nat} {u : State} (hl : slotLat u p = 0) (h : Armed p k g u) (hn : u.armCtr = n) :
    slotState (slotsAdvance p (setSlotState p k 1 u)) p k = 1 ∧ Armed p k g (slotsAdvance p (setSlotState p k 1 u)) ∧
      (slotsAdvance p (setSlotState p k 1 u)).armCtr = n := by
  rw [slotsAdvance_of_lat_zero ((slotLat_setSlotState p k 1 u).trans hl)]
  exact ⟨slotState_setSlotState p k 1 u, h.setSlotState, (setSlotState_armCtr ..).trans hn⟩

theorem withArmCtr_regs (s : State) (n : Nat) : ({ s with armCtr := n } : State).regs = s.regs := rfl

/-- Arming a FREE slot of a port with LAT = 0. -/
theorem slotArm_arms {p k : Nat} {s : State} (rep : Option CmdCall) (h0 : slotState s p k = 0) (hl : slotLat s p = 0) :
    slotState (slotArm p k rep s) p k = 1 ∧ Armed p k (fget s fSC_GEN_NEXT (pof p)) (slotArm p k rep s) ∧
      (slotArm p k rep s).armCtr = s.armCtr + 1 := by
  have h3 : Armed p k (fget s fSC_GEN_NEXT (pof p)) (armSlot p k rep s) :=
    (armed_armRegs p k (bits_lt _ _ _) s).congr (armSlot_regs ..)
  have hl3 : slotLat (armSlot p k rep s) p = 0 :=
    (fget_congr (armSlot_regs ..) _ _).trans ((slotLat_armRegs ..).trans hl)
  rw [slotArm_eq rep h0]
  exact slotsAdvance_armed ((fget_congr (withArmCtr_regs ..) _ _).trans hl3) (h3.congr (withArmCtr_regs ..)) rfl

theorem updTw_regs (s : State) (b : Nat) (f : TwSt → TwSt) : (updTw s b f).regs = s.regs := rfl

/-- Settles O18: what an arm leaves (`slotArm_arms`), and the branches of `slotSend`, `settingDone` and `settingFail`. -/
theorem settingSlotsComplete : Obligations.SettingSlotsComplete := by
  unfold Obligations.SettingSlotsComplete
  refine ⟨fun ag p k s hl h0 hlat => ?_, fun ag p k s hl h0 => ?_, fun p k s h0 => ?_, fun ag p k s hl h1 => ?_, fun p s => rfl,
    fun b p k s hb hr hn => ?_, fun b p k s hb hr hn => ?_, fun p k s h2 hw => ?_, fun p k s h2 hw => ?_, fun p k s h2 hr => ?_,
    fun p k s h2 hr => ?_, fun p k s h2 => ⟨?_, ?_⟩⟩
  · obtain ⟨hst, ha, hc⟩ := slotArm_arms (if ag = .host then leaseRep s p.val else none) h0 hlat
    exact ⟨_, congrArg Host.Outcome.next (gated_of_covered hl _ _), hst, ha.gen, ha.next, ha.late, ha.unsure, ha.retry, ha.done, hc⟩
  · exact congrArg Host.Outcome.next (gated_of_covered hl _ _)
  · refine congrArg Host.Outcome.next ((gated_of_covered (.inl rfl) _ _).trans ?_)
    exact if_pos h0
  · refine congrArg Host.Outcome.next ((gated_of_covered hl _ _).trans ?_)
    exact if_pos h1
  · simp only [exec, execSlotSendStart, slotSend, hb, hr, hn, Bool.false_eq_true, if_false, if_true]
  · simp only [exec, execSlotSendStart, slotSend, hb, hr, hn, Bool.false_eq_true, if_false]
    refine ⟨_, rfl, (fget_congr (updTw_regs ..) _ _).trans (slotState_setSlotState p k 2 _), ?_, ?_⟩
    · rw [twSt_updTw_same]
    · rw [twSt_updTw_same]
  · simp only [exec, execSettingWriteDone, settingDone, h2, ne_eq, not_true, if_false, hw, if_true]
  · simp only [exec, execSettingWriteDone, settingDone, h2, ne_eq, not_true, if_false, Int.not_le.mpr hw]
  · simp only [exec, execSettingWriteFail, settingFail, h2, ne_eq, not_true, if_false, hr, if_true]
  · simp only [exec, execSettingWriteFail, settingFail, h2, ne_eq, not_true, if_false, Nat.not_lt.mpr hr]
  · simp only [exec, execSettingWriteDone, settingDone, ne_eq, h2, not_false_iff, if_true]
  · simp only [exec, execSettingWriteFail, settingFail, ne_eq, h2, not_false_iff, if_true]

theorem armRequest_ok {c : CmdCall} {s : State} {k : Nat} {l : List Nat} (w : List Byte) (b1 b2 sc : Nat) (hp : pb c 0 < 16)
    (hr : portRuns s (pb c 0) = true) (hk : slotsIn s (pb c 0) 0 = k :: l)
    (hf : Machine.sdiff (requestFrame c s) (frameNow s (pb c 0)) ≤ 2 ^ 20) : ∃ a r, armRequest c w b1 b2 sc s = (a, .ok r) := by
  have hn : ¬ 16 ≤ pb c 0 := by omega
  simp only [armRequest, hn, hr, hk, Int.not_lt.mpr hf, Bool.not_true, Bool.false_eq_true, if_false]
  exact ⟨_, _, rfl⟩

/-- Settles O19: an accepted command by what its run answers. -/
theorem settingCommandsComplete : Obligations.SettingCommandsComplete := by
  unfold Obligations.SettingCommandsComplete
  refine ⟨fun p d w s hv hd hw => ?_, fun p d w s h => ?_, fun c s u k l h hu hp hr hk hf => ?_,
    fun c s u k l h hu hp hr hk hn hlen ht hf => ?_, fun c s k h hp hk h1 => ?_, fun c s u h hp h8 hb hw h7 hv hu => ?_⟩
  · simp only [exec, execEmbeddedDataCheck, embeddedCheck, hv, hd, hw, Bool.not_true, Bool.or_self, Bool.false_eq_true, if_false,
      if_true]
  · have h' : (!fbit s fSC_CTL_VERIFY (pof p.val) || !dennilUp s) = true := by
      rcases h with h | h <;> simp [h]
    simp only [exec, execEmbeddedDataCheck, embeddedCheck, h', if_true]
  · subst hu
    obtain ⟨a, r, ha⟩ := armRequest_ok (c.data.take 64) ((numAt c 1).toNat % 65536 + (numAt c 2).toNat * 65536)
      ((numAt c 3).toNat % 65536 + (numAt c 4).toNat * 65536)
      (normFor (numAt c 0).toNat (pd c 8) (pw c 12) (pw c 14) + 0x1000 * 65536) hp hr hk hf
    exact ⟨a, r, ha, congrArg Host.Outcome.next (mbRun_ok h ha)⟩
  · subst hu
    obtain ⟨a, r, ha⟩ := armRequest_ok ((c.payload.drop 24).take (pb c 20)) (pd c 8) (pd c 12) (pd c 16) hp hr hk hf
    refine ⟨a, r, ha, congrArg Host.Outcome.next (mbRun_ok h ?_)⟩
    have hlen' : ¬ (64 < pb c 20 ∨ c.payload.length < 24 + pb c 20) := by omega
    simp only [runSettingRawForFrame, hlen', ht, Bool.false_eq_true, if_false, ha]
  · refine congrArg Host.Outcome.next (mbRun_ok h ?_)
    have hn : ¬ 16 ≤ pb c 0 := by omega
    simp only [runSettingCancel, hn, hk, h1, if_false, if_true]
  · refine congrArg Host.Outcome.next (mbRun_ok h ?_)
    have hn : ¬ 16 ≤ pb c 0 := by omega
    have hr : ¬ (bits (pd c 4) 31 30 = 0 ∨ pd c 8 / 65536 ≤ pd c 8 % 65536 ∨ 7 < pb c 12) := by omega
    simp only [runLatencyProfileSet, hn, h8, hr, Nat.not_lt.mpr hv, ← hu, if_false, ne_eq, not_true]

end Sys2Proof.Machine
end

section
/-! Correction banks, table windows and the correction commands. -/

namespace Sys2Proof.Machine

set_option Elab.async false

/-! ## Words with single bits set -/

theorem testBit_bits (v hi lo i : Nat) : (bits v hi lo).testBit i = (decide (i < hi + 1 - lo) && v.testBit (lo + i)) := by
  rw [bits, Nat.testBit_mod_two_pow, Nat.testBit_div_two_pow, Nat.add_comm i lo]

theorem bits_or_above (v : Nat) {n hi lo : Nat} (h : hi < n) : bits (v ||| 2 ^ n) hi lo = bits v hi lo := by
  refine Nat.eq_of_testBit_eq fun i => ?_
  rw [testBit_bits, testBit_bits]
  by_cases hi' : i < hi + 1 - lo
  · have hne : lo + i ≠ n := by omega
    simp [hi', Nat.testBit_or, Nat.testBit_two_pow, hne.symm]
  · simp [hi']

theorem bit_or_same (v n : Nat) : bit (v ||| 2 ^ n) n = true := by
  simp [bit, Nat.testBit_or, Nat.testBit_two_pow]

theorem bit_or_other (v : Nat) {n i : Nat} (h : i ≠ n) : bit (v ||| 2 ^ n) i = bit v i := by
  simp [bit, Nat.testBit_or, Nat.testBit_two_pow, h.symm]

/-! ## Table windows -/

theorem tblGet_tblPut_same (s : State) (a : Nat) (b : Byte) : tblGet (tblPut s a b) a = b := smGet_smPut_same ..

theorem tblGet_tblPut_other (s : State) {a k : Nat} (b : Byte) (h : k ≠ a) : tblGet (tblPut s a b) k = tblGet s k :=
  smGet_smPut_other _ _ _ _ h

theorem tblGet_tblPuts_outside (s : State) {a k : Nat} {l : List Byte} (h : k < a ∨ a + l.length ≤ k) :
    tblGet (tblPuts s a l) k = tblGet s k := by
  induction l generalizing s a with
  | nil => rfl
  | cons b l ih =>
    rw [List.length_cons] at h
    exact (ih (tblPut s a b) (by omega)).trans (tblGet_tblPut_other s b (by omega))

theorem tblGet_tblPuts_inside (s : State) {a i : Nat} {l : List Byte} (hi : i < l.length) :
    tblGet (tblPuts s a l) (a + i) = l.getD i 0#8 := by
  induction l generalizing s a i with
  | nil => exact absurd hi (Nat.not_lt_zero i)
  | cons b l ih =>
    cases i with
    | zero =>
      change tblGet (tblPuts (tblPut s a b) (a + 1) l) a = b
      rw [tblGet_tblPuts_outside _ (.inl (Nat.lt_succ_self a))]
      exact tblGet_tblPut_same s a b
    | succ j =>
      have h := ih (tblPut s a b) (a := a + 1) (i := j) (by simpa using hi)
      rw [Nat.add_right_comm] at h
      exact h

theorem bankPut_requests {bank at_ top p v : Nat} {cx : Bool} {s : State} (ht : top ≤ 3) (hr : cxRuns s p = true) (hc : bit v 30 = false) :
    bankPut bank at_ top p (v ||| 2 ^ 31) cx s = swapRequest bank at_ p cx (wrn s (bank + pof p)
      (setBits (setBits (rdn s (bank + pof p)) 29 29 (bits v 29 29)) (16 + top) 16 (bits v (16 + top) 16))) := by
  unfold bankPut
  simp only [hr, bit_or_same, bit_or_other v (by decide : 30 ≠ 31), hc, bits_or_above v (by decide : 29 < 31),
    bits_or_above v (by omega : 16 + top < 31), if_true, Bool.false_eq_true, if_false]

theorem bankPut_cancels {bank at_ top p v : Nat} {cx : Bool} {s : State} (ht : top ≤ 3) (hr : cxRuns s p = true) :
    bankPut bank at_ top p (setBits v 31 30 1) cx s = swapCancel bank p cx (wrn s (bank + pof p)
      (setBits (setBits (rdn s (bank + pof p)) 29 29 (bits v 29 29)) (16 + top) 16 (bits v (16 + top) 16))) := by
  have hf : bits (setBits v 31 30 1) 31 30 = 1 := bits_setBits_same v 1 (by decide)
  have h31 : bit (setBits v 31 30 1) 31 = false := by
    have h := testBit_bits (setBits v 31 30 1) 31 30 1
    rw [hf] at h
    simpa [bit, Nat.testBit_one_eq_true_iff_self_eq_zero, Nat.testBit_eq_decide_div_mod_eq] using h.symm
  have h30 : bit (setBits v 31 30 1) 30 = true := by
    have h := testBit_bits (setBits v 31 30 1) 31 30 0
    rw [hf] at h
    simpa [bit, Nat.testBit_one_eq_true_iff_self_eq_zero, Nat.testBit_eq_decide_div_mod_eq] using h.symm
  unfold bankPut
  simp only [hr, h31, h30, bits_setBits_below v 1 (by decide : 30 ≤ 31) (by decide : 29 ≤ 29) (by decide : 29 < 30),
    bits_setBits_below v 1 (by decide : 30 ≤ 31) (by omega : 16 ≤ 16 + top) (by omega : 16 + top < 30), if_true, Bool.false_eq_true, if_false]

theorem tableWrite_correction {a n v q t b : Nat} {s : State} (h1 : 0x600000 ≤ a) (h2 : a < 0xA00000)
    (hq : q = (a - 0x600000) / 0x40000) (hp : cxPlace (a % 0x40000) = some (t, b)) :
    tableWrite .dennil a n v s = if cxLocked s q t b then evt s fCX_EVT_ACT_WR (pof q) else tblPuts s a (leBytes n v) := by
  have hs : tableScope a = some (0x04, some ((a - 0x600000) / 0x40000)) := if_pos h2
  simp only [tableWrite, hs, gated_of_covered (.inl rfl : Agent.dennil = .dennil ∨ _), tablePut, h1, h2, and_self, if_true, hp, hq]

/-- Settles O20: the writes of CX_BANK and of the table windows, and each accepted command by what its run answers. -/
theorem correctionRowsComplete : Obligations.CorrectionRowsComplete := by
  unfold Obligations.CorrectionRowsComplete
  refine ⟨fun ag p v s w hl hr hv hw => ?_, fun ag p v s w hl hr hw => ?_, fun i v s a q t b ha h hq hp hc => ?_,
    fun i v s a q t b ha h hq hp hc => ?_, fun i v s a q t b ha h hq hp hc => ?_, fun s a i l hi => tblGet_tblPuts_inside s hi,
    fun s a k l h => tblGet_tblPuts_outside s h, fun sp c s u hsp h hu hq hf hr hd => ?_, fun sp c s u hsp h hu hq => ?_,
    fun sp c s u hsp h hu hq ht hb hs hd hc hcap hr => ?_, fun sp c s u hsp h hu hq ht hb hs hd hc hcap hr ha => ?_,
    fun sp c s u hsp h hu hq hd => ?_, fun sp c s u hsp h hu hq hr hf => ?_⟩
  · rw [hw]
    exact congrArg Host.Outcome.next ((gated_of_covered hl _ _).trans (bankPut_requests le_rfl hr hv))
  · refine congrArg Host.Outcome.next ((gated_of_covered hl _ _).trans ((bankPut_cancels le_rfl hr).trans ?_))
    rw [← hw, swapCancel, rdn_wrn_same]
    rfl
  · refine congrArg Host.Outcome.next ?_
    subst ha
    exact (tableWrite_correction (by omega) h hq hp).trans (if_neg (by simp [hc]))
  · refine congrArg Host.Outcome.next ?_
    subst ha
    exact (tableWrite_correction (by omega) h hq hp).trans (if_neg (by simp [hc]))
  · refine congrArg Host.Outcome.next ?_
    subst ha
    exact (tableWrite_correction (by omega) h hq hp).trans (if_pos hc)
  · subst hsp hu
    refine congrArg Host.Outcome.next (mbRun_ok h ?_)
    simp only [corrLoadCal, hf, hr, hd, Nat.not_le.mpr hq, Bool.false_eq_true, false_and, if_false, if_true]
  · subst hsp hu
    refine congrArg Host.Outcome.next (mbRun_ok h ?_)
    simp only [corrSetMode, Nat.not_le.mpr hq, if_false]
  · subst hsp hu
    refine congrArg Host.Outcome.next (mbRun_ok h ?_)
    have hs' : bit (pb c 3) 0 = false := by rw [hs]; rfl
    have h3 : ¬ (pb c 1 = 3 ∧ (pw c 4 ≠ 0 ∨ pw c 6 ≠ 12740)) := by omega
    have h2 : ¬ pb c 1 = 2 := by omega
    have he : tblEntry (pb c 1) = 2 := if_neg h2
    simp only [corrTableLoad, hs', hd, hc, hr, he, h2, h3, Nat.not_le.mpr hq, Nat.not_le.mpr hb, Nat.not_lt.mpr hcap,
      Bool.false_eq_true, false_and, or_self, if_false, if_true, and_false, Bool.not_true]
    rw [if_neg (by omega)]
  · subst hsp hu
    refine congrArg Host.Outcome.next (mbRun_ok h ?_)
    have hs' : bit (pb c 3) 0 = false := by rw [hs]; rfl
    have hn : ¬ tblCap 2 true < pw c 4 + pw c 6 := Nat.not_lt.mpr hcap
    have he : tblEntry 2 = 4 := rfl
    simp only [corrTableLoad, hs', ht, hd, hc, hr, he, ha, hn, Nat.not_le.mpr hq, Nat.not_le.mpr hb,
      Bool.false_eq_true, false_and, or_self, if_false, if_true, and_false, Bool.not_true, not_true,
      Nat.reduceLeDiff, Nat.reduceEqDiff]
  · subst hsp hu
    refine congrArg Host.Outcome.next (mbRun_ok h ?_)
    have hany : (List.range 4).any (fun t => bit (pb c 1 % 16) t && !dualNow (mbTake c s) (pb c 0) t) = false := by
      rw [List.any_eq_false]
      intro t ht
      have ht4 : t < 4 := List.mem_range.mp ht
      rw [show (16 : Nat) = 2 ^ 4 from rfl, bit_mod_two_pow ht4]
      cases hb : bit (pb c 1) t
      · simp
      · simp [hd t ht4 hb]
    simp only [corrBankSwap, Nat.not_le.mpr hq, hany, Bool.false_eq_true, if_false]
  · subst hsp hu
    refine congrArg Host.Outcome.next (mbRun_ok h ?_)
    have h0 : bit 3 0 = true := by decide
    have h1 : bit 3 1 = true := by decide
    simp only [corrParams, hf, hr, h0, h1, Nat.not_le.mpr hq, Bool.false_eq_true, and_false, if_false, if_true]

end Sys2Proof.Machine
end

section
/-! Colour and taps. -/

namespace Sys2Proof.Machine

set_option Elab.async false

theorem dmPut_dmCtl (p : PortNo) (v : Nat) (s : State) :
    dmPut (DM_CTL + pof p.val) v s =
      if bit v 29 then shadowCommit fDM_CTL_PEND p.val (putWord (DM_CTL + pof p.val) v s) else putWord (DM_CTL + pof p.val) v s := by
  have hp := p.isLt
  have h1 : (DM_CTL + pof p.val - 0x100000) / 0x10000 = p.val := by
    unfold DM_CTL pof
    omega
  have h2 : (DM_CTL + pof p.val) % 0x10000 - 0x4000 = 0 := by
    unfold DM_CTL pof
    omega
  simp only [dmPut, h1, h2, if_true]

theorem dmPut_tapCtl (p : PortNo) (e : Fin 2) (v : Nat) (s : State) :
    dmPut (DM_TAP_CTL + tpo p.val e.val) v s = tapCtlPut p.val e.val v s := by
  have hp := p.isLt
  have he := e.isLt
  have h1 : (DM_TAP_CTL + tpo p.val e.val - 0x100000) / 0x10000 = p.val := by
    unfold DM_TAP_CTL tpo pof
    omega
  have h2 : (DM_TAP_CTL + tpo p.val e.val) % 0x10000 - 0x4000 = 0x100 + e.val * 0x40 := by
    unfold DM_TAP_CTL tpo pof
    omega
  have h3 : (0x100 + e.val * 0x40 - 0x100) / 0x40 = e.val := by
    rw [Nat.add_sub_cancel_left, Nat.mul_div_cancel _ (by decide)]
  have h4 : (0x100 + e.val * 0x40) % 0x40 = 0 := by omega
  simp only [dmPut, h1, h2, h3, h4, if_true]
  rw [if_neg (by omega), if_pos (by omega)]

/-- Settles O21: the writes of DM_CTL and of a tap's control word, and each accepted command by what its run answers. -/
theorem colourAndTapsComplete : Obligations.ColourAndTapsComplete := by
  unfold Obligations.ColourAndTapsComplete
  refine ⟨fun ag p v s hl => ?_, fun ag p e v s u hl he hu => ?_, fun p e v s he => ?_,
    fun p e s u f l hf hd hdma ht hs hi hu => ?_, fun p e s u f l hf hd hdma ht hs hi hu => ?_,
    fun sp c s u t o hsp h hu hp h1 ho he hg h2 h3 ht hok => ?_, fun sp c s u hsp h hu hp h1 he => ?_,
    fun sp c s u e hsp h hu hp he => ?_, fun sp c s u t hsp h hu hp ht => ?_⟩
  · refine congrArg Host.Outcome.next ((gated_of_covered hl _ _).trans ((dmPut_dmCtl p _ s).trans ?_))
    exact if_pos (bit_or_same v.toNat 29)
  · refine congrArg Host.Outcome.next ((gated_of_covered hl _ _).trans ((dmPut_tapCtl p e _ s).trans ?_))
    simp only [tapCtlPut, he, ← hu, bit_or_same, Bool.not_true, Bool.false_eq_true, if_false]
  · refine congrArg Host.Outcome.next ((gated_of_covered (.inl rfl) _ _).trans ((dmPut_tapCtl p e _ s).trans ?_))
    simp only [tapCtlPut, he, bit_or_same, if_true]
  · simp only [exec, execTapFrameComplete, tapComplete, hf, hd, hdma, ht, hs, hi, ← hu, Bool.not_true, Bool.false_eq_true, not_true,
      or_self, if_false, if_true, OfNat.zero_ne_ofNat]
  · simp only [exec, execTapFrameComplete, tapComplete, hf, hd, hdma, ht, hs, hi, ← hu, Bool.not_true, Bool.false_eq_true, not_true,
      or_self, if_false, if_true, OfNat.zero_ne_ofNat]
  · subst hsp hu ho
    refine congrArg Host.Outcome.next (mbRun_ok h ?_)
    simp only [tapStart, he, hg, ← ht, hok, Nat.not_le.mpr hp, Nat.not_le.mpr h1, Nat.not_le.mpr h2, Nat.not_le.mpr h3,
      Bool.not_true, Bool.false_eq_true, or_self, if_false]
  · subst hsp hu
    refine congrArg Host.Outcome.next (mbRun_ok h ?_)
    simp only [tapStop, he, Nat.not_le.mpr hp, Nat.not_le.mpr h1, Bool.not_true, Bool.false_eq_true, or_self, if_false]
  · subst hsp hu
    refine congrArg Host.Outcome.next (mbRun_ok h ?_)
    simp only [colourLoadCal, he, Nat.not_le.mpr hp, if_false]
  · subst hsp hu
    refine congrArg Host.Outcome.next (mbRun_ok h ?_)
    simp only [colourParams, ← ht, Nat.not_le.mpr hp, if_false]

end Sys2Proof.Machine
end

section
/-! Statistics and queues. -/

namespace Sys2Proof.Machine

set_option Elab.async false

theorem rdn_tollSpend_elsewhere (s : State) (c : Nat) (costs : List (Nat × Nat)) {a : Nat}
    (h : ∀ rc ∈ costs, a ≠ TO_AVAIL + tollOfs c rc.1) : rdn (tollSpend s c costs) a = rdn s a := by
  have step : ∀ (t : State) r n, a ≠ TO_AVAIL + tollOfs c r → rdn (tollTake t c r n) a = rdn t a := by
    intro t r n hr
    unfold tollTake
    split
    · rfl
    · exact rdn_wrn_other t _ hr
  unfold tollSpend
  induction costs generalizing s with
  | nil => rfl
  | cons x l ih =>
    rw [List.foldl_cons, ih _ fun rc hrc => h rc (List.mem_cons_of_mem _ hrc)]
    exact step s _ _ (h x (List.mem_cons_self ..))

theorem maxPayload_congr {s t : State} (h : t.he = s.he) : maxPayload t = maxPayload s := by
  simp only [maxPayload, cfgRd, h]

/-- What the ring writer would carry does not depend on its budget. -/
theorem statWords_tollSpend (s : State) (p : PortNo) (n : Nat) :
    statWords (tollSpend s 35 [(1, n), (2, 1)]) p.val = statWords s p.val := by
  have hq : (tollSpend s 35 [(1, n), (2, 1)]).queues = s.queues := kept_of_sound .queues tollSpend_sound
  have hh : (tollSpend s 35 [(1, n), (2, 1)]).he = s.he := kept_of_sound .he tollSpend_sound
  have hw : rdn (tollSpend s 35 [(1, n), (2, 1)]) (fQU_CFG_WOUT.reg + quo (32 + p.val)) = rdn s (fQU_CFG_WOUT.reg + quo (32 + p.val)) := by
    refine rdn_tollSpend_elsewhere s 35 _ fun rc hrc => ?_
    have hr : rc.1 ≤ 2 := by
      simp at hrc
      rcases hrc with h | h <;> rw [h] <;> simp
    unfold TO_AVAIL tollOfs
    simp only
    omega
  unfold statWords
  rw [quGet_congr hq, maxPayload_congr hh, quWordBytes, quWordBytes, fbit_of_reads hw]

theorem stPut_stCtl (p : PortNo) (v : Nat) (s : State) :
    stPut (ST_CTL + pof p.val) v s =
      if bit v 30 then shadowCommit fST_CTL_PEND p.val (putWord (ST_CTL + pof p.val) v s) else putWord (ST_CTL + pof p.val) v s := by
  have hp := p.isLt
  have h1 : (ST_CTL + pof p.val - 0x100000) / 0x10000 = p.val := by
    unfold ST_CTL pof
    omega
  have h2 : (ST_CTL + pof p.val) % 0x10000 - 0x6000 = 0 := by
    unfold ST_CTL pof
    omega
  simp only [stPut, h1, h2, if_true]

theorem quRecord_nil : quRecord [] = [] := rfl

/-- A record that one transaction carries goes out whole. -/
theorem statWrite_whole {p : PortNo} {poison : List Nat} {s t u : State} {q : Nat} {l : List QWord} {bytes : List Byte} (hq : q = 32 + p.val)
    (hl : l = quRecord (quGet s q).words) (hne : l ≠ []) (hw : l = statWords s p.val) (hb : bytes = quBytes l)
    (hr : hwReads s q = true) (he : fbit s fST_RING_CTL_EN (pof p.val) = true) (hf : statFull s p.val = false)
    (hd : canDma s = true) (hpos : (portSt s p.val).stPos = 0)
    (hc : tollCan s 35 [(1, (bytes.length + 63) / 64), (2, 1)] = true)
    (ht : t = tollSpend s 35 [(1, (bytes.length + 63) / 64), (2, 1)])
    (hu : u = cnt (fset (updPort (dmaWrite (quRest q (forEach (List.range l.length) (fun i t => quLeave t q (poison.contains i)) t))
        (addr64 t (ST_RING_LO + pof p.val) (ST_RING_HI + pof p.val) + fget t fST_RING_PROD_V (pof p.val) % statSlots t p.val * 8192)
        bytes (poison.any (fun k => decide (k < l.length))) true) p.val (fun x => { x with stPos := 0 }))
      fST_RING_PROD_V (fget t fST_RING_PROD_V (pof p.val) + 1) (pof p.val)) (ST_CNT_REC + pof p.val)) :
    statWrite p.val poison s = if fbit u fST_RING_CTL_INT (pof p.val) then evt u fST_EVT_REC (pof p.val) else u := by
  subst hq
  have hw' : statWords t p.val = l := by rw [ht, statWords_tollSpend, hw]
  have hq' : quGet t (32 + p.val) = quGet s (32 + p.val) := quGet_congr (ht ▸ kept_of_sound .queues tollSpend_sound) _
  have hpos' : (portSt t p.val).stPos = 0 := by
    rw [portSt_congr (ht ▸ kept_of_sound .ports tollSpend_sound), hpos]
  have hchunk : statChunk p.val poison t = if fbit u fST_RING_CTL_INT (pof p.val) then evt u fST_EVT_REC (pof p.val) else u := by
    simp only [statChunk, hw', hq', hpos', ← hl, ← hb, beq_self_eq_true, Bool.not_true, Bool.false_eq_true, if_false, if_true,
      Nat.add_zero, ← hu]
  have hst : (portSt (statChunk p.val poison t) p.val).stPos = 0 := by
    have h0 : (portSt u p.val).stPos = 0 := by
      rw [hu, portSt_congr (cnt_ports ..), portSt_congr (fset_ports ..), portSt_updPort_same]
    rw [hchunk]
    split
    · rw [portSt_congr (kept_of_sound .ports evt_sound), h0]
    · exact h0
  obtain ⟨k, hk⟩ : ∃ k, (quGet s (32 + p.val)).words.length = k + 1 := by
    cases hx : (quGet s (32 + p.val)).words with
    | nil => exact absurd (hl.trans (by rw [hx, quRecord_nil])) hne
    | cons w ws => exact ⟨ws.length, rfl⟩
  rw [statWrite, hk, statCopy]
  simp only [← hw, hne, statCan, hr, he, hf, hd, ← hb, hc, ← ht, hst, Bool.true_or, Bool.not_false, Bool.and_self, not_true, or_self, if_false,
    Bool.not_true, Bool.false_eq_true, if_true]
  exact hchunk

theorem rtagRead_takes {ag : Agent} {q : Nat} {poison : Bool} {s : State} {w : QWord} {l : List QWord} (hw : (quGet s q).words = w :: l)
    (hh : fbit s fQU_CFG_HWR (quo q) = false) (ha : ag = (if fbit s fQU_CFG_READER (quo q) then Agent.host else Agent.dennil)) :
    rtagRead ag q poison s =
      (if poison && ag == .dennil then dennilPoison q (bit w.tag 5) (quPut (quLeave s q poison) q
          { quGet (quLeave s q poison) q with latch := w.bytes })
        else quPut (quLeave s q poison) q { quGet (quLeave s q poison) q with latch := w.bytes },
        w.tag + if poison then 128 else 0) := by
  simp only [rtagRead, hw, hh, ← ha, ne_eq, not_true, decide_false, Bool.or_self, Bool.false_eq_true, if_false]

/-- Settles O22: one transaction of the ring writer (`statWrite_whole`), the commits, and the reads of a queue's head. -/
theorem statisticsAndQueueRowsComplete : Obligations.StatisticsAndQueueRowsComplete := by
  unfold Obligations.StatisticsAndQueueRowsComplete
  refine ⟨fun p poison s u q l bytes hq hl hne hw hb hr he hf hd hpos hc hu => ?_, fun ag p v s hl => ?_,
    fun sp c s u pr hsp h hu hp hpr hcal => ?_, fun sp c s u hsp h hu hp => ?_, fun sp c s u hsp h hu hp => ?_,
    fun ag q poison s w l hw hh ha hpo => ?_, fun b q s u w l hq hw hh hrd hu => ?_, fun ag q poison s hw => ?_,
    fun q s he hw hh => ?_, fun q s u he hw hh hu => ?_, fun q s h => ?_, fun q s h1 h2 => ?_, fun q s h => ?_⟩
  · exact congrArg Host.Outcome.next (statWrite_whole hq hl hne hw hb hr he hf hd hpos hc rfl hu)
  · refine congrArg Host.Outcome.next ((gated_of_covered hl _ _).trans ((stPut_stCtl p _ s).trans ?_))
    exact if_pos (bit_or_same v.toNat 30)
  · subst hsp hu
    refine congrArg Host.Outcome.next (mbRun_ok h ?_)
    simp only [statStart, hpr, hcal, Nat.not_le.mpr hp, if_false, List.append_nil]
  · subst hsp hu
    exact congrArg Host.Outcome.next (mbRun_ok h (if_neg (by omega)))
  · subst hsp hu
    exact congrArg Host.Outcome.next (mbRun_ok h (if_neg (by omega)))
  · have hpd : (poison && ag == .dennil) = false := by
      cases poison with
      | false => rfl
      | true => rw [hpo rfl]; rfl
    simp only [exec, execQueueRtagRead, rtagRead_takes hw hh ha, hpd, Bool.false_eq_true, if_false]
  · have hin : 48 ≤ q.val ∧ q.val < 54 := by omega
    have hb : q.val - 48 = b.val := by omega
    have ha : Agent.dennil = (if fbit s fQU_CFG_READER (quo q.val) then Agent.host else Agent.dennil) := by rw [hrd]; rfl
    simp only [exec, execQueueRtagRead, rtagRead_takes hw hh ha, ← hu, dennilPoison, hin, and_self, if_true, hb,
      beq_self_eq_true, Bool.and_self]
  · simp only [exec, execQueueRtagRead, rtagRead, hw]
  · have hne : (quGet s q.val).words.isEmpty = false := by simpa using hw
    simp only [exec, execQueueStale, quStale, he, hne, hh, Bool.not_true, Bool.or_self, Bool.false_eq_true, if_false]
  · have hne : (quGet s q.val).words.isEmpty = false := by simpa using hw
    simp only [exec, execQueueStale, quStale, he, hne, hh, ← hu, Bool.not_true, Bool.or_self, Bool.false_eq_true, if_false, if_true]
  · have h' : (!fbit s fQU_STALE_EN (quo q.val) || (quGet s q.val).words.isEmpty) = true := by
      rcases h with h | h <;> simp [h]
    simp only [exec, execQueueStale, quStale, h', if_true]
  · exact congrArg Host.Outcome.next (if_pos ⟨h1, h2⟩)
  · exact congrArg Host.Outcome.next (if_neg (by omega))

end Sys2Proof.Machine
end

section
/-! Segmentation. -/

namespace Sys2Proof.Machine

set_option Elab.async false

theorem sgPut_sgCtl (p : PortNo) (v : Nat) (s : State) :
    sgPut (SG_CTL + pof p.val) v s =
      if bit v 30 then shadowCommit fSG_CTL_PEND p.val (putWord (SG_CTL + pof p.val) v s) else putWord (SG_CTL + pof p.val) v s := by
  have hp := p.isLt
  have h1 : (SG_CTL + pof p.val - 0x100000) / 0x10000 = p.val := by
    unfold SG_CTL pof
    omega
  have h2 : (SG_CTL + pof p.val) % 0x10000 - 0x8000 = 0 := by
    unfold SG_CTL pof
    omega
  simp only [sgPut, h1, h2, if_true]

theorem sgPut_sgBank (p : PortNo) (v : Nat) (s : State) :
    sgPut (SG_BANK + pof p.val) v s = bankPut SG_BANK SG_SWAP_AT 0 p.val v false s := by
  have hp := p.isLt
  have h1 : (SG_BANK + pof p.val - 0x100000) / 0x10000 = p.val := by
    unfold SG_BANK pof
    omega
  have h2 : (SG_BANK + pof p.val) % 0x10000 - 0x8000 = 0x30 := by
    unfold SG_BANK pof
    omega
  simp only [sgPut, h1, h2, if_true]
  rfl

/-- Settles O23: the writes of SG_CTL and SG_BANK, and each accepted command by what its run answers. -/
theorem segmentationRowsComplete : Obligations.SegmentationRowsComplete := by
  unfold Obligations.SegmentationRowsComplete
  refine ⟨fun ag p v s hl => ?_, fun ag p v s w hl hr hv hw => ?_, fun ag p v s w hl hr hw => ?_,
    fun sp c s u hsp h hu hp hr h1 h2 hm hd => ?_, fun sp c s u hsp h hu hp hr h1 h2 hm => ?_,
    fun sp c s u pr hsp h hu hp hpr hf => ?_, fun sp c s u img hsp h hu hp hi => ?_,
    fun sp c s u hsp h hu hp h1 h2 h3 hd hk hcap hr => ?_⟩
  · refine congrArg Host.Outcome.next ((gated_of_covered hl _ _).trans ((sgPut_sgCtl p _ s).trans ?_))
    exact if_pos (bit_or_same v.toNat 30)
  · rw [hw]
    exact congrArg Host.Outcome.next ((gated_of_covered hl _ _).trans ((sgPut_sgBank p _ s).trans
      (bankPut_requests (Nat.zero_le 3) hr hv)))
  · refine congrArg Host.Outcome.next ((gated_of_covered hl _ _).trans ((sgPut_sgBank p _ s).trans
      ((bankPut_cancels (Nat.zero_le 3) hr).trans ?_)))
    rw [← hw, swapCancel, rdn_wrn_same]
    rfl
  · subst hsp hu
    refine congrArg Host.Outcome.next (mbRun_defer h ?_)
    have hn : ¬ (pw c 2 = 0 ∨ 4096 < pw c 2) := by omega
    simp only [segLearn, hr, hn, hm, hd, Nat.not_le.mpr hp, Bool.not_true, Bool.false_eq_true, not_true, and_false, if_false, if_true]
  · subst hsp hu
    refine congrArg Host.Outcome.next (mbRun_defer h ?_)
    have hn : ¬ (pw c 2 = 0 ∨ 4096 < pw c 2) := by omega
    simp only [segLearn, hr, hn, hm, Nat.not_le.mpr hp, Bool.not_true, Bool.not_false, Bool.false_eq_true, false_and, if_false]
  · subst hsp hu
    refine congrArg Host.Outcome.next (mbRun_ok h ?_)
    simp only [segLoadProfile, hpr, hf, Nat.not_le.mpr hp, if_false]
  · subst hsp hu
    refine congrArg Host.Outcome.next (mbRun_ok h ?_)
    simp only [segParams, ← hi, Nat.not_le.mpr hp, if_false]
  · subst hsp hu
    refine congrArg Host.Outcome.next (mbRun_ok h ?_)
    have hs : bit (pb c 3) 0 = false := by rw [h3]; rfl
    simp only [segTableLoad, hs, h1, hd, hk, hr, Nat.not_le.mpr hp, Nat.not_le.mpr h2, Nat.not_lt.mpr hcap, Bool.not_true,
      Bool.false_eq_true, ne_eq, not_true, and_false, false_and, or_self, if_false, if_true]

end Sys2Proof.Machine
end

section
/-! Ledger events and mate messages. -/

namespace Sys2Proof.Machine

set_option Elab.async false

theorem inHand_iff {st : EState} (h : st = .mated ∨ st = .tiled) : (st == .mated || st == .tiled) = true := by
  rcases h with h | h <;> rw [h] <;> rfl

/-- Settles O25: each event and message by the branch that its hypotheses select. -/
theorem ledgerAndMateEventsComplete : Obligations.LedgerAndMateEventsComplete := by
  unfold Obligations.LedgerAndMateEventsComplete
  refine ⟨fun id s u c hc hp hu => ?_, fun id s u c hc hp hu => ?_, fun id s u r hr ho hl hst ht hu => ?_,
    fun owner s r hr ho hst ht => ?_, fun owner s x r hx hr ht => ?_, fun low t s p hp ht => ?_, fun low s p hp ht => ?_,
    fun ag g s u hl he hu => ?_, fun ag g s hl he => ?_, fun src p s m h0 hn hr ho hb ht hm => ?_, fun src p s m h0 hn hb hm => ?_,
    fun src p s ms got h0 hn hms hgot hne => ?_, fun src p s u r h0 hn hc hu hr ho => ?_, fun src p s u r h0 hn hc hu hr ho => ?_,
    fun src p s h0 hn => ?_, fun src p s h h0 hn hf hd => ?_, fun src p s h h0 hn hf hd hm hr => ?_,
    fun id h s u w hw ht hh hu => ?_, fun id s u w hw ht hh hu => ?_⟩
  · simp only [exec, execObjectSeen, objectSeen, hc, ← hu, hp, Bool.false_eq_true, if_false]
  · simp only [exec, execObjectSeen, objectSeen, hc, ← hu, hp, if_true]
  · simp only [exec, execOrphanTimeout, orphan, hr, ho, hl, inHand_iff hst, ht, ← hu, Bool.not_true, Bool.or_self, Bool.false_eq_true,
      if_false]
  · simp only [exec, execVerdictDeadline, verdictDeadline, hr, ho, inHand_iff hst, ht, Bool.and_self, if_true]
  · simp only [exec, execEntryRetire, entryRetire, hx, hr, ht, if_true]
  · simp only [exec, execSetCloseTime, setClose, hp, ht]
  · simp only [exec, execSetCloseTime, setClose, hp, ht]
  · refine congrArg Host.Outcome.next ((gated_of_covered hl _ _).trans ?_)
    simp only [groupEnable, he, ← hu, Bool.not_false, Bool.and_self, if_true]
  · refine congrArg Host.Outcome.next ((gated_of_covered hl _ _).trans ?_)
    simp only [groupEnable, he, Bool.false_and, Bool.false_eq_true, if_false]
  · have hg : ¬ (byteAt p 0 ≠ 1 ∨ p.length < 32) := by omega
    simp only [exec, execMateCandReceive, candReceive, hg, hr, ho, hb, ht, ← hm, Bool.not_true, Bool.or_self, Bool.false_eq_true,
      if_false]
  · have hg : ¬ (byteAt p 0 ≠ 1 ∨ p.length < 32) := by omega
    have hu : (!bit (byteAt p 3) 0 || !fbit s fVW_STAT_TB_OK) = true := by
      rcases hb with hb | hb <;> simp [hb]
    simp only [exec, execMateCandReceive, candReceive, hg, hu, ← hm, if_false, if_true]
  · have hg : ¬ (byteAt p 0 ≠ 2 ∨ p.length < 28) := by omega
    simp only [exec, execMateSetReceive, setReceive, hg, ← hms, ← hgot, hne, if_false, ne_eq, not_false_iff, if_true]
  · have hg : ¬ (byteAt p 0 ≠ 3 ∨ p.length < 24) := by omega
    simp only [exec, execMateOutcomeReceive, outcomeReceive, hg, hc, ← hu, hr, ho, Bool.false_eq_true, if_false]
  · have hg : ¬ (byteAt p 0 ≠ 3 ∨ p.length < 24) := by omega
    simp only [exec, execMateOutcomeReceive, outcomeReceive, hg, hc, ← hu, hr, ho, Bool.false_eq_true, if_false]
  · exact congrArg Host.Outcome.next (if_neg (by omega))
  · have hg : ¬ (byteAt p 0 ≠ 5 ∨ p.length < 8) := by omega
    simp only [exec, execMateWithdrawReceive, withdrawReceive, hg, hf, hd, if_false, if_true]
  · have hg : ¬ (byteAt p 0 ≠ 5 ∨ p.length < 8) := by omega
    simp only [exec, execMateWithdrawReceive, withdrawReceive, hg, hf, hd, hm, hr, Bool.false_eq_true, if_false, if_true, forEach,
      List.foldl_nil]
  · simp only [exec, execRemoteWaitExpiry, withdrawSend, hw, ht, hh, ← hu, Bool.not_true, Bool.false_eq_true, if_false]
  · simp only [exec, execRemoteWaitExpiry, withdrawSend, hw, ht, hh, ← hu, Bool.not_true, Bool.false_eq_true, if_false]

end Sys2Proof.Machine
end

section
/-! View commands. -/

namespace Sys2Proof.Machine

set_option Elab.async false

theorem int32u_lt (i : Int) : int32u i < 2 ^ 32 := (BitVec.ofInt 32 i).isLt

theorem bit_of_mod_four {n : Nat} (h : n % 4 = 0) : bit n 0 = false ∧ bit n 1 = false := by
  have h' : n % 2 ^ 2 = 0 := h
  rw [← bit_mod_two_pow (v := n) (by decide : 0 < 2), ← bit_mod_two_pow (v := n) (by decide : 1 < 2), h']
  exact ⟨rfl, rfl⟩

/-- The first two words of a result. -/
theorem u32At_first_two {a b : Nat} (ha : a < 2 ^ 32) (hb : b < 2 ^ 32) (l : List Byte) :
    u32At (leBytes 4 a ++ leBytes 4 b ++ l) 0 = a ∧ u32At (leBytes 4 a ++ leBytes 4 b ++ l) 4 = b := by
  constructor
  · rw [List.append_assoc]
    exact u32At_append [] _ a ha
  · exact u32At_append (leBytes 4 a) l b hb

/-- Settles O26: each command by what its run answers, and the end of a calibration run by the words of its result. -/
theorem viewCommandsComplete : Obligations.ViewCommandsComplete := by
  unfold Obligations.ViewCommandsComplete
  refine ⟨fun sp c s u v e ws hsp h hu hr he hws hg hv hb => ?_, fun sp c s u v hsp h hu h0 h1 h2 hne h16 h4096 hs hv r hr => ?_,
    fun s u r hr hf hu => ?_, fun s u r hr hf hfl hu => ?_, fun sp c s u hsp h hu h0 he => ?_, fun sp c s u hsp h hu h0 he hr => ?_⟩
  · subst hsp hu
    refine congrArg Host.Outcome.next (mbRun_ok h ?_)
    simp only [viewLoadCal, hr, he, ← hws, hg, ← hv, hb, Bool.false_eq_true, if_false, if_true]
  · subst hsp hu
    refine congrArg Host.Outcome.next (mbRun_defer h ?_)
    have hd : ¬ (3 < pb c 2 ∨ pb c 1 = pb c 2) := by omega
    have hn : ¬ (pw c 4 < 16 ∨ 4096 < pw c 4) := by omega
    simp only [viewCalRun, runGroupOff, hd, hn, Nat.not_lt.mpr h0, Nat.not_lt.mpr h1, Nat.not_lt.mpr hs, ← hv, ← hr, if_false]
  · simp only [exec, execViewCalRunEnd, viewCalEnd, runGroupBack, hr, hf, ← hu, if_true]
  · obtain ⟨hb0, hb1⟩ := bit_of_mod_four hfl
    simp only [exec, execViewCalRunEnd, viewCalEnd, runGroupBack, hr, Nat.not_lt.mpr hf, ← hu, hb0, hb1, Bool.false_eq_true, if_false]
    refine ⟨_, ?_, ?_, ?_, rfl⟩
    · simp only [List.length_append, leBytes_length]
    · simp only [List.append_assoc]
      exact (List.append_assoc _ _ _ ▸ (u32At_first_two (int32u_lt _) (int32u_lt _) _).1)
    · simp only [List.append_assoc]
      exact (List.append_assoc _ _ _ ▸ (u32At_first_two (int32u_lt _) (int32u_lt _) _).2)
  · subst hsp hu
    refine congrArg Host.Outcome.next (mbRun_ok h ?_)
    simp only [viewParams, he, Nat.not_lt.mpr h0, Bool.false_eq_true, if_false]
  · subst hsp hu
    refine congrArg Host.Outcome.next (mbRun_ok h ?_)
    simp only [viewTableLoad, he, hr, Nat.not_lt.mpr h0, Bool.not_true, Bool.false_eq_true, if_false]

end Sys2Proof.Machine
end

section
/-! Tiles. -/

namespace Sys2Proof.Machine

set_option Elab.async false

theorem tileWrite_covered {a : TileAlloc} {at_ : Nat} {data : List Byte} {s : State}
    (h : tollNext s 33 data.length (dmaCosts a.maker.isSome data.length) = true) :
    tileWrite a at_ data false s = tollStream 33 (dmaCosts a.maker.isSome data.length) false (allocWrite a at_ data s) := by
  simp only [tileWrite, h, Bool.not_true, Bool.false_and, Bool.false_eq_true, if_false]

/-- A crop that is ready and has its budget and blocks goes out. -/
theorem tileCrop_goesOut {id at_ : Nat} {d : Bool} {s u : State} {m : TileMade} {c : Crop} {bytes : List Byte} {rect : Nat × Nat × Nat × Nat}
    (hm : s.tiles.made.find? (fun m => m.id = id && m.sentTo.isNone && !(s.tiles.allocs.any (fun a => a.maker.isNone && a.id = id))) = some m)
    (hr : cropReady s (entryOf s id) (bits m.route 24 19) = true) (hl : cropLost s (entryOf s id) (bits m.route 24 19) = false)
    (hp : lp5Poison s (featAddr s (idIndex id)) 128 = false) (hc : cropOf s (entryOf s id) m.route = some c)
    (hrect : rect = cropRect s (entryOf s id) (bits m.route 24 19)) (hb : bytes = tileBytes s (entryOf s id) m c)
    (ht : tollNext s 32 (8 * (rect.2.1 + 1 - rect.1)) [(0, 1), (2, 1)] = true) (hpool : poolCan s 2 (blocksOf bytes.length) = true)
    (hu : u = evCopy id bytes (poolGive (poolTake s 2 (blocksOf bytes.length)) 2 (blocksOf bytes.length))) :
    tileCrop id none d .good at_ s = tileOut m bytes none d
      (tollStream 32 (cropCosts rect bytes.length (u.ev.copies.any (fun x => x.id = id && x.data.isSome))) false u) := by
  have hg : (ReadCheck.good == ReadCheck.failed) = false := rfl
  have hs : lp5Check .good at_ s = s := rfl
  have hn : (none : Option Nat).isSome = false := rfl
  unfold tileCrop
  rw [hs]
  simp only [hm, hr, hl, hp, hg, hc, ← hb, ← hrect, ht, hpool, ← hu, ite_self, reduceCtorEq, decide_false, hn,
    Bool.not_true, Bool.or_self, Bool.false_eq_true, if_false]

/-- Settles O27: each row by the branch that its hypotheses select. -/
theorem tileRowsComplete : Obligations.TileRowsComplete := by
  unfold Obligations.TileRowsComplete
  refine ⟨fun id at_ cut d s m hm hr hl => ?_, fun id at_ cut d s m hm hr hl hp hc => ?_,
    fun id at_ d s u m c bytes rect hm hr hl hp hc hrect hb ht hpool hu => ?_, fun src msg p s u a len hn hlen hu ha ht => ?_,
    fun src msg seg p s a h0 ha hp hd hs ht => ?_, fun src msg seg p d s a h0 ha hp hd hs => ?_,
    fun r seq s u a ha hd he hi hm hu hi' => ?_, fun s a reason => ?_⟩
  · simp only [exec, execTileCropStart, tileCrop, hm, lp5Check, hr, hl, Bool.not_true, Bool.or_true, Bool.true_or,
      Bool.false_eq_true, if_false, if_true]
  · have hg : (ReadCheck.good == ReadCheck.failed) = false := rfl
    simp only [exec, execTileCropStart, tileCrop, hm, lp5Check, hr, hl, hp, hg, hc, Bool.not_true, Bool.or_self,
      Bool.false_eq_true, if_false]
  · exact congrArg Host.Outcome.next (tileCrop_goesOut hm hr hl hp hc hrect hb ht hpool hu)
  · simp only [exec, execTilePacketReceive, tilePacket, if_true, ← hlen, Nat.not_lt.mpr hn, if_false, ← hu, ha, tileWrite_covered ht]
  · have hg : ¬ (a.paused = true ∨ a.drop.isSome = true) := by simp [hp, hd]
    have hseg : ¬ seg ≠ a.nextSeg := not_not.mpr hs
    simp only [exec, execTilePacketReceive, tilePacket, h0, ha, hg, hseg, if_false]
    exact congrArg Host.Outcome.next (tileWrite_covered ht)
  · have hg : ¬ (a.paused = true ∨ a.drop.isSome = true) := by simp [hp, hd]
    simp only [exec, execTilePacketReceive, tilePacket, h0, ha, hg, if_false, ne_eq, hs, not_false_iff, if_true]
  · simp only [exec, execTileDescriptorWrite, descWrite, ha, hd, he, hi, hm, if_true, Option.isNone_none, ← hu,
      Bool.false_eq_true, if_false]
  · simp only [descBytes, List.length_append, leBytes_length, zeros, List.length_replicate]

end Sys2Proof.Machine
end

section
/-! Verdict rings and the ends of tiles. -/

namespace Sys2Proof.Machine

set_option Elab.async false

theorem consWrite_moves {r v : Nat} {s : State} (hv : v < 2 ^ 32)
    (h : sub32 v (rdn s (TL_TR_CONS + tro r)) ≤ sub32 (rdn s (TL_TR_SEQ + tro r)) (rdn s (TL_TR_CONS + tro r))) :
    rdn (consWrite r v s) (TL_TR_CONS + tro r) = v ∧ smGet (consWrite r v s).tiles.arenaCons r 0 = rdn s (TL_TR_ARENA_CONS + tro r) ∧
      (∀ a, a ≠ TL_TR_CONS + tro r → rdn (consWrite r v s) a = rdn s a) ∧ (consWrite r v s).tiles.allocs = s.tiles.allocs ∧
      (consWrite r v s).ledger = s.ledger := by
  unfold consWrite
  extract_lets old s1
  rw [if_pos h]
  refine ⟨?_, smGet_smPut_same .., fun a ha => ?_, rfl, rfl⟩
  · exact (rdn_congr (s := wrn s (TL_TR_CONS + tro r) v) rfl _).trans ((rdn_wrn_same ..).trans (Nat.mod_eq_of_lt hv))
  · exact (rdn_congr (s := wrn s (TL_TR_CONS + tro r) v) rfl _).trans (rdn_wrn_other s v ha)

theorem consWrite_refused {r : Fin 64} {v : Nat} {s : State}
    (h : sub32 (rdn s (TL_TR_SEQ + tro r.val)) (rdn s (TL_TR_CONS + tro r.val)) < sub32 v (rdn s (TL_TR_CONS + tro r.val))) :
    fget (consWrite r.val v s) fTL_TR_EVT_CONS_ERR (tro r.val) = 1 ∧
      rdn (consWrite r.val v s) (TL_TR_CONS + tro r.val) = rdn s (TL_TR_CONS + tro r.val) ∧ (consWrite r.val v s).tiles = s.tiles := by
  have hlt := r.isLt
  have hi : ∀ a, 0xD0000 ≤ a → ¬ IrqReg a := fun a ha => by
    unfold IrqReg HE_IPEND HE_VEC_ARM HE_PBA
    omega
  unfold consWrite
  extract_lets old s1
  rw [if_neg (Nat.not_le.mpr h)]
  refine ⟨?_, ?_, ?_⟩
  · refine (congrArg (fun n => bits n _ _) (rdn_irqAt _ _ (hi _ ?_))).trans (fget_fset_same s fTL_TR_EVT_CONS_ERR 1 _)
    simp only [tro]
    omega
  · rw [rdn_irqAt _ _ (hi _ (by unfold TL_TR_CONS tro; omega))]
    exact rdn_fset_other s fTL_TR_EVT_CONS_ERR _ _ (by unfold TL_TR_CONS; simp only; omega)
  · rw [irqAt_tiles, fset_tiles]

theorem bme_congr {s t : State} (h : t.he.cfg = s.he.cfg) : bme t = bme s := by
  simp only [bme, cfgRd, h]

/-- The books of the outstanding reads do not bear on whether DMA is allowed. -/
theorem canDma_syncTags (s : State) : canDma (syncTags s) = canDma s := by
  have hf : ∀ g : Fld, Apart fHE_STAT_NP_OUT g = true → Apart fHE_STAT_QUIET g = true → Apart fHE_TAG_STAT_QUAR g = true →
      fbit (syncTags s) g = fbit s g := fun g h1 h2 h3 =>
    (fbit_fset_apart _ _ g _ 0 h3).trans ((fbit_fset_apart _ _ g _ 0 h2).trans (fbit_fset_apart _ _ g _ 0 h1))
  have hh : (syncTags s).he = s.he := kept_of_sound .he syncTags_sound
  have hb : bme (syncTags s) = bme s := bme_congr (by rw [hh])
  unfold canDma
  rw [hf _ rfl rfl rfl, hf _ rfl rfl rfl, hf _ rfl rfl rfl, hb]

theorem canDma_congr {s t : State} (hr : t.regs = s.regs) (hc : t.he.cfg = s.he.cfg) : canDma t = canDma s := by
  simp only [canDma, fbit, fget_congr hr, bme_congr hc]

theorem canDma_npEnd (tag : Nat) (s : State) : canDma (npEnd tag s) = canDma s :=
  (canDma_syncTags _).trans (canDma_congr rfl rfl)

/-- Settles O28: each row by the branch that its hypotheses select. -/
theorem verdictsAndTileEndsComplete : Obligations.VerdictsAndTileEndsComplete := by
  unfold Obligations.VerdictsAndTileEndsComplete
  refine ⟨fun src p s h0 hn hm => ⟨fun h1 => ?_, fun h1 => ?_⟩, fun id s m hm => ?_, fun r seq s a ha he ht => ?_,
    fun r v s h => ⟨_, rfl, consWrite_moves v.isLt h⟩, fun r v s h => ⟨_, rfl, consWrite_refused h⟩, fun v t s h => ?_,
    fun v t s h => ?_, fun s v tag n hd hv hn hc ht => ?_, fun v d s u f r hf hr hv hu hd => ?_, fun v d s f r hf hr hv => ?_,
    fun src p s h0 hn => ?_⟩
  · have hg : ¬ (byteAt p 0 ≠ 1 ∨ p.length < 16 ∨ ¬ s.tiles.made.any (fun m => m.id = u32At p 4 && m.sentTo == some src) = true) := by
      simp only [h0, hm, ne_eq, not_true, or_false, false_or]
      omega
    simp only [exec, execTileDoneReceive, tileDone, hg, h1, if_false, if_true]
  · have hg : ¬ (byteAt p 0 ≠ 1 ∨ p.length < 16 ∨ ¬ s.tiles.made.any (fun m => m.id = u32At p 4 && m.sentTo == some src) = true) := by
      simp only [h0, hm, ne_eq, not_true, or_false, false_or]
      omega
    simp only [exec, execTileDoneReceive, tileDone, hg, h1, if_false, if_true, OfNat.ofNat_ne_one]
  · simp only [exec, execTileAckTimeout, tileAckTmo, hm]
  · simp only [exec, execTileIncompleteTimeout, tileStale, ha, he, ht, Option.isNone_none, and_self, if_true]
  · have hu : vrDoorbell v.val t.toNat s = fset s fTL_VR_TAIL_V t.toNat (vro v.val) := if_neg (Nat.not_le.mpr h)
    refine ⟨_, congrArg Host.Outcome.next hu, ?_, fun a ha => rdn_fset_other s fTL_VR_TAIL_V _ _ ha, fset_only ..⟩
    exact (fget_fset_same s fTL_VR_TAIL_V _ _).trans (Nat.mod_eq_of_lt t.isLt)
  · exact congrArg Host.Outcome.next (if_pos h)
  · subst hn
    simp only [exec, execVerdictFetch, vrFetch, hd, hv, hc, ht, if_true, Bool.not_true, Bool.false_eq_true, if_false]
    exact ⟨_, rfl, rfl, rfl⟩
  · have hd' : canDma s = true := by
      rw [← hd, hu, canDma_npEnd]
      exact canDma_congr rfl rfl
    simp only [exec, execVerdictFetchComplete, vrArrive, hf, hr, hv, ← hu, hd', Bool.not_true, Bool.or_self, Bool.false_eq_true, if_false]
  · simp only [exec, execVerdictFetchComplete, vrArrive, hf, hr, hv, Bool.true_or, if_true]
  · exact congrArg Host.Outcome.next (if_neg (by omega))

end Sys2Proof.Machine
end

section
/-! ACT messages and ejection commands. -/

namespace Sys2Proof.Machine

set_option Elab.async false

/-- Settles O29: each message and command by the branch that its hypotheses select. -/
theorem actMessagesAndCommandsComplete : Obligations.ActMessagesAndCommandsComplete := by
  unfold Obligations.ActMessagesAndCommandsComplete
  refine ⟨fun src p s u ps evict h0 hn hps hm hu ha => ?_, fun src p s u code c h0 hn hm hu ha => ?_,
    fun src p s o h0 hn ho hl hc ht hr => ?_, fun src p s o h0 hn ho hl hc ht hr => ?_, fun src p s h0 hn => ?_,
    fun owner s u o ho ht hr hu => ⟨fun hl => ?_, fun hl hq => ?_⟩, fun sp c s u v e hsp h hu hr he hv hb => ?_,
    fun sp c s u v hsp h hu h0 h1 h16 h4096 ht hv r hr => ?_, fun s u r hr hf hfl hu => ?_,
    fun sp c s u ps evict hsp h hu hps he hb hs h1 h2 hne hv => ?_⟩
  · have hg : ¬ (byteAt p 0 ≠ 2 ∨ p.length < 24) := by omega
    simp only [exec, execActOrderReceive, orderReceive, hg, hm, ← hu, ← hps, ha, Bool.false_eq_true, if_false]
  · have hg : ¬ (byteAt p 0 ≠ 2 ∨ p.length < 24) := by omega
    simp only [exec, execActOrderReceive, orderReceive, hg, hm, ← hu, ha, Bool.false_eq_true, and_false, if_false]
  · have hg : ¬ (byteAt p 0 ≠ 3 ∨ p.length < 16 ∨ False) := by
      rw [or_false]
      omega
    simp only [exec, execActResultReceive, resultReceive, resultApply, ho, hl, ht, hr, hg, hc, decide_false, Bool.not_true,
      Bool.false_and, Bool.or_self, Bool.false_eq_true, if_false, if_true]
  · have hg : ¬ (byteAt p 0 ≠ 3 ∨ p.length < 16 ∨ False) := by
      rw [or_false]
      omega
    simp only [exec, execActResultReceive, resultReceive, resultApply, ho, hl, ht, hr, hg, hc, Bool.true_or, or_self,
      Bool.false_eq_true, decide_true, if_false, if_true]
    cases setOwned (updOrder s o.owner _) o.owner <;> rfl
  · exact congrArg Host.Outcome.next (if_neg (by omega))
  · have hne : (o.remotes == []) = false := by simpa using hr
    simp only [exec, execRemoteLaunch, remoteLaunch, ho, ht, hne, ← hu, hl, Bool.not_true, Bool.or_self, Bool.false_eq_true, if_false,
      if_true]
  · have hne : (o.remotes == []) = false := by simpa using hr
    simp only [exec, execRemoteLaunch, remoteLaunch, ho, ht, hne, ← hu, hl, hq, Bool.not_true, Bool.or_self, Bool.false_eq_true,
      if_false, if_true]
  · subst hsp hu
    refine congrArg Host.Outcome.next (mbRun_ok h ?_)
    simp only [ejectLoadCal, hr, he, ← hv, hb, Bool.false_eq_true, if_false, if_true]
  · subst hsp hu
    refine congrArg Host.Outcome.next (mbRun_defer h ?_)
    have hn : ¬ (pw c 4 < 16 ∨ 4096 < pw c 4) := by omega
    simp only [ejectCalRun, runGroupOff, hn, Nat.not_lt.mpr h0, Nat.not_lt.mpr h1, Nat.not_le.mpr ht, ← hv, ← hr, if_false]
  · obtain ⟨hb0, hb1⟩ := bit_of_mod_four hfl
    simp only [exec, execEjectCalRunEnd, ejectCalEnd, runGroupBack, hr, Nat.not_lt.mpr hf, ← hu, hb0, hb1, Bool.false_eq_true, if_false]
  · subst hsp hu
    refine congrArg Host.Outcome.next (mbRun_ok h ?_)
    have ht : ¬ (pd c 8 < 10000 ∨ 1000000000 < pd c 8) := by omega
    simp only [ejectTest, ← hps, he, hb, hs, ht, hne, hv, Bool.not_true, Bool.or_self, Bool.false_eq_true, if_false]

end Sys2Proof.Machine
end

section
/-! Valve buses. -/

namespace Sys2Proof.Machine

set_option Elab.async false

/-! A bus shows its queue's length in AC_QSTAT again whenever it is updated, so a frame's end on a bus whose AC_QSTAT reads
something else changes a register. -/

theorem qstat_updBus (s : State) (f : BusSt → BusSt) (h : (f (busAt s 0)).queue = []) : rdn (updBus s 0 f) AC_QSTAT = 0 := by
  have hb : ∀ v, (busAt { s with act := { s.act with buses := s.act.buses.set (Fin.ofNat 4 0) v } } 0) = v :=
    fun v => Vector.getElem_set_self _
  simp only [updBus, syncBus]
  rw [rdn_fset_other _ _ _ _ (by decide), rdn_wrn_other _ _ (by decide)]
  refine (rdn_wrn_same _ _ _).trans ?_
  rw [hb, h]
  rfl

/-- An idle bus without parts whose AC_QSTAT reads 1. -/
def staleQueueStatus : State := wrn State.reset AC_QSTAT 1

theorem busAt_staleQueueStatus : busAt staleQueueStatus 0 = ⟨[], [], .idle⟩ := by
  simp [staleQueueStatus, busAt, State.reset]

/-- Refutes O30: the end of a frame on `staleQueueStatus` writes AC_QSTAT, which then reads 0. -/
theorem not_valveBusesComplete : ¬ Obligations.ValveBusesComplete := by
  unfold Obligations.ValveBusesComplete
  rintro ⟨-, -, hend, -⟩
  have hw : ∀ a, (busAt staleQueueStatus 0).wire ≠ .poll a := by
    intro a
    rw [busAt_staleQueueStatus]
    simp
  obtain ⟨t, he, -, -, hr⟩ := hend 0 staleQueueStatus hw
  have ht : t = updBus staleQueueStatus 0 (fun u => { u with wire := .idle }) := by
    have := Host.Outcome.next.inj he
    rw [← this]
    simp only [Fin.coe_ofNat_eq_mod, Nat.zero_mod, busAt_staleQueueStatus]
  have h0 : rdn t AC_QSTAT = 0 := by
    rw [ht]
    exact qstat_updBus _ _ (by rw [busAt_staleQueueStatus])
  have h1 : rdn t AC_QSTAT = 1 := by
    rw [rdn_congr hr, staleQueueStatus, rdn_wrn_same]
    rfl
  omega

end Sys2Proof.Machine
end

section
/-! Time bases. -/

namespace Sys2Proof.Machine

set_option Elab.async false

/-! TB1_MEASURE aligns TB1 and takes the boot to step 4 where TB1 is locked in a quiet unit at step 3 (R425), so its next
state is then not the accepted offset alone. -/

/-- Step 3 of the boot with Dennil up, every port and ejection off, and TB1 locked to TB2. -/
def alignsAtLock : State :=
  { fset (fset (fset State.reset fTB_SRV_CTL_SRC 5 0x40) fTB_STAT_STATE 2 0x40) fMB_DENNIL_STAT_STATE 2 with
    rs := { State.reset.rs with step := 3 } }

theorem t1Offset_alignsAtLock : t1Offset alignsAtLock = some 0 := by decide +kernel

theorem measure_alignsAtLock_step : (measure 1 0 1000000 alignsAtLock).rs.step = 4 := by decide +kernel

theorem acceptOffset_alignsAtLock_step : (acceptOffset 1 (satOfs 0) 1000000 alignsAtLock).rs.step = 3 := by decide +kernel

/-- Refutes O31: a measurement of `alignsAtLock` ends at step 4, the accepted offset alone at step 3. -/
theorem not_timeBaseRowsComplete : ¬ Obligations.TimeBaseRowsComplete := by
  unfold Obligations.TimeBaseRowsComplete
  rintro ⟨-, -, -, -, -, -, -, -, -, hmeas, -⟩
  have h := hmeas alignsAtLock 0 t1Offset_alignsAtLock (by decide +kernel) (by decide +kernel)
  simp only [exec, execTb1Measure, t1Offset_alignsAtLock] at h
  have hs := congrArg (fun s : State => s.rs.step) (Host.Outcome.next.inj h)
  simp only [measure_alignsAtLock_step, acceptOffset_alignsAtLock_step] at hs
  omega

end Sys2Proof.Machine
end

section
/-! Time sources and alarms. -/

namespace Sys2Proof.Machine

set_option Elab.async false

theorem tbSrc_delay_rooted (s : State) (v : Nat) (w : Bool) :
    tbSrc (fbset (useFree (wrn s TB_SPAN_DELAY v)) fTB_STAT_ROOTED w) 0 = tbSrc s 0 := by
  have h : ∀ t : State, tbSrc (useFree t) 0 = tbSrc t 0 := fun t => fget_congr rfl _ _
  unfold tbSrc tbo fbset at *
  rw [fget_fset_reg _ _ _ _ _ _ (by decide), h]
  exact fget_wrn_apart _ _ TB_SPAN_DELAY _ 0 rfl

theorem delay_rooted_keeps (s : State) (v : Nat) (w : Bool) :
    (fbset (useFree (wrn s TB_SPAN_DELAY v)) fTB_STAT_ROOTED w).time = s.time ∧
      (fbset (useFree (wrn s TB_SPAN_DELAY v)) fTB_STAT_ROOTED w).bases = s.bases := by
  have ht : ∀ t : State, (useFree t).time = t.time ∧ (useFree t).bases = t.bases := fun _ => ⟨rfl, rfl⟩
  rw [fbset_time, fbset_bases, (ht _).1, (ht _).2, wrn_time, wrn_bases]
  exact ⟨rfl, rfl⟩

theorem ppsMeasures_none (s t : State) (f : Nat → State → State) (ht : t.regs = s.regs) (h : ∀ b, b < 3 → tbSrc s b ≠ 3) :
    forEach [0, 1, 2] (fun b t => if tbSrc t b = 3 then f b t else t) t = t := by
  have hk : ∀ b, b < 3 → ¬ tbSrc t b = 3 := fun b hb => by
    rw [tbSrc, fget_congr ht]
    exact h b hb
  simp only [forEach, List.foldl_cons, List.foldl_nil, hk 0 (by omega), hk 1 (by omega), hk 2 (by omega), if_false]

/-- Settles O32: each row by the branch that its hypotheses select. -/
theorem timeSourcesAndAlarmsComplete : Obligations.TimeSourcesAndAlarmsComplete := by
  unfold Obligations.TimeSourcesAndAlarmsComplete
  refine ⟨fun ph s he hd => ?_, fun p pl ph gap s x hp h0 hn hl hx => ?_, fun p pl ph s h0 hn hl => ?_,
    fun p pl s x hf hp h0 hn hs => ?_, fun s x rest hr => ?_, fun s hr => ?_, fun s h => ?_, fun r s u t0 ht hp hu => ?_,
    fun rising s he hr h3 => ?_, fun rising s h => ?_, fun s he hp => ?_, fun a s he hd ha hl hper => ?_,
    fun sp c s u p hsp h hu hp => ?_, fun sp c s u hsp h hu hi => ?_, fun sp c s u hsp h hu hb hs => ?_⟩
  · simp only [exec, execSyncSend, syncSend, he, hd, Bool.not_true, Bool.or_self, Bool.false_eq_true, if_false]
  · have hg : ¬ (upstreamPort s ≠ some p.val ∨ byteAt pl 0 ≠ 1 ∨ pl.length < 16 ∨ ¬ linkUp s p.val = true) := by
      simp [hp, h0, hl]
      omega
    subst hx
    exact congrArg Host.Outcome.next (if_neg hg)
  · have hg : ¬ (byteAt pl 0 ≠ 2 ∨ pl.length < 8 ∨ ¬ linkUp s p.val = true) := by
      simp [h0, hl]
      omega
    exact congrArg Host.Outcome.next (if_neg hg)
  · have hg : ¬ (upstreamPort s ≠ some p.val ∨ byteAt pl 0 ≠ 3 ∨ pl.length < 16) := by
      simp [hp, h0]
      omega
    refine ⟨_, rfl, ?_⟩
    simp only [drespReceive, hf, hg, if_false]
    rw [if_neg (by rw [tbSrc_delay_rooted]; exact hs)]
    obtain ⟨ht, hb⟩ := delay_rooted_keeps (useFree _) _ x.synced
    rw [ht, hb]
    exact ⟨rfl, rfl, fbit_fbset_same _ _ _ _, rfl⟩
  · simp only [exec, execDrespMiss, drespMiss, hr]
  · simp only [exec, execDrespMiss, drespMiss, hr]
  · exact congrArg Host.Outcome.next (if_pos h)
  · subst hu
    simp only [exec, execPtmResponse, ptmResponse, ht, hp, if_true]
  · have hg : (rising == fbit s fTB_PPS_CTL_POL) = false := by simpa using hr
    simp only [exec, execPpsEdge, ppsEdge, he, hg, Bool.not_true, Bool.or_self, Bool.false_eq_true, if_false]
    exact congrArg (fun t => Host.Outcome.next (emFire 0x38 t)) (ppsMeasures_none s _
      (fun b => measure b (([0, 1, 2].map (ppsOffset s)).getD b 0 * 65536) 1000000000) rfl h3)
  · have hg : (!fbit s fTB_PPS_CTL_EN || rising == fbit s fTB_PPS_CTL_POL) = true := by
      rcases h with h | h <;> simp [h]
    exact congrArg Host.Outcome.next (if_pos hg)
  · exact congrArg Host.Outcome.next (if_pos ⟨he, hp⟩)
  · have hper' : (rdn s (TB_ALM_PERIOD + a.val * 0x20) == 0) = false := by simpa using hper
    simp only [exec, execAlarmFire, alarmFire, he, hd, hl, hper, hper', decide_eq_false (Int.not_lt.mpr ha), Bool.not_true,
      Bool.or_self, Bool.false_eq_true, if_false, Nat.sub_self]
  · subst hsp hu
    refine congrArg Host.Outcome.next (mbRun_ok h ?_)
    simp only [runTimeLoadProfile, hp]
  · subst hsp hu
    refine congrArg Host.Outcome.next (mbRun_ok h ?_)
    simp only [runTimeAlign, hi, if_true]
  · subst hsp hu
    refine congrArg Host.Outcome.next (mbRun_ok h ?_)
    simp only [runTimeStep, hs, Bool.not_true, Bool.false_eq_true, Nat.not_lt.mpr hb, if_false, if_true]

end Sys2Proof.Machine
end

section
/-! Bringing a Span link up. -/

namespace Sys2Proof.Machine

set_option Elab.async false

theorem slState_fbset_en (s : State) (en : Bool) (p : Nat) : slState (fbset s fSL_CTL_EN en (slo p)) p = slState s p :=
  fget_fset_apart _ _ _ _ _ rfl

theorem lanePort_congr {s t : State} (h : t.lanes = s.lanes) {p : Nat} : lanePort t p = lanePort s p := by
  unfold lanePort
  rw [h]

theorem lanePort_updLanes (s : State) (p : Nat) (f : LanePort → LanePort) :
    lanePort (updLanes s p f) p = f (lanePort s p) := Vector.getElem_set_self _

theorem slState_exchange_sent (s : State) (p n : Nat) (h : n < 16 := by decide) :
    slState (sendExch p false (fset s fSL_STAT_STATE n (slo p))) p = n := by
  unfold slState sendExch
  rw [fget_congr (emit_regs _ _), fget_fset_same _ fSL_STAT_STATE]
  exact Nat.mod_eq_of_lt h

theorem lanePort_exchange_sent (s : State) (p q n : Nat) :
    lanePort (sendExch p false (fset (sendTs p s) fSL_STAT_STATE n (slo p))) q = lanePort s q := by
  refine lanePort_congr ?_
  rw [sendExch, emit_lanes, fset_lanes]
  exact kept_of_sound .lanes sendTs_sound

theorem rate_partner_kept (s : State) (p a b c : Nat) :
    fget (wrn (wrn (wrn (sendExch p true s) (SL_PARTNER0 + slo p) a) (SL_PARTNER1 + slo p) b) (SL_PARTNER_SN + slo p) c)
      fSL_STAT_RATE (slo p) = fget s fSL_STAT_RATE (slo p) := by
  rw [fget_wrn_apart _ _ _ _ _ rfl, fget_wrn_apart _ _ _ _ _ rfl, fget_wrn_apart _ _ _ _ _ rfl, sendExch]
  exact fget_congr (emit_regs _ _) _ _

theorem lastRate_lt (f : Nat → Bool) : ((List.range 4).filter f).getLastD 0 < 4 := by
  rw [List.getLastD_eq_getLast?]
  cases h : ((List.range 4).filter f).getLast? with
  | none => decide
  | some r => exact List.mem_range.mp (List.mem_filter.mp (List.mem_of_getLast? h)).1

/-- Settles O34: each row by the branch that its hypotheses select. -/
theorem spanBringUpCompletes : Obligations.SpanBringUpCompletes := by
  unfold Obligations.SpanBringUpCompletes
  refine ⟨fun p cut s h => ?_, fun p cut s => ?_, fun p en cut s h => ?_, fun p term s h hm => ?_, fun p lk inv s h ha hm => ?_,
    fun p lk inv s m h hm h0 hne => ?_, fun p ok pl s h hm => ?_, fun p x n s u h hl hc hb hx hv hu => ?_,
    fun p x n s u h hl hc hb hx hv hu hr => ?_, fun p lk s h1 h2 => ?_⟩
  · rw [slState_fbset_en] at h
    simp only [exec, execSpanPortEnable, dennilOnly, portEnable, h, Bool.not_true, Bool.false_eq_true, if_false, if_true]
  · simp only [exec, execSpanPortEnable, dennilOnly, portEnable, Bool.not_false, if_true]
  · have h' : (fbit s fSL_CTL_EN (slo p.val) != en) = true := by simpa using h
    exact congrArg Host.Outcome.next (if_pos h')
  · have h1 : ¬ slState s p.val ≠ 1 := by omega
    simp only [exec, execSpanDetect, detect, h1, hm, if_false]
  · have hg : ¬ (slState s p.val ≠ 2 ∨ (lanePort s p.val).attempt = 0) := by
      simp [h, ha]
    simp only [exec, execSpanBitLock, bitLock, hm, hg, if_false, if_true]
  · have hg : ¬ (slState s p.val ≠ 2 ∨ m = 0) := by
      simp [h, h0]
    simp only [exec, execSpanBitLock, bitLock, ← hm, hg, hne, if_false]
  · have hg : ¬ (slState s p.val ≠ 3 ∨ (lanePort s p.val).attempt.land ok.toNat = 0) := by
      rintro (h3 | h3)
      · exact h3 h
      · exact hm h3
    refine ⟨_, rfl, ?_⟩
    simp only [lockDone, hg, if_false]
    refine ⟨slState_exchange_sent _ _ _, ?_⟩
    rw [lanePort_exchange_sent, lanePort_congr (forEach_kept (·.lanes) (fun k t => fset_lanes ..) _),
      lanePort_congr (kept_of_sound .lanes setLanes_sound), lanePort_updLanes]
  · have hg : ¬ (slState s p.val ≠ 4 ∨ x.length ≠ 14 ∨ crc16 (x.take 12) ≠ u16At x 12 ∨ ¬ bit (byteAt x 5) 0 = true ∨
        exchCount s p.val (byteAt x 4 % 16) = 0) := by
      simp [h, hl, hc, hb, hx]
    subst hu
    simp only [exec, execSpanExchangeDone, exchangeDone, hg, hv, if_false, if_true]
  · have hg : ¬ (slState s p.val ≠ 4 ∨ x.length ≠ 14 ∨ crc16 (x.take 12) ≠ u16At x 12 ∨ ¬ bit (byteAt x 5) 0 = true ∨
        exchCount s p.val (byteAt x 4 % 16) = 0) := by
      simp [h, hl, hc, hb, hx]
    subst hu
    rw [rate_partner_kept] at hr
    simp only [exec, execSpanExchangeDone, exchangeDone, hg, Nat.not_lt.mpr hv, hr, if_false, if_true]
    exact congrArg Host.Outcome.next (if_neg (Nat.not_lt.mpr (Nat.le_of_lt_succ (lastRate_lt _))))
  · have hg : ¬ (slState s p.val < 2 ∨ 4 < slState s p.val) := by omega
    have h2 : ¬ (slState s p.val = 2 ∧ (lanePort s p.val).attempt.land lk.toNat ≠ 0) := by omega
    simp only [exec, execSpanStateTimeout, stateTimeout, hg, h2, if_false]

end Sys2Proof.Machine
end

section
/-! Events of a Span link, the eye scan and lane commands. -/

namespace Sys2Proof.Machine

set_option Elab.async false

/-! ## Lane failures -/

theorem lanesFail_none (p : Nat) (cut : Fin 3) (s : State) : lanesFail p [] cut s = s := by
  refine if_pos ?_
  rw [List.filter_eq_nil_iff.mpr (fun k _ => by simp)]
  exact Bool.or_true _

theorem lanesFail_one (p k : Nat) (cut : Fin 3) (s : State) (hk : k < 4) (hl : linkUp s p = true)
    (hu : fbit s fSL_LANE_STAT_USED (slo p + 4 * k) = true) :
    lanesFail p [k] cut s = if lanesWith s fSL_LANE_STAT_USED p = [k] then
        linkDown p cut (evt (fbset s fSL_LANE_STAT_FAILED true (slo p + 4 * k)) fSL_EVT_LANE_FAIL (slo p))
      else quickRetrain p cut (evt (fbset s fSL_LANE_STAT_FAILED true (slo p + 4 * k)) fSL_EVT_LANE_FAIL (slo p)) := by
  have hf : (lanesWith s fSL_LANE_STAT_USED p).filter (fun x => [k].contains x) = [k] := by
    rw [lanesWith, List.filter_filter]
    interval_cases k <;> simp_all [List.range_succ, List.filter_cons]
  simp only [lanesFail, hf, hl, forEach, List.foldl_cons, List.foldl_nil, List.isEmpty_cons, Bool.not_true, Bool.or_self,
    Bool.false_eq_true, if_false, eq_comm (a := [k])]

/-! ## Registers of one block at different addresses -/

theorem rdn_wrn_apart (s : State) (a b v o : Nat) (h : (a != b) = true) : rdn (wrn s (b + o) v) (a + o) = rdn s (a + o) := by
  refine rdn_wrn_other s v ?_
  simp at h
  omega

theorem rdn_fset_apart (s : State) (f : Fld) (a v o : Nat) (h : (a != f.reg) = true) : rdn (fset s f v o) (a + o) = rdn s (a + o) :=
  rdn_wrn_apart s a f.reg _ o h

theorem rdn_evt_apart (s : State) (f : Fld) (a o : Nat) (h : (a != f.reg) = true) (hi : ¬ IrqReg (a + o)) :
    rdn (evt s f o) (a + o) = rdn s (a + o) := by
  refine rdn_evt_other s f o ?_ hi
  simp at h
  omega

/-! ## The eye scan -/

/-- What EYE_SCAN_START leaves of the scan's controls where it begins one on a lane in use. -/
theorem eyeBegin_busy (s : State) (p : Nat) (hl : linkUp s p = true) (hu : fget s fSL_EYE_CTL_LANE (slo p) < lanesUsed s p) :
    fbit (eyeBegin p s) fSL_EYE_CTL_BUSY (slo p) = true ∧
      fget (eyeBegin p s) fSL_EYE_CTL_LANE (slo p) = fget s fSL_EYE_CTL_LANE (slo p) ∧
      rdn (eyeBegin p s) (SL_EYE_BITS_LO + slo p) = 0 ∧ rdn (eyeBegin p s) (SL_EYE_ERR_LO + slo p) = 0 := by
  have he : eyeBegin p s = fbset (fbset (eyePut p 0 0 s) fSL_EYE_CTL_ABORT false (slo p)) fSL_EYE_CTL_BUSY true (slo p) :=
    if_pos ⟨hl, hu⟩
  rw [he]
  refine ⟨fbit_fbset_same _ _ _ _, ?_, ?_, ?_⟩
  · unfold fbset eyePut
    rw [fget_fset_apart _ _ _ _ _ rfl, fget_fset_apart _ _ _ _ _ rfl, fget_wrn_apart _ _ _ _ _ rfl, fget_wrn_apart _ _ _ _ _ rfl,
      fget_wrn_apart _ _ _ _ _ rfl, fget_wrn_apart _ _ _ _ _ rfl]
  · unfold fbset eyePut
    rw [rdn_fset_apart _ _ _ _ _ rfl, rdn_fset_apart _ _ _ _ _ rfl, rdn_wrn_apart _ _ _ _ _ rfl, rdn_wrn_apart _ _ _ _ _ rfl,
      rdn_wrn_apart _ _ _ _ _ rfl, rdn_wrn_same, Nat.zero_mod]
  · unfold fbset eyePut
    rw [rdn_fset_apart _ _ _ _ _ rfl, rdn_fset_apart _ _ _ _ _ rfl, rdn_wrn_apart _ _ _ _ _ rfl, rdn_wrn_same,
      Nat.zero_mod]

theorem eyeCounts_eyePut (s : State) (p b e : Nat) : eyeCounts (eyePut p b e s) p = (b % 2 ^ 64, e % 2 ^ 64) := by
  unfold eyeCounts eyePut
  rw [rdn_wrn_apart _ SL_EYE_BITS_LO _ _ _ rfl, rdn_wrn_apart _ SL_EYE_BITS_LO _ _ _ rfl, rdn_wrn_apart _ SL_EYE_BITS_LO _ _ _ rfl,
    rdn_wrn_apart _ SL_EYE_BITS_HI _ _ _ rfl, rdn_wrn_apart _ SL_EYE_BITS_HI _ _ _ rfl, rdn_wrn_apart _ SL_EYE_ERR_LO _ _ _ rfl]
  simp only [rdn_wrn_same, Prod.mk.injEq]
  omega

theorem span_not_irq (p : SpanNo) {a : Nat} (h : 0xA0000 ≤ a) (h' : a < 0xA0FFF) : ¬ IrqReg (a + slo p.val) := by
  unfold IrqReg HE_IPEND HE_VEC_ARM HE_PBA slo
  omega

theorem eyeCounts_eyeStop (s : State) (p : SpanNo) (a : Bool) : eyeCounts (eyeStop p.val a s) p.val = eyeCounts s p.val := by
  have hk : ∀ x, (x != fSL_EVT_EYE_DONE.reg) = true → (x != fSL_EYE_CTL_BUSY.reg) = true → 0xA0000 ≤ x → x < 0xA0FFF →
      rdn (eyeStop p.val a s) (x + slo p.val) = rdn s (x + slo p.val) := fun x h1 h2 h3 h4 => by
    unfold eyeStop fbset
    rw [rdn_evt_apart _ _ _ _ h1 (span_not_irq p h3 h4), rdn_fset_apart _ fSL_EYE_CTL_ABORT _ _ _ h2,
      rdn_fset_apart _ fSL_EYE_CTL_BUSY _ _ _ h2]
  unfold eyeCounts
  rw [hk _ rfl rfl (by decide) (by decide), hk _ rfl rfl (by decide) (by decide), hk _ rfl rfl (by decide) (by decide),
    hk _ rfl rfl (by decide) (by decide)]

theorem eyeStop_done (s : State) (p : SpanNo) (a : Bool) :
    fbit (eyeStop p.val a s) fSL_EYE_CTL_BUSY (slo p.val) = false ∧ fbit (eyeStop p.val a s) fSL_EVT_EYE_DONE (slo p.val) = true := by
  have hi : ∀ {x}, 0xA0000 ≤ x → x < 0xA0FFF → ¬ IrqReg (x + slo p.val) := span_not_irq p
  refine ⟨?_, fbit_evt_same _ _ _ rfl (by decide) (hi (by decide) (by decide))⟩
  unfold eyeStop
  have hk : ∀ t, fbit (evt t fSL_EVT_EYE_DONE (slo p.val)) fSL_EYE_CTL_BUSY (slo p.val) = fbit t fSL_EYE_CTL_BUSY (slo p.val) := fun t => by
    unfold fbit
    rw [fget_evt_other _ _ _ _ _ (by simp) (hi (by decide) (by decide))]
  rw [hk, fbit_fbset_apart _ _ _ _ _ rfl, fbit_fbset_same _ fSL_EYE_CTL_BUSY]

/-- A write of SL_EYE_CTL on a port without a scan, its START apart. -/
def eyeCtlWritten (p v : Nat) (s : State) : State :=
  fset (fset (fset (fset s fSL_EYE_CTL_LANE (bits v 27 26) (slo p)) fSL_EYE_CTL_H (bits v 25 20) (slo p))
    fSL_EYE_CTL_V (bits v 19 13) (slo p)) fSL_EYE_CTL_DWELL (bits v 5 0) (slo p)

theorem eyeCtlWritten_keeps (p v : Nat) (s : State) (g : Fld) (h : (g.reg != 0xA0100) = true) :
    fget (eyeCtlWritten p v s) g (slo p) = fget s g (slo p) := by
  unfold eyeCtlWritten fget
  rw [rdn_fset_apart _ _ _ _ _ h, rdn_fset_apart _ _ _ _ _ h, rdn_fset_apart _ _ _ _ _ h, rdn_fset_apart _ _ _ _ _ h]

theorem linkUp_eyeCtlWritten (p v : Nat) (s : State) : linkUp (eyeCtlWritten p v s) p = linkUp s p := by
  unfold linkUp slState
  rw [eyeCtlWritten_keeps _ _ _ _ rfl]

theorem lanesUsed_eyeCtlWritten (p v : Nat) (s : State) : lanesUsed (eyeCtlWritten p v s) p = lanesUsed s p := by
  unfold lanesUsed
  rw [eyeCtlWritten_keeps _ _ _ _ rfl]

theorem eyeCtlWritten_lane (p v : Nat) (s : State) : fget (eyeCtlWritten p v s) fSL_EYE_CTL_LANE (slo p) = bits v 27 26 := by
  unfold eyeCtlWritten
  rw [fget_fset_apart _ _ _ _ _ rfl, fget_fset_apart _ _ _ _ _ rfl, fget_fset_apart _ _ _ _ _ rfl, fget_fset_same _ fSL_EYE_CTL_LANE]
  exact Nat.mod_eq_of_lt (Nat.mod_lt _ (by decide))

theorem eyeBits_lt (s : State) (p : Nat) : eyeBits s p < 2 ^ 64 :=
  Nat.pow_lt_pow_right (by omega) (by omega)

theorem nth_map_range {n c : Nat} (f : Nat → Nat) (h : c < n) : nth ((List.range n).map f) c = f c := by
  simp [nth, h]

theorem nth_map_zero (n c : Nat) : nth ((List.range n).map fun _ => 0) c = 0 := by
  by_cases h : c < n <;> simp [nth, h]

/-- Settles O35: each row by the branch that its hypotheses select. -/
theorem spanLinkEventsComplete : Obligations.SpanLinkEventsComplete := by
  unfold Obligations.SpanLinkEventsComplete
  refine ⟨fun p k cv disp miss cut s u hu h => ?_, fun p k cv disp cut s u hu h => ?_, fun p k cut s u hl hk hu => ?_,
    fun p cut s hl => ⟨?_, ?_, ?_, ?_⟩, fun p full cut s hl' hl => ?_, fun p full cut s => rfl, fun p cv disp os s u hl hu h => ?_,
    fun p d s u hl hd hr hu => ?_, fun p cut s hl => ⟨?_, ?_, ?_, ?_⟩, fun ag p v s h => ?_, fun p v s hb hv hl hu => ?_,
    fun p e s hb hg => ?_, fun sp c s u hsp h hu hp he => ?_, fun sp c s u hsp h hu hp he h4 h44 hl hk hx0 hx hy0 hy => ?_,
    fun sp c s u hsp h hu hp he => ?_⟩
  · subst hu
    have hf : (miss || (decide (0 < cv + disp) &&
        decide ((lanePort s p.val).thr ≤ windowErrors (laneErrors p.val k.val cv disp s) p.val k.val))) = true := by simpa using h
    simp only [exec, execSpanLaneFail, laneFail, hf, if_true]
  · subst hu
    have hf : (false || (decide (0 < cv + disp) &&
        decide ((lanePort s p.val).thr ≤ windowErrors (laneErrors p.val k.val cv disp s) p.val k.val))) = false := by
      simp
      omega
    simp only [exec, execSpanLaneFail, laneFail, hf, Bool.false_eq_true, if_false, lanesFail_none]
  · subst hu
    exact lanesFail_one _ _ _ _ k.isLt hl hk
  · simp only [exec, execSpanLinkDown, linkDown, hl, Bool.not_true, Bool.false_eq_true, if_false]
  · simp only [exec, execSpanTsReceived, quickRetrain, hl, Bool.not_true, Bool.false_eq_true, if_false]
  · exact congrArg Host.Outcome.next (if_pos hl)
  · exact congrArg Host.Outcome.next (if_pos hl)
  · simp only [exec, execSpanRetrain, dennilOnly, retrain, hl, Bool.not_true, Bool.false_eq_true, if_false]
  · subst hu
    have hf : (List.range 4).filter (fun k => decide (0 < nth cv k + nth disp k) && decide ((lanePort s p.val).thr ≤
        windowErrors (cntAdd (forEach (List.range 4) (fun k => laneErrors p.val k (nth cv k) (nth disp k)) s)
          (SL_CNT_OS_ERR + slo p.val) os) p.val k)) = [] := by
      refine List.filter_eq_nil_iff.mpr fun k hk => ?_
      have := h k (List.mem_range.mp hk)
      simp
      omega
    simp only [exec, execSkipReceive, skipReceive, hl, hf, Bool.not_true, Bool.false_and, Bool.false_eq_true, if_false,
      List.isEmpty_nil, if_true]
  · subst hu
    have hg : ¬ ((!linkUp s p.val) = true ∨ d.length ≠ 24) := by simp [hl, hd]
    have hdiff : ∀ c, c < 6 → (u16At d (4 * c) + 65536 - nth (netPort s p.val).rcvd c % 65536) % 65536 = 0 := fun c hc => by
      rw [hr c hc]
      omega
    have hd0 : (List.range 6).map (fun c => (nth ((List.range 6).map fun c => u16At d (4 * c)) c + 65536 -
        nth (netPort s p.val).rcvd c % 65536) % 65536) = (List.range 6).map (fun _ => 0) := by
      refine List.map_congr_left fun c hc => ?_
      rw [nth_map_range _ (List.mem_range.mp hc)]
      exact hdiff c (List.mem_range.mp hc)
    simp only [exec, execCreditAuditReceive, audReceive, hg, hd0, nth_map_zero, Nat.add_zero, if_false]
    exact congrArg Host.Outcome.next (if_pos (by decide))
  · exact congrArg Host.Outcome.next (if_pos (by rw [hl]; rfl))
  · exact congrArg Host.Outcome.next (if_pos (by rw [hl]; rfl))
  · exact congrArg Host.Outcome.next (if_neg (by rw [hl]; decide))
  · exact congrArg Host.Outcome.next (if_neg (by rw [hl]; decide))
  · simp only [exec, execEyeScanStart, gated_of_covered h]
  · have hc : fget (eyeCtlWritten p.val v s) fSL_EYE_CTL_LANE (slo p.val) = bits v 27 26 := eyeCtlWritten_lane _ _ _
    have he : eyeCtl p.val v s = eyeBegin p.val (eyeCtlWritten p.val v s) := by
      simp only [eyeCtl, eyeCtlWritten, hb, hv, Bool.false_eq_true, if_false, if_true]
    obtain ⟨h1, h2, h3, h4⟩ := eyeBegin_busy (eyeCtlWritten p.val v s) p.val (by rw [linkUp_eyeCtlWritten]; exact hl)
      (by rw [hc, lanesUsed_eyeCtlWritten]; exact hu)
    exact ⟨_, rfl, by rw [he]; exact h1, by rw [he, h2, hc], by rw [he]; exact h3, by rw [he]; exact h4⟩
  · refine ⟨_, rfl, ?_⟩
    simp only [eyeDone, hb, hg, Bool.not_true, Bool.false_eq_true, if_false]
    obtain ⟨h1, h2⟩ := eyeStop_done (eyePut p.val (eyeBits s p.val) ((eyeCounts s p.val).2 + min e (eyeBits s p.val -
      (eyeCounts s p.val).1)) s) p false
    have hc := eyeCounts_eyeStop (eyePut p.val (eyeBits s p.val) ((eyeCounts s p.val).2 + min e (eyeBits s p.val -
      (eyeCounts s p.val).1)) s) p false
    rw [eyeCounts_eyePut, Nat.mod_eq_of_lt (eyeBits_lt s p.val)] at hc
    exact ⟨h1, congrArg Prod.fst hc, congrArg Prod.snd hc, h2⟩
  · subst hsp hu
    refine congrArg Host.Outcome.next (mbRun_defer h ?_)
    simp only [runSpanLinkRetrain, laneCmd, Nat.not_le.mpr hp, he, Bool.not_true, Bool.false_eq_true, if_false]
  · subst hsp hu
    refine congrArg Host.Outcome.next (mbRun_defer h ?_)
    simp only [runSpanEyeScan, laneCmd, Nat.not_le.mpr hp, Nat.not_lt.mpr h4, Nat.not_lt.mpr h44, Nat.not_le.mpr hk, hx0, hx, hy0, hy,
      he, hl, Bool.not_true, not_true_eq_false, and_self, or_self, Bool.false_eq_true, if_false]
  · subst hsp hu
    refine congrArg Host.Outcome.next (mbRun_ok h ?_)
    simp only [runSpanLaneParams, laneCmd, Nat.not_le.mpr hp, he, Bool.not_true, Bool.false_eq_true, if_false]

end Sys2Proof.Machine
end

section
/-! Span packets. -/

namespace Sys2Proof.Machine

set_option Elab.async false

theorem egress_local (s : State) (p : Nat) (k : SpanPkt) (h : bit k.flags 1 = true) : egress s p k = none := by
  simp only [egress, h, true_or, if_true]

theorem addressedHere_local (s : State) (k : SpanPkt) (h : bit k.flags 1 = true) : addressedHere s k = true := by
  simp only [addressedHere, h, Bool.true_or]

/-- A management packet without credits that is for this port alone is delivered (R231, R232). -/
theorem receive_local {p : Nat} {k : SpanPkt} {len crc ph gap : Nat} {d : Bool} {s : State} (hx : creditExempt k = true)
    (hm : k.cls = clsMGMT) (hl : bit k.flags 1 = true) (hlen : len ≤ 2048) (hn : notCarried s p k = false) :
    receive p k len (20 + len) crc false false ph gap d crc s = freeCredits p k.cls 0 (packetDeliver p k ph gap d s) := by
  have hb : ¬ k.cls = clsBULK := by
    rw [hm]
    decide
  simp only [receive, hx, hn, carry, egress_local s p k hl, addressedHere_local s k hl, hb, Nat.not_lt.mpr hlen, Nat.lt_irrefl,
    false_and, ne_eq, not_true_eq_false, Bool.false_eq_true, or_self, if_true, if_false]

/-- Settles O36: each row by the branch that its hypotheses select. -/
theorem spanPacketsComplete : Obligations.SpanPacketsComplete := by
  unfold Obligations.SpanPacketsComplete
  refine ⟨fun p raw bad poison ph gap d s hl h => ?_, fun p raw ph gap d s u k hl hn hc hk hm hx hlen hgot hcrc hf hu hnc => ?_,
    fun p s t fwd hn ht => ?_, fun p s hn => ?_, fun p pl s u v w hl h0 hn hu hv => ⟨fun hd => ?_, fun hd hk hw => ?_⟩,
    fun p pl s hl h0 hn => ?_, fun p s hl hne => ?_, fun p s he => ?_⟩
  · simp only [exec, execSpanPacketForward, packetIn, hl, h, Bool.not_true, Bool.false_eq_true, if_false, if_true]
  · have hg : ¬ (raw.length < 16 ∨ crc16 (raw.take 14) ≠ u16At raw 14) := by
      simp [hc]
      omega
    simp only [exec, execSpanPacketForward, packetIn, hl, hg, Bool.not_true, Bool.false_eq_true, if_false]
    rw [← hu, ← hk, hcrc, hgot, receive_local hx hm hf hlen hnc]
  · simp only [exec, execSpanPacketSend, packetOut, hn, ht, sendItem, stampDeparture, Bool.not_false, Bool.false_eq_true, if_false, if_true]
  · simp only [exec, execSpanPacketSend, packetOut, hn]
  · have hg : ¬ ((!linkUp s p.val) = true ∨ byteAt pl 0 ≠ 1 ∨ pl.length < 32) := by
      simp [hl, h0]
      omega
    simp only [exec, execHelloReceive, helloReceive, hg, if_false]
    rw [← hu]
    simp only [Bool.not_eq_true', Bool.not_eq_true] at hv ⊢
    rw [← hv, if_pos hd]
  · have hg : ¬ ((!linkUp s p.val) = true ∨ byteAt pl 0 ≠ 1 ∨ pl.length < 32) := by
      simp [hl, h0]
      omega
    simp only [exec, execHelloReceive, helloReceive, hg, if_false]
    rw [← hu]
    simp only [Bool.not_eq_true', Bool.not_eq_true] at hv ⊢
    rw [← hv]
    simp only [hd, hk, hw, Bool.false_eq_true, false_and, if_false]
  · have hg : ¬ ((!linkUp s p.val) = true ∨ byteAt pl 0 ≠ 2 ∨ pl.length < 16) := by
      simp [hl, h0]
      omega
    exact congrArg Host.Outcome.next (if_neg hg)
  · have hg : ¬ ((!linkUp s p.val) = true ∨ (netPort s p.val).ownFreed = (netPort s p.val).reported) := by
      simp [hl, hne]
    exact congrArg Host.Outcome.next (if_neg hg)
  · exact congrArg Host.Outcome.next (if_pos (Or.inr he))

end Sys2Proof.Machine
end

section
/-! Enumeration and the network commands. -/

namespace Sys2Proof.Machine

set_option Elab.async false

/-- Settles O37: each row by the branch that its hypotheses select. -/
theorem enumerationAndNetworkComplete : Obligations.EnumerationAndNetworkComplete := by
  unfold Obligations.EnumerationAndNetworkComplete
  refine ⟨fun p pl s u v hl h0 hn hs hk hlt hu hv => ?_, fun pl s h0 hn hk => ⟨fun hst h1 => ?_, fun hst h1 => ?_⟩,
    fun s => ⟨fun h => ?_, fun h => ?_, fun h => ?_⟩, fun p hops i pl s h h0 hn hk hp hh hs => ?_, fun p hops pl s u h0 hn hk hh hp hu => ?_,
    fun p hops pl s h0 hn hk hp => ?_, fun pl s h0 hn hk => ?_, fun p pl s h0 hn hk => ⟨fun hst => ?_, fun hst => ?_⟩,
    fun pl s h0 hn hk hlt hs hp => ?_, fun pl s p h0 hn hk hlt hf => ?_, fun pl s u h0 hk hu => ?_, fun p pl s hw hc => ?_,
    fun p pl s hw hc => ?_, fun sp c s u hsp h hu hl hr => ?_, fun sp c s u v hsp h hu hk hi hv => ?_,
    fun sp c s u hsp h hu hb hl hf => ?_, fun sp c s u hsp h hu hb hf => ?_,
    fun sp c s u hsp h hu hp h4 h6 h8 h10 h12 h14 hsum => ?_⟩
  · have hg : ¬ ((!linkUp s p.val) = true ∨ byteAt pl 0 ≠ 3 ∨ pl.length < 16 ∨ u32At pl 4 ≠ s.net.serial ∨ isKeystone s = true ∨
        1024 ≤ u16At pl 2) := by
      simp [hl, h0, hs, hk]
      omega
    subst hv hu
    exact congrArg Host.Outcome.next (if_neg hg)
  · have hg : ¬ (byteAt pl 0 ≠ 4 ∨ pl.length < 8 ∨ ¬ isKeystone s = true) := by
      simp [h0, hk]
      omega
    exact congrArg Host.Outcome.next ((if_neg hg).trans (if_pos ⟨hst, h1⟩))
  · have hg : ¬ (byteAt pl 0 ≠ 4 ∨ pl.length < 8 ∨ ¬ isKeystone s = true) := by
      simp [h0, hk]
      omega
    have he : ¬ (s.net.stage = .east ∧ byteAt pl 1 = 0) := by
      rw [hst]
      simp
    exact congrArg Host.Outcome.next ((if_neg hg).trans ((if_neg he).trans (if_pos ⟨hst, h1⟩)))
  · simp only [exec, execEnumTimeout, enumTimeout, h]
  · simp only [exec, execEnumTimeout, enumTimeout, h]
  · simp only [exec, execEnumTimeout, enumTimeout, h]
  · have hg : ¬ (byteAt pl 0 ≠ 5 ∨ pl.length < 16 ∨ ¬ isKeystone s = true) := by
      simp [h0, hk]
      omega
    simp only [exec, execReportReceive, reportReceive, hg, hp, hh, hs, if_false, if_true]
  · have hg : ¬ (byteAt pl 0 ≠ 5 ∨ pl.length < 16 ∨ ¬ isKeystone s = true) := by
      simp [h0, hk]
      omega
    subst hu
    simp only [exec, execReportReceive, reportReceive, hg, hp, hh, if_false]
  · have hg : ¬ (byteAt pl 0 ≠ 5 ∨ pl.length < 16 ∨ ¬ isKeystone s = true) := by
      simp [h0, hk]
      omega
    exact congrArg Host.Outcome.next ((if_neg hg).trans (if_pos hp))
  · have hg : ¬ (byteAt pl 0 ≠ 6 ∨ pl.length < 8 + 2 * u16At pl 2 ∨ isKeystone s = true) := by
      simp [h0, hk]
      omega
    exact congrArg Host.Outcome.next (if_neg hg)
  · have hg : ¬ (byteAt pl 0 ≠ 7 ∨ pl.length < 16 ∨ ¬ isKeystone s = true) := by
      simp [h0, hk]
      omega
    exact congrArg Host.Outcome.next ((if_neg hg).trans (if_pos hst))
  · have hg : ¬ (byteAt pl 0 ≠ 7 ∨ pl.length < 16 ∨ ¬ isKeystone s = true) := by
      simp [h0, hk]
      omega
    exact congrArg Host.Outcome.next ((if_neg hg).trans (if_neg hst))
  · have hg : ¬ (byteAt pl 0 ≠ 8 ∨ pl.length < 16 ∨ isKeystone s = true) := by
      simp [h0, hk]
      omega
    exact congrArg Host.Outcome.next ((if_neg hg).trans ((if_pos hlt).trans (if_pos ⟨hs, hp⟩)))
  · have hg : ¬ (byteAt pl 0 ≠ 8 ∨ pl.length < 16 ∨ isKeystone s = true) := by
      simp [h0, hk]
      omega
    refine congrArg Host.Outcome.next ((if_neg hg).trans ((if_neg (Nat.not_le.mpr hlt)).trans ?_))
    split
    · next hnone => exact absurd (hf.symm.trans hnone) (by simp)
    · next q hq => rw [Option.some.inj (hq.symm.trans hf)]
  · have hg : ¬ (byteAt pl 0 ≠ 9 ∨ isKeystone s = true) := by simp [h0, hk]
    subst hu
    exact congrArg Host.Outcome.next (if_neg hg)
  · simp only [exec, execBulkPacketReceive, bulkReceive, hw, hc, ne_eq, not_true_eq_false, if_false, if_true]
  · simp only [exec, execBulkPacketReceive, bulkReceive, hw, hc, ne_eq, not_true_eq_false, Bool.false_eq_true, if_false]
  · subst hsp hu
    refine congrArg Host.Outcome.next (mbRun_ok h ?_)
    simp only [runSpanChainRead, Nat.not_lt.mpr hl, hr, Bool.not_true, Bool.false_eq_true, if_false]
  · subst hsp hu hv
    refine ⟨_, rfl, ?_⟩
    have hrun := mbRun_defer h (run := runSpanReenumerate) (t := enumStart (fset { netBcast (mbTake c s) clsMGMT flCTRL
      [9#8 :: zeros 7] with net := { (netBcast (mbTake c s) clsMGMT flCTRL [9#8 :: zeros 7]).net with holds := [] } }
      fSN_NEXT_FREE 1)) (stop := false) (by simp only [runSpanReenumerate, hk, hi, Bool.not_true, Bool.false_eq_true, if_false])
    simp only [exec, execSpanReenumerate, hrun]
  · subst hsp hu
    refine congrArg Host.Outcome.next (mbRun_ok h ?_)
    simp only [runSpanSetHost, hb, hl, decide_eq_false (Nat.not_lt.mpr hf), Bool.and_false, Bool.false_and, Bool.not_true,
      Bool.false_eq_true, if_false]
  · subst hsp hu
    refine congrArg Host.Outcome.next (mbRun_ok h ?_)
    simp only [runSpanSetHost, hb, decide_eq_false (Nat.not_lt.mpr hf), Bool.and_false, Bool.false_eq_true, if_false, if_true]
  · subst hsp hu
    refine congrArg Host.Outcome.next (mbRun_ok h ?_)
    have hok : ¬ (2 ≤ pb c 0 ∨ ¬ (1 ≤ pw c 6 ∧ [0, 2, 3, 4, 5].all (fun i => decide (33 ≤
        nth [pw c 4, pw c 6, pw c 8, pw c 10, pw c 12, pw c 14] i)) = true ∧
        [pw c 4, pw c 6, pw c 8, pw c 10, pw c 12, pw c 14].sum ≤ 1024)) := by
      simp [nth]
      omega
    exact if_neg hok

end Sys2Proof.Machine
end

section
/-! Register writes. -/

namespace Sys2Proof.Machine

set_option Elab.async false

theorem w0Write_register {ag : Agent} {a v be : Nat} {s : State} {r : RegRow} (hb : be ≠ 0) (ht : isTable a = false)
    (hf : findRow a = some r) : w0Write ag a v be s = regWrite ag a v be r s := by
  simp only [w0Write, hb, ht, hf, Bool.false_eq_true, if_false]

/-- A write of a register that Dennil makes or a lease admits. -/
theorem regWrite_admitted {ag : Agent} {a v be act : Nat} {s : State} {r : RegRow}
    (hact : act = ((((if rwlLocked s a then 0 else r.rwl).lor r.rw).lor r.w1c).lor r.w1s).lor r.wo)
    (h : (byteMask be).land act ≠ 0) (ha : ag = .dennil ∨ leaseAdmits s a r = true) :
    regWrite ag a v be r s = regPut a (blend ((byteMask be).land act) v ((rdn s a).land ((r.rw.lor r.rwl).lor r.wo))) be
      (fun p => if ag = .host then leaseRep s p else none) s := by
  subst hact
  have hd : (decide (ag = .dennil) || leaseAdmits s a r) = true := by simpa using ha
  simp only [regWrite, h, hd, if_false, if_true]

/-- Settles O38: each write by the branch of the register's masks that its hypotheses select. -/
theorem registerWritesComplete : Obligations.RegisterWritesComplete := by
  unfold Obligations.RegisterWritesComplete
  refine ⟨fun ag a v s => rfl, fun ag a v be s ht hf => ?_, fun a v s r act n hn ht hf hact h => ?_,
    fun a v s r act n hn ht hf hact h hl => ?_, fun a v be s r act kept v1 n hn hb ht hf hk hact h hl hh hv hne => ?_,
    fun ag a v be s r ht hf h => ?_, fun a v be s hb ht h0 h1 => ?_⟩
  · by_cases hb : be.toNat = 0
    · exact congrArg Host.Outcome.next (if_pos hb)
    · simp only [exec, execRegisterWrite, w0Write, hb, ht, hf, Bool.false_eq_true, if_false]
  · subst hn
    exact congrArg Host.Outcome.next ((w0Write_register (by decide) ht hf).trans (regWrite_admitted hact h (.inl rfl)))
  · subst hn
    exact congrArg Host.Outcome.next ((w0Write_register (by decide) ht hf).trans (regWrite_admitted hact h (.inr hl)))
  · subst hn
    refine congrArg Host.Outcome.next ((w0Write_register hb ht hf).trans ?_)
    subst hv hk hact
    have hd : (decide (Agent.host = .dennil) || leaseAdmits s (a.toNat / 4 * 4) r) = false := by rw [hl]; rfl
    simp only [regWrite, h, hd, hne, hh, Bool.false_eq_true, if_false, if_true]
  · by_cases hb : be.toNat = 0
    · exact congrArg Host.Outcome.next (if_pos hb)
    · refine congrArg Host.Outcome.next ((w0Write_register hb ht hf).trans ?_)
      exact if_pos h
  · simp only [exec, execRegisterWrite, w0Write, windowWrite, hb, ht, h0, h1, if_false, if_true]

end Sys2Proof.Machine
end

section
/-! Host requests, completions and tags. -/

namespace Sys2Proof.Machine

set_option Elab.async false

/-- A read or write of one dword reaches its window's handling where nothing refuses requests. -/
theorem memoryRequest_served {w : HostWindow} {off : Nat} {s : State} {first last : Nat} {data : List Byte} {tag : Nat}
    {poisoned : Bool} {check : ReadCheck} (hl : fbit s fHE_STAT_LINK_UP = true) (hf : fbit s fHE_STAT_FLR_BUSY = false)
    (hd : fbit s fHE_STAT_D3 = false) (hm : bit (cfgRd s 0x04) 1 = true) (hw : w ≠ .dennil) (ho : off + 4 ≤ windowSize s w) :
    memoryRequest w .write off 1 first last data tag poisoned check s = (if poisoned then
        aerAdvisory 12 (cfgSet 0x04 (2 ^ 31) (cnt s HE_CNT_POISON_RX)) else windowPost w off 1 (enables 1 first last) data s) ∧
      memoryRequest w .read off 1 first last data tag poisoned check s = windowRead w off 1 (enabledSpan (enables 1 first last)).1
        (enabledSpan (enables 1 first last)).2 (enables 1 first last) tag check s := by
  have hg : ∀ n, n = 4 → (fbit s fHE_STAT_FLR_BUSY || fbit s fHE_STAT_D3 || !bit (cfgRd s 0x04) 1 ||
      decide (windowSize s w < off + n)) = false := fun n hn => by
    rw [hf, hd, hm, hn, decide_eq_false (Nat.not_lt.mpr ho)]
    rfl
  constructor
  · simp only [memoryRequest, hw, hl, hg (if MemOp.write = .cas then 2 * 1 else 4 * 1) (by decide), Bool.not_true,
      Bool.false_eq_true, if_false]
  · simp only [memoryRequest, hw, hl, hg (if MemOp.read = .cas then 2 * 1 else 4 * 1) (by decide), Bool.not_true,
      Bool.false_eq_true, if_false]

/-- A read of one whole dword of W0 answers its value. -/
theorem windowRead_dword (off tag : Nat) (check : ReadCheck) (s : State) :
    windowRead .w0 off 1 (enabledSpan (enables 1 15 0)).1 (enabledSpan (enables 1 15 0)).2 (enables 1 15 0) tag check s =
      emit (w0Read off (check == .failed) s).1
        (.completion .host tag 0 (leBytes 4 (w0Read off (check == .failed) s).2) false) := by
  have he : enables 1 15 0 = [true, true, true, true] := by decide
  have hs : enabledSpan [true, true, true, true] = (0, 4) := by decide
  rw [he, hs]
  rfl

theorem fget_pool_selected (s : State) (w : Nat) (he : HeSt) :
    fget { fset s fHE_TAG_STAT_POOL w with he := he } fHE_TAG_STAT_POOL = w % 1024 :=
  (fget_congr rfl _ _).trans (fget_fset_same s fHE_TAG_STAT_POOL w 0)

/-- Settles O39: each row by the branch that its hypotheses select. -/
theorem hostRequestsAndTagsComplete : Obligations.HostRequestsAndTagsComplete := by
  unfold Obligations.HostRequestsAndTagsComplete
  refine ⟨fun w dw be v tag s hl => ?_, fun w dw be v tag s hl hf => ?_, fun dw be v tag s hl hf => ?_, fun dw be v tag s hl hf => ?_,
    fun win dw n f l d tag po bad s hw hl hm => ?_, fun dw f d tag bad s hl hf hd hm ho => ?_,
    fun dw d tag bad s t v hl hf hd hm ho hr => ?_, fun win dw f d tag bad s hl hf hd hm hw ho => ?_,
    fun tag st d s hn hq => ?_, fun tag st d s r hn hv => ?_, fun tag st d s r hn hv hs => ?_, fun tag d s r hn hv => ?_,
    fun tag s r hn => ?_, fun e st v s t ht => ?_, fun tag s => rfl, fun s h0 hne => ?_, fun s h => congrArg Host.Outcome.next (if_pos h)⟩
  · simp only [exec, execConfigRequest, configRequest, hl, Bool.not_true, Bool.false_eq_true, if_false, if_true]
  · simp only [exec, execConfigRequest, configRequest, hl, hf, Bool.not_true, Bool.false_eq_true, if_false, if_true]
  · simp only [exec, execConfigRequest, configRequest, hl, hf, Bool.not_true, Bool.false_eq_true, if_false]
  · simp only [exec, execConfigRequest, configRequest, hl, hf, Bool.not_true, Bool.false_eq_true, if_false, if_true]
  · have hr : refuseRequest ((MemOp.read == .write) && win != .other) tag.toNat s = sendUr tag.toNat s := rfl
    simp only [exec, execMemoryRequest, memoryRequest, hw, hl, hm, hr, Bool.not_true, Bool.not_false, Bool.or_true, Bool.true_or,
      Bool.false_eq_true, if_false, if_true]
  · exact congrArg Host.Outcome.next (memoryRequest_served hl hf hd hm (by decide) ho).1
  · refine congrArg Host.Outcome.next ((memoryRequest_served hl hf hd hm (by decide) ho).2.trans ?_)
    refine (windowRead_dword _ _ _ _).trans ?_
    rw [hr]
  · exact congrArg Host.Outcome.next (memoryRequest_served hl hf hd hm hw ho).1
  · simp only [exec, execCompletionReceive, completionIn, hn, hq, Bool.false_eq_true, if_false]
  · simp only [exec, execCompletionReceive, completionIn, hn, hv, if_true]
  · have hs' : st.val ≠ 0 := fun h => hs (Fin.ext h)
    simp only [exec, execCompletionReceive, completionIn, hn, hv, ne_eq, hs', not_false_eq_true, Bool.false_eq_true, if_false, if_true]
  · simp only [exec, execCompletionReceive, completionIn, hn, hv, Fin.val_zero, ne_eq, not_true_eq_false, Bool.false_eq_true, if_false]
  · simp only [exec, execCompletionTimeout, completionTmo, hn]
  · simp only [exec, execDelayedReadComplete, ht]
  · have hg : ¬ (fget s fHE_STAT_NP_OUT ≠ 0 ∨ fget s fHE_TAG_STAT_POOL = wantedPool s) := by
      rintro (h | h)
      · exact h h0
      · exact hne h
    refine ⟨_, congrArg Host.Outcome.next (if_neg hg), fget_pool_selected _ _ _, fun q hq => ?_⟩
    obtain ⟨x, -, rfl⟩ := List.mem_map.mp hq
    rfl

end Sys2Proof.Machine
end

section
/-! The host link and Function Level Resets. -/

namespace Sys2Proof.Machine

set_option Elab.async false

/-! ## HE_STAT while the host link comes up -/

section
variable {v : Nat} {s : State}

theorem wrn_reads_heStat {b n : Nat} (hb : 0x10000 ≤ b) (h : Reads HE_STAT v s) : Reads HE_STAT v (wrn s b n) :=
  wrn_reads (by unfold HE_STAT; omega) h

theorem evt_reads_heStat {f : Fld} {o : Nat} (hb : 0x10000 ≤ f.reg + o) (h : Reads HE_STAT v s) : Reads HE_STAT v (evt s f o) :=
  (rdn_evt_other s f o (by unfold HE_STAT; omega) (by unfold IrqReg HE_STAT HE_IPEND HE_VEC_ARM HE_PBA; omega)).trans h

theorem netLocal_reads {p cls flags : Nat} {pl : List Byte} (h : Reads HE_STAT v s) :
    Reads HE_STAT v (netLocal s p cls flags pl) := by
  unfold netLocal
  extract_lets s1 pk kind exempt
  have hs1 : Reads HE_STAT v s1 := bumpMsg_reads h
  exact .ite (fun _ => dropNoRoute_reads (by decide) hs1)
    (fun _ => .ite (fun _ => foldl_reads hs1 fun _ _ ht => enqueue_reads ht) (fun _ => h))

theorem helloOnChange_reads {old : State} (h : Reads HE_STAT v s) : Reads HE_STAT v (helloOnChange old s) := by
  unfold helloOnChange sendHello
  exact forEach_reads h fun _ _ ht => .ite (fun _ => .ite (fun _ => netLocal_reads ht) (fun _ => ht)) (fun _ => ht)

theorem hostSelect_reads (h : Reads HE_STAT v s) : Reads HE_STAT v (hostSelect s) := by
  unfold hostSelect hostKeep
  extract_lets may
  refine fbset_reads (by decide) ?_
  split
  · exact fset_reads (by decide) h
  · exact h

theorem setRoute_reads {pier code : Nat} (h : Reads HE_STAT v s) : Reads HE_STAT v (setRoute s pier code) :=
  wrn_reads_heStat (by unfold SN_ROUTE; omega) h

theorem buildRoutes_reads (h : Reads HE_STAT v s) : Reads HE_STAT v (buildRoutes s) := by
  unfold buildRoutes
  extract_lets s1 s2
  have hf : Reads HE_STAT v (flipUpdate s) := by
    unfold flipUpdate
    refine .ite (fun _ => h) fun _ => ?_
    split
    · exact fbset_reads (by decide) h
    · exact fbset_reads (by decide) h
    · exact h
  have hs1 : Reads HE_STAT v s1 := forEach_reads hf fun _ _ ht => wrn_reads_heStat (by unfold SN_ROUTE; omega) ht
  have hs2 : Reads HE_STAT v s2 := forEach_reads hs1 fun _ _ ht => .ite (fun _ => ht) (fun _ => setRoute_reads ht)
  exact .ite (fun _ => hs2) (fun _ => setRoute_reads hs2)

theorem remoteLost_reads (h : Reads HE_STAT v s) : Reads HE_STAT v (remoteLost s) := by
  unfold remoteLost
  refine forEach_reads h fun c t ht => ?_
  extract_lets gone t1
  refine forEach_reads (s := t1) ht.set fun r u hu => ?_
  unfold complete
  extract_lets u1
  have hu1 : Reads HE_STAT v u1 := hu.set
  exact .ite (fun _ => hu1) (fun _ => wrn_reads_heStat (by unfold MB_CNT_REFUSED; omega) hu1)

theorem publish_reads (h : Reads HE_STAT v s) : Reads HE_STAT v (publish s) := by
  unfold publish
  refine .ite (fun _ => h) fun _ => ?_
  extract_lets s1
  have hs1 : Reads HE_STAT v s1 := h.set
  refine .ite (fun _ => hs1) fun _ => ?_
  unfold sendChain
  extract_lets l f same e d s2
  have hs2 : Reads HE_STAT v s2 := netBcast_reads (by decide) hs1
  refine .ite (fun _ => hs2) fun _ => ?_
  unfold takeChain
  extract_lets __src s3
  have hs3 : Reads HE_STAT v s3 := fset_reads (by decide) (fset_reads (by decide) hs2.set)
  exact helloOnChange_reads (remoteLost_reads (hostSelect_reads (evt_reads_heStat (by decide) (buildRoutes_reads hs3))))

theorem sendReport_reads (h : Reads HE_STAT v s) : Reads HE_STAT v (sendReport s) :=
  .ite (fun _ => publish_reads h) (fun _ => reportSend_reads (by decide) h)

theorem overUpdate_reads {r : Nat} (h : Reads HE_STAT v s) : Reads HE_STAT v (overUpdate r s) := by
  unfold overUpdate
  extract_lets o was s1
  have hs1 : Reads HE_STAT v s1 := wrn_reads_heStat (by decide) h
  exact .ite (fun _ => evt_reads_heStat (by decide) hs1) (fun _ => hs1)

theorem linkCap_reads (h : Reads HE_STAT v s) : Reads HE_STAT v (linkCap s) := by
  unfold linkCap setCap
  refine .ite (fun _ => ?_) (fun _ => h)
  extract_lets old s1
  have hs1 : Reads HE_STAT v s1 := wrn_reads_heStat (by decide) h
  exact overUpdate_reads hs1.set

end

theorem fget_of_heStat {s t : State} {g : Fld} (hg : g.reg = HE_STAT) (h : Reads HE_STAT (rdn s HE_STAT) t) :
    fget t g = fget s g := by
  unfold fget
  rw [Nat.add_zero, hg, h]

theorem fget_syncTags (s : State) (g : Fld) (h1 : Apart fHE_STAT_NP_OUT g = true) (h2 : Apart fHE_STAT_QUIET g = true)
    (h3 : Apart fHE_TAG_STAT_QUAR g = true) : fget (syncTags s) g = fget s g := by
  unfold syncTags fbset
  rw [fget_fset_apart _ _ _ _ _ h3, fget_fset_apart _ _ _ _ _ h2, fget_fset_apart _ _ _ _ _ h1]

/-- What HE_STAT shows where the host link comes up. -/
def linkShown (speed width : Nat) (s : State) : State :=
  fset (fset (fbset s fHE_STAT_LINK_UP true) fHE_STAT_SPEED speed) fHE_STAT_WIDTH width

theorem fget_linkUpNow {s : State} {speed width : Nat} (hg : (s.rs.held || !s.he.perst || fbit s fHE_STAT_LINK_UP) = false) (g : Fld)
    (hr : g.reg = HE_STAT) (h1 : Apart fHE_STAT_NP_OUT g = true) (h2 : Apart fHE_STAT_QUIET g = true)
    (h3 : Apart fHE_TAG_STAT_QUAR g = true) : fget (linkUpNow speed width s) g = fget (linkShown speed width s) g := by
  simp only [linkUpNow, hg, Bool.false_eq_true, if_false]
  rw [fget_of_heStat hr (helloOnChange_reads (publish_reads (sendReport_reads (hostSelect_reads (Reads.refl _ _))))),
    fget_syncTags _ _ h1 h2 h3]
  exact fget_of_heStat hr (.ite (fun _ => linkCap_reads (Reads.refl _ _)) (fun _ => Reads.refl _ _))

theorem linkShown_fields (s : State) (sp : BitVec 3) (w : BitVec 5) :
    fbit (linkShown sp.toNat w.toNat s) fHE_STAT_LINK_UP = true ∧ fget (linkShown sp.toNat w.toNat s) fHE_STAT_SPEED = sp.toNat ∧
      fget (linkShown sp.toNat w.toNat s) fHE_STAT_WIDTH = w.toNat := by
  unfold linkShown
  refine ⟨?_, ?_, ?_⟩
  · rw [fbit_fset_apart _ _ _ _ _ rfl, fbit_fset_apart _ _ _ _ _ rfl, fbit_fbset_same _ fHE_STAT_LINK_UP]
  · rw [fget_fset_apart _ _ _ _ _ rfl, fget_fset_same _ fHE_STAT_SPEED]
    exact Nat.mod_eq_of_lt sp.isLt
  · rw [fget_fset_same _ fHE_STAT_WIDTH]
    exact Nat.mod_eq_of_lt w.isLt

/-! ## Leases and Function Level Resets -/

theorem forEach_establishes {α : Type} {l : List α} {f : α → State → State} {P : State → Prop} {x : α} (hx : x ∈ l)
    (hf : ∀ t, P (f x t)) (hk : ∀ y t, P t → P (f y t)) (s : State) : P (forEach l f s) := by
  have keep : ∀ (l : List α) s, P s → P (forEach l f s) := fun l => by
    induction l with
    | nil => exact fun s h => h
    | cons y l ih => exact fun s h => ih (f y s) (hk y s h)
  induction l generalizing s with
  | nil => cases hx
  | cons y l ih =>
    obtain rfl | hx := List.mem_cons.mp hx
    · exact keep l _ (hf s)
    · exact ih hx (f y s)

/-- A lease that a Function Level Reset ends only loses its register and its record (R285). -/
theorem leaseEnd_flr (i : Nat) (s : State) : leaseEnd lrFLR i s = if fbit s fMB_LEASE_HELD (i * 4) = true then
    { wrn s (MB_LEASE + i * 4) 0 with mb := { s.mb with leases := s.mb.leases.filter (fun l => l.id != i) } } else s := by
  unfold leaseEnd
  cases fbit s fMB_LEASE_HELD (i * 4) <;> rfl

theorem rdn_leaseEnd_flr (i : Nat) (s : State) (a : Nat) : rdn (leaseEnd lrFLR i s) a =
    if fbit s fMB_LEASE_HELD (i * 4) = true then rdn (wrn s (MB_LEASE + i * 4) 0) a else rdn s a := by
  rw [leaseEnd_flr]
  split <;> rfl

theorem rdn_leaseEnd_flr_other (i : Nat) (s : State) {a : Nat} (h : a ≠ MB_LEASE + i * 4) : rdn (leaseEnd lrFLR i s) a = rdn s a := by
  rw [rdn_leaseEnd_flr, rdn_wrn_other s 0 h, ite_self]

theorem leaseEnd_flr_ends (i : Nat) (s : State) : fbit (leaseEnd lrFLR i s) fMB_LEASE_HELD (i * 4) = false := by
  have e := leaseEnd_flr i s
  cases h : fbit s fMB_LEASE_HELD (i * 4) with
  | false =>
    rw [h, if_neg (by decide)] at e
    rw [e, h]
  | true =>
    have hz : rdn (leaseEnd lrFLR i s) (fMB_LEASE_HELD.reg + i * 4) = 0 := by
      rw [rdn_leaseEnd_flr, h, if_pos rfl]
      exact rdn_wrn_same s _ 0
    unfold fbit fget
    rw [hz]
    decide

theorem leaseEnd_flr_keeps_ended (i k : Nat) (s : State) (h : fbit s fMB_LEASE_HELD (k * 4) = false) :
    fbit (leaseEnd lrFLR i s) fMB_LEASE_HELD (k * 4) = false := by
  by_cases e : k = i
  · rw [e]
    exact leaseEnd_flr_ends i s
  · unfold fbit fget at *
    rw [rdn_leaseEnd_flr_other i s (by unfold MB_LEASE; simp only; omega)]
    exact h

/-- The end of the leases in a Function Level Reset leaves FLR_BUSY, the reads and the tiles, and no lease. -/
theorem flrLeases_effect (f : AbSt → AbSt) (s : State) : 
    fget (syncTags (forEach (List.range 32) (leaseEnd lrFLR) (updAb f s))) fHE_STAT_FLR_BUSY = fget s fHE_STAT_FLR_BUSY ∧
      (syncTags (forEach (List.range 32) (leaseEnd lrFLR) (updAb f s))).he = s.he ∧
      (syncTags (forEach (List.range 32) (leaseEnd lrFLR) (updAb f s))).tiles = s.tiles ∧
      ∀ i, i < 32 → leaseHeld (syncTags (forEach (List.range 32) (leaseEnd lrFLR) (updAb f s))) i = false := by
  have hu : rdn (updAb f s) HE_STAT = rdn s HE_STAT ∧ (updAb f s).he = s.he ∧ (updAb f s).tiles = s.tiles :=
    ⟨rdn_updAb_other _ s (by decide), kept_of_sound .he updAb_sound, kept_of_sound .tiles updAb_sound⟩
  generalize updAb f s = u at hu ⊢
  obtain ⟨hur, huh, hut⟩ := hu
  refine ⟨?_, ?_, ?_, fun i hi => ?_⟩
  · rw [fget_syncTags _ _ rfl rfl rfl]
    exact fget_of_heStat rfl ((rdn_forEach (fun i t => rdn_leaseEnd_flr_other i t (by unfold HE_STAT MB_LEASE; omega)) u).trans hur)
  · exact (kept_of_sound .he syncTags_sound).trans ((forEach_kept (·.he) (fun _ _ => kept_of_sound .he leaseEnd_sound) u).trans huh)
  · exact (kept_of_sound .tiles syncTags_sound).trans
      ((forEach_kept (·.tiles) (fun _ _ => kept_of_sound .tiles leaseEnd_sound) u).trans hut)
  · have hb : fbit (forEach (List.range 32) (leaseEnd lrFLR) u) fMB_LEASE_HELD (i * 4) = false :=
      forEach_establishes (P := fun t => fbit t fMB_LEASE_HELD (i * 4) = false) (List.mem_range.mpr hi) (leaseEnd_flr_ends i)
        (fun k t h => leaseEnd_flr_keeps_ended k i t h) u
    generalize forEach (List.range 32) (leaseEnd lrFLR) u = w at hb
    have hk : fget (syncTags w) fMB_LEASE_HELD (i * 4) = fget w fMB_LEASE_HELD (i * 4) := by
      unfold fget
      rw [rdn_syncTags _ (by unfold HE_STAT; simp only; omega) (by unfold HE_TAG_STAT; simp only; omega)]
    rw [leaseHeld, fbit, hk]
    exact Bool.and_eq_false_imp.mpr fun h => absurd (hb.symm.trans h) (by decide)

/-- The reads voided and the tiles paused. -/
def pausedForReset (s : State) : State :=
  let u : State := { s with he := { s.he with reqs := s.he.reqs.map (fun r => { r with void := true }) } }
  { u with tiles := { u.tiles with allocs := u.tiles.allocs.map (fun a => { a with paused := true }) } }

/-- The requests that hosts make of the Abutment voided. -/
def hostReqsVoided (a : AbSt) : AbSt := { a with reqs := a.reqs.map (fun r => if r.ag = .host then { r with void := true } else r) }

theorem flrStart_eq (s : State) : flrStart s = syncTags (forEach (List.range 32) (leaseEnd lrFLR) (updAb hostReqsVoided
    (pausedForReset (fbset { s with he := { s.he with silenced := false } } fHE_STAT_FLR_BUSY true)))) := by
  unfold flrStart
  dsimp only
  unfold pausedForReset hostReqsVoided
  dsimp only

/-- What `s` shows of a Function Level Reset under way. -/
def FlrEffect (s : State) : Prop :=
  fbit s fHE_STAT_FLR_BUSY = true ∧ s.he.silenced = false ∧ (∀ r ∈ s.he.reqs, r.void = true) ∧
    (∀ a ∈ s.tiles.allocs, a.paused = true) ∧ ∀ i, i < 32 → leaseHeld s i = false

theorem flrEffect_of_begun (u : State) (hb1 : fbit u fHE_STAT_FLR_BUSY = true) (hs1 : u.he.silenced = false) :
    FlrEffect (syncTags (forEach (List.range 32) (leaseEnd lrFLR) (updAb hostReqsVoided (pausedForReset u)))) := by
  obtain ⟨hb, hh, ht, hl⟩ := flrLeases_effect hostReqsVoided (pausedForReset u)
  refine ⟨?_, ?_, ?_, ?_, hl⟩
  · rw [fbit, hb, fget_congr (rfl : (pausedForReset u).regs = u.regs)]
    exact hb1
  · rw [hh]
    exact hs1
  · rw [hh]
    intro r hr
    obtain ⟨x, -, rfl⟩ := List.mem_map.mp hr
    rfl
  · rw [ht]
    intro a ha
    obtain ⟨x, -, rfl⟩ := List.mem_map.mp ha
    rfl

/-- What a Function Level Reset leaves: FLR_BUSY, every read void, every tile paused, every lease ended. -/
theorem flrStart_effect (s : State) : FlrEffect (flrStart s) := by
  rw [flrStart_eq]
  exact flrEffect_of_begun _ (fbit_fbset_same _ fHE_STAT_FLR_BUSY true 0) (by rw [fbset_he])

/-- Settles O40: each row by the branch that its hypotheses select. -/
theorem hostLinkAndResetsComplete : Obligations.HostLinkAndResetsComplete := by
  unfold Obligations.HostLinkAndResetsComplete
  refine ⟨fun sp w s hh hp hl => ?_, fun s hb => ?_, fun s hb => ?_, fun s hb hf => ?_, fun s hd => ?_, fun s hf => ?_,
    fun s hf hs hr ha => ?_, fun s hf hs => congrArg Host.Outcome.next (if_pos ⟨hf, hs⟩), fun s => ⟨rfl, rfl⟩, fun s hd hr => ?_,
    fun v s => rfl, fun k c e s hl hs hw ht hp hx => ?_, fun k c e s hl => ?_⟩
  · have hg : ¬ (s.rs.held || !s.he.perst || fbit s fHE_STAT_LINK_UP) = true := by rw [hh, hp, hl]; decide
    have hk := fget_linkUpNow (speed := sp.toNat) (width := w.toNat) (by simpa using hg)
    obtain ⟨h1, h2, h3⟩ := linkShown_fields s sp w
    refine ⟨_, rfl, ?_, (hk _ rfl rfl rfl rfl).trans h2, (hk _ rfl rfl rfl rfl).trans h3⟩
    rw [fbit, hk _ rfl rfl rfl rfl]
    exact h1
  · exact congrArg Host.Outcome.next (if_neg (by rw [hb]; decide))
  · exact congrArg Host.Outcome.next (if_pos (by rw [hb]; rfl))
  · exact congrArg Host.Outcome.next (if_neg (by rw [hb, hf]; decide))
  · exact congrArg Host.Outcome.next (if_neg (by rw [hd]; decide))
  · have hg : ¬ fbit s fHE_STAT_FLR_BUSY = true := by rw [hf]; decide
    exact ⟨_, congrArg Host.Outcome.next (if_neg hg), flrStart_effect s⟩
  · simp only [exec, execFlrDmaSilence, flrSilence, hf, hs, hr, Bool.not_true, Bool.or_self, Bool.false_eq_true, if_false, forEach,
      List.foldl_nil, List.map_nil]
    rw [kept_of_sound .tiles syncTags_sound, ha]
    rfl
  · refine ⟨_, congrArg Host.Outcome.next (if_pos ⟨hd, hr⟩), ?_, fbit_fbset_same _ fHE_STAT_ROM_READY true 0⟩
    exact congrArg HeSt.rom (fbset_he ..)
  · have hg : (!fbit s fHE_STAT_LINK_UP || decide (fget s fHE_STAT_SPEED < 4) || decide (fget s fHE_STAT_WIDTH ≤ k.val)) = false := by
      simp [hl]
      omega
    have hrx : ¬ (c.toNat % 8 ≠ 0 ∧ c.toNat % 8 ≠ 6) := by omega
    simp only [exec, execLaneMarginCommand, marginCommand, hg, ht, hp, hrx, marginAnswer, marginReport, Bool.false_eq_true, if_false,
      show ¬ (1 = 2 ∧ 0xC0 ≤ 0x89) by decide]
  · refine congrArg Host.Outcome.next (if_pos ?_)
    rw [hl]
    rfl

end Sys2Proof.Machine
end

section
/-! Mailbox channels and the completion ring. -/

namespace Sys2Proof.Machine

set_option Elab.async false

/-- A channel as it opens: its indices 0, MB_STAT as given, OPENED set. -/
def channelOpened (c n : Nat) (s : State) : State :=
  evt (wrn (forEach [MB_CMD_HEAD, MB_CMD_TAIL, MB_CPL_PROD, MB_CPL_CONS] (fun a t => wrn t (a + mbo c) 0) s) (MB_STAT + mbo c) n)
    fMB_EVT_OPENED (mbo c)

theorem rdn_channelOpened (c : ChanNo) (n : Nat) (s : State) {a : Nat} (h : (a != fMB_EVT_OPENED.reg) = true) (h1 : 0x10000 ≤ a)
    (h2 : a < 0x10100) : rdn (channelOpened c.val n s) (a + mbo c.val) = if a = MB_STAT then n % 2 ^ 32 else
      if a = MB_CMD_HEAD ∨ a = MB_CMD_TAIL ∨ a = MB_CPL_PROD ∨ a = MB_CPL_CONS then 0 else rdn s (a + mbo c.val) := by
  unfold channelOpened
  rw [rdn_evt_apart _ _ _ _ h (quietReg_channel c h1 h2).not_irq]
  simp only [forEach, List.foldl_cons, List.foldl_nil]
  by_cases e : a = MB_STAT
  · rw [e, if_pos rfl, rdn_wrn_same]
  rw [if_neg e, rdn_wrn_apart _ _ _ _ _ (bne_iff_ne.mpr e)]
  have step : ∀ (t : State) (b : Nat), rdn (wrn t (b + mbo c.val) 0) (a + mbo c.val) =
      if a = b then 0 else rdn t (a + mbo c.val) := fun t b => by
    by_cases e : a = b
    · rw [e, if_pos rfl, rdn_wrn_same, Nat.zero_mod]
    · rw [if_neg e, rdn_wrn_apart _ _ _ _ _ (bne_iff_ne.mpr e)]
  rw [step, step, step, step]
  split_ifs <;> simp_all

theorem chan_channelOpened (c n k : Nat) (s : State) : chan (channelOpened c n s) k = chan s k := by
  refine chan_congr ?_ k
  unfold channelOpened
  rw [evt_mb, wrn_mb]
  exact forEach_kept (·.mb) (fun _ _ => wrn_mb ..) s

theorem opened_channelOpened (c : ChanNo) (n : Nat) (s : State) : fbit (channelOpened c.val n s) fMB_EVT_OPENED (mbo c.val) = true :=
  fbit_evt_same _ _ _ rfl (by decide) (quietReg_channel c (by decide) (by decide)).not_irq

/-- Settles O41: each row by the branch that its hypotheses select. -/
theorem channelsOpenAndClose : Obligations.ChannelsOpenAndClose := by
  unfold Obligations.ChannelsOpenAndClose
  refine ⟨fun ch s h => ?_, fun ch s h hd => ?_, fun ch s u h hu hd hv hc1 hc12 hp1 hp12 ht => ?_, fun ch tail s ha h => ?_,
    fun ch tail s ha h => ?_, fun ch s h => ?_, fun ch s u h hu => ?_⟩
  · refine ⟨_, congrArg Host.Outcome.next (if_pos h), fget_fset_same s fMB_STAT_STATE 1 _, fun a ha => ?_⟩
    exact rdn_fset_other s _ _ _ ha
  · have h1 : ¬ chState s ch.val ≠ 1 := by omega
    simp only [exec, execChannelOpen, channelOpen, h1, hd, Bool.not_false, if_false, if_true]
  · have h1 : ¬ chState s ch.val ≠ 1 := by omega
    have hz : (tokenWritten s ch.val == zeros 16) = true := by simpa using ht
    have hc : decide (1 ≤ fget u fMB_CTL_CMD_SIZE (mbo ch.val) ∧ fget u fMB_CTL_CMD_SIZE (mbo ch.val) ≤ 12) = true :=
      decide_eq_true ⟨hc1, hc12⟩
    have hp : decide (1 ≤ fget u fMB_CTL_CPL_SIZE (mbo ch.val) ∧ fget u fMB_CTL_CPL_SIZE (mbo ch.val) ≤ 12) = true :=
      decide_eq_true ⟨hp1, hp12⟩
    have he : channelOpen ch.val s = channelOpened ch.val (2 * 2 ^ 29 + 0 + min 0x16 (fget u fMB_HIV_OFFER_MAX (mbo ch.val)) * 256)
        (updChan { u with mb := { u.mb with opens := upd u.mb.opens ch.val (· + 1) } } ch.val (fun _ => freshChan)) := by
      simp only [channelOpen, h1, ← hu, hd, Nat.not_lt.mpr hv, hc, hp, hz, Bool.not_true, Bool.or_self, Bool.false_and, Bool.true_or,
        Bool.false_eq_true, if_false, if_true]
      rfl
    have hn : min 0x16 (fget u fMB_HIV_OFFER_MAX (mbo ch.val)) ≤ 0x16 := Nat.min_le_left _ _
    generalize min 0x16 (fget u fMB_HIV_OFFER_MAX (mbo ch.val)) = n at he hn ⊢
    have hr : ∀ a, (a != fMB_EVT_OPENED.reg) = true → 0x10000 ≤ a → a < 0x10100 → _ := fun a => rdn_channelOpened ch
      (2 * 2 ^ 29 + 0 + n * 256) (updChan { u with mb := { u.mb with opens := upd u.mb.opens ch.val (· + 1) } } ch.val
        (fun _ => freshChan)) (a := a)
    rw [← he] at hr
    refine ⟨_, rfl, ?_, ?_, ?_, hr _ rfl (by decide) (by decide), hr _ rfl (by decide) (by decide), hr _ rfl (by decide) (by decide),
      hr _ rfl (by decide) (by decide), ?_, ?_⟩
    · unfold chState fget
      rw [hr MB_STAT rfl (by decide) (by decide)]
      unfold bits
      simp
      omega
    · unfold fget
      rw [hr MB_STAT rfl (by decide) (by decide)]
      unfold bits
      simp
      omega
    · unfold fget
      rw [hr MB_STAT rfl (by decide) (by decide)]
      unfold bits
      simp
      omega
    · rw [he, chan_channelOpened, chan_updChan_same]
    · rw [he]
      exact opened_channelOpened ch _ _
  · simp only [exec, execCommandDoorbell, doorbell, ha, Nat.not_le.mpr h, Bool.false_eq_true, if_false]
  · simp only [exec, execCommandDoorbell, doorbell, ha, h, Bool.false_eq_true, if_false, if_true]
  · simp only [exec, execMbClose, mbClose, h]
  · simp only [exec, execMbClose, mbClose, h, ← hu]

/-- Settles O42: each entry by the branch that its hypotheses select, its bytes by place. -/
theorem completionsAndEventsAreWritten : Obligations.CompletionsAndEventsAreWritten := by
  unfold Obligations.CompletionsAndEventsAreWritten
  refine ⟨fun ch s e l hc hr hf ht => ?_, fun ch s e l hc hr hf ht => ?_, fun ch s h => ?_, fun ch s h => ?_,
    fun op kind st tag detail res => ?_, fun ch k tag res s ho hl => ⟨?_, ?_⟩, fun ch k tag res s ho hl => ⟨?_, ?_⟩⟩
  · have hf' : (cplFree s ch.val == 0) = false := by simpa using hf
    simp only [exec, execCompletionWrite, completionWrite, hc, hr, hf', ht, Bool.not_true, Bool.or_self, Bool.false_eq_true, if_false]
  · simp only [exec, execEventDeliver, eventDeliver, hc, hr, hf, ht, Bool.not_true, Bool.or_self, Bool.false_eq_true, if_false]
  · simp only [exec, execCompletionWrite, completionWrite, h]
  · simp only [exec, execEventDeliver, eventDeliver, h]
  · simp [cplEntry, leBytes, zeros, fit, byteAt, u16At, u32At]
    omega
  · simp only [mbEvent, ho, Nat.not_le.mpr hl, Bool.not_true, Bool.false_eq_true, if_false, chan_updChan_same]
  · simp only [mbEvent, ho, Nat.not_le.mpr hl, Bool.not_true, Bool.false_eq_true, if_false]
    rfl
  · simp only [mbEvent, ho, hl, Bool.not_true, Bool.false_eq_true, if_false, if_true]
    rw [chan_congr (cnt_mb ..), chan_updChan_same]
  · simp only [mbEvent, ho, hl, Bool.not_true, Bool.false_eq_true, if_false, if_true]
    rw [chan_congr (cnt_mb ..), chan_updChan_same]

end Sys2Proof.Machine
end

section
/-! The executor. -/

namespace Sys2Proof.Machine

set_option Elab.async false

/-- Settles O44: each row by the branch that its hypotheses select. -/
theorem executorRowsComplete : Obligations.ExecutorRowsComplete := by
  unfold Obligations.ExecutorRowsComplete
  refine ⟨fun e ind d n s ch hn hf => ?_, fun e ind d n s ch f hn hf hl => ?_, fun e ind d n s hn => ?_,
    fun ch tag ok back s x hx => ⟨fun hw => ?_, fun hw ho hb => ?_, fun i y hw ho hb hne => ?_, fun hw ho => ?_⟩,
    fun ch tag ok back s hx => ?_, fun sp c s u x hsp h hu hx hs => ?_, fun sp c s hsp h => ?_, fun src op call s hd => ?_,
    fun src n s hd => ?_, fun src m s hd => ?_⟩
  · simp only [exec, execCommandTake, commandTake, hn, hf, List.length_nil, show 0 < 64 by decide, if_true]
  · simp only [exec, execCommandTake, commandTake, hn, hf, Nat.not_lt.mpr hl, if_false]
  · simp only [exec, execCommandTake, commandTake, hn]
  · simp only [exec, execDeferredComplete, deferredComplete, hx, hw, if_true]
  · subst hb
    simp only [exec, execDeferredComplete, deferredComplete, hx, hw, ho, fwWriteDone, readBack, Bool.and_true, Bool.false_eq_true,
      if_false]
  · subst hb
    have hbad : (ok && readBack s (byteAt x.2.call.payload 0) (some (i, y))) = false := by simp [readBack, hne]
    simp only [exec, execDeferredComplete, deferredComplete, hx, hw, ho, fwWriteDone, hbad, Bool.false_eq_true, if_false]
  · simp only [exec, execDeferredComplete, deferredComplete, hx, hw, Bool.false_eq_true, if_false]
    refine congrArg Host.Outcome.next ?_
    split
    · next e => simp [e] at ho
    · next e => simp [e] at ho
    · next e => simp [e] at ho
    · next e => simp [e] at ho
    · next e => simp [e] at ho
    · rfl
  · simp only [exec, execDeferredComplete, deferredComplete, hx]
  · subst hsp hu
    refine congrArg Host.Outcome.next (mbRun_ok h ?_)
    simp only [runCmdAbort, hx, hs, if_true]
  · subst hsp
    refine congrArg Host.Outcome.next (mbRun_silent h ?_)
    simp only [runChannelClose, completeFor, h.1]
  · simp only [exec, execDennilMessageReceive, dennilMsg, hd, Bool.not_true, Bool.false_eq_true, if_false]
  · simp only [exec, execDennilMessageReceive, dennilMsg, hd, Bool.not_true, Bool.false_eq_true, if_false]
  · simp only [exec, execDennilMessageReceive, dennilMsg, hd, Bool.not_false, if_true]

end Sys2Proof.Machine
end

section
/-! Mailbox commands, leases and the Causeway mailbox. -/

namespace Sys2Proof.Machine

set_option Elab.async false

/-! ## The end of a lease -/

theorem rdn_mbEvent_other (c k tag : Nat) (res : List Byte) (s : State) {a : Nat} (h : a ≠ MB_CNT_EVT_LOST) :
    rdn (mbEvent c k tag res s) a = rdn s a := by
  unfold mbEvent
  split
  · rfl
  split
  · exact (rdn_wrn_other _ _ h).trans (rdn_congr rfl a)
  · exact rdn_congr rfl a

theorem mbEvent_leases (c k tag : Nat) (res : List Byte) (s : State) : (mbEvent c k tag res s).mb.leases = s.mb.leases := by
  unfold mbEvent
  split
  · rfl
  split
  · rw [cnt_mb]
    rfl
  · rfl

theorem leaseEnd_expired (i : Nat) (s : State) (h : fbit s fMB_LEASE_HELD (i * 4) = true) :
    fbit (leaseEnd lrEXPIRED i s) fMB_LEASE_HELD (i * 4) = false ∧ ∀ l ∈ (leaseEnd lrEXPIRED i s).mb.leases, l.id ≠ i := by
  unfold leaseEnd
  rw [if_neg (by rw [h]; decide)]
  extract_lets c res s1 __src s2
  rw [if_neg (by decide : ¬ lrEXPIRED = lrFLR), mbEvent_leases]
  refine ⟨?_, fun l hl => by simpa using (List.mem_filter.mp hl).2⟩
  have hr : rdn (mbEvent c evLEASE_END 0 res s2) (fMB_LEASE_HELD.reg + i * 4) = 0 := by
    rw [rdn_mbEvent_other _ _ _ _ _ (by unfold MB_CNT_EVT_LOST; simp only; omega), rdn_congr (rfl : s2.regs = s1.regs)]
    exact rdn_wrn_same s _ 0
  unfold fbit fget
  rw [hr]
  decide

/-! ## The Causeway mailbox -/

theorem rdn_cwData (d : List Nat) (s : State) (a : Nat) :
    rdn (forEach (List.range 4) (fun i t => wrn t (MB_CW_DATA + 4 * i) (nth d i)) s) a =
      if a = MB_CW_DATA then nth d 0 % 2 ^ 32 else if a = MB_CW_DATA + 4 then nth d 1 % 2 ^ 32 else
        if a = MB_CW_DATA + 8 then nth d 2 % 2 ^ 32 else if a = MB_CW_DATA + 12 then nth d 3 % 2 ^ 32 else rdn s a := by
  have step : ∀ (t : State) (b v : Nat), rdn (wrn t b v) a = if a = b then v % 2 ^ 32 else rdn t a := fun t b v => by
    by_cases e : a = b
    · rw [e, if_pos rfl, rdn_wrn_same]
    · rw [if_neg e, rdn_wrn_other _ _ e]
  simp only [forEach, List.range_succ, List.range_zero, List.nil_append, List.cons_append, List.foldl_cons, List.foldl_nil, step,
    MB_CW_DATA]
  split_ifs <;> omega

/-- What the end of a Causeway command leaves: DONE, the status, the results, and where it was not BUSY its opcode. -/
theorem cwDone_effect (op st : Nat) (d : List Nat) (s : State) : fbit (cwDone op st d s) fMB_CW_EVT_DONE = true ∧
    rdn (cwDone op st d s) MB_CW_RESP = st * 2 ^ 24 % 2 ^ 32 ∧
    (fbit s fMB_CW_CMD_BUSY = false → rdn (cwDone op st d s) MB_CW_CMD = op % 2 ^ 32) ∧
    (∀ i, i < 4 → rdn (cwDone op st d s) (MB_CW_DATA + 4 * i) = nth d i % 2 ^ 32) := by
  unfold cwDone
  extract_lets s0 s1
  have hi : ∀ {a : Nat}, 0x10C00 ≤ a → a < 0x10C28 → rdn (evt (forEach (List.range 4) (fun i t => wrn t (MB_CW_DATA + 4 * i)
      (nth d i)) s1) fMB_CW_EVT_DONE) a = _ := fun {a} h1 h2 => (rdn_evt_other _ fMB_CW_EVT_DONE 0 (by simp only; omega)
        (by unfold IrqReg HE_IPEND HE_VEC_ARM HE_PBA; omega)).trans (rdn_cwData d s1 a)
  refine ⟨fbit_evt_same _ _ _ rfl (by decide) (by unfold IrqReg HE_IPEND HE_VEC_ARM HE_PBA; decide), ?_, fun hb => ?_, fun i h => ?_⟩
  · rw [hi (by decide) (by decide), if_neg (by decide), if_neg (by decide), if_neg (by decide), if_neg (by decide)]
    exact rdn_wrn_same _ _ _
  · rw [hi (by decide) (by decide), if_neg (by decide), if_neg (by decide), if_neg (by decide), if_neg (by decide)]
    refine (rdn_wrn_other s0 _ (by decide : MB_CW_CMD ≠ MB_CW_RESP)).trans ?_
    simp only [s0, hb, Bool.false_eq_true, if_false, rdn_wrn_same]
  · rw [hi (by unfold MB_CW_DATA; omega) (by unfold MB_CW_DATA; omega)]
    interval_cases i <;> rfl

theorem imageValid_unsigned (s : State) (img : List Byte) : imageValid s img false = false := Bool.and_false _

theorem imageValid_checked {s : State} {img : List Byte} {sig : Bool} {k : ReadCheck} (h : imageValid s img sig = true)
    (hk : k ≠ .failed) : imageValid s img (sig && k != .failed) = true := by
  rwa [bne_iff_ne.mpr hk, Bool.and_true]

/-- BUSY set for a Causeway command; one already BUSY keeps its opcode. -/
def cwBusy (s : State) : State := fbset (if fbit s fMB_CW_CMD_BUSY then s else wrn s MB_CW_CMD 3) fMB_CW_CMD_BUSY true

theorem fbit_cwBusy (s : State) : fbit (cwBusy s) fMB_CW_CMD_BUSY = true := fbit_fbset_same _ fMB_CW_CMD_BUSY true 0

theorem cwBusy_ev (s : State) : (cwBusy s).ev = s.ev := by
  rw [cwBusy, fbset_ev]
  split
  · rfl
  · exact wrn_ev ..

theorem cwBusy_outbox (s : State) : (cwBusy s).outbox = s.outbox := by
  rw [cwBusy, fbset_outbox]
  split
  · rfl
  · exact wrn_outbox ..

/-- The image `img` on its way into slot `i` by FW_LOAD. -/
def cwPrograms (i : Nat) (img : List Byte) (s : State) : State :=
  emit (setSlot i ⟨3, img⟩ { s with mb := { s.mb with cwProg := some i } }) (.nand 1 i img)

theorem cwPrograms_effect (i : Nat) (img : List Byte) (s : State) : (cwPrograms i img s).mb.cwProg = some i ∧
    (cwPrograms i img s).regs = s.regs ∧ (cwPrograms i img s).ev.slots = upd s.ev.slots i (fun _ => ⟨3, img⟩) ∧
    (cwPrograms i img s).outbox = .nand 1 i img :: s.outbox := ⟨rfl, rfl, rfl, rfl⟩

/-- Settles O45: each command by the branch that its hypotheses select. -/
theorem mailboxCommandsComplete : Obligations.MailboxCommandsComplete := by
  unfold Obligations.MailboxCommandsComplete
  refine ⟨fun sp c s u hsp h hu => ?_, fun sp c s u hsp h hu hz ht hr hn => ?_, fun sp c s u hsp h hu hp hb hr hl hv => ?_,
    fun sp c s u hsp h hu hp hs => ?_, fun sp c s u hsp h hu => ?_,
    fun sp c s u i ports hsp h hu hp hl h1 h6 hc hb hn hf => ?_, fun sp c s u hsp h hu hl => ?_, fun sp c s u hsp h hu hl h1 h6 => ?_,
    fun i s hl hh => ?_, fun i s hl => ?_, fun s h => ?_, fun s h => ?_, fun sig k a s hu hp hc => ?_,
    fun sig k a s u img hcu hp hc hu hi hv hk => have hv' := imageValid_checked hv hk; ⟨fun h => ?_, fun h => ?_, fun h h8 hr => ?_⟩,
    fun sig k a s u img hcu hp hc hu hi h hv => ?_, cwDone_effect⟩
  · subst hsp hu
    refine congrArg Host.Outcome.next (mbRun_ok h ?_)
    simp only [runInfo, h.1, Option.isNone_none, if_true]
  · subst hsp hu
    refine congrArg Host.Outcome.next (mbRun_ok h ?_)
    have hg : ¬ ((mbTake c s).ev.token ≠ [] ∧ ¬ fbit (mbTake c s) fMB_STAT_EXPERT (mbo c.chan.val) = true) := fun h => h.1 ht
    simp only [runTokenSet, hz, hg, hr, hn, Bool.not_true, Bool.false_eq_true, or_self, if_false]
  · subst hsp hu
    refine congrArg Host.Outcome.next (mbRun_defer h ?_)
    have h2 : ¬ 2 < pb c 0 := by omega
    have hb' : ¬ (pb c 0 = 2 ∨ fget (mbTake c s) fRS_BOOT_BOOTED = pb c 0) := by omega
    simp only [runFwWrite, h2, hb', hr, hl, hv, ne_eq, not_true_eq_false, Bool.not_true, Bool.false_eq_true, or_self, if_false]
  · subst hsp hu
    refine congrArg Host.Outcome.next (mbRun_ok h ?_)
    simp only [runFwActivate, Nat.not_lt.mpr hp, hs, ne_eq, not_true_eq_false, if_false]
  · subst hsp hu
    refine congrArg Host.Outcome.next (mbRun_ok h ?_)
    simp only [runEventMask, h.1, Option.isNone_none, if_true]
  · subst hsp hu
    refine congrArg Host.Outcome.next (mbRun_ok h ?_)
    have hms : ¬ (pd c 4 < 1 ∨ 60000 < pd c 4) := by omega
    have hc' : (List.range 32).any (leaseClash (mbTake c s) (pb c 0) ports) = false :=
      List.any_eq_false.mpr fun k hk => by simp [hc k (List.mem_range.mp hk)]
    simp only [runLeaseOpen, ← hp, hl, hms, hc', hb, Nat.not_le.mpr hn, hf, Bool.not_true, Bool.false_eq_true, if_false]
  · subst hsp hu
    refine congrArg Host.Outcome.next (mbRun_ok h ?_)
    simp only [runLeaseClose, hl, if_true]
  · subst hsp hu
    refine congrArg Host.Outcome.next (mbRun_ok h ?_)
    have hms : ¬ (pd c 4 < 1 ∨ 60000 < pd c 4) := by omega
    simp only [runLeaseRenew, hl, hms, Bool.not_true, Bool.false_eq_true, if_false]
  · obtain ⟨h1, h2⟩ := leaseEnd_expired i.val s hh
    exact ⟨_, congrArg Host.Outcome.next (if_pos hl), h1, h2⟩
  · exact congrArg Host.Outcome.next (if_neg (Int.not_le.mpr hl))
  · simp only [exec, execCwVersion, cwVersion, h, Bool.not_true, Bool.false_eq_true, if_false]
  · exact congrArg Host.Outcome.next (if_pos h)
  · simp only [exec, execFwLoad, fwLoad, hu, hp, hc, Option.isSome_none, Bool.not_true, Bool.not_false, Bool.or_self, Bool.false_eq_true,
      if_false, if_true]
  · simp only [exec, execFwLoad, fwLoad, ← hu, ← hi, hcu, hp, hc, h, hv', fwLoadRes, Option.isSome_none, Bool.not_true, Bool.or_self,
      Bool.false_eq_true, false_and, if_false, show ¬ 0 = 3 by decide, show ¬ 0 = 1 by decide, show ¬ 0 = 2 by decide]
  · simp only [exec, execFwLoad, fwLoad, ← hu, ← hi, hcu, hp, hc, h, hv', fwLoadRes, Option.isSome_none, Bool.not_true, Bool.or_self,
      Bool.false_eq_true, false_and, if_false, if_true, show ¬ 2 = 3 by decide, show ¬ 2 = 1 by decide]
  · obtain ⟨h1, h2, h3, h4⟩ := cwPrograms_effect (bits (cwArg u 3) 9 8) img (cwBusy u)
    rw [cwBusy_ev] at h3
    rw [cwBusy_outbox] at h4
    refine ⟨cwPrograms (bits (cwArg u 3) 9 8) img (cwBusy u), congrArg Host.Outcome.next ?_, h1,
      (congrArg (decide <| · = 1) (fget_congr h2 _ _)).trans (fbit_cwBusy u), h3, h4⟩
    simp only [exec, execFwLoad, fwLoad, ← hu, ← hi, hcu, hp, hc, h, hv', hr, Nat.not_lt.mpr h8, Option.isSome_none, Bool.not_true,
      Bool.or_self, Bool.false_eq_true, and_false, if_false, if_true, show ¬ 1 = 3 by decide]
    rfl
  · have hv' : imageValid u img (sig && k != .failed) = false := by
      rcases hv with hv | hv
      · cases hk : k != .failed
        · rw [Bool.and_false, imageValid_unsigned]
        · rwa [Bool.and_true]
      · rw [hv]
        exact (congrArg _ (Bool.and_false sig)).trans (imageValid_unsigned u img)
    simp only [exec, execFwLoad, fwLoad, ← hu, ← hi, hcu, hp, hc, h, hv', Option.isSome_none, Bool.not_true, Bool.not_false, Bool.or_self,
      Bool.false_eq_true, false_and, if_false, if_true, show ¬ 0 = 3 by decide, show ¬ 0 = 1 by decide]

end Sys2Proof.Machine
end

section
/-! Two-wire blocks. -/

namespace Sys2Proof.Machine

set_option Elab.async false

/-! ## TW_CMD as written -/

/-- The fields of TW_CMD that a write gives: WLEN, RLEN, ADDR, bits 28 and 29. -/
abbrev twCmdMask : Nat := 0x307FFFFF

theorem findRow_twCmd (b : TwNo) : (findRow (TW_CMD + two b.val)).map (fun r => (r.rw, r.rwl, r.w1c)) = some (twCmdMask, 0, 0) := by
  revert b
  decide +kernel

theorem tw_not_irq (b : TwNo) {a : Nat} (h1 : 0x70000 ≤ a) (h2 : a < 0x71000) : ¬ IrqReg (a + two b.val) := by
  unfold IrqReg HE_IPEND HE_VEC_ARM HE_PBA two
  omega

theorem rdn_putWord_twCmd (b : TwNo) (v : Nat) (s : State) : rdn (putWord (TW_CMD + two b.val) v s) (TW_CMD + two b.val) =
    ((rdn s (TW_CMD + two b.val)).lor twCmdMask - twCmdMask + v.land twCmdMask) % 2 ^ 32 := by
  have ht : isTable (TW_CMD + two b.val) = false := decide_eq_false (by unfold TW_CMD two; omega)
  obtain ⟨r, hr, hm⟩ := Option.map_eq_some_iff.mp (findRow_twCmd b)
  obtain ⟨h1, h2, h3⟩ := by simpa only [Prod.mk.injEq] using hm
  have hl : twCmdMask.lor 0 = twCmdMask := Nat.or_zero _
  simp only [putWord, ht, hr, h1, h2, h3, hl, Bool.false_eq_true, if_false]
  rw [rdn_irqAt _ _ (tw_not_irq b (by decide) (by decide)), rdn_wrn_same]
  simp

/-- A word blended under TW_CMD's mask: the low 23 bits are those written, bits 30 and 31 stay. -/
theorem twCmd_blend (old v : Nat) : (old.lor twCmdMask - twCmdMask + v.land twCmdMask) % 2 ^ 23 = v % 2 ^ 23 ∧
    (old.lor twCmdMask - twCmdMask + v.land twCmdMask) / 2 ^ 30 = old / 2 ^ 30 := by
  have hle : twCmdMask ≤ old.lor twCmdMask := Nat.right_le_or
  have hv : v.land twCmdMask ≤ twCmdMask := Nat.and_le_right
  have h1 : old.lor twCmdMask % 2 ^ 23 = 2 ^ 23 - 1 := by
    refine (Nat.or_mod_two_pow (a := old) (b := twCmdMask)).trans (Nat.le_antisymm ?_ Nat.right_le_or)
    exact Nat.le_pred_of_lt (Nat.or_lt_two_pow (Nat.mod_lt _ (by decide)) (by decide))
  have h2 : v.land twCmdMask % 2 ^ 23 = v % 2 ^ 23 := by
    refine (Nat.and_mod_two_pow (a := v) (b := twCmdMask)).trans ?_
    exact Nat.and_two_pow_sub_one_of_lt_two_pow (Nat.mod_lt _ (by decide))
  have h3 : old.lor twCmdMask / 2 ^ 30 = old / 2 ^ 30 :=
    (Nat.or_div_two_pow (a := old) (b := twCmdMask)).trans (Nat.or_zero _)
  have h4 : twCmdMask ≤ old.lor twCmdMask % 2 ^ 30 := by
    refine le_of_le_of_eq ?_ (Nat.or_mod_two_pow (a := old) (b := twCmdMask)).symm
    exact Nat.right_le_or
  unfold twCmdMask at *
  omega

theorem twPut_cmd (b : TwNo) (v : Nat) (s : State) (h : bit v 31 = true) :
    twPut (TW_CMD + two b.val) v s = twGo b.val (putWord (TW_CMD + two b.val) (v % 2 ^ 30) s) := by
  have h1 : (TW_CMD + two b.val - 0x70000) / 0x1000 = b.val := by unfold TW_CMD two; omega
  have h2 : (TW_CMD + two b.val) % 0x1000 = 0xC := by unfold TW_CMD two; omega
  simp only [twPut, h1, h2, h, show ¬ 0xC = 0 by decide, if_false, if_true]

/-- A field of TW_CMD in its low 23 bits reads as written. -/
theorem fget_putWord_twCmd (b : TwNo) (v : Nat) (s : State) (f : Fld) (hr : f.reg = TW_CMD) (hf : f.lo ≤ f.hi) (hh : f.hi < 23) :
    fget (putWord (TW_CMD + two b.val) v s) f (two b.val) = bits v f.hi f.lo := by
  have hm : (rdn (putWord (TW_CMD + two b.val) v s) (TW_CMD + two b.val)) % 2 ^ 23 = v % 2 ^ 23 := by
    rw [rdn_putWord_twCmd, Nat.mod_mod_of_dvd _ (by decide)]
    exact (twCmd_blend _ _).1
  unfold fget bits
  rw [hr]
  have key : ∀ x, x / 2 ^ f.lo % 2 ^ (f.hi + 1 - f.lo) = x % 2 ^ 23 / 2 ^ f.lo % 2 ^ (f.hi + 1 - f.lo) := fun x => by
    rw [show 2 ^ 23 = 2 ^ f.lo * 2 ^ (23 - f.lo) by rw [← pow_add]; congr 1; omega, Nat.mod_mul_right_div_self,
      Nat.mod_mod_of_dvd _ (pow_dvd_pow 2 (by omega))]
  rw [key, hm, ← key]

theorem fbit_putWord_twCmd (b : TwNo) (v : Nat) (s : State) (h : fbit s fTW_CMD_BUSY (two b.val) = false) :
    fbit (putWord (TW_CMD + two b.val) v s) fTW_CMD_BUSY (two b.val) = false := by
  have hm : (rdn (putWord (TW_CMD + two b.val) v s) (TW_CMD + two b.val)) / 2 ^ 30 % 2 = rdn s (TW_CMD + two b.val) / 2 ^ 30 % 2 := by
    rw [rdn_putWord_twCmd]
    have := (twCmd_blend (rdn s (TW_CMD + two b.val)) v).2
    omega
  exact (congrArg (fun x => decide (x = 1)) hm).trans h

/-- A GO of a write of at most 64 bytes makes the command BUSY with its operands as written. -/
theorem twCmd_begun (b : TwNo) (v : Nat) (s : State) (h31 : bit v 31 = true) (hb : fbit s fTW_CMD_BUSY (two b.val) = false)
    (hw : bits v 7 0 ≤ 64) : fbit (twPut (TW_CMD + two b.val) v s) fTW_CMD_BUSY (two b.val) = true ∧
      ∀ f : Fld, f.reg = TW_CMD → f.lo ≤ f.hi → f.hi < 23 →
        fget (twPut (TW_CMD + two b.val) v s) f (two b.val) = bits (v % 2 ^ 30) f.hi f.lo := by
  have hb' := fbit_putWord_twCmd b (v % 2 ^ 30) s hb
  have hw' : ¬ 64 < fget (putWord (TW_CMD + two b.val) (v % 2 ^ 30) s) fTW_CMD_WLEN (two b.val) := by
    rw [fget_putWord_twCmd b _ s fTW_CMD_WLEN rfl (by decide) (by decide)]
    unfold bits at *
    simp only at *
    omega
  rw [twPut_cmd b v s h31, twGo, if_neg (by rw [hb']; decide)]
  simp only [hw', if_false]
  refine ⟨fbit_fbset_same _ fTW_CMD_BUSY true _, fun f hr hf hh => ?_⟩
  rw [fbset, fget_fset_field _ _ f _ _ _ (by rw [hr]) (by decide) (by decide) hf (.inr (Nat.lt_trans hh (by decide))), fget_congr (updTw_regs _ _ _),
    fget_putWord_twCmd b _ s f hr hf hh]

/-- A lost arbitration as TW_ARB, its event and its counter record it, with the controller off the bus. -/
def arbRecorded (o y i : Nat) (s : State) : State :=
  fbset (evtCnt (fset (fset (fbset s fTW_ARB_VALID true o) fTW_ARB_BYTE y o) fTW_ARB_BIT i o) fTW_EVT_ARB_LOST TW_CNT_ARB o)
    fTW_STAT_CTRL_ACTIVE false o

theorem twSt_congr {s t : State} (h : t.tw = s.tw) (b : Nat) : twSt t b = twSt s b := by
  unfold twSt
  simp only [h]

theorem twSt_arbRecorded (o y i b : Nat) (s : State) : twSt (arbRecorded o y i s) b = twSt s b := by
  refine twSt_congr ?_ b
  rw [arbRecorded, fbset_tw, evtCnt, evt_tw, cnt_tw, fset_tw, fset_tw, fbset_tw]

theorem fget_arbRecorded (b : TwNo) (y i : Nat) (s : State) :
    fget (arbRecorded (two b.val) y i s) fTW_ARB_BYTE (two b.val) = y % 256 ∧
      fget (arbRecorded (two b.val) y i s) fTW_ARB_BIT (two b.val) = i % 8 := by
  have hk : ∀ (t : State) (f : Fld), f.reg = 0x70014 →
      fget (fbset (evtCnt t fTW_EVT_ARB_LOST TW_CNT_ARB (two b.val)) fTW_STAT_CTRL_ACTIVE false (two b.val)) f (two b.val) =
        fget t f (two b.val) := fun t f hf => by
    unfold fbset
    rw [fget_fset_reg _ _ _ _ _ _ (by rw [hf]; simp)]
    refine (fget_evt_other _ _ _ _ _ (by rw [hf]; simp) (by rw [hf]; exact tw_not_irq b (by decide) (by decide))).trans ?_
    exact fget_wrn_apart _ _ _ _ _ (by rw [hf]; rfl)
  unfold arbRecorded
  constructor
  · rw [hk _ _ rfl, fget_fset_apart _ _ _ _ _ rfl, fget_fset_same _ fTW_ARB_BYTE]
    rfl
  · rw [hk _ _ rfl, fget_fset_same _ fTW_ARB_BIT]
    rfl

/-- What a lost arbitration leaves while RETRY allows another try. -/
theorem twArbLoss_retries (b : TwNo) (y i : Nat) (s : State) (h1 : (twSt s b.val).run ≠ .none) (h2 : (twSt s b.val).run ≠ .stopping)
    (h3 : twRetries (twSt s b.val) < fget s fTW_CFG_RETRY (two b.val)) :
    (twSt (twArbLoss b.val y i s) b.val).run = .none ∧ (twSt (twArbLoss b.val y i s) b.val).again = (twSt s b.val).run ∧
      fget (twArbLoss b.val y i s) fTW_ARB_BYTE (two b.val) = y % 256 ∧ fget (twArbLoss b.val y i s) fTW_ARB_BIT (two b.val) = i % 8 := by
  have he : ∃ f, twArbLoss b.val y i s = updTw (arbRecorded (two b.val) y i s) b.val f ∧ ∀ x, (f x).run = .none ∧ (f x).again = x.run := by
    refine ⟨_, (if_neg h1).trans (if_pos ⟨h2, h3⟩), fun x => ⟨rfl, rfl⟩⟩
  obtain ⟨f, he, hf⟩ := he
  obtain ⟨hy, hi⟩ := fget_arbRecorded b y i s
  rw [he, twSt_updTw_same, twSt_arbRecorded, fget_congr (updTw_regs _ _ _), fget_congr (updTw_regs _ _ _)]
  exact ⟨(hf _).1, (hf _).2, hy, hi⟩

/-- The Alert Response Address, read and won, clears REQ (R308). -/
theorem alertWon_effect (b : TwNo) (s : State) (o : Out) :
    fbit (emit (evt (fbset s fTW_ALERT_REQ false (two b.val)) fTW_EVT_ALERT_WON (two b.val)) o) fTW_ALERT_REQ (two b.val) = false ∧
      fbit (emit (evt (fbset s fTW_ALERT_REQ false (two b.val)) fTW_EVT_ALERT_WON (two b.val)) o) fTW_EVT_ALERT_WON (two b.val) = true := by
  refine ⟨?_, ?_⟩
  · rw [fbit, fget_congr (emit_regs _ _), fget_evt_other _ _ _ _ _ (by simp) (tw_not_irq b (by decide) (by decide))]
    exact fbit_fbset_same s fTW_ALERT_REQ false _
  · rw [fbit, fget_congr (emit_regs _ _)]
    exact fbit_evt_same _ _ _ rfl (by decide) (tw_not_irq b (by decide) (by decide))

/-- A block write whose length byte is right is committed (R299). -/
theorem twWrite_block {b a : Nat} {a1 : Bool} {code n : Byte} {d : List Byte} {s : State} (h5 : enType (twEntry s b code.toNat) = 5)
    (hp : enPec (twEntry s b code.toNat) = false) (hn : n.toNat = d.length) (hd : d ≠ []) :
    twWrite b a a1 (code :: n :: d) .stop s = twCommit b (twRecord code.toNat d false false a1) s := by
  have h0 : d.length ≠ 0 := fun h => hd (List.length_eq_zero_iff.mp h)
  have hb : twBody (twEntry s b code.toNat) false (n :: d) = some (d, []) := by
    simp only [twBody, h5, hn, h0, Bool.false_eq_true, Nat.lt_irrefl, or_self, or_false, true_or, if_true, if_false,
      show ¬ 5 = 1 by decide, show ¬ 5 = 2 by decide, show ¬ 5 = 3 by decide, show ¬ 5 = 4 by decide, show ¬ 5 = 6 by decide,
      List.take_length, List.drop_length]
  have hs : (TwClose.stop == .rsRead) = false := rfl
  simp only [twWrite, hs, hb, hp, Bool.false_eq_true, false_and, if_false, show ¬ TwClose.stop = .rsInAck by decide,
    show ¬ TwClose.stop = .misplaced by decide, show ¬ TwClose.stop = .rsRead by decide]

theorem twWrite_type_zero {b a : Nat} {a1 : Bool} {code : Byte} {l : List Byte} {s : State}
    (h : enType (twEntry s b code.toNat) = 0) : twWrite b a a1 (code :: l) .stop s = twDiscard b s := by
  have hb : twBody (twEntry s b code.toNat) false l = none := by
    simp only [twBody, h, Bool.false_eq_true, if_false, show ¬ (0 = 1 ∨ 0 = 3 ∨ 0 = 6) by decide, show ¬ (0 = 2 ∨ 0 = 4) by decide,
      show ¬ (0 = 5 ∨ 0 = 7) by decide]
  have hs : (TwClose.stop == .rsRead) = false := rfl
  simp only [twWrite, hs, hb, if_false, show ¬ TwClose.stop = .rsInAck by decide, show ¬ TwClose.stop = .misplaced by decide,
    show ¬ TwClose.stop = .rsRead by decide]

theorem twCommandGo_covered {ag : Agent} {b : TwNo} {v : BitVec 32} {s : State} (h : ag = .dennil ∨ leased s 0x10 none = true) :
    exec (.twCommandGo ag b v) s = .next (twGo b.val (putWord (TW_CMD + two b.val) (v.toNat % 2 ^ 30) s)) := by
  have h31 : bit (setBits v.toNat 31 31 1) 31 = true := by
    have := v.isLt
    rw [bit_eq_bits]
    simp [setBits, bits]
    omega
  have h30 : setBits v.toNat 31 31 1 % 2 ^ 30 = v.toNat % 2 ^ 30 := by
    have := v.isLt
    simp only [setBits, bits]
    omega
  simp only [exec, execTwCommandGo, gated_of_covered h, twPut_cmd b _ s h31, h30]

theorem twTargetRead_own {b : TwNo} {a : BitVec 7} {n : Nat} {w : Bool} {s : State} {a1 : Bool} (ht : twTarget s b.val = true)
    (ha : s.rs.asleep = false) (hne : a ≠ 0x0C#7) (ho : twOwn s b.val a.toNat = some a1) (hk : twReadAcked s b.val = true)
    {all : List Nat} (hall : all = twReadData s b.val ++ [pec (twReadHead s b.val a.toNat ++ twReadData s b.val)]) {t : State}
    (hs : t = emit (updTw s b.val (fun x => { x with sampled := none }))
      (.twSend b.val (((all ++ List.replicate (n - all.length) 0xFF).take n).map (BitVec.ofNat 8)))) :
    exec (.twTargetRead b a n w none) s = .next (if all.length < n then evt t fTW_EVT_TX_UNDER (two b.val) else t) := by
  have hne' : ¬ a.toNat = 0x0C := fun h => hne (BitVec.eq_of_toNat_eq h)
  subst hall hs
  simp only [exec, execTwTargetRead, twTargetRead, twRoleSwitch, ht, ha, ho, hk, hne', Bool.not_true, Bool.or_self,
    Bool.false_eq_true, if_false]

theorem twTargetRead_answered {b : TwNo} {a : BitVec 7} {n : Nat} {w : Bool} {s : State} {a1 : Bool} (ht : twTarget s b.val = true)
    (ha : s.rs.asleep = false) (hne : a ≠ 0x0C#7) (ho : twOwn s b.val a.toNat = some a1) (hk : twReadAcked s b.val = true)
    {all : List Nat} (hall : all = twReadData s b.val ++ [pec (twReadHead s b.val a.toNat ++ twReadData s b.val)])
    (hn : n ≤ all.length) : exec (.twTargetRead b a n w none) s = .next (emit (updTw s b.val (fun x => { x with sampled := none }))
      (.twSend b.val ((all.take n).map (BitVec.ofNat 8)))) := by
  refine (twTargetRead_own ht ha hne ho hk hall rfl).trans ?_
  rw [if_neg (Nat.not_lt.mpr hn), List.take_append_of_le_length hn]

theorem twTargetRead_beyond {b : TwNo} {a : BitVec 7} {n : Nat} {w : Bool} {s : State} {a1 : Bool} (ht : twTarget s b.val = true)
    (ha : s.rs.asleep = false) (hne : a ≠ 0x0C#7) (ho : twOwn s b.val a.toNat = some a1) (hk : twReadAcked s b.val = true)
    {all : List Nat} (hall : all = twReadData s b.val ++ [pec (twReadHead s b.val a.toNat ++ twReadData s b.val)])
    (hn : all.length < n) : exec (.twTargetRead b a n w none) s = .next (evt (emit (updTw s b.val (fun x => { x with sampled := none }))
      (.twSend b.val ((all ++ List.replicate (n - all.length) 0xFF).map (BitVec.ofNat 8)))) fTW_EVT_TX_UNDER (two b.val)) := by
  refine (twTargetRead_own ht ha hne ho hk hall rfl).trans ?_
  rw [if_pos hn, List.take_of_length_le (by simp; omega)]

/-- The fields of the word that TW_XFER writes to TW_CMD. -/
theorem twXferWord_fields {p q a r w v : Nat} (hp : p < 2) (hq : q < 2) (ha : a < 128) (hr : r ≤ 40) (hw : w ≤ 64)
    (hv : v = 2 ^ 31 + p * 2 ^ 29 + q * 2 ^ 28 + a * 65536 + r * 256 + w) :
    bit v 31 = true ∧ (bits v 7 0 = w ∧ bits (v % 2 ^ 30) 7 0 = w) ∧ bits (v % 2 ^ 30) 15 8 = r ∧ bits (v % 2 ^ 30) 22 16 = a := by
  rw [bit_eq_bits, decide_eq_true_eq]
  obtain ⟨t, ht, hv⟩ : ∃ t, t < 4 ∧ v = 2 ^ 31 + t * 2 ^ 28 + a * 65536 + r * 256 + w := ⟨2 * p + q, by omega, by omega⟩
  subst hv
  refine ⟨?_, ⟨?_, ?_⟩, ?_, ?_⟩ <;> simp [bits] <;> omega

/-- TW_XFER with operands in range leaves its command BUSY with these operands, and waits. -/
theorem twXfer_waits {c : CmdCall} {s : State} (h : Accepted ⟨0x1090, 0x10, true, 16, 80, false, true⟩ c s) (hb6 : pb c 0 < 6)
    (hc : twController (mbTake c s) (pb c 0) = true) (ha : pb c 1 < 128) (hres : twReserved (pb c 1) = false) (hw : pb c 3 ≤ 64)
    (hr : pb c 4 ≤ 40) (hl : 16 + pb c 3 ≤ c.payload.length) (hb : fbit (mbTake c s) fTW_CMD_BUSY (two (pb c 0)) = false) :
    ∃ t, exec (.twXfer c) s = .next (holdDeferred ⟨0x1090, 0x10, true, 16, 80, false, true⟩ c true false t) ∧
      fbit t fTW_CMD_BUSY (two (pb c 0)) = true ∧ fget t fTW_CMD_ADDR (two (pb c 0)) = pb c 1 ∧
      fget t fTW_CMD_WLEN (two (pb c 0)) = pb c 3 ∧ fget t fTW_CMD_RLEN (two (pb c 0)) = pb c 4 := by
  have ha' : ¬ (127 < pb c 1 ∨ twReserved (pb c 1) = true) := by
    simp [hres]
    omega
  generalize hv : 2 ^ 31 + pb c 2 % 4 % 2 * 2 ^ 29 + pb c 2 % 4 / 2 * 2 ^ 28 + pb c 1 * 65536 + pb c 4 * 256 + pb c 3 = v
  generalize htx : forEach (List.range 16) (fun i t => wrn t (TW_TXBUF + two (pb c 0) + 4 * i)
    (u32At (fit 64 ((c.payload.drop 16).take (pb c 3))) (4 * i))) (mbTake c s) = x
  have hx : fbit x fTW_CMD_BUSY (two (pb c 0)) = false := by
    subst htx
    refine Eq.trans ?_ hb
    unfold fbit fget
    rw [rdn_forEach fun i t => rdn_wrn_other _ _ (by unfold TW_TXBUF; simp only; omega)]
  obtain ⟨p, q, hp, hq, hv'⟩ : ∃ p q, p < 2 ∧ q < 2 ∧
      v = 2 ^ 31 + p * 2 ^ 29 + q * 2 ^ 28 + pb c 1 * 65536 + pb c 4 * 256 + pb c 3 :=
    ⟨_, _, Nat.mod_lt _ (by decide), by omega, hv.symm⟩
  obtain ⟨h31, hwl, hrl, hal⟩ := twXferWord_fields hp hq ha hr hw hv'
  obtain ⟨hbusy, hf⟩ := twCmd_begun ⟨pb c 0, hb6⟩ v x h31 hx (by rwa [hwl.1])
  refine ⟨twPut (TW_CMD + two (pb c 0)) v x, congrArg Host.Outcome.next (mbRun_defer h ?_), hbusy, ?_, ?_, ?_⟩
  · subst hv htx
    simp only [runTwXfer, Nat.not_le.mpr hb6, hc, ha', Nat.not_lt.mpr hw, Nat.not_lt.mpr hr, Nat.not_lt.mpr hl, hb, Bool.not_true,
      Bool.false_eq_true, if_false]
  · exact (hf fTW_CMD_ADDR rfl (by decide) (by decide)).trans hal
  · exact (hf fTW_CMD_WLEN rfl (by decide) (by decide)).trans hwl.2
  · exact (hf fTW_CMD_RLEN rfl (by decide) (by decide)).trans hrl

/-- Settles O46: each row by the branch that its hypotheses select. -/
theorem twoWireRowsComplete : Obligations.TwoWireRowsComplete := by
  unfold Obligations.TwoWireRowsComplete
  refine ⟨fun ag b v s u h hu hb => ⟨fun hw => ?_, fun hw => ?_⟩, fun b s u r hc hf hr hu hru hne => ?_,
    fun b n d data y i s u hr hu hd hl => ?_, fun b n w d x y i s h1 h2 hw => ⟨?_, ?_, ?_, ?_⟩, fun b n d x st y i s h => ?_,
    fun b y i s u h1 h2 h3 hu => hu ▸ twArbLoss_retries b y i s h1 h2 h3, fun b s he ht hr => ?_, fun b s u he ht hr hu => ?_,
    fun b s u he ht hr hu => ⟨fun h => ?_, fun h hc => ⟨?_, ?_⟩⟩, fun b s he hr => ⟨?_, fun h => ?_, fun h => ?_⟩,
    fun sp c s u hsp h hu hb6 hc ha hres hw hr hl hb => ?_, fun b a l s u a1 ht ha ho hu => ⟨fun h => ?_, fun h => ?_⟩,
    fun b a l cl x s ho => ?_, fun b a a1 code n d s h5 hp hn hd => twWrite_block h5 hp hn hd, fun b a a1 code l s h => twWrite_type_zero h,
    fun b a n w s a1 all ht ha hne ho hk hall hn => ?_, fun b a n w s a1 all ht ha hne ho hk hall hn => ?_,
    fun b a n w x s a1 ht ha hne ho hk => ?_, fun b n s ht ha hq hara => ?_, fun ag b r s h hne => ?_, fun b s h => ?_, fun b s => ?_,
    fun b s ha he hw => ?_, fun b a1 s ha => ?_, fun sp c s u p hsp h hu hb hp hw mine hm => ?_,
    fun sp c s u e o hsp h hu hb ht h1 h256 hl he hty hroom ho => ?_⟩
  · rw [twCommandGo_covered h, ← hu, twGo, if_neg (by rw [hb]; decide)]
    simp only [Nat.not_lt.mpr hw, if_false]
  · rw [twCommandGo_covered h, ← hu, twGo, if_neg (by rw [hb]; decide)]
    simp only [hw, if_true]
  · subst hru
    have hr' : ((twSt s b.val).run != .none) = false := by simp [hr]
    simp only [exec, execTwTransactionStart, twStart, hc, hf, hr', ← hu, hne, Bool.not_true, Bool.or_self, Bool.false_eq_true, if_false]
  · subst hu
    have hcmd : ¬ (twSt (twStop b.val s) b.val).run ≠ .cmd := by
      rw [twStop, twSt_updTw_same, twSt_congr (fbset_tw ..), hr]
      simp
    have hfull : decide (255 < data.length) = false := decide_eq_false (by omega)
    simp only [exec, execTwTransactionEnd, twEnd, hr, twDone, hcmd, ← hd, hfull, Option.map_none, Fin.val_zero, Bool.false_eq_true,
      if_false, if_true, show ¬ TwRun.cmd = .none by decide, show ¬ TwRun.cmd = .stopping by decide]
  · exact congrArg Host.Outcome.next ((if_neg h1).trans (if_neg h2))
  · subst hw
    exact congrArg Host.Outcome.next ((if_neg h1).trans (if_neg h2))
  · exact congrArg Host.Outcome.next ((if_neg h1).trans (if_neg h2))
  · subst hw
    exact congrArg Host.Outcome.next ((if_neg h1).trans (if_neg h2))
  · simp only [exec, execTwTransactionEnd, twEnd, h, show ¬ TwRun.stopping = .none by decide, if_false, if_true]
  · simp only [exec, execTwSclTimeout, twSclTimeout, he, ht, hr, Bool.not_true, Bool.or_self, Bool.false_eq_true, if_false, ne_eq,
      not_false_eq_true, if_true]
  · refine ⟨freeVal u % (fget s fTW_CMD_WLEN (two b.val) + 1), freeVal (useFree u) % (fget s fTW_CMD_RLEN (two b.val) + 1),
      Nat.le_of_lt_succ (Nat.mod_lt _ (Nat.succ_pos _)), Nat.le_of_lt_succ (Nat.mod_lt _ (Nat.succ_pos _)), ?_⟩
    subst hu
    simp only [exec, execTwSclTimeout, twSclTimeout, he, ht, hr, Bool.not_true, Bool.or_self, Bool.false_eq_true, if_false, ne_eq,
      not_true_eq_false]
  · subst hu
    have hg : (!fbit s fTW_CFG_EN (two b.val) || decide (fget s fTW_TMO_SDA_MS (two b.val) = 0) ||
        (twSt s b.val).run != .none) = false := by simp [he, ht, hr]
    simp only [exec, execTwSdaTimeout, twSdaTimeout, hg, h, Bool.false_and, Bool.false_eq_true, if_false]
  · subst hu
    have hg : (!fbit s fTW_CFG_EN (two b.val) || decide (fget s fTW_TMO_SDA_MS (two b.val) = 0) ||
        (twSt s b.val).run != .none) = false := by simp [he, ht, hr]
    simp only [exec, execTwSdaTimeout, twSdaTimeout, hg, h, hc, Bool.and_self, Bool.false_eq_true, if_false, if_true]
  · subst hu
    have hg : (!fbit s fTW_CFG_EN (two b.val) || decide (fget s fTW_TMO_SDA_MS (two b.val) = 0) ||
        (twSt s b.val).run != .none) = false := by simp [he, ht, hr]
    simp only [exec, execTwSdaTimeout, twSdaTimeout, hg, h, hc, Bool.and_self, Bool.false_eq_true, if_false, if_true]
  · simp only [exec, execStartStopCondition, twCondition, he, hr, Bool.not_true, bne_self_eq_false, Bool.or_self, Bool.false_eq_true,
      if_false, if_true]
  · simp only [exec, execStartStopCondition, twCondition, he, hr, h, Bool.not_true, bne_self_eq_false, Bool.or_self,
      Bool.false_eq_true, if_false, if_true]
  · simp only [exec, execStartStopCondition, twCondition, he, hr, h, Bool.not_true, bne_self_eq_false, Bool.or_self,
      Bool.false_eq_true, if_false]
  · subst hsp hu
    exact twXfer_waits h hb6 hc ha hres hw hr hl hb
  · subst hu
    simp only [exec, execTwTargetCommit, twTargetWrite, ht, ha, ho, twRoleSwitch, h, Fin.val_zero, Bool.not_true, Bool.or_self,
      Bool.false_eq_true, if_false, if_true]
  · subst hu
    simp only [exec, execTwTargetCommit, twTargetWrite, ht, ha, ho, twRoleSwitch, h, Fin.val_zero, Bool.not_true, Bool.or_self,
      Bool.false_eq_true, if_false]
  · refine congrArg Host.Outcome.next ?_
    simp only [twTargetWrite, ho, ite_self]
  · exact twTargetRead_answered ht ha hne ho hk hall hn
  · exact twTargetRead_beyond ht ha hne ho hk hall hn
  · have hne' : ¬ a.toNat = 0x0C := fun h => hne (BitVec.eq_of_toNat_eq h)
    simp only [exec, execTwTargetRead, twTargetRead, ht, ha, ho, hk, hne', Bool.not_true, Bool.not_false, Bool.or_self,
      Bool.false_eq_true, if_false, if_true]
  · obtain ⟨h1, h2⟩ := alertWon_effect b (emit s (.twSend b.val [BitVec.ofNat 8 (2 * fget s fTW_ADDR_A0 (two b.val))]))
      (.pin "TW_ALERT_N" b.val true)
    refine ⟨_, congrArg Host.Outcome.next ?_, h1, h2⟩
    have hc : (0x0C#7).toNat = 0x0C := rfl
    simp only [twTargetRead, ht, ha, hq, hara, hc, twRoleSwitch, Bool.not_true, Bool.or_self, Bool.and_self, Bool.false_eq_true,
      if_false, if_true]
  · have hg : ¬ fbit s fTW_ALERT_REQ (two b.val) = r := hne
    simp only [exec, execTwAlertRequest, gated_of_covered h, twAlertReq, hg, if_false]
    cases r
    · simp only [Bool.false_eq_true, if_false, id]
    · simp only [if_true]
  · simp only [exec, execTwAlertInEdge, twAlertIn, h, Bool.not_false, Bool.and_self, if_true]
  · simp only [exec, execTwAlertInEdge, twAlertIn, Bool.false_and, Bool.false_eq_true, if_false]
  · simp only [exec, execTwWakeMatch, twWake, ha, he, hw, Bool.and_self, Bool.false_eq_true, if_false, if_true]
  · simp only [exec, execTwWakeMatch, twWake, ha, Bool.false_and, Bool.false_eq_true, if_false]
  · subst hsp hu
    refine congrArg Host.Outcome.next (mbRun_ok h ?_)
    have hown : p.writes.any (fun w => decide (w.1 = TW_ADDR + two (pb c 0)) && ((bit w.2 15 && twReserved (bits w.2 6 0)) ||
        (bit w.2 31 && twReserved (bits w.2 22 16)))) = false :=
      List.any_eq_false.mpr fun w hm => by simp [hw w hm]
    subst hm
    simp only [runTwLoadProfile, Nat.not_le.mpr hb, hp, hown, Bool.false_eq_true, if_false]
  · subst hsp hu
    refine congrArg Host.Outcome.next (mbRun_ok h ?_)
    have hm : ¬ (pw c 2 = 0 ∨ 256 < pw c 2) := by omega
    have hty' : ¬ (¬ (enType e = 3 ∨ enType e = 4 ∨ enType e = 6 ∨ enType e = 7) ∨ twRoom (mbTake c s) (pb c 0) (pw c 2) = []) := by
      simp [hty, hroom]
    simp only [runTwTgtResp, Nat.not_le.mpr hb, ht, hm, Nat.not_lt.mpr hl, ← he, hty', ← ho, Bool.not_true, Bool.false_eq_true,
      if_false]

end Sys2Proof.Machine
end

section
/-! The Abutment. -/

namespace Sys2Proof.Machine

set_option Elab.async false
set_option Elab.async false

/-! ## Regions of the local space -/

/-- The regions are a matter of AB_CTL and of the region registers. -/
theorem abRegion_of_reads {s t : State} (h : ∀ x, x = AB_CTL ∨ AB_REG_CTL ≤ x → rdn t x = rdn s x) (off : Nat) :
    abRegion t off = abRegion s off := by
  have hen : fbit t fAB_CTL_EN = fbit s fAB_CTL_EN := by
    unfold fbit fget
    rw [show fAB_CTL_EN.reg + 0 = AB_CTL from rfl, h _ (Or.inl rfl)]
  have hreg : ∀ r, fbit t fAB_REG_CTL_EN (abo r) = fbit s fAB_REG_CTL_EN (abo r) ∧
      rdn t (AB_REG_BASE + abo r) = rdn s (AB_REG_BASE + abo r) ∧ rdn t (AB_REG_SIZE + abo r) = rdn s (AB_REG_SIZE + abo r) := by
    intro r
    refine ⟨?_, h _ (Or.inr (by simp only [AB_REG_CTL, AB_REG_BASE]; omega)), h _ (Or.inr (by simp only [AB_REG_CTL, AB_REG_SIZE]; omega))⟩
    unfold fbit fget
    rw [h (fAB_REG_CTL_EN.reg + abo r) (Or.inr (by simp only [AB_REG_CTL]; omega))]
  simp only [abRegion, hen, fun r => (hreg r).1, fun r => (hreg r).2.1, fun r => (hreg r).2.2]

theorem abLocal_of_reads {s t : State} (h : ∀ x, x = AB_CTL ∨ AB_REG_CTL ≤ x → rdn t x = rdn s x) (r off : Nat) :
    abLocal t r off = abLocal s r off := by
  have hlb : rdn t (AB_REG_LB + abo r) = rdn s (AB_REG_LB + abo r) := h _ (Or.inr (by simp only [AB_REG_CTL, AB_REG_LB]; omega))
  have hb : rdn t (AB_REG_BASE + abo r) = rdn s (AB_REG_BASE + abo r) := h _ (Or.inr (by simp only [AB_REG_CTL, AB_REG_BASE]; omega))
  simp only [abLocal, hlb, hb]

/-- A count of the Abutment's leaves the registers that place the regions. -/
theorem rdn_cnt_region (s : State) {a : Nat} (h : AB_CTL < a ∧ a < AB_REG_CTL) (x : Nat) (hx : x = AB_CTL ∨ AB_REG_CTL ≤ x) :
    rdn (cnt s a) x = rdn s x := rdn_cnt_other s (by omega)

/-- A region that holds an offset is enabled and reaches over it. -/
theorem abRegion_holds {s : State} {off r : Nat} (h : abRegion s off = some r) : r < 8 ∧ fbit s fAB_REG_CTL_EN (abo r) = true ∧
    rdn s (AB_REG_BASE + abo r) ≤ off ∧ off < rdn s (AB_REG_BASE + abo r) + rdn s (AB_REG_SIZE + abo r) := by
  simp only [abRegion] at h
  split at h
  · cases h
  · have hr := List.find?_some h
    have hm := List.mem_of_find?_eq_some h
    simp only [Bool.and_eq_true, decide_eq_true_eq] at hr
    exact ⟨List.mem_range.mp hm, hr.1, hr.2.1, hr.2.2⟩

/-! ## The outbound side -/

/-- What is sent stands in front of what was sent before. -/
theorem emit_outbox (s : State) (o : Out) : (emit s o).outbox = o :: s.outbox := rfl

/-- Of the device's own state a beat changes what its change says. -/
@[simp] theorem updAb_ab (f : AbSt → AbSt) (s : State) : (updAb f s).ab = f s.ab := by
  simp -implicitDefEqProofs [updAb]

@[simp] theorem updAb_outbox (f : AbSt → AbSt) (s : State) : (updAb f s).outbox = s.outbox := by
  simp -implicitDefEqProofs [updAb]

/-- An access of Dennil to W2 of one whole dword. -/
theorem memoryRequest_dennil_dword (dw : BitVec 34) (d : List Byte) (tag : BitVec 10) (po : Bool) (k : ReadCheck) (s : State) :
    exec (.memoryRequest .dennil .read dw 1 15 0 d tag po k) s = .next (abAccess .dennil 0 (4 * dw.toNat) 4 [] false none s) ∧
    exec (.memoryRequest .dennil .write dw 1 15 0 d tag po k) s =
      .next (abAccess .dennil 0 (4 * dw.toNat) 4 (fit 4 d) true none s) := by
  have hc : ¬ (1 : BitVec 10) = 0 := by decide
  have hen : enables (1 : BitVec 10).toNat (15 : BitVec 4).toNat (0 : BitVec 4).toNat = [true, true, true, true] := by decide
  have hs : enabledSpan [true, true, true, true] = (0, 4) := by decide
  refine ⟨congrArg Host.Outcome.next ?_, congrArg Host.Outcome.next ?_⟩
  · simp only [memoryRequest, hc, hen, if_true, if_false, dennilAccess, hs, Nat.add_zero]
    rfl
  · simp only [memoryRequest, hc, hen, if_true, if_false, dennilAccess]
    obtain ⟨b0, b1, b2, b3, hf⟩ : ∃ b0 b1 b2 b3, fit 4 d = [b0, b1, b2, b3] := by
      have hl := fit_length 4 d
      match hd : fit 4 d with
      | [b0, b1, b2, b3] => exact ⟨b0, b1, b2, b3, rfl⟩
      | [] | [_] | [_, _] | [_, _, _] | _ :: _ :: _ :: _ :: _ :: _ => simp [hd] at hl
    have hr : byteRuns [(true, b0), (true, b1), (true, b2), (true, b3)] (4 * dw.toNat) [] = [(4 * dw.toNat, [b0, b1, b2, b3])] := by
      simp [byteRuns]
    simp only [List.length_cons, List.length_nil, Nat.zero_add, Nat.reduceAdd, hf, List.zip_cons_cons, List.zip_nil_right, hr,
      forEach, List.foldl]

/-- A list of no beats leaves nothing to settle. -/
theorem abRun_of_none_waiting {s : State} (hr : s.ab.reqs = []) (hp : s.ab.posted = []) : abRun s = s := by
  simp [abRun, abSettle, abNext, hr, hp]

/-- The four bytes of an aligned dword are those of the beat that was read. -/
theorem abBytes_dword {q : AbReq} {v : Nat} (ho : q.off % 4 = 0) (hl : q.len = 4) (hg : q.got = [some v]) : abBytes q = leBytes 4 v := by
  have hn : (q.off + 4 + 3) / 4 - q.off / 4 = 1 := by omega
  simp [abBytes, hl, hn, ho, hg, leBytes]

/-- A beat of a locked sequence that ends well is counted and driven at its local address. -/
theorem lockBeat_good {s : State} {b : AbBeat} {r : Nat} (w : Bool) (h : abRegion s b.off = some r) :
    lockBeat w b 0 s = emit (cnt s (if w then AB_CNT_OUT_WR else AB_CNT_OUT_RD)) (.localBus w (abLocal s r b.off) b.be b.data) := by
  have hl : abLocal (cnt s (if w then AB_CNT_OUT_WR else AB_CNT_OUT_RD)) r b.off = abLocal s r b.off :=
    abLocal_of_reads (rdn_cnt_region s (by cases w <;> decide)) r b.off
  simp only [lockBeat, h, if_true, hl]

/-- What the reads of a locked sequence that was answered in full leave at its head. -/
def lockedDone (q : AbReq) (v : Nat) : AbReq := { q with beats := [], got := [some v], fail := none }

/-- The state of a one-beat Swap whose two beats end well, before its completion. -/
def swapBeats (s : State) (q : AbReq) (b : AbBeat) (n : Nat) : State :=
  lockPin q true s (lockBeat true { b with data := n % 2 ^ 32 } 0 (lockBeat false b 0 (lockPin q false s (cnt s AB_CNT_ATOMIC))))

/-- A first Swap of one beat drives its read and its write, and is then at its end. -/
theorem lockedRun_swap {s : State} {q : AbReq} {b : AbBeat} {n r v : Nat} (hbus : s.ab.bus = .idle) (hq : s.ab.reqs = [q])
    (ha : q.after = 0) (hop : q.atomic = some (1, [n])) (hb : q.beats = [b]) (hr : abRegion s b.off = some r) :
    lockedRun [(0, v), (0, 0)] s =
      abRun (abComplete (lockedDone q v) (updAb (fun a => { a with reqs := [lockedDone q v], extRun := 0 }) (swapBeats s q b n))) := by
  simp [lockedRun, hbus, hq, ha, hop, hb, hr, respCode, atomicNew, nth, forEach, lockedDone, swapBeats]

/-- A Swap's two beats are counted and driven between LOCK_N's edges. -/
theorem swapBeats_eq {s : State} {q : AbReq} {b : AbBeat} {n r : Nat} (hb : q.beats = [b]) (hr : abRegion s b.off = some r) :
    swapBeats s q b n = emit (emit (cnt (emit (cnt (emit (cnt s AB_CNT_ATOMIC) (.pin "LOCK_N" 0 false)) AB_CNT_OUT_RD)
      (.localBus false (abLocal s r b.off) b.be b.data)) AB_CNT_OUT_WR)
      (.localBus true (abLocal s r b.off) b.be (n % 2 ^ 32))) (.pin "LOCK_N" 0 true) := by
  have hpin : ∀ l t, lockPin q l s t = emit t (.pin "LOCK_N" 0 l) := fun l t => by simp [lockPin, hb, hr]
  have h1 : ∀ x, x = AB_CTL ∨ AB_REG_CTL ≤ x → rdn (emit (cnt s AB_CNT_ATOMIC) (.pin "LOCK_N" 0 false)) x = rdn s x :=
    fun x hx => (rdn_emit ..).trans (rdn_cnt_region s (by decide) x hx)
  have h2 : ∀ x, x = AB_CTL ∨ AB_REG_CTL ≤ x → rdn (emit (cnt (emit (cnt s AB_CNT_ATOMIC) (.pin "LOCK_N" 0 false)) AB_CNT_OUT_RD)
      (.localBus false (abLocal s r b.off) b.be b.data)) x = rdn s x :=
    fun x hx => (rdn_emit ..).trans ((rdn_cnt_region _ (by decide) x hx).trans (h1 x hx))
  have hrd := lockBeat_good false ((abRegion_of_reads h1 b.off).trans hr)
  simp only [Bool.false_eq_true, if_false, abLocal_of_reads h1 r b.off] at hrd
  have hwr := lockBeat_good (b := { b with data := n % 2 ^ 32 }) true ((abRegion_of_reads h2 b.off).trans hr)
  simp only [if_true, abLocal_of_reads h2 r b.off] at hwr
  simp only [swapBeats, hpin, hrd, hwr]

theorem swapBeats_outbox {s : State} {q : AbReq} {b : AbBeat} {n r : Nat} (hb : q.beats = [b]) (hr : abRegion s b.off = some r) :
    (swapBeats s q b n).outbox = .pin "LOCK_N" 0 true :: .localBus true (abLocal s r b.off) b.be (n % 2 ^ 32) ::
      .localBus false (abLocal s r b.off) b.be b.data :: .pin "LOCK_N" 0 false :: s.outbox := by
  rw [swapBeats_eq hb hr]
  simp -implicitDefEqProofs only [emit_outbox, cnt_outbox]

theorem swapBeats_ab {s : State} {q : AbReq} {b : AbBeat} {n r : Nat} (hb : q.beats = [b]) (hr : abRegion s b.off = some r) :
    (swapBeats s q b n).ab = s.ab := by
  rw [swapBeats_eq hb hr]
  simp -implicitDefEqProofs only [emit_ab, cnt_ab]

/-- A locked sequence at its end that is alone completes with what it read, and nothing is left to drive. -/
theorem abRun_lockedDone {t : State} {q : AbReq} (v : Nat) (hp : t.ab.posted = []) (hl : q.len = 4) (hv : q.void = false)
    (hw : q.write = false) (ho : q.off % 4 = 0) (f : AbSt → AbSt) (hf : f = fun a => { a with reqs := [lockedDone q v], extRun := 0 }) :
    (abRun (abComplete (lockedDone q v) (updAb f t))).outbox = .completion q.ag q.tag 0 (leBytes 4 v) false :: t.outbox ∧
    (abRun (abComplete (lockedDone q v) (updAb f t))).ab.reqs = [] := by
  have hd : abBytes (lockedDone q v) = leBytes 4 v := abBytes_dword ho hl rfl
  have h1 : (lockedDone q v).void = false := hv
  have h2 : (lockedDone q v).write = false := hw
  have h3 : (lockedDone q v).fail = none := rfl
  generalize hu : updAb f t = u
  have hc : abComplete (lockedDone q v) u =
      emit (updAb (fun a => { a with reqs := a.reqs.drop 1 }) u) (.completion q.ag q.tag 0 (leBytes 4 v) false) := by
    simp only [abComplete, h1, h2, h3, hd, Bool.false_eq_true, if_false]
    rfl
  have hub : u.ab = { t.ab with reqs := [lockedDone q v], extRun := 0 } := by rw [← hu, updAb_ab, hf]
  have huo : u.outbox = t.outbox := by rw [← hu, updAb_outbox]
  have hreqs : (emit (updAb (fun a => { a with reqs := a.reqs.drop 1 }) u)
      (.completion q.ag q.tag 0 (leBytes 4 v) false)).ab.reqs = [] := by rw [emit_ab, updAb_ab, hub]; rfl
  have hposted : (emit (updAb (fun a => { a with reqs := a.reqs.drop 1 }) u)
      (.completion q.ag q.tag 0 (leBytes 4 v) false)).ab.posted = [] := by rw [emit_ab, updAb_ab, hub]; exact hp
  rw [hc, abRun_of_none_waiting hreqs hposted]
  exact ⟨by rw [emit_outbox, updAb_outbox, huo], hreqs⟩

/-- A sole Swap whose two beats end well completes with the old value. -/
theorem lockedSequence_swap {s : State} {q : AbReq} {b : AbBeat} {n r v : Nat} (hbus : s.ab.bus = .idle) (hq : s.ab.reqs = [q])
    (hp : s.ab.posted = []) (ha : q.after = 0) (hop : q.atomic = some (1, [n])) (hl : q.len = 4) (hb : q.beats = [b])
    (hv : q.void = false) (hw : q.write = false) (ho : q.off % 4 = 0) (hr : abRegion s b.off = some r) :
    ∃ u, exec (.lockedSequence [(0, v), (0, 0)]) s = .next u ∧
    u.outbox = .completion q.ag q.tag 0 (leBytes 4 v) false :: .pin "LOCK_N" 0 true ::
      .localBus true (abLocal s r b.off) b.be (n % 2 ^ 32) :: .localBus false (abLocal s r b.off) b.be b.data ::
      .pin "LOCK_N" 0 false :: s.outbox ∧ u.ab.reqs = [] := by
  have hposted : (swapBeats s q b n).ab.posted = [] := by rw [swapBeats_ab hb hr, hp]
  obtain ⟨hout, hreqs⟩ := abRun_lockedDone v hposted hl hv hw ho _ rfl
  refine ⟨_, congrArg Host.Outcome.next (lockedRun_swap hbus hq ha hop hb hr), ?_, hreqs⟩
  rw [hout, swapBeats_outbox hb hr]

/-! ## The error log and the inbound side -/

/-- A failure while `i` is the lowest free slot of the log (R320). -/
theorem abFail_of_freeSlot {s : State} {i : Nat} (addr m r code : Nat) (w : Bool)
    (hfree : (List.range 8).find? (fun i => !fbit s fAB_LOG_INFO_VALID (i * 0x10)) = some i) :
    abFail addr w m r code s = emFire 0x39 (evt (wrn (wrn (wrn (cnt s AB_CNT_ERR) (AB_LOG_ADDR + i * 0x10) addr)
      (AB_LOG_STAMP + i * 0x10) (now s)) (AB_LOG_INFO + i * 0x10)
      (2 ^ 31 + (if w then 2 ^ 30 else 0) + m * 2 ^ 28 + r * 2 ^ 24 + code)) fAB_EVT_ERR) := by
  simp only [abFail, hfree]

/-- The data of a delayed read's completion go into its entry. -/
theorem delayedReadComplete_fills {i : Fin 8} {v : Word} {s : State} {d : AbRead} {t : Nat} {r : NpReq}
    (hd : s.ab.dr.getD i.val none = some d) (ht : d.tag = some t) (hr : npOf s t = some r) (hv : r.void = false)
    (ho : r.owner = .delayed i.val) (htag : r.tag = t) :
    exec (.delayedReadComplete i 0 v) s = .next (drFill i.val (some v.toNat) (npEnd t s)) := by
  have hb : (s.ab.dr.getD i.val none).bind (fun d => d.tag) = some t := by rw [hd]; exact ht
  have hu : u32At (leBytes 4 v.toNat) 0 = v.toNat := by
    simpa using u32At_append [] [] v.toNat v.isLt
  subst htag
  simp only [exec, execDelayedReadComplete, hb, completionIn, hr, hv, Fin.val_zero, ne_eq, not_true_eq_false, Bool.false_eq_true,
    if_false, ownerData, ho, hu]

/-- A read of a log slot answers its word, clears VALID and keeps every other register. -/
theorem abLogInfoRead_effect (ag : Agent) (i : Fin 8) (s : State) : ∃ t, exec (.abLogInfoRead ag i) s = .next t ∧
    t.outbox = .readData ag (rdn s (AB_LOG_INFO + i.val * 0x10)) :: s.outbox ∧ fbit t fAB_LOG_INFO_VALID (i.val * 0x10) = false ∧
    (∀ a, a ≠ AB_LOG_INFO + i.val * 0x10 → rdn t a = rdn s a) := by
  refine ⟨_, rfl, ?_, fbit_fbset_same _ fAB_LOG_INFO_VALID _ _, fun a ha => ?_⟩
  · simp only [fbset_outbox, emit_outbox]
  · exact (rdn_fset_other _ fAB_LOG_INFO_VALID _ _ ha).trans (rdn_emit ..)

/-! ## The commands -/

/-- A configuration that nothing open and no bound stands against is written and run. -/
theorem abConfigure_allowed {l : List (Nat × Nat)} {s : State} (ho : abOpen s = false) (hv : abValid (putWords l s) = true) :
    abConfigure l s = (abRun (putWords l s), .ok []) := by
  simp only [abConfigure, ho, hv, Bool.not_true, Bool.false_eq_true, if_false]

/-- Settles O47: each row takes the branch that its conditions choose. -/
theorem abutmentRowsComplete : Obligations.AbutmentRowsComplete := by
  refine ⟨?_, ?_, ?_, ?_, ?_, ?_, ?_, ?_, ?_, ?_, ?_, ?_, ?_, ?_, ?_, ?_, ?_, ?_, ?_, ?_, ?_, ?_, ?_, ?_, ?_, ?_, ?_⟩
  · intro r0 r1 s m req hen hbus hf hreq hm
    have he : req.isEmpty = false := by
      cases req with
      | nil => cases hm
      | cons x xs => rfl
    refine congrArg Host.Outcome.next ?_
    simp only [abGrant, ← hreq, hen, hbus, hf, he, hm, Bool.not_true, ne_eq, not_true_eq_false, decide_false, Bool.or_self,
      Bool.false_eq_true, false_and, if_false]
  · intro r0 r1 s hbus
    refine congrArg Host.Outcome.next ?_
    simp only [abGrant, ne_eq, hbus, not_false_eq_true, decide_true, Bool.or_true, Bool.true_or, if_true]
  · intro s b r hbus hn hr
    refine congrArg Host.Outcome.next ?_
    simp only [beatStart, hbus, ne_eq, not_true_eq_false, if_false, hn, hr, Bool.true_or, if_true]
  · intro s b r q l hbus hn hq hw hr
    refine congrArg Host.Outcome.next ?_
    simp only [beatStart, hbus, ne_eq, not_true_eq_false, if_false, hn, hq, hw, hr, Bool.or_self, Bool.false_eq_true]
  · exact memoryRequest_dennil_dword
  · exact fun s off r => abRegion_holds
  · intro d s hbus
    refine ⟨congrArg Host.Outcome.next ?_, congrArg Host.Outcome.next ?_, congrArg Host.Outcome.next ?_, congrArg Host.Outcome.next ?_⟩ <;>
      obtain hbus | hbus := hbus <;> simp [hbus]
  · intro i d s hbus
    refine ⟨congrArg Host.Outcome.next ?_, congrArg Host.Outcome.next ?_⟩ <;> simp only [hbus]
  · intro s b l hbus hp
    simp only [beatEnd, hbus, hp, Option.isNone_some, Bool.false_eq_true, if_false]
  · intro i d m s hbus
    refine congrArg Host.Outcome.next ?_
    simp only [hbus, extEnd]
  · exact fun addr m r code w s i => abFail_of_freeSlot addr m r code w
  · intro v n s q b r hbus hq hp ha hop hl hb hv _ hw _ ho hr _
    exact lockedSequence_swap hbus hq hp ha hop hl hb hv hw ho hr
  · intro resp s hq
    refine congrArg Host.Outcome.next ?_
    cases hbus : s.ab.bus <;> simp only [lockedRun, hbus, hq]
  · exact fun old x size => ⟨rfl, rfl⟩
  · exact fun old c x size => rfl
  · intro m a d be w s hw hbus hd hl
    refine congrArg Host.Outcome.next ?_
    simp only [inWrite, hw, hbus, hd, Nat.not_le.mpr hl, ne_eq, not_true_eq_false, Bool.not_true, Bool.false_eq_true, if_false, lbAnswer]
  · intro m a d be w s hw hbus hd
    refine congrArg Host.Outcome.next ?_
    simp only [inWrite, hw, hbus, hd, ne_eq, not_true_eq_false, Bool.not_false, if_false, if_true, lbAnswer]
  · intro m a d be s hw
    exact ⟨congrArg Host.Outcome.next (by simp only [inWrite, hw]), congrArg Host.Outcome.next (by simp only [inRead, hw])⟩
  · intro m a be w i s hw hbus hm hd hi d hdd
    refine congrArg Host.Outcome.next ?_
    simp only [inRead, hw, hbus, hm, hd, hi, ← hdd, ne_eq, not_true_eq_false, Bool.not_true, Bool.false_eq_true, if_false]
  · intro m a be w i v d s hw hbus hm hd hres ha
    refine congrArg Host.Outcome.next ?_
    simp only [inRead, hw, hbus, hm, hd, hres, ha, ne_eq, not_true_eq_false, if_false, lbAnswer]
  · exact fun i v s d t r hd ht hr hv ho htag => delayedReadComplete_fills hd ht hr hv ho htag
  · intro i s d hd hr
    refine congrArg Host.Outcome.next ?_
    simp only [drDiscard, hd, hr, if_true]
  · exact abLogInfoRead_effect
  · intro l s hen hl
    refine congrArg Host.Outcome.next ?_
    simp only [sbSample, hen, Bool.not_true, Bool.false_eq_true, if_false]
    exact forEach_id fun k hk => if_pos (Or.inl (hl k (List.mem_range.mp hk)))
  · intro k v s h
    have he : rdn (regBit s AB_SB_LEVEL k v) AB_SB_EDGE = rdn s AB_SB_EDGE := rdn_regBit_other s v (by decide)
    rw [he] at h
    simp only [sbChange, h, Bool.false_eq_true, if_false]
  · intro sp c s u hsp h hu ho hv
    subst hsp hu
    exact congrArg Host.Outcome.next (mbRun_ok h (abConfigure_allowed ho hv))
  · intro sp c s u p hsp h hu hp ho hv
    subst hsp hu
    refine congrArg Host.Outcome.next (mbRun_ok h ?_)
    simp only [abLoadProfile, hp, abConfigure_allowed ho hv]

end Sys2Proof.Machine
end

section
/-! The evidence store. -/

namespace Sys2Proof.Machine

set_option Elab.async false
set_option Elab.async false

/-! ## Registers -/

/-- A state that differs in its registers alone keeps every other component. -/
theorem same_of_regs {s : State} (r : Sparse Word) : ∀ p : Comp, p ≠ .regs → p.same s { s with regs := r } := by
  intro p hp
  cases p
  case regs => exact absurd rfl hp
  all_goals rfl

/-- A 64-bit register pair just written reads the value modulo 2^64. -/
theorem reg64_wr64_same (s : State) (lo v : Nat) : reg64 (wr64 s lo v) lo = v % 2 ^ 64 := by
  have hlo : rdn (wr64 s lo v) lo = v % 2 ^ 32 := (rdn_wrn_other _ _ (by omega)).trans (rdn_wrn_same ..)
  have hhi : rdn (wr64 s lo v) (lo + 4) = v / 2 ^ 32 % 2 ^ 32 := rdn_wrn_same ..
  unfold reg64
  rw [hlo, hhi]
  omega

theorem reg64_wr64_other (s : State) {lo a : Nat} (v : Nat) (h : a + 8 ≤ lo ∨ lo + 8 ≤ a) : reg64 (wr64 s lo v) a = reg64 s a := by
  have hr : ∀ x, x = a ∨ x = a + 4 → rdn (wr64 s lo v) x = rdn s x := fun x hx =>
    (rdn_wrn_other _ _ (by omega)).trans (rdn_wrn_other _ _ (by omega))
  unfold reg64
  rw [hr a (Or.inl rfl), hr (a + 4) (Or.inr rfl)]

/-- What a client owes and pays leaves every register but its available amounts. -/
theorem rdn_tollBegin_elsewhere (s : State) (c : Nat) (costs : List (Nat × Nat)) {a : Nat}
    (h : ∀ rc ∈ costs, a ≠ TO_AVAIL + 4 * (4 * c + rc.1)) : rdn (tollBegin s c costs) a = rdn s a := by
  have step : ∀ (t : State) k, a ≠ TO_AVAIL + 4 * k → rdn (tollSettle k t) a = rdn t a := by
    intro t k hk
    simp only [tollSettle]
    split
    · rfl
    · simp only [tollTake]
      split
      · rfl
      · exact rdn_wrn_other t _ (by simp only [tollOfs]; omega)
  unfold tollBegin
  split
  · rfl
  · next hen =>
    clear hen
    induction costs generalizing s with
    | nil => rfl
    | cons x l ih =>
      rw [List.foldl_cons, ih _ (fun rc hrc => h rc (List.mem_cons_of_mem _ hrc))]
      exact step _ _ (h x (List.mem_cons_self ..))

/-- Client 39's charge leaves the registers of the evidence store. -/
theorem rdn_maintCost (part ops n : Nat) (s : State) {a : Nat} (h : EV_CTL ≤ a) : rdn (maintCost part ops n s) a = rdn s a := by
  unfold maintCost
  split
  · rfl
  · refine rdn_tollBegin_elsewhere s 39 _ fun rc hrc => ?_
    simp only [List.mem_cons, List.not_mem_nil, or_false] at hrc
    simp only [EV_CTL] at h
    obtain rfl | rfl | rfl := hrc <;> simp only [TO_AVAIL] <;> omega

theorem fget_maintCost (part ops n : Nat) (s : State) (f : Fld) (h : EV_CTL ≤ f.reg) : fget (maintCost part ops n s) f = fget s f := by
  unfold fget
  rw [rdn_maintCost part ops n s (by omega)]

theorem maintCost_ev (part ops n : Nat) (s : State) : (maintCost part ops n s).ev = s.ev := kept_of_sound .ev maintCost_sound

/-! ## The maintenance of the medium -/

/-- A codeword that is read outside a running evacuation. -/
theorem codewordRead_corrected {p i w b f k : Nat} {s v : State} (hr : evRunning s = true) (hv : v = maintCost p (1 + k) (1 + k) s) :
    (p = 4 ∨ b ∈ s.ev.refreshDue ∨ (f ≤ fget s fEV_PATROL_REFRESH_THR ∧ k < max 1 (fget s fEV_PATROL_REFRESH_STEP)) →
      codewordRead p i w b k f false s = if k ≠ 0 then cnt v EV_CNT_LADDER else v) ∧
    (p < 4 → b ∉ s.ev.refreshDue → (fget s fEV_PATROL_REFRESH_THR < f ∨ max 1 (fget s fEV_PATROL_REFRESH_STEP) ≤ k) →
      ∃ t, codewordRead p i w b k f false s = t ∧ t.ev.refreshDue = s.ev.refreshDue ++ [b] ∧
        t.regs = (if k ≠ 0 then cnt v EV_CNT_LADDER else v).regs) := by
  have hthr : fget v fEV_PATROL_REFRESH_THR = fget s fEV_PATROL_REFRESH_THR := hv ▸ fget_maintCost _ _ _ s _ (by decide)
  have hstep : fget v fEV_PATROL_REFRESH_STEP = fget s fEV_PATROL_REFRESH_STEP := hv ▸ fget_maintCost _ _ _ s _ (by decide)
  have hev : v.ev = s.ev := hv ▸ maintCost_ev _ _ _ s
  have hev1 : (if k ≠ 0 then cnt v EV_CNT_LADDER else v).ev = s.ev := by split <;> simp only [cnt_ev, hev]
  simp only [codewordRead, hr, Bool.not_true, Bool.false_eq_true, if_false, ← hv, hthr, hstep, hev, List.contains_iff_mem]
  generalize (if k ≠ 0 then cnt v EV_CNT_LADDER else v) = u at hev1 ⊢
  refine ⟨fun h => if_neg fun hc => ?_, fun hp hb hbound => ⟨_, if_pos ⟨hp, hbound, hb⟩, ?_, rfl⟩⟩
  · obtain ⟨hp, hbound, hb⟩ := hc
    obtain h | h | ⟨h1, h2⟩ := h
    · omega
    · exact hb h
    · omega
  · exact congrArg (· ++ [b]) (congrArg EvSt.refreshDue hev1)

/-- A refresh of a listed block outside EVID. -/
theorem blockRefresh_listed {p b : Nat} {s v : State} (u : Bool) (hr : evRunning s = true) (hb : b ∈ s.ev.refreshDue) (hp : p ≠ 4)
    (hv : v = evtCnt (maintCost p (2 * s.ev.hdr.blockCw + 4) (2 * s.ev.hdr.blockCw)
      { s with ev := { s.ev with refreshDue := s.ev.refreshDue.erase b } }) fEV_EVT_REFRESH EV_CNT_REFRESH) :
    blockRefresh p b u s = if u then markBad p b v else v := by
  have hg : (!evRunning s || !s.ev.refreshDue.contains b || p == 4) = false := by simp [hr, hb, hp]
  simp only [blockRefresh, hg, Bool.false_eq_true, if_false, ← hv]

/-! ## Compaction -/

theorem mem_calInsert {e x : CalEntry} {l : List CalEntry} : x ∈ calInsert e l ↔ x = e ∨ x ∈ l := by
  induction l with
  | nil => simp [calInsert]
  | cons y l ih =>
    simp only [calInsert]
    split <;> simp [ih] <;> tauto

/-- An entry goes before the first one of a higher TYPE. -/
theorem calInsert_sorted {e : CalEntry} {l : List CalEntry} (h : l.Pairwise (fun a b => a.type ≤ b.type)) :
    (calInsert e l).Pairwise (fun a b => a.type ≤ b.type) := by
  induction l with
  | nil => simp [calInsert]
  | cons y l ih =>
    obtain ⟨hy, hl⟩ := List.pairwise_cons.mp h
    simp only [calInsert]
    split
    · next hlt =>
      refine List.pairwise_cons.mpr ⟨fun x hx => ?_, h⟩
      obtain rfl | hx := List.mem_cons.mp hx
      · omega
      · have := hy x hx; omega
    · next hge =>
      refine List.pairwise_cons.mpr ⟨fun x hx => ?_, ih hl⟩
      obtain rfl | hx := mem_calInsert.mp hx
      · omega
      · exact hy x hx

theorem mem_foldl_calInsert {x : CalEntry} (q l : List CalEntry) :
    x ∈ q.foldl (fun l e => calInsert e l) l ↔ x ∈ q ∨ x ∈ l := by
  induction q generalizing l with
  | nil => simp
  | cons y q ih => simp only [List.foldl_cons, ih, mem_calInsert, List.mem_cons]; tauto

theorem foldl_calInsert_sorted (q : List CalEntry) {l : List CalEntry} (h : l.Pairwise (fun a b => a.type ≤ b.type)) :
    (q.foldl (fun l e => calInsert e l) l).Pairwise (fun a b => a.type ≤ b.type) := by
  induction q generalizing l with
  | nil => exact h
  | cons y q ih => exact ih (calInsert_sorted h)

/-- Compaction keeps exactly the entries in use, TYPE rising. -/
theorem calCompact_effect {s : State} (hr : evRunning s = true) : ∃ t, calCompact s = t ∧
    t = { s with ev := { s.ev with cal := t.ev.cal } } ∧
    (∀ e, e ∈ t.ev.cal ↔ e ∈ s.ev.cal ∧ calInUse s e.type e.head e.phase = some e) ∧
    t.ev.cal.Pairwise (fun a b => a.type ≤ b.type) := by
  refine ⟨_, rfl, ?_⟩
  simp only [calCompact, hr, Bool.not_true, Bool.false_eq_true, if_false, true_and]
  refine ⟨fun e => ?_, foldl_calInsert_sorted _ List.Pairwise.nil⟩
  rw [mem_foldl_calInsert]
  simp [calIsUsed]

/-! ## Erase credits -/

/-- What an accrual leaves in the four sums. -/
theorem creditAccrue_sums {s : State} {rate bal sum : Nat} (hrate : rate = rdn s EV_CRED_RATE) (hsum : sum = reg64 s EV_CRED_BAL_LO + rate)
    (hbal : bal = min (max 1 (fget s fEV_CRED_CAP_HOURS) * 3600000 * rate) sum) :
    reg64 (creditAccrue s) EV_CRED_BAL_LO = bal % 2 ^ 64 ∧
    reg64 (creditAccrue s) EV_CRED_GRANTED_LO = (reg64 s EV_CRED_GRANTED_LO + rate) % 2 ^ 64 ∧
    reg64 (creditAccrue s) EV_CRED_FORFEIT_LO = (reg64 s EV_CRED_FORFEIT_LO + (sum - bal)) % 2 ^ 64 ∧
    reg64 (creditAccrue s) EV_CRED_SPENT_LO = reg64 s EV_CRED_SPENT_LO := by
  simp only [creditAccrue, ← hrate, ← hsum, ← hbal]
  refine ⟨?_, ?_, ?_, ?_⟩
  · rw [reg64_wr64_other _ _ (by decide), reg64_wr64_other _ _ (by decide), reg64_wr64_same]
  · rw [reg64_wr64_other _ _ (by decide), reg64_wr64_same, Nat.mod_mod]
  · rw [reg64_wr64_same, Nat.mod_mod]
  · rw [reg64_wr64_other _ _ (by decide), reg64_wr64_other _ _ (by decide), reg64_wr64_other _ _ (by decide)]

theorem wr64_regs {s t : State} (lo v : Nat) (h : ∃ r, t = { s with regs := r }) : ∃ r, wr64 t lo v = { s with regs := r } := by
  obtain ⟨r, rfl⟩ := h
  exact ⟨_, rfl⟩

theorem creditAccrue_regs (s : State) : ∃ r, creditAccrue s = { s with regs := r } := by
  simp only [creditAccrue]
  exact wr64_regs _ _ (wr64_regs _ _ (wr64_regs _ _ ⟨_, rfl⟩))

/-- What is granted stays what is spent, held and forfeited. -/
theorem creditAccrue_balanced {s : State}
    (h : reg64 s EV_CRED_GRANTED_LO = (reg64 s EV_CRED_SPENT_LO + reg64 s EV_CRED_BAL_LO + reg64 s EV_CRED_FORFEIT_LO) % 2 ^ 64) :
    reg64 (creditAccrue s) EV_CRED_GRANTED_LO = (reg64 (creditAccrue s) EV_CRED_SPENT_LO + reg64 (creditAccrue s) EV_CRED_BAL_LO +
      reg64 (creditAccrue s) EV_CRED_FORFEIT_LO) % 2 ^ 64 := by
  obtain ⟨hb, hg, hf, hs⟩ := creditAccrue_sums (s := s) rfl rfl rfl
  rw [hb, hg, hf, hs, h]
  have hle : min (max 1 (fget s fEV_CRED_CAP_HOURS) * 3600000 * rdn s EV_CRED_RATE) (reg64 s EV_CRED_BAL_LO + rdn s EV_CRED_RATE) ≤
      reg64 s EV_CRED_BAL_LO + rdn s EV_CRED_RATE := Nat.min_le_right ..
  generalize min (max 1 (fget s fEV_CRED_CAP_HOURS) * 3600000 * rdn s EV_CRED_RATE) (reg64 s EV_CRED_BAL_LO + rdn s EV_CRED_RATE) = m at hle ⊢
  omega

/-! ## Records -/

/-- Four bytes hold a number modulo 2^32. -/
theorem u32At_leBytes (a b : List Byte) (v : Nat) : u32At (a ++ leBytes 4 v ++ b) a.length = v % 2 ^ 32 := by
  have hm : leBytes 4 v = leBytes 4 (v % 2 ^ 32) := by
    simp only [leBytes, List.cons.injEq, and_true]
    refine ⟨?_, ?_, ?_, ?_⟩ <;> apply BitVec.eq_of_toNat_eq <;> simp only [BitVec.toNat_ofNat] <;> omega
  rw [hm]
  exact u32At_append a b _ (Nat.mod_lt _ (by decide))

theorem zeros_length (n : Nat) : (zeros n).length = n := by simp [zeros]

/-- What of a record follows its header. -/
def recBody (d : EvDue) : List Byte := (pad64 (zeros 64 ++ d.tile)).drop 64

theorem recBody_length (d : EvDue) : (recBody d).length = (d.tile.length + 63) / 64 * 64 := by
  simp only [recBody, pad64, List.length_drop, List.length_append, zeros_length]
  omega

/-- The header of a record after its length, and its body. -/
def recRest (s : State) (d : EvDue) : List Byte :=
  let t := leBytes 4 d.owner ++ leBytes 1 d.outcome ++ leBytes 1 d.action ++ leBytes 2 d.flags ++ leBytes 4 s.ev.bootSeq ++
    leBytes 8 d.stamp ++ leBytes 6 d.tb2 ++ leBytes 1 d.tb2State ++ [0#8] ++ leBytes 4 d.launch ++ leBytes 2 d.dur ++ zeros 14
  t ++ leBytes 4 (crc32 (leBytes 4 0x4345525A ++ leBytes 4 (64 + (recBody d).length) ++ leBytes 4 d.id ++ t ++ recBody d)) ++ recBody d

theorem recBytes_eq (s : State) (d : EvDue) :
    recBytes s d = leBytes 4 0x4345525A ++ leBytes 4 (64 + (recBody d).length) ++ leBytes 4 d.id ++ recRest s d := by
  simp only [recBytes, recRest, recBody, List.append_assoc]

theorem recBytes_length (s : State) (d : EvDue) : (recBytes s d).length = 64 + (recBody d).length := by
  simp only [recBytes_eq, recRest, List.length_append, leBytes_length, zeros_length, List.length_cons, List.length_nil]
  omega

/-- A record's magic, length and ID. -/
theorem recBytes_begins (s : State) (d : EvDue) : u32At (recBytes s d) 0 = 0x4345525A ∧
    u32At (recBytes s d) 4 = (recBytes s d).length % 2 ^ 32 ∧ u32At (recBytes s d) 8 = d.id % 2 ^ 32 := by
  rw [recBytes_length]
  refine ⟨?_, ?_, ?_⟩
  · have h := u32At_leBytes [] (leBytes 4 (64 + (recBody d).length) ++ leBytes 4 d.id ++ recRest s d) 0x4345525A
    simpa only [recBytes_eq, List.nil_append, List.length_nil, List.append_assoc, Nat.reducePow, Nat.reduceMod] using h
  · have h := u32At_leBytes (leBytes 4 0x4345525A) (leBytes 4 d.id ++ recRest s d) (64 + (recBody d).length)
    simpa only [recBytes_eq, leBytes_length, List.append_assoc] using h
  · have h := u32At_leBytes (leBytes 4 0x4345525A ++ leBytes 4 (64 + (recBody d).length)) (recRest s d) d.id
    simpa only [recBytes_eq, List.length_append, leBytes_length, List.append_assoc] using h

/-- A record joins the last superblock. -/
theorem recPut_last {s : State} {b : EvSb} (d : EvDue) (bs : List Byte) (h : s.ev.sbs.getLast? = some b) :
    (recPut d bs s).ev.sbs.getLast? = some { b with
      used := b.used + bs.length
      recs := b.recs ++ [⟨d.id, d.stamp, s.ev.bootSeq, b.used / 64, bs, false⟩] } := by
  simp only [recPut, h, emit_ev, cnt_ev, List.getLast?_concat]

/-! ## The log -/

/-- The log changes nothing but the store's own state, and of it not the minutes of power. -/
theorem logWrite_effect (s : State) (k : Nat) (d : List Byte) :
    (logWrite s k d).ev.powerMin = s.ev.powerMin ∧ (logWrite s k d).regs = s.regs := by
  simp only [logWrite]
  split <;> exact ⟨rfl, rfl⟩

/-- The log of a medium with room takes a record whole. -/
theorem logWrite_room {s : State} {n : Nat} (k : Nat) (d : List Byte) (h : fget s fEV_STAT_STATE = 2) (hp : partRoom s.ev.hdr 4 = some n)
    (hl : s.ev.log.length < n / 64) :
    logWrite s k d = { s with ev := { s.ev with log := s.ev.log ++ [⟨k, s.ev.bootSeq, extTb1 s, fit 44 d⟩] } } := by
  have hpast : (s.ev.log ++ [(⟨k, s.ev.bootSeq, extTb1 s, fit 44 d⟩ : LogRec)]).length - n / 64 = 0 := by
    rw [List.length_append, List.length_singleton]
    omega
  simp only [logWrite, h, ne_eq, not_true_eq_false, if_false, hp, hpast, List.drop_zero]

/-! ## The oldest due record -/

/-- A due record that the store takes up goes one of its four ways. -/
theorem evidenceWrite_due {g e a : Nat} {s : State} {d : EvDue} {l : List EvDue} {k : ReadCheck} {u : State} (hd : s.ev.due = d :: l)
    (hr : evRunning s = true) (hen : fbit s fEV_CTL_EN = true) (hu : u = lp5Check k a { s with ev := { s.ev with due := l } }) :
    (∀ cut, k = .failed → evidenceWrite g e cut k a s = evt (cnt u EV_CNT_DROP_STAGE) fEV_EVT_DROP) ∧
    (∀ cut, k ≠ .failed → recShort s (recBytes s d).length cut = true →
      evidenceWrite g e cut k a s = evt (cnt (tollShort u 34 true) EV_CNT_DROP_TOLL) fEV_EVT_DROP) ∧
    (∀ cut, k ≠ .failed → recShort s (recBytes s d).length cut = false → sbFits u (recBytes s d).length = true →
      evidenceWrite g e cut k a s = recPut d (recBytes s d) (tollBegin u 34 (recCosts (recBytes s d).length))) ∧
    (∀ (cut : Bool) (v : State), k ≠ .failed → recShort s (recBytes s d).length cut = false → sbFits u (recBytes s d).length = false →
      v = ringRegs { u with ev := { u.ev with isOpen := false } } →
      (g = 0 ∨ reg64 v EV_CRED_BAL_LO < g * 2 ^ 32 → evidenceWrite g e cut k a s = evt (cnt v EV_CNT_DROP_CRED) fEV_EVT_DROP) ∧
      (g ≠ 0 → g * 2 ^ 32 ≤ reg64 v EV_CRED_BAL_LO → evidenceWrite g e cut k a s = recPut d (recBytes s d)
        (tollBegin (tollBegin (sbOpen g e v) 34 [(3, 4 * g + 1)]) 34 (recCosts (recBytes s d).length)))) := by
  simp only [evidenceWrite, hd, hr, hen, ← hu, Bool.not_true, Bool.or_self, Bool.false_eq_true, if_false]
  refine ⟨fun cut hk => if_pos hk, fun cut hk hs => (if_neg hk).trans (if_pos hs), fun cut hk hs hf => ?_, fun cut v hk hs hf hv => ?_⟩
  · simp only [hk, hs, hf, Bool.false_eq_true, if_false, if_true]
  · simp only [hk, hs, hf, ← hv, Bool.false_eq_true, if_false]
    exact ⟨fun hc => if_pos hc, fun hg hc => if_neg (by omega)⟩

/-- Settles O48: each row takes the branch that its conditions choose. -/
theorem evidenceStoreRowsComplete : Obligations.EvidenceStoreRowsComplete := by
  refine ⟨?_, ?_, ?_, ?_, ?_, ?_, ?_, ?_, ?_, ?_, ?_, ?_, ?_, ?_, ?_, ?_, ?_, ?_, ?_, ?_, ?_, ?_, ?_⟩
  · intro p i w b f k s v hr hv
    obtain ⟨h1, h2⟩ := codewordRead_corrected (p := p.val) (i := i) (w := w) (b := b) (f := f) (k := k.val) hr hv
    refine ⟨congrArg Host.Outcome.next ?_, fun h => congrArg Host.Outcome.next (h1 h), fun hp hb hf => ?_⟩
    · simp only [codewordRead, hr, ← hv, Bool.not_true, Bool.false_eq_true, if_false, if_true]
    · obtain ⟨t, ht, hdue, hregs⟩ := h2 hp hb hf
      exact ⟨t, congrArg Host.Outcome.next ht, hdue, hregs⟩
  · intro p b last s hr hp
    have hg : ¬ (p.val = 0 ∧ last = true) := by rintro ⟨h1, h2⟩; simp [h1, h2] at hp
    refine congrArg Host.Outcome.next ?_
    simp only [programDone, hr, hg, Bool.not_true, Bool.false_eq_true, if_false, if_true]
  · intro b s hr
    refine congrArg Host.Outcome.next ?_
    simp only [programDone, hr, Fin.val_zero, and_self, Bool.not_true, Bool.false_eq_true, if_false, if_true]
  · intro p b last s hr hp
    have hg : ¬ (p.val = 0 ∧ nth (maintCost p.val 1 1 s).ev.spares 0 = 0) := by
      rw [maintCost_ev]
      rintro ⟨h1, h2⟩
      simp [h1, h2] at hp
    refine congrArg Host.Outcome.next ?_
    simp only [programDone, hr, hg, Bool.not_true, Bool.false_eq_true, if_false]
  · intro b last s hr hn
    have hg : (0 : Nat) = 0 ∧ nth (maintCost 0 1 1 s).ev.spares 0 = 0 := ⟨rfl, by rw [maintCost_ev, hn]⟩
    refine congrArg Host.Outcome.next ?_
    simp only [programDone, hr, Fin.val_zero, hg, and_self, Bool.not_true, Bool.false_eq_true, if_false, if_true]
  · intro p b s hr
    refine ⟨congrArg Host.Outcome.next ?_, congrArg Host.Outcome.next ?_⟩ <;>
      simp only [eraseDone, hr, Bool.not_true, Bool.false_eq_true, if_false, if_true]
  · intro s hr hen hp
    refine ⟨congrArg Host.Outcome.next ?_, fun hrun => congrArg Host.Outcome.next ?_⟩
    · simp only [patrolPass, hr, hen, hp, Bool.not_true, Bool.or_self, Bool.false_eq_true, if_false]
    · simp only [patrolPass, hr, hen, hp, hrun, Bool.not_true, Bool.or_self, Bool.false_eq_true, if_false, if_true]
  · intro p b s v hr hb hp hv
    exact ⟨congrArg Host.Outcome.next ((blockRefresh_listed false hr hb hp hv).trans (if_neg Bool.false_ne_true)),
      congrArg Host.Outcome.next ((blockRefresh_listed true hr hb hp hv).trans (if_pos rfl))⟩
  · intro p b u s hb
    have hg : (!evRunning s || !s.ev.refreshDue.contains b || p.val == 4) = true := by simp [hb]
    refine congrArg Host.Outcome.next ?_
    simp only [blockRefresh, hg, if_true]
  · intro s hr
    obtain ⟨t, ht, hc⟩ := calCompact_effect hr
    exact ⟨t, congrArg Host.Outcome.next ht, hc⟩
  · intro s
    obtain ⟨hb, hg, -, -⟩ := creditAccrue_sums (s := s) rfl rfl rfl
    obtain ⟨r, hregs⟩ := creditAccrue_regs s
    exact ⟨_, rfl, hb, hg, hregs ▸ same_of_regs r⟩
  · intro s t ht h
    obtain rfl := Host.Outcome.next.inj ht
    exact creditAccrue_balanced h
  · intro g e a s d l k u hd hr hen hu
    obtain ⟨h1, h2, h3, h4⟩ := evidenceWrite_due (g := g) (e := e) hd hr hen hu
    refine ⟨fun cut hk => congrArg Host.Outcome.next (h1 cut hk), fun cut hk hs => congrArg Host.Outcome.next (h2 cut hk hs),
      fun cut hk hs hf => congrArg Host.Outcome.next (h3 cut hk hs hf), fun cut v hk hs hf hv => ?_⟩
    obtain ⟨h5, h6⟩ := h4 cut v hk hs hf hv
    exact ⟨fun h => congrArg Host.Outcome.next (h5 h), fun hg h => congrArg Host.Outcome.next (h6 hg h)⟩
  · intro g e a c k s hd
    refine congrArg Host.Outcome.next ?_
    simp only [evidenceWrite, hd]
  · intro d bs s b h
    exact ⟨_, recPut_last d bs h, rfl, rfl, rfl⟩
  · exact fun d s => ⟨(recBytes_length s d).trans (by rw [recBody_length]), recBytes_begins s d⟩
  · intro s hr hd
    refine ⟨_, rfl, ?_⟩
    simp only [logPeriodic, hr, hd, Bool.not_true, Bool.or_self, Bool.false_eq_true, if_false]
    exact logWrite_effect ..
  · intro s x l hx hd
    refine congrArg Host.Outcome.next ?_
    simp only [faultRecord, hx, hd, Bool.not_true, Bool.false_eq_true, if_false]
  · exact fun k d s n h hp hl => logWrite_room k d h hp hl
  · intro sp c s u hsp h hu hr
    subst hsp hu
    exact congrArg Host.Outcome.next (mbRun_defer h (by simp only [runEvidRead, evCmd, hr, if_true]))
  · intro sp c s u hsp h hu hr
    subst hsp hu
    exact congrArg Host.Outcome.next (mbRun_defer h (by simp only [runEvidRead, evCmd, hr, if_true]))
  · intro sp c s u hsp h hu hr
    subst hsp hu
    exact congrArg Host.Outcome.next (mbRun_ok h (by simp only [runEvInfo, evCmd, hr, if_true]))
  · intro sp c s u hsp h hu hr
    subst hsp hu
    exact congrArg Host.Outcome.next (mbRun_defer h (by simp only [runEvidRead, evCmd, hr, if_true]))

end Sys2Proof.Machine
end

section
/-! The Toll and the memory. -/

namespace Sys2Proof.Machine

set_option Elab.async false
set_option Elab.async false

/-! ## MM_STAT while a lost channel is made known -/

section
variable {v : Nat} {s t : State}

theorem safeReg_mmStat : SafeReg MM_STAT := .inr (.inr (.inl rfl))

theorem Reads.evtBit {b i : Nat} (h : Reads MM_STAT v s) (hb : MM_STAT ≠ b) : Reads MM_STAT v (evtBit s b i) :=
  ((rdn_irqAt _ _ safeReg_mmStat.not_irq).trans (rdn_wrn_other s _ hb)).trans h

theorem Reads.evt {f : Fld} {o : Nat} (h : Reads MM_STAT v s) (hf : ¬ SafeReg (f.reg + o)) : Reads MM_STAT v (evt s f o) :=
  evt_reads safeReg_mmStat hf h

theorem Reads.setPa {a : Nat} {p : PaSt} (h : Reads a v s) : Reads a v { s with pa := p } := h

theorem Reads.setPorts {a p : Nat} {f : PortSt → PortSt} (h : Reads a v s) : Reads a v (updPort s p f) := h

theorem Reads.setRs {a : Nat} {r : RsSt} (h : Reads a v s) : Reads a v { s with rs := r } := h

theorem Reads.setEm {a : Nat} {e : EmSt} (h : Reads a v s) : Reads a v { s with em := e } := h

theorem Reads.setViews {a : Nat} {w : ViewSt} (h : Reads a v s) : Reads a v { s with views := w } := h

theorem Reads.setMem {a : Nat} {m : MemSt} (h : Reads a v s) : Reads a v { s with mem := m } := h

theorem Reads.setToll {a : Nat} {m : TollSt} (h : Reads a v s) : Reads a v { s with toll := m } := h

/-- What every element of a list leaves as it reads, the whole list leaves. -/
theorem forEach_reads_of_mem {α : Type} {l : List α} {f : α → State → State} {a : Nat} (h : Reads a v s)
    (hf : ∀ x ∈ l, ∀ t, Reads a v t → Reads a v (f x t)) : Reads a v (forEach l f s) := by
  induction l generalizing s with
  | nil => exact h
  | cons x l ih => exact ih (hf x (List.mem_cons_self ..) s h) (fun y hy => hf y (List.mem_cons_of_mem _ hy))

theorem captureAll_mmStat {c : Nat} (hc : c < 8) (h : Reads MM_STAT v s) : Reads MM_STAT v (captureAll s c) := by
  unfold captureAll
  extract_lets o s1 w
  have hs1 : Reads MM_STAT v s1 := forEach_reads_of_mem h (fun n hn _ ht => by
    have := List.mem_range.mp hn
    exact wrn_reads (by unfold MM_STAT TB_CAP_NS; omega) ht)
  exact fbset_reads (by unfold MM_STAT; simp only; omega) (wrn_reads (by unfold MM_STAT TB_CAP_HI23; omega)
    (wrn_reads (by unfold MM_STAT TB_CAP_HI01; omega) hs1))

theorem emOverrun_mmStat {i : Nat} (h : Reads MM_STAT v s) (hi : i < 192) : Reads MM_STAT v (emOverrun i s) :=
  (cnt_reads (by decide) (regBit_reads (by unfold MM_STAT EM_OVR; omega) h)).evt (by decide)

theorem emDrive_mmStat {k : Nat} {active : Bool} (hk : k < 16) (h : Reads MM_STAT v s) : Reads MM_STAT v (emDrive k active s) :=
  emit_reads (fbset_reads (by unfold MM_STAT; simp only; omega) h)

theorem emOutTask_mmStat {k : Nat} (h : Reads MM_STAT v s) (hk : k < 16) : Reads MM_STAT v (emOutTask k s) := by
  have hb : MM_STAT ≠ fEM_OUT_STAT_BUSY.reg + k * 8 := by simp only [MM_STAT]; omega
  unfold emOutTask
  extract_lets o
  refine .ite (fun _ => h) (fun _ => ?_)
  split
  · exact emDrive_mmStat hk h
  · exact h
  · exact .ite (fun _ => emOverrun_mmStat h (by omega))
      (fun _ => emDrive_mmStat hk (fbset_reads hb h))

theorem emCapTask_mmStat {c : Nat} (h : Reads MM_STAT v s) (hc : c < 8) : Reads MM_STAT v (emCapTask c s) := by
  unfold emCapTask
  extract_lets o s1
  have hs1 : Reads MM_STAT v s1 :=
    (cnt_reads (by unfold MM_STAT TB_CAP_CNT_OVR; omega) (emOverrun_mmStat h (by omega))).evt (by decide)
  exact .ite (fun _ => h) (fun _ => .ite (fun _ => .ite (fun _ => captureAll_mmStat hc hs1) (fun _ => hs1))
    (fun _ => captureAll_mmStat hc h))

theorem emGateTask_mmStat (h : Reads MM_STAT v s) : Reads MM_STAT v (emGateTask s) := by
  unfold emGateTask
  split
  · exact h
  · exact h.set

theorem emTask_mmStat {det : Nat → State → State} {i : Nat} (hdet : ∀ n t, n < 512 → Reads MM_STAT v t → Reads MM_STAT v (det n t))
    (h : Reads MM_STAT v s) : Reads MM_STAT v (emTask det i s) :=
  .ite (fun hi => emOutTask_mmStat h hi) (fun _ => .ite (fun _ => emCapTask_mmStat h (by omega)) (fun _ =>
    .ite (fun _ => emGateTask_mmStat h) (fun _ => .ite (fun _ => hdet _ _ (by omega) h) (fun _ =>
    .ite (fun _ => h.evtBit (by decide)) (fun _ => .ite (fun _ => h) (fun _ => .ite (fun _ => h) (fun _ => h.setEm)))))))

/-- A consumer that a producer is routed to is one of 192. -/
theorem emRoutes_lt {p i : Nat} (h : i ∈ emRoutes s p) : i < 192 := by
  have h6 := ((mem_emRoutes s p i).mp h).1
  omega

theorem emFireWith_mmStat {det : Nat → State → State} {ps : List Nat} (hdet : ∀ n t, n < 512 → Reads MM_STAT v t → Reads MM_STAT v (det n t))
    (h : Reads MM_STAT v s) : Reads MM_STAT v (emFireWith det ps s) := by
  unfold emFireWith
  extract_lets on s1 cs s2
  have hs1 : Reads MM_STAT v s1 := forEach_reads h (fun _ _ ht => ht.setEm)
  have hs2 : Reads MM_STAT v s2 := forEach_reads_of_mem hs1 (fun c hc _ ht => by
    have hlt : c < 192 := by
      obtain ⟨p, -, hp⟩ := List.mem_flatMap.mp (List.mem_dedup.mp (List.mem_of_mem_filter hc))
      exact emRoutes_lt hp
    exact regBit_reads (by unfold MM_STAT EM_COINC; omega) ht)
  exact .ite (fun _ => h) (fun _ => forEach_reads hs2 (fun _ _ ht => emTask_mmStat hdet ht))

theorem paCount_mmStat {n : Nat} (hn : n < 512) (h : Reads MM_STAT v s) : Reads MM_STAT v (paCount s n) := by
  unfold paCount paSetSticky
  extract_lets was m s1
  have hs1 : Reads MM_STAT v s1 := regBit_reads (by unfold MM_STAT PA_STICKY; omega) h
  exact cnt_reads (by have := paClass_lt s n; unfold MM_STAT PA_CNT; omega) (fset_reads (by decide) hs1)

theorem paLog_mmStat {n c : Nat} (h : Reads MM_STAT v s) : Reads MM_STAT v (paLog s n c) := by
  unfold paLog
  extract_lets i s1 src' s2 s3
  have hs1 : Reads MM_STAT v s1 := .ite (fun _ => Reads.evt (wrn_reads (by decide) h) (by decide)) (fun _ => h)
  have hs2 : Reads MM_STAT v s2 := hs1.setPa
  have hs3 : Reads MM_STAT v s3 := wrn_reads (by unfold MM_STAT PA_LOG_INFO; omega) hs2
  exact wrn_reads (by unfold MM_STAT PA_LOG_SEQ; omega) (wrn_reads (by unfold MM_STAT PA_LOG_STAMP; omega) hs3)

theorem paReact_mmStat {n c : Nat} (h : Reads MM_STAT v s) : Reads MM_STAT v (paReact s n c) := by
  unfold paReact
  extract_lets s1 s2 s3 src' s4 s5 src'2
  have hs1 : Reads MM_STAT v s1 := h.evtBit (by decide)
  have hs2 : Reads MM_STAT v s2 := .ite (fun _ => paLog_mmStat hs1) (fun _ => hs1)
  have hs3 : Reads MM_STAT v s3 := .ite (fun _ => fbset_reads (by decide) hs2) (fun _ => hs2)
  have hs4 : Reads MM_STAT v s4 := .ite (fun _ => fset_reads (by decide) hs3.setPa) (fun _ => hs3)
  have hs5 : Reads MM_STAT v s5 := .ite (fun _ => hs4) (fun _ => wrn_reads (by decide) (wrn_reads (by decide) hs4))
  exact .ite (fun _ => .ite (fun _ => hs5) (fun _ => hs5.setPa)) (fun _ => hs4)

theorem paPins_mmStat (h : Reads MM_STAT v s) : Reads MM_STAT v (paPins s) := by
  unfold paPins
  extract_lets div run s1 s2 src
  have hs1 : Reads MM_STAT v s1 := .ite (fun _ => h) (fun _ => emit_reads (fbset_reads (by decide) h))
  have hs2 : Reads MM_STAT v s2 := fbset_reads (by decide) hs1
  exact .ite (fun _ => emit_reads hs2.setPa) (fun _ => hs2)

theorem safeEnter_mmStat (h : Reads MM_STAT v s) : Reads MM_STAT v (safeEnter s) := by
  unfold safeEnter
  extract_lets s1 src
  have hs1 : Reads MM_STAT v s1 := Reads.evt (fbset_reads (by decide) h) (by decide)
  exact .ite (fun _ => h) (fun _ => actSafe_reads safeReg_mmStat (by unfold MM_STAT AC_BUS_CTL; omega) (paPins_mmStat hs1.setPa))

theorem paDetectCore_mmStat {n : Nat} (hn : n < 512) (h : Reads MM_STAT v s) : Reads MM_STAT v (paDetectCore n s) := by
  unfold paDetectCore
  extract_lets cls s0 src s1 s2 s3
  have hs1 : Reads MM_STAT v s1 := .ite (fun _ => (paCount_mmStat hn h).setRs) (fun _ => paCount_mmStat hn h)
  have hs2 : Reads MM_STAT v s2 := paReact_mmStat hs1
  have hs3 : Reads MM_STAT v s3 := .ite (fun _ => safeEnter_mmStat hs2) (fun _ => hs2)
  exact .ite (fun _ => .ite (fun _ => paNotice_reads safeReg_mmStat hs3) (fun _ => hs3)) (fun _ => hs1)

theorem paDetect_mmStat {n : Nat} (hn : n < 512) (h : Reads MM_STAT v s) : Reads MM_STAT v (paDetect n s) := by
  unfold paDetect
  extract_lets s1
  have hs1 : Reads MM_STAT v s1 := paDetectCore_mmStat hn h
  exact .ite (fun _ => forEach_reads hs1 (fun _ _ ht => emFireWith_mmStat (fun _ _ hn hu => paDetectCore_mmStat hn hu) ht)) (fun _ => hs1)

theorem indUpdate_mmStat {p : Nat} (h : Reads MM_STAT v s) : Reads MM_STAT v (indUpdate p s) := by
  unfold indUpdate
  extract_lets s1 m
  have hs1 : Reads MM_STAT v s1 := fbset_reads (by unfold MM_STAT; simp only; omega) h
  exact .ite (fun _ => hs1) (fun _ => emit_reads (hs1.setPorts))

theorem twAlertReq_mmStat {b : Nat} {x : Bool} (h : Reads MM_STAT v s) : Reads MM_STAT v (twAlertReq b x s) := by
  unfold twAlertReq twAlertIn
  extract_lets s1 o s2
  have hs1 : Reads MM_STAT v s1 := emit_reads (fbset_reads (by unfold MM_STAT; simp only; omega) h)
  have hs2 : Reads MM_STAT v s2 := fbset_reads (by unfold MM_STAT; simp only; omega) hs1
  refine .ite (fun _ => h) (fun _ => .ite (fun _ => .ite (fun _ => hs2.evt ?_) (fun _ => hs2)) (fun _ => hs1))
  simp only [SafeReg, o, two]
  omega

theorem logWrite_mmStat {k : Nat} {d : List Byte} (h : Reads MM_STAT v s) : Reads MM_STAT v (logWrite s k d) :=
  h.set (logWrite_effect s k d).2

theorem replaceNew_mmStat {i : Nat} (h : Reads MM_STAT v s) : Reads MM_STAT v (replaceNew i s) := by
  unfold replaceNew
  extract_lets s1 w s2 s3 s4 res s5
  have hs1 : Reads MM_STAT v s1 := h.evt (by decide)
  have hs2 : Reads MM_STAT v s2 := paNotice_reads safeReg_mmStat (useFree_reads hs1)
  have hs4 : Reads MM_STAT v s4 := logWrite_mmStat (twAlertReq_mmStat hs2)
  have hs5 : Reads MM_STAT v s5 := forEach_reads (useFree_reads hs4) (fun c t ht => by
    split
    · exact ht
    · exact (rdn_mbEvent_other c _ _ _ t (by decide)).trans ht)
  exact forEach_reads hs5 (fun _ _ ht => sendDennil_reads safeReg_mmStat (useFree_reads ht))

theorem replaceUpdate_mmStat (h : Reads MM_STAT v s) : Reads MM_STAT v (replaceUpdate s) := by
  unfold replaceUpdate replaceTo
  extract_lets old s1 s2 s3
  have hs1 : Reads MM_STAT v s1 := forEach_reads (wrn_reads (by decide) (wrn_reads (by decide) h)) (fun _ _ ht => indUpdate_mmStat ht)
  have hs2 : Reads MM_STAT v s2 := fbset_reads (by decide) hs1
  have hs3 : Reads MM_STAT v s3 := .ite (fun _ => hs2) (fun _ => emit_reads hs2)
  exact forEach_reads hs3 (fun _ _ ht => replaceNew_mmStat ht)

theorem setCap_mmStat {r n : Nat} (hr : r < 4) (h : Reads MM_STAT v s) : Reads MM_STAT v (setCap r n s) := by
  unfold setCap overUpdate
  extract_lets old s1 src o was s2
  have hs1 : Reads MM_STAT v s1 := wrn_reads (by unfold MM_STAT TO_CAP0; omega) h
  have hs2 : Reads MM_STAT v s2 := regBit_reads (by decide) hs1.setToll
  exact .ite (fun _ => hs2.evt (by decide)) (fun _ => hs2)

theorem poolLose_mmStat {p f n : Nat} (h : Reads MM_STAT v s) : Reads MM_STAT v (poolLose p f n s) := by
  unfold poolLose
  extract_lets f' h' back s1 s2 src s3
  have hs1 : Reads MM_STAT v s1 := poolFree_reads safeReg_mmStat h
  have hs2 : Reads MM_STAT v s2 := wrn_reads (by unfold MM_STAT MM_POOL_TOTAL; omega) hs1
  have hs3 : Reads MM_STAT v s3 := hs2.setMem
  exact wrn_reads (by decide) hs3

theorem tileLose_mmStat {r q n : Nat} (h : Reads MM_STAT v s) : Reads MM_STAT v (tileLose r q n s) := by
  unfold tileLose
  split
  · exact h
  · exact poolLose_mmStat h.set

theorem copyLose_mmStat {i n : Nat} (h : Reads MM_STAT v s) : Reads MM_STAT v (copyLose i n s) := by
  unfold copyLose
  split
  · exact h
  · exact poolLose_mmStat h.set

end

/-! ## Loops that write each index once -/

/-- What one step of a loop establishes where the steps before it keep what it needs, and the steps after it keep what it
establishes. -/
theorem forEach_once {α : Type} {l : List α} {f : α → State → State} {P Q : State → Prop} {x : α} (hx : x ∈ l)
    (hp : ∀ y, y ≠ x → ∀ t, P t → P (f y t)) (hfx : ∀ t, P t → Q (f x t)) (hq : ∀ y, y ≠ x → ∀ t, Q t → Q (f y t))
    (hn : l.Nodup) (s : State) (h : P s) : Q (forEach l f s) := by
  have keep : ∀ (l : List α) t, x ∉ l → Q t → Q (forEach l f t) := fun l => by
    induction l with
    | nil => exact fun t _ h => h
    | cons y l ih =>
      exact fun t hm h => ih (f y t) (fun hc => hm (List.mem_cons_of_mem _ hc)) (hq y (fun e => hm (e ▸ List.mem_cons_self ..)) t h)
  induction l generalizing s with
  | nil => cases hx
  | cons y l ih =>
    obtain ⟨hy, hl⟩ := List.nodup_cons.mp hn
    obtain rfl | hm := List.mem_cons.mp hx
    · exact keep l _ hy (hfx s h)
    · exact ih hm hl (f y s) (hp y (fun e => hy (e ▸ hm)) s h)

theorem nth_upd_same (l : List Nat) {i : Nat} (f : Nat → Nat) (h : i < l.length) : nth (upd l i f) i = f (nth l i) := by
  induction l generalizing i with
  | nil => simp at h
  | cons y l ih =>
    cases i with
    | zero => rfl
    | succ i => exact ih (by simpa using h)

/-! ## A period of the Toll -/

theorem tollOfs_split (k : Nat) : tollOfs (k / 4) (k % 4) = 4 * k := by
  unfold tollOfs
  omega

/-- Paying what client `k / 4` owes of resource `k % 4`. -/
theorem tollSettle_pays {s : State} (hen : fbit s fTO_CTL_EN = true) (k : Nat) :
    rdn (tollSettle k s) (TO_AVAIL + 4 * k) = rdn s (TO_AVAIL + 4 * k) - min (smGet s.toll.owed k 0) (rdn s (TO_AVAIL + 4 * k)) := by
  have hlt := rdn_lt s (TO_AVAIL + 4 * k)
  simp only [tollSettle]
  split
  · next h0 => rw [h0, Nat.sub_zero]
  · have ht : ∀ n, rdn (tollTake s (k / 4) (k % 4) n) (TO_AVAIL + 4 * k) = (rdn s (TO_AVAIL + 4 * k) - n) % 2 ^ 32 := fun n => by
      simp only [tollTake, hen, Bool.not_true, Bool.false_eq_true, if_false, tollOfs_split]
      exact rdn_wrn_same ..
    exact (ht _).trans (Nat.mod_eq_of_lt (by omega))

/-- Of the Toll, a payment of one client for one resource leaves what the others have, owe and are granted. -/
theorem tollSettle_keeps (k : Nat) (s : State) : (tollSettle k s).toll.budget = s.toll.budget ∧
    (∀ j, j ≠ k → smGet (tollSettle k s).toll.owed j 0 = smGet s.toll.owed j 0) ∧
    (∀ a, a ≠ TO_AVAIL + 4 * k → rdn (tollSettle k s) a = rdn s a) := by
  simp only [tollSettle]
  split
  · exact ⟨rfl, fun j _ => rfl, fun a _ => rfl⟩
  · refine ⟨?_, fun j hj => smGet_smPut_other _ _ _ _ hj, fun a ha => ?_⟩
    · simp only [tollTake]
      split <;> rfl
    · simp only [tollTake]
      split
      · rfl
      · exact rdn_wrn_other s _ (by rwa [tollOfs_split])

/-- A client that owes nothing pays nothing. -/
theorem tollSettle_of_not_owed {s : State} {k : Nat} (h : smGet s.toll.owed k 0 = 0) : tollSettle k s = s := by
  simp only [tollSettle, h, Nat.zero_min, if_true]

/-- A grant and its payment leave every other client's books and every other register. -/
theorem grant_keeps (k : Nat) (s : State) : (tollSettle k (grantOne k s)).toll.budget = s.toll.budget ∧
    (∀ j, j ≠ k → smGet (tollSettle k (grantOne k s)).toll.owed j 0 = smGet s.toll.owed j 0) ∧
    (∀ a, a ≠ TO_AVAIL + 4 * k → rdn (tollSettle k (grantOne k s)) a = rdn s a) := by
  obtain ⟨hb, ho, hr⟩ := tollSettle_keeps k (grantOne k s)
  exact ⟨hb, ho, fun a ha => (hr a ha).trans (rdn_wrn_other s _ ha)⟩

/-- A grant makes the budget and the leftover up to it available, and pays what is owed from them. -/
theorem grant_pays {s : State} {k b a o : Nat} (hen : fbit s fTO_CTL_EN = true) (hb : smGet s.toll.budget k 0 = b) (hlt : b < 2 ^ 24)
    (ha : rdn s (TO_AVAIL + 4 * k) = a) (ho : smGet s.toll.owed k 0 = o) :
    rdn (tollSettle k (grantOne k s)) (TO_AVAIL + 4 * k) = b + min a b - min o (b + min a b) := by
  have hg : rdn (grantOne k s) (TO_AVAIL + 4 * k) = b + min a b := by
    have h : rdn (grantOne k s) (TO_AVAIL + 4 * k) = (smGet s.toll.budget k 0 + min (rdn s (TO_AVAIL + 4 * k)) (smGet s.toll.budget k 0)) %
        2 ^ 32 := rdn_wrn_same s (TO_AVAIL + 4 * k) _
    have hmin : min a b ≤ b := Nat.min_le_right ..
    rw [h, hb, ha]
    exact Nat.mod_eq_of_lt (by omega)
  have heng : fbit (grantOne k s) fTO_CTL_EN = true :=
    (fbit_of_reads ((rdn_wrn_other s _ (by simp only [TO_AVAIL]; omega) : rdn (grantOne k s) (fTO_CTL_EN.reg + 0) = _))).trans hen
  have hog : smGet (grantOne k s).toll.owed k 0 = o := ho
  rw [tollSettle_pays heng, hg, hog]

/-- The grants of a period. -/
def grantAll (s : State) : State := forEach (List.range (4 * tollClients)) (fun k t => tollSettle k (grantOne k t)) s

theorem grantAll_avail {s : State} {k : Nat} (hen : fbit s fTO_CTL_EN = true) (hk : k < 4 * tollClients)
    (hlt : smGet s.toll.budget k 0 < 2 ^ 24) : rdn (grantAll s) (TO_AVAIL + 4 * k) =
      smGet s.toll.budget k 0 + min (rdn s (TO_AVAIL + 4 * k)) (smGet s.toll.budget k 0) -
      min (smGet s.toll.owed k 0) (smGet s.toll.budget k 0 + min (rdn s (TO_AVAIL + 4 * k)) (smGet s.toll.budget k 0)) := by
  refine forEach_once (P := fun t => fbit t fTO_CTL_EN = true ∧ smGet t.toll.budget k 0 = smGet s.toll.budget k 0 ∧
      rdn t (TO_AVAIL + 4 * k) = rdn s (TO_AVAIL + 4 * k) ∧ smGet t.toll.owed k 0 = smGet s.toll.owed k 0) (x := k)
    (Q := fun t => rdn t (TO_AVAIL + 4 * k) = smGet s.toll.budget k 0 + min (rdn s (TO_AVAIL + 4 * k)) (smGet s.toll.budget k 0) -
      min (smGet s.toll.owed k 0) (smGet s.toll.budget k 0 + min (rdn s (TO_AVAIL + 4 * k)) (smGet s.toll.budget k 0)))
    (List.mem_range.mpr hk) ?_ ?_ ?_ List.nodup_range s ⟨hen, rfl, rfl, rfl⟩
  · rintro y hy t ⟨h1, h2, h3, h4⟩
    obtain ⟨hb, ho, hr⟩ := grant_keeps y t
    exact ⟨(fbit_of_reads (hr _ (by simp only [TO_AVAIL]; omega))).trans h1, by rw [hb, h2], by rw [hr _ (by omega), h3],
      by rw [ho k (Ne.symm hy), h4]⟩
  · rintro t ⟨h1, h2, h3, h4⟩
    exact grant_pays h1 h2 hlt h3 h4
  · intro y hy t h
    rw [(grant_keeps y t).2.2 _ (by omega), h]

theorem rdn_grantAll (s : State) {a : Nat} (h : a < TO_AVAIL) : rdn (grantAll s) a = rdn s a :=
  rdn_forEach (fun k t => (grant_keeps k t).2.2 a (by omega)) s

theorem grantAll_he (s : State) : (grantAll s).he = s.he := by
  refine forEach_kept (·.he) (fun k t => ?_) s
  have h : (tollSettle k (grantOne k t)).he = (grantOne k t).he := kept_of_sound .he tollSettle_sound
  exact h

/-- Where nothing is owed a period spends nothing. -/
theorem grantAll_spent {s : State} (h : s.toll.owed = []) : (grantAll s).toll.spent = s.toll.spent := by
  have hl : ∀ (l : List Nat) (t : State), t.toll.owed = [] → (forEach l (fun k t => tollSettle k (grantOne k t)) t).toll.spent = t.toll.spent := by
    intro l
    induction l with
    | nil => exact fun t _ => rfl
    | cons k l ih =>
      intro t ht
      have hg : tollSettle k (grantOne k t) = grantOne k t := tollSettle_of_not_owed (congrArg (smGet · k 0) ht)
      have hi := ih (tollSettle k (grantOne k t)) (by rw [hg]; exact ht)
      exact hi.trans (by rw [hg]; rfl)
  unfold grantAll
  exact hl _ s h

/-- The state of a period that is counted and has no short client. -/
def periodCounted (s : State) : State := { cntWrap s TO_PERIOD with toll := { s.toll with short := [] } }

theorem rdn_periodCounted (s : State) {a : Nat} (h : a ≠ TO_PERIOD) : rdn (periodCounted s) a = rdn s a := rdn_cntWrap_other s 1 h

theorem enabled_periodCounted {s : State} (h : fbit s fTO_CTL_EN = true) : fbit (periodCounted s) fTO_CTL_EN = true :=
  (fbit_of_reads (rdn_periodCounted s (by decide))).trans h

/-- A period without a commit, a waiting access or a short client counts and grants. -/
theorem tollPeriod_plain {s : State} (hp : fbit s fTO_CTL_PEND = false) (hen : fbit s fTO_CTL_EN = true) (hw : s.he.w1 = []) :
    tollPeriod s = grantAll (periodCounted s) := by
  have hp1 : fbit (cntWrap s TO_PERIOD) fTO_CTL_PEND = false :=
    (fbit_of_reads (rdn_cntWrap_other s 1 (by decide))).trans hp
  have ha : applyBudgets (cntWrap s TO_PERIOD) = cntWrap s TO_PERIOD := by
    simp only [applyBudgets, hp1, Bool.not_false, if_true]
  have hwg : ∀ t : State, t.he = s.he → w1Drain t = t := fun t ht => by
    have hn : t.he.w1 = [] := by rw [ht, hw]
    simp only [w1Drain, hn, List.map_nil, List.sum_nil, w1Run]
  have hperiod : tollPeriod s = w1Drain (if fbit (periodCounted s) fTO_CTL_EN then
      grantAll (periodCounted s)
      else (periodCounted s)) := by
    simp only [tollPeriod, ha]
    rfl
  rw [hperiod, if_pos (enabled_periodCounted hen)]
  exact hwg _ ((grantAll_he _).trans rfl)

theorem tollPeriodStart_grants {s : State} (hp : fbit s fTO_CTL_PEND = false) (hen : fbit s fTO_CTL_EN = true) (hw : s.he.w1 = [])
    (hs : s.toll.short = []) : ∃ t, exec .tollPeriodStart s = .next t ∧
    (∀ k g, k < 4 * tollClients → smGet s.toll.budget k 0 < 2 ^ 24 →
      g = smGet s.toll.budget k 0 + min (rdn s (TO_AVAIL + 4 * k)) (smGet s.toll.budget k 0) →
      rdn t (TO_AVAIL + 4 * k) = g - min (smGet s.toll.owed k 0) g) ∧
    rdn t TO_PERIOD = (rdn s TO_PERIOD + 1) % 2 ^ 32 ∧ (s.toll.owed = [] → t.toll.spent = s.toll.spent) := by
  have hstart : periodStart s = tollPeriod s := by simp only [periodStart, hs, List.reverse_nil, forEach, List.foldl_nil]
  refine ⟨_, congrArg Host.Outcome.next (hstart.trans (tollPeriod_plain hp hen hw)), ?_, ?_, fun ho => ?_⟩
  · rintro k g hk hlt rfl
    have hr : rdn (periodCounted s) (TO_AVAIL + 4 * k) = rdn s (TO_AVAIL + 4 * k) :=
      rdn_periodCounted s (by simp only [TO_AVAIL, TO_PERIOD]; omega)
    exact (grantAll_avail (enabled_periodCounted hen) hk hlt).trans (by rw [hr]; rfl)
  · exact (rdn_grantAll (periodCounted s) (by decide)).trans (rdn_cntWrap_same s TO_PERIOD 1)
  · exact grantAll_spent (s := (periodCounted s)) ho

/-! ## Spends and budgets -/

/-- A cost that is covered is taken from the available amount and added to the spent sum. -/
theorem tollTake_spends {s : State} {c r n : Nat} (hen : fbit s fTO_CTL_EN = true) (hc : tollCovers s c r n = true) :
    rdn (tollTake s c r n) (TO_AVAIL + tollOfs c r) + n = rdn s (TO_AVAIL + tollOfs c r) ∧
    smGet (tollTake s c r n).toll.spent (4 * c + r) 0 = (smGet s.toll.spent (4 * c + r) 0 + n) % 2 ^ 64 ∧
    (∀ a, a ≠ TO_AVAIL + tollOfs c r → rdn (tollTake s c r n) a = rdn s a) := by
  have hle : n ≤ rdn s (TO_AVAIL + tollOfs c r) := by simpa [tollCovers, hen] using hc
  have hlt := rdn_lt s (TO_AVAIL + tollOfs c r)
  simp only [tollTake, hen, Bool.not_true, Bool.false_eq_true, if_false]
  refine ⟨?_, smGet_smPut_same .., fun a ha => rdn_wrn_other s _ ha⟩
  have h := rdn_wrn_same s (TO_AVAIL + tollOfs c r) (rdn s (TO_AVAIL + tollOfs c r) - n)
  rw [Nat.mod_eq_of_lt (by omega)] at h
  exact (congrArg (· + n) h).trans (by omega)

/-- A set that is admitted stands in the shadow registers and waits for its period. -/
theorem admitSet_effect (b : Nat → Nat) (s : State) : fbit (admitSet b s) fTO_CTL_PEND = true ∧
    ∀ k, k < 4 * tollClients → rdn (admitSet b s) (TO_BUD + 4 * k) = b k % 2 ^ 24 := by
  refine ⟨fbit_fbset_same _ fTO_CTL_PEND _ _, fun k hk => ?_⟩
  refine (rdn_fset_other _ fTO_CTL_PEND _ 0 (by simp only [TO_BUD]; omega)).trans ?_
  refine forEach_establishes (P := fun t => rdn t (TO_BUD + 4 * k) = b k % 2 ^ 24) (List.mem_range.mpr hk) (fun t => ?_) (fun y t h => ?_) s
  · rw [rdn_wrn_same]
    omega
  · by_cases hy : k = y
    · subst hy
      rw [rdn_wrn_same]
      omega
    · rw [rdn_wrn_other _ _ (by omega), h]

/-- A rescale where the capacity is overcommitted. -/
theorem tollRescale_over {r : Nat} {s : State} (hb : bit (fget s fTO_STAT_OVER) r = true) (hn : nth s.toll.prevCap r ≠ 0) :
    tollRescale r s = admitSet (fun k => if k % 4 = r ∧ k / 4 < 35 then
      smGet s.toll.budget k 0 * tollCap s r / nth s.toll.prevCap r else smGet s.toll.budget k 0) s := by
  have hg : (!bit (fget s fTO_STAT_OVER) r || nth s.toll.prevCap r == 0) = false := by simp [hb, hn]
  simp only [tollRescale, hg, Bool.false_eq_true, if_false]

theorem trySet_admitted {b : Nat → Nat} {s : State} (a : Bool) (h : ∀ r, r < 4 → setBreaks s b r = false) :
    trySet a b s = (if a then admitSet b s else s, .ok []) := by
  have hf : (List.range 4).find? (setBreaks s b) = none :=
    List.find?_eq_none.mpr fun r hr => by simp [h r (List.mem_range.mp hr)]
  simp only [trySet, hf]

/-! ## The pools -/

/-- A pool's free blocks and its low-water mark. -/
theorem poolFree_regs (s : State) (p f : Nat) (hf : f < 2 ^ 32) : rdn (poolFree p f s) (MM_POOL_FREE + p * 16) = f ∧
    rdn (poolFree p f s) (MM_POOL_LOW + p * 16) =
      min (if p ∈ s.mem.lowClear then rdn s (MM_POOL_FREE + p * 16) else rdn s (MM_POOL_LOW + p * 16)) f := by
  simp only [poolFree, List.contains_iff_mem]
  generalize (if p ∈ s.mem.lowClear then rdn s (MM_POOL_FREE + p * 16) else rdn s (MM_POOL_LOW + p * 16)) = m
  have hm : min m f ≤ f := Nat.min_le_right ..
  refine ⟨?_, ?_⟩
  · refine (rdn_wrn_other (wrn s (MM_POOL_FREE + p * 16) f) _ (by simp only [MM_POOL_FREE, MM_POOL_LOW]; omega)).trans ?_
    rw [rdn_wrn_same, Nat.mod_eq_of_lt hf]
  · refine (rdn_wrn_same (wrn s (MM_POOL_FREE + p * 16) f) _ _).trans (Nat.mod_eq_of_lt (by omega))

/-- Blocks that a pool has move from free to held. -/
theorem poolTake_moves {s : State} {p n : Nat} (hp : p < 5) (hl : s.mem.held.length = 5) (hc : poolCan s p n = true) :
    rdn (poolTake s p n) (MM_POOL_FREE + p * 16) + n = rdn s (MM_POOL_FREE + p * 16) ∧ poolHeld (poolTake s p n) p = poolHeld s p + n ∧
    rdn (poolTake s p n) (MM_POOL_LOW + p * 16) =
      min (if p ∈ s.mem.lowClear then rdn s (MM_POOL_FREE + p * 16) else rdn s (MM_POOL_LOW + p * 16))
        (rdn s (MM_POOL_FREE + p * 16) - n) := by
  have hle : n ≤ rdn s (MM_POOL_FREE + p * 16) := by simpa [poolCan] using hc
  have hlt := rdn_lt s (MM_POOL_FREE + p * 16)
  obtain ⟨hf, hlow⟩ := poolFree_regs s p (rdn s (MM_POOL_FREE + p * 16) - n) (by omega)
  refine ⟨(congrArg (· + n) hf).trans (by omega), ?_, hlow⟩
  exact nth_upd_same s.mem.held _ (by omega)

/-- Blocks that are held move back. -/
theorem poolGive_moves {s : State} {p n : Nat} (hp : p < 5) (hl : s.mem.held.length = 5) (hc : n ≤ poolHeld s p)
    (hlt : rdn s (MM_POOL_FREE + p * 16) + n < 2 ^ 32) :
    rdn (poolGive s p n) (MM_POOL_FREE + p * 16) = rdn s (MM_POOL_FREE + p * 16) + n ∧ poolHeld (poolGive s p n) p + n = poolHeld s p := by
  obtain ⟨hf, -⟩ := poolFree_regs s p (rdn s (MM_POOL_FREE + p * 16) + n) hlt
  simp only [poolGive, Nat.min_eq_left hc]
  refine ⟨hf, ?_⟩
  have hh : nth (upd s.mem.held p (fun x => x - n)) p = poolHeld s p - n := nth_upd_same s.mem.held _ (by omega)
  exact (congrArg (· + n) hh).trans (by omega)

/-- The sizes of the pools stand in their registers, less what is held. -/
theorem setPools_regs {size : Nat → Nat} {s : State} {p : Nat} (hp : p < 5) (hlt : size p < 2 ^ 32) :
    rdn (setPools size s) (MM_POOL_TOTAL + p * 16) = size p ∧
    rdn (setPools size s) (MM_POOL_FREE + p * 16) = size p - poolHeld s p ∧
    rdn (setPools size s) (MM_POOL_LOW + p * 16) = size p - poolHeld s p := by
  refine forEach_once (P := fun t => t.mem.held = s.mem.held) (x := p) (Q := fun t => rdn t (MM_POOL_TOTAL + p * 16) = size p ∧
    rdn t (MM_POOL_FREE + p * 16) = size p - poolHeld s p ∧ rdn t (MM_POOL_LOW + p * 16) = size p - poolHeld s p)
    (List.mem_range.mpr hp) ?_ ?_ ?_ List.nodup_range _ rfl
  · exact fun y _ t h => h
  · intro t h
    have hh : poolHeld t p = poolHeld s p := congrArg (nth · p) h
    simp only [hh]
    refine ⟨?_, ?_, ?_⟩
    · rw [rdn_wrn_other _ _ (by simp only [MM_POOL_TOTAL, MM_POOL_LOW]; omega),
        rdn_wrn_other _ _ (by simp only [MM_POOL_TOTAL, MM_POOL_FREE]; omega), rdn_wrn_same, Nat.mod_eq_of_lt hlt]
    · rw [rdn_wrn_other _ _ (by simp only [MM_POOL_FREE, MM_POOL_LOW]; omega), rdn_wrn_same, Nat.mod_eq_of_lt (by omega)]
    · rw [rdn_wrn_same, Nat.mod_eq_of_lt (by omega)]
  · rintro y hy t ⟨h1, h2, h3⟩
    have hne : ∀ o x, o < 12 → x < 12 → MM_POOL_TOTAL + o + p * 16 ≠ MM_POOL_TOTAL + x + y * 16 := fun o x _ _ => by omega
    have hk : ∀ o, o < 12 → rdn (wrn (wrn (wrn t (MM_POOL_TOTAL + y * 16) (size y)) (MM_POOL_FREE + y * 16) (size y - poolHeld t y))
        (MM_POOL_LOW + y * 16) (size y - poolHeld t y)) (MM_POOL_TOTAL + o + p * 16) = rdn t (MM_POOL_TOTAL + o + p * 16) := fun o ho => by
      rw [rdn_wrn_other _ _ (hne o 8 ho (by omega)), rdn_wrn_other _ _ (hne o 4 ho (by omega)), rdn_wrn_other _ _ (hne o 0 ho (by omega))]
    exact ⟨(hk 0 (by omega)).trans h1, (hk 4 (by omega)).trans h2, (hk 8 (by omega)).trans h3⟩

/-- Sizes that fit are taken. -/
theorem runPoolSet_fits {c : CmdCall} {u : State} (hq : poolsQuiet u = true)
    (hs : ∀ p, p < 5 → poolHeld u p ≤ pd c (4 * p) ∧ pd c (4 * p) < 2 ^ 23)
    (hf : rsvBase u + 80 * 1048576 + (pd c 0 + pd c 4 + pd c 8 + pd c 12 + pd c 16) * 4096 ≤ lp5Usable u) :
    runPoolSet c u = (setPools (fun p => pd c (4 * p)) u, .ok []) := by
  have hsum : ((List.range 5).map (fun p => pd c (4 * p))).sum = pd c 0 + pd c 4 + pd c 8 + pd c 12 + pd c 16 := by
    simp only [List.range_succ_eq_map, List.range_zero, List.map_cons, List.map_nil, List.sum_cons, List.sum_nil]
    simp only [Nat.succ_eq_add_one, Nat.zero_add, Nat.reduceAdd, Nat.reduceMul, Nat.add_zero, Nat.mul_zero, Nat.add_assoc]
  have hfind : (List.range 5).find? (fun p => decide (pd c (4 * p) < poolHeld u p ∨ 2 ^ 23 ≤ pd c (4 * p))) = none :=
    List.find?_eq_none.mpr fun p hp => by
      have := hs p (List.mem_range.mp hp)
      simp only [decide_eq_true_eq]
      omega
  simp only [runPoolSet, hq, hsum, Nat.not_lt.mpr hf, hfind, Bool.not_true, Bool.false_eq_true, if_false]

/-! ## A lost channel -/

theorem bit_low {v i : Nat} (h : i < 32) : bit (v % 2 ^ 32) i = bit v i := by
  rw [bit, Nat.testBit_mod_two_pow, decide_eq_true h, Bool.true_and, bit]


/-- A channel that is lost is marked in LOST and leaves USE. -/
theorem channelLost_marks {ch : Nat} (l : ChannelLoss) (s : State) (hch : ch < 8) :
    bit (fget (channelLost ch l s) fMM_STAT_USE) ch = false ∧ bit (fget (channelLost ch l s) fMM_STAT_LOST) ch = true := by
  have hreads : Reads MM_STAT (rdn (regBit (regBit s MM_STAT (16 + ch) true) MM_STAT (24 + ch) false) MM_STAT) (channelLost ch l s) := by
    unfold channelLost
    extract_lets use n s1 s2 s3 s4
    have hs1 : Reads MM_STAT (rdn s1 MM_STAT) s1 := rfl
    have hs2 : Reads MM_STAT (rdn s1 MM_STAT) s2 := forEach_reads hs1 (fun _ _ ht => poolLose_mmStat ht)
    have hs3 : Reads MM_STAT (rdn s1 MM_STAT) s3 :=
      forEach_reads (forEach_reads hs2 (fun _ _ ht => copyLose_mmStat ht)) (fun _ _ ht => tileLose_mmStat ht)
    have hs4 : Reads MM_STAT (rdn s1 MM_STAT) s4 := setCap_mmStat (by omega) hs3
    exact replaceUpdate_mmStat (paDetect_mmStat (by omega) (hs4.evt (by decide)))
  have huse : bit (rdn (channelLost ch l s) MM_STAT) (24 + ch) = false := by
    rw [show rdn (channelLost ch l s) MM_STAT = _ from hreads]
    exact bit_regBit_same _ _ _ (by omega)
  have hlost : bit (rdn (channelLost ch l s) MM_STAT) (16 + ch) = true := by
    rw [show rdn (channelLost ch l s) MM_STAT = _ from hreads]
    exact (congrArg (bit · (16 + ch)) (rdn_wrn_same ..)).trans ((bit_low (by omega)).trans ((testBit_setBits_other _ _ (le_refl _)
      (.inl (by omega))).trans (bit_regBit_same s MM_STAT true (by omega))))
  exact ⟨(testBit_bits _ 31 24 ch).trans (by simp only [bit] at huse; simp [huse]),
    (testBit_bits _ 23 16 ch).trans (by simp only [bit] at hlost; simp [hlost]; omega)⟩

/-- Settles O49: each row takes the branch that its conditions choose. -/
theorem tollAndMemoryRowsComplete : Obligations.TollAndMemoryRowsComplete := by
  refine ⟨?_, ?_, ?_, ?_, ?_, ?_, ?_, ?_, ?_, ?_, ?_, ?_, ?_, ?_, ?_, ?_, ?_, ?_, ?_, ?_⟩
  · exact fun s hp hen hw hs => tollPeriodStart_grants hp hen hw hs
  · rintro s c r n hen hc t rfl
    exact tollTake_spends hen hc
  · intro s c r n hen
    exact ⟨by simp only [tollCovers, hen, Bool.not_false, Bool.true_or], by simp only [tollTake, hen, Bool.not_false, if_true]⟩
  · exact fun ag s h => congrArg Host.Outcome.next (gated_of_covered h _ _)
  · intro s h
    refine congrArg Host.Outcome.next ?_
    simp [gated, h]
  · intro r s hb hn
    obtain ⟨hp, hbud⟩ := admitSet_effect (fun k => if k % 4 = r.val ∧ k / 4 < 35 then
      smGet s.toll.budget k 0 * tollCap s r.val / nth s.toll.prevCap r.val else smGet s.toll.budget k 0) s
    exact ⟨_, congrArg Host.Outcome.next (tollRescale_over hb hn), hp,
      fun k hk h1 h2 => (hbud k hk).trans (by rw [if_pos ⟨h1, h2⟩]), fun k hk h1 => (hbud k hk).trans (by rw [if_neg (fun h => h1 h.1)])⟩
  · exact fun b s h => ⟨trySet_admitted true h, trySet_admitted false h⟩
  · intro a b s r h
    simp only [trySet, h]
  · intro sp c s u hsp h hu hb
    subst hsp hu
    exact congrArg Host.Outcome.next (mbRun_ok h (trySet_admitted _ hb))
  · intro sp c s u p b hsp h hu hp hbud hb
    subst hsp hu
    refine congrArg Host.Outcome.next (mbRun_ok h ?_)
    simp only [runTollProfile, hp, ← hbud, trySet_admitted true hb, if_true]
  · intro ch rt f o c t s hu hc
    have hg : (bit (fget s fMM_STAT_USE) ch.val && (rt || ueReached s ch.val)) = true := by simpa [hu] using hc
    exact congrArg Host.Outcome.next (if_pos hg)
  · intro ch rt f o c t s hu
    exact congrArg Host.Outcome.next (if_neg (by simp [hu]))
  · intro ch f o c t s hu
    exact congrArg Host.Outcome.next (if_neg (by simp [hu]))
  · exact fun ch l s hch => ⟨_, rfl, channelLost_marks l s hch⟩
  · exact fun ce ue s h => congrArg Host.Outcome.next (if_pos h)
  · exact fun ce ue s h => congrArg Host.Outcome.next (if_neg (by simp [h]))
  · exact fun s p n hp hl hc => poolTake_moves hp hl hc
  · exact fun s p n hp hl hc hlt => poolGive_moves hp hl hc hlt
  · intro sp c s u hsp h hu
    subst hsp hu
    exact congrArg Host.Outcome.next (mbRun_ok h rfl)
  · intro sp c s u hsp h hu hq hs hf
    subst hsp hu
    exact ⟨_, congrArg Host.Outcome.next (mbRun_ok h (runPoolSet_fits hq hs hf)),
      fun p hp => setPools_regs hp (by have := (hs p hp).2; omega)⟩

end Sys2Proof.Machine
end

section
/-! The event matrix. -/

namespace Sys2Proof.Machine

set_option Elab.async false
set_option Elab.async false

/-! ## Inputs, outputs and cells -/

/-- The word that is left of another when a mask's bits are cleared. -/
theorem testBit_or_sub (v m i : Nat) : (v.lor m - m).testBit i = (v.testBit i && !m.testBit i) := by
  have hle : ∀ a b : Nat, b ≤ a.lor b := fun a b => Nat.right_le_or
  have hmod : ∀ a b : Nat, a.lor b % 2 = 1 ↔ a % 2 = 1 ∨ b % 2 = 1 := fun a b => Nat.or_mod_two_eq_one
  have hdiv : ∀ a b : Nat, a.lor b / 2 = (a / 2).lor (b / 2) := fun a b => Nat.or_div_two
  induction i generalizing v m with
  | zero =>
    have h1 := hle v m
    have h2 := hmod v m
    have hval : (v.lor m - m) % 2 = 1 ↔ v % 2 = 1 ∧ ¬ m % 2 = 1 := by omega
    simp only [Nat.testBit_zero, hval, Bool.decide_and, decide_not]
  | succ i ih =>
    have h1 := hle v m
    have h2 := hmod v m
    have h3 := hdiv v m
    have hval : (v.lor m - m) / 2 = (v / 2).lor (m / 2) - m / 2 := by omega
    simp only [Nat.testBit_succ, hval, ih]

/-- A clear of trips clears exactly the bits it names. -/
theorem tripClear_bits (w : Fin 8) (m : Word) (s : State) : (∀ i, i < 32 → bit (rdn (tripClear w.val m.toNat s) (EM_TRIP + 4 * w.val)) i =
    (bit (rdn s (EM_TRIP + 4 * w.val)) i && !bit m.toNat i)) ∧
    (∀ a, a ≠ EM_TRIP + 4 * w.val → rdn (tripClear w.val m.toNat s) a = rdn s a) := by
  refine ⟨fun i hi => ?_, fun a ha => rdn_wrn_other s _ ha⟩
  have h : rdn (tripClear w.val m.toNat s) (EM_TRIP + 4 * w.val) =
      ((rdn s (EM_TRIP + 4 * w.val)).lor m.toNat - m.toNat) % 2 ^ 32 := rdn_wrn_same ..
  rw [h, bit_low hi]
  exact testBit_or_sub ..

/-- Driving an output leaves whether it is busy. -/
theorem busy_emDrive (k : Nat) (x : Bool) (t : State) :
    fbit (emDrive k x t) fEM_OUT_STAT_BUSY (k * 8) = fbit t fEM_OUT_STAT_BUSY (k * 8) := by
  have h : fget (emDrive k x t) fEM_OUT_STAT_BUSY (k * 8) = fget t fEM_OUT_STAT_BUSY (k * 8) :=
    fget_fset_field t fEM_OUT_STAT_ACTIVE fEM_OUT_STAT_BUSY _ _ _ rfl (by decide) (by decide) (by decide) (.inl (by decide))
  unfold fbit
  rw [h]

theorem active_emDrive (k : Nat) (x : Bool) (t : State) : fbit (emDrive k x t) fEM_OUT_STAT_ACTIVE (k * 8) = x :=
  fbit_fbset_same t fEM_OUT_STAT_ACTIVE x (k * 8)

/-- The end of a pulse returns a busy output's ball to its inactive level. -/
theorem outPulseEnd_busy {k : Nat} {s : State} (hb : fbit s fEM_OUT_STAT_BUSY (k * 8) = true) :
    fbit (outPulseEnd k s) fEM_OUT_STAT_BUSY (k * 8) = false ∧ fbit (outPulseEnd k s) fEM_OUT_STAT_ACTIVE (k * 8) = false ∧
    (outPulseEnd k s).outbox = .pin "EM_OUT" k (fbit s fEM_OUT_CFG_POL (k * 8)) :: s.outbox := by
  have ht : outPulseEnd k s = emDrive k false (fbset s fEM_OUT_STAT_BUSY false (k * 8)) := if_pos hb
  have hpol : fbit (fbset s fEM_OUT_STAT_BUSY false (k * 8)) fEM_OUT_CFG_POL (k * 8) = fbit s fEM_OUT_CFG_POL (k * 8) :=
    fbit_of_reads (rdn_fset_other s fEM_OUT_STAT_BUSY _ _ (by simp only; omega))
  rw [ht]
  refine ⟨?_, active_emDrive .., ?_⟩
  · exact (busy_emDrive ..).trans (fbit_fbset_same s fEM_OUT_STAT_BUSY false (k * 8))
  · simp only [emDrive, hpol, emit_outbox, fbset_outbox, Bool.false_bne]

/-! ## A firing -/

/-- Of one producer that is assigned and not tripped a firing counts, and runs the tasks of its routes. -/
theorem emFire_of_none_routed {p : Nat} {s : State} (hen : fbit s fEM_CTL_EN = true) (ha : emAssigned p = true)
    (ht : emTripped s p = false) (hr : emRoutes s p = []) : emFire p s = emCount p s := by
  have hon : [p].dedup.filter (fun p => emAssigned p && !emTripped s p) = [p] := by simp [ha, ht]
  simp only [emFire, emFires, emFireWith, hen, hon, Bool.not_true, Bool.false_eq_true, if_false, List.flatMap_cons, List.flatMap_nil, hr,
    List.append_nil, List.dedup_nil, List.filter_nil, forEach, List.foldl_cons, List.foldl_nil]

theorem emFire_of_one_routed {p c : Nat} {s : State} (hen : fbit s fEM_CTL_EN = true) (ha : emAssigned p = true)
    (ht : emTripped s p = false) (hr : emRoutes s p = [c]) : emFire p s = emTask paDetect c (emCount p s) := by
  have hon : [p].dedup.filter (fun p => emAssigned p && !emTripped s p) = [p] := by simp [ha, ht]
  have hone : [c].dedup.filter (fun x => decide (1 < [c].count x)) = [] := by simp
  have hd : [c].dedup = [c] := by simp
  simp only [emFire, emFires, emFireWith, hen, hon, Bool.not_true, Bool.false_eq_true, if_false, List.flatMap_cons, List.flatMap_nil, hr,
    List.append_nil, hone, forEach, List.foldl_cons, List.foldl_nil]
  rw [hd]
  rfl

theorem emFire_of_tripped {p : Nat} {s : State} (ht : emTripped s p = true) : emFire p s = s := by
  have hon : [p].dedup.filter (fun p => emAssigned p && !emTripped s p) = [] := by simp [ht]
  simp only [emFire, emFires, emFireWith, hon, List.flatMap_nil, List.dedup_nil, List.filter_nil, forEach, List.foldl_nil, ite_self]

/-- A level that changes moves EM_IN_LEVEL, and fires on a selected edge. -/
theorem inputEdge_moved {k : Nat} {x l : Bool} {s u : State} (hl : l = (x != fbit s fEM_IN_CFG_POL (k * 4)))
    (hne : bit (rdn s EM_IN_LEVEL) k ≠ l) (hu : u = regBit s EM_IN_LEVEL k l) : inputEdge k x s =
      if fbit s fEM_IN_CFG_EN (k * 4) && bit (fget s fEM_IN_CFG_EDGE (k * 4)) (if l then 0 else 1) then emFire k u else u := by
  simp only [inputEdge, ← hl, hne, if_false, ← hu]

/-- An enabled cell without a filter. -/
theorem cellEval_unfiltered {k : Nat} {s u : State} {v f : Bool} (hen : fbit s fEM_CELL_CTL_EN (k * 0x10) = true)
    (hf : fget s fEM_CELL_CTL_FILT (k * 0x10) = 0) (hv : v = cellNext s k true (fbit s fEM_CELL_STAT_V (k * 0x10))) (hw : f = cellF s k)
    (hu : u = outFollow k (fbset (fbset { s with em := { s.em with cellEv := smPut s.em.cellEv k 0 0 } }
      fEM_CELL_STAT_V v (k * 0x10)) fEM_CELL_STAT_F v (k * 0x10))) :
    cellEval k s = if (fget s fEM_CELL_CTL_EDGE (k * 0x10) = 0 ∧ v = true) ∨
      (fget s fEM_CELL_CTL_EDGE (k * 0x10) = 1 ∧ v = true ∧ f = false) ∨
      (fget s fEM_CELL_CTL_EDGE (k * 0x10) = 2 ∧ v = false ∧ f = true) ∨
      (fget s fEM_CELL_CTL_EDGE (k * 0x10) = 3 ∧ v ≠ f) then emFire (0x10 + k) u else u := by
  have hheld : (decide (fget s fEM_CELL_CTL_FILT (k * 0x10) ≤ 1) || cellNext s k false v == v) = true := by simp [hf]
  have h4 : fget s fEM_CELL_CTL_EDGE (k * 0x10) < 4 := bits_lt _ 28 27
  simp only [cellEval, hen, Bool.not_true, Bool.false_eq_true, if_false, ← hv, hheld, if_true, ← hu, ← hw]
  generalize fget s fEM_CELL_CTL_EDGE (k * 0x10) = e at h4 ⊢
  clear hv hw hheld hu
  obtain rfl | rfl | rfl | rfl : e = 0 ∨ e = 1 ∨ e = 2 ∨ e = 3 := by omega
  all_goals cases v <;> cases f <;> simp

/-! ## Routes -/

theorem u32At_lt (l : List Byte) (i : Nat) : u32At l i < 2 ^ 32 := by
  have hb : ∀ j, byteAt l j < 2 ^ 8 := fun j => BitVec.isLt _
  have h0 := hb i
  have h1 := hb (i + 1)
  have h2 := hb (i + 2)
  have h3 := hb (i + 2 + 1)
  simp only [u32At, u16At]
  omega

/-- The words of `n` routes from `first`, as read from the host, written into the matrix. -/
def routesLoaded (first n : Nat) (data : List Byte) (s : State) : State :=
  forEach (List.range n) (fun i t => forEach (List.range 6) (fun w u =>
    wrn u (EM_ROUTE + (first + i) * 0x20 + 4 * w) (u32At data (24 * i + 4 * w))) t) s

theorem rdn_routesLoaded {first n : Nat} {data : List Byte} (s : State) {i w : Nat} (hi : i < n) (hw : w < 6) :
    rdn (routesLoaded first n data s) (EM_ROUTE + (first + i) * 0x20 + 4 * w) = u32At data (24 * i + 4 * w) := by
  have hlt := u32At_lt data (24 * i + 4 * w)
  refine forEach_establishes (P := fun t => rdn t (EM_ROUTE + (first + i) * 0x20 + 4 * w) = u32At data (24 * i + 4 * w))
    (List.mem_range.mpr hi) (fun t => ?_) (fun j t h => ?_) s
  · refine forEach_establishes (P := fun t => rdn t (EM_ROUTE + (first + i) * 0x20 + 4 * w) = u32At data (24 * i + 4 * w))
      (List.mem_range.mpr hw) (fun t => ?_) (fun j t h => ?_) t
    · rw [rdn_wrn_same, Nat.mod_eq_of_lt hlt]
    · by_cases hj : w = j
      · rw [← hj, rdn_wrn_same, Nat.mod_eq_of_lt hlt]
      · rw [rdn_wrn_other _ _ (by omega), h]
  · by_cases hj : i = j
    · subst hj
      refine forEach_establishes (P := fun t => rdn t (EM_ROUTE + (first + i) * 0x20 + 4 * w) = u32At data (24 * i + 4 * w))
        (List.mem_range.mpr hw) (fun t => ?_) (fun j t h => ?_) t
      · rw [rdn_wrn_same, Nat.mod_eq_of_lt hlt]
      · by_cases hj : w = j
        · rw [← hj, rdn_wrn_same, Nat.mod_eq_of_lt hlt]
        · rw [rdn_wrn_other _ _ (by omega), h]
    · refine forEach_reads_of_mem h (fun x hx u hr => wrn_reads ?_ hr)
      have := List.mem_range.mp hx
      omega

theorem routesLoaded_regs (first n : Nat) (data : List Byte) (s : State) : ∃ r, routesLoaded first n data s = { s with regs := r } := by
  have keep : ∀ {α : Type} (l : List α) (f : α → State → State),
      (∀ x t, (∃ r, t = { s with regs := r }) → ∃ r, f x t = { s with regs := r }) →
      ∀ t, (∃ r, t = { s with regs := r }) → ∃ r, forEach l f t = { s with regs := r } := by
    intro α l f hf
    induction l with
    | nil => exact fun t h => h
    | cons x l ih => exact fun t h => ih (f x t) (hf x t h)
  refine keep _ _ (fun i t h => keep _ _ (fun w u hu => ?_) t h) s ⟨_, rfl⟩
  obtain ⟨r, rfl⟩ := hu
  exact ⟨_, rfl⟩

/-- Routes in range, read from the host, are written. -/
theorem runEmRouteLoad_reads {c : CmdCall} {u : State} (h1 : 1 ≤ pb c 1) (h2 : pb c 1 ≤ 64) (h3 : pb c 0 + pb c 1 ≤ 256)
    (hc : hostCanRead c u = true) :
    runEmRouteLoad c u = (routesLoaded (pb c 0) (pb c 1) c.data (hostRead c (pq c 8) (24 * pb c 1) u), .ok []) := by
  have hn : ¬ (pb c 1 < 1 ∨ 64 < pb c 1) := by omega
  simp only [runEmRouteLoad, hn, Nat.not_lt.mpr h3, hc, Bool.not_true, Bool.false_eq_true, if_false]
  rfl

/-- Settles O50: each row takes the branch that its conditions choose. -/
theorem matrixRowsComplete : Obligations.MatrixRowsComplete := by
  refine ⟨?_, ?_, ?_, ?_, ?_, ?_, ?_, ?_, ?_, ?_, ?_, ?_, ?_, ?_, ?_, ?_, ?_⟩
  · exact fun k x s h => congrArg Host.Outcome.next (if_pos h)
  · intro k x l s u hl hne hu
    have hm := inputEdge_moved hl hne hu
    refine ⟨fun hen he => congrArg Host.Outcome.next (hm.trans (if_pos (by simp [hen, he]))),
      fun hen => congrArg Host.Outcome.next (hm.trans (if_neg (by simp [hen])))⟩
  · exact fun k s hb => ⟨_, rfl, outPulseEnd_busy hb⟩
  · exact fun k s hb => congrArg Host.Outcome.next (if_neg (by simp [hb]))
  · intro ag p s h
    refine congrArg Host.Outcome.next ((gated_of_covered h _ _).trans ?_)
    have hb : bit (2 ^ 31 + p.val) 31 = true := by
      have := p.isLt
      rw [bit_eq_bits, decide_eq_true_eq, bits]
      omega
    have hm : (2 ^ 31 + p.val) % 256 = p.val := by omega
    simp only [emPut, hb, hm, if_true]
  · exact fun p s h => emFireWith_of_disabled paDetect [p] h
  · exact fun p s h => emFire_of_tripped h
  · exact fun p s hen ha ht hr => emFire_of_none_routed hen ha ht hr
  · exact fun p c s hen ha ht hr => emFire_of_one_routed hen ha ht hr
  · intro p s hen ht hc
    have hg : (!fbit s fEM_GUARD_EN || emTripped s p.val || decide (emFirings s p.val ≤ max 1 (fget s fEM_GUARD_COUNT))) = false := by
      simp only [hen, ht, decide_eq_false (Nat.not_le.mpr hc), Bool.not_true, Bool.or_self]
    refine congrArg Host.Outcome.next ?_
    simp only [stormTrip, hg, Bool.false_eq_true, if_false]
  · intro ag w m s h
    exact ⟨_, congrArg Host.Outcome.next (gated_of_covered h _ _), tripClear_bits w m s⟩
  · exact fun ag k s h => congrArg Host.Outcome.next (gated_of_covered h _ _)
  · intro k s h
    refine congrArg Host.Outcome.next ?_
    simp only [cellEval, h, Bool.not_false, if_true]
  · exact fun k s u v f hen hf hv hw hu => congrArg Host.Outcome.next (cellEval_unfiltered hen hf hv hw hu)
  · intro sp c s u hsp h hu h1 h2
    subst hsp hu
    exact congrArg Host.Outcome.next (mbRun_ok h (if_pos ⟨h1, h2⟩))
  · intro sp c s u p hsp h hu hp
    subst hsp hu
    refine congrArg Host.Outcome.next (mbRun_ok h ?_)
    simp only [runEmLoadProfile, hp]
  · intro sp c s u hsp h hu h1 h2 h3 hc
    subst hsp hu
    obtain ⟨r, hr⟩ := routesLoaded_regs (pb c 0) (pb c 1) c.data (hostRead c (pq c 8) (24 * pb c 1) (mbTake c s))
    exact ⟨_, congrArg Host.Outcome.next (mbRun_ok h (runEmRouteLoad_reads h1 h2 h3 hc)),
      fun i w hi hw => rdn_routesLoaded _ hi hw, hr ▸ same_of_regs r⟩

end Sys2Proof.Machine
end

section
/-! Detections, monitors and the auditor. -/

namespace Sys2Proof.Machine

set_option Elab.async false
set_option Elab.async false

/-! ## Temperatures -/

/-- The threshold stands beside the temperature that a sample shows. -/
theorem warn_tjShown (s : State) (tj : Nat) : fget (fset s fPA_THERM_TJ tj) fPA_THERM_WARN = fget s fPA_THERM_WARN :=
  fget_fset_field s fPA_THERM_TJ fPA_THERM_WARN tj 0 0 rfl (by decide) (by decide) (by decide) (.inr (by decide))

/-- What a sample against the WARN threshold does. -/
theorem tjWarn_effect {tj : BitVec 16} {s u : State} (hu : u = fset s fPA_THERM_TJ tj.toNat) :
    ((fget s fPA_THERM_WARN * 16 : Nat) < tj.toInt → 0x18 ∉ s.pa.asserting → tjWarn tj.toInt u = paDetect 0x18 (setAssert 0x18 true u)) ∧
    ((fget s fPA_THERM_WARN * 16 : Nat) < tj.toInt → 0x18 ∈ s.pa.asserting → tjWarn tj.toInt u = u) ∧
    (tj.toInt ≤ (fget s fPA_THERM_WARN * 16 : Nat) - 80 → tjWarn tj.toInt u = setAssert 0x18 false u) ∧
    ((fget s fPA_THERM_WARN * 16 : Nat) - 80 < tj.toInt → tj.toInt ≤ (fget s fPA_THERM_WARN * 16 : Nat) → tjWarn tj.toInt u = u) := by
  have hw : fget u fPA_THERM_WARN = fget s fPA_THERM_WARN := hu ▸ warn_tjShown s tj.toNat
  have hp : u.pa = s.pa := by rw [hu, fset_pa]
  simp only [tjWarn, hw, hp, List.contains_iff_mem, monitorTrip]
  generalize ((fget s fPA_THERM_WARN * 16 : Nat) : Int) = w
  refine ⟨fun h1 h2 => ?_, fun h1 h2 => ?_, fun h1 => ?_, fun h1 h2 => ?_⟩
  · rw [if_pos h1, if_neg h2]
  · rw [if_pos h1, if_pos h2]
  · rw [if_neg (by omega), if_pos h1]
  · rw [if_neg (by omega), if_neg (by omega)]

/-! ## Notices -/

/-- A well-formed notice is recorded, and detected where it carries SAFE and its receiver reacts to that. -/
theorem paNoticeRx_recorded {p : List Byte} {s u : State} (h0 : byteAt p 0 = 0x10) (h1 : byteAt p 1 = 0x50) (hl : 16 ≤ p.length)
    (hu : u = evt (wrn (wrn s PA_NBR (u16At p 6 % 1024 * 2 ^ 22 + byteAt p 5 % 2 * 2 ^ 21 + byteAt p 5 / 2 % 2 * 2 ^ 20 +
      byteAt p 4 % 4 * 2 ^ 18 + u16At p 2 % 512)) PA_NBR_STAMP (u32At p 8)) fPA_EVT_NBR) :
    paNoticeRx p s = if fbit s fPA_CTL_NBR_SAFE ∧ bit (byteAt p 5) 0 then paDetect 0xC u else u := by
  have hg : ¬ (byteAt p 0 ≠ 0x10 ∨ byteAt p 1 ≠ 0x50 ∨ p.length < 16) := by omega
  simp only [paNoticeRx, hg, if_false, ← hu]

/-! ## The audit -/

/-- Outside a Function Level Reset every identity that does not hold is reported. -/
theorem auditPass_bad {s : State} {i : Instance} {l : List Instance} (h : (instances s).filter (fun i => !i.ok) = i :: l)
    (hf : fbit s fHE_STAT_FLR_BUSY = false) :
    auditPass s = forEach (((i :: l).map (fun x => x.ident)).dedup) reportBad (wrn (wrn (wrn (copyTerms (cntWrap s LI_PASS))
      LI_STAT ((((i :: l).map (fun x => x.ident)).dedup.map (fun n => 2 ^ n)).sum)) LI_WHERE (2 ^ 31 + i.ident * 2 ^ 24 + i.inst))
      LI_DIFF (int32u i.diff)) := by
  have hbad : (instances s).filter (fun i => !i.ok && !(false && (i.ident == 3 || i.ident == 10))) = i :: l := by
    simpa only [Bool.false_and, Bool.not_false, Bool.and_true] using h
  simp only [auditPass, hf, hbad]

/-- Where every identity holds the pass is counted and the terms are latched. -/
theorem auditPass_good {s : State} (h : ∀ i ∈ instances s, i.ok = true) :
    auditPass s = wrn (copyTerms (cntWrap s LI_PASS)) LI_STAT 0 := by
  have hbad : (instances s).filter (fun i => !i.ok && !(fbit s fHE_STAT_FLR_BUSY && (i.ident == 3 || i.ident == 10))) = [] :=
    List.filter_eq_nil_iff.mpr fun i hi => by simp [h i hi]
  simp only [auditPass, hbad, List.map_nil, List.dedup_nil, List.sum_nil, forEach, List.foldl_nil]

/-- Settles O51: each row takes the branch that its conditions choose. -/
theorem detectionsComplete : Obligations.DetectionsComplete := by
  refine ⟨?_, ?_, ?_, ?_, ?_, ?_, ?_⟩
  · intro x h s ha hx
    refine congrArg Host.Outcome.next ?_
    simp only [faultDetect, ha, hx, Bool.not_true, Bool.false_eq_true, if_false]
  · intro x h s ha
    refine congrArg Host.Outcome.next ?_
    simp only [faultDetect, ha, Bool.not_false, if_true]
  · intro p s u h0 h1 hl hu
    have hr := paNoticeRx_recorded h0 h1 hl hu
    exact ⟨fun hb => congrArg Host.Outcome.next (hr.trans (if_neg (by simp [hb]))),
      fun hb hn => congrArg Host.Outcome.next (hr.trans (if_pos ⟨hn, hb⟩))⟩
  · exact fun r s => rfl
  · intro tj s u hu
    obtain ⟨h1, h2, h3, h4⟩ := tjWarn_effect hu
    subst hu
    exact ⟨fun ha hb => congrArg Host.Outcome.next (h1 ha hb), fun ha hb => congrArg Host.Outcome.next (h2 ha hb),
      fun ha => congrArg Host.Outcome.next (h3 ha), fun ha hb => congrArg Host.Outcome.next (h4 ha hb),
      fun ha => congrArg Host.Outcome.next (if_pos ha), fun ha => congrArg Host.Outcome.next (if_neg (by omega))⟩
  · exact fun s h => congrArg Host.Outcome.next (auditPass_good h)
  · exact fun s i l h hf => congrArg Host.Outcome.next (auditPass_bad h hf)

end Sys2Proof.Machine
end

section
/-! The release of the safe state. -/

namespace Sys2Proof.Machine

set_option Elab.async false
set_option Elab.async false

/-- A safe unit that nothing keeps from its release: source 008h is SEVERE but not sticky, and the matrix routes the SAFE frame
of bus 0 (producer 94h) to the detection of that source (consumer 1Ch). -/
def releasesIntoFault : State :=
  wrn (wrn (wrn (wrn State.reset PA_STAT (2 ^ 31)) PA_CLASS (2 * 2 ^ 16)) EM_CTL (2 ^ 31)) (EM_ROUTE + 0x94 * 0x20) (2 ^ 0x1C)

theorem releaseOk_releasesIntoFault : releaseOk releasesIntoFault = true := by decide +kernel

/-- The release idles bus 0 with a SAFE frame, whose firing detects source 008h and enters the safe state again. -/
theorem safeState_safeRelease_releasesIntoFault : safeState (safeRelease releasesIntoFault) = true := by decide +kernel

/-- Dennil's release without an ended condition is the release alone. -/
theorem exec_safeRelease_dennil (s : State) : exec (.safeRelease .dennil []) s = .next (safeRelease s) :=
  congrArg Host.Outcome.next (gated_of_covered (.inl rfl) true safeRelease)

/-- Refutes O53: Dennil's SAFE_RELEASE of `releasesIntoFault`, which nothing blocks, ends in the safe state. -/
theorem not_parapetControlsComplete : ¬ Obligations.ParapetControlsComplete := by
  unfold Obligations.ParapetControlsComplete
  rintro ⟨-, -, -, -, -, hrelease, -⟩
  obtain ⟨t, hexec, hsafe, -⟩ := hrelease [] releasesIntoFault releaseOk_releasesIntoFault
  have ht : safeRelease releasesIntoFault = t := Host.Outcome.next.inj ((exec_safeRelease_dennil _).symm.trans hexec)
  rw [← ht, safeState_safeRelease_releasesIntoFault] at hsafe
  cases hsafe

end Sys2Proof.Machine
end
